-- ==== Sys2Proof/Word.lean ====
section
/-! DEFINITION. The word types of the model. Register contents that the manual treats as numbers are `Nat` or `Int`
with an explicit saturation or wrap (R106 to R112); only the free values and the keyed functions are bit vectors. -/

namespace Sys2Proof

/-- A free value before it is narrowed to the width of its quantity. -/
abbrev Word := BitVec 64

/-- A byte of a payload, a digest, a key or a frame, as a number below 256. -/
abbrev Octet := Nat

end Sys2Proof
end

