-- ==== Sys2Proof/Config.lean ====
section
/-! DEFINITION. What the specification leaves open or takes from another standard, as constants without a body: no proof
can see what they are, so a claim holds whatever they are. -/

namespace Sys2Proof

/-- The free values of the model: the value drawn at use number `n` (log entry 2). -/
opaque Config.freeValue : Nat → Word

/-- The fixed PHY and strobe delay of a trunk port in receiving, in ns (R43; log entry 138). -/
opaque Config.rxDelay : Nat → Nat

/-- The fixed PHY and strobe delay of a trunk port in sending, in ns (R43; log entry 138). -/
opaque Config.txDelay : Nat → Nat

/-- KMAC256 of NIST SP 800-185 (R485): key bytes, message as numbers; 128-bit tag as 16 octets (log entry 9). -/
opaque Config.kmac : List Octet → List Int → List Octet

/-- SHAKE256 of FIPS 202 over a message given as numbers: the first octets of its output (log entry 9). -/
opaque Config.shake256 : Nat → List Int → List Octet

/-- SLH-DSA verification of FIPS 205: public key, message digest, signature (log entry 9). -/
opaque Config.slhVerify : List Octet → List Octet → List Octet → Bool

/-- SLH-DSA signing of the device key of the part over a digest (log entry 9). -/
opaque Config.slhSign : List Octet → List Octet → List Octet

/-- ML-KEM decapsulation of FIPS 203 and opening of the wrapped key: the device seed, the ciphertext and the sealed
octets give the key, or none where the wrap does not open (log entry 9). -/
opaque Config.kemOpen : List Octet → List Octet → List Octet → Option (List Octet)

end Sys2Proof
end

