-- ==== Sys2Proof/Syntax.lean ====
section
/-! DEFINITION. The commands of the block: one constructor per row of the operations table, with the operands that the
row's rule needs (the table gives no fields: log entry 4), and the records those operands carry. Instants are edge-clock
cycles since power-up (R32, R40). -/

namespace Sys2Proof

/-- One encoded field value of the waybill, addressed as "Addressing fields" of chapter 17 says. -/
structure Cell where
  sec : Nat
  idx : Nat
  off : Nat
  val : Int
  deriving DecidableEq, Repr, Inhabited

/-- Axis command record (chapter 06). -/
structure AxCmd where
  cmd : Nat
  arg : Nat := 0
  flags : Nat := 0
  current : Int := 0
  value : Int := 0
  vcap : Nat := 0
  tag : Nat := 0
  deriving DecidableEq, Repr, Inhabited

/-- Task record of the STAGE section (R72). `rsvd` are its reserved bits, those of word 0 lowest. -/
structure Task where
  kernel : Nat
  prio : Nat
  flow : Nat := 0
  flowEn : Bool := false
  kind : Nat := 0
  budget : Nat
  bind : Nat := 15
  rate : Nat := 0
  deps : Nat := 0
  nsucc : Nat := 0
  succIx : Nat := 0
  arg : Nat := 0
  waitIx : Nat := 0
  waitEn : Bool := false
  phase : Nat := 0
  srcIx : Nat := 0
  srcKind : Nat := 0
  maxi : Nat := 0
  bound : Nat
  rsvd : Nat := 0
  deriving DecidableEq, Repr, Inhabited

/-- Wait entry of the STAGE section (R72). `rsvd` are its reserved bits, those of word 0 lowest. -/
structure WaitEntry where
  wkind : Nat
  wix : Nat := 0
  onto : Bool := false
  deadline : Nat
  rsvd : Nat := 0
  deriving DecidableEq, Repr, Inhabited

/-- The task graph of a waybill (R72). `rsvd` is the reserved u16 of its header; a successor
entry is its whole 16 bits. -/
structure Graph where
  tasks : List Task := []
  succs : List Nat := []
  rsvd : Nat := 0
  waits : List WaitEntry := []
  deriving DecidableEq, Repr, Inhabited

/-- What a task's kernel computes. The manual names kernels by number and gives only the mode kernel's number (R675);
which chapter's work each other kernel does is firmware content, so the model's kernel table carries it (log entry 10). -/
inductive Serves where
  | mode | interlock | axis (a : Nat) | group (g : Nat) | car (c : Nat) | door (d : Nat) | dispatch | bidCost | survey
  | other
  deriving DecidableEq, Repr, Inhabited

/-- One entry of the firmware kernel table (KERNELS section, chapter 17), with the model's own `serves`. -/
structure KernelEntry where
  kernel : Nat
  argUnits : Nat := 0
  minBudget : Nat
  code : Nat := 0
  serves : Serves := .other
  deriving DecidableEq, Repr, Inhabited

/-- A unit of work on a lane: a task, or an instance by its queue slot (R80). -/
inductive Work where
  | task (i : Nat)
  | inst (slot : Nat)
  deriving DecidableEq, Repr, Inhabited

/-- Path group command record (chapter 07). -/
structure PathCmd where
  cmd : Nat
  plane : Nat := 0
  turns : Nat := 0
  blend : Nat := 0
  vcap : Nat := 0
  arclen : Nat := 0
  ends : List Int := []
  centre : List Int := []
  tag : Nat := 0
  deriving DecidableEq, Repr, Inhabited

/-- What the part samples at a Stage boundary besides its own state: the conversions of the four analogue inputs that
have ended since the boundary before, in their order (R707), the safe-output balls whose read-back differs (R420), as ball numbers. -/
structure BoundaryInputs where
  ain : List (List Int) := [[], [], [], []]
  readback : List Nat := []
  deriving DecidableEq, Repr, Inhabited

/-- What the Steward samples at a boundary notice (R51, R547, R548): the HOLD voltage and the combined PD input in mV, the
PD input power and the sensor-rail power in mW. -/
structure NoticeInputs where
  t : Nat
  hold : Nat := 0
  draw : Nat := 0
  sensor : Nat := 0
  pdIn : Nat := 0
  deriving DecidableEq, Repr, Inhabited

/-- The two tasks of a kernel's spawn request (R86): the one whose kernel asks, and the template it names. -/
structure SpawnTask where
  asker : Nat := 0
  template : Nat
  deriving DecidableEq, Repr

/-- What a channel samples at an edge of its PHn_CK (R192): whether the edge rises, and the bit, none for a code error of
form 3 (R193). -/
structure Sample where
  rising : Bool := false
  bit : Option Bool
  deriving DecidableEq, Repr

/-- The cycles that a Sync is timed by (R43, R487): that of its own strobe, and of the port's last Pdelay exchange the
strobes of request and response and the peer's turn-round in ns. -/
structure SyncStamps where
  strobe : Nat := 0
  t1 : Nat := 0
  t4 : Nat := 0
  turn : Nat := 0
  deriving DecidableEq, Repr
/-- Call record (chapter 11). -/
structure Call where
  callId : Nat := 0
  group : Nat := 0
  kind : Nat
  side : Nat := 0
  from_ : Nat := 0
  fromB : Nat := 0xFFFF
  dest : Nat := 0xFFFF
  toB : Nat := 0xFFFF
  req : Nat := 0
  requester : Nat := 0
  car : Nat := 0
  deriving DecidableEq, Repr, Inhabited

/-- Bid record (chapter 11). -/
structure Bid where
  callId : Nat
  unit : Nat
  car : Nat
  cost : Nat
  eta : Nat
  deriving DecidableEq, Repr, Inhabited

/-- DSP_OPEN (chapter 11). `tOpen` is site time in ns, the others are µs. -/
structure DspOpen where
  call : Call
  tOpen : Int
  lead : Nat
  slot : Nat
  window : Nat
  collector : Nat
  attempt : Nat
  deriving DecidableEq, Repr, Inhabited

/-- WINDOW_READ (chapter 20). `rsvd` says that a reserved bit is set. -/
structure WinRead where
  req : Nat
  addr : Nat
  len : Nat
  at_ : Bool := false
  atEpoch : Nat := 0
  rsvd : Bool := false
  deriving DecidableEq, Repr, Inhabited

/-- What a mailbox command asks (commands table of chapter 20); `bad` is a command that fails MB_FORMAT. -/
inductive MbCmd where
  | axis (a : Nat) (c : AxCmd)
  | path (g : Nat) (c : PathCmd)
  | mode (target : Nat)
  | clearFault
  | learn (kind target step : Nat)
  | brakeTest (axis : Nat)
  | switch
  | holdTest
  | selfTest
  | flush
  | setTime (site : Int)
  | write (addr width value : Nat)
  | bad (cmd : Nat)
  deriving DecidableEq, Repr, Inhabited

/-- A chunk of an object or image part (R626). -/
structure Chunk where
  obj : Nat
  part : Nat
  total : Nat
  offset : Nat
  data : List Octet
  rsvd : Bool := false
  deriving DecidableEq, Repr, Inhabited

/-- The body of a Cysin message (message catalogue of chapter 12 and the chapters it names). -/
inductive Msg where
  | linkHello (unit boot keyCur keyOther : Nat) (a : List Nat)
  | credit
  | timeSeal (origin : Nat) (seqId : Nat)
  | unitStatus (mode roles sync : Nat) (cars : List Nat) (axFault : Nat)
  | event (rec_ : List Octet)
  | safetyPdu (conn scount ts flags data crc : Nat)
  | axisCmd (axis : Nat) (cmd : AxCmd)
  | pathCmd (group : Nat) (cmd : PathCmd)
  | xdSetpoint (axis : Nat) (p v a iff : Int)
  | xdStatus (axis state : Nat) (p v iq : Int)
  | leaseRequest (pair unit leaseNo lease cause successor : Nat)
  | leaseGrant (pair holder leaseNo result left successor requester : Nat)
  | leaseRelease (pair unit leaseNo : Nat)
  | dspCall (call : Call)
  | dspOpen (o : DspOpen)
  | dspBid (callId merged : Nat) (bids : List Bid)
  | dspAssign (callId unit car attempt cost : Nat)
  | dspAnswer (type callId unit car reason : Nat)
  | dspCancel (callId requester : Nat)
  | energyOffer (share unit slice0 : Nat) (inc : List (Int × Int))
  | windowRead (r : WinRead)
  | windowData (req addr status epoch : Nat) (data : List Octet)
  | mailboxCmd (id eff : Nat) (c : MbCmd)
  | mailboxReply (id cmd status epoch detail : Nat)
  | chunk (type : Nat) (c : Chunk)
  | updateStatus (obj part status next detail : Nat)
  | attestRequest (nonce : List Octet) (flags : Nat)
  | attestReport (c : Chunk)
  | octets (type : Nat) (body : List Octet)
  deriving DecidableEq, Repr, Inhabited

/-- A destination of CTRL.DKIND (R470): 0 unit, 1 group, 2 site broadcast. -/
structure Dest where
  kind : Nat := 0
  id : Nat := 0
  deriving DecidableEq, Repr, Inhabited

/-- A Cysin frame (R472). `credit` lists the four counts of CREDIT by class, `rsvd` says that a reserved bit is set, `room`
how many bytes the payload leaves for the body. -/
structure Frame where
  version : Nat := 1
  cls : Nat
  dkind : Nat := 0
  rsvd : Bool := false
  src : Nat
  dst : Nat := 0
  type : Nat
  seq : Nat := 0
  boot : Nat
  epoch : Nat := 0
  hops : Nat := 0
  key : Nat := 0
  credit : List Nat := [0, 0, 0, 0]
  len : Nat
  room : Nat := 1456
  msg : Msg
  tag : List Octet := []
  deriving DecidableEq, Repr, Inhabited

/-- The priority vector of an Announce (IEEE 802.1AS, R487). -/
structure Announce where
  prio1 : Nat := 255
  quality : Nat := 0
  prio2 : Nat := 0
  gm : Nat := 0
  steps : Nat := 0
  deriving DecidableEq, Repr, Inhabited

/-- A mirror entry of a twin packet (R516). -/
structure MirrorEntry where
  id : Nat
  part : Nat := 0
  parts : Nat := 1
  epoch : Nat
  data : List Octet
  deriving DecidableEq, Repr, Inhabited

/-- A forwarded command of a twin packet (R512). -/
inductive TwinCmd where
  | axis (a : Nat) (c : AxCmd)
  | path (g : Nat) (c : PathCmd)
  deriving DecidableEq, Repr, Inhabited

/-- A twin packet (chapter 13). `result` is the mask of the targets in effect, `crcOk` says that its CRC passes. -/
structure TwinPkt where
  kind : Nat
  flags : Nat := 0
  pair : Nat
  unit : Nat
  boot : Nat := 0
  epoch : Nat
  leaseNo : Nat := 0
  leaseLeft : Nat := 0
  digest : Nat := 0
  wbCheck : Nat := 0
  handoffEpoch : Nat := 0
  hb : Nat := 0
  result : Nat := 0
  cmds : List TwinCmd := []
  mirror : List MirrorEntry := []
  crcOk : Bool := true
  deriving DecidableEq, Repr, Inhabited

/-- An entry of the RESIDUAL section (R121). `rsvd` is its reserved u16. -/
structure Residual where
  sec : Nat
  off : Nat
  idx : Nat
  val : Int
  rsvd : Nat := 0
  deriving DecidableEq, Repr, Inhabited

/-- A signed container as the Steward reads it (chapter 17): the header, what the sections hold, and the facts about the
bytes that its layout and digest checks find. `dir` lists the sections by ID and size, `graph` and `cells` what they hold,
`args` the argument blocks after their MODES block,
`resRsvd` the reserved u32 of the RESIDUAL section. -/
structure Container where
  layoutOk : Bool := true
  stepping : Nat := 2
  device : List Octet := []
  signer : Nat := 255
  digestOk : Bool := true
  digest : List Octet := []
  signature : List Octet := []
  secVersion : Nat := 0
  version : Nat := 0
  api : Nat := 0
  pred : List Octet := []
  dir : List (Nat × Nat) := []
  args : List Octet := []
  residuals : List Residual := []
  resRsvd : Nat := 0
  cells : List Cell := []
  graph : Graph := {}
  kernels : List KernelEntry := []
  deriving DecidableEq, Repr, Inhabited

/-- What a first read of the external NOR finds before any container (R648): SFDP readable, density, 8D-8D-8D. -/
structure NorFacts where
  present : Bool := true
  mbit : Nat := 256
  octal : Bool := true
  deriving DecidableEq, Repr, Inhabited

/-- The commands of the block: one constructor per row of the operations table, in its order. -/
inductive Instr where
  /-- STAGE_BOUNDARY (R57). The stage timer reaches the end of the Stage period; the snapshot is latched, Stage n
  outputs and staged amendments take effect and the epoch is set. -/
  | stageBoundary (io : BoundaryInputs)
  /-- BOUNDARY_NOTICE (R51). The Steward receives the boundary notice, latches and tags its quantities and applies
  channel B results for the previous Stage. -/
  | boundaryNotice (io : NoticeInputs)
  /-- COMMIT_CUTOFF (R44). The commit cut-off 160 ns before the boundary closes the output shadow and the dispatcher
  stops every task still in service. -/
  | commitCutoff (t : Nat) (executed : List (Work × Nat))
  /-- GRAPH_START (R74). After the snapshot becomes valid the dispatcher loads counters and budgets, selects rate
  tasks and releases instances. -/
  | graphStart (t : Nat)
  /-- TASK_COMPLETION (R96). A kernel signals completion within its budget; its writes become committable and its
  successors are decremented. -/
  | taskCompletion (t lane cyc : Nat)
  /-- BUDGET_EXHAUSTED (R95). A task's budget counter reaches zero and the task is stopped with its commit
  suppressed. -/
  | budgetExhausted (t lane : Nat)
  /-- CANCEL_REQUEST (R98). A kernel requests cancellation of a task or instance slot of the current Stage. -/
  | cancelRequest (t : Nat) (w : Work)
  /-- WAIT_EVENT (R77). A Cysin message, Steward reply or capture edge satisfies a task's wait and its latch is set.
  -/
  | waitEvent (t wkind wix : Nat)
  /-- WAIT_DEADLINE (R79). A wait's DEADLINE cycle is reached; the task becomes ready with its timed-out flag or is
  cancelled. -/
  | waitDeadline (t task : Nat)
  /-- KERNEL_SPAWN_REQUEST (R86). A kernel asks to spawn an instance; it is accepted into the instance queue or
  answered HELD. -/
  | kernelSpawnRequest (t : Nat) (task : SpawnTask) (arg : List Octet)
  /-- STEWARD_SPAWN_MESSAGE (R86). The Steward offers a spawning message, accepted into the instance queue or held
  for the next boundary. -/
  | stewardSpawnMessage (t src : Nat) (arg : List Octet)
  /-- CLR_RESP (R16). Writing 1 to STAGE_CONTROL.CLR_RESP clears every RESP_MAX. -/
  | clrResp (t value : Nat)
  /-- HEARTBEAT_FLIT (R25). A die link idle for 1 us sends a heartbeat flit or transaction. -/
  | heartbeatFlit (t link : Nat)
  /-- FLIT_CHECK_FAIL (R26). A flit or transaction fails its check and is sent once more. -/
  | flitCheckFail (t link : Nat) (resentOk : Bool)
  /-- DIE_LINK_FAULT (R27). A die link receives no valid flit for 4 us, or two copies fail, and the link-failure
  reaction follows. -/
  | dieLinkFault (t link cause detector : Nat)
  /-- EDGE_CLOCK_CHECK (R36). Each 1 ms window the Steward measures the edge clock and faults it when outside 400
  MHz +-3 %. -/
  | edgeClockCheck (t khz : Nat)
  /-- PLL_LOSS_OF_LOCK (R36). The main PLL reports loss of lock; channel B drops and the motion die is held in
  reset. -/
  | pllLossOfLock (t : Nat)
  /-- RTC_CHECK (R37). Each 1 s window the Steward measures the real-time clock and falls back to its own oscillator
  if it is faulty. -/
  | rtcCheck (t mhz : Nat)
  /-- LOCKSTEP_MISMATCH (R47). The two cores of a lane disagree; the lane stops, channel A drops and the Pyrad
  enters Halt. -/
  | lockstepMismatch (t lane : Nat)
  /-- MEMORY_ECC (R48). An SRAM access finds a single-bit error, corrected, or a double-bit error, sending the Pyrad
  to Halt. -/
  | memoryEcc (t addr : Nat) (double : Bool)
  /-- QUAD_TRANSITION (R143). An A or B transition steps the count register by +-1. -/
  | quadTransition (t ch : Nat) (a b z : Bool)
  /-- QUAD_CONFIRM (R144). FB.min_edge cycles pass without a further transition and the transition is confirmed. -/
  | quadConfirm (t ch line : Nat)
  /-- INDEX_INSTANT (R152). A confirmed Z edge in the counting direction fixes the reference phase or forms and acts
  on the deviation. -/
  | indexInstant (t ch : Nat)
  /-- SINCOS_SAMPLE (R157). Every 500 ns SIN and COS are converted, corrected and the coarse and fine counts
  decided. -/
  | sincosSample (t ch : Nat) (sin cos : Int)
  /-- SSI_FRAME_START (R163). FB.ssi_latch cycles before a boundary the first falling clock edge of an SSI frame is
  driven. -/
  | ssiFrameStart (t ch : Nat)
  /-- SSI_WORD (R164). The last bit of an SSI frame arrives and the word is checked and counted or rejected. -/
  | ssiWord (t ch word : Nat) (lowFirst allHigh : Bool)
  /-- SSI_DELAY_MEASURE (R161). After 16 measurement frames at Waking the channel's receive delay is set from the
  median. -/
  | ssiDelayMeasure (t ch : Nat) (delays : List (Option Nat))
  /-- DIN_RAW_TRANSITION (R174). A raw level change of a discrete input restarts its stable interval and is counted.
  -/
  | dinRawTransition (t din : Nat) (level : Bool)
  /-- DIN_FILTER_STABLE (R173). The raw level has held for DIN.stable cycles and the filtered level changes. -/
  | dinFilterStable (t din : Nat)
  /-- DIN_FIRST_LEVEL (R746). After Waking an input first steady for DIN.stable cycles takes its level without a
  filtered change. -/
  | dinFirstLevel (t din : Nat)
  /-- CHATTER_END (R178). DIN.chatter_win cycles pass without a raw transition and chattering ends. -/
  | chatterEnd (t din : Nat)
  /-- EMU_STEP (R183). At its scheduled instant the emulator emits one quadrature step and takes it from the
  backlog. -/
  | emuStep (t emu : Nat)
  /-- MODULATOR_BIT (R195). A modulator bit is taken and the fast estimate formed, then a current decision is made.
  -/
  | modulatorBit (ticks ch : Nat) (bit : Sample)
  /-- ACCURATE_ESTIMATE (R195). Every 2^R bits the accurate sinc3 estimate of a channel is formed. -/
  | accurateEstimate (ticks ch : Nat)
  /-- ANGLE_TICK (R201). Every 400 edge-clock cycles the angle interpolator forms phase-current set-points and a
  decision is made. -/
  | angleTick (t : Nat)
  /-- EDGE_FIRE (R217). A scheduled edge time is reached and the outgoing gates of changing half-bridges turn off.
  -/
  | edgeFire (ticks axis eng : Nat)
  /-- GATE_ON (R217). CURRENT.dead cycles after an edge the incoming gate turns on. -/
  | gateOn (ticks axis hb : Nat)
  /-- MODULATOR_TIMEOUT (R229). No bit for 1 us gives a current fault, cause 3. -/
  | modulatorTimeout (ticks ch : Nat)
  /-- GATE_READBACK_MISMATCH (R229). A gate ball read-back differing for 16 cycles gives a current fault, cause 7.
  -/
  | gateReadbackMismatch (t axis hb : Nat) (high : Bool)
  /-- DRIVER_FAULT_INPUT (R229). nDRVF of an axis low for CURRENT.drv_filter cycles gives a current fault, cause 8.
  -/
  | driverFaultInput (t axis low : Nat)
  /-- OFFSET_ACQUIRED (R138). After 256 Stages with bridges off each channel's offset is taken as the mean of its
  fast estimates. -/
  | offsetAcquired (t : Nat)
  /-- ENABLE (R247). ENABLE takes an axis from Idle to Held and requests brake release. -/
  | enable (axis src tag : Nat)
  /-- DISABLE (R248). DISABLE takes effect at standstill, after a quick stop when moving. -/
  | disable (axis src tag : Nat)
  /-- MODE (R249). The axis command MODE enters a new axis mode when its entry condition and hand-over pass. -/
  | mode (axis src code tag : Nat)
  /-- MOVE_ABS (R263). MOVE_ABS starts or retargets a position move to an absolute target. -/
  | moveAbs (axis src prof flags : Nat) (target : Int) (vcap tag : Nat)
  /-- MOVE_REL (R254). MOVE_REL adds a distance to the present target or to p_ref. -/
  | moveRel (axis src prof : Nat) (dist : Int) (vcap tag : Nat)
  /-- VELOCITY (R259). VELOCITY sets the target velocity of a Profile-velocity move. -/
  | velocity (axis src prof : Nat) (v : Int) (vcap tag : Nat)
  /-- STOP (R266). STOP brings the axis to rest by its profile and keeps the move for RESUME. -/
  | stop (axis src tag : Nat)
  /-- RESUME (R264). RESUME restarts a kept move or velocity. -/
  | resume (axis src tag : Nat)
  /-- QUICK_STOP (R748). QUICK_STOP ramps the reference to rest by AXIS.d_quick and enters Held. -/
  | quickStop (axis src tag : Nat)
  /-- TORQUE (R243). TORQUE commands a current in Torque mode, limited at v_limit. -/
  | torque (axis src : Nat) (current : Int) (tag : Nat)
  /-- HOLD (R251). HOLD takes the axis into Held through the hand-over checks. -/
  | hold (axis src tag : Nat)
  /-- RELEASE (R267). RELEASE clears STOP_LATCH once chattering has ended and the switch is inactive. -/
  | release (axis src tag : Nat)
  /-- DWELL_END (R264). AXIS.dwell after motion came to rest a move in the opposite direction may start. -/
  | dwellEnd (t axis : Nat)
  /-- START (R297). START makes every member of a path group enter Path in one boundary. -/
  | start (group src tag : Nat)
  /-- LINE (R286). LINE queues a line segment for the path group. -/
  | line (group src : Nat) (seg : PathCmd)
  /-- ARC (R288). ARC queues an arc segment for the path group. -/
  | arc (group src : Nat) (seg : PathCmd)
  /-- PATH_STOP (R296). STOP to a path group decelerates the path parameter to rest. -/
  | pathStop (group src tag : Nat)
  /-- PATH_RESUME (R296). RESUME of a paused path group starts a new move to the end of the queue. -/
  | pathResume (group src tag : Nat)
  /-- CLEAR (R296). CLEAR empties the queue and puts members into Held. -/
  | clear (group src tag : Nat)
  /-- CAPTURE_TRANSITION (R305). A capture input changes level and its width is measured. -/
  | captureTransition (t cap : Nat) (level : Bool)
  /-- CAPTURE_ACCEPT (R304). The new level has held for CAPTURE.min_width and the edge is accepted. -/
  | captureAccept (t cap : Nat)
  /-- COMPARE_FIRE (R312). The source reaches or passes the armed entry and the output fires a pulse and arms the
  next entry. -/
  | compareFire (t out : Nat)
  /-- COMPARE_PULSE_END (R315). COMPARE.width cycles after a pulse starts the output returns to its inactive level.
  -/
  | comparePulseEnd (t out : Nat)
  /-- HOMING_AUTO (R326). A method 6 axis with AUTO homes without a command at the first boundary its channel is
  VALID. -/
  | homingAuto (t axis : Nat)
  /-- HARDSTOP_FOUND (R325). Current at hs_current and standstill held for hs_time find the hard stop. -/
  | hardstopFound (t axis : Nat)
  /-- LEARN (R337). The mailbox LEARN command starts a Survey learn run of a kind, target and step. -/
  | learn (t src id kind target step : Nat)
  /-- ALIGN_SETTLE (R341). Each commutation hold of SURVEY.align_settle ends and the angle offset is read. -/
  | alignSettle (t axis : Nat)
  /-- LEVEL_SETTLE (R348). SURVEY.level_settle after a stop the levelling error and load reading are recorded. -/
  | levelSettle (t axis : Nat)
  /-- SURVEY_COMMIT (R131). A pending Survey value takes effect at the first boundary its axis is at standstill. -/
  | surveyCommit (t axis : Nat)
  /-- DOOR_ZONE_DISCREPANCY (R366). Door-zone inputs differing for longer than CAR.dz_disc set DZ_DEGRADED. -/
  | doorZoneDiscrepancy (t car : Nat)
  /-- RELEVEL (R375). A levelling error beyond relevel_start for relevel_n Stages starts re-levelling. -/
  | relevel (t car : Nat)
  /-- DOOR_HOLD_END (R384). The hold time of an OPEN door ends and closing may begin. -/
  | doorHoldEnd (t door : Nat)
  /-- NUDGE_TIMER (R385). The nudge timer passes DOOR.nudge_time and the next close is NUDGING. -/
  | nudgeTimer (t door : Nat)
  /-- SAFETY_INPUT_CHANGE (R400). A safety input ball changes level and an opening is remembered for the Stage. -/
  | safetyInputChange (t die pair : Nat) (ballB level : Bool)
  /-- SS1_END (R413). Standstill or SAFE_AXIS.ss1_max Stages end SS1; brakes then STO are de-energised. -/
  | ss1End (t axis : Nat)
  /-- BRAKE_TEST (R418). The mailbox BRAKE_TEST command tests each brake of an axis. -/
  | brakeTest (t src id axis : Nat)
  /-- BRAKE_TEST_STEP_END (R418). The test current has been applied for test_time Stages and the brake passes or
  fails. -/
  | brakeTestStepEnd (t : Nat)
  /-- TEST_PULSE (R420). Every 4,096 Stages an energised output ball is switched off for 2 us and read back. -/
  | testPulse (t out : Nat) (offA offB : Bool)
  /-- EDM_TIMEOUT (R420). An EDM not showing its state within t_on or t_off Stages latches an output fault. -/
  | edmTimeout (t out : Nat)
  /-- CLEAR_FAULT (R423). The mailbox CLEAR_FAULT command clears latches whose cause is gone, as a safety reset. -/
  | clearFault (t src id : Nat)
  /-- DSP_CALL (R439). A collector or car's unit receives a call and opens a round or answers it. -/
  | dspCall (t : Nat) (call : Call)
  /-- DSP_OPEN (R444). A member receives a round opening and spawns a bid-cost instance. -/
  | dspOpen (t : Nat) (o : DspOpen)
  /-- BID_SEND (R444). At its slot time a member sends its bids. -/
  | bidSend (t callId : Nat)
  /-- DSP_BID (R451). A waystation or collector receives a bid bundle and keeps the best four. -/
  | dspBid (t callId merged : Nat) (bids : List Bid)
  /-- WAYSTATION_FORWARD (R451). At its rank time a waystation forwards its merged best four bids. -/
  | waystationForward (t callId : Nat)
  /-- BID_ROUND_CLOSE (R454). The round window ends and the collector assigns the best bid. -/
  | bidRoundClose (t callId : Nat)
  /-- DSP_ASSIGN (R456). The assigned unit receives an assignment and accepts or declines. -/
  | dspAssign (t callId unit car attempt cost : Nat)
  /-- DSP_ACCEPT (R456). The collector receives acceptance of an assignment. -/
  | dspAccept (t callId unit car : Nat)
  /-- DSP_DECLINE (R456). The collector receives a decline and assigns the next kept bid. -/
  | dspDecline (t callId unit car reason : Nat)
  /-- ACCEPT_TIMEOUT (R456). No answer within accept_to makes the collector assign the next bid. -/
  | acceptTimeout (t callId : Nat)
  /-- CALL_REOPEN (R457). After DISPATCH.reopen a call without a bid or accepted assignment is reopened. -/
  | callReopen (t callId : Nat)
  /-- COLLECTOR_SWITCH (R439). A requester without an answer within accept_to sends the call to the alternative
  collector. -/
  | collectorSwitch (t req : Nat)
  /-- DSP_DONE (R441). The collector receives notice that a call has been served. -/
  | dspDone (t callId unit car : Nat)
  /-- DSP_RELEASE (R457). The collector receives a released call and reopens it at once. -/
  | dspRelease (t callId unit car reason : Nat)
  /-- DSP_CANCEL (R458). A cancel ends the round or removes the assigned stop. -/
  | dspCancel (t callId requester : Nat)
  /-- PORT_LINK_CHANGE (R467). A trunk port PHY gains or loses link, clearing learned routes. -/
  | portLinkChange (t port : Nat) (up : Bool)
  /-- LINK_HELLO (R465). A LINK_HELLO is received, making the neighbour operational and reconciling lost frames. -/
  | linkHello (t port unit boot keyCur keyOther : Nat) (a : List Nat)
  /-- HELLO_SEND (R466). Every FABRIC.hello_period a unit sends LINK_HELLO to each neighbour. -/
  | helloSend (t port : Nat)
  /-- NEIGHBOUR_TIMEOUT (R466). No valid LINK_HELLO for 3 hello periods ends the neighbour's operational state. -/
  | neighbourTimeout (t port unit : Nat)
  /-- CREDIT (R483). A CREDIT frame or field returns credits to the sender. -/
  | credit (t port unit : Nat) (counts : List Nat)
  /-- CREDIT_SEND (R483). A changed credit count unsent for 50 us sends a CREDIT frame. -/
  | creditSend (t port unit : Nat)
  /-- FRAME_TRANSMIT (R482). An idle port with a credit starts sending the highest-class ready frame. -/
  | frameTransmit (t port : Nat)
  /-- SYNC (R490). An IEEE 802.1AS Sync is received and site time is slewed or stepped. -/
  | sync (t port seqId origin : Nat) (corr : Int) (stamp : SyncStamps)
  /-- SYNC_SEND (R487). Every 2^sync_log s, and Announce and Pdelay every second, the unit sends its time frames. -/
  | syncSend (t : Nat)
  /-- SYNC_TIMEOUT (R488). No Sync within FABRIC.sync_timeout intervals clears SYNCED. -/
  | syncTimeout (t : Nat)
  /-- TIME_SEAL (R489). A TIME_SEAL is received and compared with the Sync origin timestamp. -/
  | timeSeal (t origin seqId : Nat)
  /-- TIME_SEAL_SEND (R489). A grandmaster sends TIME_SEAL once per second. -/
  | timeSealSend (t : Nat)
  /-- SAFETY_PDU (R495). A consumed SAFETY_PDU is checked and its data used from the next boundary. -/
  | safetyPdu (t src boot conn scount ts flags data crc : Nat)
  /-- SAFETY_WATCHDOG (R495). No valid PDU within SAFECON.watchdog Stages puts the connection in safe state. -/
  | safetyWatchdog (t con : Nat)
  /-- XD_STATUS (R497). A drive status message is received and serves its Stages. -/
  | xdStatus (t src axis state epoch : Nat) (p v iq : Int)
  /-- XD_CONFIRM_TIMEOUT (R499). TORQUE 0 without torque-off confirmation within XD.t_conf sends the Pyrad to Halt.
  -/
  | xdConfirmTimeout (t axis : Nat)
  /-- UNIT_STATUS (R500). Every FABRIC.status_period Stages the unit sends UNIT_STATUS. -/
  | unitStatus (t : Nat)
  /-- ENERGY_OFFER (R559). An energy offer for the unit's share is added to the bus forecast. -/
  | energyOffer (t share unit slice0 : Nat) (inc : List (Int × Int))
  /-- TWIN_PACKET (R510). A twin packet is received, checked, and its digest, result and mirror taken. -/
  | twinPacket (t : Nat) (p : TwinPkt)
  /-- TWIN_HEARTBEAT (R510). No valid packet for TWIN.hb_miss Stages loses the heartbeat. -/
  | twinHeartbeat (t : Nat)
  /-- TWIN_LINK (R511). The recovered clock loses or regains lock and the twin link goes down or up. -/
  | twinLink (t : Nat) (up : Bool)
  /-- REBASE (R522). Once every item has a fresh complete copy the standby takes the mirrored state. -/
  | rebase (t : Nat)
  /-- COMPARE_RESUME (R522). TWIN.rebase Stages after a rebase comparison resumes. -/
  | compareResume (t : Nat)
  /-- ROLE_REQUEST (R515). At Waking an aligned member requests a lease, after TWIN.grace without PREFER. -/
  | roleRequest (t : Nat)
  /-- LEASE_REQUEST (R513). The witness decides a lease request: grant, renew, succession or refusal. -/
  | leaseRequest (t pair unit leaseNo lease cause successor : Nat)
  /-- LEASE_GRANT (R515). A member receives the witness answer and takes its role. -/
  | leaseGrant (t pair holder leaseNo result left successor requester : Nat)
  /-- LEASE_RELEASE (R513). The witness receives a release and has no holder. -/
  | leaseRelease (t pair unit leaseNo : Nat)
  /-- LEASE_RENEW (R513). Every TWIN.renew the holder sends a renewal request. -/
  | leaseRenew (t : Nat)
  /-- LEASE_EXPIRY (R514). The holder's lease runs out without a grant; it hands off or stops and enters Halt. -/
  | leaseExpiry (t : Nat)
  /-- HANDOFF (R533). At epoch h a fit standby becomes ACTIVE and the predecessor drops GRANT. -/
  | handoff (t : Nat)
  /-- GRANT_CHECK (R526). TWIN.sel_time plus a Stage after a GRANT change the selector reading is compared. -/
  | grantCheck (t : Nat)
  /-- SWITCH (R532). The mailbox SWITCH command hands off the active role. -/
  | switch (t src id : Nat)
  /-- PD_CLASS (R545). A port's PoDL class or powered state changes and the grant is recomputed. -/
  | pdClass (t port cls : Nat) (powered : Bool)
  /-- CLASS_FALLBACK (R543). A Class 15 port not powered within 1 s advertises Class 14. -/
  | classFallback (t port : Nat)
  /-- POWER_LOSS (R547). PD input below HOLD for loss_n Stages begins power loss, Halt and the power-loss flush. -/
  | powerLoss (t : Nat)
  /-- POWER_RETURN (R547). The input returns before the rails turn off. -/
  | powerReturn (t : Nat)
  /-- HOLD_FLOOR (R547). HOLD falls to v_floor and the line die turns every rail off. -/
  | holdFloor (t hold : Nat)
  /-- GRANT_EXCEEDED (R553). PD input above G for 1,000 Stages sheds T2. -/
  | grantExceeded (t : Nat)
  /-- SENSOR_SUPPLY (R722). Every 100 us the rails are evaluated against S_allow and folded back. -/
  | sensorSupply (t mw5 mw12 : Nat)
  /-- RAIL_LOW (R722). A rail below 80 % for 10 ms turns off and retries after 1 s. -/
  | railLow (t rail : Nat)
  /-- BUS_ENERGY (R558). Bus voltage below v_lo or above v_hi for low_n Stages orders SS1 or blocks departures. -/
  | busEnergy (t bus : Nat)
  /-- PAIRED_DEPARTURE (R560). A car held for bus pairing departs at the start of the chosen slice. -/
  | pairedDeparture (t car : Nat)
  /-- SPRINT_CLOCK_RISE (R563). At the first boundary 100 us after the grant the stage clock rises to 500 MHz. -/
  | sprintClockRise (t : Nat)
  /-- SPRINT_REQUEST_LAPSE (R561). A request absent for sprint_hold Stages lapses. -/
  | sprintRequestLapse (t : Nat)
  /-- THERMAL_SAMPLE (R565). Every 1 ms the Steward samples temperatures and predicts t_pred. -/
  | thermalSample (t : Nat) (temps : List (Int × Int))
  /-- THERMAL_COOL (R568). Tj below threshold minus 5 K for PURSE.cool undoes the action. -/
  | thermalCool (t : Nat)
  /-- SENSOR_DISAGREEMENT (R567). A die's sensors differing by 8 K for 1 s raise EV_THERMAL cause 1. -/
  | sensorDisagreement (t die : Nat)
  /-- LEDGER_OCCURRENCE (R588). A Ledger-routed occurrence is folded, entered, counted into a summary or held. -/
  | ledgerOccurrence (t code sev : Nat) (payload : List Octet)
  /-- LEDGER_MAX_AGE (R591). The oldest waiting record has waited LEDGER.max_age and a flush begins. -/
  | ledgerMaxAge (t : Nat)
  /-- PAGE_PROGRAMMED (R592). A flash page program completes and is verified; its records leave the buffer. -/
  | pageProgrammed (t : Nat) (failed : List Nat)
  /-- NEVT_ACK (R601). Writing NEVT_ACK releases nEVT. -/
  | nevtAck (t value : Nat)
  /-- FLUSH_BIT (R591). Writing 1 to LEDGER_CONTROL.FLUSH begins a flush. -/
  | flushBit (t value : Nat)
  /-- NEVT_PULSE_END (R602). In pulse mode nEVT returns high LEDGER.nevt_width cycles after the last occurrence. -/
  | nevtPulseEnd (t : Nat)
  /-- READ_FROM (R599). A write to READ_FROM asks the Steward to fill the aperture. -/
  | readFrom (t seq : Nat)
  /-- APERTURE_FILL (R599). At the first boundary 100 us after the write the aperture holds the records wanted. -/
  | apertureFill (t : Nat)
  /-- RTC_TICK (R583). A real-time clock tick advances the life clock. -/
  | rtcTick (t : Nat)
  /-- LIFE_CLOCK_PERSIST (R584). Every 3,600 s the life clock is persisted. -/
  | lifeClockPersist (t : Nat)
  /-- AGEING_MEASUREMENT (R608). At Waking and every 3,600 s ring-oscillator pairs are measured and D, vreq and A
  updated. -/
  | ageingMeasurement (t : Nat) (counts : List (Nat × Nat))
  /-- CORE_SUPPLY_LOW (R610). A core supply 30 mV below its value for 10 us is handled as a clock fault. -/
  | coreSupplyLow (t die : Nat)
  /-- HOLD_TEST (R612). The mailbox HOLD_TEST command makes a hold-up test due at once. -/
  | holdTest (t src id : Nat)
  /-- HOLD_TEST_DUE (R612). The life clock passes hold_days since the last test and a test is due. -/
  | holdTestDue (t : Nat)
  /-- HOLD_TEST_START (R613). A due test starts at the first boundary its conditions hold. -/
  | holdTestStart (t : Nat)
  /-- HOLD_TEST_END (R614). HOLD falls 2 V under load and C and ESR are decided. -/
  | holdTestEnd (t esr : Nat) (dt : Option Nat)
  /-- SELF_TEST (R624). The mailbox SELF_TEST command runs the known-answer tests. -/
  | selfTest (t src id : Nat) (pass : Bool)
  /-- PERIODIC_SELF_TEST (R624). Every STEWARD.selftest_h hours the known-answer tests run. -/
  | periodicSelfTest (t : Nat) (pass : Bool)
  /-- OBJECT_CHUNK (R627). A chunk of a signed object or image part is taken in order or refused. -/
  | objectChunk (t src type : Nat) (c : Chunk)
  /-- UPDATE_BLOCK (R635). An image part chunk is staged into the inactive slot. -/
  | updateBlock (t src : Nat) (c : Chunk)
  /-- PART_ERASE_DONE (R635). The erase of a part's region at its first chunk completes. -/
  | partEraseDone (t : Nat)
  /-- PART_VERIFIED (R636). Verification of both parts of a slot completes and the slot becomes VERIFIED or INVALID.
  -/
  | partVerified (t : Nat) (c : Container)
  /-- AMENDMENT (R640). A complete amendment object is checked and appended to the journal or refused. -/
  | amendment (t : Nat)
  /-- AMENDMENT_COMMIT (R642). An accepted amendment commits whole at the first boundary its standstill conditions
  hold. -/
  | amendmentCommit (t : Nat)
  /-- KEY_DELIVERY (R629). A key delivery object is decapsulated and its key held. -/
  | keyDelivery (t : Nat)
  /-- KEY_ACTIVATION (R630). At the first synchronised boundary at or past ACT_AT the delivered key becomes current.
  -/
  | keyActivation (t : Nat)
  /-- OWNER_KEY_FUSE (R632). A signed kind 5 object fuses an owner key into a blank slot. -/
  | ownerKeyFuse (t : Nat)
  /-- UNSIGNED_OWNER_KEY (R623). An unowned part takes the unsigned owner-key fuse object into slot 0. -/
  | unsignedOwnerKey (t : Nat)
  /-- OWNER_KEY_REVOKE (R632). A kind 6 object marks an owner slot revoked. -/
  | ownerKeyRevoke (t : Nat)
  /-- ZEROISE (R633). A kind 7 object zeroises the fabric keys or decommissions the part. -/
  | zeroise (t : Nat)
  /-- ACTIVATE (R637). A kind 8 object makes a VERIFIED slot TRIAL and begins a new Waking. -/
  | activate (t : Nat)
  /-- COMMIT (R639). A kind 9 object, or first entry to Service, commits a TRIAL slot and blows the counters. -/
  | commit (t : Nat)
  /-- JOURNAL_COMPACTION_DONE (R644). Compaction of the journal into the other half completes. -/
  | journalCompactionDone (t : Nat)
  /-- ATTEST_REQUEST (R645). An attestation request is taken, queued or answered OBJ_BUSY. -/
  | attestRequest (t src : Nat) (keyless : Bool) (nonce : List Octet) (flags : Nat)
  /-- ATTEST_SIGNED (R646). The report signature completes and the report is sent. -/
  | attestSigned (t : Nat) (pass : Bool)
  /-- SUPPLY_UP (R717). Input above 24 V for 10 ms starts the converters and a Waking begins. -/
  | supplyUp (t : Nat)
  /-- NRESET_ASSERT (R724). nRESET low for 1 us de-energises outputs and begins the reset flush. -/
  | nresetAssert (t : Nat)
  /-- NRESET_RELEASE (R724). Release of nRESET after the flush begins a Waking. -/
  | nresetRelease (t : Nat)
  /-- WAKING (R663). A Waking starts: fuse checks, self-tests, boot count, slot choice and SFDP. -/
  | waking (t : Nat) (failed : List Nat) (nor : NorFacts)
  /-- CONTAINER_CHECKED (R660). The first read of a container completes and it is checked. -/
  | containerChecked (t part : Nat) (c : Container)
  /-- CONTAINER_LOADED (R664). The second read completes loading into SRAM and the digests are compared. -/
  | containerLoaded (t : Nat) (fw wb : List Octet)
  /-- SECTION_CHECK (R665). The validation kernel's section checks complete and the Steward takes the verdict. -/
  | sectionCheck (t : Nat)
  /-- JOURNAL_REPLAY (R667). Journal entries are applied to the loaded image and Stage 0 begins. -/
  | journalReplay (t : Nat)
  /-- RELEASE_OUTPUTS (R670). At the first boundary all release conditions hold Waking ends and outputs follow their
  rules. -/
  | releaseOutputs (t : Nat)
  /-- WAKING_TIMEOUT (R671). No release 10 s after Stage 0 ends Waking in Halt. -/
  | wakingTimeout (t : Nat)
  /-- MODE_COMMAND (R684). The mailbox MODE command sets the base mode or requests Lodge at EFF. -/
  | modeCommand (t src id target eff : Nat)
  /-- RESCUE (R694). The rescue direction is chosen after AXIS.dwell. -/
  | rescue (t car : Nat)
  /-- RESCUE_HOLD_END (R695). MODES.rescue_hold ends and the rescue landing doors close. -/
  | rescueHoldEnd (t car : Nat)
  /-- LODGE_IDLE (R697). Service idle for lodge_idle seconds, or Halt unfunded for 1 s, requests Lodge. -/
  | lodgeIdle (t : Nat)
  /-- LODGE_ENTRY (R698). Once every axis is disabled Lodge takes effect, the Ledger flushes and supplies are
  reduced. -/
  | lodgeEntry (t : Nat)
  /-- LODGE_WAKE (R699). An input, frame, command or the wake timer wakes Lodge. -/
  | lodgeWake (t source input : Nat)
  /-- LODGE_SUPPLY_RESTORED (R700). Motion-die supplies are restored within 4 ms and the lanes run again. -/
  | lodgeSupplyRestored (t : Nat)
  /-- WINDOW_READ (R732). A window read request is held or answered with an error status. -/
  | windowRead (t src : Nat) (r : WinRead)
  /-- WINDOW_READ_SERVE (R730). At its boundary a held read is copied under one epoch and its reply queued. -/
  | windowReadServe (t : Nat)
  /-- FLUSH (R591). The mailbox FLUSH command begins a Ledger flush. -/
  | flush (t src id : Nat)
  /-- SET_TIME (R491). The mailbox SET_TIME command sets site time on a grandmaster. -/
  | setTime (t src id : Nat) (site : Int)
  /-- WRITE (R735). The mailbox WRITE command writes a window field without a row of its own under its access code.
  -/
  | write (t src id addr width value : Nat)
  /-- SERVICE_READ_TRANSACTION (R741). A service-port read transaction returns status and the next reply. -/
  | serviceReadTransaction (t : Nat) (whole : Bool)
  /-- CYSIN_FRAME (R475). A Cysin frame of any type is received whole on a trunk port and is checked, then consumed,
  relayed or discarded. -/
  | cysinFrame (t port from_ : Nat) (f : Frame)
  /-- ANNOUNCE (R487). An IEEE 802.1AS Announce is received and the best master clock algorithm selects or changes
  the grandmaster. -/
  | announce (t port : Nat) (a : Announce)
  /-- SERVICE_WRITE_TRANSACTION (R740). A service-port write transaction ends with the rise of nSVC_CS and its OP,
  LEN, body and CRC are checked and taken or discarded. -/
  | serviceWriteTransaction (t op len crc : Nat) (m : Msg)
  deriving DecidableEq, Repr

end Sys2Proof
end

