-- ==== Sys2Proof/Decode.lean ====
section
/-! DEFINITION. The command that a word of the command table spells. The block has no instruction encoding: no row of the table
gives bits, so no word spells a command. The byte encodings that the manual does give (frames, objects, sections, the
window) stand with the operations that use them. -/

namespace Sys2Proof

/-- No row of the table gives bits: no word spells a command. -/
def decodeTableWord (_nbits _w : Nat) : Option Instr := none

end Sys2Proof
end

