-- ==== Sys2Proof/Machine/State.lean ====
section
/-! DEFINITION. The state of the block: every register, queue, counter, mode and pin that the specification gives the
PY1240, as plain data, the machine right after reset, and the reasons a step can stop. -/

namespace Sys2Proof.Machine

/-- Counters keyed by a number (an event code, a unit), rising keys, no zero counts. -/
abbrev Counts := List (Nat × Nat)

/-! ### Chapter 01: links, clocks, lanes, memory -/

/-- One die-to-die link (R25 to R27). -/
structure Link where
  failed : Bool := false
  retry : Nat := 0
  lastFlit : Nat := 0
  twoFailed : Bool := false
  deriving DecidableEq, Repr, Inhabited

/-- Clock supervision and supply (R33 to R37), lane and memory faults (R47, R48). -/
structure Clocks where
  edgeFault : Bool := false
  motionHeld : Bool := true
  rtcFault : Bool := false
  stage500 : Bool := false
  supplyRaised : Bool := false
  laneStopped : List Bool := [false, false]
  eccCorrected : Nat := 0
  eccDouble : Nat := 0
  deriving DecidableEq, Repr, Inhabited

/-! ### Chapter 02: Stages and the Task Dispatcher -/

/-- Stage timer, epoch and site alignment (R57 to R71). `noticed` is the boundary count whose notice the Steward has taken
(R51), `jumps` each epoch reached by a renumbering with how many numbers it passed over (R59, R60). -/
structure Stage where
  running : Bool := false
  epoch : Nat := 0xFFFFFFFFFFFF
  openedAt : Nat := 0
  len : Nat := 0
  boundaries : Nat := 0
  aligned : Bool := false
  phaseErr : Int := 0
  offsetD : Nat := 0
  closed : Bool := false
  noticed : Option Nat := none
  jumps : List (Nat × Nat) := []
  deriving DecidableEq, Repr, Inhabited

/-- Where a task or instance stands in the current Stage (R74 to R99). -/
inductive TaskStatus where
  | idle | waiting | ready | running (lane : Nat) | preempted | completed | annulled | stopped | stranded
  deriving DecidableEq, Repr, Inhabited

/-- The dispatcher's state of one task. `budget` is the budget counter, `ranAt` the cycle of its last dispatch, `cancelAt`
the cycle of a cancellation request that found it in service. -/
structure TaskRun where
  status : TaskStatus := .idle
  counter : Nat := 0
  marked : Bool := false
  markReason : Nat := 0
  timedOut : Bool := false
  cancel : Bool := false
  cancelAt : Option Nat := none
  readySeq : Nat := 0
  budget : Nat := 0
  ranAt : Nat := 0
  latch : Bool := false
  deadlinePassed : Bool := false
  committed : Bool := false
  overran : Bool := false
  curResp : Option Nat := none
  respLast : Nat := 0xFFFFFFFF
  respMax : Nat := 0
  overruns : Nat := 0
  annulled : Nat := 0
  deriving DecidableEq, Repr, Inhabited

/-- One entry of the instance queue (R80). -/
structure InstEntry where
  slot : Nat
  task : Nat
  arg : List Octet := []
  arrival : Nat
  attempts : Nat := 0
  status : TaskStatus := .idle
  cancel : Bool := false
  cancelAt : Option Nat := none
  readySeq : Nat := 0
  budget : Nat := 0
  ranAt : Nat := 0
  deriving DecidableEq, Repr, Inhabited

/-- Overrun accounting of one binding (R100, R101): boundary numbers of the overrun Stages still in the window. -/
structure Binding where
  consec : Nat := 0
  window : List Nat := []
  escalated : Bool := false
  deriving DecidableEq, Repr, Inhabited

/-- The dispatcher's answer to a kernel's request: a spawn accepted or held (R86), a cancellation taken, or of a task that
has completed already (R98). -/
inductive DispAnswer where
  | accepted | held | taken | done
  deriving DecidableEq, Repr, Inhabited

/-- The Task Dispatcher. `selAt` is the stage-clock cycle of the last selection, `undo` what that selection changed (the
status before it of each work, and the lanes), `cycSeq` the first ready number given in that cycle, `kernelHeld` the
spawn requests that kernels repeat (who asked, in which Stage, task, argument), `fabHeld` messages that wait for an entry. -/
structure Disp where
  started : Bool := false
  graphStartAt : Nat := 0
  tasks : List TaskRun := []
  lanes : List (Option Work) := [none, none]
  nextSeq : Nat := 0
  selAt : Nat := 0
  undo : List (Work × TaskStatus) := []
  undoLanes : List (Option Work) := [none, none]
  cycSeq : Nat := 0
  answer : Option DispAnswer := none
  queue : List InstEntry := []
  creditsOut : Nat := 0
  held : Nat := 0
  withheld : Nat := 0
  bpRun : Bool := false
  bpStages : Nat := 0
  queuePeak : Nat := 0
  stewardHeld : List (Nat × List Octet) := []
  kernelHeld : List (Nat × Nat × Nat × List Octet) := []
  fabHeld : List (Nat × List Octet) := []
  binding : List Binding := List.replicate 13 {}
  deriving DecidableEq, Repr, Inhabited

/-! ### Chapter 03: analogue inputs -/

/-- Fuse trims of one analogue input or converter (R128, R133): FOFF and FGAIN. -/
structure Trim where
  foff : Int := 0
  fgain : Nat := 32768
  deriving DecidableEq, Repr, Inhabited

/-- One analogue input: raw code and the four steps of R133, with the flag of a saturated step; `conv` are the conversions that
ended last, the newest first, at most 16 (R707). -/
structure Ain where
  raw : Int := 0
  x1 : Int := 0
  x2 : Int := 0
  x3 : Int := 0
  y : Int := 0
  sat : Bool := false
  conv : List Int := []
  deriving DecidableEq, Repr, Inhabited

/-! ### Chapter 04: feedback channels, discrete inputs, encoder emulation -/

/-- A speed edge: its time, the position after it, its direction and the grains of its own step (R165). -/
structure SpeedEdge where
  t : Nat
  p : Int
  dir : Int
  g : Nat
  deriving DecidableEq, Repr, Inhabited

/-- A transition not yet confirmed (R144): line 0 A, 1 B, 2 Z; its instant; its count step before FB.dir; for a Z edge
the count and the channel position at it (R152, R330), for a kind 2 channel the coarse count (R153). -/
structure RawEdge where
  line : Nat
  t : Nat
  step : Int
  level : Bool
  x : Int := 0
  p : Int := 0
  deriving DecidableEq, Repr, Inhabited

/-- What the snapshot bank latches of a channel (R167), and the absolute word latched with it (R326). -/
structure FbSnap where
  count : Nat := 0
  turns : Int := 0
  pos : Int := 0
  speed : Int := 0
  time : Nat := 0
  valid : Bool := false
  fault : Bool := false
  cause : Nat := 0
  neg : Bool := false
  indexSeen : Bool := false
  skipPending : Bool := false
  amp : Nat := 0
  edgeErr : Nat := 0
  word : Nat := 0
  deriving DecidableEq, Repr, Inhabited

/-- One feedback channel. `reg` is the count register that follows every transition; `count`, `turns`, `pos` rest on
confirmed transitions, samples or accepted words; `skipT` is the edge time of the pending QUAD_SKIP; `wasIn` says that the
last sample of a kind 2 channel lay inside the amplitude window (R157). -/
structure Fb where
  a : Bool := false
  b : Bool := false
  z : Bool := false
  reg : Int := 0
  pendingEdges : List RawEdge := []
  count : Nat := 0
  turns : Int := 0
  pos : Int := 0
  rem : Nat := 0
  posTime : Nat := 0
  neg : Bool := false
  lastRawDir : Int := 0
  valid : Bool := false
  fault : Bool := false
  cause : Nat := 0
  ref : Int := 0
  indexSeen : Bool := false
  zEdge : Option RawEdge := none
  indexRef : Option (Nat × Int × Int) := none
  mismatchRun : Nat := 0
  indexDelta : Int := 0
  edgeErrs : List Nat := []
  glitches : Nat := 0
  skips : Nat := 0
  mismatches : Nat := 0
  realigns : Nat := 0
  skipPending : Bool := false
  skipT : Nat := 0
  edges : List SpeedEdge := []
  q : Int := 0
  qAligned : Bool := false
  qPos : Int := 0
  lastTheta : Nat := 0
  outRun : Nat := 0
  wasIn : Bool := false
  amp : Nat := 0
  older : Option FbSnap := none
  ssiDelay : Nat := 0
  ssiStart : Option Nat := none
  ssiLast : Option Nat := none
  ssiRejects : Nat := 0
  ssiLatchTime : Nat := 0
  deriving DecidableEq, Repr, Inhabited

/-- One discrete input (R173 to R178, R746). `kept` holds the positions of R328 by raw edge time; `moved`
says that a filtered change has taken effect since the last boundary. -/
structure Din where
  ball : Bool := false
  filt : Bool := false
  first : Bool := false
  moved : Bool := false
  lastT : Nat := 0
  edgeT : Nat := 0
  trans : Nat := 0
  chatter : Bool := false
  times : List Nat := []
  owed : List Nat := []
  kept : List (Nat × Int) := []
  deriving DecidableEq, Repr, Inhabited

/-- The discrete inputs as latched at a boundary. -/
structure DinSnap where
  level : List Bool := List.replicate 64 false
  moved : List Bool := List.replicate 64 false
  raw : List Bool := List.replicate 64 false
  chatter : List Bool := List.replicate 64 false
  edgeT : List Nat := List.replicate 64 0
  deriving DecidableEq, Repr, Inhabited

/-- One encoder-emulation output (R182 to R185): `count` is the emitted count, `ph` the place of A and B in the sequence
of R143. -/
structure Emu where
  count : Nat := 0
  ph : Nat := 0
  backlog : Int := 0
  rem : Nat := 0
  lastSrc : Int := 0
  fault : Bool := false
  stepsLeft : Nat := 0
  stepsDone : Nat := 0
  spacing : Nat := 0
  a : Bool := false
  b : Bool := false
  z : Bool := false
  deriving DecidableEq, Repr, Inhabited
/-! ### Chapter 05: the Current Engine. Times are in ticks of 312.5 ps. -/

/-- The set-point record of R200. -/
structure SetPoint where
  id : Int := 0
  iq : Int := 0
  theta0 : Nat := 0
  omega : Int := 0
  deriving DecidableEq, Repr, Inhabited

/-- One current channel. `bits`, `times`, `fHist` and `codeWin` are newest first; `f0` is the fast estimate before the
runtime offset (R137), `f` the calibrated one. -/
structure Chan where
  bits : List Int := []
  n : Nat := 0
  times : List Nat := []
  tb : Nat := 0
  f0 : Int := 0
  f : Int := 0
  fHist : List Int := []
  acc : Int := 0
  accN : Nat := 0
  codeErrors : Nat := 0
  codeWin : List Bool := []
  equalRun : Nat := 0
  ocRun : Nat := 0
  sumRun : Nat := 0
  zeroInstants : Nat := 0
  zeroTaken : Bool := false
  ofs : Int := 0
  ofsRun : Nat := 0
  ofsLimit : Bool := false
  acqSum : Int := 0
  acqCount : Nat := 0
  fault : Bool := false
  causes : Nat := 0
  deriving DecidableEq, Repr, Inhabited

/-- One half-bridge of an axis: its commanded level, the instant of its last commanded edge, its two gates, the
instant at which the incoming gate turns on (R217), since when both gates have been off, and an edge delayed by its
minimum pulse (R220); `hAt` and `lAt` are the instants of the last commanded changes of its high and its low gate. -/
structure HalfBr where
  level : Bool := false
  since : Nat := 0
  gateH : Bool := false
  gateL : Bool := false
  onAt : Option Nat := none
  offSince : Nat := 0
  hAt : Nat := 0
  lAt : Nat := 0
  due : Option (Nat × Bool) := none
  deriving DecidableEq, Repr, Inhabited

/-- A bridge state from the instant it reached the phase voltage, with its slope (α, β or scalar) and whether that
slope was measured (R203). States: kind 1, 0 to 7 of R204; kinds 2 and 3, 0 slow decay, 1 drive, 2 reverse; 8 all
gates off. -/
structure Applied where
  at_ : Nat := 0
  p : Nat := 8
  da : Int := 0
  db : Int := 0
  valid : Bool := false
  deriving DecidableEq, Repr, Inhabited

/-- A scheduled edge (R210, R211, R216). -/
structure Sched where
  t : Nat
  p : Nat
  late : Bool := false
  da : Int := 0
  db : Int := 0
  deriving DecidableEq, Repr, Inhabited

/-- The spans of time in which a condition held, newest first, and whether the newest is still open (R225). -/
structure Spans where
  l : List (Nat × Nat) := []
  on : Bool := false
  deriving DecidableEq, Repr, Inhabited

/-- The hysteresis engine of one vector or scalar current: applied states newest first, the last measured slope of the
state before, the scheduled edge, and when its decisions were voltage-limited (R213) or its set-point was zero under ZERO_OFF. -/
structure Eng where
  applied : List Applied := []
  prevMeas : Option (Nat × Int × Int) := none
  sched : Option Sched := none
  vlim : Spans := {}
  zero : Spans := {}
  deriving DecidableEq, Repr, Inhabited

/-- What an interpolator tick formed (R201, R202). -/
structure TickRec where
  t : Nat := 0
  a : Int := 0
  b : Int := 0
  theta : Nat := 0
  id : Int := 0
  iq : Int := 0
  dsA : Int := 0
  dsB : Int := 0
  deriving DecidableEq, Repr, Inhabited

/-- The Current Engine's state of one axis. `c0`, `c1` are the centre offsets: (cd, cq) of kind 1, (cA, cB) of kind 2,
cq of kind 3 in `c1`; `activeAt` is the instant from which the axis is active. -/
structure CurAx where
  sp : SetPoint := {}
  active : Bool := false
  causes : Nat := 0
  cause : Nat := 0
  h : Nat := 0
  g : Nat := 0
  gainEnd : Option Nat := none
  bandEnd : Option Nat := none
  swNow : Nat := 0
  swCount : Nat := 0
  vlimNow : Bool := false
  wholeStage : Bool := false
  vlimConsec : Nat := 0
  vlim : Bool := false
  vlimTotal : Nat := 0
  lateEdges : Nat := 0
  minpulseHolds : Nat := 0
  faults : Nat := 0
  satD : Bool := false
  satQ : Bool := false
  nextTick : Nat := 0
  ticks : List TickRec := []
  activeAt : Nat := 0
  c0 : Int := 0
  c1 : Int := 0
  brs : List HalfBr := List.replicate 4 {}
  engs : List Eng := List.replicate 2 {}
  deriving DecidableEq, Repr, Inhabited

/-- Offset acquisition before release (R138): the boundary count from which it runs. -/
structure Acq where
  from_ : Option Nat := none
  done : Bool := false
  deriving DecidableEq, Repr, Inhabited


/-! ### Chapter 06: axis controllers -/

/-- A move waiting to start from rest: a target or a velocity with its profile (R263, R264). `again` marks one that a retarget
or a RESUME gives: it keeps the smoothing length in use (R260). -/
structure Move where
  vel : Bool := false
  again : Bool := false
  target : Int := 0
  prof : Nat := 0
  vcap : Nat := 0
  deriving DecidableEq, Repr, Inhabited

/-- What the raw generator is doing (R255 to R259, R263). -/
inductive GenPhase where
  | rest | pos | vel | stop | brake | dwell
  deriving DecidableEq, Repr, Inhabited

/-- A raw profile generator, of an axis or of a path group's Λ. Position `pe` and speed `ve` are in 2^-16 grain; `newM` says
that the move has just started, `held` is the profile whose accelerations it started with (R281): record, a1, a2, d1, d2. -/
structure Gen where
  phase : GenPhase := .rest
  pe : Int := 0
  ve : Int := 0
  dir : Int := 1
  target : Int := 0
  vtgt : Int := 0
  prof : Nat := 0
  vcap : Nat := 0
  next : Option Move := none
  lastDir : Int := 0
  restAt : Nat := 0
  dwellOver : Bool := true
  noDwell : Bool := false
  newM : Bool := false
  held : Option (Nat × Nat × Nat × Nat × Nat) := none
  deriving DecidableEq, Repr, Inhabited

/-- The smoothing filter (R260, R261): window of the last `m` increments, newest first. -/
structure Filt where
  m : Nat := 1
  win : List Int := []
  sum : Int := 0
  q : Nat := 0
  deriving DecidableEq, Repr, Inhabited

/-- Where a command to an axis or a group came from: the sources of R252, and for a mailbox command the requester to be
answered (R737); `pair` marks a frame addressed to the pair and a command forwarded by the partner (R512). -/
structure Origin where
  src : Nat := 0
  pair : Bool := false
  mbSrc : Nat := 0
  mbId : Option Nat := none
  deriving DecidableEq, Repr, Inhabited

/-- A command waiting for its axis (R751). -/
structure Offer where
  origin : Origin := {}
  cmd : AxCmd := { cmd := 0 }
  deriving DecidableEq, Repr, Inhabited

/-- What follows a quick-stop ramp: Held, or Idle for a DISABLE and for SS1 (R248, R265). -/
inductive RampThen where
  | held | idle | ss1
  deriving DecidableEq, Repr, Inhabited

/-- One axis controller. `iqFrom` is the current of Torque that the first cascade after it goes on from (R273). -/
structure Axis where
  mode : Nat := 0
  enabled : Bool := false
  homed : Bool := false
  kept : Option Move := none
  standRun : Nat := 0
  standstill : Bool := false
  moveDone : Bool := false
  decel : Bool := false
  disabling : Bool := false
  withdrawn : Bool := false
  moveHold : Bool := false
  peRef : Int := 0
  pRef : Int := 0
  vFF : Int := 0
  aRef : Int := 0
  gen : Gen := {}
  filt : Filt := {}
  ramp : Bool := false
  rampThen : RampThen := .held
  acc : Int := 0
  iq : Int := 0
  ferrRun : Nat := 0
  torqueCmd : Int := 0
  followRem : Nat := 0
  blendLeft : Nat := 0
  blendK : Nat := 1
  blendB0 : Int := 0
  blendB : Int := 0
  blendQ : Nat := 0
  iBlendLeft : Nat := 0
  iBlendB0 : Int := 0
  iBlendB : Int := 0
  iBlendQ : Nat := 0
  theta : Nat := 0
  thRem : Nat := 0
  turns : Int := 0
  iqFrom : Option Int := none
  sp : SetPoint := {}
  enterAt : Nat := 0
  deriving DecidableEq, Repr, Inhabited

/-- The parts of an axis that no hand-back of an undecided Stage restores: faults and the stop latch, tags, counters,
measured values, a stop ordered for the next boundary with the path-break cause it gives, and commands offered (R751).
`causes` is a mask of the latched causes, `faultAt` the Stage of the first, `cmdBreak` the path-break cause that a command
gives. -/
structure AxisBook where
  fault : Bool := false
  cause : Nat := 0
  causes : Nat := 0
  faultAt : Nat := 0
  stopLatch : Bool := false
  ordered : Option RampThen := none
  breakCause : Option Nat := none
  cmdTag : Nat := 0
  rejTag : Nat := 0
  faults : Nat := 0
  rejects : Nat := 0
  reversals : Nat := 0
  refusals : Nat := 0
  offered : List Offer := []
  incoming : List Offer := []
  cmdBreak : Option Nat := none
  decided : Bool := false
  pf : Int := 0
  pfPrev : Int := 0
  vf : Int := 0
  ep : Int := 0
  deriving DecidableEq, Repr, Inhabited


/-! ### Chapter 07: path groups, gear couplings, capture, compare -/

/-- A queued segment: its command, Λ interval start and length, start position of each slot, and for an arc the radii,
start angle and swept angle (R285 to R288). -/
structure Seg where
  cmd : PathCmd := { cmd := 2 }
  s0 : Nat := 0
  len : Nat := 1
  start : List Int := []
  rs : Nat := 0
  re : Nat := 0
  thetaS : Nat := 0
  swept : Nat := 0
  deriving DecidableEq, Repr, Inhabited

/-- A group command waiting for its group (R296, R751). -/
structure PathOffer where
  origin : Origin := {}
  cmd : PathCmd := { cmd := 0 }
  deriving DecidableEq, Repr, Inhabited

/-- The states of a path group. -/
inductive PgState where
  | idle | running | paused | done | broken
  deriving DecidableEq, Repr, Inhabited

/-- One path group. `retired` is, per slot, the displacement of the retired segments (R285), `lastEnd` the end of the
last segment planned, `dRef` each member's step of this Stage. -/
structure Pg where
  st : PgState := .idle
  capped : Bool := false
  queue : List Seg := []
  gen : Gen := {}
  filt : Filt := {}
  peRef : Int := 0
  w : Int := 0
  pStart : List Int := []
  lastEnd : List Int := []
  retired : List Int := []
  refs : List Int := []
  dRef : List Int := []
  segTag : Nat := 0
  segments : Nat := 0
  breaks : Nat := 0
  deriving DecidableEq, Repr, Inhabited

/-- The commands of a group: offered (R751), and arriving for the next boundary. -/
structure PgBook where
  offered : List PathOffer := []
  incoming : List PathOffer := []
  decided : Bool := false
  deriving DecidableEq, Repr, Inhabited

/-- The states of a gear coupling. -/
inductive GcState where
  | off | armed | engaging | locked | disengaging
  deriving DecidableEq, Repr, Inhabited

/-- One gear coupling. `x` is the master distance from the origin, `disX` from the start of disengaging, `disp` the
geared displacement since entry, `phasePe` the phase move's filtered position. -/
structure Gc where
  st : GcState := .off
  x : Int := 0
  rem : Nat := 0
  disp : Int := 0
  lastDx : Int := 0
  disPending : Bool := false
  disX : Int := 0
  disDir : Int := 1
  disBase : Int := 0
  phase : Int := 0
  phaseGen : Gen := {}
  phaseFilt : Filt := {}
  phasePe : Int := 0
  losses : Nat := 0
  deriving DecidableEq, Repr, Inhabited

/-- A capture record (chapter 07). -/
structure CapRec where
  seq : Nat := 0
  rising : Bool := false
  time : Nat := 0
  epoch : Nat := 0
  valid : List Bool := []
  pos : List Int := []
  deriving DecidableEq, Repr, Inhabited

/-- An accepted edge that waits for its record (R306): its time, polarity, epoch and the boundary that opened its Stage. -/
structure CapEdge where
  t : Nat
  rising : Bool
  epoch : Nat
  stage : Nat
  deriving DecidableEq, Repr, Inhabited

/-- One capture input. `dirHigh` is the level of the other input of a pulse and direction pair at the last raw edge,
`rises` the accepted pulses by the boundary count that opened their Stage, `risesStage` those of
the Stage before last. -/
structure Cap where
  ball : Bool := false
  filt : Bool := false
  lastT : Nat := 0
  pend : Bool := false
  dirHigh : Bool := false
  lastAccept : Option Nat := none
  waiting : List CapEdge := []
  inStage : Nat := 0
  lostStage : Nat := 0
  seq : Nat := 0
  lost : Nat := 0
  glitch : Nat := 0
  recs : List CapRec := []
  rises : List (Nat × Int) := []
  risesStage : Int := 0
  deriving DecidableEq, Repr, Inhabited

/-- One compare output. `sought` says that it has been armed since Waking, `armed` is the index j, `level` whether the
level is active. -/
structure Cmp where
  sought : Bool := false
  armed : Option Nat := none
  done : Bool := false
  fault : Bool := false
  level : Bool := false
  pulseEnd : Option Nat := none
  pendPulses : Nat := 0
  nextPulse : Nat := 0
  fired : Nat := 0
  missed : Nat := 0
  lastTime : Nat := 0
  deriving DecidableEq, Repr, Inhabited

/-- An axis position as snapshotted at one boundary, kept for R306. -/
structure AxInstant where
  bound : Nat := 0
  t : Nat := 0
  p : Int := 0
  valid : Bool := false
  deriving DecidableEq, Repr, Inhabited

/-! ### Chapter 08: homing and Survey -/

/-- Phases of a homing sequence. -/
inductive HomePhase where
  | none | search | backoff | creep | index | hardstop | reverse | final | absolute
  deriving DecidableEq, Repr, Inhabited

/-- The HOMING record read at entry (R319). -/
structure HomeRec where
  method : Nat := 0
  dir : Int := 1
  input : Nat := 0
  leave : Bool := false
  auto : Bool := false
  final : Bool := false
  hsTime : Nat := 0
  vSearch : Nat := 0
  vCreep : Nat := 0
  homePos : Int := 0
  finalPos : Int := 0
  maxDist : Nat := 0
  backoff : Nat := 0
  hsCurrent : Nat := 0
  hsLead : Nat := 0
  deriving DecidableEq, Repr, Inhabited

/-- The homing kernel's state of one axis. `settling` says that the stop of the phase before still runs, `backFrom` where
the reference condition cleared, `seenRef` that REVERSE has met the reference, `idxFrom` the count at which an index search
began, `idxAfter` the instant after which an index instant counts, `ref` a latched reference not yet committed (its time,
position and, of an index instant, its count), `ending` that a stop ends the sequence after the shift (R752). -/
structure Home where
  phase : HomePhase := .none
  method : Nat := 0
  result : Nat := 0
  cause : Nat := 0
  hr : HomeRec := {}
  entryBoundary : Nat := 0
  dist : Nat := 0
  lastP : Int := 0
  settling : Bool := false
  backFrom : Option Int := none
  seenRef : Bool := false
  idxFrom : Int := 0
  idxAfter : Nat := 0
  ref : Option (Nat × Int × Option Int) := none
  shifted : Bool := false
  ending : Bool := false
  hsSince : Option Nat := none
  homings : Nat := 0
  refTime : Nat := 0
  refPos : Int := 0
  shift : Int := 0
  deriving DecidableEq, Repr, Inhabited

/-- One running learn run (R337 to R351). `abort` that a stop of its axis was accepted; kinds 3 to 6 go through `phase`, the
command for the axis issued at boundary `since`; edges are (input, became active, position). -/
structure Learn where
  kind : Nat
  target : Nat
  axis : Nat
  abort : Bool := false
  hold : Nat := 0
  thms : List Nat := []
  k : Nat := 0
  sumS : Int := 0
  sumC : Int := 0
  sumSS : Int := 0
  sumCC : Int := 0
  sumSC : Int := 0
  period : Option Int := none
  first : Option Int := none
  inPeriod : Nat := 0
  slow : Bool := false
  phase : Nat := 0
  since : Nat := 0
  upEdges : List (Nat × Bool × Int) := []
  downEdges : List (Nat × Bool × Int) := []
  stopAt : Option Nat := none
  x2s : List Int := []
  deltas : List Int := []
  loads : List Int := []
  sumIa : Int := 0
  sumAa : Int := 0
  deriving DecidableEq, Repr, Inhabited

/-- A completed learn run: its entry waits for the journal, then for the standstill of its axis (R352, R353). -/
structure SurveyPend where
  kind : Nat
  target : Nat
  axis : Nat
  cells : List Cell
  appended : Bool := false
  eseq : Nat := 0
  deriving DecidableEq, Repr, Inhabited

/-- Survey as a whole. `have*` say which Survey values the journal supplies (R355). -/
structure Survey where
  runs : List Learn := []
  pend : List SurveyPend := []
  step1 : Option (Nat × List Int × List Int) := none
  lastKind : Nat := 0
  lastTarget : Nat := 0
  outcome : Nat := 0
  reason : Nat := 0
  written : Nat := 0
  haveComm : List Bool := List.replicate 12 false
  haveSc : List Bool := List.replicate 16 false
  haveLevel : List Bool := List.replicate 4 false
  haveTare : List Bool := List.replicate 4 false
  haveDoor : List Bool := List.replicate 8 false
  deriving DecidableEq, Repr, Inhabited
/-! ### Chapter 09: cars and doors -/

/-- One car. States: 0 UNKNOWN, 1 AT_LANDING, 2 RUNNING, 3 RELEVELLING, 4 CORRECTION, 5 BETWEEN. `assigned` and
`sides` are the target landing with the sides to open there, `running` the landing of the stop in progress, `since` the
boundary at which its command was last issued, `capV` its speed cap, `outAtStop` a cause of OUT that waits for the stop
in progress, `outOf` and `differ` since when a door-zone input is out of place and the two differ. -/
structure Car where
  st : Nat := 0
  landing : Option Nat := none
  assigned : Option Nat := none
  sides : Nat := 0
  running : Option Nat := none
  since : Nat := 0
  capV : Nat := 0
  pc : Int := 0
  g : Int := 0
  k : Int := 0
  d : Int := 0
  dz : Bool := false
  pm0 : Option Int := none
  ps0 : Option Int := none
  shaftWas : Bool := false
  dSeen : Bool := false
  outOf : List (Option Nat) := [none, none]
  placed : List Bool := [true, true]
  differ : Option Nat := none
  y : Int := 0
  loadKnown : Bool := false
  overloaded : Bool := false
  doorsWere : Bool := true
  cl : Int := 0
  out : Nat := 0
  outAtStop : Nat := 0
  degraded : Bool := false
  dzDegraded : Bool := false
  shaftFault : Bool := false
  axisFault : Bool := false
  faultOpened : Bool := false
  levelRun : Nat := 0
  tries : Nat := 0
  misses : Nat := 0
  wantsBypass : Bool := false
  retryAt : Option Nat := none
  edgesSeen : Nat := 0
  edgeBad : Bool := false
  corrK : Int := 0
  overSrc : Nat := 0
  corrSeen : Nat := 0
  noLanding : Bool := false
  corrections : Nat := 0
  disagrees : Nat := 0
  relevels : Nat := 0
  levelMisses : Nat := 0
  trips : Nat := 0
  paired : Option (Int × Int) := none
  trip : List (Int × Int × Int) := []
  tripBus : Nat := 0
  deriving DecidableEq, Repr, Inhabited

/-- One door. States: 0 UNKNOWN, 1 CLOSED, 2 OPENING, 3 OPEN, 4 CLOSING, 5 NUDGING, 6 REVERSING, 7 STOPPED, 8 FAULT.
`cmds` are the axis commands still to be issued, one a boundary. `openReq` and `closeReq` are requests for the next
decision, `after` the state to go on with after STOPPED. -/
structure Door where
  st : Nat := 0
  cmds : List AxCmd := []
  since : Nat := 0
  openReq : Bool := false
  closeReq : Bool := false
  homing : Bool := false
  holdEnd : Option Nat := none
  holdOver : Bool := false
  nudgeFrom : Option Nat := none
  nudgeDue : Bool := false
  obstRun : Nat := 0
  energyRun : Nat := 0
  f : Int := 0
  e : Nat := 0
  vcap : Nat := 0
  lastCause : Nat := 0
  faultCause : Nat := 0
  resumeAt : Option Nat := none
  openWas : Bool := false
  closeWas : Bool := false
  reversals : Nat := 0
  obstructions : Nat := 0
  nudges : Nat := 0
  cycles : Nat := 0
  deriving DecidableEq, Repr, Inhabited

/-! ### Chapter 11: stops, bids, calls -/

/-- A stop of one car: a car call or drop (kind 6), an accepted landing call (1 up, 2 down), or the pickup of a
destination request (3), at a landing of the car. `to` is a pickup's drop. -/
structure Stop where
  kind : Nat
  landing : Nat
  side : Nat := 1
  dir : Int := 0
  callId : Nat := 0
  dest : Nat := 0
  deriving DecidableEq, Repr, Inhabited

/-- A transport order of mode 3: phase 0 to FROM, 1 fork at FROM, 2 to TO, 3 fork at TO. -/
structure Order where
  call : Call
  phase : Nat := 0
  opened : Bool := false
  deriving DecidableEq, Repr, Inhabited

/-- The scheduler of one car; `target` is what it last passed to the car layer. -/
structure Sched1 where
  d : Int := 0
  stops : List Stop := []
  withdrawn : Nat := 0
  wasAt : Bool := false
  target : Option Nat := none
  deriving DecidableEq, Repr, Inhabited

/-- A call at the collector (R439, R454 to R457): phase 0 round open, 1 assigned and not answered, 2 accepted, 3 waiting
for its reopening, 4 done. Times are site time in ns. -/
structure CollCall where
  call : Call
  phase : Nat := 0
  attempt : Nat := 1
  tOpen : Int := 0
  closeAt : Int := 0
  bids : List Bid := []
  received : Nat := 0
  next : Nat := 0
  answerBy : Int := 0
  reopenAt : Int := 0
  reopenings : Nat := 0
  deriving DecidableEq, Repr, Inhabited

/-- A round at a member (R444): the opening, its bids once computed, when they are sent. -/
structure Round where
  open_ : DspOpen
  ready : Bool := false
  sent : Bool := false
  bids : List Bid := []
  deriving DecidableEq, Repr, Inhabited

/-- A call held by a waystation (R451). -/
structure WsCall where
  open_ : DspOpen
  bids : List Bid := []
  deriving DecidableEq, Repr, Inhabited

/-- A call this unit has asked a collector for (R439): since when, and whether the alternative was asked. -/
structure Asked where
  call : Call
  at_ : Int
  alt : Bool := false
  answered : Bool := false
  deriving DecidableEq, Repr, Inhabited

/-- Dispatch as a whole. `forwarded` are the calls that the waystation has sent on. -/
structure Dsp where
  calls : List CollCall := []
  waiting : List Call := []
  serial : Nat := 0
  rounds : List Round := []
  ws : List WsCall := []
  wsWaiting : List DspOpen := []
  forwarded : List Nat := []
  asked : List Asked := []
  reqTag : Nat := 0
  orders : List Order := []
  scheds : List Sched1 := List.replicate 4 {}
  unitWithdrawn : Nat := 0
  opened : Nat := 0
  bidsSent : Nat := 0
  bidsLate : Nat := 0
  assigned : Nat := 0
  declined : Nat := 0
  released : Nat := 0
  heldStages : Nat := 0
  heldEvAt : Option Nat := none
  unserved : Nat := 0
  lastCall : Nat := 0
  lastCost : Nat := 0
  deriving DecidableEq, Repr, Inhabited


/-! ### Chapter 10: interlocks and safe stopping -/

/-- One safety input pair as one die reads it (R400, R401). -/
structure SafeIn where
  ballA : Bool := false
  ballB : Bool := false
  openedA : Bool := false
  openedB : Bool := false
  levelA : Bool := false
  levelB : Bool := false
  actRun : Nat := 0
  inactRun : Nat := 0
  disRun : Nat := 0
  valid : Bool := false
  fault : Bool := false
  deriving DecidableEq, Repr, Inhabited

/-- A result vector (R395): the targets and the trips of one channel for one Stage. -/
structure SafeVec where
  epoch : Nat := 0
  permit : Bool := false
  torque : List Bool := List.replicate 12 false
  brake : List Bool := List.replicate 12 false
  slsReq : List Bool := List.replicate 12 false
  out : List Bool := List.replicate 22 false
  m : List Bool := List.replicate 16 false
  ucm : List Bool := List.replicate 4 false
  ovr : List Bool := List.replicate 4 false
  sls : List Bool := List.replicate 12 false
  deriving DecidableEq, Repr, Inhabited

/-- One channel: A on the motion die, B on the Steward. `drop` says that an output fault of cause 5 holds its balls off,
`dead` that a die fault does until the next Waking (R27, R33, R47). -/
structure SafeChan where
  ins : List SafeIn := List.replicate 24 {}
  lock : List Bool := List.replicate 4 true
  pu : List (Option Int) := List.replicate 4 none
  dz : List Bool := List.replicate 4 false
  bypass : List Bool := List.replicate 4 false
  ucm : List Bool := List.replicate 4 false
  ovr : List Bool := List.replicate 4 false
  slsViol : List Bool := List.replicate 12 false
  slsSince : List (Option Nat) := List.replicate 12 none
  result : Option SafeVec := none
  effect : Option SafeVec := none
  drop : Bool := false
  dead : Bool := false
  deriving DecidableEq, Repr, Inhabited

/-- The kinds of safe stop. -/
inductive StopKind where
  | none | sto | ss1 | ss1End
  deriving DecidableEq, Repr, Inhabited

/-- The stop in effect on an axis (R411 to R414). -/
structure SafeStop where
  kind : StopKind := .none
  code : Nat := 0
  start : Nat := 0
  v0 : Option Nat := none
  env : Nat := 0
  endAt : Nat := 0
  deriving DecidableEq, Repr, Inhabited

/-- One safe output pair, 22 and 23 being MPA and MPB (R420 to R422). `since` is the boundary count of the last change
of the pair's level, `settled` that the EDM has shown it, `react` the cause whose reaction a fault takes, `runA` to
`pulseB` the consecutive read-back differences and failed test pulses. -/
structure SafeOut where
  a : Bool := false
  b : Bool := false
  since : Nat := 0
  settled : Bool := false
  fault : Nat := 0
  react : Nat := 0
  runA : Nat := 0
  runB : Nat := 0
  pulseA : Nat := 0
  pulseB : Nat := 0
  brakePassed : Bool := false
  deriving DecidableEq, Repr, Inhabited

/-- A running brake test (R418): the steps left as (output pair, direction) and the step under way. -/
structure BrakeTest where
  axis : Nat
  steps : List (Nat × Int)
  from_ : Nat := 0
  pStart : Int := 0
  moved : Bool := false
  disp : Int := 0
  origin : Origin := {}
  deriving DecidableEq, Repr, Inhabited

/-- The interlock layer. `hist` holds the positions of each feedback channel at the last boundaries, newest first,
with their VALID (R404). -/
structure Safe where
  a : SafeChan := {}
  b : SafeChan := {}
  hist : List (List (Int × Bool)) := List.replicate 16 []
  estAxis : List Bool := List.replicate 12 false
  estCar : List Bool := List.replicate 4 false
  still : List Bool := List.replicate 12 false
  stops : List SafeStop := List.replicate 12 {}
  outs : List SafeOut := List.replicate 24 {}
  release : List Bool := List.replicate 12 false
  bypassReq : List Bool := List.replicate 4 false
  xcmpRun : Nat := 0
  xcmpFault : Bool := false
  xcmpDiffs : Nat := 0
  trips : Nat := 0
  stale : Nat := 0
  test : Option BrakeTest := none
  permitWas : Bool := false
  deriving DecidableEq, Repr, Inhabited

/-! ### Chapter 12: the fabric and site time -/

/-- A neighbour on a trunk port (R465, R483, R484). Lists of four run by class. `k` are the credits held towards it, `ret` the
cumulative returns owed to it and `told` those last sent, `use` the credits it has used and not been given back, `got` its
last counts, `rx` the frames received from it, `sent` the frames sent whose end is not yet 20 µs old at its last hello,
`sentN` and `lostN` the older ones and those found lost. -/
structure Peer where
  unit : Nat := 0
  boot : Nat := 0
  heard : Bool := false
  said : Bool := false
  oper : Bool := false
  helloAt : Nat := 0
  k : List Nat := [0, 0, 0, 0]
  ret : List Nat := [0, 0, 0, 0]
  told : List Nat := [0, 0, 0, 0]
  changedAt : Option Nat := none
  use : List Nat := [0, 0, 0, 0]
  got : List Nat := [0, 0, 0, 0]
  rx : List Nat := [0, 0, 0, 0]
  sent : List (Nat × Nat) := []
  sentN : List Nat := [0, 0, 0, 0]
  lostN : List Nat := [0, 0, 0, 0]
  deriving DecidableEq, Repr, Inhabited

/-- A frame waiting to leave a port (R482): to which neighbour, and the buffer of a relayed frame with the port and
neighbour that it came from. -/
structure TxItem where
  frame : Frame
  dest : Nat := 0
  buf : Option (Nat × Nat × Nat) := none
  deriving DecidableEq, Repr, Inhabited

/-- A trunk port. `wire` is the frame last begun and `busyUntil` its end. -/
structure Port where
  up : Bool := false
  state : Nat := 0
  peers : List Peer := []
  queue : List TxItem := []
  wire : Option Frame := none
  busyUntil : Nat := 0
  lastHello : Option Nat := none
  rx : Nat := 0
  tx : Nat := 0
  relayed : Nat := 0
  rejected : Nat := 0
  dups : Nat := 0
  lost : Nat := 0
  stall : Nat := 0
  pdelay : Nat := 0
  deriving DecidableEq, Repr, Inhabited

/-- What a unit keeps of a source (R476 to R478): its BOOT, per class the highest sequence and the accepted bits, and the
port and neighbour from which it was last heard. -/
structure Source where
  src : Nat
  boot : Option Nat := none
  seqs : List (Option (Nat × Nat)) := [none, none, none, none]
  route : Option (Nat × Nat) := none
  deriving DecidableEq, Repr, Inhabited

/-- The fabric. `seq` are the unit's own sequences, `looped` frames that the unit has sent to itself among others,
`kept` buffers whose credits are withheld (port, neighbour, class). -/
structure Fab where
  ports : List Port := List.replicate 2 {}
  sources : List Source := []
  seq : List Nat := [0, 0, 0, 0]
  boot : Nat := 1
  conflict : Bool := false
  keyCur : Nat := 0
  keyOther : Nat := 0
  keys : List (Nat × List Octet) := []
  looped : List Frame := []
  kept : List (Nat × Nat × Nat) := []
  nextBuf : Nat := 0
  statusNext : Nat := 0
  deriving DecidableEq, Repr, Inhabited

/-- Site time (R487 to R491): its value at an edge instant and the rate set by the servo. `gm` is the priority vector of
the grandmaster in use and the port it was heard on, none while the unit is grandmaster; `origins` the origin timestamps of
the last Syncs by sequenceId, `sent` those of the unit's own last Sync. -/
structure TimeSt where
  base : Int := 0
  at_ : Nat := 0
  ratePpb : Int := 0
  synced : Bool := false
  gm : Option (Announce × Nat) := none
  offset : Int := 0
  goodRun : Nat := 0
  lastSync : Option Nat := none
  origins : List (Nat × Nat) := []
  sent : Option (Nat × Nat) := none
  sealOk : Bool := false
  everSet : Bool := false
  commanded : Bool := false
  losses : Nat := 0
  deriving DecidableEq, Repr, Inhabited

/-- A safety connection (R493 to R495): state 0 unused, 1 waiting, 2 running, 3 safe. `next` is the DATA that is used from
the next boundary, `lastB` the boundary of the last valid PDU and `lastT` its instant. -/
structure SafeCon where
  st : Nat := 0
  cause : Nat := 0
  count : Nat := 0
  first : Bool := true
  data : Nat := 0
  next : Option Nat := none
  lastB : Nat := 0
  lastT : Nat := 0
  run : Nat := 0
  peerBoot : Option Nat := none
  faults : Nat := 0
  deriving DecidableEq, Repr, Inhabited

/-- An external drive (R496 to R499): the status in use, the statuses received that serve later Stages, misses, and since
when TORQUE is 0 without the drive's confirmation. -/
structure Xd where
  have_ : Bool := false
  epoch : Nat := 0
  pos : Int := 0
  speed : Int := 0
  iq : Int := 0
  state : Nat := 0
  inbox : List (Nat × Int × Int × Int × Nat) := []
  valid : Bool := false
  missRun : Nat := 0
  misses : Nat := 0
  offSince : Option Nat := none
  unconfirmed : Bool := false
  deriving DecidableEq, Repr, Inhabited

/-! ### Chapter 13: twin operation -/

/-- A mirror item at a member: the data last sent with its epoch, and what was received: the newest complete copy and the
parts of the copy under way. -/
structure MirrorItem where
  sent : List Octet := []
  sentAt : Option Nat := none
  sending : Nat := 0
  sendEpoch : Nat := 0
  copy : Option (Nat × List Octet) := none
  parts : List (Nat × List Octet) := []
  partsEpoch : Nat := 0
  stale : Bool := false
  deriving DecidableEq, Repr, Inhabited

/-- What a witness keeps of a pair it serves (R513). -/
structure WitPair where
  holder : Nat := 0
  leaseNo : Nat := 0
  successor : Nat := 0
  until_ : Nat := 0
  counter : Nat := 0
  refusals : Nat := 0
  deriving DecidableEq, Repr, Inhabited

/-- Twin operation. `st` is the member state of R505, `pkts` the valid packets by EPOCH, newest first, `digests` the unit's
own digests by epoch, `rebase` the epoch of the divergence that a rebase waits for, `handoff` the epoch of a hand-off, `follow` that
of one whose set-points are held (R534), `wire` the packet last sent, `pairIx` the pair frames of this Stage by class and `pairWait` those that wait. -/
structure Twin where
  st : Nat := 0
  linkUp : Bool := false
  heartbeat : Bool := false
  missRun : Nat := 0
  gotPkt : Bool := false
  pkts : List TwinPkt := []
  leaseNo : Nat := 0
  leaseEnd : Option Nat := none
  reqAt : Option Nat := none
  reqCause : Nat := 0
  wakeReq : Option Nat := none
  digests : List (Nat × Nat) := []
  digestOwn : Nat := 0
  digestPartner : Nat := 0
  divs : List Nat := []
  divergences : Nat := 0
  rebase : Option Nat := none
  resumeAt : Option Nat := none
  items : List MirrorItem := List.replicate 32 {}
  fresh : Bool := false
  stale : Bool := false
  handoff : Option Nat := none
  follow : Option Nat := none
  grant : Bool := false
  grantAt : Nat := 0
  forwarded : List TwinCmd := []
  wire : Option TwinPkt := none
  shift : List Int := List.replicate 12 0
  stays : List Bool := List.replicate 12 false
  hb : Nat := 0
  hbLosses : Nat := 0
  crcErrors : Nat := 0
  takeovers : Nat := 0
  mirrorBytes : Nat := 0
  wit : List WitPair := List.replicate 8 {}
  pairIx : List Nat := [0, 0, 0, 0]
  pairWait : List Frame := []
  deriving DecidableEq, Repr, Inhabited

/-! ### Chapter 14: the Purse -/

/-- The powered-device front end of a port (R543 to R545). -/
structure PdPort where
  cls : Nat := 0
  powered : Bool := false
  fellBack : Bool := false
  advAt : Nat := 0
  deriving DecidableEq, Repr, Inhabited

/-- A DC bus (R558 to R560). `base` is the slice of the first entry of the forecasts `m` and `r`. -/
structure Bus where
  u : Nat := 0
  e : Nat := 0
  h : Nat := 0
  lowRun : Nat := 0
  highRun : Nat := 0
  low : Bool := false
  high : Bool := false
  susp : Bool := false
  base : Int := 0
  m : List Int := List.replicate 64 0
  r : List Int := List.replicate 64 0
  paired : Nat := 0
  holds : Nat := 0
  holdMs : Nat := 0
  deriving DecidableEq, Repr, Inhabited

/-- The Purse. Powers are in mW, voltages in mV, energies in µJ, temperatures in 1/16 K. `t1` and `t2` say that the tier is
funded, `shed` the cause of the last shedding of T2; `allow` the sprint allowance and `debit` what is left of the present
debit (R564); `foldBack` the limits of the rails in fold-back, `coolSince` since when Tj is below each threshold less 5 K;
`dieTemps` the two sensors of each die, `disSince` since when they differ. -/
structure Purse where
  pd : List PdPort := List.replicate 2 {}
  grant : Nat := 0
  draw : Nat := 0
  hold : Nat := 0
  sensor : List Nat := []
  float : Int := 0
  sAllow : Nat := 0
  railOff : List (Option Nat) := [none, none]
  foldBack : List (Option Nat) := [none, none]
  foldSince : Option Nat := none
  limited : List Bool := [false, false]
  eHold : Nat := 0
  pmax : Nat := 0
  short : Bool := false
  t0 : Bool := false
  t1 : Bool := false
  t2 : Bool := false
  shed : Nat := 0
  cap : Nat := 0
  esr : Nat := 0
  lossRun : Nat := 0
  lost : Bool := false
  railsOff : Bool := false
  linkFailed : Bool := false
  overRun : Nat := 0
  underRun : Nat := 0
  exceeded : Bool := false
  level : Nat := 0
  coolSince : List (Option Nat) := [none, none, none]
  buses : List Bus := List.replicate 4 {}
  sprintAbsent : Nat := 0
  sprintReq : Bool := false
  sprint : Bool := false
  sprintAt : Nat := 0
  sprintStages : Nat := 0
  sprintTime : Nat := 0
  sprints : Nat := 0
  allow : Nat := 5760000000000000
  debit : Nat := 0
  charged : Nat := 0
  dieTemps : List (Int × Int) := List.replicate 3 (0, 0)
  disSince : List (Option Nat) := [none, none, none]
  plus8 : List Bool := [false, false, false]
  temps : List Int := []
  tj : Int := 0
  tPred : Int := 0
  slope : Int := 0
  sheds : Nat := 0
  losses : Nat := 0
  deriving DecidableEq, Repr, Inhabited

/-! ### Chapter 15: events and the Ledger -/

/-- A Ledger record (R577), without its CRC, which is computed when the record is programmed or sent (R578). `begun`
says that its program has begun (R587). -/
structure LedRec where
  seq : Option Nat := none
  life : Nat := 0
  site : Int := 0
  epoch : Nat := 0xFFFFFFFFFFFF
  code : Nat := 0
  sev : Nat := 1
  loss : Bool := false
  summary : Bool := false
  synced : Bool := false
  rep : Nat := 0
  delta : Nat := 0
  payload : List Octet := []
  begun : Bool := false
  deriving DecidableEq, Repr, Inhabited

/-- An occurrence before it becomes a record. -/
structure Occ where
  code : Nat
  sev : Nat
  epoch : Nat
  payload : List Octet
  deriving DecidableEq, Repr, Inhabited

/-- A summary counter cnt[c] with its first and last occurrence (R588, R589). -/
structure SumCnt where
  code : Nat
  count : Nat
  sev : Nat
  firstEpoch : Nat
  firstLife : Nat
  lastLife : Nat
  deriving DecidableEq, Repr, Inhabited

/-- A programmed slot of the Ledger flash (R593): a record or a void. -/
inductive LedSlot where
  | record (r : LedRec)
  | void
  deriving DecidableEq, Repr, Inhabited

/-- The three Ledger states (R595). -/
inductive LedState where
  | opened | reserve | sealed
  deriving DecidableEq, Repr, Inhabited

/-- The Ledger controller, the Ledger flash, nEVT, the EVENT queue and the life clock. Life-clock values are in 1/64 ns. -/
structure Led where
  buf : List LedRec := []
  held : List Occ := []
  cnt : List SumCnt := []
  slots : List (Nat × LedSlot) := []
  ordUsed : Nat := 0
  resUsed : Nat := 0
  voids : Nat := 0
  state : LedState := .opened
  nextSeq : Nat := 0
  headSeq : Option Nat := none
  flushing : Bool := false
  powerFlush : Bool := false
  lossPending : Bool := false
  life64 : Nat := 0
  tickAt : Nat := 0
  lifePersist : Nat := 0
  cleanPersist : Bool := false
  bufPeak : Nat := 0
  flushes : Nat := 0
  folds : Nat := 0
  critLost : Nat := 0
  fabSkipped : Nat := 0
  nevtLow : Bool := false
  nevtLastAt : Nat := 0
  nevtCode : Nat := 0
  nevtFresh : Bool := true
  readFrom : Nat := 0
  readAt : Option Nat := none
  apertureFirst : Option Nat := none
  aperture : List LedRec := []
  apertureFlushed : Nat := 0
  notRecorded : Counts := []
  raised : Counts := []
  events : List LedRec := []
  deriving DecidableEq, Repr, Inhabited

/-! ### Chapter 16: the Steward -/

/-- Ageing of one die (R607 to R610): D and the fused limits. -/
structure Ageing where
  d : Nat := 0
  vy : Nat := 760
  ve : Nat := 830
  vmax : Nat := 900
  dEol : Nat := 40000
  vreq : Nat := 760
  deriving DecidableEq, Repr, Inhabited

/-- An owner slot of the fuses with its last OBJ_SEQ: state 0 blank, 1 active, 3 revoked. -/
structure Owner where
  state : Nat := 0
  pk : List Octet := []
  lastSeq : Nat := 0
  deriving DecidableEq, Repr, Inhabited

/-- A slot of the external NOR: state 0 EMPTY, 1 STAGING, 2 VERIFIED, 3 INVALID, 4 BOOT, 5 TRIAL, 6 PREVIOUS, its two
containers as read, and which parts were staged since it was erased. -/
structure Slot where
  state : Nat := 0
  fw : Option Container := none
  wb : Option Container := none
  fwStaged : Bool := false
  wbStaged : Bool := false
  deriving DecidableEq, Repr, Inhabited

/-- An object or image part under assembly (R626, R627). `erasing` holds off its chunks (R635). -/
structure Assembly where
  obj : Nat
  part : Nat
  total : Nat
  next : Nat := 0
  data : List Octet := []
  src : Nat := 0
  erasing : Bool := false
  deriving DecidableEq, Repr, Inhabited

/-- A journal entry (chapter 16): types 1 amendment, 2 Survey, 3 and 4 their compactions; `gone` marks a
Survey entry superseded. -/
structure JEntry where
  type : Nat
  learn : Nat := 0
  eseq : Nat := 0
  epoch : Nat := 0
  signer : Nat := 255
  objSeq : Nat := 0
  digest : List Octet := []
  cells : List Cell := []
  len : Nat := 0
  gone : Bool := false
  tagOk : Bool := true
  deriving DecidableEq, Repr, Inhabited

/-- An accepted amendment that waits for its commit (R642, R643): who gave it, its object and its sequence; those of one
`grp` commit as one. -/
structure PendAmd where
  src : Nat
  obj : Nat
  part : Nat := 3
  objSeq : Nat
  eseq : Nat := 0
  cells : List Cell
  grp : Nat := 0
  deriving DecidableEq, Repr, Inhabited

/-- An attestation request (R645). -/
structure AttReq where
  src : Nat
  nonce : List Octet
  ek : Bool := false
  keyless : Bool := false
  deriving DecidableEq, Repr, Inhabited

/-- The Steward: fuses, persistent store, objects, journal, tests. `asm` and `answers` run by message type UPDATE_BLOCK,
AMENDMENT, KEY_DELIVERY; life-clock instants are in ns. -/
structure Stw where
  owners : List Owner := List.replicate 4 {}
  vendorPk : List Octet := []
  vendorSeq : Nat := 0
  devicePk : List Octet := []
  ekPk : List Octet := []
  seed : List Octet := []
  dev : List Octet := []
  fwCtr : Nat := 0
  wbCtr : Nat := 0
  kill : Bool := false
  secError : Bool := false
  idFault : Bool := false
  r0 : List Nat := List.replicate 20 16441672
  dies : List Ageing := List.replicate 2 {}
  pairD : List Int := List.replicate 20 0
  pairsValid : Nat := 0
  ageLimit : Bool := false
  agedAt : Option Nat := none
  testLife : Option Nat := none
  testRetry : Option Nat := none
  testDue : Bool := false
  testFrom : Option Nat := none
  testDt : Nat := 0
  holdSince : Option Nat := none
  selfTestAt : Nat := 0
  boots : Nat := 0
  slots : List Slot := List.replicate 2 {}
  attempts : Nat := 0
  asm : List (Option Assembly) := [none, none, none]
  answers : List (Nat × Nat) := List.replicate 3 (0, 0)
  verifying : Option Nat := none
  verifySrc : Nat × Nat × Nat := (0, 0, 0)
  journal : List JEntry := []
  jSeq : Nat := 0
  jUsed : Nat := 0
  compacting : Bool := false
  jFull : Bool := false
  amds : List PendAmd := []
  keyAt : Option (Nat × Int) := none
  attest : Option AttReq := none
  attQueue : List AttReq := []
  lastKeyless : Option Nat := none
  wear : Counts := []
  jApplied : Nat := 0
  jHalf : Bool := false
  deriving DecidableEq, Repr, Inhabited

/-! ### Chapter 17: Waking -/

/-- Waking. `phase`: 0 not started, 1 begun, 2 firmware checked, 3 waybill checked, 4 loaded, 5 sections checked, 6 Stage 0
begun, 7 ended, 8 stopped. `resetting` says that a flush runs whose end begins a reset or a new Waking, recognised at `resetAt`;
`bare` bare Halt, `fabric` that the trunk runs in it. -/
structure Wake where
  supply : Bool := false
  resetLow : Bool := false
  resetting : Bool := false
  resetAt : Nat := 0
  phase : Nat := 0
  slot : Nat := 0
  trial : Bool := false
  from_ : Nat := 0
  stage0At : Nat := 0
  bare : Bool := false
  fabric : Bool := false
  wakeTime : Nat := 0
  releaseEpoch : Nat := 0
  ledgerOn : Bool := false
  lastCause : Nat := 0
  rejSection : Nat := 0
  rejOffset : Nat := 0
  replayed : Nat := 0
  skipped : Nat := 0
  octal : Bool := false
  mbit : Nat := 0
  fw : Container := {}
  wb : Container := {}
  wbCheck : Nat := 0
  ssiMeasured : List Bool := List.replicate 16 false
  deriving DecidableEq, Repr, Inhabited

/-! ### Chapter 18: operating modes -/

/-- The rescue run of one car (R693 to R696). -/
structure RescueCar where
  active : Bool := false
  undrivable : Bool := false
  chosen : Bool := false
  dir : Int := 0
  landing : Nat := 0
  since : Nat := 0
  arrived : Bool := false
  holdFrom : Option Nat := none
  done : Bool := false
  deriving DecidableEq, Repr, Inhabited

/-- A mailbox MODE command taken and waiting for the mode kernel (R684). -/
structure ModeCmd where
  target : Nat
  origin : Origin := {}
  deriving DecidableEq, Repr, Inhabited

/-- The mode kernel and the mode in effect. `haltNew` holds the causes raised since the last boundary (R678), `refused` the
requests whose refusal has been told, `insp` the last command of each car's inspection run, `wakePending` a wake that waits
(its source and input), `recallOn` that a recall phase is in effect. -/
structure ModeSt where
  mode : Nat := 0
  committed : Nat := 0
  causeOf : Nat := 0
  base : Nat := 6
  halt : Nat := 0
  haltNew : Nat := 0
  released : Bool := false
  lodgeReq : Bool := false
  refused : List Nat := []
  epochIn : Nat := 0
  lastRefusal : Nat := 0
  changes : Nat := 0
  halts : Nat := 0
  lodgeWakes : Nat := 0
  timeIn : List Nat := List.replicate 8 0
  enteredAt : Nat := 0
  commands : List ModeCmd := []
  recallPhase : Nat := 0
  recallOn : Bool := false
  recallExit : Bool := false
  recallOpened : List Bool := List.replicate 4 false
  recallDone : List Bool := List.replicate 4 false
  rescueOn : Bool := false
  rescueDone : Bool := false
  rescue : List RescueCar := List.replicate 4 {}
  insp : List (Option AxCmd) := List.replicate 4 none
  idleSince : Option Nat := none
  t0Since : Option Nat := none
  lodgeAt : Nat := 0
  wakePending : Option (Nat × Nat) := none
  waking : Bool := false
  wakeAt : Nat := 0
  lanesOff : Bool := false
  deriving DecidableEq, Repr, Inhabited
/-! ### Chapter 19: what the part switches at its balls -/

/-- The terminations of one feedback channel: the RS-422 pairs A, B and Z, and the sine and cosine pairs (R706). -/
structure Term where
  a : Bool := false
  b : Bool := false
  z : Bool := false
  sc : Bool := false
  deriving DecidableEq, Repr, Inhabited

/-- Terminations, the outputs VIO33 and VIO18 (R723), the sensor rails SS5 and SS12 (R721) and the hold-up charger (R614, R718,
R719): whether each is on. -/
structure Pins where
  term : List Term := List.replicate 16 {}
  vio33 : Bool := false
  vio18 : Bool := false
  sensors : Bool := false
  charger : Bool := false
  deriving DecidableEq, Repr, Inhabited


/-! ### Chapter 20: window, mailbox and service port. A source is a unit ID, or 65536 for the service port. -/

/-- A read held (R731, R732). `due` says that a boundary has passed since its arrival. -/
structure HeldRead where
  src : Nat
  read : WinRead
  due : Bool := false
  deriving DecidableEq, Repr, Inhabited

/-- A mailbox command held (R736), or taken and not yet answered, with the epoch at which it was taken. -/
structure HeldCmd where
  src : Nat
  id : Nat
  pair : Bool := false
  eff : Nat := 0
  cmd : MbCmd
  taken : Nat := 0
  deriving DecidableEq, Repr, Inhabited

/-- A reply kept (R738). -/
structure KeptReply where
  src : Nat
  id : Nat
  cmd : Nat
  status : Nat
  epoch : Nat
  detail : Nat
  deriving DecidableEq, Repr, Inhabited

/-- The diagnostic window, the mailbox and the service port. `cmds` are held, `taken` given to their blocks and not yet answered;
`copied` are the bytes copied at this boundary, `svcOut` what SVC_DO gave in the last read transaction. -/
structure Win where
  reads : List HeldRead := []
  copied : Nat := 0
  served : Nat := 0
  cmds : List HeldCmd := []
  taken : List HeldCmd := []
  kept : List KeptReply := []
  svcOn : Bool := false
  svcQueue : List Msg := []
  svcOut : List Octet := []
  svcErrors : Nat := 0
  svcRefused : Nat := 0
  deriving DecidableEq, Repr, Inhabited

/-! ### The block -/

/-- Why a step would stop the block. No meaning of this model raises it: the manual gives every happening an effect
(NOTES.md, Stops). Safe. -/
inductive Fault where
  | unusable
  deriving DecidableEq, Repr

/-- Why a command would be refused: a command without a meaning. No meaning answers with it. Safe. -/
inductive Refusal where
  | notModelled (mnemonic : String)
  deriving DecidableEq, Repr

/-- What the axis and group kernels carry from Stage to Stage, as it stands where the axes and groups already show what their
tasks will make of the commands offered (`shown`). Log entry 27. -/
structure Shadow where
  shown : Bool := false
  ax : List Axis := List.replicate 12 {}
  pg : List Pg := List.replicate 4 {}
  gc : List Gc := List.replicate 12 {}
  home : List Home := List.replicate 12 {}
  book : List AxisBook := List.replicate 12 {}
  deriving DecidableEq, Repr, Inhabited

/-- An answer on its way to a mailbox requester (R737): source, identifier, code, detail. -/
structure Reply where
  src : Nat
  id : Nat
  code : Nat
  detail : Nat
  deriving DecidableEq, Repr, Inhabited

/-- What the part publishes under an epoch: every component that the window regions, UNIT_STATUS and the attestation report
render, as latched by the Steward at its boundary notice (R50, R51, R54). -/
structure Pub where
  now : Nat := 0
  cfg : List Cell := []
  graph : Graph := {}
  links : List Link := [{}, {}, {}]
  clk : Clocks := {}
  stage : Stage := {}
  disp : Disp := {}
  ain : List Ain := List.replicate 4 {}
  t16 : Int := 400
  fb : List Fb := List.replicate 16 {}
  snap : List FbSnap := List.replicate 16 {}
  snapPrev : List FbSnap := List.replicate 16 {}
  din : List Din := List.replicate 64 {}
  dinSnap : DinSnap := {}
  emu : List Emu := List.replicate 4 {}
  ch : List Chan := List.replicate 36 {}
  cax : List CurAx := List.replicate 12 {}
  acq : Acq := {}
  ax : List Axis := List.replicate 12 {}
  axe : List Axis := List.replicate 12 {}
  axPrevRef : List Int := List.replicate 12 0
  book : List AxisBook := List.replicate 12 {}
  pg : List Pg := List.replicate 4 {}
  pgBook : List PgBook := List.replicate 4 {}
  gc : List Gc := List.replicate 12 {}
  cap : List Cap := List.replicate 16 {}
  cmp : List Cmp := List.replicate 8 {}
  home : List Home := List.replicate 12 {}
  survey : Survey := {}
  cars : List Car := List.replicate 4 {}
  doors : List Door := List.replicate 8 {}
  dsp : Dsp := {}
  safe : Safe := {}
  time : TimeSt := {}
  fab : Fab := {}
  cons : List SafeCon := List.replicate 16 {}
  xd : List Xd := List.replicate 12 {}
  twin : Twin := {}
  purse : Purse := {}
  led : Led := {}
  mode : ModeSt := {}
  stw : Stw := {}
  wake : Wake := {}
  win : Win := {}
  pins : Pins := {}
  deriving DecidableEq, Repr, Inhabited

/-- The PY1240. `ax`, `pg`, `gc` and `home` are what the kernels have computed and what they will make of the commands
offered, `axe` the axes in effect (R45), `pre` the former without the latter (R96, R751);
`pub` what is published under the epoch of the last notice, none before the first. -/
structure State where
  pending : List Instr := []
  freeIx : Nat := 0
  now : Nat := 0
  cfg : List Cell := []
  graph : Graph := {}
  kernels : List KernelEntry := []
  links : List Link := [{}, {}, {}]
  clk : Clocks := {}
  stage : Stage := {}
  disp : Disp := {}
  trims : List Trim := List.replicate 4 {}
  scTrims : List (Trim × Trim) := List.replicate 16 ({}, {})
  ain : List Ain := List.replicate 4 {}
  t16 : Int := 400
  fb : List Fb := List.replicate 16 {}
  snap : List FbSnap := List.replicate 16 {}
  snapPrev : List FbSnap := List.replicate 16 {}
  din : List Din := List.replicate 64 {}
  dinSnap : DinSnap := {}
  dinPrev : DinSnap := {}
  emu : List Emu := List.replicate 4 {}
  ch : List Chan := List.replicate 36 {}
  cax : List CurAx := List.replicate 12 {}
  acq : Acq := {}
  ax : List Axis := List.replicate 12 {}
  axe : List Axis := List.replicate 12 {}
  axPrevRef : List Int := List.replicate 12 0
  book : List AxisBook := List.replicate 12 {}
  axAt : List (AxInstant × AxInstant × AxInstant) := List.replicate 12 ({}, {}, {})
  pg : List Pg := List.replicate 4 {}
  pgBook : List PgBook := List.replicate 4 {}
  gc : List Gc := List.replicate 12 {}
  cap : List Cap := List.replicate 16 {}
  cmp : List Cmp := List.replicate 8 {}
  home : List Home := List.replicate 12 {}
  pre : Shadow := {}
  replies : List Reply := []
  survey : Survey := {}
  cars : List Car := List.replicate 4 {}
  doors : List Door := List.replicate 8 {}
  dsp : Dsp := {}
  safe : Safe := {}
  time : TimeSt := {}
  fab : Fab := {}
  cons : List SafeCon := List.replicate 16 {}
  xd : List Xd := List.replicate 12 {}
  twin : Twin := {}
  purse : Purse := {}
  led : Led := {}
  mode : ModeSt := {}
  stw : Stw := {}
  wake : Wake := {}
  win : Win := {}
  pins : Pins := {}
  pub : Option Pub := none
  deriving DecidableEq, Repr, Inhabited

/-- The machine right after reset: power applied, nothing yet awake (R24, R53). -/
def State.reset : State := {}

end Sys2Proof.Machine
end

