-- ==== Sys2Proof/Machine/Arith.lean ====
section
/-! DEFINITION. The arithmetic of chapter 03: rounding, saturation, the rational step, square roots, angles and checks
over bytes. Numbers are exact; only what a rule names narrows them (R19, R108 to R112). -/

namespace Sys2Proof.Machine

/-- rnd_shift of R112: x / 2^k rounded half to even. -/
def rndShift (x : Int) (k : Nat) : Int :=
  if k = 0 then x
  else
    let q := x / (2 ^ k : Int)
    let f := x - q * 2 ^ k
    let h : Int := 2 ^ (k - 1)
    if f > h ∨ (f = h ∧ q % 2 = 1) then q + 1 else q

/-- floor_shift of R112. -/
def floorShift (x : Int) (k : Nat) : Int := x / (2 ^ k : Int)

/-- The nearest integer to n / d, halves to even (d > 0). -/
def rndDiv (n d : Int) : Int :=
  let q := n / d
  let f := 2 * (n - q * d)
  if f > d ∨ (f = d ∧ q % 2 = 1) then q + 1 else q

/-- sat of R112. -/
def sat (x : Int) (n : Nat) : Int :=
  if x > 2 ^ (n - 1) - 1 then 2 ^ (n - 1) - 1 else if x < -(2 ^ (n - 1)) then -(2 ^ (n - 1)) else x

def clamp (x lo hi : Int) : Int := if x < lo then lo else if hi < x then hi else x

/-- Saturating unsigned format of n bits (R107, R109). -/
def satU (x n : Nat) : Nat := min x (2 ^ n - 1)

/-- A counter of u32 that stops at its end (R107). -/
def inc32 (x : Nat) : Nat := satU (x + 1) 32

/-- x modulo 2^n as an unsigned number. -/
def wrapU (x : Int) (n : Nat) : Nat := (x % (2 ^ n : Int)).toNat

/-- x modulo 2^n read as two's complement. -/
def wrapS (x : Int) (n : Nat) : Int :=
  let u := x % (2 ^ n : Int)
  if u < 2 ^ (n - 1) then u else u - 2 ^ n

/-- Division with floor on magnitudes, the sign applied afterwards (R236). -/
def divMag (n : Int) (d : Nat) : Int := n.sign * ((n.natAbs / d : Nat) : Int)

/-- The rational step of R123 before its output is saturated: exact output and new remainder. -/
def rstepExact (dx num : Int) (den r : Nat) : Int × Nat :=
  let t := dx * num + r
  (t / (den : Int), (t % (den : Int)).toNat)

/-- The rational step of R123. -/
def rstep (dx num : Int) (den r : Nat) : Int × Nat :=
  let y := rstepExact dx num den r
  (sat y.1 48, y.2)

def sgn (x : Int) : Int := x.sign

/-- Quotient rounded up. -/
def ceilDiv (n d : Nat) : Nat := (n + d - 1) / d

/-- Floor of the square root of `v < 4^k`, bit by bit. -/
def sqrtBits (v : Nat) : Nat → Nat → Nat
  | 0, acc => acc
  | k + 1, acc => let c := acc + 2 ^ k; sqrtBits v k (if c * c ≤ v then c else acc)

def floorSqrt (v : Nat) : Nat := sqrtBits v 80 0

/-- The least integer whose square is at least v (R286, R288). -/
def ceilSqrt (v : Nat) : Nat := let r := floorSqrt v; if r * r = v then r else r + 1

/-! ### Angles -/

/-- arctan 2^-i in 2^-64 turn. Log entry 8. -/
def atanTable : List Int :=
  [2305843009213693952, 1361218612134873190, 719230530580881038, 365092647525521947, 183254791493294829,
   91716730292036216, 45869556482713130, 22936177926750895, 11468263948075831, 5734153847876408, 2867079658191483,
   1433540170878135, 716770128161890, 358385069421298, 179192535378193, 89596267772540, 44798133896700] ++
  [22399066949654, 11199533474990, 5599766737515, 2799883368760, 1399941684380, 699970842190, 349985421095,
   174992710548, 87496355274, 43748177637, 21874088818, 10937044409, 5468522205, 2734261102, 1367130551, 683565276,
   341782638, 170891319, 85445659, 42722830, 21361415, 10680707, 5340354, 2670177, 1335088, 667544]

/-- One vectoring pass: turns (x, y), x ≥ 0, onto the x axis and sums the angle turned. Log entry 8. -/
def vectoring : List Int → Nat → Int → Int → Int → Int
  | [], _, _, _, z => z
  | a :: as, i, x, y, z =>
    if y = 0 then z
    else if y > 0 then vectoring as (i + 1) (x + y / 2 ^ i) (y - x / 2 ^ i) (z + a)
    else vectoring as (i + 1) (x - y / 2 ^ i) (y + x / 2 ^ i) (z - a)

/-- Angle of the vector (x, y) in 2^-64 turn, 0 on +x, rising towards +y (R154, R288). The zero vector has angle 0. On the
axes and the diagonals it is exact, elsewhere to within 2^-40 turn (log entry 8). -/
def angle64 (x y : Int) : Nat :=
  let lo : Int := min x.natAbs y.natAbs
  let hi : Int := max x.natAbs y.natAbs
  let a : Int := if lo = 0 then 0 else if lo = hi then 2 ^ 61 else vectoring atanTable 0 (hi * 2 ^ 64) (lo * 2 ^ 64) 0
  let q := if x.natAbs < y.natAbs then 2 ^ 62 - a else a
  let h := if x < 0 then 2 ^ 63 - q else q
  wrapU (if y < 0 then -h else h) 64

/-- Angle in 2^-32 turn. Log entry 8. -/
def angle32 (x y : Int) : Nat := angle64 x y / 2 ^ 32

/-- Terms of a power series at scale 2^96: `acc + t - t x²/((k+1)(k+2)) + …`. -/
def series (x2 : Int) : Nat → Int → Int → Int → Int
  | 0, _, _, acc => acc
  | n + 1, k, t, acc => series x2 n (k + 2) (-(t * x2 / 2 ^ 96) / ((k + 1) * (k + 2))) (acc + t)

/-- sin and cos at scale 2^96 of an angle of the first eighth turn, in 2^-32 turn. -/
def sinCos96 (th : Nat) : Int × Int :=
  let x : Int := (497805226624462170461043889244 * th : Int) / 2 ^ 32
  let x2 := x * x / 2 ^ 96
  (series x2 20 1 x 0, series x2 20 0 (2 ^ 96) 0)

/-- rnd(2^sh cos) and rnd(2^sh sin) of the angle th in 2^-32 turn (R201, R288), by eighths of a turn. Log entry 8. -/
def cosSin (th sh : Nat) : Int × Int :=
  let th := th % 2 ^ 32
  let oct := th / 2 ^ 29
  let r := th % 2 ^ 29
  let m := if oct % 2 = 1 then 2 ^ 29 - r else r
  let (s0, c0) := sinCos96 m
  let s1 := rndShift s0 (96 - sh)
  let c1 := rndShift c0 (96 - sh)
  match oct with
  | 0 => (c1, s1) | 1 => (s1, c1) | 2 => (-s1, c1) | 3 => (-c1, s1)
  | 4 => (-c1, -s1) | 5 => (-s1, -c1) | 6 => (s1, -c1) | _ => (c1, -s1)

/-! ### Bytes -/

/-- `w` bytes of `v`, least significant first (R10). -/
def le : Nat → Int → List Octet
  | 0, _ => []
  | w + 1, v => (v % 256).toNat :: le w (v / 256)

/-- `w` bytes of `v`, most significant first (R11). -/
def be (w : Nat) (v : Int) : List Octet := (le w v).reverse

/-- A number from bytes, least significant first. -/
def ofLe : List Octet → Nat
  | [] => 0
  | b :: bs => b + 256 * ofLe bs

def b2n (b : Bool) : Nat := if b then 1 else 0

/-- One bit of a reflected CRC with polynomial `p`. -/
def crcBit (p : Nat) (c : Nat) : Nat := if c % 2 = 1 then (c / 2) ^^^ p else c / 2

def crcByte (p c b : Nat) : Nat :=
  crcBit p (crcBit p (crcBit p (crcBit p (crcBit p (crcBit p (crcBit p (crcBit p (c ^^^ b))))))))

/-- A reflected CRC over bytes with reflected polynomial `p`, initial value and final XOR `m`. -/
def crc (p m : Nat) (bs : List Octet) : Nat := (bs.foldl (crcByte p) m) ^^^ m

/-- CRC-32 of IEEE 802.3 (R578). -/
def crc32 (bs : List Octet) : Nat := crc 0xEDB88320 0xFFFFFFFF bs

/-! ### Lists -/

/-- Entry `i` of a bank of like things; one that does not exist reads as the type's default. -/
def nth {α : Type} [Inhabited α] (l : List α) (i : Nat) : α := l.getD i default

/-- A keyed counter, read. -/
def countOf (c : Counts) (k : Nat) : Nat := ((c.find? (·.1 == k)).map (·.2)).getD 0

/-- A keyed counter, set; keys rise and no count is 0. -/
def countSet (c : Counts) (k v : Nat) : Counts :=
  c.filter (fun x => x.1 < k) ++ (if v = 0 then [] else [(k, v)]) ++ c.filter (fun x => k < x.1)

/-- A keyed u32 counter, stepped. -/
def countUp (c : Counts) (k : Nat) : Counts := countSet c k (inc32 (countOf c k))

/-- Bit `i` of a number. -/
def bit (v : Nat) (i : Nat) : Bool := v / 2 ^ i % 2 = 1

def setBit (v i : Nat) (b : Bool) : Nat := if bit v i = b then v else if b then v + 2 ^ i else v - 2 ^ i

/-- A list of flags as a number, first flag in bit 0. -/
def packBits : List Bool → Nat
  | [] => 0
  | b :: bs => b2n b + 2 * packBits bs

/-- `step` applied to each index below n in turn. -/
def eachIx {σ : Type} (n : Nat) (step : Nat → σ → σ) (s : σ) : σ := (List.range n).foldl (fun s i => step i s) s

end Sys2Proof.Machine
end

