-- ==== Sys2Proof/Machine/Fields.lean ====
section
/-! DEFINITION. The fields of the waybill, one descriptor per row of the section tables of the
spec's chapters, and the sparse store that holds their encoded values (R18, R655, "Addressing fields" of chapter 17). -/

namespace Sys2Proof.Machine

/-- Amendment class of a field (R655). -/
inductive FieldClass where
  | restart | standstill | live
  deriving DecidableEq, Repr, Inhabited

/-- One row of a section table: where the field lies (section, first record INDEX, number of records, OFFSET in the
record, width in bytes), two strides for fields repeated inside a record, its range, its default and its class.
`dep` marks a default that names other fields, `mask` the listed bits of a flags field, `gap` values between the listed
ones, `low3` the greatest value of an enumerated field in bits [2:0], `ne0` a field whose range is any value but 0, `req` a field
with no default. -/
structure Field where
  sec : Nat
  rec0 : Nat := 0
  recs : Nat := 1
  off : Nat
  width : Nat
  signed : Bool := false
  n1 : Nat := 1
  s1 : Nat := 0
  n2 : Nat := 1
  s2 : Nat := 0
  lo : Int
  hi : Int
  dflt : Int := 0
  dep : Bool := false
  req : Bool := false
  ne0 : Bool := false
  mask : Nat := 0
  gap : Option (Int × Int) := none
  low3 : Option Nat := none
  cls : FieldClass
  deriving DecidableEq, Repr, Inhabited

/-! ### STAGE section -/

def STAGE.period : Field :=
  { sec := 0x1, off := 0x0, width := 4, lo := 8000, hi := 400000, dflt := 25000, cls := .restart }
def STAGE.align : Field :=
  { sec := 0x1, off := 0x4, width := 1, lo := 0, hi := 1, cls := .restart }
def STAGE.overrun_consec : Field :=
  { sec := 0x1, off := 0x5, width := 1, lo := 1, hi := 3, dflt := 3, cls := .restart }
def STAGE.overrun_window : Field :=
  { sec := 0x1, off := 0x6, width := 1, lo := 1, hi := 8, dflt := 8, cls := .restart }
/-! ### ANALOG section -/

def ANALOG.role : Field :=
  { sec := 0x10, recs := 4, off := 0x0, width := 1, lo := 1, hi := 4, dflt := 4, cls := .restart }
def ANALOG.full_scale : Field :=
  { sec := 0x10, recs := 4, off := 0x2, width := 2, lo := 1, hi := 65535, dflt := 1000, cls := .restart }
def ANALOG.offset : Field :=
  { sec := 0x10, recs := 4, off := 0x4, width := 4, signed := true, lo := -8388608, hi := 8388607, cls := .live }
def ANALOG.gain : Field :=
  { sec := 0x10, recs := 4, off := 0x8, width := 4, lo := 8388608, hi := 33554432, dflt := 16777216, cls := .live }
def ANALOG.tc : Field :=
  { sec := 0x10, recs := 4, off := 0xC, width := 4, signed := true,
    lo := -2147483648, hi := 2147483647, cls := .live }
def ANALOG.tare : Field :=
  { sec := 0x10, recs := 4, off := 0x10, width := 4, signed := true,
    lo := -8388608, hi := 8388607, cls := .standstill }
/-! ### DIN section -/

def DIN.role : Field :=
  { sec := 0x12, recs := 64, off := 0x0, width := 1, lo := 1, hi := 6, dflt := 1, cls := .restart }
def DIN.axis : Field :=
  { sec := 0x12, recs := 64, off := 0x1, width := 1, lo := 0, hi := 12, cls := .restart }
def DIN.polarity : Field :=
  { sec := 0x12, recs := 64, off := 0x2, width := 1, lo := 1, hi := 2, dflt := 1, cls := .restart }
def DIN.chatter_n : Field :=
  { sec := 0x12, recs := 64, off := 0x3, width := 1, lo := 1, hi := 255, dflt := 8, cls := .live }
def DIN.stable : Field :=
  { sec := 0x12, recs := 64, off := 0x4, width := 4, lo := 400, hi := 40000000, dflt := 800000, cls := .live }
def DIN.chatter_win : Field :=
  { sec := 0x12, recs := 64, off := 0x8, width := 4, lo := 400000, hi := 400000000, dflt := 40000000, cls := .live }
/-! ### EMU section -/

def EMU.source : Field :=
  { sec := 0x13, recs := 4, off := 0x0, width := 1, lo := 0, hi := 3, cls := .restart }
def EMU.index : Field :=
  { sec := 0x13, recs := 4, off := 0x1, width := 1, lo := 0, hi := 15, cls := .restart }
def EMU.flags : Field :=
  { sec := 0x13, recs := 4, off := 0x2, width := 1, lo := 0, hi := 255, mask := 0x3, cls := .restart }
def EMU.lines : Field :=
  { sec := 0x13, recs := 4, off := 0x4, width := 4, lo := 1, hi := 1048576, dflt := 1024, cls := .restart }
def EMU.num : Field :=
  { sec := 0x13, recs := 4, off := 0x8, width := 4, signed := true,
    lo := -2147483648, hi := 2147483647, dflt := 1, ne0 := true, cls := .standstill }
def EMU.den : Field :=
  { sec := 0x13, recs := 4, off := 0xC, width := 4, lo := 1, hi := 4294967295, dflt := 1, cls := .standstill }
def EMU.min_space : Field :=
  { sec := 0x13, recs := 4, off := 0x10, width := 2, lo := 8, hi := 4000, dflt := 16, cls := .live }
def EMU.backlog_max : Field :=
  { sec := 0x13, recs := 4, off := 0x14, width := 4, lo := 1, hi := 16777216, dflt := 65536, cls := .live }
/-! ### FB section -/

def FB.kind : Field :=
  { sec := 0x11, recs := 16, off := 0x0, width := 1, lo := 0, hi := 3, cls := .restart }
def FB.dir : Field :=
  { sec := 0x11, recs := 16, off := 0x1, width := 1, lo := 1, hi := 2, dflt := 1, cls := .restart }
def FB.flags : Field :=
  { sec := 0x11, recs := 16, off := 0x2, width := 1, lo := 0, hi := 255, mask := 0xF, cls := .restart }
def FB.interp_log2 : Field :=
  { sec := 0x11, recs := 16, off := 0x3, width := 1, lo := 2, hi := 12, dflt := 12, cls := .restart }
def FB.cpr : Field :=
  { sec := 0x11, recs := 16, off := 0x4, width := 4, lo := 4, hi := 4294967295, dflt := 4294967296, cls := .restart }
def FB.num : Field :=
  { sec := 0x11, recs := 16, off := 0x8, width := 4, signed := true,
    lo := -2147483648, hi := 2147483647, dflt := 1, ne0 := true, cls := .standstill }
def FB.den : Field :=
  { sec := 0x11, recs := 16, off := 0xC, width := 4, lo := 1, hi := 4294967295, dflt := 1, cls := .standstill }
def FB.min_edge : Field :=
  { sec := 0x11, recs := 16, off := 0x10, width := 2, lo := 1, hi := 400, dflt := 8, cls := .live }
def FB.edge_err_limit : Field :=
  { sec := 0x11, recs := 16, off := 0x12, width := 1, lo := 1, hi := 64, dflt := 4, cls := .restart }
def FB.index_tol : Field :=
  { sec := 0x11, recs := 16, off := 0x13, width := 1, lo := 1, hi := 255, dflt := 2, cls := .live }
def FB.index_period : Field :=
  { sec := 0x11, recs := 16, off := 0x14, width := 4, lo := 4, hi := 4294967295, dep := true, cls := .restart }
def FB.speed_window : Field :=
  { sec := 0x11, recs := 16, off := 0x18, width := 4, lo := 400, hi := 4000000, dep := true, cls := .live }
def FB.stop_time : Field :=
  { sec := 0x11, recs := 16, off := 0x1C, width := 4, lo := 400000, hi := 400000000, dflt := 20000000, cls := .live }
def FB.amp_nom : Field :=
  { sec := 0x11, recs := 16, off := 0x20, width := 2, lo := 1000, hi := 32767, dflt := 16384, cls := .restart }
def FB.amp_lo : Field :=
  { sec := 0x11, recs := 16, off := 0x22, width := 1, lo := 10, hi := 100, dflt := 50, cls := .live }
def FB.amp_hi : Field :=
  { sec := 0x11, recs := 16, off := 0x23, width := 1, lo := 100, hi := 255, dflt := 130, cls := .live }
def FB.amp_samples : Field :=
  { sec := 0x11, recs := 16, off := 0x24, width := 1, lo := 1, hi := 255, dflt := 4, cls := .live }
def FB.ssi_bits : Field :=
  { sec := 0x11, recs := 16, off := 0x25, width := 1, lo := 8, hi := 32, dflt := 25, cls := .restart }
def FB.ssi_div : Field :=
  { sec := 0x11, recs := 16, off := 0x26, width := 2, lo := 20, hi := 2000, dflt := 40, cls := .restart }
def FB.ssi_monoflop : Field :=
  { sec := 0x11, recs := 16, off := 0x28, width := 2, lo := 400, hi := 65535, dflt := 8000, cls := .restart }
def FB.ssi_status : Field :=
  { sec := 0x11, recs := 16, off := 0x2A, width := 1,
    lo := 0, hi := 255, mask := 0xF7, low3 := some 4, cls := .restart }
def FB.ssi_latch : Field :=
  { sec := 0x11, recs := 16, off := 0x2C, width := 4, lo := 1, hi := 4294967295, dep := true, cls := .restart }
def FB.ssi_max_step : Field :=
  { sec := 0x11, recs := 16, off := 0x30, width := 4, lo := 1, hi := 2147483647, dep := true, cls := .live }
def FB.sc_off_s : Field :=
  { sec := 0x11, recs := 16, off := 0x34, width := 2, signed := true, lo := -8192, hi := 8192, cls := .standstill }
def FB.sc_off_c : Field :=
  { sec := 0x11, recs := 16, off := 0x36, width := 2, signed := true, lo := -8192, hi := 8192, cls := .standstill }
def FB.sc_gain_s : Field :=
  { sec := 0x11, recs := 16, off := 0x38, width := 2, lo := 8192, hi := 32768, dflt := 16384, cls := .standstill }
def FB.sc_gain_c : Field :=
  { sec := 0x11, recs := 16, off := 0x3A, width := 2, lo := 8192, hi := 32768, dflt := 16384, cls := .standstill }
def FB.sc_k1 : Field :=
  { sec := 0x11, recs := 16, off := 0x3C, width := 2, lo := 16384, hi := 18919, dflt := 16384, cls := .standstill }
def FB.sc_k2 : Field :=
  { sec := 0x11, recs := 16, off := 0x3E, width := 2, signed := true, lo := -18918, hi := 18918, cls := .standstill }
/-! ### CURRENT section -/

def CURRENT.form : Field :=
  { sec := 0x20, recs := 36, off := 0x0, width := 1, lo := 0, hi := 3, cls := .restart }
def CURRENT.osr_log2 : Field :=
  { sec := 0x20, recs := 36, off := 0x1, width := 1, lo := 6, hi := 8, dflt := 7, cls := .restart }
def CURRENT.ofs_shift : Field :=
  { sec := 0x20, recs := 36, off := 0x2, width := 1, lo := 1, hi := 16, dflt := 8, cls := .live }
def CURRENT.fs : Field :=
  { sec := 0x20, recs := 36, off := 0x4, width := 4, lo := 1, hi := 2000000, dflt := 50000, cls := .standstill }
def CURRENT.fixed_ofs : Field :=
  { sec := 0x20, recs := 36, off := 0x8, width := 4, signed := true, lo := -838861, hi := 838861, cls := .standstill }
def CURRENT.mod_rate : Field :=
  { sec := 0x20, recs := 36, off := 0xC, width := 4,
    lo := 5000000, hi := 25000000, dflt := 20000000, cls := .restart }
def CURRENT.mod_delay : Field :=
  { sec := 0x20, recs := 36, off := 0x10, width := 2, lo := 0, hi := 16000, cls := .standstill }
def CURRENT.ofs_limit : Field :=
  { sec := 0x20, recs := 36, off := 0x14, width := 4, lo := 1, hi := 838861, dflt := 167772, cls := .live }
def CURRENT.oc_fast : Field :=
  { sec := 0x20, recs := 36, off := 0x18, width := 4, lo := 1, hi := 8388607, dflt := 7549747, cls := .standstill }
def CURRENT.oc_slow : Field :=
  { sec := 0x20, recs := 36, off := 0x1C, width := 4, lo := 1, hi := 8388607, dflt := 6710886, cls := .standstill }
def CURRENT.kind : Field :=
  { sec := 0x20, rec0 := 36, recs := 12, off := 0x0, width := 1, lo := 0, hi := 4, cls := .restart }
def CURRENT.hb_base : Field :=
  { sec := 0x20, rec0 := 36, recs := 12, off := 0x1, width := 1, lo := 0, hi := 47, cls := .restart }
def CURRENT.ph_base : Field :=
  { sec := 0x20, rec0 := 36, recs := 12, off := 0x2, width := 1, lo := 0, hi := 35, cls := .restart }
def CURRENT.flags : Field :=
  { sec := 0x20, rec0 := 36, recs := 12, off := 0x3, width := 1, lo := 0, hi := 255, mask := 0x3, cls := .standstill }
def CURRENT.dead : Field :=
  { sec := 0x20, rec0 := 36, recs := 12, off := 0x4, width := 2, lo := 0, hi := 800, cls := .standstill }
def CURRENT.min_pulse : Field :=
  { sec := 0x20, rec0 := 36, recs := 12, off := 0x6, width := 2, lo := 8, hi := 4000, dflt := 80, cls := .standstill }
def CURRENT.gate_delay : Field :=
  { sec := 0x20, rec0 := 36, recs := 12, off := 0x8, width := 2, lo := 0, hi := 16000, cls := .standstill }
def CURRENT.sw_target : Field :=
  { sec := 0x20, rec0 := 36, recs := 12, off := 0xA, width := 2, lo := 1, hi := 65535, dflt := 1280, cls := .live }
def CURRENT.band_init : Field :=
  { sec := 0x20, rec0 := 36, recs := 12, off := 0xC, width := 4,
    lo := 1, hi := 4194304, dflt := 83886, cls := .standstill }
def CURRENT.band_min : Field :=
  { sec := 0x20, rec0 := 36, recs := 12, off := 0x10, width := 4, lo := 1, hi := 4194304, dflt := 8389, cls := .live }
def CURRENT.band_max : Field :=
  { sec := 0x20, rec0 := 36, recs := 12, off := 0x14, width := 4,
    lo := 1, hi := 4194304, dflt := 838861, cls := .live }
def CURRENT.band_gain : Field :=
  { sec := 0x20, rec0 := 36, recs := 12, off := 0x18, width := 4,
    lo := 1, hi := 16777216, dflt := 262144, cls := .live }
def CURRENT.centre_shift : Field :=
  { sec := 0x20, rec0 := 36, recs := 12, off := 0x1C, width := 1, lo := 1, hi := 16, dflt := 8, cls := .live }
def CURRENT.vlim_stages : Field :=
  { sec := 0x20, rec0 := 36, recs := 12, off := 0x1D, width := 1, lo := 1, hi := 255, dflt := 16, cls := .live }
def CURRENT.g_init : Field :=
  { sec := 0x20, rec0 := 36, recs := 12, off := 0x20, width := 4,
    lo := 16, hi := 1073741824, dflt := 163840, cls := .standstill }
def CURRENT.g_shift : Field :=
  { sec := 0x20, rec0 := 36, recs := 12, off := 0x24, width := 1, lo := 1, hi := 16, dflt := 6, cls := .live }
def CURRENT.oc_n : Field :=
  { sec := 0x20, rec0 := 36, recs := 12, off := 0x25, width := 1, lo := 1, hi := 16, dflt := 2, cls := .standstill }
def CURRENT.sum_n : Field :=
  { sec := 0x20, rec0 := 36, recs := 12, off := 0x26, width := 1, lo := 1, hi := 64, dflt := 4, cls := .standstill }
def CURRENT.i_max : Field :=
  { sec := 0x20, rec0 := 36, recs := 12, off := 0x28, width := 4,
    lo := 1, hi := 8388607, dflt := 6710886, cls := .live }
def CURRENT.sum_limit : Field :=
  { sec := 0x20, rec0 := 36, recs := 12, off := 0x2C, width := 4,
    lo := 1, hi := 8388607, dflt := 838861, cls := .standstill }
def CURRENT.zero_settle : Field :=
  { sec := 0x20, rec0 := 36, recs := 12, off := 0x30, width := 4,
    lo := 400, hi := 4000000, dflt := 40000, cls := .live }
def CURRENT.drv_filter : Field :=
  { sec := 0x20, rec0 := 36, recs := 12, off := 0x34, width := 2, lo := 4, hi := 400, dflt := 40, cls := .standstill }
/-! ### AXIS section -/

def AXIS.unit : Field :=
  { sec := 0x30, recs := 12, off := 0x0, width := 1, lo := 1, hi := 4, dflt := 1, cls := .restart }
def AXIS.fb_motor : Field :=
  { sec := 0x30, recs := 12, off := 0x1, width := 1, lo := 0, hi := 16, cls := .restart }
def AXIS.fb_load : Field :=
  { sec := 0x30, recs := 12, off := 0x2, width := 1, lo := 0, hi := 16, cls := .restart }
def AXIS.flags : Field :=
  { sec := 0x30, recs := 12, off := 0x3, width := 1, lo := 0, hi := 255, mask := 0x1F, cls := .restart }
def AXIS.pole_pairs : Field :=
  { sec := 0x30, recs := 12, off := 0x4, width := 1, lo := 1, hi := 255, dflt := 1, cls := .restart }
def AXIS.ferr_n : Field :=
  { sec := 0x30, recs := 12, off := 0x5, width := 1, lo := 1, hi := 255, dflt := 4, cls := .live }
def AXIS.standstill_n : Field :=
  { sec := 0x30, recs := 12, off := 0x6, width := 2, lo := 1, hi := 65535, dflt := 16, cls := .live }
def AXIS.modulo : Field :=
  { sec := 0x30, recs := 12, off := 0x8, width := 8, signed := true,
    lo := 1, hi := 4611686018427387904, dflt := 16777216, cls := .restart }
def AXIS.comm_offset : Field :=
  { sec := 0x30, recs := 12, off := 0x10, width := 4, lo := 0, hi := 4294967295, cls := .standstill }
def AXIS.om_num : Field :=
  { sec := 0x30, recs := 12, off := 0x14, width := 4, signed := true,
    lo := -2147483648, hi := 2147483647, dflt := 1, ne0 := true, cls := .restart }
def AXIS.om_den : Field :=
  { sec := 0x30, recs := 12, off := 0x18, width := 4, lo := 1, hi := 4294967295, dflt := 1, cls := .restart }
def AXIS.th_num : Field :=
  { sec := 0x30, recs := 12, off := 0x1C, width := 4, signed := true,
    lo := -2147483648, hi := 2147483647, dflt := 1, ne0 := true, cls := .restart }
def AXIS.th_den : Field :=
  { sec := 0x30, recs := 12, off := 0x20, width := 4, lo := 1, hi := 4294967295, dflt := 1, cls := .restart }
def AXIS.kp : Field :=
  { sec := 0x30, recs := 12, off := 0x24, width := 4, lo := 1, hi := 4294967295, dflt := 32768, cls := .live }
def AXIS.kv : Field :=
  { sec := 0x30, recs := 12, off := 0x28, width := 4, lo := 1, hi := 4294967295, dflt := 65536, cls := .live }
def AXIS.ki : Field :=
  { sec := 0x30, recs := 12, off := 0x2C, width := 4, lo := 0, hi := 4294967295, cls := .live }
def AXIS.kaff : Field :=
  { sec := 0x30, recs := 12, off := 0x30, width := 4, lo := 0, hi := 4294967295, cls := .live }
def AXIS.i_lim : Field :=
  { sec := 0x30, recs := 12, off := 0x34, width := 4, lo := 1, hi := 8388607, dflt := 6710886, cls := .live }
def AXIS.i_int : Field :=
  { sec := 0x30, recs := 12, off := 0x38, width := 4, lo := 1, hi := 8388607, dflt := 3355443, cls := .live }
def AXIS.i_hold : Field :=
  { sec := 0x30, recs := 12, off := 0x3C, width := 4, lo := 1, hi := 8388607, dflt := 3355443, cls := .live }
def AXIS.id_ref : Field :=
  { sec := 0x30, recs := 12, off := 0x40, width := 4, signed := true, lo := -8388608, hi := 8388607, cls := .live }
def AXIS.standstill_v : Field :=
  { sec := 0x30, recs := 12, off := 0x44, width := 4, lo := 0, hi := 4294967295, dflt := 1024, cls := .live }
def AXIS.ferr_max : Field :=
  { sec := 0x30, recs := 12, off := 0x48, width := 8,
    lo := 1, hi := 140737488355327, dflt := 268435456, cls := .live }
def AXIS.v_limit : Field :=
  { sec := 0x30, recs := 12, off := 0x50, width := 8, signed := true,
    lo := 1, hi := 140737488355327, dflt := 140737488355327, cls := .live }
def AXIS.d_quick : Field :=
  { sec := 0x30, recs := 12, off := 0x58, width := 8, signed := true,
    lo := 1, hi := 2147483647, dep := true, cls := .live }
def AXIS.soft_min : Field :=
  { sec := 0x30, recs := 12, off := 0x60, width := 8, signed := true,
    lo := -9223372036854775808, hi := 9223372036854775807, cls := .live }
def AXIS.soft_max : Field :=
  { sec := 0x30, recs := 12, off := 0x68, width := 8, signed := true,
    lo := -9223372036854775808, hi := 9223372036854775807, cls := .live }
def AXIS.dwell : Field :=
  { sec := 0x30, recs := 12, off := 0x70, width := 4, lo := 400000, hi := 400000000, dflt := 80000000, cls := .live }
def AXIS.blend : Field :=
  { sec := 0x30, recs := 12, off := 0x74, width := 4, lo := 400000, hi := 400000000, dflt := 8000000, cls := .live }
def AXIS.hand_dp : Field :=
  { sec := 0x30, recs := 12, off := 0x78, width := 8, lo := 1, hi := 140737488355327, dflt := 16777216, cls := .live }
def AXIS.hand_dv : Field :=
  { sec := 0x30, recs := 12, off := 0x80, width := 8, lo := 1, hi := 140737488355327, dflt := 16384, cls := .live }
def AXIS.hand_di : Field :=
  { sec := 0x30, recs := 12, off := 0x88, width := 4, lo := 1, hi := 8388607, dflt := 838861, cls := .live }
def AXIS.prof_first : Field :=
  { sec := 0x30, recs := 12, off := 0x8C, width := 1, lo := 0, hi := 47, cls := .restart }
def AXIS.prof_count : Field :=
  { sec := 0x30, recs := 12, off := 0x8D, width := 1, lo := 1, hi := 8, dflt := 1, cls := .restart }
def AXIS.follow_src : Field :=
  { sec := 0x30, recs := 12, off := 0x8E, width := 1, lo := 0, hi := 3, cls := .restart }
def AXIS.follow_index : Field :=
  { sec := 0x30, recs := 12, off := 0x8F, width := 1, lo := 0, hi := 15, cls := .restart }
def AXIS.follow_num : Field :=
  { sec := 0x30, recs := 12, off := 0x90, width := 4, signed := true,
    lo := -2147483648, hi := 2147483647, dflt := 1, ne0 := true, cls := .standstill }
def AXIS.follow_den : Field :=
  { sec := 0x30, recs := 12, off := 0x94, width := 4, lo := 1, hi := 4294967295, dflt := 1, cls := .standstill }
def AXIS.follow_dead : Field :=
  { sec := 0x30, recs := 12, off := 0x98, width := 4, lo := 0, hi := 8388607, cls := .live }
/-! ### PROFILE section -/

def PROFILE.v_start : Field :=
  { sec := 0x31, recs := 48, off := 0x0, width := 8, signed := true, lo := 0, hi := 140737488355327, cls := .live }
def PROFILE.v1 : Field :=
  { sec := 0x31, recs := 48, off := 0x8, width := 8, signed := true,
    lo := 0, hi := 140737488355327, dep := true, cls := .live }
def PROFILE.v_max : Field :=
  { sec := 0x31, recs := 48, off := 0x10, width := 8, signed := true,
    lo := 1, hi := 140737488355327, dep := true, cls := .live }
def PROFILE.v_stop : Field :=
  { sec := 0x31, recs := 48, off := 0x18, width := 8, signed := true, lo := 0, hi := 140737488355327, cls := .live }
def PROFILE.a1 : Field :=
  { sec := 0x31, recs := 48, off := 0x20, width := 8, signed := true,
    lo := 1, hi := 2147483647, dflt := 65536, cls := .live }
def PROFILE.a2 : Field :=
  { sec := 0x31, recs := 48, off := 0x28, width := 8, signed := true,
    lo := 1, hi := 2147483647, dep := true, cls := .live }
def PROFILE.d2 : Field :=
  { sec := 0x31, recs := 48, off := 0x30, width := 8, signed := true,
    lo := 1, hi := 2147483647, dep := true, cls := .live }
def PROFILE.d1 : Field :=
  { sec := 0x31, recs := 48, off := 0x38, width := 8, signed := true,
    lo := 1, hi := 2147483647, dep := true, cls := .live }
def PROFILE.j : Field :=
  { sec := 0x31, recs := 48, off := 0x40, width := 8, signed := true, lo := 0, hi := 2147483647, cls := .live }
/-! ### PATH section -/

def PATH.members : Field :=
  { sec := 0x32, recs := 4, off := 0x0, width := 2, lo := 0, hi := 4095, cls := .restart }
def PATH.feed_mask : Field :=
  { sec := 0x32, recs := 4, off := 0x2, width := 2, lo := 0, hi := 4095, dep := true, cls := .restart }
def PATH.shift : Field :=
  { sec := 0x32, recs := 4, off := 0x4, width := 1, lo := 1, hi := 24, dflt := 16, cls := .restart }
def PATH.profile : Field :=
  { sec := 0x32, recs := 4, off := 0x5, width := 1, lo := 0, hi := 47, cls := .standstill }
def PATH.queue : Field :=
  { sec := 0x32, recs := 4, off := 0x6, width := 1, lo := 1, hi := 32, dflt := 32, cls := .restart }
def PATH.arc_tol : Field :=
  { sec := 0x32, recs := 4, off := 0x8, width := 4, lo := 1, hi := 4294967295, dflt := 16777, cls := .live }
/-! ### GEAR section -/

def GEAR.slave : Field :=
  { sec := 0x33, recs := 12, off := 0x0, width := 1, lo := 0, hi := 12, cls := .restart }
def GEAR.src : Field :=
  { sec := 0x33, recs := 12, off := 0x1, width := 1, lo := 1, hi := 3, dflt := 1, cls := .restart }
def GEAR.src_index : Field :=
  { sec := 0x33, recs := 12, off := 0x2, width := 1, lo := 0, hi := 15, cls := .restart }
def GEAR.flags : Field :=
  { sec := 0x33, recs := 12, off := 0x3, width := 1, lo := 0, hi := 255, mask := 0x7, cls := .standstill }
def GEAR.num : Field :=
  { sec := 0x33, recs := 12, off := 0x4, width := 4, signed := true,
    lo := -2147483648, hi := 2147483647, dflt := 1, ne0 := true, cls := .standstill }
def GEAR.den : Field :=
  { sec := 0x33, recs := 12, off := 0x8, width := 4, lo := 1, hi := 4294967295, dflt := 1, cls := .standstill }
def GEAR.engage_len : Field :=
  { sec := 0x33, recs := 12, off := 0x10, width := 8, lo := 0, hi := 140737488355327, cls := .live }
def GEAR.disengage_len : Field :=
  { sec := 0x33, recs := 12, off := 0x18, width := 8, lo := 0, hi := 140737488355327, cls := .live }
def GEAR.engage_pos : Field :=
  { sec := 0x33, recs := 12, off := 0x20, width := 8, signed := true,
    lo := -9223372036854775808, hi := 9223372036854775807, cls := .live }
def GEAR.disengage_pos : Field :=
  { sec := 0x33, recs := 12, off := 0x28, width := 8, signed := true,
    lo := -9223372036854775808, hi := 9223372036854775807, cls := .live }
/-! ### CAPTURE section -/

def CAPTURE.mode : Field :=
  { sec := 0x34, recs := 16, off := 0x0, width := 1, lo := 0, hi := 3, cls := .restart }
def CAPTURE.edge : Field :=
  { sec := 0x34, recs := 16, off := 0x1, width := 1, lo := 1, hi := 3, dflt := 1, cls := .live }
def CAPTURE.min_width : Field :=
  { sec := 0x34, recs := 16, off := 0x4, width := 4, lo := 4, hi := 400000, dflt := 40, cls := .live }
def CAPTURE.holdoff : Field :=
  { sec := 0x34, recs := 16, off := 0x8, width := 4, lo := 4, hi := 400000000, dep := true, cls := .live }
/-! ### COMPARE section -/

def COMPARE.source : Field :=
  { sec := 0x35, recs := 8, off := 0x0, width := 1, lo := 0, hi := 2, cls := .restart }
def COMPARE.index : Field :=
  { sec := 0x35, recs := 8, off := 0x1, width := 1, lo := 0, hi := 15, cls := .restart }
def COMPARE.flags : Field :=
  { sec := 0x35, recs := 8, off := 0x2, width := 1, lo := 0, hi := 255, mask := 0xF, cls := .live }
def COMPARE.first : Field :=
  { sec := 0x35, recs := 8, off := 0x4, width := 2, lo := 0, hi := 4095, cls := .live }
def COMPARE.count : Field :=
  { sec := 0x35, recs := 8, off := 0x6, width := 2, lo := 1, hi := 4096, dflt := 1, cls := .live }
def COMPARE.width : Field :=
  { sec := 0x35, recs := 8, off := 0x8, width := 4, lo := 4, hi := 4000000, dflt := 400, cls := .live }
def COMPARE.gap : Field :=
  { sec := 0x35, recs := 8, off := 0xC, width := 4, lo := 4, hi := 4000000, dep := true, cls := .live }
def COMPARE.period : Field :=
  { sec := 0x35, recs := 8, off := 0x10, width := 8, signed := true,
    lo := -9223372036854775808, hi := 9223372036854775807, cls := .live }
def COMPARE.pos : Field :=
  { sec := 0x35, rec0 := 8, recs := 4096, off := 0x0, width := 8, signed := true,
    lo := -9223372036854775808, hi := 9223372036854775807, cls := .live }
/-! ### HOMING section -/

def HOMING.method : Field :=
  { sec := 0x40, recs := 12, off := 0x0, width := 1, lo := 0, hi := 6, cls := .restart }
def HOMING.dir : Field :=
  { sec := 0x40, recs := 12, off := 0x1, width := 1, lo := 1, hi := 2, dflt := 1, cls := .restart }
def HOMING.input : Field :=
  { sec := 0x40, recs := 12, off := 0x2, width := 1, lo := 0, hi := 63, cls := .restart }
def HOMING.flags : Field :=
  { sec := 0x40, recs := 12, off := 0x3, width := 1, lo := 0, hi := 255, mask := 0x7, cls := .restart }
def HOMING.hs_time : Field :=
  { sec := 0x40, recs := 12, off := 0x4, width := 4, lo := 400000, hi := 400000000, dflt := 40000000, cls := .live }
def HOMING.v_search : Field :=
  { sec := 0x40, recs := 12, off := 0x8, width := 8, signed := true,
    lo := 1, hi := 140737488355327, dep := true, cls := .live }
def HOMING.v_creep : Field :=
  { sec := 0x40, recs := 12, off := 0x10, width := 8, signed := true,
    lo := 1, hi := 140737488355327, dep := true, cls := .live }
def HOMING.home_pos : Field :=
  { sec := 0x40, recs := 12, off := 0x18, width := 8, signed := true,
    lo := -9223372036854775808, hi := 9223372036854775807, cls := .live }
def HOMING.final : Field :=
  { sec := 0x40, recs := 12, off := 0x20, width := 8, signed := true,
    lo := -9223372036854775808, hi := 9223372036854775807, cls := .live }
def HOMING.max_dist : Field :=
  { sec := 0x40, recs := 12, off := 0x28, width := 8,
    lo := 1, hi := 4611686018427387904, dflt := 4611686018427387904, cls := .live }
def HOMING.backoff : Field :=
  { sec := 0x40, recs := 12, off := 0x30, width := 8, lo := 1, hi := 140737488355327, dflt := 16777216, cls := .live }
def HOMING.hs_current : Field :=
  { sec := 0x40, recs := 12, off := 0x38, width := 4, lo := 1, hi := 8388607, dflt := 838861, cls := .live }
def HOMING.hs_lead : Field :=
  { sec := 0x40, recs := 12, off := 0x3C, width := 4, lo := 1, hi := 4294967295, dflt := 1048576, cls := .live }
/-! ### SURVEY section -/

def SURVEY.align_current : Field :=
  { sec := 0x41, off := 0x0, width := 4, lo := 1, hi := 8388607, dflt := 1677722, cls := .live }
def SURVEY.align_settle : Field :=
  { sec := 0x41, off := 0x4, width := 4, lo := 4000000, hi := 2000000000, dflt := 200000000, cls := .live }
def SURVEY.comm_tol : Field :=
  { sec := 0x41, off := 0x8, width := 4, lo := 1, hi := 1073741824, dflt := 59652324, cls := .live }
def SURVEY.sc_periods : Field :=
  { sec := 0x41, off := 0xC, width := 2, lo := 16, hi := 4096, dflt := 256, cls := .live }
def SURVEY.door_runs : Field :=
  { sec := 0x41, off := 0xE, width := 1, lo := 1, hi := 32, dflt := 4, cls := .live }
def SURVEY.learn_speed : Field :=
  { sec := 0x41, off := 0x10, width := 8, signed := true, lo := 1, hi := 140737488355327, dep := true, cls := .live }
def SURVEY.zone_tol : Field :=
  { sec := 0x41, off := 0x18, width := 8, lo := 1, hi := 140737488355327, dflt := 33554432, cls := .live }
def SURVEY.level_settle : Field :=
  { sec := 0x41, off := 0x20, width := 4, lo := 40000000, hi := 2000000000, dflt := 400000000, cls := .live }
/-! ### CAR section -/

def CAR.axis : Field :=
  { sec := 0x50, recs := 4, off := 0x0, width := 1, lo := 0, hi := 12, cls := .restart }
def CAR.shaft_fb : Field :=
  { sec := 0x50, recs := 4, off := 0x1, width := 1, lo := 0, hi := 16, cls := .restart }
def CAR.dz_in0 : Field :=
  { sec := 0x50, recs := 4, off := 0x2, width := 1, lo := 1, hi := 64, req := true, cls := .restart }
def CAR.dz_in1 : Field :=
  { sec := 0x50, recs := 4, off := 0x3, width := 1, lo := 0, hi := 64, cls := .restart }
def CAR.count : Field :=
  { sec := 0x50, recs := 4, off := 0x4, width := 2, lo := 2, hi := 256, req := true, cls := .restart }
def CAR.load_in : Field :=
  { sec := 0x50, recs := 4, off := 0x6, width := 1, lo := 0, hi := 4, cls := .restart }
def CAR.flags : Field :=
  { sec := 0x50, recs := 4, off := 0x7, width := 1, lo := 0, hi := 255, mask := 0x3, cls := .live }
def CAR.win_ms : Field :=
  { sec := 0x50, recs := 4, off := 0x8, width := 8, lo := 1, hi := 140737488355327, dflt := 838860800, cls := .live }
def CAR.win_marker : Field :=
  { sec := 0x50, recs := 4, off := 0x10, width := 8, lo := 1, hi := 140737488355327, dflt := 167772160, cls := .live }
def CAR.level_tol : Field :=
  { sec := 0x50, recs := 4, off := 0x18, width := 4, lo := 1, hi := 4294967295, dflt := 83886080, cls := .live }
def CAR.relevel_start : Field :=
  { sec := 0x50, recs := 4, off := 0x1C, width := 4, lo := 1, hi := 4294967295, dflt := 167772160, cls := .live }
def CAR.relevel_speed : Field :=
  { sec := 0x50, recs := 4, off := 0x20, width := 8, signed := true,
    lo := 1, hi := 140737488355327, dep := true, cls := .live }
def CAR.corr_speed : Field :=
  { sec := 0x50, recs := 4, off := 0x28, width := 8, signed := true,
    lo := 1, hi := 140737488355327, dep := true, cls := .live }
def CAR.dz_disc : Field :=
  { sec := 0x50, recs := 4, off := 0x30, width := 4, lo := 400000, hi := 400000000, dflt := 40000000, cls := .live }
def CAR.relevel_n : Field :=
  { sec := 0x50, recs := 4, off := 0x34, width := 2, lo := 1, hi := 65535, dflt := 32, cls := .live }
def CAR.overload_in : Field :=
  { sec := 0x50, recs := 4, off := 0x36, width := 1, lo := 0, hi := 64, cls := .restart }
def CAR.prof : Field :=
  { sec := 0x50, recs := 4, off := 0x37, width := 1, lo := 0, hi := 7, cls := .live }
def CAR.overload : Field :=
  { sec := 0x50, recs := 4, off := 0x38, width := 4, lo := 1, hi := 8388607, dflt := 8388607, cls := .live }
/-! ### LANDING section -/

def LANDING.zone_lo : Field :=
  { sec := 0x51, recs := 1024, off := 0x0, width := 8, signed := true,
    lo := -9223372036854775808, hi := 9223372036854775807, cls := .standstill }
def LANDING.zone_hi : Field :=
  { sec := 0x51, recs := 1024, off := 0x8, width := 8, signed := true,
    lo := -9223372036854775808, hi := 9223372036854775807, cls := .standstill }
def LANDING.trim : Field :=
  { sec := 0x51, recs := 1024, off := 0x10, width := 4, signed := true,
    lo := -2147483648, hi := 2147483647, cls := .standstill }
def LANDING.lc : Field :=
  { sec := 0x51, recs := 1024, off := 0x14, width := 4, signed := true,
    lo := -2147483648, hi := 2147483647, cls := .standstill }
def LANDING.sides : Field :=
  { sec := 0x51, recs := 1024, off := 0x18, width := 1, lo := 0, hi := 255, mask := 0x3, cls := .live }
/-! ### DOOR section -/

def DOOR.axis : Field :=
  { sec := 0x52, recs := 8, off := 0x0, width := 1, lo := 0, hi := 12, cls := .restart }
def DOOR.cars : Field :=
  { sec := 0x52, recs := 8, off := 0x1, width := 1, lo := 1, hi := 15, req := true, cls := .restart }
def DOOR.side : Field :=
  { sec := 0x52, recs := 8, off := 0x2, width := 1, lo := 1, hi := 2, dflt := 1, cls := .restart }
def DOOR.kind : Field :=
  { sec := 0x52, recs := 8, off := 0x3, width := 1, lo := 1, hi := 4, dflt := 1, cls := .restart }
def DOOR.curtain : Field :=
  { sec := 0x52, recs := 8, off := 0x4, width := 1, lo := 0, hi := 64, cls := .restart }
def DOOR.open_btn : Field :=
  { sec := 0x52, recs := 8, off := 0x5, width := 1, lo := 0, hi := 64, cls := .restart }
def DOOR.close_btn : Field :=
  { sec := 0x52, recs := 8, off := 0x6, width := 1, lo := 0, hi := 64, cls := .restart }
def DOOR.flags : Field :=
  { sec := 0x52, recs := 8, off := 0x7, width := 1, lo := 0, hi := 255, mask := 0x3, cls := .live }
def DOOR.open_pos : Field :=
  { sec := 0x52, recs := 8, off := 0x8, width := 8, signed := true,
    lo := -9223372036854775808, hi := 9223372036854775807, cls := .standstill }
def DOOR.closed_pos : Field :=
  { sec := 0x52, recs := 8, off := 0x10, width := 8, signed := true,
    lo := -9223372036854775808, hi := 9223372036854775807, cls := .standstill }
def DOOR.mass : Field :=
  { sec := 0x52, recs := 8, off := 0x18, width := 4,
    lo := 1, hi := 4294967295, dflt := 409600000, cls := .standstill }
def DOOR.kf : Field :=
  { sec := 0x52, recs := 8, off := 0x1C, width := 4, lo := 1, hi := 4294967295, dflt := 1048576, cls := .restart }
def DOOR.f_close : Field :=
  { sec := 0x52, recs := 8, off := 0x20, width := 4, lo := 1, hi := 8388607, dflt := 614400, cls := .live }
def DOOR.f_obst : Field :=
  { sec := 0x52, recs := 8, off := 0x24, width := 4, lo := 1, hi := 8388607, dflt := 409600, cls := .live }
def DOOR.e_max : Field :=
  { sec := 0x52, recs := 8, off := 0x28, width := 8,
    lo := 1, hi := 9223372036854775807, dflt := 687194767360000, cls := .live }
def DOOR.e_nudge : Field :=
  { sec := 0x52, recs := 8, off := 0x30, width := 8,
    lo := 1, hi := 9223372036854775807, dflt := 274877906944000, cls := .live }
def DOOR.friction : Field :=
  { sec := 0x52, recs := 8, off := 0x38, width := 4, lo := 0, hi := 8388607, cls := .live }
def DOOR.end_zone : Field :=
  { sec := 0x52, recs := 8, off := 0x3C, width := 4, lo := 1, hi := 4294967295, dflt := 335544320, cls := .live }
def DOOR.prof_open : Field :=
  { sec := 0x52, recs := 8, off := 0x40, width := 1, lo := 0, hi := 7, cls := .live }
def DOOR.prof_close : Field :=
  { sec := 0x52, recs := 8, off := 0x41, width := 1, lo := 0, hi := 7, cls := .live }
def DOOR.prof_nudge : Field :=
  { sec := 0x52, recs := 8, off := 0x42, width := 1, lo := 0, hi := 7, cls := .live }
def DOOR.obst_n : Field :=
  { sec := 0x52, recs := 8, off := 0x43, width := 1, lo := 1, hi := 255, dflt := 4, cls := .live }
def DOOR.hold : Field :=
  { sec := 0x52, recs := 8, off := 0x44, width := 4,
    lo := 40000000, hi := 4000000000, dflt := 1200000000, cls := .live }
def DOOR.hold_ext : Field :=
  { sec := 0x52, recs := 8, off := 0x48, width := 4,
    lo := 40000000, hi := 4000000000, dflt := 400000000, cls := .live }
def DOOR.nudge_time : Field :=
  { sec := 0x52, recs := 8, off := 0x50, width := 8,
    lo := 400000000, hi := 400000000000, dflt := 8000000000, cls := .live }
/-! ### SAFE section -/

def SAFE.xcmp_n : Field :=
  { sec := 0x60, off := 0x0, width := 1, lo := 1, hi := 4, dflt := 2, cls := .restart }
def SAFE.reset_si : Field :=
  { sec := 0x60, off := 0x1, width := 1, lo := 0, hi := 24, cls := .restart }
def SAFE.mp_edm : Field :=
  { sec := 0x60, off := 0x2, width := 1, lo := 0, hi := 24, cls := .restart }
def SAFE.mp_follow : Field :=
  { sec := 0x60, off := 0x4, width := 2, lo := 1, hi := 65535, dflt := 3200, cls := .restart }
/-! ### SAFE_IN section -/

def SAFE_IN.kind : Field :=
  { sec := 0x61, recs := 24, off := 0x0, width := 1, lo := 0, hi := 2, cls := .restart }
def SAFE_IN.open_n : Field :=
  { sec := 0x61, recs := 24, off := 0x1, width := 1, lo := 1, hi := 16, dflt := 1, cls := .restart }
def SAFE_IN.close_n : Field :=
  { sec := 0x61, recs := 24, off := 0x2, width := 1, lo := 1, hi := 255, dflt := 16, cls := .restart }
def SAFE_IN.flags : Field :=
  { sec := 0x61, recs := 24, off := 0x3, width := 1, lo := 0, hi := 255, mask := 0x1, cls := .restart }
def SAFE_IN.disc : Field :=
  { sec := 0x61, recs := 24, off := 0x4, width := 2, lo := 1, hi := 65535, dflt := 320, cls := .restart }
/-! ### SAFE_OUT section -/

def SAFE_OUT.role : Field :=
  { sec := 0x62, recs := 22, off := 0x0, width := 1, lo := 0, hi := 4, cls := .restart }
def SAFE_OUT.axis : Field :=
  { sec := 0x62, recs := 22, off := 0x1, width := 1, lo := 0, hi := 12, cls := .restart }
def SAFE_OUT.edm : Field :=
  { sec := 0x62, recs := 22, off := 0x2, width := 1, lo := 0, hi := 24, cls := .restart }
def SAFE_OUT.flags : Field :=
  { sec := 0x62, recs := 22, off := 0x3, width := 1, lo := 0, hi := 255, mask := 0x1, cls := .restart }
def SAFE_OUT.t_on : Field :=
  { sec := 0x62, recs := 22, off := 0x4, width := 2, lo := 1, hi := 65535, dflt := 3200, cls := .restart }
def SAFE_OUT.t_off : Field :=
  { sec := 0x62, recs := 22, off := 0x6, width := 2, lo := 1, hi := 65535, dflt := 3200, cls := .restart }
/-! ### SAFE_AXIS section -/

def SAFE_AXIS.mon_fb : Field :=
  { sec := 0x63, recs := 12, off := 0x0, width := 1, lo := 0, hi := 16, cls := .restart }
def SAFE_AXIS.sls_modes : Field :=
  { sec := 0x63, recs := 12, off := 0x1, width := 1, lo := 0, hi := 255, cls := .restart }
def SAFE_AXIS.v_window : Field :=
  { sec := 0x63, recs := 12, off := 0x2, width := 1, lo := 1, hi := 64, dflt := 4, cls := .restart }
def SAFE_AXIS.test_dir : Field :=
  { sec := 0x63, recs := 12, off := 0x3, width := 1, lo := 1, hi := 3, dflt := 3, cls := .restart }
def SAFE_AXIS.ss1_max : Field :=
  { sec := 0x63, recs := 12, off := 0x4, width := 4, lo := 1, hi := 4294967295, dflt := 32000, cls := .restart }
def SAFE_AXIS.sls_v : Field :=
  { sec := 0x63, recs := 12, off := 0x8, width := 8, signed := true,
    lo := 1, hi := 140737488355327, req := true, cls := .restart }
def SAFE_AXIS.ss1_decel : Field :=
  { sec := 0x63, recs := 12, off := 0x10, width := 8, signed := true,
    lo := 1, hi := 2147483647, dep := true, cls := .restart }
def SAFE_AXIS.sls_ramp : Field :=
  { sec := 0x63, recs := 12, off := 0x18, width := 4, lo := 1, hi := 4294967295, dflt := 16000, cls := .restart }
def SAFE_AXIS.test_current : Field :=
  { sec := 0x63, recs := 12, off := 0x1C, width := 4, lo := 1, hi := 8388607, dep := true, cls := .restart }
def SAFE_AXIS.test_dist : Field :=
  { sec := 0x63, recs := 12, off := 0x20, width := 4, lo := 1, hi := 4294967295, dflt := 16777216, cls := .restart }
def SAFE_AXIS.test_time : Field :=
  { sec := 0x63, recs := 12, off := 0x24, width := 4, lo := 1, hi := 4294967295, dflt := 16000, cls := .restart }
/-! ### SAFE_CAR section -/

def SAFE_CAR.zone_si : Field :=
  { sec := 0x64, recs := 4, off := 0x0, width := 1, lo := 0, hi := 24, cls := .restart }
def SAFE_CAR.flags : Field :=
  { sec := 0x64, recs := 4, off := 0x1, width := 1, lo := 0, hi := 255, mask := 0x1, cls := .restart }
def SAFE_CAR.overspeed_pct : Field :=
  { sec := 0x64, recs := 4, off := 0x2, width := 2, lo := 1000, hi := 1500, dflt := 1150, cls := .restart }
def SAFE_CAR.asc_pct : Field :=
  { sec := 0x64, recs := 4, off := 0x4, width := 2, lo := 1000, hi := 1500, dflt := 1150, cls := .restart }
def SAFE_CAR.locks : Field :=
  { sec := 0x64, recs := 4, off := 0x8, width := 4, lo := 1, hi := 16777215, req := true, cls := .restart }
def SAFE_CAR.ucm_dist : Field :=
  { sec := 0x64, recs := 4, off := 0xC, width := 4, lo := 1, hi := 4294967295, dflt := 335544320, cls := .restart }
def SAFE_CAR.v_rated : Field :=
  { sec := 0x64, recs := 4, off := 0x10, width := 8, signed := true,
    lo := 1, hi := 140737488355327, req := true, cls := .restart }
def SAFE_CAR.bypass_v : Field :=
  { sec := 0x64, recs := 4, off := 0x18, width := 8, signed := true,
    lo := 1, hi := 140737488355327, dep := true, cls := .restart }
/-! ### INTERLOCK section -/

def INTERLOCK.n_terms : Field :=
  { sec := 0x65, off := 0x0, width := 2, lo := 1, hi := 256, req := true, cls := .restart }
/-! ### DISPATCH section -/

def DISPATCH.group : Field :=
  { sec := 0x70, off := 0x0, width := 2, lo := 0, hi := 1023, cls := .restart }
def DISPATCH.mode : Field :=
  { sec := 0x70, off := 0x2, width := 1, lo := 1, hi := 3, dflt := 1, cls := .restart }
def DISPATCH.flags : Field :=
  { sec := 0x70, off := 0x3, width := 1, lo := 0, hi := 255, mask := 0xF, cls := .restart }
def DISPATCH.collector : Field :=
  { sec := 0x70, off := 0x4, width := 2, lo := 1, hi := 16383, req := true, cls := .restart }
def DISPATCH.collector_alt : Field :=
  { sec := 0x70, off := 0x6, width := 2, lo := 0, hi := 16383, cls := .restart }
def DISPATCH.lead : Field :=
  { sec := 0x70, off := 0x8, width := 2, lo := 100, hi := 65535, dflt := 10000, cls := .live }
def DISPATCH.slot_len : Field :=
  { sec := 0x70, off := 0xA, width := 2, lo := 10, hi := 65535, dflt := 250, cls := .live }
def DISPATCH.window : Field :=
  { sec := 0x70, off := 0xC, width := 4, lo := 1000, hi := 10000000, dflt := 100000, cls := .live }
def DISPATCH.ws_step : Field :=
  { sec := 0x70, off := 0x10, width := 4, lo := 10, hi := 1000000, dflt := 1000, cls := .live }
def DISPATCH.ws_rank : Field :=
  { sec := 0x70, off := 0x14, width := 1, lo := 0, hi := 63, cls := .restart }
def DISPATCH.ws_calls : Field :=
  { sec := 0x70, off := 0x15, width := 1, lo := 1, hi := 64, dflt := 32, cls := .restart }
def DISPATCH.members : Field :=
  { sec := 0x70, off := 0x16, width := 2, lo := 1, hi := 1024, req := true, cls := .restart }
def DISPATCH.accept_to : Field :=
  { sec := 0x70, off := 0x18, width := 4, lo := 1000, hi := 10000000, dflt := 50000, cls := .live }
def DISPATCH.reopen : Field :=
  { sec := 0x70, off := 0x1C, width := 4, lo := 10000, hi := 100000000, dflt := 1000000, cls := .live }
def DISPATCH.t_start : Field :=
  { sec := 0x70, off := 0x20, width := 4, lo := 1, hi := 600000, dflt := 1000, cls := .live }
def DISPATCH.t_door : Field :=
  { sec := 0x70, off := 0x24, width := 4, lo := 1, hi := 600000, dflt := 6000, cls := .live }
def DISPATCH.w_wait : Field :=
  { sec := 0x70, off := 0x28, width := 4, lo := 1, hi := 4294967295, dflt := 65536, cls := .live }
def DISPATCH.w_ride : Field :=
  { sec := 0x70, off := 0x2C, width := 4, lo := 1, hi := 4294967295, dflt := 32768, cls := .live }
def DISPATCH.w_delay : Field :=
  { sec := 0x70, off := 0x30, width := 4, lo := 1, hi := 4294967295, dflt := 32768, cls := .live }
def DISPATCH.w_energy : Field :=
  { sec := 0x70, off := 0x34, width := 4, lo := 1, hi := 4294967295, dflt := 66, cls := .live }
def DISPATCH.pen_reverse : Field :=
  { sec := 0x70, off := 0x38, width := 4, lo := 1, hi := 4294967295, dflt := 5000, cls := .live }
def DISPATCH.pen_full : Field :=
  { sec := 0x70, off := 0x3C, width := 4, lo := 1, hi := 4294967295, dflt := 20000, cls := .live }
def DISPATCH.balance : Field :=
  { sec := 0x70, off := 0x40, width := 4, signed := true, lo := -8388608, hi := 8388607, cls := .live }
def DISPATCH.k_pot : Field :=
  { sec := 0x70, off := 0x44, width := 4, signed := true, lo := -2147483648, hi := 2147483647, cls := .live }
def DISPATCH.k_run : Field :=
  { sec := 0x70, off := 0x48, width := 4, lo := 0, hi := 4294967295, cls := .live }
def DISPATCH.e_start : Field :=
  { sec := 0x70, off := 0x4C, width := 4, lo := 0, hi := 4294967295, cls := .live }
def DISPATCH.eta_pair : Field :=
  { sec := 0x70, off := 0x50, width := 2, lo := 0, hi := 65535, dflt := 52429, cls := .live }
def DISPATCH.eta_free : Field :=
  { sec := 0x70, off := 0x52, width := 2, lo := 0, hi := 65535, cls := .live }
def DISPATCH.y_add : Field :=
  { sec := 0x70, off := 0x54, width := 4, signed := true, lo := 0, hi := 8388607, cls := .live }
def DISPATCH.y_full : Field :=
  { sec := 0x70, off := 0x58, width := 4, signed := true, lo := 1, hi := 8388607, dflt := 8388607, cls := .live }
def DISPATCH.land_offset : Field :=
  { sec := 0x70, off := 0x5C, width := 1, n1 := 4, s1 := 1, lo := 0, hi := 254, cls := .restart }
def DISPATCH.queue : Field :=
  { sec := 0x70, off := 0x60, width := 1, lo := 1, hi := 32, dflt := 16, cls := .restart }
def DISPATCH.cars : Field :=
  { sec := 0x70, off := 0x61, width := 1, lo := 1, hi := 15, dflt := 1, cls := .restart }
/-! ### BUTTON section -/

def BUTTON.kind : Field :=
  { sec := 0x71, recs := 64, off := 0x0, width := 1, lo := 0, hi := 6, gap := some (3, 5), cls := .restart }
def BUTTON.car : Field :=
  { sec := 0x71, recs := 64, off := 0x1, width := 1, lo := 0, hi := 3, cls := .restart }
def BUTTON.landing : Field :=
  { sec := 0x71, recs := 64, off := 0x2, width := 1, lo := 0, hi := 255, cls := .restart }
def BUTTON.side : Field :=
  { sec := 0x71, recs := 64, off := 0x3, width := 1, lo := 0, hi := 255, mask := 0x3, cls := .restart }
/-! ### FABRIC section -/

def FABRIC.unit_id : Field :=
  { sec := 0x80, off := 0x0, width := 2, lo := 1, hi := 16383, req := true, cls := .restart }
def FABRIC.pair_id : Field :=
  { sec := 0x80, off := 0x2, width := 2, lo := 0, hi := 16383, cls := .restart }
def FABRIC.port_mode : Field :=
  { sec := 0x80, off := 0x4, width := 1, n1 := 2, s1 := 1, lo := 1, hi := 3, dflt := 1, cls := .restart }
def FABRIC.amplitude : Field :=
  { sec := 0x80, off := 0x6, width := 1, lo := 0, hi := 255, mask := 0x3, cls := .restart }
def FABRIC.hops : Field :=
  { sec := 0x80, off := 0x7, width := 1, lo := 1, hi := 64, dflt := 64, cls := .restart }
def FABRIC.gm_priority : Field :=
  { sec := 0x80, off := 0x8, width := 1, lo := 1, hi := 255, dflt := 255, cls := .restart }
def FABRIC.sync_log : Field :=
  { sec := 0x80, off := 0x9, width := 1, signed := true, lo := -5, hi := -1, dflt := -3, cls := .restart }
def FABRIC.sync_timeout : Field :=
  { sec := 0x80, off := 0xA, width := 1, lo := 2, hi := 16, dflt := 3, cls := .live }
def FABRIC.lock_n : Field :=
  { sec := 0x80, off := 0xB, width := 1, lo := 1, hi := 64, dflt := 8, cls := .live }
def FABRIC.lock_ns : Field :=
  { sec := 0x80, off := 0xC, width := 2, lo := 10, hi := 1000, dflt := 250, cls := .live }
def FABRIC.bulk_max : Field :=
  { sec := 0x80, off := 0xE, width := 2, lo := 64, hi := 1456, dflt := 512, cls := .restart }
def FABRIC.step_limit : Field :=
  { sec := 0x80, off := 0x10, width := 4, lo := 1000, hi := 1000000000, dflt := 1000000, cls := .live }
def FABRIC.status_period : Field :=
  { sec := 0x80, off := 0x14, width := 2, lo := 1, hi := 65535, dflt := 1600, cls := .live }
def FABRIC.event_dst : Field :=
  { sec := 0x80, off := 0x16, width := 2, lo := 0, hi := 65535, mask := 0xFFFF, gap := some (1, 16383), cls := .live }
def FABRIC.hello_period : Field :=
  { sec := 0x80, off := 0x18, width := 2, lo := 10, hi := 1000, dflt := 100, cls := .live }
def FABRIC.flags : Field :=
  { sec := 0x80, off := 0x1A, width := 1, lo := 0, hi := 255, mask := 0x1, cls := .restart }
def FABRIC.groups : Field :=
  { sec := 0x80, off := 0x1C, width := 2, n1 := 8, s1 := 2, lo := 0, hi := 1023, cls := .restart }
def FABRIC.status_dst : Field :=
  { sec := 0x80, off := 0x2C, width := 2, lo := 0, hi := 65535, mask := 0xFFFF, gap := some (1, 16383), cls := .live }
def FABRIC.peers : Field :=
  { sec := 0x80, off := 0x30, width := 2, n1 := 2, s1 := 32, n2 := 16, s2 := 2,
    lo := 0, hi := 16383, cls := .restart }
/-! ### XD section -/

def XD.unit : Field :=
  { sec := 0x80, rec0 := 1, recs := 12, off := 0x0, width := 2, lo := 0, hi := 16383, cls := .restart }
def XD.div : Field :=
  { sec := 0x80, rec0 := 1, recs := 12, off := 0x2, width := 1, lo := 1, hi := 64, dflt := 1, cls := .restart }
def XD.lag : Field :=
  { sec := 0x80, rec0 := 1, recs := 12, off := 0x3, width := 1, lo := 1, hi := 16, dflt := 2, cls := .restart }
def XD.miss_n : Field :=
  { sec := 0x80, rec0 := 1, recs := 12, off := 0x4, width := 1, lo := 1, hi := 255, dflt := 3, cls := .restart }
def XD.conn_out : Field :=
  { sec := 0x80, rec0 := 1, recs := 12, off := 0x5, width := 1, lo := 0, hi := 16, cls := .restart }
def XD.conn_in : Field :=
  { sec := 0x80, rec0 := 1, recs := 12, off := 0x6, width := 1, lo := 0, hi := 16, cls := .restart }
def XD.t_conf : Field :=
  { sec := 0x80, rec0 := 1, recs := 12, off := 0x8, width := 2, lo := 1, hi := 65535, dflt := 3200, cls := .restart }
/-! ### SAFECON section -/

def SAFECON.dir : Field :=
  { sec := 0x80, rec0 := 13, recs := 16, off := 0x0, width := 1, lo := 0, hi := 2, cls := .restart }
def SAFECON.nbits : Field :=
  { sec := 0x80, rec0 := 13, recs := 16, off := 0x1, width := 1, lo := 1, hi := 16, dflt := 1, cls := .restart }
def SAFECON.peer : Field :=
  { sec := 0x80, rec0 := 13, recs := 16, off := 0x2, width := 2, lo := 1, hi := 16383, req := true, cls := .restart }
def SAFECON.conn_id : Field :=
  { sec := 0x80, rec0 := 13, recs := 16, off := 0x4, width := 2, lo := 1, hi := 65535, req := true, cls := .restart }
def SAFECON.period : Field :=
  { sec := 0x80, rec0 := 13, recs := 16, off := 0x6, width := 1, lo := 1, hi := 255, dflt := 4, cls := .restart }
def SAFECON.watchdog : Field :=
  { sec := 0x80, rec0 := 13, recs := 16, off := 0x8, width := 2, lo := 2, hi := 65535, dflt := 16, cls := .restart }
def SAFECON.max_age : Field :=
  { sec := 0x80, rec0 := 13, recs := 16, off := 0xA, width := 2,
    lo := 100, hi := 65535, dflt := 2000, cls := .restart }
def SAFECON.seed : Field :=
  { sec := 0x80, rec0 := 13, recs := 16, off := 0xC, width := 4,
    lo := 1, hi := 4294967295, req := true, cls := .restart }
def SAFECON.tgt : Field :=
  { sec := 0x80, rec0 := 13, recs := 16, off := 0x10, width := 1, n1 := 16, s1 := 1,
    lo := 0, hi := 255, cls := .restart }
/-! ### TWIN section -/

def TWIN.partner : Field :=
  { sec := 0x81, off := 0x0, width := 2, lo := 0, hi := 16383, cls := .restart }
def TWIN.witness : Field :=
  { sec := 0x81, off := 0x2, width := 2, lo := 1, hi := 16383, req := true, cls := .restart }
def TWIN.lease : Field :=
  { sec := 0x81, off := 0x4, width := 2, lo := 20, hi := 100, dflt := 50, cls := .restart }
def TWIN.renew : Field :=
  { sec := 0x81, off := 0x6, width := 2, lo := 5, hi := 50, dflt := 10, cls := .restart }
def TWIN.grace : Field :=
  { sec := 0x81, off := 0x8, width := 2, lo := 1, hi := 50, dflt := 20, cls := .restart }
def TWIN.hb_miss : Field :=
  { sec := 0x81, off := 0xA, width := 1, lo := 2, hi := 16, dflt := 3, cls := .restart }
def TWIN.flags : Field :=
  { sec := 0x81, off := 0xB, width := 1, lo := 0, hi := 255, mask := 0x1, cls := .restart }
def TWIN.div_n : Field :=
  { sec := 0x81, off := 0xC, width := 1, lo := 1, hi := 64, dflt := 8, cls := .restart }
def TWIN.fresh_max : Field :=
  { sec := 0x81, off := 0xD, width := 1, lo := 1, hi := 64, dflt := 4, cls := .restart }
def TWIN.rebase : Field :=
  { sec := 0x81, off := 0xE, width := 2, lo := 16, hi := 1024, dflt := 64, cls := .restart }
def TWIN.sel_si : Field :=
  { sec := 0x81, off := 0x10, width := 1, lo := 0, hi := 24, cls := .restart }
def TWIN.sel_time : Field :=
  { sec := 0x81, off := 0x11, width := 1, lo := 1, hi := 50, dflt := 10, cls := .restart }
def TWIN.serves : Field :=
  { sec := 0x81, off := 0x14, width := 2, n1 := 8, s1 := 2, lo := 0, hi := 16383, cls := .restart }
/-! ### PURSE section -/

def PURSE.class_req : Field :=
  { sec := 0x90, off := 0x0, width := 1, lo := 14, hi := 15, dflt := 15, cls := .restart }
def PURSE.flags : Field :=
  { sec := 0x90, off := 0x1, width := 1, lo := 0, hi := 255, mask := 0x3, cls := .restart }
def PURSE.margin : Field :=
  { sec := 0x90, off := 0x2, width := 1, lo := 100, hi := 200, dflt := 110, cls := .restart }
def PURSE.loss_n : Field :=
  { sec := 0x90, off := 0x3, width := 1, lo := 1, hi := 64, dflt := 16, cls := .live }
def PURSE.b0 : Field :=
  { sec := 0x90, off := 0x4, width := 2, lo := 1, hi := 20000, dflt := 8800, cls := .restart }
def PURSE.b1 : Field :=
  { sec := 0x90, off := 0x6, width := 2, lo := 1, hi := 20000, dflt := 700, cls := .restart }
def PURSE.b_chg : Field :=
  { sec := 0x90, off := 0x8, width := 2, lo := 100, hi := 2000, dflt := 1000, cls := .restart }
def PURSE.b_sprint : Field :=
  { sec := 0x90, off := 0xA, width := 2, lo := 1, hi := 10000, dflt := 4000, cls := .restart }
def PURSE.sensor_base : Field :=
  { sec := 0x90, off := 0xC, width := 2, lo := 1, hi := 12000, dflt := 2000, cls := .restart }
def PURSE.sensor_max : Field :=
  { sec := 0x90, off := 0xE, width := 2, lo := 1, hi := 12000, dflt := 12000, cls := .live }
def PURSE.e_page : Field :=
  { sec := 0x90, off := 0x10, width := 4, lo := 1, hi := 100000, dflt := 1200, cls := .restart }
def PURSE.e_stop : Field :=
  { sec := 0x90, off := 0x14, width := 4, lo := 1, hi := 5000000, dflt := 500000, cls := .restart }
def PURSE.v_floor : Field :=
  { sec := 0x90, off := 0x18, width := 2, lo := 12000, hi := 40000, dflt := 18000, cls := .restart }
def PURSE.v_full : Field :=
  { sec := 0x90, off := 0x1A, width := 2, lo := 24000, hi := 48000, dflt := 48000, cls := .restart }
def PURSE.c_nom : Field :=
  { sec := 0x90, off := 0x1C, width := 2, lo := 2200, hi := 10000, dflt := 2200, cls := .restart }
def PURSE.sprint_occ : Field :=
  { sec := 0x90, off := 0x1E, width := 2, lo := 1, hi := 256, dflt := 16, cls := .live }
def PURSE.sprint_hold : Field :=
  { sec := 0x90, off := 0x20, width := 2, lo := 1, hi := 65535, dflt := 1600, cls := .live }
def PURSE.theta : Field :=
  { sec := 0x90, off := 0x22, width := 2, lo := 100, hi := 20000, dflt := 3000, cls := .live }
def PURSE.tau : Field :=
  { sec := 0x90, off := 0x24, width := 4, lo := 1000, hi := 600000, dflt := 20000, cls := .live }
def PURSE.slice : Field :=
  { sec := 0x90, off := 0x28, width := 2, lo := 50, hi := 2000, dflt := 250, cls := .restart }
def PURSE.cool : Field :=
  { sec := 0x90, off := 0x2A, width := 2, lo := 100, hi := 60000, dflt := 1000, cls := .live }
/-! ### BUS section -/

def BUS.ain : Field :=
  { sec := 0x91, recs := 4, off := 0x0, width := 1, lo := 0, hi := 4, cls := .restart }
def BUS.flags : Field :=
  { sec := 0x91, recs := 4, off := 0x1, width := 1, lo := 0, hi := 255, mask := 0x7, cls := .restart }
def BUS.axes : Field :=
  { sec := 0x91, recs := 4, off := 0x2, width := 2, lo := 1, hi := 4095, req := true, cls := .restart }
def BUS.c_bus : Field :=
  { sec := 0x91, recs := 4, off := 0x4, width := 4, lo := 1, hi := 4294967295, req := true, cls := .restart }
def BUS.v_lo : Field :=
  { sec := 0x91, recs := 4, off := 0x8, width := 2, lo := 1, hi := 65535, req := true, cls := .restart }
def BUS.v_hi : Field :=
  { sec := 0x91, recs := 4, off := 0xA, width := 2, lo := 1, hi := 65535, req := true, cls := .restart }
def BUS.low_n : Field :=
  { sec := 0x91, recs := 4, off := 0xC, width := 2, lo := 1, hi := 65535, dflt := 16, cls := .live }
def BUS.group : Field :=
  { sec := 0x91, recs := 4, off := 0xE, width := 2, lo := 0, hi := 1023, cls := .restart }
def BUS.share_id : Field :=
  { sec := 0x91, recs := 4, off := 0x10, width := 2, lo := 0, hi := 65535, cls := .restart }
def BUS.align_max : Field :=
  { sec := 0x91, recs := 4, off := 0x12, width := 2, lo := 0, hi := 10000, dflt := 500, cls := .live }
/-! ### LEDGER section -/

def LEDGER.nevt_mode : Field :=
  { sec := 0xA0, off := 0x0, width := 1, lo := 1, hi := 2, dflt := 1, cls := .live }
def LEDGER.flush_margin : Field :=
  { sec := 0xA0, off := 0x2, width := 2, lo := 4, hi := 1024, dflt := 256, cls := .live }
def LEDGER.max_age : Field :=
  { sec := 0xA0, off := 0x4, width := 4, lo := 1, hi := 86400, dflt := 3600, cls := .live }
def LEDGER.nevt_width : Field :=
  { sec := 0xA0, off := 0x8, width := 4, lo := 4000, hi := 400000000, dflt := 400000, cls := .live }
def LEDGER.severity : Field :=
  { sec := 0xA0, off := 0x10, width := 1, n1 := 256, s1 := 2, lo := 0, hi := 4, dep := true, cls := .live }
def LEDGER.route : Field :=
  { sec := 0xA0, off := 0x11, width := 1, n1 := 256, s1 := 2, lo := 0, hi := 255, mask := 0x87, cls := .live }
/-! ### STEWARD section -/

def STEWARD.hold_days : Field :=
  { sec := 0xA1, off := 0x0, width := 2, lo := 1, hi := 365, dflt := 30, cls := .live }
def STEWARD.flags : Field :=
  { sec := 0xA1, off := 0x2, width := 1, lo := 0, hi := 255, mask := 0x3, cls := .live }
def STEWARD.attest_gap : Field :=
  { sec := 0xA1, off := 0x4, width := 2, lo := 1, hi := 3600, dflt := 10, cls := .live }
def STEWARD.selftest_h : Field :=
  { sec := 0xA1, off := 0x6, width := 2, lo := 1, hi := 168, dflt := 24, cls := .live }
/-! ### MODES section -/

def MODES.flags : Field :=
  { sec := 0x2, off := 0x0, width := 1, lo := 0, hi := 255, mask := 0xF, cls := .restart }
def MODES.insp_si : Field :=
  { sec := 0x2, off := 0x1, width := 1, lo := 0, hi := 24, cls := .restart }
def MODES.rescue_in : Field :=
  { sec := 0x2, off := 0x2, width := 1, lo := 0, hi := 64, cls := .restart }
def MODES.insp_enable : Field :=
  { sec := 0x2, off := 0x3, width := 1, lo := 0, hi := 64, cls := .restart }
def MODES.insp_up : Field :=
  { sec := 0x2, off := 0x4, width := 1, n1 := 4, s1 := 2, lo := 0, hi := 64, cls := .restart }
def MODES.insp_down : Field :=
  { sec := 0x2, off := 0x5, width := 1, n1 := 4, s1 := 2, lo := 0, hi := 64, cls := .restart }
def MODES.lodge_idle : Field :=
  { sec := 0x2, off := 0xC, width := 2, lo := 0, hi := 65535, cls := .restart }
def MODES.lodge_wake : Field :=
  { sec := 0x2, off := 0x10, width := 4, lo := 0, hi := 4294967295, cls := .restart }
def MODES.rescue_hold : Field :=
  { sec := 0x2, off := 0x14, width := 4, lo := 400000000, hi := 4000000000, dflt := 4000000000, cls := .restart }
def MODES.wake_mask : Field :=
  { sec := 0x2, off := 0x18, width := 8, lo := 0, hi := 18446744073709551615, cls := .restart }
def MODES.insp_v : Field :=
  { sec := 0x2, off := 0x20, width := 8, signed := true, n1 := 4, s1 := 8,
    lo := 1, hi := 140737488355327, dep := true, cls := .restart }
def MODES.rescue_v : Field :=
  { sec := 0x2, off := 0x40, width := 8, signed := true, n1 := 4, s1 := 8,
    lo := 1, hi := 140737488355327, dep := true, cls := .restart }
/-! ### RECALL section -/

def RECALL.trigger : Field :=
  { sec := 0x2, off := 0x60, width := 1, lo := 0, hi := 64, cls := .restart }
def RECALL.input : Field :=
  { sec := 0x2, off := 0x68, width := 1, n1 := 4, s1 := 8, lo := 0, hi := 64, cls := .restart }
def RECALL.flags : Field :=
  { sec := 0x2, off := 0x69, width := 1, n1 := 4, s1 := 8, lo := 0, hi := 255, mask := 0xF, cls := .restart }
def RECALL.landing : Field :=
  { sec := 0x2, off := 0x6A, width := 1, n1 := 4, s1 := 8, n2 := 4, s2 := 1, lo := 0, hi := 255, cls := .restart }
/-! ### SERVICE section -/

def SERVICE.enable : Field :=
  { sec := 0xB0, off := 0x0, width := 1, lo := 1, hi := 3, dflt := 1, cls := .restart }
def SERVICE.flags : Field :=
  { sec := 0xB0, off := 0x1, width := 1, lo := 0, hi := 255, mask := 0x1, cls := .restart }

/-- The fields of the STAGE tables. -/
def fieldsOfSTAGE : List Field :=
  [STAGE.period, STAGE.align, STAGE.overrun_consec, STAGE.overrun_window]
/-- The fields of the ANALOG tables. -/
def fieldsOfANALOG : List Field :=
  [ANALOG.role, ANALOG.full_scale, ANALOG.offset, ANALOG.gain, ANALOG.tc, ANALOG.tare]
/-- The fields of the DIN tables. -/
def fieldsOfDIN : List Field :=
  [DIN.role, DIN.axis, DIN.polarity, DIN.chatter_n, DIN.stable, DIN.chatter_win]
/-- The fields of the EMU tables. -/
def fieldsOfEMU : List Field :=
  [EMU.source, EMU.index, EMU.flags, EMU.lines, EMU.num, EMU.den,
   EMU.min_space, EMU.backlog_max]
/-- The fields of the FB tables. -/
def fieldsOfFB : List Field :=
  [FB.kind, FB.dir, FB.flags, FB.interp_log2, FB.cpr, FB.num,
   FB.den, FB.min_edge, FB.edge_err_limit, FB.index_tol, FB.index_period, FB.speed_window,
   FB.stop_time, FB.amp_nom, FB.amp_lo, FB.amp_hi, FB.amp_samples, FB.ssi_bits,
   FB.ssi_div, FB.ssi_monoflop, FB.ssi_status, FB.ssi_latch, FB.ssi_max_step, FB.sc_off_s,
   FB.sc_off_c, FB.sc_gain_s, FB.sc_gain_c, FB.sc_k1, FB.sc_k2]
/-- The fields of the CURRENT tables. -/
def fieldsOfCURRENT : List Field :=
  [CURRENT.form, CURRENT.osr_log2, CURRENT.ofs_shift, CURRENT.fs, CURRENT.fixed_ofs, CURRENT.mod_rate,
   CURRENT.mod_delay, CURRENT.ofs_limit, CURRENT.oc_fast, CURRENT.oc_slow, CURRENT.kind, CURRENT.hb_base,
   CURRENT.ph_base, CURRENT.flags, CURRENT.dead, CURRENT.min_pulse, CURRENT.gate_delay, CURRENT.sw_target,
   CURRENT.band_init, CURRENT.band_min, CURRENT.band_max, CURRENT.band_gain, CURRENT.centre_shift, CURRENT.vlim_stages,
   CURRENT.g_init, CURRENT.g_shift, CURRENT.oc_n, CURRENT.sum_n, CURRENT.i_max, CURRENT.sum_limit,
   CURRENT.zero_settle, CURRENT.drv_filter]
/-- The fields of the AXIS tables. -/
def fieldsOfAXIS : List Field :=
  [AXIS.unit, AXIS.fb_motor, AXIS.fb_load, AXIS.flags, AXIS.pole_pairs, AXIS.ferr_n,
   AXIS.standstill_n, AXIS.modulo, AXIS.comm_offset, AXIS.om_num, AXIS.om_den, AXIS.th_num,
   AXIS.th_den, AXIS.kp, AXIS.kv, AXIS.ki, AXIS.kaff, AXIS.i_lim,
   AXIS.i_int, AXIS.i_hold, AXIS.id_ref, AXIS.standstill_v, AXIS.ferr_max, AXIS.v_limit,
   AXIS.d_quick, AXIS.soft_min, AXIS.soft_max, AXIS.dwell, AXIS.blend, AXIS.hand_dp,
   AXIS.hand_dv, AXIS.hand_di, AXIS.prof_first, AXIS.prof_count, AXIS.follow_src, AXIS.follow_index,
   AXIS.follow_num, AXIS.follow_den, AXIS.follow_dead]
/-- The fields of the PROFILE tables. -/
def fieldsOfPROFILE : List Field :=
  [PROFILE.v_start, PROFILE.v1, PROFILE.v_max, PROFILE.v_stop, PROFILE.a1, PROFILE.a2,
   PROFILE.d2, PROFILE.d1, PROFILE.j]
/-- The fields of the PATH tables. -/
def fieldsOfPATH : List Field :=
  [PATH.members, PATH.feed_mask, PATH.shift, PATH.profile, PATH.queue, PATH.arc_tol]
/-- The fields of the GEAR tables. -/
def fieldsOfGEAR : List Field :=
  [GEAR.slave, GEAR.src, GEAR.src_index, GEAR.flags, GEAR.num, GEAR.den,
   GEAR.engage_len, GEAR.disengage_len, GEAR.engage_pos, GEAR.disengage_pos]
/-- The fields of the CAPTURE tables. -/
def fieldsOfCAPTURE : List Field :=
  [CAPTURE.mode, CAPTURE.edge, CAPTURE.min_width, CAPTURE.holdoff]
/-- The fields of the COMPARE tables. -/
def fieldsOfCOMPARE : List Field :=
  [COMPARE.source, COMPARE.index, COMPARE.flags, COMPARE.first, COMPARE.count, COMPARE.width,
   COMPARE.gap, COMPARE.period, COMPARE.pos]
/-- The fields of the HOMING tables. -/
def fieldsOfHOMING : List Field :=
  [HOMING.method, HOMING.dir, HOMING.input, HOMING.flags, HOMING.hs_time, HOMING.v_search,
   HOMING.v_creep, HOMING.home_pos, HOMING.final, HOMING.max_dist, HOMING.backoff, HOMING.hs_current,
   HOMING.hs_lead]
/-- The fields of the SURVEY tables. -/
def fieldsOfSURVEY : List Field :=
  [SURVEY.align_current, SURVEY.align_settle, SURVEY.comm_tol, SURVEY.sc_periods, SURVEY.door_runs, SURVEY.learn_speed,
   SURVEY.zone_tol, SURVEY.level_settle]
/-- The fields of the CAR tables. -/
def fieldsOfCAR : List Field :=
  [CAR.axis, CAR.shaft_fb, CAR.dz_in0, CAR.dz_in1, CAR.count, CAR.load_in,
   CAR.flags, CAR.win_ms, CAR.win_marker, CAR.level_tol, CAR.relevel_start, CAR.relevel_speed,
   CAR.corr_speed, CAR.dz_disc, CAR.relevel_n, CAR.overload_in, CAR.prof, CAR.overload]
/-- The fields of the LANDING tables. -/
def fieldsOfLANDING : List Field :=
  [LANDING.zone_lo, LANDING.zone_hi, LANDING.trim, LANDING.lc, LANDING.sides]
/-- The fields of the DOOR tables. -/
def fieldsOfDOOR : List Field :=
  [DOOR.axis, DOOR.cars, DOOR.side, DOOR.kind, DOOR.curtain, DOOR.open_btn,
   DOOR.close_btn, DOOR.flags, DOOR.open_pos, DOOR.closed_pos, DOOR.mass, DOOR.kf,
   DOOR.f_close, DOOR.f_obst, DOOR.e_max, DOOR.e_nudge, DOOR.friction, DOOR.end_zone,
   DOOR.prof_open, DOOR.prof_close, DOOR.prof_nudge, DOOR.obst_n, DOOR.hold, DOOR.hold_ext,
   DOOR.nudge_time]
/-- The fields of the SAFE tables. -/
def fieldsOfSAFE : List Field :=
  [SAFE.xcmp_n, SAFE.reset_si, SAFE.mp_edm, SAFE.mp_follow]
/-- The fields of the SAFE_IN tables. -/
def fieldsOfSAFEIN : List Field :=
  [SAFE_IN.kind, SAFE_IN.open_n, SAFE_IN.close_n, SAFE_IN.flags, SAFE_IN.disc]
/-- The fields of the SAFE_OUT tables. -/
def fieldsOfSAFEOUT : List Field :=
  [SAFE_OUT.role, SAFE_OUT.axis, SAFE_OUT.edm, SAFE_OUT.flags, SAFE_OUT.t_on, SAFE_OUT.t_off]
/-- The fields of the SAFE_AXIS tables. -/
def fieldsOfSAFEAXIS : List Field :=
  [SAFE_AXIS.mon_fb, SAFE_AXIS.sls_modes, SAFE_AXIS.v_window, SAFE_AXIS.test_dir, SAFE_AXIS.ss1_max, SAFE_AXIS.sls_v,
   SAFE_AXIS.ss1_decel, SAFE_AXIS.sls_ramp, SAFE_AXIS.test_current, SAFE_AXIS.test_dist, SAFE_AXIS.test_time]
/-- The fields of the SAFE_CAR tables. -/
def fieldsOfSAFECAR : List Field :=
  [SAFE_CAR.zone_si, SAFE_CAR.flags, SAFE_CAR.overspeed_pct, SAFE_CAR.asc_pct, SAFE_CAR.locks, SAFE_CAR.ucm_dist,
   SAFE_CAR.v_rated, SAFE_CAR.bypass_v]
/-- The fields of the INTERLOCK tables. -/
def fieldsOfINTERLOCK : List Field :=
  [INTERLOCK.n_terms]
/-- The fields of the DISPATCH tables. -/
def fieldsOfDISPATCH : List Field :=
  [DISPATCH.group, DISPATCH.mode, DISPATCH.flags, DISPATCH.collector, DISPATCH.collector_alt, DISPATCH.lead,
   DISPATCH.slot_len, DISPATCH.window, DISPATCH.ws_step, DISPATCH.ws_rank, DISPATCH.ws_calls, DISPATCH.members,
   DISPATCH.accept_to, DISPATCH.reopen, DISPATCH.t_start, DISPATCH.t_door, DISPATCH.w_wait, DISPATCH.w_ride,
   DISPATCH.w_delay, DISPATCH.w_energy, DISPATCH.pen_reverse, DISPATCH.pen_full, DISPATCH.balance, DISPATCH.k_pot,
   DISPATCH.k_run, DISPATCH.e_start, DISPATCH.eta_pair, DISPATCH.eta_free, DISPATCH.y_add, DISPATCH.y_full,
   DISPATCH.land_offset, DISPATCH.queue, DISPATCH.cars]
/-- The fields of the BUTTON tables. -/
def fieldsOfBUTTON : List Field :=
  [BUTTON.kind, BUTTON.car, BUTTON.landing, BUTTON.side]
/-- The fields of the FABRIC tables. -/
def fieldsOfFABRIC : List Field :=
  [FABRIC.unit_id, FABRIC.pair_id, FABRIC.port_mode, FABRIC.amplitude, FABRIC.hops, FABRIC.gm_priority,
   FABRIC.sync_log, FABRIC.sync_timeout, FABRIC.lock_n, FABRIC.lock_ns, FABRIC.bulk_max, FABRIC.step_limit,
   FABRIC.status_period, FABRIC.event_dst, FABRIC.hello_period, FABRIC.flags, FABRIC.groups, FABRIC.status_dst,
   FABRIC.peers]
/-- The fields of the XD tables. -/
def fieldsOfXD : List Field :=
  [XD.unit, XD.div, XD.lag, XD.miss_n, XD.conn_out, XD.conn_in,
   XD.t_conf]
/-- The fields of the SAFECON tables. -/
def fieldsOfSAFECON : List Field :=
  [SAFECON.dir, SAFECON.nbits, SAFECON.peer, SAFECON.conn_id, SAFECON.period, SAFECON.watchdog,
   SAFECON.max_age, SAFECON.seed, SAFECON.tgt]
/-- The fields of the TWIN tables. -/
def fieldsOfTWIN : List Field :=
  [TWIN.partner, TWIN.witness, TWIN.lease, TWIN.renew, TWIN.grace, TWIN.hb_miss,
   TWIN.flags, TWIN.div_n, TWIN.fresh_max, TWIN.rebase, TWIN.sel_si, TWIN.sel_time,
   TWIN.serves]
/-- The fields of the PURSE tables. -/
def fieldsOfPURSE : List Field :=
  [PURSE.class_req, PURSE.flags, PURSE.margin, PURSE.loss_n, PURSE.b0, PURSE.b1,
   PURSE.b_chg, PURSE.b_sprint, PURSE.sensor_base, PURSE.sensor_max, PURSE.e_page, PURSE.e_stop,
   PURSE.v_floor, PURSE.v_full, PURSE.c_nom, PURSE.sprint_occ, PURSE.sprint_hold, PURSE.theta,
   PURSE.tau, PURSE.slice, PURSE.cool]
/-- The fields of the BUS tables. -/
def fieldsOfBUS : List Field :=
  [BUS.ain, BUS.flags, BUS.axes, BUS.c_bus, BUS.v_lo, BUS.v_hi,
   BUS.low_n, BUS.group, BUS.share_id, BUS.align_max]
/-- The fields of the LEDGER tables. -/
def fieldsOfLEDGER : List Field :=
  [LEDGER.nevt_mode, LEDGER.flush_margin, LEDGER.max_age, LEDGER.nevt_width, LEDGER.severity, LEDGER.route]
/-- The fields of the STEWARD tables. -/
def fieldsOfSTEWARD : List Field :=
  [STEWARD.hold_days, STEWARD.flags, STEWARD.attest_gap, STEWARD.selftest_h]
/-- The fields of the MODES tables. -/
def fieldsOfMODES : List Field :=
  [ MODES.flags, MODES.insp_si, MODES.rescue_in, MODES.insp_enable, MODES.insp_up, MODES.insp_down,
   MODES.lodge_idle, MODES.lodge_wake, MODES.rescue_hold, MODES.wake_mask, MODES.insp_v, MODES.rescue_v]
/-- The fields of the RECALL tables. -/
def fieldsOfRECALL : List Field :=
  [RECALL.trigger, RECALL.input, RECALL.flags, RECALL.landing]
/-- The fields of the SERVICE tables. -/
def fieldsOfSERVICE : List Field :=
  [SERVICE.enable, SERVICE.flags]

/-- Every field of every section table. -/
def allFields : List Field :=
  fieldsOfSTAGE ++ fieldsOfANALOG ++ fieldsOfDIN ++ fieldsOfEMU ++ fieldsOfFB ++
  fieldsOfCURRENT ++ fieldsOfAXIS ++ fieldsOfPROFILE ++ fieldsOfPATH ++ fieldsOfGEAR ++
  fieldsOfCAPTURE ++ fieldsOfCOMPARE ++ fieldsOfHOMING ++ fieldsOfSURVEY ++ fieldsOfCAR ++
  fieldsOfLANDING ++ fieldsOfDOOR ++ fieldsOfSAFE ++ fieldsOfSAFEIN ++ fieldsOfSAFEOUT ++
  fieldsOfSAFEAXIS ++ fieldsOfSAFECAR ++ fieldsOfINTERLOCK ++ fieldsOfDISPATCH ++ fieldsOfBUTTON ++
  fieldsOfFABRIC ++ fieldsOfXD ++ fieldsOfSAFECON ++ fieldsOfTWIN ++ fieldsOfPURSE ++
  fieldsOfBUS ++ fieldsOfLEDGER ++ fieldsOfSTEWARD ++ fieldsOfMODES ++ fieldsOfRECALL ++
  fieldsOfSERVICE

/-! ### The store -/

/-- The encoded value held for an address; an address with no cell reads 0 (R654). -/
def cellGet (c : List Cell) (sec idx off : Nat) : Int :=
  match c.find? (fun x => x.sec == sec && x.idx == idx && x.off == off) with
  | some x => x.val
  | none => 0

/-- Cells in the canonical order: by section, record, offset. -/
def cellLt (a b : Cell) : Bool :=
  a.sec < b.sec || (a.sec == b.sec && (a.idx < b.idx || (a.idx == b.idx && a.off < b.off)))

/-- Writes one encoded value and keeps the canonical form: addresses rise, and no cell holds 0. -/
def cellSet (c : List Cell) (x : Cell) : List Cell :=
  c.filter (fun y => cellLt y x) ++ (if x.val = 0 then [] else [x]) ++ c.filter (fun y => cellLt x y)

/-- Cells written over an image. -/
def applyCells (cfg l : List Cell) : List Cell := l.foldl cellSet cfg

/-- The canonical form of the store. -/
abbrev cellsWf (c : List Cell) : Prop :=
  c.Pairwise (fun a b => cellLt a b = true) ∧ ∀ x ∈ c, x.val ≠ 0

/-- The address of field `f` of record `i` (counted from its table's first record), repeated entry `k`, `l`. Log entry 17. -/
def Field.cellOff (f : Field) (k l : Nat) : Nat := f.off + f.s1 * k + f.s2 * l

/-- The encoded value of a field. Log entry 19. -/
def rawOf (c : List Cell) (f : Field) (i : Nat := 0) (k : Nat := 0) (l : Nat := 0) : Int :=
  cellGet c f.sec (f.rec0 + i) (f.cellOff k l)

/-- R18: an encoded 0 selects the field's own (constant) default. Log entry 19. -/
def valOf (c : List Cell) (f : Field) (i : Nat := 0) (k : Nat := 0) (l : Nat := 0) : Int :=
  if rawOf c f i k l = 0 then f.dflt else rawOf c f i k l

/-- The field and record that an address of "Addressing fields" names, with the repeated entry. -/
def Field.covers (f : Field) (sec idx off : Nat) : Bool :=
  f.sec == sec && f.rec0 ≤ idx && idx < f.rec0 + f.recs &&
  (List.range f.n1).any (fun k => (List.range f.n2).any (fun l => f.cellOff k l == off))

def fieldAt (sec idx off : Nat) : Option Field :=
  allFields.find? (fun f => f.covers sec idx off)

/-- R14, R661: the encoded value is one that the field's table lists. Log entry 183. -/
def Field.admits (f : Field) (v : Int) : Bool :=
  if v = 0 then !f.req
  else f.lo ≤ v && v ≤ f.hi && (f.mask == 0 || (v.toNat &&& f.mask) == v.toNat) &&
    (match f.gap with | some g => !(g.1 ≤ v && v ≤ g.2) | none => true) &&
    (match f.low3 with | some m => v.toNat % 8 ≤ m | none => true)

end Sys2Proof.Machine
end

