-- ==== Sys2Proof/Machine/Ops.lean ====
section
/-! DEFINITION. The named operations every family uses: the clock, the waybill in effect, free values, the two clocks of a
record, Halt causes, and the one path by which every event is raised (R28, R29, R573 to R576, R586 to R602). -/

namespace Sys2Proof.Machine

abbrev Answer := Host.Outcome State Fault Refusal

/-- A happening at edge-clock instant `t` moves the clock there; the clock never goes back (R106). Log entry 5. -/
def State.tick (t : Nat) (s : State) : State := { s with now := max s.now t }

/-- The command that changes nothing but the clock: its happening has not come, or it names nothing (log entry 4). -/
def State.only (t : Nat) (s : State) : Answer := .next (s.tick t)

/-- The instant is that of a Stage boundary. -/
def State.atBoundary (s : State) : Bool := s.now == s.stage.openedAt

/-- Stage boundaries that have passed since the one that opened the Stage of epoch `e`: numbers passed over by a renumbering
are no Stages (R59, R60). -/
def State.stagesSince (s : State) (e : Nat) : Nat :=
  s.stage.epoch - e - ((s.stage.jumps.filter (fun j => e < j.1)).map (·.2)).sum

/-! ### The waybill in effect -/

/-- The encoded value of a field. -/
def State.raw (s : State) (f : Field) (i : Nat := 0) (k : Nat := 0) (l : Nat := 0) : Int := rawOf s.cfg f i k l

/-- The value of a field after its constant default (R18). -/
def State.int (s : State) (f : Field) (i : Nat := 0) (k : Nat := 0) (l : Nat := 0) : Int := valOf s.cfg f i k l

def State.nat (s : State) (f : Field) (i : Nat := 0) (k : Nat := 0) (l : Nat := 0) : Nat := (s.int f i k l).toNat

/-- Bit `b` of a flags field. -/
def State.flag (s : State) (f : Field) (b : Nat) (i : Nat := 0) (k : Nat := 0) : Bool := bit (s.nat f i k) b

/-- STAGE.period, N of chapter 02. -/
def State.period (s : State) : Nat := s.nat STAGE.period

/-- S of R57. -/
def State.slew (s : State) : Nat := s.period / 2000

/-- Edge-clock cycles as whole Stages, rounded up (R264, R276). -/
def State.stagesOf (s : State) (cycles : Nat) : Nat := ceilDiv cycles s.period

/-! ### Free values -/

/-- Draws a fresh free value (log entry 2). -/
def State.free (s : State) : Word × State := (Config.freeValue s.freeIx, { s with freeIx := s.freeIx + 1 })

/-! ### The clocks of a record -/

/-- The life clock in 1/64 ns, interpolated since the last tick without passing the next tick (R583; log entry 11). -/
def State.life64 (s : State) : Nat :=
  s.led.life64 + (if s.clk.rtcFault then (s.now - s.led.tickAt) * 160 else min ((s.now - s.led.tickAt) * 160) 1953124)

/-- The life clock in ns. Log entry 11. -/
def State.life (s : State) : Nat := s.life64 / 64

/-- Site time in ns at edge instant `t` (R106, R490). Log entry 23. -/
def State.siteAt (s : State) (t : Nat) : Int :=
  let dt : Int := (t : Int) - s.time.at_
  s.time.base + dt * 5 * (1000000000 + s.time.ratePpb) / 2000000000

def State.site (s : State) : Int := s.siteAt s.now

/-! ### Severity and routing -/

/-- A code that some event of the manual bears (R572). -/
def codeBorne (c : Nat) : Bool :=
  decide (c ≤ 0x07) || c == 0x10 || c == 0x20 || c == 0x2E || (0x30 ≤ c && c ≤ 0x34) || c == 0x5E ||
  (0x60 ≤ c && c ≤ 0x70) || c == 0x7C || c == 0x7D || (0x80 ≤ c && c ≤ 0xA4) || (0xB0 ≤ c && c ≤ 0xBC) ||
  (0xD0 ≤ c && c ≤ 0xED) || (0xF0 ≤ c && c ≤ 0xFF)

/-- Default severity of a code (R574). -/
def defaultSeverity (c : Nat) : Nat :=
  if c ∈ [0xB2, 0xB3, 0xB4, 0xB5, 0xB6, 0xB8, 0xDF, 0xE1, 0xF1, 0xF2, 0xF5, 0xFA] then 4
  else if c ∈ [0x00, 0x07, 0x20, 0x2E, 0x30, 0x60, 0x7C, 0x89, 0xA4, 0xB1, 0xBC, 0xD4, 0xD5, 0xD6, 0xDA, 0xE3, 0xFB] then 3
  else if c ∈ [0x01, 0x02, 0x03, 0x04, 0x05, 0x06, 0x10, 0x31, 0x5E, 0x63, 0x65, 0x66, 0x68, 0x6A, 0x6B, 0x6D, 0x6E,
      0x70, 0x88, 0x8C, 0x8E, 0x8F, 0x91, 0x92, 0x93, 0x95, 0x9B, 0x9E] ∨
      c ∈ [0xB7, 0xBB, 0xD1, 0xD2, 0xD3, 0xD8, 0xD9, 0xDD, 0xDE, 0xE4, 0xE7, 0xE8, 0xE9, 0xEA, 0xF3, 0xF4, 0xF8] then 2
  else 1

/-- Configured severity of a code (R574). -/
def State.sevOf (s : State) (c : Nat) : Nat :=
  let v := s.nat LEDGER.severity 0 c
  if v = 0 then defaultSeverity c else v

/-- The three destinations of an occurrence of severity `sev`: Ledger, fabric, nEVT (R575, R576). -/
def State.routeOf (s : State) (c sev : Nat) : Bool × Bool × Bool :=
  let r := s.nat LEDGER.route 0 c
  let set := bit r 7
  let led := if set then bit r 0 else true
  let nevt := if set then bit r 2 else s.sevOf c == 4
  (led || decide (3 ≤ sev), set && bit r 1, nevt)

/-! ### The Ledger buffer (R586 to R591) -/

def Led.nCrit (l : Led) : Nat := (l.buf.filter (fun r => r.sev == 4 && !r.summary)).length

def Led.nNon (l : Led) : Nat := l.buf.length - l.nCrit

/-- L of R586. -/
def State.ledL (s : State) : Nat := 4 * s.purse.pmax - 64

/-- Free slots of the flash page that is programmed next (R592); the last slot of the reserve is kept (R595). -/
def Led.pageRoom (l : Led) : Nat :=
  if l.state = .opened then 4 - l.ordUsed % 4 else min (4 - l.resUsed % 4) (16383 - l.resUsed)

/-- The program of the next page begins: its records no longer fold (R587, R592). -/
def Led.beginPage (l : Led) : Led :=
  { l with buf := (l.buf.take l.pageRoom).map (fun r => { r with begun := true }) ++ l.buf.drop l.pageRoom }

/-- A flush begins, or goes on when one runs (R591). -/
def State.beginFlush (s : State) : State :=
  if s.led.flushing ∨ s.led.buf = [] then s
  else { s with led := { s.led with flushing := true, flushes := inc32 s.led.flushes }.beginPage }

/-- The flush decisions on records waiting (R591). -/
def State.flushDecide (sev : Nat) (s : State) : State :=
  let m := s.nat LEDGER.flush_margin
  if 3 ≤ sev ∨ max (s.ledL - m) 1 ≤ s.led.nNon then s.beginFlush else s

/-- Enters a record into the buffer: it takes the next SEQ, LIFE, SITE and SYNCED (R580, R582). -/
def State.enterRec (r : LedRec) (s : State) : State :=
  let r := { r with seq := some s.led.nextSeq, life := s.life, site := s.site, synced := s.time.synced,
                    loss := r.loss || (r.sev == 4 && s.led.lossPending) }
  let b := s.led.buf ++ [r]
  let s := { s with led := { s.led with buf := b, nextSeq := s.led.nextSeq + 1, bufPeak := max s.led.bufPeak b.length,
                                        lossPending := s.led.lossPending && r.sev != 4 } }
  s.flushDecide r.sev

/-- The tail record and an occurrence fold (R587). -/
def State.foldable (o : Occ) (s : State) : Bool :=
  match s.led.buf.getLast? with
  | none => false
  | some r => !r.begun && !r.summary && r.code == o.code && r.sev == o.sev && r.payload == o.payload &&
      (s.life - r.life) / 1000 < 2 ^ 32

/-- Counts an occurrence into its code's summary counter (R588). -/
def sumAdd (o : Occ) (life : Nat) (l : List SumCnt) : List SumCnt :=
  match l.find? (fun c => c.code == o.code) with
  | some _ => l.map (fun c => if c.code == o.code
      then { c with count := inc32 c.count, sev := max c.sev o.sev, lastLife := life } else c)
  | none =>
    l.filter (fun c => c.code < o.code) ++
      [{ code := o.code, count := 1, sev := o.sev, firstEpoch := o.epoch, firstLife := life, lastLife := life }] ++
      l.filter (fun c => o.code < c.code)

def Occ.toRec (o : Occ) : LedRec := { epoch := o.epoch, code := o.code, sev := o.sev, payload := o.payload }

def State.notRec (c : Nat) (s : State) : State :=
  { s with led := { s.led with notRecorded := countUp s.led.notRecorded c } }

/-- The Ledger takes an occurrence (R587, R588, R590; the Ledger states of R595). -/
def State.ledTake (o : Occ) (s : State) : State :=
  if s.led.state = .sealed ∨ (s.led.state = .reserve ∧ o.sev < 4) then s.notRec o.code
  else if s.foldable o then
    { s with led := { s.led with
        buf := s.led.buf.dropLast ++ (s.led.buf.getLast?.toList.map (fun r =>
          { r with rep := inc32 r.rep, delta := (s.life - r.life) / 1000 })),
        folds := inc32 s.led.folds } }
  else if o.sev = 4 then
    if s.led.buf.length < 4 * s.purse.pmax then s.enterRec o.toRec
    else if s.led.held.length < 64 then { s with led := { s.led with held := s.led.held ++ [o] } }
    else { s with led := { s.led with critLost := inc32 s.led.critLost, lossPending := true } }
  else if s.led.cnt ≠ [] ∨ s.ledL ≤ s.led.nNon then
    { s with led := { s.led with cnt := sumAdd o s.life s.led.cnt } }
  else s.enterRec o.toRec

/-- The summary record of a counter (R589). -/
def SumCnt.toRec (epoch : Nat) (c : SumCnt) : LedRec :=
  { epoch := epoch, code := c.code, sev := c.sev, summary := true, rep := c.count,
    delta := satU ((c.lastLife - c.firstLife) / 1000) 32, payload := le 6 c.firstEpoch ++ le 8 c.firstLife }

/-- Enters summary records, lowest code first, while fewer than `room` records of the kind counted wait (R588, R594). -/
def State.enterSummaries (all : Bool) (room : Nat) : List SumCnt → State → State
  | [], s => s
  | c :: cs, s =>
    if (if all then s.led.buf.length else s.led.nNon) < room then
      let s := s.enterRec (c.toRec s.stage.epoch)
      State.enterSummaries all room cs { s with led := { s.led with cnt := s.led.cnt.filter (fun x => x.code != c.code) } }
    else s

/-- Held critical occurrences enter while there is room (R588). -/
def State.enterHeld : List Occ → State → State
  | [], s => s
  | o :: os, s =>
    if s.led.buf.length < 4 * s.purse.pmax then
      State.enterHeld os ({ s with led := { s.led with held := s.led.held.drop 1 } }.enterRec o.toRec)
    else s

/-- The Ledger at each boundary (R588, R589). -/
def State.ledBoundary (s : State) : State :=
  let s := if s.led.cnt ≠ [] ∧ 0 < s.ledL ∧ s.led.nNon ≤ s.ledL - s.nat LEDGER.flush_margin
    then s.enterSummaries false s.ledL s.led.cnt else s
  let s := s.enterHeld s.led.held
  if 4 * s.purse.pmax < s.led.buf.length then s.beginFlush else s

/-- The flush ends: the life clock is persisted (R584), clean after a power-loss flush. -/
def State.flushEnd (s : State) : State :=
  { s with led := { s.led with
      flushing := false, powerFlush := false, lifePersist := s.life, cleanPersist := s.led.powerFlush } }

/-- A power-loss flush begins (R594): pending summaries enter up to the critical reserve, what is left of them is lost.
With nothing waiting it ends at once. -/
def State.powerFlushBegin (s : State) : State :=
  if s.led.powerFlush then s
  else
    let n := s.led.buf.length
    let s := s.enterSummaries true (4 * s.purse.pmax - 64) s.led.cnt
    let lost := s.led.cnt != []
    let mark (r : LedRec) : LedRec := { r with loss := true }
    let b := s.led.buf
    let b := if lost && decide (n < b.length) then b.dropLast ++ (b.getLast?.toList.map mark) else b
    let s := { s with led := { s.led with buf := b, cnt := [], powerFlush := true } }.beginFlush
    if s.led.buf = [] then s.flushEnd else s

/-! ### Fabric and nEVT (R600 to R602) -/

/-- EVENT frames that wait for sending: in the queue, and originated and not yet on a link. Log entry 164. -/
def State.eventsWaiting (s : State) : Nat :=
  s.led.events.length + (s.fab.ports.map (fun (p : Port) =>
    (p.queue.filter (fun i => i.frame.type == 0x011 && i.buf.isNone)).length)).foldl max 0

/-- A fabric-routed occurrence waits for sending with its record as it stood at entry (R600). Log entry 164. -/
def State.fabTake (o : Occ) (kept : Option Nat) (s : State) : State :=
  if s.eventsWaiting < 256 then
    let r := { o.toRec with seq := kept, life := s.life, site := s.site, synced := s.time.synced }
    { s with led := { s.led with events := s.led.events ++ [r] } }
  else { s with led := { s.led with fabSkipped := inc32 s.led.fabSkipped } }

/-- An nEVT-routed occurrence drives nEVT low (R601, R602), once the LEDGER section has taken effect at release (R712).
Log entry 265. -/
def State.nevtTake (code : Nat) (s : State) : State :=
  if !s.wake.ledgerOn then s
  else { s with led := { s.led with
      nevtLow := true, nevtLastAt := s.now
      nevtCode := if s.led.nevtFresh then code else s.led.nevtCode
      nevtFresh := false } }

/-- Raises an event: every event of the part passes here. `sev` is the severity that the raising rule names, 0 where it
names none (R573); `pl` is the payload, at most 20 bytes (R579). -/
def State.raise (code : Nat) (pl : List Octet) (s : State) (sev : Nat := 0) : State :=
  let sv := max (s.sevOf code) sev
  let (led, fab, nevt) := s.routeOf code sv
  let o : Occ := { code := code, sev := sv, epoch := s.stage.epoch,
                   payload := pl.take 20 ++ List.replicate (20 - pl.length) 0 }
  let s := { s with led := { s.led with raised := countUp s.led.raised code } }
  let before := s.led.nextSeq
  let s := if led then s.ledTake o else s
  let kept := if led && s.led.nextSeq != before then some before else none
  let s := if fab then s.fabTake o kept else s
  if nevt then s.nevtTake code else s

/-! ### Halt causes (R678) -/

/-- A Halt cause is raised; it is present from the next boundary. Log entry 185. -/
def State.haltCause (k : Nat) (s : State) : State :=
  { s with mode := { s.mode with haltNew := setBit s.mode.haltNew k true } }

/-- The temperature of a die (R567). -/
def Purse.dieT (p : Purse) (k : Nat) : Int :=
  let x := nth p.dieTemps k
  sat (max x.1 x.2 + (if p.plus8.getD k false then 128 else 0)) 16

/-! ### What commands offered to an axis or a group show (R751) -/

/-- What the deciding of commands changes in an axis's book, as it shows. -/
def AxisBook.show (b new : AxisBook) : AxisBook :=
  { b with
    stopLatch := new.stopLatch, cmdBreak := new.cmdBreak, cmdTag := new.cmdTag, rejTag := new.rejTag, rejects := new.rejects
    reversals := new.reversals, refusals := new.refusals }

/-- The same taken back; a stop latched meanwhile stays latched. -/
def AxisBook.unshow (b old : AxisBook) : AxisBook := { b.show old with stopLatch := b.stopLatch || old.stopLatch }

/-- The axes and groups without what the offered commands will do. Log entry 27. -/
def State.unshow (s : State) : State :=
  if !s.pre.shown then s
  else { s with
    ax := s.pre.ax, pg := s.pre.pg, gc := s.pre.gc, home := s.pre.home
    book := s.book.zipWith AxisBook.unshow s.pre.book, pre := { s.pre with shown := false } }

/-- The Steward latches what is published under the present epoch (R50, R51): outputs in effect, without what offered commands
will do. Log entry 205. -/
def State.publish (s : State) : State :=
  let u := s.unshow
  { s with
    pub := some {
      now := u.now, cfg := u.cfg, graph := u.graph, links := u.links, clk := u.clk, stage := u.stage, disp := u.disp,
      ain := u.ain, t16 := u.t16, fb := u.fb, snap := u.snap, snapPrev := u.snapPrev, din := u.din, dinSnap :=
      u.dinSnap, emu := u.emu, ch := u.ch, cax := u.cax, acq := u.acq, ax := u.ax, axe := u.axe, axPrevRef :=
      u.axPrevRef, book := u.book, pg := u.pg, pgBook := u.pgBook, gc := u.gc, cap := u.cap, cmp := u.cmp, home :=
      u.home, survey := u.survey, cars := u.cars, doors := u.doors, dsp := u.dsp, safe := u.safe, time := u.time, fab :=
      u.fab, cons := u.cons, xd := u.xd, twin := u.twin, purse := u.purse, led := u.led, mode := u.mode, stw := u.stw,
      wake := u.wake, win := u.win, pins := u.pins } }

/-- The state as it is published: nothing of it changes between two boundaries (R54). Before the first notice it is the state
itself. Log entry 205. -/
def State.view (s : State) : State :=
  match s.pub with
  | none => s.unshow
  | some p =>
    { s with
      now := p.now, cfg := p.cfg, graph := p.graph, links := p.links, clk := p.clk, stage := p.stage, disp := p.disp,
      ain := p.ain, t16 := p.t16, fb := p.fb, snap := p.snap, snapPrev := p.snapPrev, din := p.din, dinSnap :=
      p.dinSnap, emu := p.emu, ch := p.ch, cax := p.cax, acq := p.acq, ax := p.ax, axe := p.axe, axPrevRef :=
      p.axPrevRef, book := p.book, pg := p.pg, pgBook := p.pgBook, gc := p.gc, cap := p.cap, cmp := p.cmp, home :=
      p.home, survey := p.survey, cars := p.cars, doors := p.doors, dsp := p.dsp, safe := p.safe, time := p.time, fab :=
      p.fab, cons := p.cons, xd := p.xd, twin := p.twin, purse := p.purse, led := p.led, mode := p.mode, stw := p.stw,
      wake := p.wake, win := p.win, pins := p.pins, pre := {} }

/-- The axes and groups show what `f` will make of them; nothing else of it happens yet. Log entry 27. -/
def State.show (f : State → State) (s : State) : State :=
  let t := f s
  { s with
    ax := t.ax, pg := t.pg, gc := t.gc, home := t.home, book := s.book.zipWith AxisBook.show t.book
    pre := { shown := true, ax := s.ax, pg := s.pg, gc := s.gc, home := s.home, book := s.book } }

/-! ### Updates by index -/

def State.onPins (f : Pins → Pins) (s : State) : State := { s with pins := f s.pins }

def State.onTask (i : Nat) (f : TaskRun → TaskRun) (s : State) : State :=
  { s with disp := { s.disp with tasks := s.disp.tasks.modify i f } }

def State.onFb (i : Nat) (f : Fb → Fb) (s : State) : State := { s with fb := s.fb.modify i f }

def State.onDin (i : Nat) (f : Din → Din) (s : State) : State := { s with din := s.din.modify i f }

def State.onCh (i : Nat) (f : Chan → Chan) (s : State) : State := { s with ch := s.ch.modify i f }

def State.onCax (i : Nat) (f : CurAx → CurAx) (s : State) : State := { s with cax := s.cax.modify i f }

def State.onAx (i : Nat) (f : Axis → Axis) (s : State) : State := { s with ax := s.ax.modify i f }

/-- A change to an axis from outside its kernel: it holds also where the axis shows what offered commands will do. -/
def State.onAxKept (a : Nat) (f : Axis → Axis) (s : State) : State :=
  { s.onAx a f with pre := { s.pre with ax := s.pre.ax.modify a f } }

/-- HOMED, set outside the axis kernel. -/
def State.setHomed (a : Nat) (h : Bool) (s : State) : State := s.onAxKept a (fun x => { x with homed := h })

def State.onBook (i : Nat) (f : AxisBook → AxisBook) (s : State) : State := { s with book := s.book.modify i f }

def State.onPg (i : Nat) (f : Pg → Pg) (s : State) : State := { s with pg := s.pg.modify i f }

def State.onGc (i : Nat) (f : Gc → Gc) (s : State) : State := { s with gc := s.gc.modify i f }

/-- The same of a coupling. -/
def State.onGcKept (c : Nat) (f : Gc → Gc) (s : State) : State :=
  { s.onGc c f with pre := { s.pre with gc := s.pre.gc.modify c f } }

def State.onHome (i : Nat) (f : Home → Home) (s : State) : State := { s with home := s.home.modify i f }

/-- The same of a homing sequence. -/
def State.onHomeKept (i : Nat) (f : Home → Home) (s : State) : State :=
  { s.onHome i f with pre := { s.pre with home := s.pre.home.modify i f } }

def State.onStop (i : Nat) (f : SafeStop → SafeStop) (s : State) : State :=
  { s with safe := { s.safe with stops := s.safe.stops.modify i f } }

def State.onOut (i : Nat) (f : SafeOut → SafeOut) (s : State) : State :=
  { s with safe := { s.safe with outs := s.safe.outs.modify i f } }

/-- Replies to a mailbox requester, if the command came from one (R737). -/
def State.reply (o : Origin) (code detail : Nat) (s : State) : State :=
  match o.mbId with
  | some id => { s with replies := s.replies ++ [{ src := o.mbSrc, id := id, code := code, detail := detail }] }
  | none => s

/-! ### What a field names -/

/-- CURRENT.kind of an axis. -/
def State.kind (s : State) (a : Nat) : Nat := s.nat CURRENT.kind a

/-- The motor channel of an axis, if it has one (R232). -/
def State.fbMotor (s : State) (a : Nat) : Option Nat :=
  let m := s.nat AXIS.fb_motor a
  if m = 0 then none else some (m - 1)

/-- The position channel of an axis (R232, R320). -/
def State.fbPos (s : State) (a : Nat) : Option Nat :=
  let l := s.nat AXIS.fb_load a
  if l = 0 then s.fbMotor a else some (l - 1)

/-- R233. -/
def State.measuring (s : State) (a : Nat) : Bool := s.kind a == 0 && (s.fbMotor a).isSome

/-- R234. -/
def State.defined (s : State) (a : Nat) : Bool := (1 ≤ s.kind a && s.kind a ≤ 4) || s.measuring a

/-- The axis uses the channel as feedback (R170). -/
def State.usesFb (s : State) (a ch : Nat) : Bool :=
  s.defined a && (s.fbMotor a == some ch || s.fbPos a == some ch)

/-- A rotary axis (R127). -/
def State.rotary (s : State) (a : Nat) : Bool := s.flag AXIS.flags 0 a

/-- An increment of a rotary axis's position, reduced into (−modulo/2, modulo/2]. Log entry 12. -/
def State.modDelta (s : State) (a : Nat) (d : Int) : Int :=
  if s.rotary a then
    let m := s.int AXIS.modulo a
    let u := d % m
    if m < 2 * u then u - m else u
  else d

/-- A field that defaults to another value where it is encoded 0 (R18). Log entry 19. -/
def State.natOr (s : State) (f : Field) (i dflt : Nat) : Nat := if s.raw f i = 0 then dflt else s.nat f i

/-- The boundary that ends the present Stage. -/
def State.nextBoundary (s : State) : Nat := s.stage.openedAt + s.stage.len

/-- CPR of a channel (R150). -/
def State.cpr (s : State) (ch : Nat) : Nat := s.nat FB.cpr ch

/-! ### Stops and axis faults (R265, R278 to R280, R411 to R414) -/

/-- The raw generator at rest where the reference stands. Log entry 50. -/
def Axis.genRest (x : Axis) : Axis :=
  { x with gen := { x.gen with phase := .rest, pe := x.peRef, ve := 0, next := none },
           filt := { x.filt with win := [], sum := 0, q := 0 } }

/-- What follows a ramp that two causes ask for: the stronger. -/
def RampThen.join (x y : RampThen) : RampThen :=
  if x = .ss1 ∨ y = .ss1 then .ss1 else if x = .idle ∨ y = .idle then .idle else .held

/-- A quick-stop ramp starts from the published reference: any move is discarded (R265). A ramp that runs already goes
on (R748). -/
def Axis.startRamp (k : RampThen) (x : Axis) : Axis :=
  if x.ramp then { x with rampThen := x.rampThen.join k }
  else
    { x with
      ramp := true, rampThen := k, kept := none, decel := false, blendLeft := 0, iBlendLeft := 0
      peRef := if floorShift x.peRef 16 = x.pRef then x.peRef else x.pRef * 65536 }.genRest

/-- Orders a quick-stop ramp for the next boundary, where causes take effect (R266). `cause` is the path-break cause
(R297). -/
def State.order (a : Nat) (k : RampThen) (cause : Nat) (s : State) : State :=
  s.onBook a (fun b => { b with
    ordered := some (match b.ordered with | some o => o.join k | none => k)
    breakCause := some (match b.breakCause with | some c => min c cause | none => cause) })

def safeStopPl (a kind code : Nat) : List Octet := le 1 a ++ le 1 kind ++ le 1 code

/-- Orders STO with brake on an axis (R414): at once, also during SS1. `code` is the event that orders it. Log entry 51. -/
def State.orderSto (a code : Nat) (s : State) : State :=
  if (nth s.safe.stops a).kind = .sto then s
  else (s.onStop a (fun x => { x with kind := .sto, code := code, start := s.stage.boundaries })).raise 0xB7
    (safeStopPl a 0 code)

/-- Orders SS1 on an enabled axis; ignored during a stop (R414). Log entry 51. -/
def State.orderSs1 (a code : Nat) (s : State) : State :=
  if (nth s.safe.stops a).kind ≠ .none ∨ !(nth s.ax a).enabled then s
  else ((s.onStop a (fun _ => { kind := .ss1, code := code, start := s.stage.boundaries })).order a .ss1
    (if code = 0x60 then 2 else 4)).raise 0xB7 (safeStopPl a 1 code)

/-- An axis fault (R278 to R280): each cause raises its event once while it is latched; the first orders its reaction,
and cause 3 always removes torque. Of the causes found in one Stage the lowest stays. -/
def State.axisFault (a cause : Nat) (detail : Int) (s : State) : State :=
  let b := nth s.book a
  if bit b.causes cause ∨ !s.defined a then s
  else
    let s := s.onBook a (fun b => { b with
      fault := true, causes := setBit b.causes cause true, faults := inc32 b.faults
      cause := if !b.fault then cause else if b.faultAt = s.stage.boundaries then min b.cause cause else b.cause
      faultAt := if b.fault then b.faultAt else s.stage.boundaries })
    let s := s.raise 0x60 (le 1 a ++ le 1 cause ++ le 8 detail)
    if cause = 3 then s.orderSto a 0x60 else if b.fault then s else s.orderSs1 a 0x60

/-- EV_POSITION_SATURATED and the axis fault of the overflow table (R127). -/
def State.axisSaturated (a quantity : Nat) (v : Int) (s : State) : State :=
  (s.raise 0x7C (le 1 a ++ le 1 quantity ++ le 8 v)).axisFault a 5 quantity

end Sys2Proof.Machine
end

