-- ==== Sys2Proof/Machine/Tasks.lean ====
section
/-! DEFINITION. The Task Dispatcher of chapter 02: readiness, selection and pre-emption, cancellation, overruns, the
instance queue and back-pressure. -/

namespace Sys2Proof.Machine

def State.taskRec (s : State) (i : Nat) : Task := nth s.graph.tasks i

def State.run (s : State) (i : Nat) : TaskRun := nth s.disp.tasks i

def State.inst (s : State) (slot : Nat) : Option InstEntry := s.disp.queue.find? (·.slot == slot)

def State.onInst (slot : Nat) (f : InstEntry → InstEntry) (s : State) : State :=
  { s with disp := { s.disp with queue := s.disp.queue.map (fun e => if e.slot == slot then f e else e) } }

def State.freeInst (slot : Nat) (s : State) : State :=
  { s with disp := { s.disp with queue := s.disp.queue.filter (·.slot != slot) } }

/-! ### Work: a task or an instance -/

def State.taskIx (s : State) : Work → Nat
  | .task i => i
  | .inst sl => ((s.inst sl).map (·.task)).getD 0

def State.status (s : State) : Work → TaskStatus
  | .task i => (s.run i).status
  | .inst sl => ((s.inst sl).map (·.status)).getD .idle

def State.cancelled (s : State) : Work → Bool
  | .task i => (s.run i).cancel
  | .inst sl => ((s.inst sl).map (·.cancel)).getD false

def State.seqOf (s : State) : Work → Nat
  | .task i => (s.run i).readySeq
  | .inst sl => ((s.inst sl).map (·.readySeq)).getD 0

def State.setStatus (w : Work) (st : TaskStatus) (s : State) : State :=
  match w with
  | .task i => s.onTask i (fun r => { r with status := st })
  | .inst sl => s.onInst sl (fun e => { e with status := st })

def workSlot : Work → Nat
  | .task _ => 0xFF
  | .inst sl => sl

/-- Every task and every queued instance. -/
def State.allWork (s : State) : List Work :=
  (List.range s.disp.tasks.length).map .task ++ s.disp.queue.map (fun e => .inst e.slot)

def TaskStatus.inService : TaskStatus → Bool
  | .running _ => true
  | .preempted => true
  | _ => false

/-! ### Selection (R90 to R92) -/

def State.prioOf (s : State) (w : Work) : Nat := (s.taskRec (s.taskIx w)).prio

/-- The flow of a work, if its flow is enabled. -/
def State.flowOf (s : State) (w : Work) : Option Nat :=
  let t := s.taskRec (s.taskIx w)
  if t.flowEn then some t.flow else none

/-- The work in service that holds a flow (R91). -/
def State.flowHolder (s : State) (f : Nat) : Option Work :=
  s.allWork.find? (fun w => (s.status w).inService && s.flowOf w == some f)

/-- R91. -/
def State.eligible (s : State) (w : Work) : Bool :=
  (s.status w == .ready || s.status w == .preempted) &&
  match s.flowOf w with
  | none => true
  | some f => match s.flowHolder f with
    | none => true
    | some h => h == w

/-- R92: the effective priority of a work in service. -/
def State.effPrio (s : State) (w : Work) : Nat :=
  match s.flowOf w with
  | none => s.prioOf w
  | some f =>
    (s.allWork.filter (fun v => v != w && s.status v == .ready && s.flowOf v == some f)).foldl
      (fun m v => max m (s.prioOf v)) (s.prioOf w)

/-- Greatest priority; among equals the smallest ready sequence number. -/
def State.bestEligible (s : State) : Option Work :=
  (s.allWork.filter s.eligible).foldl (fun b w =>
    match b with
    | none => some w
    | some v => if s.prioOf v < s.prioOf w ∨ (s.prioOf v = s.prioOf w ∧ s.seqOf w < s.seqOf v) then some w else b) none

def State.setLane (lane : Nat) (w : Option Work) (s : State) : State :=
  { s with disp := { s.disp with lanes := s.disp.lanes.set lane w } }

def State.laneOf (s : State) (lane : Nat) : Option Work := s.disp.lanes.getD lane none

/-! ### The budget counter (R95) -/

def State.budgetOf (s : State) : Work → Nat
  | .task i => (s.run i).budget
  | .inst sl => ((s.inst sl).map (·.budget)).getD 0

def State.ranAt (s : State) : Work → Nat
  | .task i => (s.run i).ranAt
  | .inst sl => ((s.inst sl).map (·.ranAt)).getD 0

def State.setBudget (w : Work) (b t : Nat) (s : State) : State :=
  match w with
  | .task i => s.onTask i (fun r => { r with budget := b, ranAt := t })
  | .inst sl => s.onInst sl (fun e => { e with budget := b, ranAt := t })

/-- Stage-clock cycles that pass in `d` edge-clock cycles (R32, R33). -/
def State.stageCycles (s : State) (d : Nat) : Nat := if s.clk.stage500 then ceilDiv (5 * d) 4 else d

/-- Cycles since a work was dispatched: what it can have executed on its lane. Log entry 230. -/
def State.sinceRun (s : State) (w : Work) (t : Nat) : Nat := s.stageCycles (t - s.ranAt w)

/-- The budget counter of a work that leaves its lane at cycle `t` (R95). -/
def State.chargeWork (w : Work) (t : Nat) (s : State) : State := s.setBudget w (s.budgetOf w - s.sinceRun w t) t

/-! ### One selection (R88, R90 to R94) -/

/-- A status that the selection of cycle `t` changes, remembered until the cycle is over. -/
def State.selStatus (w : Work) (st : TaskStatus) (s : State) : State :=
  { s.setStatus w st with disp := { (s.setStatus w st).disp with undo := (w, s.status w) :: s.disp.undo } }

/-- A lane takes a work. -/
def State.dispatch (lane t : Nat) (w : Work) (s : State) : State :=
  ((s.selStatus w (.running lane)).setBudget w (s.budgetOf w) t).setLane lane (some w)

def State.laneDead (s : State) (lane : Nat) : Bool := s.clk.laneStopped.getD lane false

/-- A free lane takes a work, unless its cores have stopped (R47). -/
def State.fillLane (lane t : Nat) (s : State) : State :=
  if (s.laneOf lane).isSome || s.laneDead lane then s
  else match s.bestEligible with
    | none => s
    | some w => s.dispatch lane t w

/-- Pre-emption, when both lanes are busy (R92, R94). The work of a lane whose cores have stopped is no victim: such a lane
takes no other (R47). -/
def State.preempt (t : Nat) (s : State) : State :=
  match s.bestEligible, s.laneOf 0, s.laneOf 1 with
  | some c, some v0, some v1 =>
    let e0 := s.effPrio v0
    let e1 := s.effPrio v1
    let lane := if s.laneDead 0 then 1 else if s.laneDead 1 then 0
      else if e0 < e1 then 0 else if e1 < e0 then 1 else if s.seqOf v1 < s.seqOf v0 then 0 else 1
    let v := if lane = 0 then v0 else v1
    if !s.laneDead lane && decide (s.effPrio v < s.prioOf c) then
      ((s.chargeWork v t).selStatus v .preempted).dispatch lane t c
    else s
  | _, _, _ => s

/-- The selection of cycle `t` (step 6 of R88). -/
def State.selectOnce (t : Nat) (s : State) : State := ((s.fillLane 0 t).fillLane 1 t).preempt t

/-- What the last selection changed is taken back. -/
def State.unselect (s : State) : State :=
  let s := s.disp.undo.foldl (fun s x => s.setStatus x.1 x.2) { s with disp := { s.disp with lanes := s.disp.undoLanes } }
  { s with disp := { s.disp with undo := [] } }

/-- The dispatcher comes to the present cycle. A happening in the cycle of the last selection comes before that selection
(R88); otherwise the selections of the cycles between are made, until they change nothing more. Log entry 230. -/
def State.comeTo (s : State) : State :=
  if !s.disp.started then s
  else if s.disp.selAt = s.now then s.unselect
  else
    let s := eachIx (min 8 (s.now - s.disp.selAt - 1)) (fun k s => s.selectOnce (s.disp.selAt + 1 + k)) s
    { s with disp := { s.disp with cycSeq := s.disp.nextSeq } }

/-- The selection of the present cycle, after its other happenings. Log entry 230. -/
def State.select (s : State) : State :=
  if !s.disp.started then s
  else { s with disp := { s.disp with selAt := s.now, undo := [], undoLanes := s.disp.lanes } }.selectOnce s.now

/-! ### Readiness, annulment, release of successors -/

def State.waitOf (s : State) (i : Nat) : WaitEntry := s.graph.waits.getD (s.taskRec i).waitIx default

def annulPl (task slot reason : Nat) : List Octet := le 2 task ++ le 1 slot ++ le 1 reason

/-- A task is annulled (R98): not dispatched, its successors not decremented, its wait latch cleared (R77). -/
def State.annulTask (i reason : Nat) (s : State) : State :=
  (s.onTask i (fun r => { r with status := .annulled, marked := false, latch := false, annulled := inc32 r.annulled })).raise
    0x8D (annulPl i 0xFF reason)

/-- A ready number for task `i`: those that become ready in one cycle are numbered in ascending task index (R89). -/
def State.number (i : Nat) (s : State) : State :=
  let n := s.disp.cycSeq
  let mine (j : Nat) (r : TaskRun) : Bool := n ≤ r.readySeq && r.readySeq < s.disp.nextSeq && j != i &&
    (r.status == .ready || r.status == .annulled)
  let rs := s.disp.tasks.zipIdx
  let below := (rs.filter (fun x => mine x.2 x.1 && decide (x.2 < i))).length
  { s with disp := { s.disp with
      nextSeq := s.disp.nextSeq + 1
      tasks := rs.map (fun x =>
        if x.2 = i then { x.1 with readySeq := n + below }
        else if mine x.2 x.1 ∧ i < x.2 then { x.1 with readySeq := x.1.readySeq + 1 } else x.1) } }

/-- R76, R79, R89: a waiting task whose counter is zero and whose wait is resolved becomes ready, or is annulled when a
cancellation request marked it. -/
def State.checkReady (i : Nat) (s : State) : State :=
  let r := s.run i
  let resolved := !(s.taskRec i).waitEn || r.latch || r.deadlinePassed
  if r.status = .waiting ∧ r.counter = 0 ∧ resolved then
    if r.marked then s.annulTask i r.markReason
    else
      (s.number i).onTask i (fun r => { r with status := .ready, timedOut := (s.taskRec i).waitEn && r.deadlinePassed })
  else s

/-- The successor entries of a task (R72). -/
def State.succsOf (s : State) (i : Nat) : List Nat :=
  let t := s.taskRec i
  (s.graph.succs.drop t.succIx).take t.nsucc

/-- Releases successors: a decrement (R93), or with the cancel flag a completion without a lane that passes the flag on
(R98). `fuel` bounds the depth of the graph, which has no cycle (R73). -/
def State.release (cancel : Bool) : Nat → List Nat → State → State
  | 0, _, s => s
  | _, [], s => s
  | fuel + 1, j :: js, s =>
    let s :=
      if (s.run j).status ≠ .waiting then s
      else if cancel then
        State.release true fuel (s.succsOf j)
          (s.onTask j (fun r => { r with status := .completed, cancel := true, marked := false }))
      else (s.onTask j (fun r => { r with counter := r.counter - 1 })).checkReady j
    State.release cancel fuel js s

def State.releaseOf (i : Nat) (cancel : Bool) (s : State) : State :=
  s.release cancel (s.graph.tasks.length + s.graph.succs.length + 1) (s.succsOf i)

/-! ### Completion (R96 to R98, R102, R105) -/

/-- EV_RESPONSE_BOUND of a work that completes at `t` above its BOUND, cancelled or not (R99, R102, R105). -/
def State.respEv (w : Work) (t : Nat) (s : State) : State :=
  let i := s.taskIx w
  let resp := t - s.disp.graphStartAt
  let bound := (s.taskRec i).bound
  if bound < resp then s.raise 0x8F (le 2 i ++ le 1 (workSlot w) ++ le 4 (satU resp 32) ++ le 4 bound) else s

/-- Accounts a work that committed: response, its event above BOUND, its entry freed, its successors decremented. -/
def State.committed (w : Work) (t : Nat) (s : State) : State :=
  let i := s.taskIx w
  let resp := satU (t - s.disp.graphStartAt) 32
  let s := s.onTask i (fun r => { r with
    curResp := some (max resp (r.curResp.getD 0)), respMax := max r.respMax resp, latch := false, committed := true })
  let s := s.respEv w t
  match w with
  | .task i => (s.setStatus w .completed).releaseOf i false
  | .inst sl => s.freeInst sl

/-- The activation of a work was cancelled in an earlier cycle: a completion comes before the requests of its cycle (R88). -/
def State.cancelledBefore (s : State) (w : Work) : Bool :=
  s.cancelled w && (match w with
    | .task i => (s.run i).cancelAt
    | .inst sl => ((s.inst sl).bind (·.cancelAt))) != some s.now

/-- A work whose activation was cancelled ends: its commit suppressed, its successors released with the cancel flag, an
instance's entry freed (R81, R98). -/
def State.endedCancelled (w : Work) (s : State) : State :=
  match w with
  | .task i => (s.setStatus w .completed).releaseOf i true
  | .inst sl => s.freeInst sl

/-! ### Overruns (R95, R99) -/

def State.overrunEv (i cause slot cycles : Nat) (s : State) : State :=
  s.raise 0x88 (le 2 i ++ le 1 cause ++ le 1 slot ++ le 4 cycles ++ le 1 (s.taskRec i).bind)

/-- A work ends under overrun cause 0, 1 or 2. The event of cause 3 repeats the cycles of the activation that has ended. A
stopped instance waits for the next graph start. Log entries 26, 231. -/
def State.overrun (w : Work) (cause cycles : Nat) (s : State) : State :=
  let i := s.taskIx w
  let was := s.cancelled w
  let s := s.onTask i (fun r => { r with overruns := inc32 r.overruns, overran := true })
  let s := s.overrunEv i cause (workSlot w) cycles
  match w with
  | .task i => (s.setStatus w .stopped).releaseOf i true
  | .inst sl =>
    let n := ((s.inst sl).map (·.attempts)).getD 0 + 1
    if was then s.freeInst sl
    else if 3 ≤ n then (s.freeInst sl).overrunEv i 3 sl cycles
    else s.onInst sl (fun e => { e with status := .stopped, attempts := n, ranAt := s.now })

/-! ### Cancellation (R98) -/

/-- A work in service has been reached by a cancellation request at this cycle. -/
def State.flagCancel (w : Work) (s : State) : State :=
  match w with
  | .task i => s.onTask i (fun r => { r with cancel := true, cancelAt := some (r.cancelAt.getD s.now) })
  | .inst sl => s.onInst sl (fun e => { e with cancel := true, cancelAt := some (e.cancelAt.getD s.now) })

/-- A queued instance that waits for its release, or is released and not yet dispatched, is annulled. -/
def State.annulInst (sl reason : Nat) (s : State) : State :=
  match s.inst sl with
  | none => s
  | some e =>
    ((s.freeInst sl).onTask e.task (fun r => { r with annulled := inc32 r.annulled })).raise 0x8D (annulPl e.task sl reason)

/-- A cancellation request, from a kernel (reason 0) or a wait deadline (reason 1). A task marked twice keeps the reason of
the newer mark (log entry 231). A request in the very cycle that stopped an instance came before the stop (R88). -/
def State.cancelWork (w : Work) (reason : Nat) (s : State) : State :=
  match w, s.status w with
  | .task i, .waiting =>
    (s.onTask i (fun r => { r with marked := true, markReason := reason })).checkReady i
  | .task i, .ready => s.annulTask i reason
  | w, .running _ => s.flagCancel w
  | w, .preempted => s.flagCancel w
  | .inst sl, .stopped => if s.ranAt (.inst sl) = s.now then s.freeInst sl else s
  | .inst sl, .idle => s.annulInst sl reason
  | .inst sl, .ready => s.annulInst sl reason
  | _, _ => s

/-- The dispatcher's answer to a cancellation request (R98). -/
def State.cancelAnswer (s : State) (w : Work) : DispAnswer :=
  match w, s.status w with
  | .task _, .completed => .done
  | .inst sl, _ => if (s.inst sl).isNone then .done else .taken
  | _, _ => .taken

/-! ### Instances and back-pressure (R80 to R87) -/

def State.freeEntries (s : State) : Nat := 256 - s.disp.queue.length

/-- The lowest free slot. -/
def State.freeSlot (s : State) : Nat :=
  ((List.range 256).find? (fun k => !(s.disp.queue.any (·.slot == k)))).getD 0

/-- An instance arrives: it takes a free entry at the end of the order of arrival, with an argument of 32 bytes (R80). -/
def State.arrive (task : Nat) (arg : List Octet) (s : State) : State :=
  let e : InstEntry := { slot := s.freeSlot, task := task, arg := arg.take 32 ++ List.replicate (32 - arg.length) 0, arrival := s.stage.epoch }
  let q := s.disp.queue ++ [e]
  { s with disp := { s.disp with queue := q, queuePeak := max s.disp.queuePeak q.length } }

/-- EV_INSTANCE_BACKPRESSURE of the Stage in progress. -/
def State.bpEvent (s : State) : State :=
  s.raise 0x8A (le 2 s.disp.queue.length ++ le 1 s.disp.withheld ++ le 2 s.disp.held)

/-- A request held, or a credit withheld, in this Stage (R87). Log entry 219. -/
def State.backPressure (held withheld : Nat) (s : State) : State :=
  { s with disp := { s.disp with held := satU (s.disp.held + held) 16, withheld := satU (s.disp.withheld + withheld) 8 } }

/-- R86: accepted while the free entries exceed the credits outstanding, otherwise held. -/
def State.spawn (task : Nat) (arg : List Octet) (s : State) : State × Bool :=
  if s.disp.creditsOut < s.freeEntries then (s.arrive task arg, true) else (s.backPressure 1 0, false)

/-- The KIND 1 task of a spawn source. -/
def State.spawnTask (s : State) (srcKind srcIx : Nat) : Option Nat :=
  (List.range s.graph.tasks.length).find? (fun i =>
    let t := s.taskRec i
    t.kind == 1 && t.srcKind == srcKind && t.srcIx == srcIx)

/-- Offers a Steward message; a held one is kept for the next boundary notice (R86). -/
def State.offerSteward (src : Nat) (arg : List Octet) (s : State) : State :=
  match s.spawnTask 3 src with
  | none => s
  | some i =>
    match s.spawn i arg with
    | (s, true) => s
    | (s, false) => { s with disp := { s.disp with stewardHeld := s.disp.stewardHeld ++ [(src, arg)] } }

/-- The Steward offers its kept messages again (R86). -/
def State.offerStewardKept (s : State) : State :=
  s.disp.stewardHeld.foldl (fun s m => s.offerSteward m.1 m.2)
    { s with disp := { s.disp with stewardHeld := [] } }

/-! ### Graph start (R74, R75, R82, R89) -/

/-- R74: the task runs in the Stage of epoch `e`. -/
def taskActive (t : Task) (e : Nat) : Bool :=
  t.kind == 0 || (t.kind == 2 && e % 2 ^ t.rate == t.phase)

def State.loadTask (e i : Nat) (s : State) : State :=
  let t := s.taskRec i
  s.onTask i (fun r => { r with
    status := if taskActive t e then .waiting else if t.kind = 2 then .completed else .idle
    counter := t.deps, budget := t.budget, marked := false, timedOut := false, cancel := false, cancelAt := none
    readySeq := 2 ^ 32, committed := false, overran := false, curResp := none })

/-- The decrements of a KIND 2 task that is not active (R75), before readiness is looked at. -/
def State.passOver (e i : Nat) (s : State) : State :=
  let t := s.taskRec i
  if t.kind = 2 ∧ !taskActive t e then
    (s.succsOf i).foldl (fun s j => s.onTask j (fun r => { r with counter := r.counter - 1 })) s
  else s

/-- The DEADLINE cycle of a task's wait has come. -/
def State.deadlineDue (s : State) (i : Nat) : Bool :=
  (s.taskRec i).waitEn && decide (s.stage.openedAt + (s.waitOf i).deadline ≤ s.now)

/-- The DEADLINE of a wait that is not satisfied: WKIND 4 is (R78), any other wait has passed its deadline (R79). -/
def State.reachDeadline (i : Nat) (s : State) : State :=
  let w := s.waitOf i
  if !s.deadlineDue i || (s.run i).latch || (s.run i).deadlinePassed then s
  else if w.wkind = 4 then s.onTask i (fun r => { r with latch := true })
  else s.onTask i (fun r => { r with deadlinePassed := true })

/-- A deadline with ONTO = 1 that came before graph start cancels the activation as it starts (R79). -/
def State.startDeadline (i : Nat) (s : State) : State :=
  let s := s.reachDeadline i
  if (s.run i).deadlinePassed && (s.waitOf i).onto then s.cancelWork (.task i) 1 else s

/-- Releases up to MAXI instances of a KIND 1 task in order of arrival, none that arrived in this Stage (R82, R83). The wait
of a KIND 1 task, if it has one, is not looked at (log entry 231). -/
def State.releaseInsts (i : Nat) (s : State) : State :=
  let t := s.taskRec i
  if t.kind ≠ 1 then s
  else
    ((s.disp.queue.filter (fun e => e.task == i && (e.status == .idle || e.status == .stopped) && e.arrival != s.stage.epoch)).take
      t.maxi).foldl (fun s e =>
      let s := s.onInst e.slot (fun e => { e with
        status := .ready, readySeq := s.disp.nextSeq, budget := t.budget, cancel := false, cancelAt := none })
      { s with disp := { s.disp with nextSeq := s.disp.nextSeq + 1 } }) s

def State.graphStart (t : Nat) (s : State) : State :=
  let e := s.stage.epoch
  let n := s.graph.tasks.length
  let s := { s with disp := { s.disp with
    started := true, graphStartAt := t, nextSeq := 0, cycSeq := 0, undo := [], undoLanes := [none, none], lanes := [none, none]
    tasks := (s.disp.tasks ++ List.replicate n ({} : TaskRun)).take n } }
  let s := eachIx n (State.loadTask e) s
  let s := eachIx n (State.passOver e) s
  let s := eachIx n State.checkReady (eachIx n State.startDeadline s)
  (eachIx n State.releaseInsts s).select

/-! ### The cut-off and the end sweep (R46, R99) -/

def State.cyclesOf (executed : List (Work × Nat)) (w : Work) : Nat :=
  ((executed.find? (·.1 == w)).map (·.2)).getD 0

/-- At the cut-off: tasks in service are stopped (cause 1), tasks ready and never dispatched are not run (cause 2), what is
still waiting is stranded. -/
def State.endSweep (executed : List (Work × Nat)) (s : State) : State :=
  let s := s.comeTo
  let serv := s.disp.lanes.filterMap id ++ s.allWork.filter (fun w => s.status w == .preempted)
  let s := serv.foldl (fun s w => s.overrun w 1 (State.cyclesOf executed w)) s
  let s := (s.allWork.filter (fun w => s.status w == .ready)).foldl (fun s w => s.overrun w 2 0) s
  let s := eachIx s.disp.tasks.length (fun i s =>
    if (s.run i).status = .waiting then s.setStatus (.task i) .stranded else s) s
  { s with disp := { s.disp with lanes := [none, none], started := false }, stage := { s.stage with closed := true } }

/-! ### Overrun Stages (R100, R101) -/

def State.bindRuns (s : State) (b : Nat) : List TaskRun :=
  ((List.range s.graph.tasks.length).filter (fun i => (s.taskRec i).bind == b)).map s.run

def State.onBinding (b : Nat) (f : Binding → Binding) (s : State) : State :=
  { s with disp := { s.disp with binding := s.disp.binding.modify b f } }

/-- The accounting of one binding for the Stage that ends. -/
def State.accountBinding (b : Nat) (s : State) : State :=
  let rs := s.bindRuns b
  let ovr := rs.any (·.overran)
  let clean := !ovr && rs.any (·.committed)
  let n := s.stage.boundaries
  let s := s.onBinding b (fun x => { x with
    consec := if ovr then satU (x.consec + 1) 8 else if clean then 0 else x.consec
    window := (if ovr then [n] else []) ++ x.window.filter (fun k => n < k + 1000) })
  let x := nth s.disp.binding b
  let rule0 := s.nat STAGE.overrun_consec ≤ x.consec
  let rule1 := s.nat STAGE.overrun_window ≤ x.window.length
  if ovr && !x.escalated && (rule0 || rule1) then
    let cnt := if rule0 then x.consec else x.window.length
    let s := s.onBinding b (fun x => { x with escalated := true })
    let s := s.raise 0x89 (le 1 b ++ le 1 (if rule0 then 0 else 1) ++ le 2 cnt)
    if b < 12 then s.axisFault b 1 cnt else s.haltCause 3
  else s

/-- The waits of WKIND 4 are for this Stage's DEADLINE only (R78). -/
def State.dropTimes (s : State) : State :=
  eachIx s.graph.tasks.length (fun i s =>
    if (s.taskRec i).waitEn && (s.waitOf i).wkind == 4 then s.onTask i (fun r => { r with latch := false }) else s) s

/-- What the dispatcher settles at a boundary: overrun Stages, responses, back-pressure runs. The first Stage of a run
raises its event as it ends, with what it held and withheld in all (R87). Log entry 219. -/
def State.dispBoundary (s : State) : State :=
  let s := eachIx 13 State.accountBinding s
  let bp := s.disp.held ≠ 0 ∨ s.disp.withheld ≠ 0
  let s := (if bp ∧ !s.disp.bpRun then s.bpEvent else s).dropTimes
  { s with disp := { s.disp with
      tasks := s.disp.tasks.map (fun r => { r with
        respLast := r.curResp.getD 0xFFFFFFFF, curResp := none, committed := false, overran := false, deadlinePassed := false })
      bpStages := if bp then inc32 s.disp.bpStages else s.disp.bpStages
      bpRun := decide bp, held := 0, withheld := 0, started := false } }

/-- A binding that has escalated loses its counts when its fault is cleared; those of any other stand (R101). -/
def State.clearBinding (b : Nat) (s : State) : State := s.onBinding b (fun x => if x.escalated then {} else x)

/-! ### The commands -/

/-- BUDGET_EXHAUSTED (R95, R99): the budget counter of the work on a lane reaches zero, which it can once that many cycles
have passed since the work went on (log entry 230). -/
def execBudgetExhausted (t lane : Nat) (s : State) : Answer :=
  let s := (s.tick t).comeTo
  match s.laneOf lane with
  | none => .next s.select
  | some w =>
    if s.laneDead lane || decide (s.sinceRun w s.now < s.budgetOf w) then .next s.select
    else .next ((s.setLane lane none).overrun w 0 (s.taskRec (s.taskIx w)).budget).select

/-- CANCEL_REQUEST (R98). -/
def execCancelRequest (t : Nat) (w : Work) (s : State) : Answer :=
  let s := (s.tick t).comeTo
  let a := s.cancelAnswer w
  let s := s.cancelWork w 0
  .next { s with disp := { s.disp with answer := some a } }.select

/-- The condition of every wait on a source is latched (R77). -/
def State.waitEvent (wkind wix : Nat) (s : State) : State :=
  (eachIx s.graph.tasks.length (fun i s =>
    let w := s.waitOf i
    if (s.taskRec i).waitEn && w.wkind == wkind && w.wix == wix && wkind != 4 then
      (s.onTask i (fun r => { r with latch := true })).checkReady i
    else s) s.comeTo).select

/-- WAIT_EVENT (R77). -/
def execWaitEvent (t wkind wix : Nat) (s : State) : Answer := .next ((s.tick t).waitEvent wkind wix)

/-- WAIT_DEADLINE (R78, R79): the DEADLINE cycle of a task's wait is reached. -/
def execWaitDeadline (t task : Nat) (s : State) : Answer :=
  let s := (s.tick t).comeTo
  let was := (s.run task).deadlinePassed
  let s := s.reachDeadline task
  let onto := (s.waitOf task).onto && (s.run task).deadlinePassed && !was
  if (s.run task).status ≠ .waiting ∨ !s.disp.started then .next s.select
  else if onto then .next (s.cancelWork (.task task) 1).select
  else .next (s.checkReady task).select

/-- A spawn request of the kernel of task `by_`, answered accepted or HELD; the kernel keeps a held one and repeats it at its
next activation (R86). -/
def State.kernelSpawn (by_ task : Nat) (arg : List Octet) (s : State) : State :=
  let a (x : DispAnswer) (s : State) : State := { s with disp := { s.disp with answer := some x } }
  match s.spawn task arg with
  | (s, true) => a .accepted s
  | (s, false) => a .held { s with disp := { s.disp with kernelHeld := s.disp.kernelHeld ++ [(by_, s.stage.epoch, task, arg)] } }

/-- KERNEL_SPAWN_REQUEST (R86): the task must be one that kernels spawn. -/
def execKernelSpawnRequest (t : Nat) (task : SpawnTask) (arg : List Octet) (s : State) : Answer :=
  let s := s.tick t
  let r := s.taskRec task.template
  if r.kind = 1 ∧ r.srcKind = 2 then .next (s.kernelSpawn task.asker task.template arg) else .next s

/-- The requests that the kernel of task `i` kept from an earlier Stage are repeated while it runs (R86). -/
def State.repeatHeld (i : Nat) (s : State) : State :=
  let old (x : Nat × Nat × Nat × List Octet) : Bool := x.1 == i && x.2.1 != s.stage.epoch
  let l := s.disp.kernelHeld.filter old
  l.foldl (fun s x => s.kernelSpawn x.1 x.2.2.1 x.2.2.2)
    { s with disp := { s.disp with kernelHeld := s.disp.kernelHeld.filter (fun x => !old x) } }

/-- An arrival from the fabric: it waits for an entry where there is none, and is not dropped (R85, R87). Log entry 232. -/
def State.fabArrive (task : Nat) (arg : List Octet) (s : State) : State :=
  match s.spawn task arg with
  | (s, true) => s
  | (s, false) => { s with disp := { s.disp with fabHeld := s.disp.fabHeld ++ [(task, arg)] } }

/-- The arrivals that wait take the entries that have become free. Log entry 232. -/
def State.fabAgain (s : State) : State :=
  s.disp.fabHeld.foldl (fun s x => s.fabArrive x.1 x.2) { s with disp := { s.disp with fabHeld := [] } }

/-- STEWARD_SPAWN_MESSAGE (R86). -/
def execStewardSpawnMessage (t src : Nat) (arg : List Octet) (s : State) : Answer :=
  .next ((s.tick t).offerSteward src arg)

/-- CLR_RESP: STAGE_CONTROL.CLR_RESP, access code SC (R16). -/
def execClrResp (t value : Nat) (s : State) : Answer :=
  let s := s.tick t
  if bit value 0 then
    .next { s with disp := { s.disp with tasks := s.disp.tasks.map (fun r => { r with respMax := 0 }) } }
  else .next s

end Sys2Proof.Machine
end

