-- ==== Sys2Proof/Machine/Edges.lean ====
section
/-! DEFINITION. Capture inputs and compare outputs of chapter 07 (R304 to R315). -/

namespace Sys2Proof.Machine

def State.capOf (s : State) (i : Nat) : Cap := nth s.cap i

def State.onCap (i : Nat) (f : Cap → Cap) (s : State) : State := { s with cap := s.cap.modify i f }

/-! ### Capture -/

/-- CAPTURE.holdoff after its default. -/
def State.holdoff (s : State) (i : Nat) : Nat :=
  if s.raw CAPTURE.holdoff i = 0 then s.nat CAPTURE.min_width i else s.nat CAPTURE.holdoff i

/-- The polarity is one that CAPTURE.edge selects. -/
def State.capSelects (s : State) (i : Nat) (rising : Bool) : Bool :=
  match s.nat CAPTURE.edge i with | 1 => rising | 2 => !rising | _ => true

/-- An edge is lost (R305, R308). -/
def State.capLost (i : Nat) (s : State) : State :=
  s.onCap i (fun c => { c with lost := inc32 c.lost })

/-- CAPTURE_TRANSITION: a raw transition (R304, R305). A transition that was not held is a glitch. The level is
that of the ball: an input that is off holds it too. Log entry 35. -/
def execCaptureTransition (t cap : Nat) (level : Bool) (s : State) : Answer :=
  let s := s.tick t
  let c := s.capOf cap
  if s.nat CAPTURE.mode cap = 0 ∨ s.clk.motionHeld then
    .next (s.onCap cap (fun c => { c with ball := level, filt := level, lastT := if c.ball = level then c.lastT else t }))
  else if c.ball = level ∨ 16 ≤ cap then .next s
  else
    let glitch := c.pend && decide (t < c.lastT + s.nat CAPTURE.min_width cap)
    let other := (s.capOf (cap + 1)).ball
    .next (s.onCap cap (fun c => { c with
      ball := level, lastT := t, pend := level != c.filt, dirHigh := other
      glitch := if glitch then inc32 c.glitch else c.glitch }))

/-- The Stage of an edge time, the present or the one before: the boundary that opened it and its epoch (R59, R306).
Log entry 57. -/
def State.stageOf (s : State) (t : Nat) : Nat × Nat :=
  if t < s.stage.openedAt then
    (s.stage.boundaries - 1,
     s.stage.epoch - 1 - ((s.stage.jumps.filter (fun j => j.1 == s.stage.epoch)).map (·.2)).sum)
  else (s.stage.boundaries, s.stage.epoch)

/-- An accepted edge of mode 1: it waits for its record, at most eight in a Stage (R306, R308). -/
def State.capRecord (i t : Nat) (rising : Bool) (s : State) : State :=
  let c := s.capOf i
  let (st, ep) := s.stageOf t
  if 8 ≤ (c.waiting.filter (fun e => e.stage == st)).length then
    let s := (s.onCap i (fun c => { c with lostStage := c.lostStage + 1 })).capLost i
    if c.lostStage = 0 then s.raise 0x6A (le 1 i ++ le 2 1) else s
  else s.onCap i (fun c => { c with waiting := c.waiting ++ [{ t := t, rising := rising, epoch := ep, stage := st }] })

/-- CAPTURE_ACCEPT: the new level has held for CAPTURE.min_width cycles (R304, R305, R309). Log entry 57. -/
def execCaptureAccept (t cap : Nat) (s : State) : Answer :=
  let s := s.tick t
  if s.clk.motionHeld then .next s
  else
  let c := s.capOf cap
  if !c.pend ∨ t < c.lastT + s.nat CAPTURE.min_width cap then .next s
  else
    let s := s.onCap cap (fun c => { c with pend := false, filt := c.ball })
    let rising := c.ball
    let mode := s.nat CAPTURE.mode cap
    if mode = 2 then
      .next (if rising then s.onCap cap (fun c => { c with
        rises := c.rises ++ [((s.stageOf c.lastT).1, if c.dirHigh then (1 : Int) else -1)] }) else s)
    else if !s.capSelects cap rising then .next s
    else if (match c.lastAccept with | some p => decide (c.lastT < p + s.holdoff cap) | none => false) then
      .next (s.capLost cap)
    else
      let s := s.onCap cap (fun c => { c with lastAccept := some c.lastT })
      let s := if mode = 1 then s.capRecord cap c.lastT rising else s
      .next (s.waitEvent 3 cap)

/-- The position of an axis at `tc` between two boundaries' snapshots (R306). -/
def interpolate (tc n : Nat) (x0 x1 : AxInstant) : Int :=
  if x1.t ≤ tc then x1.p
  else
    let ta := max x0.t (x0.bound - n)
    let d := x1.p - x0.p
    x0.p + sgn d * ((d.natAbs * (tc - ta) / (x1.t - ta) : Nat) : Int)

/-- The record of an edge (R306, R307): positions between the boundaries that opened and closed its Stage. -/
def State.capRec (s : State) (seq : Nat) (e : CapEdge) : CapRec :=
  let ps := (List.range 12).map (fun a =>
    let (x0, x1, _) := nth s.axAt a
    let none_ := s.kind a = 0 ∧ (s.fbPos a).isNone
    if none_ ∨ !x0.valid ∨ !x1.valid then (false, (0 : Int)) else (true, interpolate e.t s.period x0 x1))
  { seq := seq, rising := e.rising, time := e.t, epoch := e.epoch, valid := ps.map (·.1), pos := ps.map (·.2) }

/-- One input at a boundary: the records of the Stage before last are published, and its pulses counted, whose
edges have all been accepted (R269). Log entry 57. -/
def State.capBoundary (i : Nat) (s : State) : State :=
  let due := (s.capOf i).waiting.filter (fun e => e.stage + 2 ≤ s.stage.boundaries)
  let s := due.foldl (fun s e =>
    let c := s.capOf i
    let r := s.capRec (inc32 c.seq) e
    s.onCap i (fun c => { c with seq := inc32 c.seq, recs := (c.recs ++ [r]).drop (c.recs.length + 1 - 8) })) s
  s.onCap i (fun c => { c with
    waiting := c.waiting.filter (fun e => s.stage.boundaries < e.stage + 2), lostStage := 0
    risesStage := ((c.rises.filter (fun r => r.1 + 2 == s.stage.boundaries)).map (·.2)).sum
    rises := c.rises.filter (fun r => s.stage.boundaries < r.1 + 2) })

/-! ### Compare -/

def State.cmpOf (s : State) (o : Nat) : Cmp := nth s.cmp o

def State.onCmp (o : Nat) (f : Cmp → Cmp) (s : State) : State := { s with cmp := s.cmp.modify o f }

/-- COMPARE.gap after its default. -/
def State.cmpGap (s : State) (o : Nat) : Nat :=
  if s.raw COMPARE.gap o = 0 then s.nat COMPARE.width o else s.nat COMPARE.gap o

/-- e_j of R310. -/
def State.cmpEntry (s : State) (o j : Nat) : Int :=
  let n := s.nat COMPARE.count o
  s.int COMPARE.pos (s.nat COMPARE.first o + j % n) + ((j / n : Nat) : Int) * s.int COMPARE.period o

/-- List direction: +1, or −1 with DIR_NEG. -/
def State.cmpDir (s : State) (o : Nat) : Int := if s.flag COMPARE.flags 0 o then -1 else 1

/-- Index j exists. -/
def State.cmpHas (s : State) (o j : Nat) : Bool := s.int COMPARE.period o != 0 || decide (j < s.nat COMPARE.count o)

/-- The source position at cycle `t` (R314): the channel now, or the reference running linearly through the Stage.
Log entry 249. -/
def State.cmpSource (s : State) (o t : Nat) : Int :=
  let i := s.nat COMPARE.index o
  if s.nat COMPARE.source o = 1 then (nth s.fb i).pos
  else
    let p0 := nth s.axPrevRef i
    let d := s.modDelta i ((nth s.axe i).pRef - p0)
    p0 + sgn d * ((d.natAbs * (min (t - s.stage.openedAt) s.period) / s.period : Nat) : Int)

/-- The source is faulted. -/
def State.cmpFaulted (s : State) (o : Nat) : Bool :=
  let i := s.nat COMPARE.index o
  if s.nat COMPARE.source o = 1 then (nth s.fb i).fault else (nth s.book i).fault

/-- The source has a position to arm on: a channel that is VALID, an axis at once. Log entry 250. -/
def State.cmpKnown (s : State) (o : Nat) : Bool :=
  s.nat COMPARE.source o != 1 || (nth s.snap (s.nat COMPARE.index o)).valid

/-- The level on the ball (R315): the active level is low with INVERT. Log entry 250. -/
def State.cmpBall (s : State) (o : Nat) : Bool := (s.cmpOf o).level != s.flag COMPARE.flags 3 o

/-- The least j from `j` whose entry lies strictly beyond `p` in direction `d`. -/
def State.cmpSeek (s : State) (o : Nat) (p d : Int) : Nat → Nat → Option Nat
  | 0, _ => none
  | n + 1, j =>
    if !s.cmpHas o j then none
    else if 0 < d * (s.cmpEntry o j - p) then some j
    else s.cmpSeek o p d n (j + 1)

/-- The output is re-sought (R311). With a period, whole periods behind the source are passed over at once. -/
def State.cmpReseek (o : Nat) (s : State) : State :=
  if s.nat COMPARE.source o = 0 then s
  else
    let p := s.cmpSource o s.stage.openedAt
    let d := s.cmpDir o
    let n := s.nat COMPARE.count o
    let per := s.int COMPARE.period o
    let back := d * (p - s.cmpEntry o (n - 1))
    let skip := if per = 0 ∨ back < 0 then 0 else back.natAbs / per.natAbs * n
    match s.cmpSeek o p d (2 * n + 2) skip with
    | some j => s.onCmp o (fun c => { c with sought := true, armed := some j, done := false })
    | none => s.onCmp o (fun c => { c with sought := true, armed := none, done := true })

/-- One firing at `t`: a pulse starts, waits its turn, or is missed (R312, R315). -/
def State.cmpPulse (o t j : Nat) (s : State) : State :=
  let c := s.cmpOf o
  let toggle := s.flag COMPARE.flags 2 o
  if c.pulseEnd.isSome ∨ t < c.nextPulse then
    if c.pendPulses < 4 then s.onCmp o (fun c => { c with pendPulses := c.pendPulses + 1 })
    else
      (s.onCmp o (fun c => { c with missed := inc32 c.missed })).raise 0x6B
        (le 1 o ++ le 2 (satU (c.missed + 1) 16) ++ le 2 (satU j 16))
  else
    let w := s.nat COMPARE.width o
    s.onCmp o (fun c => { c with
      level := if toggle then !c.level else true, pulseEnd := some (t + w), nextPulse := t + w + s.cmpGap o
      fired := inc32 c.fired, lastTime := t })

/-- Fires every entry that the source has reached (R312), from the armed one. -/
def State.cmpPass (o t : Nat) (p d : Int) : Nat → State → State
  | 0, s => s
  | n + 1, s =>
    match (s.cmpOf o).armed with
    | none => s
    | some j =>
      if 0 < d * (s.cmpEntry o j - p) then s
      else
        let s := s.cmpPulse o t j
        let s := if s.cmpHas o (j + 1) then s.onCmp o (fun c => { c with armed := some (j + 1) })
          else s.onCmp o (fun c => { c with armed := none, done := true })
        s.cmpPass o t p d n

/-- Re-arms an entry that the source has moved back past (R313). -/
def State.cmpRearm (o : Nat) (p d : Int) (s : State) : State :=
  match (s.cmpOf o).armed with
  | some (j + 1) =>
    if s.flag COMPARE.flags 1 o && decide (0 < d * (s.cmpEntry o j - p))
    then s.onCmp o (fun c => { c with armed := some j }) else s
  | _ => s

/-- A faulted source: the output holds its inactive level (R315). -/
def Cmp.off (c : Cmp) : Cmp := { c with fault := true, level := false, pulseEnd := none, pendPulses := 0 }

/-- COMPARE_FIRE (R312 to R315): the source has moved; entries it reaches fire, and a pulse that waited starts. -/
def execCompareFire (t out : Nat) (s : State) : Answer :=
  let s := s.tick t
  if s.clk.motionHeld then .next s
  else
  let c := s.cmpOf out
  if s.nat COMPARE.source out = 0 ∨ c.fault ∨ 8 ≤ out then .next s
  else if s.cmpFaulted out then .next (s.onCmp out Cmp.off)
  else
    let p := s.cmpSource out t
    let d := s.cmpDir out
    let s := (s.cmpRearm out p d).cmpPass out t p d 64
    let c := s.cmpOf out
    if 0 < c.pendPulses ∧ c.pulseEnd.isNone ∧ c.nextPulse ≤ t then
      .next ((s.onCmp out (fun c => { c with pendPulses := c.pendPulses - 1 })).cmpPulse out t (c.armed.getD 0))
    else .next s

/-- COMPARE_PULSE_END (R315). -/
def execComparePulseEnd (t out : Nat) (s : State) : Answer :=
  let s := s.tick t
  if s.clk.motionHeld then .next s
  else
  match (s.cmpOf out).pulseEnd with
  | some e =>
    if t < e then .next s
    else .next (s.onCmp out (fun c => { c with
      pulseEnd := none, level := if s.flag COMPARE.flags 2 out then c.level else false }))
  | none => .next s

/-- One output at a boundary: the fault of its source, and seeking at Waking and when the source is valid again (R311, R315).
Log entry 250. -/
def State.cmpBoundary (o : Nat) (s : State) : State :=
  if s.nat COMPARE.source o = 0 then s
  else
    let f := s.cmpFaulted o
    let was := (s.cmpOf o).fault
    if f then s.onCmp o Cmp.off
    else if (was || !(s.cmpOf o).sought) && s.cmpKnown o then (s.onCmp o (fun c => { c with fault := false })).cmpReseek o
    else s

/-- What an output is armed from (R311): first, count, period and the entries it addresses. -/
def State.cmpList (s : State) (o : Nat) : Nat × Int × List Int :=
  let n := s.nat COMPARE.count o
  (s.nat COMPARE.first o, s.int COMPARE.period o, (List.range n).map (fun j => s.int COMPARE.pos (s.nat COMPARE.first o + j)))

/-- Outputs whose list an amendment has changed since `old` are sought anew (R311). -/
def State.cmpAmended (s old : State) : State :=
  eachIx 8 (fun o s => if s.cmpList o ≠ old.cmpList o ∧ (s.cmpOf o).sought then s.cmpReseek o else s) s

end Sys2Proof.Machine
end

