-- ==== Sys2Proof/Machine/Feedback.lean ====
section
/-! DEFINITION. The Feedback Unit of chapter 04: quadrature, index, sine/cosine and SSI channels, the speed law, the
snapshot, discrete inputs and encoder emulation. -/

namespace Sys2Proof.Machine

/-- The Feedback Unit is off: Lodge without LODGE_FB (R698). -/
def State.fbOff (s : State) : Bool := s.mode.mode == 7 && !s.flag MODES.flags 2

def State.fbOf (s : State) (ch : Nat) : Fb := nth s.fb ch

/-! ### Faults and edge errors (R148, R169, R170) -/

/-- A feedback fault: VALID clears, and every axis that uses the channel faults (R169, R170). -/
def State.fbFault (ch cause : Nat) (detail : Int) (s : State) : State :=
  if (s.fbOf ch).fault then s
  else
    let s := s.onFb ch (fun f => { f with fault := true, cause := cause, valid := false })
    let s := s.raise 0x00 (le 1 ch ++ le 1 cause ++ le 4 detail)
    eachIx 12 (fun a s => if s.usesFb a ch then s.axisFault a 2 ch else s) s

/-- Edge errors within the last 1,000 Stages. -/
def State.edgeErrCount (s : State) (ch : Nat) : Nat :=
  ((s.fbOf ch).edgeErrs.filter (fun b => s.stage.boundaries < b + 1000)).length

/-- Counts an edge error and gives the fault of R148. -/
def State.edgeError (ch : Nat) (s : State) : State :=
  let s := s.onFb ch (fun f => { f with
    edgeErrs := s.stage.boundaries :: f.edgeErrs.filter (fun b => s.stage.boundaries < b + 1000) })
  if s.nat FB.edge_err_limit ch ≤ s.edgeErrCount ch then s.fbFault ch 1 0 else s

/-! ### Counts to grains (R140, R141, R123, R127) -/

/-- The axis that owns a channel's position (R320). -/
def State.fbOwner (s : State) (ch : Nat) : Option Nat :=
  (List.range 12).find? (fun a => s.defined a && s.fbPos a == some ch)

/-- Moves the count and the position of a channel by `dc` counts: wrap and turns (R127, R150), rational step (R141), with
the overflow decisions of R127. -/
def State.moveCount (ch : Nat) (dc : Int) (s : State) : State :=
  let f := s.fbOf ch
  let cpr : Int := s.cpr ch
  let c := (f.count : Int) + dc
  let turns := f.turns + c / cpr
  let y := rstepExact dc (s.int FB.num ch) (s.nat FB.den ch) f.rem
  let dy := sat y.1 48
  let p := sat (f.pos + dy) 64
  let s := s.onFb ch (fun f => { f with count := (c % cpr).toNat, turns := sat turns 32, rem := y.2, pos := p })
  let s := match s.fbOwner ch with
    | none => s
    | some a =>
      let s := if dy ≠ y.1 then s.axisSaturated a 4 y.1 else s
      if p ≠ f.pos + dy then s.axisSaturated a 0 (f.pos + dy) else s
  if turns ≠ sat turns 32 then (s.raise 0x2E (le 1 ch ++ le 4 (sat turns 32))).fbFault ch 7 (sat turns 32) else s

/-- Applies a count increment, already with FB.dir, at time `t`: the count and the position move, and the speed edge is
recorded (R165). -/
def State.countIn (ch : Nat) (dc : Int) (t : Nat) (s : State) : State :=
  let f := s.fbOf ch
  if f.fault then s
  else
    (s.moveCount ch dc).onFb ch (fun g => { g with
      posTime := t, neg := if dc = 0 then g.neg else decide (dc < 0)
      edges := if dc = 0 then g.edges
               else { t := t, p := g.pos, dir := sgn dc, g := (g.pos - f.pos).natAbs } :: g.edges })

/-- R140. -/
def State.dirOf (s : State) (ch : Nat) : Int := if s.nat FB.dir ch = 2 then -1 else 1

/-! ### Quadrature (R143 to R147) -/

/-- Place of an A/B state in the counting sequence of R143. -/
def quadIx (a b : Bool) : Nat := if a then (if b then 2 else 1) else if b then 3 else 0

/-- The count step of a single A or B change. -/
def quadStep (a b a' b' : Bool) : Int := if quadIx a' b' = (quadIx a b + 1) % 4 then 1 else -1

/-- The coarse count of a kind 2 channel without the transitions that are not yet confirmed (R146, R153). -/
def Fb.coarseCount (f : Fb) : Int := f.q - ((f.pendingEdges.filter (·.line != 2)).map (·.step)).sum

/-- A pending transition has stood for FB.min_edge cycles at `t` and is confirmed (R144). A Z edge takes, with its
confirmation, the direction of the last A/B transition confirmed up to it, and the count and position that rest on the
transitions up to it: those of its own cycle are confirmed before it, later ones after it (R151, R152, R330). Log entry 29. -/
def State.confirmLine (t ch line : Nat) (s : State) : State :=
  match (s.fbOf ch).pendingEdges.find? (fun e => e.line == line && e.t + s.nat FB.min_edge ch ≤ t) with
  | none => s
  | some e =>
    let s := s.onFb ch (fun f => { f with pendingEdges := f.pendingEdges.filter (fun x => x != e) })
    if line = 2 then s.onFb ch (fun f => { f with zEdge := some (if s.nat FB.kind ch = 2
        then { e with step := f.lastRawDir, x := f.coarseCount }
        else { e with step := f.lastRawDir, x := f.count, p := f.pos }) })
    else
      let s := s.onFb ch (fun f => { f with lastRawDir := e.step })
      if s.nat FB.kind ch = 1 then s.countIn ch (e.step * s.dirOf ch) e.t else s

/-- Confirms whatever is due on a channel, in the order of the transitions, A and B before Z in one cycle (R151). -/
def State.confirmDue (t ch : Nat) (s : State) : State :=
  ((s.fbOf ch).pendingEdges.map (·.line)).foldl (fun s line => s.confirmLine t ch line) s

/-- A change of one line: a glitch pair with the pending transition of the line (R145), or a new transition. Log entry 29. -/
def State.lineChange (t ch line : Nat) (step : Int) (level : Bool) (s : State) : State :=
  let f := s.fbOf ch
  match f.pendingEdges.find? (fun e => e.line == line && t < e.t + s.nat FB.min_edge ch) with
  | some e =>
    let s := s.onFb ch (fun f => { f with
      pendingEdges := f.pendingEdges.filter (fun x => x != e), reg := f.reg + step, q := f.q + step
      glitches := inc32 f.glitches })
    (s.raise 0x01 (le 1 ch ++ le 1 line ++ le 2 (t - e.t))).edgeError ch
  | none =>
    let e : RawEdge := { line := line, t := t, step := step, level := level, p := f.pos }
    s.onFb ch (fun f => { f with pendingEdges := f.pendingEdges ++ [e], reg := f.reg + step, q := f.q + step })

/-- A and B change in one cycle (R147): the count register stays. Neither change is a transition with a count step, so
neither forms a glitch pair; a transition of A or B that was not yet confirmed is not confirmed any more (R144). Log
entry 234. Log entries 234, 235. -/
def State.quadSkip (t ch : Nat) (s : State) : State :=
  let s := s.onFb ch (fun f => { f with
    pendingEdges := f.pendingEdges.filter (·.line == 2), skips := inc32 f.skips
    skipPending := decide (s.nat FB.kind ch = 2), skipT := t })
  (s.raise 0x02 (le 1 ch ++ le 1 0 ++ le 8 t)).edgeError ch

/-- QUAD_TRANSITION: the levels of A, B and Z of a channel from edge-clock cycle `t` on (R143 to R147). The levels are those
of the balls: they are held whether or not the channel counts. -/
def execQuadTransition (t ch : Nat) (a b z : Bool) (s : State) : Answer :=
  let s := s.tick t
  let f := s.fbOf ch
  let s :=
    if s.fbOff || s.clk.motionHeld || !(s.nat FB.kind ch == 1 || s.nat FB.kind ch == 2) then s
    else
      let s := s.confirmDue t ch
      let s :=
        if f.a ≠ a ∧ f.b ≠ b then s.quadSkip t ch
        else if f.a ≠ a then s.lineChange t ch 0 (quadStep f.a f.b a b) a
        else if f.b ≠ b then s.lineChange t ch 1 (quadStep f.a f.b a b) b
        else s
      if f.z ≠ z then s.lineChange t ch 2 0 z else s
  .next (s.onFb ch (fun f => { f with a := a, b := b, z := z }))

/-- QUAD_CONFIRM (R144). -/
def execQuadConfirm (t ch line : Nat) (s : State) : Answer :=
  let s := s.tick t
  if s.clk.motionHeld then .next s else .next (s.confirmLine t ch line)

/-! ### Index (R151 to R153) -/

/-- FB.index_period after its default (R150). -/
def State.indexPeriod (s : State) (ch : Nat) : Nat :=
  if s.raw FB.index_period ch ≠ 0 then s.nat FB.index_period ch
  else if s.nat FB.kind ch = 2 then s.cpr ch / 2 ^ (s.nat FB.interp_log2 ch - 2) else s.cpr ch

/-- δ of R152. -/
def indexDeviation (x ref : Int) (p : Nat) : Int :=
  let u := ((x - ref) % (p : Int)).toNat
  if p / 2 < u then (u : Int) - p else u

/-- The index decisions for an index instant with count `x`. -/
def State.indexAt (ch : Nat) (e : RawEdge) (s : State) : State :=
  let f := s.fbOf ch
  let s := s.onFb ch (fun f => { f with indexRef := some (e.t, e.p, e.x) })
  if !f.indexSeen then s.onFb ch (fun f => { f with ref := e.x, indexSeen := true, mismatchRun := 0 })
  else
    let d := indexDeviation e.x f.ref (s.indexPeriod ch)
    let s := s.onFb ch (fun f => { f with indexDelta := d })
    if d.natAbs ≤ s.nat FB.index_tol ch then
      let s := s.onFb ch (fun f => { f with mismatchRun := 0 })
      if d ≠ 0 ∧ s.flag FB.flags 1 ch then
        (s.moveCount ch (-d)).onFb ch (fun f => { f with reg := f.reg - d, realigns := inc32 f.realigns })
      else s
    else
      let s := s.onFb ch (fun f => { f with mismatchRun := f.mismatchRun + 1, mismatches := inc32 f.mismatches })
      let s := s.raise 0x03 (le 1 ch ++ le 4 d ++ le 4 e.x)
      if 2 ≤ f.mismatchRun + 1 then s.fbFault ch 2 d else s

/-- INDEX_INSTANT (R151): a confirmed Z edge, rising while counting in the +1 direction, falling in the −1 direction. -/
def execIndexInstant (t ch : Nat) (s : State) : Answer :=
  let s := s.tick t
  if s.clk.motionHeld then .next s
  else
    let s := s.confirmDue t ch
    let f := s.fbOf ch
    match f.zEdge with
    | none => .next s
    | some e =>
      let s := s.onFb ch (fun f => { f with zEdge := none })
      if s.flag FB.flags 0 ch ∧ !f.fault ∧ ((e.level ∧ e.step = 1) ∨ (!e.level ∧ e.step = -1)) then .next (s.indexAt ch e)
      else .next s

/-! ### Sine/cosine (R154 to R157) -/

/-- The corrected vector (c2, s1) of R154. -/
def State.sinCosVec (s : State) (ch : Nat) (si co : Int) : Int × Int :=
  let s1 := (si - s.int FB.sc_off_s ch) * s.int FB.sc_gain_s ch
  let c1 := (co - s.int FB.sc_off_c ch) * s.int FB.sc_gain_c ch
  (sat (rndShift (2 * c1 * s.int FB.sc_k1 ch - s1 * s.int FB.sc_k2 ch) 15) 32, s1)

/-- m of R154, code squared. -/
def ampOf (v : Int × Int) : Nat := (rndShift v.2 14 ^ 2 + rndShift v.1 14 ^ 2).toNat

/-- R156. -/
def State.inWindow (s : State) (ch m : Nat) : Bool :=
  let n := s.nat FB.amp_nom ch ^ 2
  s.nat FB.amp_lo ch * n ≤ 100 * m && 100 * m ≤ s.nat FB.amp_hi ch * n

/-- Step 1 of the calibration chain for a converter code of 16 bits (R128). Log entry 31. -/
def trimCode (tr : Trim) (raw : Int) : Int := sat (rndShift ((raw - tr.foff) * tr.fgain) 15) 16

/-- q′ and q of the coarse decisions of R157 for quadrant difference `d`, with the events and faults of the table.
A repaired skip carries the edge time of the skip; the previous sample is the last one inside the window. Log entry 235. -/
def State.coarse (ch theta : Nat) (d : Int) (s : State) : State × Int :=
  let f := s.fbOf ch
  let near := theta % 2 ^ 30 ≤ 2 ^ 26 ∨ 2 ^ 30 - 2 ^ 26 ≤ theta % 2 ^ 30
  if d = 0 then (s, f.q)
  else if d = 2 then
    if f.skipPending then
      let fwd := 0 ≤ wrapS ((theta : Int) - f.lastTheta) 32
      let q := if fwd then f.q + 2 else f.q - 2
      ((s.onFb ch (fun f => { f with q := q })).raise 0x02 (le 1 ch ++ le 1 1 ++ le 8 f.skipT), q)
    else (s.fbFault ch 4 0, f.q)
  else if near then (s, f.q + d)
  else
    let s := s.onFb ch (fun f => { f with q := f.q + d })
    ((s.raise 0x05 (le 1 ch ++ le 1 d ++ le 4 theta)).edgeError ch, f.q + d)

/-- R155: within 2^-24 turn of a step of f, f takes either neighbouring value, a free choice (log entry 6). -/
def State.fineShift (a64 l : Nat) (s : State) : Int × State :=
  let r := a64 % 2 ^ (64 - l)
  let side : Int := if r ≤ 2 ^ 40 then -1 else if 2 ^ (64 - l) - r ≤ 2 ^ 40 then 1 else 0
  if side = 0 then (0, s)
  else
    let (w, s) := s.free
    (if w.toNat % 2 = 1 then side else 0, s)

/-- A converted sample of a kind 2 channel, after fuse trims, taken at `t`. Log entries 30, 31. -/
def State.sinCosTake (t ch : Nat) (si co : Int) (s : State) : State :=
  let f := s.fbOf ch
  let v := s.sinCosVec ch si co
  let m := ampOf v
  if !s.inWindow ch m then
    let s := s.onFb ch (fun f => { f with outRun := f.outRun + 1, wasIn := false, skipPending := false })
    let s := if f.wasIn then s.raise 0x04 (le 1 ch ++ le 4 (satU m 32) ++ le 2 (s.nat FB.amp_nom ch)) else s
    if s.nat FB.amp_samples ch ≤ f.outRun + 1 then s.fbFault ch 3 (satU m 31) else s
  else
    let a64 := angle64 v.1 v.2
    let theta := a64 / 2 ^ 32
    let quad : Int := (theta / 2 ^ 30 : Nat)
    let l := s.nat FB.interp_log2 ch
    let s := if f.qAligned then s
      else s.onFb ch (fun f => { f with q := f.q + (quad - f.q % 4) })
    let q := (s.fbOf ch).q
    let d0 := (quad - q % 4) % 4
    let (s, q') := s.coarse ch theta (if d0 = 3 then -1 else d0)
    let (df, s) := s.fineShift a64 l
    let fi : Int := (theta / 2 ^ (32 - l) : Nat)
    let p := q' / 4 * 2 ^ l + fi + df
    let older : FbSnap := { count := f.count, turns := f.turns, pos := f.pos, time := f.posTime, amp := f.amp }
    let s := s.onFb ch (fun f => { f with
      outRun := 0, wasIn := true, skipPending := false, lastTheta := theta, amp := satU m 32, qPos := p, qAligned := true
      older := some older, valid := !f.fault })
    if f.qAligned then
      let s := s.countIn ch ((p - f.qPos) * s.dirOf ch) t
      s.onFb ch (fun f => { f with posTime := if f.fault then f.posTime else t })
    else s.onFb ch (fun f => { f with posTime := t })

/-! ### SSI (R158 to R164) -/

def State.ssiParityBits (s : State) (ch : Nat) : Nat := b2n (s.flag FB.flags 3 ch)

def State.ssiStatusBits (s : State) (ch : Nat) : Nat := s.nat FB.ssi_status ch % 8

/-- n of R158. -/
def State.ssiFrameBits (s : State) (ch : Nat) : Nat :=
  s.nat FB.ssi_bits ch + s.ssiStatusBits ch + s.ssiParityBits ch

/-- FB.ssi_max_step after its default. -/
def State.ssiMaxStep (s : State) (ch : Nat) : Nat :=
  let top := 2 ^ (s.nat FB.ssi_bits ch - 1) - 1
  if s.raw FB.ssi_max_step ch = 0 then min 1048576 top else s.nat FB.ssi_max_step ch

/-- Parity of the low `n` bits. -/
def parity (v : Nat) : Nat → Bool
  | 0 => false
  | n + 1 => xor (bit v n) (parity v n)

/-- A Gray-coded word of `n` bits as a number. -/
def unGray (v : Nat) : Nat → Nat
  | 0 => v
  | n + 1 => unGray v n ^^^ (v / 2 ^ (n + 1))

/-- The position word of a received frame (R159). -/
def State.ssiPosition (s : State) (ch word : Nat) : Nat :=
  let b := s.nat FB.ssi_bits ch
  let w := word / 2 ^ (s.ssiStatusBits ch + s.ssiParityBits ch) % 2 ^ b
  if s.flag FB.flags 2 ch then unGray w (b - 1) else w

/-- The increment of a word against the previous accepted word (R164). -/
def ssiIncrement (bits w prev : Nat) : Int :=
  let d := ((w : Int) - prev) % (2 ^ bits : Int)
  if 2 ^ (bits - 1) < d then d - 2 ^ bits else d

/-- The first check that fails, in the order of R164; 0 when all pass. Log entry 33. -/
def State.ssiCheck (s : State) (ch word : Nat) (lowFirst allHigh : Bool) : Nat :=
  let par := s.ssiParityBits ch
  let status := word / 2 ^ par % 2 ^ s.ssiStatusBits ch
  let mask := s.nat FB.ssi_status ch / 16
  if lowFirst || allHigh then 4
  else if par = 1 ∧ parity word (s.ssiFrameBits ch) then 1
  else if status &&& mask ≠ 0 then 2
  else match (s.fbOf ch).ssiLast with
    | none => 0
    | some prev =>
      if s.ssiMaxStep ch < (ssiIncrement (s.nat FB.ssi_bits ch) (s.ssiPosition ch word) prev).natAbs then 3 else 0

/-- FB.ssi_latch after its default. Log entry 19. -/
def State.ssiLatch (s : State) (ch : Nat) : Nat :=
  s.natOr FB.ssi_latch ch (s.ssiFrameBits ch * 2 * s.nat FB.ssi_div ch + 464)

/-- SSI_FRAME_START (R163): the first falling clock edge of a frame, FB.ssi_latch cycles before the next boundary.
Log entry 32. -/
def execSsiFrameStart (t ch : Nat) (s : State) : Answer :=
  let s := s.tick t
  if s.nat FB.kind ch = 3 ∧ !s.fbOff ∧ s.stage.running ∧ t + s.ssiLatch ch = s.nextBoundary
  then .next (s.onFb ch (fun f => { f with ssiStart := some t })) else .next s

/-- SSI_WORD (R164, R142): the last bit of a frame has arrived. While a feedback fault is latched a word that passes its
checks is not accepted: the count holds (R169) and the next accepted word counts against the last one (R172). Log entries
33, 236. Log entries 33, 236. -/
def execSsiWord (t ch word : Nat) (lowFirst allHigh : Bool) (s : State) : Answer :=
  let s := s.tick t
  let f := s.fbOf ch
  if s.clk.motionHeld then .next s
  else match f.ssiStart with
  | none => .next s
  | some t0 =>
    let s := s.onFb ch (fun f => { f with ssiStart := none })
    let cause := s.ssiCheck ch word lowFirst allHigh
    if cause ≠ 0 then
      let s := s.onFb ch (fun f => { f with ssiRejects := f.ssiRejects + 1 })
      let s := s.raise 0x06 (le 1 ch ++ le 1 cause ++ le 8 word)
      if 3 ≤ f.ssiRejects + 1 then .next (s.fbFault ch 5 0) else .next s
    else if f.fault then .next (s.onFb ch (fun f => { f with ssiRejects := 0 }))
    else
      let w := s.ssiPosition ch word
      let latch := t0 + f.ssiDelay / 2
      let inc : Int := match f.ssiLast with
        | none => w
        | some p => ssiIncrement (s.nat FB.ssi_bits ch) w p
      let s := s.onFb ch (fun f => { f with ssiRejects := 0, ssiLast := some w, ssiLatchTime := latch })
      let s := s.countIn ch (inc * s.dirOf ch) latch
      .next (s.onFb ch (fun g => { g with
        valid := !g.fault, posTime := if g.fault then g.posTime else latch
        edges := if f.ssiLast.isNone then [] else g.edges }))

/-- Insertion into a rising list. -/
def insertNat (x : Nat) : List Nat → List Nat
  | [] => [x]
  | y :: ys => if x ≤ y then x :: y :: ys else y :: insertNat x ys

def sortNat (l : List Nat) : List Nat := l.foldl (fun acc x => insertNat x acc) []

/-- SSI_DELAY_MEASURE (R161, R162): the 16 measured intervals in edge-clock cycles; none where the data line did not
fall. Log entry 32. -/
def execSsiDelayMeasure (t ch : Nat) (delays : List (Option Nat)) (s : State) : Answer :=
  let s := s.tick t
  if s.clk.motionHeld then .next s
  else
  if s.nat FB.kind ch ≠ 3 then .next s
  else
  let s := { s with wake := { s.wake with ssiMeasured := s.wake.ssiMeasured.set ch true } }
  if delays.any (·.isNone) ∨ delays.length ≠ 16 then
    .next ((s.raise 0x07 (le 1 ch ++ le 2 0xFFFF)).fbFault ch 6 0xFFFF)
  else
    let v := sortNat (delays.filterMap id)
    let d := (v.getD 7 0 + v.getD 8 0 + 1) / 2
    if 400 < d then .next ((s.raise 0x07 (le 1 ch ++ le 2 (satU d 16))).fbFault ch 6 d)
    else .next (s.onFb ch (fun f => { f with ssiDelay := d }))

/-! ### Speed and snapshot (R165 to R168) -/

/-- e0 of R165: edges before e1, newest first. -/
def speedRef (e1 : SpeedEdge) (w : Nat) (rest : List SpeedEdge) : Option SpeedEdge :=
  match (rest.takeWhile (fun e => e.dir == e1.dir && e1.t ≤ e.t + w)).getLast? with
  | some e => some e
  | none => match rest with
    | [] => none
    | e :: _ => if e.t + w < e1.t ∧ e.dir = e1.dir then some e else none

/-- The speed of R165 at boundary time `tb` before it is saturated, from the speed edges before `tb`. -/
def speedAt (n w stop tb : Nat) (edges : List SpeedEdge) : Int :=
  match edges.filter (fun e => e.t < tb) with
  | [] => 0
  | e1 :: rest =>
    if stop ≤ tb - e1.t then 0
    else
      let vb := e1.g * n * 65536 / (tb - e1.t)
      match speedRef e1 w rest with
      | some e0 => e1.dir * (min ((e1.p - e0.p).natAbs * n * 65536 / (e1.t - e0.t)) vb : Nat)
      | none => e1.dir * (vb : Nat)

/-- FB.speed_window after its default. -/
def State.speedWindow (s : State) (ch : Nat) : Nat :=
  if s.raw FB.speed_window ch = 0 then s.period else s.nat FB.speed_window ch

/-- A measured speed beyond its format: the axes that it serves fault (R127). -/
def State.speedSaturated (ch : Nat) (v : Int) (s : State) : State :=
  if sat v 64 = v then s
  else eachIx 12 (fun a s => if s.defined a && s.fbMotor a == some ch then s.axisSaturated a 1 v else s) s

/-- Latches one channel at a boundary at `tb` (R146, R165 to R169). Log entries 222, 238. -/
def State.latchFb (tb ch : Nat) (s : State) : State :=
  let s := if s.nat FB.kind ch = 1 || s.nat FB.kind ch = 2 then s.confirmDue tb ch else s
  let f := s.fbOf ch
  let prev := nth s.snap ch
  let u := if f.fault then 0 else speedAt s.period (s.speedWindow ch) (s.nat FB.stop_time ch) tb f.edges
  let s := s.speedSaturated ch u
  let f := s.fbOf ch
  let v := sat u 64
  let back := s.nat FB.kind ch = 2 ∧ tb < f.posTime + 200
  let (c, tu, p, ti, am) := match f.older with
    | some o => if back then (o.count, o.turns, o.pos, o.time, o.amp) else (f.count, f.turns, f.pos, f.posTime, f.amp)
    | none => (f.count, f.turns, f.pos, f.posTime, f.amp)
  let sn : FbSnap := {
    count := c, turns := tu, pos := p, speed := v, time := ti
    valid := if s.nat FB.kind ch = 1 then !f.fault else f.valid, fault := f.fault
    cause := if f.fault then f.cause else 0, neg := f.neg, indexSeen := f.indexSeen, skipPending := f.skipPending
    amp := am, edgeErr := satU (s.edgeErrCount ch) 16, word := f.ssiLast.getD 0 }
  let w := s.speedWindow ch
  let keep : List SpeedEdge := match f.edges with
    | [] => []
    | e1 :: rest => e1 :: (rest.takeWhile (fun e => e1.t ≤ e.t + w) ++ (rest.dropWhile (fun e => e1.t ≤ e.t + w)).take 1)
  { (s.onFb ch (fun f => { f with edges := keep })) with
    snapPrev := s.snapPrev.set ch prev, snap := s.snap.set ch sn }

/-- Clears a feedback fault (R171, R172). Log entry 229. -/
def State.clearFb (ch : Nat) (s : State) : State :=
  if !(s.fbOf ch).fault then s
  else
    let k := s.nat FB.kind ch
    let s := s.onFb ch (fun f => { f with
      fault := false, cause := 0, edgeErrs := [], mismatchRun := 0, ssiRejects := 0, edges := []
      valid := decide (k = 1 ∨ k = 2) })
    match k, s.fbOwner ch with
    | 3, _ => s
    | _, some a => s.setHomed a false
    | _, none => s

/-! ### Discrete inputs (R173 to R178, R746, R747) -/

def State.dinOf (s : State) (i : Nat) : Din := nth s.din i

/-- The raw level after DIN.polarity. -/
def State.dinRaw (s : State) (i : Nat) : Bool := xor (s.dinOf i).ball (s.nat DIN.polarity i == 2)

/-- The filtered level in the snapshot of the present Stage. -/
def State.dinActive (s : State) (i : Nat) : Bool := s.dinSnap.level.getD i false

/-- The filtered level in the snapshot before. -/
def State.dinWas (s : State) (i : Nat) : Bool := s.dinPrev.level.getD i false

/-- A filtered change of the input is new in the snapshot of the present Stage: taking its first level is none (R746). -/
def State.dinMoved (s : State) (i : Nat) : Bool := s.dinActive i != s.dinWas i && s.dinSnap.moved.getD i false

/-- An input named by an enumerated field, 0 for none. -/
def State.inputActive (s : State) (n : Nat) : Bool := n != 0 && s.dinActive (n - 1)

/-- The axis an input is bound to. -/
def State.dinAxis (s : State) (i : Nat) : Option Nat :=
  let a := s.nat DIN.axis i
  if a = 0 then none else some (a - 1)

/-- R747: the raw level has stood for DIN.stable cycles at cycle `t`, the present one included. Log entries 34, 268. -/
def State.dinStable (s : State) (t i : Nat) : Bool := (s.dinOf i).lastT + s.nat DIN.stable i ≤ t + 1

/-- R179: the axis an input is bound to makes a quick stop and latches it. -/
def State.chatterStop (i : Nat) (s : State) : State :=
  match s.dinAxis i with
  | none => s
  | some a =>
    let s := s.onBook a (fun b => { b with stopLatch := true })
    if (nth s.ax a).enabled then s.order a .held 3 else s

/-- DIN_RAW_TRANSITION (R174, R176 to R179, R328). -/
def execDinRawTransition (t din : Nat) (level : Bool) (s : State) : Answer :=
  let s := s.tick t
  let d := s.dinOf din
  if s.clk.motionHeld then .next (s.onDin din (fun d => { d with ball := level, lastT := if d.ball = level then d.lastT else t }))
  else if din < 64 ∧ d.ball ≠ level then
    let win := s.nat DIN.chatter_win din
    let times := t :: d.times.filter (fun x => t < x + win)
    let bound := (s.dinAxis din).isSome && s.nat DIN.role din ∈ [2, 3, 4, 5]
    let s := s.onDin din (fun d => { d with
      ball := level, lastT := t, trans := inc32 d.trans, times := times
      owed := if bound then d.owed ++ [t] else d.owed })
    if !d.chatter ∧ s.nat DIN.chatter_n din < times.length then
      let s := s.onDin din (fun d => { d with chatter := true })
      .next ((s.raise 0x10 (le 1 din ++ le 2 times.length)).chatterStop din)
    else .next s
  else .next s

/-- The filtered level takes the raw level as a filtered change, recording the raw edge time (R174). -/
def State.dinChange (i : Nat) (s : State) : State :=
  s.onDin i (fun d => { d with filt := s.dinRaw i, edgeT := d.lastT, moved := true })

/-- DIN_FIRST_LEVEL (R746): no filtered change, no raw edge time. -/
def execDinFirstLevel (t din : Nat) (s : State) : Answer :=
  let s := s.tick t
  let d := s.dinOf din
  if !s.clk.motionHeld ∧ !d.first ∧ !d.chatter ∧ s.dinStable t din then
    .next (s.onDin din (fun d => { d with first := true, filt := s.dinRaw din }))
  else .next s

/-- The discrete inputs as a boundary latches them (R175). -/
def State.latchDin (s : State) : State :=
  { s with
    dinPrev := s.dinSnap
    din := s.din.map (fun d => { d with moved := false })
    dinSnap := {
      level := s.din.map (·.filt), moved := s.din.map (·.moved), raw := s.din.map (·.ball), chatter := s.din.map (·.chatter)
      edgeT := s.din.map (·.edgeT) } }

/-! ### Analogue inputs (R133, R134) -/

/-- One step of the chain saturated to s24, with its event on saturation. -/
def State.ainStep (i step : Nat) (raw v : Int) (s : State) : State × Int × Bool :=
  let y := sat v 24
  if y = v then (s, y, false)
  else (s.raise 0xE9 (le 1 i ++ le 1 step ++ le 2 raw), y, true)

/-- The temperature of R133 as the boundary that opens a Stage latches it (R134): what the Steward published of the motion
die; 25 °C, no correction, until it has published one (R132), and held while the Steward link has failed. Log entry 241. -/
def State.latchTemp (s : State) : State :=
  if (nth s.links 0).failed ∨ s.purse.temps = [] then s
  else { s with t16 := s.purse.dieT 0 }

/-- The raw code of an input: the mean, rounded half to even, of the 16 conversions that end last before the boundary (R707).
Log entry 264. -/
def rawCode (conv : List Int) : Int := if conv = [] then 0 else rndDiv conv.sum conv.length

/-- The conversions of input `i` since the boundary before are kept, and its raw code passes the four steps of R133.
Log entry 264. -/
def State.ainTake (i : Nat) (new : List Int) (s : State) : State :=
  let conv := (new.reverse ++ (nth s.ain i).conv).take 16
  let raw := rawCode conv
  let tr := nth s.trims i
  let (s, x1, f1) := s.ainStep i 1 raw (rndShift ((raw - tr.foff) * tr.fgain) 7)
  let (s, x2, f2) := s.ainStep i 2 raw (rndShift ((x1 - s.int ANALOG.offset i) * s.int ANALOG.gain i) 24)
  let (s, x3, f3) := s.ainStep i 3 raw (if s.nat ANALOG.role i = 1 then x2 - s.int ANALOG.tare i else x2)
  let k := 2 ^ 32 + s.int ANALOG.tc i * (s.t16 - 400)
  let (s, y, f4) := s.ainStep i 4 raw (rndShift (x3 * k) 32)
  { s with ain := s.ain.set i { raw := raw, x1 := x1, x2 := x2, x3 := x3, y := y, sat := f1 || f2 || f3 || f4, conv := conv } }

/-! ### Encoder emulation (R182 to R185) -/

/-- The position an emulator follows: a channel, an axis, or an axis set-point in effect in the Stage that ends. -/
def State.emuSource (s : State) (e : Nat) : Int :=
  let i := s.nat EMU.index e
  match s.nat EMU.source e with
  | 1 => (nth s.snap i).pos
  | 2 => (nth s.book i).pf
  | _ => (nth s.axe i).pRef

/-- The backlog of one emulator at a boundary and its steps for the Stage that opens. -/
def State.emuBoundary (e : Nat) (s : State) : State :=
  let m := nth s.emu e
  if s.nat EMU.source e = 0 then s
  else
    let src := s.emuSource e
    let d := if s.nat EMU.source e = 1 then src - m.lastSrc else s.modDelta (s.nat EMU.index e) (src - m.lastSrc)
    let y := rstep (sat d 48) (s.int EMU.num e) (s.nat EMU.den e) m.rem
    let dc := if s.flag EMU.flags 1 e then -y.1 else y.1
    let bl := sat (m.backlog + dc) 32
    let span := s.period - s.slew
    let n := min bl.natAbs (span / s.nat EMU.min_space e)
    let ovr := s.nat EMU.backlog_max e < bl.natAbs
    let m' : Emu := { m with
      backlog := bl, rem := y.2, lastSrc := src, stepsLeft := if m.fault || ovr then 0 else n, stepsDone := 0
      spacing := if n = 0 then 0 else span / n, fault := m.fault || ovr }
    let s := { s with emu := s.emu.set e m' }
    if ovr ∧ !m.fault then s.raise 0x20 (le 1 e ++ le 4 bl) else s

/-- EMU_STEP (R183, R184). The emitted count stops at the ends of its format (R107, R109); the lines go on (log entry 237). -/
def execEmuStep (t emu : Nat) (s : State) : Answer :=
  let s := s.tick t
  let m := nth s.emu emu
  if s.clk.motionHeld ∨ m.stepsLeft = 0 ∨ m.fault ∨ t < s.stage.openedAt + (m.stepsDone + 1) * m.spacing then .next s
  else
    let d := sgn m.backlog
    let c := (clamp ((m.count : Int) + d) 0 (2 ^ 32 - 1)).toNat
    let ph := (((m.ph : Int) + d) % 4).toNat
    let m' : Emu := { m with
      count := c, ph := ph, backlog := m.backlog - d, stepsLeft := m.stepsLeft - 1, stepsDone := m.stepsDone + 1
      a := ph == 1 || ph == 2, b := ph == 2 || ph == 3
      z := s.flag EMU.flags 0 emu && c % (4 * s.nat EMU.lines emu) == 0 }
    .next { s with emu := s.emu.set emu m' }

/-- Clears an emulator's fault (R171, R185). -/
def State.clearEmu (e : Nat) (s : State) : State :=
  { s with emu := s.emu.modify e (fun m => if m.fault then { m with fault := false, backlog := 0, stepsLeft := 0 } else m) }

end Sys2Proof.Machine
end

