-- ==== Sys2Proof/Machine/Current.lean ====
section
/-! DEFINITION. The Current Engine of chapter 05: estimates, set-points, the time-of-crossing decisions, edges, gates,
band width, centre offset and current faults. Times are in ticks of 312.5 ps, eight to an edge-clock cycle. -/

namespace Sys2Proof.Machine

def State.chOf (s : State) (c : Nat) : Chan := nth s.ch c

def State.caxOf (s : State) (a : Nat) : CurAx := nth s.cax a

/-! ### Resources (R190, R191) -/

/-- Half-bridges of a kind. -/
def kindHbs (k : Nat) : Nat := match k with | 1 => 3 | 2 => 4 | 3 => 2 | _ => 0

/-- Current channels of a kind. -/
def kindChs (k : Nat) : Nat := match k with | 1 => 3 | 2 => 2 | 3 => 1 | _ => 0

/-- Engines of a kind: one vector, one per stepper phase, one scalar. -/
def kindEngs (k : Nat) : Nat := match k with | 1 => 1 | 2 => 2 | 3 => 1 | _ => 0

def State.phBase (s : State) (a : Nat) : Nat := s.nat CURRENT.ph_base a

/-- The axis that claims a channel. -/
def State.claims (s : State) (a c : Nat) : Bool :=
  s.phBase a ≤ c && c < s.phBase a + kindChs (s.kind a)

def State.claimOf (s : State) (c : Nat) : Option Nat := (List.range 12).find? (fun a => s.claims a c)

/-- The half-bridges of one engine of an axis, counted from the axis's first. -/
def engHbs (k e : Nat) : List Nat :=
  match k with | 1 => [0, 1, 2] | 2 => [2 * e, 2 * e + 1] | 3 => [0, 1] | _ => []

/-- The engine that a channel of an axis belongs to. -/
def engOfCh (k c : Nat) : Nat := if k = 2 then c else 0

/-! ### Bridge states (R204) -/

/-- Voltage vector of a state, s16.14 of the bus voltage. State 8, all gates off, counts as a zero-voltage state. -/
def uVec (k p : Nat) : Int × Int :=
  if k = 1 then
    match p with
    | 1 => (-5461, -9459) | 2 => (-5461, 9459) | 3 => (-10923, 0)
    | 4 => (10923, 0) | 5 => (5461, -9459) | 6 => (5461, 9459) | _ => (0, 0)
  else match p with | 1 => (16384, 0) | 2 => (-16384, 0) | _ => (0, 0)

/-- Half-bridge levels of a state, in the engine's order. Log entry 47. -/
def levelsOf (k p : Nat) : List Bool :=
  if k = 1 then (if p = 8 then [false, false, false] else [bit p 2, bit p 1, bit p 0])
  else match p with | 1 => [true, false] | 2 => [false, true] | _ => [false, false]

/-! ### Gates and faults (R226 to R229) -/

/-- Both gates of a half-bridge off at tick `t`. Log entry 47. -/
def HalfBr.off (t : Nat) (b : HalfBr) : HalfBr :=
  { b with gateH := false, gateL := false, onAt := none, due := none,
           hAt := if b.gateH then t else b.hAt, lAt := if b.gateL then t else b.lAt,
           offSince := if b.gateH || b.gateL then t else b.offSince }

/-- The axis stops being active: every gate off, scheduled edges discarded (R226). -/
def State.gatesOff (a t : Nat) (s : State) : State :=
  s.onCax a (fun x => { x with
    active := false, wholeStage := false
    brs := x.brs.map (HalfBr.off t), engs := List.replicate 2 {} })

/-- A current fault of an axis with cause `k` (R227, R229). `src` is the channel or half-bridge of the event, `detail`
its detail. A cause latched already is not raised again. Log entry 46. -/
def State.currentFault (a t k src : Nat) (detail : Int) (s : State) : State :=
  let s := s.gatesOff a t
  let s := s.onCax a (fun x => { x with
    causes := setBit x.causes k true, cause := if x.causes = 0 then k else x.cause, faults := inc32 x.faults })
  let s := s.raise 0x30 (le 1 a ++ le 1 k ++ le 1 src ++ le 4 detail)
  s.axisFault a 3 k

/-- A channel cause: it latches in the channel and faults the claiming axis. Log entry 46. -/
def State.channelFault (c t k : Nat) (detail : Int) (s : State) : State :=
  match s.claimOf c with
  | none => s
  | some a =>
    if bit (s.chOf c).causes k then s
    else (s.onCh c (fun x => { x with fault := true, causes := setBit x.causes k true })).currentFault a t k c detail

/-- Clears the current faults of an axis and its channels (R228). -/
def State.clearCurrent (a : Nat) (s : State) : State :=
  let s := s.onCax a (fun x => { x with causes := 0, cause := 0 })
  eachIx (kindChs (s.kind a)) (fun i s => s.onCh (s.phBase a + i) (fun x => { x with
    fault := false, causes := 0, ocRun := 0, sumRun := 0, equalRun := 0, codeWin := [], ofsRun := 0 })) s

/-! ### Estimates (R194 to R198) -/

/-- Sums of `k` successive entries, one for each of the first `m` starts. -/
def windowSums (k m : Nat) (l : List Int) : List Int := (List.range m).map (fun i => ((l.drop i).take k).sum)

/-- w2 of R195 from the bits before bit n, newest first. -/
def fastSum (prev : List Int) : Int := (windowSums 16 16 prev).sum

/-- y3 of R195 from the bits before bit n, newest first. -/
def accSum (osr : Nat) (prev : List Int) : Int :=
  (windowSums osr osr (windowSums osr (2 * osr - 1) prev)).sum

/-- a_raw of R195. -/
def accRaw (r : Nat) (prev : List Int) : Int :=
  let y := accSum (2 ^ r) prev
  sat (if 3 * r ≤ 23 then y * 2 ^ (23 - 3 * r) else rndShift y (3 * r - 23)) 24

/-- Step 2 of the chain (R197). -/
def State.fixedOfs (s : State) (c : Nat) (x : Int) : Int := sat (x - s.int CURRENT.fixed_ofs c) 24

/-- The Clarke transform of R207. Log entry 43. -/
def clarke (ia ib ic : Int) : Int × Int :=
  (sat (rndShift ((2 * ia - ib - ic) * 1431655765) 32) 24, sat (rndShift ((ib - ic) * 2479700525) 32) 24)

/-- Component values of an engine at its last fast estimates, newest first. Log entry 43. -/
def State.compHist (s : State) (a e : Nat) : List (Int × Int) :=
  let b := s.phBase a
  match s.kind a with
  | 1 =>
    ((s.chOf b).fHist.zip ((s.chOf (b + 1)).fHist.zip (s.chOf (b + 2)).fHist)).map (fun x => clarke x.1 x.2.1 x.2.2)
  | 2 => (s.chOf (b + e)).fHist.map (fun f => (f, 0))
  | _ => (s.chOf b).fHist.map (fun f => (f, 0))

/-- d_meas of R203. -/
def dMeas (h : List (Int × Int)) : Int × Int :=
  let n := h.take 4
  let o := (h.drop 4).take 4
  ((n.map (·.1)).sum - (o.map (·.1)).sum, (n.map (·.2)).sum - (o.map (·.2)).sum)

/-! ### Set-points (R200 to R202) -/

/-- The set-point record an axis controller commits (R200): components saturate at ±CURRENT.i_max. -/
def State.commitSp (a : Nat) (id iq : Int) (theta0 : Nat) (omega : Int) (s : State) : State :=
  let m := s.int CURRENT.i_max a
  let x := s.caxOf a
  let d := clamp id (-m) m
  let q := clamp iq (-m) m
  let s := if d ≠ id ∧ !x.satD then s.raise 0x34 (le 1 a ++ le 1 0 ++ le 4 id) else s
  let s := if q ≠ iq ∧ !x.satQ then s.raise 0x34 (le 1 a ++ le 1 1 ++ le 4 iq) else s
  let s := s.onCax a (fun x => { x with satD := decide (d ≠ id), satQ := decide (q ≠ iq) })
  s.onAx a (fun x => { x with sp := { id := d, iq := q, theta0 := theta0, omega := sat omega 32 } })

/-- cs and sn of R201 for an electrical angle. -/
def csSn (theta : Nat) : Int × Int := cosSin (((rndShift theta 12) % 2 ^ 20).toNat * 2 ^ 12) 22

/-- The set-points of tick `k` of an axis, with their slope (R201, R202): a stepper's phases each with the bit period of its
own channel. Log entry 242. -/
def State.tickSp (s : State) (a k t : Nat) : TickRec :=
  let x := s.caxOf a
  let theta := wrapU ((x.sp.theta0 : Int) + k * x.sp.omega) 32
  let (cs, sn) := csSn theta
  let kd := s.kind a
  let d := if kd = 1 then sat (x.sp.id + x.c0) 24 else x.sp.id
  let q := if kd = 1 then sat (x.sp.iq + x.c1) 24 else x.sp.iq
  let sa := if kd = 3 then x.sp.iq else sat (rndShift (d * cs - q * sn) 22) 24
  let sb := if kd = 3 then 0 else sat (rndShift (d * sn + q * cs) 22) 24
  let tb := (s.chOf (s.phBase a)).tb
  let tbB := if kd = 2 then (s.chOf (s.phBase a + 1)).tb else tb
  let (da, db) := match x.ticks with
    | [] => (0, 0)
    | p :: _ => (divMag ((sa - p.a) * tb) 200, divMag ((sb - p.b) * tbB) 200)
  { t := t, a := sa, b := sb, theta := theta, id := x.sp.id, iq := x.sp.iq, dsA := da, dsB := db }

/-- The last tick at or before an instant. Log entry 36. -/
def tickBefore (l : List TickRec) (t : Int) : TickRec :=
  match l.find? (fun r => (r.t : Int) ≤ t) with
  | some r => r
  | none => l.getLast?.getD {}

/-- The set-point at an instant: the tick's, moved at the slope since the tick, or before it where a decision at the tick
rests on an earlier bit (R202, R208). Log entry 36. -/
def TickRec.at (r : TickRec) (tb : Nat) (t : Int) : Int × Int :=
  if tb = 0 then (r.a, r.b)
  else (r.a + divMag (r.dsA * (t - r.t)) (16 * tb), r.b + divMag (r.dsB * (t - r.t)) (16 * tb))

/-- The component that an engine follows. -/
def engComp (k e : Nat) (v : Int × Int) : Int × Int := if k = 1 then v else if e = 1 then (v.2, 0) else (v.1, 0)

/-- A scalar engine's set-point with its centre offset (R224): s + sgn(s) c. -/
def CurAx.centred (x : CurAx) (k e : Nat) (v : Int) : Int :=
  v + sgn v * (if k = 2 then (if e = 0 then x.c0 else x.c1) else x.c1)

/-! ### Slopes and gain (R203 to R206) -/

/-- Model slope of state j from the slope of state p (R204), s32.4. Log entry 47. -/
def modelSlope (k g : Nat) (p j : Nat) (d : Int × Int) : Int × Int :=
  let up := uVec k p
  let uj := uVec k j
  (sat (d.1 + rndShift (g * (uj.1 - up.1)) 14) 32, sat (d.2 + rndShift (g * (uj.2 - up.2)) 14) 32)

/-- The upper end of the clamp of G, within u32.4 (R205). -/
def State.gainTop (s : State) (a : Nat) : Nat := satU (s.nat CURRENT.g_init a * 4) 32

/-- A new slope gain with its limit event (R205, R206). -/
def State.setGain (a g : Nat) (s : State) : State :=
  let gi := s.nat CURRENT.g_init a
  let end_ : Option Nat := if g ≤ gi / 4 then some 0 else if s.gainTop a ≤ g then some 1 else none
  let was := (s.caxOf a).gainEnd
  let s := s.onCax a (fun x => { x with g := g, gainEnd := end_ })
  match end_ with
  | some e => if was = some e then s else s.raise 0x33 (le 1 a ++ le 1 e ++ le 4 g)
  | none => s

/-- R205. -/
def State.gainUpdate (a i j : Nat) (di dj : Int × Int) (s : State) : State :=
  let k := s.kind a
  let g : Int := (s.caxOf a).g
  let du : Int × Int := (sat ((uVec k j).1 - (uVec k i).1) 16, sat ((uVec k j).2 - (uVec k i).2) 16)
  let ra := sat (dj.1 - di.1 - rndShift (g * du.1) 14) 32
  let rb := sat (dj.2 - di.2 - rndShift (g * du.2) 14) 32
  let gi : Int := s.int CURRENT.g_init a
  let g' := clamp (g + rndShift (ra * du.1 + rb * du.2) (14 + s.nat CURRENT.g_shift a)) (gi / 4) (s.gainTop a)
  s.setGain a g'.toNat

def State.onEng (a e : Nat) (f : Eng → Eng) (s : State) : State :=
  s.onCax a (fun x => { x with engs := x.engs.modify e f })

def State.engOf (s : State) (a e : Nat) : Eng := nth (s.caxOf a).engs e

/-- The present state of an engine. -/
def Eng.head (g : Eng) : Applied := g.applied.headD {}

/-- The slope of the present state at bit instant `tn`: measured once valid, with the gain update (R203, R205). -/
def State.refreshSlope (a e tn tb delay : Nat) (s : State) : State :=
  let g := s.engOf a e
  let h := g.head
  if h.p = 8 ∨ tn < h.at_ + 38 * tb + delay then s
  else
    let d := dMeas (s.compHist a e)
    let s := s.onEng a e (fun g => { g with applied := { h with da := d.1, db := d.2, valid := true } :: g.applied.drop 1 })
    match h.valid, g.prevMeas with
    | false, some (i, dia, dib) => s.gainUpdate a i h.p (dia, dib) d
    | _, _ => s

/-! ### Prediction (R207, R208) -/

/-- Σ d_k τ_k over the applied states, newest first, from `lo` up to `hi`. -/
def slopeSum (lo : Int) : Int → List Applied → Int × Int
  | _, [] => (0, 0)
  | hi, x :: xs =>
    let from_ : Int := max lo x.at_
    let tau := if from_ < hi then hi - from_ else 0
    let r := slopeSum lo (min hi from_) xs
    (x.da * tau + r.1, x.db * tau + r.2)

/-- î0 of R207. -/
def State.predict (s : State) (a e tn tb delay : Nat) : Int × Int :=
  let f := (s.compHist a e).headD (0, 0)
  let lo : Int := (tn : Int) - 16 * tb - delay
  let sm := slopeSum lo tn (s.engOf a e).applied
  (f.1 + divMag sm.1 (16 * tb), f.2 + divMag sm.2 (16 * tb))

/-! ### Scheduling (R215, R216) -/

/-- Schedules an edge for a decision that completes at `done`: it replaces an edge that fires later than that.
Log entries 37, 39. -/
def State.schedule (a e : Nat) (t : Int) (done p : Nat) (d : Int × Int) (s : State) : State :=
  let late := t < (done : Int) + 8
  let sc : Sched := { t := if late then done + 8 else t.toNat, p := p, late := decide late, da := d.1, db := d.2 }
  s.onEng a e (fun g => match g.sched with
    | some o => if o.t ≤ done then g else { g with sched := some sc }
    | none => { g with sched := some sc })

/-- A condition as a decision at `t` finds it: a span opens, goes on or ends. Spans that no kernel reaches are dropped. -/
def Spans.note (t : Nat) (now : Bool) (p : Spans) : Spans :=
  let l := if p.on then p.l.modify 0 (fun x => (x.1, t)) else if now then (t, t) :: p.l else p.l
  { l := l.filter (fun x => t < x.2 + 2 ^ 20), on := now }

/-- A span meets the times `lo` to `hi`. -/
def Spans.meets (lo hi : Int) (p : Spans) : Bool :=
  p.l.zipIdx.any (fun (x, i) => decide ((x.1 : Int) ≤ hi) && (decide (lo ≤ (x.2 : Int)) || (p.on && i == 0)))

/-- Whether a decision of an engine was voltage-limited (R213, R225). Log entry 45. -/
def State.voltNote (a e t : Nat) (limited : Bool) (s : State) : State :=
  (s.onEng a e (fun g => { g with vlim := g.vlim.note t limited })).onCax a (fun x => { x with vlimNow := x.vlimNow || limited })

/-! ### Scalar band (R210) -/

/-- The state that the scalar table gives for a crossing at e = +h (`low`: the current is below its band) or −h. -/
def scalarChoice (low : Bool) (sp : Int) (fast : Bool) : Nat :=
  if 0 ≤ sp then (if low then 1 else if fast then 2 else 0)
  else (if low then (if fast then 1 else 0) else 2)

/-- A scalar decision at instant `base` on the bit of instant `tn`. Log entries 37, 38, 39. -/
def State.decideScalar (a e base tn tb delay : Nat) (start : Bool) (s : State) : State :=
  let k := s.kind a
  let x := s.caxOf a
  let r := tickBefore x.ticks base
  let sp := (engComp k e (r.at tb tn)).1
  let ds := (engComp k e (r.dsA, r.dsB)).1
  let done := base + 80
  let zero : Bool := sp == 0 && s.flag CURRENT.flags 1 a
  let s := s.onEng a e (fun g => { g with zero := g.zero.note base zero })
  if zero then
    if (s.engOf a e).head.p = 8 then s else s.schedule a e (done + 8) done 8 (0, 0)
  else
    let h := (s.engOf a e).head
    let er := x.centred k e sp - (s.predict a e tn tb delay).1
    let dp := if start then ds else h.da
    let ep := ds - dp
    let outside := start || decide ((x.h : Int) ≤ er.natAbs)
    if !outside && ep == 0 then s.voltNote a e base false
    else
      let low := if outside then decide (0 ≤ er) else decide (0 < ep)
      let delta : Int := if outside then 0 else divMag (16 * ((x.h : Int) - sgn ep * er) * tb) ep.natAbs
      let j := scalarChoice low sp (s.flag CURRENT.flags 0 a)
      let d := modelSlope k x.g h.p j (dp, 0)
      let ej := ds - d.1
      let s := s.voltNote a e base ((low && decide (0 < ej)) || (!low && decide (ej < 0)))
      if j = h.p && !start then s
      else s.schedule a e ((tn : Int) + delta - s.nat CURRENT.gate_delay a) done j d

/-! ### Vector band (R211, R212) -/

/-- The half-bridges that differ between two states. -/
def changed (k p j : Nat) : List Nat :=
  (List.range 3).filter (fun i => (levelsOf k p).getD i false != (levelsOf k j).getD i false)

/-- Least shift that brings every component below 2^19. -/
def leastShift (l : List Int) : Nat → Nat → Nat
  | 0, sh => sh
  | n + 1, sh => if l.all (fun v => (rndShift v sh).natAbs < 2 ^ 19) then sh else leastShift l n (sh + 1)

/-- A candidate state with its error slope, q and n2 of R212. -/
structure Cand where
  j : Nat
  d : Int × Int
  q : Int
  n2 : Int
  moves : Nat
  deriving DecidableEq, Repr, Inhabited

/-- The better of two candidates under an order of dwell, ties to fewest changes, then to the lower state. Log entry 41. -/
def Cand.better (lt : Cand → Cand → Bool) (x y : Cand) : Cand :=
  if lt x y then y else if lt y x then x else if y.moves < x.moves then y else x

def bestCand (lt : Cand → Cand → Bool) : List Cand → Option Cand
  | [] => none
  | c :: cs => some (cs.foldl (Cand.better lt) c)

/-- The choice of R212, with whether it was voltage-limited. Log entries 41, 42. -/
def State.vectorChoice (s : State) (a t : Nat) (p : Nat) (dp ds ex : Int × Int) : Option (Nat × (Int × Int) × Bool) :=
  let x := s.caxOf a
  let mp := 8 * s.nat CURRENT.min_pulse a
  let js := (List.range 8).filter (fun j => j != p)
  let de (j : Nat) : Int × Int := let d := modelSlope 1 x.g p j dp; (sat (ds.1 - d.1) 32, sat (ds.2 - d.2) 32)
  let ds' := js.map de
  let sh := leastShift (ds'.map (·.1) ++ ds'.map (·.2)) 64 0
  let cands := (js.filter (fun j => (changed 1 p j).all (fun i => (nth x.brs i).since + mp ≤ t))).map (fun j =>
    let d := modelSlope 1 x.g p j dp
    let a := rndShift (de j).1 sh
    let b := rndShift (de j).2 sh
    ({ j := j, d := d, q := -(ex.1 * a + ex.2 * b), n2 := a ^ 2 + b ^ 2, moves := (changed 1 p j).length } : Cand))
  match bestCand (fun u v => u.q * v.n2 < v.q * u.n2) (cands.filter (fun c => 0 < c.q)) with
  | some c => some (c.j, c.d, false)
  | none => match bestCand (fun u v => u.q < v.q) cands with
    | some c => some (c.j, c.d, true)
    | none => none

/-- A vector decision (R211, R214). Log entries 37, 40. -/
def State.decideVector (a base tn tb delay : Nat) (start : Bool) (s : State) : State :=
  let x := s.caxOf a
  let r := tickBefore x.ticks base
  let sp := r.at tb tn
  let ds := (r.dsA, r.dsB)
  let i0 := s.predict a 0 tn tb delay
  let e := (sp.1 - i0.1, sp.2 - i0.2)
  let h := (s.engOf a 0).head
  let dp := if start then ds else (h.da, h.db)
  let ep := (ds.1 - dp.1, ds.2 - dp.2)
  let gd := s.nat CURRENT.gate_delay a
  let hh := tb + gd
  let eh := (e.1 + divMag (ep.1 * hh) (16 * tb), e.2 + divMag (ep.2 * hh) (16 * tb))
  let r0 := e.1 ^ 2 + e.2 ^ 2
  let rH := eh.1 ^ 2 + eh.2 ^ 2
  let h2 : Int := (x.h : Int) ^ 2
  let delta : Option Int := if start ∨ h2 ≤ r0 then some 0 else if h2 ≤ rH then some ((h2 - r0) * hh / (rH - r0)) else none
  match delta with
  | none => s.voltNote a 0 base false
  | some dl =>
    let ex := (e.1 + divMag (ep.1 * dl) (16 * tb), e.2 + divMag (ep.2 * dl) (16 * tb))
    match s.vectorChoice a base h.p dp ds ex with
    | none => s.voltNote a 0 base false
    | some (j, d, limited) => (s.voltNote a 0 base limited).schedule a 0 ((tn : Int) + dl - gd) (base + 80) j d

/-- R214: an engine that becomes active begins in a zero-voltage state whose slope is that of the set-point. Log entry 47. -/
def State.startEng (a e base : Nat) (s : State) : State :=
  let r := tickBefore (s.caxOf a).ticks base
  let ds := engComp (s.kind a) e (r.dsA, r.dsB)
  s.onEng a e (fun g => { g with applied := [{ at_ := base, p := 8, da := ds.1, db := ds.2 }] })

/-- A decision of one engine of an active axis at instant `base`, on the newest bit of channel `c` (R207, R210 to R215).
Log entry 242. -/
def State.bridgeDecide (a e c base : Nat) (s : State) : State :=
  let ch := s.chOf c
  let x := s.caxOf a
  match x.active, ch.times with
  | true, tn :: _ =>
    if ch.tb = 0 ∨ ch.times.length < 17 then s
    else
      let delay := s.nat CURRENT.mod_delay c
      let s := s.refreshSlope a e tn ch.tb delay
      let start := (s.engOf a e).applied.isEmpty
      let s := if start then s.startEng a e base else s
      if s.kind a = 1 then s.decideVector a base tn ch.tb delay start
      else s.decideScalar a e base tn ch.tb delay start
  | _, _ => s

/-! ### Bits -/

/-- a_n at a bit whose number is a multiple of OSR (R195, R197). -/
def State.accNow (s : State) (c : Nat) : Int :=
  sat (s.fixedOfs c (accRaw (s.nat CURRENT.osr_log2 c) ((s.chOf c).bits.drop 1)) - (s.chOf c).ofs) 24

/-- An accurate estimate is due at the channel's newest bit and not yet formed. -/
def State.accDue (s : State) (c : Nat) : Bool :=
  let x := s.chOf c
  x.n != 0 && x.n % 2 ^ s.nat CURRENT.osr_log2 c == 0 && x.n != x.accN

/-- The fault checks of a bit (R229, causes 1 to 6), in ascending order. -/
def State.bitFaults (c t : Nat) (s : State) : State :=
  match s.claimOf c with
  | none => s
  | some a =>
    let x := s.chOf c
    let oc := if s.nat CURRENT.oc_fast c ≤ x.f.natAbs then x.ocRun + 1 else 0
    let b := s.phBase a
    let sum := (s.chOf b).f + (s.chOf (b + 1)).f + (s.chOf (b + 2)).f
    let sr := if s.kind a = 1 ∧ s.nat CURRENT.sum_limit a ≤ sum.natAbs then x.sumRun + 1 else 0
    let s := s.onCh c (fun x => { x with ocRun := oc, sumRun := sr })
    let s := if s.nat CURRENT.oc_n a ≤ oc then s.channelFault c t 1 x.f else s
    let s := if s.accDue c ∧ s.nat CURRENT.oc_slow c ≤ (s.accNow c).natAbs then s.channelFault c t 2 (s.accNow c) else s
    let rate : Int := (x.tb : Int) * s.int CURRENT.mod_rate c - 3200000000
    let s := if 17 ≤ x.times.length ∧ 160000000 < rate.natAbs then s.channelFault c t 3 x.tb else s
    let s := if s.nat CURRENT.form c = 3 ∧ 4 ≤ (x.codeWin.filter id).length
      then s.channelFault c t 4 x.codeErrors else s
    let s := if 64 ≤ x.equalRun then s.channelFault c t 5 (x.bits.headD 1) else s
    if s.nat CURRENT.sum_n a ≤ sr then s.channelFault c t 6 sum else s

/-- A bit of value `b` at instant `tn` enters its channel: estimates and bit period (R194 to R197). Log entry 7. -/
def State.takeBit (c tn : Nat) (b : Int) (s : State) : State :=
  let x := s.chOf c
  let (tb, s) := match x.times[15]? with
    | some t0 => (satU ((tn - t0) / 16) 16, s)
    | none => let (w, s) := s.free; (w.toNat % 2 ^ 16, s)
  let f0 := s.fixedOfs c (sat (fastSum x.bits * 2 ^ 15) 24)
  let f := sat (f0 - x.ofs) 24
  let acq := (match s.acq.from_ with | some n => decide (n ≤ s.stage.boundaries) | none => false) && !s.acq.done
  s.onCh c (fun x => { x with
    bits := (b :: x.bits).take (3 * 2 ^ s.nat CURRENT.osr_log2 c), n := x.n + 1, times := (tn :: x.times).take 17
    tb := tb, f0 := f0, f := f, fHist := (f :: x.fHist).take 8
    equalRun := if x.bits.head? = some b then x.equalRun + 1 else 1
    acqSum := if acq then x.acqSum + f0 else x.acqSum, acqCount := if acq then x.acqCount + 1 else x.acqCount })

/-- MODULATOR_BIT (R192 to R196, R203 to R216, R229). `bit` is the data level, none for a Manchester cell without a
transition (R193), whose instant is the previous one plus Tb; `rising` is the edge of PHn_CK at which it stood, of which
forms 1 and 2 each take one. Log entry 7. -/
def execModulatorBit (ticks ch : Nat) (bit : Sample) (s : State) : Answer :=
  let s := s.tick (ticks / 8)
  if s.clk.motionHeld then .next s
  else
  let form := s.nat CURRENT.form ch
  if form = 0 ∨ 36 ≤ ch ∨ (bit.bit = none ∧ form ≠ 3) ∨ (form = 1 ∧ !bit.rising) ∨ (form = 2 ∧ bit.rising) then .next s
  else
    let x := s.chOf ch
    let tn := match bit.bit with
      | some _ => ticks
      | none => x.times.headD 0 + x.tb
    let b : Int := match bit.bit with
      | some v => if v then 1 else -1
      | none => x.bits.headD (-1)
    let s := s.onCh ch (fun x => { x with
      codeErrors := if bit.bit = none then inc32 x.codeErrors else x.codeErrors
      codeWin := if form = 3 then ((bit.bit == none) :: x.codeWin).take 256 else x.codeWin })
    let s := s.takeBit ch tn b
    let s := s.bitFaults ch tn
    match s.claimOf ch with
    | none => .next s
    | some a => .next (s.bridgeDecide a (engOfCh (s.kind a) (ch - s.phBase a)) ch tn)

/-! ### Accurate estimates and the centre offset (R195, R196, R224, R225) -/

/-- The centre offset limited to ±(h >> 1). -/
def CurAx.addCentre (x : CurAx) (second : Bool) (step : Int) : CurAx :=
  let m : Int := (x.h / 2 : Nat)
  if second then { x with c1 := clamp (x.c1 + step) (-m) m } else { x with c0 := clamp (x.c0 + step) (-m) m }

/-- R224 for the channel whose accurate estimate was formed at bit instant `tn`. Log entries 44, 45. -/
def State.centreUpdate (a c tn : Nat) (s : State) : State :=
  let x := s.caxOf a
  let ch := s.chOf c
  let osr := 2 ^ s.nat CURRENT.osr_log2 c
  let delay := s.nat CURRENT.mod_delay c
  let at_ : Int := (2 * (tn : Int) - (3 * osr - 1 : Nat) * ch.tb) / 2 - delay
  let from_ : Int := (tn : Int) - (3 * osr - 2 : Nat) * ch.tb - delay
  let to_ : Int := (tn : Int) - ch.tb - delay
  let k := s.kind a
  let bad := decide (from_ < (x.activeAt : Int)) || x.engs.any (fun g => g.vlim.meets from_ to_) ||
    (nth x.engs (engOfCh k (c - s.phBase a))).zero.meets from_ to_
  if !x.active ∨ bad then s
  else
    let r := tickBefore x.ticks at_
    let sh := s.nat CURRENT.centre_shift a
    if k = 1 then
      let b := s.phBase a
      let (al, be) := clarke (s.chOf b).acc (s.chOf (b + 1)).acc (s.chOf (b + 2)).acc
      let (cs, sn) := csSn r.theta
      let d := sat (rndShift (al * cs + be * sn) 22) 24
      let q := sat (rndShift (be * cs - al * sn) 22) 24
      s.onCax a (fun x => (x.addCentre false (rndShift (r.id - d) sh)).addCentre true (rndShift (r.iq - q) sh))
    else
      let e := engOfCh k (c - s.phBase a)
      let sp := (engComp k e (r.at ch.tb at_)).1
      s.onCax a (fun x => x.addCentre (k == 3 || e == 1) (rndShift (sgn sp * (sp - ch.acc)) sh))

/-- ACCURATE_ESTIMATE (R195 to R197, R224, R225, R229 cause 2): due at a bit whose number is a multiple of OSR. Log entry 44. -/
def execAccurateEstimate (ticks ch : Nat) (s : State) : Answer :=
  let s := s.tick (ticks / 8)
  if s.clk.motionHeld then .next s
  else
  if !s.accDue ch then .next s
  else
    let tn := (s.chOf ch).times.headD 0
    let a0 := s.accNow ch
    let s := s.onCh ch (fun x => { x with acc := a0, accN := x.n })
    match s.claimOf ch with
    | none => .next s
    | some a =>
      let s := if s.nat CURRENT.oc_slow ch ≤ a0.natAbs then s.channelFault ch tn 2 a0 else s
      .next (s.centreUpdate a ch tn)

/-! ### The angle interpolator's tick (R199, R201) -/

/-- The channel's offset at a zero-current instant (R137, R138). -/
def State.offsetUpdate (c t : Nat) (s : State) : State :=
  let x := s.chOf c
  let lim := s.int CURRENT.ofs_limit c
  let o := x.ofs + rndShift (x.f0 - x.ofs) (s.nat CURRENT.ofs_shift c)
  let o' := clamp o (-lim) lim
  let held := decide (o'.natAbs = lim.natAbs)
  let run := if held then x.ofsRun + 1 else 0
  let s := s.onCh c (fun x => { x with ofs := o', ofsLimit := held, ofsRun := run })
  let pl := le 1 c ++ le 4 o' ++ le 4 lim
  let s := if o ≠ o' then s.raise 0x5E pl 2 else s
  if 1000 ≤ run ∧ !bit x.causes 9 then (s.raise 0x5E pl 3).channelFault c t 9 o' else s

/-- The zero-current instants of the channels of one engine at tick instant `t` (R199). -/
def State.zeroInstants (a e t : Nat) (s : State) : State :=
  let x := s.caxOf a
  let k := s.kind a
  let settle := 8 * s.nat CURRENT.zero_settle a
  let off := (engHbs k e).all (fun i =>
    let b := nth x.brs i
    !b.gateH && !b.gateL && decide (b.offSince + settle ≤ t))
  let moved := match x.ticks with
    | r1 :: r0 :: _ => engComp k e (r1.a, r1.b) != engComp k e (r0.a, r0.b)
    | _ => false
  let cs := if k = 1 then [0, 1, 2] else if k = 2 then [e] else [0]
  if !off then s
  else cs.foldl (fun s i =>
    let c := s.phBase a + i
    if (s.chOf c).zeroTaken then s
    else
      let s := s.onCh c (fun x => { x with zeroTaken := true, zeroInstants := inc32 x.zeroInstants })
      if moved then s else s.offsetUpdate c t) s

/-- One axis at a tick: set-points, zero-current instants, a decision of each engine. Log entry 242. -/
def State.axisTick (t a : Nat) (s : State) : State :=
  let k := s.kind a
  if kindEngs k = 0 then s
  else
    let x := s.caxOf a
    let r := s.tickSp a x.nextTick t
    let s := s.onCax a (fun x => { x with nextTick := x.nextTick + 1, ticks := (r :: x.ticks).take 128 })
    let s := eachIx (kindEngs k) (fun e s => s.zeroInstants a e t) s
    eachIx (kindEngs k) (fun e s => s.bridgeDecide a e (s.phBase a + (if k = 2 then e else 0)) t) s

/-- ANGLE_TICK: tick k of the open Stage, 400 k cycles after the boundary (R201). -/
def execAngleTick (t : Nat) (s : State) : Answer :=
  let s := s.tick t
  let d := t - s.stage.openedAt
  if !s.stage.running ∨ t < s.stage.openedAt ∨ d % 400 ≠ 0 ∨ s.stage.len ≤ d then .next s
  else .next (eachIx 12 (fun a s => if (s.caxOf a).nextTick = d / 400 then s.axisTick (8 * t) a else s) s)

/-! ### Edges and gates (R217, R220, R221) -/

/-- A half-bridge's commanded edge at instant `t`: the outgoing gate turns off, the incoming one turns on after the dead
time, never in the cycle in which the other was on (R217, R221). -/
def HalfBr.edge (t dead : Nat) (level : Bool) (b : HalfBr) : HalfBr :=
  let was := b.gateH || b.gateL
  { b.off t with
    level := level, since := if b.level = level then b.since else t
    onAt := some (max (t + 8 * dead) (if was then 8 * (t / 8 + 1) else 0)) }

/-- The edge of a half-bridge at `t`, delayed by its minimum pulse (R220): the half-bridge and whether it was delayed. -/
def HalfBr.fire (t dead minp : Nat) (level : Bool) (b : HalfBr) : HalfBr × Bool :=
  if b.level = level then
    if b.gateH || b.gateL || b.onAt.isSome then ({ b with due := none }, false) else (b.edge t dead level, false)
  else if t < b.since + 8 * minp ∧ (b.gateH || b.gateL || b.onAt.isSome) then
    ({ b with due := some (b.since + 8 * minp, level) }, true)
  else (b.edge t dead level, false)

/-- Applied states, newest first, back to the one that was in effect at `lo`. -/
def reached (lo : Nat) : List Applied → List Applied
  | [] => []
  | x :: xs => if x.at_ ≤ lo then [x] else x :: reached lo xs

/-- A bridge state is applied at instant `t`. The states that a prediction can still reach are kept (R207). -/
def State.applyState (a e : Nat) (sc : Sched) (s : State) : State :=
  let k := s.kind a
  let dead := s.nat CURRENT.dead a
  let minp := s.nat CURRENT.min_pulse a
  let gd := s.nat CURRENT.gate_delay a
  let hbs := (engHbs k e).zip (levelsOf k sc.p)
  let s := s.onCax a (fun x => hbs.foldl (fun x (i, lv) =>
    let b := nth x.brs i
    if sc.p = 8 then { x with brs := x.brs.set i (b.off sc.t) }
    else
      let (b', held) := b.fire sc.t dead minp lv
      { x with brs := x.brs.set i b', minpulseHolds := if held then inc32 x.minpulseHolds else x.minpulseHolds }) x)
  let brs := (s.caxOf a).brs
  let last := (engHbs k e).foldl (fun m i => match (nth brs i).due with | some (t, _) => max m t | none => m) sc.t
  s.onEng a e (fun g =>
    let h := g.head
    { sched := none, prevMeas := if h.valid then some (h.p, h.da, h.db) else none
      vlim := g.vlim, zero := g.zero
      applied := { at_ := last + gd, p := sc.p, da := sc.da, db := sc.db } :: reached (sc.t - 2 ^ 21) g.applied })

/-- EDGE_FIRE (R215 to R217, R220): the scheduled edge of an engine, and edges that their minimum pulse delayed. -/
def execEdgeFire (ticks axis eng : Nat) (s : State) : Answer :=
  let s := s.tick (ticks / 8)
  if s.clk.motionHeld then .next s
  else
  let dead := s.nat CURRENT.dead axis
  let s := s.onCax axis (fun x => (engHbs (s.kind axis) eng).foldl (fun x i =>
    match (nth x.brs i).due with
    | some (t, lv) => if t ≤ ticks then { x with brs := x.brs.modify i (HalfBr.edge t dead lv) } else x
    | none => x) x)
  match (s.engOf axis eng).sched with
  | some sc =>
    if ticks < sc.t ∨ !(s.caxOf axis).active then .next s
    else
      let s := if sc.late then s.onCax axis (fun x => { x with lateEdges := inc32 x.lateEdges }) else s
      .next (s.applyState axis eng sc)
  | none => .next s

/-- GATE_ON (R217, R221): the incoming gate of a half-bridge turns on. -/
def execGateOn (ticks axis hb : Nat) (s : State) : Answer :=
  let s := s.tick (ticks / 8)
  if s.clk.motionHeld then .next s
  else
  let b := nth (s.caxOf axis).brs hb
  match b.onAt with
  | some t =>
    if ticks < t ∨ 4 ≤ hb then .next s
    else .next (s.onCax axis (fun x => { x with
      brs := x.brs.set hb { b with
        onAt := none, gateH := b.level, gateL := !b.level
        hAt := if b.level then ticks else b.hAt, lAt := if b.level then b.lAt else ticks }
      swNow := if b.level then x.swNow + 1 else x.swNow }))
  | none => .next s

/-! ### Faults from outside -/

/-- MODULATOR_TIMEOUT (cause 3 of R229): no bit for 1 µs. -/
def execModulatorTimeout (ticks ch : Nat) (s : State) : Answer :=
  let s := s.tick (ticks / 8)
  if s.clk.motionHeld then .next s
  else
  let x := s.chOf ch
  if ticks < x.times.headD 0 + 3200 then .next s else .next (s.channelFault ch ticks 3 x.tb)

/-- GATE_READBACK_MISMATCH (cause 7): a gate ball's read-back has differed for 16 cycles, counted from 8 cycles after its
last commanded change. `hb` counts from the axis's first half-bridge. -/
def execGateReadbackMismatch (t axis hb : Nat) (high : Bool) (s : State) : Answer :=
  let s := s.tick t
  if s.clk.motionHeld then .next s
  else
  let b := nth (s.caxOf axis).brs hb
  let n := s.nat CURRENT.hb_base axis + hb
  if kindHbs (s.kind axis) ≤ hb ∨ 8 * t < (if high then b.hAt else b.lAt) + 8 * 24 ∨ bit (s.caxOf axis).causes 7 then .next s
  else .next (s.currentFault axis (8 * t) 7 n (2 * n + b2n high))

/-- DRIVER_FAULT_INPUT (cause 8): nDRVF of an axis has been low for `low` cycles. -/
def execDriverFaultInput (t axis low : Nat) (s : State) : Answer :=
  let s := s.tick t
  if s.clk.motionHeld then .next s
  else
  if kindHbs (s.kind axis) = 0 ∨ low < s.nat CURRENT.drv_filter axis ∨ bit (s.caxOf axis).causes 8 then .next s
  else .next (s.currentFault axis (8 * t) 8 0xFF low)

/-- OFFSET_ACQUIRED (R60, R138): 256 Stages after acquisition began, each channel's offset is the mean of its fast estimates,
limited to ±ofs_limit. -/
def execOffsetAcquired (t : Nat) (s : State) : Answer :=
  let s := s.tick t
  if s.clk.motionHeld then .next s
  else
  match s.acq.from_, s.acq.done with
  | some n0, false =>
    if s.stage.boundaries < n0 + 256 then .next s
    else
      let s := { s with acq := { s.acq with done := true } }
      .next (eachIx 36 (fun c s =>
        let x := s.chOf c
        let lim := s.int CURRENT.ofs_limit c
        if x.acqCount = 0 then s
        else s.onCh c (fun x => { x with ofs := clamp (rndDiv x.acqSum x.acqCount) (-lim) lim })) s)
  | _, _ => .next s

/-! ### At the boundary (R213, R214, R222, R223, R226) -/

/-- The half-band with its limit event: once at either clamp, until it leaves it (R223). -/
def State.setBand (a : Nat) (h : Int) (turnOns : Nat) (s : State) : State :=
  let was := (s.caxOf a).bandEnd
  let end_ : Option Nat := if h ≤ s.int CURRENT.band_min a then some 0 else if s.int CURRENT.band_max a ≤ h then some 1 else none
  let s := s.onCax a (fun x => { x with h := h.toNat, bandEnd := end_ })
  match end_ with
  | some e => if was = some e then s else s.raise 0x32 (le 1 a ++ le 1 e ++ le 4 turnOns)
  | none => s

/-- The half-band at a boundary (R222). -/
def State.bandUpdate (a : Nat) (s : State) : State :=
  let x := s.caxOf a
  if !x.active ∨ !x.wholeStage ∨ x.vlimNow then s
  else
    let lo := s.int CURRENT.band_min a
    let hi := s.int CURRENT.band_max a
    let err : Int := sat ((x.swNow : Int) * 256 - s.int CURRENT.sw_target a * kindHbs (s.kind a)) 32
    s.setBand a (clamp (x.h + rndShift (x.h * err * s.int CURRENT.band_gain a) 32) lo hi) x.swNow

/-- The voltage-limited Stages of an axis (R213). -/
def State.vlimUpdate (a : Nat) (s : State) : State :=
  let x := s.caxOf a
  if !x.vlimNow then s.onCax a (fun x => { x with vlimConsec := 0, vlim := false })
  else
    let n := inc32 x.vlimConsec
    let hit := s.nat CURRENT.vlim_stages a ≤ n ∧ !x.vlim
    let s := s.onCax a (fun x => { x with
      vlimConsec := n, vlimTotal := inc32 x.vlimTotal, vlim := x.vlim || decide hit })
    if hit then s.raise 0x31 (le 1 a ++ le 2 (satU n 16)) else s

/-- An axis of kind 1 to 3 at a boundary at cycle `t`: band, limits, the new record, activity. `enable` says that its
controller commits enable and its STO pair is energised. -/
def State.curBoundary (t a : Nat) (enable : Bool) (rec_ : SetPoint) (s : State) : State :=
  if kindEngs (s.kind a) = 0 then s
  else
    let s := (s.bandUpdate a).vlimUpdate a
    let s := s.onCax a (fun x => { x with
      sp := rec_, nextTick := 0, swCount := x.swNow, swNow := 0, vlimNow := false, wholeStage := x.active })
    let s := eachIx (kindChs (s.kind a)) (fun i s =>
      s.onCh (s.phBase a + i) (fun c => { c with zeroTaken := false })) s
    let x := s.caxOf a
    if x.active ∧ !enable then s.gatesOff a (8 * t)
    else if !x.active ∧ enable ∧ x.causes = 0 then
      (s.onCax a (fun x => { x with
        active := true, wholeStage := true, g := s.nat CURRENT.g_init a, c0 := 0, c1 := 0, gainEnd := none, bandEnd := none
        activeAt := 8 * t, engs := List.replicate 2 {} })).setBand a (s.nat CURRENT.band_init a) x.swCount
    else s

end Sys2Proof.Machine
end

