-- ==== Sys2Proof/Machine/Motion.lean ====
section
/-! DEFINITION. The profile generator of chapter 06: profiles with their defaults, braking distances, the raw generator
and the smoothing filter (R255 to R264). Speeds, accelerations and distances are in 2^-16 grain. -/

namespace Sys2Proof.Machine

/-- A profile in the raw generator's units (R255), its dependent defaults applied, its speeds under the cap.
`over`, when not 0, is the deceleration from a speed above vMax. -/
structure Prof where
  vStart : Nat := 0
  v1 : Nat := 1
  vMax : Nat := 1
  vStop : Nat := 0
  a1 : Nat := 1
  a2 : Nat := 1
  d1 : Nat := 1
  d2 : Nat := 1
  j : Nat := 0
  ovr : Nat := 0
  deriving DecidableEq, Repr, Inhabited

/-! ### Profiles -/

/-- The defined axis that claims a PROFILE record. -/
def State.profAxis (s : State) (p : Nat) : Option Nat :=
  (List.range 12).find? (fun a =>
    s.defined a && s.nat AXIS.prof_first a ≤ p && p < s.nat AXIS.prof_first a + s.nat AXIS.prof_count a)

def State.profA1 (s : State) (p : Nat) : Nat := s.nat PROFILE.a1 p
def State.profA2 (s : State) (p : Nat) : Nat := s.natOr PROFILE.a2 p (s.profA1 p)
def State.profD1 (s : State) (p : Nat) : Nat := s.natOr PROFILE.d1 p (s.profA1 p)
def State.profD2 (s : State) (p : Nat) : Nat := s.natOr PROFILE.d2 p (s.profD1 p)

/-- PROFILE.v_max, in grains per Stage. -/
def State.profVmax (s : State) (p : Nat) : Nat :=
  let m := min (s.profD1 p) (s.profD2 p) * 256
  s.natOr PROFILE.v_max p (match s.profAxis p with
    | some a => min (s.nat AXIS.v_limit a) m
    | none => m)

/-- PROFILE.v1, in grains per Stage. -/
def State.profV1 (s : State) (p : Nat) : Nat := s.natOr PROFILE.v1 p (s.profVmax p)

/-- The profile of record `p` with vmax `vm` (R255, R256). -/
def State.profAt (s : State) (p vm : Nat) : Prof :=
  let v1 := min (s.profV1 p * 65536) vm
  let d1 := s.profD1 p
  { vStart := min (s.nat PROFILE.v_start p * 65536) vm, v1 := v1, vMax := vm
    vStop := s.nat PROFILE.v_stop p * 65536
    a1 := s.profA1 p, a2 := s.profA2 p, d1 := d1, d2 := s.profD2 p, j := s.nat PROFILE.j p }

/-- The profile of record `p` under a speed cap in grains per Stage, 0 for none. -/
def State.profOf (s : State) (p cap : Nat) : Prof :=
  let vm := s.profVmax p * 65536
  s.profAt p (if cap = 0 then vm else min vm (cap * 65536))

/-- AXIS.d_quick after its default, the greatest d1 or d2 of the axis's profiles. -/
def State.dQuick (s : State) (a : Nat) : Nat :=
  s.natOr AXIS.d_quick a (((List.range (s.nat AXIS.prof_count a)).map (fun i =>
    max (s.profD1 (s.nat AXIS.prof_first a + i)) (s.profD2 (s.nat AXIS.prof_first a + i)))).foldl max 1)

/-- The final speed of R256, within vmax (R255). -/
def Prof.vs (p : Prof) : Nat := min (max p.vStop (min p.d1 p.v1)) p.vMax

/-- M of R260. -/
def Prof.smooth (p : Prof) : Nat := if p.j = 0 then 1 else max 1 (ceilDiv (max p.a1 p.a2 + max p.d1 p.d2) p.j)

/-! ### Braking distances (R256) -/

/-- Distance covered in decelerating from v to vl by d. -/
def seg (v vl d : Nat) : Nat :=
  if v ≤ vl then 0
  else
    let m := max 1 (ceilDiv (v - vl) d)
    (m - 1) * v - d * ((m - 1) * m / 2) + vl

/-- Distance covered in decelerating from v to final speed `vs`. -/
def Prof.brake (p : Prof) (vs v : Nat) : Nat :=
  if p.v1 < v then seg v p.v1 p.d2 + seg p.v1 vs p.d1 else seg v vs p.d1

/-- B(v). -/
def Prof.B (p : Prof) (v : Nat) : Nat := p.brake p.vs v

/-- The distance to a stop from v by dn with vs replaced by 0 (stop kinds table). -/
def Prof.stopDist (p : Prof) (v : Nat) : Nat := p.brake 0 v

/-- The distance to the earliest stop from v: by dn to vs, then by d1 to 0 (R263). -/
def Prof.earliest (p : Prof) (v : Nat) : Nat := p.brake p.vs v + seg (min v p.vs) 0 p.d1

/-! ### Speed choices (R257, R259) -/

/-- dn with final speed `vs`. -/
def Prof.dn (p : Prof) (vs v : Nat) : Nat := if p.v1 < v then max (v - p.d2) p.v1 else max (v - p.d1) vs

/-- The next speed from one above vMax. -/
def Prof.above (p : Prof) (vs v : Nat) : Nat := if p.ovr = 0 then p.dn vs v else v - p.ovr

/-- The candidate `up`. -/
def Prof.up (p : Prof) (v : Nat) : Nat :=
  if p.vMax < v then max (p.above p.vs v) p.vMax
  else if v < p.v1 then max (min (v + p.a1) p.v1) p.vStart
  else min (v + p.a2) p.vMax

/-- u of a position move (R257). -/
def Prof.choose (p : Prof) (rem : Int) (v : Nat) : Nat :=
  let up := p.up v
  if (p.B up : Int) ≤ rem - up then up
  else if 0 < v ∧ (p.B v : Int) ≤ rem - v then v
  else if p.vs < v then p.dn p.vs v
  else (min rem p.vs).toNat

/-- Speed of a velocity move towards magnitude `m` (R259). -/
def Prof.pursue (p : Prof) (m v : Nat) : Nat :=
  let m := min m p.vMax
  if v < m then min (p.up v) m else if m < v then max (if p.vMax < v then p.above 0 v else p.dn 0 v) m else v

/-! ### The raw generator -/

/-- The profile of record `ix` for a generator: the accelerations with which its move began hold until it rests (R281). -/
def Gen.profFor (prof : Nat → Nat → Prof) (ix cap : Nat) (g : Gen) : Prof :=
  match g.held with
  | some (q, a1, a2, d1, d2) => if q = ix then { prof ix cap with a1 := a1, a2 := a2, d1 := d1, d2 := d2 } else prof ix cap
  | none => prof ix cap

/-- The profile that the generator runs on. -/
def Gen.profNow (prof : Nat → Nat → Prof) (g : Gen) : Prof := g.profFor prof g.prof g.vcap

/-- The generator comes to rest after a motion; `restAt` is the instant at which that takes effect. -/
def Gen.toRest (restAt : Nat) (g : Gen) : Gen :=
  if g.ve = 0 then g else { g with ve := 0, restAt := restAt, lastDir := g.dir, dwellOver := false }

/-- R264: a start from rest in direction `d` need not wait. Log entry 50. -/
def Gen.mayStart (d : Int) (g : Gen) : Bool := g.noDwell || g.lastDir == 0 || d == g.lastDir || d == 0 || g.dwellOver

/-- The direction of a waiting move from where the generator stands. -/
def Gen.moveDir (m : Move) (g : Gen) : Int := if m.vel then sgn m.target else sgn (m.target * 65536 - g.pe)

/-- Starts a move from rest: at once, or after the dwell that its direction asks for (R264). Log entry 243. -/
def Gen.start (m : Move) (g : Gen) : Gen :=
  let d := g.moveDir m
  if !g.mayStart d then { g with phase := .dwell, next := some m, ve := 0 }
  else
    let g := { g with next := none, prof := m.prof, vcap := m.vcap, newM := !m.again, dir := if d = 0 then g.dir else d }
    if m.vel then { g with phase := .vel, vtgt := m.target * 65536 } else { g with phase := .pos, target := m.target }

/-- What a retarget of a running generator does (R263). -/
inductive Retarget where
  | goes | earliest | landing (p : Int) | noLanding
  deriving DecidableEq, Repr, Inhabited

/-- A position target given to a generator (R263): `p` the new profile, `land` the landing positions where reversals
go to landings only. The move after a reversal keeps the smoothing length in use (R260). Log entries 65, 225, 243. -/
def Gen.retarget (p : Prof) (m : Move) (land : Option (List Int)) (g : Gen) : Gen × Retarget :=
  let same : Move := { m with again := (g.next.map (·.again)).getD true }
  let turned : Move := { m with again := true }
  match g.phase, g.next with
  | .brake, _ => ({ g with next := some same }, .goes)
  | .dwell, _ => ({ g with next := some same }, .goes)
  | .pos, some _ => ({ g with next := some same }, .goes)
  | .stop, some _ => ({ g with next := some same }, .goes)
  | _, _ =>
    if g.ve = 0 then (g.start m, .goes)
    else
      let v := g.ve.natAbs
      let dir := sgn g.ve
      let rem := dir * (m.target * 65536 - g.pe)
      let g := { g with dir := dir, prof := m.prof, vcap := m.vcap }
      if (p.B v : Int) ≤ rem then ({ g with phase := .pos, target := m.target, next := none }, .goes)
      else
        match land with
        | none => ({ g with phase := .brake, next := some turned }, .earliest)
        | some ls =>
          let ok := ls.filter (fun x => (p.earliest v : Int) ≤ dir * (x * 65536 - g.pe))
          match ok.foldl (fun b x => match b with
            | none => some x
            | some y => if dir * x < dir * y then some x else b) (none : Option Int) with
          | some x => ({ g with phase := .pos, target := x, next := some turned }, .landing x)
          | none => ({ g with phase := .brake, next := none }, .noLanding)

/-- Where the earliest stop of a braking generator lies, in grains. -/
def Gen.stopAt (p : Prof) (g : Gen) : Int := floorShift (g.pe + sgn g.ve * p.earliest g.ve.natAbs) 16

/-- One Stage of the raw generator on profile `p`: the new state and the increment s u. `restAt` is when a rest reached now
takes effect. Log entry 225. -/
def Gen.move (p : Prof) (restAt : Nat) (g : Gen) : Gen × Int :=
  let v := g.ve.natAbs
  match g.phase with
  | .rest => ({ g with ve := 0 }, 0)
  | .dwell => ({ g with ve := 0 }, 0)
  | .pos =>
    let rem := g.dir * (g.target * 65536 - g.pe)
    let u := p.choose rem v
    let g' := { g with pe := g.pe + g.dir * u, ve := g.dir * u }
    if rem - u = 0 ∧ u = 0 then
      let r := { g.toRest restAt with phase := .rest }
      match g.next with
      | some m => ({ r with phase := .dwell, next := some m }, 0)
      | none => (r, 0)
    else (g', g.dir * u)
  | .vel =>
    let back : Move := { vel := true, again := true, target := g.vtgt / 65536, prof := g.prof, vcap := g.vcap }
    if v = 0 ∧ g.vtgt ≠ 0 ∧ !g.mayStart (sgn g.vtgt) then ({ g with phase := .dwell, next := some back }, 0)
    else if sgn g.vtgt = -g.dir ∧ v ≠ 0 then
      let u := p.dn 0 v
      let g' := { g with pe := g.pe + g.dir * u, ve := g.dir * u }
      if u = 0 then ({ g.toRest restAt with phase := .dwell, next := some back }, 0)
      else (g', g.dir * u)
    else
      let d := if v = 0 ∧ g.vtgt ≠ 0 then sgn g.vtgt else g.dir
      let u := p.pursue g.vtgt.natAbs v
      let g' := { g with dir := d, pe := g.pe + d * u, ve := d * u }
      if u = 0 ∧ v ≠ 0 then (g.toRest restAt, 0) else (g', d * u)
  | .stop =>
    let u := p.dn 0 v
    let g' := { g with pe := g.pe + g.dir * u, ve := g.dir * u }
    if u = 0 then
      let r := if v = 0 then { g with phase := .rest } else { g.toRest restAt with phase := .rest }
      match g.next with
      | some m => ({ r with next := none }.start m, 0)
      | none => (r, 0)
    else (g', g.dir * u)
  | .brake =>
    let u := if p.vs < v then p.dn p.vs v else v - p.d1
    let g' := { g with pe := g.pe + g.dir * u, ve := g.dir * u }
    if u = 0 then
      let r := g.toRest restAt
      match g.next with
      | some m => ({ r with phase := .dwell, next := some m }, 0)
      | none => ({ r with phase := .rest }, 0)
    else (g', g.dir * u)

/-- One Stage of the raw generator (R255 to R264): a move whose dwell is over starts; `prof` gives the profile of a record under a
cap. The accelerations that a move takes from rest, or with a new profile, hold until the generator rests (R281).
Log entry 225. -/
def Gen.stage (prof : Nat → Nat → Prof) (restAt : Nat) (g : Gen) : Gen × Int :=
  let g := match g.phase, g.next with
    | .dwell, some m => if g.noDwell || g.dwellOver then g.start m else g
    | _, _ => g
  let p := g.profNow prof
  let r := g.move p restAt
  ({ r.1 with held := if r.1.ve = 0 then none else some (g.prof, p.a1, p.a2, p.d1, p.d2) }, r.2)

/-- The generator stands still and waits for nothing. Log entry 50. -/
def Gen.atRest (g : Gen) : Bool := g.ve == 0 && (g.phase == .rest || g.phase == .dwell || (g.phase == .vel && g.vtgt == 0))

/-! ### The smoothing filter (R260, R261) -/

def Filt.empty (f : Filt) : Bool := f.sum == 0 && f.win.all (fun x => x == 0)

/-- The window takes the M of a profile when generator and filter are both at rest (R260). -/
def Filt.useM (m : Nat) (f : Filt) : Filt := if f.empty then { m := m, win := [], sum := 0, q := 0 } else f

/-- One Stage: the window sum and w. -/
def Filt.push (u : Int) (f : Filt) : Filt × Int :=
  let out := if f.m ≤ f.win.length then f.win.getLast?.getD 0 else 0
  let sum := sat (f.sum + u - out) 64
  let t := sum + f.q
  ({ f with win := (u :: f.win).take f.m, sum := sum, q := (t % (f.m : Int)).toNat }, t / (f.m : Int))

/-- One Stage of a generator with its filter: a move that starts takes its M where the filter is at rest too (R260). Also w. -/
def Gen.smooth (prof : Nat → Nat → Prof) (restAt : Nat) (g : Gen) (f : Filt) : Gen × Filt × Int :=
  let (g, u) := g.stage prof restAt
  let f := if g.newM then f.useM (prof g.prof g.vcap).smooth else f
  let (f, w) := f.push u
  ({ g with newM := false }, f, w)

/-- The window filled with w (R273). -/
def Filt.fill (m : Nat) (w : Int) : Filt := { m := m, win := List.replicate m w, sum := m * w, q := 0 }

/-- One Stage of the quick-stop ramp: w moves to 0 by d. -/
def rampStep (w : Int) (d : Nat) : Int := sgn w * ((w.natAbs - d : Nat) : Int)

end Sys2Proof.Machine
end

