-- ==== Sys2Proof/Machine/Pair.lean ====
section
/-! DEFINITION. A twin pair seen from its other layers: membership, fitness for hand-off, the partner's targets (R505, R524,
R525). -/

namespace Sys2Proof.Machine

/-- A pair member (R505). -/
def State.inPair (s : State) : Bool := s.nat TWIN.partner != 0

/-- A fabric pair: every axis has CURRENT.kind 0 or 4 (R505). The partner's axes are those of the same waybill (R540). -/
def State.fabricPair (s : State) : Bool := (List.range 12).all (fun a => s.kind a == 0 || s.kind a == 4)

def State.localPair (s : State) : Bool := s.inPair && !s.fabricPair

/-- COMPARE is set (R521). -/
def State.comparing (s : State) : Bool := s.twin.st == 3 && s.stage.aligned && s.twin.rebase.isNone &&
  (match s.twin.resumeAt with | some n => decide (n ≤ s.stage.boundaries) | none => true)

/-- Fit for hand-off (R524). Log entry 260. -/
def State.twinFit (s : State) : Bool := s.comparing && s.twin.fresh && s.twin.heartbeat

/-- The partner's newest RESULT of the last 3 Stages, if one is held. -/
def State.partnerResult (s : State) : Option Nat :=
  (s.twin.pkts.find? (fun p => bit p.flags 1 && decide (s.stagesSince p.epoch ≤ 3))).map (·.result)

/-- In a local pair a safe output is energised only by a member that is ACTIVE, or fit, and only while the partner's RESULT
does not deny the target that it reads (R525). -/
def State.pairAllows (s : State) (target : Option Nat) : Bool :=
  !s.localPair || ((s.twin.st == 2 || s.twinFit) &&
    (match s.partnerResult, target with | some r, some t => bit r t | _, _ => true))

/-! ### Forwarded commands (R512) -/

/-- The partner's newest packet says that it is in STANDBY. -/
def State.partnerStandby (s : State) : Bool :=
  s.twin.heartbeat && (match s.twin.pkts with | p :: _ => p.kind == 3 | [] => false)

/-- A command from this origin is forwarded to the partner: not one of the member's kernels, nor one that the partner has
from the fabric itself. Log entry 153. -/
def State.forwards (s : State) (o : Origin) : Bool :=
  s.inPair && s.twin.st == 2 && s.partnerStandby && o.src != 0 && !o.pair

/-- A fifth command to be forwarded in one Stage. Log entry 153. -/
def State.forwardFull (s : State) (o : Origin) : Bool := s.forwards o && decide (4 ≤ s.twin.forwarded.length)

def State.forward (o : Origin) (c : TwinCmd) (s : State) : State :=
  if s.forwards o then { s with twin := { s.twin with forwarded := s.twin.forwarded ++ [c] } } else s

/-- The Stage is the first, or the second, of a hand-off to this member (R534). -/
def State.followStage (s : State) (k : Nat) : Bool :=
  match s.twin.follow with | some h => s.stage.epoch == h + k | none => false

end Sys2Proof.Machine
end

