-- ==== Sys2Proof/Machine/Interlock.lean ====
section
/-! DEFINITION. The interlock layer of chapter 10: safety inputs, monitoring, the two channels' results, safe outputs, safe
stops, brakes and the safety reset (R395 to R423, R753, R754). -/

namespace Sys2Proof.Machine

/-! ### Access -/

def State.chan (s : State) (b : Bool) : SafeChan := if b then s.safe.b else s.safe.a

def State.onChan (b : Bool) (f : SafeChan → SafeChan) (s : State) : State :=
  { s with safe := if b then { s.safe with b := f s.safe.b } else { s.safe with a := f s.safe.a } }

def State.outOf (s : State) (o : Nat) : SafeOut := nth s.safe.outs o

/-- The validated state of a pair in a channel. -/
def SafeChan.si (c : SafeChan) (i : Nat) : Bool := (nth c.ins i).valid

/-- A pair named by an enumerated field, 0 for none. -/
def SafeChan.siOf (c : SafeChan) (n : Nat) : Bool := n != 0 && c.si (n - 1)

def flagAt (l : List Bool) (i : Nat) : Bool := l.getD i false

/-! ### Safety inputs (R400, R401) -/

/-- The inactive level of ball A or B of a pair of kind `k`. -/
def inactiveLevel (k : Nat) (ballB : Bool) : Bool := k == 2 && ballB

/-- A pair is active at two levels (R401). -/
def pairActive (k : Nat) (a b : Bool) : Bool := if k = 2 then a && !b else a && b

def pairAgrees (k : Nat) (a b : Bool) : Bool := if k = 2 then a != b else a == b

def State.onSafeIn (die pair : Nat) (f : SafeIn → SafeIn) (s : State) : State :=
  s.onChan (die == 1) (fun c => { c with ins := c.ins.modify pair f })

/-- SAFETY_INPUT_CHANGE (R400): die 0 (motion) or 1 (Steward) sees a ball of a pair change; an inactive level is
remembered for the Stage, by a die that is not held in reset. -/
def execSafetyInputChange (t die pair : Nat) (ballB level : Bool) (s : State) : Answer :=
  let s := s.tick t
  let open_ := level == inactiveLevel (s.nat SAFE_IN.kind pair) ballB
  let reads := die == 1 || !s.clk.motionHeld
  if 2 ≤ die ∨ 24 ≤ pair then .next s
  else .next (s.onSafeIn die pair (fun x =>
    if ballB then { x with ballB := level, openedB := x.openedB || open_ && reads }
    else { x with ballA := level, openedA := x.openedA || open_ && reads }))

/-- One pair of one die at a boundary (R400, R401). -/
def State.sampleIn (die i : Nat) (s : State) : State :=
  let k := s.nat SAFE_IN.kind i
  if k = 0 then s
  else
    let x := nth (s.chan (die == 1)).ins i
    let la := if x.openedA then inactiveLevel k false else x.ballA
    let lb := if x.openedB then inactiveLevel k true else x.ballB
    let act := pairActive k la lb
    let dis := if pairAgrees k la lb then 0 else satU (x.disRun + 1) 16
    let newFault := !x.fault && decide (s.nat SAFE_IN.disc i < dis)
    let cleared := x.fault && !s.flag SAFE_IN.flags 0 i && la == inactiveLevel k false && lb == inactiveLevel k true
    let fault := (x.fault || newFault) && !cleared
    let stop := x.fault || newFault
    let ar := if stop || !act then 0 else satU (x.actRun + 1) 16
    let ir := if stop || act then 0 else satU (x.inactRun + 1) 16
    let valid := if stop then false
      else if s.nat SAFE_IN.open_n i ≤ ir then false
      else if s.nat SAFE_IN.close_n i ≤ ar then true else x.valid
    let s := s.onSafeIn die i (fun x => { x with
      openedA := x.ballA == inactiveLevel k false, openedB := x.ballB == inactiveLevel k true
      levelA := la, levelB := lb, actRun := ar, inactRun := ir, disRun := dis, valid := valid, fault := fault })
    if newFault then s.raise 0xB1 (le 1 i ++ le 1 (b2n la) ++ le 1 (b2n lb) ++ le 1 die) else s

def State.sampleIns (die : Nat) (s : State) : State := eachIx 24 (fun i s => s.sampleIn die i) s

/-! ### Monitored channels and speeds (R404 to R406, R754) -/

/-- The monitored channel of an axis. -/
def State.monCh (s : State) (a : Nat) : Option Nat :=
  if !s.defined a then none
  else
    let m := s.nat SAFE_AXIS.mon_fb a
    if m = 0 then s.fbMotor a else some (m - 1)

/-- The axis of a car in use. -/
def State.carAxis (s : State) (c : Nat) : Option Nat :=
  let x := s.nat CAR.axis c
  if x = 0 then none else some (x - 1)

/-- The car of an axis. -/
def State.carOf (s : State) (a : Nat) : Option Nat := (List.range 4).find? (fun c => s.carAxis c == some a)

def State.shaftCh (s : State) (c : Nat) : Option Nat :=
  let x := s.nat CAR.shaft_fb c
  if x = 0 then none else some (x - 1)

/-- The monitored channels of a car. -/
def State.carChs (s : State) (c : Nat) : List Nat :=
  match s.carAxis c with
  | none => []
  | some a => ((s.monCh a).toList ++ (s.shaftCh c).toList).eraseDups

/-- The channel that p and p_u of R408 are taken from. -/
def State.ucmCh (s : State) (c : Nat) : Option Nat :=
  match s.shaftCh c with
  | some ch => some ch
  | none => match s.carAxis c with
    | some a => s.monCh a
    | none => none

def State.vWindow (s : State) (a : Nat) : Nat := s.nat SAFE_AXIS.v_window a

/-- AXIS.standstill_v, 0 reached through ZERO_SV (R744). -/
def State.standstillV (s : State) (a : Nat) : Nat :=
  if s.raw AXIS.standstill_v a = 0 ∧ s.flag AXIS.flags 4 a then 0 else s.nat AXIS.standstill_v a

/-- s of R404 on a channel, if it has been VALID throughout. -/
def State.monS (s : State) (ch w : Nat) : Option Int :=
  let h := (nth s.safe.hist ch).take (w + 1)
  if h.length < w + 1 ∨ h.any (fun x => !x.2) then none
  else match h.head?, h.getLast? with
    | some x, some y => some (x.1 - y.1)
    | _, _ => none

/-- s of an axis. -/
def State.axisS (s : State) (a : Nat) : Option Int := (s.monCh a).bind (fun ch => s.monS ch (s.vWindow a))

/-- The speeds of a car's channels that give one. -/
def State.carS (s : State) (c : Nat) : List (Nat × Int) :=
  match s.carAxis c with
  | none => []
  | some a => (s.carChs c).filterMap (fun ch => (s.monS ch (s.vWindow a)).map (fun x => (ch, x)))

/-- p(n) of a channel. -/
def State.monPos (s : State) (ch : Nat) : Option Int := ((nth s.safe.hist ch).head?).map (·.1)

/-- The monitoring of an axis, for a car axis with its car's, is established (R403, R405). -/
def State.established (s : State) (a : Nat) : Bool :=
  flagAt s.safe.estAxis a && (match s.carOf a with | some c => flagAt s.safe.estCar c | none => true)

/-- Monitoring lapses for the axes and cars of a channel whose fault is cleared (R405). Log entry 256. -/
def State.lapse (ch : Nat) (s : State) : State :=
  { s with safe := { s.safe with
      estAxis := (List.range 12).map (fun a => flagAt s.safe.estAxis a && s.monCh a != some ch)
      estCar := (List.range 4).map (fun c => flagAt s.safe.estCar c && !(s.carChs c).contains ch) } }

/-- Every monitoring lapses (R405). Log entry 256. -/
def State.lapseAll (s : State) : State :=
  { s with safe := { s.safe with estAxis := List.replicate 12 false, estCar := List.replicate 4 false } }

/-- A shift of a channel is added to what the channels hold of it (R754). -/
def State.shiftMonitored (ch : Nat) (d : Int) (s : State) : State :=
  let sh (c : SafeChan) : SafeChan := { c with
    pu := (List.range 4).map (fun k =>
      let p := c.pu.getD k none
      if s.ucmCh k = some ch then p.map (· + d) else p) }
  { s with safe := { s.safe with
      hist := s.safe.hist.modify ch (fun h => h.map (fun x => (x.1 + d, x.2)))
      a := sh s.safe.a, b := sh s.safe.b
      test := s.safe.test.map (fun x => if s.monCh x.axis = some ch then { x with pStart := x.pStart + d } else x) } }

/-- The positions of a boundary enter the history, and monitoring is established where a channel gives an s. -/
def State.monBoundary (s : State) : State :=
  let s := { s with safe := { s.safe with
    hist := (List.range 16).map (fun ch =>
      (((nth s.snap ch).pos, (nth s.snap ch).valid) :: nth s.safe.hist ch).take 65) } }
  { s with safe := { s.safe with
      estAxis := (List.range 12).map (fun a => flagAt s.safe.estAxis a || (s.axisS a).isSome)
      estCar := (List.range 4).map (fun c => flagAt s.safe.estCar c || !(s.carS c).isEmpty)
      still := (List.range 12).map (fun a =>
        (flagAt s.safe.estAxis a || (s.axisS a).isSome) &&
        match s.axisS a with
        | some x => decide (x.natAbs ≤ s.vWindow a * s.standstillV a)
        | none => false) } }

/-- STANDSTILL_S of an axis (R406). -/
def State.standstillS (s : State) (a : Nat) : Bool := flagAt s.safe.still a

/-! ### Latches and stops -/

/-- A trip is latched for a car in a channel. -/
def SafeChan.trip (c : SafeChan) (k : Nat) : Bool := flagAt c.ucm k || flagAt c.ovr k

/-- An output fault whose reaction is `r` is latched. -/
def State.outReact (s : State) (r : Nat) : Bool := s.safe.outs.any (fun o => o.fault != 0 && o.react == r)

/-- A stop of the first kind is ordered for an axis: an order in effect, or a latch that stops it (R403, R410, R411,
R420, R421). -/
def State.firstKind (s : State) (c : SafeChan) (a : Nat) : Bool :=
  decide ((nth s.safe.stops a).kind = .sto) || flagAt c.slsViol a || bit (nth s.book a).causes 3 ||
  (match s.carOf a with | some k => c.trip k | none => false) ||
  (List.range 24).any (fun o =>
    let x := s.outOf o
    x.fault != 0 && x.react == 1 &&
      (decide (22 ≤ o) || ((s.nat SAFE_OUT.role o == 1 || s.nat SAFE_OUT.role o == 2) && s.nat SAFE_OUT.axis o == a + 1)))

/-! ### The interlock table (R402, R403) -/

/-- The terms of the table: target and literals (signal, inverted). -/
def State.terms (s : State) : List (Nat × List (Nat × Bool)) :=
  let g (o : Nat) : Nat := (cellGet s.cfg INTERLOCK.n_terms.sec 0 o).toNat
  (List.range (s.nat INTERLOCK.n_terms)).map (fun t =>
    (g (8 + 16 * t), (List.range (min 7 (g (9 + 16 * t)))).map (fun k =>
      let l := g (10 + 16 * t + 2 * k)
      (l % 256, bit l 8))))

/-- A signal of the table, the intermediate targets `on` so far given. -/
def State.signal (s : State) (c : SafeChan) (on : List Nat) (i : Nat) : Bool :=
  if i < 0x18 then c.si i
  else if i < 0x20 then s.mode.mode == i - 0x18
  else if i < 0x24 then flagAt s.safe.estCar (i - 0x20) && c.siOf (s.nat SAFE_CAR.zone_si (i - 0x20))
  else if i < 0x28 then flagAt c.bypass (i - 0x24)
  else if i < 0x2C then !flagAt c.ucm (i - 0x28)
  else if i < 0x30 then !flagAt c.ovr (i - 0x2C)
  else if i < 0x3C then s.standstillS (i - 0x30)
  else if 0x40 ≤ i ∧ i < 0x4C then !flagAt c.slsViol (i - 0x40)
  else if 0x50 ≤ i ∧ i < 0x60 then on.contains i
  else i == 0xFF

/-- The targets that the table gives. -/
def State.tableTargets (s : State) (c : SafeChan) : List Nat :=
  s.terms.foldl (fun on x =>
    if x.2.all (fun l => xor (s.signal c on l.1) l.2) && !on.contains x.1 then on ++ [x.1] else on) []

/-- The result vector of a channel (R395, R402, R403). -/
def State.resultVec (s : State) (c : SafeChan) : SafeVec :=
  let on := s.tableTargets c
  let named := s.terms.map (·.1)
  let forced := s.safe.xcmpFault || (List.range 4).any c.trip || s.outReact 2 || s.outReact 5
  let permit := on.contains 0 && !forced
  let tq (a : Nat) : Bool := if named.contains (1 + a) then on.contains (1 + a) else permit
  let br (a : Nat) : Bool := if named.contains (0x11 + a) then on.contains (0x11 + a) else tq a
  let ok (a : Nat) : Bool := !s.firstKind c a && s.established a
  let b6 (a : Nat) : Bool := (List.range 22).any (fun o =>
    (s.outOf o).fault == 6 && s.nat SAFE_OUT.role o == 2 && s.nat SAFE_OUT.axis o == a + 1)
  { epoch := s.stage.epoch, permit := permit
    torque := (List.range 12).map (fun a => tq a && ok a)
    brake := (List.range 12).map (fun a => br a && ok a && !b6 a)
    slsReq := (List.range 12).map (fun a => on.contains (0x21 + a))
    out := (List.range 22).map (fun o => on.contains (0x30 + o))
    m := (List.range 16).map (fun i => on.contains (0x50 + i))
    ucm := c.ucm, ovr := c.ovr, sls := c.slsViol }

/-! ### Trips (R407 to R411) -/

/-- A trip or violation latches in a channel; its event and reaction come with the first channel that latches it. -/
def State.tripNew (s : State) (b : Bool) (get : SafeChan → Bool) : Bool := !get (s.chan (!b))

/-- The reaction to a car trip (R410). -/
def State.tripReaction (c code : Nat) (s : State) : State :=
  let s := { s with safe := { s.safe with trips := inc32 s.safe.trips } }
  let s := s.haltCause 4
  match s.carAxis c with
  | some a => s.orderSto a code
  | none => s

/-- Latches an unintended-movement trip. -/
def State.ucmTrip (b : Bool) (c cause : Nat) (disp : Int) (s : State) : State :=
  if flagAt (s.chan b).ucm c then s
  else
    let new := s.tripNew b (fun x => flagAt x.ucm c)
    let s := s.onChan b (fun x => { x with ucm := x.ucm.set c true })
    if new then (s.raise 0xB3 (le 1 c ++ le 1 cause ++ le 8 disp)).tripReaction c 0xB3 else s

/-- SAFE_CAR.bypass_v after its default. -/
def State.bypassV (s : State) (c : Nat) : Nat :=
  if s.raw SAFE_CAR.bypass_v c = 0 then s.nat SAFE_CAR.v_rated c / 8 else s.nat SAFE_CAR.bypass_v c

/-- One car in one channel: overspeed, locks, bypass and unintended movement (R407 to R409, car trips). Log entries 105, 256. -/
def State.carMonitor (b : Bool) (c : Nat) (s : State) : State :=
  match s.carAxis c with
  | none => s
  | some a =>
    if !flagAt s.safe.estCar c then s.onChan b (fun x => { x with
      lock := x.lock.set c true, dz := x.dz.set c false, bypass := x.bypass.set c false, pu := x.pu.set c none })
    else
      let w := s.vWindow a
      let sp := s.carS c
      let x := s.chan b
      let v := s.nat SAFE_CAR.v_rated c
      let asc : Int := w * (v * s.nat SAFE_CAR.asc_pct c / 1000 : Nat)
      let dsc : Int := w * (v * s.nat SAFE_CAR.overspeed_pct c / 1000 : Nat)
      let ovr : Option (Nat × Nat × Int) :=
        if sp.isEmpty then some (1, (s.carChs c).headD 0, 0)
        else (sp.find? (fun y => asc ≤ y.2 || dsc ≤ -y.2)).map (fun y => (if asc ≤ y.2 then 1 else 0, y.1, y.2))
      let slow := !sp.isEmpty && sp.all (fun y => decide (y.2.natAbs ≤ w * s.bypassV c))
      let mask := s.nat SAFE_CAR.locks c
      let lock := (List.range 24).all (fun i => !bit mask i || x.si i)
      let dz := x.siOf (s.nat SAFE_CAR.zone_si c)
      let req := flagAt s.safe.bypassReq c
      let mode := s.mode.mode == 2 || s.mode.mode == 4 || s.mode.mode == 5
      let was := flagAt x.bypass c
      let may := s.flag SAFE_CAR.flags 0 c && dz && mode && slow
      let lost := was && (!dz || !slow)
      let ended := was && (!mode || (!req && s.standstillS a))
      let byp := if was then !lost && !ended else may && req && !lock
      let p := ((s.ucmCh c).bind s.monPos).getD 0
      let pu := if (!lock && flagAt x.lock c) || (was && !byp) || (x.pu.getD c none).isNone && !lock
        then some p else x.pu.getD c none
      let disp := p - pu.getD p
      let s := s.onChan b (fun x => { x with
        lock := x.lock.set c lock, dz := x.dz.set c dz, bypass := x.bypass.set c byp, pu := x.pu.set c pu })
      let s := if byp ≠ was ∧ !b then s.raise 0xBA (le 1 c ++ le 1 (b2n byp)) else s
      let s := if lost then s.ucmTrip b c 2 disp
        else if !lock ∧ !byp ∧ s.nat SAFE_CAR.ucm_dist c ≤ disp.natAbs then s.ucmTrip b c 0 disp
        else if !lock ∧ !byp ∧ flagAt x.dz c ∧ !dz then s.ucmTrip b c 1 disp
        else s
      match ovr with
      | none => s
      | some (d, ch, sv) =>
        if flagAt x.ovr c then s
        else
          let new := s.tripNew b (fun y => flagAt y.ovr c)
          let s := s.onChan b (fun y => { y with ovr := y.ovr.set c true })
          if new then (s.raise 0xB4 (le 1 c ++ le 1 d ++ le 1 ch ++ le 8 sv ++ le 1 w)).tripReaction c 0xB4 else s

/-- SLS is active on an axis in a channel (R411). Log entry 107. -/
def State.slsActive (s : State) (c : SafeChan) (a : Nat) : Bool :=
  bit (s.nat SAFE_AXIS.sls_modes a) s.mode.mode || flagAt ((c.effect.map (·.slsReq)).getD []) a

/-- The speed of an axis exceeds its SLS limit. -/
def State.slsExceeded (s : State) (a : Nat) : Bool :=
  match s.axisS a with
  | some x => decide (s.vWindow a * s.nat SAFE_AXIS.sls_v a < x.natAbs)
  | none => flagAt s.safe.estAxis a

/-- One axis in one channel: SLS (R411). -/
def State.slsMonitor (b : Bool) (a : Nat) (s : State) : State :=
  let x := s.chan b
  if !s.defined a then s
  else if !s.slsActive x a then s.onChan b (fun x => { x with slsSince := x.slsSince.set a none })
  else
    let since := (x.slsSince.getD a none).getD s.stage.boundaries
    let s := s.onChan b (fun x => { x with slsSince := x.slsSince.set a (some since) })
    if flagAt x.slsViol a ∨ s.stage.boundaries < since + s.nat SAFE_AXIS.sls_ramp a ∨ !s.slsExceeded a then s
    else
      let new := s.tripNew b (fun y => flagAt y.slsViol a)
      let s := s.onChan b (fun y => { y with slsViol := y.slsViol.set a true })
      if new then
        ({ s with safe := { s.safe with trips := inc32 s.safe.trips } }.raise 0xB5
          (le 1 a ++ le 1 ((s.monCh a).getD 0xFF) ++ le 8 ((s.axisS a).getD 0) ++
            le 8 (s.vWindow a * s.nat SAFE_AXIS.sls_v a))).orderSto a 0xB5
      else s

/-- A channel evaluates its Stage: trips, then its result vector (R395). -/
def State.evalChannel (b : Bool) (s : State) : State :=
  let s := eachIx 4 (fun c s => s.carMonitor b c) s
  let s := eachIx 12 (fun a s => s.slsMonitor b a) s
  s.onChan b (fun c => { c with result := some (s.resultVec c) })

/-! ### Results in effect -/

/-- The result of a channel in effect. A stale or dropped channel has none. -/
def State.effVec (s : State) (b : Bool) : SafeVec :=
  let c := s.chan b
  if c.drop || c.dead then {} else c.effect.getD {}

def State.permit (s : State) : Bool := (s.effVec false).permit && (s.effVec true).permit

def State.torqueOn (s : State) (a : Nat) : Bool :=
  flagAt (s.effVec false).torque a && flagAt (s.effVec true).torque a

/-- The safe output pairs of a role for an axis. -/
def State.pairsOf (s : State) (role a : Nat) : List Nat :=
  (List.range 22).filter (fun o => s.nat SAFE_OUT.role o == role && s.nat SAFE_OUT.axis o == a + 1)

/-- A pair energised in both channels. -/
def SafeOut.on (x : SafeOut) : Bool := x.a && x.b

/-- The STO pair of an axis is energised; an axis without one has its TORQUE (R422). -/
def State.stoOn (s : State) (a : Nat) : Bool :=
  match s.pairsOf 1 a with
  | [] => s.torqueOn a
  | l => l.all (fun o => (s.outOf o).on)

/-- The outputs are under their rules: released, not Lodge, and in Halt only until every axis has stopped (R670, R681). -/
def State.outputsLive (s : State) : Bool :=
  s.mode.released && s.mode.mode != 7 && s.mode.mode != 0 &&
  !(s.mode.mode == 6 && !(s.axe.any (·.enabled)))

/-- An enable may take effect: TORQUE is 1 in both channels, and neither a fault nor the partner holds the STO pair off (R246,
R525). Log entry 103. -/
def State.stoReady (s : State) (a : Nat) : Bool :=
  s.torqueOn a && s.pairAllows (some (0x01 + a)) && s.mode.released && s.mode.mode != 7 &&
  (s.pairsOf 1 a).all (fun o => (s.outOf o).fault == 0)

/-- The controller requests release of the brakes (R415 to R417). -/
def State.releaseReq (s : State) (a : Nat) : Bool := flagAt s.safe.release a

/-- The brake pair under test (R418). -/
def State.braked (s : State) (o : Nat) : Bool :=
  match s.safe.test with
  | some x => (match x.steps with | (p, _) :: _ => p == o | [] => false)
  | none => false

/-- The target that the role of an output reads. -/
def State.outTarget (s : State) (o : Nat) : Option Nat :=
  let a := s.nat SAFE_OUT.axis o - 1
  if o = 22 then some 0
  else match s.nat SAFE_OUT.role o with
    | 1 => some (0x01 + a)
    | 2 => some (0x11 + a)
    | 4 => some (0x30 + o)
    | _ => none

/-- The energising condition of an output in one channel (R415, R422); 22 is MPA or MPB. -/
def State.outCond (s : State) (b : Bool) (o : Nat) : Bool :=
  let v := s.effVec b
  let a := s.nat SAFE_OUT.axis o - 1
  let x := s.outOf o
  if !s.pairAllows (s.outTarget o) then false
  else if !s.outputsLive || x.fault != 0 && x.react != 2 || (s.chan b).drop || (s.chan b).dead then false
  else if o = 22 then v.permit
  else match s.nat SAFE_OUT.role o with
    | 1 => flagAt v.torque a && decide ((nth s.safe.stops a).kind ≠ .sto) && (b || (nth s.axe a).enabled)
    | 2 =>
      flagAt v.brake a && s.stoOn a && s.releaseReq a && decide ((nth s.safe.stops a).kind ≠ .ss1End) &&
        decide ((nth s.safe.stops a).kind ≠ .sto) && !s.braked o
    | 3 => !(flagAt v.ucm a || flagAt v.ovr a)
    | 4 => flagAt v.out o
    | _ => false

/-- The EDM of an output, 0 for none. -/
def State.edmOf (s : State) (o : Nat) : Nat := if 22 ≤ o then s.nat SAFE.mp_edm else s.nat SAFE_OUT.edm o

def State.edmOn (s : State) (o : Nat) : Bool := s.safe.a.siOf (s.edmOf o)

/-- An output fault latches (R420, R421). `react` is the cause whose reaction it takes. Log entry 104. -/
def State.outputFault (o ch cause react : Nat) (s : State) : State :=
  if (s.outOf o).fault ≠ 0 then s
  else
    let react := if 22 ≤ o ∧ (cause = 1 ∨ cause = 3 ∨ cause = 4) then 1 else react
    let s := s.onOut o (fun x => { x with fault := cause, react := react, brakePassed := false })
    let s := s.raise 0xB8 (le 1 o ++ le 1 ch ++ le 1 cause)
    let s := if react = 2 ∨ react = 5 then s.haltCause 4 else s
    let s := if react = 5 then s.onChan (ch == 1) (fun c => { c with drop := true }) else s
    if react = 1 then
      if 22 ≤ o then eachIx 12 (fun a s => if s.defined a then s.orderSto a 0xB8 else s) s
      else if s.nat SAFE_OUT.role o = 1 ∨ s.nat SAFE_OUT.role o = 2 then s.orderSto (s.nat SAFE_OUT.axis o - 1) 0xB8
      else s
    else s

/-- Energising is refused: the EDM of a wholly de-energised output does not show its safe state (output faults, cause 4).
Log entry 104. -/
def State.refuses (s : State) (o : Nat) : Bool :=
  s.edmOf o != 0 && !s.edmOn o && !(s.outOf o).a && !(s.outOf o).b && (s.outOf o).fault == 0

/-- A channel drives its balls: STO pairs first, then the others. Log entry 104. -/
def State.driveOut (b : Bool) (o : Nat) (s : State) : State :=
  let s := if s.outCond b o && s.refuses o then s.outputFault o (b2n b) 4 4 else s
  let v := s.outCond b o
  let was := (s.outOf o).on
  let s := s.onOut o (fun x => if b then { x with b := v } else { x with a := v })
  if (s.outOf o).on = was then s
  else s.onOut o (fun x => { x with since := s.stage.boundaries, settled := false })

/-- An axis whose STO pair is de-energised drives no gate (R226). -/
def State.gatesFollow (a : Nat) (s : State) : State :=
  if (s.caxOf a).active && !s.stoOn a then s.gatesOff a (8 * s.now) else s

/-- A channel drives every output by its rules, and the gates follow. -/
def State.driveOuts (b : Bool) (s : State) : State :=
  let sto := (List.range 22).filter (fun o => s.nat SAFE_OUT.role o == 1)
  let rest := (List.range 23).filter (fun o => o == 22 || s.nat SAFE_OUT.role o != 1)
  eachIx 12 State.gatesFollow ((sto ++ rest).foldl (fun s o => s.driveOut b o) s)

/-- EV_PERMIT when PERMIT of both channels changes. -/
def State.permitEvent (s : State) : State :=
  if s.permit = s.safe.permitWas then s
  else
    let open_ := ((List.range 24).find? (fun i => s.nat SAFE_IN.kind i != 0 && !s.safe.a.si i)).getD 0xFF
    let s := { s with safe := { s.safe with permitWas := s.permit } }
    s.raise 0xB0 (le 1 (b2n s.permit) ++ le 1 (packBits [(s.effVec false).permit, (s.effVec true).permit]) ++ le 1 open_)

/-! ### Output faults at a boundary (R420, R421) -/

/-- EDM of one output at a boundary: cause 3, and settling. Log entry 104. -/
def State.edmBoundary (o : Nat) (s : State) : State :=
  let x := s.outOf o
  if s.edmOf o = 0 ∨ x.fault ≠ 0 then s
  else
    let safe := s.edmOn o
    let good := safe == !x.on
    if x.settled ∧ !good then s.outputFault o 0 3 (if x.on then 1 else 2)
    else if good then s.onOut o (fun x => { x with settled := true })
    else s

/-- Read-back of one ball at a boundary (R420): cause 5 after two consecutive differences. Log entry 110. -/
def State.readBack (balls : List Nat) (o ch : Nat) (s : State) : State :=
  let bad := balls.contains (2 * o + ch)
  let n := if bad then (if ch = 0 then (s.outOf o).runA else (s.outOf o).runB) + 1 else 0
  let s := s.onOut o (fun x => if ch = 0 then { x with runA := n } else { x with runB := n })
  if 2 ≤ n then s.outputFault (if o = 22 then 22 + ch else o) ch 5 5 else s

def State.outsBoundary (balls : List Nat) (s : State) : State :=
  let s := eachIx 23 (fun o s => (s.readBack balls o 0).readBack balls o 1) s
  eachIx 23 (fun o s => if o = 22 ∨ s.nat SAFE_OUT.role o ≠ 0 then s.edmBoundary o else s) s

/-- TEST_PULSE (R420): the energised balls of a pair were switched off for 2 µs; whether each read back off. Log entry 104. -/
def execTestPulse (t out : Nat) (offA offB : Bool) (s : State) : Answer :=
  let s := s.tick t
  let x := s.outOf out
  let due := (s.stage.boundaries + 4096 * 22 - 128 * out) % 4096 = 0
  if 22 ≤ out ∨ !s.flag SAFE_OUT.flags 0 out ∨ !due ∨ (!x.a && !x.b) then .next s
  else
    let na := if x.a && !offA then x.pulseA + 1 else 0
    let nb := if x.b && !offB then x.pulseB + 1 else 0
    let s := s.onOut out (fun x => { x with pulseA := na, pulseB := nb })
    let s := if 2 ≤ na then s.outputFault out 0 5 5 else s
    .next (if 2 ≤ nb then s.outputFault out 1 5 5 else s)

/-- EDM_TIMEOUT (R420, causes 1 and 2): the EDM has not shown the output's state in time. -/
def execEdmTimeout (t out : Nat) (s : State) : Answer :=
  let s := s.tick t
  let x := s.outOf out
  let tOn := if out = 22 then s.nat SAFE.mp_follow else s.nat SAFE_OUT.t_on out
  let tOff := if out = 22 then s.nat SAFE.mp_follow else s.nat SAFE_OUT.t_off out
  if s.edmOf out = 0 ∨ x.settled ∨ x.fault ≠ 0 ∨ s.edmOn out = !x.on then .next s
  else if x.on then
    if s.stage.boundaries < x.since + tOn then .next s else .next (s.outputFault out 0 1 1)
  else if s.stage.boundaries < x.since + tOff then .next s
  else .next (s.outputFault out 0 2 2)

/-! ### Brakes (R413, R416) -/

/-- Every brake of an axis shows released (R416). -/
def State.brakesReleased (s : State) (a : Nat) : Bool :=
  (s.pairsOf 2 a).all (fun o =>
    let x := s.outOf o
    x.on && (if s.edmOf o = 0 then decide (x.since + s.nat SAFE_OUT.t_on o ≤ s.stage.boundaries) else !s.edmOn o))

/-- Every brake of an axis shows applied (R413). -/
def State.brakesApplied (s : State) (a : Nat) : Bool :=
  (s.pairsOf 2 a).all (fun o =>
    let x := s.outOf o
    !x.on && (if s.edmOf o = 0 then decide (x.since + s.nat SAFE_OUT.t_off o ≤ s.stage.boundaries) else s.edmOn o))

/-! ### Safe stops (R412 to R414) -/

/-- SAFE_AXIS.ss1_decel after its default. -/
def State.ss1Decel (s : State) (a : Nat) : Nat :=
  if s.raw SAFE_AXIS.ss1_decel a = 0 then s.dQuick a / 2 else s.nat SAFE_AXIS.ss1_decel a

/-- The envelope of a running SS1 at a boundary (R412). Log entries 51, 103. -/
def State.ss1Boundary (a : Nat) (s : State) : State :=
  let st := nth s.safe.stops a
  if st.kind ≠ .ss1 then s
  else
    let w := s.vWindow a
    let sv := s.axisS a
    let v0 := st.v0.getD ((sv.getD 0).natAbs / w)
    let k := s.stage.boundaries - st.start
    let env := max (v0 + v0 / 16 - k * s.ss1Decel a / 65536) (s.standstillV a)
    let s := s.onStop a (fun x => { x with v0 := some v0, env := env })
    let bad : Bool := match sv with
      | some x => decide (w * env < x.natAbs)
      | none => flagAt s.safe.estAxis a
    if decide (0 < k) && bad then (s.raise 0xB6 (le 1 a ++ le 4 k ++ le 8 (sv.getD 0))).orderSto a 0xB6 else s

/-- SS1_END (R413): standstill, or SAFE_AXIS.ss1_max Stages; every brake pair is de-energised. -/
def execSs1End (t axis : Nat) (s : State) : Answer :=
  let s := s.tick t
  let st := nth s.safe.stops axis
  let k := s.stage.boundaries - st.start
  if !s.atBoundary ∨ st.kind ≠ .ss1 ∨ (!s.standstillS axis ∧ k < s.nat SAFE_AXIS.ss1_max axis) then .next s
  else
    let s := s.onStop axis (fun x => { x with kind := .ss1End, env := 0, endAt := s.stage.boundaries })
    let s := s.raise 0xB7 (safeStopPl axis 2 st.code)
    .next (((s.pairsOf 2 axis).foldl (fun s o => (s.driveOut false o).driveOut true o) s))

/-- TORQUE of an enabled axis that has fallen orders STO with brake (R403, R414). Log entry 106. -/
def State.torqueFall (a : Nat) (s : State) : State :=
  if (nth s.axe a).enabled ∧ !s.torqueOn a ∧ (nth s.safe.stops a).kind ≠ .sto then s.orderSto a 0xB0 else s

/-! ### Cross-comparison (R399) -/

/-- The comparable entries of a result vector: kind, index, value. -/
def SafeVec.entries (v : SafeVec) : List (Nat × Nat × Bool) :=
  (v.ucm.zipIdx.map (fun x => (0, 0x28 + x.2, !x.1))) ++ (v.ovr.zipIdx.map (fun x => (0, 0x2C + x.2, !x.1))) ++
  (v.sls.zipIdx.map (fun x => (0, 0x40 + x.2, !x.1))) ++ [(1, 0, v.permit)] ++
  (v.torque.zipIdx.map (fun x => (1, 0x01 + x.2, x.1))) ++ (v.brake.zipIdx.map (fun x => (1, 0x11 + x.2, x.1))) ++
  (v.slsReq.zipIdx.map (fun x => (1, 0x21 + x.2, x.1))) ++ (v.out.zipIdx.map (fun x => (1, 0x30 + x.2, x.1))) ++
  (v.m.zipIdx.map (fun x => (1, 0x50 + x.2, x.1)))

/-- The channels exchange the results of one Stage. Log entry 108. -/
def State.crossCompare (va vb : SafeVec) (s : State) : State :=
  match (va.entries.zip vb.entries).find? (fun x => x.1 != x.2) with
  | none => { s with safe := { s.safe with xcmpRun := 0 } }
  | some (x, y) =>
    let n := s.safe.xcmpRun + 1
    let s := { s with safe := { s.safe with xcmpRun := n, xcmpDiffs := inc32 s.safe.xcmpDiffs } }
    if n < s.nat SAFE.xcmp_n ∨ s.safe.xcmpFault then s
    else
      let s := { s with safe := { s.safe with xcmpFault := true } }
      (s.raise 0xB2 (le 1 x.2.1 ++ le 1 x.1 ++ le 1 (b2n x.2.2) ++ le 1 (b2n y.2.2))).haltCause 4

/-- Channel A at the boundary that opens a Stage: the committed result takes effect, or none bears the Stage's epoch (R396).
Log entry 223. -/
def State.applyA (committed : Bool) (s : State) : State :=
  if committed then s.onChan false (fun c => { c with effect := c.result })
  else
    let s := s.onChan false (fun c => { c with effect := none, result := none })
    if !s.mode.released then s
    else
      { s with safe := { s.safe with stale := inc32 s.safe.stale } }.raise 0xBC (le 6 s.stage.epoch)

/-- Channel B at a boundary notice: its result of the Stage before takes effect, the results are compared, and the
Steward evaluates the Stage that opens (R397, R399). Log entry 108. -/
def State.noticeB (s : State) : State :=
  let s := s.onChan true (fun c => { c with effect := c.result })
  let s := match s.safe.a.effect, s.safe.b.effect with
    | some va, some vb => s.crossCompare va vb
    | _, _ => s
  let s := (s.driveOuts true).permitEvent
  (s.sampleIns 1).evalChannel true

/-! ### The brake test (R418) -/

def State.onTest (f : BrakeTest → BrakeTest) (s : State) : State :=
  { s with safe := { s.safe with test := s.safe.test.map f } }

/-- The steps of a test: each brake pair, in each direction named. -/
def State.testSteps (s : State) (a : Nat) : List (Nat × Int) :=
  let ds : List Int := match s.nat SAFE_AXIS.test_dir a with | 1 => [1] | 2 => [-1] | _ => [1, -1]
  (s.pairsOf 2 a).flatMap (fun o => ds.map (fun d => (o, d)))

/-- A brake test is accepted (R418). -/
def State.testAllowed (s : State) (a : Nat) : Bool :=
  let x := nth s.ax a
  (s.mode.mode == 1 || s.mode.mode == 2) && s.defined a && x.enabled && x.mode == 8 && x.standstill && s.safe.test.isNone &&
  !(match s.carOf a with | some c => s.safe.a.trip c || s.safe.b.trip c | none => false)

def State.testPos (s : State) (a : Nat) : Int := ((s.monCh a).bind s.monPos).getD 0

/-- The displacement of a running test at a boundary: p_start is taken where a test begins, and any excess counts (R418).
Log entry 255. -/
def State.testMoved (s : State) (x : BrakeTest) : BrakeTest :=
  if s.stage.boundaries ≤ x.from_ then { x with pStart := s.testPos x.axis }
  else
    let d := s.testPos x.axis - x.pStart
    { x with
      moved := x.moved || decide (s.nat SAFE_AXIS.test_dist x.axis < d.natAbs)
      disp := if x.disp.natAbs < d.natAbs then d else x.disp }

/-- The mailbox command BRAKE_TEST (R418). -/
def State.takeBrakeTest (o : Origin) (axis : Nat) (s : State) : State :=
  if s.mode.mode ≠ 1 ∧ s.mode.mode ≠ 2 then s.reply o 3 0
  else if s.safe.test.isSome then s.reply o 4 0
  else if !s.testAllowed axis then s.reply o 1 0
  else
    let s := { s with safe := { s.safe with test := some {
      axis := axis, steps := s.testSteps axis, from_ := s.stage.boundaries, pStart := s.testPos axis, origin := o } } }
    let s := s.reply o 7 0
    if (s.testSteps axis).isEmpty then { s with safe := { s.safe with test := none } } else s

/-- A brake has been tested in all its directions. -/
def State.brakeResult (x : BrakeTest) (o : Nat) (moved : Bool) (disp : Int) (s : State) : State :=
  let s := s.raise 0xB9 (le 1 x.axis ++ le 1 o ++ le 1 (b2n moved) ++ le 8 disp)
  if moved then s.outputFault o 0 6 6 else s.onOut o (fun y => { y with brakePassed := true })

/-- BRAKE_TEST_STEP_END (R418): the test current has been applied for SAFE_AXIS.test_time Stages. Log entry 255. -/
def execBrakeTestStepEnd (t : Nat) (s : State) : Answer :=
  let s := s.tick t
  match s.safe.test with
  | none => .next s
  | some x =>
    match x.steps with
    | [] => .next { s with safe := { s.safe with test := none } }
    | (o, _) :: rest =>
      if s.stage.boundaries < x.from_ + s.nat SAFE_AXIS.test_time x.axis then .next s
      else
        let moved := x.moved
        let disp := x.disp
        let more := match rest with | (p, _) :: _ => p == o | [] => false
        let s := if more then s else s.brakeResult x o moved disp
        let s := s.onTest (fun x => { x with
          steps := rest, from_ := s.stage.boundaries + 1
          moved := more && moved, disp := if more then disp else 0 })
        if rest.isEmpty then .next { s with safe := { s.safe with test := none } } else .next s

/-- A brake test ends early: the brake under test has no result (EV_BRAKE_TEST result 2). Log entry 81. -/
def State.abortTest (a : Nat) (s : State) : State :=
  match s.safe.test with
  | some x =>
    if x.axis ≠ a then s
    else
      let o := match x.steps with | (o, _) :: _ => o | [] => 0xFF
      { s with safe := { s.safe with test := none } }.raise 0xB9 (le 1 a ++ le 1 o ++ le 1 2 ++ le 8 x.disp)
  | none => s

/-- SAFE_AXIS.test_current after its default. -/
def State.testCurrent (s : State) (a : Nat) : Nat :=
  if s.raw SAFE_AXIS.test_current a = 0 then s.nat AXIS.i_lim a else s.nat SAFE_AXIS.test_current a

/-- The test current of an axis in this Stage, if a test holds it. -/
def State.testIq (s : State) (a : Nat) : Option Int :=
  match s.safe.test with
  | some x =>
    if x.axis ≠ a then none
    else match x.steps with
      | (_, d) :: _ => if s.stage.boundaries < x.from_ then some 0 else some (d * s.testCurrent a)
      | [] => some 0
  | none => none

/-! ### The safety reset (R423, R753) -/

/-- What a reset clears, counted. -/
def State.clearWhere (n : Nat) (was : Nat → Bool) (gone : Nat → Bool) (clear : Nat → State → State) (s : State) : State × Nat :=
  (List.range n).foldl (fun x i => if was i && gone i then (clear i x.1, x.2 + 1) else x) (s, 0)

/-- The lock state of a car in a channel, no bypass granted: the cause of an unintended-movement trip is gone. -/
def State.ucmGone (s : State) (c : Nat) : Bool :=
  [s.safe.a, s.safe.b].all (fun x => flagAt x.lock c && !flagAt x.bypass c)

/-- R407 is met on no channel of the car. -/
def State.overGone (s : State) (c : Nat) : Bool :=
  match s.carAxis c with
  | none => true
  | some a =>
    let w := s.vWindow a
    let v := s.nat SAFE_CAR.v_rated c
    let sp := s.carS c
    (!sp.isEmpty || !flagAt s.safe.estCar c) && sp.all (fun y =>
      y.2 < w * (v * s.nat SAFE_CAR.asc_pct c / 1000 : Nat) && -y.2 < w * (v * s.nat SAFE_CAR.overspeed_pct c / 1000 : Nat))

def State.outGone (s : State) (o : Nat) : Bool :=
  let x := s.outOf o
  match x.fault with
  | 5 => s.safe.outs.all (fun y => y.runA == 0 && y.runB == 0)
  | 6 => x.brakePassed
  | _ => s.safe.a.siOf (s.edmOf o) && s.safe.b.siOf (s.edmOf o)

/-- The safety reset: clears every latch whose cause is gone in both channels; refused where one stays. It gives how many it
cleared, none where SAFE.reset_si withholds the reset. Log entry 211. -/
def State.safetyReset (s : State) : State × Option Nat :=
  let r := s.nat SAFE.reset_si
  if r ≠ 0 ∧ !(s.safe.a.siOf r && s.safe.b.siOf r) then (s.raise 0xBB (le 1 1 ++ le 4 0), none)
  else
    let (s, n1) := s.clearWhere 24
      (fun i => s.flag SAFE_IN.flags 0 i && ((nth s.safe.a.ins i).fault || (nth s.safe.b.ins i).fault))
      (fun i => [s.safe.a, s.safe.b].all (fun c =>
        pairAgrees (s.nat SAFE_IN.kind i) (nth c.ins i).levelA (nth c.ins i).levelB))
      (fun i s => let f (x : SafeIn) : SafeIn := { x with fault := false, actRun := 0, inactRun := 0, disRun := 0 }
                  (s.onSafeIn 0 i f).onSafeIn 1 i f)
    let both (f : SafeChan → SafeChan) (s : State) : State := (s.onChan false f).onChan true f
    let (s, n2) := s.clearWhere 4 (fun c => flagAt s.safe.a.ucm c || flagAt s.safe.b.ucm c) s.ucmGone
      (fun c s => both (fun x => { x with ucm := x.ucm.set c false }) s)
    let (s, n3) := s.clearWhere 4 (fun c => flagAt s.safe.a.ovr c || flagAt s.safe.b.ovr c) s.overGone
      (fun c s => both (fun x => { x with ovr := x.ovr.set c false }) s)
    let (s, n4) := s.clearWhere 12 (fun a => flagAt s.safe.a.slsViol a || flagAt s.safe.b.slsViol a)
      (fun a => !(s.slsActive s.safe.a a || s.slsActive s.safe.b a) || !s.slsExceeded a)
      (fun a s => both (fun x => { x with slsViol := x.slsViol.set a false }) s)
    let (s, n5) := s.clearWhere 24 (fun o => (s.outOf o).fault != 0) s.outGone
      (fun o s =>
        let five := (s.outOf o).fault == 5
        let s := s.onOut o (fun x => { x with fault := 0, react := 0, settled := false, since := s.stage.boundaries })
        if five then both (fun x => { x with drop := false }) s else s)
    let agree := s.safe.xcmpRun == 0
    let n6 := if s.safe.xcmpFault && agree then 1 else 0
    let s := if n6 = 1 then { s with safe := { s.safe with xcmpFault := false } } else s
    let left := s.safe.xcmpFault || s.safe.outs.any (fun o => o.fault != 0) ||
      [s.safe.a, s.safe.b].any (fun c => c.ucm.any id || c.ovr.any id || c.slsViol.any id || c.ins.any (·.fault))
    let n := n1 + n2 + n3 + n4 + n5 + n6
    (s.raise 0xBB (le 1 (b2n left) ++ le 4 n), some n)

end Sys2Proof.Machine
end

