-- ==== Sys2Proof/Machine/Paths.lean ====
section
/-! DEFINITION. Path groups and gear couplings of chapter 07: segment geometry, the drive of Λ, and the geared and phase
displacements (R284 to R303). -/

namespace Sys2Proof.Machine

def State.pgOf (s : State) (g : Nat) : Pg := nth s.pg g

def State.onPgBook (g : Nat) (f : PgBook → PgBook) (s : State) : State := { s with pgBook := s.pgBook.modify g f }

/-! ### Members (R284) -/

/-- The axes of a group, slot by slot. -/
def State.members (s : State) (g : Nat) : List Nat :=
  (List.range 12).filter (fun a => bit (s.nat PATH.members g) a)

/-- The slots that set the feed, PATH.feed_mask after its default. -/
def State.feedSlots (s : State) (g : Nat) : List Bool :=
  let m := if s.raw PATH.feed_mask g = 0 then s.nat PATH.members g else s.nat PATH.feed_mask g
  (s.members g).map (bit m)

/-- The group that an axis belongs to. -/
def State.groupOf (s : State) (a : Nat) : Option Nat := (List.range 4).find? (fun g => (s.members g).contains a)

/-- PATH.profile under a feed cap, if there is one. -/
def State.pathProf (s : State) (g : Nat) (cap : Option Nat) : Prof :=
  let p := s.nat PATH.profile g
  let vm := s.profVmax p * 65536
  s.profAt p (match cap with | some c => min vm (c * 65536) | none => vm)

/-- The same with the accelerations that the present move of Λ began with (R281, R284). -/
def State.feedProf (s : State) (g : Nat) (cap : Option Nat) (gen : Gen) : Prof := gen.profFor (fun _ _ => s.pathProf g cap) gen.prof 0

/-! ### Segment geometry (R286 to R289) -/

/-- Least integer whose square is at least the sum of squares. -/
def normUp (ds : List Int) : Nat := ceilSqrt ((ds.map (fun d => d.natAbs ^ 2)).sum)

/-- L of R286 for the displacements of all slots. -/
def lineLength (k : Nat) (feed : List Bool) (ds : List Int) : Nat :=
  let r := ds.map (fun d => rndShift d k)
  let n := normUp ((r.zip feed).map (fun x => if x.2 then x.1 else 0))
  if n = 0 then max 1 (r.foldl (fun m d => max m d.natAbs) 0) else n

def slotAt (l : List Int) (i : Nat) : Int := l.getD i 0

/-- The two plane slots and the direction of an arc. -/
def planeA (c : PathCmd) : Nat := c.plane % 4
def planeB (c : PathCmd) : Nat := c.plane / 4 % 4
def arcNeg (c : PathCmd) : Bool := bit c.plane 4

def isArc (c : PathCmd) : Bool := c.cmd == 3

/-- The displacements of a segment from its start. -/
def segDelta (start ends : List Int) : List Int := (List.range start.length).map (fun i => slotAt ends i - slotAt start i)

/-- A segment with its geometry, from the start position of each slot (R286, R288). -/
def State.segGeom (s : State) (g : Nat) (c : PathCmd) (start : List Int) : Seg :=
  let k := s.nat PATH.shift g
  let ds := segDelta start c.ends
  if isArc c then
    let (i, j) := ((planeA c), (planeB c))
    let cx := slotAt c.centre 0
    let cy := slotAt c.centre 1
    let (sx, sy) := (slotAt start i - cx, slotAt start j - cy)
    let (ex, ey) := (slotAt c.ends i - cx, slotAt c.ends j - cy)
    let ts := angle32 sx sy
    let te := angle32 ex ey
    let d : Int := if (arcNeg c) then (ts : Int) - te else (te : Int) - ts
    let a := wrapU d 32 + c.turns * 2 ^ 32
    { cmd := c, len := c.arclen, start := start, rs := normUp [sx, sy], re := normUp [ex, ey], thetaS := ts
      swept := if a = 0 then 2 ^ 32 else a }
  else { cmd := c, len := lineLength k (s.feedSlots g) ds, start := start }

/-- Position of a slot on a line at λ (R287). -/
def lineAt (s e : Int) (len lam : Nat) : Int := s + divMag ((e - s) * lam) len

/-- Position of slot `i` on a segment at λ, 0 ≤ λ ≤ L (R287 to R289). -/
def Seg.at (g : Seg) (i lam : Nat) : Int :=
  let s := slotAt g.start i
  let e := slotAt g.cmd.ends i
  if lam = 0 then s
  else if g.len ≤ lam then e
  else if isArc g.cmd && (i == (planeA g.cmd) || i == (planeB g.cmd)) then
    let sd : Int := if (arcNeg g.cmd) then -1 else 1
    let th := wrapU ((g.thetaS : Int) + sd * (g.swept * lam / g.len : Nat)) 32
    let dr : Int := (g.re : Int) - g.rs
    let r : Int := (g.rs : Int) + divMag (dr * lam) g.len
    let (cs, sn) := cosSin th 30
    if i = (planeA g.cmd) then slotAt g.cmd.centre 0 + rndShift (r * cs) 30
    else slotAt g.cmd.centre 1 + rndShift (r * sn) 30
  else lineAt s e g.len lam

/-- λ of a segment at path parameter Λ. -/
def Seg.lam (g : Seg) (l : Int) : Nat := (clamp (l - g.s0) 0 g.len).toNat

/-- The feed cap of a segment in path steps per Stage (R291). -/
def State.segCap (s : State) (g : Nat) (q : Seg) : Nat :=
  let ms := s.members g
  let base := [s.profVmax (s.nat PATH.profile g)] ++ (if q.cmd.vcap = 0 then [] else [q.cmd.vcap])
  let more :=
    if isArc q.cmd then [(planeA q.cmd), (planeB q.cmd)].map (fun i => s.nat AXIS.v_limit (ms.getD i 0) / 2 ^ s.nat PATH.shift g)
    else ((segDelta q.start q.cmd.ends).zip ms).filterMap (fun (d, a) =>
      if d = 0 then none else some (s.nat AXIS.v_limit a * q.len / d.natAbs))
  (base ++ more).foldl min (2 ^ 47)

/-! ### Checks (R297) -/

def State.softBroken (s : State) (a : Nat) (p : Int) : Bool :=
  s.flag AXIS.flags 3 a && !s.flag AXIS.flags 0 a && (p < s.int AXIS.soft_min a || s.int AXIS.soft_max a < p)

/-- PLANE names a slot that is not a member, or the same slot twice. -/
def State.planeBad (s : State) (g : Nat) (c : PathCmd) : Bool :=
  let n := (s.members g).length
  isArc c && (n ≤ planeA c || n ≤ planeB c || planeA c == planeB c)

/-- An end point lies beyond a member's soft limits. -/
def State.endBroken (s : State) (g : Nat) (c : PathCmd) : Bool := ((s.members g).zip c.ends).any (fun (a, e) => s.softBroken a e)

/-- The reason for which a segment with known geometry is rejected; 0 for none. -/
def State.segReason (s : State) (g : Nat) (q : Seg) : Nat :=
  let k := s.nat PATH.shift g
  let c := q.cmd
  let bad := s.planeBad g c || isArc c && (decide (s.nat PATH.arc_tol g < ((q.rs : Int) - q.re).natAbs)
    || decide (c.arclen < lineLength k (s.feedSlots g) (segDelta q.start c.ends)))
  if bad then 2
  else if 2 ^ 32 ≤ q.len then 3
  else if s.endBroken g c then 4
  else 0

/-- The same where the start is not yet known: what does not rest on it. -/
def State.segReason0 (s : State) (g : Nat) (c : PathCmd) : Nat :=
  if s.planeBad g c then 2 else if s.endBroken g c then 4 else 0

def segPl (g reason tag : Nat) : List Octet := le 1 g ++ le 1 reason ++ le 4 tag

/-! ### The queue (R285, R293 to R295) -/

/-- BLEND of a segment, at most half of it and of the next. Log entry 55. -/
def blendOf (q : Seg) (next : Nat) : Nat := min q.cmd.blend (min (q.len / 2) (next / 2))

/-- Λ as published. -/
def Pg.lambda (p : Pg) : Int := floorShift p.peRef 16

/-- Appends a segment behind the last planned one; true when its blend was dropped (R294). -/
def Pg.append (q : Seg) (p : Pg) : Pg × Bool :=
  match p.queue.getLast? with
  | none => ({ p with queue := [{ q with s0 := p.gen.target.toNat }] }, false)
  | some l =>
    let b := blendOf l q.len
    let dropped := 0 < b ∧ (l.s0 + l.len - b : Int) < p.lambda
    ({ p with queue := p.queue ++ [{ q with s0 := l.s0 + l.len - (if dropped then 0 else b) }] }, decide dropped)

/-- END_L: Λ at the end of the last queued segment. -/
def Pg.endL (p : Pg) : Int :=
  match p.queue.getLast? with
  | none => p.gen.target
  | some q => (q.s0 + q.len : Nat)

/-- The member references at Λ (R285). -/
def Pg.refsAt (p : Pg) (l : Int) : List Int :=
  (List.range p.pStart.length).map (fun i =>
    slotAt p.pStart i + slotAt p.retired i + (p.queue.map (fun q => q.at i (q.lam l) - q.at i 0)).sum)

/-- Retires the segments that Λ has passed (R295). -/
def Pg.retire (l : Int) : Nat → Pg → Pg
  | 0, p => p
  | n + 1, p =>
    match p.queue with
    | q :: qs =>
      if (q.s0 + q.len : Int) < l ∨ ((q.s0 + q.len : Int) = l ∧ qs ≠ []) then
        Pg.retire l n { p with
          queue := qs, segments := inc32 p.segments
          retired := (List.range p.pStart.length).map (fun i => slotAt p.retired i + (q.at i q.len - q.at i 0)) }
      else p
    | [] => p

/-! ### The drive of Λ (R284, R291, R292) -/

/-- The cap in force at raw Λ: the lesser of the segments that hold it. -/
def State.capHere (s : State) (g : Nat) (p : Pg) (pe : Int) : Nat :=
  ((p.queue.filter (fun q => (q.s0 : Int) * 65536 ≤ pe ∧ pe < ((q.s0 + q.len : Nat) : Int) * 65536)).map
    (s.segCap g)).foldl min (2 ^ 47)

/-- The candidate speed of a cap zone ahead (R292). -/
def zoneSpeed (p : Prof) (rem : Int) (c v : Nat) : Nat :=
  let ok := [p.up v, v, p.dn p.vs v].filter (fun u => (p.brake c u : Int) ≤ rem - u)
  match ok with
  | [] => p.dn p.vs v
  | u :: us => us.foldl max u

/-- u of the group in one Stage, and whether a cap held it. -/
def State.pathSpeed (s : State) (g : Nat) (p : Pg) : Nat × Bool :=
  let pe := p.gen.pe
  let v := p.gen.ve.natAbs
  let here := s.capHere g p pe
  let pr := s.feedProf g (some here) p.gen
  let free := (s.feedProf g none p.gen).choose (p.endL * 65536 - pe) v
  let main := pr.choose (p.endL * 65536 - pe) v
  let zones := p.queue.filterMap (fun q =>
    let c := s.segCap g q * 65536
    if pe < (q.s0 : Int) * 65536 ∧ c < v then some (zoneSpeed pr ((q.s0 : Int) * 65536 - pe) c v) else none)
  let u := zones.foldl min main
  (u, decide (u < free))

/-- One Stage of a group: Λ moves, the references follow (R284, R285). -/
def State.pathStage (s : State) (g restAt : Nat) (p : Pg) : Pg :=
  let (gen, u, capped) : Gen × Int × Bool :=
    match p.gen.phase with
    | .pos =>
      let (u, capped) := s.pathSpeed g p
      let e := p.endL
      let pr := s.feedProf g none p.gen
      if p.gen.pe = e * 65536 ∧ u = 0 then ({ p.gen.toRest restAt with phase := .rest, target := e, held := none }, (0 : Int), false)
      else ({ p.gen with
          pe := p.gen.pe + u, ve := u, target := e
          held := if u = 0 then none else some (p.gen.prof, pr.a1, pr.a2, pr.d1, pr.d2) }, (u : Int), capped)
    | _ =>
      let r := p.gen.stage (fun _ _ => s.pathProf g none) restAt
      (r.1, r.2, false)
  let (filt, w) := (if gen.newM then p.filt.useM (s.pathProf g none).smooth else p.filt).push u
  let pe := p.peRef + w
  let p := { p with gen := { gen with newM := false }, filt := filt, w := w, peRef := pe, capped := capped }
  let refs := p.refsAt p.lambda
  let old := p.refs
  let p := { p with refs := refs, dRef := (List.range refs.length).map (fun i => slotAt refs i - slotAt old i) }
  let p := p.retire p.lambda (p.queue.length + 1)
  let tag := ((p.queue.find? (fun q => p.lambda ≤ (q.s0 + q.len : Nat))).map (fun q => q.cmd.tag)).getD p.segTag
  let p := { p with segTag := tag }
  if p.st == PgState.running && p.gen.phase == GenPhase.rest && p.filt.empty then { p with st := .done } else p

/-! ### Gear couplings (R299 to R303) -/

def State.gcOf (s : State) (c : Nat) : Gc := nth s.gc c

/-- The coupling whose slave is an axis. -/
def State.couplingOf (s : State) (a : Nat) : Option Nat := (List.range 12).find? (fun c => s.nat GEAR.slave c == a + 1)

/-- The master position. -/
def State.masterPos (s : State) (c : Nat) : Int :=
  let i := s.nat GEAR.src_index c
  match s.nat GEAR.src c with
  | 1 => (nth s.axe i).pRef
  | 2 => (nth s.book i).pf
  | _ => (nth s.snap i).pos

/-- dx of the master in this Stage. -/
def State.masterDx (s : State) (c : Nat) : Int :=
  let i := s.nat GEAR.src_index c
  match s.nat GEAR.src c with
  | 1 => s.modDelta i ((nth s.axe i).pRef - nth s.axPrevRef i)
  | 2 => s.modDelta i ((nth s.book i).pf - (nth s.book i).pfPrev)
  | _ => (nth s.snap i).pos - (nth s.snapPrev i).pos

/-- The master is lost: its axis faulted, Idle or disabled, or its channel faulted. -/
def State.masterLost (s : State) (c : Nat) : Bool :=
  let i := s.nat GEAR.src_index c
  let axisBad := (nth s.book i).fault || !s.measuring i && (!(nth s.axe i).enabled || (nth s.axe i).mode == 0)
  match s.nat GEAR.src c with
  | 1 => axisBad
  | 2 => axisBad || (match s.fbPos i with | some ch => (nth s.snap ch).fault | none => false)
  | _ => (nth s.snap i).fault

def State.gearSign (s : State) (c : Nat) : Int := if s.flag GEAR.flags 2 c then -1 else 1

/-- y of R300 at distance `x` from the origin. -/
def engageY (se num : Int) (den de : Nat) (x : Int) : Int :=
  if x ≤ 0 ∨ de = 0 then 0
  else
    let xc := (min x de).toNat
    let q := xc * xc / de
    se * sgn num * ((num.natAbs * q / (2 * den) : Nat) : Int)

/-- y of R302 at distance `x` from the start of disengaging. Log entry 52. -/
def disengageY (se num : Int) (den dd : Nat) (x : Int) : Int :=
  let xc := (clamp x 0 dd).toNat
  let q := if dd = 0 then 0 else xc * xc / dd
  se * sgn num * ((num.natAbs * (2 * xc - q) / (2 * den) : Nat) : Int)

/-- A coupling at entry to Geared (R299). -/
def State.gearEnter (s : State) (c : Nat) : Gc :=
  let losses := (s.gcOf c).losses
  let dist := s.flag GEAR.flags 0 c
  let x := if dist then s.gearSign c * (s.masterPos c - s.int GEAR.engage_pos c) else 0
  { st := if dist && decide (x < 0) then .armed else if s.nat GEAR.engage_len c = 0 && !dist then .locked else .engaging
    x := x, losses := losses }

/-- LOCKED: the displacement moves by the ratio (R301). -/
def Gc.ratio (num : Int) (den : Nat) (dx : Int) (g : Gc) : Gc :=
  let y := rstepExact dx num den g.rem
  { g with disp := g.disp + y.1, rem := y.2 }

/-- ENGAGING at the present x (R300). -/
def Gc.engage (se num : Int) (den de : Nat) (g : Gc) : Gc :=
  if (de : Int) < g.x ∨ (de = 0 ∧ g.x = 0) then
    { g with st := .locked, disp := engageY se num den de de, rem := 0 }.ratio num den (se * (g.x - de))
  else { g with disp := engageY se num den de g.x }

/-- A coupling that is ENGAGING or LOCKED moves on by a master increment (R300, R301). -/
def Gc.advance (se num : Int) (den de : Nat) (dx : Int) (g : Gc) : Gc :=
  if g.st = .engaging then { g with x := g.x + se * dx }.engage se num den de else g.ratio num den dx

/-- One Stage of a coupling with master increment `dx`; true when disengaging has ended (R302). Log entry 53. -/
def State.gearStage (s : State) (c : Nat) (dx : Int) (g : Gc) : Gc × Bool :=
  let num := s.int GEAR.num c
  let den := s.nat GEAR.den c
  let de := s.nat GEAR.engage_len c
  let dd := s.nat GEAR.disengage_len c
  let se := s.gearSign c
  let g := { g with lastDx := if dx = 0 then g.lastDx else dx }
  match g.st with
  | .off => (g, false)
  | .armed =>
    let g := { g with x := g.x + se * dx }
    if g.x < 0 then (g, false) else ({ g with st := .engaging }.engage se num den de, false)
  | .disengaging =>
    let x := g.disX + g.disDir * dx
    ({ g with disX := x, disp := g.disBase + disengageY se num den dd x }, (dd : Int) ≤ x)
  | _ =>
    let x := g.disX + g.disDir * dx
    if !g.disPending then (g.advance se num den de dx, false)
    else if x ≤ 0 then ({ g.advance se num den de dx with disX := x }, false)
    else
      let g := g.advance se num den de (dx - g.disDir * x)
      let g := { g with st := .disengaging, disPending := false, disX := x, disBase := g.disp }
      ({ g with disp := g.disBase + disengageY se num den dd x }, (dd : Int) ≤ x)

/-- STOP in Geared starts DISENGAGING (R302). Log entry 52. -/
def State.gearStop (s : State) (c : Nat) (g : Gc) : Gc :=
  let d : Int := if g.lastDx < 0 then -1 else 1
  if s.flag GEAR.flags 1 c then
    let x := d * (s.masterPos c - s.int GEAR.disengage_pos c)
    if x < 0 then { g with disPending := true, disX := x, disDir := d }
    else { g with st := .disengaging, disX := 0, disDir := d, disBase := g.disp }
  else { g with st := .disengaging, disX := 0, disDir := d, disBase := g.disp }

def gcCode : GcState → Nat
  | .off => 0 | .armed => 1 | .engaging => 2 | .locked => 3 | .disengaging => 4

/-- A coupling takes its new state, with the event of a change. -/
def State.setGc (c : Nat) (g : Gc) (s : State) : State :=
  let was := (s.gcOf c).st
  let s := s.onGc c (fun _ => g)
  if was = g.st then s
  else s.raise 0x69 (le 1 c ++ le 1 (gcCode was) ++ le 1 (gcCode g.st) ++ le 8 (s.masterPos c))

end Sys2Proof.Machine
end

