-- ==== Sys2Proof/Machine/Handover.lean ====
section
/-! DEFINITION. What an axis makes of one Stage: its reference in each mode, the cascade, and the hand-over between modes
(R232 to R245, R269 to R277, R299 to R303). -/

namespace Sys2Proof.Machine

/-! ### Access -/

def State.axOf (s : State) (a : Nat) : Axis := nth s.ax a

def State.bookOf (s : State) (a : Nat) : AxisBook := nth s.book a

def State.homeOf (s : State) (a : Nat) : Home := nth s.home a

/-- The homing sequence of an axis runs. -/
def State.homing (s : State) (a : Nat) : Bool := (s.homeOf a).phase != .none

/-- The profile of an axis's generator: in Homing the record's speed with the accelerations of the first profile (R320),
under SLS its speed limit at d_quick (R411). Log entry 107. -/
def State.axProf (s : State) (a p cap : Nat) : Prof :=
  let q := if (s.axOf a).mode = 7 then s.profAt (s.nat AXIS.prof_first a) (cap * 65536) else s.profOf p cap
  if s.slsActive s.safe.a a then
    let vm := min q.vMax (s.nat SAFE_AXIS.sls_v a * 65536)
    { q with vMax := vm, v1 := min q.v1 vm, vStart := min q.vStart vm, ovr := s.dQuick a }
  else q

/-- The landing positions of a car (R359). Log entry 65. -/
def State.landings (s : State) (c : Nat) : List Int :=
  (List.range (s.nat CAR.count c)).map (fun l =>
    rndShift (s.int LANDING.zone_lo (256 * c + l) + s.int LANDING.zone_hi (256 * c + l)) 1 +
      s.int LANDING.trim (256 * c + l))

/-- Where reversals of an axis go to landings only (R263). -/
def State.landOnly (s : State) (a : Nat) : Option (List Int) :=
  if s.flag AXIS.flags 2 a && (s.mode.mode == 2 || s.mode.mode == 4 || s.mode.mode == 5) then
    (s.carOf a).map s.landings
  else none

/-! ### The reference of one Stage -/

/-- An axis fault found in a Stage (R280): its cause, the detail of its event, and for cause 5 the value before saturation,
the detail being the quantity (R127). -/
structure AxFault where
  cause : Nat
  detail : Int := 0
  value : Int := 0
  deriving DecidableEq, Repr, Inhabited

/-- The fault of a value that does not fit its format of `n` bits, if it does not (R127). -/
def overFault (q : Nat) (v : Int) (n : Nat) : List AxFault :=
  if sat v n = v then [] else [{ cause := 5, detail := q, value := v }]

/-- One fault found is raised. -/
def State.raiseFault (a : Nat) (s : State) (f : AxFault) : State :=
  if f.cause = 5 then s.axisSaturated a f.detail.toNat f.value else s.axisFault a f.cause f.detail

/-- The faults found for an axis in one Stage are raised, the lowest cause first (R280). -/
def State.raiseFaults (a : Nat) (l : List AxFault) (s : State) : State :=
  [4, 5, 6].foldl (fun s c => (l.filter (·.cause == c)).foldl (State.raiseFault a) s) s

/-- What a mode gives in one Stage: the axis with its generator moved on, its unblended p_ref and v_ff, and the axis
faults of R272 and R127. -/
structure RefOut where
  x : Axis
  p : Int
  v : Int
  bad : List AxFault := []
  deriving DecidableEq, Repr, Inhabited

/-- The generator and the filter give the reference (R255 to R262). -/
def State.genRef (s : State) (a restAt : Nat) (x : Axis) : RefOut :=
  let (g, f, w) := x.gen.smooth (s.axProf a) restAt x.filt
  let pe := x.peRef + w
  { x := { x with gen := g, filt := f, peRef := pe }, p := floorShift pe 16, v := w }

/-- A reference that moves by `d` grains. Log entry 54. -/
def Axis.stepRef (x : Axis) (d : Int) : RefOut :=
  let pe := x.peRef + d * 65536
  { x := { x with peRef := pe, gen := { x.gen with pe := pe } }, p := floorShift pe 16, v := d * 65536 }

/-- Δx of a Follow source (R269); of pulses, the Stage whose edges have all been accepted, no sooner than the one that Follow
was entered in (R271). Log entry 57. -/
def State.followDx (s : State) (a : Nat) (x : Axis) : Int :=
  let k := s.nat AXIS.follow_index a
  match s.nat AXIS.follow_src a with
  | 1 => if x.enterAt + 2 ≤ s.stage.boundaries then (nth s.cap (2 * k)).risesStage else 0
  | _ =>
    let n := nth s.snap k
    let o := nth s.snapPrev k
    (n.turns - o.turns) * s.cpr k + ((n.count : Int) - o.count)

/-- The Follow source is not valid (R272). -/
def State.followLost (s : State) (a : Nat) : Bool :=
  let k := s.nat AXIS.follow_index a
  match s.nat AXIS.follow_src a with
  | 1 => false
  | 2 => (nth s.snap k).fault || !(nth s.snap k).valid
  | 3 => (nth s.ain k).sat
  | _ => true

/-- Follow (R269 to R272). -/
def State.followRef (s : State) (a restAt : Nat) (first : Bool) (x : Axis) : RefOut :=
  let num := s.int AXIS.follow_num a
  let den := s.nat AXIS.follow_den a
  let lim := s.nat AXIS.v_limit a
  let lost : List AxFault := if s.followLost a then [{ cause := 6 }] else []
  if s.nat AXIS.follow_src a = 3 then
    let y := (nth s.ain (s.nat AXIS.follow_index a)).y
    let dead := s.nat AXIS.follow_dead a
    let t := if y.natAbs ≤ dead then 0 else (rstepExact (y - sgn y * dead) num den 0).1
    let v := sat t 48
    let g := x.gen
    let waits := g.phase == .dwell && !g.mayStart (sgn v)
    let pf := s.nat AXIS.prof_first a
    let g : Gen := { g with
      prof := pf, vcap := 0, vtgt := v * 65536, newM := g.newM || g.ve == 0
      phase := if waits then .dwell else .vel
      next := if waits then some { vel := true, target := v, prof := pf } else none }
    let r := s.genRef a restAt { x with gen := g }
    { r with bad := overFault 4 t 48 ++ lost }
  else if first || !lost.isEmpty then { (x.stepRef 0) with bad := lost }
  else
    let y := rstepExact (s.followDx a x) num den x.followRem
    let r := { x with followRem := y.2 }.stepRef (sat y.1 48)
    { r with bad := overFault 4 y.1 48 ++ (if lim < y.1.natAbs then [{ cause := 6, detail := y.1 }] else []) }

/-- Path: the step of the group's reference. Log entries 54, 63. -/
def State.pathRef (s : State) (a : Nat) (x : Axis) : RefOut :=
  match s.groupOf a with
  | none => x.stepRef 0
  | some g =>
    let p := s.pgOf g
    let i := (s.members g).findIdx (· == a)
    if p.st = .idle ∨ p.refs.length ≤ i then x.stepRef 0
    else x.stepRef (s.modDelta a (slotAt p.refs i - floorShift x.peRef 16))

/-- The phase move of a coupling in one Stage (R303). -/
def State.phaseStage (s : State) (a restAt : Nat) (g : Gc) : Gc :=
  let (pg, f, w) := g.phaseGen.smooth (s.axProf a) restAt g.phaseFilt
  let pe := g.phasePe + w
  { g with phaseGen := pg, phaseFilt := f, phasePe := pe, phase := floorShift pe 16 }

/-- Geared: the coupling moves on, and the slave by what it gives (R299 to R303). Also the coupling's new state and
whether disengaging has ended. Log entries 53, 54. -/
def State.gearRef (s : State) (a restAt : Nat) (first : Bool) (x : Axis) : RefOut × Option (Nat × Gc × Bool) :=
  match s.couplingOf a with
  | none => (x.stepRef 0, none)
  | some c =>
    let g0 := s.gcOf c
    let (g1, done) := s.gearStage c (if first then 0 else s.masterDx c) g0
    let g1 := s.phaseStage a restAt g1
    let d := (g1.disp - g0.disp) + (g1.phase - g0.phase)
    let e := sat d 48
    ({ x.stepRef e with bad := overFault 4 d 48 }, some (c, { g1 with disp := g1.disp + (e - d) }, done))

/-- The reference that a mode gives in one Stage. Log entry 58. -/
def State.modeRef (s : State) (a restAt mode : Nat) (first : Bool) (x : Axis) : RefOut :=
  match mode with
  | 1 => s.genRef a restAt x
  | 2 => s.genRef a restAt x
  | 7 => s.genRef a restAt x
  | 3 => if x.decel then s.genRef a restAt x else s.followRef a restAt first x
  | 4 => if x.decel then s.genRef a restAt x else (s.gearRef a restAt first x).1
  | 5 => s.pathRef a x
  | _ => if x.decel then s.genRef a restAt x else x.stepRef 0

/-! ### The cascade (R241 to R243) -/

/-- What the cascade gives: iq, the new integrator, the following error, and the direction in which the integrator has
reached its limit, 0 for none. -/
structure Casc where
  iq : Int := 0
  acc : Int := 0
  ep : Int := 0
  ipia : Int := 0
  velSat : Bool := false
  vcRaw : Int := 0
  lim : Int := 0
  deriving DecidableEq, Repr, Inhabited

/-- ep of R241. -/
def State.follErr (s : State) (a : Nat) (pRef pf : Int) : Int := sat (s.modDelta a (pRef - pf)) 48

/-- The cascade of R241 with current limit `ilim`. -/
def State.cascade (s : State) (a : Nat) (ilim : Nat) (pRef vff aref pf vf acc : Int) : Casc :=
  let ep := s.follErr a pRef pf
  let vl : Int := s.nat AXIS.v_limit a * 65536
  let raw := vff + rndShift (ep * s.int AXIS.kp a) 8
  let vc := clamp (sat raw 64) (-vl) vl
  let ev := sat (vc - vf) 64
  let ipia := rndShift (ev * s.int AXIS.kv a) 32 + rndShift (aref * s.int AXIS.kaff a) 32
  let iq := clamp (sat (ipia + floorShift acc 16) 24) (-(ilim : Int)) ilim
  let int : Int := s.nat AXIS.i_int a * 65536
  let held := (iq = ilim ∧ 0 < ev) ∨ (iq = -(ilim : Int) ∧ ev < 0)
  let nx := acc + rndShift (ev * s.int AXIS.ki a) 32
  let acc' := if held then acc else clamp nx (-int) int
  let lim : Int := if held ∨ acc' = acc then 0 else if nx ≥ int then 1 else if nx ≤ -int then -1 else 0
  { iq := iq, acc := acc', ep := ep, ipia := ipia, velSat := decide (sat raw 64 ≠ raw), vcRaw := raw, lim := lim }

/-- iq of Torque mode for a commanded current (R243). Log entry 58. -/
def State.torqueIq (s : State) (a : Nat) (c vf acc : Int) : Int :=
  let ilim : Int := s.nat AXIS.i_lim a
  let c := clamp c (-ilim) ilim
  let vl : Int := s.nat AXIS.v_limit a * 65536
  if c = 0 then 0
  else if sgn c * vf ≤ vl then c
  else
    let ev := sat (sgn c * vl - vf) 64
    let il := clamp (sat (rndShift (ev * s.int AXIS.kv a) 32 + floorShift acc 16) 24) (-ilim) ilim
    if 0 < c then min c il else max c il

/-! ### Hand-over between modes (R273 to R277, R749) -/

/-- Device modes that permit an axis mode (R250, R682). -/
def modePermits (dev ax : Nat) : Bool :=
  match ax with
  | 0 => true
  | 1 => [1, 2, 3, 4, 5].contains dev
  | 2 => [1, 2, 3, 4].contains dev
  | 3 => [1, 2, 4].contains dev
  | 4 => [1, 2, 4].contains dev
  | 5 => [1, 2, 4].contains dev
  | 6 => [1, 2].contains dev
  | _ => [1, 2, 3, 4, 5].contains dev

/-- The entry condition of a mode, apart from being enabled (axis modes table, R318). -/
def State.entryOk (s : State) (a mode : Nat) : Bool :=
  let x := s.axOf a
  x.enabled && match mode with
  | 1 => x.homed
  | 3 => s.nat AXIS.follow_src a != 0 && !s.followLost a
  | 4 => (s.couplingOf a).isSome
  | 5 => x.homed && (s.groupOf a).isSome
  | 7 => x.standstill && s.nat HOMING.method a != 0
  | _ => true

/-- The axis preloaded for a new mode from its last committed output (R273), with no residue: for a profile mode the generator
at the reference with the filtered velocity, brought to rest where it moves (R749). In any other mode the generator comes to
rest here (R264). Log entry 61. -/
def State.preload (s : State) (a mode : Nat) (x : Axis) : Axis :=
  let pf := s.nat AXIS.prof_first a
  let x := { x with
    kept := none, decel := false, ramp := false, blendLeft := 0, iBlendLeft := 0, moveDone := false
    peRef := x.pRef * 65536, enterAt := s.stage.boundaries, followRem := 0, mode := mode, iqFrom := none }
  let rest : Gen := { x.gen.toRest s.nextBoundary with
    phase := .rest, pe := x.peRef, prof := pf, vcap := 0, next := none, target := x.pRef, vtgt := 0 }
  if mode = 1 ∨ mode = 2 ∨ mode = 7 then
    let w := x.vFF
    if w = 0 then { x with gen := rest, filt := { m := 1 } }
    else { x with
      gen := { rest with phase := .stop, ve := w, dir := sgn w, lastDir := sgn w }
      filt := Filt.fill (s.profOf pf 0).smooth w }
  else { x with gen := rest, filt := { m := 1 } }

/-- K of R276. -/
def State.blendK (s : State) (a : Nat) (b0 : Int) : Nat :=
  max (s.stagesOf (s.nat AXIS.blend a)) (ceilDiv b0.natAbs (s.nat AXIS.hand_dv a))

/-- The first quantity of a disagreement beyond its limit (R274). -/
def State.refusal (s : State) (a : Nat) (dp dv di : Int) : Option (Nat × Int) :=
  if s.nat AXIS.hand_dp a < dp.natAbs then some (0, dp)
  else if s.nat AXIS.hand_dv a * 65536 < dv.natAbs then some (1, dv)
  else if s.nat AXIS.hand_di a < di.natAbs then some (2, di)
  else none

/-- The axis's reference of this Stage goes through its blend (R276). -/
def Axis.blend (r : RefOut) : Axis :=
  let x := r.x
  if x.blendLeft = 0 then { x with aRef := r.v - x.vFF, vFF := r.v, pRef := r.p }
  else
    let y := rstepExact x.blendB0 1 x.blendK x.blendQ
    let b := x.blendB - y.1
    let v := r.v - y.1 * 65536
    { x with
      blendB := b, blendQ := y.2, blendLeft := x.blendLeft - 1
      pRef := r.p + b, aRef := v - x.vFF, vFF := v }

/-- The integrator that lets the cascade begin from the current `iq` of Torque, within its limit (R273), and the first iq. -/
def State.accFrom (s : State) (a ilim : Nat) (x : Axis) (iq : Int) : Int × Int :=
  let b := s.bookOf a
  let int : Int := s.nat AXIS.i_int a * 65536
  let acc := clamp ((iq - (s.cascade a ilim x.pRef x.vFF x.aRef b.pf b.vf 0).ipia) * 65536) (-int) int
  (acc, (s.cascade a ilim x.pRef x.vFF x.aRef b.pf b.vf acc).iq)

/-- The hand-over of an axis into a reference mode, given the mode's first output and the disagreement of it that is
measured: the axis with its blend, or the quantity that refuses it. From Torque the current of the first blended reference is
held against iq_o; the first cascade then goes on from there. -/
def State.handRef (s : State) (a : Nat) (old new : Axis) (r : RefOut) (dp dv : Int) : Except (Nat × Int) Axis :=
  let k := s.blendK a dp
  let blended (x : Axis) : Axis := { x with blendLeft := k, blendK := k, blendB0 := -dp, blendB := -dp, blendQ := 0 }
  let di := if old.mode = 6 then
      (s.accFrom a (s.nat AXIS.i_lim a) (Axis.blend { r with x := blended r.x }) old.iq).2 - old.iq else 0
  match s.refusal a dp dv di with
  | some q => .error q
  | none => .ok { blended new with iqFrom := if old.mode = 6 then some old.iq else none }

/-- The hand-over into Torque with commanded current `i`. Log entry 246. -/
def State.handTorque (s : State) (a : Nat) (old : Axis) (i : Int) : Except (Nat × Int) Axis :=
  match s.refusal a 0 0 (i - old.iq) with
  | some q => .error q
  | none =>
    let k := s.blendK a 0
    let x := s.preload a 6 old
    let b0 := old.iq - s.torqueIq a i (s.bookOf a).vf x.acc
    .ok { x with
      torqueCmd := i, blendLeft := k, blendK := k, blendB0 := 0, blendB := 0, blendQ := 0
      iBlendLeft := k, iBlendB0 := b0, iBlendB := b0, iBlendQ := 0 }

/-- The hand-over of an axis into a mode, as a value. Log entry 61. -/
def State.handover (s : State) (a mode restAt : Nat) (i : Int) : Except (Nat × Int) Axis :=
  let old := s.axOf a
  if mode = 6 then s.handTorque a old i
  else
    let new := s.preload a mode old
    let s' := match mode, s.couplingOf a with
      | 4, some c => s.onGc c (fun _ => s.gearEnter c)
      | _, _ => s
    let r := s'.modeRef a restAt mode true new
    let dp := if mode = 4 ∨ mode = 5 then s.modDelta a (r.p - old.pRef) else 0
    let dv := if [3, 4, 5, 8].contains mode then r.v - old.vFF else 0
    s.handRef a old new r dp dv

/-- EV_HANDOVER_REFUSED with its count (R274). -/
def State.refuse (a mode : Nat) (q : Nat × Int) (s : State) : State :=
  let from_ := (s.axOf a).mode
  (s.onBook a (fun b => { b with refusals := inc32 b.refusals })).raise 0x63
    (le 1 a ++ le 1 from_ ++ le 1 mode ++ le 1 q.1 ++ le 8 q.2)

/-- What has lost the source of an axis in Follow (R272). -/
def State.followFaults (s : State) (a restAt : Nat) : List AxFault :=
  let x := s.axOf a
  if x.mode = 3 ∧ !x.decel then (s.followRef a restAt (x.enterAt == s.stage.boundaries) x).bad.filter (·.cause == 6) else []

/-- The old mode of a refused hand-over is still valid (R275). -/
def State.modeValid (s : State) (a restAt : Nat) : Bool :=
  let x := s.axOf a
  match x.mode with
  | 1 => x.homed
  | 3 => (s.followFaults a restAt).isEmpty
  | 4 => x.decel || (match s.couplingOf a with | some c => !s.masterLost c | none => false)
  | 5 => x.homed && (match s.groupOf a with | some g => (s.pgOf g).st != .broken | none => false)
  | _ => true

/-- Enters a mode through the hand-over checks (R251, R273 to R275); false when it was refused. `restAt` is the boundary
at which this Stage's output takes effect. Log entry 63. -/
def State.changeMode (a mode restAt : Nat) (i : Int) (s : State) : State × Bool :=
  let from_ := (s.axOf a).mode
  match s.handover a mode restAt i with
  | .error q =>
    let s := s.refuse a mode q
    (if s.modeValid a restAt then s
     else (s.onAx a (Axis.startRamp .held)).raiseFaults a (s.followFaults a restAt), false)
  | .ok x =>
    let s := s.onAx a (fun _ => x)
    let s := match mode, s.couplingOf a with
      | 4, some c => s.setGc c (s.gearEnter c)
      | _, some c => if from_ = 4 then s.setGc c { (s.gcOf c) with st := .off } else s
      | _, none => s
    (s.raise 0x62 (le 1 a ++ le 1 from_ ++ le 1 mode ++ le 4 x.blendK), true)

/-- Enters Held by a stop: no checks, no event (R251). -/
def State.enterHeld_ (a : Nat) (s : State) : State :=
  let s := match (s.axOf a).mode, s.couplingOf a with
    | 4, some c => s.setGc c { (s.gcOf c) with st := .off }
    | _, _ => s
  s.onAx a (fun x => { x with
    mode := 8, decel := false, kept := none, vFF := 0, aRef := 0, peRef := x.pRef * 65536, iqFrom := none
    blendLeft := 0, iBlendLeft := 0
    gen := { x.gen.toRest s.nextBoundary with phase := .rest, pe := x.pRef * 65536, next := none, target := x.pRef }
    filt := { m := 1 } })


end Sys2Proof.Machine
end

