-- ==== Sys2Proof/Machine/Homing.lean ====
section
/-! DEFINITION. Homing sequences of chapter 08: methods and phases, latching the reference, the shift (R318 to R334, R752). -/

namespace Sys2Proof.Machine

/-! ### Inputs of a sequence -/

/-- The limit inputs of an axis in one direction: DIN.role 2 positive, 3 negative (R267). -/
def State.limitIns (s : State) (a : Nat) (d : Int) : List Nat :=
  (List.range 64).filter (fun i => s.nat DIN.axis i == a + 1 && s.nat DIN.role i == (if 0 < d then 2 else 3))

/-- A limit switch in direction `d` is active. -/
def State.limitActive (s : State) (a : Nat) (d : Int) : Bool := d != 0 && (s.limitIns a d).any s.dinActive

/-- A limit input in direction `d`, other than `skip`, that has become active in this snapshot. -/
def State.limitRose (s : State) (a : Nat) (d : Int) (skip : Option Nat) : Option Nat :=
  if d = 0 then none
  else (s.limitIns a d).find? (fun i => s.dinActive i && !s.dinWas i && skip != some i)

/-- The raw edge time of an input's last filtered change (R174). -/
def State.edgeTime (s : State) (i : Nat) : Nat := s.dinSnap.edgeT.getD i 0

/-- The position kept for that change (R328, R329). -/
def State.keptPos (s : State) (a i : Nat) : Int :=
  match (s.dinOf i).kept.find? (fun k => k.1 == s.edgeTime i) with
  | some k => k.2
  | none => (s.bookOf a).pf

/-- An input bound to the axis is chattering. -/
def State.chattering (s : State) (a : Nat) : Bool :=
  (List.range 64).any (fun i => s.nat DIN.axis i == a + 1 && s.dinSnap.chatter.getD i false)

/-! ### Entry and end -/

/-- The HOMING record of an axis (R319), its defaults applied. -/
def State.readHome (s : State) (a : Nat) : HomeRec :=
  let vs := s.natOr HOMING.v_search a (s.profV1 (s.nat AXIS.prof_first a))
  { method := s.nat HOMING.method a, dir := if s.nat HOMING.dir a = 2 then -1 else 1, input := s.nat HOMING.input a
    leave := s.flag HOMING.flags 0 a, auto := s.flag HOMING.flags 1 a, final := s.flag HOMING.flags 2 a
    hsTime := s.nat HOMING.hs_time a, vSearch := vs, vCreep := s.natOr HOMING.v_creep a (vs / 16)
    homePos := s.int HOMING.home_pos a, finalPos := s.int HOMING.final a, maxDist := s.nat HOMING.max_dist a
    backoff := s.nat HOMING.backoff a, hsCurrent := s.nat HOMING.hs_current a, hsLead := s.nat HOMING.hs_lead a }

/-- HOMING.v_creep of an axis, after its default. Log entry 19. -/
def State.vCreep (s : State) (a : Nat) : Nat := (s.readHome a).vCreep

def homeCode : HomePhase → Nat
  | .none => 0 | .search => 1 | .backoff => 2 | .creep => 3 | .index => 4 | .hardstop => 5 | .reverse => 6 | .final => 7
  | .absolute => 0

/-- The axis enters Homing (R318, R319, R323). -/
def State.homeEnter (a : Nat) (s : State) : State :=
  let r := s.readHome a
  let phase : HomePhase := match r.method with
    | 3 => .creep
    | 5 => .hardstop
    | 6 => .absolute
    | _ => if s.dinActive r.input then .backoff else .search
  let pf := (s.bookOf a).pf
  let s := s.onHome a (fun h => {
    phase := phase, method := r.method, hr := r, entryBoundary := s.stage.boundaries, lastP := pf, settling := true
    idxAfter := s.stage.openedAt, homings := h.homings, refTime := h.refTime, refPos := h.refPos, shift := h.shift })
  s.onAx a (fun x => { x with homed := false })

/-- The sequence ends unhomed (R334), or, once the shift stands, goes on to its end (R752). The caller gives the stop.
Log entry 69. -/
def State.homeFail (a cause : Nat) (s : State) : State :=
  let h := s.homeOf a
  if h.phase = .none then s
  else if h.shifted then s.onHome a (fun h => { h with ending := true })
  else
    (s.onHome a (fun h => { h with phase := .none, result := 3, cause := cause, ref := none, hsSince := none })).raise 0x6E
      (le 1 a ++ le 1 cause ++ le 1 (homeCode h.phase) ++ le 8 (s.bookOf a).pf)

/-- The sequence ends without a reference at a limit. -/
def State.homeNoRef (a input : Nat) (s : State) : State :=
  let h := s.homeOf a
  let s := s.onAx a (Axis.startRamp .held)
  (s.onHome a (fun h => { h with phase := .none, result := 2, cause := 0, ref := none, hsSince := none })).raise 0x6D
    (le 1 a ++ le 1 h.method ++ le 1 input ++ le 8 (s.bookOf a).pf)

/-- EV_HOMING_DONE, HOMED set (R333). -/
def State.homeDone (a : Nat) (s : State) : State :=
  let h := s.homeOf a
  let s := s.onAx a (fun x => { x with homed := true })
  (s.onHome a (fun h => { h with phase := .none, result := 1, cause := 0, homings := inc32 h.homings })).raise 0x6C
    (le 1 a ++ le 1 h.method ++ le 8 h.shift ++ le 8 h.refTime)

/-! ### Motion of a sequence (R320, R324) -/

/-- Generator, filter and ramp at rest. -/
def Axis.still (x : Axis) : Bool := x.gen.atRest && x.filt.empty && !x.ramp

/-- Moves in direction `d` at speed `v`. -/
def State.homeGo (a : Nat) (d : Int) (v : Nat) (s : State) : State :=
  s.onAx a (fun x => { x with gen := x.gen.start {
    vel := true, target := d * v, prof := s.nat AXIS.prof_first a, vcap := v } })

/-- Moves to a position at speed `v`. -/
def State.homeTo (a : Nat) (p : Int) (v : Nat) (s : State) : State :=
  s.onAx a (fun x => { x with gen := x.gen.start { target := p, prof := s.nat AXIS.prof_first a, vcap := v } })

/-- The stop that ends a phase. -/
def State.homeStop (a : Nat) (s : State) : State :=
  s.onAx a (fun x => { x with gen := if x.gen.ve = 0
    then { x.gen with phase := .rest, next := none } else { x.gen with phase := .stop, next := none } })

def State.homePhase (a : Nat) (p : HomePhase) (s : State) : State :=
  s.onHome a (fun h => { h with phase := p, settling := true, backFrom := none, seenRef := false })

/-- The count of the position channel with its turns. Log entry 67. -/
def State.homeCounts (s : State) (a : Nat) : Int :=
  match s.fbPos a with
  | some ch => (nth s.snap ch).turns * s.cpr ch + (nth s.snap ch).count
  | none => 0

/-- Away: +1 towards, −1 away, 0 no motion. -/
def HomePhase.way : HomePhase → Int
  | .search => 1 | .creep => 1 | .index => 1 | .hardstop => 1 | .backoff => -1 | .reverse => -1 | _ => 0

/-- A phase's motion begins once the stop before it has ended. -/
def State.homeBegin (a : Nat) (s : State) : State :=
  let h := s.homeOf a
  if !h.settling ∨ !(s.axOf a).still then s
  else
    let s := s.onHome a (fun h => { h with settling := false, idxFrom := s.homeCounts a })
    let v := if h.phase = .search then h.hr.vSearch else h.hr.vCreep
    if h.phase.way = 0 then s else s.homeGo a (h.phase.way * h.hr.dir) v

/-! ### The reference (R321, R326 to R331) -/

/-- An index instant of the position channel that counts for the search. -/
def State.homeIndex (s : State) (a : Nat) : Option (Nat × Int × Int) :=
  match s.fbPos a with
  | none => none
  | some ch =>
    match (s.fbOf ch).indexRef with
    | some (t, p, x) => if (s.homeOf a).idxAfter < t ∧ t ≤ s.stage.openedAt then some (t, p, x) else none
    | none => none

/-- p_L of method 6 (R326). -/
def State.homeWord (s : State) (ch : Nat) : Int :=
  let num := s.int FB.num ch
  let sg := if s.nat FB.dir ch = 2 then -sgn num else sgn num
  (nth s.snap ch).pos - sg * (((nth s.snap ch).word * num.natAbs / s.nat FB.den ch : Nat) : Int)

/-- The reference found in this snapshot, with its time, position and count. -/
def State.homeRef (s : State) (a : Nat) : Option (Nat × Int × Option Int) :=
  let h := s.homeOf a
  let i := h.hr.input
  let towards := sgn (s.axOf a).vFF = h.hr.dir
  let edge : Option (Nat × Int × Option Int) := some (s.edgeTime i, s.keptPos a i, none)
  let index : Option (Nat × Int × Option Int) :=
    if towards then (s.homeIndex a).map (fun x => (x.1, x.2.1, some x.2.2)) else none
  match h.phase, h.method with
  | .creep, 3 => index
  | .index, _ => index
  | .creep, 4 => none
  | .creep, _ => if !h.hr.leave && s.dinActive i && s.dinMoved i then edge else none
  | .backoff, 4 => none
  | .backoff, 5 => none
  | .backoff, _ => if h.hr.leave && !s.dinActive i && s.dinMoved i then edge else none
  | .absolute, _ =>
    match s.fbPos a with
    | some ch =>
      if h.entryBoundary < s.stage.boundaries ∧ (nth s.snap ch).valid then
        some ((nth s.snap ch).time, s.homeWord ch, none)
      else none
    | none => none
  | _, _ => none

/-- Latches a reference and orders the stop. -/
def State.homeLatch (a : Nat) (r : Nat × Int × Option Int) (s : State) : State :=
  (s.onHome a (fun h => { h with ref := some r })).homeStop a

/-! ### Phases -/

/-- Backing off: the reference condition `act` has cleared and backoff grains have passed. Log entries 67, 68. -/
def State.homeBack (a : Nat) (act : Bool) (next : HomePhase) (s : State) : State :=
  let h := s.homeOf a
  let pf := (s.bookOf a).pf
  if act then s.onHome a (fun h => { h with backFrom := none })
  else
    let from_ := h.backFrom.getD pf
    let s := s.onHome a (fun h => { h with backFrom := some from_ })
    if h.hr.backoff ≤ (pf - from_).natAbs then (s.homeStop a).homePhase a next else s

/-- What a phase does with the snapshot when no reference was latched and no limit decided. -/
def State.homeProgress (a : Nat) (s : State) : State :=
  let h := s.homeOf a
  let act := s.dinActive h.hr.input
  let rose := act && s.dinMoved h.hr.input
  match h.phase with
  | .search => if act then (s.homeStop a).homePhase a .backoff else s
  | .backoff =>
    let s := if h.method = 4 ∧ h.hr.leave ∧ !act ∧ s.dinMoved h.hr.input
      then s.onHome a (fun h => { h with idxAfter := s.edgeTime h.hr.input }) else s
    if h.settling then s else s.homeBack a act (if h.method = 4 ∧ h.hr.leave then .index else .creep)
  | .creep =>
    if h.method = 3 then s
    else if h.hr.leave then (if act then (s.homeStop a).homePhase a .backoff else s)
    else if h.method = 4 ∧ rose then
      ((s.onHome a (fun h => { h with idxAfter := s.edgeTime h.hr.input })).homeStop a).homePhase a .index
    else s
  | .reverse =>
    if h.settling then s
    else if h.method = 3 then
      match s.homeIndex a with
      | some (t, p, _) =>
        if h.seenRef then s.homeBack a false .creep
        else s.onHome a (fun h => { h with seenRef := true, backFrom := some p, idxAfter := t })
      | none => if h.seenRef then s.homeBack a false .creep else s
    else
      let s := s.onHome a (fun h => { h with seenRef := h.seenRef || act })
      if h.seenRef then s.homeBack a act .creep else s
  | _ => s

/-- No index instant within the span of an index search (cause 6). Log entry 69. -/
def State.homeLost (s : State) (a : Nat) : Bool :=
  let h := s.homeOf a
  let searching := !h.settling && (h.phase == .index || (h.phase == .creep && h.method == 3))
  searching && match s.fbPos a with
    | some ch => decide (s.indexPeriod ch + s.nat FB.index_tol ch < (s.homeCounts a - h.idxFrom).natAbs)
    | none => false

/-- An axis fault after the shift (R752): the axis is homed all the same, but for a fault of its position channel whose clearing
would unhome it (R172). Log entry 251. -/
def State.homeFaulted (a : Nat) (s : State) : State :=
  let lost := match s.fbPos a with | some ch => (nth s.snap ch).fault && s.nat FB.kind ch != 3 | none => false
  if lost then s.onHome a (fun h => { h with phase := .none, result := 3, cause := 3 }) else s.homeDone a

/-- The sequence after the shift (R333, R752). -/
def State.homeFinish (a restAt : Nat) (s : State) : State :=
  let h := s.homeOf a
  let x := s.axOf a
  if h.phase = .hardstop ∧ !h.ending then
    ((s.onHome a (fun h => { h with phase := .backoff, settling := false })).homeTo a
      (x.pRef - h.hr.dir * h.hr.backoff) h.hr.vCreep)
  else if !x.still then s
  else if h.hr.final ∧ !h.ending ∧ h.phase ≠ .final then
    (s.onHome a (fun h => { h with phase := .final, settling := false })).homeTo a h.hr.finalPos h.hr.vSearch
  else
    let s := if !x.enabled || x.mode != 7 then s
      else if h.ending then s.enterHeld_ a
      else (s.changeMode a 8 restAt 0).1
    s.homeDone a

/-- A limit in the direction of travel (homing decisions). Log entry 68. -/
def State.homeLimit (a i : Nat) (travel : Int) (s : State) : State :=
  let h := s.homeOf a
  if h.method = 5 ∨ travel ≠ h.hr.dir then s.homeNoRef a i
  else (s.onAx a (Axis.startRamp .held)).homePhase a .reverse

/-- One Stage of a homing sequence. Log entry 66. -/
def State.homeStage (a restAt : Nat) (s : State) : State :=
  let h := s.homeOf a
  let x := s.axOf a
  let pf := (s.bookOf a).pf
  if h.phase = .none then s
  else if s.chattering a ∧ !h.shifted then (s.onAx a (Axis.startRamp .held)).homeFail a 2
  else if (s.bookOf a).fault ∧ !h.shifted then s.homeFail a 3
  else
    let s := s.onHome a (fun h => { h with
      dist := if h.shifted then h.dist else satU (h.dist + (pf - h.lastP).natAbs) 64, lastP := pf })
    if h.shifted then (if (s.bookOf a).fault then s.homeFaulted a else s.homeFinish a restAt)
    else if h.ref.isSome then s
    else if h.hr.maxDist < (s.homeOf a).dist then (s.onAx a (Axis.startRamp .held)).homeFail a 1
    else if h.phase = .absolute ∧ (s.homeRef a).isNone ∧ h.entryBoundary + 1000 < s.stage.boundaries then
      (s.homeFail a 7).changeMode a 8 restAt 0 |>.1
    else
      let travel := if h.settling then sgn x.vFF else h.phase.way * h.hr.dir
      let skip := if h.method = 1 then some h.hr.input else none
      let limT := s.limitRose a travel skip
      let wrong := (s.limitRose a (-travel) skip).isSome || (s.limitActive a 1 && s.limitActive a (-1))
      if wrong then (s.onAx a (Axis.startRamp .held)).homeFail a 5
      else
        match s.homeRef a, limT with
        | some r, none => s.homeLatch a r
        | r, some i =>
          match r with
          | some r => if r.1 < s.edgeTime i then s.homeLatch a r else s.homeLimit a i travel
          | none => s.homeLimit a i travel
        | none, none =>
          if s.homeLost a then (s.onAx a (Axis.startRamp .held)).homeFail a 6
          else (s.homeProgress a).homeBegin a

/-! ### The shift (R330, R332) -/

/-- A rotary position and what moves with it, brought into 0 to modulo − 1 (R127). Log entry 12. -/
def State.wrapAxis (a : Nat) (s : State) : State :=
  if !s.rotary a then s
  else
    let m := s.int AXIS.modulo a
    let x := s.axOf a
    let k := x.pRef / m
    if k = 0 ∨ m = 0 then s
    else
      let mv (v : Move) : Move := if v.vel then v else { v with target := v.target - k * m }
      let t := x.turns + k
      let s := s.onAx a (fun x => { x with
        pRef := x.pRef - k * m, peRef := x.peRef - k * m * 65536, kept := x.kept.map mv, turns := sat t 32
        gen := { x.gen with pe := x.gen.pe - k * m * 65536, target := x.gen.target - k * m, next := x.gen.next.map mv } })
      if sat t 32 = t then s
      else (s.raise 0x2E (le 1 (0x10 + a) ++ le 4 (sat t 32))).axisFault a 2 0

/-- An axis moved by `d` grains, the raw state with it; its residue is zeroed when it is homed (R116). -/
def Axis.shift (home : Bool) (d : Int) (x : Axis) : Axis :=
  let r := if home then x.peRef - floorShift x.peRef 16 * 65536 else 0
  let mv (v : Move) : Move := if v.vel then v else { v with target := v.target + d }
  { x with
    pRef := x.pRef + d, peRef := x.peRef - r + d * 65536, kept := x.kept.map mv
    gen := { x.gen with pe := x.gen.pe - r + d * 65536, target := x.gen.target + d, next := x.gen.next.map mv } }

/-- A channel moved by `d` grains; when its axis is homed its remainder is zeroed and no earlier speed edge counts (R142,
R165). The counts stay. -/
def Fb.shift (home : Bool) (d : Int) (f : Fb) : Fb :=
  { f with
    pos := sat (f.pos + d) 64, rem := if home then 0 else f.rem
    edges := if home then [] else f.edges.map (fun e => { e with p := e.p + d })
    pendingEdges := f.pendingEdges.map (fun e => { e with p := e.p + d })
    zEdge := f.zEdge.map (fun e => { e with p := e.p + d })
    indexRef := f.indexRef.map (fun x => (x.1, x.2.1 + d, x.2.2))
    older := f.older.map (fun o => { o with pos := o.pos + d }) }

/-- A position of a channel is moved by `d` grains wherever the part holds it, in one boundary (R332, R754). An emulator
that follows it takes no increment from the shift: the source has not moved (log entry 237). -/
def State.shiftChannel (home : Bool) (ch : Nat) (d : Int) (s : State) : State :=
  let at_ (o : FbSnap) : FbSnap := { o with pos := sat (o.pos + d) 64 }
  let p := (s.fbOf ch).pos + d
  let s := match s.fbOwner ch with
    | some a => if sat p 64 = p then s else s.axisSaturated a 0 p
    | none => s
  let s := (s.onFb ch (Fb.shift home d)).shiftMonitored ch d
  { s with
    snap := s.snap.modify ch at_, snapPrev := s.snapPrev.modify ch at_
    emu := (List.range s.emu.length).map (fun e =>
      let m := nth s.emu e
      let i := s.nat EMU.index e
      let mine := match s.nat EMU.source e with
        | 1 => i == ch
        | 2 => s.fbPos i == some ch
        | _ => false
      if mine then { m with lastSrc := m.lastSrc + d } else m) }

/-- A position of an axis and of its channel is moved by `d` grains. -/
def State.shiftAxis (home : Bool) (a : Nat) (d : Int) (s : State) : State :=
  let s := match s.fbPos a with
    | some ch => s.shiftChannel home ch d
    | none => s
  let p (x : AxInstant) : AxInstant := { x with p := x.p + d }
  let s := { s with
    ax := s.ax.modify a (Axis.shift home d), axe := s.axe.modify a (Axis.shift home d)
    axPrevRef := s.axPrevRef.modify a (· + d)
    axAt := s.axAt.modify a (fun x => (p x.1, p x.2.1, p x.2.2))
    emu := (List.range s.emu.length).map (fun e =>
      let m := nth s.emu e
      if s.nat EMU.source e = 3 ∧ s.nat EMU.index e = a then { m with lastSrc := m.lastSrc + d } else m)
    din := (List.range s.din.length).map (fun i =>
      let x := nth s.din i
      if s.dinAxis i = some a then { x with kept := x.kept.map (fun (k : Nat × Int) => (k.1, k.2 + d)) } else x) }
  let s := s.onBook a (fun b => { b with pf := b.pf + d, pfPrev := b.pfPrev + d })
  eachIx 8 (fun o s =>
    let i := s.nat COMPARE.index o
    let mine := match s.nat COMPARE.source o with
      | 1 => s.fbPos a == some i
      | 2 => i == a
      | _ => false
    if mine then s.cmpReseek o else s) s

/-- Commits a latched reference: the shift Δh in every place at once (R330, R332); a car's marker correction starts again
(R358). Log entry 252. -/
def State.homeCommit (a : Nat) (s : State) : State :=
  let h := s.homeOf a
  match h.ref with
  | none => s
  | some (t, p, x) =>
    let d := sat (h.hr.homePos - p) 64
    let s := s.shiftAxis true a d
    let s := match x, s.fbPos a with
      | some x, some ch => s.onFb ch (fun f => { f with ref := x, indexSeen := true })
      | _, _ => s
    let s := { s with twin := { s.twin with shift := s.twin.shift.modify a (· + d) } }
    let s := match s.carOf a with
      | some c => { s with cars := s.cars.modify c (fun x => { x with k := 0, pm0 := none, ps0 := none }) }
      | none => s
    (s.onHome a (fun h => { h with
      ref := none, shifted := true, refTime := t, refPos := p, shift := d, lastP := h.lastP + d
      backFrom := h.backFrom.map (· + d) })).wrapAxis a

/-! ### The commands -/

/-- HARDSTOP_FOUND (R325, R331): at a boundary, current and standstill have held for HOMING.hs_time. -/
def execHardstopFound (t axis : Nat) (s : State) : Answer :=
  let s := s.tick t
  if s.clk.motionHeld then .next s
  else
  let h := s.homeOf axis
  match h.phase, h.hsSince with
  | .hardstop, some t0 =>
    if s.atBoundary ∧ t0 + h.hr.hsTime ≤ t ∧ h.ref.isNone ∧ !h.shifted then
      let time := match s.fbPos axis with | some ch => (nth s.snap ch).time | none => t
      .next ((s.onHomeKept axis (fun h => { h with ref := some (time, (s.bookOf axis).pf, none) })).onAxKept axis (fun x => {
        x with gen := { x.gen.toRest s.nextBoundary with phase := .rest, next := none, pe := x.peRef }, filt := { m := 1 } }))
    else .next s
  | _, _ => .next s

/-- HOMING_AUTO (R326): method 6 with AUTO, at the first boundary after Waking at which the channel is VALID. Log entry 204. -/
def execHomingAuto (t axis : Nat) (s : State) : Answer :=
  let s := s.tick t
  if s.clk.motionHeld then .next s
  else
  let r := s.readHome axis
  match s.fbPos axis with
  | none => .next s
  | some ch =>
    if s.atBoundary ∧ s.defined axis ∧ r.method = 6 ∧ r.auto ∧ (nth s.snap ch).valid ∧ !(s.bookOf axis).fault ∧ !s.homing axis ∧
        s.mode.mode ≠ 0 ∧ (s.homeOf axis).result = 0 then
      let s := s.unshow.onHome axis (fun h => { h with
        method := 6, hr := r, ref := some ((nth s.snap ch).time, s.homeWord ch, none) })
      let s := (s.homeCommit axis).homeDone axis
      .next s
    else .next s

end Sys2Proof.Machine
end

