-- ==== Sys2Proof/Machine/Axis.lean ====
section
/-! DEFINITION. Axis commands and the axis controller's work of one Stage (chapter 06): R232 to R283, R748 to R751. -/

namespace Sys2Proof.Machine

/-! ### Rejection (R249, R250, R252, rejection reasons) -/

/-- The mode that a command asks for. -/
def targetMode (c : AxCmd) : Option Nat :=
  match c.cmd with
  | 1 => some 8
  | 3 => some c.arg
  | 4 => some 1
  | 5 => some 1
  | 6 => some 2
  | 10 => some 6
  | 11 => some 8
  | _ => none

/-- A MOVE_REL that moves the phase of a locked coupling (R303). -/
def State.phaseMove (s : State) (a : Nat) (c : AxCmd) : Option Nat :=
  if c.cmd = 5 ∧ (s.axOf a).mode = 4 then
    (s.couplingOf a).filter (fun k => (s.gcOf k).st == .locked && !(s.gcOf k).disPending)
  else none

/-- The present target of a move in progress. -/
def Gen.present (g : Gen) : Option Int :=
  match g.phase, g.next with
  | .brake, some m => if m.vel then none else some m.target
  | .dwell, some m => if m.vel then none else some m.target
  | .stop, some m => if m.vel then none else some m.target
  | .pos, some m => some m.target
  | .pos, none => some g.target
  | _, _ => none

/-- The profile record that a command names. -/
def State.profIx (s : State) (a : Nat) (c : AxCmd) : Nat := s.nat AXIS.prof_first a + c.arg

/-- Where a generator that moves can end a move in direction `d` by turning no more than once (R263, R265). Log entry 245. -/
def Gen.endsAt (p : Prof) (d : Int) (g : Gen) : Int :=
  let v := g.ve.natAbs
  if sgn g.ve = d then g.pe + d * p.B v else g.pe + sgn g.ve * p.earliest v

/-- The target of a MOVE (R254, R265). On a rotary axis in motion a chosen direction holds to the end: the target is the first
turn of the position that the axis can stop at in that direction. Log entry 245. -/
def State.moveTarget (s : State) (a : Nat) (c : AxCmd) : Int :=
  let x := s.axOf a
  if c.cmd = 5 then (if x.mode = 1 then x.gen.present.getD x.pRef else x.pRef) + c.value
  else if s.rotary a then
    let m := s.int AXIS.modulo a
    let u := (c.value - x.pRef) % m
    let neg := u ≠ 0 ∧ (c.flags % 4 = 2 ∨ (c.flags % 4 = 0 ∧ m < 2 * u))
    let near := x.pRef + (if neg then u - m else u)
    if c.flags % 4 = 0 ∨ x.gen.ve = 0 then near
    else
      let d : Int := if c.flags % 4 = 2 then -1 else 1
      let short := d * (x.gen.endsAt (s.axProf a (s.profIx a c) c.vcap) d - near * 65536)
      near - d * m * ((-short) / (m * 65536))
  else c.value

/-- The move that a MOVE or VELOCITY gives. -/
def State.moveOf (s : State) (a : Nat) (c : AxCmd) : Move :=
  if c.cmd = 6 then { vel := true, target := c.value, prof := s.profIx a c, vcap := c.vcap }
  else { target := s.moveTarget a c, prof := s.profIx a c, vcap := c.vcap }

/-- CMD, FLAGS, the mode code and the profile index are listed. Log entry 59. -/
def State.cmdListed (s : State) (a : Nat) (c : AxCmd) : Bool :=
  1 ≤ c.cmd && c.cmd ≤ 12 && c.flags < 3 && (c.cmd != 3 || c.arg ≤ 8) &&
  (!(c.cmd == 4 || c.cmd == 5 || c.cmd == 6) || c.arg < s.nat AXIS.prof_count a) &&
  (c.cmd != 6 || sat c.value 48 == c.value)

/-- The axis may be enabled in this device mode (R355). -/
def State.commLearned (s : State) (a : Nat) : Bool :=
  let needs := s.kind a == 1 || (s.kind a == 2 && !s.flag AXIS.flags 1 a)
  !needs || flagAt s.survey.haveComm a || s.mode.mode == 1

/-- A command that sets the axis in motion. -/
def moving (c : AxCmd) : Bool :=
  [4, 5, 6, 8, 10].contains c.cmd || (c.cmd == 3 && 1 ≤ c.arg && c.arg ≤ 7)

/-- The group of an axis runs or is paused. -/
def State.groupBusy (s : State) (a : Nat) : Bool :=
  (s.axOf a).mode == 5 && match s.groupOf a with
    | some g => (s.pgOf g).st == .running || (s.pgOf g).st == .paused
    | none => false

/-- The last reasons to be tried: 2, 3, 5 and 8 by command. Log entry 60. -/
def State.cmdReason (s : State) (a : Nat) (c : AxCmd) : Nat :=
  let x := s.axOf a
  let towards (d : Int) : Nat := if s.limitActive a d then 3 else 0
  match c.cmd with
  | 1 => if x.enabled then 8 else if s.stoReady a && !s.firstKind s.safe.a a then 0 else 2
  | 2 => if x.enabled then 0 else 8
  | 7 => if x.enabled then 0 else 8
  | 9 => if x.enabled then 0 else 8
  | 12 =>
    if !(s.bookOf a).stopLatch then 8
    else if s.chattering a || s.limitActive a 1 || s.limitActive a (-1) then 5 else 0
  | 8 =>
    match x.kept with
    | some m =>
      if x.mode ≠ 1 ∧ x.mode ≠ 2 then 8
      else if !m.vel && s.softBroken a m.target then 3
      else towards (if m.vel then sgn m.target else sgn (m.target - x.pRef))
    | none => 8
  | k =>
    let dest := (targetMode c).getD 8
    if s.groupBusy a then 8
    else if k = 3 ∧ c.arg = 0 then (if x.enabled then 0 else 8)
    else if !x.enabled then 2
    else if k = 3 ∧ dest = x.mode then 8
    else if x.mode = 4 ∧ (k = 4 ∨ (k = 5 ∧ (s.phaseMove a c).isNone)) then 8
    else if (s.phaseMove a c).isSome then 0
    else if dest ≠ x.mode ∧ !s.entryOk a dest then 2
    else if k = 4 ∨ k = 5 then
      let t := s.moveTarget a c
      if s.softBroken a t then 3 else towards (sgn (t - x.pRef))
    else if k = 6 then towards (sgn c.value)
    else if k = 10 then towards (sgn c.current)
    else 0

/-- The reason for which a command is rejected, 0 for none: also one that follows a DISABLE (log entry 244). -/
def State.rejectReason (s : State) (a : Nat) (c : AxCmd) : Nat :=
  let x := s.axOf a
  if !s.defined a || s.measuring a then 2
  else if !s.cmdListed a c then 7
  else if (s.bookOf a).fault then 4
  else if s.homing a && !([2, 7, 9].contains c.cmd) then 8
  else if (x.ramp || x.disabling) && !([2, 7, 9, 12].contains c.cmd) then 8
  else if (match targetMode c with | some m => !modePermits s.mode.mode m | none => false) && (s.phaseMove a c).isNone then 6
  else if c.cmd = 1 ∧ !s.commLearned a then 6
  else if (s.bookOf a).stopLatch && moving c then 5
  else s.cmdReason a c

/-- A command is rejected: REJ_TAG, REJECTS, EV_COMMAND_REJECTED and the answer (R252, R737). -/
def State.rejectCmd (a : Nat) (o : Offer) (reason : Nat) (s : State) : State :=
  let s := s.onBook a (fun b => { b with rejTag := o.cmd.tag, rejects := inc32 b.rejects })
  let s := s.raise 0x61 (le 1 a ++ le 1 o.cmd.cmd ++ le 1 reason ++ le 1 o.origin.src ++ le 4 o.cmd.tag)
  s.reply o.origin (if reason = 6 then 3 else 1) reason

/-- A command is accepted; a stop or DISABLE aborts a learn run of the axis (R340). -/
def State.acceptCmd (a : Nat) (o : Offer) (s : State) : State :=
  let s := if [2, 7, 9].contains o.cmd.cmd then
      { s with survey := { s.survey with runs := s.survey.runs.map (fun r => if r.axis == a then { r with abort := true } else r) } }
    else s
  ((s.onBook a (fun b => { b with cmdTag := o.cmd.tag })).forward o.origin (.axis a o.cmd)).reply o.origin 0 0

/-! ### What the commands do -/

/-- EV_REVERSAL (R263). -/
def State.reversal (a landing : Nat) (p : Int) (s : State) : State :=
  (s.onBook a (fun b => { b with reversals := inc32 b.reversals })).raise 0x64 (le 1 a ++ le 1 landing ++ le 8 p)

/-- A move or velocity is given to the generator (R259, R263). -/
def State.giveMove (a : Nat) (m : Move) (s : State) : State :=
  let x := s.axOf a
  if m.vel then
    s.onAx a (fun x =>
      let g := x.gen
      let g := match g.phase with
        | .rest => g.start m
        | .dwell => { g with next := some m }
        | .brake => { g with next := some m }
        | _ => if g.ve = 0 then g.start m
               else { g with phase := .vel, vtgt := m.target * 65536, prof := m.prof, vcap := m.vcap, next := none }
      { x with gen := g, kept := none, moveDone := false })
  else
    let p := s.axProf a m.prof m.vcap
    let (g, r) := x.gen.retarget p m (s.landOnly a)
    let s := s.onAx a (fun x => { x with gen := g, kept := none, moveDone := false })
    match r with
    | .goes => s
    | .earliest => s.reversal a 0 (g.stopAt p)
    | .landing l => s.reversal a 1 l
    | .noLanding =>
      let s := s.reversal a 2 (g.stopAt p)
      match s.carOf a with
      | some c => { s with cars := s.cars.modify c (fun x => { x with noLanding := true }) }
      | none => s

/-- MOVE or VELOCITY. One that arrives while a move is kept discards it and starts from rest (R263). -/
def State.takeMove (a : Nat) (m : Move) (s : State) : State :=
  let x := s.axOf a
  if x.kept.isSome ∧ !m.vel ∧ x.gen.ve ≠ 0 then
    s.onAx a (fun x => { x with kept := none, moveDone := false, gen := { x.gen with phase := .stop, next := some m } })
  else s.giveMove a m

/-- What STOP keeps of the generator's work (stop kinds table): the move, and the generator stopping. A reversal to a landing
that can no longer be cut short ends there, and what was to follow is kept. -/
def State.stopMove (s : State) (a : Nat) (x : Axis) : Axis :=
  let g := x.gen
  let p := g.profNow (s.axProf a)
  let stopped : Gen := { g with phase := if g.ve = 0 then .rest else .stop, next := none }
  match g.phase with
  | .pos =>
    let rem := g.dir * (g.target * 65536 - g.pe)
    if (p.stopDist g.ve.natAbs : Int) ≤ rem then
      { x with kept := some (g.next.getD { again := !g.newM, target := g.target, prof := g.prof, vcap := g.vcap }), gen := stopped }
    else match g.next with
      | some m => { x with kept := some m, gen := { g with next := none } }
      | none => x
  | .vel =>
    { x with
      kept := some { vel := true, again := !g.newM, target := g.vtgt / 65536, prof := g.prof, vcap := g.vcap }, gen := stopped }
  | .brake => { x with kept := g.next, gen := { g with next := none } }
  | .dwell => { x with kept := g.next, gen := { g with phase := .rest, next := none } }
  | .stop => if g.next.isSome then { x with kept := g.next, gen := { g with next := none } } else x
  | .rest => x

/-- The reference is decoupled and brought to rest by profile 0 through the filter; Held follows (STOP in Follow).
Log entry 62. -/
def State.decouple (a : Nat) (s : State) : State :=
  let x := s.axOf a
  if x.vFF = 0 then s.enterHeld_ a
  else
    let y := s.preload a 1 x
    s.onAx a (fun _ => { y with mode := x.mode, decel := true })

/-- A path group is asked to stop (R296). Log entry 56. -/
def State.groupStop (g : Nat) (s : State) : State :=
  let p := s.pgOf g
  if p.st ≠ .running then s
  else
    let pr := s.feedProf g none p.gen
    let rem := p.endL * 65536 - p.gen.pe
    if (pr.stopDist p.gen.ve.natAbs : Int) ≤ rem then
      s.onPg g (fun p => { p with
        st := .paused, gen := { p.gen with phase := if p.gen.ve = 0 then .rest else .stop, next := none } })
    else s

/-- STOP (stop kinds table, R302, R303, R748, R752). Log entry 62. -/
def State.takeStop (a : Nat) (s : State) : State :=
  let x := s.axOf a
  if x.ramp then s.homeFail a 4
  else if s.homing a then
    let s := (s.homeFail a 4).homeStop a
    if s.homing a then s else s.onAx a (fun x => { x with decel := true })
  else match x.mode with
    | 1 => s.onAx a (s.stopMove a)
    | 2 => s.onAx a (s.stopMove a)
    | 3 => if x.decel then s else s.decouple a
    | 4 =>
      match s.couplingOf a with
      | none => s
      | some c =>
        if x.decel then s
        else match (s.gcOf c).st with
          | .armed => s.enterHeld_ a
          | .disengaging => s
          | .off => s
          | _ =>
            if s.nat GEAR.disengage_len c = 0 ∧ !s.flag GEAR.flags 1 c then (s.setGc c { (s.gcOf c) with st := .off }).decouple a
            else s.setGc c (s.gearStop c (s.gcOf c))
    | 5 => match s.groupOf a with | some g => s.groupStop g | none => s
    | _ => if x.decel then s else s.enterHeld_ a

/-- QUICK_STOP (R748, R752). -/
def State.takeQuick (a : Nat) (k : RampThen) (cause : Nat) (s : State) : State :=
  let s := if s.homing a then s.homeFail a 4 else s
  let s := if (s.axOf a).mode = 5 then s.onBook a (fun b => { b with cmdBreak := some cause }) else s
  s.onAx a (Axis.startRamp k)

/-- DISABLE, or a change to Idle (R248). At standstill a move that waits for its dwell is given up. Log entry 244. -/
def State.takeDisable (a : Nat) (s : State) : State :=
  let x := s.axOf a
  let s :=
    if x.ramp then s.homeFail a 4
    else if x.standstill && !s.homing a then (if x.mode = 6 then s else s.enterHeld_ a)
    else s.takeQuick a .idle 1
  let s := if x.mode = 5 then s.onBook a (fun b => { b with cmdBreak := some 1 }) else s
  s.onAx a (fun x => { x with disabling := true })

/-- ENABLE (R247). -/
def State.takeEnable (a : Nat) (s : State) : State :=
  let pf := (s.bookOf a).pf
  s.onAx a (fun x => { x with
    enabled := true, mode := 8, acc := 0, kept := none, decel := false, disabling := false, withdrawn := false, ramp := false
    moveHold := true, pRef := pf, peRef := pf * 65536, vFF := 0, aRef := 0, iq := 0, iqFrom := none
    blendLeft := 0, iBlendLeft := 0
    gen := { x.gen with phase := .rest, pe := pf * 65536, ve := 0, next := none, target := pf }, filt := { m := 1 } })

/-- A phase move of a locked coupling (R303); it reverses as a move does (R263). Log entry 248. -/
def State.takePhase (a c : Nat) (m : AxCmd) (s : State) : State :=
  let g := s.gcOf c
  let mv : Move := { target := g.phaseGen.present.getD g.phase + m.value, prof := s.profIx a m, vcap := m.vcap }
  let p := s.axProf a mv.prof mv.vcap
  let (gen, r) := g.phaseGen.retarget p mv none
  let s := s.onGc c (fun g => { g with phaseGen := gen })
  if r = .earliest then s.reversal a 0 (gen.stopAt p) else s

/-- An accepted command has its effect; the reason of a refused hand-over otherwise. A MODE to Torque commands the present
current (R273). Log entry 246. -/
def State.takeCmd (a restAt : Nat) (c : AxCmd) (s : State) : State × Nat :=
  match c.cmd with
  | 1 => (s.takeEnable a, 0)
  | 2 => (s.takeDisable a, 0)
  | 7 => (s.takeStop a, 0)
  | 8 => (match (s.axOf a).kept with
    | some m => (s.onAx a (fun x => { x with kept := none })).giveMove a m
    | none => s, 0)
  | 9 => (s.takeQuick a .held 0, 0)
  | 12 => (s.onBook a (fun b => { b with stopLatch := false }), 0)
  | k =>
    let dest := (targetMode c).getD 8
    match s.phaseMove a c with
    | some g => (s.takePhase a g c, 0)
    | none =>
      if k = 3 ∧ dest = 0 then (s.takeDisable a, 0)
      else
        let i := if k = 10 then c.current else (s.axOf a).iq
        let (s, ok) := if dest = (s.axOf a).mode ∧ !(s.axOf a).decel then (s, true) else s.changeMode a dest restAt i
        if !ok then (s, 9)
        else if k = 4 ∨ k = 5 ∨ k = 6 then (s.takeMove a (s.moveOf a c), 0)
        else if k = 10 then (s.onAx a (fun x => { x with torqueCmd := c.current }), 0)
        else if dest = 7 ∧ k = 3 then (s.homeEnter a, 0)
        else (s, 0)

/-- The command of an axis is decided (R249, R250, R252). -/
def State.decideCmd (a : Nat) (o : Offer) (s : State) : State :=
  let r := s.rejectReason a o.cmd
  let r := if r = 0 ∧ s.forwardFull o.origin then 1 else r
  if r ≠ 0 then s.rejectCmd a o r
  else
    let (s, r) := s.takeCmd a s.nextBoundary o.cmd
    if r ≠ 0 then s.rejectCmd a o r else s.acceptCmd a o

/-- Rank of a command (R252): lower is higher. -/
def cmdRank (c : AxCmd) : Nat := match c.cmd with | 9 => 0 | 7 => 1 | 2 => 2 | _ => 3

/-- A later command prevails over an earlier one of the same boundary. Log entry 28. -/
def Offer.beats (o p : Offer) : Bool :=
  cmdRank o.cmd < cmdRank p.cmd || (cmdRank o.cmd == cmdRank p.cmd && o.origin.src ≤ p.origin.src)

/-- A task of the graph serves the axis. -/
def State.kernelOf (s : State) (k : Nat) : Option KernelEntry := s.kernels.find? (·.kernel == k)

def State.serves (s : State) (i : Nat) : Serves :=
  match s.kernelOf (s.taskRec i).kernel with | some k => k.serves | none => .other

/-- The offered commands of a Stage, decided by the controller's task: the highest is taken, the others are superseded (R252,
R751). Log entry 28. -/
def State.decideOffered (a : Nat) (s : State) : State :=
  let l := (s.bookOf a).offered
  let s := s.onBook a (fun b => { b with offered := [], decided := true })
  match l.foldl (fun (b : Option Offer) o => match b with
      | none => some o
      | some p => if o.beats p then some o else some p) none with
  | none => s
  | some w => ((l.filter (fun o => o != w)).foldl (fun s o => s.rejectCmd a o 1) s).decideCmd a w

/-- A command is kept for the controller's task: of the present Stage, or of the next where that has already done its work, or
the lanes do not run (R252, R751). Log entry 28. -/
def State.keepOffer (a : Nat) (o : Offer) (s : State) : State :=
  s.onBook a (fun b =>
    if b.decided || s.mode.lanesOff then { b with incoming := b.incoming ++ [o] } else { b with offered := b.offered ++ [o] })

/-- A command for an axis as its row gives it: kept for the controller's task, and the axis shows what the task will do. An
unused axis, which has no task, rejects it (R234). Log entries 27, 28. -/
def State.axisCommand (a : Nat) (o : Origin) (c : AxCmd) (s : State) : State :=
  if 12 ≤ a || s.clk.motionHeld then s
  else if !s.defined a then s.decideCmd a { origin := o, cmd := c }
  else if (s.bookOf a).decided || s.mode.lanesOff then s.keepOffer a { origin := o, cmd := c }
  else (s.unshow.keepOffer a { origin := o, cmd := c }).show (State.decideOffered a)

/-- A command that reaches an axis at a boundary by the mailbox, in a frame or from the partner: kept for the controller's
task, which ranks it with the others (R252, R751). Log entry 28. -/
def State.offerAxis (a : Nat) (o : Origin) (c : AxCmd) (s : State) : State :=
  if 12 ≤ a || s.clk.motionHeld then s
  else if !s.defined a then s.decideCmd a { origin := o, cmd := c }
  else s.keepOffer a { origin := o, cmd := c }

/-! ### Limits (R267, R268) -/

/-- EV_LIMIT_REACHED. -/
def State.limitEvent (a kind : Nat) (s : State) : State := s.raise 0x65 (le 1 a ++ le 1 kind ++ le 8 (s.axOf a).pRef)

/-- EV_LIMIT_REACHED and the quick stop. Log entry 49. -/
def State.limitStop (a kind : Nat) (s : State) : State :=
  let s := if (s.axOf a).mode = 5 then
      s.onBook a (fun b => { b with breakCause := some (match b.breakCause with | some c => min c 3 | none => 3) }) else s
  (s.onAx a (Axis.startRamp .held)).limitEvent a kind

/-- The limit decisions of one Stage: a switch that becomes active during a ramp is told of, and the ramp goes on (R748). Log
entries 49, 66. Log entries 49, 66. -/
def State.limits (a : Nat) (s : State) : State :=
  let x := s.axOf a
  let d := sgn x.vFF
  if !x.enabled || x.mode == 0 || s.homing a || d == 0 then s
  else if x.ramp then (if (s.limitRose a d none).isSome then s.limitEvent a (if 0 < d then 0 else 1) else s)
  else if s.limitActive a d then s.limitStop a (if 0 < d then 0 else 1)
  else if x.mode ∈ [2, 3, 4, 5] ∧ s.flag AXIS.flags 3 a ∧ !s.rotary a then
    let ahead := if 0 < d then s.int AXIS.soft_max a - x.pRef else x.pRef - s.int AXIS.soft_min a
    if ahead * 65536 ≤ seg x.vFF.natAbs 0 (s.dQuick a) then s.limitStop a (if 0 < d then 2 else 3) else s
  else s

/-- The reference goes no further beyond a soft limit than `was`, where the Stage found it (R268): what would is taken off the
generator with it. Log entries 66, 247. -/
def State.softClip (s : State) (a : Nat) (was : Int) (x : Axis) : Axis :=
  if !s.flag AXIS.flags 3 a || s.rotary a || s.homing a then x
  else
    let e := (x.pRef - clamp x.pRef (min (s.int AXIS.soft_min a) was) (max (s.int AXIS.soft_max a) was)) * 65536
    if e = 0 then x
    else { x with
      pRef := x.pRef - e / 65536, peRef := x.peRef - e, vFF := x.vFF - e, aRef := x.aRef - e
      gen := { x.gen with pe := x.gen.pe - e } }

/-! ### One Stage (R232 to R245) -/

/-- The current blend (R276), added to iq. -/
def Axis.blendIq (iq : Int) (x : Axis) : Axis :=
  if x.iBlendLeft = 0 then { x with iq := iq }
  else
    let y := rstepExact x.iBlendB0 1 x.blendK x.iBlendQ
    let b := x.iBlendB - y.1
    { x with iBlendB := b, iBlendQ := y.2, iBlendLeft := x.iBlendLeft - 1, iq := iq + b }

/-- The reference keeps its soft limits and its formats: what passes an end holds there, the axis faults (R127, R268). -/
def State.inFormat (a : Nat) (was : Int) (s : State) : State × List AxFault :=
  let x := s.softClip a was (s.axOf a)
  let lin := !s.rotary a
  let p := if lin then sat x.pRef 64 else x.pRef
  (s.onAx a (fun _ => { x with
     pRef := p, peRef := if p = x.pRef then x.peRef else p * 65536, vFF := sat x.vFF 64, aRef := sat x.aRef 64 }),
   (if lin then overFault 0 x.pRef 64 else []) ++ overFault 1 x.vFF 64 ++ overFault 2 x.aRef 64)

/-- One Stage of a quick-stop ramp; Held at its end (stop kinds table). -/
def State.rampStage (a : Nat) (s : State) : State × List AxFault :=
  let x := s.axOf a
  let w := rampStep x.vFF (s.dQuick a)
  let pe := x.peRef + w
  let moved := x.vFF != 0
  let s := s.onAx a (fun x => { x with
    peRef := pe, pRef := floorShift pe 16, aRef := w - x.vFF, vFF := w
    gen := { x.gen with phase := .rest, pe := pe, ve := 0, lastDir := if moved then sgn x.vFF else x.gen.lastDir
                        restAt := if moved then s.nextBoundary else x.gen.restAt
                        dwellOver := x.gen.dwellOver && !moved } })
  let (s, bad) := s.inFormat a x.pRef
  let s :=
   if w ≠ 0 then s
   else
    let s := s.onAx a (fun x => { x with ramp := false })
    if s.homing a then s.onAx a (fun x => { x with peRef := x.pRef * 65536, gen := { x.gen with pe := x.pRef * 65536 } })
    else s.enterHeld_ a
  (s, bad)

/-- HARDSTOP: the reference leads pf by at most HOMING.hs_lead (R325). -/
def Axis.lead (d : Int) (lead : Nat) (pf : Int) (r : RefOut) : RefOut :=
  let ovr := d * (r.p - pf) - lead
  if ovr ≤ 0 then r
  else
    let p := pf + d * lead
    let e := r.x.peRef - p * 65536
    { r with p := p, v := r.v - e, x := { r.x with peRef := p * 65536, gen := { r.x.gen with pe := r.x.gen.pe - e } } }

/-- The reference of one Stage in a mode other than Idle, Torque and a ramp, and the faults found in it. Log entry 62. -/
def State.refStage (a : Nat) (s : State) : State × List AxFault :=
  let x := s.axOf a
  let first := x.enterAt = s.stage.boundaries
  let wait := x.moveHold && (x.gen.ve == 0)
  let h := s.homeOf a
  let b := s.bookOf a
  let r :=
    if wait && (x.mode == 1 || x.mode == 2 || x.mode == 7) then
      let (f, w) := x.filt.push 0
      let pe := x.peRef + w
      { x := { x with filt := f, peRef := pe }, p := floorShift pe 16, v := w : RefOut }
    else s.modeRef a s.nextBoundary x.mode first x
  let r := if h.phase = .hardstop then Axis.lead h.hr.dir h.hr.hsLead b.pf r else r
  let s := match x.mode, x.decel, s.gearRef a s.nextBoundary first x with
    | 4, false, (_, some (c, g, done)) =>
      let s := s.setGc c g
      if done then s.setGc c { g with st := .off } else s
    | _, _, _ => s
  let ended : Bool := match x.mode, x.decel, s.couplingOf a with
    | 4, false, some c => (s.gcOf c).st == .off
    | _, _, _ => false
  let (s, bad) := (s.onAx a (fun _ => Axis.blend r)).inFormat a x.pRef
  let y := s.axOf a
  let slow := match s.couplingOf a with | some c => s.nat GEAR.disengage_len c == 0 | none => false
  (if ended && slow then s.decouple a else if ended || (x.decel && y.still) then s.enterHeld_ a else s, r.bad ++ bad)

/-- The following error of one Stage in a mode that follows a reference (R245). -/
def State.ferrStage (a : Nat) (s : State) : State × List AxFault :=
  let x := s.axOf a
  let b := s.bookOf a
  let ep := s.follErr a x.pRef b.pf
  let run := if s.nat AXIS.ferr_max a < ep.natAbs then x.ferrRun + 1 else 0
  ((s.onAx a (fun x => { x with ferrRun := satU run 8 })).onBook a (fun b => { b with ep := ep }),
   if run ≠ 0 ∧ s.nat AXIS.ferr_n a ≤ run then [{ cause := 4, detail := ep }] else [])

/-- The first cascade after Torque goes on from the current of Torque: its integrator, and a blend of what the integrator's
limit leaves (R273, R276). -/
def State.fromTorque (a ilim : Nat) (s : State) : State :=
  let x := s.axOf a
  match x.iqFrom with
  | none => s
  | some iq =>
    let (acc, iq1) := s.accFrom a ilim x iq
    let b0 := iq - iq1
    s.onAx a (fun x => { x with
      iqFrom := none, acc := acc, iBlendLeft := if b0 = 0 then 0 else x.blendK, iBlendB0 := b0, iBlendB := b0, iBlendQ := 0 })

/-- The current of one Stage: the cascade, Torque, or a brake test (R241 to R243, R325, R386, R418). -/
def State.iqStage (a : Nat) (s : State) : State × List AxFault :=
  let x := s.axOf a
  let b := s.bookOf a
  let h := s.homeOf a
  let hard := h.phase == .hardstop
  match s.testIq a with
  | some i => (s.onAx a (fun x => { x with iq := i }), [])
  | none =>
    if s.followStage 0 then (s, [])
    else if x.mode = 6 ∧ !x.ramp then (s.onAx a (fun x => Axis.blendIq (s.torqueIq a x.torqueCmd b.vf x.acc) x), [])
    else
      let lim := match (List.range 8).find? (fun d => s.nat DOOR.axis d == a + 1 && ((nth s.doors d).st == 4 || (nth s.doors d).st == 5)) with
        | some d => s.nat DOOR.f_close d
        | none => s.nat AXIS.i_lim a
      let ilim := if hard then min h.hr.hsCurrent lim else lim
      let s := s.fromTorque a ilim
      let acc0 := if s.followStage 1 then (s.accFrom a ilim x x.iq).1 else (s.axOf a).acc
      let c := s.cascade a ilim x.pRef x.vFF x.aRef b.pf b.vf acc0
      let s := s.onAx a (fun x => { Axis.blendIq c.iq x with acc := c.acc })
      let s := if c.lim = 0 then s else s.raise 0x7D (le 1 a ++ le 1 0 ++ le 1 c.lim)
      let at_ := hard && decide (c.iq = h.hr.dir * ilim) && decide (b.vf.natAbs ≤ s.standstillV a * 65536)
      (s.onHome a (fun h => { h with hsSince := if at_ then some (h.hsSince.getD s.stage.openedAt) else none }),
       if c.velSat then [{ cause := 5, detail := 1, value := c.vcRaw }] else [])

/-- Standstill (R244). -/
def State.stillStage (a : Nat) (s : State) : State :=
  let x := s.axOf a
  let now := x.still && decide ((s.bookOf a).vf.natAbs ≤ s.standstillV a * 65536)
  let run := if now then satU (x.standRun + 1) 16 else 0
  s.onAx a (fun x => { x with
    standRun := run, standstill := decide (s.nat AXIS.standstill_n a ≤ run)
    moveDone := x.mode == 1 && x.gen.phase == .rest && x.filt.empty && x.kept.isNone })

/-- DISABLE at standstill: the release request goes first, then STO once the brakes are applied (R248, R417). Log entry 228. -/
def State.disableStage (a : Nat) (s : State) : State :=
  let x := s.axOf a
  if !x.disabling ∨ !x.standstill then s
  else if !x.withdrawn then s.onAx a (fun x => { x with withdrawn := true })
  else if s.brakesApplied a then
    s.onAx a (fun x => { x with enabled := false, mode := 0, disabling := false, withdrawn := false, blendLeft := 0, iBlendLeft := 0 })
  else s

/-- The set-point record of an axis by kind (R235 to R239), and during a commutation run (R341). Also the fault of a ratio
output (R127). -/
def State.spStage (a : Nat) (pWas : Int) (s : State) : State × List AxFault :=
  let x := s.axOf a
  let b := s.bookOf a
  let learn := s.survey.runs.find? (fun r => r.kind == 1 && r.axis == a)
  match s.kind a with
  | 1 | 2 =>
    if s.kind a = 2 ∧ s.flag AXIS.flags 1 a then
      let d := s.modDelta a (x.pRef - pWas)
      let y := rstepExact d (s.int AXIS.th_num a) (s.nat AXIS.th_den a) x.thRem
      let step := sat y.1 48
      let th := wrapU (x.theta + step) 32
      let s := s.onAx a (fun x => { x with theta := th, thRem := y.2 })
      let id := if x.standstill then s.int AXIS.i_hold a else s.int AXIS.i_lim a
      (s.commitSp a id 0 th (divMag (step * 400) s.stage.len), overFault 4 y.1 48)
    else (match s.fbMotor a with
      | none => s.commitSp a 0 x.iq 0 0
      | some ch =>
        let n := nth s.snap ch
        let cpr := s.cpr ch
        let thm := n.count * 2 ^ 32 / cpr
        let the := thm * s.nat AXIS.pole_pairs a + s.nat AXIS.comm_offset a
        let om := sat (divMag (b.vf * s.int AXIS.om_num a) (s.nat AXIS.om_den a)) 32
        let dt := satU (s.stage.openedAt - n.time + s.stage.len) 32
        match learn with
        | some r => s.commitSp a (s.int SURVEY.align_current) 0 (r.k % 4 * 2 ^ 30) 0
        | none =>
          let id := if s.followStage 0 then (s.caxOf a).sp.id else if s.kind a = 1 then s.int AXIS.id_ref a else 0
          s.commitSp a id x.iq
            (wrapU (the + divMag (om * dt) 400) 32) om, [])
  | 3 => (s.commitSp a 0 x.iq 0 0, [])
  | _ => (s, [])

/-- The axis controller's work of one Stage, done by its task. -/
def State.axisKernel (a : Nat) (s : State) : State :=
  if 12 ≤ a then s
  else
    let s := s.decideOffered a
    let b := s.bookOf a
    if !s.defined a then s
    else if s.measuring a then (s.onAx a (fun x => { x with pRef := b.pf, peRef := b.pf * 65536 })).stillStage a
    else
      let s := s.limits a
      let s := s.homeStage a s.nextBoundary
      let x := s.axOf a
      let was := x.pRef
      let follows := !(x.mode == 0 || !x.enabled || (x.mode == 6 && !x.ramp))
      let (s, bad1) :=
        if x.mode = 0 ∨ !x.enabled then
          (s.onAx a (fun x => { x with
            pRef := b.pf, peRef := b.pf * 65536, vFF := 0, aRef := 0, iq := 0, ferrRun := 0, ramp := false, decel := false
            gen := { x.gen with phase := .rest, ve := 0, pe := b.pf * 65536, next := none }, filt := { m := 1 } }), [])
        else if x.ramp then s.rampStage a
        else if x.mode = 6 then
          (s.onAx a (fun x => { x with
            pRef := b.pf, peRef := b.pf * 65536, vFF := b.vf, aRef := 0, ferrRun := 0, blendLeft := x.blendLeft - 1
            gen := { x.gen with phase := .rest, ve := 0, pe := b.pf * 65536 } }), [])
        else s.refStage a
      let (s, bad2) := if follows then s.ferrStage a else (s, [])
      let (s, bad3) := if x.mode = 0 ∨ !x.enabled then (s, []) else s.iqStage a
      let (s, bad4) := (((s.wrapAxis a).stillStage a).disableStage a).spStage a was
      s.raiseFaults a (bad1 ++ bad2 ++ bad3 ++ bad4)

/-- A lost master makes its slave perform QUICK_STOP; the coupling is OFF (gear decisions). -/
def State.gearWatch (c : Nat) (s : State) : State :=
  let sl := s.nat GEAR.slave c
  if sl = 0 ∨ (s.axOf (sl - 1)).mode ≠ 4 ∨ (s.axOf (sl - 1)).decel ∨ (s.gcOf c).st = .off ∨ !s.masterLost c then s
  else
    let s := s.setGc c { (s.gcOf c) with st := .off, losses := inc32 (s.gcOf c).losses }
    (s.onAx (sl - 1) (Axis.startRamp .held)).raise 0x68
      (le 1 c ++ le 1 (sl - 1) ++ le 1 (s.nat GEAR.src c) ++ le 1 (s.nat GEAR.src_index c))

/-! ### The commands -/

/-- Source codes of EV_COMMAND_REJECTED: 0 kernel, 1 fabric, 2 mailbox. Log entry 28. -/
def State.axisRow (a src : Nat) (c : AxCmd) (s : State) : Answer := .next (s.axisCommand a { src := src } c)

/-- ENABLE (R247). -/
def execEnable (axis src tag : Nat) (s : State) : Answer := s.axisRow axis src { cmd := 1, tag := tag }

/-- DISABLE (R248). -/
def execDisable (axis src tag : Nat) (s : State) : Answer := s.axisRow axis src { cmd := 2, tag := tag }

/-- MODE (R249, R750). -/
def execMode (axis src code tag : Nat) (s : State) : Answer := s.axisRow axis src { cmd := 3, arg := code, tag := tag }

/-- MOVE_ABS (R263, R265). -/
def execMoveAbs (axis src prof flags : Nat) (target : Int) (vcap tag : Nat) (s : State) : Answer :=
  s.axisRow axis src { cmd := 4, arg := prof, flags := flags, value := target, vcap := vcap, tag := tag }

/-- MOVE_REL (R254, R303). -/
def execMoveRel (axis src prof : Nat) (dist : Int) (vcap tag : Nat) (s : State) : Answer :=
  s.axisRow axis src { cmd := 5, arg := prof, value := dist, vcap := vcap, tag := tag }

/-- VELOCITY (R259). -/
def execVelocity (axis src prof : Nat) (v : Int) (vcap tag : Nat) (s : State) : Answer :=
  s.axisRow axis src { cmd := 6, arg := prof, value := v, vcap := vcap, tag := tag }

/-- STOP (R266). -/
def execStop (axis src tag : Nat) (s : State) : Answer := s.axisRow axis src { cmd := 7, tag := tag }

/-- RESUME (R264). -/
def execResume (axis src tag : Nat) (s : State) : Answer := s.axisRow axis src { cmd := 8, tag := tag }

/-- QUICK_STOP (R748). -/
def execQuickStop (axis src tag : Nat) (s : State) : Answer := s.axisRow axis src { cmd := 9, tag := tag }

/-- TORQUE (R243). -/
def execTorque (axis src : Nat) (current : Int) (tag : Nat) (s : State) : Answer :=
  s.axisRow axis src { cmd := 10, current := current, tag := tag }

/-- HOLD (R251). -/
def execHold (axis src tag : Nat) (s : State) : Answer := s.axisRow axis src { cmd := 11, tag := tag }

/-- RELEASE (R267). -/
def execRelease (axis src tag : Nat) (s : State) : Answer := s.axisRow axis src { cmd := 12, tag := tag }

/-- DWELL_END (R264): AXIS.dwell, in whole Stages, has passed since the last motion came to rest. -/
def execDwellEnd (t axis : Nat) (s : State) : Answer :=
  let s := s.tick t
  if s.clk.motionHeld then .next s
  else
  let x := s.axOf axis
  let due (g : Gen) : Bool := g.ve == 0 && !g.dwellOver && decide (g.restAt + s.stagesOf (s.nat AXIS.dwell axis) * s.period ≤ t)
  let ph := match s.couplingOf axis with | some c => due (s.gcOf c).phaseGen | none => false
  if axis < 12 ∧ (due x.gen || ph) then
    let ovr (x : Axis) : Axis := { x with gen := { x.gen with dwellOver := x.gen.dwellOver || due x.gen } }
    let s := match s.couplingOf axis with
      | some c => s.onGcKept c (fun g => { g with phaseGen := { g.phaseGen with dwellOver := g.phaseGen.dwellOver || ph } })
      | none => s
    .next (s.onAxKept axis ovr)
  else .next s

end Sys2Proof.Machine
end

