-- ==== Sys2Proof/Machine/Frames.lean ====
section
/-! DEFINITION. Cysin frames as the unit forms and queues them (chapter 12): bodies in wire order, tags, originating under
the unit's or the pair's identity, port queues and credits (R464 to R486, R527 to R530). -/

namespace Sys2Proof.Machine

/-! ### Bodies -/

/-- Byte order of multi-byte fields: `be` on the wire (R11), `le` as held (R10). -/
abbrev Order8 := Nat → Int → List Octet

def zeros (n : Nat) : List Octet := List.replicate n 0

/-- The 32-byte axis command record (chapter 06). -/
def axCmdBytes (o : Order8) (c : AxCmd) : List Octet :=
  [c.cmd, c.arg, c.flags, 0] ++ o 4 c.current ++ o 8 c.value ++ o 8 c.vcap ++ o 4 c.tag ++ zeros 4

/-- The 72-byte path group command record (chapter 07). -/
def pathCmdBytes (o : Order8) (c : PathCmd) : List Octet :=
  [c.cmd, c.plane, c.turns, 0] ++ o 4 c.blend ++ o 4 c.vcap ++ o 4 c.arclen ++
  ((List.range 4).map (fun i => o 8 (c.ends.getD i 0))).flatten ++
  ((List.range 2).map (fun i => o 8 (c.centre.getD i 0))).flatten ++ o 4 c.tag ++ zeros 4

/-- The 24-byte call record (chapter 11). -/
def callBytes (c : Call) : List Octet :=
  be 4 c.callId ++ be 2 c.group ++ [c.kind, c.side] ++ be 2 c.from_ ++ be 2 c.fromB ++ be 2 c.dest ++ be 2 c.toB ++ be 4 c.req ++
  be 2 c.requester ++ [c.car, 0]

/-- The 16-byte bid record (chapter 11). -/
def bidBytes (b : Bid) : List Octet := be 4 b.callId ++ be 2 b.unit ++ [b.car, 0] ++ be 4 b.cost ++ be 4 b.eta

def chunkBytes (c : Chunk) : List Octet := be 4 c.obj ++ [c.part, 0, 0, 0] ++ be 4 c.total ++ be 4 c.offset ++ c.data

/-- Command code and ARG of a mailbox command (commands table of chapter 20), ARG in stored order. -/
def mbCode : MbCmd → Nat
  | .axis _ _ => 1 | .path _ _ => 2 | .mode _ => 3 | .clearFault => 4 | .learn _ _ _ => 5 | .brakeTest _ => 6 | .switch => 7
  | .holdTest => 8 | .selfTest => 9 | .flush => 10 | .setTime _ => 11 | .write _ _ _ => 12 | .bad c => c

def mbArg : MbCmd → List Octet
  | .axis a c => [a, 0, 0, 0] ++ axCmdBytes le c
  | .path g c => [g, 0, 0, 0] ++ pathCmdBytes le c
  | .mode t => t :: zeros 7
  | .learn k t st => [k, t, st] ++ zeros 5
  | .brakeTest a => a :: zeros 7
  | .setTime v => le 8 v
  | .write a w v => le 4 a ++ [w, 0, 0, 0] ++ le 8 v
  | _ => []

/-- The body of a message in wire order (message catalogue). Log entry 136. -/
def msgBytes : Msg → List Octet
  | .linkHello u b kc ko a => be 2 u ++ be 2 b ++ [kc, ko, 0, 0] ++ (a.map (fun (x : Nat) => be 4 x)).flatten
  | .credit => []
  | .timeSeal o q => be 10 o ++ be 2 q
  | .unitStatus m r y cs f => [m, r, y, 0] ++ (cs.map (fun (x : Nat) => be 4 x)).flatten ++ be 2 f ++ zeros 2
  | .event r => r
  | .safetyPdu c n ts fl d x => be 2 c ++ be 4 n ++ be 4 ts ++ [fl, 0] ++ be 2 d ++ be 4 x
  | .axisCmd a c => [a, 0, 0, 0] ++ axCmdBytes be c
  | .pathCmd g c => [g, 0, 0, 0] ++ pathCmdBytes be c
  | .xdSetpoint a p v ac i => [a, 0, 0, 0] ++ be 8 p ++ be 8 v ++ be 8 ac ++ be 4 i ++ zeros 4
  | .xdStatus a st p v i => [a, st, 0, 0] ++ be 8 p ++ be 8 v ++ be 4 i ++ zeros 4
  | .leaseRequest p u n l c x => be 2 p ++ be 2 u ++ be 4 n ++ be 2 l ++ [c, 0] ++ be 2 x ++ zeros 2
  | .leaseGrant p h n r l x q => be 2 p ++ be 2 h ++ be 4 n ++ [r, 0] ++ be 2 l ++ be 2 x ++ be 2 q
  | .leaseRelease p u n => be 2 p ++ be 2 u ++ be 4 n
  | .dspCall c => callBytes c
  | .dspOpen o =>
    callBytes o.call ++ be 8 o.tOpen ++ be 2 o.lead ++ be 2 o.slot ++ be 4 o.window ++ be 2 o.collector ++ [o.attempt, 0]
  | .dspBid c m bs => be 4 c ++ [bs.length, m, 0, 0] ++ (bs.map bidBytes).flatten
  | .dspAssign c u k at_ x => be 4 c ++ be 2 u ++ [k, at_] ++ be 4 x
  | .dspAnswer _ c u k r => be 4 c ++ be 2 u ++ [k, r]
  | .dspCancel c r => be 4 c ++ be 2 r ++ zeros 2
  | .energyOffer sh u sl inc =>
    be 2 sh ++ be 2 u ++ be 8 sl ++ [inc.length, 0, 0, 0] ++ (inc.map (fun (x : Int × Int) => be 4 x.1 ++ be 4 x.2)).flatten
  | .windowRead r => be 4 r.req ++ be 4 r.addr ++ be 2 r.len ++ [b2n r.at_, 0] ++ be 6 r.atEpoch ++ zeros 2
  | .windowData q ad st e d => be 4 q ++ be 4 ad ++ be 2 d.length ++ [st, 0] ++ be 6 e ++ zeros 2 ++ d
  | .mailboxCmd i e c => be 4 i ++ [mbCode c, 0] ++ be 2 (mbArg c).length ++ be 6 e ++ zeros 2 ++ mbArg c
  | .mailboxReply i c st e d => be 4 i ++ [c, st, 0, 0] ++ be 6 e ++ zeros 2 ++ be 4 d
  | .chunk _ c => chunkBytes c
  | .updateStatus o p st n d => be 4 o ++ [p, st, 0, 0] ++ be 4 n ++ be 4 d
  | .attestRequest n f => n ++ [f, 0, 0, 0]
  | .attestReport c => chunkBytes c
  | .octets _ b => b

/-- TYPE of a message. -/
def msgType : Msg → Nat
  | .linkHello .. => 0x001 | .credit => 0x002 | .timeSeal .. => 0x003 | .unitStatus .. => 0x010 | .event _ => 0x011
  | .safetyPdu .. => 0x020 | .axisCmd .. => 0x030 | .pathCmd .. => 0x031 | .xdSetpoint .. => 0x032 | .xdStatus .. => 0x033
  | .leaseRequest .. => 0x040 | .leaseGrant .. => 0x041 | .leaseRelease .. => 0x042
  | .dspCall _ => 0x050 | .dspOpen _ => 0x051 | .dspBid .. => 0x052 | .dspAssign .. => 0x053 | .dspAnswer t .. => t
  | .dspCancel .. => 0x058 | .energyOffer .. => 0x060 | .windowRead _ => 0x070 | .windowData .. => 0x071
  | .mailboxCmd .. => 0x072 | .mailboxReply .. => 0x073 | .chunk t _ => t | .updateStatus .. => 0x079
  | .attestRequest .. => 0x07C | .attestReport _ => 0x07D | .octets t _ => t

/-- The class of a listed type (message catalogue). -/
def typeClass (t : Nat) : Option Nat :=
  if t = 0x020 then some 0
  else if t ∈ [0x001, 0x002, 0x003, 0x010, 0x011, 0x030, 0x031, 0x032, 0x033, 0x040, 0x041, 0x042] then some 1
  else if (0x050 ≤ t ∧ t ≤ 0x058) ∨ t = 0x060 then some 2
  else if (0x070 ≤ t ∧ t ≤ 0x073) ∨ (0x078 ≤ t ∧ t ≤ 0x07D) then some 3
  else none

def hopLocal (t : Nat) : Bool := t == 0x001 || t == 0x002

/-- Types admitted with KEY 0 (R486). -/
def keylessType (t : Nat) : Bool := [0x001, 0x07A, 0x07C, 0x07D].contains t

/-! ### Identity and tags (R474, R485, R486) -/

def State.unitId (s : State) : Nat := s.nat FABRIC.unit_id

def State.pairId (s : State) : Nat := s.nat FABRIC.pair_id

/-- The unit holds no key, or may not use the security engine (R486, R624, R625). -/
def State.keyless (s : State) : Bool := s.fab.keyCur == 0 || s.stw.secError || s.stw.idFault

def State.keyOf (s : State) (gen : Nat) : Option (List Octet) := (s.fab.keys.find? (·.1 == gen)).map (·.2)

/-- The header bytes 0x00 to 0x1B. -/
def frameHeader (f : Frame) : List Octet :=
  [f.version, f.cls + 4 * f.dkind] ++ be 2 f.src ++ be 2 f.dst ++ be 2 f.type ++ be 4 f.seq ++ be 2 f.boot ++ be 6 f.epoch ++
  [f.hops, f.key] ++ be 2 (f.credit.getD 0 0 * 4096 + f.credit.getD 1 0 * 256 + f.credit.getD 2 0 * 16 + f.credit.getD 3 0) ++
  be 2 f.len ++ zeros 2

/-- TAG of a frame that the unit `sender` with BOOT `boot` puts on a link (R485, R486). -/
def State.tagOf (s : State) (sender boot : Nat) (f : Frame) : List Octet :=
  if f.key = 0 then zeros 16
  else match s.keyOf f.key with
    | none => zeros 16
    | some k => Config.kmac k ((be 2 sender ++ be 2 boot ++ frameHeader f ++ msgBytes f.msg).map Int.ofNat)

/-! ### Ports -/

def State.onPort (p : Nat) (f : Port → Port) (s : State) : State :=
  { s with fab := { s.fab with ports := s.fab.ports.modify p f } }

def State.portOf (s : State) (p : Nat) : Port := nth s.fab.ports p

def State.chain (s : State) (p : Nat) : Bool := s.nat FABRIC.port_mode 0 p == 1

/-- The motion die takes the port as usable (R467): not while it is held in reset (R24). -/
def State.portOn (s : State) (p : Nat) : Bool :=
  p < 2 && !s.clk.motionHeld && (s.wake.phase == 6 || s.wake.phase == 7 || (s.wake.bare && s.wake.fabric)) &&
  (s.portOf p).up && s.nat FABRIC.port_mode 0 p != 3 && !((nth s.links 1).failed)

/-- The neighbour `unit` on port `p`; on a chain port the only one. Log entry 134. -/
def State.peerOf (s : State) (p unit : Nat) : Option Peer :=
  if s.chain p then (s.portOf p).peers.head? else (s.portOf p).peers.find? (·.unit == unit)

def State.onPeer (p unit : Nat) (f : Peer → Peer) (s : State) : State :=
  let one := s.chain p
  s.onPort p (fun x => { x with peers := x.peers.map (fun q => if one || q.unit == unit then f q else q) })

/-- Operational neighbours of a port, by the key under which frames go to them. Log entry 128. -/
def State.operPeers (s : State) (p : Nat) : List Nat :=
  if s.portOn p then ((s.portOf p).peers.filter (·.oper)).map (fun q => if s.chain p then 0 else q.unit) else []

/-! ### Queues and credits (R478, R480, R482, R483) -/

/-- A frame becomes ready for a neighbour. -/
def State.enqueue (p dest : Nat) (buf : Option (Nat × Nat × Nat)) (f : Frame) (s : State) : State :=
  s.onPort p (fun x => { x with queue := x.queue ++ [{ frame := f, dest := dest, buf := buf }] })

def setAt (l : List Nat) (i v : Nat) : List Nat := l.set i v

/-- Class credits are withheld (R85, R439, R453). -/
def State.withholds (s : State) (p c : Nat) : Bool :=
  c == 2 &&
  (decide (1024 ≤ s.dsp.calls.length) ||
   (s.flag DISPATCH.flags 1 && decide (s.nat DISPATCH.ws_calls ≤ s.dsp.ws.length) && p != b2n (s.flag DISPATCH.flags 2)))

/-- A class that carries messages which spawn instances (R85). -/
def State.spawning (s : State) (c : Nat) : Bool :=
  s.graph.tasks.any (fun t => t.kind == 1 && t.srcKind == 1 && typeClass t.srcIx == some c)

/-- A freed buffer returns its credit (R483), unless the credit is withheld (R85). Log entry 131. -/
def State.giveBack (p unit c : Nat) (s : State) : State :=
  let short := s.spawning c && decide (s.freeEntries ≤ s.disp.creditsOut)
  if s.withholds p c || short then
    let s := if short then s.backPressure 0 1 else s
    { s with fab := { s.fab with kept := s.fab.kept ++ [(p, unit, c)] } }
  else
    let s := if s.spawning c then { s with disp := { s.disp with creditsOut := s.disp.creditsOut + 1 } } else s
    s.onPeer p unit (fun q => { q with
      ret := setAt q.ret c ((q.ret.getD c 0 + 1) % 16), changedAt := some (q.changedAt.getD s.now) })

/-- Withheld credits are returned once nothing withholds them. -/
def State.giveKept (s : State) : State :=
  s.fab.kept.foldl (fun s k => s.giveBack k.1 k.2.1 k.2.2) { s with fab := { s.fab with kept := [] } }

/-- A queued copy is gone, sent or discarded: its buffer is freed with the last copy. -/
def State.freeBuf (i : TxItem) (s : State) : State :=
  match i.buf with
  | none => s
  | some (b, p, u) =>
    if s.fab.ports.any (fun x => x.queue.any (fun j => (j.buf.map (·.1)) == some b)) then s
    else s.giveBack p u i.frame.cls

/-- Frames waiting to leave are discarded (R480). -/
def State.dropQueue (p : Nat) (gone : TxItem → Bool) (s : State) : State :=
  let l := (s.portOf p).queue.filter gone
  let s := s.onPort p (fun x => { x with
    queue := x.queue.filter (fun i => !gone i), lost := satU (x.lost + l.length) 32 })
  l.foldl (fun s i => s.freeBuf i) s

/-! ### Routes (R478) -/

def State.sourceOf (s : State) (src : Nat) : Source :=
  (s.fab.sources.find? (·.src == src)).getD { src := src }

def State.setSource (x : Source) (s : State) : State :=
  let l := s.fab.sources.filter (fun y => y.src < x.src) ++ [x] ++ s.fab.sources.filter (fun y => x.src < y.src)
  { s with fab := { s.fab with sources := l } }

/-- The links on which a frame to `dst` leaves: a unit frame only where its destination was last heard, any other frame, and
one whose route is unknown, to every operational neighbour. `except` is the port of arrival. Log entry 128. -/
def State.linksTo (s : State) (dkind dst : Nat) (except : Option Nat) : List (Nat × Nat) :=
  let all := ((List.range 2).filter (fun p => except != some p)).flatMap (fun p => (s.operPeers p).map (fun u => (p, u)))
  match dkind, (s.sourceOf dst).route with
  | 0, some (p, u) => if except == some p then [] else all.filter (fun l => l == (p, if s.chain p then 0 else u))
  | _, _ => all

/-- The destination includes the unit (R470, R471, R530). -/
def State.isDest (s : State) (dkind dst : Nat) : Bool :=
  match dkind with
  | 0 => dst == s.unitId || (s.inPair && dst == s.pairId)
  | 1 => dst != 0 && (dst == s.nat DISPATCH.group || (List.range 8).any (fun k => s.nat FABRIC.groups 0 k == dst))
  | _ => true

/-! ### Sequence check (R476, R477) -/

/-- accept(seq) of R477 on one class. -/
def seqAccept (q : Option (Nat × Nat)) (seq : Nat) : Option (Nat × Nat) :=
  match q with
  | none => some (seq, 1)
  | some (hi, bits) =>
    let d := wrapS ((seq : Int) - hi) 32
    if 0 < d then some (seq, (if 64 ≤ d then 1 else bits * 2 ^ d.toNat % 2 ^ 64 + 1))
    else if -64 < d ∧ !bit bits (-d).toNat then some (hi, bits + 2 ^ (-d).toNat)
    else none

/-- The BOOT of a source is newer than the one held. -/
def bootNewer (b h : Nat) : Bool := let d := wrapU ((b : Int) - h) 16; 1 ≤ d && d ≤ 32767

def bootOlder (b h : Nat) : Bool := 32768 ≤ wrapU ((b : Int) - h) 16

/-! ### Originating (R468 to R474, R479, R527 to R530) -/

/-- The frame leaves on every link towards its destination, and comes back to the unit when it is among the destinations. -/
def State.launch (f : Frame) (s : State) : State :=
  let s := (s.linksTo f.dkind f.dst none).foldl (fun s l => s.enqueue l.1 l.2 none f) s
  let own := s.isDest f.dkind f.dst && !(f.dkind == 0 && f.src == s.pairId && f.dst == s.pairId)
  if own then { s with fab := { s.fab with looped := s.fab.looped ++ [f] } } else s

/-- Originates a message to a destination under the unit's own identity. With an ID conflict classes 0 to 2 are not
originated (R479). `epoch` is the Stage to which the content belongs. -/
def State.sendAt (d : Dest) (m : Msg) (epoch : Nat) (s : State) : State :=
  match typeClass (msgType m) with
  | none => s
  | some c =>
    if (s.fab.conflict && c != 3) || (s.wake.bare && c % 2 == 0) then s
    else
      let q := s.fab.seq.getD c 0
      let f : Frame := { cls := c, dkind := d.kind, src := s.unitId, dst := d.id, type := (msgType m), seq := q, boot := s.fab.boot
                         epoch := epoch, hops := s.nat FABRIC.hops, len := (msgBytes m).length, msg := m }
      { s with fab := { s.fab with seq := setAt s.fab.seq c ((q + 1) % 2 ^ 32) } }.launch f

def State.send (d : Dest) (m : Msg) (s : State) : State := s.sendAt d m s.stage.epoch

/-- The destination that a field of the form of FABRIC.event_dst names. -/
def dstField (v : Nat) : Option Dest :=
  match v / 16384 with
  | 1 => some { kind := 0, id := v % 16384 }
  | 2 => some { kind := 1, id := v % 16384 }
  | 3 => some { kind := 2, id := 0 }
  | _ => none

/-- The member sends pair frames (R529). -/
def State.pairSends (s : State) : Bool :=
  s.stage.aligned && (s.twin.st == 2 || s.twinFit || (s.fabricPair && s.twin.st == 4))

/-- A pair frame is numbered and launched; the 65th of a Stage waits (R527, R530). -/
def State.pairLaunch (f : Frame) (s : State) : State :=
  let i := s.twin.pairIx.getD f.cls 0
  if 64 ≤ i then { s with twin := { s.twin with pairWait := s.twin.pairWait ++ [f] } }
  else
    let ns := s.stage.epoch - s.stage.offsetD
    let f := { f with seq := ns % 2 ^ 26 * 64 + i }
    let x := s.sourceOf s.pairId
    let s := s.setSource { x with boot := some 0, seqs := x.seqs.modify f.cls (fun q => (seqAccept q f.seq).orElse (fun _ => q)) }
    { s with twin := { s.twin with pairIx := setAt s.twin.pairIx f.cls (i + 1) } }.launch f

/-- Originates a message of the machine: under the pair identity in a pair (R527, R529), else under the unit's own. -/
def State.sendPair (d : Dest) (m : Msg) (epoch : Nat) (s : State) : State :=
  if !s.inPair then s.sendAt d m epoch
  else if !s.pairSends then s
  else match typeClass (msgType m) with
    | none => s
    | some c =>
      if s.fab.conflict && c != 3 then s
      else s.pairLaunch {
        cls := c, dkind := d.kind, src := s.pairId, dst := d.id, type := (msgType m), boot := 0, epoch := epoch
        hops := s.nat FABRIC.hops, len := (msgBytes m).length, msg := m }

/-- The pair frames that waited for this Stage. -/
def State.pairStage (s : State) : State :=
  let l := s.twin.pairWait
  l.foldl (fun s f => s.pairLaunch f) { s with twin := { s.twin with pairWait := [], pairIx := [0, 0, 0, 0] } }

/-- A hop-local frame to one neighbour; it needs no credit and is sent during an ID conflict too (R479, R483). -/
def State.sendHop (p dest : Nat) (m : Msg) (s : State) : State :=
  let q := s.fab.seq.getD 1 0
  let f : Frame := { cls := 1, src := s.unitId, type := (msgType m), seq := q, boot := s.fab.boot, epoch := s.stage.epoch
                     len := (msgBytes m).length, msg := m }
  { s with fab := { s.fab with seq := setAt s.fab.seq 1 ((q + 1) % 2 ^ 32) } }.enqueue p dest none f

end Sys2Proof.Machine
end

