-- ==== Sys2Proof/Machine/Trip.lean ====
section
/-! DEFINITION. Trips of cars: landings and zones, flight times and energies of a leg (R446, R448), the forecast of a DC bus
(R559) and the pairing of a departure (R560). -/

namespace Sys2Proof.Machine

/-! ### Landings and zones (R359, R745) -/

def State.zoneLo (s : State) (c l : Nat) : Int := s.int LANDING.zone_lo (256 * c + l)

def State.zoneHi (s : State) (c l : Nat) : Int := s.int LANDING.zone_hi (256 * c + l)

/-- The zones of a landing are present (R745). -/
def State.hasZone (s : State) (c l : Nat) : Bool := s.zoneLo c l != 0 || s.zoneHi c l != 0

/-- The landings of a car whose zones are present, with their zones. -/
def State.zones (s : State) (c : Nat) : List (Nat × Int × Int) :=
  ((List.range (s.nat CAR.count c)).filter (s.hasZone c)).map (fun l => (l, s.zoneLo c l, s.zoneHi c l))

/-- The landing table of a car is present (R745). -/
def State.landTable (s : State) (c : Nat) : Bool :=
  (s.carAxis c).isSome && (List.range (s.nat CAR.count c)).all (s.hasZone c)

/-- L_l (R359). -/
def State.landPos (s : State) (c l : Nat) : Int :=
  rndShift (s.zoneLo c l + s.zoneHi c l) 1 + s.int LANDING.trim (256 * c + l)

/-- The landing nearest to a position, the lower of two equally near (R682). -/
def State.nearestLanding (s : State) (c : Nat) (p : Int) (ok : Nat → Bool) : Option Nat :=
  ((List.range (s.nat CAR.count c)).filter ok).foldl (fun (b : Option Nat) l =>
    match b with
    | none => some l
    | some m => if (s.landPos c l - p).natAbs < (s.landPos c m - p).natAbs then some l else b) none

/-! ### Flight and energy (R446, R448) -/

/-- flight(D) of a car, in ms (R446). -/
def State.flight (s : State) (c : Nat) (d : Nat) : Nat :=
  match s.carAxis c with
  | none => 0
  | some a =>
    let p := s.nat AXIS.prof_first a + s.nat CAR.prof c
    let v := s.profVmax p
    let acc := min (s.profA2 p) (s.profD2 p)
    let q1 := d / v
    let q2 := v * 65536 / acc
    let n := if q2 ≤ q1 then q1 + q2 else 2 * floorSqrt (d * 65536 / acc)
    satU (n * s.period / 400000) 32

/-- E_m and R of a leg with load `y`, in mJ (R448). -/
def State.legEnergy (s : State) (y : Int) (from_ dest : Int) : Int × Int :=
  let du := rndShift (dest - from_) 24
  let pot := rndShift ((y - s.int DISPATCH.balance) * s.int DISPATCH.k_pot * du) 32
  (rndShift (s.int DISPATCH.k_run * du.natAbs) 16 + s.int DISPATCH.e_start + max pot 0, max (-pot) 0)

/-! ### Buses (R558 to R560) -/

def State.bus (s : State) (b : Nat) : Bus := nth s.purse.buses b

def State.onBus (b : Nat) (f : Bus → Bus) (s : State) : State :=
  { s with purse := { s.purse with buses := s.purse.buses.modify b f } }

/-- The bus that feeds an axis. -/
def State.busOf (s : State) (a : Nat) : Option Nat :=
  (List.range 4).find? (fun b => s.nat BUS.ain b != 0 && bit (s.nat BUS.axes b) a)

/-- PURSE.slice in ns. -/
def State.sliceNs (s : State) : Int := s.nat PURSE.slice * 1000000

/-- The slice of a site time. -/
def State.sliceAt (s : State) (site : Int) : Int := site / s.sliceNs

/-- BUS.align_max in ms, with its zero flag (R744). -/
def State.alignMax (s : State) (b : Nat) : Nat :=
  if s.raw BUS.align_max b = 0 ∧ s.flag BUS.flags 2 b then 0 else s.nat BUS.align_max b

/-- The profile of a leg over `n` slices: equal shares by floor, the remainder in the last (R559). Log entry 126. -/
def spread (n : Nat) (e : Int) : List Int :=
  (List.range n).map (fun k => if k + 1 = n then e - (n - 1 : Int) * (e / n) else e / n)

/-- The slices of a leg that starts at site time `t` and lasts `ms`. Log entry 126. -/
def State.slicesOf (s : State) (t : Int) (ms : Nat) : Nat :=
  (s.sliceAt (t + ms * 1000000 - (if ms = 0 then 0 else 1)) - s.sliceAt t).toNat + 1

/-- The slice profile (slice, M, R) of a leg. Log entry 126. -/
def State.tripProfile (s : State) (t : Int) (ms : Nat) (e : Int × Int) : List (Int × Int × Int) :=
  let n := s.slicesOf t ms
  (List.range n).map (fun (k : Nat) => (s.sliceAt t + (k : Int), (spread n e.1).getD k 0, (spread n e.2).getD k 0))

/-- An increment of the forecast: slices that have ended, or lie more than 64 ahead, are ignored (R559). -/
def Bus.add (x : Int × Int × Int) (b : Bus) : Bus :=
  let i := x.1 - b.base
  if i < 0 ∨ 64 ≤ i then b
  else { b with m := b.m.modify i.toNat (fun v => sat (v + x.2.1) 32), r := b.r.modify i.toNat (fun v => sat (v + x.2.2) 32) }

/-- The forecast moves on to slice `i`; PAIRED takes what the slices ended held. -/
def Bus.advance (i : Int) (b : Bus) : Bus :=
  let n := (i - b.base).toNat
  if n = 0 then b
  else
    let ended := ((b.m.take n).zip (b.r.take n)).foldl (fun (t : Int) x => t + min x.1 x.2) 0
    { b with base := i, m := b.m.drop n ++ List.replicate (min n 64) 0, r := b.r.drop n ++ List.replicate (min n 64) 0
             paired := satU (b.paired + ended.toNat) 32 }

/-- Increments go into the forecast and, with SHARED set, as ENERGY_OFFERs to BUS.group, 16 slices a message. -/
def State.offerTrip (b : Nat) (l : List (Int × Int × Int)) (s : State) : State :=
  let s := s.onBus b (fun x => l.foldl (fun x i => x.add i) x)
  if !s.flag BUS.flags 1 b then s
  else (List.range (ceilDiv l.length 16)).foldl (fun s k =>
    let part := (l.drop (16 * k)).take 16
    s.send { kind := 1, id := s.nat BUS.group b }
      (.energyOffer (s.nat BUS.share_id b) s.unitId ((part.head?.map (fun x => x.1.toNat)).getD 0) (part.map (·.2)))) s

/-! ### A car's trip -/

def State.car (s : State) (c : Nat) : Car := nth s.cars c

def State.onCar (c : Nat) (f : Car → Car) (s : State) : State := { s with cars := s.cars.modify c f }

/-- The load of R448: y of R371, or the balance with load unknown. -/
def State.tripLoad (s : State) (c : Nat) : Int :=
  if (s.car c).loadKnown then (s.car c).y else s.int DISPATCH.balance

/-- The energies of a run of a car from where it is to a landing. -/
def State.runEnergy (s : State) (c l : Nat) : Int × Int := s.legEnergy (s.tripLoad c) (s.car c).pc (s.landPos c l)

/-- A trip whose departure at site time `t` is fixed enters the forecast (R559). -/
def State.enterTrip (c l : Nat) (t : Int) (s : State) : State :=
  match (s.carAxis c).bind s.busOf with
  | none => s
  | some b =>
    let p := s.tripProfile t (s.flight c (s.landPos c l - (s.car c).pc).natAbs) (s.runEnergy c l)
    (s.onCar c (fun x => { x with trip := p, tripBus := b })).offerTrip b p

/-- A trip abandoned or changed: sent again as the negated difference (R559). -/
def State.dropTrip (c : Nat) (s : State) : State :=
  let x := s.car c
  if x.trip = [] then s
  else (s.onCar c (fun x => { x with trip := [] })).offerTrip x.tripBus (x.trip.map (fun i => (i.1, -i.2.1, -i.2.2)))

/-- R560: the site time at which a paired departure starts. -/
def State.pairStart (s : State) (b c l : Nat) : Int :=
  let i0 := -((-s.site) / s.sliceNs)
  let e := s.runEnergy c l
  let ms := s.flight c (s.landPos c l - (s.car c).pc).natAbs
  let p := s.tripProfile (i0 * s.sliceNs) ms e
  let f := s.bus b
  let regen : Bool := decide (e.1 < e.2)
  let score (j : Nat) : Int := p.foldl (fun (t : Int) x =>
    let i := x.1 + j - f.base
    let at_ (v : List Int) : Int := if i < 0 then 0 else v.getD i.toNat 0
    t + (if regen then min x.2.2 (at_ f.m) else min x.2.1 (at_ f.r))) 0
  let j := (List.range (s.alignMax b / s.nat PURSE.slice + 1)).foldl (fun (m : Nat) j => if score m < score j then j else m) 0
  (i0 + j) * s.sliceNs

end Sys2Proof.Machine
end

