-- ==== Sys2Proof/Machine/Car.lean ====
section
/-! DEFINITION. The car layer of chapter 09: car position, consistency checks, load, levelling and the car decisions
(R356 to R381), with the pairing of departures (R560). -/

namespace Sys2Proof.Machine

/-! ### Small readings -/

/-- The doors of a car. -/
def State.doorsOf (s : State) (c : Nat) : List Nat :=
  (List.range 8).filter (fun d => s.nat DOOR.axis d != 0 && bit (s.nat DOOR.cars d) c)

def State.door (s : State) (d : Nat) : Door := nth s.doors d

def State.onDoor (d : Nat) (f : Door → Door) (s : State) : State := { s with doors := s.doors.modify d f }

/-- DOORS_CLOSED: every door naming the car is CLOSED. -/
def State.doorsClosed (s : State) (c : Nat) : Bool := (s.doorsOf c).all (fun d => (s.door d).st == 1)

/-- The car layer drives the cars (R378). -/
def State.carDrives (s : State) : Bool := s.mode.mode == 2 || s.mode.mode == 4 || s.mode.mode == 5

/-- The door-zone inputs of a car. -/
def State.dzIns (s : State) (c : Nat) : List Nat :=
  [s.nat CAR.dz_in0 c, s.nat CAR.dz_in1 c].filterMap (fun n => if n = 0 then none else some (n - 1))

/-- The landing in whose zone a position lies. -/
def State.zoneAt (s : State) (c : Nat) (p : Int) : Option Nat :=
  ((s.zones c).find? (fun z => z.2.1 ≤ p && p ≤ z.2.2)).map (·.1)

/-- Δ at a landing (R374). -/
def State.levelErr (s : State) (c l : Nat) : Int := (s.car c).pc - s.landPos c l

/-- The shaft source is valid (R357). -/
def State.shaftValid (s : State) (c : Nat) : Bool :=
  match s.shaftCh c with
  | some ch => (nth s.snap ch).valid
  | none => false

/-- OUT is set (R380); `out` is the mask of its causes. -/
def State.isOut (s : State) (c : Nat) : Bool := (s.car c).out != 0

def State.setOut (c cause : Nat) (s : State) : State := s.onCar c (fun x => { x with out := setBit x.out cause true })

/-- The car layer's command for its axis: a kernel command of the next boundary (R253). Log entry 214. -/
def State.kernelCmd (a : Nat) (m : AxCmd) (s : State) : State :=
  s.onBook a (fun b => { b with incoming := b.incoming ++ [{ origin := {}, cmd := m }] })

/-- Two boundaries after a command was issued its effect is seen. -/
def State.seen (s : State) (since : Nat) : Bool := decide (since + 2 ≤ s.stage.boundaries)

/-- The raw move of an axis is complete. -/
def State.rawDone (s : State) (a : Nat) : Bool :=
  let x := s.axOf a
  x.gen.phase == .rest && x.gen.next.isNone && !x.ramp && !x.decel

/-- A car changes state: EV_CAR_STATE. -/
def State.carState (c dest : Nat) (s : State) : State :=
  let x := s.car c
  if x.st = dest then s
  else (s.onCar c (fun x => { x with st := dest })).raise 0x90
    (le 1 c ++ le 1 x.st ++ le 1 dest ++ le 1 (x.landing.getD 0xFF) ++ le 8 x.pc)

/-! ### Position and checks (R356 to R368) -/

def State.disagree (c check input : Nat) (v : Int) (sev : Nat) (s : State) : State :=
  (s.onCar c (fun x => { x with disagrees := inc32 x.disagrees })).raise 0x91 (le 1 c ++ le 1 check ++ le 1 input ++ le 8 v) sev

/-- A gross disagreement (consistency decisions). Log entry 87. -/
def State.shaftFails (c a check input : Nat) (v : Int) (s : State) : State :=
  let s := if s.carDrives then s.kernelCmd a { cmd := 9 } else s
  let s := (s.disagree c check input v 3).setOut c 5
  ((s.onCar c (fun x => { x with shaftFault := true, running := none, landing := none })).dropTrip c).carState c 0

/-- pc, k and g of the Stage (R356 to R358), and the loss of a source. -/
def State.carMeasure (c a : Nat) (s : State) : State :=
  let x := s.car c
  let fresh (ch : Nat) : Bool := (nth s.snap ch).fault && !(nth s.snapPrev ch).fault
  let lostEv (src ch : Nat) (s : State) : State := s.raise 0x93 (le 1 c ++ le 1 src ++ le 1 ch)
  let valid := s.shaftValid c
  let s := match s.shaftCh c with
    | some ch =>
      if !fresh ch then s
      else if s.usesFb a ch then lostEv 1 ch s
      else lostEv 1 ch (s.onCar c (fun y => { y with k := if x.shaftWas then x.g else y.k, degraded := true }))
    | none => s
  let s := match s.fbMotor a with
    | some ch => if fresh ch then lostEv 0 ch s else s
    | none => s
  let pm := match s.fbMotor a with
    | some ch => (nth s.snap ch).pos
    | none => (s.bookOf a).pf
  let ps := match s.shaftCh c with
    | some ch => (nth s.snap ch).pos
    | none => 0
  let pc := if valid then ps else sat (pm + (s.car c).k) 64
  s.onCar c (fun x => { x with
    pc := pc, g := pc - (s.bookOf a).pf, shaftWas := valid
    d := match x.pm0, x.ps0, valid with
      | some m, some p, true => (pm - m) - (ps - p)
      | _, _, _ => 0 })

/-- The expected edge for a marker edge (R364). Log entry 84. -/
def State.expectedEdge (s : State) (c a : Nat) (entry : Bool) (p : Int) : Option Int :=
  let v := (s.bookOf a).vf
  let los := (s.zones c).map (fun z => z.2.1)
  let his := (s.zones c).map (fun z => z.2.2)
  let l := if v = 0 then los ++ his else if (decide (0 < v)) == entry then los else his
  l.foldl (fun (b : Option Int) e => match b with
    | none => some e
    | some m => if (e - p).natAbs < (m - p).natAbs then some e else b) none

/-- One filtered change of a door-zone input (R364, R365, R366). Log entry 85. -/
def State.markerEdge (c a i : Nat) (s : State) : State :=
  let p := s.keptPos a i + (s.car c).g
  match s.expectedEdge c a (s.dinActive i) p with
  | none => s
  | some ex =>
    let e := p - ex
    let win : Int := s.nat CAR.win_marker c
    let x := s.car c
    let motor := !s.shaftValid c
    let corr := x.st == 4
    let first := corr && x.edgesSeen == 0
    let s := s.onCar c (fun x => { x with edgesSeen := if corr then x.edgesSeen + 1 else x.edgesSeen })
    let fix (s : State) : State := s.onCar c (fun x => { x with
      k := x.k - e, pc := x.pc - e, g := x.g - e, corrections := inc32 x.corrections })
    if first && motor then fix s
    else if e.natAbs ≤ win then (if motor then fix s else s)
    else
      let s := s.onCar c (fun x => { x with edgeBad := x.edgeBad || (corr && !first) })
      if e.natAbs ≤ 4 * win then (s.disagree c 1 i e 0).setOut c 1
      else s.shaftFails c a 1 i e

/-- The difference of motor and shaft since the last landing (R363). Log entries 85, 86. -/
def State.motionCheck (c a : Nat) (s : State) : State :=
  let x := s.car c
  let win := s.nat CAR.win_ms c
  if (s.axOf a).standstill ∨ x.dSeen ∨ x.d.natAbs ≤ win then s
  else
    let s := s.onCar c (fun x => { x with dSeen := true })
    if x.d.natAbs ≤ 4 * win then (s.disagree c 0 0 x.d 0).setOut c 1 else s.shaftFails c a 0 0 x.d

/-- Inputs out of place and inputs that differ (R366). Log entry 86. -/
def State.inputChecks (c : Nat) (s : State) : State :=
  let ins := s.dzIns c
  let x := s.car c
  let win : Int := s.nat CAR.win_marker c
  let zs := s.zones c
  let near := zs.any (fun z => z.2.1 - win ≤ x.pc && x.pc ≤ z.2.2 + win)
  let deep := zs.any (fun z => z.2.1 + win < x.pc && x.pc < z.2.2 - win)
  let t := s.stage.openedAt
  let s := (List.range ins.length).foldl (fun s k =>
    let i := ins.getD k 0
    let bad := if s.dinActive i then !near && zs != [] else deep
    if !bad then s.onCar c (fun x => { x with outOf := x.outOf.set k none, placed := x.placed.set k true })
    else
      let from_ := ((s.car c).outOf.getD k none).getD t
      let s := s.onCar c (fun x => { x with outOf := x.outOf.set k (some from_) })
      if (s.car c).placed.getD k true && decide (from_ + s.nat CAR.dz_disc c < t) then
        ((s.onCar c (fun x => { x with placed := x.placed.set k false })).disagree c 2 i x.pc 0).setOut c 1
      else s) s
  match ins with
  | [i, j] => s.onCar c (fun x => { x with differ := if s.dinActive i = s.dinActive j then none else some (x.differ.getD t) })
  | _ => s

/-- DZ (R362). -/
def State.carZone (c : Nat) (s : State) : State :=
  let x := s.car c
  let z := s.zoneAt c x.pc
  let act := (s.dzIns c).map s.dinActive
  let agrees := if x.dzDegraded then act.any id else act.all id && act != []
  s.onCar c (fun x => { x with
    dz := z.isSome && agrees, landing := if x.st = 0 then none else z.orElse (fun _ => x.landing) })

/-! ### Load (R371 to R373) -/

/-- The load input of a car and its reading now, if it may be used. Log entry 93. -/
def State.liveLoad (s : State) (c : Nat) : Option Int :=
  let n := s.nat CAR.load_in c
  if n = 0 || !flagAt s.survey.haveTare (n - 1) then none
  else let x := nth s.ain (n - 1); if x.sat then none else some x.y

/-- y is latched (R371). Log entry 94. -/
def State.latchLoad (c : Nat) (s : State) : State :=
  match s.liveLoad c with
  | some y => s.onCar c (fun x => { x with y := y, loadKnown := true })
  | none => s.onCar c (fun x => { x with y := 0, loadKnown := false })

def State.carLoad (c a : Nat) (s : State) : State :=
  let closed := s.doorsClosed c
  let s := if closed && !(s.car c).doorsWere then s.latchLoad c else s
  let s := s.onCar c (fun x => { x with doorsWere := closed })
  if !(s.axOf a).standstill then s
  else
    let y := s.liveLoad c
    let byLoad := match y with | some v => decide ((s.nat CAR.overload c : Int) ≤ v) | none => false
    let ovr := byLoad || s.inputActive (s.nat CAR.overload_in c)
    let was := (s.car c).overloaded
    let s := s.onCar c (fun x => { x with overloaded := ovr, overSrc := if byLoad then 0 else 1 })
    if ovr && !was then s.raise 0x97 (le 1 c ++ le 1 (if byLoad then 0 else 1) ++ le 4 (y.getD 0)) else s

/-! ### Moves (R369, R370, R375 to R379) -/

/-- R379. Log entry 90. -/
def State.departOk (s : State) (c : Nat) : Bool := s.doorsClosed c && !(s.car c).overloaded && s.permit

/-- The target of a landing stop (R369), with its load correction in use. -/
def State.stopTarget (s : State) (c l : Nat) : Int × Int :=
  let x := s.car c
  let cl := if x.loadKnown then rndShift (s.int LANDING.lc (256 * c + l) * x.y) 16 else 0
  (s.landPos c l - cl - x.g, cl)

/-- MOVE_ABS of the car axis to a landing. -/
def State.issueStop (c a l vcap : Nat) (s : State) : State :=
  let (t, cl) := s.stopTarget c l
  (s.onCar c (fun x => { x with running := some l, cl := cl, since := s.stage.boundaries, capV := vcap })).kernelCmd a
    { cmd := 4, arg := s.nat CAR.prof c, value := t, vcap := vcap }

/-- The car axis is enabled before its first command; true when it already is. Log entry 96. -/
def State.readyAxis (a : Nat) (since : Nat) (s : State) : State × Bool :=
  if (s.axOf a).enabled then (s, true)
  else if s.seen since && s.stoReady a then (s.kernelCmd a { cmd := 1 }, false)
  else (s, false)

/-- A car departs for a landing: RUNNING. Log entries 92, 94. -/
def State.carDepart (c a l : Nat) (s : State) : State :=
  let s := if s.doorsOf c = [] then s.latchLoad c else s
  let s := if (s.car c).trip = [] then s.enterTrip c l s.site else s
  let vcap := (s.car c).capV
  ((s.issueStop c a l vcap).onCar c (fun x => { x with tries := 0, paired := none, dSeen := false, retryAt := none })).carState c 2

/-- A departure is wanted: doors of unknown position are asked to close; it waits for R379, for the bus (bus decisions) and for its paired slice (R560).
Log entry 92. -/
def State.carWants (c a l : Nat) (s : State) : State :=
  let early : Bool := match (s.car c).retryAt with
    | some t => decide (s.stage.openedAt < t)
    | none => false
  if !s.departOk c || early then
    let s := (s.doorsOf c).foldl (fun s d =>
      if (s.door d).st = 0 ∨ ((s.door d).st = 7 ∧ (s.door d).resumeAt.isNone) then s.onDoor d (fun x => { x with closeReq := true })
      else s) s
    if (s.car c).paired.isSome then (s.onCar c (fun x => { x with paired := none })).dropTrip c else s
  else
    let (s, ok) := s.readyAxis a (s.car c).since
    if !ok then s.onCar c (fun x => { x with since := if s.seen x.since then s.stage.boundaries else x.since })
    else match s.busOf a with
      | none => s.carDepart c a l
      | some b =>
        let e := s.runEnergy c l
        if (s.bus b).high && decide (e.1 < e.2) then s
        else if s.flag BUS.flags 0 b && !(s.bus b).susp && s.mode.mode != 5 then
          match (s.car c).paired with
          | some _ => s
          | none =>
            let t := s.pairStart b c l
            (s.onCar c (fun x => { x with paired := some (t, s.site) })).enterTrip c l t
        else s.carDepart c a l

/-- The sides of a landing at which doors are asked to open (R441, car decisions). -/
def State.askDoors (c sides : Nat) (s : State) : State :=
  (s.doorsOf c).foldl (fun s d =>
    if bit sides (s.nat DOOR.side d - 1) then s.onDoor d (fun x => { x with openReq := true }) else s) s

def State.levelEv (c l attempt : Nat) (v : Int) (s : State) : State :=
  s.raise 0x96 (le 1 c ++ le 1 l ++ le 1 attempt ++ le 8 v)

/-- A re-levelling move (R375). Log entry 88. -/
def State.issueRelevel (c a l : Nat) (s : State) : State :=
  let v := s.levelErr c l
  let cap := s.natOr CAR.relevel_speed c (s.vCreep a)
  let s := s.onCar c (fun x => { x with since := s.stage.boundaries, running := some l, relevels := inc32 x.relevels })
  (s.levelEv c l ((s.car c).tries + 1) v).kernelCmd a
    { cmd := 4, arg := s.nat CAR.prof c, value := (s.bookOf a).pf - v, vcap := cap }

/-- The door-zone bypass is granted in both channels (R376). Log entry 105. -/
def State.bypassed (s : State) (c : Nat) : Bool := flagAt s.safe.a.bypass c && flagAt s.safe.b.bypass c

/-- The car comes to rest at a landing: pm0 and ps0 are latched (R363). Log entry 252. -/
def State.latchRest (c : Nat) (s : State) : State :=
  let pm := match (s.carAxis c).bind s.fbMotor with
    | some ch => some (nth s.snap ch).pos
    | none => none
  let ps := if s.shaftValid c then (s.shaftCh c).map (fun ch => (nth s.snap ch).pos) else none
  s.onCar c (fun x => { x with pm0 := pm, ps0 := ps, dSeen := false })

/-- The car has come to rest at its target landing. -/
def State.carArrive (c l : Nat) (s : State) : State :=
  let mine := (s.car c).assigned == some l
  let sides := if mine then (s.car c).sides else 0
  let s := (s.latchRest c).onCar c (fun x => { x with
    landing := some l, running := none, capV := 0, tries := 0, trip := []
    assigned := if mine then none else x.assigned, sides := if mine then 0 else x.sides })
  (s.carState c 1).askDoors c (sides &&& s.nat LANDING.sides (256 * c + l))

/-- At rest, at a landing or between (car states). -/
def State.carRests (c : Nat) (s : State) : State :=
  let s := (s.onCar c (fun x => { x with running := none })).dropTrip c
  match s.zoneAt c (s.car c).pc with
  | some l => if (s.levelErr c l).natAbs ≤ s.nat CAR.relevel_start c
      then ((s.latchRest c).onCar c (fun x => { x with landing := some l })).carState c 1 else s.carState c 5
  | none => s.carState c 5

/-- A landing stop has ended (car decisions, RUNNING rows). -/
def State.stopEnds (c a l : Nat) (s : State) : State :=
  let v := s.levelErr c l
  let x := s.car c
  if s.zoneAt c x.pc = some l then
    let s := s.onCar c (fun x => { x with trips := inc32 x.trips })
    if v.natAbs ≤ s.nat CAR.level_tol c then s.carArrive c l
    else ((s.onCar c (fun x => { x with tries := 0 })).issueRelevel c a l).carState c 3
  else
    let s := (s.onCar c (fun x => { x with tries := x.tries + 1, levelMisses := inc32 x.levelMisses })).raise 0x95
      (le 1 c ++ le 1 l ++ le 1 (x.tries + 1) ++ le 8 v)
    if x.tries = 0 then s.issueStop c a l x.capV
    else ((s.onCar c (fun x => { x with running := none })).dropTrip c).setOut c 2 |>.carState c 5

/-- RUNNING: a new target (R442), a corrected target (R370), the end of the stop. -/
def State.carRunning (c a : Nat) (s : State) : State :=
  let x := s.car c
  let l := x.running.getD 0
  let g := (s.axOf a).gen
  let m := x.assigned.getD l
  if m ≠ l ∧ x.out = 0 then ((s.dropTrip c).enterTrip c m s.site).issueStop c a m x.capV
  else if !s.seen x.since then s
  else if s.rawDone a then s.stopEnds c a l
  else
    let v := g.ve.natAbs
    let slowing : Bool := decide ((s.axProf a g.prof g.vcap).choose (g.dir * (g.target * 65536 - g.pe)) v < v)
    if x.corrections != x.corrSeen && g.phase == .pos && !slowing && g.target != (s.stopTarget c l).1 then
      (s.issueStop c a l x.capV).onCar c (fun x => { x with corrSeen := x.corrections })
    else s

/-- RELEVELLING (R376, R377). Log entry 88. -/
def State.carRelevelling (c a : Nat) (s : State) : State :=
  let x := s.car c
  let l := x.running.getD (x.landing.getD 0)
  if !s.seen x.since || !s.rawDone a then s
  else
    let v := s.levelErr c l
    if v.natAbs ≤ s.nat CAR.level_tol c then s.carArrive c l
    else
      let n := x.tries + 1
      let s := s.onCar c (fun x => { x with tries := n })
      if 3 ≤ n then (s.setOut c 3).carRests c
      else if s.doorsClosed c || s.bypassed c then s.issueRelevel c a l
      else s.onCar c (fun x => { x with tries := x.tries - 1 })

/-- The terminal landing of a correction run. -/
def State.corrLanding (s : State) (c : Nat) : Nat := if s.flag CAR.flags 1 c then s.nat CAR.count c - 1 else 0

/-- A correction run starts when the car is OUT with cause 1, or 5 once SHAFT_FAULT is cleared (R367). Log entries 89, 90, 253. -/
def State.startCorrection (c a : Nat) (s : State) : State :=
  let x := s.car c
  let due := bit x.out 1 || (bit x.out 5 && !x.shaftFault)
  if !due || x.edgeBad || !s.departOk c then s
  else
    let (s, ok) := s.readyAxis a x.since
    if !ok then s
    else
      let cap := s.natOr CAR.corr_speed c (s.natOr SURVEY.learn_speed 0 (s.vCreep a))
      ((s.onCar c (fun x => { x with edgesSeen := 0, edgeBad := false, corrK := x.k })).issueStop c a (s.corrLanding c) cap).carState c 4

/-- A correction run ends at the terminal landing (R380). Log entry 89. -/
def State.carCorrecting (c a : Nat) (s : State) : State :=
  let x := s.car c
  if !s.seen x.since || !s.rawDone a then s
  else
    let s := s.raise 0x94 (le 1 c ++ le 1 (b2n x.edgeBad) ++ le 8 (x.k - x.corrK))
    let s := if x.edgeBad then s
      else s.onCar c (fun x => { x with out := setBit (setBit x.out 1 false) 5 false })
    ((s.latchRest c).onCar c (fun x => { x with landing := some (s.corrLanding c), running := none, capV := 0 })).carState c 1

/-- AT_LANDING: how long R375 has held, and whether the bypass is asked for. -/
def State.levelWatch (c : Nat) (s : State) : State :=
  let x := s.car c
  let l := x.landing.getD 0
  let off := decide (s.nat CAR.relevel_start c < (s.levelErr c l).natAbs) && s.flag CAR.flags 0 c && x.st == 1
  let run := if off then satU (x.levelRun + 1) 16 else 0
  let ask := (decide (s.nat CAR.relevel_n c ≤ run) && s.carDrives && !s.doorsClosed c) || (x.st == 3 && !s.doorsClosed c)
  let s := s.onCar c (fun x => { x with levelRun := run, wantsBypass := ask })
  { s with safe := { s.safe with bypassReq := s.safe.bypassReq.set c ask } }

/-- A car at rest takes a target (car decisions). -/
def State.carAtRest (c a : Nat) (s : State) : State :=
  let x := s.car c
  let mayGo := x.out == 0 || (s.mode.mode == 5 && !bit x.out 4)
  match x.assigned with
  | some l =>
    if x.st = 1 ∧ x.landing = some l then
      (s.onCar c (fun x => { x with assigned := none, sides := 0 })).askDoors c x.sides
    else if mayGo then s.carWants c a l else if s.mode.mode = 5 then s else s.startCorrection c a
  | none => if x.out = 0 ∨ s.mode.mode = 5 then s else s.startCorrection c a

/-- The car axis faults (car decisions). -/
def State.carFaults (c a : Nat) (s : State) : State :=
  let f := (s.bookOf a).fault
  let s := if f && !(s.car c).axisFault then
      ((s.setOut c 4).onCar c (fun x => { x with faultOpened := false })).raise 0x90
        (le 1 c ++ le 1 (s.car c).st ++ le 1 (s.car c).st ++ le 1 ((s.car c).landing.getD 0xFF) ++ le 8 (s.car c).pc)
    else s
  let s := s.onCar c (fun x => { x with axisFault := f })
  if !f then s
  else
    let s := if (s.axOf a).standstill && ((s.car c).st == 2 || (s.car c).st == 3 || (s.car c).st == 4) then s.carRests c else s
    let x := s.car c
    let level := (s.levelErr c (x.landing.getD 0)).natAbs ≤ s.nat CAR.relevel_start c
    if x.st = 1 ∧ x.dz ∧ level ∧ !x.faultOpened ∧ (s.axOf a).standstill then
      (s.onCar c (fun x => { x with faultOpened := true })).askDoors c (s.nat LANDING.sides (256 * c + x.landing.getD 0))
    else s

/-- The work of one Stage for a car. Log entry 253. -/
def State.carKernel (c : Nat) (s : State) : State :=
  match s.carAxis c with
  | none => s
  | some a =>
    let s := s.carMeasure c a
    let s := (s.dzIns c).foldl (fun s i => if s.dinMoved i then s.markerEdge c a i else s) s
    let s := ((s.motionCheck c a).inputChecks c).carZone c
    let s := s.carLoad c a
    let s := if (s.doorsOf c).any (fun d => (s.door d).st == 8) then s.setOut c 6 else s
    let s := if (s.car c).outAtStop ≠ 0 ∧ (s.car c).st ≠ 2 ∧ (s.car c).st ≠ 3 then
        (s.setOut c (s.car c).outAtStop).onCar c (fun x => { x with outAtStop := 0 }) else s
    let s := if ((s.axOf a).homed && s.landTable c && !(s.car c).shaftFault) || (s.car c).st == 0 then s
      else ((s.onCar c (fun x => { x with running := none, landing := none })).dropTrip c).carState c 0
    let s := s.carFaults c a
    let known := (s.axOf a).homed && s.landTable c && !(s.car c).shaftFault && (s.axOf a).standstill
    let s := if (s.car c).st = 0 ∧ known ∧ !bit (s.car c).out 5 then s.carRests c else s
    let s := s.levelWatch c
    if !s.carDrives || (s.car c).axisFault then s
    else if s.twin.follow.isSome then s
    else match (s.car c).st with
      | 1 => s.carAtRest c a
      | 2 =>
        if (s.car c).noLanding && s.rawDone a then
          ((s.onCar c (fun x => { x with
            noLanding := false, assigned := x.assigned.orElse (fun _ => x.running), running := none
            retryAt := some (s.stage.openedAt + s.nat AXIS.dwell a) })).dropTrip c).carState c 5
        else s.carRunning c a
      | 3 => s.carRelevelling c a
      | 4 => s.carCorrecting c a
      | 5 => s.carAtRest c a
      | _ => if known && bit (s.car c).out 5 then s.startCorrection c a else s

/-! ### The commands -/

/-- DOOR_ZONE_DISCREPANCY (R366): the two door-zone inputs of a car have differed for longer than CAR.dz_disc. -/
def execDoorZoneDiscrepancy (t car : Nat) (s : State) : Answer :=
  let s := s.tick t
  if s.clk.motionHeld then .next s
  else
  let x := s.car car
  match s.dzIns car, x.differ with
  | [i, j], some from_ =>
    if from_ + s.nat CAR.dz_disc car < s.now ∧ !x.dzDegraded then
      .next ((s.onCar car (fun x => { x with dzDegraded := true, outAtStop := 1 })).raise 0x92
        (le 1 car ++ le 1 (b2n (s.dinActive i) + 2 * b2n (s.dinActive j)) ++ le 8 x.pc))
    else .next s
  | _, _ => .next s

/-- RELEVEL (R375, R376): a car at a landing starts re-levelling. -/
def execRelevel (t car : Nat) (s : State) : Answer :=
  let s := s.tick t
  if s.clk.motionHeld then .next s
  else
  let x := s.car car
  match s.carAxis car, x.landing with
  | some a, some l =>
    if x.st = 1 ∧ s.carDrives ∧ s.nat CAR.relevel_n car ≤ x.levelRun ∧ (s.doorsClosed car ∨ s.bypassed car)
        ∧ !x.axisFault then
      let (s, ok) := s.readyAxis a x.since
      if ok then .next (((s.onCar car (fun x => { x with tries := 0 })).issueRelevel car a l).carState car 3)
      else .next (s.onCar car (fun x => { x with since := if s.seen x.since then s.stage.boundaries else x.since }))
    else .next s
  | _, _ => .next s

/-- PAIRED_DEPARTURE (R560): a car held for bus pairing departs at the start of the chosen slice. -/
def execPairedDeparture (t car : Nat) (s : State) : Answer :=
  let s := s.tick t
  let x := s.car car
  match s.carAxis car, x.paired, x.assigned with
  | some a, some (start, from_), some l =>
    if start ≤ s.site ∧ s.departOk car ∧ (x.st = 1 ∨ x.st = 5) ∧ s.carDrives then
      let s := match s.busOf a with
        | some b => s.onBus b (fun y => { y with
            holds := inc32 y.holds, holdMs := satU (y.holdMs + ((s.site - from_) / 1000000).toNat) 32 })
        | none => s
      .next (s.carDepart car a l)
    else .next s
  | _, _, _ => .next s

end Sys2Proof.Machine
end

