-- ==== Sys2Proof/Machine/Door.lean ====
section
/-! DEFINITION. The door kernel of chapter 09: requests, hold and nudge times, force and energy, the door decisions (R382 to
R391), with the phase flags of Recall (R683, R689 to R691) and the rescue landing (R695). -/

namespace Sys2Proof.Machine

/-! ### What a door reads -/

def State.doorAxis (s : State) (d : Nat) : Option Nat :=
  let x := s.nat DOOR.axis d
  if x = 0 then none else some (x - 1)

/-- The cars of a door. -/
def State.doorCars (s : State) (d : Nat) : List Nat := (List.range 4).filter (fun c => bit (s.nat DOOR.cars d) c)

/-- A flag of the recall phase in effect. Log entry 102. -/
def State.recallFlag (s : State) (b : Nat) : Bool := s.mode.mode == 4 && s.flag RECALL.flags b 0 s.mode.recallPhase

/-- The landing of the recall phase in effect for a car; 0xFF is none. -/
def State.recallLanding (s : State) (p c : Nat) : Option Nat :=
  let l := s.nat RECALL.landing 0 p c
  if l = 0xFF ∨ (s.carAxis c).isNone then none else some l

/-- The device mode permits a car's doors to open (R683). -/
def State.modeOpens (s : State) (c : Nat) : Bool :=
  match s.mode.mode with
  | 2 => true
  | 4 => true
  | 5 => let r := nth s.mode.rescue c; r.arrived && !r.done && (s.car c).landing == some r.landing
  | _ => false

/-- The device mode permits door motion. -/
def State.doorsMove (s : State) : Bool := s.mode.mode == 2 || s.mode.mode == 4 || s.mode.mode == 5

/-- Opening is permitted (R382). -/
def State.mayOpen (s : State) (d : Nat) : Bool :=
  (s.doorCars d).all (fun c =>
    let x := s.car c
    (x.st == 1 || (x.st == 3 && s.bypassed c)) && x.dz &&
    (match x.landing with | some l => bit (s.nat LANDING.sides (256 * c + l)) (s.nat DOOR.side d - 1) | none => false) &&
    s.modeOpens c)

def State.doorOverload (s : State) (d : Nat) : Bool := (s.doorCars d).any (fun c => (s.car c).overloaded)

/-- The curtain is interrupted: its input is active. Log entry 98. -/
def State.curtain (s : State) (d : Nat) : Bool := s.inputActive (s.nat DOOR.curtain d)

def State.openBtn (s : State) (d : Nat) : Bool := s.inputActive (s.nat DOOR.open_btn d)

def State.closeBtn (s : State) (d : Nat) : Bool := s.inputActive (s.nat DOOR.close_btn d)

/-- A button's filtered change to active. Log entry 97. -/
def State.pressed (s : State) (n : Nat) : Bool := n != 0 && s.dinActive (n - 1) && s.dinMoved (n - 1)

/-- The door lies within DOOR.end_zone of closed_pos (R390). -/
def State.endZone (s : State) (d a : Nat) : Bool :=
  decide (((s.bookOf a).pf - s.int DOOR.closed_pos d).natAbs ≤ s.nat DOOR.end_zone d)

/-- v_e (R388): the greatest v with floor(mass v² / 2^17) ≤ e. -/
def State.doorV (s : State) (d e : Nat) : Nat := satU (floorSqrt (((e + 1) * 2 ^ 17 - 1) / s.nat DOOR.mass d)) 32

/-- Force estimate and kinetic energy (R387). Log entry 82. -/
def State.doorForce (s : State) (d a : Nat) : Int × Nat :=
  let x := s.axOf a
  let sc : Int := if s.int DOOR.open_pos d < s.int DOOR.closed_pos d then 1 else -1
  let fm := x.iq - rndShift (s.int DOOR.mass d * x.aRef) 32 - sgn x.vFF * s.int DOOR.friction d
  let v := (s.bookOf a).vf.natAbs / 65536
  (sat (sc * fm) 32, satU (s.nat DOOR.mass d * v * v / 2 ^ 17) 64)

/-! ### Changes of state -/

def State.doorState (d dest : Nat) (s : State) : State :=
  let x := s.door d
  if x.st = dest then s
  else (s.onDoor d (fun x => { x with st := dest })).raise 0xA0 (le 1 d ++ le 1 x.st ++ le 1 dest)

def State.doorRefused (d req reason : Nat) (s : State) : State := s.raise 0xA2 (le 1 d ++ le 1 req ++ le 1 reason)

def State.doorFault (d cause : Nat) (detail : Int) (s : State) : State :=
  ((s.onDoor d (fun x => { x with faultCause := cause, cmds := [], homing := false })).raise 0xA4
    (le 1 d ++ le 1 cause ++ le 8 detail)).doorState d 8

/-- Commands for the door axis, one a boundary; the axis is enabled first. Log entry 96. -/
def State.doorCmds (d a : Nat) (l : List AxCmd) (s : State) : State :=
  let pre : List AxCmd := if (s.axOf a).enabled then [] else [{ cmd := 1 }]
  s.onDoor d (fun x => { x with cmds := pre ++ l })

/-- The next command goes to the axis. -/
def State.doorIssue (d a : Nat) (s : State) : State :=
  match (s.door d).cmds with
  | [] => s
  | m :: l =>
    if m.cmd != 1 && !(s.axOf a).enabled then s
    else (s.onDoor d (fun x => { x with cmds := l, since := s.stage.boundaries })).kernelCmd a m

/-- The raw move of the door is complete. -/
def State.doorDone (s : State) (d a : Nat) : Bool :=
  (s.door d).cmds == [] && s.seen (s.door d).since && s.rawDone a

/-- OPENING, or REVERSING after a reversal. Log entry 101. -/
def State.doorOpen (d a dest : Nat) (s : State) : State :=
  let s := s.onDoor d (fun x => { x with
    vcap := 0, holdEnd := none, holdOver := false, resumeAt := none, cycles := if dest = 2 then inc32 x.cycles else x.cycles
    reversals := if dest = 6 then inc32 x.reversals else x.reversals })
  (s.doorCmds d a [{ cmd := 4, arg := s.nat DOOR.prof_open d, value := s.int DOOR.open_pos d }]).doorState d dest

/-- CLOSING, or NUDGING (R385, R388). -/
def State.doorClose (d a : Nat) (nudge : Bool) (s : State) : State :=
  let pr := if nudge then s.nat DOOR.prof_nudge d else s.nat DOOR.prof_close d
  let v := s.doorV d (if nudge then s.nat DOOR.e_nudge d else s.nat DOOR.e_max d)
  let cap := if v < s.profVmax (s.nat AXIS.prof_first a + pr) then v else 0
  let s := s.onDoor d (fun x => { x with
    vcap := v, holdEnd := none, holdOver := false, resumeAt := none, obstRun := 0, energyRun := 0
    nudges := if nudge then inc32 x.nudges else x.nudges })
  let s := (s.doorCmds d a [{ cmd := 4, arg := pr, value := s.int DOOR.closed_pos d, vcap := cap }]).doorState d (if nudge then 5 else 4)
  if nudge then s.raise 0xA3 (le 1 d ++ le 8 (match (s.door d).nudgeFrom with | some t => s.stage.openedAt - t | none => 0)) else s

/-- OPEN: the hold time starts (R384, R695). Log entry 102. -/
def State.doorHold (d len : Nat) (s : State) : State :=
  let len := if s.mode.mode = 5 then s.nat MODES.rescue_hold else len
  s.onDoor d (fun x => { x with holdEnd := some (s.stage.openedAt + len), holdOver := false })

/-- EV_DOOR_OBSTRUCTION. -/
def State.obstruction (d a cause : Nat) (s : State) : State :=
  (s.onDoor d (fun x => { x with obstructions := inc32 x.obstructions, lastCause := cause })).raise 0xA1
    (le 1 d ++ le 1 cause ++ le 4 (s.door d).f ++ le 8 (s.bookOf a).pf)

/-! ### Decisions -/

/-- UNKNOWN (door decisions). -/
def State.doorUnknown (d a : Nat) (req : Bool) (s : State) : State :=
  let x := s.door d
  if x.homing then
    if x.cmds != [] || !s.seen x.since || s.homing a || (s.axOf a).mode == 7 then s
    else if (s.axOf a).homed then (s.onDoor d (fun x => { x with homing := false })).doorClose d a true
    else s.doorFault d 2 (s.homeOf a).cause
  else if req && s.doorsMove then (s.onDoor d (fun x => { x with homing := true })).doorCmds d a [{ cmd := 3, arg := 7 }]
  else s

/-- CLOSED (door decisions). -/
def State.doorClosed (d a : Nat) (open_ : Bool) (s : State) : State :=
  if !open_ then s
  else if !s.mayOpen d then s.doorRefused d 0 1
  else if (List.range 8).any (fun e => e != d && s.nat DOOR.axis e == a + 1 && (s.door e).st != 1) then s.doorRefused d 0 2
  else s.doorOpen d a 2

/-- OPEN (R384, R385; R689 to R691 in Recall). Log entry 254. -/
def State.doorOpened (d a : Nat) (close : Bool) (s : State) : State :=
  let const := s.recallFlag 3
  let held := s.recallFlag 1 && (s.doorCars d).any (fun c => (s.car c).landing == s.recallLanding s.mode.recallPhase c)
  if const then (if s.closeBtn d && !s.doorOverload d then s.doorClose d a false else s)
  else if held then s
  else
    let ovr := s.doorOverload d
    let s := if close && ovr then s.doorRefused d 1 3 else s
    let block := s.curtain d
    let s := if block || s.openBtn d then s.doorHold d (s.nat DOOR.hold_ext d) else s
    let s := if close && !ovr then s.onDoor d (fun x => { x with holdOver := true }) else s
    let x := s.door d
    if !s.doorsMove || (!x.holdOver && !(x.nudgeDue && block)) then s
    else
      let s := s.onDoor d (fun x => { x with nudgeFrom := some (x.nudgeFrom.getD s.stage.openedAt) })
      if ovr then s
      else if x.nudgeDue then s.doorClose d a true
      else if block then s
      else s.doorClose d a false

/-- CLOSING and NUDGING (R386 to R391). -/
def State.doorClosing (d a : Nat) (nudge open_ : Bool) (s : State) : State :=
  let near := s.endZone d a
  let e := if nudge then s.nat DOOR.e_nudge d else s.nat DOOR.e_max d
  let s := s.onDoor d (fun x => { x with
    obstRun := if !near && decide ((s.nat DOOR.f_obst d : Int) ≤ x.f) then satU (x.obstRun + 1) 8 else 0
    energyRun := if !near && decide (e < x.e) then satU (x.energyRun + 1) 8 else 0 })
  let y := s.door d
  let force := decide (s.nat DOOR.obst_n d ≤ y.obstRun)
  let energy := decide (2 ≤ y.energyRun)
  let light := !nudge && !near && s.curtain d
  let letGo := s.recallFlag 3 && !s.closeBtn d
  let cause := if force then some 0 else if light then some 1 else if open_ then some 2 else if energy then some 3 else none
  match cause with
  | some k =>
    let s := s.obstruction d a k
    if nudge && !open_ then
      ((s.onDoor d (fun x => { x with resumeAt := some (s.stage.openedAt + s.nat DOOR.hold_ext d) })).doorCmds d a
        [{ cmd := 7 }]).doorState d 7
    else s.doorOpen d a 6
  | none =>
    if letGo then s.doorOpen d a 6
    else if s.doorDone d a then
      let s := s.onDoor d (fun x => { x with vcap := 0, nudgeFrom := none, nudgeDue := false, homing := false })
      let s := if s.flag DOOR.flags 1 d then s else s.onDoor d (fun y => { y with cmds := [{ cmd := 2 }] })
      s.doorState d 1
    else s

/-- STOPPED: RESUME after DOOR.hold_ext; a door that a mode stopped goes on at the next request. Log entry 100. -/
def State.doorStopped (d a : Nat) (open_ close : Bool) (s : State) : State :=
  match (s.door d).resumeAt with
  | some t =>
    if t ≤ s.stage.openedAt then
      ((s.onDoor d (fun x => { x with resumeAt := none, obstRun := 0, energyRun := 0 })).doorCmds d a [{ cmd := 8 }]).doorState d 5
    else s
  | none =>
    if !s.doorsMove then s
    else if open_ && s.mayOpen d then s.doorOpen d a 2
    else if close || open_ then s.doorClose d a false
    else s

/-- The work of one Stage for a door. Log entries 99, 254. -/
def State.doorKernel (d : Nat) (s : State) : State :=
  match s.doorAxis d with
  | none => s
  | some a =>
    let (f, e) := s.doorForce d a
    let x := s.door d
    let const := s.recallFlag 3
    let btn (n : Nat) : Bool := if const then s.inputActive n else s.pressed n
    let takes := s.doorsMove || ((s.mode.mode == 3 || s.mode.mode == 6) && x.st == 1)
    let open_ := takes && ((x.openReq && !const) || btn (s.nat DOOR.open_btn d))
    let close := takes && !open_ && (x.closeReq || btn (s.nat DOOR.close_btn d))
    let s := s.onDoor d (fun x => { x with f := f, e := e, openReq := false, closeReq := false })
    let s := s.doorIssue d a
    if (s.bookOf a).fault then (if x.st = 8 then s else s.doorFault d 1 (s.bookOf a).cause)
    else match x.st with
      | 0 => s.doorUnknown d a (open_ || close)
      | 1 => s.doorClosed d a open_
      | 2 =>
        if s.doorDone d a then (s.doorHold d (s.nat DOOR.hold d)).doorState d 3
        else if const && !s.openBtn d then s.doorClose d a false
        else s
      | 3 => s.doorOpened d a close
      | 4 => s.doorClosing d a false open_
      | 5 => s.doorClosing d a true open_
      | 6 => if s.doorDone d a then (s.doorHold d (s.nat DOOR.hold_ext d)).doorState d 3 else s
      | 7 => s.doorStopped d a open_ close
      | _ => if x.faultCause = 1 then (s.onDoor d (fun x => { x with faultCause := 0 })).doorState d 0 else s

/-- A door that moves when a mode without door motion takes effect becomes STOPPED (R683). Log entry 100. -/
def State.doorHalt (d : Nat) (s : State) : State :=
  if [2, 4, 5, 6].contains (s.door d).st then
    (s.onDoor d (fun x => { x with cmds := [], resumeAt := none, vcap := 0 })).doorState d 7
  else s

/-! ### The commands -/

/-- DOOR_HOLD_END (R384): the hold time of an OPEN door ends. -/
def execDoorHoldEnd (t door : Nat) (s : State) : Answer :=
  let s := s.tick t
  if s.clk.motionHeld then .next s
  else
  match (s.door door).holdEnd with
  | some u =>
    if (s.door door).st = 3 ∧ u ≤ s.now then
      .next (s.onDoor door (fun x => { x with holdOver := true, nudgeFrom := some (x.nudgeFrom.getD u) }))
    else .next s
  | none => .next s

/-- NUDGE_TIMER (R385): the nudge timer passes DOOR.nudge_time with NUDGE_EN set. -/
def execNudgeTimer (t door : Nat) (s : State) : Answer :=
  let s := s.tick t
  if s.clk.motionHeld then .next s
  else
  match (s.door door).nudgeFrom with
  | some u =>
    if u + s.nat DOOR.nudge_time door < s.now ∧ s.flag DOOR.flags 0 door ∧ !s.recallFlag 1 ∧ !s.recallFlag 3 then
      .next (s.onDoor door (fun x => { x with nudgeDue := true }))
    else .next s
  | none => .next s

end Sys2Proof.Machine
end

