-- ==== Sys2Proof/Machine/Scheduling.lean ====
section
/-! DEFINITION. Stop scheduling and the cost of a call (chapter 11): stops of a car, the next target, what a landing serves,
plans, energies and bids (R432 to R450). -/

namespace Sys2Proof.Machine

/-! ### Who dispatches -/

/-- The identity of the machine in dispatch records: in a pair the pair ID (R531). -/
def State.machineId (s : State) : Nat := if s.inPair then s.pairId else s.unitId

/-- The unit leads its machine: alone, or the ACTIVE member of its pair (R507). -/
def State.leads (s : State) : Bool := !s.inPair || s.twin.st == 2

def State.group (s : State) : Nat := s.nat DISPATCH.group

def State.dspMode (s : State) : Nat := s.nat DISPATCH.mode

/-- The unit collects for its group (R434, R531). -/
def State.collects (s : State) : Bool :=
  s.group != 0 && s.leads && (s.nat DISPATCH.collector == s.machineId || s.nat DISPATCH.collector_alt == s.machineId)

def State.onDsp (f : Dsp → Dsp) (s : State) : State := { s with dsp := f s.dsp }

def State.sched (s : State) (c : Nat) : Sched1 := nth s.dsp.scheds c

def State.onSched (c : Nat) (f : Sched1 → Sched1) (s : State) : State :=
  s.onDsp (fun d => { d with scheds := d.scheds.modify c f })

/-- The cars of the machine of mode 3. -/
def State.orderCars (s : State) : List Nat :=
  (List.range 4).filter (fun c => bit (s.nat DISPATCH.cars) c && (s.carAxis c).isSome)

/-- A group landing in a car's numbering, if the car has it (R436). -/
def State.carLanding (s : State) (c g : Nat) : Option Nat :=
  let off := s.nat DISPATCH.land_offset 0 c
  if off ≤ g ∧ g < off + s.nat CAR.count c then some (g - off) else none

/-- SIDE of a call, 0 taken as FRONT. -/
def sideMask (v : Nat) : Nat := if v % 4 = 0 then 1 else v % 4

/-- A car serves the sides at a landing. -/
def State.sideServed (s : State) (c l side : Nat) : Bool :=
  (sideMask side &&& s.nat LANDING.sides (256 * c + l)) == sideMask side

/-! ### The next target (R440) -/

/-- The stop serves its landing under direction `d`. Log entry 114. -/
def Stop.serves (d : Int) (x : Stop) : Bool := x.kind == 6 || x.dir == d

/-- The nearest stop ahead that serves, else the farthest ahead. Log entry 114. -/
def State.passTarget (s : State) (c : Nat) (stops : List Stop) (d e : Int) (stand : Option Nat) : Option Nat :=
  let dist (x : Stop) : Nat := (s.landPos c x.landing - e).natAbs
  let ahead := stops.filter (fun x => decide (0 ≤ d * (s.landPos c x.landing - e)) && stand != some x.landing)
  let pick (better : Nat → Nat → Bool) (l : List Stop) : Option Nat :=
    (l.foldl (fun (b : Option Stop) x => match b with
      | none => some x
      | some y => if better (dist x) (dist y) then some x else some y) none).map (·.landing)
  if d = 0 then none
  else (pick (fun a b => a < b) (ahead.filter (Stop.serves d))).orElse (fun _ => pick (fun a b => b < a) ahead)

/-- next_target() with the direction that it leaves. -/
def State.nextTarget (s : State) (c : Nat) (stops : List Stop) (d e pc : Int) (stand : Option Nat) : Option Nat × Int :=
  match s.passTarget c stops d e stand, s.passTarget c stops (-d) e stand with
  | some l, _ => (some l, d)
  | none, some l => (some l, -d)
  | none, none =>
    let dist (l : Nat) : Nat := (s.landPos c l - pc).natAbs
    match stops.foldl (fun (b : Option Nat) x => match b with
        | none => some x.landing
        | some m => if dist x.landing < dist m ∨ (dist x.landing = dist m ∧ x.landing < m) then some x.landing else some m) none with
    | none => (none, 0)
    | some l => (some l, sgn (s.landPos c l - pc))

/-- The direction as recomputed on arrival at a landing (R441). With no stop elsewhere, it is that of a directed stop at the
landing itself, up before down. Log entry 113. -/
def State.arriveDir (s : State) (c : Nat) (stops : List Stop) (d : Int) (l : Nat) : Int :=
  let e := s.landPos c l
  if (s.passTarget c stops d e (some l)).isSome then d
  else if (s.passTarget c stops (-d) e (some l)).isSome then -d
  else
    let here := stops.filter (fun x => x.landing == l && x.kind != 6)
    if here.any (fun x => x.dir == 1) then 1 else if here != [] then -1 else 0

/-! ### Plans (R447) -/

/-- A landing visited by a plan: the direction on the way there, the stops it serves. -/
structure Visit where
  landing : Nat
  d : Int
  served : List Stop
  deriving DecidableEq, Repr, Inhabited

/-- A pickup served registers its TO as a drop. -/
def dropsOf (l : List Stop) : List Stop :=
  (l.filter (fun x => x.kind == 3)).map (fun x => { kind := 6, landing := x.dest, side := x.side, callId := x.callId })

/-- The visits of a car that serves its stops under R440 and R441. -/
def State.planStops (s : State) (c : Nat) : Nat → List Stop → Int → Int → Int → Option Nat → List Visit
  | 0, _, _, _, _, _ => []
  | fuel + 1, stops, d, e, pc, stand =>
    match s.nextTarget c stops d e pc stand with
    | (none, _) => []
    | (some l, d1) =>
      let d2 := s.arriveDir c stops d1 l
      let served := stops.filter (fun x => x.landing == l && x.serves d2)
      let rest := stops.filter (fun x => !(x.landing == l && x.serves d2)) ++ dropsOf served
      { landing := l, d := d1, served := served } ::
        s.planStops c fuel rest d2 (s.landPos c l) (s.landPos c l) (some l)

/-- e of R440: the earliest stop of a moving car, pc of one at rest. -/
def State.carE (s : State) (c : Nat) : Int :=
  match s.carAxis c with
  | some a =>
    if (s.car c).st = 2 then
      let g := (s.axOf a).gen
      g.stopAt (s.axProf a g.prof g.vcap) + (s.car c).g
    else (s.car c).pc
  | none => 0

/-- The landing at which a car stands. -/
def State.standsAt (s : State) (c : Nat) : Option Nat := if (s.car c).st = 1 then (s.car c).landing else none

def State.planOf (s : State) (c : Nat) (stops : List Stop) : List Visit :=
  s.planStops c (2 * stops.length + 4) stops (s.sched c).d (s.carE c) (s.car c).pc (s.standsAt c)

/-- The ETA in ms at each visit of a plan (R447). Log entry 116. -/
def State.etas (s : State) (flight : Int → Int → Nat) (tStart tDoor : Nat) : Nat → Bool → Int → List Int → List Nat
  | _, _, _, [] => []
  | t, moving, x, p :: ps =>
    let t := t + (if moving then 0 else tStart) + flight x p
    satU t 32 :: s.etas flight tStart tDoor (t + tDoor) false p ps

/-- The ETAs of a car's plan. -/
def State.planEtas (s : State) (c : Nat) (v : List Visit) : List Nat :=
  s.etas (fun x p => s.flight c (p - x).natAbs) (s.nat DISPATCH.t_start) (s.nat DISPATCH.t_door)
    (if s.doorsClosed c then 0 else s.nat DISPATCH.t_door) ((s.car c).st == 2) (s.car c).pc (v.map (fun x => s.landPos c x.landing))

/-- The ETA at which a stop is served. -/
def etaOf (v : List Visit) (t : List Nat) (ok : Stop → Bool) : Nat :=
  match (v.zip t).find? (fun x => x.1.served.any ok) with
  | some x => x.2
  | none => 0xFFFFFFFF

/-! ### Cost (R448 to R450) -/

/-- The sums of E_m and R over the legs of a plan; the load rises by y_add after the leg to FROM, the `from_`-th. -/
def State.legSums (s : State) (c from_ : Nat) (y : Int) : Nat → Int → List Int → Int × Int
  | _, _, [] => (0, 0)
  | k, x, p :: ps =>
    let e := s.legEnergy (if from_ < k then y + s.int DISPATCH.y_add else y) x p
    let r := s.legSums c from_ y (k + 1) p ps
    (e.1 + r.1, e.2 + r.2)

/-- F of R449: the motoring demand of the car's bus from the present slice to that of the plan's last ETA. Log entry 117. -/
def State.forecast (s : State) (c ms : Nat) : Int :=
  match (s.carAxis c).bind s.busOf with
  | none => 0
  | some b =>
    let f := s.bus b
    let i0 := s.sliceAt s.site
    let i1 := s.sliceAt (s.site + ms * 1000000)
    let v := (List.range f.m.length).foldl (fun (t : Int) (k : Nat) =>
      let i := f.base + k
      if i0 ≤ i ∧ i ≤ i1 then t + f.m.getD k 0 else t) 0
    satU v.toNat 32

/-- DISPATCH.eta_pair with its zero flag (R744). -/
def State.etaPair (s : State) : Int :=
  if s.raw DISPATCH.eta_pair = 0 ∧ s.flag DISPATCH.flags 3 then 0 else s.int DISPATCH.eta_pair

/-- C of R450. Log entries 115, 116. -/
def State.costOf (s : State) (tWait tRide dAdd : Nat) (sumE sumR f : Int) (pen : Nat) : Nat :=
  let p := min sumR f
  let eNet := sumE - rndShift (p * s.etaPair + (sumR - p) * s.int DISPATCH.eta_free) 16
  let x := s.int DISPATCH.w_wait * tWait + s.int DISPATCH.w_ride * tRide + s.int DISPATCH.w_delay * dAdd +
    s.int DISPATCH.w_energy * eNet
  (clamp (2 ^ 31 + rndShift x 16 + pen) 0 0xFFFFFFFE).toNat

/-- The penalty of a full car (R450). -/
def State.fullPenalty (s : State) (c : Nat) : Nat :=
  if (s.car c).loadKnown ∧ s.int DISPATCH.y_full < (s.car c).y + s.int DISPATCH.y_add then s.nat DISPATCH.pen_full else 0

/-- The stop that a landing call or destination request would be for a car. Log entry 257. -/
def State.stopFor (s : State) (c : Nat) (k : Call) : Option Stop :=
  match s.carLanding c k.from_ with
  | none => none
  | some l =>
    let dest := if k.kind = 3 then s.carLanding c k.dest else some 0
    match dest with
    | none => none
    | some t =>
      if !s.sideServed c l k.side || (k.kind == 3 && !s.sideServed c t k.side) then none
      else some { kind := k.kind, landing := l, side := sideMask k.side, callId := k.callId, dest := t
                  dir := if k.kind = 1 then 1 else if k.kind = 2 then -1 else sgn ((t : Int) - l) }

/-- The bid of a car in modes 1 and 2. -/
def State.bidOf (s : State) (c : Nat) (x : Stop) : Bid :=
  let have_ := (s.sched c).stops
  let v0 := s.planOf c have_
  let v := s.planOf c (have_ ++ [x])
  let t0 := s.planEtas c v0
  let t := s.planEtas c v
  let served := v.findIdx (fun i => i.served.contains x)
  let n := t.getD served 0xFFFFFFFF
  let drop (y : Stop) : Bool := y.kind == 6 && y.callId == x.callId && y.landing == x.dest
  let last := if x.kind = 3 then (v.zipIdx.find? (fun i => served < i.2 && i.1.served.any drop)).elim served (·.2) else served
  let ride := t.getD last n - n
  let dAdd := (have_.map (fun y => etaOf v t (· == y) - etaOf v0 t0 (· == y))).sum
  let legs := (v.take (last + 1)).map (fun i => s.landPos c i.landing)
  let e := s.legSums c served (s.tripLoad c) 0 (s.car c).pc legs
  let way := (v.take (served + 1)).map (·.d)
  let onPass := way.all (fun d => some d == way.head?) && ((s.sched c).d == 0 || way.head? == some (s.sched c).d)
  let pen := (if onPass then 0 else s.nat DISPATCH.pen_reverse) + s.fullPenalty c
  { callId := x.callId, unit := s.machineId, car := c, eta := n
    cost := s.costOf n ride dAdd e.1 e.2 (s.forecast c (t.getLast?.getD 0)) pen }

/-! ### Orders of mode 3 (R443) -/

/-- The landings of an order's end: for each of its cars. -/
def State.orderEnd (s : State) (drop : Bool) (k : Call) : List (Nat × Nat) :=
  let ends := if drop then [k.dest, k.toB] else [k.from_, k.fromB]
  (s.orderCars.zip ends).filterMap (fun x => (s.carLanding x.1 x.2).map (fun l => (x.1, l)))

/-- The landings exist and the sides are served on every car of the machine. Log entry 257. -/
def State.orderOk (s : State) (k : Call) : Bool :=
  let n := s.orderCars.length
  n != 0 && (s.orderEnd false k).length == n && (s.orderEnd true k).length == n &&
  (s.orderEnd false k ++ s.orderEnd true k).all (fun x => s.sideServed x.1 x.2 k.side)

/-- The places still to be visited for an order. -/
def State.orderStops (s : State) (o : Order) : List (List (Nat × Nat)) :=
  (if o.phase < 1 then [s.orderEnd false o.call] else []) ++ (if o.phase < 3 then [s.orderEnd true o.call] else [])

/-- The bid of the machine of mode 3 as car 0. Log entry 117. -/
def State.orderBid (s : State) (k : Call) : Bid :=
  let cars := s.orderCars
  let own := s.dsp.orders.flatMap s.orderStops
  let plan := own ++ [s.orderEnd false k, s.orderEnd true k]
  let pos (c : Nat) (p : List (Nat × Nat)) : Int :=
    match p.find? (·.1 == c) with | some x => s.landPos c x.2 | none => (s.car c).pc
  let way (c : Nat) : List Int := plan.map (pos c)
  let step (k : Nat) : Nat := (cars.map (fun c =>
    s.flight c (((way c).getD k 0) - (if k = 0 then (s.car c).pc else (way c).getD (k - 1) 0)).natAbs)).foldl max 0
  let moving := cars.any (fun c => (s.car c).st == 2)
  let t0 := if cars.all s.doorsClosed then 0 else s.nat DISPATCH.t_door
  let eta (n : Nat) : Nat := satU ((List.range (n + 1)).foldl (fun t k =>
    t + (if k = 0 ∧ moving then 0 else s.nat DISPATCH.t_start) + step k + (if k = n then 0 else s.nat DISPATCH.t_door)) t0) 32
  let n := own.length
  let e := cars.foldl (fun (t : Int × Int) c =>
    let x := s.legSums c n (s.tripLoad c) 0 (s.car c).pc (way c)
    (t.1 + x.1, t.2 + x.2)) (0, 0)
  let pen := (cars.map s.fullPenalty).foldl max 0
  { callId := k.callId, unit := s.machineId, car := 0, eta := eta n
    cost := s.costOf (eta n) (eta (n + 1) - eta n) 0 e.1 e.2 (s.forecast (cars.headD 0) (eta (n + 1))) pen }

/-! ### Withdrawal and bids (R445) -/

/-- Why the whole unit sends no bids: 2 mode, 3 thermal, 4 standby; 0 for none. Log entry 120. -/
def State.unitWithdraw (s : State) : Nat :=
  if !s.leads then 4 else if s.mode.mode ≠ 2 then 2 else if !s.purse.t1 then 3 else 0

/-- The kinds of call that the mode of the group takes. -/
def kindAllowed (mode kind : Nat) : Bool :=
  match kind with | 1 => mode != 3 | 2 => mode != 3 | 3 => mode == 2 | 4 => mode == 3 | _ => false

/-- The cars that may serve a call, each with its stop (R445). -/
def State.bidders (s : State) (k : Call) : List (Nat × Stop) :=
  ((List.range 4).filter (fun c => (s.carAxis c).isSome && !s.isOut c)).filterMap (fun c => (s.stopFor c k).map (fun x => (c, x)))

/-- R445 for a call, apart from the withdrawal of the unit. -/
def State.mayServe (s : State) (k : Call) (c : Nat) : Bool :=
  kindAllowed s.dspMode k.kind &&
  (if s.dspMode = 3 then
    c == 0 && s.orderOk k && s.orderCars.all (fun c => !s.isOut c) && decide (s.dsp.orders.length < s.nat DISPATCH.queue)
  else (s.bidders k).any (fun x => x.1 == c))

/-- A bid before another (R437). -/
def bidBefore (x y : Bid) : Bool :=
  x.cost < y.cost || (x.cost == y.cost && (x.unit < y.unit || (x.unit == y.unit && x.car < y.car)))

def insertBid (x : Bid) : List Bid → List Bid
  | [] => [x]
  | y :: ys => if bidBefore x y then x :: y :: ys else y :: insertBid x ys

/-- The best four of two sets of bids (R451). -/
def bestFour (l m : List Bid) : List Bid := (m.foldl (fun l x => if l.contains x then l else insertBid x l) l).take 4

/-- The bids of the unit for a call, best first. -/
def State.bidsFor (s : State) (k : Call) : List Bid :=
  if s.group = 0 ∨ !s.flag DISPATCH.flags 0 ∨ s.unitWithdraw ≠ 0 ∨ !kindAllowed s.dspMode k.kind then []
  else if s.dspMode = 3 then (if s.mayServe k 0 then [s.orderBid k] else [])
  else bestFour [] ((s.bidders k).map (fun x => s.bidOf x.1 x.2))

end Sys2Proof.Machine
end

