-- ==== Sys2Proof/Machine/Dispatching.lean ====
section
/-! DEFINITION. Dispatch (chapter 11): the scheduler's work of one Stage, the collector, members and waystations, and the
dispatch messages (R438 to R460). -/

namespace Sys2Proof.Machine

def State.toGroup (m : Msg) (s : State) : State := s.send { kind := 1, id := s.group } m

/-- The collector's unit of a CALL_ID. -/
def callUnit (id : Nat) : Nat := id / 2 ^ 18

/-- DSP_ACCEPT, DSP_DECLINE, DSP_DONE and DSP_RELEASE. -/
def State.dspAnswer (type id car reason : Nat) (s : State) : State :=
  s.toGroup (.dspAnswer type id s.machineId car reason)

def usNs (v : Nat) : Int := v * 1000

/-! ### Car calls and stops -/

def State.addStop (c : Nat) (x : Stop) (s : State) : State :=
  s.onSched c (fun d => if d.stops.contains x then d else { d with stops := d.stops ++ [x] })

/-- A car call (stop scheduling decisions): refused where the car does not serve the landing, an open request where it
stands there. Log entry 258. -/
def State.carCall (c : Nat) (l : Option Nat) (side : Nat) (s : State) : State :=
  match l with
  | none => s
  | some l =>
    if (s.carAxis c).isNone || !s.sideServed c l side then s
    else if s.standsAt c = some l then s.askDoors c (sideMask side)
    else if s.isOut c then s
    else s.addStop c { kind := 6, landing := l, side := sideMask side }

/-- Calls of a car go: car calls are cleared, accepted calls released. -/
def State.releaseCar (c reason : Nat) (s : State) : State :=
  let l := (s.sched c).stops.filter (fun x => x.kind != 6)
  let s := s.onSched c (fun d => { d with stops := [], target := none })
  l.foldl (fun s x =>
    (((s.onDsp (fun d => { d with released := inc32 d.released })).dspAnswer 0x057 x.callId c reason).raise 0x9C
      (le 4 x.callId ++ le 1 c ++ le 1 reason))) s

/-- Every order not yet served is released. Log entry 118. -/
def State.releaseOrders (reason : Nat) (s : State) : State :=
  let l := s.dsp.orders
  l.foldl (fun s o =>
    ((s.onDsp (fun d => { d with released := inc32 d.released })).dspAnswer 0x057 o.call.callId 0 reason).raise 0x9C
      (le 4 o.call.callId ++ le 1 0 ++ le 1 reason)) (s.onDsp (fun d => { d with orders := [] }))

/-! ### The collector (R439, R454 to R458) -/

def State.onCall (id : Nat) (f : CollCall → CollCall) (s : State) : State :=
  s.onDsp (fun d => { d with calls := d.calls.map (fun x => if x.call.callId == id then f x else x) })

def State.callOf (s : State) (id : Nat) : Option CollCall := s.dsp.calls.find? (fun x => x.call.callId == id)

/-- The DSP_OPEN of a held call. -/
def State.openMsg (s : State) (x : CollCall) : DspOpen :=
  { call := x.call, tOpen := x.tOpen, lead := s.nat DISPATCH.lead, slot := s.nat DISPATCH.slot_len
    window := s.nat DISPATCH.window, collector := s.machineId, attempt := x.attempt }

/-- Opens a round of a held call with the next attempt. -/
def State.openRound (id attempt : Nat) (s : State) : State :=
  let t := s.site
  let s := s.onCall id (fun x => { x with
    phase := 0, attempt := satU attempt 8, tOpen := t, closeAt := t + usNs (s.nat DISPATCH.window), bids := [], received := 0
    next := 0 })
  let s := s.onDsp (fun d => { d with opened := inc32 d.opened })
  match s.callOf id with
  | some x => s.toGroup (.dspOpen (s.openMsg x))
  | none => s

/-- A call gets the next SERIAL and its first round. -/
def State.newCall (k : Call) (s : State) : State :=
  let id := s.machineId * 2 ^ 18 + s.dsp.serial
  let s := s.onDsp (fun d => { d with
    serial := (d.serial + 1) % 2 ^ 18, calls := d.calls ++ [({ call := { k with callId := id } } : CollCall)] })
  s.openRound id 1

/-- A call ends at the collector; a call that waited for room takes its place. -/
def State.endCall (id : Nat) (s : State) : State :=
  let s := s.onDsp (fun d => { d with calls := d.calls.filter (fun x => x.call.callId != id) })
  match s.dsp.waiting with
  | k :: ks => if s.dsp.calls.length < 1024 then (s.onDsp (fun d => { d with waiting := ks })).newCall k else s
  | [] => s

def sameKey (x y : Call) : Bool :=
  x.kind == y.kind && x.side == y.side && x.from_ == y.from_ && x.fromB == y.fromB && x.dest == y.dest && x.toB == y.toB

/-- A reopened round (R457). -/
def State.reopen (x : CollCall) (s : State) : State :=
  let n := x.reopenings + 1
  let s := s.onCall x.call.callId (fun y => { y with reopenings := n })
  let s := if 3 < n then
      (s.onDsp (fun d => { d with unserved := inc32 d.unserved })).raise 0x9B (le 4 x.call.callId ++ le 2 (satU n 16))
    else s
  s.openRound x.call.callId (x.attempt + 1)

/-- Assigns kept bid `n` of a call, or leaves it for its reopening (R456, R457). Log entry 123. -/
def State.assignNext (id n : Nat) (s : State) : State :=
  match s.callOf id with
  | none => s
  | some x =>
    match x.bids[n]? with
    | none => s.onCall id (fun y => { y with phase := 3, reopenAt := s.site + usNs (s.nat DISPATCH.reopen) })
    | some b =>
      (s.onCall id (fun y => { y with phase := 1, next := n, answerBy := s.site + usNs (s.nat DISPATCH.accept_to) })).toGroup
        (.dspAssign id b.unit b.car (n + 1) b.cost)

/-- An assignment was declined, or not answered in time. -/
def State.declined (x : CollCall) (reason : Nat) (s : State) : State :=
  let u := ((x.bids[x.next]?).map (·.unit)).getD 0
  (s.raise 0x9A (le 4 x.call.callId ++ le 2 u ++ le 1 reason)).assignNext x.call.callId (x.next + 1)

/-- DSP_CALL (R438, R439, call decisions). -/
def State.takeCall (k : Call) (s : State) : State :=
  if k.kind = 6 then (if s.dspMode = 3 ∨ !s.leads then s else s.carCall k.car (s.carLanding k.car k.from_) k.side)
  else if !s.collects || k.group != s.group then s
  else if !kindAllowed s.dspMode k.kind || 255 < k.from_ || (3 ≤ k.kind && 255 < k.dest) ||
      (k.kind == 4 && [k.fromB, k.toB].any (fun l => l != 0xFFFF && 255 < l)) then
    s.send { id := k.requester } (.dspCancel 0 k.requester)
  else match s.dsp.calls.find? (fun x => sameKey x.call k) with
    | some x =>
      match x.phase, x.bids[x.next]? with
      | 1, some b => s.send { id := k.requester } (.dspAssign x.call.callId b.unit b.car (x.next + 1) b.cost)
      | 2, some b => s.send { id := k.requester } (.dspAssign x.call.callId b.unit b.car (x.next + 1) b.cost)
      | _, _ => s.send { id := k.requester } (.dspOpen (s.openMsg x))
    | none => if 1024 ≤ s.dsp.calls.length then s.onDsp (fun d => { d with waiting := d.waiting ++ [k] }) else s.newCall k

/-! ### Members and waystations (R444, R451 to R453) -/

/-- A request that the message answers. -/
def State.answered (ok : Asked → Bool) (s : State) : State :=
  s.onDsp (fun d => { d with asked := d.asked.filter (fun x => !ok x) })

/-- The bids of a round are formed. -/
def State.formBids (id : Nat) (s : State) : State :=
  s.onDsp (fun d => { d with rounds := d.rounds.map (fun r =>
    if r.open_.call.callId == id && !r.ready then { r with ready := true, bids := s.bidsFor r.open_.call } else r) })

/-- DSP_OPEN (R444): a waystation takes the call, a member spawns its bid-cost instance. -/
def State.takeOpen (o : DspOpen) (s : State) : State :=
  let id := o.call.callId
  if s.group = 0 ∨ o.call.group ≠ s.group ∨
      ¬ (o.collector = s.nat DISPATCH.collector ∨ (o.collector = s.nat DISPATCH.collector_alt ∧ o.collector ≠ 0)) then s
  else
    let s := s.answered (fun x => sameKey x.call o.call)
    let known := s.dsp.rounds.any (fun r => r.open_.call.callId == id && r.open_.attempt == o.attempt)
    if known then s
    else
      let s := if !s.flag DISPATCH.flags 1 then s
        else s.onDsp (fun d =>
          let w := d.ws.filter (fun x => x.open_.call.callId != id)
          let d := { d with forwarded := d.forwarded.filter (· != id), ws := w }
          if w.length < s.nat DISPATCH.ws_calls then { d with ws := w ++ [{ open_ := o }] } else { d with wsWaiting := d.wsWaiting ++ [o] })
      let s := s.onDsp (fun d => { d with rounds := d.rounds.filter (fun r => r.open_.call.callId != id) ++ [({ open_ := o } : Round)] })
      match s.spawnTask 1 0x051 with
      | some i => s.fabArrive i (callBytes o.call)
      | none => s.formBids id

/-- Bids go towards the collector: into the unit's own merge where it is a waystation that holds the call. -/
def State.bidsUp (id collector merged : Nat) (l : List Bid) (s : State) : State :=
  if l = [] then s
  else if s.flag DISPATCH.flags 1 && s.dsp.ws.any (fun w => w.open_.call.callId == id) then
    s.onDsp (fun d => { d with ws := d.ws.map (fun w =>
      if w.open_.call.callId == id then { w with bids := bestFour w.bids l } else w) })
  else if s.flag DISPATCH.flags 1 then l.foldl (fun s b => s.send { id := collector } (.dspBid id 0 [b])) s
  else s.send { id := collector } (.dspBid id merged l)

/-- DSP_BID at the collector (R454, R455) or at a waystation (R451, R452). Log entry 259. -/
def State.takeBids (id merged : Nat) (l : List Bid) (s : State) : State :=
  if !(s.collects && callUnit id == s.machineId) then
    (if s.flag DISPATCH.flags 1 then s.bidsUp id (callUnit id) merged l else s)
  else
    let late (by_ : Int) (s : State) : State := l.foldl (fun s b =>
      (s.onDsp (fun d => { d with bidsLate := inc32 d.bidsLate })).raise 0x99
        (le 4 id ++ le 2 b.unit ++ le 1 b.car ++ le 4 (satU (by_ / 1000).toNat 32))) s
    match s.callOf id with
    | some x =>
      if x.phase = 0 then
        s.onCall id (fun y => { y with bids := bestFour y.bids l, received := satU (y.received + l.length) 16 })
      else late (s.site - x.closeAt) s
    | none => late 0 s

/-- The record of the accepted call (R456): a stop of its car, or an order. -/
def State.acceptCall (k : Call) (car : Nat) (s : State) : State :=
  let s := s.onDsp (fun d => { d with assigned := inc32 d.assigned })
  let s := if s.dspMode = 3 then s.onDsp (fun d => { d with orders := d.orders ++ [({ call := k } : Order)] })
    else match s.stopFor car k with
      | some x => s.addStop car x
      | none => s
  s.dspAnswer 0x054 k.callId car 0

/-- The unit already serves the call. -/
def State.holdsCall (s : State) (id : Nat) : Bool :=
  s.dsp.orders.any (fun o => o.call.callId == id) || s.dsp.scheds.any (fun d => d.stops.any (fun x => x.callId == id))

/-- DSP_ASSIGN (R456). Log entry 122. -/
def State.takeAssign (id unit car : Nat) (s : State) : State :=
  let r := s.dsp.rounds.find? (fun r => r.open_.call.callId == id)
  let s := match r with
    | some r => s.answered (fun x => sameKey x.call r.open_.call)
    | none => s
  if unit ≠ s.machineId ∨ !s.leads then s
  else
    let no (reason : Nat) (s : State) : State :=
      (s.onDsp (fun d => { d with declined := inc32 d.declined })).dspAnswer 0x055 id car reason
    match r with
    | none => no 3 s
    | some r =>
      if s.holdsCall id then s.dspAnswer 0x054 id car 0
      else if !(r.sent && r.bids.any (fun b => b.car == car)) then no 3 s
      else if s.unitWithdraw ≠ 0 ∨ !s.mayServe r.open_.call car then no 1 s
      else s.acceptCall r.open_.call car

/-- A call is over for the members: its round and merge are forgotten. -/
def State.forgetCall (id : Nat) (s : State) : State :=
  s.onDsp (fun d => { d with
    rounds := d.rounds.filter (fun r => r.open_.call.callId != id), ws := d.ws.filter (fun w => w.open_.call.callId != id)
    wsWaiting := d.wsWaiting.filter (fun o => o.call.callId != id), forwarded := d.forwarded.filter (· != id) })

/-- The answers of an assigned unit (R441, R456, R457). -/
def State.takeAnswer (type id unit car reason : Nat) (s : State) : State :=
  match s.callOf id with
  | none => if type = 0x056 then s.forgetCall id else s
  | some x =>
    let mine := x.phase == 1 && (match x.bids[x.next]? with | some b => b.unit == unit && b.car == car | none => false)
    match type with
    | 0x054 => if mine then s.onCall id (fun y => { y with phase := 2 }) else s
    | 0x055 => if mine then s.declined x reason else s
    | 0x056 => (s.endCall id).forgetCall id
    | 0x057 => s.reopen x
    | _ => s

/-- DSP_CANCEL (R458). One without a CALL_ID answers the oldest request. Log entry 121. -/
def State.takeCancel (id requester : Nat) (s : State) : State :=
  if id = 0 then (if requester = s.machineId then s.onDsp (fun d => { d with asked := d.asked.drop 1 }) else s)
  else
    let s := (s.endCall id).forgetCall id
    s.onDsp (fun d => { d with
      orders := d.orders.filter (fun o => o.call.callId != id || 2 ≤ o.phase)
      scheds := d.scheds.map (fun x => { x with stops := x.stops.filter (fun y => y.callId != id || y.kind == 6) }) })

/-! ### The scheduler's work of one Stage -/

/-- A request is sent to the collector and waits for its answer. Log entry 121. -/
def State.askCall (k : Call) (s : State) : State :=
  let k := { k with group := s.group, req := s.dsp.reqTag, requester := s.machineId }
  (s.onDsp (fun d => { d with reqTag := (d.reqTag + 1) % 2 ^ 32, asked := d.asked ++ [({ call := k, at_ := s.site } : Asked)] })).send
    { id := s.nat DISPATCH.collector } (.dspCall k)

/-- Car calls are taken: in Service, and in a recall phase with CAR_CALLS once it has completed (R690). Log entry 124. -/
def State.takesCarCalls (s : State) : Bool :=
  s.mode.mode == 2 || (s.recallFlag 2 && flagAt s.mode.recallDone s.mode.recallPhase)

/-- Buttons (R438). Log entry 124. -/
def State.buttons (s : State) : State :=
  eachIx 64 (fun i s =>
    let k := s.nat BUTTON.kind i
    if k = 0 || !s.pressed (i + 1) then s
    else
      let l := s.nat BUTTON.landing i
      let c := s.nat BUTTON.car i
      if k = 6 then (if s.takesCarCalls then s.carCall c (s.carLanding c l) (s.nat BUTTON.side i) else s)
      else if s.group = 0 ∨ s.mode.mode ≠ 2 then s
      else s.askCall { kind := k, side := s.nat BUTTON.side i, from_ := l }) s

/-- Arrival at a landing (R441): the stops served there are cleared, their doors asked, their calls done. Log entry 113. -/
def State.schedArrive (c l : Nat) (s : State) : State :=
  let x := s.sched c
  let d := s.arriveDir c x.stops x.d l
  let ovr := (s.car c).overloaded
  let hit (y : Stop) : Bool := y.landing == l && y.serves d && !(y.kind == 3 && ovr)
  let served := x.stops.filter hit
  let s := s.onSched c (fun x => { x with d := d, stops := x.stops.filter (fun y => !hit y) ++ dropsOf served })
  let s := s.askDoors c (served.foldl (fun m y => m ||| y.side) 0)
  (served.filter (fun y => y.kind != 6)).foldl (fun s y => s.dspAnswer 0x056 y.callId c 0) s

/-- The scheduler of one car (R440 to R442). Log entry 125. -/
def State.schedCar (c : Nat) (s : State) : State :=
  let next (s : State) := let x := s.sched c; s.nextTarget c x.stops x.d (s.carE c) (s.car c).pc (s.standsAt c)
  let s := match s.standsAt c with
    | some l => if !(s.sched c).wasAt || (next s).1 == some l then s.schedArrive c l else s
    | none => s
  let s := s.onSched c (fun x => { x with wasAt := (s.car c).st == 1 })
  let y := s.car c
  match next s with
  | (some m, d) =>
    let go (s : State) : State :=
      (s.onSched c (fun x => { x with d := d, target := some m })).onCar c (fun y => { y with assigned := some m, sides := 0 })
    if y.st = 2 then
      let e := s.carE c
      let r := y.running.getD m
      if 0 ≤ d * (s.landPos c m - e) ∧ d * (s.landPos c m - s.landPos c r) ≤ 0 then go s else s
    else if s.standsAt c = some m then s
    else go s
  | (none, _) =>
    let s := if y.st ≠ 2 ∧ y.assigned = (s.sched c).target then s.onCar c (fun y => { y with assigned := none }) else s
    s.onSched c (fun x => { x with d := 0, target := none })

/-- The doors of the fork cycle of an order. Log entry 119. -/
def State.forkDoors (s : State) (k : Call) : List Nat :=
  ((s.orderCars.head?.map s.doorsOf).getD []).filter (fun d => bit (sideMask k.side) (s.nat DOOR.side d - 1))

/-- The order that is served (R443). Log entries 118, 119. -/
def State.serveOrder (s : State) : State :=
  match s.dsp.orders with
  | [] => s
  | o :: os =>
    let put (o : Order) (s : State) : State := s.onDsp (fun d => { d with orders := o :: os })
    if o.phase = 0 ∨ o.phase = 2 then
      let ends := s.orderEnd (o.phase == 2) o.call
      if ends.all (fun x => s.standsAt x.1 == some x.2) then put { o with phase := o.phase + 1, opened := false } s
      else ends.foldl (fun s x =>
        if s.standsAt x.1 = some x.2 ∨ (s.car x.1).st = 2 then s
        else s.onCar x.1 (fun y => { y with assigned := some x.2, sides := 0 })) s
    else
      let ds := s.forkDoors o.call
      let moving := ds.any (fun d => (s.door d).st != 1)
      if ds = [] ∧ o.phase = 1 then put { o with phase := 2, opened := false } s
      else if ds = [] then (s.onDsp (fun d => { d with orders := os })).dspAnswer 0x056 o.call.callId 0 0
      else if !o.opened then
        if moving then put { o with opened := true } s else ds.foldl (fun s d => s.onDoor d (fun x => { x with openReq := true })) s
      else if moving then s
      else if o.phase = 1 then put { o with phase := 2, opened := false } s
      else (s.onDsp (fun d => { d with orders := os })).dspAnswer 0x056 o.call.callId 0 0

/-- A car that goes out of service completes its present stop as usual: the sides of the calls it runs to stay asked for, and
calls at the landing it has just reached are served. Log entry 258. -/
def State.lastStop (c : Nat) (s : State) : State :=
  match (s.car c).st, (s.car c).running, s.standsAt c with
  | 2, some l, _ =>
    let m := ((s.sched c).stops.filter (·.landing == l)).foldl (fun m y => m ||| y.side) 0
    s.onCar c (fun x => { x with assigned := some l, sides := m })
  | _, _, some l => if (s.sched c).wasAt then s else s.schedArrive c l
  | _, _, _ => s

/-- OUT of a car withdraws it (R380, withdrawal table). Log entry 125. -/
def State.withdrawCar (c : Nat) (s : State) : State :=
  let w := if s.isOut c then 1 else 0
  if (s.carAxis c).isNone || (s.sched c).withdrawn == w then s
  else
    let s := s.onSched c (fun x => { x with withdrawn := w })
    let s := if s.group = 0 then s else s.raise 0x9D (le 1 c ++ le 1 w)
    if w = 0 then s
    else
      let s := (s.lastStop c).releaseCar c 1
      if s.dspMode = 3 ∧ s.orderCars.contains c then s.releaseOrders 1 else s

/-- The withdrawal of the unit; leaving Service releases its calls. Log entry 120. -/
def State.withdrawUnit (s : State) : State :=
  let w := s.unitWithdraw
  if w = s.dsp.unitWithdrawn then s
  else
    let s := s.onDsp (fun d => { d with unitWithdrawn := w })
    let s := if s.group = 0 then s else s.raise 0x9D (le 1 0xFF ++ le 1 w)
    if w = 2 then (eachIx 4 (fun c s => s.releaseCar c 2) s).releaseOrders 2 else s

/-- The dispatch work of one Stage. -/
def State.dispatchKernel (s : State) : State :=
  let s := eachIx 4 State.withdrawCar s.withdrawUnit
  if !s.leads then s
  else
    let s := s.buttons
    if s.dspMode = 3 then (if s.mode.mode = 2 then s.serveOrder else s)
    else if s.takesCarCalls then
      eachIx 4 (fun c s => if (s.carAxis c).isSome && s.mode.mode != 5 then s.schedCar c else s) s
    else s

/-- Bids held for want of credit (R459), at a boundary. -/
def State.heldBoundary (s : State) : State :=
  let n := ((List.range 2).map (fun p => ((s.portOf p).queue.filter (fun i =>
    i.frame.type == 0x052 && i.frame.src == s.unitId && !((s.peerOf p i.dest).any (fun q => q.k.getD 2 0 != 0)))).length)).sum
  if n = 0 then s
  else
    let s := s.onDsp (fun d => { d with heldStages := inc32 d.heldStages })
    let due := match s.dsp.heldEvAt with | some b => decide (b + 1000 ≤ s.stage.boundaries) | none => true
    if !due then s
    else (s.onDsp (fun d => { d with heldEvAt := some s.stage.boundaries })).raise 0x9F (le 2 n ++ le 1 s.dsp.ws.length)

/-! ### The commands -/

/-- DSP_CALL (R439). -/
def execDspCall (t : Nat) (call : Call) (s : State) : Answer := .next ((s.tick t).takeCall call)

/-- DSP_OPEN (R444). -/
def execDspOpen (t : Nat) (o : DspOpen) (s : State) : Answer := .next ((s.tick t).takeOpen o)

/-- BID_SEND (R444): at a boundary, the slot time of a member's bids has come. -/
def execBidSend (t callId : Nat) (s : State) : Answer :=
  let s := s.tick t
  match s.dsp.rounds.find? (fun r => r.open_.call.callId == callId) with
  | none => .next s
  | some r =>
    if s.atBoundary ∧ r.ready ∧ !r.sent ∧ r.open_.tOpen + usNs r.open_.lead + s.machineId % 64 * usNs r.open_.slot ≤ s.site then
      let s := s.onDsp (fun d => { d with
        rounds := d.rounds.map (fun x => if x.open_.call.callId == callId then { x with sent := true } else x)
        bidsSent := satU (d.bidsSent + r.bids.length) 32
        lastCall := if r.bids = [] then d.lastCall else callId
        lastCost := match r.bids with | b :: _ => b.cost | [] => d.lastCost })
      .next (s.bidsUp callId r.open_.collector 0 r.bids)
    else .next s

/-- DSP_BID (R451, R454, R455). -/
def execDspBid (t callId merged : Nat) (bids : List Bid) (s : State) : Answer := .next ((s.tick t).takeBids callId merged bids)

/-- WAYSTATION_FORWARD (R451): at a boundary, the rank time of a waystation has come. -/
def execWaystationForward (t callId : Nat) (s : State) : Answer :=
  let s := s.tick t
  match s.dsp.ws.find? (fun w => w.open_.call.callId == callId) with
  | none => .next s
  | some w =>
    let o := w.open_
    if s.atBoundary ∧ o.tOpen + usNs o.lead + 64 * usNs o.slot + s.nat DISPATCH.ws_rank * usNs (s.nat DISPATCH.ws_step) ≤ s.site then
      let s := s.onDsp (fun d => { d with
        ws := d.ws.filter (fun x => x.open_.call.callId != callId) ++ (d.wsWaiting.take 1).map (fun o => { open_ := o })
        wsWaiting := d.wsWaiting.drop 1, forwarded := d.forwarded ++ [callId] })
      if w.bids = [] then .next s else .next (s.send { id := o.collector } (.dspBid callId 1 w.bids))
    else .next s

/-- BID_ROUND_CLOSE (R454): at a boundary, the window of a round has ended. Log entries 123, 259. -/
def execBidRoundClose (t callId : Nat) (s : State) : Answer :=
  let s := s.tick t
  match s.callOf callId with
  | none => .next s
  | some x =>
    if !s.atBoundary ∨ x.phase ≠ 0 ∨ s.site < x.closeAt then .next s
    else
      let s := (s.onCall callId (fun y => { y with closeAt := s.site })).assignNext callId 0
      match x.bids with
      | [] => .next s
      | b :: _ => .next (s.raise 0x98 (le 4 callId ++ le 2 b.unit ++ le 1 b.car ++ le 1 1 ++ le 4 b.cost ++ le 2 x.received))

/-- DSP_ASSIGN (R456). -/
def execDspAssign (t callId unit car attempt cost : Nat) (s : State) : Answer :=
  let _ := (attempt, cost)
  .next ((s.tick t).takeAssign callId unit car)

/-- DSP_ACCEPT (R456). -/
def execDspAccept (t callId unit car : Nat) (s : State) : Answer := .next ((s.tick t).takeAnswer 0x054 callId unit car 0)

/-- DSP_DECLINE (R456). -/
def execDspDecline (t callId unit car reason : Nat) (s : State) : Answer :=
  .next ((s.tick t).takeAnswer 0x055 callId unit car reason)

/-- ACCEPT_TIMEOUT (R456): no answer within DISPATCH.accept_to. -/
def execAcceptTimeout (t callId : Nat) (s : State) : Answer :=
  let s := s.tick t
  match s.callOf callId with
  | some x => if x.phase = 1 ∧ x.answerBy ≤ s.site then .next (s.declined x 2) else .next s
  | none => .next s

/-- CALL_REOPEN (R457): DISPATCH.reopen has passed. -/
def execCallReopen (t callId : Nat) (s : State) : Answer :=
  let s := s.tick t
  match s.callOf callId with
  | some x => if x.phase = 3 ∧ x.reopenAt ≤ s.site then .next (s.reopen x) else .next s
  | none => .next s

/-- COLLECTOR_SWITCH (R439): a request not answered within DISPATCH.accept_to goes to the alternative collector. -/
def execCollectorSwitch (t req : Nat) (s : State) : Answer :=
  let s := s.tick t
  let alt := s.nat DISPATCH.collector_alt
  match s.dsp.asked.find? (fun x => x.call.req == req && !x.alt) with
  | none => .next s
  | some x =>
    if alt = 0 ∨ s.site < x.at_ + usNs (s.nat DISPATCH.accept_to) then .next s
    else
      let s := s.onDsp (fun d => { d with asked := d.asked.map (fun y => if y == x then { y with alt := true } else y) })
      .next ((s.send { id := alt } (.dspCall x.call)).raise 0x9E (le 4 req ++ le 2 (s.nat DISPATCH.collector) ++ le 2 alt))

/-- DSP_DONE (R441). -/
def execDspDone (t callId unit car : Nat) (s : State) : Answer := .next ((s.tick t).takeAnswer 0x056 callId unit car 0)

/-- DSP_RELEASE (R457). -/
def execDspRelease (t callId unit car reason : Nat) (s : State) : Answer :=
  .next ((s.tick t).takeAnswer 0x057 callId unit car reason)

/-- DSP_CANCEL (R458). -/
def execDspCancel (t callId requester : Nat) (s : State) : Answer := .next ((s.tick t).takeCancel callId requester)

end Sys2Proof.Machine
end

