-- ==== Sys2Proof/Machine/Fabric.lean ====
section
/-! DEFINITION. Trunk ports, neighbours, credits and the sending of frames (R463 to R467, R480 to R486), and the checks of a
received frame (R475 to R477). -/

namespace Sys2Proof.Machine

/-- Edge-clock cycles of one byte at 10 Mb/s. -/
def byteCycles : Nat := 320

/-- Edge-clock cycles of milliseconds. -/
def msCycles (v : Nat) : Nat := 400000 * v

def addAt (l : List Nat) (i v : Nat) : List Nat := l.set i (l.getD i 0 + v)

def subAt (l : List Nat) (i v : Nat) : List Nat := l.set i (l.getD i 0 - v)

/-! ### Neighbours -/

/-- The neighbours of a port as its mode gives them (R464). -/
def State.freshPeers (s : State) (p : Nat) : List Peer :=
  match s.nat FABRIC.port_mode 0 p with
  | 1 => [{}]
  | 2 => ((List.range 16).map (fun k => s.nat FABRIC.peers 0 p k)).filterMap (fun u => if u = 0 then none else some { unit := u })
  | _ => []

/-- The key under which frames go to a neighbour. -/
def State.peerKey (s : State) (p : Nat) (q : Peer) : Nat := if s.chain p then 0 else q.unit

/-- Credits of spawning classes that an operational neighbour holds (R85): four less the frames whose credit has not been
returned to it. -/
def State.outstanding (s : State) (q : Peer) : Nat :=
  if !q.oper then 0
  else ((List.range 4).map (fun c =>
    if s.spawning c then 4 + (q.ret.getD c 0 + 16 - q.told.getD c 0) % 16 - q.use.getD c 0 else 0)).sum

def State.addOut (n : Nat) (s : State) : State := { s with disp := { s.disp with creditsOut := s.disp.creditsOut + n } }

def State.subOut (n : Nat) (s : State) : State := { s with disp := { s.disp with creditsOut := s.disp.creditsOut - n } }

/-! ### Port states (R465, R467, R480) -/

/-- The state of a port: 0 down, 1 up, 2 operational. -/
def State.portNow (s : State) (p : Nat) : Nat :=
  if !s.portOn p then 0 else if (s.portOf p).peers.any (·.oper) then 2 else 1

/-- A change of port state clears every learned route (R480) and is told (R467); a port taken as down discards its frames.
Log entry 132. -/
def State.portSettle (p : Nat) (s : State) : State :=
  let x := s.portOf p
  let n := s.portNow p
  if n = x.state then s
  else
    let q := x.peers.headD {}
    let was := x.state
    let s := s.onPort p (fun x => { x with state := n })
    let s := { s with fab := { s.fab with sources := s.fab.sources.map (fun (y : Source) => { y with route := none }) } }
    let s := if n < was then s.dropQueue p (fun _ => true) else s
    s.raise 0xD0 (le 1 p ++ le 1 n ++ le 2 q.unit ++ le 2 q.boot)

/-- Neighbours of a port cease to be operational. Log entry 132. -/
def State.losePeers (p : Nat) (which : Peer → Bool) (s : State) : State :=
  let gone := (s.portOf p).peers.filter which
  let s := gone.foldl (fun s q => s.subOut (s.outstanding q)) s
  let fresh (q : Peer) : Peer := if which q then { unit := q.unit } else q
  let s := s.onPort p (fun x => { x with peers := x.peers.map fresh })
  let s := s.dropQueue p (fun i => gone.any (fun q => i.dest == s.peerKey p q))
  s.portSettle p

/-- LINK_HELLO to every neighbour of a port (R466). -/
def State.hello (p : Nat) (s : State) : State :=
  if !s.portOn p then s
  else
    let s := (s.portOf p).peers.foldl (fun s q =>
      s.sendHop p (s.peerKey p q) (.linkHello s.unitId s.fab.boot s.fab.keyCur s.fab.keyOther q.rx)) s
    s.onPort p (fun x => { x with lastHello := some s.now, peers := x.peers.map (fun q => { q with said := true }) })

/-- A neighbour that has been heard and spoken to becomes operational: four credits of each class each way (R465, R483). -/
def State.makeOper (p unit : Nat) (s : State) : State :=
  match s.peerOf p unit with
  | none => s
  | some q =>
    if q.oper ∨ !q.heard ∨ !q.said then s
    else
      let q' : Peer := { unit := q.unit, boot := q.boot, heard := true, said := true, oper := true, helloAt := q.helloAt
                         k := [4, 4, 4, 4] }
      ((s.onPeer p unit (fun _ => q')).addOut (s.outstanding q')).portSettle p

/-- PORT_LINK_CHANGE (R465 to R467): the PHY of a port gains or loses link. -/
def execPortLinkChange (t port : Nat) (up : Bool) (s : State) : Answer :=
  let s := s.tick t
  if 2 ≤ port ∨ (s.portOf port).up = up then .next s
  else
    let s := s.losePeers port (fun _ => true)
    let s := s.onPort port (fun x => { x with up := up, peers := s.freshPeers port, lastHello := none })
    .next ((s.portSettle port).hello port)

/-! ### LINK_HELLO (R465, R466, R479, R484) -/

/-- Frames of class `c` whose end is at least 20 µs old, known to be lost from the neighbour's count. Log entry 130. -/
def State.reconcile (p unit c a : Nat) (s : State) : State :=
  match s.peerOf p unit with
  | none => s
  | some q =>
    let lost := q.sentN.getD c 0 - q.lostN.getD c 0 - a
    if lost = 0 ∨ !q.oper then s
    else
      ((s.onPeer p unit (fun q => { q with lostN := addAt q.lostN c lost, k := addAt q.k c lost })).onPort p (fun x =>
        { x with lost := satU (x.lost + lost) 32 })).raise 0xD2 (le 1 p ++ le 1 c ++ le 4 lost)

def State.idConflict (p boot : Nat) (s : State) : State :=
  ({ s with fab := { s.fab with conflict := true } }).raise 0xD5 (le 2 s.unitId ++ le 1 p ++ le 2 boot)

/-- A valid LINK_HELLO of `unit` on port `p`. -/
def State.takeHello (p unit boot : Nat) (a : List Nat) (s : State) : State :=
  if unit = s.unitId then s.idConflict p boot
  else match s.peerOf p unit with
    | none => s
    | some q =>
      let s := if q.heard && (q.unit != unit || q.boot != boot)
        then s.losePeers p (fun y => s.chain p || y.unit == unit) else s
      let s := s.onPeer p unit (fun q =>
        let old := q.sent.filter (fun x => x.2 + 8000 ≤ s.now)
        { q with
          unit := unit, boot := boot, heard := true, helloAt := s.now, sent := q.sent.filter (fun x => s.now < x.2 + 8000)
          sentN := old.foldl (fun l x => addAt l x.1 1) q.sentN })
      let s := eachIx 4 (fun c s => s.reconcile p unit c (a.getD c 0)) s
      s.makeOper p unit

/-- LINK_HELLO (R465, R484). -/
def execLinkHello (t port unit boot keyCur keyOther : Nat) (a : List Nat) (s : State) : Answer :=
  let _ := (keyCur, keyOther)
  let s := s.tick t
  if s.portOn port then .next (s.takeHello port unit boot a) else .next s

/-- HELLO_SEND (R466): FABRIC.hello_period has passed. -/
def execHelloSend (t port : Nat) (s : State) : Answer :=
  let s := s.tick t
  let due : Bool := match (s.portOf port).lastHello with
    | some u => decide (u + msCycles (s.nat FABRIC.hello_period) ≤ s.now)
    | none => true
  if s.portOn port ∧ due then
    let s := s.hello port
    .next ((s.portOf port).peers.foldl (fun s q => s.makeOper port (s.peerKey port q)) s)
  else .next s

/-- NEIGHBOUR_TIMEOUT (R466): no valid LINK_HELLO for three periods. -/
def execNeighbourTimeout (t port unit : Nat) (s : State) : Answer :=
  let s := s.tick t
  match s.peerOf port unit with
  | some q =>
    if q.heard ∧ q.helloAt + 3 * msCycles (s.nat FABRIC.hello_period) ≤ s.now then
      .next (s.losePeers port (fun y => s.chain port || y.unit == unit))
    else .next s
  | none => .next s

/-! ### Credits (R483) -/

/-- The counts that a neighbour carries return credits. -/
def State.takeCredit (p unit : Nat) (counts : List Nat) (s : State) : State :=
  s.onPeer p unit (fun q => if !q.oper then q else
    { q with
      k := (List.range 4).map (fun c => q.k.getD c 0 + (counts.getD c 0 + 16 - q.got.getD c 0) % 16)
      got := (List.range 4).map (fun c => counts.getD c 0 % 16) })

/-- CREDIT (R483). -/
def execCredit (t port unit : Nat) (counts : List Nat) (s : State) : Answer := .next ((s.tick t).takeCredit port unit counts)

/-- CREDIT_SEND (R483): a changed count has gone unsent for 50 µs. -/
def execCreditSend (t port unit : Nat) (s : State) : Answer :=
  let s := s.tick t
  match s.peerOf port unit with
  | some q =>
    match q.changedAt with
    | some u =>
      if q.oper ∧ u + 20000 ≤ s.now then
        .next ((s.onPeer port unit (fun q => { q with changedAt := none })).sendHop port (s.peerKey port q) .credit)
      else .next s
    | none => .next s
  | none => .next s

/-! ### Sending (R481, R482, R485, R486) -/

/-- The tier of a frame that the unit originates is funded (R550, R551). Log entry 156. -/
def State.tierFunded (s : State) (i : TxItem) : Bool :=
  if i.buf.isSome then true
  else if [0x010, 0x011, 0x051, 0x052, 0x053].contains i.frame.type then s.purse.t1
  else match i.frame.msg with
    | .windowData .. => s.purse.t2 && decide (0 ≤ s.purse.float)
    | .attestReport c => c.offset == 0 || (s.purse.t2 && decide (0 ≤ s.purse.float))
    | _ => true

/-- An item has the credit that it needs; a hop-local frame needs none. Log entry 128. -/
def State.hasCredit (s : State) (p : Nat) (i : TxItem) : Bool :=
  hopLocal i.frame.type || (match s.peerOf p i.dest with | some q => q.oper && q.k.getD i.frame.cls 0 != 0 | none => false)

/-- An item may start: it has its credit, and its tier is funded. Log entry 133. -/
def State.maySend (s : State) (p : Nat) (i : TxItem) : Bool :=
  s.tierFunded i && s.hasCredit p i && !(s.wake.bare && i.frame.cls % 2 == 0)

/-- The first item of the highest class that may start. -/
def State.nextItem (s : State) (p : Nat) : Option Nat :=
  let q := (s.portOf p).queue
  ((List.range q.length).filter (fun i => s.maySend p (nth q i))).foldl (fun b i =>
    match b with
    | none => some i
    | some j => if (nth q i).frame.cls < (nth q j).frame.cls then some i else some j) none

/-- The frame as it goes on the link: credit counts, tag, and in a frame of the unit's own the key under which it sends (R478,
R486). Log entry 131. -/
def State.onWire (s : State) (q : Peer) (relayed : Bool) (f : Frame) : Frame :=
  let f := { f with key := if relayed then f.key else if s.keyless then 0 else s.fab.keyCur, credit := q.ret }
  { f with tag := s.tagOf s.unitId s.fab.boot f }

/-- Bytes of an Ethernet frame with its FCS. -/
def wireBytes (f : Frame) : Nat := max 46 (28 + f.len + 16) + 18

/-- FRAME_TRANSMIT (R482): an idle port starts the next frame. -/
def execFrameTransmit (t port : Nat) (s : State) : Answer :=
  let s := s.tick t
  if !s.portOn port || decide (s.now < (s.portOf port).busyUntil) then .next s
  else match s.nextItem port with
    | none => .next s
    | some i =>
      let x := nth (s.portOf port).queue i
      let q := (s.peerOf port x.dest).getD {}
      let f := s.onWire q x.buf.isSome x.frame
      let c := f.cls
      let local_ := hopLocal f.type
      let ended := s.now + (8 + wireBytes f) * byteCycles
      let s := s.onPort port (fun y => { y with
        queue := y.queue.eraseIdx i, wire := some f, busyUntil := s.now + (20 + wireBytes f) * byteCycles, tx := inc32 y.tx
        relayed := if x.buf.isSome then inc32 y.relayed else y.relayed })
      let s := s.onPeer port x.dest (fun q => { q with
        k := if local_ then q.k else subAt q.k c 1, sent := if local_ then q.sent else q.sent ++ [(c, ended)]
        use := (List.range 4).map (fun c => q.use.getD c 0 - (q.ret.getD c 0 + 16 - q.told.getD c 0) % 16)
        told := q.ret, changedAt := none })
      .next (s.freeBuf x)

/-- Stages with a frame held for want of credit, at a boundary. -/
def State.stallBoundary (p : Nat) (s : State) : State :=
  if (s.portOf p).queue.any (fun i => !s.hasCredit p i) then s.onPort p (fun x => { x with stall := inc32 x.stall }) else s

/-! ### Reception (R475 to R477) -/

/-- The format of a frame (first row of the reception decisions). Log entry 129. -/
def State.frameFormat (s : State) (f : Frame) : Bool :=
  f.version == 1 && !f.rsvd && f.dkind < 3 && msgType f.msg == f.type && typeClass f.type == some f.cls &&
  f.len == (msgBytes f.msg).length && f.len ≤ f.room &&
  f.len ≤ (if f.cls < 2 then 128 else s.nat FABRIC.bulk_max)

/-- The key of a frame is one that the unit takes (R486). -/
def State.keyHeld (s : State) (f : Frame) : Bool :=
  if f.key = 0 then keylessType f.type
  else !s.keyless && (f.key == s.fab.keyCur || (s.fab.keyOther != 0 && f.key == s.fab.keyOther))

/-- The sender's identity for the tag: of a LINK_HELLO from its body, else of its last valid LINK_HELLO (R485). -/
def senderOf (q : Peer) (f : Frame) : Nat × Nat :=
  match f.msg with
  | .linkHello u b _ _ _ => (u, b)
  | _ => (q.unit, q.boot)

/-- What reception decides: discarded with a cause, discarded silently, an ID conflict, a duplicate, or accepted. -/
inductive Verdict where
  | reject (cause : Nat) | ring | conflict | dup | accept
  deriving DecidableEq, Repr

/-- The reception decisions, in order, with the sender's state `q` (R475). -/
def State.verdict (s : State) (q : Peer) (f : Frame) : Verdict :=
  let id := senderOf q f
  let x := s.sourceOf f.src
  let older := match x.boot with | some h => bootOlder f.boot h | none => false
  let newer := match x.boot with | some h => bootNewer f.boot h | none => false
  let own : Bool := match f.msg with | .linkHello u _ _ _ _ => u == s.unitId | _ => false
  if !s.frameFormat f then .reject 1
  else if !hopLocal f.type && !(q.oper && decide (q.use.getD f.cls 0 < 4)) then .reject 2
  else if !s.keyHeld f then .reject 3
  else if f.tag ≠ s.tagOf id.1 id.2 f then .reject 4
  else if f.src = s.unitId ∧ f.boot = s.fab.boot then .ring
  else if f.src = s.unitId ∨ own then .conflict
  else if older then .reject 5
  else if (seqAccept (if newer then none else x.seqs.getD f.cls none) f.seq).isNone then .dup
  else .accept

/-- R476, R477: the source's state after an accepted frame; where it was heard (R478). -/
def State.noteSource (p unit : Nat) (f : Frame) (s : State) : State :=
  let x := s.sourceOf f.src
  let newer := match x.boot with | some h => bootNewer f.boot h | none => true
  let seqs := if newer then [none, none, none, none] else x.seqs
  s.setSource { x with
    boot := some f.boot, route := if hopLocal f.type then x.route else some (p, unit)
    seqs := seqs.modify f.cls (fun q => (seqAccept q f.seq).orElse (fun _ => q)) }

/-- A frame is to be relayed (R478): it has hops left and its destination is not the unit alone. -/
def State.relays (s : State) (f : Frame) : Bool :=
  !hopLocal f.type && f.hops != 0 && !(f.dkind == 0 && f.dst == s.unitId)

/-- The relayed copies of an accepted frame; its buffer is freed with the last of them, or at once. -/
def State.relay (p unit : Nat) (f : Frame) (s : State) : State :=
  let dest := if s.relays f then s.linksTo f.dkind f.dst (some p) else []
  if dest = [] then s.giveBack p unit f.cls
  else
    let b := s.fab.nextBuf
    let s := { s with fab := { s.fab with nextBuf := b + 1 } }
    dest.foldl (fun s l => s.enqueue l.1 l.2 (some (b, p, unit)) { f with hops := f.hops - 1 }) s

def State.frameRejected (p cause : Nat) (f : Frame) (s : State) : State :=
  (s.onPort p (fun x => { x with rejected := inc32 x.rejected })).raise 0xD1
    (le 1 p ++ le 1 cause ++ le 2 f.src ++ le 2 f.type)

end Sys2Proof.Machine
end

