-- ==== Sys2Proof/Machine/Groups.lean ====
section
/-! DEFINITION. Path group commands and the group's work of one Stage (R284 to R298, R751), and the discrete input filter's
own happenings (R173, R178). -/

namespace Sys2Proof.Machine

/-! ### Answers -/

/-- EV_PATH_SEGMENT and the answer of a rejected group command (R296, R297). -/
def State.rejectPath (g : Nat) (o : PathOffer) (reason : Nat) (s : State) : State :=
  (s.raise 0x67 (segPl g reason o.cmd.tag)).reply o.origin 1 reason

def State.acceptPath (g : Nat) (o : PathOffer) (s : State) : State := (s.forward o.origin (.path g o.cmd)).reply o.origin 0 0

/-! ### Queueing (R285, R293, R294, R297) -/

/-- A segment is appended to a group whose first start position is known. -/
def State.queueSeg (g : Nat) (q : Seg) (s : State) : State :=
  let (p, dropped) := (s.pgOf g).append q
  let p := { p with lastEnd := (List.range (s.members g).length).map (slotAt q.cmd.ends) }
  let s := s.onPg g (fun _ => p)
  if dropped then s.raise 0x67 (segPl g 5 q.cmd.tag) else s

/-- LINE or ARC (path group decisions). In IDLE the first segment's geometry waits for START. A segment that comes when the raw
generator has reached the end of the queue is a new move of Λ (R260, R293). -/
def State.takeSeg (g : Nat) (o : PathOffer) (s : State) : State :=
  let p := s.pgOf g
  if p.st = .broken then s.rejectPath g o 7
  else if s.nat PATH.queue g ≤ p.queue.length then s.rejectPath g o 1
  else
    let first := p.queue.isEmpty && p.st == .idle
    let q := s.segGeom g o.cmd (if first then o.cmd.ends else p.lastEnd)
    let bad := if first then s.segReason0 g o.cmd else s.segReason g q
    if bad ≠ 0 then s.rejectPath g o bad
    else
      let s := s.queueSeg g q
      (s.onPg g (fun p =>
        if p.st = .running ∨ p.st = .done then
          let gen : Gen := { p.gen with target := p.endL }
          { p with st := .running, gen := if p.gen.phase = .rest then { gen with phase := .pos, dir := 1, newM := true } else gen }
        else p)).acceptPath g o

/-! ### START (R297) -/

/-- The queue planned from the members' references. Log entry 153. -/
def State.planQueue (s : State) (g : Nat) (start : List Int) : List PathCmd → List Int → Pg → Pg
  | [], _, p => p
  | c :: cs, from_, p =>
    let q := s.segGeom g c from_
    s.planQueue g start cs ((List.range start.length).map (slotAt c.ends)) (p.append q).1

/-- A group at the start of its path. -/
def State.startPg (s : State) (g : Nat) : Pg :=
  let old := s.pgOf g
  let start := (s.members g).map (fun a => (s.axOf a).pRef)
  let p : Pg := {
    st := .running, pStart := start, refs := start, retired := start.map (fun _ => 0), lastEnd := old.lastEnd
    filt := { m := (s.pathProf g none).smooth }, segments := old.segments, breaks := old.breaks }
  let p := s.planQueue g start (old.queue.map (·.cmd)) start p
  { p with gen := { phase := .pos, dir := 1, target := p.endL, noDwell := true } }

/-- A member may enter Path (R250, R297). Log entry 64. -/
def State.memberOk (s : State) (a : Nat) : Bool :=
  let x := s.axOf a
  s.defined a && !s.measuring a && !(s.bookOf a).fault && !(s.bookOf a).stopLatch && !s.homing a && !x.ramp &&
  modePermits s.mode.mode 5 && s.entryOk a 5

/-- Each member's hand-over into Path at the start of its group's path. Log entry 64. -/
def State.startHand (s : State) (g : Nat) : List (Nat × Except (Nat × Int) Axis) :=
  let p := s.pathStage g s.nextBoundary (s.startPg g)
  (s.members g).zipIdx.map (fun (a, i) =>
    let old := s.axOf a
    let new := s.preload a 5 old
    let r : RefOut := { x := new, p := slotAt p.refs i, v := slotAt p.dRef i * 65536 }
    (a, s.handRef a old new r (s.modDelta a (r.p - old.pRef)) (r.v - old.vFF)))

/-- START (R297): every member enters Path in one boundary, or none. Log entry 64. -/
def State.takeStart (g : Nat) (o : PathOffer) (s : State) : State :=
  let old := s.pgOf g
  let ms := s.members g
  if old.st ≠ .idle then s.rejectPath g o 7
  else
    match old.queue with
    | [] => s.rejectPath g o 6
    | q0 :: _ =>
      let bad := s.segReason g (s.segGeom g q0.cmd (ms.map (fun a => (s.axOf a).pRef)))
      if bad ≠ 0 then s.rejectPath g o bad
      else if !ms.all s.memberOk then s.rejectPath g o 6
      else
        let p := s.startPg g
        let outs := s.startHand g
        match outs.findSome? (fun x => match x.2 with | .error q => some (x.1, q) | .ok _ => none) with
        | some (a, q) => (s.refuse a 5 q).rejectPath g o 6
        | none =>
          let s := outs.foldl (fun s x => match x.2 with
            | .ok y =>
              let from_ := (s.axOf x.1).mode
              let s := match from_, s.couplingOf x.1 with
                | 4, some c => s.setGc c { (s.gcOf c) with st := .off }
                | _, _ => s
              (s.onAx x.1 (fun _ => y)).raise 0x62 (le 1 x.1 ++ le 1 from_ ++ le 1 5 ++ le 4 y.blendK)
            | .error _ => s) s
          (s.onPg g (fun _ => p)).acceptPath g o

/-! ### The other commands -/

/-- STOP to a group (R296): PAUSED, or DONE at its end when that is nearer. -/
def State.takePathStop (g : Nat) (o : PathOffer) (s : State) : State :=
  if (s.pgOf g).st = .running then (s.groupStop g).acceptPath g o else s.rejectPath g o 7

/-- RESUME in PAUSED: a new move of Λ to the end of the queue, from rest. -/
def State.takePathResume (g : Nat) (o : PathOffer) (s : State) : State :=
  if (s.pgOf g).st ≠ .paused then s.rejectPath g o 7
  else
    (s.onPg g (fun p =>
      let gen : Gen := if p.gen.ve = 0 then { p.gen with phase := .pos, dir := 1, target := p.endL, next := none }
        else { p.gen with next := some { again := true, target := p.endL } }
      { p with st := .running, gen := gen })).acceptPath g o

/-- CLEAR: the queue is emptied; members in Path enter Held where their references stand, those on a quick-stop ramp at its end
(R748). -/
def State.takeClear (g : Nat) (o : PathOffer) (s : State) : State :=
  if (s.pgOf g).st = .running then s.rejectPath g o 7
  else
    let s := (s.members g).foldl (fun s a => if (s.axOf a).mode = 5 ∧ !(s.axOf a).ramp then s.enterHeld_ a else s) s
    (s.onPg g (fun p => { segments := p.segments, breaks := p.breaks, segTag := p.segTag })).acceptPath g o

/-- A group command is taken. -/
def State.takePath (g : Nat) (o : PathOffer) (s : State) : State :=
  if s.members g = [] then s.rejectPath g o 7
  else match o.cmd.cmd with
    | 1 => s.takeStart g o
    | 2 => s.takeSeg g o
    | 3 => s.takeSeg g o
    | 4 => s.takePathStop g o
    | 5 => s.takePathResume g o
    | 6 => s.takeClear g o
    | _ => s.rejectPath g o 7

/-- The order in which a boundary's commands are taken: STOP first, then kernel, fabric, mailbox, each as written (R296). -/
def pathOrder (l : List PathOffer) : List PathOffer :=
  let stops := l.filter (·.cmd.cmd == 4)
  let rest := l.filter (·.cmd.cmd != 4)
  stops ++ rest.filter (·.origin.src == 0) ++ rest.filter (·.origin.src == 1) ++ rest.filter (fun o => 2 ≤ o.origin.src)

/-- A group command is decided; one that the partner cannot be told of is rejected (R512). Log entry 213. -/
def State.decidePath (g : Nat) (o : PathOffer) (s : State) : State :=
  let seg := o.cmd.cmd == 2 || o.cmd.cmd == 3
  if s.forwardFull o.origin ∨ (seg ∧ s.forwards o.origin) then s.rejectPath g o 1 else s.takePath g o

/-- The offered commands of a Stage, decided by the group's task: four are taken, those beyond are rejected (R296, R751).
Log entry 213. -/
def State.decideGroup (g : Nat) (s : State) : State :=
  let l := pathOrder (nth s.pgBook g).offered
  let s := s.onPgBook g (fun b => { b with offered := [], decided := true })
  (l.drop 4).foldl (fun s o => s.rejectPath g o 1) ((l.take 4).foldl (fun s o => s.decidePath g o) s)

/-- A command is kept for the group's task: of the present Stage, or of the next where that has already done its work, or the
lanes do not run (R751). Log entry 213. -/
def State.keepPath (g : Nat) (o : PathOffer) (s : State) : State :=
  s.onPgBook g (fun b =>
    if b.decided || s.mode.lanesOff then { b with incoming := b.incoming ++ [o] } else { b with offered := b.offered ++ [o] })

/-- A command that reaches a group at a boundary by the mailbox, in a frame or from the partner: kept for the group's task
(R296, R751). A group of no members, which has none, rejects it. Log entry 213. -/
def State.offerPath (g : Nat) (o : Origin) (c : PathCmd) (s : State) : State :=
  if 4 ≤ g || s.clk.motionHeld then s
  else if s.members g = [] then s.decidePath g { origin := o, cmd := c }
  else s.keepPath g { origin := o, cmd := c }

/-- A command for a group as its row gives it: kept for the group's task, and the group and its members show what the task will
do. Log entries 27, 213. -/
def State.groupCommand (g : Nat) (o : Origin) (c : PathCmd) (s : State) : State :=
  if 4 ≤ g || s.clk.motionHeld then s
  else if s.members g = [] then s.decidePath g { origin := o, cmd := c }
  else if (nth s.pgBook g).decided || s.mode.lanesOff then s.keepPath g { origin := o, cmd := c }
  else (s.unshow.keepPath g { origin := o, cmd := c }).show (State.decideGroup g)

/-- The group's work of one Stage, done by its task. -/
def State.groupKernel (g : Nat) (s : State) : State :=
  let s := s.decideGroup g
  let p := s.pgOf g
  if p.st = .running ∨ p.st = .paused then s.onPg g (fun p => s.pathStage g s.nextBoundary p) else s

/-- A member's stop breaks its group (R297): the others perform QUICK_STOP. Log entry 70. -/
def State.pathBreak (a cause : Nat) (s : State) : State :=
  match s.groupOf a with
  | none => s
  | some g =>
    let p := s.pgOf g
    if p.st = .idle ∨ p.st = .broken then s
    else
      let s := s.onPg g (fun p => { p with
        st := .broken, breaks := inc32 p.breaks, gen := { p.gen with phase := .rest, ve := 0, next := none } })
      let s := s.raise 0x66 (le 1 g ++ le 1 a ++ le 1 cause ++ le 8 p.lambda)
      (s.members g).foldl (fun s b => if b ≠ a ∧ (s.axOf b).mode = 5 then s.onAx b (Axis.startRamp .held) else s) s

/-! ### The commands -/

def State.groupRow (g src : Nat) (c : PathCmd) (s : State) : Answer := .next (s.groupCommand g { src := src } c)

/-- START (R297). -/
def execStart (group src tag : Nat) (s : State) : Answer := s.groupRow group src { cmd := 1, tag := tag }

/-- LINE (R286). -/
def execLine (group src : Nat) (seg : PathCmd) (s : State) : Answer := s.groupRow group src { seg with cmd := 2 }

/-- ARC (R288). -/
def execArc (group src : Nat) (seg : PathCmd) (s : State) : Answer := s.groupRow group src { seg with cmd := 3 }

/-- STOP to a group (R296). -/
def execPathStop (group src tag : Nat) (s : State) : Answer := s.groupRow group src { cmd := 4, tag := tag }

/-- RESUME of a group (R296). -/
def execPathResume (group src tag : Nat) (s : State) : Answer := s.groupRow group src { cmd := 5, tag := tag }

/-- CLEAR (R296). -/
def execClear (group src tag : Nat) (s : State) : Answer := s.groupRow group src { cmd := 6, tag := tag }

/-! ### The input filter (R173, R174, R177, R178, R747) -/

/-- DIN_FILTER_STABLE (R173): the raw level has held for DIN.stable cycles. -/
def execDinFilterStable (t din : Nat) (s : State) : Answer :=
  let s := s.tick t
  let d := s.dinOf din
  if din < 64 ∧ d.first ∧ !s.clk.motionHeld ∧ !d.chatter ∧ s.dinStable t din ∧ d.filt ≠ s.dinRaw din then .next (s.dinChange din) else .next s

/-- CHATTER_END (R178): DIN.chatter_win cycles without a raw transition, the present one included (R747, log entry 268);
the filter restarts from the raw level. -/
def execChatterEnd (t din : Nat) (s : State) : Answer :=
  let s := s.tick t
  let d := s.dinOf din
  if d.chatter ∧ d.lastT + s.nat DIN.chatter_win din ≤ t ∧ !s.clk.motionHeld then
    let s := s.onDin din (fun d => { d with chatter := false, times := [] })
    if !s.dinStable t din then .next s
    else if !d.first then .next (s.onDin din (fun d => { d with first := true, filt := s.dinRaw din }))
    else if d.filt ≠ s.dinRaw din then .next (s.dinChange din)
    else .next s
  else .next s

end Sys2Proof.Machine
end

