-- ==== Sys2Proof/Machine/Journal.lean ====
section
/-! DEFINITION. The journal of the Steward (chapter 16): its entries, their room and their compaction (R352, R640, R642,
R644, R650). -/

namespace Sys2Proof.Machine

/-- The width of the field that a cell holds. -/
def cellWidth (c : Cell) : Nat := ((fieldAt c.sec c.idx c.off).map (·.width)).getD 0

/-- Bytes that an entry of these cells takes in its half: header, COUNT, entries padded to 8 bytes, TAG, on 256-byte
boundaries (R650). -/
def entryRoom (cells : List Cell) : Nat :=
  ceilDiv (0x60 + 8 + (cells.map (fun c => 8 + 8 * ceilDiv (cellWidth c) 8)).sum + 32) 256 * 256

/-- Bytes of one half. -/
def journalHalf : Nat := 2 * 1024 * 1024

/-- `n` sectors of the external NOR from sector `first` are erased: their wear is counted and reported at each 10,000 erases
from 80,000 (EV_FLASH_WEAR). Log entry 184. -/
def State.eraseSectors (first n : Nat) (s : State) : State :=
  (List.range n).foldl (fun s i =>
    let s := { s with stw := { s.stw with wear := countUp s.stw.wear (first + i) } }
    let c := countOf s.stw.wear (first + i)
    if 80000 ≤ c ∧ c % 10000 = 0 then s.raise 0xED (le 2 ((first + i : Nat)) ++ le 4 c) else s) s

/-- The digest of the waybill in force (R653). -/
def State.wbDigest (s : State) : List Octet := s.wake.wb.digest

/-- Appends an entry: status 0 with the entry verified, 11 while the journal compacts, 19 when it is full. -/
def State.journalAppend (type learn signer objSeq : Nat) (cells : List Cell) (s : State) : State × Nat :=
  let w := s.stw
  if w.jFull then (s, 19)
  else if w.compacting then (s, 11)
  else
    let room := entryRoom cells
    if journalHalf < w.jUsed + room then ({ s with stw := { w with compacting := true } }, 11)
    else
      let e : JEntry := { type := type, learn := learn, eseq := w.jSeq, epoch := s.stage.epoch, signer := signer, objSeq := objSeq
                          digest := s.wbDigest, cells := cells, len := room }
      ({ s with stw := { w with journal := w.journal ++ [e], jSeq := w.jSeq + 1, jUsed := w.jUsed + room } }, 0)

/-- The net values of entries for one waybill. -/
def netCells (types : List Nat) (digest : List Octet) (l : List JEntry) : List Cell :=
  (l.filter (fun e => types.contains e.type && e.digest == digest && e.tagOk && !e.gone)).foldl (fun c e =>
    e.cells.foldl (fun (c : List Cell) x => c.filter (fun y => !(y.sec == x.sec && y.idx == x.idx && y.off == x.off)) ++ [x]) c) []

/-- The compacted entries of one waybill (R644). -/
def compactFor (epoch : Nat) (l : List JEntry) (digest : List Octet) : List JEntry :=
  [(3, [1, 3]), (4, [2, 4])].map (fun (x : Nat × List Nat) =>
    let c := netCells x.2 digest l
    { type := x.1, epoch := epoch, digest := digest, cells := c, len := entryRoom c })

/-- The compaction: the other half is erased and takes the net values for the waybill in force and for that of the slot
that is not BOOT, and becomes active; a journal whose net values do not fit is full. -/
def State.journalCompact (s : State) : State :=
  let s := s.eraseSectors (if s.stw.jHalf then 0x180 else 0x1A0) 32
  let w := { s.stw with jHalf := !s.stw.jHalf }
  let other := ((w.slots.find? (fun x => x.state != 4)).bind (·.wb)).map (·.digest)
  let ds := s.wbDigest :: (other.toList.filter (fun d => d != s.wbDigest))
  let l := ds.flatMap (compactFor s.stage.epoch w.journal)
  let l := l.zipIdx.map (fun x => { x.1 with eseq := w.jSeq + x.2 })
  let used := (l.map (·.len)).sum
  if journalHalf < used then { s with stw := { s.stw with compacting := false, jFull := true } }
  else { s with stw := { w with compacting := false, journal := l, jSeq := w.jSeq + l.length, jUsed := used } }

/-- JOURNAL_COMPACTION_DONE (R644). -/
def execJournalCompactionDone (t : Nat) (s : State) : Answer :=
  let s := s.tick t
  if s.stw.compacting then .next s.journalCompact else .next s

end Sys2Proof.Machine
end

