-- ==== Sys2Proof/Machine/Restart.lean ====
section
/-! DEFINITION. What a Waking, a reset and a loss of the supply leave of the state: the fuses, the persistent store, the Ledger
flash, the external NOR and the levels at the balls (R24, R53, R58, R584, R596, R597, R605, R637, R724). -/

namespace Sys2Proof.Machine

/-- The life clock that a Waking resumes: the persisted value, plus 1 ns after a clean persist, else plus 3,600 s (R584). -/
def Led.resumed (l : Led) : Nat := if l.cleanPersist then l.lifePersist + 1 else l.lifePersist + 3600000000000

/-- The number of the newest record programmed (R597). Log entry 224. -/
def Led.newest (l : Led) : Option Nat :=
  (l.slots.filterMap (fun x => match x.2 with | .record r => r.seq | .void => none)).foldl
    (fun (m : Option Nat) q => match m with
      | none => some q
      | some p => some (max p q)) l.headSeq

/-- The Ledger after a restart: the flash, and the life clock resumed from the persistent store (R584, R594, R597).
Log entry 168. -/
def State.ledRestart (s : State) : Led :=
  let l := s.led
  { slots := l.slots, ordUsed := l.ordUsed, resUsed := l.resUsed, voids := l.voids, state := l.state, headSeq := l.newest
    nextSeq := match l.newest with | some q => q + 1 | none => 0
    lifePersist := l.lifePersist, cleanPersist := l.cleanPersist, tickAt := s.now
    life64 := 64 * l.resumed }

/-- The Steward after a restart: fuses, persistent store, external NOR (R605). -/
def Stw.restart (w : Stw) : Stw :=
  { owners := w.owners, vendorPk := w.vendorPk, vendorSeq := w.vendorSeq, devicePk := w.devicePk, ekPk := w.ekPk, seed := w.seed
    dev := w.dev, fwCtr := w.fwCtr, wbCtr := w.wbCtr, kill := w.kill, r0 := w.r0, dies := w.dies, testLife := w.testLife
    boots := w.boots, slots := w.slots, attempts := w.attempts, journal := w.journal, jSeq := w.jSeq, jUsed := w.jUsed
    jFull := w.jFull, keyAt := w.keyAt, wear := w.wear, jHalf := w.jHalf }

/-- The Purse after a restart: the powered-device front ends and the bank, which the line die keeps (R24), and what is persistent.
What is left of the present debit is forfeited (R564). Log entry 161. -/
def Purse.restart (p : Purse) : Purse :=
  { pd := p.pd, hold := p.hold, cap := p.cap, esr := p.esr, allow := p.allow }

/-- The safety inputs after a restart: the levels of their balls. -/
def SafeChan.restart (c : SafeChan) : SafeChan :=
  { ins := c.ins.map (fun (x : SafeIn) => { ballA := x.ballA, ballB := x.ballB }) }

/-- The block after a restart: everything else is as at power-up. Log entries 34, 35, 266. -/
def State.restart (s : State) : State :=
  { pending := s.pending, freeIx := s.freeIx, now := s.now, trims := s.trims, scTrims := s.scTrims
    links := s.links.map (fun (_ : Link) => { lastFlit := s.now })
    fb := s.fb.map (fun (x : Fb) => { a := x.a, b := x.b, z := x.z })
    din := s.din.map (fun (x : Din) => { ball := x.ball, lastT := s.now })
    cap := s.cap.map (fun (x : Cap) => { ball := x.ball, filt := x.ball, lastT := s.now })
    safe := { a := s.safe.a.restart, b := s.safe.b.restart }
    fab := { ports := s.fab.ports.map (fun (p : Port) => { up := p.up }), boot := s.fab.boot, keyCur := s.fab.keyCur
             keyOther := s.fab.keyOther, keys := s.fab.keys }
    twin := { linkUp := s.twin.linkUp }
    pins := { s.pins with term := List.replicate 16 {} }, purse := s.purse.restart, led := s.ledRestart, stw := s.stw.restart
    mode := { enteredAt := s.now }, time := { at_ := s.now }
    wake := { supply := s.wake.supply, resetLow := s.wake.resetLow, from_ := s.now } }

/-- The reset or new Waking that waits for the end of a flush takes effect (R637, R724). -/
def State.resetEnd (s : State) : State := if s.wake.resetting then s.restart else s

end Sys2Proof.Machine
end

