-- ==== Sys2Proof/Machine/Ledger.lean ====
section
/-! DEFINITION. The Ledger (chapter 15): records as bytes, flushes, the flash, the aperture, EVENT frames, nEVT and the life
clock (R577 to R602). -/

namespace Sys2Proof.Machine

def State.onLed (f : Led → Led) (s : State) : State := { s with led := f s.led }

/-- Slots of the ordinary region and of the reserve (R595). -/
def ordSlots : Nat := 1032192

def resSlots : Nat := 16384

/-! ### Records as bytes (R577, R578) -/

/-- A Ledger record with its CRC. -/
def recBytes (r : LedRec) : List Octet :=
  let b := le 8 ((r.seq.getD (2 ^ 64 - 1) : Nat)) ++ le 8 r.life ++ le 8 r.site ++ le 6 r.epoch ++ le 1 r.code ++
    le 1 (r.sev + 16 * packBits [r.synced, r.summary, r.loss]) ++ le 4 r.rep ++ le 4 r.delta ++
    (r.payload ++ zeros 20).take 20
  b ++ le 4 (crc32 b)

/-! ### EVENT frames (R501, R600) -/

/-- Fabric-routed occurrences are handed to the fabric while T1 is funded. -/
def State.eventsOut (s : State) : State :=
  if !s.purse.t1 then s
  else
    let l := s.led.events
    let s := s.onLed (fun x => { x with events := [] })
    match dstField (s.nat FABRIC.event_dst) with
    | none => s
    | some d => l.foldl (fun s r => s.sendAt d (.event (recBytes r)) r.epoch) s

/-! ### Flushes (R591 to R594) -/

/-- LEDGER_OCCURRENCE (R573, R588): an occurrence reaches the Ledger. A code that no event bears is never raised (R572). -/
def execLedgerOccurrence (t code sev : Nat) (payload : List Octet) (s : State) : Answer :=
  let s := s.tick t
  let o : Occ := { code := code % 256, sev := min 4 (max (s.sevOf (code % 256)) sev), epoch := s.stage.epoch,
                   payload := payload.take 20 ++ zeros (20 - payload.length) }
  if codeBorne o.code then .next ({ s with led := { s.led with raised := countUp s.led.raised o.code } }.ledTake o)
  else .next s

/-- LEDGER_MAX_AGE (R591): the oldest waiting record has waited LEDGER.max_age. -/
def execLedgerMaxAge (t : Nat) (s : State) : Answer :=
  let s := s.tick t
  match s.led.buf with
  | r :: _ => if r.life + s.nat LEDGER.max_age * 1000000000 ≤ s.life then .next s.beginFlush else .next s
  | [] => .next s

/-- EV_LEDGER_FULL of a region. Log entry 166. -/
def State.ledFull (region : Nat) (s : State) : State := s.raise 0xFA (le 1 region ++ le 8 ((s.led.headSeq.getD 0 : Nat)))

/-- Records and counts that are not recorded any more (R595). -/
def State.dropRecs (l : List LedRec) (c : List SumCnt) (s : State) : State :=
  let s := l.foldl (fun s r => s.onLed (fun x => { x with
    notRecorded := countSet x.notRecorded r.code (satU (countOf x.notRecorded r.code + 1 + r.rep) 32) })) s
  c.foldl (fun s r => s.onLed (fun x => { x with
    notRecorded := countSet x.notRecorded r.code (satU (countOf x.notRecorded r.code + r.count) 32) })) s

/-- The ordinary region is full: only critical records go on, into the reserve, EV_LEDGER_FULL first. -/
def State.toReserve (s : State) : State :=
  let keep := s.led.buf.filter (fun r => r.sev == 4 && !r.summary)
  let gone := s.led.buf.filter (fun r => !(r.sev == 4 && !r.summary))
  let s := s.dropRecs gone s.led.cnt
  let s := s.onLed (fun l => { l with state := .reserve, cnt := [], buf := [] })
  let s := s.ledFull 0
  s.onLed (fun l => { l with buf := l.buf ++ keep })

/-- One slot of the reserve remains: it takes EV_LEDGER_FULL, and the Ledger is sealed. -/
def State.toSealed (s : State) : State :=
  let gone := s.led.buf
  let s := s.onLed (fun l => { l with buf := [] })
  let s := s.ledFull 1
  let last := s.led.buf.getLast?
  let s := s.onLed (fun l => { l with
    slots := l.slots ++ last.toList.map (fun r => (ordSlots + resSlots - 1, LedSlot.record r))
    resUsed := resSlots, state := .sealed, buf := [], headSeq := (last.bind (·.seq)).or l.headSeq })
  let s := s.led.held.foldl (fun s o => s.notRec o.code) (s.dropRecs gone [])
  s.onLed (fun l => { l with held := [] })

/-- HEAD_SEQ: the greatest number of a programmed record below every number that waits (R598). Log entry 224. -/
def Led.headOf (l : Led) : Option Nat :=
  let seqs := l.slots.filterMap (fun x => match x.2 with | .record r => r.seq | .void => none)
  let waiting := l.buf.filterMap (·.seq)
  (seqs.filter (fun q => waiting.all (fun w => decide (q < w)))).foldl
    (fun (m : Option Nat) q => match m with
      | none => some q
      | some p => some (max p q)) l.headSeq

/-- A slot is void: EV_LEDGER_FLASH with the void slots so far (R593). -/
def State.voidSlot (slot : Nat) (s : State) : State :=
  let s := s.onLed (fun l => { l with voids := l.voids + 1 })
  s.raise 0xFB (le 4 slot ++ le 1 0 ++ le 4 s.led.voids)

/-- PAGE_PROGRAMMED (R592, R593): the program of a page completes; `failed` are the positions, in the page, of the slots
that fail verification. Log entry 165. -/
def execPageProgrammed (t : Nat) (failed : List Nat) (s : State) : Answer :=
  let s := s.tick t
  let page := s.led.buf.takeWhile (·.begun)
  if !s.led.flushing ∨ page = [] then .next s
  else
    let ord := s.led.state == .opened
    let base := if ord then s.led.ordUsed else ordSlots + s.led.resUsed
    let n := page.length
    let ix := page.zipIdx
    let bad := ix.filter (fun x => failed.contains x.2)
    let slots := ix.map (fun x => (base + x.2, if failed.contains x.2 then LedSlot.void else LedSlot.record x.1))
    let again (r : LedRec) : LedRec := { r with begun := false }
    let s := s.onLed (fun l => { l with
      buf := bad.map (fun x => again x.1) ++ l.buf.drop n, slots := l.slots ++ slots
      ordUsed := if ord then l.ordUsed + n else l.ordUsed, resUsed := if ord then l.resUsed else l.resUsed + n })
    let s := s.onLed (fun l => { l with headSeq := l.headOf })
    let s := bad.foldl (fun s x => s.voidSlot (base + x.2)) s
    let s := if ord ∧ s.led.ordUsed = ordSlots then s.toReserve
      else if s.led.state = .reserve ∧ s.led.resUsed = resSlots - 1 then s.toSealed else s
    .next (if s.led.buf = [] then s.flushEnd.resetEnd else s.onLed (fun l => l.beginPage))

/-- FLUSH_BIT (R591): a write to LEDGER_CONTROL with FLUSH 1. -/
def execFlushBit (t value : Nat) (s : State) : Answer := .next (if bit value 1 then (s.tick t).beginFlush else s.tick t)

/-! ### nEVT (R601, R602) -/

/-- nEVT is acknowledged. -/
def State.nevtAck (s : State) : State := s.onLed (fun l => { l with nevtLow := false, nevtFresh := true })

/-- NEVT_ACK (R601): a write to LEDGER_CONTROL with NEVT_ACK 1. -/
def execNevtAck (t value : Nat) (s : State) : Answer := .next (if bit value 0 then (s.tick t).nevtAck else s.tick t)

/-- NEVT_PULSE_END (R602). -/
def execNevtPulseEnd (t : Nat) (s : State) : Answer :=
  let s := s.tick t
  if s.nat LEDGER.nevt_mode = 2 ∧ s.led.nevtLow ∧ s.led.nevtLastAt + s.nat LEDGER.nevt_width ≤ s.now then
    .next (s.onLed (fun l => { l with nevtLow := false }))
  else .next s

/-! ### The aperture (R599) -/

/-- Every record that the Ledger holds, with whether it has been programmed. -/
def Led.all (l : Led) : List (LedRec × Bool) :=
  l.slots.filterMap (fun x => match x.2 with | .record r => some (r, true) | .void => none) ++ l.buf.map (fun r => (r, false))

def State.setReadFrom (seq : Nat) (s : State) : State := s.onLed (fun l => { l with readFrom := seq, readAt := some s.now })

/-- READ_FROM (R599): a write asks the Steward to fill the aperture. -/
def execReadFrom (t seq : Nat) (s : State) : Answer := .next ((s.tick t).setReadFrom (seq % 2 ^ 64))

/-- APERTURE_FILL (R599): the first boundary at least 100 µs after the write. Log entry 167. -/
def execApertureFill (t : Nat) (s : State) : Answer :=
  let s := s.tick t
  match s.led.readAt with
  | none => .next s
  | some u =>
    if !s.atBoundary ∨ s.now < u + 40000 then .next s
    else
      let all := s.led.all
      let l := (List.range 8).filterMap (fun k => all.find? (fun x => x.1.seq == some (s.led.readFrom + k)))
      .next (s.onLed (fun x => { x with
        readAt := none, apertureFirst := if l = [] then none else some x.readFrom, aperture := l.map (·.1)
        apertureFlushed := packBits (l.map (·.2)) }))

/-! ### The life clock (R583, R584) -/

/-- RTC_TICK (R583). -/
def execRtcTick (t : Nat) (s : State) : Answer :=
  let s := s.tick t
  if s.clk.rtcFault then .next s
  else .next (s.onLed (fun l => { l with life64 := l.life64 + 1953125, tickAt := s.now }))

/-- LIFE_CLOCK_PERSIST (R584). Log entry 168. -/
def execLifeClockPersist (t : Nat) (s : State) : Answer :=
  let s := s.tick t
  if s.led.lifePersist + 3600000000000 ≤ s.life then .next (s.onLed (fun l => { l with lifePersist := s.life, cleanPersist := false }))
  else .next s

/-! ### The window region -/

def State.regionLedger (s : State) : List Octet :=
  let l := s.led
  let st := match l.state with | .opened => 0 | .reserve => 1 | .sealed => 2
  let ones : Nat := 2 ^ 64 - 1
  let crit := (l.buf.filter (fun r => r.sev == 4 && !r.summary)).length
  le 4 (st + 4 * packBits [l.flushing, l.cnt != [], l.nevtLow, l.powerFlush, l.held != []]) ++ le 4 0 ++ le 8 l.nextSeq ++
  le 8 ((l.headSeq.getD ones : Nat)) ++ le 8 s.life ++ le 8 s.site ++ le 4 l.ordUsed ++ le 4 l.resUsed ++ le 2 l.buf.length ++
  le 2 crit ++ le 2 s.ledL ++ le 2 l.bufPeak ++ le 4 l.flushes ++ le 4 l.voids ++ le 4 l.folds ++ le 4 l.critLost ++
  le 4 l.fabSkipped ++ le 4 l.nevtCode ++ le 8 l.readFrom ++ le 8 ((l.apertureFirst.getD ones : Nat)) ++
  [l.aperture.length, l.apertureFlushed] ++ zeros 30 ++
  (List.range 8).flatMap (fun k => match l.aperture[k]? with | some r => recBytes r | none => zeros 64) ++
  (List.range 256).flatMap (fun c => le 4 (((l.cnt.find? (·.code == c)).map (·.count)).getD 0 : Nat)) ++
  (List.range 256).flatMap (fun c => le 4 (countOf l.notRecorded c)) ++
  (List.range 256).flatMap (fun c => le 4 (countOf l.raised c))

end Sys2Proof.Machine
end

