-- ==== Sys2Proof/Machine/Purse.lean ====
section
/-! DEFINITION. The Purse (chapter 14): the grant, power loss, tiers, sensor supply, hold-up reserve, buses, Sprint and the
thermal limits (R543 to R568, R722). -/

namespace Sys2Proof.Machine

def State.onPurse (f : Purse → Purse) (s : State) : State := { s with purse := f s.purse }

/-- Edge-clock cycles of µs. -/
def usCycles (v : Nat) : Nat := 400 * v

/-! ### The grant (R543 to R546) -/

/-- What a port grants (R544). -/
def PdPort.grant (p : PdPort) : Nat :=
  if !p.powered then 0 else if p.cls = 15 then 52000 else if p.cls = 14 then 20000 else 0

/-- G, the greater of the ports' grants; at power loss and with the power link failed 0 (R547). -/
def State.grantNow (s : State) : Nat :=
  if s.purse.lost || s.purse.linkFailed then 0 else (s.purse.pd.map (·.grant)).foldl max 0

/-- PD_CLASS (R545): a port's class or its powered state changes; the new grant takes effect at the next boundary. A port
that loses its PSE advertises PURSE.class_req again (R543). -/
def execPdClass (t port cls : Nat) (powered : Bool) (s : State) : Answer :=
  let s := s.tick t
  let p := nth s.purse.pd port
  if 2 ≤ port ∨ (p.cls = cls ∧ p.powered = powered) then .next s
  else
    let off := p.powered && !powered
    let s := s.onPurse (fun x => { x with
      pd := x.pd.modify port (fun p => { p with
        cls := cls, powered := powered, fellBack := p.fellBack && !off, advAt := if off then s.now else p.advAt }) })
    let g := (s.purse.pd.map (·.grant)).foldl max 0
    .next (s.raise 0xE0 (le 1 port ++ le 1 (if powered then cls else 0) ++ le 4 g))

/-- CLASS_FALLBACK (R543): a port that advertised Class 15 and is not powered within 1 s advertises Class 14. -/
def execClassFallback (t port : Nat) (s : State) : Answer :=
  let s := s.tick t
  let p := nth s.purse.pd port
  if port < 2 ∧ s.flag PURSE.flags 0 ∧ s.nat PURSE.class_req = 15 ∧ !p.powered ∧ !p.fellBack ∧ p.advAt + 400000000 ≤ s.now then
    .next (s.onPurse (fun x => { x with pd := x.pd.modify port (fun p => { p with fellBack := true, advAt := s.now }) }))
  else .next s

/-- The class that a port advertises. -/
def State.advertised (s : State) (port : Nat) : Nat :=
  if (nth s.purse.pd port).fellBack then 14 else s.nat PURSE.class_req

/-- Rail conversion of a sensor power: ceil(11 x / 10). -/
def elevenTenths (x : Nat) : Nat := (11 * x + 9) / 10

/-- R546. -/
def State.t0Now (s : State) : Bool :=
  decide (s.nat PURSE.b0 + s.nat PURSE.b_chg + elevenTenths (s.nat PURSE.sensor_base) ≤ s.purse.grant) && decide (16 ≤ s.purse.pmax)

/-! ### Float and tiers (R548 to R553) -/

/-- Mean of the last 16 Stages of the sensor rails. -/
def Purse.sMeas (p : Purse) : Nat := p.sensor.sum / max 1 p.sensor.length

/-- The float of R548 with or without the Sprint budget. Log entry 156. -/
def State.floatOf (s : State) (sprint : Bool) : Int :=
  let cost := elevenTenths (max (s.nat PURSE.sensor_base) s.purse.sMeas)
  (s.purse.grant : Int) -
    (s.nat PURSE.b0 + s.nat PURSE.b_chg + s.nat PURSE.b1 + cost + (if sprint then s.nat PURSE.b_sprint else 0) : Nat)

def State.tierEv (tier : Nat) (funded : Bool) (cause : Nat) (s : State) : State :=
  (s.onPurse (fun p => { p with sheds := inc32 p.sheds })).raise 0xE2
    (le 1 tier ++ le 1 (b2n funded) ++ le 1 cause ++ le 4 (sat s.purse.float 32))

/-- Why T1 is shed, if it is (R550). -/
def State.t1Cause (s : State) : Option Nat :=
  if s.purse.lost || s.purse.linkFailed then some 2 else if 2 ≤ s.purse.level then some 1 else none

/-- Why T2 is shed, if it is. The Sprint budget, itself T2 work, does not count here (R549). Log entry 156. -/
def State.t2Cause (s : State) : Option Nat :=
  if s.purse.lost || s.purse.linkFailed then some 2
  else if 1 ≤ s.purse.level then some 1
  else if s.purse.exceeded then some 3
  else if s.floatOf false < 0 then some 0
  else none

/-- The tiers follow their conditions; each change is told, but for the first funding after a Waking. Log entry 157. -/
def State.tiers (s : State) : State :=
  let c1 := s.t1Cause
  let c2 := s.t2Cause
  let p := s.purse
  let first := s.stage.boundaries == 0
  let s := s.onPurse (fun p => { p with t1 := c1.isNone, t2 := c2.isNone, shed := c2.getD p.shed })
  let s := if p.t1 ≠ c1.isNone ∧ !first then s.tierEv 1 c1.isNone (c1.getD 0) else s
  if p.t2 ≠ c2.isNone ∧ !first then s.tierEv 2 c2.isNone (c2.getD p.shed) else s

/-- Bulk export is funded (R549). Log entry 156. -/
def State.bulk (s : State) : Bool := s.purse.t2 && decide (0 ≤ s.purse.float)

/-- S_allow (R554). -/
def State.sAllowNow (s : State) : Nat :=
  if !s.purse.t2 then s.nat PURSE.sensor_base
  else
    let rest := 10 * (s.purse.grant - s.nat PURSE.b0 - s.nat PURSE.b_chg - s.nat PURSE.b1) / 11
    min (min (s.nat PURSE.sensor_max) 12000) rest

/-- GRANT_EXCEEDED (R553): the draw has exceeded G for 1,000 Stages. -/
def execGrantExceeded (t : Nat) (s : State) : Answer :=
  let s := s.tick t
  if 1000 ≤ s.purse.overRun ∧ !s.purse.exceeded then
    let s := s.onPurse (fun p => { p with exceeded := true })
    .next (s.tiers.raise 0xEA (le 4 s.purse.grant ++ le 4 s.purse.draw))
  else .next s

/-! ### Sensor rails (R722) -/

def State.railEv (rail measured : Nat) (s : State) : State :=
  s.raise 0xE4 (le 1 rail ++ le 2 (satU s.purse.sAllow 16) ++ le 2 (satU measured 16))

/-- SENSOR_SUPPLY (R722): the rails' outputs are evaluated against S_allow. A rail turned off a second ago is tried again.
Log entry 162. -/
def execSensorSupply (t mw5 mw12 : Nat) (s : State) : Answer :=
  let s := s.tick t
  let p := s.purse
  let a := p.sAllow
  let off := p.railOff.map (fun (o : Option Nat) => match o with | some u => if u + 400000000 ≤ s.now then none else some u | none => none)
  let fold : List (Option Nat) :=
    if a ≤ mw5 then [some a, some 0]
    else if a ≤ mw5 + mw12 then [p.foldBack.getD 0 none, some (a - mw5)]
    else p.foldBack
  let was := p.foldBack.any (·.isSome)
  let low := decide ((mw5 + mw12) * 20 < 19 * a)
  let since : Option Nat := if fold.any (·.isSome) && low then some (p.foldSince.getD s.now) else none
  let ovr : Bool := match since with | some u => decide (u + msCycles 10 ≤ s.now) | none => false
  let lim := [decide (6000 ≤ mw5), decide (12000 ≤ mw12)]
  let s := s.onPurse (fun p => { p with
    railOff := off, foldBack := if ovr then [none, none] else fold, foldSince := if ovr then none else since, limited := lim })
  let s := if a ≤ mw5 then (if p.foldBack.getD 0 none = none then s.railEv 0 (mw5 + mw12) else s)
    else if a ≤ mw5 + mw12 ∧ !was then s.railEv 1 (mw5 + mw12) else s
  let one (r : Nat) (s : State) : State :=
    if lim.getD r false && !p.limited.getD r false then s.railEv r (mw5 + mw12) else s
  .next (one 1 (one 0 s))

/-- RAIL_LOW (R722): a rail has stayed below 80 % of nominal for 10 ms and turns off. -/
def execRailLow (t rail : Nat) (s : State) : Answer :=
  let s := s.tick t
  if 2 ≤ rail ∨ (s.purse.railOff.getD rail none).isSome then .next s
  else
    let s := s.onPurse (fun p => { p with railOff := p.railOff.set rail (some s.now) })
    .next (s.railEv rail s.purse.sMeas)

/-! ### Hold-up and reserve (R555 to R557) -/

/-- The bank's capacitance in use: PURSE.c_nom until the first measurement. -/
def State.bankCap (s : State) : Nat := if s.purse.cap = 0 then s.nat PURSE.c_nom else s.purse.cap

/-- e_hold for a HOLD voltage; with the power link failed the bank counts as 0 (R547). -/
def State.eHoldOf (s : State) (v : Nat) : Nat :=
  let p := s.purse
  let c := s.bankCap
  let vf := s.nat PURSE.v_floor + ceilDiv p.esr 6
  if p.linkFailed ∨ v ≤ vf then 0 else c * (v * v - vf * vf) / 2000000

/-- pmax (R555). -/
def State.pmaxOf (s : State) (e : Nat) : Nat :=
  min 1024 ((e * 100 / s.nat PURSE.margin - s.nat PURSE.e_stop) / s.nat PURSE.e_page)

/-- reserve(p) (R555). -/
def State.reserve (s : State) (p : Nat) : Nat :=
  ceilDiv ((p * s.nat PURSE.e_page + s.nat PURSE.e_stop) * s.nat PURSE.margin) 100

/-- Pages of records waiting. -/
def State.pagesUsed (s : State) : Nat := ceilDiv s.led.buf.length 4

/-- The hold-up energy and the permitted fill follow the HOLD voltage. -/
def State.holdUp (s : State) : State :=
  let e := s.eHoldOf s.purse.hold
  let m := s.pmaxOf e
  let was := s.purse.short
  let s := s.onPurse (fun p => { p with eHold := e, pmax := m, short := decide (m < 16) })
  if m < 16 ∧ !was then s.raise 0xE3 (le 2 m ++ le 4 (satU e 32) ++ le 4 (satU (s.reserve 16) 32)) else s

/-! ### Buses (R558, R559) -/

/-- The energies of a bus from its voltage, and its runs. -/
def State.busBoundary (b : Nat) (s : State) : State :=
  let i := s.nat BUS.ain b
  if i = 0 then s
  else
    let x := nth s.ain (i - 1)
    let u := (rndShift (max x.y 0 * s.nat ANALOG.full_scale (i - 1) * 1000) 23).toNat
    let lo := 1000 * s.nat BUS.v_lo b
    let hi := 1000 * s.nat BUS.v_hi b
    let c := s.nat BUS.c_bus b
    s.onBus b (fun y =>
      let y : Bus := { y with
        u := u, e := if x.sat then 0 else c * (u * u - lo * lo) / 2000000000, h := if x.sat then 0 else c * (hi * hi - u * u) / 2000000000
        lowRun := if u < lo then satU (y.lowRun + 1) 16 else 0, highRun := if hi < u then satU (y.highRun + 1) 16 else 0
        low := y.low && decide (u < lo), high := y.high && decide (hi < u), susp := y.susp && x.sat }
      y.advance (s.sliceAt s.site))

/-- BUS_ENERGY (R558): the bus decisions. -/
def execBusEnergy (t bus : Nat) (s : State) : Answer :=
  let s := s.tick t
  let i := s.nat BUS.ain bus
  let y := s.bus bus
  let ev (cause : Nat) (s : State) : State := s.raise 0xE8 (le 1 bus ++ le 1 cause ++ le 4 (satU y.u 32))
  if 4 ≤ bus ∨ i = 0 then .next s
  else if (nth s.ain (i - 1)).sat ∧ !y.susp then .next (ev 2 (s.onBus bus (fun y => { y with susp := true, e := 0, h := 0 })))
  else if s.nat BUS.low_n bus ≤ y.lowRun ∧ !y.low then
    let s := ev 0 (s.onBus bus (fun y => { y with low := true }))
    .next (((List.range 12).filter (fun a => bit (s.nat BUS.axes bus) a)).foldl (fun s a => s.orderSs1 a 0xE8) s)
  else if s.nat BUS.low_n bus ≤ y.highRun ∧ !y.high then .next (ev 1 (s.onBus bus (fun y => { y with high := true })))
  else .next s

/-- ENERGY_OFFER (R559). Log entry 163. -/
def State.takeEnergy (share unit slice0 : Nat) (inc : List (Int × Int)) (s : State) : State :=
  if unit = s.unitId then s
  else eachIx 4 (fun b s =>
    if s.nat BUS.ain b = 0 ∨ !s.flag BUS.flags 1 b ∨ s.nat BUS.share_id b ≠ share then s
    else s.onBus b (fun x => inc.zipIdx.foldl (fun (x : Bus) i => x.add ((slice0 : Int) + i.2, i.1.1, i.1.2)) x)) s

def execEnergyOffer (t share unit slice0 : Nat) (inc : List (Int × Int)) (s : State) : Answer :=
  .next ((s.tick t).takeEnergy share unit slice0 inc)

/-! ### Sprint (R561 to R566) -/

/-- Cycles of the allowance left, the rest of the present debit with it. Log entry 161. -/
def Purse.left (p : Purse) : Nat := p.allow + p.debit

def Purse.leftS (p : Purse) : Nat := satU (p.left / 400000000) 32

/-- A further debit of 2^32 cycles is taken from the persistent allowance (R564). Log entry 161. -/
def Purse.takeDebit (p : Purse) : Purse :=
  if p.debit < 2 ^ 32 then { p with allow := p.allow - min p.allow (2 ^ 32), debit := p.debit + min p.allow (2 ^ 32) } else p

/-- w16 of R564 at a junction temperature. -/
def weight16 (tj : Int) : Nat :=
  let d := tj - 2000
  if d ≤ 0 then 65536 else (65536 + d.toNat % 160 * 410) * 2 ^ (d.toNat / 160)

/-- Sprint is asked for at this boundary (R561). -/
def State.sprintWanted (s : State) : Bool :=
  s.flag PURSE.flags 1 &&
  (decide (s.nat PURSE.sprint_occ ≤ s.disp.queue.length) || s.stw.verifying.isSome || s.stw.attest.isSome)

def sprintMode (m : Nat) : Bool := 1 ≤ m && m ≤ 4

/-- t_pred (R565). -/
def State.tPredOf (s : State) : Int :=
  let p := s.purse
  let dP : Int := if p.sprint then 0 else s.nat PURSE.b_sprint
  p.tj + max p.slope 0 * s.nat PURSE.tau / 1000 + rndDiv (s.nat PURSE.theta * dP * 16) 1000000

/-- The end causes that hold, 1 to 4. Log entry 160. -/
def State.sprintFails (s : State) : List Nat :=
  let p := s.purse
  (if p.float < 0 then [1] else []) ++ (if 2320 ≤ p.tPred then [2] else []) ++ (if p.left = 0 then [3] else []) ++
  (if !sprintMode s.mode.mode ∨ !p.t2 then [4] else [])

/-- Sprint ends at this boundary: the clock falls, and the supply is lowered after it, at the next boundary (R34, R563). -/
def State.sprintEnd (cause : Nat) (s : State) : State :=
  let n := s.purse.sprintStages
  let s := { s.onPurse (fun p => { p with sprint := false, sprintStages := 0 }) with
    clk := { s.clk with stage500 := false } }
  let s := s.onPurse (fun p => { p with tPred := s.tPredOf })
  s.raise 0xE6 (le 1 cause ++ le 4 n ++ le 4 s.purse.leftS)

/-- The Stage that begins is spent in Sprint and charged (R564). Log entry 160. -/
def State.sprintCharge (s : State) : State :=
  let c := ceilDiv (s.stage.len * weight16 s.purse.tj) 65536
  s.onPurse (fun p =>
    let p := p.takeDebit
    { p with debit := p.debit - c, sprintStages := satU (p.sprintStages + 1) 32, sprintTime := p.sprintTime + s.stage.len
             charged := p.charged + c })

/-- Sprint at a boundary: what failed in the Stage before ends it; otherwise it goes on, or is granted. Log entry 160. -/
def State.sprintBoundary (s : State) : State :=
  let s := s.onPurse (fun p =>
    if s.sprintWanted then { p with sprintReq := true, sprintAbsent := 0 } else { p with sprintAbsent := satU (p.sprintAbsent + 1) 16 })
  if s.purse.sprint then
    match s.sprintFails with
    | c :: _ => s.sprintEnd c
    | [] => if s.purse.sprintReq then s.sprintCharge else s.sprintEnd 0
  else { s with clk := { s.clk with supplyRaised := s.clk.stage500 } }

/-- A grant of Sprint, after the float of the boundary is formed (R562, R563). Log entry 160. -/
def State.sprintGrant (s : State) : State :=
  let p := s.purse
  if p.sprint ∨ !p.sprintReq ∨ !sprintMode s.mode.mode ∨ !p.t2 ∨ s.floatOf true < 0 ∨ 2320 ≤ p.tPred ∨ p.left = 0 then s
  else
    let f := s.floatOf true
    let s := { s.onPurse (fun p => { p.takeDebit with
        sprint := true, sprintAt := s.now, sprints := inc32 p.sprints, sprintStages := 0, float := f }) with
      clk := { s.clk with supplyRaised := true } }
    let s := s.onPurse (fun p => { p with tPred := s.tPredOf })
    (s.raise 0xE5 (le 4 (sat f 32) ++ le 2 (sat p.tPred 16) ++ le 4 s.purse.leftS)).sprintCharge

/-- SPRINT_CLOCK_RISE (R33, R34, R563): the first boundary at least 100 µs after the grant. -/
def execSprintClockRise (t : Nat) (s : State) : Answer :=
  let s := s.tick t
  if s.atBoundary ∧ s.purse.sprint ∧ s.clk.supplyRaised ∧ !s.clk.stage500 ∧ s.purse.sprintAt + usCycles 100 ≤ s.now then
    .next { s with clk := { s.clk with stage500 := true } }
  else .next s

/-- SPRINT_REQUEST_LAPSE (R561): the request has been absent for PURSE.sprint_hold Stages. -/
def execSprintRequestLapse (t : Nat) (s : State) : Answer :=
  let s := s.tick t
  if s.purse.sprintReq ∧ s.nat PURSE.sprint_hold ≤ s.purse.sprintAbsent then .next (s.onPurse (fun p => { p with sprintReq := false }))
  else .next s

/-- SPRINT_HORIZON (R566). -/
def State.horizon (s : State) : Nat :=
  let p := s.purse
  let a := p.left * 65536 / (weight16 p.tj * 400000000)
  let th : Nat :=
    if p.tPred ≤ 2320 then 0xFFFFFFFF
    else if 2320 ≤ p.tj then 0
    else (s.nat PURSE.tau * (2320 - p.tj) / ((p.tPred - p.tj) * 1000)).toNat
  satU (min a th) 32

/-! ### Thermal limits (R565, R567, R568) -/

/-- Thresholds of the levels 1 to 3, in 1/16 K. -/
def thermalLimit (level : Nat) : Int := 2400 + 80 * ((level : Int) - 1)

/-- The highest level whose threshold is reached. -/
def levelAt (tj : Int) : Nat := if 2560 ≤ tj then 3 else if 2480 ≤ tj then 2 else if 2400 ≤ tj then 1 else 0

def State.thermalEv (level cause die : Nat) (s : State) : State :=
  s.raise 0xE7 (le 1 level ++ le 1 cause ++ le 1 die ++ le 2 s.purse.tj)

/-- The die with the greatest temperature. -/
def Purse.hottest (p : Purse) : Nat :=
  if p.dieT 1 ≤ p.dieT 0 then (if p.dieT 2 ≤ p.dieT 0 then 0 else 2) else if p.dieT 2 ≤ p.dieT 1 then 1 else 2

/-- Tj follows the dies' temperatures; a threshold reached acts at once. Log entries 158, 159. -/
def State.thermal (s : State) : State :=
  let p := s.purse
  let tj := p.dieT p.hottest
  let cool := (List.range 3).map (fun k =>
    if tj < thermalLimit (k + 1) - 80 then some ((p.coolSince.getD k none).getD s.now) else none)
  let up := levelAt tj
  let s := s.onPurse (fun p => { p with tj := tj, coolSince := cool, level := max p.level up })
  if p.level < up then (s.thermalEv up 0 p.hottest).tiers else s

/-- THERMAL_SAMPLE (R565, R567): the two sensors of each die are read. A second after Waking the slope is that of the last
second; before, the specification gives none and it is free. Log entry 158. -/
def execThermalSample (t : Nat) (temps : List (Int × Int)) (s : State) : Answer :=
  let s := s.tick t
  let apart (k : Nat) : Bool := decide (128 < (((nth temps k).1 - (nth temps k).2).natAbs))
  let s := s.onPurse (fun p => { p with
    dieTemps := (List.range 3).map (fun k => nth temps k)
    disSince := (List.range 3).map (fun k => if apart k then some ((p.disSince.getD k none).getD s.now) else none)
    plus8 := (List.range 3).map (fun k => p.plus8.getD k false && apart k) })
  let s := s.thermal
  let old := s.purse.temps.drop 999
  let (sl, s) : Int × State := match old with
    | x :: _ => (sat (s.purse.tj - x) 16, s)
    | [] => let (w, s) := s.free; (wrapS w.toNat 16, s)
  let s := s.onPurse (fun p => { p with temps := (p.tj :: p.temps).take 1001, slope := sl })
  .next (s.onPurse (fun p => { p with tPred := s.tPredOf }))

/-- THERMAL_COOL (R568): Tj has stayed 5 K below a threshold for PURSE.cool ms; its action is undone. Log entry 159. -/
def execThermalCool (t : Nat) (s : State) : Answer :=
  let s := s.tick t
  let p := s.purse
  let done (k : Nat) : Bool := match p.coolSince.getD (k - 1) none with
    | some u => decide (u + msCycles (s.nat PURSE.cool) ≤ s.now)
    | none => false
  let n := if p.level = 3 ∧ done 3 then (if done 2 then (if done 1 then 0 else 1) else 2)
    else if p.level = 2 ∧ done 2 then (if done 1 then 0 else 1)
    else if p.level = 1 ∧ done 1 then 0 else p.level
  if n = p.level then .next s
  else .next ((s.onPurse (fun p => { p with level := n })).thermalEv 0 0 p.hottest)

/-- SENSOR_DISAGREEMENT (R567): the two sensors of a die have differed by more than 8 K for 1 s. -/
def execSensorDisagreement (t die : Nat) (s : State) : Answer :=
  let s := s.tick t
  match s.purse.disSince.getD die none with
  | some u =>
    if u + 400000000 ≤ s.now ∧ !s.purse.plus8.getD die false then
      .next ((s.onPurse (fun p => { p with plus8 := p.plus8.set die true })).thermal.thermalEv s.purse.level 1 die)
    else .next s
  | none => .next s

/-! ### Power loss (R547) -/

/-- POWER_LOSS (R547): the input has stayed below HOLD for PURSE.loss_n Stages. -/
def execPowerLoss (t : Nat) (s : State) : Answer :=
  let s := s.tick t
  if s.purse.lost ∨ s.purse.lossRun < s.nat PURSE.loss_n then .next s
  else
    let s := (s.onPurse (fun p => { p with lost := true, losses := inc32 p.losses, grant := 0 })).tiers
    let s := s.raise 0xE1 (le 1 1 ++ le 2 (satU s.purse.hold 16) ++ le 2 s.pagesUsed)
    let s := eachIx 12 (fun a s => if s.defined a then s.orderSto a 0xE1 else s) s
    .next (s.haltCause 5).powerFlushBegin

/-- POWER_RETURN (R547): the input returns before the rails turn off. -/
def execPowerReturn (t : Nat) (s : State) : Answer :=
  let s := s.tick t
  if s.purse.lost ∧ s.purse.lossRun = 0 ∧ !s.purse.railsOff then
    .next ((s.onPurse (fun p => { p with lost := false })).raise 0xE1
      (le 1 0 ++ le 2 (satU s.purse.hold 16) ++ le 2 s.pagesUsed))
  else .next s

/-! ### The boundary -/

/-- The Purse at a boundary notice (R548 to R565). Log entry 155. -/
def State.purseBoundary (io : NoticeInputs) (s : State) : State :=
  let s := s.onPurse (fun p => { p with
    hold := io.hold, draw := io.draw, sensor := (io.sensor :: p.sensor).take 16
    lossRun := if io.pdIn < io.hold then satU (p.lossRun + 1) 8 else 0 })
  let s := s.sprintBoundary
  let s := (s.onPurse (fun p => { p with grant := s.grantNow })).holdUp
  let s := s.onPurse (fun p =>
    let under := if 10 * io.draw < 9 * p.grant then satU (p.underRun + 1) 16 else 0
    { p with
      float := s.floatOf p.sprint, t0 := s.t0Now, overRun := if p.grant < io.draw then satU (p.overRun + 1) 16 else 0
      underRun := under, exceeded := p.exceeded && decide (under < 1000) })
  let s := s.tiers
  let s := s.onPurse (fun p => { p with sAllow := s.sAllowNow })
  let s := eachIx 4 State.busBoundary s
  s.sprintGrant

/-- The hold-up charger runs while the input is not below HOLD, HOLD is below PURSE.v_full and no hold-up test runs (R614, R718,
R719). -/
def State.chargerNow (s : State) : State :=
  s.onPins (fun x => { x with
    charger := s.purse.lossRun == 0 && decide (s.purse.hold < s.nat PURSE.v_full) && s.stw.testFrom.isNone })

/-! ### The window region -/

/-- The accounts block, 32 bytes. -/
def State.purseAccounts (s : State) : List Octet :=
  let p := s.purse
  le 4 p.grant ++ le 4 p.draw ++ le 4 (sat p.float 32) ++ le 2 (satU p.sAllow 16) ++ le 2 (satU p.sMeas 16) ++ le 4 (satU p.eHold 32) ++
  le 4 (satU (s.reserve s.pagesUsed) 32) ++ le 2 p.pmax ++ [packBits [p.t1, p.t2, p.sprint, p.lost], p.level] ++ le 4 p.leftS

def State.regionPurse (s : State) : List Octet :=
  let p := s.purse
  let c := s.bankCap
  (s.purseAccounts ++ le 2 p.tj ++ le 2 (sat p.tPred 16) ++ (List.range 3).flatMap (fun k => le 2 (p.dieT k)) ++
    le 2 p.slope ++ le 2 c ++ le 2 (satU p.esr 16) ++ le 2 (satU p.hold 16) ++ zeros 2 ++ le 4 s.horizon ++ le 8 p.sprintTime ++
    le 8 p.left ++ le 4 p.sprints ++ le 4 p.sheds ++ le 4 p.losses ++ zeros (0x100 - 0x54)) ++
  (List.range 4).flatMap (fun b =>
    let x := s.bus b
    let held := (List.range 4).any (fun c => (s.car c).paired.isSome && (match s.carAxis c with | some a => s.busOf a == some b | none => false))
    le 4 (packBits [x.low, x.high, held, x.susp]) ++ le 4 (satU x.u 32) ++ le 4 (satU x.e 32) ++ le 4 (satU x.h 32) ++ le 4 (satU x.m.sum.toNat 32) ++
    le 4 (satU x.r.sum.toNat 32) ++ le 4 x.paired ++ le 4 x.holds ++ le 4 x.holdMs ++ zeros 28)

end Sys2Proof.Machine
end

