-- ==== Sys2Proof/Machine/SafeCon.lean ====
section
/-! DEFINITION. Safety connections (R493 to R495, R528) and external drives (R496 to R499). -/

namespace Sys2Proof.Machine

def State.conOf (s : State) (k : Nat) : SafeCon := nth s.cons k

def State.onCon (k : Nat) (f : SafeCon → SafeCon) (s : State) : State := { s with cons := s.cons.modify k f }

def State.xdOf (s : State) (a : Nat) : Xd := nth s.xd a

def State.onXd (a : Nat) (f : Xd → Xd) (s : State) : State := { s with xd := s.xd.modify a f }

/-- CRC-32C with its seed loaded as written (R493). -/
def crc32c (bs : List Octet) (seed : Nat) : Nat := (bs.foldl (crcByte 0x82F63B78) seed) ^^^ 0xFFFFFFFF

/-- Bytes 0x00 to 0x0D of a SAFETY_PDU. -/
def pduBytes (conn scount ts flags data : Nat) : List Octet := be 2 conn ++ be 4 scount ++ be 4 ts ++ [flags, 0] ++ be 2 data

/-- Target `i` of a result vector. -/
def SafeVec.target (v : SafeVec) (i : Nat) : Bool :=
  if i = 0 then v.permit
  else if i < 0x0D then flagAt v.torque (i - 0x01)
  else if 0x11 ≤ i ∧ i < 0x1D then flagAt v.brake (i - 0x11)
  else if 0x21 ≤ i ∧ i < 0x2D then flagAt v.slsReq (i - 0x21)
  else if 0x30 ≤ i ∧ i < 0x46 then flagAt v.out (i - 0x30)
  else if 0x50 ≤ i ∧ i < 0x60 then flagAt v.m (i - 0x50)
  else false

/-- The targets 0x00 to 0x5F of a result vector as a number, bit t for target t. -/
def SafeVec.mask (v : SafeVec) : Nat := packBits ((List.range 0x60).map v.target)

/-! ### Produced connections (R494, R528) -/

/-- DATA of a produced connection from the result vector of one channel; in a pair also as the partner's RESULT allows. -/
def State.conData (s : State) (k : Nat) (v : SafeVec) : Nat :=
  packBits ((List.range (s.nat SAFECON.nbits k)).map (fun i =>
    let t := s.nat SAFECON.tgt k i
    v.target t && (match s.inPair, s.partnerResult with | true, some r => bit r t | _, _ => true)))

/-- A site time as µs, low 32 bits. -/
def usStamp (site : Int) : Nat := wrapU (site / 1000) 32

/-- Produced connections form their PDUs. Channel A forms the PDU and channel B its CRC. Log entry 142. -/
def State.conProduce (k : Nat) (s : State) : State :=
  if s.nat SAFECON.dir k ≠ 1 ∨ s.stage.epoch % s.nat SAFECON.period k ≠ 0 then s
  else
    let n := if s.inPair then (s.stage.epoch - s.stage.offsetD) / s.nat SAFECON.period k % 2 ^ 32
      else ((s.conOf k).count + 1) % 2 ^ 32
    let conn := s.nat SAFECON.conn_id k
    let ts := usStamp (s.siteAt s.stage.openedAt)
    let fl := b2n s.time.synced
    let da := s.conData k (s.effVec false)
    let x := crc32c (pduBytes conn n ts fl (s.conData k (s.effVec true))) (s.nat SAFECON.seed k)
    let s := s.onCon k (fun c => { c with st := 2, count := n, data := da, lastT := s.now })
    s.sendPair { id := s.nat SAFECON.peer k } (.safetyPdu conn n ts fl da x) s.stage.epoch

/-! ### Consumed connections (R495) -/

def State.conEv (k cause scount : Nat) (s : State) : State := s.raise 0xD4 (le 1 k ++ le 1 cause ++ le 4 scount)

/-- The first check that a PDU fails: 2 CRC, 3 counter, 4 age; 0 for a valid PDU. Log entry 143. -/
def State.pduFails (s : State) (k boot scount ts flags data x : Nat) : Nat :=
  let c := s.conOf k
  let d := wrapU ((scount : Int) - c.count) 32
  let age := wrapU ((usStamp s.site : Int) - ts) 32
  if x ≠ crc32c (pduBytes (s.nat SAFECON.conn_id k) scount ts flags data) (s.nat SAFECON.seed k) then 2
  else if c.peerBoot = some boot ∧ !(1 ≤ d && d < 2 ^ 31) then 3
  else if bit flags 0 ∧ s.time.synced ∧ s.nat SAFECON.max_age k < age then 4
  else 0

/-- A PDU that reaches the unit. Log entry 143. -/
def State.takePdu (src boot conn scount ts flags data x : Nat) (s : State) : State :=
  match (List.range 16).find? (fun k =>
      s.nat SAFECON.dir k == 2 && s.nat SAFECON.conn_id k == conn && s.nat SAFECON.peer k == src) with
  | none => s
  | some k =>
    let bad := s.pduFails k boot scount ts flags data x
    if bad ≠ 0 then (s.onCon k (fun c => { c with run := 0, faults := inc32 c.faults })).conEv k bad scount
    else
      let safe := (s.conOf k).st == 3
      let use_ := !safe || (s.conOf k).run != 0
      let s := s.onCon k (fun c => { c with
        count := scount, first := false, peerBoot := some boot, lastB := s.stage.boundaries, lastT := s.now
        run := if safe && !use_ then 1 else 0, st := if use_ then 2 else 3, cause := if use_ then 0 else c.cause
        next := if use_ then some (data % 2 ^ s.nat SAFECON.nbits k) else c.next })
      if safe && use_ then s.conEv k 0 scount else s

/-- SAFETY_PDU (R495). -/
def execSafetyPdu (t src boot conn scount ts flags data crc : Nat) (s : State) : Answer :=
  .next ((s.tick t).takePdu src boot conn scount ts flags data crc)

/-- SAFETY_WATCHDOG (R495): at a boundary, no valid PDU within SAFECON.watchdog Stages of the last. -/
def execSafetyWatchdog (t con : Nat) (s : State) : Answer :=
  let s := s.tick t
  let c := s.conOf con
  if s.atBoundary ∧ con < 16 ∧ s.nat SAFECON.dir con = 2 ∧ c.st = 2 ∧ c.lastB + s.nat SAFECON.watchdog con ≤ s.stage.boundaries then
    .next ((s.onCon con (fun c => { c with
      st := 3, cause := 1, data := 0, next := none, run := 0, faults := inc32 c.faults })).conEv con 1 c.count)
  else .next s

/-- At a boundary the DATA of valid PDUs comes into use. Log entry 142. -/
def State.conBoundary (s : State) : State :=
  { s with cons := s.cons.map (fun c => match c.next with | some d => { c with data := d, next := none } | none => c) }

/-! ### External drives (R496 to R499) -/

/-- The axis has a Cysin drive. -/
def State.hasXd (s : State) (a : Nat) : Bool := s.kind a == 4 && s.nat XD.unit a != 0

/-- XD_SETPOINT at the boundary that opens a Stage n with n + 1 a multiple of XD.div (R496). Log entry 141. -/
def State.xdSend (a : Nat) (s : State) : State :=
  let n := s.stage.epoch + 1
  if !s.hasXd a ∨ n % s.nat XD.div a ≠ 0 then s
  else
    let x := nth s.axe a
    let ia := sat (rndShift (x.aRef * s.int AXIS.kaff a) 32) 32
    s.sendPair { id := s.nat XD.unit a } (.xdSetpoint a x.pRef x.vFF x.aRef ia) n

/-- A status that reaches the unit waits for the Stages that it serves (R497). Log entry 144. -/
def State.takeXdStatus (src a state epoch : Nat) (p v iq : Int) (s : State) : State :=
  if 12 ≤ a ∨ !s.hasXd a ∨ s.nat XD.unit a ≠ src then s
  else s.onXd a (fun x =>
    let l := x.inbox.filter (fun y => y.1 != epoch)
    { x with inbox := l.drop (l.length - 15) ++ [(epoch, p, v, iq, state)] })

/-- XD_STATUS (R497). -/
def execXdStatus (t src axis state epoch : Nat) (p v iq : Int) (s : State) : Answer :=
  .next ((s.tick t).takeXdStatus src axis state epoch p v iq)

/-- At graph start the axis takes the status that serves its Stage, or extends the one before (R497, R498). Log entry 140. -/
def State.xdStage (a : Nat) (s : State) : State :=
  if !s.hasXd a then s
  else
    let n := s.stage.epoch
    let div := s.nat XD.div a
    let x := s.xdOf a
    let best := x.inbox.foldl (fun (b : Option (Nat × Int × Int × Int × Nat)) y =>
      if n < y.1 then b else match b with | none => some y | some z => if z.1 < y.1 then some y else b) none
    let fresh : Bool := match best with | some y => !x.have_ || decide (x.epoch < y.1) | none => false
    let x1 : Xd := match best with
      | some y => if fresh then
          { x with have_ := true, epoch := y.1, pos := y.2.1, speed := y.2.2.1, iq := y.2.2.2.1, state := y.2.2.2.2 } else x
      | none => x
    let served := decide (n < x1.epoch + div)
    let due := x1.have_ && !served && (n - x1.epoch) % div == 0
    let run := if fresh && served then 0 else if due then satU (x1.missRun + 1) 8 else x1.missRun
    let x2 : Xd := { x1 with
      inbox := x.inbox.filter (fun y => n < y.1), missRun := run, misses := if due then inc32 x1.misses else x1.misses
      valid := x1.have_ && decide (run < s.nat XD.miss_n a) }
    let s := s.onXd a (fun _ => x2)
    let s := if due && run == s.nat XD.miss_n a then
        (s.raise 0xD6 (le 1 a ++ le 1 run ++ le 6 n)).axisFault a 2 0xFF else s
    if !x2.have_ ∨ (s.fbMotor a).isSome then s
    else
      let p := sat (x2.pos + ((n - x2.epoch : Nat) : Int) * floorShift x2.speed 16) 64
      { s.onBook a (fun b => { b with pfPrev := b.pf, pf := p, vf := x2.speed }) with
        axAt := s.axAt.modify a (fun x => (x.1, x.2.1, { x.2.2 with p := p, valid := x2.valid })) }

/-- The drive reports that torque is off: bit 0 of its consumed connection (R499). -/
def State.xdTorqueOff (s : State) (a : Nat) : Bool :=
  let k := s.nat XD.conn_in a
  k != 0 && (s.conOf (k - 1)).st == 2 && bit (s.conOf (k - 1)).data 0

/-- Since when TORQUE of the axis is 0 without its confirmation (R499). -/
def State.xdConfirm (a : Nat) (s : State) : State :=
  if !s.hasXd a ∨ s.nat XD.conn_in a = 0 then s
  else if s.torqueOn a ∨ s.xdTorqueOff a then s.onXd a (fun x => { x with offSince := none, unconfirmed := false })
  else s.onXd a (fun x => { x with offSince := some (x.offSince.getD s.stage.boundaries) })

/-- XD_CONFIRM_TIMEOUT (R499): torque-off has not been confirmed within XD.t_conf Stages. -/
def execXdConfirmTimeout (t axis : Nat) (s : State) : Answer :=
  let s := s.tick t
  match (s.xdOf axis).offSince with
  | some n =>
    if n + s.nat XD.t_conf axis ≤ s.stage.boundaries ∧ !(s.xdOf axis).unconfirmed then
      let k := s.nat XD.conn_in axis - 1
      .next (((s.onXd axis (fun x => { x with unconfirmed := true })).conEv k 5 (s.conOf k).count).haltCause 4)
    else .next s
  | none => .next s

end Sys2Proof.Machine
end

