-- ==== Sys2Proof/Machine/Survey.lean ====
section
/-! DEFINITION. Survey learn runs (chapter 08): their start, their steps, their results and the commit of a result (R131,
R337 to R355, R360, R361). -/

namespace Sys2Proof.Machine

/-! ### Runs and results -/

/-- The run of an axis. -/
def State.runOf (s : State) (a : Nat) : Option Learn := s.survey.runs.find? (·.axis == a)

def State.onRun (a : Nat) (f : Learn → Learn) (s : State) : State :=
  { s with survey := { s.survey with runs := s.survey.runs.map (fun r => if r.axis == a then f r else r) } }

def State.dropRun (a : Nat) (s : State) : State :=
  { s with survey := { s.survey with runs := s.survey.runs.filter (·.axis != a) } }

/-- EV_SURVEY_RESULT. Log entry 78. -/
def State.surveyResult (kind target outcome reason : Nat) (v : Int) (s : State) : State :=
  ({ s with survey := { s.survey with lastKind := kind, lastTarget := target, outcome := outcome, reason := reason } }).raise 0x6F
    (le 1 kind ++ le 1 target ++ le 1 outcome ++ le 1 reason ++ le 8 v)

/-- The cell of a field. -/
def Field.cell (f : Field) (i : Nat) (v : Int) : Cell := { sec := f.sec, idx := f.rec0 + i, off := f.off, val := v }

/-- Appends the entries that wait for the journal (R352); a journal that compacts keeps them waiting (R644). Log entry 79. -/
def State.surveyAppend (s : State) : State :=
  s.survey.pend.foldl (fun (s : State) (p : SurveyPend) =>
    if p.appended then s
    else
      let (s, st) := s.journalAppend 2 p.kind 255 0 p.cells
      if st ≠ 0 then s
      else
        let l := (s.survey.pend.filter (fun q => !(q.appended && q.kind == p.kind && q.target == p.target))).map (fun q =>
          if q = p then { q with appended := true, eseq := s.stw.jSeq - 1 } else q)
        ({ s with survey := { s.survey with pend := l, written := inc32 s.survey.written } }).surveyResult p.kind p.target 0 0
          (match p.cells with | x :: _ => x.val | [] => 0)) s

/-- A run completes with every check passed (R339, R352). Log entry 79. -/
def State.surveyDone (r : Learn) (cells : List Cell) (s : State) : State :=
  let s := s.dropRun r.axis
  let p : SurveyPend := { kind := r.kind, target := r.target, axis := r.axis, cells := cells }
  ({ s with survey := { s.survey with pend := s.survey.pend ++ [p] } }).surveyAppend

/-- A run fails (R342 to R351). Log entry 78. -/
def State.surveyFail (r : Learn) (reason : Nat) (v : Int) (s : State) : State :=
  (s.dropRun r.axis).surveyResult r.kind r.target 1 reason v

/-- A run is aborted; a motion of its own is stopped (R340). Log entry 72. -/
def State.surveyAbort (r : Learn) (s : State) : State :=
  let s := (s.dropRun r.axis).surveyResult r.kind r.target 2 0 0
  if 3 ≤ r.kind ∧ !r.abort ∧ !(s.bookOf r.axis).fault then s.kernelCmd r.axis { cmd := 7 } else s

/-- Runs that a stop, a fault or the device mode ends; leaving Survey discards levelling step 1 (R340, R685). -/
def State.surveyAborts (s : State) : State :=
  let s := s.survey.runs.foldl (fun s r =>
    let lost := r.kind == 2 && (nth s.snap r.target).fault
    if r.abort || (s.bookOf r.axis).fault || lost || s.mode.mode != 1 then s.surveyAbort r else s) s
  if s.mode.mode = 1 then s else { s with survey := { s.survey with step1 := none } }

/-! ### LEARN (R337, R338) -/

def learnStep (kind : Nat) : Nat := if kind = 4 then 1 else if kind = 5 then 2 else 0

/-- The axis of a run, if its target exists and meets the preconditions of the learn kinds table. -/
def State.learnAxis (s : State) (kind target : Nat) : Option Nat :=
  let car (ok : Nat → Bool) : Option Nat := if 4 ≤ target then none else (s.carAxis target).filter ok
  match kind with
  | 1 =>
    if target < 12 ∧ (s.kind target = 1 ∨ (s.kind target = 2 ∧ !s.flag AXIS.flags 1 target)) ∧ (s.axOf target).enabled
        ∧ s.brakesReleased target then some target else none
  | 2 =>
    if target < 16 ∧ s.nat FB.kind target = 2 then
      (List.range 12).find? (fun a => s.usesFb a target && (s.axOf a).enabled) else none
  | 3 => car (fun a => (s.axOf a).homed && s.flag AXIS.flags 2 a)
  | 4 => car (fun _ => s.landTable target)
  | 5 => car (fun _ => match s.survey.step1 with | some (c, _, _) => c == target | none => false)
  | 6 => if 8 ≤ target then none else (s.doorAxis target).filter (fun a => (s.axOf a).homed)
  | _ => none

/-- LEARN is taken; the answer's code and detail. Log entries 71, 75, 80. -/
def State.learnStart (kind target step : Nat) (s : State) : State × Nat × Nat :=
  if kind = 0 ∨ 6 < kind ∨ step ≠ learnStep kind then (s, 2, 0)
  else if s.mode.mode ≠ 1 then (s, 3, 0)
  else match s.learnAxis kind target with
    | none => (s.surveyResult kind target 1 7 0, 1, 7)
    | some a =>
      if (s.runOf a).isSome then (s.surveyResult kind target 1 9 0, 1, 9)
      else
        let r : Learn := { kind := kind, target := target, axis := a, hold := s.nextBoundary }
        ({ s with survey := { s.survey with runs := s.survey.runs ++ [r], lastKind := kind, lastTarget := target
                                            outcome := 0, reason := 0 } }, 7, 0)

/-- The mailbox command LEARN. -/
def State.takeLearn (o : Origin) (kind target step : Nat) (s : State) : State :=
  let (s, code, detail) := s.learnStart kind target step
  s.reply o code detail

/-! ### Commutation offset (R341, R342) -/

/-- The four readings of thm give the offset. -/
def State.commResult (r : Learn) (s : State) : State :=
  let pp := s.nat AXIS.pole_pairs r.axis
  let o (k : Nat) : Int := (k * 2 ^ 30 : Nat) - ((r.thms.getD k 0 * pp : Nat) : Int)
  let d (k : Nat) : Int := wrapS (o k - o 0) 32
  let ds := (List.range 4).map d
  let tol := s.nat SURVEY.comm_tol
  let onward (k : Nat) : Bool := decide (0 < wrapS ((r.thms.getD (k + 1) 0 : Int) - r.thms.getD k 0) 32)
  match ds.find? (fun x => tol < x.natAbs) with
  | some x => s.surveyFail r 1 x
  | none =>
    if !(List.range 3).all onward then s.surveyFail r 3 0
    else s.surveyDone r [AXIS.comm_offset.cell r.axis (wrapU (o 0 + rndShift ds.sum 2) 32)]

/-- ALIGN_SETTLE (R341): a commutation hold of SURVEY.align_settle ends and the angle is read; the next angle is in effect from
the next boundary on. Log entry 80. -/
def execAlignSettle (t axis : Nat) (s : State) : Answer :=
  let s := s.tick t
  if s.clk.motionHeld then .next s
  else
  match s.runOf axis, s.fbMotor axis with
  | some r, some ch =>
    if r.kind = 1 ∧ r.hold + s.nat SURVEY.align_settle ≤ s.now then
      let th := (nth s.snap ch).count * 2 ^ 32 / s.cpr ch
      let r := { r with thms := r.thms ++ [th], k := r.k + 1, hold := s.nextBoundary }
      if r.k < 4 then .next (s.onRun axis (fun _ => r)) else .next (s.commResult r)
    else .next s
  | _, _ => .next s

/-! ### Sine/cosine corrections (R343 to R345) -/

/-- The integer nearest to √(n / d), halves to even. -/
def rndSqrt (n d : Nat) : Nat :=
  let r := floorSqrt (n / d)
  let h := (2 * r + 1) ^ 2 * d
  if h < 4 * n ∨ (h = 4 * n ∧ r % 2 = 1) then r + 1 else r

/-- The six results of R344 over `n` samples; none where a quotient does not exist. Log entry 77. -/
def scResults (amp n : Nat) (r : Learn) : Option (List Int) :=
  let n' : Int := n
  let ss := n' * r.sumSS - r.sumS * r.sumS
  let cc := n' * r.sumCC - r.sumC * r.sumC
  let p := n' * r.sumSC - r.sumS * r.sumC
  let q := ss * cc - p * p
  if n = 0 ∨ ss ≤ 0 ∨ cc ≤ 0 ∨ q ≤ 0 then none
  else
    let gain (x : Int) : Int := rndSqrt (2 ^ 28 * amp ^ 2 * n ^ 2) (2 * x).toNat
    some [rndDiv r.sumS n', rndDiv r.sumC n', gain ss, gain cc, rndSqrt (2 ^ 28 * (ss * cc).toNat) q.toNat,
          p.sign * (rndSqrt (2 ^ 30 * (p * p).toNat) q.toNat : Int)]

def scFields : List Field := [FB.sc_off_s, FB.sc_off_c, FB.sc_gain_s, FB.sc_gain_c, FB.sc_k1, FB.sc_k2]

/-- A result lies in its field's range. -/
def Field.holds (f : Field) (v : Int) : Bool := decide (f.lo ≤ v) && decide (v ≤ f.hi)

/-- The run has covered SURVEY.sc_periods coarse periods. Log entry 77. -/
def State.scDone (r : Learn) (s : State) : State :=
  if r.slow then s.surveyFail r 8 0
  else match scResults (s.nat FB.amp_nom r.target) r.k r with
    | none => s.surveyFail r 2 0
    | some l =>
      match (scFields.zip l).find? (fun x => !x.1.holds x.2) with
      | some x => s.surveyFail r 2 x.2
      | none => s.surveyDone r ((scFields.zip l).map (fun x => x.1.cell r.target x.2))

/-- One sample of the run on a channel, before the corrections: the coarse count has been decided with it. Whole periods
are counted from the first change of the coarse period on. -/
def State.scSample (ch : Nat) (si co : Int) (s : State) : State :=
  match s.survey.runs.find? (fun r => r.kind == 2 && r.target == ch) with
  | none => s
  | some r =>
    if !s.inWindow ch (ampOf (s.sinCosVec ch si co)) then s.surveyAbort r
    else
      let q := (s.fbOf ch).q / 4
      match r.period with
      | none => s.onRun r.axis (fun r => { r with period := some q })
      | some p =>
        let new := q != p
        let started := r.first.isSome || new
        let r := { r with
          period := some q, first := r.first.orElse (fun _ => if new then some q else none)
          slow := r.slow || (new && r.first.isSome && decide (r.inPeriod < 64))
          inPeriod := if new then 1 else r.inPeriod + 1 }
        let ovr := match r.first with
          | some f => decide (s.nat SURVEY.sc_periods ≤ (q - f).natAbs)
          | none => false
        if ovr then s.scDone r
        else if started then
          s.onRun r.axis (fun _ => { r with
            k := r.k + 1, sumS := r.sumS + si, sumC := r.sumC + co
            sumSS := r.sumSS + si * si, sumCC := r.sumCC + co * co, sumSC := r.sumSC + si * co })
        else s.onRun r.axis (fun _ => r)

/-- SINCOS_SAMPLE (R154, R157, R343): SIN and COS are converted, trimmed, and the counts decided. Log entry 71. -/
def execSincosSample (t ch : Nat) (sin cos : Int) (s : State) : Answer :=
  let s := s.tick t
  if s.clk.motionHeld then .next s
  else
  if 16 ≤ ch ∨ s.nat FB.kind ch ≠ 2 ∨ s.fbOff then .next s
  else
    let tr := nth s.scTrims ch
    let si := trimCode tr.1 sin
    let co := trimCode tr.2 cos
    .next ((s.sinCosTake s.now ch si co).scSample ch si co)

/-! ### Runs with motion (R346 to R351) -/

/-- A command of the run for its axis. Log entry 73. -/
def State.learnCmd (a : Nat) (m : AxCmd) (s : State) : State :=
  (s.onRun a (fun r => { r with since := s.stage.boundaries })).kernelCmd a m

/-- The axis is at rest after the run's last command. -/
def State.learnRest (s : State) (r : Learn) : Bool :=
  s.seen r.since && s.rawDone r.axis && (s.axOf r.axis).standstill

/-- The axis is enabled before the run's first motion. -/
def State.learnReady (r : Learn) (s : State) : State × Bool :=
  let (s', ok) := s.readyAxis r.axis r.since
  (if !ok && s.seen r.since then s'.onRun r.axis (fun r => { r with since := s.stage.boundaries }) else s', ok)

/-- Filtered changes of the door-zone inputs, as car positions (R346, R360). Log entry 83. -/
def State.learnEdges (s : State) (r : Learn) : List (Nat × Bool × Int) :=
  ((s.dzIns r.target).filter s.dinMoved).map (fun i =>
    (i, s.dinActive i, s.keptPos r.axis i + (s.car r.target).g))

/-- The edges of one input, paired: up position, down position. -/
def pairEdges (i : Nat) (r : Learn) : List (Int × Int) :=
  let up := (r.upEdges.filter (·.1 == i)).map (·.2.2)
  let down := (r.downEdges.filter (·.1 == i)).map (·.2.2)
  up.zip down.reverse

/-- The zones of the shaft from both runs (R347, R361). -/
def State.zonesDone (r : Learn) (s : State) : State :=
  let c := r.target
  let n := s.nat CAR.count c
  let ins := s.dzIns c
  let count (l : List (Nat × Bool × Int)) (i : Nat) : Nat := (l.filter (·.1 == i)).length
  let ok (i : Nat) : Bool := count r.upEdges i == 2 * n && count r.downEdges i == 2 * n
  match ins.find? (fun i => !ok i) with
  | some i => s.surveyFail r 4 (count r.upEdges i / 2 : Nat)
  | none =>
    let ps := ins.map (fun i => pairEdges i r)
    match ps.flatten.find? (fun x => s.nat SURVEY.zone_tol < (x.1 - x.2).natAbs) with
    | some x => s.surveyFail r 5 (x.1 - x.2)
    | none =>
      let mean (e : Nat) : Int := rndDiv ((ps.map (fun l => let x := l.getD e (0, 0); rndDiv (x.1 + x.2) 2)).sum) ins.length
      s.surveyDone r ((List.range n).flatMap (fun k =>
        [LANDING.zone_lo.cell (256 * c + k) (mean (2 * k)), LANDING.zone_hi.cell (256 * c + k) (mean (2 * k + 1))]))

/-- Kind 3 (R346): down to the end without recording, up over the shaft, down again. Log entries 73, 83. -/
def State.learnZones (r : Learn) (s : State) : State :=
  let es := s.learnEdges r
  let s := s.onRun r.axis (fun r => { r with
    upEdges := if r.phase = 2 then r.upEdges ++ es else r.upEdges
    downEdges := if r.phase = 3 then r.downEdges ++ es else r.downEdges })
  let v : Int := s.natOr SURVEY.learn_speed 0 (s.vCreep r.axis)
  let go (v : Int) (s : State) : State :=
    (s.onRun r.axis (fun r => { r with phase := r.phase + 1 })).learnCmd r.axis
      { cmd := 6, arg := s.nat CAR.prof r.target, value := v }
  if r.phase = 0 then
    let (s, ok) := s.learnReady r
    if ok then go (-v) s else s
  else if !s.learnRest r then s
  else if r.phase = 1 then go v s
  else if r.phase = 2 then go (-v) s
  else match s.runOf r.axis with
    | some r => s.zonesDone r
    | none => s

/-- The levelling results (R349, R350); loads are 256 times x2. -/
def State.levelDone (r : Learn) (s : State) : State :=
  let c := r.target
  if r.kind = 4 then
    let n := s.nat CAR.load_in c
    let cells := if n = 0 then [] else [ANALOG.tare.cell (n - 1) (rndDiv r.loads.sum (256 * r.loads.length))]
    ({ s with survey := { s.survey with step1 := some (c, r.deltas, r.loads) } }).surveyDone r cells
  else
    let (d0, x0) := match s.survey.step1 with | some (_, d, x) => (d, x) | none => ([], [])
    let dx (l : Nat) : Int := r.loads.getD l 0 - x0.getD l 0
    let lc (l : Nat) : Int := (dx l).sign * rndDiv (2 ^ 24 * (r.deltas.getD l 0 - d0.getD l 0)) (dx l).natAbs
    let ls := List.range r.deltas.length
    match ls.find? (fun l => (dx l).natAbs < 2 ^ 24), ls.find? (fun l => sat (lc l) 32 != lc l) with
    | some l, _ => s.surveyFail r 6 (dx l / 256)
    | none, some l => s.surveyFail r 2 (lc l)
    | none, none => s.surveyDone r (ls.map (fun l => LANDING.lc.cell (256 * c + l) (lc l)))

/-- Kinds 4 and 5 (R348): a stop at every landing, without load correction; LEVEL_SETTLE ends each. Log entries 74, 76. -/
def State.learnLevels (r : Learn) (s : State) : State :=
  let x2 := let n := s.nat CAR.load_in r.target; if n = 0 then 0 else (nth s.ain (n - 1)).x2
  if r.stopAt.isSome then s.onRun r.axis (fun r => { r with x2s := (x2 :: r.x2s).take 256 })
  else if r.phase = 0 then
    let (s, ok) := s.learnReady r
    if !ok then s
    else
      (s.onRun r.axis (fun r => { r with phase := 1 })).learnCmd r.axis
        { cmd := 4, arg := s.nat CAR.prof r.target, value := s.landPos r.target r.k - (s.car r.target).g }
  else if s.learnRest r then s.onRun r.axis (fun r => { r with stopAt := some s.stage.openedAt, x2s := [] })
  else s

/-- LEVEL_SETTLE (R348): SURVEY.level_settle after a stop the levelling error and the load reading are recorded. Log entry 76. -/
def execLevelSettle (t axis : Nat) (s : State) : Answer :=
  let s := s.tick t
  if s.clk.motionHeld then .next s
  else
  match s.runOf axis with
  | none => .next s
  | some r =>
    match r.stopAt with
    | none => .next s
    | some u =>
      if s.now < u + s.nat SURVEY.level_settle then .next s
      else
        let x : Int := if r.x2s = [] then 0 else rndDiv (256 * r.x2s.sum) r.x2s.length
        let r := { r with
          stopAt := none, phase := 0, k := r.k + 1, deltas := r.deltas ++ [s.levelErr r.target r.k], loads := r.loads ++ [x] }
        if r.k < s.nat CAR.count r.target then .next (s.onRun axis (fun _ => r)) else .next (s.levelDone r)

/-- Kind 6 (R351): open and close cycles under the door's own profiles. Log entry 82. -/
def State.learnDoor (r : Learn) (s : State) : State :=
  let d := r.target
  let x := nth s.axe r.axis
  let s := s.onRun r.axis (fun r => { r with
    sumIa := if r.phase = 0 then 0 else r.sumIa + x.iq * x.aRef, sumAa := if r.phase = 0 then 0 else r.sumAa + x.aRef * x.aRef })
  let go (s : State) : State :=
    let opening : Bool := r.phase % 2 == 0
    (s.onRun r.axis (fun r => { r with phase := r.phase + 1 })).learnCmd r.axis
      { cmd := 4, arg := if opening then s.nat DOOR.prof_open d else s.nat DOOR.prof_close d
        value := if opening then s.int DOOR.open_pos d else s.int DOOR.closed_pos d }
  if r.phase = 0 then
    let (s, ok) := s.learnReady r
    if ok then go s else s
  else if !s.learnRest r then s
  else if r.phase < 2 * s.nat SURVEY.door_runs then go s
  else match s.runOf r.axis with
    | none => s
    | some r =>
      let m := if r.sumAa = 0 then 0 else rndDiv (2 ^ 32 * r.sumIa) r.sumAa
      if 0 < m ∧ DOOR.mass.holds m then s.surveyDone r [DOOR.mass.cell d m] else s.surveyFail r 2 m

/-- The Survey work of one Stage. -/
def State.surveyKernel (s : State) : State :=
  let s := s.surveyAborts
  s.survey.runs.foldl (fun s r =>
    match r.kind with
    | 3 => s.learnZones r
    | 4 => s.learnLevels r
    | 5 => s.learnLevels r
    | 6 => s.learnDoor r
    | _ => s) s

/-! ### Commit (R131, R353) -/

/-- What a committed entry supplies (R355). -/
def Survey.supply (kind target : Nat) (cells : List Cell) (v : Survey) : Survey :=
  match kind with
  | 1 => { v with haveComm := v.haveComm.set target true }
  | 2 => { v with haveSc := v.haveSc.set target true }
  | 4 => { v with haveTare := cells.foldl (fun l c => l.set c.idx true) v.haveTare }
  | 5 => { v with haveLevel := v.haveLevel.set target true }
  | 6 => { v with haveDoor := v.haveDoor.set target true }
  | _ => v

/-- A pending value takes effect. -/
def State.surveyTake (p : SurveyPend) (s : State) : State :=
  { s with
    cfg := applyCells s.cfg p.cells
    survey := (s.survey.supply p.kind p.target p.cells) }

/-- The Survey values of an axis that may commit: appended, the axis at standstill. -/
def State.surveyDue (s : State) (a : Nat) : List SurveyPend :=
  if (s.axOf a).standstill then s.survey.pend.filter (fun p => p.appended && p.axis == a) else []

end Sys2Proof.Machine
end

