-- ==== Sys2Proof/Machine/Time.lean ====
section
/-! DEFINITION. Site time (R487 to R491, R585): the grandmaster, Syncs, the servo, seals, and SYNCED. -/

namespace Sys2Proof.Machine

def State.onTime (f : TimeSt → TimeSt) (s : State) : State := { s with time := f s.time }

/-- The unit is grandmaster: none is selected and its own priority allows it. -/
def State.isGm (s : State) : Bool := s.time.gm.isNone && s.nat FABRIC.gm_priority != 255

/-- clockIdentity of the unit: its MAC address (R468) with FF FE in the middle (log entry 20). -/
def State.clockId (s : State) : Nat := 0x020000FFFEC50000 + s.unitId

/-- The unit's own priority vector, with the default clock quality and priority2 of IEEE 802.1AS (log entry 20). -/
def State.ownClock (s : State) : Announce :=
  { prio1 := s.nat FABRIC.gm_priority, quality := 0xF8FE436A, prio2 := 248, gm := s.clockId, steps := 0 }

/-- The order of priority vectors of IEEE 802.1AS. Log entry 20. -/
def clockBetter (x y : Announce) : Bool :=
  let k (a : Announce) : List Nat := [a.prio1, a.quality, a.prio2, a.gm, a.steps]
  decide (k x < k y)

/-- Edge-clock cycles of one Sync interval, 2^FABRIC.sync_log s. -/
def State.syncInterval (s : State) : Nat := 400000000 / 2 ^ (-(s.int FABRIC.sync_log)).toNat

/-- Time that has passed since a Sync exceeds FABRIC.sync_timeout intervals. -/
def State.syncLate (s : State) : Bool :=
  match s.time.lastSync with
  | some u => decide (u + s.nat FABRIC.sync_timeout * s.syncInterval ≤ s.now)
  | none => true

/-- The condition of R488 that fails, the lowest-numbered: 1 Sync timeout, 2 offset, 3 seal; 0 when site time is
synchronised. A grandmaster has no master to follow. Log entry 139. -/
def State.syncFails (s : State) : Nat :=
  if s.isGm then 0
  else if s.time.gm.isNone || s.syncLate then 1
  else if s.time.goodRun < s.nat FABRIC.lock_n then 2
  else if s.flag FABRIC.flags 0 ∧ !s.time.sealOk then 3
  else 0

/-- EV_STAGE_UNALIGNED. Log entry 24. -/
def State.unaligned (cause : Nat) (e : Int) (s : State) : State :=
  { s with stage := { s.stage with aligned := false } }.raise 0x8C (le 1 cause ++ le 4 (sat e 32))

/-- A loss of synchronisation while ALIGNED is set clears it (R70). Log entry 24. -/
def State.lostSync (s : State) : State :=
  if s.nat STAGE.align = 0 ∧ s.stage.aligned then s.unaligned 0 s.stage.phaseErr else s

/-- SYNCED follows R488; `cause` is a cause of its own, 0 for none. Log entry 139. -/
def State.syncSettle (cause : Nat) (s : State) : State :=
  let k := if cause = 0 then s.syncFails else cause
  let ev (state k : Nat) (s : State) : State := s.raise 0xD3 (le 1 state ++ le 1 k ++ le 4 s.time.offset)
  if k = 0 ∧ !s.time.synced then ev 1 0 (s.onTime (fun x => { x with synced := true }))
  else if k ≠ 0 ∧ s.time.synced then
    (ev 0 k (s.onTime (fun x => { x with synced := false, losses := inc32 x.losses }))).lostSync
  else s

/-- The grandmaster is no longer heard, or another is followed. -/
def State.changeGm (gm : Option (Announce × Nat)) (cause : Nat) (s : State) : State :=
  let s := s.syncSettle cause
  (s.onTime (fun x => { x with gm := gm, goodRun := 0, lastSync := none, sealOk := false, origins := [] })).syncSettle 0

/-- The port on which the grandmaster is heard has gone down. -/
def State.syncPort (p : Nat) (s : State) : State :=
  match s.time.gm with
  | some (_, q) => if q = p ∧ !s.portOn p then s.changeGm none 5 else s
  | none => s

/-- Site time is set: the clock goes on from `v` at this instant. -/
def State.setSite (v : Int) (s : State) : State := s.onTime (fun x => { x with base := v, at_ := s.now, commanded := false })

/-- EV_TIME_STEP (R585). Log entry 139. -/
def State.timeStep (old new : Int) (cause : Nat) (s : State) : State := s.raise 0xF8 (le 8 old ++ le 8 new ++ le 1 cause)

/-- The servo's rate correction, chosen freely within ±200 ppm (log entry 21). -/
def State.servoRate (s : State) : Int × State :=
  let (w, s) := s.free
  ((w.toNat % 400001 : Nat) - 200000, s)

/-- ANNOUNCE (R487): the best master clock algorithm on a received priority vector. Log entry 138. -/
def execAnnounce (t port : Nat) (a : Announce) (s : State) : Answer :=
  let s := s.tick t
  if !s.portOn port || a.gm == s.clockId || a.prio1 == 255 then .next s
  else
    let own := s.ownClock
    match s.time.gm with
    | none =>
      if own.prio1 = 255 ∨ clockBetter a own then .next (s.changeGm (some (a, port)) 4) else .next s
    | some (g, p) =>
      if g.gm = a.gm ∧ p = port then
        if own.prio1 ≠ 255 ∧ clockBetter own a then .next (s.changeGm none 4)
        else .next (s.onTime (fun x => { x with gm := some (a, port) }))
      else if clockBetter a g then .next (s.changeGm (some (a, port)) (if g.gm = a.gm then 0 else 4))
      else .next s

/-- Timestamps of frames are the edge-clock cycle of the start-of-frame strobe, less the fixed delays (R40, R43): site time in
ns at which a frame whose strobe came at cycle `strobe` passed the port inwards. Log entry 138. -/
def State.rxStamp (s : State) (port strobe : Nat) : Int := s.siteAt strobe - Config.rxDelay port

/-- ns between the start of an own frame at strobe `t1`, sent after its strobe by the fixed delay, and the answer's at `t4`. -/
def stampSpan (port t1 t4 : Nat) : Int := ((t4 : Int) - t1) * 5 / 2 - Config.rxDelay port - Config.txDelay port

/-- The delay of the link of a port from its last Pdelay exchange, of which the neighbour kept `turn` (R43). Log entry 138. -/
def linkDelay (port : Nat) (x : SyncStamps) : Nat := ((stampSpan port x.t1 x.t4 - x.turn) / 2).toNat

/-- An origin timestamp, seconds over ns, in ns. -/
def originNs (origin : Nat) : Int := (origin / 2 ^ 32 * 1000000000 + origin % 2 ^ 32 : Nat)

/-- Offset from the master: local site time of a Sync's arrival less the master's. Log entry 138. -/
def State.syncOffset (s : State) (port origin : Nat) (corr : Int) (stamp : SyncStamps) : Int :=
  s.rxStamp port stamp.strobe - (originNs origin + corr + linkDelay port stamp)

/-- SYNC (R43, R488, R490): a Sync with its origin timestamp, the correction carried with it and the cycles that time it.
Log entry 138. -/
def execSync (t port seqId origin : Nat) (corr : Int) (stamp : SyncStamps) (s : State) : Answer :=
  let s := s.tick t
  let offset := s.syncOffset port origin corr stamp
  let pdelay := linkDelay port stamp
  match s.time.gm with
  | none => .next s
  | some (_, p) =>
    if p ≠ port ∨ !s.portOn port then .next s
    else
      let s := s.onPort port (fun x => { x with pdelay := satU pdelay 32 })
      let good := decide (offset.natAbs ≤ s.nat FABRIC.lock_ns)
      let s := s.onTime (fun x => { x with
        offset := sat offset 32, lastSync := some s.now, goodRun := if good then satU (x.goodRun + 1) 8 else 0
        origins := ((seqId, origin) :: x.origins.filter (fun o => o.1 != seqId)).take 8 })
      let old := s.site
      let s :=
        if !s.time.everSet then (s.setSite (old - offset)).onTime (fun x => { x with everSet := true })
        else if s.nat FABRIC.step_limit < offset.natAbs then
          if s.time.commanded ∧ s.time.at_ = s.now then s else
          let s := s.setSite (old - offset)
          if 0 < offset then s.timeStep old (old - offset) 0 else s
        else
          let (r, s) := s.servoRate
          (s.setSite old).onTime (fun x => { x with ratePpb := r })
      .next (s.syncSettle 0)

/-- SYNC_SEND (R487): a grandmaster's own Sync is remembered for its seal. -/
def execSyncSend (t : Nat) (s : State) : Answer :=
  let s := s.tick t
  if s.isGm then
    let site := s.site.toNat
    let q := match s.time.sent with | some x => (x.1 + 1) % 65536 | none => 0
    .next (s.onTime (fun x => { x with sent := some (q, site / 1000000000 * 2 ^ 32 + site % 1000000000) }))
  else .next s

/-- SYNC_TIMEOUT (R488): no Sync within FABRIC.sync_timeout intervals; the master's information has aged. Log entry 138. -/
def execSyncTimeout (t : Nat) (s : State) : Answer :=
  let s := s.tick t
  if s.time.gm.isSome ∧ s.syncLate then
    .next (if s.time.lastSync.isSome then s.changeGm none 1 else s.syncSettle 0)
  else .next s

/-- TIME_SEAL (R489): the seal is compared with the origin timestamp received for its sequenceId. -/
def State.takeSeal (origin seqId : Nat) (s : State) : State :=
  if !s.flag FABRIC.flags 0 then s
  else match s.time.origins.find? (fun o => o.1 == seqId) with
    | some o => (s.onTime (fun x => { x with sealOk := o.2 == origin })).syncSettle 0
    | none => s

def execTimeSeal (t origin seqId : Nat) (s : State) : Answer := .next ((s.tick t).takeSeal origin seqId)

/-- TIME_SEAL_SEND (R489): once a second a grandmaster seals its last Sync. -/
def execTimeSealSend (t : Nat) (s : State) : Answer :=
  let s := s.tick t
  match s.isGm, s.time.sent with
  | true, some (q, o) => .next (s.send { kind := 2 } (.timeSeal o q))
  | _, _ => .next s

end Sys2Proof.Machine
end

