-- ==== Sys2Proof/Machine/Regions.lean ====
section
/-! DEFINITION. The window regions of chapters 02 to 12: every published field, rendered as the bytes of its layout (R10,
R15, R50, R728). -/

namespace Sys2Proof.Machine

/-! ### Bytes of records -/

/-- A record of `n` bytes; what its layout does not name reads 0. -/
def padTo (n : Nat) (b : List Octet) : List Octet := b.take n ++ zeros (n - b.length)

/-- A bank of `n` records of `w` bytes. -/
def bank (n w : Nat) (f : Nat → List Octet) : List Octet := (List.range n).flatMap (fun i => padTo w (f i))

/-- A word of fields: (value, lowest bit). -/
def fieldsOf (l : List (Nat × Nat)) : Nat := (l.map (fun x => x.1 * 2 ^ x.2)).sum

/-- A word of one-bit flags, first in bit 0. -/
def flagsOf (l : List Bool) : Nat := packBits l

/-- The lowest bit set in a mask of causes. Log entry 112. -/
def lowestOf (m : Nat) : Nat := ((List.range 32).find? (fun k => bit m k)).getD 0

/-! ### Words that other layers read too -/

/-- AX_STATE (chapter 06). -/
def State.axWord (s : State) (a : Nat) : Nat :=
  let x := nth s.axe a
  let b := s.bookOf a
  fieldsOf [(if b.fault then b.cause else 0, 24), (x.mode, 16)] +
  flagsOf [(s.caxOf a).active, x.enabled, x.standstill, x.homed, b.fault, b.stopLatch, x.kept.isSome, x.gen.phase == .dwell,
    x.blendLeft != 0 || x.iBlendLeft != 0, s.limitActive a 1, s.limitActive a (-1), x.moveDone]

/-- OUT_CAUSE: the lowest cause of OUT present. Log entry 95. -/
def State.outCause (s : State) (c : Nat) : Nat := lowestOf (s.car c).out

/-- CAR_STATE (chapter 09). -/
def State.carWord (s : State) (c : Nat) : Nat :=
  let x := s.car c
  fieldsOf [(x.st, 0), (s.outCause c, 12)] +
  16 * flagsOf [x.dz, s.isOut c, x.shaftFault, x.degraded, x.dzDegraded, !x.loadKnown, x.overloaded, s.doorsClosed c]

/-- A landing or a target, 0xFFFF when none. -/
def ixOr (o : Option Nat) : Nat := o.getD 0xFFFF

/-- DOOR_STATE (chapter 09). -/
def State.doorWord (s : State) (d : Nat) : Nat :=
  let x := s.door d
  let ez : Bool := match s.doorAxis d with | some a => s.endZone d a | none => false
  fieldsOf [(x.st, 0), (b2n x.nudgeDue, 4), (b2n (s.curtain d), 5), (b2n ez, 6), (x.lastCause, 8),
    (if x.st = 8 then x.faultCause else 0, 16)]

/-! ### Chapter 02 -/

def State.regionDispatcher (s : State) : List Octet :=
  let head :=
    le 4 (flagsOf [s.stage.aligned, s.time.synced, s.clk.stage500, s.stage.offsetD != 0]) ++ le 4 0 ++ le 8 s.stage.epoch ++
    le 8 s.stage.offsetD ++ le 4 (sat s.stage.phaseErr 32) ++ le 2 s.disp.queue.length ++ le 2 s.disp.queuePeak ++
    le 4 s.disp.bpStages ++ le 4 s.stage.len
  padTo 0x40 head ++
  padTo 0x40 (bank 13 4 (fun b =>
    let x := nth s.disp.binding b
    le 4 (fieldsOf [(x.window.length, 0), (x.consec, 16)]))) ++
  bank s.graph.tasks.length 16 (fun i =>
    let r := s.run i
    le 4 r.overruns ++ le 4 r.annulled ++ le 4 r.respMax ++ le 4 r.respLast)

/-! ### Chapter 04 -/

def State.regionFeedback (s : State) : List Octet :=
  bank 16 64 (fun c =>
    let x := nth s.snap c
    let f := s.fbOf c
    le 4 (flagsOf [x.valid, x.fault, x.speed != 0, x.neg, x.indexSeen, x.skipPending] + 256 * (if x.fault then x.cause else 0)) ++
    le 4 x.count ++ le 4 x.turns ++ le 2 x.edgeErr ++ le 2 (sat f.indexDelta 16) ++ le 8 x.pos ++ le 8 x.speed ++ le 8 x.time ++
    le 4 (if s.nat FB.kind c = 2 then satU x.amp 32 else 0) ++ le 2 (if s.nat FB.kind c = 3 then f.ssiDelay else 0) ++ zeros 2 ++
    le 4 f.glitches ++ le 4 f.skips ++ le 4 f.mismatches ++ le 4 f.realigns) ++
  le 8 (packBits s.dinSnap.level) ++ le 8 (packBits s.dinSnap.raw) ++ le 8 (packBits s.dinSnap.chatter) ++ zeros 8 ++
  bank 64 16 (fun i => le 8 (s.dinSnap.edgeT.getD i 0) ++ le 4 (s.dinOf i).trans) ++
  bank 4 16 (fun e =>
    let x := nth s.emu e
    le 4 x.count ++ le 4 (sat x.backlog 32) ++ le 4 (flagsOf [s.nat EMU.source e != 0, x.fault]))

/-! ### Chapter 05 -/

def State.regionCurrent (s : State) : List Octet :=
  bank 36 32 (fun c =>
    let x := s.chOf c
    le 4 (flagsOf [(s.claimOf c).isSome, x.fault, x.ofsLimit] + 256 * (if x.fault then lowestOf x.causes else 0)) ++
    le 4 x.f ++ le 4 x.acc ++ le 4 x.ofs ++ le 4 x.tb ++ le 4 x.codeErrors ++ le 4 x.zeroInstants) ++
  bank 12 64 (fun a =>
    let x := s.caxOf a
    let k := s.kind a
    let bandLim := decide (x.h = s.nat CURRENT.band_min a) || decide (x.h = s.nat CURRENT.band_max a)
    le 4 (flagsOf [x.active, x.causes != 0, x.vlim, bandLim, x.gainEnd.isSome] + 256 * (if x.causes = 0 then 0 else x.cause)) ++
    le 4 (packBits ((x.brs.take (kindHbs k)).map (·.gateH))) ++ le 4 x.h ++ le 4 (if k = 3 then 0 else x.c0) ++ le 4 x.c1 ++
    le 4 x.g ++ le 4 x.swCount ++ le 4 x.vlimConsec ++ le 4 x.sp.id ++ le 4 x.sp.iq ++ le 4 x.sp.theta0 ++ le 4 x.lateEdges ++
    le 4 x.minpulseHolds ++ le 4 x.vlimTotal ++ le 4 x.faults)

/-! ### Chapter 06 -/

/-- The present or kept target of an axis. -/
def Axis.targetNow (x : Axis) : Int :=
  match x.gen.present with
  | some t => t
  | none => match x.kept with
    | some m => if m.vel then 0 else m.target
    | none => x.gen.target

/-- REMAINING: the raw distance to the target; with a move kept by STOP, from the published reference to its target (stop
kinds table). Log entry 227. -/
def Axis.remainingNow (x : Axis) : Int :=
  match x.kept with
  | some m => if m.vel then 0 else m.target - x.pRef
  | none =>
    if x.gen.phase = .pos ∨ x.gen.present.isSome then floorShift (x.targetNow * 65536 - x.gen.pe) 16
    else 0

/-- The axis whose generator TARGET and REMAINING show: of a slave, its phase move (R303). -/
def State.shownMove (s : State) (a : Nat) : Axis :=
  let x := nth s.axe a
  match x.mode, s.couplingOf a with
  | 4, some c => { x with gen := (s.gcOf c).phaseGen, kept := none }
  | _, _ => x

/-- Stages of reversal dwell left. -/
def State.dwellLeft (s : State) (a : Nat) : Nat :=
  let g := (nth s.axe a).gen
  if g.phase = .dwell ∧ !g.dwellOver then ceilDiv (g.restAt + s.stagesOf (s.nat AXIS.dwell a) * s.period - s.now) s.period else 0

def State.regionAxis (s : State) : List Octet :=
  bank 12 128 (fun a =>
    let x := nth s.axe a
    let b := s.bookOf a
    if !s.defined a then [] else
    le 4 (s.axWord a) ++ le 2 x.filt.m ++ zeros 2 ++ le 8 x.pRef ++ le 8 b.pf ++ le 8 x.vFF ++ le 8 b.vf ++ le 8 b.ep ++
    le 8 (s.shownMove a).targetNow ++ le 8 (s.shownMove a).remainingNow ++
    le 4 x.iq ++ le 4 (floorShift x.acc 16) ++ le 4 b.cmdTag ++ le 4 b.rejTag ++ le 4 x.turns ++ le 4 (max x.blendLeft x.iBlendLeft) ++
    le 4 (s.dwellLeft a) ++ le 4 b.faults ++ le 4 b.rejects ++ le 4 b.reversals ++ le 4 b.refusals)

/-! ### Chapter 07 -/

def pgCode : PgState → Nat
  | .idle => 0 | .running => 1 | .paused => 2 | .done => 3 | .broken => 4

def capRecBytes (r : CapRec) : List Octet :=
  le 4 r.seq ++ le 4 (b2n r.rising + 65536 * packBits r.valid) ++ le 8 r.time ++ le 8 r.epoch ++ zeros 8 ++
  (r.pos.map (fun (p : Int) => le 8 p)).flatten

def State.regionPaths (s : State) : List Octet :=
  bank 4 64 (fun g =>
    let p := s.pgOf g
    le 4 (fieldsOf [(pgCode p.st, 0), (b2n p.capped, 3)]) ++ le 2 p.queue.length ++ zeros 2 ++ le 8 p.lambda ++ le 8 p.endL ++
    le 8 p.w ++ le 4 p.segTag ++ le 4 p.segments ++ le 4 p.breaks) ++
  bank 12 64 (fun c =>
    let g := s.gcOf c
    let x := match g.st with | .engaging => g.x | .disengaging => g.disX | _ => 0
    le 4 (gcCode g.st) ++ le 4 g.rem ++ le 8 x ++ le 8 g.disp ++ le 8 g.phase ++ le 4 g.losses) ++
  padTo 0xC00 (bank 8 32 (fun o =>
    let x := s.cmpOf o
    let j := x.armed.getD 0
    le 4 (flagsOf [x.armed.isSome, x.done, x.fault, s.cmpBall o]) ++ le 4 j ++ le 8 (if x.armed.isSome then s.cmpEntry o j else 0) ++
    le 4 x.fired ++ le 4 x.missed ++ le 8 x.lastTime)) ++
  bank 16 2048 (fun i =>
    let x := nth s.cap i
    le 4 (b2n x.filt) ++ le 4 x.seq ++ le 4 x.lost ++ le 4 x.glitch ++ zeros 16 ++
    bank 8 128 (fun k => match x.recs.find? (fun r => r.seq % 8 == k) with
      | some r => capRecBytes r
      | none => []))

/-! ### Chapter 08 -/

def State.needsComm (s : State) (a : Nat) : Bool := s.kind a == 1 || (s.kind a == 2 && !s.flag AXIS.flags 1 a)

def State.regionHoming (s : State) : List Octet :=
  let v := s.survey
  let run := v.runs.head?
  let cars := (List.range 4).filter (fun c => (s.carAxis c).isSome)
  bank 12 64 (fun a =>
    let h := s.homeOf a
    le 4 (fieldsOf [(homeCode h.phase, 0), (h.method, 4), (h.result, 8), (h.cause, 16)]) ++ le 4 h.homings ++ le 8 h.refTime ++
    le 8 h.refPos ++ le 8 h.shift ++ le 8 h.dist) ++
  le 4 (fieldsOf [((run.map (·.kind)).getD v.lastKind, 0), ((run.map (·.target)).getD v.lastTarget, 4), (b2n run.isSome, 8),
    (b2n v.step1.isSome, 9), (v.outcome, 16), (v.reason, 24)]) ++
  le 4 (packBits ((List.range 12).map (fun a => s.needsComm a && !flagAt v.haveComm a))) ++
  le 4 (packBits ((List.range 16).map (fun c => s.nat FB.kind c == 2 && !flagAt v.haveSc c))) ++
  le 4 (fieldsOf [(b2n (cars.any (fun c => !s.landTable c)), 0), (b2n (cars.any (fun c => !flagAt v.haveLevel c)), 1),
    (packBits ((List.range 4).map (fun i => s.nat ANALOG.role i == 1 && !flagAt v.haveTare i)), 4),
    (packBits ((List.range 12).map (fun a =>
      (List.range 8).any (fun d => s.doorAxis d == some a && !flagAt v.haveDoor d))), 16)]) ++
  le 4 v.written ++ zeros 4

/-! ### Chapter 09 -/

def State.regionCar (s : State) : List Octet :=
  bank 4 128 (fun c =>
    let x := s.car c
    le 4 (s.carWord c) ++ le 2 (ixOr x.landing) ++ le 2 (ixOr x.assigned) ++ le 8 x.pc ++
    le 8 (match x.landing with | some l => s.levelErr c l | none => 0) ++ le 8 x.g ++ le 8 x.k ++ le 8 x.d ++ le 4 x.y ++ zeros 4 ++
    le 8 x.cl ++ le 4 x.corrections ++ le 4 x.disagrees ++ le 4 x.relevels ++ le 4 x.levelMisses ++ le 4 x.trips) ++
  bank 8 64 (fun d =>
    let x := s.door d
    let kf := s.int DOOR.kf d
    let timer := match x.nudgeFrom with | some n => (s.now - n) / s.period | none => 0
    le 4 (s.doorWord d) ++ le 4 x.f ++ le 4 (sat (rndShift (x.f * kf * 1000) 32) 32) ++
    le 4 (satU (rndShift (x.e * kf) 56).toNat 32) ++ le 8 x.e ++ le 8 x.vcap ++ le 4 (satU timer 32) ++ le 4 x.reversals ++
    le 4 x.obstructions ++ le 4 x.nudges ++ le 4 x.cycles)

/-! ### Chapter 10 -/

/-- A displacement over `w` Stages as a speed in grains per Stage. -/
def perStage (d : Int) (w : Nat) : Int := divMag d w

def State.regionInterlock (s : State) : List Octet :=
  let c := s.safe.a
  let v := s.effVec false
  let mask (f : SafeIn → Bool) : Nat := packBits (c.ins.map f)
  let read (x : SafeOut) : Bool := xor x.a (x.runA != 0)
  le 4 (flagsOf ([s.permit, v.permit, (s.effVec true).permit, false] ++ c.bypass ++ c.ucm ++ c.ovr ++
    [s.safe.xcmpFault, s.safe.outs.any (fun o => o.fault != 0), c.siOf (s.nat SAFE.mp_edm)])) ++
  le 4 (mask (·.valid)) ++ le 4 (mask (·.levelA)) ++ le 4 (mask (·.levelB)) ++ le 4 (mask (·.fault)) ++
  le 2 (packBits v.torque) ++ le 2 (packBits v.brake) ++
  le 2 (packBits ((List.range 12).map (fun a => s.slsActive c a))) ++
  le 2 (packBits ((List.range 12).map (fun a => (nth s.safe.stops a).kind == .ss1))) ++
  le 4 (packBits ((s.safe.outs.take 23).map (·.a))) ++ le 4 (packBits ((s.safe.outs.take 23).map read)) ++
  le 4 s.safe.xcmpDiffs ++ le 4 s.safe.trips ++ le 4 s.safe.stale ++
  bank 4 16 (fun k =>
    let w := match s.carAxis k with | some a => s.vWindow a | none => 1
    let top := (s.carS k).foldl (fun (m : Int) x => if m.natAbs < x.2.natAbs then x.2 else m) 0
    let d := match (c.pu.getD k none), (s.ucmCh k).bind s.monPos with | some u, some p => p - u | _, _ => 0
    le 8 (perStage top w) ++ le 8 d) ++
  bank 12 16 (fun a => le 8 (perStage ((s.axisS a).getD 0) (s.vWindow a)) ++
    le 8 (if (nth s.safe.stops a).kind = .ss1 then (nth s.safe.stops a).env else 0))

/-! ### Chapter 11 -/

/-- 32 bytes with bit l for landing l. -/
def landingBits (l : List Nat) : List Octet := le 32 ((l.eraseDups.map (fun x => 2 ^ x)).sum : Nat)

/-- The CAR_DSP block of a car. -/
def State.carDsp (s : State) (c : Nat) : List Octet :=
  let x := s.sched c
  let v := s.planOf c x.stops
  let t := s.planEtas c v
  let eta := match x.target with
    | some l => (((v.zip t).find? (fun y => y.1.landing == l)).map (·.2)).getD 0
    | none => 0
  let dir := if 0 < x.d then 1 else if x.d < 0 then 2 else 0
  let at_ (p : Stop → Bool) : List Octet := landingBits ((x.stops.filter p).map (·.landing))
  padTo 128 (le 4 (fieldsOf [(dir, 0), (ixOr x.target, 16)]) ++ le 2 x.stops.length ++ zeros 2 ++ le 4 (satU eta 32) ++ zeros 4 ++
    at_ (fun y => y.kind == 6) ++ at_ (fun y => y.kind != 6 && decide (0 < y.dir)) ++
    at_ (fun y => y.kind != 6 && decide (y.dir < 0)))

def State.regionDispatch (s : State) : List Octet :=
  let d := s.dsp
  let w := s.unitWithdraw
  let coll := s.collects
  padTo 0x40 (
    le 4 (flagsOf [coll && s.nat DISPATCH.collector == s.machineId, coll && s.nat DISPATCH.collector_alt == s.machineId,
      s.flag DISPATCH.flags 1, s.group != 0 && w == 0] + 256 * w) ++
    le 2 (d.calls.filter (fun x => x.phase != 4)).length ++ le 2 d.ws.length ++ le 4 d.opened ++ le 4 d.bidsSent ++ le 4 d.bidsLate ++
    le 4 d.assigned ++ le 4 d.declined ++ le 4 d.released ++ le 4 d.heldStages ++ le 4 d.unserved ++ le 4 d.lastCall ++
    le 4 d.lastCost ++ le 2 d.orders.length) ++
  (List.range 4).flatMap s.carDsp

/-! ### Chapter 12 -/

def State.regionFabric (s : State) : List Octet :=
  let st (p : Nat) : Nat := s.portNow p
  let gm : Announce := match s.time.gm with | some g => g.1 | none => { gm := if s.isGm then s.clockId else 0 }
  le 4 (flagsOf [decide (1 ≤ st 0), decide (1 ≤ st 1), st 0 == 2, st 1 == 2, s.time.synced, s.isGm, s.keyless, s.fab.conflict]) ++
  le 2 s.unitId ++ le 2 s.fab.boot ++ le 8 gm.gm ++ [gm.steps % 256, s.fab.keyCur, s.fab.keyOther, 0] ++ le 4 s.time.offset ++
  le 4 s.time.ratePpb ++ le 4 s.time.losses ++
  bank 2 64 (fun p =>
    let x := s.portOf p
    let q := x.peers.headD {}
    le 4 (fieldsOf [(st p, 0), (s.nat FABRIC.port_mode 0 p, 2)]) ++ le 2 (if s.chain p then q.unit else 0) ++
    le 2 (if s.chain p then q.boot else 0) ++ (List.range 4).map (fun c => q.k.getD c 0 % 256) ++ le 4 x.pdelay ++ le 4 x.rx ++
    le 4 x.tx ++ le 4 x.relayed ++ le 4 x.rejected ++ le 4 x.dups ++ le 4 x.lost ++ le 4 x.stall) ++
  bank 16 32 (fun k =>
    let c := s.conOf k
    le 4 (fieldsOf [(c.st, 0), (c.cause, 8)]) ++ le 4 c.count ++ le 2 c.data ++ zeros 2 ++
    le 4 (if c.st = 0 ∨ c.st = 1 then 0 else satU ((s.now - c.lastT) / 400) 32) ++ le 4 c.faults) ++
  bank 12 16 (fun a =>
    let x := s.xdOf a
    le 4 (fieldsOf [(b2n x.valid, 0), (b2n (s.xdTorqueOff a), 1), (x.missRun, 8)]) ++ le 8 x.epoch ++ le 4 x.misses)

/-! ### UNIT_STATUS (R500) -/

/-- The body of UNIT_STATUS. -/
def State.statusMsg (s : State) : Msg :=
  .unitStatus s.mode.mode
    (flagsOf [s.collects, s.flag DISPATCH.flags 1, (List.range 8).any (fun k => s.nat TWIN.serves 0 k != 0), s.twin.st == 2,
      s.twin.st == 3, s.dsp.unitWithdrawn != 0])
    (flagsOf [s.time.synced, s.stage.aligned]) ((List.range 4).map s.carWord)
    (packBits (s.book.map (·.fault)))

/-- UNIT_STATUS (R500, R529): every FABRIC.status_period Stages the unit sends its status, as published (R54), while T1 is funded
(R550), under its own identity and, when ACTIVE in a pair, under the pair's. -/
def execUnitStatus (t : Nat) (s : State) : Answer :=
  let s := s.tick t
  match dstField (s.nat FABRIC.status_dst) with
  | none => .next s
  | some d =>
    if s.stage.boundaries < s.fab.statusNext ∨ !s.purse.t1 then .next s
    else
      let m := s.view.statusMsg
      let e := s.view.stage.epoch
      let s := { s with fab := { s.fab with statusNext := s.stage.boundaries + s.nat FABRIC.status_period } }
      let s := s.sendAt d m e
      .next (if s.inPair ∧ s.twin.st = 2 then s.sendPair d m e else s)

end Sys2Proof.Machine
end

