-- ==== Sys2Proof/Machine/Twin.lean ====
section
/-! DEFINITION. Twin operation (chapter 13): packets, the mirror, comparison and rebase, leases and their witness, GRANT and
hand-off (R505 to R535). -/

namespace Sys2Proof.Machine

def State.onTwin (f : Twin → Twin) (s : State) : State := { s with twin := f s.twin }

/-! ### Roles -/

/-- A change of member state with EV_TWIN_ROLE: causes 0 lease, 1 hand-off, 2 refused, 3 rejoined, 4 unfit, 5 waybill
mismatch, 6 Halt. Log entry 151. -/
def State.setRole (dest cause : Nat) (s : State) : State :=
  let was := s.twin.st
  if was = dest then s
  else (s.onTwin (fun x => { x with st := dest })).raise 0xD7 (le 1 was ++ le 1 dest ++ le 1 cause ++ le 4 s.twin.leaseNo)

/-- Every mirror item is stale, and FRESH clear (R518). -/
def State.mirrorStale (s : State) : State :=
  s.onTwin (fun x => { x with fresh := false, items := x.items.map (fun (i : MirrorItem) => { i with stale := true }) })

/-- LEASE_RELEASE of a member that leaves ACTIVE other than by hand-off (R507). -/
def State.leaseRelease (s : State) : State :=
  let n := s.twin.leaseNo
  if n = 0 then s
  else (s.send { id := s.nat TWIN.witness } (.leaseRelease s.pairId s.unitId n)).onTwin (fun x => { x with
    leaseNo := 0, leaseEnd := none })

/-- A lease is asked for: 0 renewal, 1 initial, 2 heartbeat lost, 3 hand-off (R513). -/
def State.leaseAsk (cause : Nat) (s : State) : State :=
  let succ := match s.twin.pkts with
    | p :: _ => if p.kind = 3 ∧ bit p.flags 4 then s.nat TWIN.partner else 0
    | [] => 0
  (s.onTwin (fun x => { x with reqAt := some s.now, reqCause := cause })).send { id := s.nat TWIN.witness }
    (.leaseRequest s.pairId s.unitId s.twin.leaseNo (s.nat TWIN.lease) cause succ)

/-- A time since `u` in ms has passed. -/
def State.msSince (s : State) (u : Option Nat) (ms : Nat) : Bool :=
  match u with | some u => decide (u + msCycles ms ≤ s.now) | none => true

/-- ROLE_REQUEST (R515): a WAITING, ALIGNED member asks for the lease, without PREFER after TWIN.grace. -/
def execRoleRequest (t : Nat) (s : State) : Answer :=
  let s := s.tick t
  let x := s.twin
  let due : Bool := match x.wakeReq with
    | some u => s.flag TWIN.flags 0 || decide (u + msCycles (s.nat TWIN.grace) ≤ s.now)
    | none => false
  if s.inPair ∧ x.st = 1 ∧ s.stage.aligned ∧ due ∧ x.rebase.isNone ∧ s.msSince x.reqAt (s.nat TWIN.renew) then .next (s.leaseAsk 1)
  else .next s

/-- LEASE_RENEW (R513): the holder renews every TWIN.renew; a QUERYING or DETACHED member asks as often (hard cases). -/
def execLeaseRenew (t : Nat) (s : State) : Answer :=
  let s := s.tick t
  let x := s.twin
  if !s.inPair ∨ !s.msSince x.reqAt (s.nat TWIN.renew) then .next s
  else if x.st = 2 ∧ x.leaseNo ≠ 0 then .next (s.leaseAsk 0)
  else if x.st = 4 ∨ x.st = 5 then .next (s.leaseAsk 2)
  else .next s

/-! ### The witness (R513) -/

def State.witnessIx (s : State) (pair : Nat) : Option Nat :=
  (List.range 8).find? (fun k => pair != 0 && s.nat TWIN.serves 0 k == pair)

def State.onWit (k : Nat) (f : WitPair → WitPair) (s : State) : State := s.onTwin (fun x => { x with wit := x.wit.modify k f })

def leaseEv (event lease holder pair : Nat) (s : State) : State :=
  s.raise 0xDC (le 1 event ++ le 4 lease ++ le 2 holder ++ le 2 pair)

/-- ms left of an instant. -/
def State.msLeft (s : State) (until_ : Nat) : Nat := satU (ceilDiv (until_ - s.now) 400000) 16

def State.leaseAnswer (k result left unit : Nat) (s : State) : State :=
  let w := nth s.twin.wit k
  s.send { id := unit } (.leaseGrant (s.nat TWIN.serves 0 k) w.holder w.leaseNo result left w.successor unit)

/-- A new holder under a new LEASE_NO. Log entry 145. -/
def State.newHolder (k unit lease succ : Nat) (s : State) : State :=
  s.onWit k (fun w =>
    let c := (w.counter + 1) % 65536
    { w with holder := unit, counter := c, leaseNo := s.fab.boot * 65536 + c, successor := succ
             until_ := s.now + msCycles (lease + s.nat TWIN.grace) })

/-- The witness decisions. Log entry 145. -/
def State.takeLeaseRequest (pair unit leaseNo lease cause succ : Nat) (s : State) : State :=
  match s.witnessIx pair with
  | none => s
  | some k =>
    let w := nth s.twin.wit k
    let early := s.wake.from_ + msCycles 150
    let runs := decide (s.now < w.until_)
    let left := s.msLeft w.until_
    let grant (s : State) : State :=
      let s := s.newHolder k unit lease succ
      let w := nth s.twin.wit k
      (leaseEv 0 w.leaseNo unit pair s).leaseAnswer k 0 (s.msLeft w.until_) unit
    if s.now < early then s.leaseAnswer k 1 (s.msLeft early) unit
    else if w.holder = 0 then grant s
    else if !runs then grant (leaseEv 2 w.leaseNo w.holder pair s)
    else if w.holder = unit ∧ w.leaseNo = leaseNo then
      let s := s.onWit k (fun w => { w with successor := succ, until_ := s.now + msCycles (lease + s.nat TWIN.grace) })
      s.leaseAnswer k 0 (s.msLeft (nth s.twin.wit k).until_) unit
    else if w.successor = unit ∧ cause = 3 ∧ w.leaseNo = leaseNo then
      let s := s.newHolder k unit lease succ
      let w := nth s.twin.wit k
      (leaseEv 3 w.leaseNo unit pair s).leaseAnswer k 0 (s.msLeft w.until_) unit
    else
      let s := s.onWit k (fun w => { w with refusals := inc32 w.refusals })
      (leaseEv 1 w.leaseNo w.holder pair s).leaseAnswer k 1 left unit

/-- LEASE_REQUEST (R513). -/
def execLeaseRequest (t pair unit leaseNo lease cause successor : Nat) (s : State) : Answer :=
  .next ((s.tick t).takeLeaseRequest pair unit leaseNo lease cause successor)

/-- A release with the current LEASE_NO leaves the pair without a holder. -/
def State.takeLeaseRelease (pair unit leaseNo : Nat) (s : State) : State :=
  match s.witnessIx pair with
  | none => s
  | some k =>
    let w := nth s.twin.wit k
    if w.holder = unit ∧ w.holder ≠ 0 ∧ w.leaseNo = leaseNo then s.onWit k (fun w => { w with holder := 0, successor := 0 }) else s

/-- LEASE_RELEASE (R513). -/
def execLeaseRelease (t pair unit leaseNo : Nat) (s : State) : Answer := .next ((s.tick t).takeLeaseRelease pair unit leaseNo)

/-! ### Mirror items (R516, R517) -/

/-- A signed or unsigned field of an item. -/
def fieldU (b : List Octet) (off w : Nat) : Nat := ofLe ((b.drop off).take w)

def fieldS (b : List Octet) (off w : Nat) : Int := wrapS (fieldU b off w) (8 * w)

def State.axisItem (s : State) (a : Nat) : List Octet :=
  let x := nth s.axe a
  let b := s.bookOf a
  let sp := (s.caxOf a).sp
  le 8 x.pRef ++ le 8 x.vFF ++ le 8 x.targetNow ++ le 8 (s.twin.shift.getD a 0) ++ le 4 sp.id ++ le 4 sp.iq ++
  le 4 (floorShift x.acc 16) ++ le 1 x.mode ++ [packBits [x.enabled, x.homed, x.kept.isSome, b.stopLatch, b.fault]] ++
  le 1 x.gen.prof ++ [0]

def State.carItem (s : State) (c : Nat) : List Octet :=
  let x := s.car c
  padTo 48 (le 8 x.k ++ le 8 (x.pm0.getD 0) ++ le 8 (x.ps0.getD 0) ++ le 4 x.y ++ le 1 x.st ++ le 1 (s.outCause c) ++ le 2 (ixOr x.landing) ++
    le 2 (ixOr x.assigned) ++ le 2 ((s.carWord c / 64 % 32 : Nat)))

/-- Stages from now to an instant. -/
def State.stagesTo (s : State) (t : Nat) : Nat := satU (ceilDiv (t - s.now) s.period) 32

def State.doorItem (s : State) (d : Nat) : List Octet :=
  let x := s.door d
  padTo 16 (le 1 x.st ++ zeros 3 ++ le 4 (match x.holdEnd with | some t => s.stagesTo t | none => 0 : Nat) ++
    le 4 (match x.nudgeFrom with | some t => satU ((s.now - t) / s.period) 32 | none => 0 : Nat))

def State.stopsItem (s : State) : List Octet :=
  let calls := (List.range 4).flatMap (fun c => ((s.sched c).stops.filter (fun x => x.callId != 0 && x.kind != 6)).map (fun x => (c, x)))
  (List.range 4).flatMap s.carDsp ++
  padTo 512 ((calls.take 64).flatMap (fun x => le 4 x.2.callId ++ [x.2.kind, x.1] ++ le 2 x.2.landing))

/-- The data of a mirror item at this boundary; the Steward's items are as it latched them last (R50). -/
def State.itemData (s : State) (i : Nat) : List Octet :=
  if i < 12 then s.axisItem i
  else if i < 16 then s.carItem (i - 12)
  else if i < 24 then s.doorItem (i - 16)
  else if i = 24 then s.stopsItem
  else if i = 25 then le 8 ((s.view.led.headSeq.getD (2 ^ 64 - 1) : Nat)) ++ le 8 s.view.life
  else s.view.purseAccounts

/-- The epoch to which the data of a mirror item belongs. Log entry 205. -/
def State.itemEpoch (s : State) (i : Nat) : Nat := if i < 25 then s.stage.epoch else s.view.stage.epoch

/-- The items of the member's configuration (R517, R542). -/
def State.stateItems (s : State) : List Nat :=
  (List.range 12).filter s.defined ++ ((List.range 4).filter (fun c => (s.carAxis c).isSome)).map (· + 12) ++
  ((List.range 8).filter (fun d => (s.doorAxis d).isSome)).map (· + 16)

def State.mirrorItems (s : State) : List Nat := s.stateItems ++ [24, 25, 26]

/-- P of R516. -/
def State.mirrorP (s : State) : Nat := min 1024 (s.period / 20 - 224) / 16 * 16

def State.onItem (i : Nat) (f : MirrorItem → MirrorItem) (s : State) : State :=
  s.onTwin (fun x => { x with items := x.items.modify i f })

def State.item (s : State) (i : Nat) : MirrorItem := nth s.twin.items i

/-- An item is due: part of a transfer, changed, or last sent TWIN.fresh_max Stages ago. -/
def State.itemDue (s : State) (i : Nat) : Bool :=
  let m := s.item i
  m.sending != 0 ||
  (match m.sentAt with
   | none => true
   | some e => e != s.stage.epoch && (m.sent != s.itemData i || decide (s.nat TWIN.fresh_max ≤ s.stagesSince e)))

/-- The due item sent longest ago. -/
def State.nextDue (s : State) : Option Nat :=
  (s.mirrorItems.filter s.itemDue).foldl (fun b i =>
    match b with
    | none => some i
    | some j => if ((s.item i).sentAt.map (· + 1)).getD 0 < ((s.item j).sentAt.map (· + 1)).getD 0 then some i else some j) none

/-- Mirror entries of a packet with room for `room` bytes. -/
def State.fillMirror : Nat → Nat → State → State × List MirrorEntry
  | 0, _, s => (s, [])
  | fuel + 1, room, s =>
    match s.nextDue with
    | none => (s, [])
    | some i =>
      let m := s.item i
      let s := if m.sending = 0 then s.onItem i (fun m => { m with sent := s.itemData i, sendEpoch := s.itemEpoch i }) else s
      let m := s.item i
      let w := s.mirrorP - 16
      let parts := max 1 (ceilDiv m.sent.length w)
      let d := (m.sent.drop (m.sending * w)).take w
      let size := 16 + ceilDiv d.length 8 * 8
      if room < size then (s, [])
      else
        let last := m.sending + 1 = parts
        let s := s.onItem i (fun m => { m with
          sending := if last then 0 else m.sending + 1, sentAt := if last then some (if i < 25 then m.sendEpoch else s.stage.epoch) else m.sentAt })
        let (s, l) := State.fillMirror fuel (room - size) s
        (s, { id := i, part := m.sending, parts := parts, epoch := m.sendEpoch, data := d } :: l)

/-- A mirror entry is received. -/
def State.takeEntry (e : MirrorEntry) (s : State) : State :=
  s.onItem e.id (fun m =>
    let old := if m.partsEpoch = e.epoch then m.parts else []
    let l := old.filter (fun x => x.1 != e.part) ++ [(e.part, e.data)]
    let newer : Bool := match m.copy with | some c => decide (c.1 < e.epoch) | none => true
    if l.length = e.parts ∧ newer then
      { m with
        copy := some (e.epoch, (List.range e.parts).flatMap (fun k => ((l.find? (·.1 == k)).map (·.2)).getD [])), parts := []
        partsEpoch := e.epoch, stale := false }
    else { m with parts := l, partsEpoch := e.epoch })

/-- Age of an item at the standby. -/
def State.itemAge (s : State) (i : Nat) : Option Nat := (s.item i).copy.map (fun c => s.stagesSince c.1)

/-- Ages of the items: FRESH, STALE and EV_MIRROR_STALE (R517). Log entry 262. -/
def State.mirrorAges (s : State) : State :=
  if s.twin.st ≠ 3 then s
  else
    let fm := s.nat TWIN.fresh_max
    let ok (i : Nat) : Bool := !(s.item i).stale && (match s.itemAge i with | some g => decide (g ≤ fm + 2) | none => false)
    let s := s.onTwin (fun x => { x with
      fresh := s.stateItems.all ok, stale := s.mirrorItems.any (fun i => (s.item i).stale) })
    s.mirrorItems.foldl (fun s i =>
      match s.itemAge i with
      | some g =>
        if 4 * fm < g ∧ !(s.item i).stale then
          ((s.onItem i (fun m => { m with stale := true })).onTwin (fun x => { x with stale := true })).raise 0xDE (le 2 i ++ le 4 g)
        else s
      | none => s) s

/-! ### The mirrored state is taken (R522, R534) -/

/-- An axis takes its mirrored state for the Stage of epoch `n`. Log entries 149, 239. -/
def State.takeAxis (a n : Nat) (s : State) : State :=
  match (s.item a).copy with
  | none => s
  | some (m, b) =>
    let w := fieldS b 8 8
    let p := fieldS b 0 8 + floorShift (w * ((n : Int) - m)) 16
    let target := fieldS b 16 8
    let fl := fieldU b 45 1
    let mode := fieldU b 44 1
    let prof := fieldU b 46 1
    let s := s.shiftAxis false a (fieldS b 24 8 - s.twin.shift.getD a 0)
    let s := s.onTwin (fun x => { x with shift := x.shift.set a (fieldS b 24 8) })
    let take (x : Axis) : Axis :=
      let r := x.peRef % 65536
      let x := s.preload a (if mode = 2 then 2 else 1) { x with pRef := p, vFF := w, aRef := 0 }
      let x := { x with peRef := x.peRef + r }
      let g := { x.gen with prof := prof, pe := x.gen.pe + r }
      let g : Gen :=
        if mode = 2 then { g with phase := if w = 0 then .rest else .vel, vtgt := w }
        else if mode = 1 ∧ !bit fl 2 ∧ (w ≠ 0 ∨ target ≠ p) then { g with phase := .pos, target := target, dir := sgn (target - p) }
        else g
      { x with
        mode := mode, enabled := bit fl 0, homed := bit fl 1, gen := g, acc := fieldS b 40 4 * 65536, iq := fieldS b 36 4
        kept := if bit fl 2 then some { again := true, target := target, prof := prof } else none }
    let s := { s with
      ax := s.ax.modify a take, axe := s.axe.modify a take, pre := { s.pre with ax := s.pre.ax.modify a take } }
    s.onBook a (fun k => { k with stopLatch := bit fl 3, fault := bit fl 4 || k.fault })

def State.takeCar (c : Nat) (s : State) : State :=
  match (s.item (12 + c)).copy with
  | none => s
  | some (_, b) =>
    let fl := fieldU b 34 2
    let lo (v : Nat) : Option Nat := if v = 0xFFFF then none else some v
    let out := fieldU b 29 1
    let base (o : Nat) : Option Int := if fieldS b 8 8 = 0 ∧ fieldS b 16 8 = 0 then none else some (fieldS b o 8)
    s.onCar c (fun x => { x with
      k := fieldS b 0 8, pm0 := base 8, ps0 := base 16, y := fieldS b 24 4, st := fieldU b 28 1
      out := if out = 0 then 0 else 2 ^ out, landing := lo (fieldU b 30 2), assigned := lo (fieldU b 32 2)
      shaftFault := bit fl 0, degraded := bit fl 1, dzDegraded := bit fl 2, loadKnown := !bit fl 3, overloaded := bit fl 4 })

def State.takeDoor (d : Nat) (s : State) : State :=
  match (s.item (16 + d)).copy with
  | none => s
  | some (_, b) =>
    let h := fieldU b 4 4
    let n := fieldU b 8 4
    s.onDoor d (fun x => { x with
      st := fieldU b 0 1, holdEnd := if h = 0 then none else some (s.now + h * s.period)
      nudgeFrom := if n = 0 then none else some (s.now - n * s.period) })

/-- The stops of a car from its CAR_DSP block and the accepted calls; the destination of a pickup is not mirrored.
Log entry 148. -/
def State.takeStops (s : State) : State :=
  match (s.item 24).copy with
  | none => s
  | some (_, b) =>
    let calls := (List.range 64).map (fun k => (b.drop (512 + 8 * k)).take 8)
    eachIx 4 (fun c s =>
      let q := (b.drop (128 * c)).take 128
      let bits (off : Nat) : List Nat := let v := fieldU q off 32; (List.range 256).filter (fun l => bit v l)
      let dir := fieldU q 0 1 % 4
      let cc : List Stop := (bits 16).map (fun l => { kind := 6, landing := l })
      let lc : List Stop := calls.filterMap (fun x =>
        let l := fieldU x 6 2
        if fieldU x 0 4 = 0 ∨ fieldU x 5 1 ≠ c then none
        else
          let k := fieldU x 4 1
          let up : Bool := k == 1 || (k != 2 && (bits 48).contains l)
          some { kind := k, landing := l, dir := if up then 1 else -1, callId := fieldU x 0 4, dest := l })
      s.onSched c (fun y => { y with d := if dir = 1 then 1 else if dir = 2 then -1 else 0, stops := cc ++ lc })) s

/-- REBASE (R522): once every item has a complete copy from the divergence or later the member takes the mirrored state.
Log entry 147. -/
def execRebase (t : Nat) (s : State) : Answer :=
  let s := s.tick t
  match s.twin.rebase with
  | none => .next s
  | some e =>
    let ok := s.mirrorItems.all (fun i => match (s.item i).copy with | some c => decide (e ≤ c.1) | none => false)
    if !s.atBoundary ∨ !ok ∨ !(s.twin.st = 3 ∨ s.twin.st = 1) then .next s
    else
      let n := s.stage.epoch
      let s := eachIx 12 (fun a s => if s.defined a then s.takeAxis a n else s) s.unshow
      let s := eachIx 4 (fun c s => if (s.carAxis c).isSome then s.takeCar c else s) s
      let s := eachIx 8 (fun d s => if (s.doorAxis d).isSome then s.takeDoor d else s) s
      let s := s.takeStops
      let s := s.onTwin (fun x => { x with rebase := none, resumeAt := some (s.stage.boundaries + s.nat TWIN.rebase) })
      .next (if s.twin.st = 1 then s.setRole 3 2 else s)

/-- COMPARE_RESUME (R522). Log entry 147. -/
def execCompareResume (t : Nat) (s : State) : Answer :=
  let s := s.tick t
  match s.twin.resumeAt with
  | some n => if n ≤ s.stage.boundaries then .next (s.onTwin (fun x => { x with resumeAt := none })) else .next s
  | none => .next s

/-! ### Digest and comparison (R520, R521, R523) -/

/-- One bit, then one byte, of the CRC-64 of R520. -/
def crc64Bit (c : Nat) : Nat :=
  if 2 ^ 63 ≤ c then (2 * c % 2 ^ 64) ^^^ 0x42F0E1EBA9EA3693 else 2 * c

def crc64Byte (c b : Nat) : Nat := (List.range 8).foldl (fun c _ => crc64Bit c) (c ^^^ (b * 2 ^ 56))

def crc64 (l : List Octet) : Nat := l.foldl crc64Byte 0

/-- RESULT: the targets in effect in both channels. -/
def State.twinResult (s : State) : Nat := (s.effVec false).mask &&& (s.effVec true).mask

def State.digest (s : State) : Nat :=
  crc64 (
    (List.range 12).flatMap (fun a => le 8 (nth s.axe a).pRef ++ le 1 (nth s.axe a).mode ++ le 2 (s.axWord a / 2 % 2048 : Nat)) ++
    (List.range 4).flatMap (fun c => le 1 (s.car c).st ++ le 2 (ixOr (s.car c).assigned) ++ le 1 (s.outCause c)) ++
    (List.range 8).flatMap (fun d => le 1 (s.door d).st) ++ le 1 s.mode.mode ++ le 12 s.twinResult)

/-- The packet that the partner sent at epoch `e`. -/
def State.pktOf (s : State) (e : Nat) : Option TwinPkt := s.twin.pkts.find? (·.epoch == e)

/-- A divergence of epoch `e` (R521, R523). -/
def State.diverge (e own other : Nat) (s : State) : State :=
  let n := s.stage.boundaries
  let s := s.onTwin (fun x => { x with
    divs := n :: x.divs.filter (fun k => n < k + 1000), divergences := inc32 x.divergences, rebase := some e, resumeAt := none })
  let w := s.twin.divs.length
  let s := s.raise 0xD9 (le 2 w ++ le 8 own ++ le 8 other)
  if s.nat TWIN.div_n ≤ w then ((s.setRole 6 4).onTwin (fun x => { x with rebase := none })).raise 0xDA (le 2 w) else s

/-- In Stage e + 2 the digests of epoch e are compared. -/
def State.twinCompare (s : State) : State :=
  let e := s.stage.epoch - 2
  match s.comparing, s.pktOf e, s.twin.digests.find? (·.1 == e) with
  | true, some p, some (_, own) =>
    let s := s.onTwin (fun x => { x with digestOwn := own, digestPartner := p.digest })
    if own = p.digest then s else s.diverge e own p.digest
  | _, _, _ => s

/-! ### Becoming ACTIVE, leaving ACTIVE (R506, R514, R532 to R535) -/

/-- The partner's newest packet shows fitness (R524). -/
def State.partnerFit (s : State) : Bool :=
  s.twin.heartbeat && (match s.twin.pkts with | p :: _ => p.kind == 3 && bit p.flags 3 && bit p.flags 4 | [] => false)

/-- The member hands off with the packet of epoch `e`. Log entry 150. -/
def State.beginHandoff (e : Nat) (s : State) : State := s.onTwin (fun x => { x with handoff := some (e + 3) })

/-- The member leaves ACTIVE without a hand-off: SS1 on every axis and Halt (R514). -/
def State.leaveActive (cause : Nat) (s : State) : State :=
  let s := s.leaseRelease
  (s.setRole 7 cause).onTwin (fun x => { x with handoff := none })

/-- The lease lapses (R514). Log entry 150. -/
def State.leaseLapse (s : State) : State :=
  let s := leaseEv 2 s.twin.leaseNo s.unitId s.pairId s
  let s := s.onTwin (fun x => { x with leaseEnd := none })
  if s.partnerFit then s.beginHandoff (s.stage.epoch + 1)
  else (eachIx 12 (fun a s => s.orderSs1 a 0xDC) (s.leaveActive 6)).haltCause 8

/-- LEASE_EXPIRY (R514). -/
def execLeaseExpiry (t : Nat) (s : State) : Answer :=
  let s := s.tick t
  match s.twin.leaseEnd with
  | some u => if s.twin.st = 2 ∧ u ≤ s.now ∧ s.twin.handoff.isNone then .next s.leaseLapse else .next s
  | none => .next s

/-- EV_TWIN_TAKEOVER: `resumed` and `ss1` are masks of axes. Log entry 152. -/
def State.takeover (kind resumed ss1 : Nat) (s : State) : State :=
  let head := match (s.item 25).copy with | some (_, b) => fieldU b 0 8 | none => 2 ^ 64 - 1
  s.raise 0xDB (le 1 kind ++ le 2 resumed ++ le 2 ss1 ++ le 8 head)

/-- Entering ACTIVE. Log entry 146. -/
def State.becomeActive (cause : Nat) (s : State) : State :=
  (s.setRole 2 cause).onTwin (fun x => { x with takeovers := inc32 x.takeovers, rebase := none, resumeAt := none })

/-- The item of an axis was fresh at the last valid packet (R535). Log entry 152. -/
def State.freshAtLast (s : State) (i : Nat) : Bool :=
  match s.twin.pkts, (s.item i).copy with
  | p :: _, some c => decide (p.epoch ≤ c.1 + s.nat TWIN.fresh_max + 2)
  | _, _ => false

/-- The channels that an axis uses are VALID. -/
def State.chansValid (s : State) (a : Nat) : Bool := (List.range 16).all (fun ch => !s.usesFb a ch || (nth s.snap ch).valid)

/-- Taking over from standstill: every axis disabled in Idle (R535), in effect from the next boundary (R45); method 6 starts
anew. -/
def State.takeIdle (a : Nat) (s : State) : State :=
  let ch := s.twin.stays.getD a false
  let flag : Bool := match (s.item a).copy with | some (_, b) => bit (fieldU b 45 1) 1 | none => false
  let h := s.freshAtLast a && ch && flag
  let off (x : Axis) : Axis := { x with enabled := false, mode := 0, ramp := false, kept := none, homed := h }
  let s := { s with ax := s.ax.modify a off, pre := { s.pre with ax := s.pre.ax.modify a off } }
  if (s.readHome a).method = 6 then s.onHomeKept a (fun y => { y with result := 0 }) else s

/-- What a hand-off does with an axis: 0 resumes, 1 SS1 with its group or coupling broken, 2 SS1 with its target kept. -/
def State.handoffWay (s : State) (a : Nat) : Nat :=
  let w : Int := match (s.item a).copy with | some (_, b) => fieldS b 8 8 | none => 0
  let still := w == 0 && decide ((s.bookOf a).vf.natAbs ≤ s.standstillV a * 65536)
  let inZone : Bool := match s.carOf a with
    | some c => (s.car c).dz && decide ((s.bookOf a).vf.natAbs < s.nat SAFE_CAR.v_rated c * 65536)
    | none => false
  if still ∨ inZone then 0
  else if (s.groupOf a).isSome ∧ (nth s.axe a).mode = 5 ∨ (s.couplingOf a).isSome ∧ (nth s.axe a).mode = 4 then 1
  else 2

/-- An axis at a hand-off (R534). Log entry 149. -/
def State.handoffAxis (a n : Nat) (s : State) : State :=
  let way := s.handoffWay a
  let s := s.takeAxis a n
  if way = 0 then s
  else
    let x := s.axOf a
    let s := s.orderSs1 a 0xDB
    if way = 1 then
      let s := match s.couplingOf a with | some c => s.setGc c {} | none => s
      s.pathBreak a 4
    else
      let k : Option Move := if x.mode = 1 then some { again := true, target := x.gen.target, prof := x.gen.prof } else none
      s.onAxKept a (fun y => { y with kept := k })

/-- A new ACTIVE member of a local pair asserts GRANT at this boundary, and its gates are driven from it (R519, R526). -/
def State.grantTaken (s : State) : State :=
  if !s.localPair then s
  else
    let s := s.onTwin (fun x => { x with grant := true, grantAt := s.now })
    eachIx 12 (fun a s =>
      let x := nth s.axe a
      if x.enabled && s.stoOn a then s.curBoundary s.now a true x.sp else s) s

/-- A fit standby becomes ACTIVE at h (R533). Log entry 146. -/
def State.takeHandoff (h : Nat) (s : State) : State :=
  let p := (s.pktOf (h - 3)).getD { kind := 0, pair := 0, unit := 0, epoch := 0 }
  let s := s.onTwin (fun x => { x with
    handoff := none, leaseNo := p.leaseNo, follow := some h
    leaseEnd := some (s.stage.openedAt - 3 * s.period + usCycles p.leaseLeft) })
  let axes := (List.range 12).filter (fun a => s.defined a && !s.measuring a)
  let res := packBits ((List.range 12).map (fun a => axes.contains a && s.handoffWay a == 0))
  let ss1 := packBits ((List.range 12).map (fun a => axes.contains a && s.handoffWay a != 0))
  let s := axes.foldl (fun s a => s.handoffAxis a h) s
  let s := axes.foldl (fun s a =>
    match (s.item a).copy with
    | some (_, b) => s.onCax a (fun x => { x with sp := { x.sp with id := fieldS b 32 4, iq := fieldS b 36 4 } })
    | none => s) s
  let s := eachIx 4 (fun c s => if (s.carAxis c).isSome then s.takeCar c else s) s
  let s := eachIx 8 (fun d s => if (s.doorAxis d).isSome then s.takeDoor d else s) s
  (((s.takeStops.becomeActive 1).grantTaken).takeover 0 res ss1).leaseAsk 3

/-- HANDOFF (R533): at epoch h the predecessor drops GRANT and is OUT, the fit standby becomes ACTIVE. -/
def execHandoff (t : Nat) (s : State) : Answer :=
  let s := s.tick t
  match s.twin.handoff with
  | none => .next s
  | some h =>
    if s.stage.epoch < h ∨ !s.atBoundary then .next s
    else if s.twin.st = 2 then
      let s := (s.setRole 7 1).onTwin (fun x => { x with
        handoff := none, leaseNo := 0, leaseEnd := none, grant := false, grantAt := s.now })
      let s := if s.localPair then eachIx 12 (fun a s => s.gatesOff a (8 * s.now)) s else s
      .next (s.haltCause 8)
    else if s.twin.st = 3 then .next (s.unshow.takeHandoff h)
    else .next (s.onTwin (fun x => { x with handoff := none }))

/-- SWITCH (R532): an ACTIVE member of a local pair hands off. Log entry 150. -/
def State.takeSwitch (o : Origin) (s : State) : State :=
  if s.mode.mode = 0 then s.reply o 3 0
  else if !s.localPair ∨ s.twin.st ≠ 2 then s.reply o 8 0
  else if !s.partnerFit ∨ s.twin.handoff.isSome then s.reply o 1 0
  else (s.beginHandoff (s.stage.epoch + 1)).reply o 0 0

/-- A member starts again at "Taking a role" (R508). Log entry 147. -/
def State.rejoin (cause : Nat) (s : State) : State :=
  (s.setRole 1 cause).onTwin (fun x => { x with reqAt := none, rebase := none, resumeAt := none, wakeReq := none })

/-- LEASE_GRANT (R513, R515, R533): the answer of the witness. Log entry 261. -/
def State.takeLeaseGrant (pair holder leaseNo result requester : Nat) (s : State) : State :=
  let x := s.twin
  if !s.inPair ∨ pair ≠ s.pairId ∨ requester ≠ s.unitId then s
  else if result = 0 ∧ holder = s.unitId then
    let from_ := x.reqAt.getD s.now
    let s := s.onTwin (fun y => { y with leaseNo := leaseNo, leaseEnd := some (from_ + msCycles (s.nat TWIN.lease)) })
    match x.st with
    | 1 => s.becomeActive 0
    | 3 => (eachIx 12 State.takeIdle (s.becomeActive 0)).takeover 1 0 0
    | 4 => (eachIx 12 State.takeIdle (s.becomeActive 0)).takeover 1 0 0
    | 5 => (eachIx 12 State.takeIdle (s.becomeActive 0)).takeover 2 0 0
    | _ => s
  else
    match x.st with
    | 1 =>
      let same : Bool := match x.pkts with | p :: _ => p.wbCheck == s.wake.wbCheck | [] => true
      if x.heartbeat && same then s.onTwin (fun y => { y with rebase := some s.stage.epoch })
      else s.mirrorStale.setRole 5 (if same then 2 else 5)
    | 2 => if x.reqCause = 3 then s.leaseLapse else s
    | 4 =>
      let s := s.mirrorStale.setRole 5 2
      if s.twin.heartbeat then s.rejoin 3 else s
    | _ => s

/-- LEASE_GRANT. -/
def execLeaseGrant (t pair holder leaseNo result left successor requester : Nat) (s : State) : Answer :=
  let _ := (left, successor)
  .next ((s.tick t).takeLeaseGrant pair holder leaseNo result requester)

/-! ### The twin link (R509 to R511) -/

/-- TWIN_PACKET (R510): checked, its heartbeat, RESULT, commands and mirror kept. -/
def execTwinPacket (t : Nat) (p : TwinPkt) (s : State) : Answer :=
  let s := s.tick t
  if !s.inPair ∨ !s.twin.linkUp then .next s
  else if !p.crcOk ∨ p.pair ≠ s.pairId ∨ p.unit ≠ s.nat TWIN.partner then
    .next (s.onTwin (fun x => { x with crcErrors := inc32 x.crcErrors }))
  else
    let back := !s.twin.heartbeat
    let miss := s.twin.missRun
    let s := s.onTwin (fun x => { x with
      gotPkt := true, heartbeat := true, missRun := 0, pkts := (p :: x.pkts.filter (·.epoch != p.epoch)).take 8
      mirrorBytes := if x.st = 2 then x.mirrorBytes else (p.mirror.map (fun (e : MirrorEntry) => 16 + ceilDiv e.data.length 8 * 8)).sum })
    let s := if back then s.raise 0xD8 (le 1 1 ++ le 2 p.unit ++ le 1 (satU miss 8)) else s
    let s := if s.twin.st = 2 then s else p.mirror.foldl (fun s e => s.takeEntry e) s
    .next (if back ∧ s.twin.st = 5 then s.rejoin 3 else s)

/-- TWIN_HEARTBEAT (R510): no valid packet for TWIN.hb_miss Stages. A standby becomes QUERYING (hard cases). Log entries 151, 261. -/
def execTwinHeartbeat (t : Nat) (s : State) : Answer :=
  let s := s.tick t
  let x := s.twin
  if !s.inPair ∨ !x.heartbeat ∨ x.missRun < s.nat TWIN.hb_miss then .next s
  else
    let s := (s.onTwin (fun x => { x with heartbeat := false, hbLosses := inc32 x.hbLosses })).raise 0xD8
      (le 1 0 ++ le 2 (s.nat TWIN.partner) ++ le 1 (satU x.missRun 8))
    if x.st = 3 then .next ((s.mirrorStale.onTwin (fun x => { x with st := 4, rebase := none, resumeAt := none, handoff := none })).leaseAsk 2)
    else if x.st = 1 ∧ x.rebase.isSome then .next ((s.mirrorStale.onTwin (fun x => { x with rebase := none })).setRole 5 2)
    else .next s

/-- The twin link goes up or down (R511). -/
def State.twinLink (up : Bool) (s : State) : State :=
  if s.twin.linkUp = up then s
  else (s.onTwin (fun x => { x with linkUp := up })).raise 0xDD (le 1 (b2n up) ++ le 4 s.twin.crcErrors)

/-- TWIN_LINK (R511). While the line link is failed the twin link is treated as down (R27), and a motion die held in reset
sees no change of it (R24). -/
def execTwinLink (t : Nat) (up : Bool) (s : State) : Answer :=
  let s := s.tick t
  if s.clk.motionHeld then .next s else .next (s.twinLink (up && !(nth s.links 1).failed))

/-! ### GRANT (R526) -/

/-- The selector reading. -/
def State.selReading (s : State) : Bool := s.safe.a.siOf (s.nat TWIN.sel_si)

def State.grantBoundary (s : State) : State :=
  let g := s.localPair && s.twin.st == 2
  if s.twin.grant = g then s else s.onTwin (fun x => { x with grant := g, grantAt := s.now })

/-- GRANT_CHECK (R526): TWIN.sel_time and a Stage after a change of GRANT. -/
def execGrantCheck (t : Nat) (s : State) : Answer :=
  let s := s.tick t
  if s.localPair ∧ s.twin.grantAt + usCycles (s.nat TWIN.sel_time) + s.period ≤ s.now ∧ s.selReading ≠ s.twin.grant then
    .next ((s.raise 0xDF (le 1 (b2n s.twin.grant) ++ le 1 (b2n s.selReading))).haltCause 4)
  else .next s

/-! ### The boundary -/

/-- The member forms and sends its packet (R509, R512, R516, R532). -/
def State.sendPacket (s : State) : State :=
  let x := s.twin
  if x.st = 0 ∨ x.st = 5 then s
  else
    let e := s.stage.epoch
    let (s, mirror) := if x.st = 2 then s.fillMirror 64 s.mirrorP else (s, [])
    let hand := x.handoff == some (e + 3) && x.st == 2
    let left : Nat := match x.leaseEnd with | some u => (u - s.now) / 400 | none => 0
    let p : TwinPkt := {
      kind := x.st, flags := packBits [hand, s.mode.mode != 6, x.rebase.isSome, s.comparing, x.fresh], pair := s.pairId, unit := s.unitId
      boot := s.fab.boot, epoch := e, leaseNo := x.leaseNo, leaseLeft := satU left 32, digest := s.digest, wbCheck := s.wake.wbCheck
      handoffEpoch := if hand then e + 3 else 0, hb := (x.hb + 1) % 2 ^ 32, result := s.twinResult, cmds := x.forwarded
      mirror := mirror }
    s.onTwin (fun x => { x with
      wire := some p, hb := (x.hb + 1) % 2 ^ 32, forwarded := []
      mirrorBytes := if x.st = 2 then (mirror.map (fun (e : MirrorEntry) => 16 + ceilDiv e.data.length 8 * 8)).sum else x.mirrorBytes })

/-- A member in Halt is OUT; an ACTIVE one hands off first, in a local pair (R505, R532). Out of Halt it rejoins (R508). -/
def State.twinHalt (s : State) : State :=
  let x := s.twin
  if s.mode.mode = 6 then
    if x.st = 2 then
      if x.handoff.isSome then s
      else if s.localPair ∧ s.partnerFit then s.beginHandoff s.stage.epoch
      else s.leaveActive 6
    else if x.st = 7 ∨ x.st = 6 then s
    else (s.mirrorStale.setRole 7 6)
  else if x.st = 7 then s.rejoin 3
  else s

/-- What the partner's packet of two Stages ago brings: a hand-off, its being OUT, forwarded commands (R509, R533). -/
def State.usePacket (s : State) : State :=
  match s.twin.st, s.pktOf (s.stage.epoch - 2) with
  | 3, some p =>
    let s := if bit p.flags 0 then (if s.twinFit then s.onTwin (fun x => { x with handoff := some p.handoffEpoch }) else s)
      else if p.kind = 7 ∧ s.twin.handoff.isNone ∧ s.msSince s.twin.reqAt (s.nat TWIN.renew) then s.leaseAsk 2 else s
    p.cmds.foldl (fun s c => match c with
      | .axis a c => s.offerAxis a { src := 1, pair := true } c
      | .path g c => s.offerPath g { src := 1, pair := true } c) s
  | _, _ => s

/-- Twin operation at a boundary. -/
def State.twinBoundary (s : State) : State :=
  if !s.inPair then s
  else
    let s := s.twinHalt
    let e := s.stage.epoch
    let s := s.onTwin (fun x => { x with
      wakeReq := if x.st = 1 ∧ s.stage.aligned then some (x.wakeReq.getD s.now) else x.wakeReq
      missRun := if x.gotPkt then 0 else satU (x.missRun + 1) 8, gotPkt := false
      follow := match x.follow with | some h => if h + 2 ≤ e then none else some h | none => none
      stays := (List.range 12).map (fun a => s.chansValid a && (x.gotPkt || x.stays.getD a false))
      digests := ((e, s.digest) :: x.digests).take 4 })
    (s.twinCompare.usePacket.mirrorAges.grantBoundary).sendPacket

/-! ### The window region -/

def State.regionTwin (s : State) : List Octet :=
  let x := s.twin
  let age (k : Nat) : Nat := match s.itemAge k with | some g => satU g 32 | none => 0xFFFFFFFF
  let top := (s.mirrorItems.filterMap s.itemAge).foldl max 0
  let left : Nat := match x.leaseEnd with | some u => (u - s.now) / 400 | none => 0
  padTo 0x40 (
    le 4 (fieldsOf [(x.st, 0)] + 16 * flagsOf [x.leaseNo != 0, x.heartbeat, x.linkUp, x.rebase.isSome, x.grant, s.selReading, x.stale,
      x.fresh, s.comparing]) ++
    le 2 (s.nat TWIN.partner) ++ le 2 s.pairId ++ le 4 x.leaseNo ++ le 4 (satU left 32) ++ le 8 x.digestOwn ++ le 8 x.digestPartner ++
    le 2 (x.divs.filter (fun k => s.stage.boundaries < k + 1000)).length ++ zeros 2 ++ le 4 x.divergences ++ le 4 x.hbLosses ++
    le 4 x.crcErrors ++ le 4 x.takeovers ++ le 4 x.mirrorBytes ++ le 4 (satU top 32)) ++
  padTo 0xC0 ((List.range 32).flatMap (fun k => le 4 (age k))) ++
  bank 8 16 (fun k =>
    let w := nth x.wit k
    le 2 (s.nat TWIN.serves 0 k) ++ le 2 w.holder ++ le 4 w.leaseNo ++ le 4 (satU ((w.until_ - s.now) / 400) 32) ++ le 4 w.refusals)

end Sys2Proof.Machine
end

