-- ==== Sys2Proof/Machine/Links.lean ====
section
/-! DEFINITION. Die-to-die links, clock supervision, lanes and memory of chapter 01 (R24 to R48). -/

namespace Sys2Proof.Machine

/-- The device mode in effect changes; `cause` is the Halt cause, 0 for none (R674, R678). -/
def State.setMode (m cause : Nat) (s : State) : State :=
  if s.mode.mode = m then s
  else
    let was := s.mode.mode
    let s := { s with mode := { s.mode with
      mode := m, committed := m, causeOf := cause, epochIn := s.stage.epoch, changes := inc32 s.mode.changes
      halts := if m = 6 then inc32 s.mode.halts else s.mode.halts
      timeIn := s.mode.timeIn.modify was (· + (s.now - s.mode.enteredAt)), enteredAt := s.now } }
    let s := s.raise 0x83 (le 1 was ++ le 1 m ++ le 1 cause ++ le 1 s.mode.base)
    if m = 6 ∨ m = 7 then s.beginFlush else s

/-- A die drops its channel of every safe output (reactions to link, clock, lane and memory faults). -/
def State.dropChan (b : Bool) (s : State) : State := (s.onChan b (fun c => { c with dead := true })).driveOuts b

/-- The motion die is held in reset: its timer and lanes stop, its gates, its safe-output channel and GRANT are off (R24,
R36, R58). -/
def State.holdMotion (s : State) : State :=
  let s := { s with clk := { s.clk with motionHeld := true }, stage := { s.stage with running := false }
                    disp := { s.disp with started := false, lanes := [none, none] }, twin := { s.twin with grant := false } }
  (eachIx 12 (fun a s => s.gatesOff a (8 * s.now)) s).dropChan false

/-- A clock fault: channel B drops, the motion die is held in reset and the Pyrad is in Halt. Log entry 185. -/
def State.clockFault (s : State) : State :=
  let s := { s with mode := { s.mode with halt := setBit s.mode.halt 2 true } }
  (s.dropChan true).holdMotion.setMode 6 2

def State.onLink (k : Nat) (f : Link → Link) (s : State) : State := { s with links := s.links.modify k f }

/-- HEARTBEAT_FLIT (R25): an idle link carries a heartbeat within 1 µs of its last flit. Two copies that have failed stay a
failure of the link (R27). -/
def execHeartbeatFlit (t link : Nat) (s : State) : Answer :=
  let s := s.tick t
  if (nth s.links link).failed then .next s
  else .next (s.onLink link (fun l => { l with lastFlit := s.now }))

/-- FLIT_CHECK_FAIL (R26): a flit fails its check and is sent once more; `resentOk` says whether that copy passes. -/
def execFlitCheckFail (t link : Nat) (resentOk : Bool) (s : State) : Answer :=
  let s := s.tick t
  if (nth s.links link).failed then .next s
  else .next (s.onLink link (fun l =>
    if resentOk then { l with retry := inc32 l.retry, lastFlit := s.now } else { l with twoFailed := true }))

/-- The reactions to the failure of a link. Log entry 189. -/
def State.linkReact (link : Nat) (s : State) : State :=
  match link with
  | 0 => ((s.dropChan false).dropChan true).haltCause 2
  | 1 =>
    let s := eachIx 2 (fun p s => s.losePeers p (fun _ => true)) s
    let s := s.twinLink false
    (eachIx 12 (fun a s => s.orderSs1 a 0xF2) s).haltCause 2
  | _ =>
    let s := (s.onPurse (fun p => { p with linkFailed := true, grant := 0 })).holdUp.tiers
    let s := eachIx 12 (fun a s => if s.defined a then s.orderSto a 0xF2 else s) s
    (s.haltCause 2).powerFlushBegin

/-- DIE_LINK_FAULT (R27): no valid flit for 4 µs (cause 0), or two copies failed (cause 1). `detector` is the die that sees
it. Log entry 189. -/
def execDieLinkFault (t link cause detector : Nat) (s : State) : Answer :=
  let s := s.tick t
  let l := nth s.links link
  let due := if cause = 0 then decide (l.lastFlit + 1600 ≤ s.now) else l.twoFailed
  if 3 ≤ link ∨ l.failed ∨ !due then .next s
  else
    let s := s.onLink link (fun l => { l with failed := true })
    .next ((s.raise 0xF2 (le 1 link ++ le 1 cause ++ le 1 detector)).linkReact link)

/-- EDGE_CLOCK_CHECK (R36): the Steward's measurement of the edge clock over 1 ms, in kHz. While the motion die is held in
reset, before the trims and after a clock fault, its clock is not judged. Log entry 233. -/
def execEdgeClockCheck (t khz : Nat) (s : State) : Answer :=
  let s := s.tick t
  if s.clk.edgeFault ∨ s.clk.motionHeld ∨ (388000 ≤ khz ∧ khz ≤ 412000) then .next s
  else .next (({ s with clk := { s.clk with edgeFault := true } }.raise 0xF1 (le 1 0 ++ le 1 1 ++ le 4 khz)).clockFault)

/-- PLL_LOSS_OF_LOCK (R36). -/
def execPllLossOfLock (t : Nat) (s : State) : Answer :=
  let s := s.tick t
  if s.clk.edgeFault then .next s
  else .next (({ s with clk := { s.clk with edgeFault := true } }.raise 0xF1 (le 1 0 ++ le 1 0 ++ le 4 0)).clockFault)

/-- RTC_CHECK (R37): the Steward's measurement of the real-time clock over 1 s, in mHz, 0 when stopped. The life clock goes
on from the Steward oscillator while it is faulty. -/
def execRtcCheck (t mhz : Nat) (s : State) : Answer :=
  let s := s.tick t
  let bad := mhz < 31129600 || 34406400 < mhz
  if bad = s.clk.rtcFault then .next s
  else
    let s := s.onLed (fun l => { l with life64 := s.life64, tickAt := s.now })
    let s := { s with clk := { s.clk with rtcFault := bad } }
    .next (if bad then s.raise 0xF3 (le 1 (if mhz = 0 then 0 else 1) ++ le 4 mhz) else s)

/-- LOCKSTEP_MISMATCH (R47): the cores of a lane disagree. -/
def execLockstepMismatch (t lane : Nat) (s : State) : Answer :=
  let s := s.tick t
  if 2 ≤ lane ∨ s.clk.laneStopped.getD lane false then .next s
  else
    let s := { s with clk := { s.clk with laneStopped := s.clk.laneStopped.set lane true } }
    .next (((s.raise 0xF5 (le 1 lane ++ le 8 s.now)).dropChan false).haltCause 2)

/-- MEMORY_ECC (R48): an SRAM access finds an error in the 64-bit word at `addr`. -/
def execMemoryEcc (t addr : Nat) (double : Bool) (s : State) : Answer :=
  let s := s.tick t
  if double then
    let s := { s with clk := { s.clk with eccDouble := inc32 s.clk.eccDouble } }
    .next (((s.raise 0xF4 (le 4 addr ++ le 1 2) 3).dropChan false).haltCause 2)
  else
    let s := { s with clk := { s.clk with eccCorrected := inc32 s.clk.eccCorrected } }
    .next (s.raise 0xF4 (le 4 addr ++ le 1 1) 2)

end Sys2Proof.Machine
end

