-- ==== Sys2Proof/Machine/Checks.lean ====
section
/-! DEFINITION. The checks of a waybill's sections: ranges and reserved bits, ratios in lowest terms, the check tables of
every chapter, the required fields and the coherence sets (R13, R14, R73, R126, R189, R231, R283, R317, R336, R394, R431,
R462, R504, R542, R570, R604, R656, R661, R675, R702, R745). -/

namespace Sys2Proof.Machine

/-- A check of a section's chapter. `coh` says that it compares the fields of one coherence set (R641). -/
structure Chk where
  sec : Nat
  coh : Bool := false
  ok : State → Bool

def each (n : Nat) (p : Nat → Bool) : Bool := (List.range n).all p

/-- `a` implies `b`. -/
def imp (a b : Bool) : Bool := !a || b

def distinct (l : List Nat) : Bool := l.eraseDups.length == l.length

/-- No two of the first `n` things share a member. -/
def disjoint (n : Nat) (f : Nat → List Nat) : Bool :=
  each n (fun a => each n (fun b => a == b || (f a).all (fun x => !(f b).contains x)))

/-- Bits set in a mask. -/
def bitsOf (n m : Nat) : List Nat := (List.range n).filter (bit m)

/-! ### The task graph (R73) -/

/-- C_avail of R73. -/
def State.cAvail (s : State) : Nat := s.period - s.slew - 99

/-- The successors of a task. -/
def graphNext (g : Graph) (t : Task) : List Nat := (g.succs.drop t.succIx).take t.nsucc

/-- Tasks that no remaining task precedes are taken away, `n` times. -/
def graphPeel (g : Graph) : Nat → List Nat → List Nat
  | 0, l => l
  | n + 1, l =>
    graphPeel g n (l.filter (fun x => l.any (fun y => (graphNext g (nth g.tasks y)).contains x)))

def graphAcyclic (g : Graph) : Bool := (graphPeel g (g.tasks.length + 1) (List.range g.tasks.length)).isEmpty

/-- The load of the tasks that `pick` picks, in a Stage whose epoch is r mod 1,024. -/
def graphLoad (g : Graph) (r : Nat) (pick : Task → Bool) : Nat :=
  (g.tasks.map (fun t =>
    if !pick t then 0
    else match t.kind with
      | 0 => t.budget + 40
      | 1 => t.maxi * (t.budget + 40)
      | _ => if r % 2 ^ t.rate = t.phase then t.budget + 40 else 0)).sum

/-- The listed values of a task record (R14). -/
def taskListed (t : Task) : Bool :=
  decide (t.prio ≤ 15) && decide (t.flow ≤ 63) && imp (!t.flowEn) (t.flow == 0) && decide (t.kind ≤ 2) && decide (1 ≤ t.budget) &&
  (decide (t.bind ≤ 12) || t.bind == 15) &&
  t.rsvd == 0 &&
  (if t.kind = 2 then decide (1 ≤ t.rate) && decide (t.rate ≤ 10) else t.rate == 0 && t.phase == 0) &&
  (if t.kind = 1 then decide (1 ≤ t.srcKind) && decide (t.srcKind ≤ 3) && decide (1 ≤ t.maxi) && decide (t.maxi ≤ 63)
   else t.srcKind == 0 && t.srcIx == 0 && t.maxi == 0)

def waitListed (w : WaitEntry) : Bool :=
  decide (1 ≤ w.wkind) && decide (w.wkind ≤ 4) && imp (w.wkind == 3) (decide (w.wix ≤ 15)) &&
  imp (w.wkind == 4) (w.wix == 0 && !w.onto) && w.rsvd == 0

def graphListed (g : Graph) : Bool :=
  decide (1 ≤ g.tasks.length) && decide (g.tasks.length ≤ 1024) && decide (g.succs.length ≤ 4096) &&
  decide (g.waits.length ≤ 1024) && g.rsvd == 0 && g.tasks.all taskListed && g.waits.all waitListed

def checksStage : List Chk :=
  let tasks (p : State → Task → Bool) : Chk := { sec := 1, ok := fun s => s.graph.tasks.all (p s) }
  let range (s : State) (t : Task) : Bool := decide (t.succIx + t.nsucc ≤ s.graph.succs.length)
  [tasks (fun s t => (s.kernelOf t.kernel).isSome),
   tasks (fun s t => decide (((s.kernelOf t.kernel).map (·.minBudget)).getD 0 ≤ t.budget) && decide (t.budget ≤ s.cAvail)),
   tasks (fun s t => decide (t.bound ≤ s.cAvail) && decide (t.budget ≤ t.bound)),
   tasks range,
   { sec := 1, ok := fun s => s.graph.succs.all (fun x => decide (x < s.graph.tasks.length)) },
   { sec := 1, ok := fun s => s.graph.tasks.zipIdx.all (fun t =>
      t.1.deps == (s.graph.tasks.map (fun u => (graphNext s.graph u).count t.2)).sum) },
   { sec := 1, ok := fun s => graphAcyclic s.graph },
   { sec := 1, ok := fun s => s.graph.tasks.zipIdx.all (fun t =>
      imp (t.1.kind == 1) (t.1.deps == 0 && t.1.nsucc == 0 && !s.graph.succs.contains t.2)) },
   tasks (fun _ t => imp (t.kind == 2) (decide (t.phase < 2 ^ t.rate))),
   tasks (fun s t => imp t.waitEn (decide (t.waitIx < s.graph.waits.length))),
   { sec := 1, ok := fun s => s.graph.waits.all (fun w => decide (w.deadline ≤ s.cAvail + 35)) },
   { sec := 1, ok := fun s =>
      ((s.graph.tasks.filter (·.flowEn)).map (·.flow)).eraseDups.all (fun f => each 1024 (fun r =>
        decide (graphLoad s.graph r (fun t => t.flowEn && t.flow == f) ≤ s.cAvail))) },
   { sec := 1, ok := fun s => each 1024 (fun r => decide (graphLoad s.graph r (fun _ => true) ≤ 2 * s.cAvail)) },
   -- R675
   { sec := 1, ok := fun s => match s.graph.tasks.filter (fun t => t.kernel == 1) with
      | [t] => t.kind == 0 && t.bind == 12
      | _ => false }]

/-! ### The MODES block (R702) -/

def State.siUsed (s : State) (n : Nat) : Bool := n == 0 || s.nat SAFE_IN.kind (n - 1) != 0

def State.dinRole (s : State) (role n : Nat) : Bool := n == 0 || s.nat DIN.role (n - 1) == role

def State.carUsed (s : State) (c : Nat) : Bool := s.nat CAR.axis c != 0

def checksModes : List Chk :=
  [{ sec := 2, ok := fun s => s.siUsed (s.nat MODES.insp_si) && s.dinRole 1 (s.nat MODES.rescue_in) &&
      s.dinRole 1 (s.nat RECALL.trigger) && s.dinRole 6 (s.nat MODES.insp_enable) &&
      each 4 (fun c => s.dinRole 6 (s.nat MODES.insp_up 0 c) && s.dinRole 6 (s.nat MODES.insp_down 0 c) &&
        s.dinRole 6 (s.nat RECALL.input 0 c)) },
   { sec := 2, ok := fun s => each 4 (fun c =>
      imp (s.nat MODES.insp_up 0 c != 0 || s.nat MODES.insp_down 0 c != 0) (s.carUsed c)) },
   { sec := 2, ok := fun s => imp (s.nat RECALL.trigger != 0) (each 4 (fun p => each 4 (fun c =>
      let l := s.nat RECALL.landing 0 p c
      l == 255 || (s.carUsed c && decide (l < s.nat CAR.count c))))) },
   { sec := 2, ok := fun s => s.nat RECALL.input 0 0 == 0 &&
      imp (s.nat RECALL.input 0 3 != 0) (s.nat RECALL.input 0 1 != 0 && s.nat RECALL.input 0 2 != 0) &&
      imp (s.nat RECALL.input 0 2 != 0) (s.nat RECALL.input 0 1 != 0) },
   { sec := 2, ok := fun s => imp (s.flag MODES.flags 3) (s.nat MODES.rescue_in != 0) }]

/-! ### Records of unused axes (R234) -/

def State.axisProfs (s : State) (a : Nat) : List Nat :=
  if s.defined a then (List.range (s.nat AXIS.prof_count a)).map (s.nat AXIS.prof_first a + ·) else []

/-- The PROFILE records that are claimed. -/
def State.profsUsed (s : State) : List Nat :=
  ((List.range 12).flatMap s.axisProfs ++
    ((List.range 4).filter (fun g => s.nat PATH.members g != 0)).map (s.nat PATH.profile ·)).eraseDups

/-- A record that no check looks at: an AXIS, HOMING or SAFE_AXIS record of an unused axis, and a PROFILE record that
nothing claims (R234, R283). Log entry 220. -/
def State.unchecked (s : State) (sec i : Nat) : Bool :=
  if sec = 0x30 ∨ sec = 0x40 ∨ sec = 0x63 then !s.defined i
  else if sec = 0x31 then !s.profsUsed.contains i
  else false

/-! ### Ratios (R126) -/

/-- The ratios of the waybill: numerator and denominator. Log entry 183. -/
def ratios : List (Field × Field) :=
  [(FB.num, FB.den), (EMU.num, EMU.den), (AXIS.om_num, AXIS.om_den), (AXIS.th_num, AXIS.th_den),
   (AXIS.follow_num, AXIS.follow_den), (GEAR.num, GEAR.den)]

def checksRatio : List Chk :=
  ratios.map (fun r => { sec := r.1.sec, coh := true, ok := fun s => each r.1.recs (fun i =>
    s.unchecked r.1.sec i || (s.int r.2 i != 0 && Nat.gcd (s.int r.1 i).natAbs (s.nat r.2 i) == 1)) })

/-! ### Feedback, current, axes (R189, R231, R283) -/

/-- A role 2, 3 or 4 input names an axis (R181). -/
def checksDin : List Chk :=
  [{ sec := 0x12, ok := fun s => each 64 (fun i =>
      imp (2 ≤ s.nat DIN.role i && s.nat DIN.role i ≤ 4) (s.nat DIN.axis i != 0)) }]

def ssiFields : List Field := [FB.ssi_bits, FB.ssi_div, FB.ssi_monoflop, FB.ssi_status, FB.ssi_latch, FB.ssi_max_step]

def scCheckFields : List Field :=
  [FB.amp_nom, FB.amp_lo, FB.amp_hi, FB.amp_samples, FB.sc_off_s, FB.sc_off_c, FB.sc_gain_s, FB.sc_gain_c, FB.sc_k1, FB.sc_k2]

def State.rawZero (s : State) (l : List Field) (i : Nat) : Bool := l.all (fun f => s.raw f i == 0)

def checksFb : List Chk :=
  let ch (p : State → Nat → Bool) : Chk := { sec := 0x11, ok := fun s => each 16 (p s) }
  let kind (s : State) (c : Nat) : Nat := s.nat FB.kind c
  [ch (fun s c => imp (kind s c == 1)
      (s.indexPeriod c % 4 == 0 && s.raw FB.interp_log2 c == 0 && s.rawZero ssiFields c)),
   ch (fun s c => imp (kind s c == 2)
      (s.cpr c % 2 ^ s.nat FB.interp_log2 c == 0 && !s.flag FB.flags 1 c && s.rawZero ssiFields c)),
   ch (fun s c => imp (kind s c == 3)
      (s.cpr c == 2 ^ s.nat FB.ssi_bits c && !s.flag FB.flags 0 c && !s.flag FB.flags 1 c &&
       s.raw FB.interp_log2 c == 0 && s.rawZero scCheckFields c)),
   ch (fun s c => imp (kind s c == 1 || kind s c == 2)
      (imp (s.flag FB.flags 1 c) (s.flag FB.flags 0 c) && decide (2 * s.nat FB.index_tol c < s.indexPeriod c))),
   ch (fun s c => imp (kind s c == 3) (decide (s.ssiFrameBits c * 2 * s.nat FB.ssi_div c + 464 ≤ s.ssiLatch c))),
   ch (fun s c => imp (kind s c == 3)
      (decide (s.ssiFrameBits c * 2 * s.nat FB.ssi_div c + s.nat FB.ssi_div c + s.nat FB.ssi_monoflop c ≤ s.period - s.slew) &&
       decide (s.ssiLatch c + s.nat FB.ssi_monoflop c ≤ s.period - s.slew))),
   ch (fun s c => imp (kind s c == 3) (decide (s.ssiMaxStep c < 2 ^ (s.nat FB.ssi_bits c - 1)))),
   { sec := 0x11, ok := fun s => each 4 (fun e => match s.nat EMU.source e with
      | 0 => true
      | 1 => kind s (s.nat EMU.index e) != 0
      | _ => s.defined (s.nat EMU.index e)) }]

/-- The half-bridges, and the channels, that an axis claims. -/
def State.hbsOf (s : State) (a : Nat) : List Nat := (List.range (kindHbs (s.kind a))).map (s.nat CURRENT.hb_base a + ·)

def State.chsOf (s : State) (a : Nat) : List Nat := (List.range (kindChs (s.kind a))).map (s.phBase a + ·)

def checksCurrent : List Chk :=
  let ax (p : State → Nat → Bool) (coh : Bool := false) : Chk := { sec := 0x20, coh := coh, ok := fun s => each 12 (p s) }
  let drives (s : State) (a : Nat) : Bool := 1 ≤ s.kind a && s.kind a ≤ 3
  [ax (fun s a => (s.hbsOf a).all (fun h => decide (h ≤ 47)) && (s.chsOf a).all (fun c => decide (c ≤ 35))),
   { sec := 0x20, ok := fun s => disjoint 12 s.hbsOf && disjoint 12 s.chsOf },
   { sec := 0x20, ok := fun s => each 36 (fun c => (s.nat CURRENT.form c != 0) == (s.claimOf c).isSome) },
   ax (fun s a => imp (!drives s a)
      (s.raw CURRENT.hb_base a == 0 && s.raw CURRENT.ph_base a == 0 && s.raw CURRENT.flags a == 0)),
   ax (fun s a => imp (s.defined a) (decide (125 * s.nat CURRENT.sw_target a ≤ 16 * s.period))),
   ax (fun s a => imp (s.defined a) (decide (s.nat CURRENT.dead a + 8 ≤ s.nat CURRENT.min_pulse a))) true,
   ax (fun s a => imp (s.defined a) (decide (s.nat CURRENT.band_min a ≤ s.nat CURRENT.band_init a) &&
      decide (s.nat CURRENT.band_init a ≤ s.nat CURRENT.band_max a))) true,
   { sec := 0x20, ok := fun s => each 36 (fun c => decide (s.nat CURRENT.oc_slow c ≤ s.nat CURRENT.oc_fast c)) },
   ax (fun s a => (s.chsOf a).all (fun c => decide (s.nat CURRENT.i_max a < s.nat CURRENT.oc_fast c))),
   ax (fun s a => imp (s.flag CURRENT.flags 1 a) (s.kind a == 2 || s.kind a == 3))]

/-- The channels that an axis uses. -/
def State.axisChs (s : State) (a : Nat) : List Nat :=
  if s.defined a then ((s.fbMotor a).toList ++ (s.fbPos a).toList).eraseDups else []

def checksAxis : List Chk :=
  let ax (p : State → Nat → Bool) (coh : Bool := false) : Chk :=
    { sec := 0x30, coh := coh, ok := fun s => each 12 (fun a => imp (s.defined a) (p s a)) }
  let pr (p : State → Nat → Bool) : Chk := { sec := 0x31, coh := true, ok := fun s => s.profsUsed.all (p s) }
  let rotary (s : State) (a : Nat) : Bool := s.flag AXIS.flags 0 a
  [ax (fun s a => imp (s.kind a == 1 || (s.kind a == 2 && !s.flag AXIS.flags 1 a)) (s.fbMotor a).isSome &&
      (s.axisChs a).all (fun c => s.nat FB.kind c != 0)),
   { sec := 0x30, ok := fun s => disjoint 12 s.axisChs },
   ax (fun s a => imp (s.flag AXIS.flags 1 a) (s.kind a == 2)),
   ax (fun s a => imp (1 ≤ s.kind a && s.kind a ≤ 3) (decide (s.nat AXIS.i_lim a ≤ s.nat CURRENT.i_max a)) &&
      decide (s.nat AXIS.i_hold a ≤ s.nat AXIS.i_lim a)),
   ax (fun s a => decide (s.nat AXIS.i_int a ≤ s.nat AXIS.i_lim a)) true,
   ax (fun s a => imp (rotary s a) ((s.nat AXIS.unit a == 3 || s.nat AXIS.unit a == 4) && !s.flag AXIS.flags 3 a)),
   ax (fun s a => imp (s.flag AXIS.flags 3 a) (decide (s.int AXIS.soft_min a < s.int AXIS.soft_max a))) true,
   ax (fun s a => imp (s.flag AXIS.flags 2 a) (each 4 (fun c => s.carAxis c != some a) == false)),
   ax (fun s a => (s.axisProfs a).all (fun p => decide (p < 48))),
   { sec := 0x30, ok := fun s => disjoint 12 s.axisProfs },
   ax (fun s a => match s.nat AXIS.follow_src a with
      | 1 => decide (s.nat AXIS.follow_index a ≤ 7)
      | 2 => s.nat FB.kind (s.nat AXIS.follow_index a) == 1
      | 3 => decide (s.nat AXIS.follow_index a ≤ 3) && s.nat ANALOG.role (s.nat AXIS.follow_index a) == 3
      | _ => true),
   ax (fun s a => decide (s.int AXIS.hand_dp a ≤ s.int AXIS.ferr_max a)),
   pr (fun s p => decide (s.nat PROFILE.v_start p ≤ s.profV1 p) && decide (s.profV1 p ≤ s.profVmax p) &&
      decide (s.nat PROFILE.v_stop p ≤ s.profV1 p)),
   pr (fun s p => decide (s.profVmax p * 65536 ≤ 2 ^ 24 * min (s.profD1 p) (s.profD2 p))),
   pr (fun s p => decide ((s.profOf p 0).smooth ≤ 16384))]

/-! ### Paths, gearing, capture, compare, homing (R317, R336) -/

/-- The list of a compare output rises in its direction. -/
def State.cmpRises (s : State) (o : Nat) : Bool :=
  let n := s.nat COMPARE.count o
  each (n - 1) (fun j => decide (0 < s.cmpDir o * (s.cmpEntry o (j + 1) - s.cmpEntry o j)))

def checksPath : List Chk :=
  [{ sec := 0x32, ok := fun s => disjoint 4 s.members && each 4 (fun g => (s.members g).all (fun a =>
      s.defined a && !s.measuring a && each 12 (fun c => s.nat GEAR.slave c != a + 1))) },
   { sec := 0x32, ok := fun s => each 4 (fun g => imp (s.nat PATH.members g != 0)
      (let m := s.natOr PATH.feed_mask g (s.nat PATH.members g)
       m != 0 && m &&& s.nat PATH.members g == m)) },
   { sec := 0x33, ok := fun s => each 12 (fun c => imp (s.nat GEAR.slave c != 0)
      (s.nat GEAR.src c == 3 || s.nat GEAR.src_index c + 1 != s.nat GEAR.slave c)) &&
      distinct (((List.range 12).map (s.nat GEAR.slave ·)).filter (· != 0)) },
   { sec := 0x33, ok := fun s => each 12 (fun c => imp (s.nat GEAR.slave c != 0)
      (if s.nat GEAR.src c = 3 then s.nat FB.kind (s.nat GEAR.src_index c) != 0 else s.defined (s.nat GEAR.src_index c))) },
   { sec := 0x35, ok := fun s => each 8 (fun o => match s.nat COMPARE.source o with
      | 0 => true
      | 1 => s.nat FB.kind (s.nat COMPARE.index o) != 0
      | _ => s.defined (s.nat COMPARE.index o)) },
   { sec := 0x34, ok := fun s =>
      let f (a : Nat) : List Nat := if s.defined a && s.nat AXIS.follow_src a == 1 then [s.nat AXIS.follow_index a] else []
      disjoint 12 f && each 12 (fun a => (f a).all (fun k =>
        s.nat CAPTURE.mode (2 * k) == 2 && s.nat CAPTURE.mode (2 * k + 1) == 2)) },
   { sec := 0x35, coh := true, ok := fun s => each 8 (fun o => imp (s.nat COMPARE.source o != 0)
      (decide (s.nat COMPARE.first o + s.nat COMPARE.count o ≤ 4096))) },
   { sec := 0x35, ok := fun s => each 8 (fun o => imp (s.nat COMPARE.source o != 0) (s.cmpRises o &&
      (let p := s.int COMPARE.period o
       let n := s.nat COMPARE.count o
       p == 0 || (decide (0 < p * s.cmpDir o) && decide ((s.cmpEntry o (n - 1) - s.cmpEntry o 0).natAbs < p.natAbs))))) }]

def checksHoming : List Chk :=
  let ax (p : State → Nat → Bool) (coh : Bool := false) : Chk :=
    { sec := 0x40, coh := coh, ok := fun s => each 12 (fun a => imp (s.defined a) (p s a)) }
  let m (s : State) (a : Nat) : Nat := s.nat HOMING.method a
  [ax (fun s a => imp (m s a == 1 || m s a == 2 || m s a == 4)
      (s.dinAxis (s.nat HOMING.input a) == some a && s.nat DIN.role (s.nat HOMING.input a) ==
        (if m s a = 1 then (if s.nat HOMING.dir a = 1 then 2 else 3) else 4))),
   ax (fun s a => imp (m s a == 3 || m s a == 4) (match s.fbPos a with
      | some c => (s.nat FB.kind c == 1 || s.nat FB.kind c == 2) && s.flag FB.flags 0 c
      | none => false)),
   ax (fun s a => if m s a = 6 then (match s.fbPos a with | some c => s.nat FB.kind c == 3 | none => false)
      else !s.flag HOMING.flags 1 a),
   ax (fun s a => decide (s.nat HOMING.hs_lead a < s.nat AXIS.ferr_max a) &&
      decide (s.nat HOMING.hs_current a ≤ s.nat AXIS.i_lim a)),
   ax (fun s a => imp (s.flag AXIS.flags 0 a) ([HOMING.home_pos, HOMING.final].all (fun f =>
      decide (0 ≤ s.int f a) && decide (s.int f a < s.int AXIS.modulo a)))),
   ax (fun s a => decide (1 ≤ (s.readHome a).vCreep) && decide ((s.readHome a).vCreep ≤ (s.readHome a).vSearch)) true]

/-! ### Cars, landings, doors (R394) -/

/-- The landing check of one car: zones rise, and records beyond the count are zero. -/
def State.landingsOk (s : State) (c : Nat) : Bool :=
  let z := s.zones c
  z.all (fun x => decide (x.2.1 < x.2.2)) &&
  (z.zip (z.drop 1)).all (fun x => decide (x.1.2.2 < x.2.2.1)) &&
  s.cfg.all (fun x => !(x.sec == 0x51 && decide (256 * c + s.nat CAR.count c ≤ x.idx) && decide (x.idx < 256 * (c + 1))))

def checksCar : List Chk :=
  let car (p : State → Nat → Nat → Bool) (coh : Bool := false) : Chk :=
    { sec := 0x50, coh := coh, ok := fun s => each 4 (fun c => match s.carAxis c with | some a => p s c a | none => true) }
  let door (p : State → Nat → Nat → Bool) (coh : Bool := false) : Chk :=
    { sec := 0x52, coh := coh, ok := fun s => each 8 (fun d => match s.doorAxis d with | some a => p s d a | none => true) }
  let marker (s : State) (a n : Nat) : Bool := n == 0 || (s.nat DIN.role (n - 1) == 5 && s.dinAxis (n - 1) == some a)
  [car (fun s _ a => s.defined a && s.flag AXIS.flags 2 a && (s.nat AXIS.unit a == 1 || s.nat AXIS.unit a == 2) &&
      !s.flag AXIS.flags 0 a),
   { sec := 0x50, ok := fun s => each 12 (fun a =>
      decide (((List.range 4).filter (fun c => s.carAxis c == some a)).length ≤ 1)) },
   car (fun s c a => marker s a (s.nat CAR.dz_in0 c) && marker s a (s.nat CAR.dz_in1 c) &&
      s.nat CAR.dz_in0 c != s.nat CAR.dz_in1 c),
   car (fun s c a => match s.shaftCh c with
      | some ch => s.nat FB.kind ch != 0 && s.fbMotor a != some ch
      | none => !s.flag CAR.flags 0 c),
   car (fun s c _ => s.nat CAR.load_in c == 0 || s.nat ANALOG.role (s.nat CAR.load_in c - 1) == 1),
   car (fun s c _ => decide (s.nat CAR.level_tol c < s.nat CAR.relevel_start c)) true,
   { sec := 0x51, ok := fun s => each 4 (fun c => s.landingsOk c) },
   door (fun s d a => s.defined a && s.nat AXIS.unit a == 1 && (s.carOf a).isNone &&
      [DOOR.prof_open, DOOR.prof_close, DOOR.prof_nudge].all (fun f => decide (s.nat f d < s.nat AXIS.prof_count a))),
   { sec := 0x52, ok := fun s => each 8 (fun d => each 8 (fun e =>
      imp (d != e && s.nat DOOR.axis d != 0 && s.nat DOOR.axis d == s.nat DOOR.axis e)
        (s.nat DOOR.kind d == 2 && s.nat DOOR.kind e == 2 && s.int DOOR.closed_pos d == s.int DOOR.closed_pos e &&
         s.nat DOOR.side d != s.nat DOOR.side e))) },
   door (fun s d _ => (bitsOf 4 (s.nat DOOR.cars d)).all s.carUsed),
   door (fun s d _ => decide (s.nat DOOR.f_obst d < s.nat DOOR.f_close d)) true,
   door (fun s d a => decide (s.nat DOOR.f_close d ≤ s.nat AXIS.i_lim a)),
   door (fun s d _ => decide (s.nat DOOR.e_nudge d ≤ s.nat DOOR.e_max d)) true,
   door (fun s d _ => decide (s.nat DOOR.end_zone d < (s.int DOOR.open_pos d - s.int DOOR.closed_pos d).natAbs)) true,
   door (fun s d a => [DOOR.prof_open, DOOR.prof_close, DOOR.prof_nudge].all (fun f =>
      decide (s.profVmax (s.nat AXIS.prof_first a + s.nat f d) < 2 ^ 31)))]

/-! ### Safety (R431) -/

/-- The literals of a term with the bits of theirs that are reserved. -/
def State.litRaw (s : State) (t k : Nat) : Nat := (cellGet s.cfg INTERLOCK.n_terms.sec 0 (10 + 16 * t + 2 * k)).toNat

def State.termCount (s : State) (t : Nat) : Nat := (cellGet s.cfg INTERLOCK.n_terms.sec 0 (9 + 16 * t)).toNat

def sigListed (i : Nat) : Bool := decide (i < 0x3C) || (0x40 ≤ i && i < 0x4C) || (0x50 ≤ i && i < 0x60) || i == 0xFF

def targetListed (i : Nat) : Bool :=
  decide (i ≤ 0xC) || (0x11 ≤ i && i ≤ 0x1C) || (0x21 ≤ i && i ≤ 0x2C) || (0x30 ≤ i && i ≤ 0x45) || (0x50 ≤ i && i ≤ 0x5F)

/-- The pairs that serve as EDM. -/
def State.edms (s : State) : List Nat :=
  ((List.range 22).map (s.nat SAFE_OUT.edm ·) ++ [s.nat SAFE.mp_edm]).filter (· != 0)

def State.slsNamed (s : State) (a : Nat) : Bool :=
  s.nat SAFE_AXIS.sls_modes a != 0 || s.terms.any (fun t => t.1 == 0x21 + a)

def checksSafe : List Chk :=
  [{ sec := 0x60, ok := fun s => s.siUsed (s.nat SAFE.reset_si) && s.siUsed (s.nat SAFE.mp_edm) && distinct s.edms },
   { sec := 0x62, ok := fun s => s.edms.all s.siUsed },
   { sec := 0x62, ok := fun s => each 12 (fun a => imp (1 ≤ s.kind a && s.kind a ≤ 3)
      (((List.range 22).filter (fun o => s.nat SAFE_OUT.role o == 1 && s.nat SAFE_OUT.axis o == a + 1)).length == 1)) &&
      each 22 (fun o => match s.nat SAFE_OUT.role o, s.nat SAFE_OUT.axis o with
        | 1, a | 2, a => a != 0 && s.defined (a - 1)
        | 3, c => 1 ≤ c && c ≤ 4 && s.carUsed (c - 1)
        | _, _ => true) },
   { sec := 0x63, ok := fun s => each 12 (fun a => imp (s.defined a)
      (imp (s.slsNamed a) (s.raw SAFE_AXIS.sls_v a != 0) && decide (1 ≤ s.ss1Decel a) &&
       (s.raw SAFE_AXIS.test_current a == 0 || decide (s.nat SAFE_AXIS.test_current a ≤ s.nat AXIS.i_lim a)))) },
   { sec := 0x64, ok := fun s => each 4 (fun c => imp (s.carUsed c)
      (s.raw SAFE_CAR.locks c != 0 && s.raw SAFE_CAR.v_rated c != 0 && s.siUsed (s.nat SAFE_CAR.zone_si c) &&
       (bitsOf 24 (s.nat SAFE_CAR.locks c)).all (fun i => s.siUsed (i + 1)) &&
       imp (s.flag SAFE_CAR.flags 0 c) (s.nat SAFE_CAR.zone_si c != 0 && s.flag CAR.flags 0 c) &&
       decide (1 ≤ s.bypassV c) && decide (s.bypassV c ≤ s.nat SAFE_CAR.v_rated c))) },
   { sec := 0x65, ok := fun s => s.terms.zipIdx.all (fun x =>
      let n := s.termCount x.2
      targetListed x.1.1 && 1 ≤ n && decide (n ≤ 7) && x.1.2.all (fun l => sigListed l.1) &&
      each 7 (fun k => if k < n then decide (s.litRaw x.2 k < 512) else s.litRaw x.2 k == 0)) },
   { sec := 0x65, ok := fun s => s.terms.any (fun t => t.1 == 0) },
   { sec := 0x65, ok := fun s => s.terms.all (fun t => t.2.all (fun l => decide (0x18 ≤ l.1) || s.siUsed (l.1 + 1))) },
   { sec := 0x65, ok := fun s => s.terms.zipIdx.all (fun x => s.terms.zipIdx.all (fun y =>
      imp (decide (0x50 ≤ y.1.1) && x.1.2.any (fun l => l.1 == y.1.1)) (decide (y.2 < x.2)))) }]

/-! ### Dispatch, fabric, twin, purse, Ledger (R462, R504, R542, R570, R604) -/

def checksDispatch : List Chk :=
  let n (s : State) (f : Field) : Nat := s.nat f
  [{ sec := 0x70, ok := fun s => imp (s.group == 0) (s.raw DISPATCH.flags == 0 &&
      each 64 (fun i => s.nat BUTTON.kind i != 1 && s.nat BUTTON.kind i != 2)) },
   { sec := 0x70, ok := fun s => if s.dspMode = 3
      then (let l := bitsOf 4 (n s DISPATCH.cars)
            decide (1 ≤ l.length) && decide (l.length ≤ 2) && l.all s.carUsed)
      else decide (n s DISPATCH.members ≤ 64) },
   { sec := 0x70, ok := fun s => imp (s.group != 0) (n s DISPATCH.collector_alt != n s DISPATCH.collector) },
   { sec := 0x70, coh := true, ok := fun s =>
      decide (n s DISPATCH.lead + 64 * n s DISPATCH.slot_len + 64 * n s DISPATCH.ws_step ≤ n s DISPATCH.window) },
   { sec := 0x70, ok := fun s => each 4 (fun c => imp (s.carUsed c)
      (decide (s.nat DISPATCH.land_offset 0 c + s.nat CAR.count c ≤ 256))) },
   { sec := 0x71, ok := fun s => each 64 (fun i => imp (s.nat BUTTON.kind i != 0)
      (s.nat DIN.role i == 6 && s.carUsed (s.nat BUTTON.car i) && s.dspMode != 3)) }]

/-- B of R504. -/
def State.wireLoad (s : State) : Nat × Nat :=
  let add (x : Nat × Nat) (b p : Nat) : Nat × Nat := (x.1 * p + 640 * b * x.2, x.2 * p)
  let x := (List.range 16).foldl (fun x k =>
    if s.nat SAFECON.dir k = 1 then add x 100 (s.nat SAFECON.period k) else x) (0, 1)
  (List.range 12).foldl (fun x a => if s.kind a = 4 then add x 118 (s.nat XD.div a) else x) x

def checksFabric : List Chk :=
  let peers (s : State) (p : Nat) : List Nat := (List.range 16).map (fun k => s.nat FABRIC.peers 0 p k)
  let con (s : State) (p : Nat → Bool) : Bool := each 16 (fun k => imp (s.nat SAFECON.dir k != 0) (p k))
  [{ sec := 0x80, ok := fun s => s.pairId != s.unitId },
   { sec := 0x80, ok := fun s => !each 2 (fun p => s.nat FABRIC.port_mode 0 p == 3) && each 2 (fun p =>
      let l := (peers s p).filter (· != 0)
      imp (!l.isEmpty) (s.nat FABRIC.port_mode 0 p == 2) && distinct l && !l.contains s.unitId) },
   { sec := 0x80, ok := fun s =>
      let l := ((List.range 8).map (fun k => s.nat FABRIC.groups 0 k)).filter (· != 0)
      distinct l && !l.contains s.group },
   { sec := 0x80, ok := fun s => each 12 (fun a => if s.kind a = 4
      then (let o := s.nat XD.conn_out a
            let i := s.nat XD.conn_in a
            s.nat XD.unit a != 0 && o != 0 && s.nat SAFECON.dir (o - 1) == 1 && s.nat SAFECON.peer (o - 1) == s.nat XD.unit a &&
            s.nat SAFECON.tgt (o - 1) 0 == 1 + a && i != 0 && s.nat SAFECON.dir (i - 1) == 2 &&
            s.nat SAFECON.peer (i - 1) == s.nat XD.unit a)
      else s.nat XD.unit a == 0) },
   { sec := 0x80, ok := fun s => con s (fun k => con s (fun j => k == j ||
      !(s.nat SAFECON.peer k == s.nat SAFECON.peer j && s.nat SAFECON.conn_id k == s.nat SAFECON.conn_id j &&
        s.nat SAFECON.dir k == s.nat SAFECON.dir j))) },
   { sec := 0x80, ok := fun s => con s (fun k => decide (s.nat SAFECON.period k < s.nat SAFECON.watchdog k) &&
      each 16 (fun i =>
        let x := s.nat SAFECON.tgt k i
        if s.nat SAFECON.dir k = 2 || decide (s.nat SAFECON.nbits k ≤ i) then x == 0 else targetListed x)) },
   { sec := 0x80, ok := fun s => decide (s.wireLoad.1 ≤ s.wireLoad.2 * s.period) }]

def checksTwin : List Chk :=
  let serves (s : State) : List Nat := ((List.range 8).map (fun k => s.nat TWIN.serves 0 k)).filter (· != 0)
  [{ sec := 0x81, ok := fun s => imp s.inPair (s.pairId != 0 &&
      distinct [s.nat TWIN.partner, s.nat TWIN.witness, s.unitId] && !(serves s).contains (s.nat TWIN.witness)) },
   { sec := 0x81, ok := fun s => decide (2 * s.nat TWIN.renew ≤ s.nat TWIN.lease) &&
      decide (s.nat TWIN.grace < s.nat TWIN.lease) && imp s.inPair (s.nat STAGE.align == 0) },
   { sec := 0x81, ok := fun s => imp s.localPair (s.nat TWIN.sel_si != 0 && s.siUsed (s.nat TWIN.sel_si)) },
   { sec := 0x81, ok := fun s => distinct (serves s) && imp (s.pairId != 0) (!(serves s).contains s.pairId) },
   { sec := 0x81, ok := fun s => imp s.inPair (decide ((s.mirrorItems.map (fun i =>
      let n := (s.itemData i).length
      n + 16 * max 1 (ceilDiv n (s.mirrorP - 16)))).sum ≤ s.mirrorP * s.nat TWIN.fresh_max)) }]

def checksPurse : List Chk :=
  let bus (p : State → Nat → Bool) (coh : Bool := false) : Chk :=
    { sec := 0x91, coh := coh, ok := fun s => each 4 (fun b => imp (s.nat BUS.ain b != 0) (p s b)) }
  let axes (s : State) (b : Nat) : List Nat := if s.nat BUS.ain b = 0 then [] else bitsOf 12 (s.nat BUS.axes b)
  [{ sec := 0x90, ok := fun s => decide (s.nat PURSE.b0 + s.nat PURSE.b_chg + s.nat PURSE.b1 +
      elevenTenths (s.nat PURSE.sensor_base) ≤ 20000) },
   { sec := 0x90, ok := fun s => decide (s.nat PURSE.sensor_base ≤ s.nat PURSE.sensor_max) },
   { sec := 0x90, ok := fun s => decide (s.nat PURSE.v_floor < s.nat PURSE.v_full) },
   bus (fun s b => s.nat ANALOG.role (s.nat BUS.ain b - 1) == 2),
   { sec := 0x91, ok := fun s => each 4 (fun i => imp (s.nat ANALOG.role i == 2)
      (((List.range 4).filter (fun b => s.nat BUS.ain b == i + 1)).length == 1)) },
   { sec := 0x91, ok := fun s => disjoint 4 (axes s) && each 4 (fun b => (axes s b).all s.defined) },
   bus (fun s b => decide (s.nat BUS.v_lo b < s.nat BUS.v_hi b)) true,
   bus (fun s b => decide (s.nat BUS.v_hi b ≤ s.nat ANALOG.full_scale (s.nat BUS.ain b - 1))),
   bus (fun s b => imp (s.flag BUS.flags 1 b)
      (each 8 (fun k => s.nat FABRIC.groups 0 k != s.nat BUS.group b) == false && s.nat BUS.group b != 0 &&
       s.nat BUS.share_id b != 0)),
   bus (fun s b => imp (s.flag BUS.flags 0 b) ((axes s b).any (fun a => (s.carOf a).isSome)))]

def checksLedger : List Chk :=
  [{ sec := 0xA0, ok := fun s => each 256 (fun c => imp (codeBorne c) <|
      let v := s.nat LEDGER.severity 0 c
      imp (decide (3 ≤ defaultSeverity c) && v != 0) (decide (defaultSeverity c ≤ v))) },
   { sec := 0xA0, coh := true, ok := fun s => each 256 (fun c => imp (codeBorne c) <|
      let r := s.nat LEDGER.route 0 c
      if bit r 7 then imp (decide (3 ≤ s.sevOf c)) (bit r 0) else r % 8 == 0) }]

/-- The checks of step 3 of R661. Log entry 221. -/
def allChecks : List Chk :=
  checksStage ++ checksModes ++ checksRatio ++ checksDin ++ checksFb ++ checksCurrent ++ checksAxis ++ checksPath ++ checksHoming ++
  checksCar ++ checksSafe ++ checksDispatch ++ checksFabric ++ checksTwin ++ checksPurse ++ checksLedger

/-! ### Sections (R654, R661) -/

/-- The fixed sizes of waybill sections. -/
def fixedSizes : List (Nat × Nat) :=
  [(0x10, 128), (0x11, 1024), (0x12, 1024), (0x13, 128), (0x20, 1920), (0x30, 1920), (0x31, 3840), (0x32, 64), (0x33, 576),
   (0x34, 256), (0x35, 33024), (0x40, 768), (0x41, 40), (0x50, 256), (0x51, 32768), (0x52, 768), (0x60, 16), (0x61, 192)] ++
  [(0x62, 176), (0x63, 480), (0x64, 192), (0x70, 112), (0x71, 256), (0x80, 816), (0x81, 48), (0x90, 48), (0x91, 128),
   (0xA0, 528), (0xA1, 16), (0xB0, 16)]

/-- The size that a waybill section must have; none for an ID that is not listed. -/
def secSize (c : Container) (sec : Nat) : Option Nat :=
  match sec with
  | 1 => some (16 + 24 * c.graph.tasks.length + ceilDiv (2 * c.graph.succs.length) 8 * 8 + 8 * c.graph.waits.length)
  | 2 => some (((c.dir.find? (·.1 == 2)).map (·.2)).getD 0)
  | 3 => some (8 + 16 * c.residuals.length)
  | 0x65 => some (8 + 16 * (cellGet c.cells 0x65 0 0).toNat)
  | _ => (fixedSizes.find? (·.1 == sec)).map (·.2)

/-- A check of one section at step 1: listed, once, of its size. -/
def secListed (c : Container) (e : Nat × Nat) : Bool :=
  ((c.dir.filter (·.1 == e.1)).length == 1) && secSize c e.1 == some e.2 &&
  imp (e.1 == 2) (e.2 % 64 == 0 && decide (e.2 ≤ 4194304)) &&
  imp (e.1 == 3) (decide (c.residuals.length ≤ 65535))

/-- A cell lies in a field of its section's table and holds a listed value (R13, R14), unless the rules say that nothing
looks at it (R234, R283, R572). Log entry 220. -/
def State.cellOk (s : State) (x : Cell) : Bool :=
  (x.sec == 0x65 && decide (8 ≤ x.off)) || s.unchecked x.sec x.idx ||
  (x.sec == 0xA0 && decide (0x10 ≤ x.off) && !codeBorne ((x.off - 0x10) / 2)) ||
  (match fieldAt x.sec x.idx x.off with
   | some f => f.admits x.val
   | none => false)

/-- A RESIDUAL entry names a listed section, and its fields fit (R14, R122). -/
def residualOk (r : Residual) : Bool :=
  ([1, 2, 3, 0x65, 0x8000, 0x8001, 0x8002].contains r.sec || fixedSizes.any (fun x => x.1 == r.sec)) &&
  r.rsvd == 0 && decide (r.off < 65536) && decide (r.idx < 65536) && decide (-2 ^ 63 ≤ r.val) && decide (r.val < 2 ^ 63)

/-- A range that counts bits: PATH.members names 2 to 4 axes. -/
def State.memberBits (s : State) : Bool :=
  each 4 (fun g => let n := (bitsOf 12 (s.nat PATH.members g)).length; n == 0 || (2 ≤ n && decide (n ≤ 4)))

/-- Records in use whose required fields must not be 0 (step 4 of R661): field, number of records, in use. -/
def required : List (Field × Nat × (State → Nat → Bool)) :=
  [(CAR.dz_in0, 4, State.carUsed), (CAR.count, 4, State.carUsed),
   (DOOR.cars, 8, fun s d => s.nat DOOR.axis d != 0),
   (SAFE_AXIS.sls_v, 12, fun s a => s.defined a && s.slsNamed a),
   (SAFE_CAR.locks, 4, State.carUsed), (SAFE_CAR.v_rated, 4, State.carUsed),
   (INTERLOCK.n_terms, 1, fun _ _ => true),
   (DISPATCH.collector, 1, fun s _ => s.group != 0), (DISPATCH.members, 1, fun s _ => s.group != 0),
   (FABRIC.unit_id, 1, fun _ _ => true),
   (SAFECON.peer, 16, fun s k => s.nat SAFECON.dir k != 0), (SAFECON.conn_id, 16, fun s k => s.nat SAFECON.dir k != 0),
   (SAFECON.seed, 16, fun s k => s.nat SAFECON.dir k != 0),
   (TWIN.witness, 1, fun s _ => s.inPair),
   (BUS.axes, 4, fun s b => s.nat BUS.ain b != 0), (BUS.c_bus, 4, fun s b => s.nat BUS.ain b != 0),
   (BUS.v_lo, 4, fun s b => s.nat BUS.ain b != 0), (BUS.v_hi, 4, fun s b => s.nat BUS.ain b != 0)]

/-- The least of the section numbers named. -/
def leastSec (l : List Nat) : Option Nat := l.foldl (fun b x => match b with | some y => some (min x y) | none => some x) none

/-- The image of a waybill with the kernel table of a firmware, in place of those in force. -/
def State.withImage (w : Container) (kernels : List KernelEntry) (s : State) : State :=
  { s with cfg := applyCells [] w.cells, graph := w.graph, kernels := kernels, wake := { s.wake with wb := w } }

/-- The section of the first check of R661 that fails on the image in force, steps in order, ascending ID in each. -/
def State.sectionFault (s : State) : Option Nat :=
  let w := s.wake.wb
  let s1 := leastSec ((w.dir.filter (fun e => !secListed w e)).map (·.1) ++ [1, 0x65, 0x80].filter (fun i => !w.dir.any (·.1 == i)))
  let s2 := leastSec ((s.cfg.filter (fun x => !s.cellOk x)).map (·.sec) ++ (if graphListed s.graph then [] else [1]) ++
    (if s.memberBits then [] else [0x32]) ++ (if w.residuals.all residualOk && w.resRsvd == 0 then [] else [3]) ++ (checksRatio.filter (fun c => !c.ok s)).map (·.sec))
  let s3 := leastSec ((allChecks.filter (fun c => !c.ok s)).map (·.sec))
  let s4 := leastSec ((required.filter (fun r => !each r.2.1 (fun i => imp (r.2.2 s i) (s.raw r.1 i != 0)))).map (·.1.sec))
  let s5 := if s.graph.tasks.all (fun t => decide (64 * (t.arg + ((s.kernelOf t.kernel).map (·.argUnits)).getD 0) ≤
      ((w.dir.find? (·.1 == 2)).map (·.2)).getD 0)) then none else some 2
  s1.orElse (fun _ => s2.orElse (fun _ => s3.orElse (fun _ => s4.orElse (fun _ => s5))))

/-! ### Coherence sets (R135, R180, R186 to R188, R230, R281, R282, R316, R335, R393, R461, R502, R569, R603, R656) -/

/-- The coherence sets of more than one field. The fields of one record form one set, those of a repeated entry too. -/
def coherenceSets : List (List Field) :=
  [[ANALOG.offset, ANALOG.gain, ANALOG.tc], [DIN.chatter_n, DIN.chatter_win], [EMU.num, EMU.den], [FB.num, FB.den],
   [FB.amp_lo, FB.amp_hi], scFields, [CURRENT.dead, CURRENT.min_pulse, CURRENT.gate_delay],
   [CURRENT.band_init, CURRENT.band_min, CURRENT.band_max], fieldsOfPROFILE, [AXIS.om_num, AXIS.om_den],
   [AXIS.th_num, AXIS.th_den], [AXIS.follow_num, AXIS.follow_den], [AXIS.soft_min, AXIS.soft_max], [AXIS.i_lim, AXIS.i_int],
   [GEAR.num, GEAR.den], [COMPARE.first, COMPARE.count, COMPARE.period], [HOMING.v_search, HOMING.v_creep]] ++
  [[LANDING.zone_lo, LANDING.zone_hi], [CAR.level_tol, CAR.relevel_start], [DOOR.open_pos, DOOR.closed_pos, DOOR.end_zone],
   [DOOR.f_close, DOOR.f_obst], [DOOR.e_max, DOOR.e_nudge],
   [DISPATCH.lead, DISPATCH.slot_len, DISPATCH.window, DISPATCH.ws_step],
   [DISPATCH.w_wait, DISPATCH.w_ride, DISPATCH.w_delay, DISPATCH.w_energy, DISPATCH.pen_reverse, DISPATCH.pen_full],
   [DISPATCH.balance, DISPATCH.k_pot, DISPATCH.k_run, DISPATCH.e_start, DISPATCH.eta_pair, DISPATCH.eta_free],
   [FABRIC.lock_n, FABRIC.lock_ns], [PURSE.theta, PURSE.tau], [BUS.v_lo, BUS.v_hi], [LEDGER.severity, LEDGER.route]]

/-- The entry of a repeated field that an offset names. -/
def Field.entry (f : Field) (off : Nat) : Nat := if f.s1 = 0 then 0 else (off - f.off) / f.s1

/-- Two cells lie in one field or one coherence set. -/
def sameSet (x y : Cell) : Bool :=
  x.sec == y.sec && x.idx == y.idx &&
  (x.off == y.off ||
   match fieldAt x.sec x.idx x.off, fieldAt y.sec y.idx y.off with
   | some f, some g => coherenceSets.any (fun l => l.contains f && l.contains g) && f.entry x.off == g.entry y.off
   | _, _ => false)

/-- Status of the checks 2, 4 and 5 of R640 on cells over the image in force: 0, 4, 17 or 15. Log entry 179. -/
def State.cellsStatus (l : List Cell) (s : State) : Nat :=
  if !l.all (fun x => (fieldAt x.sec x.idx x.off).isSome) then 4
  else if !l.all (fun x => x.val == 0 || s.cellOk x) then 17
  else
    let s := { s with cfg := applyCells s.cfg l }
    let bad := allChecks.filter (fun c => l.any (fun x => x.sec == c.sec) && !c.ok s)
    if bad.any (fun c => !c.coh) then 17 else if bad ≠ [] then 15 else 0

end Sys2Proof.Machine
end

