-- ==== Sys2Proof/Machine/Image.lean ====
section
/-! DEFINITION. Containers and images as bytes: record bases, section bytes, WB_CHECK, and the checks of a container (R121,
R122, R651 to R654, R659, R660, "Addressing fields"). -/

namespace Sys2Proof.Machine

/-- The record base of a section's INDEX (record bases table). -/
def recBase (sec idx : Nat) : Nat :=
  match sec with
  | 0x10 => 32 * idx | 0x11 => 64 * idx | 0x12 => 16 * idx | 0x13 => 32 * idx
  | 0x20 => if idx < 36 then 32 * idx else 0x480 + 64 * (idx - 36)
  | 0x30 => 160 * idx | 0x31 => 80 * idx | 0x32 => 16 * idx | 0x33 => 48 * idx | 0x34 => 16 * idx
  | 0x35 => if idx < 8 then 32 * idx else 0x100 + 8 * (idx - 8)
  | 0x40 => 64 * idx | 0x50 => 64 * idx | 0x51 => 32 * idx | 0x52 => 96 * idx
  | 0x61 => 8 * idx | 0x62 => 8 * idx | 0x63 => 40 * idx | 0x64 => 48 * idx
  | 0x71 => 4 * idx
  | 0x80 => if idx = 0 then 0 else if idx < 13 then 0x70 + 16 * (idx - 1) else 0x130 + 32 * (idx - 13)
  | 0x91 => 32 * idx
  | _ => 0

/-- The bytes that a cell takes. -/
def cellBytes (x : Cell) : List Octet :=
  le (if x.sec = 0x65 ∧ 8 ≤ x.off then (if (x.off - 8) % 16 < 2 then 1 else 2) else cellWidth x) x.val

/-- Cells laid out, gaps zero. -/
def cellsBytes (l : List Cell) : List Octet :=
  (l.foldl (fun (a : List Octet × Nat) x =>
    let p := recBase x.sec x.idx + x.off
    let b := cellBytes x
    (a.1 ++ zeros (p - a.2) ++ b, p + b.length)) ([], 0)).1

/-- The six words of a task record (R72). -/
def taskBytes (t : Task) : List Octet :=
  le 4 (t.kernel + t.prio * 2 ^ 16 + t.flow * 2 ^ 20 + b2n t.flowEn * 2 ^ 26 + t.kind * 2 ^ 27 + t.rsvd % 8 * 2 ^ 29 : Nat) ++
  le 4 (t.budget + t.bind * 2 ^ 24 + t.rate * 2 ^ 28 : Nat) ++
  le 4 (t.deps + t.nsucc * 2 ^ 10 + t.succIx * 2 ^ 20 : Nat) ++
  le 4 (t.arg + t.waitIx * 2 ^ 16 + b2n t.waitEn * 2 ^ 26 + t.rsvd / 8 % 32 * 2 ^ 27 : Nat) ++
  le 4 (t.phase + t.srcIx * 2 ^ 10 + t.srcKind * 2 ^ 22 + t.maxi * 2 ^ 26 : Nat) ++
  le 4 (t.bound + t.rsvd / 256 % 256 * 2 ^ 24 : Nat)

def waitBytes (w : WaitEntry) : List Octet := 
  le 4 (w.wkind + w.wix * 16 + b2n w.onto * 2 ^ 16 + w.rsvd % 2 ^ 15 * 2 ^ 17 : Nat) ++
  le 4 (w.deadline + w.rsvd / 2 ^ 15 * 2 ^ 20 : Nat)

/-- The task graph after the parameters of STAGE. -/
def graphBytes (g : Graph) : List Octet :=
  let su := g.succs.flatMap (fun (x : Nat) => le 2 x)
  le 2 g.tasks.length ++ le 2 g.succs.length ++ le 2 g.waits.length ++ le 2 g.rsvd ++ g.tasks.flatMap taskBytes ++
  padTo (ceilDiv su.length 8 * 8) su ++ g.waits.flatMap waitBytes

/-- The RESIDUAL section (R121). -/
def residualBytes (rsvd : Nat) (l : List Residual) : List Octet :=
  le 4 l.length ++ le 4 rsvd ++ l.flatMap (fun r => le 2 r.sec ++ le 2 r.off ++ le 2 r.idx ++ le 2 r.rsvd ++ le 8 r.val)

/-- A section in force, byte for byte. Log entry 16. -/
def State.sectionBytes (s : State) (sec : Nat) : List Octet :=
  let c := s.wake.wb
  let own := cellsBytes (s.cfg.filter (·.sec == sec))
  match sec with
  | 1 => padTo 8 own ++ graphBytes s.graph
  | 2 =>
    let at_ := 64 * ((s.graph.tasks.find? (·.kernel == 1)).map (·.arg)).getD 0
    c.args.take at_ ++ padTo 192 own ++ c.args.drop (at_ + 192)
  | 3 => residualBytes c.resRsvd c.residuals
  | _ => padTo ((secSize { c with cells := s.cfg } sec).getD 0) own

/-- WB_CHECK (R659): over every section of the waybill in force but FABRIC and TWIN. Log entry 181. -/
def State.wbCheckNow (s : State) : Nat :=
  let secs := (s.wake.wb.dir.map (·.1)).filter (fun i => i != 0x80 && i != 0x81)
  ofLe (Config.shake256 8 ((secs.flatMap (fun i =>
    let b := s.sectionBytes i
    le 2 (i : Nat) ++ le 4 b.length ++ b)).map Int.ofNat))

/-! ### The checks of a container (R660) -/

/-- A context string before a message, as FIPS 205 takes it. -/
def withContext (ctx : String) (m : List Octet) : List Octet := ctx.toList.map (fun c => c.toNat) ++ m

/-- The part has an active owner key (R622). -/
def State.owned (s : State) : Bool := s.stw.owners.any (fun o => o.state == 1)

/-- The device identity, zero when the identity test failed (R743). -/
def State.devId (s : State) : List Octet := if s.stw.idFault then zeros 8 else s.stw.dev

def rising : List Nat → Bool
  | x :: y :: l => decide (x < y) && rising (y :: l)
  | _ => true

/-- The first check of R660 that a container fails, by its cause. `api` is that of the firmware it is loaded with.
Log entry 16. -/
def State.containerCause (s : State) (part api : Nat) (c : Container) : Option Nat :=
  let fw := part == 1
  let o := nth s.stw.owners c.signer
  let pk := if fw then s.stw.vendorPk else o.pk
  if !c.layoutOk then some 2
  else if c.stepping ≠ 2 ∨ !(c.device == zeros 8 || c.device == s.devId) then some 3
  else if !(if fw then c.signer == 255 else decide (c.signer < 4) && o.state == 1) then some 4
  else if !c.digestOk || !Config.slhVerify pk (withContext (if fw then "PYRAD-FIRMWARE" else "PYRAD-WAYBILL") c.digest) c.signature
    then some 5
  else if c.secVersion < (if fw then s.stw.fwCtr else s.stw.wbCtr) then some 6
  else if fw then
    (if [0x8000, 0x8001, 0x8002].all (fun i => c.dir.any (·.1 == i)) && rising (c.kernels.map (·.kernel)) then none else some 7)
  else if c.api = api then none
  else some 7

end Sys2Proof.Machine
end

