-- ==== Sys2Proof/Machine/Steward.lean ====
section
/-! DEFINITION. The Steward of chapter 16: ageing, the hold-up test, self-tests, signed objects, fabric and owner keys,
updates, amendments and attestation (R605 to R646). -/

namespace Sys2Proof.Machine

def State.onStw (f : Stw → Stw) (s : State) : State := { s with stw := f s.stw }

/-- Seconds in the ns of the life clock. -/
def lifeSec (v : Nat) : Nat := v * 1000000000

/-! ### Ageing (R607 to R611) -/

/-- dk of a pair from its counts; without a reference count the manual gives none (log entry 2). -/
def State.delayLost (k : Nat) (x : Nat × Nat) (s : State) : Int × State :=
  let r0 := nth s.stw.r0 k
  if x.2 = 0 ∨ r0 = 0 then
    let (v, s) := s.free
    (wrapS v.toNat 32, s)
  else (sat (1000000 * ((r0 : Int) - ((x.1 * 2 ^ 24 / x.2 : Nat) : Int)) / r0) 32, s)

def insertInt (x : Int) : List Int → List Int
  | [] => [x]
  | y :: l => if x ≤ y then x :: y :: l else y :: insertInt x l

/-- Twice the median. Log entry 170. -/
def median2 (l : List Int) : Int :=
  let m := l.foldl (fun a x => insertInt x a) []
  let n := m.length
  nth m ((n - 1) / 2) + nth m (n / 2)

def State.ageingEv (die cause pair : Nat) (s : State) (sev : Nat := 0) : State :=
  let d := nth s.stw.dies die
  s.raise 0xEB (le 1 die ++ le 1 cause ++ le 4 (satU d.d 32) ++ le 2 (satU d.vreq 16) ++ le 1 pair) sev

/-- vreq of R609. -/
def Ageing.need (d : Ageing) : Nat := d.vy + 5 * ceilDiv ((d.ve - d.vy) * d.d) (5 * d.dEol)

/-- The ageing decisions of one die on its pairs `first` to `first + n - 1`, of which `least` must be valid.
Log entries 170, 172. -/
def State.ageDie (die first n least : Nat) (s : State) : State :=
  let l := (List.range n).map (fun i => (first + i, nth s.stw.pairD (first + i)))
  let m := median2 (l.map (·.2))
  let ok (x : Nat × Int) : Bool := decide ((2 * x.2 - m).natAbs ≤ 4000)
  let good := l.filter ok
  let s := s.onStw (fun w => { w with pairsValid := w.pairsValid + (good.map (fun x => 2 ^ x.1)).sum })
  let few := good.length < least
  let was := nth s.stw.dies die
  let s := s.onStw (fun w => { w with dies := w.dies.modify die (fun d =>
    let d := { d with d := good.foldl (fun (y : Nat) (x : Nat × Int) => max y x.2.toNat) d.d }
    let d := if few then { d with d := max d.d d.dEol } else d
    { d with vreq := d.need }) })
  let d := nth s.stw.dies die
  let s := (l.filter (fun x => !ok x)).foldl (fun s x => s.ageingEv die 1 x.1 2) s
  let s := if few then s.ageingEv die 2 0xFF 2 else s
  let s := if d.vreq ≠ was.vreq then s.ageingEv die 0 0xFF else s
  if d.vreq ≤ d.vmax then s
  else (if was.vreq ≤ was.vmax then s.ageingEv die 4 0xFF 4 else s).haltCause 9

/-- The sprint allowance after a measurement of the motion die (R611, cause 3). Log entry 172. -/
def State.ageAllowance (s : State) : State :=
  let d := nth s.stw.dies 0
  let cap := 5760000000000000 * (d.dEol - d.d) / d.dEol
  let none_ := decide (d.vmax < d.vreq + 50)
  let cap := if none_ then 0 else cap
  let was := s.stw.ageLimit
  let s := s.onPurse (fun p => { p with debit := min p.debit cap, allow := min p.allow (cap - min p.debit cap) })
  let s := s.onStw (fun w => { w with ageLimit := none_ })
  if none_ && !was then s.ageingEv 0 3 0xFF 2 else s

/-- A measurement of the 20 ring-oscillator pairs: counts of the stressed and the reference oscillator. -/
def State.measureAgeing (counts : List (Nat × Nat)) (s : State) : State :=
  let s := (List.range 20).foldl (fun s k =>
    let (d, s) := s.delayLost k (nth counts k)
    s.onStw (fun w => { w with pairD := w.pairD.set k d })) s
  let s := s.onStw (fun w => { w with pairsValid := 0, agedAt := some s.life })
  ((s.ageDie 0 0 16 12).ageDie 1 16 4 3).ageAllowance

/-- AGEING_MEASUREMENT (R608): at each Waking and every 3,600 s of the life clock. -/
def execAgeingMeasurement (t : Nat) (counts : List (Nat × Nat)) (s : State) : Answer :=
  let s := s.tick t
  match s.stw.agedAt with
  | some a => if s.life < a + lifeSec 3600 then .next s else .next (s.measureAgeing counts)
  | none => .next (s.measureAgeing counts)

/-- CORE_SUPPLY_LOW (R610, cause 5): handled as a clock fault. Log entry 185. -/
def execCoreSupplyLow (t die : Nat) (s : State) : Answer := .next (((s.tick t).ageingEv die 5 0xFF 4).clockFault)

/-! ### The hold-up test (R612 to R615) -/

/-- A mode in which a test may run. -/
def State.testMode (s : State) : Bool :=
  s.mode.mode == 6 || s.mode.mode == 7 || (s.mode.mode == 2 && s.flag STEWARD.flags 0)

def State.holdupEv (result c esr dt : Nat) (s : State) (sev : Nat := 0) : State :=
  s.raise 0xEC (le 1 result ++ le 2 (satU c 16) ++ le 2 (satU esr 16) ++ le 4 (satU dt 32)) sev

/-- The mailbox command HOLD_TEST (R612). -/
def State.takeHoldTest (o : Origin) (s : State) : State :=
  if s.stw.testFrom.isSome then s.reply o 4 0
  else (s.onStw (fun w => { w with testDue := true })).reply o 7 0

/-- HOLD_TEST_DUE (R612). -/
def execHoldTestDue (t : Nat) (s : State) : Answer :=
  let s := s.tick t
  let due : Bool := match s.stw.testRetry, s.stw.testLife with
    | some r, _ => decide (r ≤ s.life)
    | none, some l => decide (l + lifeSec (86400 * s.nat STEWARD.hold_days) ≤ s.life)
    | none, none => true
  if due && s.stw.testFrom.isNone then .next (s.onStw (fun w => { w with testDue := true })) else .next s

/-- HOLD_TEST_START (R613). -/
def execHoldTestStart (t : Nat) (s : State) : Answer :=
  let s := s.tick t
  let full : Bool := match s.stw.holdSince with
    | some a => decide (a + 4000000000 ≤ s.now)
    | none => false
  if s.atBoundary && s.stw.testDue && s.stw.testFrom.isNone && s.testMode && full && decide (0 < s.purse.grant) && !s.purse.lost
  then .next ((s.onStw (fun w => { w with testDue := false, testFrom := some s.now })).onPins (fun x => { x with charger := false }))
  else .next s

/-- The test ends, and the charger starts unless power is lost; `retry` says that it is repeated after 3,600 s. -/
def State.testOver (retry : Bool) (s : State) : State :=
  (s.onStw (fun w => { w with
    testFrom := none, testRetry := if retry then some (s.life + lifeSec 3600) else none
    testLife := if retry then w.testLife else some s.life })).onPins (fun x => { x with charger := !s.purse.lost })

/-- HOLD_TEST_END (R614, R615): ESR in mΩ and Δt in µs, none beyond 1 s. -/
def execHoldTestEnd (t esr : Nat) (dt : Option Nat) (s : State) : Answer :=
  let s := s.tick t
  if s.stw.testFrom.isNone then .next s
  else
    let us := dt.getD 1000000
    let c := us / 20
    let s := s.onStw (fun w => { w with testDt := us })
    if dt.isNone ∨ 1000000 < us ∨ c < 100 ∨ 12000 < c ∨ 5000 < esr then .next ((s.testOver true).holdupEv 2 c esr us 3)
    else
      let s := (s.testOver false).onPurse (fun p => { p with cap := c, esr := esr })
      .next (if c < s.nat PURSE.c_nom * 60 / 100 then s.holdupEv 1 c esr us 2 else s.holdupEv 0 c esr us)

/-- The hold-up test at a boundary notice: an aborted test, and how long HOLD has been full. The manual gives an aborted
test no result, so its values are free. -/
def State.testNotice (s : State) : State :=
  let full := decide (s.nat PURSE.v_full ≤ s.purse.hold + 500)
  let s := s.onStw (fun w => { w with holdSince := if full then some (w.holdSince.getD s.now) else none })
  if s.stw.testFrom.isSome && (s.purse.lost || !s.testMode) then
    let (a, s) := s.free
    let (b, s) := s.free
    (s.testOver true).holdupEv 3 (a.toNat % 2 ^ 16) (a.toNat / 2 ^ 16 % 2 ^ 16) (b.toNat % 2 ^ 32)
  else s

/-! ### Self-tests (R624, R625) -/

def State.selfTestEv (test occasion : Nat) (pass : Bool) (s : State) (sev : Nat := 0) : State :=
  s.raise 0xF0 (le 1 test ++ le 1 (b2n (!pass)) ++ le 1 occasion) sev

/-- The security error state. Log entry 190. -/
def State.securityError (test occasion : Nat) (s : State) : State :=
  ((s.selfTestEv test occasion false 4).onStw (fun w => { w with secError := true })).haltCause 9

/-- The mailbox command SELF_TEST: the known-answer tests run, and pass or fail. Log entry 175. -/
def State.takeSelfTest (o : Origin) (pass : Bool) (s : State) : State :=
  let s := s.reply o 7 0
  if pass then s.selfTestEv 2 2 true else s.securityError 2 2

/-- PERIODIC_SELF_TEST (R624). -/
def execPeriodicSelfTest (t : Nat) (pass : Bool) (s : State) : Answer :=
  let s := s.tick t
  if s.life < s.stw.selfTestAt + lifeSec (3600 * s.nat STEWARD.selftest_h) then .next s
  else
    let s := s.onStw (fun w => { w with selfTestAt := s.life })
    .next (if pass then s else s.securityError 2 1)

/-! ### Answers (R627) -/

/-- A message to a source: a unit, or the service port (65536). -/
def State.sendTo (src : Nat) (m : Msg) (s : State) : State :=
  if src = 65536 then { s with win := { s.win with svcQueue := s.win.svcQueue ++ [m] } } else s.send { id := src } m

/-- UPDATE_STATUS. The manual gives DETAIL no meaning, so its value is free. Log entry 174. -/
def State.updateStatus (src obj part status next : Nat) (s : State) : State :=
  let (d, s) := s.free
  s.sendTo src (.updateStatus obj part status next (d.toNat % 2 ^ 32))

/-- An answer on object type `ix` (0 UPDATE_BLOCK, 1 AMENDMENT, 2 KEY_DELIVERY). -/
def State.objAnswer (ix src obj part status next : Nat) (s : State) : State :=
  (s.onStw (fun w => { w with answers := w.answers.set ix (status, part) })).updateStatus src obj part status next

def State.asmOf (s : State) (ix : Nat) : Option Assembly := s.stw.asm.getD ix none

def State.setAsm (ix : Nat) (a : Option Assembly) (s : State) : State := s.onStw (fun w => { w with asm := w.asm.set ix a })

/-- A complete object waits for its checks. -/
def State.complete (s : State) (ix : Nat) : Option Assembly :=
  (s.asmOf ix).bind (fun a => if a.next = a.total then some a else none)

/-! ### Slots (R635 to R639) -/

/-- The slot into which image parts may be staged. -/
def State.stagingSlot (s : State) : Option Nat :=
  let st (k : Nat) : Nat := (nth s.stw.slots k).state
  let trial := st 0 == 5 || st 1 == 5
  (List.range 2).find? (fun k => st k != 4 && st k != 5 && !(trial && st k == 6))

def State.onSlot (k : Nat) (f : Slot → Slot) (s : State) : State := s.onStw (fun w => { w with slots := w.slots.modify k f })

def Slot.versions (x : Slot) : List Octet :=
  le 2 (((x.fw.map (·.version)).getD 0 : Nat)) ++ le 2 (((x.wb.map (·.version)).getD 0 : Nat))

def State.updateEv (slot event : Nat) (s : State) (sev : Nat := 0) : State :=
  s.raise 0xFC (le 1 slot ++ le 1 event ++ le 1 s.stw.attempts ++ (nth s.stw.slots slot).versions) sev

def State.slotIn (s : State) (st : Nat) : Option Nat := (List.range 2).find? (fun k => (nth s.stw.slots k).state == st)

/-- A TRIAL slot commits (R639). -/
def State.commitSlot (k : Nat) (s : State) : State :=
  let x := nth s.stw.slots k
  let s := s.onStw (fun w => { w with
    slots := w.slots.map (fun y => if y.state = 4 then { y with state := 6 } else y)
    fwCtr := max w.fwCtr (min 256 ((x.fw.map (·.secVersion)).getD 0))
    wbCtr := max w.wbCtr (min 256 ((x.wb.map (·.secVersion)).getD 0)), jFull := false })
  (s.onSlot k (fun y => { y with state := 4 })).updateEv k 3

/-- The largest part or object of a chunk's PART. -/
def areaOf (part : Nat) : Nat := if part = 2 then 8 * 2 ^ 20 else 4 * 2 ^ 20

/-- The sectors of a part's region in a slot. -/
def partSectors (slot part : Nat) : Nat × Nat := if part = 2 then (192 * slot, 128) else (192 * slot + 128, 64)

/-- The first chunk of an image part erases its region. -/
def State.beginPart (slot part : Nat) (s : State) : State :=
  let x := partSectors slot part
  (s.eraseSectors x.1 x.2).onSlot slot (fun y =>
    if part = 1 then { y with state := 1, fw := none, fwStaged := false } else { y with state := 1, wb := none, wbStaged := false })

/-! ### Chunks (R626, R627) -/

/-- The object type of a message type. -/
def chunkIx (type : Nat) : Option Nat := match type with | 0x78 => some 0 | 0x7B => some 1 | 0x7A => some 2 | _ => none

def partAllowed (ix part : Nat) : Bool :=
  match ix with
  | 0 => part == 1 || part == 2
  | 1 => part == 3
  | _ => 4 ≤ part && part ≤ 9

/-- A chunk in its place is taken; the last one completes the object. Log entry 176. -/
def State.chunkIn (ix src : Nat) (a : Assembly) (c : Chunk) (s : State) : State :=
  let a := { a with next := a.next + c.data.length, data := if ix = 0 then [] else a.data ++ c.data }
  if a.next < a.total then (s.setAsm ix (some a)).objAnswer ix src c.obj c.part 1 a.next
  else if ix ≠ 0 then s.setAsm ix (some a)
  else
    let k := (s.slotIn 1).getD 0
    let s := (s.setAsm 0 none).onSlot k (fun y => if c.part = 1 then { y with fwStaged := true } else { y with wbStaged := true })
    s.onStw (fun w => { w with verifying := some k, verifySrc := (src, c.obj, c.part) })

/-- A chunk arrives. Log entry 176. -/
def State.takeChunk (ix src : Nat) (c : Chunk) (s : State) : State :=
  let old := s.asmOf ix
  let same := match old with | some a => a.obj == c.obj && a.part == c.part | none => false
  let next := match old with | some a => if same then a.next else 0 | none => 0
  let done : Bool := match old with | some a => a.next == a.total | none => false
  let erasing : Bool := match old with | some a => a.erasing | none => false
  let no (st : Nat) (s : State) : State := s.objAnswer ix src c.obj c.part st next
  if s.stw.secError then no 13 s
  else if s.mode.mode = 0 ∧ ix ≠ 2 then no 11 s
  else if c.rsvd ∨ !partAllowed ix c.part ∨ c.total < c.offset + c.data.length ∨ c.data = [] then no 4 s
  else if done || erasing || (ix == 0 && s.stw.verifying.isSome) then no 11 s
  else if c.offset ≠ next then no 2 s
  else if areaOf c.part < c.total then no 12 s
  else if same then
    match old with
    | some a => if a.total = c.total then s.chunkIn ix src a c else no 4 s
    | none => s
  else
    let begin_ (s : State) : State :=
      let s := match old with
        | some a => s.objAnswer ix a.src a.obj a.part 3 0
        | none => s
      s.chunkIn ix src { obj := c.obj, part := c.part, total := c.total, src := src, erasing := ix == 0 } c
    if ix ≠ 0 then begin_ s
    else match s.stagingSlot with
      | none => no 10 s
      | some k => begin_ (s.beginPart k c.part)

/-- OBJECT_CHUNK (R627): a chunk of a signed object from `src`, in a message of `type`. -/
def execObjectChunk (t src type : Nat) (c : Chunk) (s : State) : Answer :=
  let s := s.tick t
  match chunkIx type with
  | some ix => .next (s.takeChunk ix src c)
  | none => .next s

/-- UPDATE_BLOCK (R635): a chunk of an image part. -/
def execUpdateBlock (t src : Nat) (c : Chunk) (s : State) : Answer := .next ((s.tick t).takeChunk 0 src c)

/-- PART_ERASE_DONE (R635). -/
def execPartEraseDone (t : Nat) (s : State) : Answer :=
  .next ((s.tick t).onStw (fun w => { w with asm := w.asm.modify 0 (fun a => a.map (fun a => { a with erasing := false })) }))

/-- PART_VERIFIED (R636): `c` is the part as its verification has read it. -/
def execPartVerified (t : Nat) (c : Container) (s : State) : Answer :=
  let s := s.tick t
  match s.stw.verifying with
  | none => .next s
  | some k =>
    let (src, obj, part) := s.stw.verifySrc
    let boot := (s.slotIn 4).map (fun b => nth s.stw.slots b)
    let s := s.onSlot k (fun y =>
      let y := if part = 1 then { y with fw := some c } else { y with wb := some c }
      let y := if y.fwStaged then y else { y with fw := boot.bind (·.fw) }
      if y.wbStaged then y else { y with wb := boot.bind (·.wb) })
    let s := s.onStw (fun w => { w with verifying := none })
    let x := nth s.stw.slots k
    let cause : Option Nat := match x.fw, x.wb with
      | some f, some w => (s.containerCause 1 0 f).orElse (fun _ => s.containerCause 2 f.api w)
      | _, _ => some 2
    match cause with
    | none => .next (((s.onSlot k (fun y => { y with state := 2 })).updateEv k 0).objAnswer 0 src obj part 0 0)
    | some e =>
      .next (((s.onSlot k (fun y => { y with state := 3 })).updateEv k 1 2).objAnswer 0 src obj part (if e = 6 then 7 else 5) 0)

/-! ### Signed objects (R623, R628) -/

/-- The fields of a signed object. -/
structure Obj where
  kind : Nat := 0
  signer : Nat := 255
  device : List Octet := []
  seq : Nat := 0
  body : List Octet := []
  signed : List Octet := []
  digest : List Octet := []
  signature : List Octet := []

/-- Bytes `off` to `off + n - 1` of an object. -/
def sub (b : List Octet) (off n : Nat) : List Octet := (b.drop off).take n

def num (b : List Octet) (off n : Nat) : Nat := ofLe (sub b off n)

def isZero (b : List Octet) : Bool := b.all (· == 0)

/-- The layout of an amendment's entries: section, index, offset, bytes. Log entry 179. -/
def amdEntries : Nat → List Octet → Option (List (Nat × Nat × Nat × List Octet))
  | 0, b => if b = [] then some [] else none
  | n + 1, b =>
    let len := num b 6 2
    let room := ceilDiv len 8 * 8
    if b.length < 8 + room ∨ len = 0 ∨ !isZero (sub b (8 + len) (room - len)) then none
    else (amdEntries n (b.drop (8 + room))).map (fun l => (num b 0 2, num b 2 2, num b 4 2, sub b 8 len) :: l)

/-- The body of an object is laid out as its kind says, its reserved bytes zero. -/
def bodyOk (kind : Nat) (b : List Octet) : Bool :=
  match kind with
  | 3 => decide (0x48 ≤ b.length) && 1 ≤ num b 0x40 2 && decide (num b 0x40 2 ≤ 1024) && isZero (sub b 0x42 6) &&
    (amdEntries (num b 0x40 2) (b.drop 0x48)).isSome
  | 4 => b.length == 1624 && 1 ≤ num b 0 1 && decide (num b 1 1 ≤ 1) && isZero (sub b 2 6)
  | 5 => b.length == 72 && isZero (sub b 1 7)
  | _ => b.length == 8 && isZero (sub b 1 7)

/-- An object read from its bytes; none where its layout fails. -/
def readObj (unsigned_ : Bool) (d : List Octet) : Option Obj :=
  let len := num d 0x18 4
  let sig := if unsigned_ then 0 else 29792
  if d.length = 0x60 + len + sig ∧ sub d 0 4 = [0x50, 0x59, 0x53, 0x4F] ∧ 3 ≤ num d 4 1 ∧ num d 4 1 ≤ 9 ∧
      isZero (sub d 6 2) ∧ isZero (sub d 0x1C 4) ∧ bodyOk (num d 4 1) (sub d 0x20 len) then
    some { kind := num d 4 1, signer := num d 5 1, device := sub d 8 8, seq := num d 0x10 8, body := sub d 0x20 len
           signed := d.take (0x20 + len), digest := sub d (0x20 + len) 64, signature := sub d (0x60 + len) sig }
  else none

def Obj.digestOk (o : Obj) : Bool := Config.shake256 64 (o.signed.map Int.ofNat) == o.digest

/-- The first of steps 1 to 5 of R628 that an object fails, as a status. Log entry 177. -/
def State.objStatus (s : State) (part : Nat) (o : Option Obj) : Nat :=
  match o with
  | none => 4
  | some o =>
    let w := nth s.stw.owners o.signer
    if o.kind ≠ part then 4
    else if !(o.device == zeros 8 || o.device == s.devId) then 9
    else if 4 ≤ o.signer ∨ w.state ≠ 1 then 6
    else if !o.digestOk || !Config.slhVerify w.pk (withContext "PYRAD-OBJ" o.digest) o.signature then 5
    else if o.seq ≤ w.lastSeq then 8
    else 0

/-- EV_OBJECT, for refusals at steps 1 to 5. -/
def State.objectEv (a : Assembly) (status : Nat) (s : State) : State :=
  s.raise 0xF6 (le 1 (num a.data 4 1) ++ le 1 status ++ le 1 (num a.data 5 1) ++ le 8 (num a.data 0x10 8) ++
    le 2 (a.src % 65536 : Nat)) 2

/-- A complete object is checked; `act` makes the checks of its kind and its effect, and answers a status, or none where the
answer follows later. -/
def State.objRow (t ix : Nat) (mine : Nat → Nat → Bool) (act : Assembly → Obj → State → State × Option Nat) (s : State) : Answer :=
  let s := s.tick t
  match s.complete ix with
  | none => .next s
  | some a =>
    if !mine (num a.data 4 1) (num a.data 5 1) then .next s
    else
      let s := s.setAsm ix none
      let done (st : Nat) (s : State) : State := s.objAnswer ix a.src a.obj a.part st 0
      if s.stw.secError then .next (done 13 s)
      else
        let o := readObj false a.data
        let st := s.objStatus a.part o
        match st, o with
        | 0, some o =>
          let s := s.onStw (fun w => { w with owners := w.owners.modify o.signer (fun x => { x with lastSeq := o.seq }) })
          let (s, st) := act a o s
          .next (match st with | some st => done st s | none => s)
        | _, _ => .next (done st (s.objectEv a st))

/-! ### Amendments (R640 to R643) -/

def keySigned (f : Field) (v : Nat) : Int := if f.signed then wrapS v (8 * f.width) else v

/-- The cells of an entry: whole listed fields, reserved bytes zero; none where it is not so. -/
def entryCells (sec idx : Nat) : Nat → Nat → List Octet → Option (List Cell)
  | 0, _, _ => some []
  | fuel + 1, off, b =>
    match b with
    | [] => some []
    | x :: rest =>
      match fieldAt sec idx off with
      | some f =>
        if b.length < f.width then none
        else (entryCells sec idx fuel (off + f.width) (b.drop f.width)).map (fun l =>
          { sec := sec, idx := idx, off := off, val := keySigned f (ofLe (b.take f.width)) } :: l)
      | none =>
        let inside := (List.range 7).any (fun i => i < off && match fieldAt sec idx (off - 1 - i) with
          | some f => decide (i + 1 < f.width)
          | none => false)
        if x ≠ 0 ∨ inside then none else entryCells sec idx fuel (off + 1) rest

/-- A section whose fields have no class of their own. Log entry 179. -/
def unclassed (sec : Nat) : Bool := sec == 2 || sec == 3 || decide (0x8000 ≤ sec)

/-- The cells of an amendment's entries, or the status that refuses them: 4 format, 16 class. -/
def cellsOf (l : List (Nat × Nat × Nat × List Octet)) : Except Nat (List Cell) :=
  let one (e : Nat × Nat × Nat × List Octet) : Option (List Cell) :=
    (entryCells e.1 e.2.1 (e.2.2.2.length + 1) e.2.2.1 e.2.2.2).bind (fun c => if c = [] then none else some c)
  let plain := l.filter (fun e => !(unclassed e.1 || (e.1 == 1 && decide (8 ≤ e.2.2.1)) || (e.1 == 0x65 && decide (8 ≤ e.2.2.1))))
  if plain.any (fun e => (one e).isNone) then .error 4
  else
    let c := plain.flatMap (fun e => (one e).getD [])
    if plain.length < l.length || c.any (fun x => match fieldAt x.sec x.idx x.off with
        | some f => decide (f.cls = .restart)
        | none => true) then .error 16
    else .ok c

/-- The newest accepted values: those in force under every pending amendment and Survey entry (R641). -/
def State.newest (s : State) : List Cell :=
  applyCells s.cfg ((s.stw.amds.flatMap (·.cells)) ++ (s.survey.pend.flatMap (·.cells)))

/-- The axes whose standstill a cell waits for (R642). Log entry 180. -/
def State.cellAxes (s : State) (x : Cell) : List Nat :=
  let all := List.range 12
  let orAll (l : List Nat) : List Nat := if l = [] then all else l
  let l : List Nat := match fieldAt x.sec x.idx x.off with
    | some f =>
      if f.cls ≠ .standstill then []
      else match x.sec with
        | 0x30 => [x.idx]
        | 0x20 => if 36 ≤ x.idx then [x.idx - 36] else orAll (s.claimOf x.idx).toList
        | 0x11 => orAll (all.filter (fun a => s.usesFb a x.idx))
        | 0x50 => (s.carAxis x.idx).toList
        | 0x51 => (s.carAxis (x.idx / 256)).toList
        | 0x52 => (s.doorAxis x.idx).toList
        | 0x10 => orAll (((List.range 4).filter (fun c => s.nat CAR.load_in c == x.idx + 1)).filterMap s.carAxis)
        | _ => all
    | none => []
  l.filter s.defined

def State.cellsReady (s : State) (l : List Cell) : Bool := l.all (fun x => (s.cellAxes x).all (fun a => (s.axOf a).standstill))

/-- The pending amendments of a group may commit. Log entry 178. -/
def State.groupReady (s : State) (g : Nat) : Bool :=
  s.stw.amds.all (fun p => p.grp != g || s.cellsReady p.cells)

def State.amendmentEv (status : Nat) (entries : Nat) (first : Nat) (seq : Nat) (s : State) : State :=
  s.raise 0xFD (le 1 status ++ le 2 entries ++ le 2 first ++ le 8 seq ++ le 1 s.stw.amds.length)

/-- The checks 1 to 6 of R640 on an amendment; an accepted one joins those that wait. Log entries 178, 179. -/
def State.takeAmendment (a : Assembly) (o : Obj) (s : State) : State × Option Nat :=
  let n := num o.body 0x40 2
  let l := (amdEntries n (o.body.drop 0x48)).getD []
  let first := match l with | e :: _ => e.1 | [] => 0
  let no (st : Nat) (s : State) : State × Option Nat := (s.amendmentEv st n first o.seq, some st)
  if s.mode.mode = 0 then no 10 s
  else if sub o.body 0 64 ≠ s.wbDigest then no 14 s
  else match cellsOf l with
    | .error st => no st s
    | .ok c =>
      let st := { s with cfg := s.newest }.cellsStatus c
      if st ≠ 0 then no st s
      else if 16 ≤ s.stw.amds.length then no 11 s
      else
        let (s, st) := s.journalAppend 1 0 o.signer o.seq c
        if st ≠ 0 then no st s
        else
          let touch (p : PendAmd) : Bool := p.cells.any (fun x => c.any (sameSet x))
          let gs := (s.stw.amds.filter touch).map (·.grp)
          let p : PendAmd := { src := a.src, obj := a.obj, objSeq := o.seq, eseq := s.stw.jSeq - 1, cells := c, grp := s.stw.jSeq }
          let s := s.onStw (fun w => { w with
            amds := w.amds.map (fun q => if gs.contains q.grp then { q with grp := p.grp } else q) ++ [p] })
          if s.groupReady p.grp then (s, none) else no 18 s

/-- AMENDMENT (R640): the complete amendment is checked. -/
def execAmendment (t : Nat) (s : State) : Answer := s.objRow t 1 (fun _ _ => true) State.takeAmendment

/-- A Survey entry due at this boundary touches what an amendment commits: it is superseded, and a copy of the amendment
follows it in the journal (R669). Log entry 186. -/
def State.supersede (p : PendAmd) (s : State) : State :=
  let l := s.survey.pend.filter (fun q => q.appended && (s.axOf q.axis).standstill && q.cells.any (fun x => p.cells.any (sameSet x)))
  if l = [] then s
  else
    let s := l.foldl (fun s q => s.surveyResult q.kind q.target 3 0 (match q.cells with | x :: _ => x.val | [] => 0)) s
    let s := s.onStw (fun w => { w with journal := w.journal.map (fun e =>
      if l.any (fun q => q.eseq == e.eseq) then { e with gone := true } else e) })
    let s := { s with survey := { s.survey with pend := s.survey.pend.filter (fun q => !l.contains q) } }
    let signer := ((s.stw.journal.find? (fun e => e.eseq == p.eseq)).map (·.signer)).getD 255
    (s.journalAppend 1 0 signer p.objSeq p.cells).1

/-- An amendment takes effect. -/
def State.commitAmd (p : PendAmd) (s : State) : State :=
  let s := s.supersede p
  let s := { s with cfg := applyCells s.cfg p.cells, stw := { s.stw with amds := s.stw.amds.filter (· != p), jApplied := max s.stw.jApplied p.eseq } }
  let first := match p.cells with | x :: _ => x.sec | [] => 0
  (s.amendmentEv 0 p.cells.length first p.objSeq).objAnswer 1 p.src p.obj p.part 0 0

/-- The amendments that commit at this boundary. -/
def State.amdsDue (s : State) : List PendAmd := s.stw.amds.filter (fun p => s.groupReady p.grp)

/-- AMENDMENT_COMMIT (R642, R643): at a boundary, every group whose conditions hold. WB_CHECK follows (R659). -/
def execAmendmentCommit (t : Nat) (s : State) : Answer :=
  let s := s.tick t
  if !s.atBoundary ∨ s.amdsDue = [] then .next s
  else
    let s := (s.amdsDue.foldl (fun s p => s.commitAmd p) s).cmpAmended s
    .next { s with wake := { s.wake with wbCheck := s.wbCheckNow } }

/-- SURVEY_COMMIT (R54, R62, R131, R353): pending values take effect at a boundary at which their axis is at standstill, but those that
an amendment supersedes there. Log entry 186. -/
def execSurveyCommit (t axis : Nat) (s : State) : Answer :=
  let s := s.tick t
  if !s.atBoundary then .next s else
  let l := (s.surveyDue axis).filter (fun q => !s.amdsDue.any (fun p => q.cells.any (fun x => p.cells.any (sameSet x))))
  let s := l.foldl (fun s p => s.surveyTake p) s
  .next { s with survey := { s.survey with pend := s.survey.pend.filter (fun p => !l.contains p) } }

/-! ### Fabric keys (R629 to R631) -/

def State.keyEv (gen action was : Nat) (s : State) : State := s.raise 0xF7 (le 1 gen ++ le 1 action ++ le 1 was)

def State.onFab (f : Fab → Fab) (s : State) : State := { s with fab := f s.fab }

/-- A key is held: as the other generation, or at once current on a keyless unit. -/
def State.holdKey (gen : Nat) (key : List Octet) (at_ : Option Int) (s : State) : State :=
  let cur := s.fab.keyCur
  if cur = 0 then (s.onFab (fun f => { f with keyCur := gen, keyOther := 0, keys := [(gen, key)] })).keyEv gen 1 0
  else
    let old := s.fab.keyOther
    let s := s.onFab (fun f => { f with keyOther := gen, keys := (f.keys.filter (·.1 == cur)) ++ [(gen, key)] })
    let s := s.onStw (fun w => { w with keyAt := at_.map (fun t => (gen, t)) })
    let s := if old ≠ 0 ∧ old ≠ gen then s.keyEv old 2 cur else s
    s.keyEv gen 0 cur

def State.takeKey (_ : Assembly) (o : Obj) (s : State) : State × Option Nat :=
  let gen := num o.body 0 1
  if s.stw.idFault || s.stw.kill then (s, some 13)
  else if gen = s.fab.keyCur then (s, some 4)
  else match Config.kemOpen s.stw.seed (sub o.body 0x10 1568) (sub o.body 0x630 40 ++ [gen] ++ le 8 o.seq) with
    | none => (s, some 20)
    | some key =>
      let at_ : Option Int := if num o.body 1 1 = 1 then some (wrapS (num o.body 8 8) 64) else none
      (s.holdKey gen key at_, some 0)

/-- KEY_DELIVERY (R629): a complete key delivery is checked and its key held. -/
def execKeyDelivery (t : Nat) (s : State) : Answer :=
  s.objRow t 2 (fun k g => g != 255 && !(5 ≤ k && k ≤ 9)) State.takeKey

/-- KEY_ACTIVATION (R630). -/
def execKeyActivation (t : Nat) (s : State) : Answer :=
  let s := s.tick t
  match s.stw.keyAt with
  | none => .next s
  | some (gen, at_) =>
    if !s.atBoundary ∨ s.fab.keyOther ≠ gen ∨ !((at_ == 0) || (s.time.synced && decide (at_ ≤ s.site))) then .next s
    else
      let cur := s.fab.keyCur
      let s := s.onFab (fun f => { f with keyCur := gen, keyOther := cur })
      .next ((s.onStw (fun w => { w with keyAt := none })).keyEv gen 1 cur)

/-! ### Owner keys and zeroisation (R632 to R634) -/

def State.takeFuse (_ : Assembly) (o : Obj) (s : State) : State × Option Nat :=
  let k := num o.body 0 1
  if 4 ≤ k ∨ (nth s.stw.owners k).state ≠ 0 then (s, some 4)
  else (s.onStw (fun w => { w with owners := w.owners.modify k (fun x => { x with state := 1, pk := sub o.body 8 64 }) }), some 0)

/-- OWNER_KEY_FUSE (R632). -/
def execOwnerKeyFuse (t : Nat) (s : State) : Answer := s.objRow t 2 (fun k g => k == 5 && g != 255) State.takeFuse

def State.takeRevoke (_ : Assembly) (o : Obj) (s : State) : State × Option Nat :=
  let k := num o.body 0 1
  let last := (nth s.stw.owners k).state == 1 && (s.stw.owners.filter (fun x => x.state == 1)).length == 1
  if 4 ≤ k ∨ k = o.signer ∨ last then (s, some 4)
  else (s.onStw (fun w => { w with owners := w.owners.modify k (fun x => { x with state := 3 }) }), some 0)

/-- OWNER_KEY_REVOKE (R632). -/
def execOwnerKeyRevoke (t : Nat) (s : State) : Answer := s.objRow t 2 (fun k g => k == 6 && g != 255) State.takeRevoke

/-- The unit loses its fabric keys (R633). -/
def State.zeroKeys (s : State) : State :=
  let gens := s.fab.keys.map (·.1)
  let cur := s.fab.keyCur
  let s := s.onFab (fun f => { f with keys := [], keyCur := 0, keyOther := 0 })
  let s := s.onStw (fun w => { w with keyAt := none })
  gens.foldl (fun s g => s.keyEv g 3 cur) s

def State.takeZeroise (_ : Assembly) (o : Obj) (s : State) : State × Option Nat :=
  let k := num o.body 0 1
  if s.mode.mode ≠ 6 ∧ s.mode.mode ≠ 7 then (s, some 10)
  else if k ≠ 1 ∧ k ≠ 2 then (s, some 4)
  else
    let s := ((s.raise 0xFE (le 1 k ++ le 1 o.signer)).zeroKeys).beginFlush
    (if k = 2 then s.onStw (fun w => { w with kill := true, idFault := true, seed := [] }) else s, some 0)

/-- ZEROISE (R633); it waits for the end of a verification. Log entry 187. -/
def execZeroise (t : Nat) (s : State) : Answer :=
  if s.stw.verifying.isSome then .next (s.tick t) else s.objRow t 2 (fun k g => k == 7 && g != 255) State.takeZeroise

def State.takeCommit (_ : Assembly) (o : Obj) (s : State) : State × Option Nat :=
  let k := num o.body 0 1
  if 2 ≤ k then (s, some 4)
  else if (nth s.stw.slots k).state ≠ 5 then (s, some 10)
  else (s.commitSlot k, some 0)

/-- COMMIT (R639): a kind 9 object, or the first entry to Service from a TRIAL slot. -/
def execCommit (t : Nat) (s : State) : Answer :=
  match (s.tick t).complete 2, s.slotIn 5 with
  | none, some k => .next (if s.mode.mode = 2 ∧ s.wake.trial then (s.tick t).commitSlot k else s.tick t)
  | _, _ => s.objRow t 2 (fun k g => k == 9 && g != 255) State.takeCommit

/-! ### Attestation (R645, R646) -/

/-- An attestation request is taken. -/
def State.takeAttest (src : Nat) (keyless : Bool) (nonce : List Octet) (flags : Nat) (s : State) : State :=
  let no (st : Nat) (s : State) : State :=
    (s.updateStatus src 0 0 st 0).raise 0xFF (le 2 (src % 65536 : Nat) ++ le 1 (b2n keyless) ++ le 1 1)
  let soon : Bool := match s.stw.lastKeyless with
    | some a => decide (s.now < a + 400000000 * s.nat STEWARD.attest_gap)
    | none => false
  if keyless && s.flag STEWARD.flags 1 then s
  else if s.stw.secError || s.stw.idFault || s.stw.kill then no 13 s
  else if 2 ≤ flags then no 4 s
  else if keyless && soon then no 11 s
  else
    let q : AttReq := { src := src, nonce := nonce, ek := bit flags 0, keyless := keyless }
    if s.stw.attest.isNone then s.onStw (fun w => { w with attest := some q })
    else if s.stw.attQueue.length < 2 then s.onStw (fun w => { w with attQueue := w.attQueue ++ [q] })
    else no 11 s

/-- ATTEST_REQUEST (R645). -/
def execAttestRequest (t src : Nat) (keyless : Bool) (nonce : List Octet) (flags : Nat) (s : State) : Answer :=
  .next ((s.tick t).takeAttest src keyless nonce flags)

/-- OWNER_STATE of the report and the region. -/
def State.ownerState (s : State) : Nat := (s.stw.owners.zipIdx.map (fun x => x.1.state * 4 ^ x.2)).sum

/-- BOOT_SLOT. -/
def State.bootSlot (s : State) : Nat := if (nth s.stw.slots 1).state = 4 then 1 else 0

/-- The attestation report without its signature, over the values latched for an epoch (R51). -/
def State.report (s : State) (q : AttReq) : List Octet :=
  let w := s.stw
  let d (k : Nat) : Ageing := nth w.dies k
  le 2 1 ++ [2, packBits [s.owned, s.keyless, (s.slotIn 5).isSome, s.time.synced, w.ageLimit]] ++ le 2 s.unitId ++ le 2 s.fab.boot ++
  padTo 32 q.nonce ++ le 8 s.stage.epoch ++ le 8 s.life ++ le 8 s.site ++ padTo 64 s.wake.fw.digest ++ padTo 64 s.wbDigest ++
  le 8 w.jApplied ++ le 8 ((s.led.headSeq.getD (2 ^ 64 - 1) : Nat)) ++ le 8 s.led.nextSeq ++ le 4 s.led.ordUsed ++ le 4 s.led.resUsed ++
  le 4 (d 0).d ++ le 4 (d 1).d ++ le 2 (d 0).vreq ++ le 2 s.bankCap ++ le 2 (satU s.purse.esr 16) ++ zeros 2 ++ le 4 s.purse.leftS ++ zeros 4 ++
  le 8 ((w.testLife.getD 0 : Nat)) ++ le 2 w.fwCtr ++ le 2 w.wbCtr ++ [s.ownerState, s.bootSlot, 0, 0] ++
  w.owners.flatMap (fun x => if x.state = 0 then zeros 16 else padTo 16 (Config.shake256 16 (x.pk.map Int.ofNat))) ++
  padTo 48 w.devicePk ++ padTo 64 (Config.shake256 64 (w.ekPk.map Int.ofNat)) ++ zeros 8 ++ (if q.ek then padTo 1568 w.ekPk else [])

/-- Cuts bytes into pieces of `n`. -/
def pieces (n : Nat) : Nat → List Octet → List (List Octet)
  | 0, _ => []
  | k + 1, b => if b = [] then [] else b.take n :: pieces n k (b.drop n)

/-- The report goes out in chunks of PART 0; their OBJ is not given, so it is free. -/
def State.sendReport (q : AttReq) (s : State) : State :=
  let r := s.view.report q
  let b := r ++ padTo 35664 (Config.slhSign s.stw.seed (withContext "PYRAD-ATTEST" r))
  let (o, s) := s.free
  let n := s.nat FABRIC.bulk_max - 16
  ((pieces n b.length b).foldl (fun (x : State × Nat) d =>
    (x.1.sendTo q.src (.attestReport { obj := o.toNat % 2 ^ 32, part := 0, total := b.length, offset := x.2, data := d }),
     x.2 + d.length)) (s, 0)).1

/-- ATTEST_SIGNED (R624, R646): the signature is made and verified. Signing is T1 work. Log entry 174. -/
def execAttestSigned (t : Nat) (pass : Bool) (s : State) : Answer :=
  let s := s.tick t
  match s.stw.attest with
  | none => .next s
  | some q =>
    if !s.purse.t1 then .next s
    else if !pass then
      let (o, s) := s.free
      .next ((s.onStw (fun w => { w with attest := none, attQueue := [] })).securityError 4 (o.toNat % 256))
    else
      let s := s.sendReport q
      let s := s.onStw (fun w => { w with
        attest := w.attQueue.head?, attQueue := w.attQueue.drop 1, lastKeyless := if q.keyless then some s.now else w.lastKeyless })
      .next (s.raise 0xFF (le 2 (q.src % 65536 : Nat) ++ le 1 (b2n q.keyless) ++ le 1 0))

/-! ### The window region -/

def State.regionSteward (s : State) : List Octet :=
  let w := s.stw
  let d (k : Nat) : Ageing := nth w.dies k
  le 4 (packBits [s.owned, s.keyless, w.secError, w.idFault, w.kill, (s.slotIn 5).isSome, w.compacting, w.jFull, w.testFrom.isSome]) ++
  le 2 w.fwCtr ++ le 2 w.wbCtr ++ [s.ownerState, s.bootSlot, (nth w.slots 0).state, (nth w.slots 1).state, w.attempts, w.amds.length, 0, 0] ++
  le 8 w.vendorSeq ++ w.owners.flatMap (fun x => le 8 x.lastSeq) ++ le 4 w.jUsed ++ le 4 w.jSeq ++ le 4 (d 0).d ++ le 4 (d 1).d ++
  le 2 ((d 0).vreq + (if s.clk.supplyRaised then 50 else 0) : Nat) ++ le 2 (d 1).vreq ++ le 4 w.pairsValid ++
  w.pairD.flatMap (fun x => le 4 x) ++ le 8 ((w.testLife.getD 0 : Nat)) ++ le 4 w.testDt ++
  le 4 ((w.wear.map (·.2)).foldl max 0 : Nat) ++ w.answers.flatMap (fun x => le 4 (x.1 + 256 * x.2 : Nat)) ++ zeros 4

end Sys2Proof.Machine
end

