-- ==== Sys2Proof/Machine/Waking.lean ====
section
/-! DEFINITION. Waking (chapter 17): from the supply or a reset to Stage 0, and the failures on the way (R622 to R625, R637,
R638, R660 to R669, R673), with the objects that begin a Waking. -/

namespace Sys2Proof.Machine

def State.onWake (f : Wake → Wake) (s : State) : State := { s with wake := f s.wake }

/-! ### Beginning and stopping -/

/-- A new Waking begins at once: the motion die is held and the Ledger flushed, and the Steward restarts at the end of the
flush (R637). -/
def State.beginWaking (s : State) : State :=
  let s := (s.setMode 0 0).holdMotion.beginFlush
  let s := s.onWake (fun w => { w with resetting := true, resetAt := s.now })
  if s.led.buf = [] then s.resetEnd else s

/-- Waking stops in Halt. Log entries 190, 191. -/
def State.wakeStop (cause : Nat) (s : State) : State :=
  let s := s.onWake (fun w => { w with phase := 8 })
  { s with mode := { s.mode with halt := setBit s.mode.halt cause true } }.setMode 6 cause

/-- The trunk ports begin with the FABRIC section in force. -/
def State.fabricUp (s : State) : State :=
  eachIx 2 (fun p s => s.onPort p (fun x => { x with peers := s.freshPeers p, lastHello := none })) s

/-- The FABRIC section of a waybill passes its own checks. -/
def State.fabricOk (w : Container) (s : State) : Bool :=
  let s := s.withImage w s.wake.fw.kernels
  (w.dir.filter (·.1 == 0x80)).all (secListed w) && w.dir.any (·.1 == 0x80) &&
  (w.cells.filter (·.sec == 0x80)).all s.cellOk && (allChecks.filter (·.sec == 0x80)).all (fun c => c.ok s) &&
  (required.filter (fun r => r.1.sec == 0x80)).all (fun r => each r.2.1 (fun i => imp (r.2.2 s i) (s.raw r.1 i != 0)))

/-- Bare Halt (R673): no image; the fabric runs on a FABRIC section that passes. Log entry 133. -/
def State.bareHalt (w : Option Container) (s : State) : State :=
  let fab : Bool := match w with | some w => s.fabricOk w | none => false
  let cells := ((w.map (·.cells)).getD []).filter (·.sec == 0x80)
  let s := { s with cfg := if fab then applyCells [] cells else [], graph := {}, kernels := [] }
  let s := s.onWake (fun x => { x with bare := true, fabric := fab, fw := {}, wb := {} })
  (if fab then s.fabricUp else s).wakeStop 10

/-- EV_WAYBILL_REJECTED. What the specification does not name of its payload is free. Log entry 182. -/
def State.rejectedEv (part cause : Nat) (sec : Option Nat) (sev : Nat) (s : State) : State :=
  let (a, s) := s.free
  let (b, s) := s.free
  let off := a.toNat % 2 ^ 32
  let sec := sec.getD (b.toNat / 2 ^ 32 % 2 ^ 16)
  let slot := if part = 0 then b.toNat / 2 ^ 48 % 2 ^ 8 else s.wake.slot
  (s.onWake (fun w => { w with lastCause := cause, rejSection := sec, rejOffset := off })).raise 0x81
    (le 1 part ++ le 1 slot ++ le 1 cause ++ le 2 sec ++ le 4 off ++ le 4 (b.toNat % 2 ^ 32 : Nat)) sev

/-- Waking goes on from the BOOT slot (R663); nothing of an image rejected stays loaded (R662). -/
def State.bootFrom (s : State) : State :=
  let s := { s with cfg := [], graph := {}, kernels := [] }
  match s.slotIn 4 with
  | some k => s.onWake (fun w => { w with phase := 1, slot := k, trial := false, fw := {}, wb := {} })
  | none => (s.rejectedEv 0 10 none 0).bareHalt none

/-- Fallback from a TRIAL slot (R638). -/
def State.fallback (k : Nat) (s : State) : State :=
  let s := s.onStw (fun w => { w with slots := w.slots.map (fun x =>
    if x.state = 5 then { x with state := 3 } else if x.state = 6 then { x with state := 4 } else x) })
  (s.updateEv k 4 3).bootFrom

/-- A container or section check fails (R673). `w` is the waybill whose container has passed. -/
def State.imageFails (part cause : Nat) (sec : Option Nat) (w : Option Container) (s : State) : State :=
  if s.wake.trial then (s.rejectedEv part cause sec 0).fallback s.wake.slot
  else (s.rejectedEv part cause sec 4).bareHalt w

/-! ### The start of Waking (R597, R620, R624, R625, R638, R648, R663) -/

/-- The slot is chosen; a Waking from a TRIAL slot counts its attempt. -/
def State.chooseSlot (s : State) : State :=
  let s := s.onStw (fun w => { w with slots := w.slots.map (fun x => if x.state = 1 then { x with state := 0 } else x) })
  match s.slotIn 5 with
  | none => s.bootFrom
  | some k =>
    if 3 ≤ s.stw.attempts then s.fallback k
    else
      let s := s.onStw (fun w => { w with attempts := w.attempts + 1 })
      (s.onWake (fun w => { w with phase := 1, slot := k, trial := true })).updateEv k 5

/-- The identity test fails alone (R625): the unit runs on without its identity. -/
def State.identityFails (s : State) : State := (s.onStw (fun w => { w with idFault := true })).selfTestEv 3 0 false 3

/-- Boot count, life clock and Ledger (R474, R584, R597). -/
def State.ledgerWake (s : State) : State :=
  let s := s.onStw (fun w => { w with boots := w.boots + 1 })
  let s := s.onFab (fun f => { f with boot := 1 + s.stw.boots % 65535 })
  s.raise 0xF9 (le 2 s.fab.boot ++ le 1 (b2n s.led.cleanPersist) ++ le 8 s.led.resumed ++ le 4 s.led.ordUsed)

/-- The first steps of a Waking; VIO33, VIO18 and the sensor rails come up in them (R721, R723).
`failed` are the tests that fail (0 fuses, 1 PUF, 2 known answers, 3 identity). -/
def State.startWaking (failed : List Nat) (nor : NorFacts) (s : State) : State :=
  let s := s.onPins (fun x => { x with vio33 := true, vio18 := true, sensors := true })
  let s := s.onStw (fun w => { w with idFault := w.kill })
  if failed.contains 0 then (s.securityError 0 0).wakeStop 9
  else
    let s := { s with clk := { s.clk with motionHeld := false } }
    if failed.contains 1 ∨ failed.contains 2 then
      (([1, 2].filter failed.contains).foldl (fun s k => s.securityError k 0) s).wakeStop 9
    else
      let s := if failed.contains 3 then s.identityFails else s
      let s := s.ledgerWake
      if !s.owned then s.wakeStop 9
      else
        let s := s.onWake (fun w => { w with octal := nor.octal, mbit := nor.mbit })
        if !nor.present ∨ nor.mbit < 256 then (s.rejectedEv 0 1 none 0).bareHalt none else s.chooseSlot

/-- WAKING (R663): a Waking that has begun goes through its first steps. A reset takes effect 500 ms after its recognition at
the latest (R724). Log entries 15, 169, 190, 191. -/
def execWaking (t : Nat) (failed : List Nat) (nor : NorFacts) (s : State) : Answer :=
  let s := s.tick t
  let s := if s.wake.resetAt + 200000000 ≤ s.now then s.resetEnd else s
  if !s.wake.supply ∨ s.wake.resetLow ∨ s.wake.resetting ∨ s.wake.phase ≠ 0 then .next s else .next (s.startWaking failed nor)

/-! ### Containers and sections (R660 to R665) -/

/-- CONTAINER_CHECKED (R660): the first read of a container, `c` as read. Log entry 15. -/
def execContainerChecked (t part : Nat) (c : Container) (s : State) : Answer :=
  let s := s.tick t
  if part = 1 ∧ s.wake.phase = 1 then
    let s := s.onSlot s.wake.slot (fun x => { x with fw := some c })
    match s.containerCause 1 0 c with
    | none => .next (s.onWake (fun w => { w with phase := 2, fw := c }))
    | some e => .next (s.imageFails 1 e none none)
  else if part = 2 ∧ s.wake.phase = 2 then
    let s := s.onSlot s.wake.slot (fun x => { x with wb := some c })
    match s.containerCause 2 s.wake.fw.api c with
    | none => .next (s.onWake (fun w => { w with phase := 3, wb := c }))
    | some e => .next (s.imageFails 2 e none none)
  else .next s

/-- CONTAINER_LOADED (R664): the second read; `fw` and `wb` are the digests recomputed on the way. Log entry 15. -/
def execContainerLoaded (t : Nat) (fw wb : List Octet) (s : State) : Answer :=
  let s := s.tick t
  if s.wake.phase ≠ 3 then .next s
  else if fw ≠ s.wake.fw.digest then .next (s.imageFails 1 9 none (some s.wake.wb))
  else if wb ≠ s.wake.wb.digest then .next (s.imageFails 2 9 none (some s.wake.wb))
  else .next ((s.withImage s.wake.wb s.wake.fw.kernels).onWake (fun w => { w with phase := 4 }))

/-- SECTION_CHECK (R665). Log entry 15. -/
def execSectionCheck (t : Nat) (s : State) : Answer :=
  let s := s.tick t
  if s.wake.phase ≠ 4 then .next s
  else match s.sectionFault with
    | none => .next (s.onWake (fun w => { w with phase := 5 }))
    | some sec => .next (s.imageFails 2 8 (some sec) (some s.wake.wb))

/-! ### Journal replay (R354, R666 to R668) -/

/-- A Survey value of the journal is there (R355). Log entry 194. -/
def Survey.supplyCell (x : Cell) (v : Survey) : Survey :=
  match fieldAt x.sec x.idx x.off with
  | none => v
  | some f =>
    if f = AXIS.comm_offset then { v with haveComm := v.haveComm.set x.idx true }
    else if scFields.contains f then { v with haveSc := v.haveSc.set x.idx true }
    else if f = DOOR.mass then { v with haveDoor := v.haveDoor.set x.idx true }
    else if f = LANDING.lc then { v with haveLevel := v.haveLevel.set (x.idx / 256) true }
    else if x.sec = 0x10 then { v with haveTare := v.haveTare.set x.idx true }
    else v

/-- The target of a learn run from its entry; a compacted entry names none, so it is free. Log entry 195. -/
def State.learnTarget (e : JEntry) (s : State) : Nat × State :=
  let ix := match e.cells with | x :: _ => x.idx | [] => 0
  match e.learn with
  | 0 => let (v, s) := s.free; (v.toNat % 256, s)
  | 3 => (ix / 256, s)
  | 5 => (ix / 256, s)
  | 4 => (((List.range 4).find? (fun c => s.nat CAR.load_in c == ix + 1)).getD 0, s)
  | _ => (ix, s)

/-- An amendment entry is skipped: reason 0 its tag, 1 its checks, with their status. Log entry 192. -/
def State.skipEntry (e : JEntry) (reason status : Nat) (s : State) : State :=
  (s.onWake (fun w => { w with skipped := w.skipped + 1 })).raise 0x82
    (le 8 e.eseq ++ le 1 e.type ++ le 1 reason ++ le 1 status)

/-- A Survey entry is skipped: reason 0 its digest, 1 its tag or its checks. Log entries 193, 195. -/
def State.skipSurvey (e : JEntry) (reason : Nat) (s : State) : State :=
  let (x, s) := (s.onWake (fun w => { w with skipped := w.skipped + 1 })).learnTarget e
  s.raise 0x70 (le 1 e.learn ++ le 1 x ++ le 1 reason ++ le 6 e.epoch)

/-- One entry; `last` says that it is the last of its half. Log entries 192, 193. -/
def State.replayOne (last : Bool) (e : JEntry) (s : State) : State :=
  let survey := e.type % 2 == 0
  let own := e.digest == s.wbDigest
  if e.gone then s
  else if !e.tagOk || s.stw.idFault then
    if last then s.onWake (fun w => { w with skipped := w.skipped + 1 }) else if survey then s.skipSurvey e 1 else s.skipEntry e 0 0
  else if survey && !own && e.digest != s.wake.wb.pred then s.skipSurvey e 0
  else if !survey && !own then s
  else
    let st := s.cellsStatus e.cells
    if st ≠ 0 then (if survey then s.skipSurvey e 1 else s.skipEntry e 1 st)
    else
      let s := { s with cfg := applyCells s.cfg e.cells }
      let s := s.onWake (fun w => { w with replayed := w.replayed + 1 })
      if survey then { s with survey := e.cells.foldl (fun v x => v.supplyCell x) s.survey }
      else s.onStw (fun w => { w with jApplied := e.eseq })

def State.replay (s : State) : State :=
  let n := s.stw.journal.length
  s.stw.journal.zipIdx.foldl (fun s x => s.replayOne (x.2 + 1 == n) x.1) s

/-- The terminations of a channel: those of the pairs that its kind uses (R139, R706). Log entry 266. -/
def termOf (kind : Nat) : Term :=
  match kind with
  | 1 => { a := true, b := true, z := true }
  | 2 => { z := true, sc := true }
  | 3 => { a := true }
  | _ => {}

/-- From the first Stage of Waking the terminations that the channels use are on (R706). Log entry 266. -/
def State.terminate (s : State) : State :=
  s.onPins (fun x => { x with term := (List.range 16).map (fun c => termOf (s.nat FB.kind c)) })

/-- Stage 0 begins (R59): its boundary is the next. The offsets are acquired from here (R138); an emulator
whose emitted count is 0 holds Z high (R184). -/
def State.stageZero (s : State) : State :=
  let s := s.onWake (fun w => { w with phase := 6, stage0At := s.now, wbCheck := s.wbCheckNow })
  let s := { s with
    stage := { running := true, openedAt := s.now }, acq := { from_ := some 0 }
    emu := s.emu.zipIdx.map (fun (x : Emu × Nat) => { x.1 with z := s.flag EMU.flags 0 x.2 })
    disp := { s.disp with tasks := List.replicate s.graph.tasks.length {} } }
  let s := if s.inPair then s.onTwin (fun x => { x with st := 1 }) else s
  s.terminate.fabricUp

/-- JOURNAL_REPLAY (R667). Log entry 15. -/
def execJournalReplay (t : Nat) (s : State) : Answer :=
  let s := s.tick t
  if s.wake.phase ≠ 5 then .next s else .next s.replay.stageZero

/-! ### Objects that begin a Waking (R623, R637) -/

/-- An ACTIVATE that has passed its checks. Log entry 169. -/
def State.takeActivate (_ : Assembly) (o : Obj) (s : State) : State × Option Nat :=
  let k := num o.body 0 1
  if 2 ≤ k then (s, some 4)
  else if (nth s.stw.slots k).state ≠ 2 ∨ (s.mode.mode ≠ 6 ∧ s.mode.mode ≠ 7) then (s, some 10)
  else
    let s := s.onSlot k (fun x => { x with state := 5 })
    ((s.onStw (fun w => { w with attempts := 0 })).updateEv k 2, some 0)

/-- ACTIVATE (R637): a kind 8 object; the Waking that it begins waits for the end of a verification. Log entry 187. -/
def execActivate (t : Nat) (s : State) : Answer :=
  if s.stw.verifying.isSome then .next (s.tick t)
  else
    let was := s.slotIn 5
    match s.objRow t 2 (fun k g => k == 8 && g != 255) State.takeActivate with
    | .next u => .next (if was.isNone ∧ (u.slotIn 5).isSome then u.beginWaking else u)
    | x => x

/-- The checks of the unsigned owner-key fuse object (R623, R632). Log entry 188. -/
def State.unsignedStatus (s : State) (part : Nat) (o : Option Obj) : Nat :=
  match o with
  | none => 4
  | some o =>
    if s.owned then 6
    else if o.kind ≠ 5 ∨ part ≠ 5 ∨ o.seq ≠ 1 then 4
    else if o.device ≠ s.devId then 9
    else if !o.digestOk then 5
    else if num o.body 0 1 ≠ 0 ∨ (nth s.stw.owners 0).state ≠ 0 then 4
    else 0

/-- UNSIGNED_OWNER_KEY (R623): an object with SIGNER 0xFF, from the service port only. Log entry 188. -/
def execUnsignedOwnerKey (t : Nat) (s : State) : Answer :=
  let s := s.tick t
  match s.complete 2 with
  | none => .next s
  | some a =>
    if num a.data 5 1 ≠ 255 then .next s
    else
      let s := s.setAsm 2 none
      let o := readObj true a.data
      let st := if s.stw.secError then 13 else if a.src ≠ 65536 then 6 else s.unsignedStatus a.part o
      match st, o with
      | 0, some o =>
        let s := s.onStw (fun w => { w with
          owners := w.owners.set 0 { state := 1, pk := sub o.body 8 64, lastSeq := 1 } })
        .next (s.objAnswer 2 a.src a.obj a.part 0 0).beginWaking
      | _, _ => .next ((if st = 13 then s else s.objectEv a st).objAnswer 2 a.src a.obj a.part st 0)

/-! ### Supply and reset (R547, R717, R724) -/

/-- SUPPLY_UP (R717): the converters are in regulation and a Waking begins. Log entry 15. -/
def execSupplyUp (t : Nat) (s : State) : Answer :=
  let s := s.tick t
  if s.wake.supply then .next s else .next ((s.restart.onWake (fun w => { w with supply := true })).onPins (fun x => { x with charger := true }))

/-- NRESET_ASSERT (R724): recognised after 1 µs. -/
def execNresetAssert (t : Nat) (s : State) : Answer :=
  let s := (s.tick t).onWake (fun w => { w with resetLow := true })
  if !s.wake.supply ∨ s.wake.resetting ∨ (s.wake.phase = 0 ∧ s.led.buf = []) then .next s
  else
    let s := ((s.dropChan true).holdMotion.powerFlushBegin).onWake (fun w => { w with resetting := true, resetAt := s.now })
    .next (if s.led.buf = [] then s.resetEnd else s)

/-- NRESET_RELEASE (R724): Waking begins, or will at the end of the flush. -/
def execNresetRelease (t : Nat) (s : State) : Answer :=
  let s := (s.tick t).onWake (fun w => { w with resetLow := false })
  .next (if !s.wake.resetting ∧ s.wake.phase = 0 then
      { s.onWake (fun w => { w with from_ := s.now }) with time := { s.time with at_ := s.now } }
    else s)

/-- HOLD_FLOOR (R547): in a power loss HOLD falls to PURSE.v_floor and every rail is turned off. What the Ledger has not
programmed is lost (R594). -/
def execHoldFloor (t hold : Nat) (s : State) : Answer :=
  let s := s.tick t
  if !s.purse.lost ∨ s.nat PURSE.v_floor < hold then .next s
  else
    let s := s.restart
    .next ((s.onWake (fun w => { w with supply := false })).onPurse (fun p => { p with hold := hold, railsOff := true })
      |>.onPins (fun _ => {}))

/-! ### The window region -/

def State.regionWaking (s : State) : List Octet :=
  let w := s.wake
  le 4 (packBits [s.mode.released, w.bare, w.octal, w.trial] + 256 * w.lastCause : Nat) ++ le 4 (satU w.wakeTime 32) ++
  le 8 w.releaseEpoch ++ le 2 w.rejSection ++ zeros 2 ++ le 4 w.rejOffset ++ le 2 (satU w.replayed 16) ++ le 2 (satU w.skipped 16) ++
  le 4 w.mbit ++ padTo 64 w.wb.digest ++ padTo 64 w.fw.digest ++ le 8 w.wbCheck ++ le 2 w.wb.version ++ le 2 w.fw.version ++
  le 4 w.fw.api

end Sys2Proof.Machine
end

