-- ==== Sys2Proof/Machine/Modes.lean ====
section
/-! DEFINITION. The operating modes of chapter 18: Halt causes, the mode kernel, Inspection, Recall, Rescue and Lodge, and the
release of the outputs (R670, R671, R674 to R701). -/

namespace Sys2Proof.Machine

def State.onMode (f : ModeSt → ModeSt) (s : State) : State := { s with mode := f s.mode }

/-! ### Halt causes (R678) -/

/-- The causes present: those latched and those raised in the Stage before, with the conditions as they are. -/
def State.haltMask (s : State) : Nat :=
  let h := s.mode.halt ||| s.mode.haltNew
  [(1, s.mode.base == 6), (5, s.purse.lost), (6, s.purse.level == 3), (7, !s.purse.t0),
   (11, s.mode.rescueDone && s.inputActive (s.nat MODES.rescue_in))].foldl
    (fun (h : Nat) (x : Nat × Bool) => setBit h x.1 x.2) h

/-- The causes at a boundary. During Waking they only gather. Log entry 196. -/
def State.haltBoundary (s : State) : State :=
  if s.mode.mode = 0 then s.onMode (fun m => { m with halt := m.halt ||| m.haltNew, haltNew := 0 })
  else
    let h := s.haltMask
    s.onMode (fun m => { m with
      halt := h, haltNew := 0, rescueDone := m.rescueDone && s.inputActive (s.nat MODES.rescue_in) })

/-- The lowest-numbered cause present, 0 for none. Log entry 196. -/
def State.haltFirst (s : State) : Nat := ((List.range 12).find? (fun k => bit s.mode.halt k)).getD 0

/-! ### The requested mode (R676, R677) -/

/-- The base mode at release. -/
def State.baseMode (s : State) : Nat :=
  if (List.range 4).any (fun c => (s.carAxis c).isSome && !s.landTable c) then 1 else if s.flag MODES.flags 1 then 6 else 2

def State.request (s : State) : Nat :=
  if setBit s.mode.halt 1 (s.mode.base == 6) ≠ 0 then 6
  else if s.mode.lodgeReq then 7
  else if s.safe.a.siOf (s.nat MODES.insp_si) then 3
  else if (s.mode.base == 2 && s.flag MODES.flags 3 && s.inputActive (s.nat MODES.rescue_in)) || s.mode.rescueOn then 5
  else if (s.mode.base == 2 && s.inputActive (s.nat RECALL.trigger)) || s.mode.recallExit then 4
  else s.mode.base

/-- Every axis is at standstill. -/
def State.allStill (s : State) : Bool := (List.range 12).all (fun a => !s.defined a || (s.axOf a).standstill)

/-- EV_MODE_REFUSED. Log entry 198. -/
def State.modeRefused (req reason car : Nat) (s : State) : State :=
  (s.onMode (fun m => { m with lastRefusal := req + 256 * reason })).raise 0x84 (le 1 req ++ le 1 reason ++ le 1 car)

/-- The mode kernel's decision: the requested mode where the transition decisions permit it. Lodge is entered from Halt
(R681, R697). Log entries 197, 198. -/
def State.modeDecide (s : State) : State :=
  let req := s.request
  let m := if req = 7 then 6 else req
  let was := s.mode.mode
  let bare := (List.range 4).find? (fun c => (s.carAxis c).isSome && !s.landTable c)
  let need := m == 2 || m == 4 || m == 5
  match need && m != was, bare with
  | true, some c =>
    let s := if s.mode.refused.contains m then s else s.modeRefused m 1 c
    s.onMode (fun x => { x with refused := [m], committed := was, causeOf := 0 })
  | _, _ =>
    let wait := (was == 1 || was == 3) && m != was && m != 6 && !s.allStill
    s.onMode (fun x => { x with
      refused := [], committed := if wait then was else m
      causeOf := if m = 6 then (if s.mode.halt = 0 then 1 else s.haltFirst) else 0 })

/-! ### Mode commands (R684) -/

/-- A mode command whose boundary has come. A target that is not listed is answered MB_FORMAT. Log entry 154. -/
def State.takeModeCmd (c : ModeCmd) (s : State) : State :=
  let no (r : Nat) (s : State) : State := (s.modeRefused c.target r 0xFF).reply c.origin 1 r
  let yes (s : State) : State := s.reply c.origin 0 0
  match c.target with
  | 1 =>
    if s.mode.base = 2 ∧ (!s.allStill ∨ (List.range 4).any (fun k => (s.car k).st == 2)) then no 3 s
    else yes (s.onMode (fun m => { m with base := 1, lodgeReq := false }))
  | 2 => yes (s.onMode (fun m => { m with base := 2, lodgeReq := false }))
  | 6 => yes (s.onMode (fun m => { m with base := 6, lodgeReq := false }))
  | 7 =>
    if s.mode.mode = 6 ∨ s.mode.mode = 2 then yes (s.onMode (fun m => { m with lodgeReq := true })) else no 4 s
  | _ => s.reply c.origin 2 0

def State.takeModeCmds (s : State) : State :=
  s.mode.commands.foldl (fun s c => s.takeModeCmd c) (s.onMode (fun m => { m with commands := [] }))

/-! ### Inspection (R686 to R688) -/

/-- MODES.insp_v or rescue_v of a car after its default. -/
def State.modesV (s : State) (f : Field) (c a : Nat) : Nat := if s.raw f 0 c = 0 then s.vCreep a else s.nat f 0 c

/-- The command that the inspection buttons of a car ask for; none for STOP, also once
Inspection is no longer asked for (R688). Log entry 267. -/
def State.inspWants (s : State) (c a : Nat) : Option AxCmd :=
  let up := s.inputActive (s.nat MODES.insp_up 0 c)
  let down := s.inputActive (s.nat MODES.insp_down 0 c)
  let on := s.safe.a.siOf (s.nat MODES.insp_si) && (s.nat MODES.insp_enable == 0 || s.inputActive (s.nat MODES.insp_enable))
  let v := s.modesV MODES.insp_v c a
  if !on || up == down then none
  else if s.landTable c then
    some { cmd := 4, arg := s.nat CAR.prof c, value := s.landPos c (if up then s.nat CAR.count c - 1 else 0), vcap := v }
  else some { cmd := 6, arg := s.nat CAR.prof c, value := (if up then 1 else -1) * v, vcap := v }

/-- One car in one Stage of Inspection. -/
def State.inspCar (c : Nat) (s : State) : State :=
  match s.carAxis c with
  | none => s
  | some a =>
    if s.nat MODES.insp_up 0 c = 0 ∧ s.nat MODES.insp_down 0 c = 0 then s
    else
      let last := s.mode.insp.getD c none
      let put (x : Option AxCmd) (s : State) : State := s.onMode (fun m => { m with insp := m.insp.set c x })
      match s.inspWants c a with
      | some m =>
        if last = some m then s
        else
          let (s, ok) := s.readyAxis a (s.car c).since
          if ok then put (some m) (s.kernelCmd a m)
          else s.onCar c (fun x => { x with since := if s.seen x.since then s.stage.boundaries else x.since })
      | none =>
        if last = some { cmd := 7 } ∨ (s.axOf a).standstill && s.rawDone a then (if last = some { cmd := 7 } then s else put none s)
        else put (some { cmd := 7 }) (s.kernelCmd a { cmd := 7 })

/-! ### Recall (R689 to R692) -/

/-- EV_RECALL_PHASE; the trigger named is RECALL.trigger. Log entry 199. -/
def State.recallEv (from_ dest : Nat) (s : State) : State := s.raise 0x85 (le 1 from_ ++ le 1 dest ++ le 1 (s.nat RECALL.trigger))

/-- Entry to a phase: with CLEAR set every stop of every car is cleared. Log entries 199, 200. -/
def State.recallEnter (p : Nat) (clear : Bool) (s : State) : State :=
  let s := s.onMode (fun m => { m with
    recallOn := true, recallPhase := p, recallOpened := List.replicate 4 false, recallDone := m.recallDone.set p false })
  if clear || s.flag RECALL.flags 0 0 p then
    eachIx 4 (fun c s => (s.onSched c (fun x => { x with stops := [], target := none })).onCar c (fun x => { x with assigned := none })) s
  else s

/-- A car of the phase in effect: it goes to the phase landing, and there its doors open. Log entry 200. -/
def State.recallCar (c : Nat) (s : State) : State :=
  let p := s.mode.recallPhase
  match s.recallLanding p c with
  | none => s
  | some l =>
    let sides := s.nat LANDING.sides (256 * c + l)
    if (s.car c).st = 1 ∧ (s.car c).landing = some l then
      if (s.doorsOf c).any (fun d => (s.door d).st == 3) then s.onMode (fun m => { m with recallOpened := m.recallOpened.set c true })
      else if flagAt s.mode.recallOpened c then s else s.askDoors c sides
    else s.onCar c (fun x => { x with assigned := some l, sides := sides })

/-- The phase in effect has completed. -/
def State.recallComplete (s : State) : Bool :=
  (List.range 4).all (fun c => match s.recallLanding s.mode.recallPhase c with
    | none => true
    | some l => (s.car c).st == 1 && (s.car c).landing == some l && flagAt s.mode.recallOpened c)

/-- The end of an exit that is pending (R692). -/
def State.recallHome (s : State) : Bool :=
  (List.range 4).all (fun c => match s.recallLanding 0 c with
    | none => true
    | some l => (s.car c).st == 1 && (s.car c).landing == some l &&
        (s.doorsOf c).all (fun d => (s.door d).st == 3 || (!s.flag RECALL.flags 1 0 0 && (s.door d).st == 1)))

/-- One Stage of Recall. -/
def State.recallStage (s : State) : State :=
  let s := if s.mode.recallOn then s else (s.onMode (fun m => { m with recallDone := List.replicate 4 false })).recallEnter 0 false
  let p := s.mode.recallPhase
  let done (k : Nat) : Bool := flagAt s.mode.recallDone k
  let want := (List.range 4).foldl (fun (q : Nat) k =>
    if 0 < k && done (k - 1) && (List.range k).all (fun j => s.inputActive (s.nat RECALL.input 0 (j + 1))) then k else q) 0
  let exit := !s.inputActive (s.nat RECALL.trigger)
  let s := if exit && !s.mode.recallExit && p != 0 then
      ((s.recallEv p 0).onMode (fun m => { m with recallExit := true })).recallEnter 0 true
    else if !s.mode.recallExit && want != p then (s.recallEv p want).recallEnter want false
    else s
  let s := if flagAt s.mode.recallDone s.mode.recallPhase then s else eachIx 4 State.recallCar s
  let s := if s.recallComplete then s.onMode (fun m => { m with recallDone := m.recallDone.set m.recallPhase true }) else s
  if s.mode.recallExit && s.recallHome then s.onMode (fun m => { m with recallExit := false }) else s

/-! ### Rescue (R693 to R696) -/

def State.rescueOf (s : State) (c : Nat) : RescueCar := nth s.mode.rescue c

def State.onRescue (c : Nat) (f : RescueCar → RescueCar) (s : State) : State :=
  s.onMode (fun m => { m with rescue := m.rescue.modify c f })

def State.rescueEv (c ev : Nat) (dir : Int) (landing : Nat) (s : State) : State :=
  s.raise 0x86 (le 1 c ++ le 1 ev ++ le 1 dir ++ le 1 landing)

/-- Rescue takes effect for a car (R693). Log entries 91, 201. -/
def State.rescueCar (c : Nat) (s : State) : State :=
  match s.carAxis c with
  | none => s
  | some a =>
    let x := s.car c
    let l := x.landing.getD 0xFF
    if bit x.out 4 then (s.onRescue c (fun _ => { undrivable := true })).rescueEv c 3 0 l
    else if x.st = 1 then
      (s.onRescue c (fun _ => { active := true, chosen := true, arrived := true, landing := l })).rescueEv c 0 0 l
    else
      let s := if (nth s.axe a).enabled && !(s.axOf a).standstill then s.order a .held 0 else s
      let s := (s.onCar c (fun x => { x with assigned := none, running := none })).dropTrip c
      let s := if x.st = 2 ∨ x.st = 3 ∨ x.st = 4 then s.carState c 5 else s
      (s.onRescue c (fun _ => { active := true, since := s.stage.openedAt })).rescueEv c 0 0 l

/-- One car in one Stage of Rescue. Log entry 102. -/
def State.rescueStage1 (c : Nat) (s : State) : State :=
  let r := s.rescueOf c
  match s.carAxis c with
  | none => s
  | some a =>
    if !r.active || r.done then s
    else if !r.chosen then
      if (s.axOf a).standstill then s else s.onRescue c (fun r => { r with since := s.stage.openedAt })
    else if !r.arrived then
      if (s.car c).st = 1 ∧ (s.car c).landing = some r.landing then
        (s.onRescue c (fun r => { r with arrived := true })).rescueEv c 2 r.dir r.landing
      else s
    else if (s.doorsOf c).isEmpty then s.onRescue c (fun r => { r with done := true })
    else if r.holdFrom.isNone then
      if (s.doorsOf c).any (fun d => (s.door d).st == 3) then s.onRescue c (fun r => { r with holdFrom := some s.stage.openedAt })
      else s.askDoors c (s.nat LANDING.sides (256 * c + r.landing))
    else if s.doorsClosed c then s.onRescue c (fun r => { r with done := true })
    else s

/-- One Stage of Rescue; complete when every car has closed its doors (R696). Log entry 201. -/
def State.rescueStage (s : State) : State :=
  let s := eachIx 4 State.rescueStage1 s
  if s.mode.rescueOn ∧ s.mode.rescue.all (fun r => !r.active || r.done) then
    (s.onMode (fun m => { m with rescueOn := false, rescueDone := true })).rescueEv 0xFF 4 0 0xFF
  else s

/-- RESCUE (R694): after AXIS.dwell at rest the direction of a car and its landing are chosen. Log entry 91. -/
def execRescue (t car : Nat) (s : State) : Answer :=
  let s := s.tick t
  if s.clk.motionHeld then .next s
  else
  let r := s.rescueOf car
  match s.carAxis car with
  | none => .next s
  | some a =>
    if s.mode.mode ≠ 5 ∨ !r.active ∨ r.chosen ∨ !(s.axOf a).standstill ∨ s.now < r.since + s.nat AXIS.dwell a then .next s
    else
      let p := (s.car car).pc
      let near := s.nearestLanding car p (fun _ => true)
      let down : Bool :=
        if (s.car car).loadKnown then decide (s.int DISPATCH.balance < (s.car car).y)
        else match near with | some l => decide (s.landPos car l ≤ p) | none => true
      let way (d : Bool) (l : Nat) : Bool := if d then decide (s.landPos car l ≤ p) else decide (p ≤ s.landPos car l)
      match (s.nearestLanding car p (way down)).orElse (fun _ => near) with
      | none => .next s
      | some l =>
        let d : Int := if down then -1 else 1
        let s := s.onRescue car (fun r => { r with chosen := true, dir := d, landing := l })
        let s := s.onCar car (fun x => { x with
          assigned := some l, sides := s.nat LANDING.sides (256 * car + l), capV := s.modesV MODES.rescue_v car a })
        .next (s.rescueEv car 1 d l)

/-- RESCUE_HOLD_END (R695): the hold at the rescue landing ends and its doors close. -/
def execRescueHoldEnd (t car : Nat) (s : State) : Answer :=
  let s := s.tick t
  if s.clk.motionHeld then .next s
  else
  if s.mode.mode ≠ 5 ∨ !(s.rescueOf car).arrived then .next s
  else .next ((s.doorsOf car).foldl (fun s d =>
    let ovr : Bool := match (s.door d).holdEnd with | some u => decide (u ≤ s.now) | none => false
    if (s.door d).st = 3 ∧ ovr then s.onDoor d (fun x => { x with holdOver := true }) else s) s)

/-! ### The mode kernel -/

/-- Every offset is acquired and every SSI delay measured (R670, R700). -/
def State.acquired (s : State) : Bool :=
  (s.acq.done || !(List.range 36).any (fun c => (s.claimOf c).isSome)) &&
  (List.range 16).all (fun ch => s.nat FB.kind ch != 3 || flagAt s.wake.ssiMeasured ch)

/-- The work of the mode kernel in one Stage (R674, R675). -/
def State.modeKernel (s : State) : State :=
  if s.mode.mode = 0 ∨ s.mode.mode = 7 ∧ (!s.mode.waking ∨ !s.acquired) then s
  else
    let s := s.takeModeCmds
    let s := match s.mode.mode with
      | 3 => eachIx 4 State.inspCar s
      | 4 => s.recallStage
      | 5 => s.rescueStage
      | _ => s
    s.modeDecide

/-! ### What a change of mode does (R679 to R683) -/

/-- Each car that is BETWEEN and not OUT goes to its nearest landing (R682). -/
def State.betweenCars (s : State) : State :=
  eachIx 4 (fun c s => match s.carAxis c with
    | none => s
    | some a =>
      if (s.car c).st ≠ 5 ∨ s.isOut c then s
      else match s.nearestLanding c (s.car c).pc (fun _ => true) with
        | some l => s.onCar c (fun x => { x with
            assigned := some l, sides := 0, capV := s.natOr CAR.corr_speed c (s.natOr SURVEY.learn_speed 0 (s.vCreep a)) })
        | none => s) s

/-- A device mode takes effect. -/
def State.modeEffect (m cause : Nat) (s : State) : State :=
  let was := s.mode.mode
  let s := if m = 6 ∧ cause ≠ 1 ∧ s.flag MODES.flags 0 then s.onMode (fun x => { x with base := 6 }) else s
  let s := s.setMode m cause
  let s := if m = 6 then eachIx 12 (fun a s => s.orderSs1 a 0x83) s
    else eachIx 12 (fun a s => if (s.axOf a).enabled && !modePermits m (s.axOf a).mode then s.order a .held 0 else s) s
  let s := if m = 3 ∨ m = 6 ∨ m = 7 then eachIx 8 State.doorHalt s else s
  let s := if was = 4 then (s.recallEv s.mode.recallPhase 0xFF).onMode (fun x => { x with recallOn := false }) else s
  let s := if was = 3 then s.onMode (fun x => { x with insp := List.replicate 4 none }) else s
  let s := if was = 7 then s.onMode (fun x => { x with waking := false }) else s
  let s := if m = 2 ∨ m = 4 then s.betweenCars else s
  let s := if m = 5 then
      eachIx 4 State.rescueCar (s.onMode (fun x => { x with rescueOn := true, rescueDone := false, rescue := List.replicate 4 {} }))
    else s
  match decide (m = 2) && s.wake.trial, s.slotIn 5 with
  | true, some k => s.commitSlot k
  | _, _ => s

/-- The pairing conditions of the third row of R697 hold. Log entry 202. -/
def State.idle (s : State) : Bool :=
  s.mode.mode == 2 && (List.range 4).all (fun c => (s.carAxis c).isNone || (s.car c).st == 1) &&
  (List.range 8).all (fun d => s.nat DOOR.axis d == 0 || (s.door d).st == 1) &&
  (List.range 12).all (fun a => !(s.axOf a).enabled || (s.axOf a).standstill) &&
  s.dsp.orders == [] && s.dsp.scheds.all (fun x => x.stops == []) &&
  (List.range 8).all (fun k => s.nat TWIN.serves 0 k == 0) && !s.flag DISPATCH.flags 1 && !s.collects && !s.inPair

/-- The device mode at a boundary; `done` says that the mode kernel has committed (R96, R674). -/
def State.modeBoundary (done : Bool) (s : State) : State :=
  let s := s.haltBoundary
  let s := if s.mode.mode = 0 ∨ !done then s.onMode (fun m => { m with committed := m.mode })
    else if s.mode.committed ≠ s.mode.mode then s.modeEffect s.mode.committed s.mode.causeOf else s
  let since (b : Bool) (x : Option Nat) : Option Nat := if b then some (x.getD s.now) else none
  s.onMode (fun m => { m with
    idleSince := since s.idle m.idleSince, t0Since := since (m.mode == 6 && !s.purse.t0) m.t0Since })

/-! ### Lodge (R697 to R701) -/

/-- A time since `u` in cycles has passed. -/
def State.since (s : State) (u : Option Nat) (n : Nat) : Bool := match u with | some u => decide (u + n ≤ s.now) | none => false

/-- LODGE_IDLE (R697): Halt with T0 unfunded for 1 s, or an idle Service for MODES.lodge_idle seconds. -/
def execLodgeIdle (t : Nat) (s : State) : Answer :=
  let s := s.tick t
  let n := s.nat MODES.lodge_idle
  if s.since s.mode.t0Since 400000000 ∨ (n ≠ 0 ∧ s.since s.mode.idleSince (400000000 * n)) then
    .next (s.onMode (fun m => { m with lodgeReq := true }))
  else .next s

/-- LODGE_ENTRY (R698): requested, in Halt, every axis disabled. Log entry 197. -/
def execLodgeEntry (t : Nat) (s : State) : Answer :=
  let s := s.tick t
  if s.mode.mode ≠ 6 ∨ !s.mode.lodgeReq ∨ !s.atBoundary ∨ s.axe.any (·.enabled) then .next s
  else
    let s := s.modeEffect 7 0
    let s := s.onMode (fun m => { m with
      released := false, lodgeReq := false, lodgeAt := s.now, lanesOff := true, waking := false, wakePending := none })
    let s := s.onPins (fun x => { x with sensors := s.flag MODES.flags 2 })
    let s := { s with disp := { s.disp with started := false, lanes := [none, none] }, twin := { s.twin with grant := false } }
    let s := (eachIx 12 (fun a s => s.gatesOff a (8 * s.now)) s).driveOuts false
    .next ((s.driveOuts true).raise 0x87 (le 1 0 ++ le 1 0 ++ le 1 0))

/-- A wake source of R699 has come: 0 a filtered change of an input, 1 a frame, 2 the wake timer, 3 a mode command, 4 T0
funded after a wake that waited for it. -/
def State.wakeDue (s : State) (source input : Nat) : Bool :=
  match source with
  | 0 => decide (input < 64) && bit (s.nat MODES.wake_mask) input && s.dinMoved input
  | 1 => s.mode.wakePending == some (1, 0)
  | 2 => s.nat MODES.lodge_wake != 0 && decide (s.mode.lodgeAt + 400000000 * s.nat MODES.lodge_wake ≤ s.now)
  | 3 => s.win.cmds.any (fun c => match c.cmd with | .mode m => m != 7 | _ => false)
  | _ => s.mode.wakePending.isSome

/-- Lodge wakes: without LODGE_FB the axes on incremental channels lose HOMED (R701), and all monitoring lapses (R405). -/
def State.lodgeWakes (source input : Nat) (s : State) : State :=
  let lost (a : Nat) : Bool := match s.fbPos a with
    | some ch => s.nat FB.kind ch == 1 || s.nat FB.kind ch == 2
    | none => false
  let s := if s.flag MODES.flags 2 then s else eachIx 12 (fun a s =>
    let s := if s.defined a && lost a then s.setHomed a false else s
    if (s.readHome a).method = 6 then s.onHomeKept a (fun h => { h with result := 0 }) else s) s
  (s.lapseAll.onMode (fun m => { m with
    waking := true, wakeAt := s.now, wakePending := none, lodgeWakes := inc32 m.lodgeWakes })).raise 0x87
    (le 1 1 ++ le 1 source ++ le 1 input)

/-- LODGE_WAKE (R699): at a boundary; with T0 unfunded it stays pending. Log entry 202. -/
def execLodgeWake (t source input : Nat) (s : State) : Answer :=
  let s := s.tick t
  if s.mode.mode ≠ 7 ∨ s.mode.waking ∨ !s.atBoundary ∨ !s.wakeDue source input then .next s
  else if !s.purse.t0 then .next (s.onMode (fun m => { m with wakePending := some (source, input) }))
  else .next (s.lodgeWakes source input)

/-- LODGE_SUPPLY_RESTORED (R700): the lanes run from the next boundary, where the offsets are acquired anew. Log entry 202. -/
def execLodgeSupplyRestored (t : Nat) (s : State) : Answer :=
  let s := s.tick t
  if s.mode.mode ≠ 7 ∨ !s.mode.waking ∨ !s.mode.lanesOff then .next s
  else
    let s := s.onMode (fun m => { m with lanesOff := false })
    let s := (s.onWake (fun w => { w with ssiMeasured := List.replicate 16 false })).onPins (fun x => { x with sensors := true })
    .next { s with
      acq := { from_ := some (s.stage.boundaries + 1) }
      ch := s.ch.map (fun (x : Chan) => { x with acqSum := 0, acqCount := 0 }) }

/-! ### Release (R670, R671) -/

/-- PERMIT has been 1 in both channels for the Stage that this boundary closes. -/
def State.permitThrough (s : State) : Bool :=
  let on (b : Bool) (v : Option SafeVec) : Bool := match v with
    | some v => v.permit && !(s.chan b).drop && !(s.chan b).dead
    | none => false
  on false s.safe.a.effect && on true s.safe.b.result

/-- Waking ends: EV_WAKING, the base mode and the mode of R677. Log entry 265. -/
def State.wakingEnds (s : State) : State :=
  let us := (s.now - s.wake.from_) / 400
  let s := s.onWake (fun w => { w with phase := 7, wakeTime := us, releaseEpoch := s.stage.epoch, ledgerOn := true })
  let s := s.onMode (fun m => { m with base := s.baseMode, released := true })
  let s := s.raise 0x80 (le 1 s.wake.slot ++ le 1 (b2n s.wake.trial) ++ le 2 s.fab.boot ++ le 6 s.stage.epoch ++
    le 4 (satU us 32) ++ le 2 (satU s.wake.replayed 16) ++ le 2 (satU s.wake.skipped 16))
  let h := s.haltMask
  let s := s.onMode (fun m => { m with halt := h, haltNew := 0 })
  s.modeEffect s.request (if s.request = 6 then s.haltFirst else 0)

/-- RELEASE_OUTPUTS (R670): the first boundary at which every condition holds, at the end of Waking or after Lodge. -/
def execReleaseOutputs (t : Nat) (s : State) : Answer :=
  let s := s.tick t
  if !s.atBoundary ∨ s.mode.released ∨ !s.acquired ∨ !s.purse.t0 ∨ !s.permitThrough then .next s
  else if s.wake.phase = 6 then .next (s.wakingEnds.driveOuts false)
  else if s.wake.phase = 7 ∧ s.mode.mode ≠ 7 ∧ !bit s.mode.halt 10 then
    .next ((s.onMode (fun m => { m with released := true })).driveOuts false)
  else .next s

/-- WAKING_TIMEOUT (R671): no release 10 s after Stage 0 for want of PERMIT, or HOLD charged and T0 still unfunded.
Log entry 203. -/
def execWakingTimeout (t : Nat) (s : State) : Answer :=
  let s := s.tick t
  let late := decide (s.wake.stage0At + 4000000000 ≤ s.now) && s.acquired && s.purse.t0 && !s.permitThrough
  let poor := decide (s.nat PURSE.v_full ≤ s.purse.hold + 500) && !s.purse.t0
  if s.wake.phase ≠ 6 ∨ !(late || poor) then .next s
  else
    let s := s.onWake (fun w => { w with phase := 7, wakeTime := (s.now - w.from_) / 400 })
    let s := s.onMode (fun m => { m with halt := setBit (m.halt ||| m.haltNew) 10 true, haltNew := 0, base := s.baseMode })
    .next (s.modeEffect 6 10)

/-! ### The window region -/

def State.regionMode (s : State) : List Octet :=
  let m := s.mode
  let secs (k : Nat) : Nat :=
    satU ((m.timeIn.getD k 0 + (if m.mode = k then s.now - m.enteredAt else 0)) / 400000000) 32
  le 4 (m.mode + 16 * m.base + 256 * m.recallPhase + 1024 * packBits [m.recallExit, m.rescueDone, m.wakePending.isSome] : Nat) ++
  le 4 m.halt ++ le 8 m.epochIn ++ le 4 m.lastRefusal ++ le 4 m.changes ++ le 4 m.halts ++ le 4 m.lodgeWakes ++
  (List.range 8).flatMap (fun k => le 4 (secs k))

end Sys2Proof.Machine
end

