-- ==== Sys2Proof/Machine/Service.lean ====
section
/-! DEFINITION. The diagnostic window, the mailbox and the service port of chapter 20 (R727 to R743), with what the mailbox
commands CLEAR_FAULT, SET_TIME and WRITE do (R171, R228, R278, R367, R423, R491, R508, R735). A source is a unit ID, or 65536 for
the service port. -/

namespace Sys2Proof.Machine

def State.onWin (f : Win → Win) (s : State) : State := { s with win := f s.win }

/-! ### The address map (R727, R728) -/

/-- FULL: four replies wait at the service port (R741). -/
def State.svcFull (s : State) : Bool := decide (4 ≤ s.win.svcQueue.length)

/-- The service port is enabled by the modes, as the last boundary found them (R739). Log entry 212. -/
def State.svcEnable (s : State) : Bool :=
  s.nat SERVICE.enable == 3 || (s.nat SERVICE.enable == 2 && (s.mode.mode == 6 || s.mode.mode == 1))

/-- The service port takes transactions (R739). -/
def State.svcOpen (s : State) : Bool := s.win.svcOn || !s.owned || s.wake.bare

/-- WINDOW_DATA frames copied and not yet sent, on both routes (R732). -/
def State.copiesWaiting (s : State) : Nat :=
  let data (m : Msg) : Bool := match m with | .windowData _ _ st _ _ => st == 0 | _ => false
  let own (p : Port) : List Nat :=
    (p.queue.filter (fun i => i.buf.isNone && data i.frame.msg)).map (fun i => i.frame.seq)
  (s.fab.ports.flatMap own).eraseDups.length + (s.win.svcQueue.filter data).length

/-- Reads held: waiting, or copied and waiting to be sent (R732). -/
def State.readsHeld (s : State) : Nat := s.win.reads.length + s.copiesWaiting

/-- The identification and module region (R743). -/
def State.regionIdent (s : State) : List Octet :=
  [0x48, 0x4F, 0x4C, 0x54] ++ le 2 0x1240 ++ [2, 1] ++ padTo 8 s.devId ++ le 4 0x1024300C ++
  le 4 (flagsOf [s.svcOpen, s.flag SERVICE.flags 0, s.svcFull]) ++
  (List.range 3).flatMap (fun k => le 4 (nth s.links k).retry) ++ le 4 s.clk.eccCorrected ++ le 4 s.win.svcErrors ++
  le 4 s.win.svcRefused ++ le 4 s.win.served ++ le 2 s.readsHeld ++ le 2 s.win.cmds.length

/-- The mailbox status region: the 32 newest replies, the newest first. -/
def State.regionMailbox (s : State) : List Octet :=
  (s.win.kept.take 32).flatMap (fun k => le 2 k.src ++ zeros 2 ++ le 4 k.id ++ [k.cmd % 256, k.status % 256, 0, 0] ++ le 6 k.epoch ++
    zeros 2 ++ le 4 k.detail)

/-- The regions by base and size, in address order. -/
def windowMap : List (Nat × Nat × (State → List Octet)) :=
  [(0x0, 0x1000, State.regionIdent), (0x1000, 0x1000, State.regionMailbox), (0x10000, 0x8000, State.regionDispatcher),
   (0x18000, 0x1000, State.regionFeedback), (0x19000, 0x1000, State.regionCurrent), (0x1A000, 0x1000, State.regionAxis),
   (0x1B000, 0x1000, State.regionHoming), (0x1C000, 0x1000, State.regionCar), (0x1D000, 0x1000, State.regionInterlock),
   (0x1E000, 0x1000, State.regionDispatch), (0x1F000, 0x1000, State.regionFabric), (0x20000, 0x10000, State.regionPaths),
   (0x30000, 0x1000, State.regionTwin), (0x31000, 0x1000, State.regionPurse), (0x32000, 0x1000, State.regionLedger),
   (0x33000, 0x1000, State.regionSteward), (0x34000, 0x1000, State.regionWaking), (0x35000, 0x1000, State.regionMode),
   (0x100000, 0x100000, fun s => residualBytes s.wake.wb.resRsvd s.wake.wb.residuals)]

/-- How many bytes of an address range a region holds, and from where. -/
def overlap (addr len base size : Nat) : Nat × Nat := (max addr base, min (addr + len) (base + size) - max addr base)

/-- Every byte of the range lies in a region. -/
def mapped (addr len : Nat) : Bool := (windowMap.map (fun r => (overlap addr len r.1 r.2.1).2)).sum == len

/-- The window bytes of a range, as published (R50, R54). Log entry 205. -/
def State.windowBytes (s : State) (addr len : Nat) : List Octet :=
  let s := s.view
  windowMap.flatMap (fun r =>
    let (from_, n) := overlap addr len r.1 r.2.1
    if n = 0 then [] else sub (padTo r.2.1 (r.2.2 s)) (from_ - r.1) n)

/-! ### Reads (R730 to R734) -/

/-- The boundary that opens the Stage of epoch `e` has passed. Log entry 207. -/
def State.passed (s : State) (e : Nat) : Bool := decide (e ≤ s.stage.epoch) && s.stage.epoch != 0xFFFFFFFFFFFF

/-- An answer without data. The epoch of no byte is free. Log entry 205. -/
def State.readError (src : Nat) (r : WinRead) (status : Nat) (s : State) : State :=
  let (e, s) := s.free
  s.sendTo src (.windowData r.req r.addr status (e.toNat % 2 ^ 48) [])

/-- The greatest LEN (R733). -/
def State.readMax (s : State) (src : Nat) : Nat := if src = 65536 then 1024 else s.nat FABRIC.bulk_max - 20

/-- The status of a read on arrival, the first that applies (read status table). Log entry 206. -/
def State.readStatus (s : State) (src : Nat) (r : WinRead) : Nat :=
  if !mapped r.addr r.len then 1
  else if r.addr % 4 ≠ 0 ∨ r.len % 4 ≠ 0 ∨ r.len < 4 ∨ s.readMax src < r.len ∨ r.rsvd then 2
  else if r.at_ ∧ s.passed r.atEpoch then 3
  else if 64 ≤ s.readsHeld then 4
  else if r.at_ ∧ s.stage.epoch ≠ 0xFFFFFFFFFFFF ∧ s.stage.epoch + 65536 < r.atEpoch then 5
  else 0

/-- A read arrives. Log entry 207. -/
def State.takeRead (src : Nat) (r : WinRead) (s : State) : State :=
  match s.readStatus src r with
  | 0 => s.onWin (fun w => { w with reads := w.reads ++ [{ src := src, read := r }] })
  | k => s.readError src r k

/-- WINDOW_READ (R732). -/
def execWindowRead (t src : Nat) (r : WinRead) (s : State) : Answer := .next ((s.tick t).takeRead src r)

/-- A held read at its boundary: copied while the budget lasts. `x.2` says that an earlier read with AT 0 has found no room.
Log entry 207. -/
def State.serveRead (x : State × Bool) (h : HeldRead) : State × Bool :=
  let (s, full) := x
  let r := h.read
  let keep (s : State) : State := s.onWin (fun w => { w with reads := w.reads ++ [h] })
  let fits := decide (s.win.copied + r.len ≤ 16384)
  let copy (s : State) : State :=
    let b := s.windowBytes r.addr r.len
    (s.onWin (fun w => { w with copied := w.copied + r.len, served := inc32 w.served })).sendTo h.src
      (.windowData r.req r.addr 0 s.view.stage.epoch b)
  if r.at_ then
    if !s.passed r.atEpoch then (keep s, full)
    else if r.atEpoch ≠ s.stage.epoch then (s.readError h.src r 3, full)
    else if fits then (copy s, full) else (s.readError h.src r 4, full)
  else if !h.due then (keep s, full)
  else if full || !fits then (keep s, true)
  else (copy s, full)

/-- The reads of the present boundary may be served: the Steward has latched its quantities for the epoch (R730), or no notice
of it can come. Log entry 207. -/
def State.readsDue (s : State) : Bool :=
  !s.stage.running || s.stage.epoch == 0xFFFFFFFFFFFF || s.stage.noticed == some s.stage.boundaries || (nth s.links 0).failed

/-- Without a Stage that runs a read is served as it comes; before the first Stage the values are those of the instant (R53). Log
entry 207. Log entry 207. -/
def State.idleServe (s : State) : State :=
  if s.stage.running && s.stage.epoch != 0xFFFFFFFFFFFF then s
  else
    let s := s.onWin (fun w => { w with copied := 0, reads := w.reads.map (fun (r : HeldRead) => { r with due := true }) })
    if s.stage.epoch = 0xFFFFFFFFFFFF then s.publish else s

/-- WINDOW_READ_SERVE (R730 to R732): the reads that the boundary of the present Stage serves, in order of arrival, from the
values published under its epoch. Log entries 205, 207. -/
def execWindowReadServe (t : Nat) (s : State) : Answer :=
  let s := s.tick t
  if !s.readsDue then .next s
  else
  let s := s.idleServe
  .next (s.win.reads.foldl State.serveRead (s.onWin (fun w => { w with reads := [] }), false)).1

/-! ### Clearing faults -/

/-- A fault of an axis clears; it is left in Idle (R101, R278). -/
def State.clearAxis (a : Nat) (s : State) : State :=
  if !(s.bookOf a).fault then s
  else
    let s := s.onBook a (fun b => { b with fault := false, cause := 0, causes := 0 })
    (s.onAxKept a (fun x => { x with mode := 0, enabled := false, ramp := false, disabling := false, ferrRun := 0 })).clearBinding a

/-- The current faults of an axis (R228). -/
def State.clearCur (a : Nat) (s : State) : State :=
  if (s.caxOf a).causes ≠ 0 ∨ (List.range (kindChs (s.kind a))).any (fun i => (s.chOf (s.phBase a + i)).fault) then
    s.clearCurrent a else s

/-- A door in FAULT whose axis fault is cleared, or whose homing failed, is UNKNOWN. Log entry 99. -/
def State.clearDoor (d : Nat) (s : State) : State :=
  if (s.door d).st ≠ 8 then s else (s.onDoor d (fun x => { x with faultCause := 0 })).doorState d 0

/-- The faults of a car: OUT causes 2 to 4 and 6 clear (R380), DEGRADED and DZ_DEGRADED when their cause is gone (R368), and
a car with SHAFT_FAULT is left UNKNOWN and OUT until a correction run completes (R367). Log entries 99, 253. -/
def State.clearCar (c : Nat) (s : State) : State :=
  let s := s.onCar c (fun x => { x with
    out := [2, 3, 4, 6].foldl (fun o k => setBit o k false) x.out
    degraded := x.degraded && !s.shaftValid c, dzDegraded := x.dzDegraded && x.differ.isSome })
  if !(s.car c).shaftFault then s
  else ((s.onCar c (fun x => { x with shaftFault := false })).setOut c 5).carState c 0

/-- An XD whose torque-off is confirmed, or that has torque, is unconfirmed no more. -/
def State.clearXd (a : Nat) (s : State) : State :=
  if s.torqueOn a || s.xdTorqueOff a then s.onXd a (fun x => { x with unconfirmed := false }) else s

/-- What gave Halt cause 4 is gone. Log entry 211. -/
def State.cause4Gone (s : State) : Bool :=
  !s.safe.xcmpFault && !s.safe.outs.any (fun o => o.fault == 2 || o.fault == 5) &&
  !([s.safe.a, s.safe.b].any (fun c => c.ucm.any id || c.ovr.any id)) && !s.xd.any (·.unconfirmed) &&
  (!s.localPair || s.selReading == s.twin.grant)

/-- The Fault causes of Halt after a safety reset (R678). Log entry 211. -/
def State.clearHalt (s : State) : State :=
  let off (h : Nat) : Nat :=
    let h := setBit (setBit h 3 false) 8 false
    if s.cause4Gone then setBit h 4 false else h
  (s.onMode (fun m => { m with halt := off m.halt, haltNew := off m.haltNew })).clearBinding 12

/-- CLEAR_FAULT in Halt; it gives the latches that its safety reset cleared. Log entry 99. -/
def State.clearFaults (s : State) : State × Nat :=
  let s := eachIx 16 (fun ch s => if (s.fbOf ch).fault then (s.clearFb ch).lapse ch else s) s
  let s := eachIx 4 State.clearEmu s
  let s := eachIx 12 State.clearCur s
  let s := eachIx 12 State.clearAxis s
  let s := eachIx 8 State.clearDoor s
  let s := eachIx 4 State.clearCar s
  let s := eachIx 12 State.clearXd s
  match s.safetyReset with
  | (s, some n) => (s.clearHalt, n)
  | (s, none) => (s, 0)

/-- The mailbox command CLEAR_FAULT: in Halt, and in any mode for an UNFIT member. Log entry 211. -/
def State.takeClearFault (o : Origin) (s : State) : State :=
  let unfit := s.inPair && s.twin.st == 6
  if s.mode.mode ≠ 6 ∧ !unfit then s.reply o 3 0
  else
    let (s, n) := if s.mode.mode = 6 then s.clearFaults else (s, 1)
    (if unfit then s.rejoin 3 else s).reply o 0 n

/-! ### SET_TIME and WRITE -/

/-- The mailbox command SET_TIME (R491, R585). -/
def State.takeSetTime (o : Origin) (site : Int) (s : State) : State :=
  if !s.isGm then s.reply o 8 0
  else
    let old := s.site
    let s := (s.setSite site).onTime (fun x => { x with commanded := true })
    (s.timeStep old site 1).reply o 0 0

/-- The mailbox command WRITE (R735): the three fields that a write changes. Log entry 209. -/
def State.takeWrite (o : Origin) (addr width value : Nat) (s : State) : State :=
  let clr (s : State) : State :=
    { s with disp := { s.disp with tasks := s.disp.tasks.map (fun (r : TaskRun) => { r with respMax := 0 }) } }
  if addr = 0x10004 ∧ width = 4 then (if bit value 0 then clr s else s).reply o 0 0
  else if addr = 0x32004 ∧ width = 4 then
    let s := if bit value 0 then s.nevtAck else s
    (if bit value 1 then s.beginFlush else s).reply o 0 0
  else if addr = 0x32050 ∧ width = 8 then (s.setReadFrom (value % 2 ^ 64)).reply o 0 0
  else s.reply o 5 0

/-! ### The mailbox (R736 to R738) -/

/-- A reply: kept among the last 32 of its source, and sent. -/
def State.mbAnswer (src id cmd status epoch detail : Nat) (s : State) : State :=
  let k : KeptReply := { src := src, id := id, cmd := cmd, status := status, epoch := epoch, detail := detail }
  let mine := (s.win.kept.filter (fun x => x.src == src)).take 31
  let s := s.onWin (fun w => { w with kept := k :: w.kept.filter (fun x => x.src != src || mine.contains x) })
  s.sendTo src (.mailboxReply id cmd status epoch detail)

/-- The reply kept for an identifier, if there is one. Log entry 208. -/
def State.keptFor (s : State) (src id : Nat) : Option KeptReply := s.win.kept.find? (fun k => k.src == src && k.id == id)

def State.replyAgain (k : KeptReply) (s : State) : State := s.sendTo k.src (.mailboxReply k.id k.cmd k.status k.epoch k.detail)

/-- A command arrives at the mailbox; `pair` says that it was addressed to the pair (R684). Log entry 154. -/
def State.mbArrive (src : Nat) (pair : Bool) (id eff : Nat) (c : MbCmd) (s : State) : State :=
  match s.keptFor src id with
  | some k => s.replyAgain k
  | none =>
    if (s.win.cmds ++ s.win.taken).any (fun h => h.src == src && h.id == id) then s
    else
      let code := mbCode c
      let bad : Bool := match c with | .bad _ => true | _ => false
      let member : Option Nat := match c with | .mode m => if s.inPair then some m else none | _ => none
      let refuse (s : State) : State := match member with | some m => s.modeRefused m 5 0xFF | none => s
      if bad then s.mbAnswer src id code 2 0 0
      else if src = 65536 ∧ s.flag SERVICE.flags 0 then s.mbAnswer src id code 5 0 0
      else if eff ≠ 0 ∧ s.passed eff then (refuse s).mbAnswer src id code 6 0 0
      else if member.isSome ∧ (!pair ∨ eff = 0) then (refuse s).mbAnswer src id code 1 0 5
      else if 16 ≤ s.win.cmds.length then s.mbAnswer src id code 4 0 0
      else s.onWin (fun w => { w with cmds := w.cmds ++ [{ src := src, id := id, pair := pair, eff := eff, cmd := c }] })

/-- A command is taken: its answer is awaited. -/
def State.noteTaken (src id : Nat) (c : MbCmd) (s : State) : State :=
  s.onWin (fun w => { w with taken := w.taken ++ [{ src := src, id := id, cmd := c, taken := s.stage.epoch }] })

/-- A command goes to its owning block. Log entries 175, 209. -/
def State.mbGive (o : Origin) (c : MbCmd) (s : State) : State :=
  match c with
  | .axis a m => if 12 ≤ a then s.reply o 1 2 else s.offerAxis a o m
  | .path g m => if 4 ≤ g then s.reply o 1 2 else s.offerPath g o m
  | .mode m => if s.mode.mode = 0 then s.reply o 3 0 else s.onMode (fun x => { x with commands := x.commands ++ [{ target := m, origin := o }] })
  | .clearFault => s.takeClearFault o
  | .learn k x st => s.takeLearn o k x st
  | .brakeTest a => s.takeBrakeTest o a
  | .switch => s.takeSwitch o
  | .holdTest => s.takeHoldTest o
  | .selfTest => let (v, s) := s.free; s.takeSelfTest o (v.toNat % 2 == 1)
  | .flush => s.beginFlush.reply o 0 0
  | .setTime v => s.takeSetTime o v
  | .write a n v => s.takeWrite o a n v
  | .bad _ => s.reply o 2 0

def HeldCmd.origin (h : HeldCmd) : Origin := { src := 2, pair := h.pair, mbSrc := h.src, mbId := some h.id }

/-- At a boundary the mailbox takes its commands, while the lanes run (R736, R738). Log entry 208. -/
def State.mbBoundary (s : State) : State :=
  if s.mode.lanesOff then s
  else
    let due (h : HeldCmd) : Bool := h.eff == 0 || s.passed h.eff
    let l := s.win.cmds
    (l.filter due).foldl (fun s h => (s.noteTaken h.src h.id h.cmd).mbGive h.origin h.cmd)
      (s.onWin (fun w => { w with cmds := l.filter (fun h => !due h) }))

/-- The answers given in the Stage that ends are sent (R737). A command answered MB_FORMAT was not taken. Log entries 208, 215. -/
def State.mbDeliver (s : State) : State :=
  s.replies.foldl (fun s r =>
    match s.win.taken.find? (fun h => h.src == r.src && h.id == r.id) with
    | none => s
    | some h =>
      (s.onWin (fun w => { w with taken := w.taken.filter (fun x => !(x.src == r.src && x.id == r.id)) })).mbAnswer r.src r.id
        (mbCode h.cmd) r.code (if r.code = 2 then 0 else h.taken) r.detail) { s with replies := [] }

/-- A row of the mailbox: a new command is taken, a repeated one answered again. Log entry 210. -/
def State.mbRow (t src id : Nat) (c : MbCmd) (give : Origin → State → State) (s : State) : Answer :=
  let s := s.tick t
  match s.keptFor src id with
  | some k => .next (s.replyAgain k)
  | none => .next (give { src := 2, mbSrc := src, mbId := some id } (s.noteTaken src id c))

/-- LEARN (R337). Log entry 210. -/
def execLearn (t src id kind target step : Nat) (s : State) : Answer :=
  s.mbRow t src id (.learn kind target step) (fun o s => s.takeLearn o kind target step)

/-- BRAKE_TEST (R418). -/
def execBrakeTest (t src id axis : Nat) (s : State) : Answer := s.mbRow t src id (.brakeTest axis) (fun o s => s.takeBrakeTest o axis)

/-- CLEAR_FAULT (R171, R423, R508). -/
def execClearFault (t src id : Nat) (s : State) : Answer := s.mbRow t src id .clearFault State.takeClearFault

/-- SWITCH (R532). -/
def execSwitch (t src id : Nat) (s : State) : Answer := s.mbRow t src id .switch State.takeSwitch

/-- HOLD_TEST (R612). -/
def execHoldTest (t src id : Nat) (s : State) : Answer := s.mbRow t src id .holdTest State.takeHoldTest

/-- SELF_TEST (R624): `pass` says whether the known-answer tests pass. Log entry 175. -/
def execSelfTest (t src id : Nat) (pass : Bool) (s : State) : Answer :=
  s.mbRow t src id .selfTest (fun o s => s.takeSelfTest o pass)

/-- FLUSH (R591). -/
def execFlush (t src id : Nat) (s : State) : Answer := s.mbRow t src id .flush (fun o s => s.beginFlush.reply o 0 0)

/-- SET_TIME (R491). -/
def execSetTime (t src id : Nat) (site : Int) (s : State) : Answer :=
  s.mbRow t src id (.setTime site) (fun o s => s.takeSetTime o site)

/-- WRITE (R735). Log entry 210. -/
def execWrite (t src id addr width value : Nat) (s : State) : Answer :=
  s.mbRow t src id (.write addr width value) (fun o s => s.takeWrite o addr width value)

/-- MODE_COMMAND (R684): the mailbox holds it until the boundary of EFF. The row is addressed to the unit. Log entry 154. -/
def execModeCommand (t src id target eff : Nat) (s : State) : Answer :=
  .next ((s.tick t).mbArrive src false id eff (.mode target))

/-! ### The service port (R739 to R742) -/

/-- A body given to the port in a write transaction. -/
def State.svcTake (m : Msg) (s : State) : State :=
  match m with
  | .windowRead r => s.takeRead 65536 r
  | .mailboxCmd id eff c => s.mbArrive 65536 false id eff c
  | .chunk ty c => match chunkIx ty with | some ix => s.takeChunk ix 65536 c | none => s
  | .attestRequest nonce flags => s.takeAttest 65536 false nonce flags
  | _ => s

/-- What the port takes as it stands (R742). Log entries 188, 212. -/
def State.svcAdmits (s : State) (op : Nat) (m : Msg) : Bool :=
  if !s.owned then (match m with | .chunk 0x7A c => c.part == 5 | _ => false)
  else if s.flag SERVICE.flags 0 then [0x70, 0x72, 0x7C].contains op
  else [0x70, 0x72, 0x78, 0x7A, 0x7B, 0x7C].contains op

/-- The CRC of a transaction (R740). -/
def svcCrc (op : Nat) (b : List Octet) : Nat := crc32c ([op] ++ be 2 b.length ++ b) 0xFFFFFFFF

/-- SERVICE_WRITE_TRANSACTION (R740, R742). Log entry 212. -/
def execServiceWriteTransaction (t op len crc : Nat) (m : Msg) (s : State) : Answer :=
  let s := s.tick t
  let b := msgBytes m
  if !s.svcOpen then .next s
  else if s.svcFull then .next (s.onWin (fun w => { w with svcRefused := inc32 w.svcRefused }))
  else if len ≠ b.length ∨ msgType m ≠ op ∨ crc ≠ svcCrc op b then .next (s.onWin (fun w => { w with svcErrors := inc32 w.svcErrors }))
  else if s.svcAdmits op m then .next (s.svcTake m)
  else .next s

/-- What the port gives in a read transaction (R741). -/
def State.svcAnswer (s : State) : List Octet :=
  match s.win.svcQueue with
  | [] => [0]
  | m :: _ =>
    let b := msgBytes m
    let op := msgType m % 256
    [1 + 2 * b2n s.svcFull, op] ++ be 2 b.length ++ b ++ be 4 (svcCrc op b)

/-- SERVICE_READ_TRANSACTION (R741): `whole` says that the reply was clocked out to its last CRC byte. -/
def execServiceReadTransaction (t : Nat) (whole : Bool) (s : State) : Answer :=
  let s := s.tick t
  if !s.svcOpen then .next s
  else .next (s.onWin (fun w => { w with svcOut := s.svcAnswer, svcQueue := if whole then w.svcQueue.drop 1 else w.svcQueue }))

end Sys2Proof.Machine
end

