-- ==== Sys2Proof/Machine/Receive.lean ====
section
/-! DEFINITION. Frames received on a trunk port, and what the unit does with those that it consumes (R85, R475 to R483, R451,
R452, R699, and the chapters that the message catalogue names). -/

namespace Sys2Proof.Machine

/-! ### Consumption (R478) -/

/-- A frame that wakes Lodge (R699). -/
def wakesLodge (f : Frame) : Bool := f.dkind == 0 && [0x030, 0x031, 0x050, 0x072].contains f.type

/-- The tasks that a message spawns or that wait for it (R77, R84, R85). A DSP_OPEN spawns by its own rule (R444).
Log entries 135, 136. -/
def State.messageEvents (f : Frame) (s : State) : State :=
  let s := s.waitEvent 1 f.type
  if f.type = 0x051 then s
  else match s.spawnTask 1 f.type with
    | some i => s.fabArrive i (msgBytes f.msg)
    | none => s

/-- What a message does to the unit that consumes it. The messages that only report do no more than spawn and be waited for.
Log entries 127, 135. -/
def State.consume (f : Frame) (s : State) : State :=
  let pair := f.dkind == 0 && s.inPair && f.dst == s.pairId
  let s := if s.mode.mode = 7 ∧ !s.mode.waking ∧ wakesLodge f then s.onMode (fun m => { m with wakePending := some (1, 0) }) else s
  let s := s.messageEvents f
  match f.msg with
  | .timeSeal o q => s.takeSeal o q
  | .safetyPdu conn sc ts fl d x => s.takePdu f.src f.boot conn sc ts fl d x
  | .axisCmd a c => s.offerAxis a { src := 1, pair := pair } c
  | .pathCmd g c => s.offerPath g { src := 1, pair := pair } c
  | .xdStatus a st p v iq => s.takeXdStatus f.src a st f.epoch p v iq
  | .leaseRequest p u n l c x => s.takeLeaseRequest p u n l c x
  | .leaseGrant p h n r _ _ q => s.takeLeaseGrant p h n r q
  | .leaseRelease p u n => s.takeLeaseRelease p u n
  | .dspCall c => s.takeCall c
  | .dspOpen o => s.takeOpen o
  | .dspBid id m l => s.takeBids id m l
  | .dspAssign id u c _ _ => s.takeAssign id u c
  | .dspAnswer ty id u c r => s.takeAnswer ty id u c r
  | .dspCancel id q => s.takeCancel id q
  | .energyOffer sh u sl inc => s.takeEnergy sh u sl inc
  | .windowRead r => s.takeRead f.src r
  | .mailboxCmd id eff c => s.mbArrive f.src pair id eff c
  | .chunk ty c => match chunkIx ty with | some ix => s.takeChunk ix f.src c | none => s
  | .attestRequest n fl => s.takeAttest f.src (f.key == 0) n fl
  | _ => s

/-- A waystation takes the bids that come from downstream for a collector of its group (R451, R452). Log entry 137. -/
def State.intercepts (s : State) (p : Nat) (f : Frame) : Bool :=
  f.type == 0x052 && f.dkind == 0 && s.flag DISPATCH.flags 1 && p != b2n (s.flag DISPATCH.flags 2) &&
  (f.dst == s.nat DISPATCH.collector || f.dst == s.nat DISPATCH.collector_alt)

/-- Frames that the unit sent to itself among others are consumed at the next boundary. Log entry 127. -/
def State.loopBoundary (s : State) : State :=
  s.fab.looped.foldl (fun s f => s.consume f) (s.onFab (fun x => { x with looped := [] }))

/-! ### Reception (R475) -/

/-- The neighbour's frame used a credit of its class; in a class that spawns, one is outstanding no more (R85).
Log entries 130, 134. -/
def State.useCredit (p unit c : Nat) (s : State) : State :=
  let s := s.onPeer p unit (fun q => { q with use := addAt q.use c 1 })
  if s.spawning c then s.subOut 1 else s

/-- An accepted frame: consumed, relayed, its buffer freed when both are done. -/
def State.acceptFrame (p unit : Nat) (f : Frame) (s : State) : State :=
  let s := (s.noteSource p unit f).onPort p (fun x => { x with rx := inc32 x.rx })
  match f.msg with
  | .linkHello u b _ _ a => (s.messageEvents f).takeHello p u b a
  | .credit => s.messageEvents f
  | _ =>
    if s.intercepts p f then (s.consume f).giveBack p unit f.cls
    else
      let s := if s.isDest f.dkind f.dst then s.consume f else s
      s.relay p unit f

/-- CYSIN_FRAME (R475): a frame has been received whole on a port; `from_` is the neighbour that put it on the link. -/
def execCysinFrame (t port from_ : Nat) (f : Frame) (s : State) : Answer :=
  let s := s.tick t
  if 2 ≤ port ∨ !s.portOn port then .next s
  else
    let q := (s.peerOf port from_).getD { unit := from_ }
    let v := s.verdict q f
    let credited := !hopLocal f.type && q.oper && decide (f.cls < 4) && decide (q.use.getD f.cls 0 < 4)
    let count (q : Peer) : Peer := if q.oper && !hopLocal f.type then { q with rx := addAt q.rx f.cls 1 } else q
    let s := s.onPeer port from_ count
    let s := if credited then s.useCredit port from_ f.cls else s
    let free (s : State) : State := if credited then s.giveBack port from_ f.cls else s
    let counts (s : State) : State := s.takeCredit port from_ f.credit
    match v with
    | .reject 5 => .next ((free (counts s)).frameRejected port 5 f)
    | .reject k => .next ((free s).frameRejected port k f)
    | .ring => .next (free (counts s))
    | .conflict => .next ((free (counts s)).idConflict port f.boot)
    | .dup => .next ((free (counts s)).onPort port (fun x => { x with dups := inc32 x.dups }))
    | .accept => .next ((counts s).acceptFrame port from_ f)

end Sys2Proof.Machine
end

