-- ==== Sys2Proof/Machine/Stages.lean ====
section
/-! DEFINITION. The Stage: what a boundary closes and opens, the boundary notice, the cut-off, graph start and the completion
of a task (R44 to R46, R51, R57 to R71, R74, R96). -/

namespace Sys2Proof.Machine

/-! ### What the Stage that ends has committed (R96, R751) -/

/-- A task of the Stage that does the work `w` has committed. -/
def State.didCommit (s : State) (w : Serves) : Bool :=
  (List.range s.graph.tasks.length).any (fun i => s.serves i == w && (s.run i).committed)

/-- What an axis's task has not decided is offered again, with the commands of the boundary (R96, R751). -/
def State.settleAxis (a : Nat) (s : State) : State :=
  s.onBook a (fun b => { b with offered := b.offered ++ b.incoming, incoming := [], decided := false })

/-- The same of a path group. -/
def State.settleGroup (g : Nat) (s : State) : State :=
  s.onPgBook g (fun b => { b with offered := b.offered ++ b.incoming, incoming := [], decided := false })

/-- A reference latched by a homing sequence whose task has committed takes its shift (R330). -/
def State.commitHome (done : List Bool) (a : Nat) (s : State) : State := if flagAt done a then s.homeCommit a else s

/-- The Stage that ends is closed: its accounts, its commits, the answers given in it. Log entries 25, 27. -/
def State.closeStage (s : State) : State :=
  let s := if s.stage.closed then s else s.endSweep []
  let axes := (List.range 12).map (fun a => s.didCommit (.axis a))
  let s := s.unshow
  let s := eachIx 4 State.settleGroup (eachIx 12 State.settleAxis s)
  let s := s.dispBoundary
  let s := ((s.heldBoundary.stallBoundary 0).stallBoundary 1).mbDeliver
  eachIx 12 (State.commitHome axes) s

/-! ### Site alignment (R63 to R71) -/

/-- The phase error in half nanoseconds and the number of the nearest T(n); midway the earlier is the nearest (R64).
Log entry 23. -/
def State.phaseOf (s : State) : Int × Int :=
  let p : Int := 5 * s.period
  let q := 2 * s.site / p
  let r := 2 * s.site % p
  if 2 * r ≤ p then (r, q) else (r - p, q + 1)

/-- A boundary with the phase error measured. Log entry 23. -/
def State.alignAt (e m : Int) (s : State) : State :=
  let prev := s.stage.epoch
  let k := rndDiv e 5
  let ns := rndDiv e 2
  let hit := decide (k.natAbs ≤ 1)
  let epoch := if hit then max (prev + 1) m.toNat else prev + 1
  let d := if hit then (epoch - m).toNat else s.stage.offsetD
  let was := s.stage.offsetD
  let s := { s with stage := { s.stage with
    jumps := if prev + 1 < epoch then (epoch, epoch - (prev + 1)) :: s.stage.jumps else s.stage.jumps
    epoch := epoch, len := ((s.period : Int) - clamp k (-s.slew) s.slew).toNat, phaseErr := ns, offsetD := d
    aligned := s.stage.aligned || hit } }
  let s := if prev + 1 < epoch then s.raise 0x8B (le 6 prev ++ le 6 epoch ++ le 4 (sat ns 32)) else s
  let s := if was < d then s.raise 0x8E (le 6 epoch ++ le 6 m ++ le 6 d) else s
  if s.stage.aligned ∧ 2000 < e.natAbs then s.unaligned 1 ns else s

/-- The epoch and the length of the Stage that a boundary after Stage 0 opens. Log entries 23, 24. -/
def State.nextStage (s : State) : State :=
  if s.nat STAGE.align = 0 ∧ s.time.synced then (let p := s.phaseOf; s.alignAt p.1 p.2)
  else
    let lost := s.nat STAGE.align == 0 && s.stage.aligned
    let s := { s with stage := { s.stage with epoch := s.stage.epoch + 1, len := s.period } }
    if lost then s.unaligned 0 s.stage.phaseErr else s

/-- The boundary at edge-clock cycle `t`: the first opens Stage 0 (R59). Log entry 25. -/
def State.openStage (t : Nat) (s : State) : State :=
  let first := s.stage.epoch == 0xFFFFFFFFFFFF
  let s := { s with stage := { s.stage with
    openedAt := t, closed := false, boundaries := if first then 0 else s.stage.boundaries + 1 } }
  if first then { s with stage := { s.stage with epoch := 0, len := s.period } } else s.nextStage

/-! ### The snapshot (R165 to R176, R232, R306, R328) -/

/-- The axis takes pf from its channel or from its drive. Log entry 48. -/
def State.fromXd (s : State) (a : Nat) : Bool := s.kind a == 4 && (s.fbMotor a).isNone

/-- pf and vf of an axis from its channels (R232); an external drive's come at graph start (R240). Log entry 48. -/
def State.measure (a : Nat) (s : State) : State :=
  if s.fromXd a || !s.defined a then s
  else s.onBook a (fun b => { b with
    pfPrev := b.pf
    pf := match s.fbPos a with
      | some ch => if s.rotary a then (nth s.snap ch).pos % s.int AXIS.modulo a else (nth s.snap ch).pos
      | none => b.pf
    vf := match s.fbMotor a with | some ch => (nth s.snap ch).speed | none => b.vf })

/-- The position of an axis at this boundary is kept for R306. -/
def State.keepAt (a : Nat) (s : State) : State :=
  let x : AxInstant := match s.fromXd a, s.fbPos a with
    | false, some ch =>
      { bound := s.stage.openedAt, t := (nth s.snap ch).time, p := (s.bookOf a).pf, valid := (nth s.snap ch).valid }
    | _, _ => { bound := s.stage.openedAt, t := s.stage.openedAt, p := (s.bookOf a).pf }
  { s with axAt := s.axAt.modify a (fun o => (o.2.1, o.2.2, x)) }

/-- The positions of R328 for the raw transitions of the Stage that ends. -/
def State.keepDin (i : Nat) (s : State) : State :=
  let new := match s.dinAxis i with
    | some a =>
      if (s.fbPos a).isSome then
        (s.dinOf i).owed.map (fun t => (t, interpolate t s.period (nth s.axAt a).2.1 (nth s.axAt a).2.2))
      else []
    | none => []
  s.onDin i (fun d => { d with
    owed := [], kept := (d.kept ++ new).filter (fun k => k.1 == d.edgeT || k.1 == d.lastT) })

/-- The snapshot of the boundary at `t`: channels, inputs, analogue inputs, axis positions. -/
def State.latchAll (t : Nat) (conv : List (List Int)) (s : State) : State :=
  let s := eachIx 16 (State.latchFb t) s
  let s := eachIx 4 (fun i s => s.ainTake i (conv.getD i [])) s.latchDin.latchTemp
  let s := eachIx 12 State.keepAt (eachIx 12 State.measure s)
  let s := eachIx 64 State.keepDin s
  eachIx 8 State.cmpBoundary (eachIx 16 State.capBoundary (eachIx 4 State.emuBoundary s))

/-! ### The outputs of the Stage that ends (R45, R246, R266, R297, R413) -/

/-- An axis without torque is Idle and disabled (R246); a sequence that it ran fails, a group that it moved in breaks.
Log entries 69, 70, 228. -/
def State.torqueOff (a : Nat) (s : State) : State :=
  let s := s.homeFail a 4
  let s := if (s.axOf a).mode = 5 then s.pathBreak a (if (s.bookOf a).fault then 2 else 4) else s
  let s := match (s.axOf a).mode, s.couplingOf a with
    | 4, some c => s.setGc c { (s.gcOf c) with st := .off }
    | _, _ => s
  s.onAx a (fun x => { x with
    enabled := false, mode := 0, ramp := false, decel := false, disabling := false, withdrawn := false, kept := none, iq := 0
    blendLeft := 0, iBlendLeft := 0 }.genRest)

/-- The STO pair of an axis is de-energised at this boundary. -/
def State.stoDue (s : State) (a : Nat) : Bool :=
  let k := (nth s.safe.stops a).kind
  !s.stoReady a || k == .sto || (k == .ss1End && s.brakesApplied a)

/-- An axis's committed outputs take effect; a stop in effect ends with the enabled state. -/
def State.axisOut (a : Nat) (s : State) : State :=
  let s := { s with axPrevRef := s.axPrevRef.set a (nth s.axe a).pRef }
  let s := if (s.axOf a).enabled && s.stoDue a then s.torqueOff a else s
  let s := if (s.axOf a).enabled then s else s.onStop a (fun x => { x with kind := .none })
  { s with axe := s.axe.set a (s.axOf a) }

/-- A stop ordered for this boundary takes effect (R266), and a member's stop breaks its group (R297). -/
def State.takeOrder (a : Nat) (s : State) : State :=
  let b := s.bookOf a
  let s := s.onBook a (fun b => { b with ordered := none, breakCause := none, cmdBreak := none })
  let s := match b.breakCause, b.cmdBreak with
    | some c, some d => s.pathBreak a (min c d)
    | some c, none => s.pathBreak a c
    | none, some d => s.pathBreak a d
    | none, none => s
  match b.ordered with
  | none => s
  | some k =>
    if !(s.axOf a).enabled then s
    else
      let s := if b.fault || s.chattering a then s else s.homeFail a 4
      s.onAx a (Axis.startRamp k)

/-- A brake test at a boundary: it ends when its axis leaves Held, or the device mode its two (R418). Log entry 81. -/
def State.watchTest (s : State) : State :=
  match s.safe.test with
  | none => s
  | some x =>
    let y := s.axOf x.axis
    if y.enabled && y.mode == 8 && !y.ramp && !(s.bookOf x.axis).fault && (s.mode.mode == 1 || s.mode.mode == 2) then s.onTest s.testMoved
    else s.abortTest x.axis

/-- The axis's output stage works: the Current Engine's axis is active, an external drive says that it is enabled (R416).
Log entry 109. -/
def State.axisActive (s : State) (a : Nat) : Bool :=
  if s.kind a = 4 then !s.hasXd a || ((s.xdOf a).valid && bit (s.xdOf a).state 0) else (s.caxOf a).active

/-- The release requests of the brakes, and the moves that waited for them (R416, R417). Log entry 109. -/
def State.releases (s : State) : State :=
  let s := { s with safe := { s.safe with
    release := (List.range 12).map (fun a => (nth s.axe a).enabled && !(nth s.axe a).withdrawn && s.axisActive a) } }
  eachIx 12 (fun a s => if s.brakesReleased a then s.onAx a (fun x => { x with moveHold := false }) else s) s

/-- The Current Engine takes the new records (R200, R226); in a local pair the member with GRANT drives. -/
def State.currents (t : Nat) (s : State) : State :=
  eachIx 12 (fun a s =>
    let x := nth s.axe a
    s.curBoundary t a (x.enabled && s.stoOn a && (!s.localPair || (s.twin.grant && s.twin.st == 2))) x.sp) s

/-- The safety inputs of channel A, the stops that run, what they take from the axes, and the outputs of channel A.
Log entry 25. -/
def State.outputs (t : Nat) (readback : List Nat) (modeDone : Bool) (s : State) : State :=
  let s := s.monBoundary.sampleIns 0
  let s := eachIx 12 State.torqueFall (eachIx 12 State.ss1Boundary s)
  let s := (eachIx 12 State.axisOut s).modeBoundary modeDone
  let s := eachIx 12 State.gearWatch (eachIx 12 State.takeOrder s)
  let s := (s.watchTest.driveOuts false).currents t
  ((s.releases.driveOuts false).outsBoundary readback).permitEvent

/-! ### What arrives for the Stage that opens -/

/-- The window, the service port and the mailbox at a boundary (R731, R736, R741). -/
def State.winBoundary (s : State) : State :=
  (s.onWin (fun w => { w with
    svcOn := s.svcEnable, copied := 0, reads := w.reads.map (fun (r : HeldRead) => { r with due := true }) })).mbBoundary

/-- The links, the fabric and the partner at a boundary. -/
def State.linkBoundary (s : State) : State :=
  let s := s.conBoundary.fabAgain.giveKept.pairStage
  let s := eachIx 12 State.xdConfirm (eachIx 12 State.xdSend s)
  s.loopBoundary.twinBoundary.eventsOut

/-- STAGE_BOUNDARY (R45, R57): the stage timer reaches the end of the Stage period, one Stage closes and the next opens. Over a
Steward link that has failed no notice follows, and the published values are latched here.
Log entry 25. -/
def execStageBoundary (io : BoundaryInputs) (s : State) : Answer :=
  if !s.stage.running then .next s
  else
    let t := s.stage.openedAt + s.stage.len
    let s := s.tick t
    let modeDone := s.didCommit .mode
    let inter := s.didCommit .interlock
    let s := if s.stage.epoch = 0xFFFFFFFFFFFF then s else s.closeStage
    let s := (((s.openStage t).applyA inter).latchAll t io.ain).outputs t io.readback modeDone
    let s := s.surveyAborts.surveyAppend.winBoundary.linkBoundary
    .next (if (nth s.links 0).failed then s.publish else s)

/-! ### The boundary notice (R51) -/

/-- The notice of the present Stage is due: one for each boundary, within 1 µs of it, over a Steward link that has not failed
(R27, R51). -/
def State.noticeDue (s : State) : Bool :=
  s.stage.running && s.stage.epoch != 0xFFFFFFFFFFFF && s.stage.noticed != some s.stage.boundaries &&
  decide (s.now ≤ s.stage.openedAt + 400) && !(nth s.links 0).failed

/-- BOUNDARY_NOTICE (R51): the Steward latches its quantities; the results of channel B take effect.
Log entries 142, 155, 205. -/
def execBoundaryNotice (io : NoticeInputs) (s : State) : Answer :=
  let s := s.tick io.t
  if !s.noticeDue then .next s
  else
    let s := { s with stage := { s.stage with noticed := some s.stage.boundaries } }.noticeB
    let s := eachIx 23 (fun o s => if o = 22 ∨ s.nat SAFE_OUT.role o ≠ 0 then s.edmBoundary o else s) s
    let s := (eachIx 16 State.conProduce s).ledBoundary
    .next ((s.testNotice.purseBoundary io).chargerNow.publish).offerStewardKept

/-! ### Within a Stage -/

/-- The commit cut-off of the present Stage (R44). Log entry 26. -/
def State.cutoff (s : State) : Nat := s.stage.openedAt + s.stage.len - 64

/-- COMMIT_CUTOFF (R44, R46): the output shadow closes; every task still in service is stopped. `executed` are the cycles
executed of those in service. -/
def execCommitCutoff (t : Nat) (executed : List (Work × Nat)) (s : State) : Answer :=
  let s := s.tick t
  if !s.stage.running || s.stage.closed || s.stage.epoch == 0xFFFFFFFFFFFF || decide (t < s.cutoff) then .next s
  else .next (s.endSweep executed)

/-- GRAPH_START (R61, R74). -/
def execGraphStart (t : Nat) (s : State) : Answer :=
  let s := s.tick t
  if !s.stage.running || s.stage.closed || s.disp.started || s.mode.lanesOff || s.stage.epoch == 0xFFFFFFFFFFFF then .next s
  else .next ((eachIx 12 State.xdStage s).graphStart t)

/-- What a kernel computes, done at its completion. Log entries 10, 27. -/
def State.kernelWork (w : Work) (s : State) : State :=
  let s := s.unshow.repeatHeld (s.taskIx w)
  match s.serves (s.taskIx w) with
  | .mode => s.modeKernel
  | .interlock => s.evalChannel false
  | .axis a => s.axisKernel a
  | .group g => s.groupKernel g
  | .car c => s.carKernel c
  | .door d => s.doorKernel d
  | .dispatch => s.dispatchKernel
  | .bidCost => match w with
    | .inst sl => match s.inst sl with | some e => s.formBids (ofLe (e.arg.take 4).reverse) | none => s
    | .task _ => s
  | .survey => s.surveyKernel
  | .other => s

/-- TASK_COMPLETION (R95 to R98): the kernel on a lane signals completion after `cyc` cycles. Its writes take effect unless its
activation was cancelled; beyond its budget it has been stopped. Log entry 26. -/
def execTaskCompletion (t lane cyc : Nat) (s : State) : Answer :=
  let s := (s.tick t).comeTo
  match s.laneOf lane with
  | none => .next s.select
  | some w =>
    let budget := (s.taskRec (s.taskIx w)).budget
    if s.laneDead lane || s.stage.closed || decide (s.cutoff < s.now) then .next s.select
    else
      let s := s.setLane lane none
      if budget < cyc then .next (s.overrun w 0 budget).select
      else if s.cancelledBefore w then .next ((s.respEv w s.now).endedCancelled w).select
      else .next ((s.kernelWork w).committed w s.now).select

end Sys2Proof.Machine
end

