-- ==== Sys2Proof/Machine/Dispatch.lean ====
section
/-! DEFINITION. One arm per command: a direct call of its meaning. -/

namespace Sys2Proof.Machine

def exec (i : Instr) (s : State) : Host.Outcome State Fault Refusal :=
  match i with
  | .stageBoundary io => Sys2Proof.Machine.execStageBoundary io s
  | .boundaryNotice io => Sys2Proof.Machine.execBoundaryNotice io s
  | .commitCutoff t executed => Sys2Proof.Machine.execCommitCutoff t executed s
  | .graphStart t => Sys2Proof.Machine.execGraphStart t s
  | .taskCompletion t lane cyc => Sys2Proof.Machine.execTaskCompletion t lane cyc s
  | .budgetExhausted t lane => Sys2Proof.Machine.execBudgetExhausted t lane s
  | .cancelRequest t w => Sys2Proof.Machine.execCancelRequest t w s
  | .waitEvent t wkind wix => Sys2Proof.Machine.execWaitEvent t wkind wix s
  | .waitDeadline t task => Sys2Proof.Machine.execWaitDeadline t task s
  | .kernelSpawnRequest t task arg => Sys2Proof.Machine.execKernelSpawnRequest t task arg s
  | .stewardSpawnMessage t src arg => Sys2Proof.Machine.execStewardSpawnMessage t src arg s
  | .clrResp t value => Sys2Proof.Machine.execClrResp t value s
  | .heartbeatFlit t link => Sys2Proof.Machine.execHeartbeatFlit t link s
  | .flitCheckFail t link resentOk => Sys2Proof.Machine.execFlitCheckFail t link resentOk s
  | .dieLinkFault t link cause detector => Sys2Proof.Machine.execDieLinkFault t link cause detector s
  | .edgeClockCheck t khz => Sys2Proof.Machine.execEdgeClockCheck t khz s
  | .pllLossOfLock t => Sys2Proof.Machine.execPllLossOfLock t s
  | .rtcCheck t mhz => Sys2Proof.Machine.execRtcCheck t mhz s
  | .lockstepMismatch t lane => Sys2Proof.Machine.execLockstepMismatch t lane s
  | .memoryEcc t addr double => Sys2Proof.Machine.execMemoryEcc t addr double s
  | .quadTransition t ch a b z => Sys2Proof.Machine.execQuadTransition t ch a b z s
  | .quadConfirm t ch line => Sys2Proof.Machine.execQuadConfirm t ch line s
  | .indexInstant t ch => Sys2Proof.Machine.execIndexInstant t ch s
  | .sincosSample t ch sin cos => Sys2Proof.Machine.execSincosSample t ch sin cos s
  | .ssiFrameStart t ch => Sys2Proof.Machine.execSsiFrameStart t ch s
  | .ssiWord t ch word lowFirst allHigh => Sys2Proof.Machine.execSsiWord t ch word lowFirst allHigh s
  | .ssiDelayMeasure t ch delays => Sys2Proof.Machine.execSsiDelayMeasure t ch delays s
  | .dinRawTransition t din level => Sys2Proof.Machine.execDinRawTransition t din level s
  | .dinFilterStable t din => Sys2Proof.Machine.execDinFilterStable t din s
  | .dinFirstLevel t din => Sys2Proof.Machine.execDinFirstLevel t din s
  | .chatterEnd t din => Sys2Proof.Machine.execChatterEnd t din s
  | .emuStep t emu => Sys2Proof.Machine.execEmuStep t emu s
  | .modulatorBit ticks ch bit => Sys2Proof.Machine.execModulatorBit ticks ch bit s
  | .accurateEstimate ticks ch => Sys2Proof.Machine.execAccurateEstimate ticks ch s
  | .angleTick t => Sys2Proof.Machine.execAngleTick t s
  | .edgeFire ticks axis eng => Sys2Proof.Machine.execEdgeFire ticks axis eng s
  | .gateOn ticks axis hb => Sys2Proof.Machine.execGateOn ticks axis hb s
  | .modulatorTimeout ticks ch => Sys2Proof.Machine.execModulatorTimeout ticks ch s
  | .gateReadbackMismatch t axis hb high => Sys2Proof.Machine.execGateReadbackMismatch t axis hb high s
  | .driverFaultInput t axis low => Sys2Proof.Machine.execDriverFaultInput t axis low s
  | .offsetAcquired t => Sys2Proof.Machine.execOffsetAcquired t s
  | .enable axis src tag => Sys2Proof.Machine.execEnable axis src tag s
  | .disable axis src tag => Sys2Proof.Machine.execDisable axis src tag s
  | .mode axis src code tag => Sys2Proof.Machine.execMode axis src code tag s
  | .moveAbs axis src prof flags target vcap tag => Sys2Proof.Machine.execMoveAbs axis src prof flags target vcap tag s
  | .moveRel axis src prof dist vcap tag => Sys2Proof.Machine.execMoveRel axis src prof dist vcap tag s
  | .velocity axis src prof v vcap tag => Sys2Proof.Machine.execVelocity axis src prof v vcap tag s
  | .stop axis src tag => Sys2Proof.Machine.execStop axis src tag s
  | .resume axis src tag => Sys2Proof.Machine.execResume axis src tag s
  | .quickStop axis src tag => Sys2Proof.Machine.execQuickStop axis src tag s
  | .torque axis src current tag => Sys2Proof.Machine.execTorque axis src current tag s
  | .hold axis src tag => Sys2Proof.Machine.execHold axis src tag s
  | .release axis src tag => Sys2Proof.Machine.execRelease axis src tag s
  | .dwellEnd t axis => Sys2Proof.Machine.execDwellEnd t axis s
  | .start group src tag => Sys2Proof.Machine.execStart group src tag s
  | .line group src seg => Sys2Proof.Machine.execLine group src seg s
  | .arc group src seg => Sys2Proof.Machine.execArc group src seg s
  | .pathStop group src tag => Sys2Proof.Machine.execPathStop group src tag s
  | .pathResume group src tag => Sys2Proof.Machine.execPathResume group src tag s
  | .clear group src tag => Sys2Proof.Machine.execClear group src tag s
  | .captureTransition t cap level => Sys2Proof.Machine.execCaptureTransition t cap level s
  | .captureAccept t cap => Sys2Proof.Machine.execCaptureAccept t cap s
  | .compareFire t out => Sys2Proof.Machine.execCompareFire t out s
  | .comparePulseEnd t out => Sys2Proof.Machine.execComparePulseEnd t out s
  | .homingAuto t axis => Sys2Proof.Machine.execHomingAuto t axis s
  | .hardstopFound t axis => Sys2Proof.Machine.execHardstopFound t axis s
  | .learn t src id kind target step => Sys2Proof.Machine.execLearn t src id kind target step s
  | .alignSettle t axis => Sys2Proof.Machine.execAlignSettle t axis s
  | .levelSettle t axis => Sys2Proof.Machine.execLevelSettle t axis s
  | .surveyCommit t axis => Sys2Proof.Machine.execSurveyCommit t axis s
  | .doorZoneDiscrepancy t car => Sys2Proof.Machine.execDoorZoneDiscrepancy t car s
  | .relevel t car => Sys2Proof.Machine.execRelevel t car s
  | .doorHoldEnd t door => Sys2Proof.Machine.execDoorHoldEnd t door s
  | .nudgeTimer t door => Sys2Proof.Machine.execNudgeTimer t door s
  | .safetyInputChange t die pair ballB level => Sys2Proof.Machine.execSafetyInputChange t die pair ballB level s
  | .ss1End t axis => Sys2Proof.Machine.execSs1End t axis s
  | .brakeTest t src id axis => Sys2Proof.Machine.execBrakeTest t src id axis s
  | .brakeTestStepEnd t => Sys2Proof.Machine.execBrakeTestStepEnd t s
  | .testPulse t out offA offB => Sys2Proof.Machine.execTestPulse t out offA offB s
  | .edmTimeout t out => Sys2Proof.Machine.execEdmTimeout t out s
  | .clearFault t src id => Sys2Proof.Machine.execClearFault t src id s
  | .dspCall t call => Sys2Proof.Machine.execDspCall t call s
  | .dspOpen t o => Sys2Proof.Machine.execDspOpen t o s
  | .bidSend t callId => Sys2Proof.Machine.execBidSend t callId s
  | .dspBid t callId merged bids => Sys2Proof.Machine.execDspBid t callId merged bids s
  | .waystationForward t callId => Sys2Proof.Machine.execWaystationForward t callId s
  | .bidRoundClose t callId => Sys2Proof.Machine.execBidRoundClose t callId s
  | .dspAssign t callId unit car attempt cost => Sys2Proof.Machine.execDspAssign t callId unit car attempt cost s
  | .dspAccept t callId unit car => Sys2Proof.Machine.execDspAccept t callId unit car s
  | .dspDecline t callId unit car reason => Sys2Proof.Machine.execDspDecline t callId unit car reason s
  | .acceptTimeout t callId => Sys2Proof.Machine.execAcceptTimeout t callId s
  | .callReopen t callId => Sys2Proof.Machine.execCallReopen t callId s
  | .collectorSwitch t req => Sys2Proof.Machine.execCollectorSwitch t req s
  | .dspDone t callId unit car => Sys2Proof.Machine.execDspDone t callId unit car s
  | .dspRelease t callId unit car reason => Sys2Proof.Machine.execDspRelease t callId unit car reason s
  | .dspCancel t callId requester => Sys2Proof.Machine.execDspCancel t callId requester s
  | .portLinkChange t port up => Sys2Proof.Machine.execPortLinkChange t port up s
  | .linkHello t port unit boot keyCur keyOther a => Sys2Proof.Machine.execLinkHello t port unit boot keyCur keyOther a s
  | .helloSend t port => Sys2Proof.Machine.execHelloSend t port s
  | .neighbourTimeout t port unit => Sys2Proof.Machine.execNeighbourTimeout t port unit s
  | .credit t port unit counts => Sys2Proof.Machine.execCredit t port unit counts s
  | .creditSend t port unit => Sys2Proof.Machine.execCreditSend t port unit s
  | .frameTransmit t port => Sys2Proof.Machine.execFrameTransmit t port s
  | .sync t port seqId origin corr stamp => Sys2Proof.Machine.execSync t port seqId origin corr stamp s
  | .syncSend t => Sys2Proof.Machine.execSyncSend t s
  | .syncTimeout t => Sys2Proof.Machine.execSyncTimeout t s
  | .timeSeal t origin seqId => Sys2Proof.Machine.execTimeSeal t origin seqId s
  | .timeSealSend t => Sys2Proof.Machine.execTimeSealSend t s
  | .safetyPdu t src boot conn scount ts flags data crc => Sys2Proof.Machine.execSafetyPdu t src boot conn scount ts flags data crc s
  | .safetyWatchdog t con => Sys2Proof.Machine.execSafetyWatchdog t con s
  | .xdStatus t src axis state epoch p v iq => Sys2Proof.Machine.execXdStatus t src axis state epoch p v iq s
  | .xdConfirmTimeout t axis => Sys2Proof.Machine.execXdConfirmTimeout t axis s
  | .unitStatus t => Sys2Proof.Machine.execUnitStatus t s
  | .energyOffer t share unit slice0 inc => Sys2Proof.Machine.execEnergyOffer t share unit slice0 inc s
  | .twinPacket t p => Sys2Proof.Machine.execTwinPacket t p s
  | .twinHeartbeat t => Sys2Proof.Machine.execTwinHeartbeat t s
  | .twinLink t up => Sys2Proof.Machine.execTwinLink t up s
  | .rebase t => Sys2Proof.Machine.execRebase t s
  | .compareResume t => Sys2Proof.Machine.execCompareResume t s
  | .roleRequest t => Sys2Proof.Machine.execRoleRequest t s
  | .leaseRequest t pair unit leaseNo lease cause successor => Sys2Proof.Machine.execLeaseRequest t pair unit leaseNo lease cause successor s
  | .leaseGrant t pair holder leaseNo result left successor requester => Sys2Proof.Machine.execLeaseGrant t pair holder leaseNo result left successor requester s
  | .leaseRelease t pair unit leaseNo => Sys2Proof.Machine.execLeaseRelease t pair unit leaseNo s
  | .leaseRenew t => Sys2Proof.Machine.execLeaseRenew t s
  | .leaseExpiry t => Sys2Proof.Machine.execLeaseExpiry t s
  | .handoff t => Sys2Proof.Machine.execHandoff t s
  | .grantCheck t => Sys2Proof.Machine.execGrantCheck t s
  | .switch t src id => Sys2Proof.Machine.execSwitch t src id s
  | .pdClass t port cls powered => Sys2Proof.Machine.execPdClass t port cls powered s
  | .classFallback t port => Sys2Proof.Machine.execClassFallback t port s
  | .powerLoss t => Sys2Proof.Machine.execPowerLoss t s
  | .powerReturn t => Sys2Proof.Machine.execPowerReturn t s
  | .holdFloor t hold => Sys2Proof.Machine.execHoldFloor t hold s
  | .grantExceeded t => Sys2Proof.Machine.execGrantExceeded t s
  | .sensorSupply t mw5 mw12 => Sys2Proof.Machine.execSensorSupply t mw5 mw12 s
  | .railLow t rail => Sys2Proof.Machine.execRailLow t rail s
  | .busEnergy t bus => Sys2Proof.Machine.execBusEnergy t bus s
  | .pairedDeparture t car => Sys2Proof.Machine.execPairedDeparture t car s
  | .sprintClockRise t => Sys2Proof.Machine.execSprintClockRise t s
  | .sprintRequestLapse t => Sys2Proof.Machine.execSprintRequestLapse t s
  | .thermalSample t temps => Sys2Proof.Machine.execThermalSample t temps s
  | .thermalCool t => Sys2Proof.Machine.execThermalCool t s
  | .sensorDisagreement t die => Sys2Proof.Machine.execSensorDisagreement t die s
  | .ledgerOccurrence t code sev payload => Sys2Proof.Machine.execLedgerOccurrence t code sev payload s
  | .ledgerMaxAge t => Sys2Proof.Machine.execLedgerMaxAge t s
  | .pageProgrammed t failed => Sys2Proof.Machine.execPageProgrammed t failed s
  | .nevtAck t value => Sys2Proof.Machine.execNevtAck t value s
  | .flushBit t value => Sys2Proof.Machine.execFlushBit t value s
  | .nevtPulseEnd t => Sys2Proof.Machine.execNevtPulseEnd t s
  | .readFrom t seq => Sys2Proof.Machine.execReadFrom t seq s
  | .apertureFill t => Sys2Proof.Machine.execApertureFill t s
  | .rtcTick t => Sys2Proof.Machine.execRtcTick t s
  | .lifeClockPersist t => Sys2Proof.Machine.execLifeClockPersist t s
  | .ageingMeasurement t counts => Sys2Proof.Machine.execAgeingMeasurement t counts s
  | .coreSupplyLow t die => Sys2Proof.Machine.execCoreSupplyLow t die s
  | .holdTest t src id => Sys2Proof.Machine.execHoldTest t src id s
  | .holdTestDue t => Sys2Proof.Machine.execHoldTestDue t s
  | .holdTestStart t => Sys2Proof.Machine.execHoldTestStart t s
  | .holdTestEnd t esr dt => Sys2Proof.Machine.execHoldTestEnd t esr dt s
  | .selfTest t src id pass => Sys2Proof.Machine.execSelfTest t src id pass s
  | .periodicSelfTest t pass => Sys2Proof.Machine.execPeriodicSelfTest t pass s
  | .objectChunk t src type c => Sys2Proof.Machine.execObjectChunk t src type c s
  | .updateBlock t src c => Sys2Proof.Machine.execUpdateBlock t src c s
  | .partEraseDone t => Sys2Proof.Machine.execPartEraseDone t s
  | .partVerified t c => Sys2Proof.Machine.execPartVerified t c s
  | .amendment t => Sys2Proof.Machine.execAmendment t s
  | .amendmentCommit t => Sys2Proof.Machine.execAmendmentCommit t s
  | .keyDelivery t => Sys2Proof.Machine.execKeyDelivery t s
  | .keyActivation t => Sys2Proof.Machine.execKeyActivation t s
  | .ownerKeyFuse t => Sys2Proof.Machine.execOwnerKeyFuse t s
  | .unsignedOwnerKey t => Sys2Proof.Machine.execUnsignedOwnerKey t s
  | .ownerKeyRevoke t => Sys2Proof.Machine.execOwnerKeyRevoke t s
  | .zeroise t => Sys2Proof.Machine.execZeroise t s
  | .activate t => Sys2Proof.Machine.execActivate t s
  | .commit t => Sys2Proof.Machine.execCommit t s
  | .journalCompactionDone t => Sys2Proof.Machine.execJournalCompactionDone t s
  | .attestRequest t src keyless nonce flags => Sys2Proof.Machine.execAttestRequest t src keyless nonce flags s
  | .attestSigned t pass => Sys2Proof.Machine.execAttestSigned t pass s
  | .supplyUp t => Sys2Proof.Machine.execSupplyUp t s
  | .nresetAssert t => Sys2Proof.Machine.execNresetAssert t s
  | .nresetRelease t => Sys2Proof.Machine.execNresetRelease t s
  | .waking t failed nor => Sys2Proof.Machine.execWaking t failed nor s
  | .containerChecked t part c => Sys2Proof.Machine.execContainerChecked t part c s
  | .containerLoaded t fw wb => Sys2Proof.Machine.execContainerLoaded t fw wb s
  | .sectionCheck t => Sys2Proof.Machine.execSectionCheck t s
  | .journalReplay t => Sys2Proof.Machine.execJournalReplay t s
  | .releaseOutputs t => Sys2Proof.Machine.execReleaseOutputs t s
  | .wakingTimeout t => Sys2Proof.Machine.execWakingTimeout t s
  | .modeCommand t src id target eff => Sys2Proof.Machine.execModeCommand t src id target eff s
  | .rescue t car => Sys2Proof.Machine.execRescue t car s
  | .rescueHoldEnd t car => Sys2Proof.Machine.execRescueHoldEnd t car s
  | .lodgeIdle t => Sys2Proof.Machine.execLodgeIdle t s
  | .lodgeEntry t => Sys2Proof.Machine.execLodgeEntry t s
  | .lodgeWake t source input => Sys2Proof.Machine.execLodgeWake t source input s
  | .lodgeSupplyRestored t => Sys2Proof.Machine.execLodgeSupplyRestored t s
  | .windowRead t src r => Sys2Proof.Machine.execWindowRead t src r s
  | .windowReadServe t => Sys2Proof.Machine.execWindowReadServe t s
  | .flush t src id => Sys2Proof.Machine.execFlush t src id s
  | .setTime t src id site => Sys2Proof.Machine.execSetTime t src id site s
  | .write t src id addr width value => Sys2Proof.Machine.execWrite t src id addr width value s
  | .serviceReadTransaction t whole => Sys2Proof.Machine.execServiceReadTransaction t whole s
  | .cysinFrame t port from_ f => Sys2Proof.Machine.execCysinFrame t port from_ f s
  | .announce t port a => Sys2Proof.Machine.execAnnounce t port a s
  | .serviceWriteTransaction t op len crc m => Sys2Proof.Machine.execServiceWriteTransaction t op len crc m s

end Sys2Proof.Machine
end

