-- ==== Sys2Proof/Safety.lean ====
section
/-! DEFINITION. What counts as a safe state and a safe run of the block, and when a controller is free to take a command, in the
terms the claims use. -/

namespace Sys2Proof.Machine

/-- Not both gates of a half-bridge are on (R217). -/
def HalfBr.exclusive (b : HalfBr) : Bool := !(b.gateH && b.gateL)

/-- No half-bridge of any axis conducts through both its gates. -/
def State.gatesExclusive (s : State) : Bool := s.cax.all (fun x => x.brs.all HalfBr.exclusive)

/-- The invariant that every command keeps: no half-bridge conducts through both gates, the waybill store is in its canonical
form. -/
def State.Inv (s : State) : Prop := s.gatesExclusive = true ∧ cellsWf s.cfg

/-- A state whose next `k` steps all answer a next state. -/
def State.runs (s : State) : Nat → Bool
  | 0 => true
  | k + 1 => match step s with
    | .next t => t.runs k
    | _ => false

/-- A command from this source is the first of the Stage for the axis, and its controller decides it in this Stage (R252, R751):
the motion die runs, the axis's task has not done its work, the lanes run, no other command is offered or shown, and the command
is not one too many for the partner (R512). -/
def State.takesNow (s : State) (a src : Nat) : Bool :=
  decide (a < 12) && decide (a < s.ax.length) && decide (a < s.book.length) && s.defined a && !s.clk.motionHeld &&
  !(s.bookOf a).decided && !s.mode.lanesOff && (s.bookOf a).offered.isEmpty && !s.pre.shown && !s.forwardFull { src := src }

/-- The axis is defined, not only measured, and not faulted (R234, R252). -/
def State.usable (s : State) (a : Nat) : Bool := s.defined a && !s.measuring a && !(s.bookOf a).fault

/-- No stop is latched, no homing sequence and no quick-stop ramp runs, the axis is not being disabled (R248, R252). -/
def State.atEase (s : State) (a : Nat) : Bool :=
  s.usable a && !(s.bookOf a).stopLatch && !s.homing a && !(s.axOf a).ramp && !(s.axOf a).disabling

/-- The same of a path group (R296, R751). -/
def State.groupTakes (s : State) (g src : Nat) : Bool :=
  decide (g < 4) && decide (g < s.pg.length) && decide (g < s.pgBook.length) && !s.clk.motionHeld && !(nth s.pgBook g).decided &&
  !s.mode.lanesOff && (nth s.pgBook g).offered.isEmpty && !s.pre.shown && !s.forwardFull { src := src } && s.members g != []

/-! ### What a command may change -/

/-- A field of State, the clock apart. -/
inductive Fld where
  | pending | freeIx | cfg | graph | kernels | links | clk | stage | disp | trims | scTrims | ain | t16 | fb | snap | snapPrev
  | din | dinSnap | dinPrev | emu | ch | cax | acq | ax | axe | axPrevRef | book | axAt | pg | pgBook | gc | cap | cmp | home 
  | pre | replies | survey | cars | doors | dsp | safe | time | fab | cons | xd | twin | purse | led | mode | stw | wake | win 
  | pins | pub
  deriving DecidableEq, Repr

/-- Every field but those named. -/
def allBut (l : List Fld) : List Fld :=
  (([.pending, .freeIx, .cfg, .graph, .kernels, .links, .clk, .stage, .disp, .trims, .scTrims, .ain, .t16, .fb] : List Fld) ++
   ([.snap, .snapPrev, .din, .dinSnap, .dinPrev, .emu, .ch, .cax, .acq, .ax, .axe, .axPrevRef, .book, .axAt] : List Fld) ++
   ([.pg, .pgBook, .gc, .cap, .cmp, .home, .pre, .replies, .survey, .cars, .doors, .dsp, .safe, .time] : List Fld) ++
   ([.fab, .cons, .xd, .twin, .purse, .led, .mode, .stw, .wake, .win, .pins, .pub] : List Fld)).filter
    (fun x => !l.contains x)

/-- Two states agree on a field. -/
def Same (s t : State) : Fld → Prop
  | .pending => t.pending = s.pending
  | .freeIx => t.freeIx = s.freeIx
  | .cfg => t.cfg = s.cfg
  | .graph => t.graph = s.graph
  | .kernels => t.kernels = s.kernels
  | .links => t.links = s.links
  | .clk => t.clk = s.clk
  | .stage => t.stage = s.stage
  | .disp => t.disp = s.disp
  | .trims => t.trims = s.trims
  | .scTrims => t.scTrims = s.scTrims
  | .ain => t.ain = s.ain
  | .t16 => t.t16 = s.t16
  | .fb => t.fb = s.fb
  | .snap => t.snap = s.snap
  | .snapPrev => t.snapPrev = s.snapPrev
  | .din => t.din = s.din
  | .dinSnap => t.dinSnap = s.dinSnap
  | .dinPrev => t.dinPrev = s.dinPrev
  | .emu => t.emu = s.emu
  | .ch => t.ch = s.ch
  | .cax => t.cax = s.cax
  | .acq => t.acq = s.acq
  | .ax => t.ax = s.ax
  | .axe => t.axe = s.axe
  | .axPrevRef => t.axPrevRef = s.axPrevRef
  | .book => t.book = s.book
  | .axAt => t.axAt = s.axAt
  | .pg => t.pg = s.pg
  | .pgBook => t.pgBook = s.pgBook
  | .gc => t.gc = s.gc
  | .cap => t.cap = s.cap
  | .cmp => t.cmp = s.cmp
  | .home => t.home = s.home
  | .pre => t.pre = s.pre
  | .replies => t.replies = s.replies
  | .survey => t.survey = s.survey
  | .cars => t.cars = s.cars
  | .doors => t.doors = s.doors
  | .dsp => t.dsp = s.dsp
  | .safe => t.safe = s.safe
  | .time => t.time = s.time
  | .fab => t.fab = s.fab
  | .cons => t.cons = s.cons
  | .xd => t.xd = s.xd
  | .twin => t.twin = s.twin
  | .purse => t.purse = s.purse
  | .led => t.led = s.led
  | .mode => t.mode = s.mode
  | .stw => t.stw = s.stw
  | .wake => t.wake = s.wake
  | .win => t.win = s.win
  | .pins => t.pins = s.pins
  | .pub => t.pub = s.pub

/-- The fields that a command may change beside the clock: the state that its rules name, with what they raise (the Ledger), order
(stops, faults) and answer. -/
def writes : Instr → List Fld
  | .stageBoundary .. => allBut [.pending, .cfg, .graph, .kernels, .links, .clk, .trims, .scTrims, .acq, .wake, .pins]
  | .boundaryNotice .. =>
    [.freeIx, .clk, .stage, .disp, .cax, .ax, .book, .pg, .gc, .home, .pre, .safe, .fab, .cons, .twin, .purse, .led, .mode, .stw, .pins, .pub]
  | .commitCutoff .. => [.stage, .disp, .led]
  | .graphStart .. => [.disp, .book, .axAt, .safe, .xd, .led]
  | .taskCompletion .. =>
    [.disp, .cax, .ax, .book, .pg, .pgBook, .gc, .home, .pre, .replies, .survey, .cars, .doors, .dsp, .safe, .fab, .twin, .purse, .led, .mode, .stw]
  | .budgetExhausted .. | .cancelRequest .. | .waitEvent .. | .waitDeadline .. => [.disp, .led]
  | .kernelSpawnRequest .. | .stewardSpawnMessage .. | .clrResp .. => [.disp]
  | .heartbeatFlit .. | .flitCheckFail .. => [.links]
  | .dieLinkFault .. => [.links, .disp, .cax, .book, .safe, .fab, .twin, .purse, .led, .mode]
  | .edgeClockCheck .. | .pllLossOfLock .. => [.clk, .stage, .disp, .cax, .safe, .twin, .led, .mode]
  | .rtcCheck .. => [.clk, .led]
  | .lockstepMismatch .. | .memoryEcc .. => [.clk, .cax, .safe, .led, .mode]
  | .quadTransition .. | .quadConfirm .. | .indexInstant .. => [.fb, .book, .safe, .led]
  | .sincosSample .. => [.freeIx, .fb, .book, .survey, .safe, .led, .stw]
  | .ssiFrameStart .. => [.fb]
  | .ssiWord .. => [.fb, .book, .safe, .led]
  | .ssiDelayMeasure .. => [.fb, .book, .safe, .led, .wake]
  | .dinRawTransition .. => [.din, .book, .led]
  | .dinFilterStable .. | .dinFirstLevel .. | .chatterEnd .. => [.din]
  | .emuStep .. => [.emu]
  | .modulatorBit .. => [.freeIx, .ch, .cax, .book, .safe, .led]
  | .accurateEstimate .. | .angleTick .. => [.ch, .cax, .book, .safe, .led]
  | .edgeFire .. | .gateOn .. => [.cax]
  | .modulatorTimeout .. => [.ch, .cax, .book, .safe, .led]
  | .gateReadbackMismatch .. | .driverFaultInput .. => [.cax, .book, .safe, .led]
  | .offsetAcquired .. => [.ch, .acq]
  | .enable .. | .disable .. | .mode .. | .moveAbs .. | .moveRel .. | .velocity .. | .stop .. | .resume .. | .quickStop ..
    | .torque .. | .hold .. | .release .. => [.ax, .book, .pg, .gc, .home, .pre, .replies, .survey, .cars, .safe, .twin, .led]
  | .dwellEnd .. => [.ax, .gc, .pre]
  | .start .. | .line .. | .arc .. | .pathStop .. | .pathResume .. | .clear .. =>
    [.ax, .book, .pg, .pgBook, .gc, .home, .pre, .replies, .twin, .led]
  | .captureTransition .. => [.cap]
  | .captureAccept .. => [.disp, .cap, .led]
  | .compareFire .. => [.cmp, .led]
  | .comparePulseEnd .. => [.cmp]
  | .homingAuto .. =>
    [.fb, .snap, .snapPrev, .din, .emu, .ax, .axe, .axPrevRef, .book, .axAt, .pg, .gc, .cmp, .home, .pre, .cars, .safe, .twin, .led]
  | .hardstopFound .. => [.ax, .home, .pre]
  | .learn .. => [.replies, .survey, .fab, .led, .win]
  | .alignSettle .. | .levelSettle .. => [.survey, .led, .stw]
  | .surveyCommit .. => [.cfg, .survey]
  | .doorZoneDiscrepancy .. => [.cars, .led]
  | .relevel .. => [.book, .cars, .led]
  | .doorHoldEnd .. | .nudgeTimer .. => [.doors]
  | .safetyInputChange .. => [.safe]
  | .ss1End .. => [.safe, .led, .mode]
  | .brakeTest .. => [.replies, .safe, .fab, .led, .win]
  | .brakeTestStepEnd .. | .testPulse .. | .edmTimeout .. => [.safe, .led, .mode]
  | .clearFault .. =>
    [.disp, .fb, .emu, .ch, .cax, .ax, .book, .pre, .replies, .cars, .doors, .safe, .fab, .xd, .twin, .led, .mode, .win]
  | .dspCall .. => [.doors, .dsp, .fab]
  | .dspOpen .. => [.disp, .dsp]
  | .bidSend .. => [.dsp, .fab]
  | .dspBid .. => [.dsp, .fab, .led]
  | .waystationForward .. => [.dsp, .fab]
  | .bidRoundClose .. => [.dsp, .fab, .led]
  | .dspAssign .. => [.dsp, .fab]
  | .dspAccept .. | .dspDecline .. | .acceptTimeout .. | .callReopen .. | .collectorSwitch .. | .dspDone .. | .dspRelease .. =>
    [.dsp, .fab, .led]
  | .dspCancel .. => [.dsp, .fab]
  | .portLinkChange .. | .linkHello .. | .helloSend .. | .neighbourTimeout .. => [.disp, .fab, .led]
  | .credit .. | .creditSend .. => [.fab]
  | .frameTransmit .. => [.disp, .fab]
  | .sync .. => [.freeIx, .stage, .time, .fab, .led]
  | .syncSend .. => [.time]
  | .syncTimeout .. | .timeSeal .. => [.stage, .time, .led]
  | .timeSealSend .. => [.fab]
  | .safetyPdu .. | .safetyWatchdog .. => [.cons, .led]
  | .xdStatus .. => [.xd]
  | .xdConfirmTimeout .. => [.xd, .led, .mode]
  | .unitStatus .. => [.fab, .twin]
  | .energyOffer .. => [.purse]
  | .twinPacket .. => [.twin, .led]
  | .twinHeartbeat .. => [.fab, .twin, .led]
  | .twinLink .. => [.twin, .led]
  | .rebase .. =>
    [.fb, .snap, .snapPrev, .din, .emu, .ax, .axe, .axPrevRef, .book, .axAt, .pg, .gc, .cmp, .home, .pre, .cars, .doors, .dsp, .safe, .twin, .led]
  | .compareResume .. => [.twin]
  | .roleRequest .. => [.fab, .twin]
  | .leaseRequest .. => [.fab, .twin, .led]
  | .leaseGrant .. => [.ax, .book, .home, .pre, .safe, .fab, .twin, .led, .mode]
  | .leaseRelease .. => [.twin]
  | .leaseRenew .. => [.fab, .twin]
  | .leaseExpiry .. => [.book, .safe, .fab, .twin, .led, .mode]
  | .handoff .. =>
    [.fb, .snap, .snapPrev, .din, .emu, .ch, .cax, .ax, .axe, .axPrevRef, .book, .axAt, .pg, .gc, .cmp, .home, .pre, .cars, .doors, .dsp, .safe, .fab, .twin, .led, .mode]
  | .grantCheck .. => [.led, .mode]
  | .switch .. => [.replies, .fab, .twin, .led, .win]
  | .pdClass .. => [.purse, .led]
  | .classFallback .. => [.purse]
  | .powerLoss .. => [.safe, .purse, .led, .mode]
  | .powerReturn .. => [.purse, .led]
  | .holdFloor .. => allBut [.pending, .freeIx, .trims, .scTrims]
  | .grantExceeded .. | .sensorSupply .. | .railLow .. => [.purse, .led]
  | .busEnergy .. => [.book, .safe, .purse, .led]
  | .pairedDeparture .. => [.book, .cars, .fab, .purse, .led]
  | .sprintClockRise .. => [.clk]
  | .sprintRequestLapse .. => [.purse]
  | .thermalSample .. => [.freeIx, .purse, .led]
  | .thermalCool .. | .sensorDisagreement .. => [.purse, .led]
  | .ledgerOccurrence .. | .ledgerMaxAge .. => [.led]
  | .pageProgrammed .. => allBut [.pending, .freeIx, .trims, .scTrims]
  | .nevtAck .. | .flushBit .. | .nevtPulseEnd .. | .readFrom .. | .apertureFill .. | .rtcTick .. | .lifeClockPersist .. =>
    [.led]
  | .ageingMeasurement .. => [.freeIx, .purse, .led, .mode, .stw]
  | .coreSupplyLow .. => [.clk, .stage, .disp, .cax, .safe, .twin, .led, .mode]
  | .holdTest .. => [.replies, .fab, .led, .stw, .win]
  | .holdTestDue .. => [.stw]
  | .holdTestStart .. => [.stw, .pins]
  | .holdTestEnd .. => [.purse, .led, .stw, .pins]
  | .selfTest .. => [.replies, .fab, .led, .mode, .stw, .win]
  | .periodicSelfTest .. => [.led, .mode, .stw]
  | .objectChunk .. | .updateBlock .. => [.freeIx, .fab, .led, .stw, .win]
  | .partEraseDone .. => [.stw]
  | .partVerified .. | .amendment .. => [.freeIx, .fab, .led, .stw, .win]
  | .amendmentCommit .. => [.freeIx, .cfg, .cmp, .survey, .fab, .led, .stw, .wake, .win]
  | .keyDelivery .. => [.freeIx, .fab, .led, .stw, .win]
  | .keyActivation .. => [.fab, .led, .stw]
  | .ownerKeyFuse .. => [.freeIx, .fab, .led, .stw, .win]
  | .unsignedOwnerKey .. => allBut [.pending, .trims, .scTrims]
  | .ownerKeyRevoke .. | .zeroise .. => [.freeIx, .fab, .led, .stw, .win]
  | .activate .. => allBut [.pending, .trims, .scTrims]
  | .commit .. => [.freeIx, .fab, .led, .stw, .win]
  | .journalCompactionDone .. => [.led, .stw]
  | .attestRequest .. => [.freeIx, .fab, .led, .stw, .win]
  | .attestSigned .. => [.freeIx, .fab, .led, .mode, .stw, .win]
  | .supplyUp .. | .nresetAssert .. => allBut [.pending, .freeIx, .trims, .scTrims]
  | .nresetRelease .. => [.time, .wake]
  | .waking .. => allBut [.pending, .trims, .scTrims]
  | .containerChecked .. | .containerLoaded .. | .sectionCheck .. =>
    [.freeIx, .cfg, .graph, .kernels, .fab, .led, .mode, .stw, .wake]
  | .journalReplay .. => [.freeIx, .cfg, .stage, .disp, .emu, .acq, .survey, .fab, .twin, .led, .stw, .wake, .pins]
  | .releaseOutputs .. => [.cax, .book, .cars, .doors, .safe, .fab, .purse, .led, .mode, .stw, .wake]
  | .wakingTimeout .. => [.book, .cars, .doors, .safe, .fab, .purse, .led, .mode, .stw, .wake]
  | .modeCommand .. => [.fab, .led, .mode, .win]
  | .rescue .. => [.cars, .led, .mode]
  | .rescueHoldEnd .. => [.doors]
  | .lodgeIdle .. => [.mode]
  | .lodgeEntry .. => [.disp, .cax, .book, .cars, .doors, .safe, .fab, .twin, .purse, .led, .mode, .stw, .pins]
  | .lodgeWake .. => [.ax, .home, .pre, .safe, .led, .mode]
  | .lodgeSupplyRestored .. => [.ch, .acq, .mode, .wake, .pins]
  | .windowRead .. => [.freeIx, .fab, .win]
  | .windowReadServe .. => [.freeIx, .ax, .book, .pg, .gc, .home, .pre, .fab, .led, .win, .pub]
  | .flush .. => [.replies, .fab, .led, .win]
  | .setTime .. => [.replies, .time, .fab, .led, .win]
  | .write .. => [.disp, .replies, .fab, .led, .win]
  | .serviceReadTransaction .. => [.win]
  | .cysinFrame .. =>
    [.freeIx, .stage, .disp, .ax, .book, .pg, .pgBook, .gc, .home, .pre, .replies, .survey, .cars, .doors, .dsp, .safe, .time, .fab, .cons, .xd, .twin, .purse, .led, .mode, .stw, .win]
  | .announce .. => [.stage, .time, .led]
  | .serviceWriteTransaction .. => [.freeIx, .fab, .led, .mode, .stw, .win]

end Sys2Proof.Machine
end

