-- ==== Sys2Proof/WellFormed.lean ====
section
/-! DEFINITION. Well-formed commands: every operand that numbers a unit of the part names one that exists. What the
operands of a frame, an object or a mailbox command hold is checked where the command is taken. -/

namespace Sys2Proof

/-- What an operand numbers. -/
inductive Operand where
  /-- L0 and L1 -/
  | lane
  /-- die-to-die links (R25) -/
  | link
  /-- AX0 to AX11 -/
  | axis
  /-- feedback channels -/
  | channel
  /-- current channels -/
  | current
  /-- lines A, B, Z -/
  | line
  /-- discrete inputs -/
  | din
  /-- encoder emulators -/
  | emu
  /-- hysteresis engines of an axis -/
  | engine
  /-- half-bridges of an axis -/
  | halfBridge
  /-- path groups -/
  | group
  /-- capture inputs -/
  | capture
  /-- compare outputs -/
  | compare
  /-- cars -/
  | car
  /-- doors -/
  | door
  /-- safety input pairs -/
  | safeIn
  /-- safe output pairs, MPA and MPB as 22 -/
  | safeOut
  /-- the motion die and the Steward -/
  | die
  /-- dies with temperature sensors -/
  | sensorDie
  /-- trunk ports and PD inputs -/
  | port
  /-- safety connections -/
  | connection
  /-- DC buses -/
  | bus
  /-- sensor rails -/
  | rail
  /-- kernel, fabric, mailbox (R252) -/
  | source
  /-- what wakes Lodge (R699) -/
  | wakeSource
  /-- event codes -/
  | event
  /-- severities -/
  | severity
  deriving DecidableEq, Repr

/-- How many there are. -/
def Operand.bound : Operand → Nat
  | .lane => 2
  | .link => 3
  | .axis => 12
  | .channel => 16
  | .current => 36
  | .line => 3
  | .din => 64
  | .emu => 4
  | .engine => 2
  | .halfBridge => 4
  | .group => 4
  | .capture => 16
  | .compare => 8
  | .car => 4
  | .door => 8
  | .safeIn => 24
  | .safeOut => 23
  | .die => 2
  | .sensorDie => 3
  | .port => 2
  | .connection => 16
  | .bus => 4
  | .rail => 2
  | .source => 3
  | .wakeSource => 5
  | .event => 256
  | .severity => 5

/-- The numbered operands of a command. -/
def Instr.operands : Instr → List (Operand × Nat)
  | .stageBoundary _ => []
  | .boundaryNotice _ => []
  | .commitCutoff _ _ => []
  | .graphStart _ => []
  | .taskCompletion _ lane _ => [(.lane, lane)]
  | .budgetExhausted _ lane => [(.lane, lane)]
  | .cancelRequest _ _ => []
  | .waitEvent _ _ _ => []
  | .waitDeadline _ _ => []
  | .kernelSpawnRequest _ _ _ => []
  | .stewardSpawnMessage _ _ _ => []
  | .clrResp _ _ => []
  | .heartbeatFlit _ link => [(.link, link)]
  | .flitCheckFail _ link _ => [(.link, link)]
  | .dieLinkFault _ link _ _ => [(.link, link)]
  | .edgeClockCheck _ _ => []
  | .pllLossOfLock _ => []
  | .rtcCheck _ _ => []
  | .lockstepMismatch _ lane => [(.lane, lane)]
  | .memoryEcc _ _ _ => []
  | .quadTransition _ ch _ _ _ => [(.channel, ch)]
  | .quadConfirm _ ch ln => [(.channel, ch), (.line, ln)]
  | .indexInstant _ ch => [(.channel, ch)]
  | .sincosSample _ ch _ _ => [(.channel, ch)]
  | .ssiFrameStart _ ch => [(.channel, ch)]
  | .ssiWord _ ch _ _ _ => [(.channel, ch)]
  | .ssiDelayMeasure _ ch _ => [(.channel, ch)]
  | .dinRawTransition _ din _ => [(.din, din)]
  | .dinFilterStable _ din => [(.din, din)]
  | .dinFirstLevel _ din => [(.din, din)]
  | .chatterEnd _ din => [(.din, din)]
  | .emuStep _ emu => [(.emu, emu)]
  | .modulatorBit _ ch _ => [(.current, ch)]
  | .accurateEstimate _ ch => [(.current, ch)]
  | .angleTick _ => []
  | .edgeFire _ axis eng => [(.axis, axis), (.engine, eng)]
  | .gateOn _ axis hb => [(.axis, axis), (.halfBridge, hb)]
  | .modulatorTimeout _ ch => [(.current, ch)]
  | .gateReadbackMismatch _ axis hb _ => [(.axis, axis), (.halfBridge, hb)]
  | .driverFaultInput _ axis _ => [(.axis, axis)]
  | .offsetAcquired _ => []
  | .enable axis src _ => [(.axis, axis), (.source, src)]
  | .disable axis src _ => [(.axis, axis), (.source, src)]
  | .mode axis src _ _ => [(.axis, axis), (.source, src)]
  | .moveAbs axis src _ _ _ _ _ => [(.axis, axis), (.source, src)]
  | .moveRel axis src _ _ _ _ => [(.axis, axis), (.source, src)]
  | .velocity axis src _ _ _ _ => [(.axis, axis), (.source, src)]
  | .stop axis src _ => [(.axis, axis), (.source, src)]
  | .resume axis src _ => [(.axis, axis), (.source, src)]
  | .quickStop axis src _ => [(.axis, axis), (.source, src)]
  | .torque axis src _ _ => [(.axis, axis), (.source, src)]
  | .hold axis src _ => [(.axis, axis), (.source, src)]
  | .release axis src _ => [(.axis, axis), (.source, src)]
  | .dwellEnd _ axis => [(.axis, axis)]
  | .start group src _ => [(.group, group), (.source, src)]
  | .line group src _ => [(.group, group), (.source, src)]
  | .arc group src _ => [(.group, group), (.source, src)]
  | .pathStop group src _ => [(.group, group), (.source, src)]
  | .pathResume group src _ => [(.group, group), (.source, src)]
  | .clear group src _ => [(.group, group), (.source, src)]
  | .captureTransition _ cap _ => [(.capture, cap)]
  | .captureAccept _ cap => [(.capture, cap)]
  | .compareFire _ out => [(.compare, out)]
  | .comparePulseEnd _ out => [(.compare, out)]
  | .homingAuto _ axis => [(.axis, axis)]
  | .hardstopFound _ axis => [(.axis, axis)]
  | .learn _ _ _ _ _ _ => []
  | .alignSettle _ axis => [(.axis, axis)]
  | .levelSettle _ axis => [(.axis, axis)]
  | .surveyCommit _ axis => [(.axis, axis)]
  | .doorZoneDiscrepancy _ car => [(.car, car)]
  | .relevel _ car => [(.car, car)]
  | .doorHoldEnd _ door => [(.door, door)]
  | .nudgeTimer _ door => [(.door, door)]
  | .safetyInputChange _ die pair _ _ => [(.die, die), (.safeIn, pair)]
  | .ss1End _ axis => [(.axis, axis)]
  | .brakeTest _ _ _ _ => []
  | .brakeTestStepEnd _ => []
  | .testPulse _ out _ _ => [(.safeOut, out)]
  | .edmTimeout _ out => [(.safeOut, out)]
  | .clearFault _ _ _ => []
  | .dspCall _ _ => []
  | .dspOpen _ _ => []
  | .bidSend _ _ => []
  | .dspBid _ _ _ _ => []
  | .waystationForward _ _ => []
  | .bidRoundClose _ _ => []
  | .dspAssign _ _ _ _ _ _ => []
  | .dspAccept _ _ _ _ => []
  | .dspDecline _ _ _ _ _ => []
  | .acceptTimeout _ _ => []
  | .callReopen _ _ => []
  | .collectorSwitch _ _ => []
  | .dspDone _ _ _ _ => []
  | .dspRelease _ _ _ _ _ => []
  | .dspCancel _ _ _ => []
  | .portLinkChange _ port _ => [(.port, port)]
  | .linkHello _ port _ _ _ _ _ => [(.port, port)]
  | .helloSend _ port => [(.port, port)]
  | .neighbourTimeout _ port _ => [(.port, port)]
  | .credit _ port _ _ => [(.port, port)]
  | .creditSend _ port _ => [(.port, port)]
  | .frameTransmit _ port => [(.port, port)]
  | .sync _ port _ _ _ _ => [(.port, port)]
  | .syncSend _ => []
  | .syncTimeout _ => []
  | .timeSeal _ _ _ => []
  | .timeSealSend _ => []
  | .safetyPdu _ _ _ _ _ _ _ _ _ => []
  | .safetyWatchdog _ con => [(.connection, con)]
  | .xdStatus _ _ axis _ _ _ _ _ => [(.axis, axis)]
  | .xdConfirmTimeout _ axis => [(.axis, axis)]
  | .unitStatus _ => []
  | .energyOffer _ _ _ _ _ => []
  | .twinPacket _ _ => []
  | .twinHeartbeat _ => []
  | .twinLink _ _ => []
  | .rebase _ => []
  | .compareResume _ => []
  | .roleRequest _ => []
  | .leaseRequest _ _ _ _ _ _ _ => []
  | .leaseGrant _ _ _ _ _ _ _ _ => []
  | .leaseRelease _ _ _ _ => []
  | .leaseRenew _ => []
  | .leaseExpiry _ => []
  | .handoff _ => []
  | .grantCheck _ => []
  | .switch _ _ _ => []
  | .pdClass _ port _ _ => [(.port, port)]
  | .classFallback _ port => [(.port, port)]
  | .powerLoss _ => []
  | .powerReturn _ => []
  | .holdFloor _ _ => []
  | .grantExceeded _ => []
  | .sensorSupply _ _ _ => []
  | .railLow _ rail => [(.rail, rail)]
  | .busEnergy _ bus => [(.bus, bus)]
  | .pairedDeparture _ car => [(.car, car)]
  | .sprintClockRise _ => []
  | .sprintRequestLapse _ => []
  | .thermalSample _ _ => []
  | .thermalCool _ => []
  | .sensorDisagreement _ die => [(.sensorDie, die)]
  | .ledgerOccurrence _ code sev _ => [(.event, code), (.severity, sev)]
  | .ledgerMaxAge _ => []
  | .pageProgrammed _ _ => []
  | .nevtAck _ _ => []
  | .flushBit _ _ => []
  | .nevtPulseEnd _ => []
  | .readFrom _ _ => []
  | .apertureFill _ => []
  | .rtcTick _ => []
  | .lifeClockPersist _ => []
  | .ageingMeasurement _ _ => []
  | .coreSupplyLow _ die => [(.die, die)]
  | .holdTest _ _ _ => []
  | .holdTestDue _ => []
  | .holdTestStart _ => []
  | .holdTestEnd _ _ _ => []
  | .selfTest _ _ _ _ => []
  | .periodicSelfTest _ _ => []
  | .objectChunk _ _ _ _ => []
  | .updateBlock _ _ _ => []
  | .partEraseDone _ => []
  | .partVerified _ _ => []
  | .amendment _ => []
  | .amendmentCommit _ => []
  | .keyDelivery _ => []
  | .keyActivation _ => []
  | .ownerKeyFuse _ => []
  | .unsignedOwnerKey _ => []
  | .ownerKeyRevoke _ => []
  | .zeroise _ => []
  | .activate _ => []
  | .commit _ => []
  | .journalCompactionDone _ => []
  | .attestRequest _ _ _ _ _ => []
  | .attestSigned _ _ => []
  | .supplyUp _ => []
  | .nresetAssert _ => []
  | .nresetRelease _ => []
  | .waking _ _ _ => []
  | .containerChecked _ _ _ => []
  | .containerLoaded _ _ _ => []
  | .sectionCheck _ => []
  | .journalReplay _ => []
  | .releaseOutputs _ => []
  | .wakingTimeout _ => []
  | .modeCommand _ _ _ _ _ => []
  | .rescue _ car => [(.car, car)]
  | .rescueHoldEnd _ car => [(.car, car)]
  | .lodgeIdle _ => []
  | .lodgeEntry _ => []
  | .lodgeWake _ source _ => [(.wakeSource, source)]
  | .lodgeSupplyRestored _ => []
  | .windowRead _ _ _ => []
  | .windowReadServe _ => []
  | .flush _ _ _ => []
  | .setTime _ _ _ _ => []
  | .write _ _ _ _ _ _ => []
  | .serviceReadTransaction _ _ => []
  | .cysinFrame _ port _ _ => [(.port, port)]
  | .announce _ port _ => [(.port, port)]
  | .serviceWriteTransaction _ _ _ _ _ => []

/-- An operand within its bound. -/
def Operand.ok (o : Operand × Nat) : Bool := decide (o.2 < o.1.bound)

/-- Every numbered operand of the command names something. -/
def Instr.wf (i : Instr) : Bool := i.operands.all Operand.ok

end Sys2Proof
end

