-- ==== Sys2Proof/Certificates/Slice0/Obligations.lean ====
section
/-! DEFINITION. The statements for the provers, family by family. A command completes where the statement says so: its
conclusion is the next state that exec answers, and what that state holds. -/

open Sys2Proof Sys2Proof.Machine

/-- With a command in front, a step is that command's meaning on the state with the rest of the queue; on an empty queue the block
idles (log entry 22). -/
def Obligations.StepRunsFront : Prop :=
  ∀ s : State, (∀ c cs, s.pending = c :: cs → step s = exec c { s with pending := cs }) ∧
    (s.pending = [] → step s = .next s)

/-- Commands leave the queue first in, first out: a step takes the front and neither adds nor reorders. The edge clock never goes
back. -/
def Obligations.QueueAndClock : Prop :=
  (∀ s t : State, step s = .next t → t.pending = s.pending.tail) ∧
  (∀ s t : State, step s = .next t → s.now ≤ t.now)

/-- The machine after reset meets the invariant, has no command waiting, and before the first Stage bears the epoch of R53. -/
def Obligations.ResetState : Prop :=
  State.reset.Inv ∧ State.reset.pending = [] ∧ State.reset.stage.epoch = 0xFFFFFFFFFFFF ∧ State.reset.stage.running = false ∧
  (∀ x ∈ State.reset.cax, x.active = false ∧ ∀ b ∈ x.brs, b.gateH = false ∧ b.gateL = false) ∧
  (∀ x ∈ State.reset.ax, x.enabled = false ∧ x.mode = 0) ∧ (∀ x ∈ State.reset.safe.outs, x.a = false ∧ x.b = false)

/-- After R217: no half-bridge ever conducts through both its gates, whatever is commanded; the waybill store stays canonical. -/
def Obligations.InvariantKept : Prop :=
  ∀ s t : State, s.Inv → step s = .next t → t.Inv

/-- What a command may change: every field outside its list (writes, Safety.lean) is as it was, the queue and the fuse trims
always. -/
def Obligations.FieldsUntouched : Prop :=
  ∀ (c : Instr) (s u : State), exec c s = .next u →
    (∀ x, x ∉ writes c → Same s u x) ∧ u.pending = s.pending ∧ u.trims = s.trims ∧ u.scTrims = s.scTrims

/-- A row that names one channel, input, emulator, half-bridge, capture input, compare output, link or door leaves every other one
as it was. -/
def Obligations.OthersUntouched : Prop :=
  (∀ (c : Instr) (s u : State) (t ch : Nat), exec c s = .next u →
    ((∃ a b z, c = .quadTransition t ch a b z) ∨ (∃ l, c = .quadConfirm t ch l) ∨ c = .indexInstant t ch ∨
      (∃ x y, c = .sincosSample t ch x y) ∨ c = .ssiFrameStart t ch ∨ (∃ w l h, c = .ssiWord t ch w l h) ∨
      (∃ v, c = .ssiDelayMeasure t ch v)) → ∀ j, j ≠ ch → u.fbOf j = s.fbOf j) ∧
  (∀ (c : Instr) (s u : State) (t i : Nat), exec c s = .next u →
    ((∃ v, c = .dinRawTransition t i v) ∨ c = .dinFilterStable t i ∨ c = .dinFirstLevel t i ∨ c = .chatterEnd t i) →
    ∀ j, j ≠ i → u.dinOf j = s.dinOf j) ∧
  (∀ (s u : State) (t e : Nat), exec (.emuStep t e) s = .next u → ∀ j, j ≠ e → nth u.emu j = nth s.emu j) ∧
  (∀ (s u : State) (k c : Nat) (v : Sample), exec (.modulatorBit k c v) s = .next u ∨ exec (.accurateEstimate k c) s = .next u →
    ∀ j, j ≠ c → u.chOf j = s.chOf j) ∧
  (∀ (s u : State) (k a e : Nat), exec (.edgeFire k a e) s = .next u ∨ exec (.gateOn k a e) s = .next u →
    ∀ j, j ≠ a → u.caxOf j = s.caxOf j) ∧
  (∀ (s u : State) (t i : Nat) (v : Bool), exec (.captureTransition t i v) s = .next u ∨ exec (.captureAccept t i) s = .next u →
    ∀ j, j ≠ i → u.capOf j = s.capOf j) ∧
  (∀ (s u : State) (t o : Nat), exec (.compareFire t o) s = .next u ∨ exec (.comparePulseEnd t o) s = .next u →
    ∀ j, j ≠ o → u.cmpOf j = s.cmpOf j) ∧
  (∀ (s u : State) (t d : Nat), exec (.doorHoldEnd t d) s = .next u ∨ exec (.nudgeTimer t d) s = .next u →
    ∀ j, j ≠ d → u.door j = s.door j) ∧
  (∀ (s u : State) (t k : Nat) (ok : Bool), exec (.heartbeatFlit t k) s = .next u ∨ exec (.flitCheckFail t k ok) s = .next u →
    ∀ j, j ≠ k → nth u.links j = nth s.links j)

/-- After R596, R619: whatever is commanded, the programmed slots of the Ledger flash stay as they are, and no fuse is unblown:
the counters, the decommission fuse and the owner slots only go up. -/
def Obligations.FlashAndFusesKept : Prop :=
  ∀ (c : Instr) (s u : State), exec c s = .next u →
    (∃ l, u.led.slots = s.led.slots ++ l) ∧ s.led.ordUsed ≤ u.led.ordUsed ∧ s.stw.fwCtr ≤ u.stw.fwCtr ∧ s.stw.wbCtr ≤ u.stw.wbCtr ∧
    (s.stw.kill = true → u.stw.kill = true) ∧ s.stw.boots ≤ u.stw.boots ∧
    ∀ k, (nth s.stw.owners k).state ≤ 3 → (nth s.stw.owners k).state ≤ (nth u.stw.owners k).state

/-- After R506: outside a boundary, a member becomes ACTIVE by a grant of the lease or by the hand-off row, and in no other way.
(At a boundary a unit consumes the frames that it sent itself, and may so take its own grant as a witness.) -/
def Obligations.ActiveOnlyByLease : Prop :=
  ∀ (c : Instr) (s u : State), exec c s = .next u → s.twin.st ≠ 2 → u.twin.st = 2 →
    (∃ t, c = .handoff t) ∨ (∃ t p h n l x q, c = .leaseGrant t p h n 0 l x q) ∨
    (∃ t p k f h a n l x q, c = .cysinFrame t p k f ∧ f.msg = .leaseGrant h a n 0 l x q) ∨ (∃ io, c = .stageBoundary io)

/-- R59: the boundary of Stage 0 gives epoch 0; every later one increases the epoch by one, or by more under site alignment; and
no step of any kind decreases it while the Stages of one Waking run. -/
def Obligations.EpochsOfStages : Prop :=
  (∀ (s : State) (io : BoundaryInputs), s.stage.running = true →
    ∃ t, exec (.stageBoundary io) s = .next t ∧
      (s.stage.epoch = 0xFFFFFFFFFFFF → t.stage.epoch = 0) ∧
      (s.stage.epoch ≠ 0xFFFFFFFFFFFF → t.stage.epoch = s.stage.epoch + 1 ∨
        (s.nat STAGE.align = 0 ∧ s.stage.epoch + 1 < t.stage.epoch))) ∧
  (∀ s t : State, s.stage.running = true → s.stage.epoch < 0xFFFFFFFFFFFF → step s = .next t → t.stage.running = true →
    s.stage.epoch ≤ t.stage.epoch)

/-- After R57, R59, R65: a boundary opens the next Stage where the last one ended. The first opens Stage 0 of N cycles; every
later one has a greater epoch and a length within S of N. After R51: within 1 µs of a boundary its one notice latches what the
Steward measures, the results of channel B take effect, and what is published bears the epoch of the Stage. -/
def Obligations.BoundaryOpensStage : Prop :=
  (∀ (s : State) (io : BoundaryInputs), s.stage.running = true →
     ∃ t, exec (.stageBoundary io) s = .next t ∧ t.stage.running = true ∧ t.stage.closed = false ∧
       t.stage.openedAt = s.stage.openedAt + s.stage.len ∧ s.period - s.slew ≤ t.stage.len ∧ t.stage.len ≤ s.period + s.slew ∧
       (s.stage.epoch = 0xFFFFFFFFFFFF → t.stage.epoch = 0 ∧ t.stage.len = s.period) ∧
       (s.stage.epoch ≠ 0xFFFFFFFFFFFF → s.stage.epoch < t.stage.epoch ∧ t.stage.boundaries = s.stage.boundaries + 1)) ∧
  (∀ (s : State) (io : NoticeInputs), s.stage.running = true → s.stage.epoch ≠ 0xFFFFFFFFFFFF → (nth s.links 0).failed = false →
     s.stage.noticed ≠ some s.stage.boundaries → max s.now io.t ≤ s.stage.openedAt + 400 →
     ∃ u, exec (.boundaryNotice io) s = .next u ∧ u.purse.hold = io.hold ∧ u.purse.draw = io.draw ∧
       u.safe.b.effect = s.safe.b.result ∧ u.stage = { s.stage with noticed := some s.stage.boundaries } ∧
       u.pub.map (·.stage.epoch) = some s.stage.epoch)

/-- R71: a free-running unit measures no phase error, never slews and never renumbers: every Stage lasts N cycles. -/
def Obligations.FreeRunningStages : Prop :=
  ∀ (s : State) (io : BoundaryInputs), s.stage.running = true → s.nat STAGE.align = 1 →
    ∃ t, exec (.stageBoundary io) s = .next t ∧ t.stage.len = s.period ∧ t.stage.phaseErr = s.stage.phaseErr ∧
      t.stage.epoch = (if s.stage.epoch = 0xFFFFFFFFFFFF then 0 else s.stage.epoch + 1)

/-- After R44, R46, R61, R74: graph start starts the dispatcher, the cut-off closes the Stage and takes every task out of service.
-/
def Obligations.GraphStartAndCutoff : Prop :=
  (∀ (s : State) (t : Nat), s.stage.running = true → s.stage.closed = false → s.disp.started = false → s.mode.lanesOff = false →
    s.stage.epoch ≠ 0xFFFFFFFFFFFF →
    ∃ u, exec (.graphStart t) s = .next u ∧ u.disp.started = true ∧ u.disp.graphStartAt = t ∧
      u.disp.tasks.length = s.graph.tasks.length) ∧
  (∀ (s : State) (t : Nat) (ex : List (Work × Nat)), s.stage.running = true → s.stage.closed = false →
    s.stage.epoch ≠ 0xFFFFFFFFFFFF → s.stage.openedAt + s.stage.len - 64 ≤ t →
    ∃ u, exec (.commitCutoff t ex) s = .next u ∧ u.stage.closed = true ∧ u.disp.lanes = [none, none] ∧ u.disp.started = false)

/-- After R88, R95 to R97: in the cycle that the dispatcher has come to, a kernel that signals completion within its budget,
before the cut-off, with no cancellation of its activation, has its writes marked committable; one whose budget counter reaches
zero is stopped, overrun and not committed. After R98: what a cancellation request does to a task: ready and not dispatched, it is
annulled; in service, it runs on with its commit suppressed; completed, nothing, and the answer is DONE. -/
def Obligations.ActivationsEnd : Prop :=
  ((∀ (s c : State) (t lane cyc i : Nat), c = (s.tick t).comeTo → c.laneOf lane = some (.task i) → i < c.disp.tasks.length →
     c.laneDead lane = false → c.stage.closed = false → c.now ≤ c.cutoff → cyc ≤ (c.taskRec i).budget → (c.run i).cancel = false →
     ∃ u, exec (.taskCompletion t lane cyc) s = .next u ∧ (u.run i).committed = true) ∧
   (∀ (s c : State) (t lane i : Nat), c = (s.tick t).comeTo → c.laneOf lane = some (.task i) → i < c.disp.tasks.length →
     c.laneDead lane = false → c.budgetOf (.task i) ≤ c.sinceRun (.task i) c.now →
     ∃ u, exec (.budgetExhausted t lane) s = .next u ∧ (u.run i).overran = true ∧ (u.run i).committed = (c.run i).committed ∧
       (u.run i).overruns = inc32 (c.run i).overruns)) ∧
  (∀ (s c : State) (t i : Nat), c = (s.tick t).comeTo → i < c.disp.tasks.length →
     ((c.run i).status.inService = false → ∀ l, c.laneOf l ≠ some (.task i)) →
     ∃ u, exec (.cancelRequest t (.task i)) s = .next u ∧
       ((c.run i).status = .ready → (u.run i).status = .annulled ∧ (u.run i).annulled = inc32 (c.run i).annulled) ∧
       ((c.run i).status.inService = true → (u.run i).cancel = true) ∧
       ((c.run i).status = .completed → u.run i = c.run i ∧ u.disp.answer = some .done))

/-- After R77, R78, R79: an event latches the condition of every wait on its source, unless the task is annulled for it; the
DEADLINE cycle satisfies a wait of WKIND 4, and passes any other with ONTO 0. After R86: a kernel request or a Steward message
that spawns is accepted while the free entries exceed the credits outstanding, and otherwise held; the kernel is answered so. -/
def Obligations.WaitsAndSpawns : Prop :=
  ((∀ (s c : State) (t k x i : Nat), c = (s.tick t).comeTo → i < c.graph.tasks.length → i < c.disp.tasks.length →
     (c.taskRec i).waitEn = true → (c.waitOf i).wkind = k → (c.waitOf i).wix = x → k ≠ 4 → (∀ l, c.laneOf l ≠ some (.task i)) →
     ∃ u, exec (.waitEvent t k x) s = .next u ∧ ((u.run i).latch = true ∨ (u.run i).status = .annulled)) ∧
   (∀ (s c : State) (t i : Nat), c = (s.tick t).comeTo → i < c.disp.tasks.length → (c.taskRec i).waitEn = true →
     (c.run i).status = .waiting → (c.run i).latch = false → (c.run i).deadlinePassed = false → (c.run i).marked = false →
     c.stage.openedAt + (c.waitOf i).deadline ≤ c.now →
     ∃ u, exec (.waitDeadline t i) s = .next u ∧
       ((c.waitOf i).wkind = 4 → (u.run i).latch = true) ∧
       ((c.waitOf i).wkind ≠ 4 → (c.waitOf i).onto = false → (u.run i).deadlinePassed = true))) ∧
  ((∀ (s : State) (t b i : Nat) (arg : List Octet), (s.taskRec i).kind = 1 → (s.taskRec i).srcKind = 2 →
     ∃ u, exec (.kernelSpawnRequest t { asker := b, template := i } arg) s = .next u ∧
       (s.disp.creditsOut < s.freeEntries → u.disp.queue.length = s.disp.queue.length + 1 ∧ u.disp.answer = some .accepted) ∧
       (s.freeEntries ≤ s.disp.creditsOut → u.disp.queue = s.disp.queue ∧ u.disp.answer = some .held)) ∧
   (∀ (s : State) (t src i : Nat) (arg : List Octet), s.spawnTask 3 src = some i →
     ∃ u, exec (.stewardSpawnMessage t src arg) s = .next u ∧
       (s.disp.creditsOut < s.freeEntries → u.disp.queue.length = s.disp.queue.length + 1) ∧
       (s.freeEntries ≤ s.disp.creditsOut → u.disp.queue = s.disp.queue ∧
         u.disp.stewardHeld = s.disp.stewardHeld ++ [(src, arg)])))

/-- After R25, R26, R27, R36, R37, R47, R48: the supervision of links, clocks, lanes and memory takes effect. -/
def Obligations.Supervision : Prop :=
  (∀ (s : State) (t k : Nat), k < s.links.length → (nth s.links k).failed = false →
    ∃ u, exec (.heartbeatFlit t k) s = .next u ∧ (nth u.links k).lastFlit = max s.now t) ∧
  (∀ (s : State) (t k : Nat), k < s.links.length → (nth s.links k).failed = false →
    ∃ u, exec (.flitCheckFail t k true) s = .next u ∧ (nth u.links k).retry = inc32 (nth s.links k).retry) ∧
  (∀ (s : State) (t k d : Nat), k < 3 → k < s.links.length → (nth s.links k).failed = false →
    (nth s.links k).lastFlit + 1600 ≤ t →
    ∃ u, exec (.dieLinkFault t k 0 d) s = .next u ∧ (nth u.links k).failed = true) ∧
  (∀ (s : State) (t khz : Nat), s.clk.edgeFault = false → s.clk.motionHeld = false → (khz < 388000 ∨ 412000 < khz) →
    ∃ u, exec (.edgeClockCheck t khz) s = .next u ∧ u.clk.edgeFault = true ∧ u.clk.motionHeld = true ∧ u.mode.mode = 6) ∧
  (∀ (s : State) (t : Nat), s.clk.edgeFault = false →
    ∃ u, exec (.pllLossOfLock t) s = .next u ∧ u.clk.edgeFault = true ∧ u.clk.motionHeld = true ∧ u.mode.mode = 6) ∧
  (∀ (s : State) (t mhz : Nat), s.clk.rtcFault = false → (mhz < 31129600 ∨ 34406400 < mhz) →
    ∃ u, exec (.rtcCheck t mhz) s = .next u ∧ u.clk.rtcFault = true) ∧
  (∀ (s : State) (t l : Nat), l < 2 → s.clk.laneStopped.length = 2 → s.clk.laneStopped.getD l false = false →
    ∃ u, exec (.lockstepMismatch t l) s = .next u ∧ u.clk.laneStopped.getD l false = true ∧ bit u.mode.haltNew 2 = true) ∧
  (∀ (s : State) (t a : Nat),
    (∃ u, exec (.memoryEcc t a true) s = .next u ∧ u.clk.eccDouble = inc32 s.clk.eccDouble ∧ bit u.mode.haltNew 2 = true) ∧
    (∃ u, exec (.memoryEcc t a false) s = .next u ∧ u.clk.eccCorrected = inc32 s.clk.eccCorrected))

/-- R143, R162: a change of one of A and B counts by the sequence 00, 10, 11, 01; an SSI delay above 1,000 ns, or a measurement
frame without a fall of the data line, is feedback fault cause 6 with EV_SSI_DELAY. -/
def Obligations.QuadratureAndSsiDelay : Prop :=
  (∀ (s : State) (t ch : Nat) (a b z : Bool), ch < 16 → ch < s.fb.length → s.fbOff = false → s.clk.motionHeld = false →
    (s.nat FB.kind ch = 1 ∨ s.nat FB.kind ch = 2) →
    ∃ u, exec (.quadTransition t ch a b z) s = .next u ∧
      (((s.fbOf ch).a, (s.fbOf ch).b, a, b) ∈ [(false, false, true, false), (true, false, true, true), (true, true, false, true),
        (false, true, false, false)] → (u.fbOf ch).reg = (s.fbOf ch).reg + 1) ∧
      (((s.fbOf ch).a, (s.fbOf ch).b, a, b) ∈ [(true, false, false, false), (true, true, true, false), (false, true, true, true),
        (false, false, false, true)] → (u.fbOf ch).reg = (s.fbOf ch).reg - 1)) ∧
  (∀ (s : State) (t ch : Nat) (v : List (Option Nat)), s.clk.motionHeld = false → ch < s.fb.length → s.nat FB.kind ch = 3 →
    v.length = 16 →
    (s.fbOf ch).fault = false →
    (none ∈ v ∨ 400 < ((sortNat (v.filterMap id)).getD 7 0 + (sortNat (v.filterMap id)).getD 8 0 + 1) / 2) →
    ∃ u, exec (.ssiDelayMeasure t ch v) s = .next u ∧ (u.fbOf ch).fault = true ∧ (u.fbOf ch).cause = 6 ∧
      countOf u.led.raised 0x07 = inc32 (countOf s.led.raised 0x07))

/-- After R143, R144: a transition of A or B moves the count register by one, by the counting sequence 00, 10, 11, 01; a change of
both is a skip that moves nothing. The levels are held, and the other channels are as before. After R140, R144: a transition of A
or B that has stood for FB.min_edge cycles counts in the direction FB.dir gives, modulo CPR; a Z transition becomes the index
edge. After R151, R152: at an index instant the reference and the position at it are held; the first one sets REF. -/
def Obligations.FeedbackChannels : Prop :=
  (∀ (s : State) (t ch : Nat) (a b z : Bool), ch < 16 → ch < s.fb.length → s.fbOff = false → s.clk.motionHeld = false →
     (s.nat FB.kind ch = 1 ∨ s.nat FB.kind ch = 2) →
     ∃ u, exec (.quadTransition t ch a b z) s = .next u ∧ (u.fbOf ch).a = a ∧ (u.fbOf ch).b = b ∧ (u.fbOf ch).z = z ∧
       ((s.fbOf ch).a ≠ a → (s.fbOf ch).b = b →
         (u.fbOf ch).reg = (s.fbOf ch).reg + (if (s.fbOf ch).b = (s.fbOf ch).a then 1 else -1)) ∧
       ((s.fbOf ch).a = a → (s.fbOf ch).b ≠ b →
         (u.fbOf ch).reg = (s.fbOf ch).reg + (if (s.fbOf ch).b = (s.fbOf ch).a then -1 else 1)) ∧
       ((s.fbOf ch).a ≠ a → (s.fbOf ch).b ≠ b →
         (u.fbOf ch).reg = (s.fbOf ch).reg ∧ (u.fbOf ch).skips = inc32 (s.fbOf ch).skips) ∧
       ((s.fbOf ch).a = a → (s.fbOf ch).b = b → (u.fbOf ch).reg = (s.fbOf ch).reg) ∧
       ∀ j, j ≠ ch → u.fbOf j = s.fbOf j) ∧
  (∀ (s : State) (t ch : Nat) (e : RawEdge), ch < s.fb.length → s.clk.motionHeld = false → s.nat FB.kind ch = 1 →
     (s.fbOf ch).fault = false → (s.fbOf ch).pendingEdges = [e] → e.t + s.nat FB.min_edge ch ≤ t →
     ∃ u, exec (.quadConfirm t ch e.line) s = .next u ∧ (u.fbOf ch).pendingEdges = [] ∧
       (e.line = 2 → (u.fbOf ch).zEdge = some { e with
           step := (s.fbOf ch).lastRawDir, x := (s.fbOf ch).count, p := (s.fbOf ch).pos } ∧
         (u.fbOf ch).count = (s.fbOf ch).count) ∧
       (e.line ≠ 2 → (e.step = 1 ∨ e.step = -1) → (s.fbOf ch).count < s.cpr ch →
         ((u.fbOf ch).count : Int) = ((s.fbOf ch).count + e.step * s.dirOf ch) % (s.cpr ch : Int))) ∧
  (∀ (s : State) (t ch : Nat) (e : RawEdge), ch < s.fb.length → s.clk.motionHeld = false → (s.fbOf ch).pendingEdges = [] →
     (s.fbOf ch).zEdge = some e → s.flag FB.flags 0 ch = true → (s.fbOf ch).fault = false →
     ((e.level = true ∧ e.step = 1) ∨ (e.level = false ∧ e.step = -1)) →
     ∃ u, exec (.indexInstant t ch) s = .next u ∧ (u.fbOf ch).indexRef = some (e.t, e.p, e.x) ∧ (u.fbOf ch).zEdge = none ∧
       ((s.fbOf ch).indexSeen = false → (u.fbOf ch).ref = e.x ∧ (u.fbOf ch).indexSeen = true))

/-- After R154, R156: a sine/cosine sample outside the amplitude window counts towards the fault, one inside it gives the
amplitude. After R159, R161 to R164: an SSI frame begins, its word is accepted or rejected with the third reject in a row a fault,
and the delay is the mean of the middle two of sixteen intervals, a fault above 400 cycles. -/
def Obligations.AnalogueAndSerialChannels : Prop :=
  (∀ (s : State) (t ch : Nat) (si co : Int), ch < 16 → ch < s.fb.length → s.fbOff = false → s.clk.motionHeld = false →
     s.nat FB.kind ch = 2 →
     ∃ u, exec (.sincosSample t ch si co) s = .next u ∧
       (let m := ampOf (s.sinCosVec ch (trimCode (nth s.scTrims ch).1 si) (trimCode (nth s.scTrims ch).2 co))
        (s.inWindow ch m = true → (u.fbOf ch).outRun = 0 ∧ (u.fbOf ch).amp = satU m 32) ∧
        (s.inWindow ch m = false → (u.fbOf ch).outRun = (s.fbOf ch).outRun + 1 ∧
         (s.nat FB.amp_samples ch ≤ (s.fbOf ch).outRun + 1 → (u.fbOf ch).fault = true)))) ∧
  ((∀ (s : State) (t ch : Nat), ch < s.fb.length → s.nat FB.kind ch = 3 → s.fbOff = false → s.stage.running = true →
     t + s.ssiLatch ch = s.nextBoundary →
     ∃ u, exec (.ssiFrameStart t ch) s = .next u ∧ (u.fbOf ch).ssiStart = some t) ∧
   (∀ (s : State) (t ch word t0 : Nat) (low high : Bool), ch < s.fb.length → s.clk.motionHeld = false →
     (s.fbOf ch).ssiStart = some t0 →
     ∃ u, exec (.ssiWord t ch word low high) s = .next u ∧ (u.fbOf ch).ssiStart = none ∧
       (s.ssiCheck ch word low high = 0 → (s.fbOf ch).fault = false →
         (u.fbOf ch).ssiLast = some (s.ssiPosition ch word) ∧ (u.fbOf ch).ssiRejects = 0) ∧
       (s.ssiCheck ch word low high ≠ 0 →
         (u.fbOf ch).ssiLast = (s.fbOf ch).ssiLast ∧ (u.fbOf ch).ssiRejects = (s.fbOf ch).ssiRejects + 1 ∧
         (3 ≤ (s.fbOf ch).ssiRejects + 1 → (u.fbOf ch).fault = true))) ∧
   (∀ (s : State) (t ch : Nat) (v : List Nat), ch < s.fb.length → s.clk.motionHeld = false → s.nat FB.kind ch = 3 →
     v.length = 16 →
     ∃ u, exec (.ssiDelayMeasure t ch (v.map some)) s = .next u ∧
       (let d := ((sortNat v).getD 7 0 + (sortNat v).getD 8 0 + 1) / 2
        (d ≤ 400 → (u.fbOf ch).ssiDelay = d) ∧ (400 < d → (u.fbOf ch).fault = true))))

/-- After R174, R176, R178, R746: a raw transition restarts the filter and is counted; a level that has stood becomes the filtered
level, with the raw edge's time except for the first; chatter ends after a quiet window. After R107, R109, R183, R184: an
emulator's step moves its phases by one in the direction of the backlog, its count with them up to the ends of its format (log
entry 237), and takes the step from the backlog. -/
def Obligations.InputsAndEmulators : Prop :=
  ((∀ (s : State) (t i : Nat) (lv : Bool), s.clk.motionHeld = false → i < 64 → i < s.din.length → (s.dinOf i).ball ≠ lv →
     ∃ u, exec (.dinRawTransition t i lv) s = .next u ∧ (u.dinOf i).ball = lv ∧ (u.dinOf i).lastT = t ∧
       (u.dinOf i).filt = (s.dinOf i).filt ∧ (u.dinOf i).trans = inc32 (s.dinOf i).trans ∧ ∀ j, j ≠ i → u.dinOf j = s.dinOf j) ∧
   (∀ (s : State) (t i : Nat), s.clk.motionHeld = false → i < 64 → i < s.din.length → (s.dinOf i).first = true →
     (s.dinOf i).chatter = false → (s.dinOf i).lastT + s.nat DIN.stable i ≤ t + 1 → (s.dinOf i).filt ≠ s.dinRaw i →
     ∃ u, exec (.dinFilterStable t i) s = .next u ∧ (u.dinOf i).filt = s.dinRaw i ∧ (u.dinOf i).edgeT = (s.dinOf i).lastT) ∧
   (∀ (s : State) (t i : Nat), s.clk.motionHeld = false → i < s.din.length → (s.dinOf i).first = false →
     (s.dinOf i).chatter = false → (s.dinOf i).lastT + s.nat DIN.stable i ≤ t + 1 →
     ∃ u, exec (.dinFirstLevel t i) s = .next u ∧ (u.dinOf i).first = true ∧ (u.dinOf i).filt = s.dinRaw i ∧
       (u.dinOf i).edgeT = (s.dinOf i).edgeT) ∧
   (∀ (s : State) (t i : Nat), s.clk.motionHeld = false → i < s.din.length → (s.dinOf i).chatter = true →
     (s.dinOf i).lastT + s.nat DIN.chatter_win i ≤ t →
     ∃ u, exec (.chatterEnd t i) s = .next u ∧ (u.dinOf i).chatter = false ∧ (u.dinOf i).times = [])) ∧
  (∀ (s : State) (t e : Nat), s.clk.motionHeld = false → e < s.emu.length → (nth s.emu e).stepsLeft ≠ 0 → (nth s.emu e).fault = false →
     s.stage.openedAt + ((nth s.emu e).stepsDone + 1) * (nth s.emu e).spacing ≤ t →
     ∃ u, exec (.emuStep t e) s = .next u ∧
       ((nth u.emu e).count : Int) = clamp ((nth s.emu e).count + sgn (nth s.emu e).backlog) 0 (2 ^ 32 - 1) ∧
       ((nth u.emu e).ph : Int) = ((nth s.emu e).ph + sgn (nth s.emu e).backlog) % 4 ∧
       (nth u.emu e).backlog = (nth s.emu e).backlog - sgn (nth s.emu e).backlog ∧
       ((nth u.emu e).a = true ↔ (nth u.emu e).ph = 1 ∨ (nth u.emu e).ph = 2) ∧
       ((nth u.emu e).b = true ↔ (nth u.emu e).ph = 2 ∨ (nth u.emu e).ph = 3))

/-- After R194, R195, R197: a bit enters its channel, which forms the fast estimate from the bits before it; at a bit whose number
is a multiple of the ratio the accurate estimate is formed. After R201: at tick k of a Stage every axis at that tick takes the
set-point of its record, advanced by k steps of the angle. After R215 to R217: a scheduled edge fires and its state is applied; a
gate turns on at its instant, with the other gate of the half-bridge off. -/
def Obligations.EstimatesTicksAndEdges : Prop :=
  ((∀ (s : State) (k c : Nat) (rise v : Bool), s.clk.motionHeld = false → c < 36 → c < s.ch.length → s.nat CURRENT.form c ≠ 0 →
     (s.nat CURRENT.form c = 1 → rise = true) → (s.nat CURRENT.form c = 2 → rise = false) →
     ∃ u, exec (.modulatorBit k c { rising := rise, bit := some v }) s = .next u ∧ (u.chOf c).n = (s.chOf c).n + 1 ∧ (u.chOf c).times.head? = some k ∧
       (u.chOf c).f0 = s.fixedOfs c (sat (fastSum (s.chOf c).bits * 2 ^ 15) 24) ∧
       (u.chOf c).f = sat ((u.chOf c).f0 - (s.chOf c).ofs) 24) ∧
   (∀ (s : State) (k c : Nat), s.clk.motionHeld = false → c < s.ch.length → (s.chOf c).n ≠ 0 → (s.chOf c).n % 2 ^ s.nat CURRENT.osr_log2 c = 0 →
     (s.chOf c).n ≠ (s.chOf c).accN →
     ∃ u, exec (.accurateEstimate k c) s = .next u ∧
       (u.chOf c).acc = sat (s.fixedOfs c (accRaw (s.nat CURRENT.osr_log2 c) ((s.chOf c).bits.drop 1)) - (s.chOf c).ofs) 24)) ∧
  (∀ (s : State) (k : Nat), s.stage.running = true → 400 * k < s.stage.len →
     ∃ u, exec (.angleTick (s.stage.openedAt + 400 * k)) s = .next u ∧
       ∀ a, a < 12 → a < s.cax.length → kindEngs (s.kind a) ≠ 0 → (s.caxOf a).nextTick = k →
         (u.caxOf a).nextTick = k + 1 ∧ (u.caxOf a).sp = (s.caxOf a).sp ∧
         (u.caxOf a).ticks.head? = some (s.tickSp a k (8 * (s.stage.openedAt + 400 * k)))) ∧
  ((∀ (s : State) (k a e : Nat) (sc : Sched), s.clk.motionHeld = false → a < s.cax.length → e < (s.caxOf a).engs.length → (s.caxOf a).active = true →
     (s.engOf a e).sched = some sc → sc.t ≤ k →
     ∃ u, exec (.edgeFire k a e) s = .next u ∧ (u.engOf a e).sched = none ∧ (u.engOf a e).head.p = sc.p) ∧
   (∀ (s : State) (k a hb t : Nat), s.clk.motionHeld = false → a < s.cax.length → hb < 4 → hb < (s.caxOf a).brs.length →
     (nth (s.caxOf a).brs hb).onAt = some t → t ≤ k →
     ∃ u, exec (.gateOn k a hb) s = .next u ∧ (nth (u.caxOf a).brs hb).gateH = (nth (s.caxOf a).brs hb).level ∧
       (nth (u.caxOf a).brs hb).gateL = !(nth (s.caxOf a).brs hb).level ∧ (nth (u.caxOf a).brs hb).onAt = none))

/-- After R226, R227, R229: a silent modulator, a gate that reads back wrong and a driver fault each latch their cause and turn
every gate of the axis off. After R138: 256 Stages after its beginning the acquisition ends, each channel's offset the mean of its
estimates within its limit. -/
def Obligations.CurrentFaultsAndOffsets : Prop :=
  ((∀ (s : State) (k c a : Nat), s.clk.motionHeld = false → s.claimOf c = some a → c < s.ch.length → a < s.cax.length → bit (s.chOf c).causes 3 = false →
     (s.chOf c).times.headD 0 + 3200 ≤ k →
     ∃ u, exec (.modulatorTimeout k c) s = .next u ∧ (u.chOf c).fault = true ∧ bit (u.chOf c).causes 3 = true ∧
       bit (u.caxOf a).causes 3 = true ∧ (u.caxOf a).active = false ∧ ∀ b ∈ (u.caxOf a).brs, b.gateH = false ∧ b.gateL = false) ∧
   (∀ (s : State) (t a hb : Nat) (high : Bool), s.clk.motionHeld = false → a < s.cax.length → hb < kindHbs (s.kind a) → bit (s.caxOf a).causes 7 = false →
     (if high then (nth (s.caxOf a).brs hb).hAt else (nth (s.caxOf a).brs hb).lAt) + 192 ≤ 8 * t →
     ∃ u, exec (.gateReadbackMismatch t a hb high) s = .next u ∧ bit (u.caxOf a).causes 7 = true ∧ (u.caxOf a).active = false ∧
       ∀ b ∈ (u.caxOf a).brs, b.gateH = false ∧ b.gateL = false) ∧
   (∀ (s : State) (t a low : Nat), s.clk.motionHeld = false → a < s.cax.length → kindHbs (s.kind a) ≠ 0 → bit (s.caxOf a).causes 8 = false →
     s.nat CURRENT.drv_filter a ≤ low →
     ∃ u, exec (.driverFaultInput t a low) s = .next u ∧ bit (u.caxOf a).causes 8 = true ∧ (u.caxOf a).active = false ∧
       ∀ b ∈ (u.caxOf a).brs, b.gateH = false ∧ b.gateL = false)) ∧
  (∀ (s : State) (t n : Nat), s.clk.motionHeld = false → s.acq.from_ = some n → s.acq.done = false → n + 256 ≤ s.stage.boundaries →
     ∃ u, exec (.offsetAcquired t) s = .next u ∧ u.acq.done = true ∧
       ∀ c, c < 36 → c < s.ch.length → (s.chOf c).acqCount ≠ 0 →
         (u.chOf c).ofs = clamp (rndDiv (s.chOf c).acqSum (s.chOf c).acqCount) (-(s.int CURRENT.ofs_limit c)) (s.int CURRENT.ofs_limit c))

/-- After R247, R248, R252: ENABLE takes an axis into Held with its reference at the measured position; DISABLE begins to withdraw
it. The accepted command's tag is held. After R252: a command for an axis that is not enabled is rejected: its tag is held, the
rejects are counted, and the axis is as it was. -/
def Obligations.EnableDisable : Prop :=
  ((∀ (s : State) (a src tag : Nat), s.takesNow a src = true → s.atEase a = true → (s.axOf a).enabled = false →
     modePermits s.mode.mode 8 = true → s.commLearned a = true → s.stoReady a = true → s.firstKind s.safe.a a = false →
     ∃ u, exec (.enable a src tag) s = .next u ∧ (u.axOf a).enabled = true ∧ (u.axOf a).mode = 8 ∧
       (u.axOf a).pRef = (s.bookOf a).pf ∧ (u.bookOf a).cmdTag = tag) ∧
   (∀ (s : State) (a src tag : Nat), s.takesNow a src = true → s.usable a = true → (s.axOf a).enabled = true →
     ∃ u, exec (.disable a src tag) s = .next u ∧ (u.axOf a).disabling = true ∧ (u.bookOf a).cmdTag = tag)) ∧
  (∀ (s : State) (a src tag : Nat), s.takesNow a src = true → s.usable a = true → (s.axOf a).enabled = false →
     ∀ c, c = .disable a src tag ∨ c = .stop a src tag ∨ c = .quickStop a src tag →
       ∃ u, exec c s = .next u ∧ (u.bookOf a).rejTag = tag ∧ (u.bookOf a).rejects = inc32 (s.bookOf a).rejects ∧
         (u.bookOf a).cmdTag = (s.bookOf a).cmdTag ∧ u.ax = s.ax)

/-- After R249, R251, R273, R749: an enabled axis in Held enters Velocity, or homed Position, and from rest in Velocity comes back
by HOLD: the reference and its speed are carried over. -/
def Obligations.ModeChange : Prop :=
  (∀ (s : State) (a src m tag : Nat), s.takesNow a src = true → s.atEase a = true → (s.axOf a).enabled = true →
    (s.axOf a).mode = 8 → m = 2 ∨ (m = 1 ∧ (s.axOf a).homed = true) → modePermits s.mode.mode m = true →
    ∃ u, exec (.mode a src m tag) s = .next u ∧ (u.axOf a).mode = m ∧ (u.axOf a).pRef = (s.axOf a).pRef ∧
      (u.axOf a).vFF = (s.axOf a).vFF ∧ (u.bookOf a).cmdTag = tag) ∧
  (∀ (s : State) (a src tag : Nat), s.takesNow a src = true → s.atEase a = true → (s.axOf a).enabled = true →
    (s.axOf a).mode = 2 → (s.axOf a).vFF = 0 → modePermits s.mode.mode 8 = true →
    ∃ u, exec (.hold a src tag) s = .next u ∧ (u.axOf a).mode = 8 ∧ (u.axOf a).pRef = (s.axOf a).pRef ∧ (u.axOf a).vFF = 0 ∧
      (u.bookOf a).cmdTag = tag)

/-- After R254, R259, R264: a move from rest starts at once in the direction that the dwell allows: MOVE_ABS and MOVE_REL towards
their target, VELOCITY towards its speed. -/
def Obligations.MovesFromRest : Prop :=
  ∀ (s : State) (a src prof vcap tag : Nat) (v : Int), s.takesNow a src = true → s.atEase a = true → (s.axOf a).enabled = true →
    (s.axOf a).gen.phase = .rest → (s.axOf a).gen.ve = 0 → (s.axOf a).kept = none → (s.axOf a).decel = false →
    prof < s.nat AXIS.prof_count a → (s.axOf a).gen.dwellOver = true →
    (∀ fl, fl < 3 → (s.axOf a).mode = 1 → modePermits s.mode.mode 1 = true → s.rotary a = false → s.softBroken a v = false →
      s.limitActive a (sgn (v - (s.axOf a).pRef)) = false →
      ∃ u, exec (.moveAbs a src prof fl v vcap tag) s = .next u ∧ (u.axOf a).gen.phase = .pos ∧ (u.axOf a).gen.target = v ∧
        (u.axOf a).gen.vcap = vcap ∧ (u.bookOf a).cmdTag = tag) ∧
    ((s.axOf a).mode = 1 → modePermits s.mode.mode 1 = true → s.softBroken a ((s.axOf a).pRef + v) = false →
      s.limitActive a (sgn v) = false →
      ∃ u, exec (.moveRel a src prof v vcap tag) s = .next u ∧ (u.axOf a).gen.phase = .pos ∧
        (u.axOf a).gen.target = (s.axOf a).pRef + v ∧ (u.bookOf a).cmdTag = tag) ∧
    ((s.axOf a).mode = 2 → modePermits s.mode.mode 2 = true → sat v 48 = v → s.limitActive a (sgn v) = false →
      ∃ u, exec (.velocity a src prof v vcap tag) s = .next u ∧ (u.axOf a).gen.phase = .vel ∧
        (u.axOf a).gen.vtgt = v * 65536 ∧ (u.bookOf a).cmdTag = tag)

/-- After R243, R266, R267, R748: STOP keeps the velocity move it stops, RESUME gives it back; QUICK_STOP starts a ramp where the
reference is; TORQUE sets its current; RELEASE clears the latch of an ended stop. After R264: the dwell of an axis at rest ends
AXIS.dwell, in whole Stages, after the rest began. -/
def Obligations.StopsAndTorque : Prop :=
  ((∀ (s : State) (a src tag : Nat), s.takesNow a src = true → s.usable a = true → (s.axOf a).enabled = true →
     s.homing a = false → (s.axOf a).ramp = false → (s.axOf a).mode = 2 → (s.axOf a).gen.phase = .vel →
     (s.axOf a).gen.ve ≠ 0 →
     ∃ u, exec (.stop a src tag) s = .next u ∧ (u.axOf a).gen.phase = .stop ∧ (u.axOf a).pRef = (s.axOf a).pRef ∧
       (u.axOf a).kept.map (·.target) = some ((s.axOf a).gen.vtgt / 65536) ∧ (u.bookOf a).cmdTag = tag) ∧
   (∀ (s : State) (a src tag : Nat) (m : Move), s.takesNow a src = true → s.atEase a = true → (s.axOf a).mode = 2 →
     (s.axOf a).kept = some m → m.vel = true → (s.axOf a).gen.phase = .rest → (s.axOf a).gen.dwellOver = true →
     s.limitActive a (sgn m.target) = false →
     ∃ u, exec (.resume a src tag) s = .next u ∧ (u.axOf a).kept = none ∧ (u.axOf a).gen.phase = .vel ∧
       (u.axOf a).gen.vtgt = m.target * 65536 ∧ (u.bookOf a).cmdTag = tag) ∧
   (∀ (s : State) (a src tag : Nat), s.takesNow a src = true → s.usable a = true → (s.axOf a).enabled = true →
     ∃ u, exec (.quickStop a src tag) s = .next u ∧ (u.axOf a).ramp = true ∧ (u.axOf a).pRef = (s.axOf a).pRef ∧
       ((s.axOf a).ramp = false → (u.axOf a).kept = none ∧ (u.axOf a).gen.phase = .rest) ∧ (u.bookOf a).cmdTag = tag) ∧
   (∀ (s : State) (a src tag : Nat) (i : Int), s.takesNow a src = true → s.atEase a = true → (s.axOf a).enabled = true →
     (s.axOf a).mode = 6 → (s.axOf a).decel = false → modePermits s.mode.mode 6 = true → s.limitActive a (sgn i) = false →
     ∃ u, exec (.torque a src i tag) s = .next u ∧ (u.axOf a).torqueCmd = i ∧ (u.bookOf a).cmdTag = tag) ∧
   (∀ (s : State) (a src tag : Nat), s.takesNow a src = true → s.usable a = true → s.homing a = false →
     (s.bookOf a).stopLatch = true → s.chattering a = false → s.limitActive a 1 = false → s.limitActive a (-1) = false →
     ∃ u, exec (.release a src tag) s = .next u ∧ (u.bookOf a).stopLatch = false ∧ (u.bookOf a).cmdTag = tag)) ∧
  (∀ (s : State) (t a : Nat), s.clk.motionHeld = false → a < 12 → a < s.ax.length → (s.axOf a).gen.ve = 0 → (s.axOf a).gen.dwellOver = false →
     (s.axOf a).gen.restAt + s.stagesOf (s.nat AXIS.dwell a) * s.period ≤ t →
     ∃ u, exec (.dwellEnd t a) s = .next u ∧ (u.axOf a).gen.dwellOver = true ∧ (u.axOf a).pRef = (s.axOf a).pRef)

/-- After R285, R286, R288: a segment joins the queue of a group that is not broken and not full: the first of an idle group when
what does not rest on its start passes, any other when its geometry passes. -/
def Obligations.SegmentsQueue : Prop :=
  ∀ (s : State) (g src : Nat) (seg : PathCmd), s.groupTakes g src = true → s.forwards { src := src } = false →
    (s.pgOf g).st ≠ .broken → (s.pgOf g).queue.length < s.nat PATH.queue g →
    ∀ k : Nat, k = 2 ∨ k = 3 →
      ((s.pgOf g).queue = [] ∧ (s.pgOf g).st = .idle ∧ s.segReason0 g { seg with cmd := k } = 0 ∨ (s.pgOf g).st = .running ∧
        s.segReason g (s.segGeom g { seg with cmd := k } (s.pgOf g).lastEnd) = 0) →
      ∃ u, exec (if k = 2 then .line g src seg else .arc g src seg) s = .next u ∧
        (u.pgOf g).queue.length = (s.pgOf g).queue.length + 1 ∧ (u.pgOf g).st = (s.pgOf g).st

/-- After R296, R297: START takes every member of an idle group into Path; STOP pauses a running one that can stop before its end,
RESUME runs it on, CLEAR empties one that does not run. -/
def Obligations.GroupRuns : Prop :=
  (∀ (s : State) (g src tag : Nat), s.groupTakes g src = true → (s.pgOf g).st = .idle → 12 ≤ s.ax.length →
    (∀ q, (s.pgOf g).queue.head? = some q →
      s.segReason g (s.segGeom g q.cmd ((s.members g).map (fun a => (s.axOf a).pRef))) = 0) → (s.pgOf g).queue ≠ [] →
    (s.members g).all s.memberOk = true → (∀ x ∈ s.startHand g, x.2.toBool = true) →
    ∃ u, exec (.start g src tag) s = .next u ∧ (u.pgOf g).st = .running ∧ ∀ a ∈ s.members g, (u.axOf a).mode = 5) ∧
  (∀ (s : State) (g src tag : Nat), s.groupTakes g src = true → (s.pgOf g).st = .running →
    (((s.feedProf g none (s.pgOf g).gen).stopDist (s.pgOf g).gen.ve.natAbs : Nat) : Int) ≤
      (s.pgOf g).endL * 65536 - (s.pgOf g).gen.pe →
    ∃ u, exec (.pathStop g src tag) s = .next u ∧ (u.pgOf g).st = .paused ∧ (u.pgOf g).queue = (s.pgOf g).queue) ∧
  (∀ (s : State) (g src tag : Nat), s.groupTakes g src = true → (s.pgOf g).st = .paused →
    ∃ u, exec (.pathResume g src tag) s = .next u ∧ (u.pgOf g).st = .running ∧ (u.pgOf g).queue = (s.pgOf g).queue) ∧
  (∀ (s : State) (g src tag : Nat), s.groupTakes g src = true → (s.pgOf g).st ≠ .running →
    ∃ u, exec (.clear g src tag) s = .next u ∧ (u.pgOf g).st = .idle ∧ (u.pgOf g).queue = [])

/-- After R304, R305: a raw transition of a capture input starts its filter; a level held for CAPTURE.min_width is accepted, and
the first accepted edge of a selected polarity holds off those that follow. After R312, R315: a compare output fires the armed
entry that its source has reached, for COMPARE.width, and arms the next. -/
def Obligations.CaptureAndCompare : Prop :=
  ((∀ (s : State) (t i : Nat) (lv : Bool), s.clk.motionHeld = false → i < 16 → i < s.cap.length → s.nat CAPTURE.mode i ≠ 0 → (s.capOf i).ball ≠ lv →
     ∃ u, exec (.captureTransition t i lv) s = .next u ∧ (u.capOf i).ball = lv ∧ (u.capOf i).lastT = t ∧
       (u.capOf i).pend = (lv != (s.capOf i).filt) ∧ (u.capOf i).filt = (s.capOf i).filt) ∧
   (∀ (s : State) (t i : Nat), s.clk.motionHeld = false → i < s.cap.length → (s.capOf i).pend = true →
     (s.capOf i).lastT + s.nat CAPTURE.min_width i ≤ t →
     ∃ u, exec (.captureAccept t i) s = .next u ∧ (u.capOf i).filt = (s.capOf i).ball ∧ (u.capOf i).pend = false ∧
       (s.nat CAPTURE.mode i = 1 → s.capSelects i (s.capOf i).ball = true → (s.capOf i).lastAccept = none →
         (u.capOf i).lastAccept = some (s.capOf i).lastT))) ∧
  ((∀ (s : State) (t o j : Nat), s.clk.motionHeld = false → o < 8 → o < s.cmp.length → s.nat COMPARE.source o ≠ 0 →
     (s.cmpOf o).fault = false → s.cmpFaulted o = false →
     (s.cmpOf o).armed = some j → (s.cmpOf o).pulseEnd = none → (s.cmpOf o).nextPulse ≤ t → (s.cmpOf o).pendPulses = 0 →
     s.flag COMPARE.flags 1 o = false → s.cmpDir o * (s.cmpEntry o j - s.cmpSource o t) ≤ 0 → s.cmpHas o (j + 1) = true →
     0 < s.cmpDir o * (s.cmpEntry o (j + 1) - s.cmpSource o t) →
     ∃ u, exec (.compareFire t o) s = .next u ∧ (u.cmpOf o).armed = some (j + 1) ∧
       (u.cmpOf o).fired = inc32 (s.cmpOf o).fired ∧ (u.cmpOf o).pulseEnd = some (t + s.nat COMPARE.width o) ∧
       (u.cmpOf o).level = (if s.flag COMPARE.flags 2 o then !(s.cmpOf o).level else true)) ∧
   (∀ (s : State) (t o e : Nat), s.clk.motionHeld = false → o < s.cmp.length → (s.cmpOf o).pulseEnd = some e → e ≤ t →
     ∃ u, exec (.comparePulseEnd t o) s = .next u ∧ (u.cmpOf o).pulseEnd = none ∧
       (s.flag COMPARE.flags 2 o = false → (u.cmpOf o).level = false)))

/-- After R325, R326, R331: a hard stop held for HOMING.hs_time gives the reference where the axis stands; AUTO homing of an
absolute channel ends homed at the first boundary at which the channel is valid. -/
def Obligations.HomingEnds : Prop :=
  (∀ (s : State) (t a t0 : Nat), s.clk.motionHeld = false → max s.now t = s.stage.openedAt → a < s.home.length → a < s.ax.length →
    (s.homeOf a).phase = .hardstop →
    (s.homeOf a).hsSince = some t0 → t0 + (s.homeOf a).hr.hsTime ≤ t → (s.homeOf a).ref = none → (s.homeOf a).shifted = false →
    ∃ u, exec (.hardstopFound t a) s = .next u ∧ (u.homeOf a).ref.map (·.2.1) = some (s.bookOf a).pf ∧
      (u.axOf a).gen.phase = .rest) ∧
  (∀ (s : State) (t a ch : Nat), s.clk.motionHeld = false → max s.now t = s.stage.openedAt → s.pre.shown = false →
    a < s.home.length → a < s.ax.length → s.fbPos a = some ch → s.defined a = true →
    (s.readHome a).method = 6 → (s.readHome a).auto = true → (nth s.snap ch).valid = true → (s.bookOf a).fault = false →
    s.homing a = false → s.mode.mode ≠ 0 → (s.homeOf a).result = 0 →
    ∃ u, exec (.homingAuto t a) s = .next u ∧ (u.axOf a).homed = true ∧ (u.homeOf a).result = 1 ∧
      (u.homeOf a).shift = sat ((s.readHome a).homePos - s.homeWord ch) 64)

/-- After R337, R341, R348: LEARN starts a run of its axis and is answered; a commutation hold that ends records its angle, the
fourth ends the run; a levelling stop that has settled is recorded. -/
def Obligations.LearnRuns : Prop :=
  (∀ (s : State) (t src id kind target a : Nat), s.keptFor src id = none → 1 ≤ kind → kind ≤ 6 → s.mode.mode = 1 →
    s.learnAxis kind target = some a → s.runOf a = none →
    ∃ u, exec (.learn t src id kind target (learnStep kind)) s = .next u ∧
      (u.runOf a).map (fun r => (r.kind, r.target)) = some (kind, target) ∧
      u.replies = s.replies ++ [{ src := src, id := id, code := 7, detail := 0 }]) ∧
  (∀ (s : State) (t a ch : Nat) (r : Learn), s.runOf a = some r → s.fbMotor a = some ch → r.kind = 1 →
    s.clk.motionHeld = false → r.hold + s.nat SURVEY.align_settle ≤ max s.now t →
    ∃ u, exec (.alignSettle t a) s = .next u ∧
      (r.k + 1 < 4 → (u.runOf a).map (fun x => (x.k, x.thms)) =
        some (r.k + 1, r.thms ++ [(nth s.snap ch).count * 2 ^ 32 / s.cpr ch])) ∧
      (4 ≤ r.k + 1 → u.runOf a = none)) ∧
  (∀ (s : State) (t a v : Nat) (r : Learn), s.clk.motionHeld = false → s.runOf a = some r → r.stopAt = some v →
    v + s.nat SURVEY.level_settle ≤ max s.now t →
    ∃ u, exec (.levelSettle t a) s = .next u ∧
      (r.k + 1 < s.nat CAR.count r.target → (u.runOf a).map (fun x => (x.k, x.stopAt, x.deltas)) =
        some (r.k + 1, none, r.deltas ++ [s.levelErr r.target r.k])) ∧
      (s.nat CAR.count r.target ≤ r.k + 1 → u.runOf a = none))

/-- After R54, R62, R131, R353: at a Stage boundary at which their axis is at standstill the appended values of an axis that no
amendment supersedes there take effect, and no others; without standstill none does. -/
def Obligations.SurveyCommits : Prop :=
  ∀ (s : State) (t a : Nat), max s.now t = s.stage.openedAt →
    ((s.axOf a).standstill = true → s.amdsDue = [] →
      ∃ u, exec (.surveyCommit t a) s = .next u ∧
        u.survey.pend = s.survey.pend.filter (fun p => !(p.appended && p.axis == a)) ∧
        u.cfg = (s.survey.pend.filter (fun p => p.appended && p.axis == a)).foldl (fun c p => applyCells c p.cells) s.cfg) ∧
    ((s.axOf a).standstill = false →
      ∃ u, exec (.surveyCommit t a) s = .next u ∧ u.survey.pend = s.survey.pend ∧ u.cfg = s.cfg)

/-- After R366, R375, R560: differing door-zone inputs degrade a car after CAR.dz_disc; a car out of level starts re-levelling; a
car held for its paired slice departs. After R384, R385: the hold time of an open door ends; the nudge timer of a door that may
nudge passes DOOR.nudge_time. -/
def Obligations.CarsAndDoorTimers : Prop :=
  ((∀ (s : State) (t c i j u0 : Nat), s.clk.motionHeld = false → c < s.cars.length → s.dzIns c = [i, j] → (s.car c).differ = some u0 →
     u0 + s.nat CAR.dz_disc c < max s.now t → (s.car c).dzDegraded = false →
     ∃ u, exec (.doorZoneDiscrepancy t c) s = .next u ∧ (u.car c).dzDegraded = true) ∧
   (∀ (s : State) (t c a l : Nat), s.clk.motionHeld = false → c < s.cars.length → s.carAxis c = some a →
     (s.car c).landing = some l → (s.car c).st = 1 → s.carDrives = true → s.nat CAR.relevel_n c ≤ (s.car c).levelRun → (s.doorsClosed c || s.bypassed c) = true →
     (s.car c).axisFault = false → (s.axOf a).enabled = true →
     ∃ u, exec (.relevel t c) s = .next u ∧ (u.car c).st = 3 ∧ (u.car c).relevels = inc32 (s.car c).relevels ∧
       (u.car c).running = some l) ∧
   (∀ (s : State) (t c a l : Nat) (v w : Int), c < s.cars.length → s.carAxis c = some a → (s.car c).paired = some (v, w) →
     (s.car c).assigned = some l → v ≤ s.siteAt (max s.now t) → s.departOk c = true → (s.car c).st = 1 ∨ (s.car c).st = 5 →
     s.carDrives = true →
     ∃ u, exec (.pairedDeparture t c) s = .next u ∧ (u.car c).st = 2 ∧ (u.car c).running = some l ∧ (u.car c).paired = none)) ∧
  ((∀ (s : State) (t d v : Nat), s.clk.motionHeld = false → d < s.doors.length → (s.door d).holdEnd = some v → (s.door d).st = 3 → v ≤ max s.now t →
     ∃ u, exec (.doorHoldEnd t d) s = .next u ∧ (u.door d).holdOver = true ∧ (u.door d).st = 3) ∧
   (∀ (s : State) (t d v : Nat), s.clk.motionHeld = false → d < s.doors.length → (s.door d).nudgeFrom = some v →
     v + s.nat DOOR.nudge_time d < max s.now t →
     s.flag DOOR.flags 0 d = true → s.recallFlag 1 = false → s.recallFlag 3 = false →
     ∃ u, exec (.nudgeTimer t d) s = .next u ∧ (u.door d).nudgeDue = true ∧ (u.door d).st = (s.door d).st))

/-- After R400, R413: a ball of a safety input changes its level on its die alone; SS1 ends at standstill or after
SAFE_AXIS.ss1_max. After R420: a test pulse counts the balls that did not read back off; an EDM that has not shown the output's
state in time latches cause 1 for an output that is on, 2 for one that is off. -/
def Obligations.InterlockInputsAndOutputs : Prop :=
  ((∀ (s : State) (t die i : Nat) (lv : Bool), die < 2 → i < 24 → i < (s.chan (die == 1)).ins.length →
     (∃ u, exec (.safetyInputChange t die i false lv) s = .next u ∧ (nth (u.chan (die == 1)).ins i).ballA = lv ∧
       u.chan (die == 0) = s.chan (die == 0)) ∧
     (∃ u, exec (.safetyInputChange t die i true lv) s = .next u ∧ (nth (u.chan (die == 1)).ins i).ballB = lv ∧
       u.chan (die == 0) = s.chan (die == 0))) ∧
   (∀ (s : State) (t a : Nat), max s.now t = s.stage.openedAt → a < s.safe.stops.length → (nth s.safe.stops a).kind = .ss1 →
     s.standstillS a = true ∨ s.nat SAFE_AXIS.ss1_max a ≤ s.stage.boundaries - (nth s.safe.stops a).start →
     ∃ u, exec (.ss1End t a) s = .next u ∧ (nth u.safe.stops a).kind = .ss1End ∧ (nth u.safe.stops a).endAt = s.stage.boundaries)) ∧
  ((∀ (s : State) (t o : Nat) (offA offB : Bool), o < 22 → o < s.safe.outs.length → s.flag SAFE_OUT.flags 0 o = true →
     (s.stage.boundaries + 4096 * 22 - 128 * o) % 4096 = 0 → ((s.outOf o).a || (s.outOf o).b) = true →
     ∃ u, exec (.testPulse t o offA offB) s = .next u ∧
       (u.outOf o).pulseA = (if (s.outOf o).a && !offA then (s.outOf o).pulseA + 1 else 0) ∧
       (u.outOf o).pulseB = (if (s.outOf o).b && !offB then (s.outOf o).pulseB + 1 else 0)) ∧
   (∀ (s : State) (t o : Nat), o < s.safe.outs.length → o < 22 → s.edmOf o ≠ 0 → (s.outOf o).settled = false →
     (s.outOf o).fault = 0 → s.edmOn o = (s.outOf o).on →
     (s.outOf o).since + (if (s.outOf o).on then s.nat SAFE_OUT.t_on o else s.nat SAFE_OUT.t_off o) ≤ s.stage.boundaries →
     ∃ u, exec (.edmTimeout t o) s = .next u ∧ (u.outOf o).fault = (if (s.outOf o).on then 1 else 2)))

/-- After R418: BRAKE_TEST starts a test of an axis that stands enabled in Held; after SAFE_AXIS.test_time a step ends, the last
ends the test. After R278, R423: CLEAR_FAULT in Halt leaves no axis faulted and is answered. -/
def Obligations.BrakeTestsAndClearing : Prop :=
  ((∀ (s : State) (t src id a : Nat), s.keptFor src id = none → s.testAllowed a = true → s.testSteps a ≠ [] →
     ∃ u, exec (.brakeTest t src id a) s = .next u ∧
       u.safe.test.map (fun x => (x.axis, x.steps)) = some (a, s.testSteps a) ∧
       u.replies = s.replies ++ [{ src := src, id := id, code := 7, detail := 0 }]) ∧
   (∀ (s : State) (t o : Nat) (d : Int) (rest : List (Nat × Int)) (x : BrakeTest), s.safe.test = some x → x.steps = (o, d) :: rest →
     x.from_ + s.nat SAFE_AXIS.test_time x.axis ≤ s.stage.boundaries →
     ∃ u, exec (.brakeTestStepEnd t) s = .next u ∧ (rest = [] → u.safe.test = none) ∧
       (rest ≠ [] → u.safe.test.map (fun y => (y.axis, y.steps, y.from_)) = some (x.axis, rest, s.stage.boundaries + 1)))) ∧
  (∀ (s : State) (t src id : Nat), s.keptFor src id = none → s.mode.mode = 6 → s.inPair = false →
     ∃ u, exec (.clearFault t src id) s = .next u ∧ (∀ a, a < 12 → (u.bookOf a).fault = false) ∧
       u.replies.length = s.replies.length + 1)

/-- After R439, R444, R454: a new call takes a SERIAL and a first round; a member's round is held with its bids; bids go at the
slot time; the collector keeps the best four until the round closes. -/
def Obligations.BidRounds : Prop :=
  (∀ (s : State) (t : Nat) (k : Call), s.collects = true → k.group = s.group → kindAllowed s.dspMode k.kind = true → k.from_ ≤ 255 →
    (3 ≤ k.kind → k.dest ≤ 255) → (k.kind = 4 → ∀ l ∈ [k.fromB, k.toB], l ≠ 0xFFFF → l ≤ 255) → s.dsp.calls.length < 1024 → (∀ x ∈ s.dsp.calls, sameKey x.call k = false) →
    ∃ u, exec (.dspCall t k) s = .next u ∧ u.dsp.calls.length = s.dsp.calls.length + 1 ∧
      u.dsp.serial = (s.dsp.serial + 1) % 2 ^ 18 ∧ u.dsp.opened = inc32 s.dsp.opened) ∧
  (∀ (s : State) (t : Nat) (o : DspOpen), s.group ≠ 0 → o.call.group = s.group → o.collector = s.nat DISPATCH.collector →
    (∀ r ∈ s.dsp.rounds, r.open_.call.callId ≠ o.call.callId) →
    ∃ u, exec (.dspOpen t o) s = .next u ∧ ∃ r ∈ u.dsp.rounds, r.open_ = o ∧ (s.spawnTask 1 0x051 = none → r.ready = true)) ∧
  (∀ (s : State) (t id : Nat) (r : Round), max s.now t = s.stage.openedAt → s.dsp.rounds.find? (fun r => r.open_.call.callId == id) = some r → r.ready = true →
    r.sent = false → r.open_.tOpen + usNs r.open_.lead + s.machineId % 64 * usNs r.open_.slot ≤ s.siteAt (max s.now t) →
    ∃ u, exec (.bidSend t id) s = .next u ∧ (∀ x ∈ u.dsp.rounds, x.open_.call.callId = id → x.sent = true) ∧
      u.dsp.bidsSent = satU (s.dsp.bidsSent + r.bids.length) 32) ∧
  (∀ (s : State) (t id m : Nat) (l : List Bid) (x : CollCall), s.collects = true → callUnit id = s.machineId →
    s.callOf id = some x → x.phase = 0 → s.siteAt (max s.now t) < x.closeAt →
    ∃ u, exec (.dspBid t id m l) s = .next u ∧ (u.callOf id).map (·.bids) = some (bestFour x.bids l)) ∧
  (∀ (s : State) (t id : Nat) (w : WsCall), max s.now t = s.stage.openedAt → s.dsp.ws.find? (fun w => w.open_.call.callId == id) = some w →
    w.open_.tOpen + usNs w.open_.lead + 64 * usNs w.open_.slot + s.nat DISPATCH.ws_rank * usNs (s.nat DISPATCH.ws_step) ≤
      s.siteAt (max s.now t) →
    ∃ u, exec (.waystationForward t id) s = .next u ∧ u.dsp.forwarded = s.dsp.forwarded ++ [id] ∧
      u.dsp.wsWaiting = s.dsp.wsWaiting.drop 1)

/-- After R454, R456, R457: a closed round is assigned to its best bid, or waits for its reopening; an answer, or none in time,
settles the assignment or passes it to the next bid. -/
def Obligations.Assignments : Prop :=
  (∀ (s : State) (t id : Nat) (x : CollCall), max s.now t = s.stage.openedAt → s.callOf id = some x → x.phase = 0 →
    x.closeAt ≤ s.siteAt (max s.now t) →
    ∃ u, exec (.bidRoundClose t id) s = .next u ∧
      (x.bids ≠ [] → (u.callOf id).map (fun y => (y.phase, y.next)) = some (1, 0)) ∧
      (x.bids = [] → (u.callOf id).map (·.phase) = some 3)) ∧
  (∀ (s : State) (t id unit car att cost : Nat) (r : Round), unit = s.machineId → s.leads = true →
    s.dsp.rounds.find? (fun r => r.open_.call.callId == id) = some r → s.holdsCall id = false → r.sent = true →
    r.bids.any (fun b => b.car == car) = true → s.unitWithdraw = 0 → s.mayServe r.open_.call car = true →
    ∃ u, exec (.dspAssign t id unit car att cost) s = .next u ∧ u.dsp.assigned = inc32 s.dsp.assigned) ∧
  (∀ (s : State) (t id : Nat) (x : CollCall) (b : Bid), s.callOf id = some x → x.phase = 1 → x.bids[x.next]? = some b →
    (∃ u, exec (.dspAccept t id b.unit b.car) s = .next u ∧ (u.callOf id).map (·.phase) = some 2) ∧
    (∀ reason, ∃ u, exec (.dspDecline t id b.unit b.car reason) s = .next u ∧
      (x.next + 1 < x.bids.length → (u.callOf id).map (fun y => (y.phase, y.next)) = some (1, x.next + 1)) ∧
      (x.bids.length ≤ x.next + 1 → (u.callOf id).map (·.phase) = some 3)) ∧
    (x.answerBy ≤ s.siteAt (max s.now t) → ∃ u, exec (.acceptTimeout t id) s = .next u ∧
      (x.next + 1 < x.bids.length → (u.callOf id).map (fun y => (y.phase, y.next)) = some (1, x.next + 1)) ∧
      (x.bids.length ≤ x.next + 1 → (u.callOf id).map (·.phase) = some 3)))

/-- After R439, R441, R457, R458: a call is opened again with the next attempt, goes to the other collector, or is over. -/
def Obligations.CallsEnd : Prop :=
  (∀ (s : State) (t id : Nat) (x : CollCall), s.callOf id = some x →
    (x.phase = 3 → x.reopenAt ≤ s.siteAt (max s.now t) → ∃ u, exec (.callReopen t id) s = .next u ∧
      (u.callOf id).map (fun y => (y.phase, y.attempt, y.reopenings)) = some (0, satU (x.attempt + 1) 8, x.reopenings + 1)) ∧
    (∀ unit car reason, ∃ u, exec (.dspRelease t id unit car reason) s = .next u ∧
      (u.callOf id).map (fun y => (y.phase, y.attempt, y.reopenings)) = some (0, satU (x.attempt + 1) 8, x.reopenings + 1)) ∧
    (s.dsp.waiting = [] → ∀ unit car, ∃ u, exec (.dspDone t id unit car) s = .next u ∧ u.callOf id = none) ∧
    (s.dsp.waiting = [] → id ≠ 0 → ∀ q, ∃ u, exec (.dspCancel t id q) s = .next u ∧ u.callOf id = none ∧
      ∀ r ∈ u.dsp.rounds, r.open_.call.callId ≠ id)) ∧
  (∀ (s : State) (t req : Nat) (x : Asked), s.dsp.asked.find? (fun x => x.call.req == req && !x.alt) = some x →
    s.nat DISPATCH.collector_alt ≠ 0 → x.at_ + usNs (s.nat DISPATCH.accept_to) ≤ s.siteAt (max s.now t) →
    ∃ u, exec (.collectorSwitch t req) s = .next u ∧ { x with alt := true } ∈ u.dsp.asked)

/-- After R465, R466, R484: a PHY that gains or loses link takes effect; a neighbour's first LINK_HELLO makes it heard, and
operational once spoken to; a silent neighbour is lost. -/
def Obligations.Neighbours : Prop :=
  (∀ (s : State) (t p : Nat) (up : Bool), p < 2 → p < s.fab.ports.length → (s.portOf p).up ≠ up →
    ∃ u, exec (.portLinkChange t p up) s = .next u ∧ (u.portOf p).up = up) ∧
  (∀ (s : State) (t p unit boot kc ko : Nat) (a : List Nat) (q : Peer), s.portOn p = true → unit ≠ s.unitId →
    s.peerOf p unit = some q → q.heard = false → q.oper = false →
    ∃ u, exec (.linkHello t p unit boot kc ko a) s = .next u ∧
      (u.peerOf p unit).map (fun x => (x.unit, x.boot, x.heard, x.oper)) = some (unit, boot, true, q.said)) ∧
  (∀ (s : State) (t p : Nat), s.portOn p = true → (s.portOf p).lastHello = none →
    ∃ u, exec (.helloSend t p) s = .next u ∧ (u.portOf p).lastHello = some (max s.now t)) ∧
  (∀ (s : State) (t p unit : Nat) (q : Peer), s.peerOf p unit = some q → q.heard = true →
    q.helloAt + 3 * msCycles (s.nat FABRIC.hello_period) ≤ max s.now t →
    ∃ u, exec (.neighbourTimeout t p unit) s = .next u ∧
      (u.peerOf p unit).map (fun x => (x.heard, x.oper)) = some (false, false))

/-- After R482, R483: counts carried by a neighbour return credits, a count unsent for 50 µs goes as a CREDIT, an idle port starts
the next frame, and the unit's status goes out when it is due. After R475 to R477: a frame that passes every check is counted as
received; one whose format is wrong is rejected. -/
def Obligations.FramesAndCredits : Prop :=
  ((∀ (s : State) (t p unit : Nat) (n : List Nat) (q : Peer), s.peerOf p unit = some q → q.oper = true →
     ∃ u, exec (.credit t p unit n) s = .next u ∧ ∃ x, u.peerOf p unit = some x ∧
       ∀ c, c < 4 → x.k.getD c 0 = q.k.getD c 0 + (n.getD c 0 + 16 - q.got.getD c 0) % 16) ∧
   (∀ (s : State) (t p unit v : Nat) (q : Peer), s.peerOf p unit = some q → q.oper = true → q.changedAt = some v →
     v + 20000 ≤ max s.now t →
     ∃ u, exec (.creditSend t p unit) s = .next u ∧ (u.portOf p).queue.length = (s.portOf p).queue.length + 1) ∧
   (∀ (s : State) (t p i : Nat), s.portOn p = true → (s.portOf p).busyUntil ≤ max s.now t → s.nextItem p = some i →
     ∃ u, exec (.frameTransmit t p) s = .next u ∧ (u.portOf p).tx = inc32 (s.portOf p).tx ∧ (u.portOf p).wire.isSome = true) ∧
   (∀ (s : State) (t : Nat) (d : Dest), dstField (s.nat FABRIC.status_dst) = some d → s.fab.statusNext ≤ s.stage.boundaries →
     s.purse.t1 = true → s.inPair = false → s.fab.conflict = false → s.wake.bare = false →
     ∃ u, exec (.unitStatus t) s = .next u ∧ u.fab.statusNext = s.stage.boundaries + s.nat FABRIC.status_period ∧
       u.fab.seq = setAt s.fab.seq 1 ((s.fab.seq.getD 1 0 + 1) % 2 ^ 32))) ∧
  (∀ (s : State) (t p from_ : Nat) (f : Frame) (q : Peer), s.portOn p = true → s.peerOf p from_ = some q →
     (s.verdict q f = .reject 1 → ∃ u, exec (.cysinFrame t p from_ f) s = .next u ∧
       (u.portOf p).rejected = inc32 (s.portOf p).rejected) ∧
     (s.verdict q f = .dup → ∃ u, exec (.cysinFrame t p from_ f) s = .next u ∧ (u.portOf p).dups = inc32 (s.portOf p).dups) ∧
     (s.verdict q f = .accept → f.type = 0x002 → f.msg = .credit → s.spawnTask 1 0x002 = none →
       ∃ u, exec (.cysinFrame t p from_ f) s = .next u ∧ (u.portOf p).rx = inc32 (s.portOf p).rx))

/-- After R487 to R490: a better clock becomes the grandmaster; the first Sync sets site time; without Syncs the grandmaster is
lost; a seal is held against its Sync; a grandmaster remembers its Sync and seals it. After R491, R585: SET_TIME at the
grandmaster sets site time and is answered. -/
def Obligations.SiteTime : Prop :=
  ((∀ (s : State) (t p : Nat) (a : Announce), s.portOn p = true → a.gm ≠ s.clockId → a.prio1 ≠ 255 → s.time.gm = none →
     clockBetter a s.ownClock = true →
     ∃ u, exec (.announce t p a) s = .next u ∧ u.time.gm = some (a, p) ∧ u.time.goodRun = 0) ∧
   (∀ (s : State) (t p q o : Nat) (stamp : SyncStamps) (corr off : Int) (g : Announce), s.portOn p = true →
     s.time.gm = some (g, p) → s.time.everSet = false → (s.tick t).syncOffset p o corr stamp = off →
     ∃ u, exec (.sync t p q o corr stamp) s = .next u ∧ u.site = s.siteAt (max s.now t) - off ∧ u.time.everSet = true ∧
       u.time.offset = sat off 32 ∧ u.time.lastSync = some (max s.now t)) ∧
   (∀ (s : State) (t : Nat), s.isGm = true → ∃ u, exec (.syncSend t) s = .next u ∧ u.time.sent.isSome = true) ∧
   (∀ (s : State) (t v : Nat) (g : Announce × Nat), s.time.gm = some g → s.time.lastSync = some v →
     v + s.nat FABRIC.sync_timeout * s.syncInterval ≤ max s.now t →
     ∃ u, exec (.syncTimeout t) s = .next u ∧ u.time.gm = none ∧ u.time.lastSync = none) ∧
   (∀ (s : State) (t o q x : Nat), s.flag FABRIC.flags 0 = true → s.time.origins.find? (fun z => z.1 == q) = some (q, x) →
     ∃ u, exec (.timeSeal t o q) s = .next u ∧ u.time.sealOk = decide (x = o)) ∧
   (∀ (s : State) (t q o : Nat), s.isGm = true → s.time.sent = some (q, o) → s.fab.conflict = false → s.wake.bare = false →
     ∃ u, exec (.timeSealSend t) s = .next u ∧ u.fab.seq = setAt s.fab.seq 1 ((s.fab.seq.getD 1 0 + 1) % 2 ^ 32))) ∧
  (∀ (s : State) (t src id : Nat) (v : Int), s.keptFor src id = none → s.isGm = true →
     ∃ u, exec (.setTime t src id v) s = .next u ∧ u.site = v ∧
       u.replies = s.replies ++ [{ src := src, id := id, code := 0, detail := 0 }])

/-- After R495, R497, R499: a valid PDU of a connection that is not safe comes into use at the next boundary; a silent connection
becomes safe; a status of a drive waits for its Stage; a torque-off not confirmed is told. -/
def Obligations.ConnectionsAndDrives : Prop :=
  (∀ (s : State) (t src boot conn sc ts fl d x k : Nat), k < s.cons.length →
    (List.range 16).find? (fun k => s.nat SAFECON.dir k == 2 && s.nat SAFECON.conn_id k == conn && s.nat SAFECON.peer k == src)
      = some k → (s.tick t).pduFails k boot sc ts fl d x = 0 → (s.conOf k).st ≠ 3 →
    ∃ u, exec (.safetyPdu t src boot conn sc ts fl d x) s = .next u ∧ (u.conOf k).st = 2 ∧ (u.conOf k).count = sc ∧
      (u.conOf k).next = some (d % 2 ^ s.nat SAFECON.nbits k)) ∧
  (∀ (s : State) (t k : Nat), max s.now t = s.stage.openedAt → k < 16 → k < s.cons.length → s.nat SAFECON.dir k = 2 → (s.conOf k).st = 2 →
    (s.conOf k).lastB + s.nat SAFECON.watchdog k ≤ s.stage.boundaries →
    ∃ u, exec (.safetyWatchdog t k) s = .next u ∧ (u.conOf k).st = 3 ∧ (u.conOf k).data = 0) ∧
  (∀ (s : State) (t src a st e : Nat) (p v iq : Int), a < 12 → a < s.xd.length → s.hasXd a = true → s.nat XD.unit a = src →
    ∃ u, exec (.xdStatus t src a st e p v iq) s = .next u ∧ (u.xdOf a).inbox.getLast? = some (e, p, v, iq, st)) ∧
  (∀ (s : State) (t a n : Nat), a < s.xd.length → (s.xdOf a).offSince = some n → n + s.nat XD.t_conf a ≤ s.stage.boundaries →
    (s.xdOf a).unconfirmed = false →
    ∃ u, exec (.xdConfirmTimeout t a) s = .next u ∧ (u.xdOf a).unconfirmed = true ∧ bit u.mode.haltNew 4 = true)

/-- After R510, R511, R522: a packet of the partner is kept and is its heartbeat; without packets the standby asks; the link
follows its PHY; a standby whose copies are complete takes the mirrored state, and comparing resumes. -/
def Obligations.TwinLinkAndMirror : Prop :=
  (∀ (s : State) (t : Nat) (p : TwinPkt), s.inPair = true → s.twin.linkUp = true →
    (p.crcOk = true → p.pair = s.pairId → p.unit = s.nat TWIN.partner →
      ∃ u, exec (.twinPacket t p) s = .next u ∧ u.twin.heartbeat = true ∧ u.twin.missRun = 0 ∧ u.twin.pkts.head? = some p) ∧
    (p.crcOk = false → ∃ u, exec (.twinPacket t p) s = .next u ∧ u.twin.crcErrors = inc32 s.twin.crcErrors ∧
      u.twin.pkts = s.twin.pkts)) ∧
  (∀ (s : State) (t : Nat), s.inPair = true → s.twin.heartbeat = true → s.nat TWIN.hb_miss ≤ s.twin.missRun →
    ∃ u, exec (.twinHeartbeat t) s = .next u ∧ u.twin.heartbeat = false ∧ u.twin.hbLosses = inc32 s.twin.hbLosses ∧
      (s.twin.st = 3 → u.twin.st = 4 ∧ u.twin.fresh = false)) ∧
  (∀ (s : State) (t : Nat) (up : Bool), s.clk.motionHeld = false →
    ∃ u, exec (.twinLink t up) s = .next u ∧ u.twin.linkUp = (up && !(nth s.links 1).failed)) ∧
  (∀ (s : State) (t e : Nat), max s.now t = s.stage.openedAt → s.twin.rebase = some e → s.twin.st = 3 →
    (∀ i ∈ s.mirrorItems, ∃ n b, (s.item i).copy = some (n, b) ∧ e ≤ n) →
    ∃ u, exec (.rebase t) s = .next u ∧ u.twin.rebase = none ∧
      u.twin.resumeAt = some (s.stage.boundaries + s.nat TWIN.rebase)) ∧
  (∀ (s : State) (t n : Nat), s.twin.resumeAt = some n → n ≤ s.stage.boundaries →
    ∃ u, exec (.compareResume t) s = .next u ∧ u.twin.resumeAt = none)

/-- After R513: the witness gives a free lease under a new LEASE_NO, keeps a running one from another unit, and takes a release
back. After R513, R515: a waiting aligned member asks for the lease, the holder renews it, and a grant makes the waiting member
ACTIVE. -/
def Obligations.Leases : Prop :=
  ((∀ (s : State) (t pair unit n l c succ k : Nat), s.witnessIx pair = some k → k < s.twin.wit.length →
     s.wake.from_ + msCycles 150 ≤ max s.now t →
     ((nth s.twin.wit k).holder = 0 → ∃ u, exec (.leaseRequest t pair unit n l c succ) s = .next u ∧
       (nth u.twin.wit k).holder = unit ∧ (nth u.twin.wit k).counter = ((nth s.twin.wit k).counter + 1) % 65536 ∧
       (nth u.twin.wit k).until_ = max s.now t + msCycles (l + s.nat TWIN.grace)) ∧
     ((nth s.twin.wit k).holder ≠ 0 → (nth s.twin.wit k).holder ≠ unit → (nth s.twin.wit k).successor ≠ unit →
       max s.now t < (nth s.twin.wit k).until_ → ∃ u, exec (.leaseRequest t pair unit n l c succ) s = .next u ∧
       (nth u.twin.wit k).holder = (nth s.twin.wit k).holder ∧ (nth u.twin.wit k).until_ = (nth s.twin.wit k).until_ ∧
       (nth u.twin.wit k).refusals = inc32 (nth s.twin.wit k).refusals)) ∧
   (∀ (s : State) (t pair unit k : Nat), s.witnessIx pair = some k → k < s.twin.wit.length → unit ≠ 0 →
     (nth s.twin.wit k).holder = unit →
     ∃ u, exec (.leaseRelease t pair unit (nth s.twin.wit k).leaseNo) s = .next u ∧ (nth u.twin.wit k).holder = 0)) ∧
  ((∀ (s : State) (t v : Nat), s.inPair = true → s.twin.st = 1 → s.stage.aligned = true → s.twin.wakeReq = some v →
     s.flag TWIN.flags 0 = true → s.twin.rebase = none → s.twin.reqAt = none →
     ∃ u, exec (.roleRequest t) s = .next u ∧ u.twin.reqAt = some (max s.now t) ∧ u.twin.reqCause = 1) ∧
   (∀ (s : State) (t v : Nat), s.inPair = true → s.twin.st = 2 → s.twin.leaseNo ≠ 0 → s.twin.reqAt = some v →
     v + msCycles (s.nat TWIN.renew) ≤ max s.now t →
     ∃ u, exec (.leaseRenew t) s = .next u ∧ u.twin.reqAt = some (max s.now t) ∧ u.twin.reqCause = 0) ∧
   (∀ (s : State) (t n left succ v : Nat), s.inPair = true → s.twin.st = 1 → s.twin.reqAt = some v →
     ∃ u, exec (.leaseGrant t s.pairId s.unitId n 0 left succ s.unitId) s = .next u ∧ u.twin.st = 2 ∧ u.twin.leaseNo = n ∧
       u.twin.leaseEnd = some (v + msCycles (s.nat TWIN.lease)) ∧ u.twin.takeovers = inc32 s.twin.takeovers))

/-- After R514, R526, R532, R533: a lease that lapses begins a hand-off to a fit partner, or Halt; SWITCH begins one; at its epoch
the predecessor is OUT and drops GRANT; a selector that reads otherwise than GRANT is told. -/
def Obligations.HandoffAndGrant : Prop :=
  (∀ (s : State) (t v : Nat), s.twin.leaseEnd = some v → s.twin.st = 2 → v ≤ max s.now t → s.twin.handoff = none →
    ∃ u, exec (.leaseExpiry t) s = .next u ∧ u.twin.leaseEnd = none ∧
      (s.partnerFit = true → u.twin.handoff = some (s.stage.epoch + 4) ∧ u.twin.st = 2) ∧
      (s.partnerFit = false → u.twin.st = 7 ∧ bit u.mode.haltNew 8 = true)) ∧
  (∀ (s : State) (t h : Nat), max s.now t = s.stage.openedAt → s.twin.handoff = some h → h ≤ s.stage.epoch → s.twin.st = 2 →
    ∃ u, exec (.handoff t) s = .next u ∧ u.twin.st = 7 ∧ u.twin.grant = false ∧ u.twin.leaseNo = 0 ∧ u.twin.handoff = none) ∧
  (∀ (s : State) (t : Nat), s.localPair = true → s.twin.grantAt + usCycles (s.nat TWIN.sel_time) + s.period ≤ max s.now t →
    s.selReading ≠ s.twin.grant → ∃ u, exec (.grantCheck t) s = .next u ∧ bit u.mode.haltNew 4 = true) ∧
  (∀ (s : State) (t src id : Nat), s.keptFor src id = none → s.mode.mode ≠ 0 → s.localPair = true → s.twin.st = 2 →
    s.partnerFit = true → s.twin.handoff = none →
    ∃ u, exec (.switch t src id) s = .next u ∧ u.twin.handoff = some (s.stage.epoch + 4) ∧
      u.replies = s.replies ++ [{ src := src, id := id, code := 0, detail := 0 }])

/-- R545: a change of a port's class or powered state raises EV_PD_CLASS and leaves G; the next boundary's G is the greater of the
ports' grants, unless the input or the power link is lost. -/
def Obligations.PortClassChanges : Prop :=
  (∀ (s : State) (t p c : Nat) (on : Bool), p < 2 → ((nth s.purse.pd p).cls ≠ c ∨ (nth s.purse.pd p).powered ≠ on) →
    ∃ u, exec (.pdClass t p c on) s = .next u ∧ u.led.raised = countUp s.led.raised 0xE0 ∧ u.purse.grant = s.purse.grant) ∧
  (∀ (s : State) (io : NoticeInputs), s.stage.running = true → s.stage.epoch ≠ 0xFFFFFFFFFFFF → (nth s.links 0).failed = false →
    s.stage.noticed ≠ some s.stage.boundaries → max s.now io.t ≤ s.stage.openedAt + 400 → s.purse.lost = false →
    s.purse.linkFailed = false →
    ∃ u, exec (.boundaryNotice io) s = .next u ∧ u.purse.grant = (s.purse.pd.map (·.grant)).foldl max 0)

/-- After R543, R545, R547, R553: the ports, the loss and the return of the input, the floor of HOLD, and a grant exceeded. -/
def Obligations.PowerInput : Prop :=
  (∀ (s : State) (t p c : Nat) (on : Bool), p < 2 → p < s.purse.pd.length →
    ((nth s.purse.pd p).cls ≠ c ∨ (nth s.purse.pd p).powered ≠ on) →
    ∃ u, exec (.pdClass t p c on) s = .next u ∧ (nth u.purse.pd p).cls = c ∧ (nth u.purse.pd p).powered = on) ∧
  (∀ (s : State) (t p : Nat), p < 2 → p < s.purse.pd.length → s.flag PURSE.flags 0 = true → s.nat PURSE.class_req = 15 →
    (nth s.purse.pd p).powered = false → (nth s.purse.pd p).fellBack = false →
    (nth s.purse.pd p).advAt + 400000000 ≤ max s.now t →
    ∃ u, exec (.classFallback t p) s = .next u ∧ (nth u.purse.pd p).fellBack = true ∧ u.advertised p = 14) ∧
  (∀ (s : State) (t : Nat), s.purse.lost = false → s.nat PURSE.loss_n ≤ s.purse.lossRun →
    ∃ u, exec (.powerLoss t) s = .next u ∧ u.purse.lost = true ∧ u.purse.losses = inc32 s.purse.losses ∧ u.purse.grant = 0 ∧
      u.purse.t1 = false ∧ u.purse.t2 = false ∧ bit u.mode.haltNew 5 = true) ∧
  (∀ (s : State) (t : Nat), s.purse.lost = true → s.purse.lossRun = 0 → s.purse.railsOff = false →
    ∃ u, exec (.powerReturn t) s = .next u ∧ u.purse.lost = false) ∧
  (∀ (s : State) (t h : Nat), s.purse.lost = true → h ≤ s.nat PURSE.v_floor →
    ∃ u, exec (.holdFloor t h) s = .next u ∧ u.purse.railsOff = true ∧ u.purse.hold = h ∧ u.wake.supply = false ∧
      u.stage.running = false ∧ u.led.buf = [] ∧ u.led.slots = s.led.slots) ∧
  (∀ (s : State) (t : Nat), 1000 ≤ s.purse.overRun → s.purse.exceeded = false →
    ∃ u, exec (.grantExceeded t) s = .next u ∧ u.purse.exceeded = true ∧ u.purse.t2 = false)

/-- After R558, R559, R722: the sensor rails are limited and folded back, a rail that is low turns off, a bus is judged by its
reading, and an offer of energy enters its slices. -/
def Obligations.RailsAndBuses : Prop :=
  (∀ (s : State) (t m5 m12 : Nat),
    ∃ u, exec (.sensorSupply t m5 m12) s = .next u ∧ u.purse.limited = [decide (6000 ≤ m5), decide (12000 ≤ m12)] ∧
      (s.purse.sAllow ≤ m5 → u.purse.foldBack = [some s.purse.sAllow, some 0])) ∧
  (∀ (s : State) (t r : Nat), r < 2 → r < s.purse.railOff.length → s.purse.railOff.getD r none = none →
    ∃ u, exec (.railLow t r) s = .next u ∧ u.purse.railOff.getD r none = some (max s.now t)) ∧
  (∀ (s : State) (t b : Nat), b < 4 → b < s.purse.buses.length → s.nat BUS.ain b ≠ 0 →
    ∃ u, exec (.busEnergy t b) s = .next u ∧
      ((nth s.ain (s.nat BUS.ain b - 1)).sat = true → (s.bus b).susp = false → (u.bus b).susp = true ∧ (u.bus b).e = 0) ∧
      ((nth s.ain (s.nat BUS.ain b - 1)).sat = false → s.nat BUS.low_n b ≤ (s.bus b).lowRun → (s.bus b).low = false →
        (u.bus b).low = true) ∧
      ((nth s.ain (s.nat BUS.ain b - 1)).sat = false → (s.bus b).lowRun < s.nat BUS.low_n b →
        s.nat BUS.low_n b ≤ (s.bus b).highRun → (s.bus b).high = false → (u.bus b).high = true)) ∧
  (∀ (s : State) (t share unit z b : Nat) (inc : List (Int × Int)), b < 4 → b < s.purse.buses.length → unit ≠ s.unitId →
    s.nat BUS.ain b ≠ 0 → s.flag BUS.flags 1 b = true → s.nat BUS.share_id b = share →
    ∃ u, exec (.energyOffer t share unit z inc) s = .next u ∧
      u.bus b = inc.zipIdx.foldl (fun (x : Bus) i => x.add ((z : Int) + i.2, i.1.1, i.1.2)) (s.bus b))

/-- After R33, R34, R561, R563: the stage clock rises at a Stage boundary at least 100 µs after the grant of Sprint and not
before, and a request that has been absent for PURSE.sprint_hold Stages lapses. -/
def Obligations.SprintClock : Prop :=
  (∀ (s : State) (t : Nat), s.purse.sprint = true → s.clk.supplyRaised = true → s.clk.stage500 = false →
    (max s.now t = s.stage.openedAt → s.purse.sprintAt + 40000 ≤ max s.now t →
      ∃ u, exec (.sprintClockRise t) s = .next u ∧ u.clk = { s.clk with stage500 := true } ∧ u.purse = s.purse) ∧
    (max s.now t ≠ s.stage.openedAt ∨ max s.now t < s.purse.sprintAt + 40000 →
      ∃ u, exec (.sprintClockRise t) s = .next u ∧ u.clk = s.clk ∧ u.purse = s.purse)) ∧
  (∀ (s : State) (t : Nat), s.purse.sprintReq = true → s.nat PURSE.sprint_hold ≤ s.purse.sprintAbsent →
    ∃ u, exec (.sprintRequestLapse t) s = .next u ∧ u.purse = { s.purse with sprintReq := false } ∧ u.clk = s.clk)

/-- After R565, R567, R568: a sample takes the greatest temperature of a die as Tj and raises the level whose threshold is
reached, cooling for PURSE.cool undoes it, and sensors of a die that have differed for 1 s are marked, which adds 8 K. -/
def Obligations.ThermalLimits : Prop :=
  (∀ (s : State) (t : Nat) (l : List (Int × Int)),
    ∃ u, exec (.thermalSample t l) s = .next u ∧ u.purse.dieTemps = (List.range 3).map (fun k => nth l k) ∧
      (∀ k, k < 3 → u.purse.dieT k ≤ u.purse.tj) ∧ (∃ k, k < 3 ∧ u.purse.tj = u.purse.dieT k) ∧
      u.purse.temps.head? = some u.purse.tj ∧ s.purse.level ≤ u.purse.level ∧ levelAt u.purse.tj ≤ u.purse.level) ∧
  (∀ (s : State) (t k v : Nat), 1 ≤ k → k ≤ 3 → s.purse.level = k → s.purse.coolSince.getD (k - 1) none = some v →
    v + msCycles (s.nat PURSE.cool) ≤ max s.now t →
    ∃ u, exec (.thermalCool t) s = .next u ∧ u.purse.level < k ∧ u.purse.tj = s.purse.tj) ∧
  (∀ (s : State) (t d v : Nat), d < 3 → d < s.purse.plus8.length → s.purse.disSince.getD d none = some v →
    v + 400000000 ≤ max s.now t → s.purse.plus8.getD d false = false →
    ∃ u, exec (.sensorDisagreement t d) s = .next u ∧ u.purse.plus8.getD d false = true ∧ u.purse.dieT d ≤ u.purse.tj)

/-- R576, R602: a fault or critical occurrence goes to the Ledger whatever its route; in mode 2 an nEVT-routed occurrence drives
nEVT, once the LEDGER section has taken effect (R712), low until LEDGER.nevt_width cycles after the last one. -/
def Obligations.LedgerAndNevtRouting : Prop :=
  (∀ (s : State) (c v : Nat), 3 ≤ v → (s.routeOf c v).1 = true) ∧
  (∀ (s : State) (c v : Nat) (pl : List Octet), s.wake.ledgerOn = true → (s.routeOf c (max (s.sevOf c) v)).2.2 = true →
    (s.raise c pl v).led.nevtLow = true ∧ (s.raise c pl v).led.nevtLastAt = s.now) ∧
  (∀ (s : State) (t : Nat), s.nat LEDGER.nevt_mode = 2 → s.led.nevtLow = true →
    ∃ u, exec (.nevtPulseEnd t) s = .next u ∧
      u.led.nevtLow = decide (max s.now t < s.led.nevtLastAt + s.nat LEDGER.nevt_width))

/-- After R573, R586, R591 to R593, R601, R602: an occurrence is counted and recorded; old records and a FLUSH begin a flush; a
page that is programmed enters the flash; nEVT is acknowledged and its pulse ends. -/
def Obligations.LedgerRecords : Prop :=
  (∀ (s : State) (t c v : Nat) (pl : List Octet), codeBorne (c % 256) = true →
    ∃ u, exec (.ledgerOccurrence t c v pl) s = .next u ∧ u.led.raised = countUp s.led.raised (c % 256) ∧
      (s.led.state = .opened → s.led.buf = [] → s.led.cnt = [] → 0 < s.ledL → max (s.sevOf (c % 256)) v < 4 →
        u.led.nextSeq = s.led.nextSeq + 1 ∧
        u.led.buf.map (fun r => (r.seq, r.code, r.sev)) = [(some s.led.nextSeq, c % 256, max (s.sevOf (c % 256)) v)])) ∧
  (∀ (s : State) (t : Nat) (r : LedRec) (l : List LedRec), s.led.buf = r :: l →
    r.life + s.nat LEDGER.max_age * 1000000000 ≤ (s.tick t).life →
    ∃ u, exec (.ledgerMaxAge t) s = .next u ∧ u.led.flushing = true) ∧
  (∀ (s : State) (t : Nat) (bad : List Nat) (p : List LedRec), s.led.flushing = true → p = s.led.buf.takeWhile (·.begun) → p ≠ [] →
    s.led.state = .opened →
    ∃ u, exec (.pageProgrammed t bad) s = .next u ∧ u.led.ordUsed = s.led.ordUsed + p.length ∧
      u.led.slots.length = s.led.slots.length + p.length ∧
      u.led.voids = s.led.voids + ((List.range p.length).filter (fun k => bad.contains k)).length) ∧
  (∀ (s : State) (t v : Nat), bit v 1 = true → s.led.buf ≠ [] →
    ∃ u, exec (.flushBit t v) s = .next u ∧ u.led.flushing = true) ∧
  (∀ (s : State) (t src id : Nat), s.keptFor src id = none →
    ∃ u, exec (.flush t src id) s = .next u ∧ (s.led.buf ≠ [] → u.led.flushing = true) ∧
      u.replies = s.replies ++ [{ src := src, id := id, code := 0, detail := 0 }]) ∧
  (∀ (s : State) (t v : Nat), bit v 0 = true →
    ∃ u, exec (.nevtAck t v) s = .next u ∧ u.led.nevtLow = false ∧ u.led.nevtFresh = true) ∧
  (∀ (s : State) (t : Nat), s.nat LEDGER.nevt_mode = 2 → s.led.nevtLow = true →
    s.led.nevtLastAt + s.nat LEDGER.nevt_width ≤ max s.now t →
    ∃ u, exec (.nevtPulseEnd t) s = .next u ∧ u.led.nevtLow = false)

/-- After R583, R584, R599, R735: READ_FROM asks for the aperture and the fill answers it; the tick moves the life clock on, which
is persisted every hour; WRITE reaches the three fields that a write changes, and no other. -/
def Obligations.LedgerReadsAndClock : Prop :=
  (∀ (s : State) (t q : Nat),
    ∃ u, exec (.readFrom t q) s = .next u ∧ u.led.readFrom = q % 2 ^ 64 ∧ u.led.readAt = some (max s.now t)) ∧
  (∀ (s : State) (t v : Nat), max s.now t = s.stage.openedAt → s.led.readAt = some v → v + 40000 ≤ max s.now t →
    ∃ u, exec (.apertureFill t) s = .next u ∧ u.led.readAt = none ∧ u.led.aperture.length ≤ 8 ∧
      ∀ r ∈ u.led.aperture, ∃ k, k < 8 ∧ r.seq = some (s.led.readFrom + k)) ∧
  (∀ (s : State) (t : Nat), s.clk.rtcFault = false →
    ∃ u, exec (.rtcTick t) s = .next u ∧ u.led.life64 = s.led.life64 + 1953125 ∧ u.led.tickAt = max s.now t) ∧
  (∀ (s : State) (t : Nat), s.led.lifePersist + 3600000000000 ≤ (s.tick t).life →
    ∃ u, exec (.lifeClockPersist t) s = .next u ∧ u.led.lifePersist = (s.tick t).life) ∧
  (∀ (s : State) (t v : Nat), bit v 0 = true →
    ∃ u, exec (.clrResp t v) s = .next u ∧ (∀ x ∈ u.disp.tasks, x.respMax = 0) ∧ u.disp.queue = s.disp.queue) ∧
  (∀ (s : State) (t src id addr w v : Nat), s.keptFor src id = none →
    ∃ u, exec (.write t src id addr w v) s = .next u ∧
      (addr = 0x10004 → w = 4 → bit v 0 = true → ∀ x ∈ u.disp.tasks, x.respMax = 0) ∧
      (addr = 0x32004 → w = 4 → bit v 0 = true → u.led.nevtLow = false) ∧
      (addr = 0x32050 → w = 8 → u.led.readFrom = v % 2 ^ 64) ∧
      ((addr = 0x10004 ∧ w = 4) ∨ (addr = 0x32004 ∧ w = 4) ∨ (addr = 0x32050 ∧ w = 8) →
        u.replies = s.replies ++ [{ src := src, id := id, code := 0, detail := 0 }]) ∧
      (addr ≠ 0x10004 → addr ≠ 0x32004 → addr ≠ 0x32050 →
        u.replies = s.replies ++ [{ src := src, id := id, code := 5, detail := 0 }] ∧ u.led = s.led ∧ u.disp = s.disp))

/-- After R608, R610, R612 to R615: ageing is measured; a core supply that is low is a clock fault; the hold-up test becomes due,
starts and ends with the bank's figures, or is repeated. -/
def Obligations.AgeingAndHoldUp : Prop :=
  (∀ (s : State) (t : Nat) (n : List (Nat × Nat)), s.stw.agedAt = none →
    ∃ u, exec (.ageingMeasurement t n) s = .next u ∧ u.stw.agedAt = some (s.tick t).life ∧
      ∀ k, k < 20 → k < s.stw.pairD.length → (nth n k).2 ≠ 0 → nth s.stw.r0 k ≠ 0 →
        nth u.stw.pairD k = sat (1000000 * (((nth s.stw.r0 k : Nat) : Int) - (((nth n k).1 * 2 ^ 24 / (nth n k).2 : Nat) : Int)) /
          ((nth s.stw.r0 k : Nat) : Int)) 32) ∧
  (∀ (s : State) (t d : Nat),
    ∃ u, exec (.coreSupplyLow t d) s = .next u ∧ u.clk.motionHeld = true ∧ u.stage.running = false ∧ u.mode.mode = 6) ∧
  (∀ (s : State) (t src id : Nat), s.keptFor src id = none → s.stw.testFrom = none →
    ∃ u, exec (.holdTest t src id) s = .next u ∧ u.stw.testDue = true ∧
      u.replies = s.replies ++ [{ src := src, id := id, code := 7, detail := 0 }]) ∧
  (∀ (s : State) (t : Nat), s.stw.testFrom = none → s.stw.testRetry = none → s.stw.testLife = none →
    ∃ u, exec (.holdTestDue t) s = .next u ∧ u.stw.testDue = true) ∧
  (∀ (s : State) (t v : Nat), s.stw.testDue = true → s.stw.testFrom = none → s.testMode = true → s.stw.holdSince = some v →
    max s.now t = s.stage.openedAt → v + 4000000000 ≤ max s.now t → 0 < s.purse.grant → s.purse.lost = false →
    ∃ u, exec (.holdTestStart t) s = .next u ∧ u.stw.testFrom = some (max s.now t) ∧ u.stw.testDue = false) ∧
  (∀ (s : State) (t esr us v : Nat), s.stw.testFrom = some v → us ≤ 1000000 → 100 ≤ us / 20 → us / 20 ≤ 12000 → esr ≤ 5000 →
    ∃ u, exec (.holdTestEnd t esr (some us)) s = .next u ∧ u.purse.cap = us / 20 ∧ u.purse.esr = esr ∧ u.stw.testFrom = none) ∧
  (∀ (s : State) (t esr v : Nat), s.stw.testFrom = some v →
    ∃ u, exec (.holdTestEnd t esr none) s = .next u ∧ u.purse.cap = s.purse.cap ∧ u.stw.testFrom = none ∧
      u.stw.testRetry = some ((s.tick t).life + 3600000000000))

/-- After R624, R645, R646: a self-test that fails is the security error state; an attestation request is held until it is signed,
or turned away in that state. -/
def Obligations.SelfTestsAndAttestation : Prop :=
  (∀ (s : State) (t src id : Nat) (p : Bool), s.keptFor src id = none →
    ∃ u, exec (.selfTest t src id p) s = .next u ∧ u.replies = s.replies ++ [{ src := src, id := id, code := 7, detail := 0 }] ∧
      (p = false → u.stw.secError = true ∧ bit u.mode.haltNew 9 = true) ∧ (p = true → u.stw.secError = s.stw.secError)) ∧
  (∀ (s : State) (t : Nat) (p : Bool), s.stw.selfTestAt + 3600000000000 * s.nat STEWARD.selftest_h ≤ (s.tick t).life →
    ∃ u, exec (.periodicSelfTest t p) s = .next u ∧ u.stw.selfTestAt = (s.tick t).life ∧
      (p = false → u.stw.secError = true ∧ bit u.mode.haltNew 9 = true) ∧ (p = true → u.stw.secError = s.stw.secError)) ∧
  (∀ (s : State) (t src f : Nat) (n : List Octet), s.stw.secError = false → s.stw.idFault = false → s.stw.kill = false → f < 2 →
    s.stw.attest = none →
    ∃ u, exec (.attestRequest t src false n f) s = .next u ∧
      u.stw.attest = some { src := src, nonce := n, ek := bit f 0, keyless := false }) ∧
  (∀ (s : State) (t src f : Nat) (n : List Octet), s.stw.secError = true →
    ∃ u, exec (.attestRequest t src false n f) s = .next u ∧ u.stw = s.stw) ∧
  (∀ (s : State) (t : Nat) (q : AttReq), s.stw.attest = some q → s.purse.t1 = true →
    (∃ u, exec (.attestSigned t true) s = .next u ∧ u.stw.attest = s.stw.attQueue.head? ∧
      u.stw.attQueue = s.stw.attQueue.drop 1) ∧
    (∃ u, exec (.attestSigned t false) s = .next u ∧ u.stw.attest = none ∧ u.stw.secError = true ∧ bit u.mode.haltNew 9 = true))

/-- After R626, R627, R635, R636: the first chunk of an object begins its assembly, that of an image part also the erase of its
region; the erase ends; a part read back leaves its slot VERIFIED or INVALID. -/
def Obligations.ChunksAndParts : Prop :=
  (∀ (s : State) (t src ty ix : Nat) (c : Chunk), chunkIx ty = some ix → ix = 1 ∨ ix = 2 → ix < s.stw.asm.length →
    s.stw.secError = false → s.mode.mode ≠ 0 → c.rsvd = false → partAllowed ix c.part = true → c.offset = 0 → c.data ≠ [] →
    c.data.length < c.total → c.total ≤ areaOf c.part → s.asmOf ix = none →
    ∃ u, exec (.objectChunk t src ty c) s = .next u ∧
      u.asmOf ix = some { obj := c.obj, part := c.part, total := c.total, src := src, next := c.data.length, data := c.data }) ∧
  (∀ (s : State) (t src k : Nat) (c : Chunk), 0 < s.stw.asm.length → s.stw.secError = false → s.mode.mode ≠ 0 → c.rsvd = false →
    partAllowed 0 c.part = true → c.offset = 0 → c.data ≠ [] → c.data.length < c.total → c.total ≤ areaOf c.part →
    s.asmOf 0 = none → s.stw.verifying = none → s.stagingSlot = some k → k < s.stw.slots.length →
    ∃ u, exec (.updateBlock t src c) s = .next u ∧ (nth u.stw.slots k).state = 1 ∧
      (u.asmOf 0).map (fun a => (a.obj, a.part, a.next, a.erasing)) = some (c.obj, c.part, c.data.length, true)) ∧
  (∀ (s : State) (t : Nat) (a : Assembly), s.asmOf 0 = some a →
    ∃ u, exec (.partEraseDone t) s = .next u ∧ u.asmOf 0 = some { a with erasing := false }) ∧
  (∀ (s : State) (t k : Nat) (c : Container), s.stw.verifying = some k → k < s.stw.slots.length →
    ∃ u, exec (.partVerified t c) s = .next u ∧ u.stw.verifying = none ∧
      ((nth u.stw.slots k).state = 2 ∨ (nth u.stw.slots k).state = 3) ∧
      (s.stw.verifySrc.2.2 = 1 → (nth s.stw.slots k).fwStaged = true → s.containerCause 1 0 c ≠ none →
        (nth u.stw.slots k).state = 3) ∧
      (∀ w, s.stw.verifySrc.2.2 = 1 → (nth s.stw.slots k).fwStaged = true → s.containerCause 1 0 c = none →
        (nth s.stw.slots k).wbStaged = true →
        (nth s.stw.slots k).wb = some w → s.containerCause 2 c.api w = none → (nth u.stw.slots k).state = 2))

/-- After R628, R629, R632, R633, R637, R639: a complete object of part 2 is consumed by the row of its kind; refused, it is
answered with the first step that it fails; passed, it has the effect of its kind. The signature check is uninterpreted (log entry
9). -/
def Obligations.SignedObjects : Prop :=
  ∀ (s : State) (t : Nat) (a : Assembly), s.complete 2 = some a → 2 < s.stw.answers.length → s.stw.owners.length = 4 →
    s.stw.secError = false → s.stw.verifying = none → num a.data 5 1 ≠ 255 →
    (∀ c, (c = .ownerKeyFuse t ∧ num a.data 4 1 = 5) ∨ (c = .ownerKeyRevoke t ∧ num a.data 4 1 = 6) ∨
        (c = .zeroise t ∧ num a.data 4 1 = 7) ∨ (c = .activate t ∧ num a.data 4 1 = 8) ∨ (c = .commit t ∧ num a.data 4 1 = 9) ∨
        (c = .keyDelivery t ∧ num a.data 4 1 = 4) →
      ∃ u, exec c s = .next u ∧ u.asmOf 2 = none ∧ (s.objStatus a.part (readObj false a.data) ≠ 0 →
        u.stw.answers.getD 2 (0, 0) = (s.objStatus a.part (readObj false a.data), a.part) ∧ u.stw.owners = s.stw.owners ∧
        u.stw.slots = s.stw.slots ∧ u.stw.kill = s.stw.kill ∧ u.fab.keys = s.fab.keys)) ∧
    ∀ o, readObj false a.data = some o → s.objStatus a.part (some o) = 0 →
      (o.kind = 5 → num o.body 0 1 < 4 → (nth s.stw.owners (num o.body 0 1)).state = 0 →
        ∃ u, exec (.ownerKeyFuse t) s = .next u ∧ (nth u.stw.owners (num o.body 0 1)).state = 1 ∧
          (nth u.stw.owners (num o.body 0 1)).pk = sub o.body 8 64) ∧
      (o.kind = 6 → num o.body 0 1 < 4 → num o.body 0 1 ≠ o.signer →
        ¬((nth s.stw.owners (num o.body 0 1)).state = 1 ∧ (s.stw.owners.filter (fun x => x.state == 1)).length = 1) →
        ∃ u, exec (.ownerKeyRevoke t) s = .next u ∧ (nth u.stw.owners (num o.body 0 1)).state = 3) ∧
      (o.kind = 7 → num o.body 0 1 = 1 ∨ num o.body 0 1 = 2 → s.mode.mode = 6 ∨ s.mode.mode = 7 →
        ∃ u, exec (.zeroise t) s = .next u ∧ u.fab.keys = [] ∧ u.fab.keyCur = 0 ∧ (num o.body 0 1 = 2 → u.stw.kill = true)) ∧
      (o.kind = 8 → num o.body 0 1 < 2 → (nth s.stw.slots (num o.body 0 1)).state = 2 → s.mode.mode = 6 ∨ s.mode.mode = 7 →
        ∃ u, exec (.activate t) s = .next u ∧ (nth u.stw.slots (num o.body 0 1)).state = 5 ∧ u.stw.attempts = 0) ∧
      (o.kind = 9 → num o.body 0 1 < 2 → (nth s.stw.slots (num o.body 0 1)).state = 5 →
        ∃ u, exec (.commit t) s = .next u ∧ (nth u.stw.slots (num o.body 0 1)).state = 4) ∧
      (∀ key, o.kind = 4 → s.stw.idFault = false → s.stw.kill = false → num o.body 0 1 ≠ s.fab.keyCur →
        Config.kemOpen s.stw.seed (sub o.body 0x10 1568) (sub o.body 0x630 40 ++ [num o.body 0 1] ++ le 8 o.seq) = some key →
        ∃ u, exec (.keyDelivery t) s = .next u ∧ (num o.body 0 1, key) ∈ u.fab.keys)

/-- After R628, R640, R642: a complete amendment is consumed, and refused or appended to the journal; at a boundary it takes
effect. After R623, R630, R644: an unsigned owner-key object is taken from the service port alone; a delivered key becomes current
at its boundary; a compaction ends. -/
def Obligations.AmendmentsAndKeys : Prop :=
  ((∀ (s : State) (t : Nat) (a : Assembly), s.complete 1 = some a → 1 < s.stw.answers.length → s.stw.owners.length = 4 →
     s.stw.secError = false →
     ∃ u, exec (.amendment t) s = .next u ∧ u.asmOf 1 = none ∧ u.cfg = s.cfg ∧
       (s.objStatus a.part (readObj false a.data) ≠ 0 →
         u.stw.answers.getD 1 (0, 0) = (s.objStatus a.part (readObj false a.data), a.part) ∧ u.stw.journal = s.stw.journal) ∧
       ∀ o c, readObj false a.data = some o → s.objStatus a.part (some o) = 0 → s.mode.mode ≠ 0 → sub o.body 0 64 = s.wbDigest →
         cellsOf ((amdEntries (num o.body 0x40 2) (o.body.drop 0x48)).getD []) = .ok c →
         State.cellsStatus c { s with cfg := s.newest } = 0 → s.stw.amds.length < 16 → s.stw.jFull = false → s.stw.compacting = false →
         s.stw.jUsed + entryRoom c ≤ journalHalf →
         u.stw.amds.length = s.stw.amds.length + 1 ∧ u.stw.journal.length = s.stw.journal.length + 1) ∧
   (∀ (s : State) (t : Nat) (p : PendAmd), max s.now t = s.stage.openedAt → s.stw.amds = [p] → s.groupReady p.grp = true →
     s.survey.pend = [] →
     ∃ u, exec (.amendmentCommit t) s = .next u ∧ u.cfg = applyCells s.cfg p.cells ∧ u.stw.amds = [])) ∧
  ((∀ (s : State) (t : Nat) (a : Assembly), s.complete 2 = some a → num a.data 5 1 = 255 → s.stw.secError = false →
     s.stw.owners.length = 4 → 2 < s.stw.answers.length →
     ∃ u, exec (.unsignedOwnerKey t) s = .next u ∧ u.asmOf 2 = none ∧
       (a.src ≠ 65536 → u.stw.answers.getD 2 (0, 0) = (6, a.part) ∧ u.stw.owners = s.stw.owners) ∧
       (∀ o, a.src = 65536 → readObj true a.data = some o → s.unsignedStatus a.part (some o) = 0 →
         nth u.stw.owners 0 = { state := 1, pk := sub o.body 8 64, lastSeq := 1 } ∧
         (u.wake.resetting = true ∨ u.wake.phase = 0))) ∧
   (∀ (s : State) (t gen : Nat), s.stw.keyAt = some (gen, 0) → max s.now t = s.stage.openedAt → s.fab.keyOther = gen →
     ∃ u, exec (.keyActivation t) s = .next u ∧ u.fab.keyCur = gen ∧ u.fab.keyOther = s.fab.keyCur ∧ u.stw.keyAt = none ∧
       u.fab.keys = s.fab.keys) ∧
   (∀ (s : State) (t : Nat), s.stw.compacting = true →
     ∃ u, exec (.journalCompactionDone t) s = .next u ∧ u.stw.compacting = false))

/-- After R547, R717, R724: the supply begins a Waking; nRESET holds the motion die and flushes the Ledger; its release ends the
reset. After R58, R637, R660 to R667, R673: a Waking takes its slot; a container that passes is taken, one that fails in the BOOT
slot leaves bare Halt; the containers are loaded, the sections checked; the replay of the journal begins Stage 0. -/
def Obligations.SupplyAndReset : Prop :=
  ((∀ (s : State) (t : Nat), s.wake.supply = false →
     ∃ u, exec (.supplyUp t) s = .next u ∧ u.wake.supply = true ∧ u.wake.phase = 0 ∧ u.wake.from_ = max s.now t ∧
       u.stage.running = false ∧ u.stw.owners = s.stw.owners ∧ u.led.slots = s.led.slots) ∧
   (∀ (s : State) (t : Nat), s.wake.supply = true → s.wake.resetting = false → s.led.buf ≠ [] →
     ∃ u, exec (.nresetAssert t) s = .next u ∧ u.wake.resetLow = true ∧ u.wake.resetting = true ∧ u.clk.motionHeld = true ∧
       u.stage.running = false ∧ u.led.powerFlush = true) ∧
   (∀ (s : State) (t : Nat), ∃ u, exec (.nresetRelease t) s = .next u ∧ u.wake.resetLow = false ∧
     (s.wake.resetting = false → s.wake.phase = 0 → u.wake.from_ = max s.now t))) ∧
  ((∀ (s : State) (t k : Nat) (n : NorFacts), s.wake.supply = true → s.wake.resetLow = false → s.wake.resetting = false →
     s.wake.phase = 0 → s.owned = true → n.present = true → 256 ≤ n.mbit → s.slotIn 5 = none → s.slotIn 4 = some k →
     ∃ u, exec (.waking t [] n) s = .next u ∧ u.wake.phase = 1 ∧ u.wake.slot = k ∧ u.wake.trial = false ∧
       u.stw.boots = s.stw.boots + 1 ∧ u.clk.motionHeld = false) ∧
   (∀ (s : State) (t : Nat) (c : Container), s.wake.phase = 1 →
     ∃ u, exec (.containerChecked t 1 c) s = .next u ∧
       (s.containerCause 1 0 c = none → u.wake.phase = 2 ∧ u.wake.fw = c) ∧
       (s.containerCause 1 0 c ≠ none → s.wake.trial = false → u.wake.bare = true ∧ u.wake.phase = 8 ∧ u.mode.mode = 6)) ∧
   (∀ (s : State) (t : Nat) (c : Container), s.wake.phase = 2 →
     ∃ u, exec (.containerChecked t 2 c) s = .next u ∧
       (s.containerCause 2 s.wake.fw.api c = none → u.wake.phase = 3 ∧ u.wake.wb = c) ∧
       (s.containerCause 2 s.wake.fw.api c ≠ none → s.wake.trial = false →
         u.wake.bare = true ∧ u.wake.phase = 8 ∧ u.mode.mode = 6)) ∧
   (∀ (s : State) (t : Nat) (x y : List Octet), s.wake.phase = 3 →
     ∃ u, exec (.containerLoaded t x y) s = .next u ∧
       (x = s.wake.fw.digest → y = s.wake.wb.digest → u.wake.phase = 4) ∧
       (x ≠ s.wake.fw.digest ∨ y ≠ s.wake.wb.digest → s.wake.trial = false → u.wake.bare = true ∧ u.wake.phase = 8)) ∧
   (∀ (s : State) (t : Nat), s.wake.phase = 4 →
     ∃ u, exec (.sectionCheck t) s = .next u ∧ ((s.tick t).sectionFault = none → u.wake.phase = 5) ∧
       ((s.tick t).sectionFault ≠ none → s.wake.trial = false → u.wake.bare = true ∧ u.wake.phase = 8)) ∧
   (∀ (s : State) (t : Nat), s.wake.phase = 5 →
     ∃ u, exec (.journalReplay t) s = .next u ∧ u.wake.phase = 6 ∧ u.stage.running = true ∧ u.stage.openedAt = max s.now t ∧
       u.stage.epoch = 0xFFFFFFFFFFFF ∧ u.acq.from_ = some 0 ∧ u.disp.tasks.length = s.graph.tasks.length))

/-- After R670, R671, R684, R694 to R696: the outputs are released, or Waking ends in Halt with cause 10; a mode command is held;
a rescue chooses its landing, and its hold ends. After R697 to R700: Lodge is asked for, entered from Halt with every output off,
woken from, and left with the offsets acquired anew. -/
def Obligations.ReleaseRescueLodge : Prop :=
  ((∀ (s : State) (t : Nat), max s.now t = s.stage.openedAt → s.mode.released = false → s.acquired = true → s.purse.t0 = true →
     s.permitThrough = true →
     ∃ u, exec (.releaseOutputs t) s = .next u ∧
       (s.wake.phase = 6 → u.mode.released = true ∧ u.wake.phase = 7 ∧ u.wake.releaseEpoch = s.stage.epoch) ∧
       (s.wake.phase = 7 → s.mode.mode ≠ 7 → bit s.mode.halt 10 = false → u.mode.released = true ∧ u.mode.mode = s.mode.mode)) ∧
   (∀ (s : State) (t : Nat), s.wake.phase = 6 → s.nat PURSE.v_full ≤ s.purse.hold + 500 → s.purse.t0 = false →
     ∃ u, exec (.wakingTimeout t) s = .next u ∧ u.wake.phase = 7 ∧ u.mode.mode = 6 ∧ bit u.mode.halt 10 = true) ∧
   (∀ (s : State) (t src id m eff : Nat), s.keptFor src id = none → s.win.cmds.length < 16 → s.win.taken = [] →
     (∀ h ∈ s.win.cmds, h.id ≠ id) → src ≠ 65536 → s.inPair = false → eff = 0 ∨ s.stage.epoch < eff →
     ∃ u, exec (.modeCommand t src id m eff) s = .next u ∧
       u.win.cmds = s.win.cmds ++ [{ src := src, id := id, eff := eff, cmd := .mode m }]) ∧
   (∀ (s : State) (t c a l : Nat), s.clk.motionHeld = false → c < s.cars.length → c < s.mode.rescue.length → s.carAxis c = some a → s.mode.mode = 5 →
     (s.rescueOf c).active = true → (s.rescueOf c).chosen = false → (s.axOf a).standstill = true →
     (s.rescueOf c).since + s.nat AXIS.dwell a ≤ max s.now t → s.nearestLanding c (s.car c).pc (fun _ => true) = some l →
     ∃ u, exec (.rescue t c) s = .next u ∧ (u.rescueOf c).chosen = true ∧
       (u.car c).assigned = some (u.rescueOf c).landing ∧ ((u.rescueOf c).dir = 1 ∨ (u.rescueOf c).dir = -1)) ∧
   (∀ (s : State) (t c d v : Nat), s.clk.motionHeld = false → s.mode.mode = 5 → (s.rescueOf c).arrived = true → d ∈ s.doorsOf c → d < s.doors.length →
     (s.door d).st = 3 → (s.door d).holdEnd = some v → v ≤ max s.now t →
     ∃ u, exec (.rescueHoldEnd t c) s = .next u ∧ (u.door d).holdOver = true)) ∧
  ((∀ (s : State) (t v : Nat), s.mode.t0Since = some v → v + 400000000 ≤ max s.now t →
     ∃ u, exec (.lodgeIdle t) s = .next u ∧ u.mode.lodgeReq = true ∧ u.mode.mode = s.mode.mode) ∧
   (∀ (s : State) (t : Nat), s.mode.mode = 6 → s.mode.lodgeReq = true → max s.now t = s.stage.openedAt →
     (∀ x ∈ s.axe, x.enabled = false) →
     ∃ u, exec (.lodgeEntry t) s = .next u ∧ u.mode.mode = 7 ∧ u.mode.released = false ∧ u.mode.lanesOff = true ∧
       u.mode.lodgeReq = false ∧ u.disp.started = false ∧ u.twin.grant = false) ∧
   (∀ (s : State) (t x i : Nat), s.mode.mode = 7 → s.mode.waking = false → max s.now t = s.stage.openedAt →
     (s.tick t).wakeDue x i = true →
     ∃ u, exec (.lodgeWake t x i) s = .next u ∧ u.mode.mode = 7 ∧
       (s.purse.t0 = true → u.mode.waking = true ∧ u.mode.lodgeWakes = inc32 s.mode.lodgeWakes ∧ u.mode.wakePending = none) ∧
       (s.purse.t0 = false → u.mode.waking = false ∧ u.mode.wakePending = some (x, i))) ∧
   (∀ (s : State) (t : Nat), s.mode.mode = 7 → s.mode.waking = true → s.mode.lanesOff = true →
     ∃ u, exec (.lodgeSupplyRestored t) s = .next u ∧ u.mode.lanesOff = false ∧ u.acq.done = false ∧
       u.acq.from_ = some (s.stage.boundaries + 1) ∧ ∀ x ∈ u.ch, x.acqCount = 0 ∧ x.acqSum = 0))

/-- After R730 to R732, R739 to R742: a read is held or answered with its status, a held one is served from one epoch; a service
transaction is refused, counted as an error or taken, and a reply is clocked out. -/
def Obligations.WindowAndService : Prop :=
  (∀ (s : State) (t src : Nat) (r : WinRead),
    ∃ u, exec (.windowRead t src r) s = .next u ∧
      ((s.tick t).readStatus src r = 0 → u.win.reads.map (fun h => (h.src, h.read)) =
        s.win.reads.map (fun h => (h.src, h.read)) ++ [(src, r)]) ∧
      ((s.tick t).readStatus src r ≠ 0 → u.win.reads = s.win.reads)) ∧
  (∀ (s : State) (t : Nat) (h : HeldRead), s.stage.running = true → s.stage.epoch ≠ 0xFFFFFFFFFFFF →
    s.stage.noticed = some s.stage.boundaries → s.win.reads = [h] → h.due = true → h.read.at_ = false →
    s.win.copied + h.read.len ≤ 16384 →
    ∃ u, exec (.windowReadServe t) s = .next u ∧ u.win.reads = [] ∧ u.win.served = inc32 s.win.served ∧
      u.win.copied = s.win.copied + h.read.len ∧
      (h.src = 65536 → u.win.svcQueue.getLast? = some (.windowData h.read.req h.read.addr 0 s.view.stage.epoch
        (State.windowBytes { (s.tick t) with win := { s.win with reads := [] } } h.read.addr h.read.len)))) ∧
  (∀ (s : State) (t op len crc : Nat) (m : Msg), s.svcOpen = true →
    ∃ u, exec (.serviceWriteTransaction t op len crc m) s = .next u ∧
      (s.svcFull = true → u.win.svcRefused = inc32 s.win.svcRefused ∧ u.win.reads = s.win.reads) ∧
      (s.svcFull = false → len ≠ (msgBytes m).length ∨ msgType m ≠ op ∨ crc ≠ svcCrc op (msgBytes m) →
        u.win.svcErrors = inc32 s.win.svcErrors ∧ u.win.reads = s.win.reads) ∧
      (∀ r, s.svcFull = false → len = (msgBytes m).length → msgType m = op → crc = svcCrc op (msgBytes m) →
        s.svcAdmits op m = true → m = .windowRead r → (s.tick t).readStatus 65536 r = 0 →
        u.win.reads.length = s.win.reads.length + 1 ∧ u.win.svcErrors = s.win.svcErrors)) ∧
  (∀ (s : State) (t : Nat) (w : Bool), s.svcOpen = true →
    ∃ u, exec (.serviceReadTransaction t w) s = .next u ∧ u.win.svcOut = s.svcAnswer ∧
      u.win.svcQueue = (if w then s.win.svcQueue.drop 1 else s.win.svcQueue))
end

