-- ==== Sys2Proof/Laws/Store.lean ====
section
/-! SUPPORT. The waybill store keeps its canonical form, and an address reads what was last written to it. -/

namespace Sys2Proof.Machine

theorem cellLt_trans {a b c : Cell} (h : cellLt a b = true) (k : cellLt b c = true) : cellLt a c = true := by
  simp only [cellLt, Bool.or_eq_true, Bool.and_eq_true, decide_eq_true_eq, beq_iff_eq] at *
  omega

/-- One write keeps the canonical form. -/
theorem cellSet_wf (c : List Cell) (x : Cell) (h : cellsWf c) : cellsWf (cellSet c x) := by
  obtain ⟨hp, hz⟩ := h
  have hmid : (if x.val = 0 then ([] : List Cell) else [x]).Pairwise (fun a b => cellLt a b = true) := by split <;> simp
  have hmem : ∀ y ∈ (if x.val = 0 then ([] : List Cell) else [x]), y = x ∧ y.val ≠ 0 := by
    intro y hy
    split at hy
    · cases hy
    · simp at hy; subst hy; exact ⟨rfl, by assumption⟩
  refine ⟨?_, ?_⟩
  · unfold cellSet
    rw [List.pairwise_append, List.pairwise_append]
    refine ⟨⟨hp.filter _, hmid, ?_⟩, hp.filter _, ?_⟩
    · intro a ha b hb
      rw [(hmem b hb).1]
      exact (List.mem_filter.mp ha).2
    · intro a ha b hb
      have hxb := (List.mem_filter.mp hb).2
      rcases List.mem_append.mp ha with ha | ha
      · exact cellLt_trans (List.mem_filter.mp ha).2 hxb
      · rw [(hmem a ha).1]; exact hxb
  · intro y hy
    unfold cellSet at hy
    rcases List.mem_append.mp hy with hy | hy
    · rcases List.mem_append.mp hy with hy | hy
      · exact hz y (List.mem_filter.mp hy).1
      · exact (hmem y hy).2
    · exact hz y (List.mem_filter.mp hy).1

/-- Writing cells keeps the canonical form. -/
theorem applyCells_wf (l : List Cell) : ∀ c : List Cell, cellsWf c → cellsWf (applyCells c l) := by
  unfold applyCells
  induction l with
  | nil => intro c h; exact h
  | cons x l ih => intro c h; exact ih _ (cellSet_wf c x h)

theorem nil_wf : cellsWf [] := ⟨List.Pairwise.nil, fun _ h => by cases h⟩

theorem ite_wf (c : Prop) [Decidable c] (l : List Cell) : cellsWf (if c then applyCells [] l else []) := by
  split
  · exact applyCells_wf _ _ nil_wf
  · exact nil_wf

end Sys2Proof.Machine
end

