-- ==== Sys2Proof/Laws/Keeps.lean ====
section
/-! SUPPORT. What an operation leaves: `Keeps W s t` says that `t` comes from `s` by changes to the fields of W alone, that the
clock has not gone back, and that the invariant of Safety.lean still holds. Each operation has one law of this kind, in the file
named after its own. -/

namespace Sys2Proof.Machine

/-- Every field named in V is named in W. -/
def within (V W : List Fld) : Bool := V.all (fun x => W.contains x)

structure Keeps (W : List Fld) (s t : State) : Prop where
  clock : s.now ≤ t.now
  inv : s.Inv → t.Inv
  same : ∀ x : Fld, x ∉ W → Same s t x

/-- The same of an operation that answers a value beside the state. -/
abbrev Keeps1 {α : Type} (W : List Fld) (s : State) (r : State × α) : Prop := Keeps W s r.1

abbrev Keeps2 {α : Type} (W : List Fld) (s : State) (r : α × State) : Prop := Keeps W s r.2

/-- A command answers a next state, and changes only the fields of W. -/
def Runs (W : List Fld) (s : State) (a : Answer) : Prop := ∃ u, a = .next u ∧ Keeps W s u

theorem Same.refl (s : State) (x : Fld) : Same s s x := by cases x <;> rfl

theorem Same.trans {s t u : State} {x : Fld} (h : Same s t x) (k : Same t u x) : Same s u x := by
  cases x <;> exact Eq.trans k h

theorem within_mem {V W : List Fld} (h : within V W = true) {x : Fld} (hx : x ∉ W) : x ∉ V := by
  intro hv
  have := List.all_eq_true.mp h x hv
  exact hx (List.contains_iff_mem.mp this)

theorem within_trans {V W X : List Fld} (h : within V W = true) (k : within W X = true) : within V X = true :=
  List.all_eq_true.mpr fun x hx => by
    have := List.contains_iff_mem.mp (List.all_eq_true.mp h x hx)
    exact List.all_eq_true.mp k x this

namespace Keeps

theorem refl (W : List Fld) (s : State) : Keeps W s s := ⟨Nat.le_refl _, id, fun x _ => Same.refl s x⟩

theorem trans {W : List Fld} {s t u : State} (h : Keeps W s t) (k : Keeps W t u) : Keeps W s u :=
  ⟨Nat.le_trans h.clock k.clock, fun i => k.inv (h.inv i), fun x hx => (h.same x hx).trans (k.same x hx)⟩

theorem mono {V W : List Fld} {s t : State} (h : Keeps V s t) (w : within V W = true) : Keeps W s t :=
  ⟨h.clock, h.inv, fun x hx => h.same x (within_mem w hx)⟩

/-- A law of an operation, after what led to the state it works on. -/
theorem after {V W : List Fld} {s t u : State} (h : Keeps V t u) (k : Keeps W s t) (w : within V W = true) : Keeps W s u :=
  k.trans (h.mono w)

theorem onto {W : List Fld} {s t u : State} (k : Keeps W s t) (V : List Fld) (w : within V W = true) (h : Keeps V t u) :
    Keeps W s u := h.after k w

theorem ite {W : List Fld} {s a b : State} {c : Prop} [Decidable c] (h : Keeps W s a) (k : Keeps W s b) :
    Keeps W s (if c then a else b) := by split <;> assumption

/-- A state on the way. -/
theorem viaKeeps {W : List Fld} {s x t : State} (h : Keeps W s x) (k : Keeps W s x → Keeps W s t) : Keeps W s t := k h

theorem viaKeeps1 {α : Type} {W : List Fld} {s t : State} {x : State × α} (h : Keeps1 W s x) (k : Keeps1 W s x → Keeps W s t) :
    Keeps W s t := k h

theorem viaKeeps2 {α : Type} {W : List Fld} {s t : State} {x : α × State} (h : Keeps2 W s x) (k : Keeps2 W s x → Keeps W s t) :
    Keeps W s t := k h

/-- A local function on the way. -/
theorem viaP {W : List Fld} {s t : State} (P : List Fld → Prop) (h : P W) (k : P W → Keeps W s t) : Keeps W s t := k h

/-- One update of several fields. -/
theorem of {V : List Fld} {s t : State} (hn : t.now = s.now) (hc : t.cax = s.cax) (hg : cellsWf s.cfg → cellsWf t.cfg)
    (h : ∀ x : Fld, V.contains x = true ∨ Same s t x) : Keeps V s t :=
  ⟨Nat.le_of_eq hn.symm, fun i => ⟨by unfold State.gatesExclusive; rw [hc]; exact i.1, hg i.2⟩, fun x hx =>
    (h x).resolve_left (fun c => hx (List.contains_iff_mem.mp c))⟩

theorem foldl {W : List Fld} {s : State} {α : Type} {f : State → α → State} (h : ∀ t a, Keeps W s t → Keeps W s (f t a))
    {t : State} (k : Keeps W s t) (l : List α) : Keeps W s (l.foldl f t) := by
  induction l generalizing t with
  | nil => exact k
  | cons a l ih => exact ih (h t a k)

theorem eachIx {W : List Fld} {s : State} {n : Nat} {f : Nat → State → State}
    (h : ∀ i t, Keeps W s t → Keeps W s (f i t)) {t : State} (k : Keeps W s t) : Keeps W s (eachIx n f t) :=
  foldl (fun t a => h a t) k _

/-- The frame as one equation: the fields that the law does not name are those of the state before. -/
theorem get {W : List Fld} {s t : State} (h : Keeps W s t) (x : Fld) (w : W.contains x = false) : Same s t x :=
  h.same x (by simpa using w)

/-! One update of one field. -/

theorem pending (s : State) (v : List Instr) : Keeps [.pending] s { s with pending := v } :=
  ⟨Nat.le_refl _, id, fun x h => by cases x <;> first | rfl | exact absurd (List.mem_singleton.mpr rfl) h⟩

theorem freeIx (s : State) (v : Nat) : Keeps [.freeIx] s { s with freeIx := v } :=
  ⟨Nat.le_refl _, id, fun x h => by cases x <;> first | rfl | exact absurd (List.mem_singleton.mpr rfl) h⟩

theorem graph (s : State) (v : Graph) : Keeps [.graph] s { s with graph := v } :=
  ⟨Nat.le_refl _, id, fun x h => by cases x <;> first | rfl | exact absurd (List.mem_singleton.mpr rfl) h⟩

theorem kernels (s : State) (v : List KernelEntry) : Keeps [.kernels] s { s with kernels := v } :=
  ⟨Nat.le_refl _, id, fun x h => by cases x <;> first | rfl | exact absurd (List.mem_singleton.mpr rfl) h⟩

theorem links (s : State) (v : List Link) : Keeps [.links] s { s with links := v } :=
  ⟨Nat.le_refl _, id, fun x h => by cases x <;> first | rfl | exact absurd (List.mem_singleton.mpr rfl) h⟩

theorem clk (s : State) (v : Clocks) : Keeps [.clk] s { s with clk := v } :=
  ⟨Nat.le_refl _, id, fun x h => by cases x <;> first | rfl | exact absurd (List.mem_singleton.mpr rfl) h⟩

theorem stage (s : State) (v : Stage) : Keeps [.stage] s { s with stage := v } :=
  ⟨Nat.le_refl _, id, fun x h => by cases x <;> first | rfl | exact absurd (List.mem_singleton.mpr rfl) h⟩

theorem disp (s : State) (v : Disp) : Keeps [.disp] s { s with disp := v } :=
  ⟨Nat.le_refl _, id, fun x h => by cases x <;> first | rfl | exact absurd (List.mem_singleton.mpr rfl) h⟩

theorem trims (s : State) (v : List Trim) : Keeps [.trims] s { s with trims := v } :=
  ⟨Nat.le_refl _, id, fun x h => by cases x <;> first | rfl | exact absurd (List.mem_singleton.mpr rfl) h⟩

theorem scTrims (s : State) (v : List (Trim × Trim)) : Keeps [.scTrims] s { s with scTrims := v } :=
  ⟨Nat.le_refl _, id, fun x h => by cases x <;> first | rfl | exact absurd (List.mem_singleton.mpr rfl) h⟩

theorem ain (s : State) (v : List Ain) : Keeps [.ain] s { s with ain := v } :=
  ⟨Nat.le_refl _, id, fun x h => by cases x <;> first | rfl | exact absurd (List.mem_singleton.mpr rfl) h⟩

theorem t16 (s : State) (v : Int) : Keeps [.t16] s { s with t16 := v } :=
  ⟨Nat.le_refl _, id, fun x h => by cases x <;> first | rfl | exact absurd (List.mem_singleton.mpr rfl) h⟩

theorem fb (s : State) (v : List Fb) : Keeps [.fb] s { s with fb := v } :=
  ⟨Nat.le_refl _, id, fun x h => by cases x <;> first | rfl | exact absurd (List.mem_singleton.mpr rfl) h⟩

theorem snap (s : State) (v : List FbSnap) : Keeps [.snap] s { s with snap := v } :=
  ⟨Nat.le_refl _, id, fun x h => by cases x <;> first | rfl | exact absurd (List.mem_singleton.mpr rfl) h⟩

theorem snapPrev (s : State) (v : List FbSnap) : Keeps [.snapPrev] s { s with snapPrev := v } :=
  ⟨Nat.le_refl _, id, fun x h => by cases x <;> first | rfl | exact absurd (List.mem_singleton.mpr rfl) h⟩

theorem din (s : State) (v : List Din) : Keeps [.din] s { s with din := v } :=
  ⟨Nat.le_refl _, id, fun x h => by cases x <;> first | rfl | exact absurd (List.mem_singleton.mpr rfl) h⟩

theorem dinSnap (s : State) (v : DinSnap) : Keeps [.dinSnap] s { s with dinSnap := v } :=
  ⟨Nat.le_refl _, id, fun x h => by cases x <;> first | rfl | exact absurd (List.mem_singleton.mpr rfl) h⟩

theorem dinPrev (s : State) (v : DinSnap) : Keeps [.dinPrev] s { s with dinPrev := v } :=
  ⟨Nat.le_refl _, id, fun x h => by cases x <;> first | rfl | exact absurd (List.mem_singleton.mpr rfl) h⟩

theorem emu (s : State) (v : List Emu) : Keeps [.emu] s { s with emu := v } :=
  ⟨Nat.le_refl _, id, fun x h => by cases x <;> first | rfl | exact absurd (List.mem_singleton.mpr rfl) h⟩

theorem ch (s : State) (v : List Chan) : Keeps [.ch] s { s with ch := v } :=
  ⟨Nat.le_refl _, id, fun x h => by cases x <;> first | rfl | exact absurd (List.mem_singleton.mpr rfl) h⟩

theorem acq (s : State) (v : Acq) : Keeps [.acq] s { s with acq := v } :=
  ⟨Nat.le_refl _, id, fun x h => by cases x <;> first | rfl | exact absurd (List.mem_singleton.mpr rfl) h⟩

theorem ax (s : State) (v : List Axis) : Keeps [.ax] s { s with ax := v } :=
  ⟨Nat.le_refl _, id, fun x h => by cases x <;> first | rfl | exact absurd (List.mem_singleton.mpr rfl) h⟩

theorem axe (s : State) (v : List Axis) : Keeps [.axe] s { s with axe := v } :=
  ⟨Nat.le_refl _, id, fun x h => by cases x <;> first | rfl | exact absurd (List.mem_singleton.mpr rfl) h⟩

theorem axPrevRef (s : State) (v : List Int) : Keeps [.axPrevRef] s { s with axPrevRef := v } :=
  ⟨Nat.le_refl _, id, fun x h => by cases x <;> first | rfl | exact absurd (List.mem_singleton.mpr rfl) h⟩

theorem book (s : State) (v : List AxisBook) : Keeps [.book] s { s with book := v } :=
  ⟨Nat.le_refl _, id, fun x h => by cases x <;> first | rfl | exact absurd (List.mem_singleton.mpr rfl) h⟩

theorem axAt (s : State) (v : List (AxInstant × AxInstant × AxInstant)) : Keeps [.axAt] s { s with axAt := v } :=
  ⟨Nat.le_refl _, id, fun x h => by cases x <;> first | rfl | exact absurd (List.mem_singleton.mpr rfl) h⟩

theorem pg (s : State) (v : List Pg) : Keeps [.pg] s { s with pg := v } :=
  ⟨Nat.le_refl _, id, fun x h => by cases x <;> first | rfl | exact absurd (List.mem_singleton.mpr rfl) h⟩

theorem pgBook (s : State) (v : List PgBook) : Keeps [.pgBook] s { s with pgBook := v } :=
  ⟨Nat.le_refl _, id, fun x h => by cases x <;> first | rfl | exact absurd (List.mem_singleton.mpr rfl) h⟩

theorem gc (s : State) (v : List Gc) : Keeps [.gc] s { s with gc := v } :=
  ⟨Nat.le_refl _, id, fun x h => by cases x <;> first | rfl | exact absurd (List.mem_singleton.mpr rfl) h⟩

theorem cap (s : State) (v : List Cap) : Keeps [.cap] s { s with cap := v } :=
  ⟨Nat.le_refl _, id, fun x h => by cases x <;> first | rfl | exact absurd (List.mem_singleton.mpr rfl) h⟩

theorem cmp (s : State) (v : List Cmp) : Keeps [.cmp] s { s with cmp := v } :=
  ⟨Nat.le_refl _, id, fun x h => by cases x <;> first | rfl | exact absurd (List.mem_singleton.mpr rfl) h⟩

theorem home (s : State) (v : List Home) : Keeps [.home] s { s with home := v } :=
  ⟨Nat.le_refl _, id, fun x h => by cases x <;> first | rfl | exact absurd (List.mem_singleton.mpr rfl) h⟩

theorem pre (s : State) (v : Shadow) : Keeps [.pre] s { s with pre := v } :=
  ⟨Nat.le_refl _, id, fun x h => by cases x <;> first | rfl | exact absurd (List.mem_singleton.mpr rfl) h⟩

theorem replies (s : State) (v : List Reply) : Keeps [.replies] s { s with replies := v } :=
  ⟨Nat.le_refl _, id, fun x h => by cases x <;> first | rfl | exact absurd (List.mem_singleton.mpr rfl) h⟩

theorem survey (s : State) (v : Survey) : Keeps [.survey] s { s with survey := v } :=
  ⟨Nat.le_refl _, id, fun x h => by cases x <;> first | rfl | exact absurd (List.mem_singleton.mpr rfl) h⟩

theorem cars (s : State) (v : List Car) : Keeps [.cars] s { s with cars := v } :=
  ⟨Nat.le_refl _, id, fun x h => by cases x <;> first | rfl | exact absurd (List.mem_singleton.mpr rfl) h⟩

theorem doors (s : State) (v : List Door) : Keeps [.doors] s { s with doors := v } :=
  ⟨Nat.le_refl _, id, fun x h => by cases x <;> first | rfl | exact absurd (List.mem_singleton.mpr rfl) h⟩

theorem dsp (s : State) (v : Dsp) : Keeps [.dsp] s { s with dsp := v } :=
  ⟨Nat.le_refl _, id, fun x h => by cases x <;> first | rfl | exact absurd (List.mem_singleton.mpr rfl) h⟩

theorem safe (s : State) (v : Safe) : Keeps [.safe] s { s with safe := v } :=
  ⟨Nat.le_refl _, id, fun x h => by cases x <;> first | rfl | exact absurd (List.mem_singleton.mpr rfl) h⟩

theorem time (s : State) (v : TimeSt) : Keeps [.time] s { s with time := v } :=
  ⟨Nat.le_refl _, id, fun x h => by cases x <;> first | rfl | exact absurd (List.mem_singleton.mpr rfl) h⟩

theorem fab (s : State) (v : Fab) : Keeps [.fab] s { s with fab := v } :=
  ⟨Nat.le_refl _, id, fun x h => by cases x <;> first | rfl | exact absurd (List.mem_singleton.mpr rfl) h⟩

theorem cons (s : State) (v : List SafeCon) : Keeps [.cons] s { s with cons := v } :=
  ⟨Nat.le_refl _, id, fun x h => by cases x <;> first | rfl | exact absurd (List.mem_singleton.mpr rfl) h⟩

theorem xd (s : State) (v : List Xd) : Keeps [.xd] s { s with xd := v } :=
  ⟨Nat.le_refl _, id, fun x h => by cases x <;> first | rfl | exact absurd (List.mem_singleton.mpr rfl) h⟩

theorem twin (s : State) (v : Twin) : Keeps [.twin] s { s with twin := v } :=
  ⟨Nat.le_refl _, id, fun x h => by cases x <;> first | rfl | exact absurd (List.mem_singleton.mpr rfl) h⟩

theorem purse (s : State) (v : Purse) : Keeps [.purse] s { s with purse := v } :=
  ⟨Nat.le_refl _, id, fun x h => by cases x <;> first | rfl | exact absurd (List.mem_singleton.mpr rfl) h⟩

theorem led (s : State) (v : Led) : Keeps [.led] s { s with led := v } :=
  ⟨Nat.le_refl _, id, fun x h => by cases x <;> first | rfl | exact absurd (List.mem_singleton.mpr rfl) h⟩

theorem mode (s : State) (v : ModeSt) : Keeps [.mode] s { s with mode := v } :=
  ⟨Nat.le_refl _, id, fun x h => by cases x <;> first | rfl | exact absurd (List.mem_singleton.mpr rfl) h⟩

theorem stw (s : State) (v : Stw) : Keeps [.stw] s { s with stw := v } :=
  ⟨Nat.le_refl _, id, fun x h => by cases x <;> first | rfl | exact absurd (List.mem_singleton.mpr rfl) h⟩

theorem wake (s : State) (v : Wake) : Keeps [.wake] s { s with wake := v } :=
  ⟨Nat.le_refl _, id, fun x h => by cases x <;> first | rfl | exact absurd (List.mem_singleton.mpr rfl) h⟩

theorem win (s : State) (v : Win) : Keeps [.win] s { s with win := v } :=
  ⟨Nat.le_refl _, id, fun x h => by cases x <;> first | rfl | exact absurd (List.mem_singleton.mpr rfl) h⟩

theorem pins (s : State) (v : Pins) : Keeps [.pins] s { s with pins := v } :=
  ⟨Nat.le_refl _, id, fun x h => by cases x <;> first | rfl | exact absurd (List.mem_singleton.mpr rfl) h⟩

theorem pub (s : State) (v : Option Pub) : Keeps [.pub] s { s with pub := v } :=
  ⟨Nat.le_refl _, id, fun x h => by cases x <;> first | rfl | exact absurd (List.mem_singleton.mpr rfl) h⟩

theorem cfg (s : State) (v : List Cell) (hv : cellsWf s.cfg → cellsWf v) : Keeps [.cfg] s { s with cfg := v } :=
  ⟨Nat.le_refl _, fun i => ⟨i.1, hv i.2⟩, fun x h => by cases x <;> first | rfl | exact absurd (List.mem_singleton.mpr rfl) h⟩

end Keeps

/-! The same rules for pairs and for answers. -/

theorem Keeps1.mk {α : Type} {W : List Fld} {s t : State} {a : α} (h : Keeps W s t) : Keeps1 W s (t, a) := h

theorem Keeps2.mk {α : Type} {W : List Fld} {s t : State} {a : α} (h : Keeps W s t) : Keeps2 W s (a, t) := h

theorem Keeps1.ite {α : Type} {W : List Fld} {s : State} {a b : State × α} {c : Prop} [Decidable c] (h : Keeps1 W s a)
    (k : Keeps1 W s b) : Keeps1 W s (if c then a else b) := by split <;> assumption

theorem Keeps2.ite {α : Type} {W : List Fld} {s : State} {a b : α × State} {c : Prop} [Decidable c] (h : Keeps2 W s a)
    (k : Keeps2 W s b) : Keeps2 W s (if c then a else b) := by split <;> assumption

theorem Runs.ite {W : List Fld} {s : State} {a b : Answer} {c : Prop} [Decidable c] (h : Runs W s a) (k : Runs W s b) :
    Runs W s (if c then a else b) := by split <;> assumption

theorem Runs.viaKeeps {W : List Fld} {s x : State} {a : Answer} (h : Keeps W s x) (k : Keeps W s x → Runs W s a) : Runs W s a := k h

theorem Runs.viaKeeps1 {α : Type} {W : List Fld} {s : State} {x : State × α} {a : Answer} (h : Keeps1 W s x)
    (k : Keeps1 W s x → Runs W s a) : Runs W s a := k h

theorem Runs.viaKeeps2 {α : Type} {W : List Fld} {s : State} {x : α × State} {a : Answer} (h : Keeps2 W s x)
    (k : Keeps2 W s x → Runs W s a) : Runs W s a := k h

theorem Runs.viaP {W : List Fld} {s : State} {a : Answer} (P : List Fld → Prop) (h : P W) (k : P W → Runs W s a) : Runs W s a := k h

theorem Keeps1.viaKeeps {α : Type} {W : List Fld} {s x : State} {r : State × α} (h : Keeps W s x)
    (k : Keeps W s x → Keeps1 W s r) : Keeps1 W s r := k h

theorem Keeps2.viaKeeps {α : Type} {W : List Fld} {s x : State} {r : α × State} (h : Keeps W s x)
    (k : Keeps W s x → Keeps2 W s r) : Keeps2 W s r := k h

theorem Keeps1.viaKeeps1 {α β : Type} {W : List Fld} {s : State} {x : State × β} {r : State × α} (h : Keeps1 W s x)
    (k : Keeps1 W s x → Keeps1 W s r) : Keeps1 W s r := k h

theorem Keeps1.viaP {α : Type} {W : List Fld} {s : State} {r : State × α} (P : List Fld → Prop) (h : P W)
    (k : P W → Keeps1 W s r) : Keeps1 W s r := k h

theorem Keeps2.viaP {α : Type} {W : List Fld} {s : State} {r : α × State} (P : List Fld → Prop) (h : P W)
    (k : P W → Keeps2 W s r) : Keeps2 W s r := k h

theorem Keeps.ofP1 {β : Type} {W : List Fld} {s x : State} {a : β} {t : State} {d : State × β} (e : d = (x, a)) (h : Keeps1 W s d)
    (k : Keeps W s x → Keeps W s t) : Keeps W s t := k (by subst e; exact h)

theorem Keeps.ofP2 {β : Type} {W : List Fld} {s x : State} {a : β} {t : State} {d : β × State} (e : d = (a, x)) (h : Keeps2 W s d)
    (k : Keeps W s x → Keeps W s t) : Keeps W s t := k (by subst e; exact h)

theorem Keeps1.ofP1 {β : Type} {W : List Fld} {s x : State} {a : β} {α : Type} {t : State × α} {d : State × β} (e : d = (x, a)) (h : Keeps1 W s d)
    (k : Keeps W s x → Keeps1 W s t) : Keeps1 W s t := k (by subst e; exact h)

theorem Keeps1.ofP2 {β : Type} {W : List Fld} {s x : State} {a : β} {α : Type} {t : State × α} {d : β × State} (e : d = (a, x)) (h : Keeps2 W s d)
    (k : Keeps W s x → Keeps1 W s t) : Keeps1 W s t := k (by subst e; exact h)

theorem Keeps2.ofP1 {β : Type} {W : List Fld} {s x : State} {a : β} {α : Type} {t : α × State} {d : State × β} (e : d = (x, a)) (h : Keeps1 W s d)
    (k : Keeps W s x → Keeps2 W s t) : Keeps2 W s t := k (by subst e; exact h)

theorem Keeps2.ofP2 {β : Type} {W : List Fld} {s x : State} {a : β} {α : Type} {t : α × State} {d : β × State} (e : d = (a, x)) (h : Keeps2 W s d)
    (k : Keeps W s x → Keeps2 W s t) : Keeps2 W s t := k (by subst e; exact h)

theorem Runs.ofP1 {β : Type} {W : List Fld} {s x : State} {a : β} {t : Answer} {d : State × β} (e : d = (x, a)) (h : Keeps1 W s d)
    (k : Keeps W s x → Runs W s t) : Runs W s t := k (by subst e; exact h)

theorem Runs.ofP2 {β : Type} {W : List Fld} {s x : State} {a : β} {t : Answer} {d : β × State} (e : d = (a, x)) (h : Keeps2 W s d)
    (k : Keeps W s x → Runs W s t) : Runs W s t := k (by subst e; exact h)

theorem Keeps1.foldl {α β : Type} {W : List Fld} {s : State} {f : State × β → α → State × β}
    (h : ∀ t a, Keeps1 W s t → Keeps1 W s (f t a)) {t : State × β} (k : Keeps1 W s t) (l : List α) : Keeps1 W s (l.foldl f t) := by
  induction l generalizing t with
  | nil => exact k
  | cons a l ih => exact ih (h t a k)

theorem Runs.next {W : List Fld} {s t : State} (h : Keeps W s t) : Runs W s (.next t) := ⟨t, rfl, h⟩

theorem Runs.mono {V W : List Fld} {s : State} {a : Answer} (h : Runs V s a) (w : within V W = true) : Runs W s a := by
  obtain ⟨u, hu, hk⟩ := h
  exact ⟨u, hu, hk.mono w⟩

theorem Runs.after {V W : List Fld} {s t : State} {a : Answer} (h : Runs V t a) (k : Keeps W s t) (w : within V W = true) :
    Runs W s a := by
  obtain ⟨u, hu, hk⟩ := h
  exact ⟨u, hu, hk.after k w⟩

/-- What a law says of one field, after a command that answered `u`. -/
theorem Runs.keeps {W : List Fld} {s u : State} {a : Answer} (h : Runs W s a) (e : a = .next u) : Keeps W s u := by
  obtain ⟨v, hv, hk⟩ := h
  rw [hv] at e
  cases e
  exact hk

end Sys2Proof.Machine
end

