-- ==== Sys2Proof/Laws/Ops.lean ====
section
/-! SUPPORT. The laws of the operations of Machine/Ops.lean: which fields of the state each may change. -/

namespace Sys2Proof.Machine

theorem State.tick_keeps (t : Nat) (s : State) : Keeps [] s (State.tick t s) :=
  ⟨Nat.le_max_left _ _, id, fun x _ => by cases x <;> rfl⟩

theorem State.only_keeps (t : Nat) (s : State) :
    Runs [] s (State.only t s) := by
  unfold State.only
  exact Runs.next (Keeps.after (State.tick_keeps ..) ((.refl _ _)) rfl)

theorem State.free_keeps (s : State) :
    Keeps2 [.freeIx] s (State.free s) := by
  unfold State.free
  exact Keeps2.mk (Keeps.after (Keeps.freeIx ..) ((.refl _ _)) rfl)

theorem State.beginFlush_keeps (s : State) :
    Keeps [.led] s (State.beginFlush s) := by
  unfold State.beginFlush
  exact Keeps.ite ((.refl _ _))
    (Keeps.after (Keeps.led ..) ((.refl _ _)) rfl)

theorem State.flushDecide_keeps (sev : Nat) (s : State) :
    Keeps [.led] s (State.flushDecide sev s) := by
  unfold State.flushDecide
  extract_lets -underBinder +onlyGivenNames -merge a1
  exact Keeps.ite (Keeps.after (State.beginFlush_keeps ..) ((.refl _ _)) rfl)
      ((.refl _ _))

theorem State.enterRec_keeps (r : LedRec) (s : State) :
    Keeps [.led] s (State.enterRec r s) := by
  unfold State.enterRec
  extract_lets -underBinder +onlyGivenNames -merge a1 a2 r3 s4
  refine .viaKeeps (x := s4) (Keeps.after (Keeps.led ..) ((.refl _ _)) rfl) fun h5 => ?_
  try clear_value s4
  exact Keeps.after (State.flushDecide_keeps ..) h5 rfl

theorem State.notRec_keeps (c : Nat) (s : State) :
    Keeps [.led] s (State.notRec c s) := by
  unfold State.notRec
  exact Keeps.after (Keeps.led ..) ((.refl _ _)) rfl

theorem State.ledTake_keeps (o : Occ) (s : State) :
    Keeps [.led] s (State.ledTake o s) := by
  unfold State.ledTake
  exact Keeps.ite (Keeps.after (State.notRec_keeps ..) ((.refl _ _)) rfl)
    (Keeps.ite (Keeps.after (Keeps.led ..) ((.refl _ _)) rfl)
      (Keeps.ite (Keeps.ite (Keeps.after (State.enterRec_keeps ..) ((.refl _ _)) rfl)
          (Keeps.ite (Keeps.after (Keeps.led ..) ((.refl _ _)) rfl)
            (Keeps.after (Keeps.led ..) ((.refl _ _)) rfl)))
        (Keeps.ite (Keeps.after (Keeps.led ..) ((.refl _ _)) rfl)
          (Keeps.after (State.enterRec_keeps ..) ((.refl _ _)) rfl))))

theorem State.enterSummaries_keeps (all : Bool) (room : Nat) (l : List SumCnt) (s : State) :
    Keeps [.led] s (State.enterSummaries all room l s) := by
  induction l generalizing s with
  | nil => exact Keeps.refl _ _
  | cons c cs ih =>
    unfold State.enterSummaries
    refine Keeps.ite ?_ (.refl _ _)
    exact (State.enterRec_keeps ..).trans ((Keeps.led ..).trans (ih _))

theorem State.enterHeld_keeps (l : List Occ) (s : State) : Keeps [.led] s (State.enterHeld l s) := by
  induction l generalizing s with
  | nil => exact Keeps.refl _ _
  | cons c cs ih =>
    unfold State.enterHeld
    refine Keeps.ite ?_ (.refl _ _)
    exact (Keeps.led ..).trans ((State.enterRec_keeps ..).trans (ih _))

theorem State.ledBoundary_keeps (s : State) :
    Keeps [.led] s (State.ledBoundary s) := by
  unfold State.ledBoundary
  extract_lets -underBinder +onlyGivenNames -merge s1
  refine .viaKeeps (x := s1) (Keeps.ite (Keeps.after (State.enterSummaries_keeps ..) ((.refl _ _)) rfl)
      ((.refl _ _))) fun h2 => ?_
  try clear_value s1
  extract_lets -underBinder +onlyGivenNames -merge s3
  refine .viaKeeps (x := s3) (Keeps.after (State.enterHeld_keeps ..) h2 rfl) fun h4 => ?_
  try clear_value s3
  exact Keeps.ite (Keeps.after (State.beginFlush_keeps ..) h4 rfl)
      h4

theorem State.flushEnd_keeps (s : State) :
    Keeps [.led] s (State.flushEnd s) := by
  unfold State.flushEnd
  exact Keeps.after (Keeps.led ..) ((.refl _ _)) rfl

theorem State.powerFlushBegin_keeps (s : State) :
    Keeps [.led] s (State.powerFlushBegin s) := by
  unfold State.powerFlushBegin
  exact Keeps.ite ((.refl _ _))
    (by
      extract_lets -underBinder +onlyGivenNames -merge a1 s2
      refine .viaKeeps (x := s2) (Keeps.after (State.enterSummaries_keeps ..) ((.refl _ _)) rfl) fun h3 => ?_
      try clear_value s2
      extract_lets -underBinder +onlyGivenNames -merge a4 a5 a6 a7 r8 s9
      refine .viaKeeps (x := s9) (Keeps.after (State.beginFlush_keeps ..) (Keeps.after (Keeps.led ..) h3 rfl) rfl) fun h10 => ?_
      try clear_value s9
      exact Keeps.ite (Keeps.after (State.flushEnd_keeps ..) h10 rfl)
          h10)

theorem State.fabTake_keeps (o : Occ) (kept : Option Nat) (s : State) :
    Keeps [.led] s (State.fabTake o kept s) := by
  unfold State.fabTake
  exact Keeps.ite (by
      extract_lets -underBinder +onlyGivenNames -merge r1 a2
      exact Keeps.after (Keeps.led ..) ((.refl _ _)) rfl)
    (Keeps.after (Keeps.led ..) ((.refl _ _)) rfl)

theorem State.nevtTake_keeps (code : Nat) (s : State) :
    Keeps [.led] s (State.nevtTake code s) := by
  unfold State.nevtTake
  exact Keeps.ite ((.refl _ _))
    (Keeps.after (Keeps.led ..) ((.refl _ _)) rfl)

theorem State.raise_keeps (code : Nat) (pl : List Octet) (s : State) (sev : Nat) :
    Keeps [.led] s (State.raise code pl s sev) := by
  unfold State.raise
  extract_lets -underBinder +onlyGivenNames -merge a1
  split
  · extract_lets -underBinder +onlyGivenNames -merge a2 r3 s4
    refine .viaKeeps (x := s4) (Keeps.after (Keeps.led ..) ((.refl _ _)) rfl) fun h5 => ?_
    try clear_value s4
    extract_lets -underBinder +onlyGivenNames -merge a6 s7
    refine .viaKeeps (x := s7) (Keeps.ite (Keeps.after (State.ledTake_keeps ..) h5 rfl)
        h5) fun h8 => ?_
    try clear_value s7
    extract_lets -underBinder +onlyGivenNames -merge a9 s10
    refine .viaKeeps (x := s10) (Keeps.ite (Keeps.after (State.fabTake_keeps ..) h8 rfl)
        h8) fun h11 => ?_
    try clear_value s10
    exact Keeps.ite (Keeps.after (State.nevtTake_keeps ..) h11 rfl)
        h11

theorem State.haltCause_keeps (k : Nat) (s : State) :
    Keeps [.mode] s (State.haltCause k s) := by
  unfold State.haltCause
  exact Keeps.after (Keeps.mode ..) ((.refl _ _)) rfl

theorem State.unshow_keeps (s : State) :
    Keeps [.ax, .book, .pg, .gc, .home, .pre] s (State.unshow s) := by
  unfold State.unshow
  exact Keeps.ite ((.refl _ _))
    (Keeps.onto ((.refl _ _)) [.ax, .book, .pg, .gc, .home, .pre] rfl
      (Keeps.of rfl rfl id fun x => by cases x <;> first | exact .inr rfl | exact .inl rfl))

theorem State.publish_keeps (s : State) :
    Keeps [.ax, .book, .pg, .gc, .home, .pre, .pub] s (State.publish s) := by
  unfold State.publish
  extract_lets -underBinder +onlyGivenNames -merge s1
  refine .viaKeeps (x := s1) (Keeps.after (State.unshow_keeps ..) ((.refl _ _)) rfl) fun h2 => ?_
  try clear_value s1
  exact Keeps.after (Keeps.pub ..) ((.refl _ _)) rfl

theorem State.show_keeps (f : State → State) (s : State) : Keeps [.ax, .book, .pg, .gc, .home, .pre] s (State.show f s) :=
  Keeps.of rfl rfl id fun x => by cases x <;> first | exact .inr rfl | exact .inl rfl

theorem State.onPins_keeps (f : Pins → Pins) (s : State) :
    Keeps [.pins] s (State.onPins f s) := by
  unfold State.onPins
  exact Keeps.after (Keeps.pins ..) ((.refl _ _)) rfl

theorem State.onTask_keeps (i : Nat) (f : TaskRun → TaskRun) (s : State) :
    Keeps [.disp] s (State.onTask i f s) := by
  unfold State.onTask
  exact Keeps.after (Keeps.disp ..) ((.refl _ _)) rfl

theorem State.onFb_keeps (i : Nat) (f : Fb → Fb) (s : State) :
    Keeps [.fb] s (State.onFb i f s) := by
  unfold State.onFb
  exact Keeps.after (Keeps.fb ..) ((.refl _ _)) rfl

theorem State.onDin_keeps (i : Nat) (f : Din → Din) (s : State) :
    Keeps [.din] s (State.onDin i f s) := by
  unfold State.onDin
  exact Keeps.after (Keeps.din ..) ((.refl _ _)) rfl

theorem State.onCh_keeps (i : Nat) (f : Chan → Chan) (s : State) :
    Keeps [.ch] s (State.onCh i f s) := by
  unfold State.onCh
  exact Keeps.after (Keeps.ch ..) ((.refl _ _)) rfl

/-- No half-bridge of the axis conducts through both its gates. -/
def CurAx.exclusive (x : CurAx) : Bool := x.brs.all HalfBr.exclusive

/-- A change that keeps every axis's half-bridges exclusive. -/
theorem State.onCax_keeps (i : Nat) (f : CurAx → CurAx) (s : State)
    (h : ∀ x : CurAx, x.exclusive = true → (f x).exclusive = true) : Keeps [.cax] s (State.onCax i f s) := by
  refine ⟨Nat.le_refl _, fun v => ⟨?_, v.2⟩, fun x h => by cases x <;> first | rfl | exact absurd (List.mem_singleton.mpr rfl) h⟩
  refine List.all_eq_true.mpr fun y hy => ?_
  obtain ⟨j, hj, rfl⟩ := List.mem_iff_getElem.mp hy
  have hall := List.all_eq_true.mp v.1
  have hl : j < s.cax.length := by simpa [State.onCax] using hj
  have hg := hall _ (List.getElem_mem hl)
  simp only [State.onCax, List.getElem_modify]
  split
  · exact h _ hg
  · exact hg

theorem State.onCax_brs (i : Nat) (f : CurAx → CurAx) (s : State) (h : ∀ x : CurAx, (f x).brs = x.brs) :
    Keeps [.cax] s (State.onCax i f s) :=
  State.onCax_keeps i f s fun x k => by unfold CurAx.exclusive at *; rw [h]; exact k

theorem State.onAx_keeps (i : Nat) (f : Axis → Axis) (s : State) :
    Keeps [.ax] s (State.onAx i f s) := by
  unfold State.onAx
  exact Keeps.after (Keeps.ax ..) ((.refl _ _)) rfl

theorem State.onAxKept_keeps (a : Nat) (f : Axis → Axis) (s : State) :
    Keeps [.ax, .pre] s (State.onAxKept a f s) := by
  unfold State.onAxKept
  extract_lets -underBinder +onlyGivenNames -merge s1
  refine .viaKeeps (x := s1) (Keeps.after (State.onAx_keeps ..) ((.refl _ _)) rfl) fun h2 => ?_
  try clear_value s1
  exact Keeps.after (Keeps.pre ..) h2 rfl

theorem State.setHomed_keeps (a : Nat) (a1 : Bool) (s : State) :
    Keeps [.ax, .pre] s (State.setHomed a a1 s) := by
  unfold State.setHomed
  exact Keeps.after (State.onAxKept_keeps ..) ((.refl _ _)) rfl

theorem State.onBook_keeps (i : Nat) (f : AxisBook → AxisBook) (s : State) :
    Keeps [.book] s (State.onBook i f s) := by
  unfold State.onBook
  exact Keeps.after (Keeps.book ..) ((.refl _ _)) rfl

theorem State.onPg_keeps (i : Nat) (f : Pg → Pg) (s : State) :
    Keeps [.pg] s (State.onPg i f s) := by
  unfold State.onPg
  exact Keeps.after (Keeps.pg ..) ((.refl _ _)) rfl

theorem State.onGc_keeps (i : Nat) (f : Gc → Gc) (s : State) :
    Keeps [.gc] s (State.onGc i f s) := by
  unfold State.onGc
  exact Keeps.after (Keeps.gc ..) ((.refl _ _)) rfl

theorem State.onGcKept_keeps (c : Nat) (f : Gc → Gc) (s : State) :
    Keeps [.gc, .pre] s (State.onGcKept c f s) := by
  unfold State.onGcKept
  extract_lets -underBinder +onlyGivenNames -merge s1
  refine .viaKeeps (x := s1) (Keeps.after (State.onGc_keeps ..) ((.refl _ _)) rfl) fun h2 => ?_
  try clear_value s1
  exact Keeps.after (Keeps.pre ..) h2 rfl

theorem State.onHome_keeps (i : Nat) (f : Home → Home) (s : State) :
    Keeps [.home] s (State.onHome i f s) := by
  unfold State.onHome
  exact Keeps.after (Keeps.home ..) ((.refl _ _)) rfl

theorem State.onHomeKept_keeps (i : Nat) (f : Home → Home) (s : State) :
    Keeps [.home, .pre] s (State.onHomeKept i f s) := by
  unfold State.onHomeKept
  extract_lets -underBinder +onlyGivenNames -merge s1
  refine .viaKeeps (x := s1) (Keeps.after (State.onHome_keeps ..) ((.refl _ _)) rfl) fun h2 => ?_
  try clear_value s1
  exact Keeps.after (Keeps.pre ..) h2 rfl

theorem State.onStop_keeps (i : Nat) (f : SafeStop → SafeStop) (s : State) :
    Keeps [.safe] s (State.onStop i f s) := by
  unfold State.onStop
  exact Keeps.after (Keeps.safe ..) ((.refl _ _)) rfl

theorem State.onOut_keeps (i : Nat) (f : SafeOut → SafeOut) (s : State) :
    Keeps [.safe] s (State.onOut i f s) := by
  unfold State.onOut
  exact Keeps.after (Keeps.safe ..) ((.refl _ _)) rfl

theorem State.reply_keeps (o : Origin) (code : Nat) (detail : Nat) (s : State) :
    Keeps [.replies] s (State.reply o code detail s) := by
  unfold State.reply
  split
  · exact Keeps.after (Keeps.replies ..) ((.refl _ _)) rfl
  · exact (.refl _ _)

theorem State.order_keeps (a : Nat) (k : RampThen) (cause : Nat) (s : State) :
    Keeps [.book] s (State.order a k cause s) := by
  unfold State.order
  exact Keeps.after (State.onBook_keeps ..) ((.refl _ _)) rfl

theorem State.orderSto_keeps (a : Nat) (code : Nat) (s : State) :
    Keeps [.safe, .led] s (State.orderSto a code s) := by
  unfold State.orderSto
  exact Keeps.ite ((.refl _ _))
    (Keeps.after (State.raise_keeps ..) (Keeps.after (State.onStop_keeps ..) ((.refl _ _)) rfl) rfl)

theorem State.orderSs1_keeps (a : Nat) (code : Nat) (s : State) :
    Keeps [.book, .safe, .led] s (State.orderSs1 a code s) := by
  unfold State.orderSs1
  exact Keeps.ite ((.refl _ _))
    (Keeps.after (State.raise_keeps ..) (Keeps.after (State.order_keeps ..) (Keeps.after (State.onStop_keeps ..) ((.refl _ _)) rfl) rfl) rfl)

theorem State.axisFault_keeps (a : Nat) (cause : Nat) (detail : Int) (s : State) :
    Keeps [.book, .safe, .led] s (State.axisFault a cause detail s) := by
  unfold State.axisFault
  extract_lets -underBinder +onlyGivenNames -merge a1
  exact Keeps.ite ((.refl _ _))
      (by
        extract_lets -underBinder +onlyGivenNames -merge s2
        refine .viaKeeps (x := s2) (Keeps.after (State.onBook_keeps ..) ((.refl _ _)) rfl) fun h3 => ?_
        try clear_value s2
        extract_lets -underBinder +onlyGivenNames -merge s4
        refine .viaKeeps (x := s4) (Keeps.after (State.raise_keeps ..) h3 rfl) fun h5 => ?_
        try clear_value s4
        exact Keeps.ite (Keeps.after (State.orderSto_keeps ..) h5 rfl)
            (Keeps.ite h5
              (Keeps.after (State.orderSs1_keeps ..) h5 rfl)))

theorem State.axisSaturated_keeps (a : Nat) (quantity : Nat) (v : Int) (s : State) :
    Keeps [.book, .safe, .led] s (State.axisSaturated a quantity v s) := by
  unfold State.axisSaturated
  exact Keeps.after (State.axisFault_keeps ..) (Keeps.after (State.raise_keeps ..) ((.refl _ _)) rfl) rfl

end Sys2Proof.Machine
end

