-- ==== Sys2Proof/Laws/Tasks.lean ====
section
/-! SUPPORT. The laws of the operations of Machine/Tasks.lean: which fields of the state each may change. -/

namespace Sys2Proof.Machine

theorem State.onInst_keeps (slot : Nat) (f : InstEntry → InstEntry) (s : State) :
    Keeps [.disp] s (State.onInst slot f s) := by
  unfold State.onInst
  exact Keeps.after (Keeps.disp ..) ((.refl _ _)) rfl

theorem State.freeInst_keeps (slot : Nat) (s : State) :
    Keeps [.disp] s (State.freeInst slot s) := by
  unfold State.freeInst
  exact Keeps.after (Keeps.disp ..) ((.refl _ _)) rfl

theorem State.setStatus_keeps (w : Work) (st : TaskStatus) (s : State) :
    Keeps [.disp] s (State.setStatus w st s) := by
  unfold State.setStatus
  split
  · exact Keeps.after (State.onTask_keeps ..) ((.refl _ _)) rfl
  · exact Keeps.after (State.onInst_keeps ..) ((.refl _ _)) rfl

theorem State.setLane_keeps (lane : Nat) (w : Option Work) (s : State) :
    Keeps [.disp] s (State.setLane lane w s) := by
  unfold State.setLane
  exact Keeps.after (Keeps.disp ..) ((.refl _ _)) rfl

theorem State.setBudget_keeps (w : Work) (b : Nat) (t : Nat) (s : State) :
    Keeps [.disp] s (State.setBudget w b t s) := by
  unfold State.setBudget
  split
  · exact Keeps.after (State.onTask_keeps ..) ((.refl _ _)) rfl
  · exact Keeps.after (State.onInst_keeps ..) ((.refl _ _)) rfl

theorem State.chargeWork_keeps (w : Work) (t : Nat) (s : State) :
    Keeps [.disp] s (State.chargeWork w t s) := by
  unfold State.chargeWork
  exact Keeps.after (State.setBudget_keeps ..) ((.refl _ _)) rfl

theorem State.selStatus_keeps (w : Work) (st : TaskStatus) (s : State) :
    Keeps [.disp] s (State.selStatus w st s) := by
  unfold State.selStatus
  extract_lets -underBinder +onlyGivenNames -merge s1
  refine .viaKeeps (x := s1) (Keeps.after (State.setStatus_keeps ..) ((.refl _ _)) rfl) fun h2 => ?_
  try clear_value s1
  exact Keeps.after (Keeps.disp ..) h2 rfl

theorem State.dispatch_keeps (lane : Nat) (t : Nat) (w : Work) (s : State) :
    Keeps [.disp] s (State.dispatch lane t w s) := by
  unfold State.dispatch
  exact Keeps.after (State.setLane_keeps ..) (Keeps.after (State.setBudget_keeps ..) (Keeps.after (State.selStatus_keeps ..) ((.refl _ _)) rfl) rfl) rfl

theorem State.fillLane_keeps (lane : Nat) (t : Nat) (s : State) :
    Keeps [.disp] s (State.fillLane lane t s) := by
  unfold State.fillLane
  exact Keeps.ite ((.refl _ _))
    (by
      split
      · exact (.refl _ _)
      · exact Keeps.after (State.dispatch_keeps ..) ((.refl _ _)) rfl)

theorem State.preempt_keeps (t : Nat) (s : State) :
    Keeps [.disp] s (State.preempt t s) := by
  unfold State.preempt
  split
  · extract_lets -underBinder +onlyGivenNames -merge a1 a2 a3 a4
    exact Keeps.ite (Keeps.after (State.dispatch_keeps ..) (Keeps.after (State.selStatus_keeps ..) (Keeps.after (State.chargeWork_keeps ..) ((.refl _ _)) rfl) rfl) rfl)
        ((.refl _ _))
  · exact (.refl _ _)

theorem State.selectOnce_keeps (t : Nat) (s : State) :
    Keeps [.disp] s (State.selectOnce t s) := by
  unfold State.selectOnce
  exact Keeps.after (State.preempt_keeps ..) (Keeps.after (State.fillLane_keeps ..) (Keeps.after (State.fillLane_keeps ..) ((.refl _ _)) rfl) rfl) rfl

theorem State.unselect_keeps (s : State) :
    Keeps [.disp] s (State.unselect s) := by
  unfold State.unselect
  extract_lets -underBinder +onlyGivenNames -merge r1 s2
  refine .viaKeeps (x := s2) (Keeps.foldl (fun _ _ h3 =>
      Keeps.after (State.setStatus_keeps ..) h3 rfl)
      (Keeps.after (Keeps.disp ..) ((.refl _ _)) rfl) _) fun h4 => ?_
  try clear_value s2
  exact Keeps.after (Keeps.disp ..) h4 rfl

theorem State.comeTo_keeps (s : State) :
    Keeps [.disp] s (State.comeTo s) := by
  unfold State.comeTo
  exact Keeps.ite ((.refl _ _))
    (Keeps.ite (Keeps.after (State.unselect_keeps ..) ((.refl _ _)) rfl)
      (by
        extract_lets -underBinder +onlyGivenNames -merge s1
        refine .viaKeeps (x := s1) (Keeps.eachIx (fun _ _ h2 =>
            Keeps.after (State.selectOnce_keeps ..) h2 rfl)
            ((.refl _ _))) fun h3 => ?_
        try clear_value s1
        exact Keeps.after (Keeps.disp ..) h3 rfl))

theorem State.select_keeps (s : State) :
    Keeps [.disp] s (State.select s) := by
  unfold State.select
  exact Keeps.ite ((.refl _ _))
    (Keeps.after (State.selectOnce_keeps ..) (Keeps.after (Keeps.disp ..) ((.refl _ _)) rfl) rfl)

theorem State.annulTask_keeps (i : Nat) (reason : Nat) (s : State) :
    Keeps [.disp, .led] s (State.annulTask i reason s) := by
  unfold State.annulTask
  exact Keeps.after (State.raise_keeps ..) (Keeps.after (State.onTask_keeps ..) ((.refl _ _)) rfl) rfl

theorem State.number_keeps (i : Nat) (s : State) :
    Keeps [.disp] s (State.number i s) := by
  unfold State.number
  extract_lets -underBinder +onlyGivenNames -merge a1 a2 a3 a4
  exact Keeps.after (Keeps.disp ..) ((.refl _ _)) rfl

theorem State.checkReady_keeps (i : Nat) (s : State) :
    Keeps [.disp, .led] s (State.checkReady i s) := by
  unfold State.checkReady
  extract_lets -underBinder +onlyGivenNames -merge a1 a2
  exact Keeps.ite (Keeps.ite (Keeps.after (State.annulTask_keeps ..) ((.refl _ _)) rfl)
        (Keeps.after (State.onTask_keeps ..) (Keeps.after (State.number_keeps ..) ((.refl _ _)) rfl) rfl))
      ((.refl _ _))

theorem State.release_keeps (cancel : Bool) (fuel : Nat) (js : List Nat) (s : State) :
    Keeps [.disp, .led] s (State.release cancel fuel js s) := by
  induction fuel generalizing cancel js s with
  | zero => unfold State.release; exact Keeps.refl _ _
  | succ n ih =>
    cases js with
    | nil => unfold State.release; exact Keeps.refl _ _
    | cons j js =>
      unfold State.release
      refine Keeps.trans (Keeps.ite (.refl _ _) (Keeps.ite ?_ ?_)) (ih _ _ _)
      · exact ((State.onTask_keeps ..).mono rfl).trans (ih _ _ _)
      · exact Keeps.after (State.checkReady_keeps ..) ((State.onTask_keeps ..).mono rfl) rfl

theorem State.releaseOf_keeps (i : Nat) (cancel : Bool) (s : State) :
    Keeps [.disp, .led] s (State.releaseOf i cancel s) := by
  unfold State.releaseOf
  exact Keeps.after (State.release_keeps ..) ((.refl _ _)) rfl

theorem State.respEv_keeps (w : Work) (t : Nat) (s : State) :
    Keeps [.led] s (State.respEv w t s) := by
  unfold State.respEv
  extract_lets -underBinder +onlyGivenNames -merge a1 a2 a3
  exact Keeps.ite (Keeps.after (State.raise_keeps ..) ((.refl _ _)) rfl)
      ((.refl _ _))

theorem State.committed_keeps (w : Work) (t : Nat) (s : State) :
    Keeps [.disp, .led] s (State.committed w t s) := by
  unfold State.committed
  extract_lets -underBinder +onlyGivenNames -merge a1 a2 s3
  refine .viaKeeps (x := s3) (Keeps.after (State.onTask_keeps ..) ((.refl _ _)) rfl) fun h4 => ?_
  try clear_value s3
  extract_lets -underBinder +onlyGivenNames -merge s5
  refine .viaKeeps (x := s5) (Keeps.after (State.respEv_keeps ..) h4 rfl) fun h6 => ?_
  try clear_value s5
  split
  · exact Keeps.after (State.releaseOf_keeps ..) (Keeps.after (State.setStatus_keeps ..) h6 rfl) rfl
  · exact Keeps.after (State.freeInst_keeps ..) h6 rfl

theorem State.endedCancelled_keeps (w : Work) (s : State) :
    Keeps [.disp, .led] s (State.endedCancelled w s) := by
  unfold State.endedCancelled
  split
  · exact Keeps.after (State.releaseOf_keeps ..) (Keeps.after (State.setStatus_keeps ..) ((.refl _ _)) rfl) rfl
  · exact Keeps.after (State.freeInst_keeps ..) ((.refl _ _)) rfl

theorem State.overrunEv_keeps (i : Nat) (cause : Nat) (slot : Nat) (cycles : Nat) (s : State) :
    Keeps [.led] s (State.overrunEv i cause slot cycles s) := by
  unfold State.overrunEv
  exact Keeps.after (State.raise_keeps ..) ((.refl _ _)) rfl

theorem State.overrun_keeps (w : Work) (cause : Nat) (cycles : Nat) (s : State) :
    Keeps [.disp, .led] s (State.overrun w cause cycles s) := by
  unfold State.overrun
  extract_lets -underBinder +onlyGivenNames -merge a1 a2 s3
  refine .viaKeeps (x := s3) (Keeps.after (State.onTask_keeps ..) ((.refl _ _)) rfl) fun h4 => ?_
  try clear_value s3
  extract_lets -underBinder +onlyGivenNames -merge s5
  refine .viaKeeps (x := s5) (Keeps.after (State.overrunEv_keeps ..) h4 rfl) fun h6 => ?_
  try clear_value s5
  split
  · exact Keeps.after (State.releaseOf_keeps ..) (Keeps.after (State.setStatus_keeps ..) h6 rfl) rfl
  · extract_lets -underBinder +onlyGivenNames -merge a7
    exact Keeps.ite (Keeps.after (State.freeInst_keeps ..) h6 rfl)
        (Keeps.ite (Keeps.after (State.overrunEv_keeps ..) (Keeps.after (State.freeInst_keeps ..) h6 rfl) rfl)
          (Keeps.after (State.onInst_keeps ..) h6 rfl))

theorem State.flagCancel_keeps (w : Work) (s : State) :
    Keeps [.disp] s (State.flagCancel w s) := by
  unfold State.flagCancel
  split
  · exact Keeps.after (State.onTask_keeps ..) ((.refl _ _)) rfl
  · exact Keeps.after (State.onInst_keeps ..) ((.refl _ _)) rfl

theorem State.annulInst_keeps (sl : Nat) (reason : Nat) (s : State) :
    Keeps [.disp, .led] s (State.annulInst sl reason s) := by
  unfold State.annulInst
  split
  · exact (.refl _ _)
  · exact Keeps.after (State.raise_keeps ..) (Keeps.after (State.onTask_keeps ..) (Keeps.after (State.freeInst_keeps ..) ((.refl _ _)) rfl) rfl) rfl

theorem State.cancelWork_keeps (w : Work) (reason : Nat) (s : State) :
    Keeps [.disp, .led] s (State.cancelWork w reason s) := by
  unfold State.cancelWork
  split
  · exact Keeps.after (State.checkReady_keeps ..) (Keeps.after (State.onTask_keeps ..) ((.refl _ _)) rfl) rfl
  · exact Keeps.after (State.annulTask_keeps ..) ((.refl _ _)) rfl
  · exact Keeps.after (State.flagCancel_keeps ..) ((.refl _ _)) rfl
  · exact Keeps.after (State.flagCancel_keeps ..) ((.refl _ _)) rfl
  · exact Keeps.ite (Keeps.after (State.freeInst_keeps ..) ((.refl _ _)) rfl)
      ((.refl _ _))
  · exact Keeps.after (State.annulInst_keeps ..) ((.refl _ _)) rfl
  · exact Keeps.after (State.annulInst_keeps ..) ((.refl _ _)) rfl
  · exact (.refl _ _)

theorem State.arrive_keeps (task : Nat) (arg : List Octet) (s : State) :
    Keeps [.disp] s (State.arrive task arg s) := by
  unfold State.arrive
  extract_lets -underBinder +onlyGivenNames -merge a1 a2
  exact Keeps.after (Keeps.disp ..) ((.refl _ _)) rfl

theorem State.bpEvent_keeps (s : State) :
    Keeps [.led] s (State.bpEvent s) := by
  unfold State.bpEvent
  exact Keeps.after (State.raise_keeps ..) ((.refl _ _)) rfl

theorem State.backPressure_keeps (held : Nat) (withheld : Nat) (s : State) :
    Keeps [.disp] s (State.backPressure held withheld s) := by
  unfold State.backPressure
  exact Keeps.after (Keeps.disp ..) ((.refl _ _)) rfl

theorem State.spawn_keeps (task : Nat) (arg : List Octet) (s : State) :
    Keeps1 [.disp] s (State.spawn task arg s) := by
  unfold State.spawn
  exact Keeps1.ite (Keeps1.mk (Keeps.after (State.arrive_keeps ..) ((.refl _ _)) rfl))
    (Keeps1.mk (Keeps.after (State.backPressure_keeps ..) ((.refl _ _)) rfl))

theorem State.offerSteward_keeps (src : Nat) (arg : List Octet) (s : State) :
    Keeps [.disp] s (State.offerSteward src arg s) := by
  unfold State.offerSteward
  split
  · exact (.refl _ _)
  · split
    · next heq =>
      refine .ofP1 heq (Keeps.after (State.spawn_keeps ..) ((.refl _ _)) rfl) fun h1 => ?_
      exact h1
    · next heq =>
      refine .ofP1 heq (Keeps.after (State.spawn_keeps ..) ((.refl _ _)) rfl) fun h1 => ?_
      exact Keeps.after (Keeps.disp ..) h1 rfl

theorem State.offerStewardKept_keeps (s : State) :
    Keeps [.disp] s (State.offerStewardKept s) := by
  unfold State.offerStewardKept
  exact Keeps.foldl (fun _ _ h1 =>
    Keeps.after (State.offerSteward_keeps ..) h1 rfl)
    (Keeps.after (Keeps.disp ..) ((.refl _ _)) rfl) _

theorem State.loadTask_keeps (e : Nat) (i : Nat) (s : State) :
    Keeps [.disp] s (State.loadTask e i s) := by
  unfold State.loadTask
  extract_lets -underBinder +onlyGivenNames -merge a1
  exact Keeps.after (State.onTask_keeps ..) ((.refl _ _)) rfl

theorem State.passOver_keeps (e : Nat) (i : Nat) (s : State) :
    Keeps [.disp] s (State.passOver e i s) := by
  unfold State.passOver
  extract_lets -underBinder +onlyGivenNames -merge a1
  exact Keeps.ite (Keeps.foldl (fun _ _ h2 =>
        Keeps.after (State.onTask_keeps ..) h2 rfl)
        ((.refl _ _)) _)
      ((.refl _ _))

theorem State.reachDeadline_keeps (i : Nat) (s : State) :
    Keeps [.disp] s (State.reachDeadline i s) := by
  unfold State.reachDeadline
  extract_lets -underBinder +onlyGivenNames -merge a1
  exact Keeps.ite ((.refl _ _))
      (Keeps.ite (Keeps.after (State.onTask_keeps ..) ((.refl _ _)) rfl)
        (Keeps.after (State.onTask_keeps ..) ((.refl _ _)) rfl))

theorem State.startDeadline_keeps (i : Nat) (s : State) :
    Keeps [.disp, .led] s (State.startDeadline i s) := by
  unfold State.startDeadline
  extract_lets -underBinder +onlyGivenNames -merge s1
  refine .viaKeeps (x := s1) (Keeps.after (State.reachDeadline_keeps ..) ((.refl _ _)) rfl) fun h2 => ?_
  try clear_value s1
  exact Keeps.ite (Keeps.after (State.cancelWork_keeps ..) h2 rfl)
      h2

theorem State.releaseInsts_keeps (i : Nat) (s : State) :
    Keeps [.disp] s (State.releaseInsts i s) := by
  unfold State.releaseInsts
  extract_lets -underBinder +onlyGivenNames -merge a1
  exact Keeps.ite ((.refl _ _))
      (Keeps.foldl (fun _ _ h2 =>
        by
          extract_lets -underBinder +onlyGivenNames -merge s3
          refine .viaKeeps (x := s3) (Keeps.after (State.onInst_keeps ..) h2 rfl) fun h4 => ?_
          try clear_value s3
          exact Keeps.after (Keeps.disp ..) h4 rfl)
        ((.refl _ _)) _)

theorem State.graphStart_keeps (t : Nat) (s : State) :
    Keeps [.disp, .led] s (State.graphStart t s) := by
  unfold State.graphStart
  extract_lets -underBinder +onlyGivenNames -merge a1 a2 r3 s4
  refine .viaKeeps (x := s4) (Keeps.after (Keeps.disp ..) ((.refl _ _)) rfl) fun h5 => ?_
  try clear_value s4
  extract_lets -underBinder +onlyGivenNames -merge s6
  refine .viaKeeps (x := s6) (Keeps.eachIx (fun _ _ h7 =>
      Keeps.after (State.loadTask_keeps ..) h7 rfl)
      h5) fun h8 => ?_
  try clear_value s6
  extract_lets -underBinder +onlyGivenNames -merge s9
  refine .viaKeeps (x := s9) (Keeps.eachIx (fun _ _ h10 =>
      Keeps.after (State.passOver_keeps ..) h10 rfl)
      h8) fun h11 => ?_
  try clear_value s9
  extract_lets -underBinder +onlyGivenNames -merge s12
  refine .viaKeeps (x := s12) (Keeps.eachIx (fun _ _ h14 =>
      Keeps.after (State.checkReady_keeps ..) h14 rfl)
      (Keeps.eachIx (fun _ _ h13 =>
        Keeps.after (State.startDeadline_keeps ..) h13 rfl)
        h11)) fun h15 => ?_
  try clear_value s12
  exact Keeps.after (State.select_keeps ..) (Keeps.eachIx (fun _ _ h16 =>
        Keeps.after (State.releaseInsts_keeps ..) h16 rfl)
        h15) rfl

theorem State.endSweep_keeps (executed : List (Work × Nat)) (s : State) :
    Keeps [.stage, .disp, .led] s (State.endSweep executed s) := by
  unfold State.endSweep
  extract_lets -underBinder +onlyGivenNames -merge s1
  refine .viaKeeps (x := s1) (Keeps.after (State.comeTo_keeps ..) ((.refl _ _)) rfl) fun h2 => ?_
  try clear_value s1
  extract_lets -underBinder +onlyGivenNames -merge a3 s4
  refine .viaKeeps (x := s4) (Keeps.foldl (fun _ _ h5 =>
      Keeps.after (State.overrun_keeps ..) h5 rfl)
      h2 _) fun h6 => ?_
  try clear_value s4
  extract_lets -underBinder +onlyGivenNames -merge s7
  refine .viaKeeps (x := s7) (Keeps.foldl (fun _ _ h8 =>
      Keeps.after (State.overrun_keeps ..) h8 rfl)
      h6 _) fun h9 => ?_
  try clear_value s7
  extract_lets -underBinder +onlyGivenNames -merge s10
  refine .viaKeeps (x := s10) (Keeps.eachIx (fun _ _ h11 =>
      Keeps.ite (Keeps.after (State.setStatus_keeps ..) h11 rfl)
        h11)
      h9) fun h12 => ?_
  try clear_value s10
  exact Keeps.onto h12 [.stage, .disp] rfl
      (Keeps.of rfl rfl id fun x => by cases x <;> first | exact .inr rfl | exact .inl rfl)

theorem State.onBinding_keeps (b : Nat) (f : Binding → Binding) (s : State) :
    Keeps [.disp] s (State.onBinding b f s) := by
  unfold State.onBinding
  exact Keeps.after (Keeps.disp ..) ((.refl _ _)) rfl

theorem State.accountBinding_keeps (b : Nat) (s : State) :
    Keeps [.disp, .book, .safe, .led, .mode] s (State.accountBinding b s) := by
  unfold State.accountBinding
  extract_lets -underBinder +onlyGivenNames -merge a1 a2 a3 a4 s5
  refine .viaKeeps (x := s5) (Keeps.after (State.onBinding_keeps ..) ((.refl _ _)) rfl) fun h6 => ?_
  try clear_value s5
  extract_lets -underBinder +onlyGivenNames -merge a7 a8 a9
  exact Keeps.ite (by
        extract_lets -underBinder +onlyGivenNames -merge a10 s11
        refine .viaKeeps (x := s11) (Keeps.after (State.onBinding_keeps ..) h6 rfl) fun h12 => ?_
        try clear_value s11
        extract_lets -underBinder +onlyGivenNames -merge s13
        refine .viaKeeps (x := s13) (Keeps.after (State.raise_keeps ..) h12 rfl) fun h14 => ?_
        try clear_value s13
        exact Keeps.ite (Keeps.after (State.axisFault_keeps ..) h14 rfl)
            (Keeps.after (State.haltCause_keeps ..) h14 rfl))
      h6

theorem State.dropTimes_keeps (s : State) :
    Keeps [.disp] s (State.dropTimes s) := by
  unfold State.dropTimes
  exact Keeps.eachIx (fun _ _ h1 =>
    Keeps.ite (Keeps.after (State.onTask_keeps ..) h1 rfl)
      h1)
    ((.refl _ _))

theorem State.dispBoundary_keeps (s : State) :
    Keeps [.disp, .book, .safe, .led, .mode] s (State.dispBoundary s) := by
  unfold State.dispBoundary
  extract_lets -underBinder +onlyGivenNames -merge s1
  refine .viaKeeps (x := s1) (Keeps.eachIx (fun _ _ h2 =>
      Keeps.after (State.accountBinding_keeps ..) h2 rfl)
      ((.refl _ _))) fun h3 => ?_
  try clear_value s1
  extract_lets -underBinder +onlyGivenNames -merge a4 s5
  refine .viaKeeps (x := s5) (Keeps.after (State.dropTimes_keeps ..) (Keeps.ite (Keeps.after (State.bpEvent_keeps ..) h3 rfl)
        h3) rfl) fun h6 => ?_
  try clear_value s5
  exact Keeps.after (Keeps.disp ..) h6 rfl

theorem State.clearBinding_keeps (b : Nat) (s : State) :
    Keeps [.disp] s (State.clearBinding b s) := by
  unfold State.clearBinding
  exact Keeps.after (State.onBinding_keeps ..) ((.refl _ _)) rfl

theorem execBudgetExhausted_keeps (t : Nat) (lane : Nat) (s : State) :
    Runs [.disp, .led] s (execBudgetExhausted t lane s) := by
  unfold execBudgetExhausted
  extract_lets -underBinder +onlyGivenNames -merge s1
  refine .viaKeeps (x := s1) (Keeps.after (State.comeTo_keeps ..) (Keeps.after (State.tick_keeps ..) ((.refl _ _)) rfl) rfl) fun h2 => ?_
  try clear_value s1
  split
  · exact Runs.next (Keeps.after (State.select_keeps ..) h2 rfl)
  · exact Runs.ite (Runs.next (Keeps.after (State.select_keeps ..) h2 rfl))
      (Runs.next (Keeps.after (State.select_keeps ..) (Keeps.after (State.overrun_keeps ..) (Keeps.after (State.setLane_keeps ..) h2 rfl) rfl) rfl))

theorem execCancelRequest_keeps (t : Nat) (w : Work) (s : State) :
    Runs [.disp, .led] s (execCancelRequest t w s) := by
  unfold execCancelRequest
  extract_lets -underBinder +onlyGivenNames -merge s1
  refine .viaKeeps (x := s1) (Keeps.after (State.comeTo_keeps ..) (Keeps.after (State.tick_keeps ..) ((.refl _ _)) rfl) rfl) fun h2 => ?_
  try clear_value s1
  extract_lets -underBinder +onlyGivenNames -merge a3 s4
  refine .viaKeeps (x := s4) (Keeps.after (State.cancelWork_keeps ..) h2 rfl) fun h5 => ?_
  try clear_value s4
  exact Runs.next (Keeps.after (State.select_keeps ..) (Keeps.after (Keeps.disp ..) h5 rfl) rfl)

theorem State.waitEvent_keeps (wkind : Nat) (wix : Nat) (s : State) :
    Keeps [.disp, .led] s (State.waitEvent wkind wix s) := by
  unfold State.waitEvent
  exact Keeps.after (State.select_keeps ..) (Keeps.eachIx (fun _ _ h1 =>
      by
        extract_lets -underBinder +onlyGivenNames -merge a2
        exact Keeps.ite (Keeps.after (State.checkReady_keeps ..) (Keeps.after (State.onTask_keeps ..) h1 rfl) rfl)
            h1)
      (Keeps.after (State.comeTo_keeps ..) ((.refl _ _)) rfl)) rfl

theorem execWaitEvent_keeps (t : Nat) (wkind : Nat) (wix : Nat) (s : State) :
    Runs [.disp, .led] s (execWaitEvent t wkind wix s) := by
  unfold execWaitEvent
  exact Runs.next (Keeps.after (State.waitEvent_keeps ..) (Keeps.after (State.tick_keeps ..) ((.refl _ _)) rfl) rfl)

theorem execWaitDeadline_keeps (t : Nat) (task : Nat) (s : State) :
    Runs [.disp, .led] s (execWaitDeadline t task s) := by
  unfold execWaitDeadline
  extract_lets -underBinder +onlyGivenNames -merge s1
  refine .viaKeeps (x := s1) (Keeps.after (State.comeTo_keeps ..) (Keeps.after (State.tick_keeps ..) ((.refl _ _)) rfl) rfl) fun h2 => ?_
  try clear_value s1
  extract_lets -underBinder +onlyGivenNames -merge a3 s4
  refine .viaKeeps (x := s4) (Keeps.after (State.reachDeadline_keeps ..) h2 rfl) fun h5 => ?_
  try clear_value s4
  extract_lets -underBinder +onlyGivenNames -merge a6
  exact Runs.ite (Runs.next (Keeps.after (State.select_keeps ..) h5 rfl))
      (Runs.ite (Runs.next (Keeps.after (State.select_keeps ..) (Keeps.after (State.cancelWork_keeps ..) h5 rfl) rfl))
        (Runs.next (Keeps.after (State.select_keeps ..) (Keeps.after (State.checkReady_keeps ..) h5 rfl) rfl)))

theorem State.kernelSpawn_keeps (by_ : Nat) (task : Nat) (arg : List Octet) (s : State) :
    Keeps [.disp] s (State.kernelSpawn by_ task arg s) := by
  unfold State.kernelSpawn
  extract_lets -underBinder +onlyGivenNames -merge a1
  refine .viaP (fun W => ∀ b0 b1, Keeps W s b1 → Keeps W s (a1 b0 b1)) (fun _ _ h2 =>
    Keeps.after (Keeps.disp ..) h2 rfl) fun h3 => ?_
  try clear_value a1
  split
  · next heq =>
    refine .ofP1 heq (Keeps.after (State.spawn_keeps ..) ((.refl _ _)) rfl) fun h4 => ?_
    exact h3 _ _ h4
  · next heq =>
    refine .ofP1 heq (Keeps.after (State.spawn_keeps ..) ((.refl _ _)) rfl) fun h4 => ?_
    exact h3 _ _ (Keeps.after (Keeps.disp ..) h4 rfl)

theorem execKernelSpawnRequest_keeps (t : Nat) (task : SpawnTask) (arg : List Octet) (s : State) :
    Runs [.disp] s (execKernelSpawnRequest t task arg s) := by
  unfold execKernelSpawnRequest
  extract_lets -underBinder +onlyGivenNames -merge s1
  refine .viaKeeps (x := s1) (Keeps.after (State.tick_keeps ..) ((.refl _ _)) rfl) fun h2 => ?_
  try clear_value s1
  extract_lets -underBinder +onlyGivenNames -merge a3
  exact Runs.ite (Runs.next (Keeps.after (State.kernelSpawn_keeps ..) h2 rfl))
      (Runs.next h2)

theorem State.repeatHeld_keeps (i : Nat) (s : State) :
    Keeps [.disp] s (State.repeatHeld i s) := by
  unfold State.repeatHeld
  extract_lets -underBinder +onlyGivenNames -merge a1 a2
  exact Keeps.foldl (fun _ _ h3 =>
      Keeps.after (State.kernelSpawn_keeps ..) h3 rfl)
      (Keeps.after (Keeps.disp ..) ((.refl _ _)) rfl) _

theorem State.fabArrive_keeps (task : Nat) (arg : List Octet) (s : State) :
    Keeps [.disp] s (State.fabArrive task arg s) := by
  unfold State.fabArrive
  split
  · next heq =>
    refine .ofP1 heq (Keeps.after (State.spawn_keeps ..) ((.refl _ _)) rfl) fun h1 => ?_
    exact h1
  · next heq =>
    refine .ofP1 heq (Keeps.after (State.spawn_keeps ..) ((.refl _ _)) rfl) fun h1 => ?_
    exact Keeps.after (Keeps.disp ..) h1 rfl

theorem State.fabAgain_keeps (s : State) :
    Keeps [.disp] s (State.fabAgain s) := by
  unfold State.fabAgain
  exact Keeps.foldl (fun _ _ h1 =>
    Keeps.after (State.fabArrive_keeps ..) h1 rfl)
    (Keeps.after (Keeps.disp ..) ((.refl _ _)) rfl) _

theorem execStewardSpawnMessage_keeps (t : Nat) (src : Nat) (arg : List Octet) (s : State) :
    Runs [.disp] s (execStewardSpawnMessage t src arg s) := by
  unfold execStewardSpawnMessage
  exact Runs.next (Keeps.after (State.offerSteward_keeps ..) (Keeps.after (State.tick_keeps ..) ((.refl _ _)) rfl) rfl)

theorem execClrResp_keeps (t : Nat) (value : Nat) (s : State) :
    Runs [.disp] s (execClrResp t value s) := by
  unfold execClrResp
  extract_lets -underBinder +onlyGivenNames -merge s1
  refine .viaKeeps (x := s1) (Keeps.after (State.tick_keeps ..) ((.refl _ _)) rfl) fun h2 => ?_
  try clear_value s1
  exact Runs.ite (Runs.next (Keeps.after (Keeps.disp ..) h2 rfl))
      (Runs.next h2)

end Sys2Proof.Machine
end

