-- ==== Sys2Proof/Laws/Edges.lean ====
section
/-! SUPPORT. The laws of the operations of Machine/Edges.lean: which fields of the state each may change. -/

namespace Sys2Proof.Machine

theorem State.onCap_keeps (i : Nat) (f : Cap → Cap) (s : State) :
    Keeps [.cap] s (State.onCap i f s) := by
  unfold State.onCap
  exact Keeps.after (Keeps.cap ..) ((.refl _ _)) rfl

theorem State.capLost_keeps (i : Nat) (s : State) :
    Keeps [.cap] s (State.capLost i s) := by
  unfold State.capLost
  exact Keeps.after (State.onCap_keeps ..) ((.refl _ _)) rfl

theorem execCaptureTransition_keeps (t : Nat) (cap : Nat) (level : Bool) (s : State) :
    Runs [.cap] s (execCaptureTransition t cap level s) := by
  unfold execCaptureTransition
  extract_lets -underBinder +onlyGivenNames -merge s1
  refine .viaKeeps (x := s1) (Keeps.after (State.tick_keeps ..) ((.refl _ _)) rfl) fun h2 => ?_
  try clear_value s1
  extract_lets -underBinder +onlyGivenNames -merge a3
  exact Runs.ite (Runs.next (Keeps.after (State.onCap_keeps ..) h2 rfl))
      (Runs.ite (Runs.next h2)
        (by
          extract_lets -underBinder +onlyGivenNames -merge a4 a5
          exact Runs.next (Keeps.after (State.onCap_keeps ..) h2 rfl)))

theorem State.capRecord_keeps (i : Nat) (t : Nat) (rising : Bool) (s : State) :
    Keeps [.cap, .led] s (State.capRecord i t rising s) := by
  unfold State.capRecord
  extract_lets -underBinder +onlyGivenNames -merge a1
  split
  · exact Keeps.ite (by
        extract_lets -underBinder +onlyGivenNames -merge s2
        refine .viaKeeps (x := s2) (Keeps.after (State.capLost_keeps ..) (Keeps.after (State.onCap_keeps ..) ((.refl _ _)) rfl) rfl) fun h3 => ?_
        try clear_value s2
        exact Keeps.ite (Keeps.after (State.raise_keeps ..) h3 rfl)
            h3)
      (Keeps.after (State.onCap_keeps ..) ((.refl _ _)) rfl)

theorem execCaptureAccept_keeps (t : Nat) (cap : Nat) (s : State) :
    Runs [.disp, .cap, .led] s (execCaptureAccept t cap s) := by
  unfold execCaptureAccept
  extract_lets -underBinder +onlyGivenNames -merge s1
  refine .viaKeeps (x := s1) (Keeps.after (State.tick_keeps ..) ((.refl _ _)) rfl) fun h2 => ?_
  try clear_value s1
  exact Runs.ite (Runs.next h2)
      (by
        extract_lets -underBinder +onlyGivenNames -merge a3
        exact Runs.ite (Runs.next h2)
            (by
              extract_lets -underBinder +onlyGivenNames -merge s4
              refine .viaKeeps (x := s4) (Keeps.after (State.onCap_keeps ..) h2 rfl) fun h5 => ?_
              try clear_value s4
              extract_lets -underBinder +onlyGivenNames -merge a6 a7
              exact Runs.ite (Runs.next (Keeps.ite (Keeps.after (State.onCap_keeps ..) h5 rfl)
                      h5))
                  (Runs.ite (Runs.next h5)
                    (Runs.ite (Runs.next (Keeps.after (State.capLost_keeps ..) h5 rfl))
                      (by
                        extract_lets -underBinder +onlyGivenNames -merge s8
                        refine .viaKeeps (x := s8) (Keeps.after (State.onCap_keeps ..) h5 rfl) fun h9 => ?_
                        try clear_value s8
                        extract_lets -underBinder +onlyGivenNames -merge s10
                        refine .viaKeeps (x := s10) (Keeps.ite (Keeps.after (State.capRecord_keeps ..) h9 rfl)
                            h9) fun h11 => ?_
                        try clear_value s10
                        exact Runs.next (Keeps.after (State.waitEvent_keeps ..) h11 rfl))))))

theorem State.capBoundary_keeps (i : Nat) (s : State) :
    Keeps [.cap] s (State.capBoundary i s) := by
  unfold State.capBoundary
  extract_lets -underBinder +onlyGivenNames -merge a1 s2
  refine .viaKeeps (x := s2) (Keeps.foldl (fun _ _ h3 =>
      by
        extract_lets -underBinder +onlyGivenNames -merge a4 a5
        exact Keeps.after (State.onCap_keeps ..) h3 rfl)
      ((.refl _ _)) _) fun h6 => ?_
  try clear_value s2
  exact Keeps.after (State.onCap_keeps ..) h6 rfl

theorem State.onCmp_keeps (o : Nat) (f : Cmp → Cmp) (s : State) :
    Keeps [.cmp] s (State.onCmp o f s) := by
  unfold State.onCmp
  exact Keeps.after (Keeps.cmp ..) ((.refl _ _)) rfl

theorem State.cmpReseek_keeps (o : Nat) (s : State) :
    Keeps [.cmp] s (State.cmpReseek o s) := by
  unfold State.cmpReseek
  exact Keeps.ite ((.refl _ _))
    (by
      extract_lets -underBinder +onlyGivenNames -merge a1 a2 a3 a4 a5 a6
      split
      · exact Keeps.after (State.onCmp_keeps ..) ((.refl _ _)) rfl
      · exact Keeps.after (State.onCmp_keeps ..) ((.refl _ _)) rfl)

theorem State.cmpPulse_keeps (o : Nat) (t : Nat) (j : Nat) (s : State) :
    Keeps [.cmp, .led] s (State.cmpPulse o t j s) := by
  unfold State.cmpPulse
  extract_lets -underBinder +onlyGivenNames -merge a1 a2
  exact Keeps.ite (Keeps.ite (Keeps.after (State.onCmp_keeps ..) ((.refl _ _)) rfl)
        (Keeps.after (State.raise_keeps ..) (Keeps.after (State.onCmp_keeps ..) ((.refl _ _)) rfl) rfl))
      (by
        extract_lets -underBinder +onlyGivenNames -merge a3
        exact Keeps.after (State.onCmp_keeps ..) ((.refl _ _)) rfl)

theorem State.cmpPass_keeps (o t : Nat) (p d : Int) (n : Nat) (s : State) : Keeps [.cmp, .led] s (State.cmpPass o t p d n s) := by
  induction n generalizing s with
  | zero => exact Keeps.refl _ _
  | succ n ih =>
    unfold State.cmpPass
    split
    · exact Keeps.refl _ _
    · refine Keeps.ite (.refl _ _) ?_
      refine Keeps.trans ?_ (ih _)
      have h (j : Nat) : Keeps [.cmp, .led] s (s.cmpPulse o t j) := State.cmpPulse_keeps ..
      exact Keeps.ite (Keeps.after (State.onCmp_keeps ..) (h _) rfl) (Keeps.after (State.onCmp_keeps ..) (h _) rfl)

theorem State.cmpRearm_keeps (o : Nat) (p : Int) (d : Int) (s : State) :
    Keeps [.cmp] s (State.cmpRearm o p d s) := by
  unfold State.cmpRearm
  split
  · exact Keeps.ite (Keeps.after (State.onCmp_keeps ..) ((.refl _ _)) rfl)
      ((.refl _ _))
  · exact (.refl _ _)

theorem execCompareFire_keeps (t : Nat) (out : Nat) (s : State) :
    Runs [.cmp, .led] s (execCompareFire t out s) := by
  unfold execCompareFire
  extract_lets -underBinder +onlyGivenNames -merge s1
  refine .viaKeeps (x := s1) (Keeps.after (State.tick_keeps ..) ((.refl _ _)) rfl) fun h2 => ?_
  try clear_value s1
  exact Runs.ite (Runs.next h2)
      (by
        extract_lets -underBinder +onlyGivenNames -merge a3
        exact Runs.ite (Runs.next h2)
            (Runs.ite (Runs.next (Keeps.after (State.onCmp_keeps ..) h2 rfl))
              (by
                extract_lets -underBinder +onlyGivenNames -merge a4 a5 s6
                refine .viaKeeps (x := s6) (Keeps.after (State.cmpPass_keeps ..) (Keeps.after (State.cmpRearm_keeps ..) h2 rfl) rfl) fun h7 => ?_
                try clear_value s6
                extract_lets -underBinder +onlyGivenNames -merge a8
                exact Runs.ite (Runs.next (Keeps.after (State.cmpPulse_keeps ..) (Keeps.after (State.onCmp_keeps ..) h7 rfl) rfl))
                    (Runs.next h7))))

theorem execComparePulseEnd_keeps (t : Nat) (out : Nat) (s : State) :
    Runs [.cmp] s (execComparePulseEnd t out s) := by
  unfold execComparePulseEnd
  extract_lets -underBinder +onlyGivenNames -merge s1
  refine .viaKeeps (x := s1) (Keeps.after (State.tick_keeps ..) ((.refl _ _)) rfl) fun h2 => ?_
  try clear_value s1
  exact Runs.ite (Runs.next h2)
      (by
        split
        · exact Runs.ite (Runs.next h2)
            (Runs.next (Keeps.after (State.onCmp_keeps ..) h2 rfl))
        · exact Runs.next h2)

theorem State.cmpBoundary_keeps (o : Nat) (s : State) :
    Keeps [.cmp] s (State.cmpBoundary o s) := by
  unfold State.cmpBoundary
  exact Keeps.ite ((.refl _ _))
    (by
      extract_lets -underBinder +onlyGivenNames -merge a1 a2
      exact Keeps.ite (Keeps.after (State.onCmp_keeps ..) ((.refl _ _)) rfl)
          (Keeps.ite (Keeps.after (State.cmpReseek_keeps ..) (Keeps.after (State.onCmp_keeps ..) ((.refl _ _)) rfl) rfl)
            ((.refl _ _))))

theorem State.cmpAmended_keeps (s : State) (old : State) :
    Keeps [.cmp] s (State.cmpAmended s old) := by
  unfold State.cmpAmended
  exact Keeps.eachIx (fun _ _ h1 =>
    Keeps.ite (Keeps.after (State.cmpReseek_keeps ..) h1 rfl)
      h1)
    ((.refl _ _))

end Sys2Proof.Machine
end

