-- ==== Sys2Proof/Laws/Feedback.lean ====
section
/-! SUPPORT. The laws of the operations of Machine/Feedback.lean: which fields of the state each may change. -/

namespace Sys2Proof.Machine

theorem State.fbFault_keeps (ch : Nat) (cause : Nat) (detail : Int) (s : State) :
    Keeps [.fb, .book, .safe, .led] s (State.fbFault ch cause detail s) := by
  unfold State.fbFault
  exact Keeps.ite ((.refl _ _))
    (by
      extract_lets -underBinder +onlyGivenNames -merge s1
      refine .viaKeeps (x := s1) (Keeps.after (State.onFb_keeps ..) ((.refl _ _)) rfl) fun h2 => ?_
      try clear_value s1
      extract_lets -underBinder +onlyGivenNames -merge s3
      refine .viaKeeps (x := s3) (Keeps.after (State.raise_keeps ..) h2 rfl) fun h4 => ?_
      try clear_value s3
      exact Keeps.eachIx (fun _ _ h5 =>
          Keeps.ite (Keeps.after (State.axisFault_keeps ..) h5 rfl)
            h5)
          h4)

theorem State.edgeError_keeps (ch : Nat) (s : State) :
    Keeps [.fb, .book, .safe, .led] s (State.edgeError ch s) := by
  unfold State.edgeError
  extract_lets -underBinder +onlyGivenNames -merge s1
  refine .viaKeeps (x := s1) (Keeps.after (State.onFb_keeps ..) ((.refl _ _)) rfl) fun h2 => ?_
  try clear_value s1
  exact Keeps.ite (Keeps.after (State.fbFault_keeps ..) h2 rfl)
      h2

theorem State.moveCount_keeps (ch : Nat) (dc : Int) (s : State) :
    Keeps [.fb, .book, .safe, .led] s (State.moveCount ch dc s) := by
  unfold State.moveCount
  extract_lets -underBinder +onlyGivenNames -merge a1 a2 a3 a4 a5 a6 a7 s8
  refine .viaKeeps (x := s8) (Keeps.after (State.onFb_keeps ..) ((.refl _ _)) rfl) fun h9 => ?_
  try clear_value s8
  extract_lets -underBinder +onlyGivenNames -merge s10
  refine .viaKeeps (x := s10) (by
      dsimp -zeta only [s10]
      split
      · exact h9
      · extract_lets -underBinder +onlyGivenNames -merge s11
        refine .viaKeeps (x := s11) (Keeps.ite (Keeps.after (State.axisSaturated_keeps ..) h9 rfl)
            h9) fun h12 => ?_
        try clear_value s11
        exact Keeps.ite (Keeps.after (State.axisSaturated_keeps ..) h12 rfl)
            h12) fun h13 => ?_
  try clear_value s10
  exact Keeps.ite (Keeps.after (State.fbFault_keeps ..) (Keeps.after (State.raise_keeps ..) h13 rfl) rfl)
      h13

theorem State.countIn_keeps (ch : Nat) (dc : Int) (t : Nat) (s : State) :
    Keeps [.fb, .book, .safe, .led] s (State.countIn ch dc t s) := by
  unfold State.countIn
  extract_lets -underBinder +onlyGivenNames -merge a1
  exact Keeps.ite ((.refl _ _))
      (Keeps.after (State.onFb_keeps ..) (Keeps.after (State.moveCount_keeps ..) ((.refl _ _)) rfl) rfl)

theorem State.confirmLine_keeps (t : Nat) (ch : Nat) (line : Nat) (s : State) :
    Keeps [.fb, .book, .safe, .led] s (State.confirmLine t ch line s) := by
  unfold State.confirmLine
  split
  · exact (.refl _ _)
  · extract_lets -underBinder +onlyGivenNames -merge s1
    refine .viaKeeps (x := s1) (Keeps.after (State.onFb_keeps ..) ((.refl _ _)) rfl) fun h2 => ?_
    try clear_value s1
    exact Keeps.ite (Keeps.after (State.onFb_keeps ..) h2 rfl)
        (by
          extract_lets -underBinder +onlyGivenNames -merge s3
          refine .viaKeeps (x := s3) (Keeps.after (State.onFb_keeps ..) h2 rfl) fun h4 => ?_
          try clear_value s3
          exact Keeps.ite (Keeps.after (State.countIn_keeps ..) h4 rfl)
              h4)

theorem State.confirmDue_keeps (t : Nat) (ch : Nat) (s : State) :
    Keeps [.fb, .book, .safe, .led] s (State.confirmDue t ch s) := by
  unfold State.confirmDue
  exact Keeps.foldl (fun _ _ h1 =>
    Keeps.after (State.confirmLine_keeps ..) h1 rfl)
    ((.refl _ _)) _

theorem State.lineChange_keeps (t : Nat) (ch : Nat) (line : Nat) (step : Int) (level : Bool) (s : State) :
    Keeps [.fb, .book, .safe, .led] s (State.lineChange t ch line step level s) := by
  unfold State.lineChange
  extract_lets -underBinder +onlyGivenNames -merge a1
  split
  · extract_lets -underBinder +onlyGivenNames -merge s2
    refine .viaKeeps (x := s2) (Keeps.after (State.onFb_keeps ..) ((.refl _ _)) rfl) fun h3 => ?_
    try clear_value s2
    exact Keeps.after (State.edgeError_keeps ..) (Keeps.after (State.raise_keeps ..) h3 rfl) rfl
  · extract_lets -underBinder +onlyGivenNames -merge a4
    exact Keeps.after (State.onFb_keeps ..) ((.refl _ _)) rfl

theorem State.quadSkip_keeps (t : Nat) (ch : Nat) (s : State) :
    Keeps [.fb, .book, .safe, .led] s (State.quadSkip t ch s) := by
  unfold State.quadSkip
  extract_lets -underBinder +onlyGivenNames -merge s1
  refine .viaKeeps (x := s1) (Keeps.after (State.onFb_keeps ..) ((.refl _ _)) rfl) fun h2 => ?_
  try clear_value s1
  exact Keeps.after (State.edgeError_keeps ..) (Keeps.after (State.raise_keeps ..) h2 rfl) rfl

theorem execQuadTransition_keeps (t : Nat) (ch : Nat) (a : Bool) (b : Bool) (z : Bool) (s : State) :
    Runs [.fb, .book, .safe, .led] s (execQuadTransition t ch a b z s) := by
  unfold execQuadTransition
  extract_lets -underBinder +onlyGivenNames -merge s1
  refine .viaKeeps (x := s1) (Keeps.after (State.tick_keeps ..) ((.refl _ _)) rfl) fun h2 => ?_
  try clear_value s1
  extract_lets -underBinder +onlyGivenNames -merge a3 s4 s5 s6
  refine .viaKeeps (x := s4) (Keeps.after (State.confirmDue_keeps ..) h2 rfl) fun h7 => ?_
  try clear_value s4
  refine .viaKeeps (x := s5) (Keeps.ite (Keeps.after (State.quadSkip_keeps ..) h7 rfl)
      (Keeps.ite (Keeps.after (State.lineChange_keeps ..) h7 rfl)
        (Keeps.ite (Keeps.after (State.lineChange_keeps ..) h7 rfl)
          h7))) fun h8 => ?_
  try clear_value s5
  refine .viaKeeps (x := s6) (Keeps.ite h2
      (Keeps.ite (Keeps.after (State.lineChange_keeps ..) h8 rfl)
        h8)) fun h9 => ?_
  try clear_value s6
  exact Runs.next (Keeps.after (State.onFb_keeps ..) h9 rfl)

theorem execQuadConfirm_keeps (t : Nat) (ch : Nat) (line : Nat) (s : State) :
    Runs [.fb, .book, .safe, .led] s (execQuadConfirm t ch line s) := by
  unfold execQuadConfirm
  extract_lets -underBinder +onlyGivenNames -merge s1
  refine .viaKeeps (x := s1) (Keeps.after (State.tick_keeps ..) ((.refl _ _)) rfl) fun h2 => ?_
  try clear_value s1
  exact Runs.ite (Runs.next h2)
      (Runs.next (Keeps.after (State.confirmLine_keeps ..) h2 rfl))

theorem State.indexAt_keeps (ch : Nat) (e : RawEdge) (s : State) :
    Keeps [.fb, .book, .safe, .led] s (State.indexAt ch e s) := by
  unfold State.indexAt
  extract_lets -underBinder +onlyGivenNames -merge a1 s2
  refine .viaKeeps (x := s2) (Keeps.after (State.onFb_keeps ..) ((.refl _ _)) rfl) fun h3 => ?_
  try clear_value s2
  exact Keeps.ite (Keeps.after (State.onFb_keeps ..) h3 rfl)
      (by
        extract_lets -underBinder +onlyGivenNames -merge a4 s5
        refine .viaKeeps (x := s5) (Keeps.after (State.onFb_keeps ..) h3 rfl) fun h6 => ?_
        try clear_value s5
        exact Keeps.ite (by
              extract_lets -underBinder +onlyGivenNames -merge s7
              refine .viaKeeps (x := s7) (Keeps.after (State.onFb_keeps ..) h6 rfl) fun h8 => ?_
              try clear_value s7
              exact Keeps.ite (Keeps.after (State.onFb_keeps ..) (Keeps.after (State.moveCount_keeps ..) h8 rfl) rfl)
                  h8)
            (by
              extract_lets -underBinder +onlyGivenNames -merge s9
              refine .viaKeeps (x := s9) (Keeps.after (State.onFb_keeps ..) h6 rfl) fun h10 => ?_
              try clear_value s9
              extract_lets -underBinder +onlyGivenNames -merge s11
              refine .viaKeeps (x := s11) (Keeps.after (State.raise_keeps ..) h10 rfl) fun h12 => ?_
              try clear_value s11
              exact Keeps.ite (Keeps.after (State.fbFault_keeps ..) h12 rfl)
                  h12))

theorem execIndexInstant_keeps (t : Nat) (ch : Nat) (s : State) :
    Runs [.fb, .book, .safe, .led] s (execIndexInstant t ch s) := by
  unfold execIndexInstant
  extract_lets -underBinder +onlyGivenNames -merge s1
  refine .viaKeeps (x := s1) (Keeps.after (State.tick_keeps ..) ((.refl _ _)) rfl) fun h2 => ?_
  try clear_value s1
  exact Runs.ite (Runs.next h2)
      (by
        extract_lets -underBinder +onlyGivenNames -merge s3
        refine .viaKeeps (x := s3) (Keeps.after (State.confirmDue_keeps ..) h2 rfl) fun h4 => ?_
        try clear_value s3
        extract_lets -underBinder +onlyGivenNames -merge a5
        split
        · exact Runs.next h4
        · extract_lets -underBinder +onlyGivenNames -merge s6
          refine .viaKeeps (x := s6) (Keeps.after (State.onFb_keeps ..) h4 rfl) fun h7 => ?_
          try clear_value s6
          exact Runs.ite (Runs.next (Keeps.after (State.indexAt_keeps ..) h7 rfl))
              (Runs.next h7))

theorem State.coarse_keeps (ch : Nat) (theta : Nat) (d : Int) (s : State) :
    Keeps1 [.fb, .book, .safe, .led] s (State.coarse ch theta d s) := by
  unfold State.coarse
  extract_lets -underBinder +onlyGivenNames -merge a1 a2
  exact Keeps1.ite (Keeps1.mk ((.refl _ _)))
      (Keeps1.ite (Keeps1.ite (by
            extract_lets -underBinder +onlyGivenNames -merge a3 a4
            exact Keeps1.mk (Keeps.after (State.raise_keeps ..) (Keeps.after (State.onFb_keeps ..) ((.refl _ _)) rfl) rfl))
          (Keeps1.mk (Keeps.after (State.fbFault_keeps ..) ((.refl _ _)) rfl)))
        (Keeps1.ite (Keeps1.mk ((.refl _ _)))
          (by
            extract_lets -underBinder +onlyGivenNames -merge s5
            refine .viaKeeps (x := s5) (Keeps.after (State.onFb_keeps ..) ((.refl _ _)) rfl) fun h6 => ?_
            try clear_value s5
            exact Keeps1.mk (Keeps.after (State.edgeError_keeps ..) (Keeps.after (State.raise_keeps ..) h6 rfl) rfl))))

theorem State.fineShift_keeps (a64 : Nat) (l : Nat) (s : State) :
    Keeps2 [.freeIx] s (State.fineShift a64 l s) := by
  unfold State.fineShift
  extract_lets -underBinder +onlyGivenNames -merge a1 a2
  exact Keeps2.ite (Keeps2.mk ((.refl _ _)))
      (by
        split
        next heq =>
        refine .ofP2 heq (Keeps.after (State.free_keeps ..) ((.refl _ _)) rfl) fun h3 => ?_
        exact Keeps2.mk h3)

theorem State.sinCosTake_keeps (t : Nat) (ch : Nat) (si : Int) (co : Int) (s : State) :
    Keeps [.freeIx, .fb, .book, .safe, .led] s (State.sinCosTake t ch si co s) := by
  unfold State.sinCosTake
  extract_lets -underBinder +onlyGivenNames -merge a1 a2 a3
  exact Keeps.ite (by
        extract_lets -underBinder +onlyGivenNames -merge s4
        refine .viaKeeps (x := s4) (Keeps.after (State.onFb_keeps ..) ((.refl _ _)) rfl) fun h5 => ?_
        try clear_value s4
        extract_lets -underBinder +onlyGivenNames -merge s6
        refine .viaKeeps (x := s6) (Keeps.ite (Keeps.after (State.raise_keeps ..) h5 rfl)
            h5) fun h7 => ?_
        try clear_value s6
        exact Keeps.ite (Keeps.after (State.fbFault_keeps ..) h7 rfl)
            h7)
      (by
        extract_lets -underBinder +onlyGivenNames -merge a8 a9 a10 a11 s12
        refine .viaKeeps (x := s12) (Keeps.ite ((.refl _ _))
            (Keeps.after (State.onFb_keeps ..) ((.refl _ _)) rfl)) fun h13 => ?_
        try clear_value s12
        extract_lets -underBinder +onlyGivenNames -merge a14 a15
        split
        next heq =>
        refine .ofP1 heq (Keeps.after (State.coarse_keeps ..) h13 rfl) fun h16 => ?_
        exact by
          split
          next heq =>
          refine .ofP2 heq (Keeps.after (State.fineShift_keeps ..) h16 rfl) fun h17 => ?_
          exact by
            extract_lets -underBinder +onlyGivenNames -merge a18 a19 a20 s21
            refine .viaKeeps (x := s21) (Keeps.after (State.onFb_keeps ..) h17 rfl) fun h22 => ?_
            try clear_value s21
            exact Keeps.ite (by
                  extract_lets -underBinder +onlyGivenNames -merge s23
                  refine .viaKeeps (x := s23) (Keeps.after (State.countIn_keeps ..) h22 rfl) fun h24 => ?_
                  try clear_value s23
                  exact Keeps.after (State.onFb_keeps ..) h24 rfl)
                (Keeps.after (State.onFb_keeps ..) h22 rfl))

theorem execSsiFrameStart_keeps (t : Nat) (ch : Nat) (s : State) :
    Runs [.fb] s (execSsiFrameStart t ch s) := by
  unfold execSsiFrameStart
  extract_lets -underBinder +onlyGivenNames -merge s1
  refine .viaKeeps (x := s1) (Keeps.after (State.tick_keeps ..) ((.refl _ _)) rfl) fun h2 => ?_
  try clear_value s1
  exact Runs.ite (Runs.next (Keeps.after (State.onFb_keeps ..) h2 rfl))
      (Runs.next h2)

theorem execSsiWord_keeps (t : Nat) (ch : Nat) (word : Nat) (lowFirst : Bool) (allHigh : Bool) (s : State) :
    Runs [.fb, .book, .safe, .led] s (execSsiWord t ch word lowFirst allHigh s) := by
  unfold execSsiWord
  extract_lets -underBinder +onlyGivenNames -merge s1
  refine .viaKeeps (x := s1) (Keeps.after (State.tick_keeps ..) ((.refl _ _)) rfl) fun h2 => ?_
  try clear_value s1
  extract_lets -underBinder +onlyGivenNames -merge a3
  exact Runs.ite (Runs.next h2)
      (by
        split
        · exact Runs.next h2
        · extract_lets -underBinder +onlyGivenNames -merge s4
          refine .viaKeeps (x := s4) (Keeps.after (State.onFb_keeps ..) h2 rfl) fun h5 => ?_
          try clear_value s4
          extract_lets -underBinder +onlyGivenNames -merge a6
          exact Runs.ite (by
                extract_lets -underBinder +onlyGivenNames -merge s7
                refine .viaKeeps (x := s7) (Keeps.after (State.onFb_keeps ..) h5 rfl) fun h8 => ?_
                try clear_value s7
                extract_lets -underBinder +onlyGivenNames -merge s9
                refine .viaKeeps (x := s9) (Keeps.after (State.raise_keeps ..) h8 rfl) fun h10 => ?_
                try clear_value s9
                exact Runs.ite (Runs.next (Keeps.after (State.fbFault_keeps ..) h10 rfl))
                    (Runs.next h10))
              (Runs.ite (Runs.next (Keeps.after (State.onFb_keeps ..) h5 rfl))
                (by
                  extract_lets -underBinder +onlyGivenNames -merge a11 a12 a13 s14
                  refine .viaKeeps (x := s14) (Keeps.after (State.onFb_keeps ..) h5 rfl) fun h15 => ?_
                  try clear_value s14
                  extract_lets -underBinder +onlyGivenNames -merge s16
                  refine .viaKeeps (x := s16) (Keeps.after (State.countIn_keeps ..) h15 rfl) fun h17 => ?_
                  try clear_value s16
                  exact Runs.next (Keeps.after (State.onFb_keeps ..) h17 rfl))))

theorem execSsiDelayMeasure_keeps (t : Nat) (ch : Nat) (delays : List (Option Nat)) (s : State) :
    Runs [.fb, .book, .safe, .led, .wake] s (execSsiDelayMeasure t ch delays s) := by
  unfold execSsiDelayMeasure
  extract_lets -underBinder +onlyGivenNames -merge s1
  refine .viaKeeps (x := s1) (Keeps.after (State.tick_keeps ..) ((.refl _ _)) rfl) fun h2 => ?_
  try clear_value s1
  exact Runs.ite (Runs.next h2)
      (Runs.ite (Runs.next h2)
        (by
          extract_lets -underBinder +onlyGivenNames -merge r3 s4
          refine .viaKeeps (x := s4) (Keeps.after (Keeps.wake ..) h2 rfl) fun h5 => ?_
          try clear_value s4
          exact Runs.ite (Runs.next (Keeps.after (State.fbFault_keeps ..) (Keeps.after (State.raise_keeps ..) h5 rfl) rfl))
              (by
                extract_lets -underBinder +onlyGivenNames -merge a6 a7
                exact Runs.ite (Runs.next (Keeps.after (State.fbFault_keeps ..) (Keeps.after (State.raise_keeps ..) h5 rfl) rfl))
                    (Runs.next (Keeps.after (State.onFb_keeps ..) h5 rfl)))))

theorem State.speedSaturated_keeps (ch : Nat) (v : Int) (s : State) :
    Keeps [.book, .safe, .led] s (State.speedSaturated ch v s) := by
  unfold State.speedSaturated
  exact Keeps.ite ((.refl _ _))
    (Keeps.eachIx (fun _ _ h1 =>
      Keeps.ite (Keeps.after (State.axisSaturated_keeps ..) h1 rfl)
        h1)
      ((.refl _ _)))

theorem State.latchFb_keeps (tb : Nat) (ch : Nat) (s : State) :
    Keeps [.fb, .snap, .snapPrev, .book, .safe, .led] s (State.latchFb tb ch s) := by
  unfold State.latchFb
  extract_lets -underBinder +onlyGivenNames -merge s1
  refine .viaKeeps (x := s1) (Keeps.ite (Keeps.after (State.confirmDue_keeps ..) ((.refl _ _)) rfl)
      ((.refl _ _))) fun h2 => ?_
  try clear_value s1
  extract_lets -underBinder +onlyGivenNames -merge a3 a4 a5 s6
  refine .viaKeeps (x := s6) (Keeps.after (State.speedSaturated_keeps ..) h2 rfl) fun h7 => ?_
  try clear_value s6
  extract_lets -underBinder +onlyGivenNames -merge a8 a9 a10
  split
  · extract_lets -underBinder +onlyGivenNames -merge a11 a12 a13 s14
    refine .viaKeeps (x := s14) (Keeps.after (State.onFb_keeps ..) h7 rfl) fun h15 => ?_
    try clear_value s14
    exact Keeps.onto h15 [.snap, .snapPrev] rfl
        (Keeps.of rfl rfl id fun x => by cases x <;> first | exact .inr rfl | exact .inl rfl)

theorem State.clearFb_keeps (ch : Nat) (s : State) :
    Keeps [.fb, .ax, .pre] s (State.clearFb ch s) := by
  unfold State.clearFb
  exact Keeps.ite ((.refl _ _))
    (by
      extract_lets -underBinder +onlyGivenNames -merge a1 s2
      refine .viaKeeps (x := s2) (Keeps.after (State.onFb_keeps ..) ((.refl _ _)) rfl) fun h3 => ?_
      try clear_value s2
      clear_value a1
      split
      · exact h3
      · exact Keeps.after (State.setHomed_keeps ..) h3 rfl
      · exact h3)

theorem State.chatterStop_keeps (i : Nat) (s : State) :
    Keeps [.book] s (State.chatterStop i s) := by
  unfold State.chatterStop
  split
  · exact (.refl _ _)
  · extract_lets -underBinder +onlyGivenNames -merge s1
    refine .viaKeeps (x := s1) (Keeps.after (State.onBook_keeps ..) ((.refl _ _)) rfl) fun h2 => ?_
    try clear_value s1
    exact Keeps.ite (Keeps.after (State.order_keeps ..) h2 rfl)
        h2

theorem execDinRawTransition_keeps (t : Nat) (din : Nat) (level : Bool) (s : State) :
    Runs [.din, .book, .led] s (execDinRawTransition t din level s) := by
  unfold execDinRawTransition
  extract_lets -underBinder +onlyGivenNames -merge s1
  refine .viaKeeps (x := s1) (Keeps.after (State.tick_keeps ..) ((.refl _ _)) rfl) fun h2 => ?_
  try clear_value s1
  extract_lets -underBinder +onlyGivenNames -merge a3
  exact Runs.ite (Runs.next (Keeps.after (State.onDin_keeps ..) h2 rfl))
      (Runs.ite (by
          extract_lets -underBinder +onlyGivenNames -merge a4 a5 a6 s7
          refine .viaKeeps (x := s7) (Keeps.after (State.onDin_keeps ..) h2 rfl) fun h8 => ?_
          try clear_value s7
          exact Runs.ite (by
                extract_lets -underBinder +onlyGivenNames -merge s9
                refine .viaKeeps (x := s9) (Keeps.after (State.onDin_keeps ..) h8 rfl) fun h10 => ?_
                try clear_value s9
                exact Runs.next (Keeps.after (State.chatterStop_keeps ..) (Keeps.after (State.raise_keeps ..) h10 rfl) rfl))
              (Runs.next h8))
        (Runs.next h2))

theorem State.dinChange_keeps (i : Nat) (s : State) :
    Keeps [.din] s (State.dinChange i s) := by
  unfold State.dinChange
  exact Keeps.after (State.onDin_keeps ..) ((.refl _ _)) rfl

theorem execDinFirstLevel_keeps (t : Nat) (din : Nat) (s : State) :
    Runs [.din] s (execDinFirstLevel t din s) := by
  unfold execDinFirstLevel
  extract_lets -underBinder +onlyGivenNames -merge s1
  refine .viaKeeps (x := s1) (Keeps.after (State.tick_keeps ..) ((.refl _ _)) rfl) fun h2 => ?_
  try clear_value s1
  extract_lets -underBinder +onlyGivenNames -merge a3
  exact Runs.ite (Runs.next (Keeps.after (State.onDin_keeps ..) h2 rfl))
      (Runs.next h2)

theorem State.latchDin_keeps (s : State) :
    Keeps [.din, .dinSnap, .dinPrev] s (State.latchDin s) := by
  unfold State.latchDin
  exact Keeps.onto ((.refl _ _)) [.din, .dinSnap, .dinPrev] rfl
    (Keeps.of rfl rfl id fun x => by cases x <;> first | exact .inr rfl | exact .inl rfl)

theorem State.ainStep_keeps (i : Nat) (step : Nat) (raw : Int) (v : Int) (s : State) :
    Keeps1 [.led] s (State.ainStep i step raw v s) := by
  unfold State.ainStep
  extract_lets -underBinder +onlyGivenNames -merge a1
  exact Keeps1.ite (Keeps1.mk ((.refl _ _)))
      (Keeps1.mk (Keeps.after (State.raise_keeps ..) ((.refl _ _)) rfl))

theorem State.latchTemp_keeps (s : State) :
    Keeps [.t16] s (State.latchTemp s) := by
  unfold State.latchTemp
  exact Keeps.ite ((.refl _ _))
    (Keeps.after (Keeps.t16 ..) ((.refl _ _)) rfl)

theorem State.ainTake_keeps (i : Nat) (new : List Int) (s : State) :
    Keeps [.ain, .led] s (State.ainTake i new s) := by
  unfold State.ainTake
  extract_lets -underBinder +onlyGivenNames -merge a1 a2 a3
  split
  next heq =>
  refine .ofP1 heq (Keeps.after (State.ainStep_keeps ..) ((.refl _ _)) rfl) fun h4 => ?_
  exact by
    split
    next heq =>
    refine .ofP1 heq (Keeps.after (State.ainStep_keeps ..) h4 rfl) fun h5 => ?_
    exact by
      split
      next heq =>
      refine .ofP1 heq (Keeps.after (State.ainStep_keeps ..) h5 rfl) fun h6 => ?_
      exact by
        extract_lets -underBinder +onlyGivenNames -merge a7
        split
        next heq =>
        refine .ofP1 heq (Keeps.after (State.ainStep_keeps ..) h6 rfl) fun h8 => ?_
        exact Keeps.after (Keeps.ain ..) h8 rfl

theorem State.emuBoundary_keeps (e : Nat) (s : State) :
    Keeps [.emu, .led] s (State.emuBoundary e s) := by
  unfold State.emuBoundary
  extract_lets -underBinder +onlyGivenNames -merge a1
  exact Keeps.ite ((.refl _ _))
      (by
        extract_lets -underBinder +onlyGivenNames -merge a2 a3 a4 a5 a6 a7 a8 a9 a10 s11
        refine .viaKeeps (x := s11) (Keeps.after (Keeps.emu ..) ((.refl _ _)) rfl) fun h12 => ?_
        try clear_value s11
        exact Keeps.ite (Keeps.after (State.raise_keeps ..) h12 rfl)
            h12)

theorem execEmuStep_keeps (t : Nat) (emu : Nat) (s : State) :
    Runs [.emu] s (execEmuStep t emu s) := by
  unfold execEmuStep
  extract_lets -underBinder +onlyGivenNames -merge s1
  refine .viaKeeps (x := s1) (Keeps.after (State.tick_keeps ..) ((.refl _ _)) rfl) fun h2 => ?_
  try clear_value s1
  extract_lets -underBinder +onlyGivenNames -merge a3
  exact Runs.ite (Runs.next h2)
      (by
        extract_lets -underBinder +onlyGivenNames -merge a4 a5 a6 a7
        exact Runs.next (Keeps.after (Keeps.emu ..) h2 rfl))

theorem State.clearEmu_keeps (e : Nat) (s : State) :
    Keeps [.emu] s (State.clearEmu e s) := by
  unfold State.clearEmu
  exact Keeps.after (Keeps.emu ..) ((.refl _ _)) rfl

end Sys2Proof.Machine
end

