-- ==== Sys2Proof/Laws/Current.lean ====
section
/-! SUPPORT. The laws of the operations of Machine/Current.lean: which fields of the state each may change. -/

namespace Sys2Proof.Machine

theorem HalfBr.off_exclusive (t : Nat) (b : HalfBr) : (b.off t).exclusive = true := rfl

theorem all_set {α : Type} {p : α → Bool} {l : List α} {i : Nat} {a : α} (h : l.all p = true) (ha : p a = true) :
    (l.set i a).all p = true :=
  List.all_eq_true.mpr fun x hx => (List.mem_or_eq_of_mem_set hx).elim (fun m => List.all_eq_true.mp h x m) (fun e => e ▸ ha)

theorem State.gatesOff_keeps (a t : Nat) (s : State) : Keeps [.cax] s (State.gatesOff a t s) :=
  State.onCax_keeps _ _ _ fun x _ => by
    refine List.all_eq_true.mpr fun b hb => ?_
    obtain ⟨c, _, rfl⟩ := List.mem_map.mp hb
    exact HalfBr.off_exclusive t c

theorem State.currentFault_keeps (a : Nat) (t : Nat) (k : Nat) (src : Nat) (detail : Int) (s : State) :
    Keeps [.cax, .book, .safe, .led] s (State.currentFault a t k src detail s) := by
  unfold State.currentFault
  extract_lets -underBinder +onlyGivenNames -merge s1
  refine .viaKeeps (x := s1) (Keeps.after (State.gatesOff_keeps ..) ((.refl _ _)) rfl) fun h2 => ?_
  try clear_value s1
  extract_lets -underBinder +onlyGivenNames -merge s3
  refine .viaKeeps (x := s3) (Keeps.after (State.onCax_brs (h := fun _ => rfl) ..) h2 rfl) fun h4 => ?_
  try clear_value s3
  extract_lets -underBinder +onlyGivenNames -merge s5
  refine .viaKeeps (x := s5) (Keeps.after (State.raise_keeps ..) h4 rfl) fun h6 => ?_
  try clear_value s5
  exact Keeps.after (State.axisFault_keeps ..) h6 rfl

theorem State.channelFault_keeps (c : Nat) (t : Nat) (k : Nat) (detail : Int) (s : State) :
    Keeps [.ch, .cax, .book, .safe, .led] s (State.channelFault c t k detail s) := by
  unfold State.channelFault
  split
  · exact (.refl _ _)
  · exact Keeps.ite ((.refl _ _))
      (Keeps.after (State.currentFault_keeps ..) (Keeps.after (State.onCh_keeps ..) ((.refl _ _)) rfl) rfl)

theorem State.clearCurrent_keeps (a : Nat) (s : State) :
    Keeps [.ch, .cax] s (State.clearCurrent a s) := by
  unfold State.clearCurrent
  extract_lets -underBinder +onlyGivenNames -merge s1
  refine .viaKeeps (x := s1) (Keeps.after (State.onCax_brs (h := fun _ => rfl) ..) ((.refl _ _)) rfl) fun h2 => ?_
  try clear_value s1
  exact Keeps.eachIx (fun _ _ h3 =>
      Keeps.after (State.onCh_keeps ..) h3 rfl)
      h2

theorem State.commitSp_keeps (a : Nat) (id : Int) (iq : Int) (theta0 : Nat) (omega : Int) (s : State) :
    Keeps [.cax, .ax, .led] s (State.commitSp a id iq theta0 omega s) := by
  unfold State.commitSp
  extract_lets -underBinder +onlyGivenNames -merge a1 a2 a3 a4 s5
  refine .viaKeeps (x := s5) (Keeps.ite (Keeps.after (State.raise_keeps ..) ((.refl _ _)) rfl)
      ((.refl _ _))) fun h6 => ?_
  try clear_value s5
  extract_lets -underBinder +onlyGivenNames -merge s7
  refine .viaKeeps (x := s7) (Keeps.ite (Keeps.after (State.raise_keeps ..) h6 rfl)
      h6) fun h8 => ?_
  try clear_value s7
  extract_lets -underBinder +onlyGivenNames -merge s9
  refine .viaKeeps (x := s9) (Keeps.after (State.onCax_brs (h := fun _ => rfl) ..) h8 rfl) fun h10 => ?_
  try clear_value s9
  exact Keeps.after (State.onAx_keeps ..) h10 rfl

theorem State.setGain_keeps (a : Nat) (g : Nat) (s : State) :
    Keeps [.cax, .led] s (State.setGain a g s) := by
  unfold State.setGain
  extract_lets -underBinder +onlyGivenNames -merge a1 a2 a3 s4
  refine .viaKeeps (x := s4) (Keeps.after (State.onCax_brs (h := fun _ => rfl) ..) ((.refl _ _)) rfl) fun h5 => ?_
  try clear_value s4
  clear_value a2
  split
  · exact Keeps.ite h5
      (Keeps.after (State.raise_keeps ..) h5 rfl)
  · exact h5

theorem State.gainUpdate_keeps (a : Nat) (i : Nat) (j : Nat) (di : Int × Int) (dj : Int × Int) (s : State) :
    Keeps [.cax, .led] s (State.gainUpdate a i j di dj s) := by
  unfold State.gainUpdate
  extract_lets -underBinder +onlyGivenNames -merge a1 a2 a3 a4 a5 a6 a7
  exact Keeps.after (State.setGain_keeps ..) ((.refl _ _)) rfl

theorem State.onEng_keeps (a : Nat) (e : Nat) (f : Eng → Eng) (s : State) :
    Keeps [.cax] s (State.onEng a e f s) := by
  unfold State.onEng
  exact Keeps.after (State.onCax_brs (h := fun _ => rfl) ..) ((.refl _ _)) rfl

theorem State.refreshSlope_keeps (a : Nat) (e : Nat) (tn : Nat) (tb : Nat) (delay : Nat) (s : State) :
    Keeps [.cax, .led] s (State.refreshSlope a e tn tb delay s) := by
  unfold State.refreshSlope
  extract_lets -underBinder +onlyGivenNames -merge a1 a2
  exact Keeps.ite ((.refl _ _))
      (by
        extract_lets -underBinder +onlyGivenNames -merge a3 s4
        refine .viaKeeps (x := s4) (Keeps.after (State.onEng_keeps ..) ((.refl _ _)) rfl) fun h5 => ?_
        try clear_value s4
        split
        · exact Keeps.after (State.gainUpdate_keeps ..) h5 rfl
        · exact h5)

theorem State.schedule_keeps (a : Nat) (e : Nat) (t : Int) (done : Nat) (p : Nat) (d : Int × Int) (s : State) :
    Keeps [.cax] s (State.schedule a e t done p d s) := by
  unfold State.schedule
  extract_lets -underBinder +onlyGivenNames -merge a1 a2
  exact Keeps.after (State.onEng_keeps ..) ((.refl _ _)) rfl

theorem State.voltNote_keeps (a : Nat) (e : Nat) (t : Nat) (limited : Bool) (s : State) :
    Keeps [.cax] s (State.voltNote a e t limited s) := by
  unfold State.voltNote
  exact Keeps.after (State.onCax_brs (h := fun _ => rfl) ..) (Keeps.after (State.onEng_keeps ..) ((.refl _ _)) rfl) rfl

theorem State.decideScalar_keeps (a : Nat) (e : Nat) (base : Nat) (tn : Nat) (tb : Nat) (delay : Nat) (start : Bool) (s : State) :
    Keeps [.cax] s (State.decideScalar a e base tn tb delay start s) := by
  unfold State.decideScalar
  extract_lets -underBinder +onlyGivenNames -merge a1 a2 a3 a4 a5 a6 a7 s8
  refine .viaKeeps (x := s8) (Keeps.after (State.onEng_keeps ..) ((.refl _ _)) rfl) fun h9 => ?_
  try clear_value s8
  exact Keeps.ite (Keeps.ite h9
        (Keeps.after (State.schedule_keeps ..) h9 rfl))
      (by
        extract_lets -underBinder +onlyGivenNames -merge a10 a11 a12 a13 a14
        exact Keeps.ite (Keeps.after (State.voltNote_keeps ..) h9 rfl)
            (by
              extract_lets -underBinder +onlyGivenNames -merge a15 a16 a17 a18 a19 s20
              refine .viaKeeps (x := s20) (Keeps.after (State.voltNote_keeps ..) h9 rfl) fun h21 => ?_
              try clear_value s20
              exact Keeps.ite h21
                  (Keeps.after (State.schedule_keeps ..) h21 rfl)))

theorem State.decideVector_keeps (a : Nat) (base : Nat) (tn : Nat) (tb : Nat) (delay : Nat) (start : Bool) (s : State) :
    Keeps [.cax] s (State.decideVector a base tn tb delay start s) := by
  unfold State.decideVector
  extract_lets -underBinder +onlyGivenNames -merge a1 a2 a3 a4 a5 a6 a7 a8 a9 a10 a11 a12 a13 a14 a15 a16
  clear_value a16
  split
  · exact Keeps.after (State.voltNote_keeps ..) ((.refl _ _)) rfl
  · extract_lets -underBinder +onlyGivenNames -merge a17
    split
    · exact Keeps.after (State.voltNote_keeps ..) ((.refl _ _)) rfl
    · exact Keeps.after (State.schedule_keeps ..) (Keeps.after (State.voltNote_keeps ..) ((.refl _ _)) rfl) rfl

theorem State.startEng_keeps (a : Nat) (e : Nat) (base : Nat) (s : State) :
    Keeps [.cax] s (State.startEng a e base s) := by
  unfold State.startEng
  extract_lets -underBinder +onlyGivenNames -merge a1 a2
  exact Keeps.after (State.onEng_keeps ..) ((.refl _ _)) rfl

theorem State.bridgeDecide_keeps (a : Nat) (e : Nat) (c : Nat) (base : Nat) (s : State) :
    Keeps [.cax, .led] s (State.bridgeDecide a e c base s) := by
  unfold State.bridgeDecide
  extract_lets -underBinder +onlyGivenNames -merge a1 a2
  split
  · exact Keeps.ite ((.refl _ _))
      (by
        extract_lets -underBinder +onlyGivenNames -merge a3 s4
        refine .viaKeeps (x := s4) (Keeps.after (State.refreshSlope_keeps ..) ((.refl _ _)) rfl) fun h5 => ?_
        try clear_value s4
        extract_lets -underBinder +onlyGivenNames -merge a6 s7
        refine .viaKeeps (x := s7) (Keeps.ite (Keeps.after (State.startEng_keeps ..) h5 rfl)
            h5) fun h8 => ?_
        try clear_value s7
        exact Keeps.ite (Keeps.after (State.decideVector_keeps ..) h8 rfl)
            (Keeps.after (State.decideScalar_keeps ..) h8 rfl))
  · exact (.refl _ _)

theorem State.bitFaults_keeps (c : Nat) (t : Nat) (s : State) :
    Keeps [.ch, .cax, .book, .safe, .led] s (State.bitFaults c t s) := by
  unfold State.bitFaults
  split
  · exact (.refl _ _)
  · extract_lets -underBinder +onlyGivenNames -merge a1 a2 a3 a4 a5 s6
    refine .viaKeeps (x := s6) (Keeps.after (State.onCh_keeps ..) ((.refl _ _)) rfl) fun h7 => ?_
    try clear_value s6
    extract_lets -underBinder +onlyGivenNames -merge s8
    refine .viaKeeps (x := s8) (Keeps.ite (Keeps.after (State.channelFault_keeps ..) h7 rfl)
        h7) fun h9 => ?_
    try clear_value s8
    extract_lets -underBinder +onlyGivenNames -merge s10
    refine .viaKeeps (x := s10) (Keeps.ite (Keeps.after (State.channelFault_keeps ..) h9 rfl)
        h9) fun h11 => ?_
    try clear_value s10
    extract_lets -underBinder +onlyGivenNames -merge a12 s13
    refine .viaKeeps (x := s13) (Keeps.ite (Keeps.after (State.channelFault_keeps ..) h11 rfl)
        h11) fun h14 => ?_
    try clear_value s13
    extract_lets -underBinder +onlyGivenNames -merge s15
    refine .viaKeeps (x := s15) (Keeps.ite (Keeps.after (State.channelFault_keeps ..) h14 rfl)
        h14) fun h16 => ?_
    try clear_value s15
    extract_lets -underBinder +onlyGivenNames -merge s17
    refine .viaKeeps (x := s17) (Keeps.ite (Keeps.after (State.channelFault_keeps ..) h16 rfl)
        h16) fun h18 => ?_
    try clear_value s17
    exact Keeps.ite (Keeps.after (State.channelFault_keeps ..) h18 rfl)
        h18

theorem State.takeBit_keeps (c : Nat) (tn : Nat) (b : Int) (s : State) :
    Keeps [.freeIx, .ch] s (State.takeBit c tn b s) := by
  unfold State.takeBit
  extract_lets -underBinder +onlyGivenNames -merge a1
  split
  next heq =>
  refine .ofP2 heq (by
      split
      · exact Keeps2.mk ((.refl _ _))
      · split
        next heq =>
        refine .ofP2 heq (Keeps.after (State.free_keeps ..) ((.refl _ _)) rfl) fun h2 => ?_
        exact Keeps2.mk h2) fun h3 => ?_
  exact by
    extract_lets -underBinder +onlyGivenNames -merge a4 a5 a6
    exact Keeps.after (State.onCh_keeps ..) h3 rfl

theorem execModulatorBit_keeps (ticks : Nat) (ch : Nat) (bit : Sample) (s : State) :
    Runs [.freeIx, .ch, .cax, .book, .safe, .led] s (execModulatorBit ticks ch bit s) := by
  unfold execModulatorBit
  extract_lets -underBinder +onlyGivenNames -merge s1
  refine .viaKeeps (x := s1) (Keeps.after (State.tick_keeps ..) ((.refl _ _)) rfl) fun h2 => ?_
  try clear_value s1
  exact Runs.ite (Runs.next h2)
      (by
        extract_lets -underBinder +onlyGivenNames -merge a3
        exact Runs.ite (Runs.next h2)
            (by
              extract_lets -underBinder +onlyGivenNames -merge a4 a5 a6 s7
              refine .viaKeeps (x := s7) (Keeps.after (State.onCh_keeps ..) h2 rfl) fun h8 => ?_
              try clear_value s7
              extract_lets -underBinder +onlyGivenNames -merge s9
              refine .viaKeeps (x := s9) (Keeps.after (State.takeBit_keeps ..) h8 rfl) fun h10 => ?_
              try clear_value s9
              extract_lets -underBinder +onlyGivenNames -merge s11
              refine .viaKeeps (x := s11) (Keeps.after (State.bitFaults_keeps ..) h10 rfl) fun h12 => ?_
              try clear_value s11
              split
              · exact Runs.next h12
              · exact Runs.next (Keeps.after (State.bridgeDecide_keeps ..) h12 rfl)))

theorem CurAx.addCentre_exclusive (x : CurAx) (second : Bool) (step : Int) (h : x.exclusive = true) :
    (x.addCentre second step).exclusive = true := by
  unfold CurAx.addCentre
  dsimp only
  split <;> exact h

theorem State.centreUpdate_keeps (a c tn : Nat) (s : State) : Keeps [.cax] s (State.centreUpdate a c tn s) := by
  unfold State.centreUpdate
  dsimp only
  repeat' split
  · exact Keeps.refl _ _
  · exact State.onCax_keeps _ _ _ fun _ h => CurAx.addCentre_exclusive _ _ _ (CurAx.addCentre_exclusive _ _ _ h)
  · exact State.onCax_keeps _ _ _ fun _ h => CurAx.addCentre_exclusive _ _ _ h

theorem execAccurateEstimate_keeps (ticks : Nat) (ch : Nat) (s : State) :
    Runs [.ch, .cax, .book, .safe, .led] s (execAccurateEstimate ticks ch s) := by
  unfold execAccurateEstimate
  extract_lets -underBinder +onlyGivenNames -merge s1
  refine .viaKeeps (x := s1) (Keeps.after (State.tick_keeps ..) ((.refl _ _)) rfl) fun h2 => ?_
  try clear_value s1
  exact Runs.ite (Runs.next h2)
      (Runs.ite (Runs.next h2)
        (by
          extract_lets -underBinder +onlyGivenNames -merge a3 a4 s5
          refine .viaKeeps (x := s5) (Keeps.after (State.onCh_keeps ..) h2 rfl) fun h6 => ?_
          try clear_value s5
          split
          · exact Runs.next h6
          · extract_lets -underBinder +onlyGivenNames -merge s7
            refine .viaKeeps (x := s7) (Keeps.ite (Keeps.after (State.channelFault_keeps ..) h6 rfl)
                h6) fun h8 => ?_
            try clear_value s7
            exact Runs.next (Keeps.after (State.centreUpdate_keeps ..) h8 rfl)))

theorem State.offsetUpdate_keeps (c : Nat) (t : Nat) (s : State) :
    Keeps [.ch, .cax, .book, .safe, .led] s (State.offsetUpdate c t s) := by
  unfold State.offsetUpdate
  extract_lets -underBinder +onlyGivenNames -merge a1 a2 a3 a4 a5 a6 s7
  refine .viaKeeps (x := s7) (Keeps.after (State.onCh_keeps ..) ((.refl _ _)) rfl) fun h8 => ?_
  try clear_value s7
  extract_lets -underBinder +onlyGivenNames -merge a9 s10
  refine .viaKeeps (x := s10) (Keeps.ite (Keeps.after (State.raise_keeps ..) h8 rfl)
      h8) fun h11 => ?_
  try clear_value s10
  exact Keeps.ite (Keeps.after (State.channelFault_keeps ..) (Keeps.after (State.raise_keeps ..) h11 rfl) rfl)
      h11

theorem State.zeroInstants_keeps (a : Nat) (e : Nat) (t : Nat) (s : State) :
    Keeps [.ch, .cax, .book, .safe, .led] s (State.zeroInstants a e t s) := by
  unfold State.zeroInstants
  extract_lets -underBinder +onlyGivenNames -merge a1 a2 a3 a4 a5 a6
  exact Keeps.ite ((.refl _ _))
      (Keeps.foldl (fun _ _ h7 =>
        by
          extract_lets -underBinder +onlyGivenNames -merge a8
          exact Keeps.ite h7
              (by
                extract_lets -underBinder +onlyGivenNames -merge s9
                refine .viaKeeps (x := s9) (Keeps.after (State.onCh_keeps ..) h7 rfl) fun h10 => ?_
                try clear_value s9
                exact Keeps.ite h10
                    (Keeps.after (State.offsetUpdate_keeps ..) h10 rfl)))
        ((.refl _ _)) _)

theorem State.axisTick_keeps (t : Nat) (a : Nat) (s : State) :
    Keeps [.ch, .cax, .book, .safe, .led] s (State.axisTick t a s) := by
  unfold State.axisTick
  extract_lets -underBinder +onlyGivenNames -merge a1
  exact Keeps.ite ((.refl _ _))
      (by
        extract_lets -underBinder +onlyGivenNames -merge a2 a3 s4
        refine .viaKeeps (x := s4) (Keeps.after (State.onCax_brs (h := fun _ => rfl) ..) ((.refl _ _)) rfl) fun h5 => ?_
        try clear_value s4
        extract_lets -underBinder +onlyGivenNames -merge s6
        refine .viaKeeps (x := s6) (Keeps.eachIx (fun _ _ h7 =>
            Keeps.after (State.zeroInstants_keeps ..) h7 rfl)
            h5) fun h8 => ?_
        try clear_value s6
        exact Keeps.eachIx (fun _ _ h9 =>
            Keeps.after (State.bridgeDecide_keeps ..) h9 rfl)
            h8)

theorem execAngleTick_keeps (t : Nat) (s : State) :
    Runs [.ch, .cax, .book, .safe, .led] s (execAngleTick t s) := by
  unfold execAngleTick
  extract_lets -underBinder +onlyGivenNames -merge s1
  refine .viaKeeps (x := s1) (Keeps.after (State.tick_keeps ..) ((.refl _ _)) rfl) fun h2 => ?_
  try clear_value s1
  extract_lets -underBinder +onlyGivenNames -merge a3
  exact Runs.ite (Runs.next h2)
      (Runs.next (Keeps.eachIx (fun _ _ h4 =>
          Keeps.ite (Keeps.after (State.axisTick_keeps ..) h4 rfl)
            h4)
          h2))

theorem HalfBr.edge_exclusive (t d : Nat) (lv : Bool) (b : HalfBr) : (b.edge t d lv).exclusive = true := rfl

theorem HalfBr.fire_exclusive (t d m : Nat) (lv : Bool) (b : HalfBr) (h : b.exclusive = true) :
    (b.fire t d m lv).1.exclusive = true := by
  unfold HalfBr.fire
  repeat' split
  all_goals first | exact h | rfl

/-- A bank without a half-bridge reads one with both gates off. -/
theorem nth_exclusive (l : List HalfBr) (i : Nat) (h : l.all HalfBr.exclusive = true) : (nth l i).exclusive = true := by
  unfold nth
  rw [List.getD_eq_getElem?_getD]
  cases e : l[i]? with
  | none => rfl
  | some b => exact List.all_eq_true.mp h b (List.mem_of_getElem? e)

theorem foldl_exclusive {α : Type} (f : CurAx → α → CurAx) (h : ∀ x a, x.exclusive = true → (f x a).exclusive = true)
    (l : List α) : ∀ x : CurAx, x.exclusive = true → (l.foldl f x).exclusive = true := by
  induction l with
  | nil => intro x hx; exact hx
  | cons a l ih => intro x hx; exact ih _ (h x a hx)

theorem State.applyState_keeps (a e : Nat) (sc : Sched) (s : State) : Keeps [.cax] s (State.applyState a e sc s) := by
  unfold State.applyState
  dsimp only
  refine Keeps.after (State.onEng_keeps ..) (State.onCax_keeps _ _ _ (foldl_exclusive _ ?_ _)) rfl
  intro x p hx
  obtain ⟨i, lv⟩ := p
  dsimp only
  split
  · exact all_set hx rfl
  · exact all_set hx (HalfBr.fire_exclusive _ _ _ _ _ (nth_exclusive _ _ hx))

theorem execEdgeFire_keeps (ticks axis eng : Nat) (s : State) : Runs [.cax] s (execEdgeFire ticks axis eng s) := by
  unfold execEdgeFire
  extract_lets -underBinder +onlyGivenNames -merge s1
  have h1 : Keeps [.cax] s s1 := (State.tick_keeps ..).mono rfl
  refine Runs.ite (Runs.next h1) ?_
  extract_lets -underBinder +onlyGivenNames -merge dead s2
  have h2 : Keeps [.cax] s s2 := by
    refine Keeps.after (State.onCax_keeps _ _ _ (foldl_exclusive _ ?_ _)) h1 rfl
    intro x i hx
    split
    · split
      · refine List.all_eq_true.mpr fun b hb => ?_
        obtain ⟨j, hj, rfl⟩ := List.mem_iff_getElem.mp hb
        have hl : j < x.brs.length := by simpa using hj
        simp only [List.getElem_modify]
        split
        · rfl
        · exact List.all_eq_true.mp hx _ (List.getElem_mem hl)
      · exact hx
    · exact hx
  clear_value s2
  split
  · refine Runs.ite (Runs.next h2) (Runs.next (Keeps.after (State.applyState_keeps ..) (Keeps.ite ?_ h2) rfl))
    exact Keeps.after (State.onCax_keeps _ _ _ fun _ h => h) h2 rfl
  · exact Runs.next h2

theorem execGateOn_keeps (ticks axis hb : Nat) (s : State) : Runs [.cax] s (execGateOn ticks axis hb s) := by
  unfold execGateOn
  extract_lets -underBinder +onlyGivenNames -merge s1
  have h1 : Keeps [.cax] s s1 := (State.tick_keeps ..).mono rfl
  refine Runs.ite (Runs.next h1) ?_
  extract_lets -underBinder +onlyGivenNames -merge b
  clear_value b s1
  split
  · refine Runs.ite (Runs.next h1) (Runs.next (Keeps.after (State.onCax_keeps _ _ _ fun x hx => ?_) h1 rfl))
    refine all_set hx ?_
    cases b.level <;> rfl
  · exact Runs.next h1

theorem execModulatorTimeout_keeps (ticks : Nat) (ch : Nat) (s : State) :
    Runs [.ch, .cax, .book, .safe, .led] s (execModulatorTimeout ticks ch s) := by
  unfold execModulatorTimeout
  extract_lets -underBinder +onlyGivenNames -merge s1
  refine .viaKeeps (x := s1) (Keeps.after (State.tick_keeps ..) ((.refl _ _)) rfl) fun h2 => ?_
  try clear_value s1
  exact Runs.ite (Runs.next h2)
      (by
        extract_lets -underBinder +onlyGivenNames -merge a3
        exact Runs.ite (Runs.next h2)
            (Runs.next (Keeps.after (State.channelFault_keeps ..) h2 rfl)))

theorem execGateReadbackMismatch_keeps (t : Nat) (axis : Nat) (hb : Nat) (high : Bool) (s : State) :
    Runs [.cax, .book, .safe, .led] s (execGateReadbackMismatch t axis hb high s) := by
  unfold execGateReadbackMismatch
  extract_lets -underBinder +onlyGivenNames -merge s1
  refine .viaKeeps (x := s1) (Keeps.after (State.tick_keeps ..) ((.refl _ _)) rfl) fun h2 => ?_
  try clear_value s1
  exact Runs.ite (Runs.next h2)
      (by
        extract_lets -underBinder +onlyGivenNames -merge a3 a4
        exact Runs.ite (Runs.next h2)
            (Runs.next (Keeps.after (State.currentFault_keeps ..) h2 rfl)))

theorem execDriverFaultInput_keeps (t : Nat) (axis : Nat) (low : Nat) (s : State) :
    Runs [.cax, .book, .safe, .led] s (execDriverFaultInput t axis low s) := by
  unfold execDriverFaultInput
  extract_lets -underBinder +onlyGivenNames -merge s1
  refine .viaKeeps (x := s1) (Keeps.after (State.tick_keeps ..) ((.refl _ _)) rfl) fun h2 => ?_
  try clear_value s1
  exact Runs.ite (Runs.next h2)
      (Runs.ite (Runs.next h2)
        (Runs.next (Keeps.after (State.currentFault_keeps ..) h2 rfl)))

theorem execOffsetAcquired_keeps (t : Nat) (s : State) :
    Runs [.ch, .acq] s (execOffsetAcquired t s) := by
  unfold execOffsetAcquired
  extract_lets -underBinder +onlyGivenNames -merge s1
  refine .viaKeeps (x := s1) (Keeps.after (State.tick_keeps ..) ((.refl _ _)) rfl) fun h2 => ?_
  try clear_value s1
  exact Runs.ite (Runs.next h2)
      (by
        split
        · exact Runs.ite (Runs.next h2)
            (by
              extract_lets -underBinder +onlyGivenNames -merge r3 s4
              refine .viaKeeps (x := s4) (Keeps.after (Keeps.acq ..) h2 rfl) fun h5 => ?_
              try clear_value s4
              exact Runs.next (Keeps.eachIx (fun _ _ h6 =>
                    by
                      extract_lets -underBinder +onlyGivenNames -merge a7 a8
                      exact Keeps.ite h6
                          (Keeps.after (State.onCh_keeps ..) h6 rfl))
                    h5))
        · exact Runs.next h2)

theorem State.setBand_keeps (a : Nat) (a1 : Int) (turnOns : Nat) (s : State) :
    Keeps [.cax, .led] s (State.setBand a a1 turnOns s) := by
  unfold State.setBand
  extract_lets -underBinder +onlyGivenNames -merge a1 a2 s3
  refine .viaKeeps (x := s3) (Keeps.after (State.onCax_brs (h := fun _ => rfl) ..) ((.refl _ _)) rfl) fun h4 => ?_
  try clear_value s3
  clear_value a2
  split
  · exact Keeps.ite h4
      (Keeps.after (State.raise_keeps ..) h4 rfl)
  · exact h4

theorem State.bandUpdate_keeps (a : Nat) (s : State) :
    Keeps [.cax, .led] s (State.bandUpdate a s) := by
  unfold State.bandUpdate
  extract_lets -underBinder +onlyGivenNames -merge a1
  exact Keeps.ite ((.refl _ _))
      (by
        extract_lets -underBinder +onlyGivenNames -merge a2 a3 a4
        exact Keeps.after (State.setBand_keeps ..) ((.refl _ _)) rfl)

theorem State.vlimUpdate_keeps (a : Nat) (s : State) :
    Keeps [.cax, .led] s (State.vlimUpdate a s) := by
  unfold State.vlimUpdate
  extract_lets -underBinder +onlyGivenNames -merge a1
  exact Keeps.ite (Keeps.after (State.onCax_brs (h := fun _ => rfl) ..) ((.refl _ _)) rfl)
      (by
        extract_lets -underBinder +onlyGivenNames -merge a2 a3 s4
        refine .viaKeeps (x := s4) (Keeps.after (State.onCax_brs (h := fun _ => rfl) ..) ((.refl _ _)) rfl) fun h5 => ?_
        try clear_value s4
        exact Keeps.ite (Keeps.after (State.raise_keeps ..) h5 rfl)
            h5)

theorem State.curBoundary_keeps (t : Nat) (a : Nat) (enable : Bool) (rec_ : SetPoint) (s : State) :
    Keeps [.ch, .cax, .led] s (State.curBoundary t a enable rec_ s) := by
  unfold State.curBoundary
  exact Keeps.ite ((.refl _ _))
    (by
      extract_lets -underBinder +onlyGivenNames -merge s1
      refine .viaKeeps (x := s1) (Keeps.after (State.vlimUpdate_keeps ..) (Keeps.after (State.bandUpdate_keeps ..) ((.refl _ _)) rfl) rfl) fun h2 => ?_
      try clear_value s1
      extract_lets -underBinder +onlyGivenNames -merge s3
      refine .viaKeeps (x := s3) (Keeps.after (State.onCax_brs (h := fun _ => rfl) ..) h2 rfl) fun h4 => ?_
      try clear_value s3
      extract_lets -underBinder +onlyGivenNames -merge s5
      refine .viaKeeps (x := s5) (Keeps.eachIx (fun _ _ h6 =>
          Keeps.after (State.onCh_keeps ..) h6 rfl)
          h4) fun h7 => ?_
      try clear_value s5
      extract_lets -underBinder +onlyGivenNames -merge a8
      exact Keeps.ite (Keeps.after (State.gatesOff_keeps ..) h7 rfl)
          (Keeps.ite (Keeps.after (State.setBand_keeps ..) (Keeps.after (State.onCax_brs (h := fun _ => rfl) ..) h7 rfl) rfl)
            h7))

end Sys2Proof.Machine
end

