-- ==== Sys2Proof/Laws/Pair.lean ====
section
/-! SUPPORT. The laws of the operations of Machine/Pair.lean: which fields of the state each may change. -/

namespace Sys2Proof.Machine

theorem State.forward_keeps (o : Origin) (c : TwinCmd) (s : State) :
    Keeps [.twin] s (State.forward o c s) := by
  unfold State.forward
  exact Keeps.ite (Keeps.after (Keeps.twin ..) ((.refl _ _)) rfl)
    ((.refl _ _))

end Sys2Proof.Machine
end

