-- ==== Sys2Proof/Laws/Interlock.lean ====
section
/-! SUPPORT. The laws of the operations of Machine/Interlock.lean: which fields of the state each may change. -/

namespace Sys2Proof.Machine

theorem State.onChan_keeps (b : Bool) (f : SafeChan → SafeChan) (s : State) :
    Keeps [.safe] s (State.onChan b f s) := by
  unfold State.onChan
  exact Keeps.after (Keeps.safe ..) ((.refl _ _)) rfl

theorem State.onSafeIn_keeps (die : Nat) (pair : Nat) (f : SafeIn → SafeIn) (s : State) :
    Keeps [.safe] s (State.onSafeIn die pair f s) := by
  unfold State.onSafeIn
  exact Keeps.after (State.onChan_keeps ..) ((.refl _ _)) rfl

theorem execSafetyInputChange_keeps (t : Nat) (die : Nat) (pair : Nat) (ballB : Bool) (level : Bool) (s : State) :
    Runs [.safe] s (execSafetyInputChange t die pair ballB level s) := by
  unfold execSafetyInputChange
  extract_lets -underBinder +onlyGivenNames -merge s1
  refine .viaKeeps (x := s1) (Keeps.after (State.tick_keeps ..) ((.refl _ _)) rfl) fun h2 => ?_
  try clear_value s1
  extract_lets -underBinder +onlyGivenNames -merge a3 a4
  exact Runs.ite (Runs.next h2)
      (Runs.next (Keeps.after (State.onSafeIn_keeps ..) h2 rfl))

theorem State.sampleIn_keeps (die : Nat) (i : Nat) (s : State) :
    Keeps [.safe, .led] s (State.sampleIn die i s) := by
  unfold State.sampleIn
  extract_lets -underBinder +onlyGivenNames -merge a1
  exact Keeps.ite ((.refl _ _))
      (by
        extract_lets -underBinder +onlyGivenNames -merge a2 a3 a4 a5 a6 a7 a8 a9 a10 a11 a12 a13 s14
        refine .viaKeeps (x := s14) (Keeps.after (State.onSafeIn_keeps ..) ((.refl _ _)) rfl) fun h15 => ?_
        try clear_value s14
        exact Keeps.ite (Keeps.after (State.raise_keeps ..) h15 rfl)
            h15)

theorem State.sampleIns_keeps (die : Nat) (s : State) :
    Keeps [.safe, .led] s (State.sampleIns die s) := by
  unfold State.sampleIns
  exact Keeps.eachIx (fun _ _ h1 =>
    Keeps.after (State.sampleIn_keeps ..) h1 rfl)
    ((.refl _ _))

theorem State.lapse_keeps (ch : Nat) (s : State) :
    Keeps [.safe] s (State.lapse ch s) := by
  unfold State.lapse
  exact Keeps.after (Keeps.safe ..) ((.refl _ _)) rfl

theorem State.lapseAll_keeps (s : State) :
    Keeps [.safe] s (State.lapseAll s) := by
  unfold State.lapseAll
  exact Keeps.after (Keeps.safe ..) ((.refl _ _)) rfl

theorem State.shiftMonitored_keeps (ch : Nat) (d : Int) (s : State) :
    Keeps [.safe] s (State.shiftMonitored ch d s) := by
  unfold State.shiftMonitored
  extract_lets -underBinder +onlyGivenNames -merge a1
  exact Keeps.after (Keeps.safe ..) ((.refl _ _)) rfl

theorem State.monBoundary_keeps (s : State) :
    Keeps [.safe] s (State.monBoundary s) := by
  unfold State.monBoundary
  extract_lets -underBinder +onlyGivenNames -merge r1 s2
  refine .viaKeeps (x := s2) (Keeps.after (Keeps.safe ..) ((.refl _ _)) rfl) fun h3 => ?_
  try clear_value s2
  exact Keeps.after (Keeps.safe ..) h3 rfl

theorem State.tripReaction_keeps (c : Nat) (code : Nat) (s : State) :
    Keeps [.safe, .led, .mode] s (State.tripReaction c code s) := by
  unfold State.tripReaction
  extract_lets -underBinder +onlyGivenNames -merge r1 s2
  refine .viaKeeps (x := s2) (Keeps.after (Keeps.safe ..) ((.refl _ _)) rfl) fun h3 => ?_
  try clear_value s2
  extract_lets -underBinder +onlyGivenNames -merge s4
  refine .viaKeeps (x := s4) (Keeps.after (State.haltCause_keeps ..) h3 rfl) fun h5 => ?_
  try clear_value s4
  split
  · exact Keeps.after (State.orderSto_keeps ..) h5 rfl
  · exact h5

theorem State.ucmTrip_keeps (b : Bool) (c : Nat) (cause : Nat) (disp : Int) (s : State) :
    Keeps [.safe, .led, .mode] s (State.ucmTrip b c cause disp s) := by
  unfold State.ucmTrip
  exact Keeps.ite ((.refl _ _))
    (by
      extract_lets -underBinder +onlyGivenNames -merge a1 s2
      refine .viaKeeps (x := s2) (Keeps.after (State.onChan_keeps ..) ((.refl _ _)) rfl) fun h3 => ?_
      try clear_value s2
      exact Keeps.ite (Keeps.after (State.tripReaction_keeps ..) (Keeps.after (State.raise_keeps ..) h3 rfl) rfl)
          h3)

theorem State.carMonitor_keeps (b : Bool) (c : Nat) (s : State) :
    Keeps [.safe, .led, .mode] s (State.carMonitor b c s) := by
  unfold State.carMonitor
  split
  · exact (.refl _ _)
  · exact Keeps.ite (Keeps.after (State.onChan_keeps ..) ((.refl _ _)) rfl)
      (by
        extract_lets -underBinder +onlyGivenNames -merge a1 a2 a3 a4 a5 a6 a7 a8 a9 a10 a11 a12 a13 a14 a15 a16 a17 a18 a19 a20 a21 s22
        refine .viaKeeps (x := s22) (Keeps.after (State.onChan_keeps ..) ((.refl _ _)) rfl) fun h23 => ?_
        try clear_value s22
        extract_lets -underBinder +onlyGivenNames -merge s24
        refine .viaKeeps (x := s24) (Keeps.ite (Keeps.after (State.raise_keeps ..) h23 rfl)
            h23) fun h25 => ?_
        try clear_value s24
        extract_lets -underBinder +onlyGivenNames -merge s26
        refine .viaKeeps (x := s26) (Keeps.ite (Keeps.after (State.ucmTrip_keeps ..) h25 rfl)
            (Keeps.ite (Keeps.after (State.ucmTrip_keeps ..) h25 rfl)
              (Keeps.ite (Keeps.after (State.ucmTrip_keeps ..) h25 rfl)
                h25))) fun h27 => ?_
        try clear_value s26
        clear_value a7
        split
        · exact h27
        · exact Keeps.ite h27
            (by
              extract_lets -underBinder +onlyGivenNames -merge a28 s29
              refine .viaKeeps (x := s29) (Keeps.after (State.onChan_keeps ..) h27 rfl) fun h30 => ?_
              try clear_value s29
              exact Keeps.ite (Keeps.after (State.tripReaction_keeps ..) (Keeps.after (State.raise_keeps ..) h30 rfl) rfl)
                  h30))

theorem State.slsMonitor_keeps (b : Bool) (a : Nat) (s : State) :
    Keeps [.safe, .led] s (State.slsMonitor b a s) := by
  unfold State.slsMonitor
  extract_lets -underBinder +onlyGivenNames -merge a1
  exact Keeps.ite ((.refl _ _))
      (Keeps.ite (Keeps.after (State.onChan_keeps ..) ((.refl _ _)) rfl)
        (by
          extract_lets -underBinder +onlyGivenNames -merge a2 s3
          refine .viaKeeps (x := s3) (Keeps.after (State.onChan_keeps ..) ((.refl _ _)) rfl) fun h4 => ?_
          try clear_value s3
          exact Keeps.ite h4
              (by
                extract_lets -underBinder +onlyGivenNames -merge a5 s6
                refine .viaKeeps (x := s6) (Keeps.after (State.onChan_keeps ..) h4 rfl) fun h7 => ?_
                try clear_value s6
                exact Keeps.ite (Keeps.after (State.orderSto_keeps ..) (Keeps.after (State.raise_keeps ..) (Keeps.after (Keeps.safe ..) h7 rfl) rfl) rfl)
                    h7)))

theorem State.evalChannel_keeps (b : Bool) (s : State) :
    Keeps [.safe, .led, .mode] s (State.evalChannel b s) := by
  unfold State.evalChannel
  extract_lets -underBinder +onlyGivenNames -merge s1
  refine .viaKeeps (x := s1) (Keeps.eachIx (fun _ _ h2 =>
      Keeps.after (State.carMonitor_keeps ..) h2 rfl)
      ((.refl _ _))) fun h3 => ?_
  try clear_value s1
  extract_lets -underBinder +onlyGivenNames -merge s4
  refine .viaKeeps (x := s4) (Keeps.eachIx (fun _ _ h5 =>
      Keeps.after (State.slsMonitor_keeps ..) h5 rfl)
      h3) fun h6 => ?_
  try clear_value s4
  exact Keeps.after (State.onChan_keeps ..) h6 rfl

theorem State.outputFault_keeps (o : Nat) (ch : Nat) (cause : Nat) (react : Nat) (s : State) :
    Keeps [.safe, .led, .mode] s (State.outputFault o ch cause react s) := by
  unfold State.outputFault
  exact Keeps.ite ((.refl _ _))
    (by
      extract_lets -underBinder +onlyGivenNames -merge a1 s2
      refine .viaKeeps (x := s2) (Keeps.after (State.onOut_keeps ..) ((.refl _ _)) rfl) fun h3 => ?_
      try clear_value s2
      extract_lets -underBinder +onlyGivenNames -merge s4
      refine .viaKeeps (x := s4) (Keeps.after (State.raise_keeps ..) h3 rfl) fun h5 => ?_
      try clear_value s4
      extract_lets -underBinder +onlyGivenNames -merge s6
      refine .viaKeeps (x := s6) (Keeps.ite (Keeps.after (State.haltCause_keeps ..) h5 rfl)
          h5) fun h7 => ?_
      try clear_value s6
      extract_lets -underBinder +onlyGivenNames -merge s8
      refine .viaKeeps (x := s8) (Keeps.ite (Keeps.after (State.onChan_keeps ..) h7 rfl)
          h7) fun h9 => ?_
      try clear_value s8
      exact Keeps.ite (Keeps.ite (Keeps.eachIx (fun _ _ h10 =>
              Keeps.ite (Keeps.after (State.orderSto_keeps ..) h10 rfl)
                h10)
              h9)
            (Keeps.ite (Keeps.after (State.orderSto_keeps ..) h9 rfl)
              h9))
          h9)

theorem State.driveOut_keeps (b : Bool) (o : Nat) (s : State) :
    Keeps [.safe, .led, .mode] s (State.driveOut b o s) := by
  unfold State.driveOut
  extract_lets -underBinder +onlyGivenNames -merge s1
  refine .viaKeeps (x := s1) (Keeps.ite (Keeps.after (State.outputFault_keeps ..) ((.refl _ _)) rfl)
      ((.refl _ _))) fun h2 => ?_
  try clear_value s1
  extract_lets -underBinder +onlyGivenNames -merge a3 a4 s5
  refine .viaKeeps (x := s5) (Keeps.after (State.onOut_keeps ..) h2 rfl) fun h6 => ?_
  try clear_value s5
  exact Keeps.ite h6
      (Keeps.after (State.onOut_keeps ..) h6 rfl)

theorem State.gatesFollow_keeps (a : Nat) (s : State) :
    Keeps [.cax] s (State.gatesFollow a s) := by
  unfold State.gatesFollow
  exact Keeps.ite (Keeps.after (State.gatesOff_keeps ..) ((.refl _ _)) rfl)
    ((.refl _ _))

theorem State.driveOuts_keeps (b : Bool) (s : State) :
    Keeps [.cax, .safe, .led, .mode] s (State.driveOuts b s) := by
  unfold State.driveOuts
  extract_lets -underBinder +onlyGivenNames -merge a1 a2
  exact Keeps.eachIx (fun _ _ h4 =>
      Keeps.after (State.gatesFollow_keeps ..) h4 rfl)
      (Keeps.foldl (fun _ _ h3 =>
        Keeps.after (State.driveOut_keeps ..) h3 rfl)
        ((.refl _ _)) _)

theorem State.permitEvent_keeps (s : State) :
    Keeps [.safe, .led] s (State.permitEvent s) := by
  unfold State.permitEvent
  exact Keeps.ite ((.refl _ _))
    (by
      extract_lets -underBinder +onlyGivenNames -merge a1 r2 s3
      refine .viaKeeps (x := s3) (Keeps.after (Keeps.safe ..) ((.refl _ _)) rfl) fun h4 => ?_
      try clear_value s3
      exact Keeps.after (State.raise_keeps ..) h4 rfl)

theorem State.edmBoundary_keeps (o : Nat) (s : State) :
    Keeps [.safe, .led, .mode] s (State.edmBoundary o s) := by
  unfold State.edmBoundary
  extract_lets -underBinder +onlyGivenNames -merge a1
  exact Keeps.ite ((.refl _ _))
      (by
        extract_lets -underBinder +onlyGivenNames -merge a2 a3
        exact Keeps.ite (Keeps.after (State.outputFault_keeps ..) ((.refl _ _)) rfl)
            (Keeps.ite (Keeps.after (State.onOut_keeps ..) ((.refl _ _)) rfl)
              ((.refl _ _))))

theorem State.readBack_keeps (balls : List Nat) (o : Nat) (ch : Nat) (s : State) :
    Keeps [.safe, .led, .mode] s (State.readBack balls o ch s) := by
  unfold State.readBack
  extract_lets -underBinder +onlyGivenNames -merge a1 a2 s3
  refine .viaKeeps (x := s3) (Keeps.after (State.onOut_keeps ..) ((.refl _ _)) rfl) fun h4 => ?_
  try clear_value s3
  exact Keeps.ite (Keeps.after (State.outputFault_keeps ..) h4 rfl)
      h4

theorem State.outsBoundary_keeps (balls : List Nat) (s : State) :
    Keeps [.safe, .led, .mode] s (State.outsBoundary balls s) := by
  unfold State.outsBoundary
  extract_lets -underBinder +onlyGivenNames -merge s1
  refine .viaKeeps (x := s1) (Keeps.eachIx (fun _ _ h2 =>
      Keeps.after (State.readBack_keeps ..) (Keeps.after (State.readBack_keeps ..) h2 rfl) rfl)
      ((.refl _ _))) fun h3 => ?_
  try clear_value s1
  exact Keeps.eachIx (fun _ _ h4 =>
      Keeps.ite (Keeps.after (State.edmBoundary_keeps ..) h4 rfl)
        h4)
      h3

theorem execTestPulse_keeps (t : Nat) (out : Nat) (offA : Bool) (offB : Bool) (s : State) :
    Runs [.safe, .led, .mode] s (execTestPulse t out offA offB s) := by
  unfold execTestPulse
  extract_lets -underBinder +onlyGivenNames -merge s1
  refine .viaKeeps (x := s1) (Keeps.after (State.tick_keeps ..) ((.refl _ _)) rfl) fun h2 => ?_
  try clear_value s1
  extract_lets -underBinder +onlyGivenNames -merge a3 a4
  exact Runs.ite (Runs.next h2)
      (by
        extract_lets -underBinder +onlyGivenNames -merge a5 a6 s7
        refine .viaKeeps (x := s7) (Keeps.after (State.onOut_keeps ..) h2 rfl) fun h8 => ?_
        try clear_value s7
        extract_lets -underBinder +onlyGivenNames -merge s9
        refine .viaKeeps (x := s9) (Keeps.ite (Keeps.after (State.outputFault_keeps ..) h8 rfl)
            h8) fun h10 => ?_
        try clear_value s9
        exact Runs.next (Keeps.ite (Keeps.after (State.outputFault_keeps ..) h10 rfl)
              h10))

theorem execEdmTimeout_keeps (t : Nat) (out : Nat) (s : State) :
    Runs [.safe, .led, .mode] s (execEdmTimeout t out s) := by
  unfold execEdmTimeout
  extract_lets -underBinder +onlyGivenNames -merge s1
  refine .viaKeeps (x := s1) (Keeps.after (State.tick_keeps ..) ((.refl _ _)) rfl) fun h2 => ?_
  try clear_value s1
  extract_lets -underBinder +onlyGivenNames -merge a3 a4 a5
  exact Runs.ite (Runs.next h2)
      (Runs.ite (Runs.ite (Runs.next h2)
          (Runs.next (Keeps.after (State.outputFault_keeps ..) h2 rfl)))
        (Runs.ite (Runs.next h2)
          (Runs.next (Keeps.after (State.outputFault_keeps ..) h2 rfl))))

theorem State.ss1Boundary_keeps (a : Nat) (s : State) :
    Keeps [.safe, .led] s (State.ss1Boundary a s) := by
  unfold State.ss1Boundary
  extract_lets -underBinder +onlyGivenNames -merge a1
  exact Keeps.ite ((.refl _ _))
      (by
        extract_lets -underBinder +onlyGivenNames -merge a2 a3 a4 a5 a6 s7
        refine .viaKeeps (x := s7) (Keeps.after (State.onStop_keeps ..) ((.refl _ _)) rfl) fun h8 => ?_
        try clear_value s7
        extract_lets -underBinder +onlyGivenNames -merge a9
        exact Keeps.ite (Keeps.after (State.orderSto_keeps ..) (Keeps.after (State.raise_keeps ..) h8 rfl) rfl)
            h8)

theorem execSs1End_keeps (t : Nat) (axis : Nat) (s : State) :
    Runs [.safe, .led, .mode] s (execSs1End t axis s) := by
  unfold execSs1End
  extract_lets -underBinder +onlyGivenNames -merge s1
  refine .viaKeeps (x := s1) (Keeps.after (State.tick_keeps ..) ((.refl _ _)) rfl) fun h2 => ?_
  try clear_value s1
  extract_lets -underBinder +onlyGivenNames -merge a3 a4
  exact Runs.ite (Runs.next h2)
      (by
        extract_lets -underBinder +onlyGivenNames -merge s5
        refine .viaKeeps (x := s5) (Keeps.after (State.onStop_keeps ..) h2 rfl) fun h6 => ?_
        try clear_value s5
        extract_lets -underBinder +onlyGivenNames -merge s7
        refine .viaKeeps (x := s7) (Keeps.after (State.raise_keeps ..) h6 rfl) fun h8 => ?_
        try clear_value s7
        exact Runs.next (Keeps.foldl (fun _ _ h9 =>
              Keeps.after (State.driveOut_keeps ..) (Keeps.after (State.driveOut_keeps ..) h9 rfl) rfl)
              h8 _))

theorem State.torqueFall_keeps (a : Nat) (s : State) :
    Keeps [.safe, .led] s (State.torqueFall a s) := by
  unfold State.torqueFall
  exact Keeps.ite (Keeps.after (State.orderSto_keeps ..) ((.refl _ _)) rfl)
    ((.refl _ _))

theorem State.crossCompare_keeps (va : SafeVec) (vb : SafeVec) (s : State) :
    Keeps [.safe, .led, .mode] s (State.crossCompare va vb s) := by
  unfold State.crossCompare
  split
  · exact Keeps.after (Keeps.safe ..) ((.refl _ _)) rfl
  · extract_lets -underBinder +onlyGivenNames -merge a1 r2 s3
    refine .viaKeeps (x := s3) (Keeps.after (Keeps.safe ..) ((.refl _ _)) rfl) fun h4 => ?_
    try clear_value s3
    exact Keeps.ite h4
        (by
          extract_lets -underBinder +onlyGivenNames -merge r5 s6
          refine .viaKeeps (x := s6) (Keeps.after (Keeps.safe ..) h4 rfl) fun h7 => ?_
          try clear_value s6
          exact Keeps.after (State.haltCause_keeps ..) (Keeps.after (State.raise_keeps ..) h7 rfl) rfl)

theorem State.applyA_keeps (committed : Bool) (s : State) :
    Keeps [.safe, .led] s (State.applyA committed s) := by
  unfold State.applyA
  exact Keeps.ite (Keeps.after (State.onChan_keeps ..) ((.refl _ _)) rfl)
    (by
      extract_lets -underBinder +onlyGivenNames -merge s1
      refine .viaKeeps (x := s1) (Keeps.after (State.onChan_keeps ..) ((.refl _ _)) rfl) fun h2 => ?_
      try clear_value s1
      exact Keeps.ite h2
          (Keeps.after (State.raise_keeps ..) (Keeps.after (Keeps.safe ..) h2 rfl) rfl))

theorem State.noticeB_keeps (s : State) :
    Keeps [.cax, .safe, .led, .mode] s (State.noticeB s) := by
  unfold State.noticeB
  extract_lets -underBinder +onlyGivenNames -merge s1
  refine .viaKeeps (x := s1) (Keeps.after (State.onChan_keeps ..) ((.refl _ _)) rfl) fun h2 => ?_
  try clear_value s1
  extract_lets -underBinder +onlyGivenNames -merge s3
  refine .viaKeeps (x := s3) (by
      dsimp -zeta only [s3]
      split
      · exact Keeps.after (State.crossCompare_keeps ..) h2 rfl
      · exact h2) fun h4 => ?_
  try clear_value s3
  extract_lets -underBinder +onlyGivenNames -merge s5
  refine .viaKeeps (x := s5) (Keeps.after (State.permitEvent_keeps ..) (Keeps.after (State.driveOuts_keeps ..) h4 rfl) rfl) fun h6 => ?_
  try clear_value s5
  exact Keeps.after (State.evalChannel_keeps ..) (Keeps.after (State.sampleIns_keeps ..) h6 rfl) rfl

theorem State.onTest_keeps (f : BrakeTest → BrakeTest) (s : State) :
    Keeps [.safe] s (State.onTest f s) := by
  unfold State.onTest
  exact Keeps.after (Keeps.safe ..) ((.refl _ _)) rfl

theorem State.takeBrakeTest_keeps (o : Origin) (axis : Nat) (s : State) :
    Keeps [.replies, .safe] s (State.takeBrakeTest o axis s) := by
  unfold State.takeBrakeTest
  exact Keeps.ite (Keeps.after (State.reply_keeps ..) ((.refl _ _)) rfl)
    (Keeps.ite (Keeps.after (State.reply_keeps ..) ((.refl _ _)) rfl)
      (Keeps.ite (Keeps.after (State.reply_keeps ..) ((.refl _ _)) rfl)
        (by
          extract_lets -underBinder +onlyGivenNames -merge r1 s2
          refine .viaKeeps (x := s2) (Keeps.after (Keeps.safe ..) ((.refl _ _)) rfl) fun h3 => ?_
          try clear_value s2
          extract_lets -underBinder +onlyGivenNames -merge s4
          refine .viaKeeps (x := s4) (Keeps.after (State.reply_keeps ..) h3 rfl) fun h5 => ?_
          try clear_value s4
          exact Keeps.ite (Keeps.after (Keeps.safe ..) h5 rfl)
              h5)))

theorem State.brakeResult_keeps (x : BrakeTest) (o : Nat) (moved : Bool) (disp : Int) (s : State) :
    Keeps [.safe, .led, .mode] s (State.brakeResult x o moved disp s) := by
  unfold State.brakeResult
  extract_lets -underBinder +onlyGivenNames -merge s1
  refine .viaKeeps (x := s1) (Keeps.after (State.raise_keeps ..) ((.refl _ _)) rfl) fun h2 => ?_
  try clear_value s1
  exact Keeps.ite (Keeps.after (State.outputFault_keeps ..) h2 rfl)
      (Keeps.after (State.onOut_keeps ..) h2 rfl)

theorem execBrakeTestStepEnd_keeps (t : Nat) (s : State) :
    Runs [.safe, .led, .mode] s (execBrakeTestStepEnd t s) := by
  unfold execBrakeTestStepEnd
  extract_lets -underBinder +onlyGivenNames -merge s1
  refine .viaKeeps (x := s1) (Keeps.after (State.tick_keeps ..) ((.refl _ _)) rfl) fun h2 => ?_
  try clear_value s1
  split
  · exact Runs.next h2
  · split
    · exact Runs.next (Keeps.after (Keeps.safe ..) h2 rfl)
    · exact Runs.ite (Runs.next h2)
        (by
          extract_lets -underBinder +onlyGivenNames -merge a3 a4 a5 s6
          refine .viaKeeps (x := s6) (Keeps.ite h2
              (Keeps.after (State.brakeResult_keeps ..) h2 rfl)) fun h7 => ?_
          try clear_value s6
          extract_lets -underBinder +onlyGivenNames -merge s8
          refine .viaKeeps (x := s8) (Keeps.after (State.onTest_keeps ..) h7 rfl) fun h9 => ?_
          try clear_value s8
          exact Runs.ite (Runs.next (Keeps.after (Keeps.safe ..) h9 rfl))
              (Runs.next h9))

theorem State.abortTest_keeps (a : Nat) (s : State) :
    Keeps [.safe, .led] s (State.abortTest a s) := by
  unfold State.abortTest
  split
  · exact Keeps.ite ((.refl _ _))
      (by
        extract_lets -underBinder +onlyGivenNames -merge a1
        exact Keeps.after (State.raise_keeps ..) (Keeps.after (Keeps.safe ..) ((.refl _ _)) rfl) rfl)
  · exact (.refl _ _)

theorem State.clearWhere_keeps {W : List Fld} {s0 : State} {n : Nat} {was gone : Nat → Bool} {clear : Nat → State → State}
    {s : State} (h : ∀ i t, Keeps W s0 t → Keeps W s0 (clear i t)) (k : Keeps W s0 s) :
    Keeps1 W s0 (s.clearWhere n was gone clear) := by
  unfold State.clearWhere
  exact Keeps1.foldl (fun t i hx => Keeps1.ite (h i t.1 hx) hx) k _

theorem State.safetyReset_keeps (s : State) :
    Keeps1 [.safe, .led] s (State.safetyReset s) := by
  unfold State.safetyReset
  extract_lets -underBinder +onlyGivenNames -merge a1
  exact Keeps1.ite (Keeps1.mk (Keeps.after (State.raise_keeps ..) ((.refl _ _)) rfl))
      (by
        split
        next heq =>
        refine .ofP1 heq (State.clearWhere_keeps (fun _ _ h2 =>
            by
              extract_lets -underBinder +onlyGivenNames -merge a3
              exact Keeps.after (State.onSafeIn_keeps ..) (Keeps.after (State.onSafeIn_keeps ..) h2 rfl) rfl)
            ((.refl _ _))) fun h4 => ?_
        exact by
          extract_lets -underBinder +onlyGivenNames -merge a5
          refine .viaP (fun W => ∀ b0 b1, Keeps W s b1 → Keeps W s (a5 b0 b1)) (fun _ _ h6 =>
            Keeps.after (State.onChan_keeps ..) (Keeps.after (State.onChan_keeps ..) h6 rfl) rfl) fun h7 => ?_
          try clear_value a5
          split
          next heq =>
          refine .ofP1 heq (State.clearWhere_keeps (fun _ _ h8 =>
              h7 _ _ h8)
              h4) fun h9 => ?_
          exact by
            split
            next heq =>
            refine .ofP1 heq (State.clearWhere_keeps (fun _ _ h10 =>
                h7 _ _ h10)
                h9) fun h11 => ?_
            exact by
              split
              next heq =>
              refine .ofP1 heq (State.clearWhere_keeps (fun _ _ h12 =>
                  h7 _ _ h12)
                  h11) fun h13 => ?_
              exact by
                split
                next heq =>
                refine .ofP1 heq (State.clearWhere_keeps (fun _ _ h14 =>
                    by
                      extract_lets -underBinder +onlyGivenNames -merge a15 s16
                      refine .viaKeeps (x := s16) (Keeps.after (State.onOut_keeps ..) h14 rfl) fun h17 => ?_
                      try clear_value s16
                      exact Keeps.ite (h7 _ _ h17)
                          h17)
                    h13) fun h18 => ?_
                exact by
                  extract_lets -underBinder +onlyGivenNames -merge a19 a20 r21 s22
                  refine .viaKeeps (x := s22) (Keeps.ite (Keeps.after (Keeps.safe ..) h18 rfl)
                      h18) fun h23 => ?_
                  try clear_value s22
                  extract_lets -underBinder +onlyGivenNames -merge a24 a25
                  exact Keeps1.mk (Keeps.after (State.raise_keeps ..) h23 rfl))

end Sys2Proof.Machine
end

