-- ==== Sys2Proof/Laws/Paths.lean ====
section
/-! SUPPORT. The laws of the operations of Machine/Paths.lean: which fields of the state each may change. -/

namespace Sys2Proof.Machine

theorem State.onPgBook_keeps (g : Nat) (f : PgBook → PgBook) (s : State) :
    Keeps [.pgBook] s (State.onPgBook g f s) := by
  unfold State.onPgBook
  exact Keeps.after (Keeps.pgBook ..) ((.refl _ _)) rfl

theorem State.setGc_keeps (c : Nat) (g : Gc) (s : State) :
    Keeps [.gc, .led] s (State.setGc c g s) := by
  unfold State.setGc
  extract_lets -underBinder +onlyGivenNames -merge a1 s2
  refine .viaKeeps (x := s2) (Keeps.after (State.onGc_keeps ..) ((.refl _ _)) rfl) fun h3 => ?_
  try clear_value s2
  exact Keeps.ite h3
      (Keeps.after (State.raise_keeps ..) h3 rfl)

end Sys2Proof.Machine
end

