-- ==== Sys2Proof/Laws/Handover.lean ====
section
/-! SUPPORT. The laws of the operations of Machine/Handover.lean: which fields of the state each may change. -/

namespace Sys2Proof.Machine

theorem State.raiseFault_keeps (a : Nat) (s : State) (f : AxFault) :
    Keeps [.book, .safe, .led] s (State.raiseFault a s f) := by
  unfold State.raiseFault
  exact Keeps.ite (Keeps.after (State.axisSaturated_keeps ..) ((.refl _ _)) rfl)
    (Keeps.after (State.axisFault_keeps ..) ((.refl _ _)) rfl)

theorem State.raiseFaults_keeps (a : Nat) (l : List AxFault) (s : State) :
    Keeps [.book, .safe, .led] s (State.raiseFaults a l s) := by
  unfold State.raiseFaults
  exact Keeps.foldl (fun _ _ h1 =>
    Keeps.foldl (fun _ _ h2 =>
      Keeps.after (State.raiseFault_keeps ..) h2 rfl)
      h1 _)
    ((.refl _ _)) _

theorem State.refuse_keeps (a : Nat) (mode : Nat) (q : Nat × Int) (s : State) :
    Keeps [.book, .led] s (State.refuse a mode q s) := by
  unfold State.refuse
  extract_lets -underBinder +onlyGivenNames -merge a1
  exact Keeps.after (State.raise_keeps ..) (Keeps.after (State.onBook_keeps ..) ((.refl _ _)) rfl) rfl

theorem State.changeMode_keeps (a : Nat) (mode : Nat) (restAt : Nat) (i : Int) (s : State) :
    Keeps1 [.ax, .book, .gc, .safe, .led] s (State.changeMode a mode restAt i s) := by
  unfold State.changeMode
  extract_lets -underBinder +onlyGivenNames -merge a1
  split
  · extract_lets -underBinder +onlyGivenNames -merge s2
    refine .viaKeeps (x := s2) (Keeps.after (State.refuse_keeps ..) ((.refl _ _)) rfl) fun h3 => ?_
    try clear_value s2
    exact Keeps1.mk (Keeps.ite h3
          (Keeps.after (State.raiseFaults_keeps ..) (Keeps.after (State.onAx_keeps ..) h3 rfl) rfl))
  · extract_lets -underBinder +onlyGivenNames -merge s4
    refine .viaKeeps (x := s4) (Keeps.after (State.onAx_keeps ..) ((.refl _ _)) rfl) fun h5 => ?_
    try clear_value s4
    extract_lets -underBinder +onlyGivenNames -merge s6
    refine .viaKeeps (x := s6) (by
        dsimp -zeta only [s6]
        split
        · exact Keeps.after (State.setGc_keeps ..) h5 rfl
        · exact Keeps.ite (Keeps.after (State.setGc_keeps ..) h5 rfl)
            h5
        · exact h5) fun h7 => ?_
    try clear_value s6
    exact Keeps1.mk (Keeps.after (State.raise_keeps ..) h7 rfl)

theorem State.enterHeld__keeps (a : Nat) (s : State) :
    Keeps [.ax, .gc, .led] s (State.enterHeld_ a s) := by
  unfold State.enterHeld_
  extract_lets -underBinder +onlyGivenNames -merge s1
  refine .viaKeeps (x := s1) (by
      dsimp -zeta only [s1]
      split
      · exact Keeps.after (State.setGc_keeps ..) ((.refl _ _)) rfl
      · exact (.refl _ _)) fun h2 => ?_
  try clear_value s1
  exact Keeps.after (State.onAx_keeps ..) h2 rfl

end Sys2Proof.Machine
end

