-- ==== Sys2Proof/Laws/Homing.lean ====
section
/-! SUPPORT. The laws of the operations of Machine/Homing.lean: which fields of the state each may change. -/

namespace Sys2Proof.Machine

theorem State.homeEnter_keeps (a : Nat) (s : State) :
    Keeps [.ax, .home] s (State.homeEnter a s) := by
  unfold State.homeEnter
  extract_lets -underBinder +onlyGivenNames -merge a1 a2 a3 s4
  refine .viaKeeps (x := s4) (Keeps.after (State.onHome_keeps ..) ((.refl _ _)) rfl) fun h5 => ?_
  try clear_value s4
  exact Keeps.after (State.onAx_keeps ..) h5 rfl

theorem State.homeFail_keeps (a : Nat) (cause : Nat) (s : State) :
    Keeps [.home, .led] s (State.homeFail a cause s) := by
  unfold State.homeFail
  extract_lets -underBinder +onlyGivenNames -merge a1
  exact Keeps.ite ((.refl _ _))
      (Keeps.ite (Keeps.after (State.onHome_keeps ..) ((.refl _ _)) rfl)
        (Keeps.after (State.raise_keeps ..) (Keeps.after (State.onHome_keeps ..) ((.refl _ _)) rfl) rfl))

theorem State.homeNoRef_keeps (a : Nat) (input : Nat) (s : State) :
    Keeps [.ax, .home, .led] s (State.homeNoRef a input s) := by
  unfold State.homeNoRef
  extract_lets -underBinder +onlyGivenNames -merge a1 s2
  refine .viaKeeps (x := s2) (Keeps.after (State.onAx_keeps ..) ((.refl _ _)) rfl) fun h3 => ?_
  try clear_value s2
  exact Keeps.after (State.raise_keeps ..) (Keeps.after (State.onHome_keeps ..) h3 rfl) rfl

theorem State.homeDone_keeps (a : Nat) (s : State) :
    Keeps [.ax, .home, .led] s (State.homeDone a s) := by
  unfold State.homeDone
  extract_lets -underBinder +onlyGivenNames -merge a1 s2
  refine .viaKeeps (x := s2) (Keeps.after (State.onAx_keeps ..) ((.refl _ _)) rfl) fun h3 => ?_
  try clear_value s2
  exact Keeps.after (State.raise_keeps ..) (Keeps.after (State.onHome_keeps ..) h3 rfl) rfl

theorem State.homeGo_keeps (a : Nat) (d : Int) (v : Nat) (s : State) :
    Keeps [.ax] s (State.homeGo a d v s) := by
  unfold State.homeGo
  exact Keeps.after (State.onAx_keeps ..) ((.refl _ _)) rfl

theorem State.homeTo_keeps (a : Nat) (p : Int) (v : Nat) (s : State) :
    Keeps [.ax] s (State.homeTo a p v s) := by
  unfold State.homeTo
  exact Keeps.after (State.onAx_keeps ..) ((.refl _ _)) rfl

theorem State.homeStop_keeps (a : Nat) (s : State) :
    Keeps [.ax] s (State.homeStop a s) := by
  unfold State.homeStop
  exact Keeps.after (State.onAx_keeps ..) ((.refl _ _)) rfl

theorem State.homePhase_keeps (a : Nat) (p : HomePhase) (s : State) :
    Keeps [.home] s (State.homePhase a p s) := by
  unfold State.homePhase
  exact Keeps.after (State.onHome_keeps ..) ((.refl _ _)) rfl

theorem State.homeBegin_keeps (a : Nat) (s : State) :
    Keeps [.ax, .home] s (State.homeBegin a s) := by
  unfold State.homeBegin
  extract_lets -underBinder +onlyGivenNames -merge a1
  exact Keeps.ite ((.refl _ _))
      (by
        extract_lets -underBinder +onlyGivenNames -merge s2
        refine .viaKeeps (x := s2) (Keeps.after (State.onHome_keeps ..) ((.refl _ _)) rfl) fun h3 => ?_
        try clear_value s2
        extract_lets -underBinder +onlyGivenNames -merge a4
        exact Keeps.ite h3
            (Keeps.after (State.homeGo_keeps ..) h3 rfl))

theorem State.homeLatch_keeps (a : Nat) (r : Nat × Int × Option Int) (s : State) :
    Keeps [.ax, .home] s (State.homeLatch a r s) := by
  unfold State.homeLatch
  exact Keeps.after (State.homeStop_keeps ..) (Keeps.after (State.onHome_keeps ..) ((.refl _ _)) rfl) rfl

theorem State.homeBack_keeps (a : Nat) (act : Bool) (next : HomePhase) (s : State) :
    Keeps [.ax, .home] s (State.homeBack a act next s) := by
  unfold State.homeBack
  extract_lets -underBinder +onlyGivenNames -merge a1 a2
  exact Keeps.ite (Keeps.after (State.onHome_keeps ..) ((.refl _ _)) rfl)
      (by
        extract_lets -underBinder +onlyGivenNames -merge a3 s4
        refine .viaKeeps (x := s4) (Keeps.after (State.onHome_keeps ..) ((.refl _ _)) rfl) fun h5 => ?_
        try clear_value s4
        exact Keeps.ite (Keeps.after (State.homePhase_keeps ..) (Keeps.after (State.homeStop_keeps ..) h5 rfl) rfl)
            h5)

theorem State.homeProgress_keeps (a : Nat) (s : State) :
    Keeps [.ax, .home] s (State.homeProgress a s) := by
  unfold State.homeProgress
  extract_lets -underBinder +onlyGivenNames -merge a1 a2 a3
  split
  · exact Keeps.ite (Keeps.after (State.homePhase_keeps ..) (Keeps.after (State.homeStop_keeps ..) ((.refl _ _)) rfl) rfl)
      ((.refl _ _))
  · extract_lets -underBinder +onlyGivenNames -merge s4
    refine .viaKeeps (x := s4) (Keeps.ite (Keeps.after (State.onHome_keeps ..) ((.refl _ _)) rfl)
        ((.refl _ _))) fun h5 => ?_
    try clear_value s4
    exact Keeps.ite h5
        (Keeps.after (State.homeBack_keeps ..) h5 rfl)
  · exact Keeps.ite ((.refl _ _))
      (Keeps.ite (Keeps.ite (Keeps.after (State.homePhase_keeps ..) (Keeps.after (State.homeStop_keeps ..) ((.refl _ _)) rfl) rfl)
          ((.refl _ _)))
        (Keeps.ite (Keeps.after (State.homePhase_keeps ..) (Keeps.after (State.homeStop_keeps ..) (Keeps.after (State.onHome_keeps ..) ((.refl _ _)) rfl) rfl) rfl)
          ((.refl _ _))))
  · exact Keeps.ite ((.refl _ _))
      (Keeps.ite (by
          split
          · exact Keeps.ite (Keeps.after (State.homeBack_keeps ..) ((.refl _ _)) rfl)
              (Keeps.after (State.onHome_keeps ..) ((.refl _ _)) rfl)
          · exact Keeps.ite (Keeps.after (State.homeBack_keeps ..) ((.refl _ _)) rfl)
              ((.refl _ _)))
        (by
          extract_lets -underBinder +onlyGivenNames -merge s6
          refine .viaKeeps (x := s6) (Keeps.after (State.onHome_keeps ..) ((.refl _ _)) rfl) fun h7 => ?_
          try clear_value s6
          exact Keeps.ite (Keeps.after (State.homeBack_keeps ..) h7 rfl)
              h7))
  · exact (.refl _ _)

theorem State.homeFaulted_keeps (a : Nat) (s : State) :
    Keeps [.ax, .home, .led] s (State.homeFaulted a s) := by
  unfold State.homeFaulted
  extract_lets -underBinder +onlyGivenNames -merge a1
  exact Keeps.ite (Keeps.after (State.onHome_keeps ..) ((.refl _ _)) rfl)
      (Keeps.after (State.homeDone_keeps ..) ((.refl _ _)) rfl)

theorem State.homeFinish_keeps (a : Nat) (restAt : Nat) (s : State) :
    Keeps [.ax, .book, .gc, .home, .safe, .led] s (State.homeFinish a restAt s) := by
  unfold State.homeFinish
  extract_lets -underBinder +onlyGivenNames -merge a1 a2
  exact Keeps.ite (Keeps.after (State.homeTo_keeps ..) (Keeps.after (State.onHome_keeps ..) ((.refl _ _)) rfl) rfl)
      (Keeps.ite ((.refl _ _))
        (Keeps.ite (Keeps.after (State.homeTo_keeps ..) (Keeps.after (State.onHome_keeps ..) ((.refl _ _)) rfl) rfl)
          (by
            extract_lets -underBinder +onlyGivenNames -merge s3
            refine .viaKeeps (x := s3) (Keeps.ite ((.refl _ _))
                (Keeps.ite (Keeps.after (State.enterHeld__keeps ..) ((.refl _ _)) rfl)
                  (Keeps.after (State.changeMode_keeps ..) ((.refl _ _)) rfl))) fun h4 => ?_
            try clear_value s3
            exact Keeps.after (State.homeDone_keeps ..) h4 rfl)))

theorem State.homeLimit_keeps (a : Nat) (i : Nat) (travel : Int) (s : State) :
    Keeps [.ax, .home, .led] s (State.homeLimit a i travel s) := by
  unfold State.homeLimit
  extract_lets -underBinder +onlyGivenNames -merge a1
  exact Keeps.ite (Keeps.after (State.homeNoRef_keeps ..) ((.refl _ _)) rfl)
      (Keeps.after (State.homePhase_keeps ..) (Keeps.after (State.onAx_keeps ..) ((.refl _ _)) rfl) rfl)

theorem State.homeStage_keeps (a : Nat) (restAt : Nat) (s : State) :
    Keeps [.ax, .book, .gc, .home, .safe, .led] s (State.homeStage a restAt s) := by
  unfold State.homeStage
  extract_lets -underBinder +onlyGivenNames -merge a1 a2 a3
  exact Keeps.ite ((.refl _ _))
      (Keeps.ite (Keeps.after (State.homeFail_keeps ..) (Keeps.after (State.onAx_keeps ..) ((.refl _ _)) rfl) rfl)
        (Keeps.ite (Keeps.after (State.homeFail_keeps ..) ((.refl _ _)) rfl)
          (by
            extract_lets -underBinder +onlyGivenNames -merge s4
            refine .viaKeeps (x := s4) (Keeps.after (State.onHome_keeps ..) ((.refl _ _)) rfl) fun h5 => ?_
            try clear_value s4
            exact Keeps.ite (Keeps.ite (Keeps.after (State.homeFaulted_keeps ..) h5 rfl)
                  (Keeps.after (State.homeFinish_keeps ..) h5 rfl))
                (Keeps.ite h5
                  (Keeps.ite (Keeps.after (State.homeFail_keeps ..) (Keeps.after (State.onAx_keeps ..) h5 rfl) rfl)
                    (Keeps.ite (Keeps.after (State.changeMode_keeps ..) (Keeps.after (State.homeFail_keeps ..) h5 rfl) rfl)
                      (by
                        extract_lets -underBinder +onlyGivenNames -merge a6 a7 a8 a9
                        exact Keeps.ite (Keeps.after (State.homeFail_keeps ..) (Keeps.after (State.onAx_keeps ..) h5 rfl) rfl)
                            (by
                              clear_value a8
                              split
                              · exact Keeps.after (State.homeLatch_keeps ..) h5 rfl
                              · split
                                · exact Keeps.ite (Keeps.after (State.homeLatch_keeps ..) h5 rfl)
                                    (Keeps.after (State.homeLimit_keeps ..) h5 rfl)
                                · exact Keeps.after (State.homeLimit_keeps ..) h5 rfl
                              · exact Keeps.ite (Keeps.after (State.homeFail_keeps ..) (Keeps.after (State.onAx_keeps ..) h5 rfl) rfl)
                                  (Keeps.after (State.homeBegin_keeps ..) (Keeps.after (State.homeProgress_keeps ..) h5 rfl) rfl)))))))))

theorem State.wrapAxis_keeps (a : Nat) (s : State) :
    Keeps [.ax, .book, .safe, .led] s (State.wrapAxis a s) := by
  unfold State.wrapAxis
  exact Keeps.ite ((.refl _ _))
    (by
      extract_lets -underBinder +onlyGivenNames -merge a1 a2 a3
      exact Keeps.ite ((.refl _ _))
          (by
            extract_lets -underBinder +onlyGivenNames -merge a4 a5 s6
            refine .viaKeeps (x := s6) (Keeps.after (State.onAx_keeps ..) ((.refl _ _)) rfl) fun h7 => ?_
            try clear_value s6
            exact Keeps.ite h7
                (Keeps.after (State.axisFault_keeps ..) (Keeps.after (State.raise_keeps ..) h7 rfl) rfl)))

theorem State.shiftChannel_keeps (home : Bool) (ch : Nat) (d : Int) (s : State) :
    Keeps [.fb, .snap, .snapPrev, .emu, .book, .safe, .led] s (State.shiftChannel home ch d s) := by
  unfold State.shiftChannel
  extract_lets -underBinder +onlyGivenNames -merge a1 a2 s3
  refine .viaKeeps (x := s3) (by
      dsimp -zeta only [s3]
      split
      · exact Keeps.ite ((.refl _ _))
          (Keeps.after (State.axisSaturated_keeps ..) ((.refl _ _)) rfl)
      · exact (.refl _ _)) fun h4 => ?_
  try clear_value s3
  extract_lets -underBinder +onlyGivenNames -merge s5
  refine .viaKeeps (x := s5) (Keeps.after (State.shiftMonitored_keeps ..) (Keeps.after (State.onFb_keeps ..) h4 rfl) rfl) fun h6 => ?_
  try clear_value s5
  exact Keeps.onto h6 [.snap, .snapPrev, .emu] rfl
      (Keeps.of rfl rfl id fun x => by cases x <;> first | exact .inr rfl | exact .inl rfl)

theorem State.shiftAxis_keeps (home : Bool) (a : Nat) (d : Int) (s : State) :
    Keeps [.fb, .snap, .snapPrev, .din, .emu, .ax, .axe, .axPrevRef, .book, .axAt, .cmp, .safe, .led] s (State.shiftAxis home a d s) := by
  unfold State.shiftAxis
  extract_lets -underBinder +onlyGivenNames -merge s1
  refine .viaKeeps (x := s1) (by
      dsimp -zeta only [s1]
      split
      · exact Keeps.after (State.shiftChannel_keeps ..) ((.refl _ _)) rfl
      · exact (.refl _ _)) fun h2 => ?_
  try clear_value s1
  extract_lets -underBinder +onlyGivenNames -merge a3 s4
  refine .viaKeeps (x := s4) (Keeps.onto h2 [.din, .emu, .ax, .axe, .axPrevRef, .axAt] rfl
      (Keeps.of rfl rfl id fun x => by cases x <;> first | exact .inr rfl | exact .inl rfl)) fun h5 => ?_
  try clear_value s4
  extract_lets -underBinder +onlyGivenNames -merge s6
  refine .viaKeeps (x := s6) (Keeps.after (State.onBook_keeps ..) h5 rfl) fun h7 => ?_
  try clear_value s6
  exact Keeps.eachIx (fun _ _ h8 =>
      by
        extract_lets -underBinder +onlyGivenNames -merge a9 a10
        exact Keeps.ite (Keeps.after (State.cmpReseek_keeps ..) h8 rfl)
            h8)
      h7

theorem State.homeCommit_keeps (a : Nat) (s : State) :
    Keeps (([.fb, .snap, .snapPrev, .din, .emu, .ax, .axe, .axPrevRef, .book, .axAt, .cmp, .home, .cars, .safe] : List Fld) ++
      ([.twin, .led] : List Fld)) s (State.homeCommit a s) := by
  unfold State.homeCommit
  extract_lets -underBinder +onlyGivenNames -merge a1
  split
  · exact (.refl _ _)
  · extract_lets -underBinder +onlyGivenNames -merge a2 s3
    refine .viaKeeps (x := s3) (Keeps.after (State.shiftAxis_keeps ..) ((.refl _ _)) rfl) fun h4 => ?_
    try clear_value s3
    extract_lets -underBinder +onlyGivenNames -merge s5
    refine .viaKeeps (x := s5) (by
        dsimp -zeta only [s5]
        split
        · exact Keeps.after (State.onFb_keeps ..) h4 rfl
        · exact h4) fun h6 => ?_
    try clear_value s5
    extract_lets -underBinder +onlyGivenNames -merge r7 s8
    refine .viaKeeps (x := s8) (Keeps.after (Keeps.twin ..) h6 rfl) fun h9 => ?_
    try clear_value s8
    extract_lets -underBinder +onlyGivenNames -merge s10
    refine .viaKeeps (x := s10) (by
        dsimp -zeta only [s10]
        split
        · exact Keeps.after (Keeps.cars ..) h9 rfl
        · exact h9) fun h11 => ?_
    try clear_value s10
    exact Keeps.after (State.wrapAxis_keeps ..) (Keeps.after (State.onHome_keeps ..) h11 rfl) rfl

theorem execHardstopFound_keeps (t : Nat) (axis : Nat) (s : State) :
    Runs [.ax, .home, .pre] s (execHardstopFound t axis s) := by
  unfold execHardstopFound
  extract_lets -underBinder +onlyGivenNames -merge s1
  refine .viaKeeps (x := s1) (Keeps.after (State.tick_keeps ..) ((.refl _ _)) rfl) fun h2 => ?_
  try clear_value s1
  exact Runs.ite (Runs.next h2)
      (by
        extract_lets -underBinder +onlyGivenNames -merge a3
        split
        · exact Runs.ite (by
              extract_lets -underBinder +onlyGivenNames -merge a4
              exact Runs.next (Keeps.after (State.onAxKept_keeps ..) (Keeps.after (State.onHomeKept_keeps ..) h2 rfl) rfl))
            (Runs.next h2)
        · exact Runs.next h2)

theorem execHomingAuto_keeps (t : Nat) (axis : Nat) (s : State) :
    Runs (([.fb, .snap, .snapPrev, .din, .emu, .ax, .axe, .axPrevRef, .book, .axAt, .pg, .gc, .cmp, .home] : List Fld) ++
      ([.pre, .cars, .safe, .twin, .led] : List Fld)) s (execHomingAuto t axis s) := by
  unfold execHomingAuto
  extract_lets -underBinder +onlyGivenNames -merge s1
  refine .viaKeeps (x := s1) (Keeps.after (State.tick_keeps ..) ((.refl _ _)) rfl) fun h2 => ?_
  try clear_value s1
  exact Runs.ite (Runs.next h2)
      (by
        extract_lets -underBinder +onlyGivenNames -merge a3
        split
        · exact Runs.next h2
        · exact Runs.ite (by
              extract_lets -underBinder +onlyGivenNames -merge s4
              refine .viaKeeps (x := s4) (Keeps.after (State.onHome_keeps ..) (Keeps.after (State.unshow_keeps ..) h2 rfl) rfl) fun h5 => ?_
              try clear_value s4
              extract_lets -underBinder +onlyGivenNames -merge s6
              refine .viaKeeps (x := s6) (Keeps.after (State.homeDone_keeps ..) (Keeps.after (State.homeCommit_keeps ..) h5 rfl) rfl) fun h7 => ?_
              try clear_value s6
              exact Runs.next h7)
            (Runs.next h2))

end Sys2Proof.Machine
end

