-- ==== Sys2Proof/Laws/Axis.lean ====
section
/-! SUPPORT. The laws of the operations of Machine/Axis.lean: which fields of the state each may change. -/

namespace Sys2Proof.Machine

theorem State.rejectCmd_keeps (a : Nat) (o : Offer) (reason : Nat) (s : State) :
    Keeps [.book, .replies, .led] s (State.rejectCmd a o reason s) := by
  unfold State.rejectCmd
  extract_lets -underBinder +onlyGivenNames -merge s1
  refine .viaKeeps (x := s1) (Keeps.after (State.onBook_keeps ..) ((.refl _ _)) rfl) fun h2 => ?_
  try clear_value s1
  extract_lets -underBinder +onlyGivenNames -merge s3
  refine .viaKeeps (x := s3) (Keeps.after (State.raise_keeps ..) h2 rfl) fun h4 => ?_
  try clear_value s3
  exact Keeps.after (State.reply_keeps ..) h4 rfl

theorem State.acceptCmd_keeps (a : Nat) (o : Offer) (s : State) :
    Keeps [.book, .replies, .survey, .twin] s (State.acceptCmd a o s) := by
  unfold State.acceptCmd
  extract_lets -underBinder +onlyGivenNames -merge r1 s2
  refine .viaKeeps (x := s2) (Keeps.ite (Keeps.after (Keeps.survey ..) ((.refl _ _)) rfl)
      ((.refl _ _))) fun h3 => ?_
  try clear_value s2
  exact Keeps.after (State.reply_keeps ..) (Keeps.after (State.forward_keeps ..) (Keeps.after (State.onBook_keeps ..) h3 rfl) rfl) rfl

theorem State.reversal_keeps (a : Nat) (landing : Nat) (p : Int) (s : State) :
    Keeps [.book, .led] s (State.reversal a landing p s) := by
  unfold State.reversal
  exact Keeps.after (State.raise_keeps ..) (Keeps.after (State.onBook_keeps ..) ((.refl _ _)) rfl) rfl

theorem State.giveMove_keeps (a : Nat) (m : Move) (s : State) :
    Keeps [.ax, .book, .cars, .led] s (State.giveMove a m s) := by
  unfold State.giveMove
  extract_lets -underBinder +onlyGivenNames -merge a1
  exact Keeps.ite (Keeps.after (State.onAx_keeps ..) ((.refl _ _)) rfl)
      (by
        extract_lets -underBinder +onlyGivenNames -merge a2
        split
        · extract_lets -underBinder +onlyGivenNames -merge s3
          refine .viaKeeps (x := s3) (Keeps.after (State.onAx_keeps ..) ((.refl _ _)) rfl) fun h4 => ?_
          try clear_value s3
          split
          · exact h4
          · exact Keeps.after (State.reversal_keeps ..) h4 rfl
          · exact Keeps.after (State.reversal_keeps ..) h4 rfl
          · extract_lets -underBinder +onlyGivenNames -merge s5
            refine .viaKeeps (x := s5) (Keeps.after (State.reversal_keeps ..) h4 rfl) fun h6 => ?_
            try clear_value s5
            split
            · exact Keeps.after (Keeps.cars ..) h6 rfl
            · exact h6)

theorem State.takeMove_keeps (a : Nat) (m : Move) (s : State) :
    Keeps [.ax, .book, .cars, .led] s (State.takeMove a m s) := by
  unfold State.takeMove
  extract_lets -underBinder +onlyGivenNames -merge a1
  exact Keeps.ite (Keeps.after (State.onAx_keeps ..) ((.refl _ _)) rfl)
      (Keeps.after (State.giveMove_keeps ..) ((.refl _ _)) rfl)

theorem State.decouple_keeps (a : Nat) (s : State) :
    Keeps [.ax, .gc, .led] s (State.decouple a s) := by
  unfold State.decouple
  extract_lets -underBinder +onlyGivenNames -merge a1
  exact Keeps.ite (Keeps.after (State.enterHeld__keeps ..) ((.refl _ _)) rfl)
      (by
        extract_lets -underBinder +onlyGivenNames -merge a2
        exact Keeps.after (State.onAx_keeps ..) ((.refl _ _)) rfl)

theorem State.groupStop_keeps (g : Nat) (s : State) :
    Keeps [.pg] s (State.groupStop g s) := by
  unfold State.groupStop
  extract_lets -underBinder +onlyGivenNames -merge a1
  exact Keeps.ite ((.refl _ _))
      (by
        extract_lets -underBinder +onlyGivenNames -merge a2 a3
        exact Keeps.ite (Keeps.after (State.onPg_keeps ..) ((.refl _ _)) rfl)
            ((.refl _ _)))

theorem State.takeStop_keeps (a : Nat) (s : State) :
    Keeps [.ax, .pg, .gc, .home, .led] s (State.takeStop a s) := by
  unfold State.takeStop
  extract_lets -underBinder +onlyGivenNames -merge a1
  exact Keeps.ite (Keeps.after (State.homeFail_keeps ..) ((.refl _ _)) rfl)
      (Keeps.ite (by
          extract_lets -underBinder +onlyGivenNames -merge s2
          refine .viaKeeps (x := s2) (Keeps.after (State.homeStop_keeps ..) (Keeps.after (State.homeFail_keeps ..) ((.refl _ _)) rfl) rfl) fun h3 => ?_
          try clear_value s2
          exact Keeps.ite h3
              (Keeps.after (State.onAx_keeps ..) h3 rfl))
        (by
          split
          · exact Keeps.after (State.onAx_keeps ..) ((.refl _ _)) rfl
          · exact Keeps.after (State.onAx_keeps ..) ((.refl _ _)) rfl
          · exact Keeps.ite ((.refl _ _))
              (Keeps.after (State.decouple_keeps ..) ((.refl _ _)) rfl)
          · split
            · exact (.refl _ _)
            · exact Keeps.ite ((.refl _ _))
                (by
                  split
                  · exact Keeps.after (State.enterHeld__keeps ..) ((.refl _ _)) rfl
                  · exact (.refl _ _)
                  · exact (.refl _ _)
                  · exact Keeps.ite (Keeps.after (State.decouple_keeps ..) (Keeps.after (State.setGc_keeps ..) ((.refl _ _)) rfl) rfl)
                      (Keeps.after (State.setGc_keeps ..) ((.refl _ _)) rfl))
          · split
            · exact Keeps.after (State.groupStop_keeps ..) ((.refl _ _)) rfl
            · exact (.refl _ _)
          · exact Keeps.ite ((.refl _ _))
              (Keeps.after (State.enterHeld__keeps ..) ((.refl _ _)) rfl)))

theorem State.takeQuick_keeps (a : Nat) (k : RampThen) (cause : Nat) (s : State) :
    Keeps [.ax, .book, .home, .led] s (State.takeQuick a k cause s) := by
  unfold State.takeQuick
  extract_lets -underBinder +onlyGivenNames -merge s1
  refine .viaKeeps (x := s1) (Keeps.ite (Keeps.after (State.homeFail_keeps ..) ((.refl _ _)) rfl)
      ((.refl _ _))) fun h2 => ?_
  try clear_value s1
  extract_lets -underBinder +onlyGivenNames -merge s3
  refine .viaKeeps (x := s3) (Keeps.ite (Keeps.after (State.onBook_keeps ..) h2 rfl)
      h2) fun h4 => ?_
  try clear_value s3
  exact Keeps.after (State.onAx_keeps ..) h4 rfl

theorem State.takeDisable_keeps (a : Nat) (s : State) :
    Keeps [.ax, .book, .gc, .home, .led] s (State.takeDisable a s) := by
  unfold State.takeDisable
  extract_lets -underBinder +onlyGivenNames -merge a1 s2
  refine .viaKeeps (x := s2) (Keeps.ite (Keeps.after (State.homeFail_keeps ..) ((.refl _ _)) rfl)
      (Keeps.ite (Keeps.ite ((.refl _ _))
          (Keeps.after (State.enterHeld__keeps ..) ((.refl _ _)) rfl))
        (Keeps.after (State.takeQuick_keeps ..) ((.refl _ _)) rfl))) fun h3 => ?_
  try clear_value s2
  extract_lets -underBinder +onlyGivenNames -merge s4
  refine .viaKeeps (x := s4) (Keeps.ite (Keeps.after (State.onBook_keeps ..) h3 rfl)
      h3) fun h5 => ?_
  try clear_value s4
  exact Keeps.after (State.onAx_keeps ..) h5 rfl

theorem State.takeEnable_keeps (a : Nat) (s : State) :
    Keeps [.ax] s (State.takeEnable a s) := by
  unfold State.takeEnable
  extract_lets -underBinder +onlyGivenNames -merge a1
  exact Keeps.after (State.onAx_keeps ..) ((.refl _ _)) rfl

theorem State.takePhase_keeps (a : Nat) (c : Nat) (m : AxCmd) (s : State) :
    Keeps [.book, .gc, .led] s (State.takePhase a c m s) := by
  unfold State.takePhase
  extract_lets -underBinder +onlyGivenNames -merge a1 a2 a3
  split
  · extract_lets -underBinder +onlyGivenNames -merge s4
    refine .viaKeeps (x := s4) (Keeps.after (State.onGc_keeps ..) ((.refl _ _)) rfl) fun h5 => ?_
    try clear_value s4
    exact Keeps.ite (Keeps.after (State.reversal_keeps ..) h5 rfl)
        h5

theorem State.takeCmd_keeps (a : Nat) (restAt : Nat) (c : AxCmd) (s : State) :
    Keeps1 [.ax, .book, .pg, .gc, .home, .cars, .safe, .led] s (State.takeCmd a restAt c s) := by
  unfold State.takeCmd
  split
  · exact Keeps1.mk (Keeps.after (State.takeEnable_keeps ..) ((.refl _ _)) rfl)
  · exact Keeps1.mk (Keeps.after (State.takeDisable_keeps ..) ((.refl _ _)) rfl)
  · exact Keeps1.mk (Keeps.after (State.takeStop_keeps ..) ((.refl _ _)) rfl)
  · exact Keeps1.mk (by
        split
        · exact Keeps.after (State.giveMove_keeps ..) (Keeps.after (State.onAx_keeps ..) ((.refl _ _)) rfl) rfl
        · exact (.refl _ _))
  · exact Keeps1.mk (Keeps.after (State.takeQuick_keeps ..) ((.refl _ _)) rfl)
  · exact Keeps1.mk (Keeps.after (State.onBook_keeps ..) ((.refl _ _)) rfl)
  · extract_lets -underBinder +onlyGivenNames -merge a1
    split
    · exact Keeps1.mk (Keeps.after (State.takePhase_keeps ..) ((.refl _ _)) rfl)
    · exact Keeps1.ite (Keeps1.mk (Keeps.after (State.takeDisable_keeps ..) ((.refl _ _)) rfl))
        (by
          extract_lets -underBinder +onlyGivenNames -merge a2
          split
          next heq =>
          refine .ofP1 heq (Keeps1.ite (Keeps1.mk ((.refl _ _)))
              (Keeps.after (State.changeMode_keeps ..) ((.refl _ _)) rfl)) fun h3 => ?_
          exact Keeps1.ite (Keeps1.mk h3)
            (Keeps1.ite (Keeps1.mk (Keeps.after (State.takeMove_keeps ..) h3 rfl))
              (Keeps1.ite (Keeps1.mk (Keeps.after (State.onAx_keeps ..) h3 rfl))
                (Keeps1.ite (Keeps1.mk (Keeps.after (State.homeEnter_keeps ..) h3 rfl))
                  (Keeps1.mk h3)))))

theorem State.decideCmd_keeps (a : Nat) (o : Offer) (s : State) :
    Keeps [.ax, .book, .pg, .gc, .home, .replies, .survey, .cars, .safe, .twin, .led] s (State.decideCmd a o s) := by
  unfold State.decideCmd
  extract_lets -underBinder +onlyGivenNames -merge a1 a2
  exact Keeps.ite (Keeps.after (State.rejectCmd_keeps ..) ((.refl _ _)) rfl)
      (by
        split
        next heq =>
        refine .ofP1 heq (Keeps.after (State.takeCmd_keeps ..) ((.refl _ _)) rfl) fun h3 => ?_
        exact Keeps.ite (Keeps.after (State.rejectCmd_keeps ..) h3 rfl)
          (Keeps.after (State.acceptCmd_keeps ..) h3 rfl))

theorem State.decideOffered_keeps (a : Nat) (s : State) :
    Keeps [.ax, .book, .pg, .gc, .home, .replies, .survey, .cars, .safe, .twin, .led] s (State.decideOffered a s) := by
  unfold State.decideOffered
  extract_lets -underBinder +onlyGivenNames -merge a1 s2
  refine .viaKeeps (x := s2) (Keeps.after (State.onBook_keeps ..) ((.refl _ _)) rfl) fun h3 => ?_
  try clear_value s2
  split
  · exact h3
  · exact Keeps.after (State.decideCmd_keeps ..) (Keeps.foldl (fun _ _ h4 =>
        Keeps.after (State.rejectCmd_keeps ..) h4 rfl)
        h3 _) rfl

theorem State.keepOffer_keeps (a : Nat) (o : Offer) (s : State) :
    Keeps [.book] s (State.keepOffer a o s) := by
  unfold State.keepOffer
  exact Keeps.after (State.onBook_keeps ..) ((.refl _ _)) rfl

theorem State.axisCommand_keeps (a : Nat) (o : Origin) (c : AxCmd) (s : State) :
    Keeps [.ax, .book, .pg, .gc, .home, .pre, .replies, .survey, .cars, .safe, .twin, .led] s (State.axisCommand a o c s) := by
  unfold State.axisCommand
  exact Keeps.ite ((.refl _ _))
    (Keeps.ite (Keeps.after (State.decideCmd_keeps ..) ((.refl _ _)) rfl)
      (Keeps.ite (Keeps.after (State.keepOffer_keeps ..) ((.refl _ _)) rfl)
        (Keeps.after (State.show_keeps ..) (Keeps.after (State.keepOffer_keeps ..) (Keeps.after (State.unshow_keeps ..) ((.refl _ _)) rfl) rfl) rfl)))

theorem State.offerAxis_keeps (a : Nat) (o : Origin) (c : AxCmd) (s : State) :
    Keeps [.ax, .book, .pg, .gc, .home, .replies, .survey, .cars, .safe, .twin, .led] s (State.offerAxis a o c s) := by
  unfold State.offerAxis
  exact Keeps.ite ((.refl _ _))
    (Keeps.ite (Keeps.after (State.decideCmd_keeps ..) ((.refl _ _)) rfl)
      (Keeps.after (State.keepOffer_keeps ..) ((.refl _ _)) rfl))

theorem State.limitEvent_keeps (a : Nat) (kind : Nat) (s : State) :
    Keeps [.led] s (State.limitEvent a kind s) := by
  unfold State.limitEvent
  exact Keeps.after (State.raise_keeps ..) ((.refl _ _)) rfl

theorem State.limitStop_keeps (a : Nat) (kind : Nat) (s : State) :
    Keeps [.ax, .book, .led] s (State.limitStop a kind s) := by
  unfold State.limitStop
  extract_lets -underBinder +onlyGivenNames -merge s1
  refine .viaKeeps (x := s1) (Keeps.ite (Keeps.after (State.onBook_keeps ..) ((.refl _ _)) rfl)
      ((.refl _ _))) fun h2 => ?_
  try clear_value s1
  exact Keeps.after (State.limitEvent_keeps ..) (Keeps.after (State.onAx_keeps ..) h2 rfl) rfl

theorem State.limits_keeps (a : Nat) (s : State) :
    Keeps [.ax, .book, .led] s (State.limits a s) := by
  unfold State.limits
  extract_lets -underBinder +onlyGivenNames -merge a1 a2
  exact Keeps.ite ((.refl _ _))
      (Keeps.ite (Keeps.ite (Keeps.after (State.limitEvent_keeps ..) ((.refl _ _)) rfl)
          ((.refl _ _)))
        (Keeps.ite (Keeps.after (State.limitStop_keeps ..) ((.refl _ _)) rfl)
          (Keeps.ite (by
              extract_lets -underBinder +onlyGivenNames -merge a3
              exact Keeps.ite (Keeps.after (State.limitStop_keeps ..) ((.refl _ _)) rfl)
                  ((.refl _ _)))
            ((.refl _ _)))))

theorem State.inFormat_keeps (a : Nat) (was : Int) (s : State) :
    Keeps1 [.ax] s (State.inFormat a was s) := by
  unfold State.inFormat
  extract_lets -underBinder +onlyGivenNames -merge a1 a2 a3
  exact Keeps1.mk (Keeps.after (State.onAx_keeps ..) ((.refl _ _)) rfl)

theorem State.rampStage_keeps (a : Nat) (s : State) :
    Keeps1 [.ax, .gc, .led] s (State.rampStage a s) := by
  unfold State.rampStage
  extract_lets -underBinder +onlyGivenNames -merge a1 a2 a3 a4 s5
  refine .viaKeeps (x := s5) (Keeps.after (State.onAx_keeps ..) ((.refl _ _)) rfl) fun h6 => ?_
  try clear_value s5
  split
  next heq =>
  refine .ofP1 heq (Keeps.after (State.inFormat_keeps ..) h6 rfl) fun h7 => ?_
  exact by
    extract_lets -underBinder +onlyGivenNames -merge s8 s9
    refine .viaKeeps (x := s8) (Keeps.after (State.onAx_keeps ..) h7 rfl) fun h10 => ?_
    try clear_value s8
    refine .viaKeeps (x := s9) (Keeps.ite h7
        (Keeps.ite (Keeps.after (State.onAx_keeps ..) h10 rfl)
          (Keeps.after (State.enterHeld__keeps ..) h10 rfl))) fun h11 => ?_
    try clear_value s9
    exact Keeps1.mk h11

theorem State.refStage_keeps (a : Nat) (s : State) :
    Keeps1 [.ax, .gc, .led] s (State.refStage a s) := by
  unfold State.refStage
  extract_lets -underBinder +onlyGivenNames -merge a1 a2 a3 a4 a5 a6 a7 s8
  refine .viaKeeps (x := s8) (by
      dsimp -zeta only [s8]
      split
      · extract_lets -underBinder +onlyGivenNames -merge s9
        refine .viaKeeps (x := s9) (Keeps.after (State.setGc_keeps ..) ((.refl _ _)) rfl) fun h10 => ?_
        try clear_value s9
        exact Keeps.ite (Keeps.after (State.setGc_keeps ..) h10 rfl)
            h10
      · exact (.refl _ _)) fun h11 => ?_
  try clear_value s8
  extract_lets -underBinder +onlyGivenNames -merge a12
  split
  next heq =>
  refine .ofP1 heq (Keeps.after (State.inFormat_keeps ..) (Keeps.after (State.onAx_keeps ..) h11 rfl) rfl) fun h13 => ?_
  exact by
    extract_lets -underBinder +onlyGivenNames -merge a14 a15
    exact Keeps1.mk (Keeps.ite (Keeps.after (State.decouple_keeps ..) h13 rfl)
          (Keeps.ite (Keeps.after (State.enterHeld__keeps ..) h13 rfl)
            h13))

theorem State.ferrStage_keeps (a : Nat) (s : State) :
    Keeps1 [.ax, .book] s (State.ferrStage a s) := by
  unfold State.ferrStage
  extract_lets -underBinder +onlyGivenNames -merge a1 a2 a3 a4
  exact Keeps1.mk (Keeps.after (State.onBook_keeps ..) (Keeps.after (State.onAx_keeps ..) ((.refl _ _)) rfl) rfl)

theorem State.fromTorque_keeps (a : Nat) (ilim : Nat) (s : State) :
    Keeps [.ax] s (State.fromTorque a ilim s) := by
  unfold State.fromTorque
  extract_lets -underBinder +onlyGivenNames -merge a1
  split
  · exact (.refl _ _)
  · split
    · extract_lets -underBinder +onlyGivenNames -merge a2
      exact Keeps.after (State.onAx_keeps ..) ((.refl _ _)) rfl

theorem State.iqStage_keeps (a : Nat) (s : State) :
    Keeps1 [.ax, .home, .led] s (State.iqStage a s) := by
  unfold State.iqStage
  extract_lets -underBinder +onlyGivenNames -merge a1 a2 a3 a4
  split
  · exact Keeps1.mk (Keeps.after (State.onAx_keeps ..) ((.refl _ _)) rfl)
  · exact Keeps1.ite (Keeps1.mk ((.refl _ _)))
      (Keeps1.ite (Keeps1.mk (Keeps.after (State.onAx_keeps ..) ((.refl _ _)) rfl))
        (by
          extract_lets -underBinder +onlyGivenNames -merge a5 a6 s7
          refine .viaKeeps (x := s7) (Keeps.after (State.fromTorque_keeps ..) ((.refl _ _)) rfl) fun h8 => ?_
          try clear_value s7
          extract_lets -underBinder +onlyGivenNames -merge a9 a10 s11
          refine .viaKeeps (x := s11) (Keeps.after (State.onAx_keeps ..) h8 rfl) fun h12 => ?_
          try clear_value s11
          extract_lets -underBinder +onlyGivenNames -merge s13
          refine .viaKeeps (x := s13) (Keeps.ite h12
              (Keeps.after (State.raise_keeps ..) h12 rfl)) fun h14 => ?_
          try clear_value s13
          extract_lets -underBinder +onlyGivenNames -merge a15
          exact Keeps1.mk (Keeps.after (State.onHome_keeps ..) h14 rfl)))

theorem State.stillStage_keeps (a : Nat) (s : State) :
    Keeps [.ax] s (State.stillStage a s) := by
  unfold State.stillStage
  extract_lets -underBinder +onlyGivenNames -merge a1 a2 a3
  exact Keeps.after (State.onAx_keeps ..) ((.refl _ _)) rfl

theorem State.disableStage_keeps (a : Nat) (s : State) :
    Keeps [.ax] s (State.disableStage a s) := by
  unfold State.disableStage
  extract_lets -underBinder +onlyGivenNames -merge a1
  exact Keeps.ite ((.refl _ _))
      (Keeps.ite (Keeps.after (State.onAx_keeps ..) ((.refl _ _)) rfl)
        (Keeps.ite (Keeps.after (State.onAx_keeps ..) ((.refl _ _)) rfl)
          ((.refl _ _))))

theorem State.spStage_keeps (a : Nat) (pWas : Int) (s : State) :
    Keeps1 [.cax, .ax, .led] s (State.spStage a pWas s) := by
  unfold State.spStage
  extract_lets -underBinder +onlyGivenNames -merge a1 a2 a3
  split
  · exact Keeps1.ite (by
        extract_lets -underBinder +onlyGivenNames -merge a4 a5 a6 a7 s8
        refine .viaKeeps (x := s8) (Keeps.after (State.onAx_keeps ..) ((.refl _ _)) rfl) fun h9 => ?_
        try clear_value s8
        extract_lets -underBinder +onlyGivenNames -merge a10
        exact Keeps1.mk (Keeps.after (State.commitSp_keeps ..) h9 rfl))
      (Keeps1.mk (by
          split
          · exact Keeps.after (State.commitSp_keeps ..) ((.refl _ _)) rfl
          · extract_lets -underBinder +onlyGivenNames -merge a11 a12 a13 a14 a15 a16
            clear_value a3
            split
            · exact Keeps.after (State.commitSp_keeps ..) ((.refl _ _)) rfl
            · extract_lets -underBinder +onlyGivenNames -merge a17
              exact Keeps.after (State.commitSp_keeps ..) ((.refl _ _)) rfl))
  · exact Keeps1.ite (by
        extract_lets -underBinder +onlyGivenNames -merge a18 a19 a20 a21 s22
        refine .viaKeeps (x := s22) (Keeps.after (State.onAx_keeps ..) ((.refl _ _)) rfl) fun h23 => ?_
        try clear_value s22
        extract_lets -underBinder +onlyGivenNames -merge a24
        exact Keeps1.mk (Keeps.after (State.commitSp_keeps ..) h23 rfl))
      (Keeps1.mk (by
          split
          · exact Keeps.after (State.commitSp_keeps ..) ((.refl _ _)) rfl
          · extract_lets -underBinder +onlyGivenNames -merge a25 a26 a27 a28 a29 a30
            clear_value a3
            split
            · exact Keeps.after (State.commitSp_keeps ..) ((.refl _ _)) rfl
            · extract_lets -underBinder +onlyGivenNames -merge a31
              exact Keeps.after (State.commitSp_keeps ..) ((.refl _ _)) rfl))
  · exact Keeps1.mk (Keeps.after (State.commitSp_keeps ..) ((.refl _ _)) rfl)
  · exact Keeps1.mk ((.refl _ _))

theorem State.axisKernel_keeps (a : Nat) (s : State) :
    Keeps [.cax, .ax, .book, .pg, .gc, .home, .replies, .survey, .cars, .safe, .twin, .led] s (State.axisKernel a s) := by
  unfold State.axisKernel
  exact Keeps.ite ((.refl _ _))
    (by
      extract_lets -underBinder +onlyGivenNames -merge s1
      refine .viaKeeps (x := s1) (Keeps.after (State.decideOffered_keeps ..) ((.refl _ _)) rfl) fun h2 => ?_
      try clear_value s1
      extract_lets -underBinder +onlyGivenNames -merge a3
      exact Keeps.ite h2
          (Keeps.ite (Keeps.after (State.stillStage_keeps ..) (Keeps.after (State.onAx_keeps ..) h2 rfl) rfl)
            (by
              extract_lets -underBinder +onlyGivenNames -merge s4
              refine .viaKeeps (x := s4) (Keeps.after (State.limits_keeps ..) h2 rfl) fun h5 => ?_
              try clear_value s4
              extract_lets -underBinder +onlyGivenNames -merge s6
              refine .viaKeeps (x := s6) (Keeps.after (State.homeStage_keeps ..) h5 rfl) fun h7 => ?_
              try clear_value s6
              extract_lets -underBinder +onlyGivenNames -merge a8 a9 a10
              split
              next heq =>
              refine .ofP1 heq (Keeps1.ite (Keeps1.mk (Keeps.after (State.onAx_keeps ..) h7 rfl))
                  (Keeps1.ite (Keeps.after (State.rampStage_keeps ..) h7 rfl)
                    (Keeps1.ite (Keeps1.mk (Keeps.after (State.onAx_keeps ..) h7 rfl))
                      (Keeps.after (State.refStage_keeps ..) h7 rfl)))) fun h11 => ?_
              exact by
                split
                next heq =>
                refine .ofP1 heq (Keeps1.ite (Keeps.after (State.ferrStage_keeps ..) h11 rfl)
                    (Keeps1.mk h11)) fun h12 => ?_
                exact by
                  split
                  next heq =>
                  refine .ofP1 heq (Keeps1.ite (Keeps1.mk h12)
                      (Keeps.after (State.iqStage_keeps ..) h12 rfl)) fun h13 => ?_
                  exact by
                    split
                    next heq =>
                    refine .ofP1 heq (Keeps.after (State.spStage_keeps ..) (Keeps.after (State.disableStage_keeps ..) (Keeps.after (State.stillStage_keeps ..) (Keeps.after (State.wrapAxis_keeps ..) h13 rfl) rfl) rfl) rfl) fun h14 => ?_
                    exact Keeps.after (State.raiseFaults_keeps ..) h14 rfl)))

theorem State.gearWatch_keeps (c : Nat) (s : State) :
    Keeps [.ax, .gc, .led] s (State.gearWatch c s) := by
  unfold State.gearWatch
  extract_lets -underBinder +onlyGivenNames -merge a1
  exact Keeps.ite ((.refl _ _))
      (by
        extract_lets -underBinder +onlyGivenNames -merge r2 s3
        refine .viaKeeps (x := s3) (Keeps.after (State.setGc_keeps ..) ((.refl _ _)) rfl) fun h4 => ?_
        try clear_value s3
        exact Keeps.after (State.raise_keeps ..) (Keeps.after (State.onAx_keeps ..) h4 rfl) rfl)

theorem State.axisRow_keeps (a : Nat) (src : Nat) (c : AxCmd) (s : State) :
    Runs [.ax, .book, .pg, .gc, .home, .pre, .replies, .survey, .cars, .safe, .twin, .led] s (State.axisRow a src c s) := by
  unfold State.axisRow
  exact Runs.next (Keeps.after (State.axisCommand_keeps ..) ((.refl _ _)) rfl)

theorem execEnable_keeps (axis : Nat) (src : Nat) (tag : Nat) (s : State) :
    Runs [.ax, .book, .pg, .gc, .home, .pre, .replies, .survey, .cars, .safe, .twin, .led] s (execEnable axis src tag s) := by
  unfold execEnable
  exact Runs.after (State.axisRow_keeps ..) ((.refl _ _)) rfl

theorem execDisable_keeps (axis : Nat) (src : Nat) (tag : Nat) (s : State) :
    Runs [.ax, .book, .pg, .gc, .home, .pre, .replies, .survey, .cars, .safe, .twin, .led] s (execDisable axis src tag s) := by
  unfold execDisable
  exact Runs.after (State.axisRow_keeps ..) ((.refl _ _)) rfl

theorem execMode_keeps (axis : Nat) (src : Nat) (code : Nat) (tag : Nat) (s : State) :
    Runs [.ax, .book, .pg, .gc, .home, .pre, .replies, .survey, .cars, .safe, .twin, .led] s (execMode axis src code tag s) := by
  unfold execMode
  exact Runs.after (State.axisRow_keeps ..) ((.refl _ _)) rfl

theorem execMoveAbs_keeps (axis : Nat) (src : Nat) (prof : Nat) (flags : Nat) (target : Int) (vcap : Nat) (tag : Nat) (s : State) :
    Runs [.ax, .book, .pg, .gc, .home, .pre, .replies, .survey, .cars, .safe, .twin, .led] s (execMoveAbs axis src prof flags target vcap tag s) := by
  unfold execMoveAbs
  exact Runs.after (State.axisRow_keeps ..) ((.refl _ _)) rfl

theorem execMoveRel_keeps (axis : Nat) (src : Nat) (prof : Nat) (dist : Int) (vcap : Nat) (tag : Nat) (s : State) :
    Runs [.ax, .book, .pg, .gc, .home, .pre, .replies, .survey, .cars, .safe, .twin, .led] s (execMoveRel axis src prof dist vcap tag s) := by
  unfold execMoveRel
  exact Runs.after (State.axisRow_keeps ..) ((.refl _ _)) rfl

theorem execVelocity_keeps (axis : Nat) (src : Nat) (prof : Nat) (v : Int) (vcap : Nat) (tag : Nat) (s : State) :
    Runs [.ax, .book, .pg, .gc, .home, .pre, .replies, .survey, .cars, .safe, .twin, .led] s (execVelocity axis src prof v vcap tag s) := by
  unfold execVelocity
  exact Runs.after (State.axisRow_keeps ..) ((.refl _ _)) rfl

theorem execStop_keeps (axis : Nat) (src : Nat) (tag : Nat) (s : State) :
    Runs [.ax, .book, .pg, .gc, .home, .pre, .replies, .survey, .cars, .safe, .twin, .led] s (execStop axis src tag s) := by
  unfold execStop
  exact Runs.after (State.axisRow_keeps ..) ((.refl _ _)) rfl

theorem execResume_keeps (axis : Nat) (src : Nat) (tag : Nat) (s : State) :
    Runs [.ax, .book, .pg, .gc, .home, .pre, .replies, .survey, .cars, .safe, .twin, .led] s (execResume axis src tag s) := by
  unfold execResume
  exact Runs.after (State.axisRow_keeps ..) ((.refl _ _)) rfl

theorem execQuickStop_keeps (axis : Nat) (src : Nat) (tag : Nat) (s : State) :
    Runs [.ax, .book, .pg, .gc, .home, .pre, .replies, .survey, .cars, .safe, .twin, .led] s (execQuickStop axis src tag s) := by
  unfold execQuickStop
  exact Runs.after (State.axisRow_keeps ..) ((.refl _ _)) rfl

theorem execTorque_keeps (axis : Nat) (src : Nat) (current : Int) (tag : Nat) (s : State) :
    Runs [.ax, .book, .pg, .gc, .home, .pre, .replies, .survey, .cars, .safe, .twin, .led] s (execTorque axis src current tag s) := by
  unfold execTorque
  exact Runs.after (State.axisRow_keeps ..) ((.refl _ _)) rfl

theorem execHold_keeps (axis : Nat) (src : Nat) (tag : Nat) (s : State) :
    Runs [.ax, .book, .pg, .gc, .home, .pre, .replies, .survey, .cars, .safe, .twin, .led] s (execHold axis src tag s) := by
  unfold execHold
  exact Runs.after (State.axisRow_keeps ..) ((.refl _ _)) rfl

theorem execRelease_keeps (axis : Nat) (src : Nat) (tag : Nat) (s : State) :
    Runs [.ax, .book, .pg, .gc, .home, .pre, .replies, .survey, .cars, .safe, .twin, .led] s (execRelease axis src tag s) := by
  unfold execRelease
  exact Runs.after (State.axisRow_keeps ..) ((.refl _ _)) rfl

theorem execDwellEnd_keeps (t : Nat) (axis : Nat) (s : State) :
    Runs [.ax, .gc, .pre] s (execDwellEnd t axis s) := by
  unfold execDwellEnd
  extract_lets -underBinder +onlyGivenNames -merge s1
  refine .viaKeeps (x := s1) (Keeps.after (State.tick_keeps ..) ((.refl _ _)) rfl) fun h2 => ?_
  try clear_value s1
  exact Runs.ite (Runs.next h2)
      (by
        extract_lets -underBinder +onlyGivenNames -merge a3 a4 a5
        exact Runs.ite (by
              extract_lets -underBinder +onlyGivenNames -merge a6 s7
              refine .viaKeeps (x := s7) (by
                  dsimp -zeta only [s7]
                  split
                  · exact Keeps.after (State.onGcKept_keeps ..) h2 rfl
                  · exact h2) fun h8 => ?_
              try clear_value s7
              exact Runs.next (Keeps.after (State.onAxKept_keeps ..) h8 rfl))
            (Runs.next h2))

end Sys2Proof.Machine
end

