-- ==== Sys2Proof/Laws/Frames.lean ====
section
/-! SUPPORT. The laws of the operations of Machine/Frames.lean: which fields of the state each may change. -/

namespace Sys2Proof.Machine

theorem State.onPort_keeps (p : Nat) (f : Port → Port) (s : State) :
    Keeps [.fab] s (State.onPort p f s) := by
  unfold State.onPort
  exact Keeps.after (Keeps.fab ..) ((.refl _ _)) rfl

theorem State.onPeer_keeps (p : Nat) (unit : Nat) (f : Peer → Peer) (s : State) :
    Keeps [.fab] s (State.onPeer p unit f s) := by
  unfold State.onPeer
  extract_lets -underBinder +onlyGivenNames -merge a1
  exact Keeps.after (State.onPort_keeps ..) ((.refl _ _)) rfl

theorem State.enqueue_keeps (p : Nat) (dest : Nat) (buf : Option (Nat × Nat × Nat)) (f : Frame) (s : State) :
    Keeps [.fab] s (State.enqueue p dest buf f s) := by
  unfold State.enqueue
  exact Keeps.after (State.onPort_keeps ..) ((.refl _ _)) rfl

theorem State.giveBack_keeps (p : Nat) (unit : Nat) (c : Nat) (s : State) :
    Keeps [.disp, .fab] s (State.giveBack p unit c s) := by
  unfold State.giveBack
  extract_lets -underBinder +onlyGivenNames -merge a1
  exact Keeps.ite (by
        extract_lets -underBinder +onlyGivenNames -merge s2
        refine .viaKeeps (x := s2) (Keeps.ite (Keeps.after (State.backPressure_keeps ..) ((.refl _ _)) rfl)
            ((.refl _ _))) fun h3 => ?_
        try clear_value s2
        exact Keeps.after (Keeps.fab ..) h3 rfl)
      (by
        extract_lets -underBinder +onlyGivenNames -merge r4 s5
        refine .viaKeeps (x := s5) (Keeps.ite (Keeps.after (Keeps.disp ..) ((.refl _ _)) rfl)
            ((.refl _ _))) fun h6 => ?_
        try clear_value s5
        exact Keeps.after (State.onPeer_keeps ..) h6 rfl)

theorem State.giveKept_keeps (s : State) :
    Keeps [.disp, .fab] s (State.giveKept s) := by
  unfold State.giveKept
  exact Keeps.foldl (fun _ _ h1 =>
    Keeps.after (State.giveBack_keeps ..) h1 rfl)
    (Keeps.after (Keeps.fab ..) ((.refl _ _)) rfl) _

theorem State.freeBuf_keeps (i : TxItem) (s : State) :
    Keeps [.disp, .fab] s (State.freeBuf i s) := by
  unfold State.freeBuf
  split
  · exact (.refl _ _)
  · exact Keeps.ite ((.refl _ _))
      (Keeps.after (State.giveBack_keeps ..) ((.refl _ _)) rfl)

theorem State.dropQueue_keeps (p : Nat) (gone : TxItem → Bool) (s : State) :
    Keeps [.disp, .fab] s (State.dropQueue p gone s) := by
  unfold State.dropQueue
  extract_lets -underBinder +onlyGivenNames -merge a1 s2
  refine .viaKeeps (x := s2) (Keeps.after (State.onPort_keeps ..) ((.refl _ _)) rfl) fun h3 => ?_
  try clear_value s2
  exact Keeps.foldl (fun _ _ h4 =>
      Keeps.after (State.freeBuf_keeps ..) h4 rfl)
      h3 _

theorem State.setSource_keeps (x : Source) (s : State) :
    Keeps [.fab] s (State.setSource x s) := by
  unfold State.setSource
  extract_lets -underBinder +onlyGivenNames -merge a1
  exact Keeps.after (Keeps.fab ..) ((.refl _ _)) rfl

theorem State.launch_keeps (f : Frame) (s : State) :
    Keeps [.fab] s (State.launch f s) := by
  unfold State.launch
  extract_lets -underBinder +onlyGivenNames -merge s1
  refine .viaKeeps (x := s1) (Keeps.foldl (fun _ _ h2 =>
      Keeps.after (State.enqueue_keeps ..) h2 rfl)
      ((.refl _ _)) _) fun h3 => ?_
  try clear_value s1
  extract_lets -underBinder +onlyGivenNames -merge a4
  exact Keeps.ite (Keeps.after (Keeps.fab ..) h3 rfl)
      h3

theorem State.sendAt_keeps (d : Dest) (m : Msg) (epoch : Nat) (s : State) :
    Keeps [.fab] s (State.sendAt d m epoch s) := by
  unfold State.sendAt
  split
  · exact (.refl _ _)
  · exact Keeps.ite ((.refl _ _))
      (by
        extract_lets -underBinder +onlyGivenNames -merge a1 a2
        exact Keeps.after (State.launch_keeps ..) (Keeps.after (Keeps.fab ..) ((.refl _ _)) rfl) rfl)

theorem State.send_keeps (d : Dest) (m : Msg) (s : State) :
    Keeps [.fab] s (State.send d m s) := by
  unfold State.send
  exact Keeps.after (State.sendAt_keeps ..) ((.refl _ _)) rfl

theorem State.pairLaunch_keeps (f : Frame) (s : State) :
    Keeps [.fab, .twin] s (State.pairLaunch f s) := by
  unfold State.pairLaunch
  extract_lets -underBinder +onlyGivenNames -merge a1
  exact Keeps.ite (Keeps.after (Keeps.twin ..) ((.refl _ _)) rfl)
      (by
        extract_lets -underBinder +onlyGivenNames -merge a2 a3 a4 s5
        refine .viaKeeps (x := s5) (Keeps.after (State.setSource_keeps ..) ((.refl _ _)) rfl) fun h6 => ?_
        try clear_value s5
        exact Keeps.after (State.launch_keeps ..) (Keeps.after (Keeps.twin ..) h6 rfl) rfl)

theorem State.sendPair_keeps (d : Dest) (m : Msg) (epoch : Nat) (s : State) :
    Keeps [.fab, .twin] s (State.sendPair d m epoch s) := by
  unfold State.sendPair
  exact Keeps.ite (Keeps.after (State.sendAt_keeps ..) ((.refl _ _)) rfl)
    (Keeps.ite ((.refl _ _))
      (by
        split
        · exact (.refl _ _)
        · exact Keeps.ite ((.refl _ _))
            (Keeps.after (State.pairLaunch_keeps ..) ((.refl _ _)) rfl)))

theorem State.pairStage_keeps (s : State) :
    Keeps [.fab, .twin] s (State.pairStage s) := by
  unfold State.pairStage
  extract_lets -underBinder +onlyGivenNames -merge a1
  exact Keeps.foldl (fun _ _ h2 =>
      Keeps.after (State.pairLaunch_keeps ..) h2 rfl)
      (Keeps.after (Keeps.twin ..) ((.refl _ _)) rfl) _

theorem State.sendHop_keeps (p : Nat) (dest : Nat) (m : Msg) (s : State) :
    Keeps [.fab] s (State.sendHop p dest m s) := by
  unfold State.sendHop
  extract_lets -underBinder +onlyGivenNames -merge a1 a2
  exact Keeps.after (State.enqueue_keeps ..) (Keeps.after (Keeps.fab ..) ((.refl _ _)) rfl) rfl

end Sys2Proof.Machine
end

