-- ==== Sys2Proof/Laws/Trip.lean ====
section
/-! SUPPORT. The laws of the operations of Machine/Trip.lean: which fields of the state each may change. -/

namespace Sys2Proof.Machine

theorem State.onBus_keeps (b : Nat) (f : Bus → Bus) (s : State) :
    Keeps [.purse] s (State.onBus b f s) := by
  unfold State.onBus
  exact Keeps.after (Keeps.purse ..) ((.refl _ _)) rfl

theorem State.offerTrip_keeps (b : Nat) (l : List (Int × Int × Int)) (s : State) :
    Keeps [.fab, .purse] s (State.offerTrip b l s) := by
  unfold State.offerTrip
  extract_lets -underBinder +onlyGivenNames -merge s1
  refine .viaKeeps (x := s1) (Keeps.after (State.onBus_keeps ..) ((.refl _ _)) rfl) fun h2 => ?_
  try clear_value s1
  exact Keeps.ite h2
      (Keeps.foldl (fun _ _ h3 =>
        by
          extract_lets -underBinder +onlyGivenNames -merge a4
          exact Keeps.after (State.send_keeps ..) h3 rfl)
        h2 _)

theorem State.onCar_keeps (c : Nat) (f : Car → Car) (s : State) :
    Keeps [.cars] s (State.onCar c f s) := by
  unfold State.onCar
  exact Keeps.after (Keeps.cars ..) ((.refl _ _)) rfl

theorem State.enterTrip_keeps (c : Nat) (l : Nat) (t : Int) (s : State) :
    Keeps [.cars, .fab, .purse] s (State.enterTrip c l t s) := by
  unfold State.enterTrip
  split
  · exact (.refl _ _)
  · extract_lets -underBinder +onlyGivenNames -merge a1
    exact Keeps.after (State.offerTrip_keeps ..) (Keeps.after (State.onCar_keeps ..) ((.refl _ _)) rfl) rfl

theorem State.dropTrip_keeps (c : Nat) (s : State) :
    Keeps [.cars, .fab, .purse] s (State.dropTrip c s) := by
  unfold State.dropTrip
  extract_lets -underBinder +onlyGivenNames -merge a1
  exact Keeps.ite ((.refl _ _))
      (Keeps.after (State.offerTrip_keeps ..) (Keeps.after (State.onCar_keeps ..) ((.refl _ _)) rfl) rfl)

end Sys2Proof.Machine
end

