-- ==== Sys2Proof/Laws/Car.lean ====
section
/-! SUPPORT. The laws of the operations of Machine/Car.lean: which fields of the state each may change. -/

namespace Sys2Proof.Machine

theorem State.onDoor_keeps (d : Nat) (f : Door → Door) (s : State) :
    Keeps [.doors] s (State.onDoor d f s) := by
  unfold State.onDoor
  exact Keeps.after (Keeps.doors ..) ((.refl _ _)) rfl

theorem State.setOut_keeps (c : Nat) (cause : Nat) (s : State) :
    Keeps [.cars] s (State.setOut c cause s) := by
  unfold State.setOut
  exact Keeps.after (State.onCar_keeps ..) ((.refl _ _)) rfl

theorem State.kernelCmd_keeps (a : Nat) (m : AxCmd) (s : State) :
    Keeps [.book] s (State.kernelCmd a m s) := by
  unfold State.kernelCmd
  exact Keeps.after (State.onBook_keeps ..) ((.refl _ _)) rfl

theorem State.carState_keeps (c : Nat) (dest : Nat) (s : State) :
    Keeps [.cars, .led] s (State.carState c dest s) := by
  unfold State.carState
  extract_lets -underBinder +onlyGivenNames -merge a1
  exact Keeps.ite ((.refl _ _))
      (Keeps.after (State.raise_keeps ..) (Keeps.after (State.onCar_keeps ..) ((.refl _ _)) rfl) rfl)

theorem State.disagree_keeps (c : Nat) (check : Nat) (input : Nat) (v : Int) (sev : Nat) (s : State) :
    Keeps [.cars, .led] s (State.disagree c check input v sev s) := by
  unfold State.disagree
  exact Keeps.after (State.raise_keeps ..) (Keeps.after (State.onCar_keeps ..) ((.refl _ _)) rfl) rfl

theorem State.shaftFails_keeps (c : Nat) (a : Nat) (check : Nat) (input : Nat) (v : Int) (s : State) :
    Keeps [.book, .cars, .fab, .purse, .led] s (State.shaftFails c a check input v s) := by
  unfold State.shaftFails
  extract_lets -underBinder +onlyGivenNames -merge s1
  refine .viaKeeps (x := s1) (Keeps.ite (Keeps.after (State.kernelCmd_keeps ..) ((.refl _ _)) rfl)
      ((.refl _ _))) fun h2 => ?_
  try clear_value s1
  extract_lets -underBinder +onlyGivenNames -merge s3
  refine .viaKeeps (x := s3) (Keeps.after (State.setOut_keeps ..) (Keeps.after (State.disagree_keeps ..) h2 rfl) rfl) fun h4 => ?_
  try clear_value s3
  exact Keeps.after (State.carState_keeps ..) (Keeps.after (State.dropTrip_keeps ..) (Keeps.after (State.onCar_keeps ..) h4 rfl) rfl) rfl

theorem State.carMeasure_keeps (c : Nat) (a : Nat) (s : State) :
    Keeps [.cars, .led] s (State.carMeasure c a s) := by
  unfold State.carMeasure
  extract_lets -underBinder +onlyGivenNames -merge a1 a2 a3
  refine .viaP (fun W => ∀ b0 b1 b2, Keeps W s b2 → Keeps W s (a3 b0 b1 b2)) (fun _ _ _ h4 =>
    Keeps.after (State.raise_keeps ..) h4 rfl) fun h5 => ?_
  try clear_value a3
  extract_lets -underBinder +onlyGivenNames -merge a6 s7
  refine .viaKeeps (x := s7) (by
      dsimp -zeta only [s7]
      split
      · exact Keeps.ite ((.refl _ _))
          (Keeps.ite (h5 _ _ _ ((.refl _ _)))
            (h5 _ _ _ (Keeps.after (State.onCar_keeps ..) ((.refl _ _)) rfl)))
      · exact (.refl _ _)) fun h8 => ?_
  try clear_value s7
  extract_lets -underBinder +onlyGivenNames -merge s9
  refine .viaKeeps (x := s9) (by
      dsimp -zeta only [s9]
      split
      · exact Keeps.ite (h5 _ _ _ h8)
          h8
      · exact h8) fun h10 => ?_
  try clear_value s9
  extract_lets -underBinder +onlyGivenNames -merge a11 a12 a13
  exact Keeps.after (State.onCar_keeps ..) h10 rfl

theorem State.markerEdge_keeps (c : Nat) (a : Nat) (i : Nat) (s : State) :
    Keeps [.book, .cars, .fab, .purse, .led] s (State.markerEdge c a i s) := by
  unfold State.markerEdge
  extract_lets -underBinder +onlyGivenNames -merge a1
  split
  · exact (.refl _ _)
  · extract_lets -underBinder +onlyGivenNames -merge a2 a3 a4 a5 a6 a7 s8
    refine .viaKeeps (x := s8) (Keeps.after (State.onCar_keeps ..) ((.refl _ _)) rfl) fun h9 => ?_
    try clear_value s8
    extract_lets -underBinder +onlyGivenNames -merge a10
    refine .viaP (fun W => ∀ b0, Keeps W s b0 → Keeps W s (a10 b0)) (fun _ h11 =>
      Keeps.after (State.onCar_keeps ..) h11 rfl) fun h12 => ?_
    try clear_value a10
    exact Keeps.ite (h12 _ h9)
        (Keeps.ite (Keeps.ite (h12 _ h9)
            h9)
          (by
            extract_lets -underBinder +onlyGivenNames -merge s13
            refine .viaKeeps (x := s13) (Keeps.after (State.onCar_keeps ..) h9 rfl) fun h14 => ?_
            try clear_value s13
            exact Keeps.ite (Keeps.after (State.setOut_keeps ..) (Keeps.after (State.disagree_keeps ..) h14 rfl) rfl)
                (Keeps.after (State.shaftFails_keeps ..) h14 rfl)))

theorem State.motionCheck_keeps (c : Nat) (a : Nat) (s : State) :
    Keeps [.book, .cars, .fab, .purse, .led] s (State.motionCheck c a s) := by
  unfold State.motionCheck
  extract_lets -underBinder +onlyGivenNames -merge a1 a2
  exact Keeps.ite ((.refl _ _))
      (by
        extract_lets -underBinder +onlyGivenNames -merge s3
        refine .viaKeeps (x := s3) (Keeps.after (State.onCar_keeps ..) ((.refl _ _)) rfl) fun h4 => ?_
        try clear_value s3
        exact Keeps.ite (Keeps.after (State.setOut_keeps ..) (Keeps.after (State.disagree_keeps ..) h4 rfl) rfl)
            (Keeps.after (State.shaftFails_keeps ..) h4 rfl))

theorem State.inputChecks_keeps (c : Nat) (s : State) :
    Keeps [.cars, .led] s (State.inputChecks c s) := by
  unfold State.inputChecks
  extract_lets -underBinder +onlyGivenNames -merge a1 a2 a3 a4 a5 a6 a7 s8
  refine .viaKeeps (x := s8) (Keeps.foldl (fun _ _ h9 =>
      by
        extract_lets -underBinder +onlyGivenNames -merge a10 a11
        exact Keeps.ite (Keeps.after (State.onCar_keeps ..) h9 rfl)
            (by
              extract_lets -underBinder +onlyGivenNames -merge a12 s13
              refine .viaKeeps (x := s13) (Keeps.after (State.onCar_keeps ..) h9 rfl) fun h14 => ?_
              try clear_value s13
              exact Keeps.ite (Keeps.after (State.setOut_keeps ..) (Keeps.after (State.disagree_keeps ..) (Keeps.after (State.onCar_keeps ..) h14 rfl) rfl) rfl)
                  h14))
      ((.refl _ _)) _) fun h15 => ?_
  try clear_value s8
  clear_value a1
  split
  · exact Keeps.after (State.onCar_keeps ..) h15 rfl
  · exact h15

theorem State.carZone_keeps (c : Nat) (s : State) :
    Keeps [.cars] s (State.carZone c s) := by
  unfold State.carZone
  extract_lets -underBinder +onlyGivenNames -merge a1 a2 a3 a4
  exact Keeps.after (State.onCar_keeps ..) ((.refl _ _)) rfl

theorem State.latchLoad_keeps (c : Nat) (s : State) :
    Keeps [.cars] s (State.latchLoad c s) := by
  unfold State.latchLoad
  split
  · exact Keeps.after (State.onCar_keeps ..) ((.refl _ _)) rfl
  · exact Keeps.after (State.onCar_keeps ..) ((.refl _ _)) rfl

theorem State.carLoad_keeps (c : Nat) (a : Nat) (s : State) :
    Keeps [.cars, .led] s (State.carLoad c a s) := by
  unfold State.carLoad
  extract_lets -underBinder +onlyGivenNames -merge a1 s2
  refine .viaKeeps (x := s2) (Keeps.ite (Keeps.after (State.latchLoad_keeps ..) ((.refl _ _)) rfl)
      ((.refl _ _))) fun h3 => ?_
  try clear_value s2
  extract_lets -underBinder +onlyGivenNames -merge s4
  refine .viaKeeps (x := s4) (Keeps.after (State.onCar_keeps ..) h3 rfl) fun h5 => ?_
  try clear_value s4
  exact Keeps.ite h5
      (by
        extract_lets -underBinder +onlyGivenNames -merge a6 a7 a8 a9 s10
        refine .viaKeeps (x := s10) (Keeps.after (State.onCar_keeps ..) h5 rfl) fun h11 => ?_
        try clear_value s10
        exact Keeps.ite (Keeps.after (State.raise_keeps ..) h11 rfl)
            h11)

theorem State.issueStop_keeps (c : Nat) (a : Nat) (l : Nat) (vcap : Nat) (s : State) :
    Keeps [.book, .cars] s (State.issueStop c a l vcap s) := by
  unfold State.issueStop
  split
  · exact Keeps.after (State.kernelCmd_keeps ..) (Keeps.after (State.onCar_keeps ..) ((.refl _ _)) rfl) rfl

theorem State.readyAxis_keeps (a : Nat) (since : Nat) (s : State) :
    Keeps1 [.book] s (State.readyAxis a since s) := by
  unfold State.readyAxis
  exact Keeps1.ite (Keeps1.mk ((.refl _ _)))
    (Keeps1.ite (Keeps1.mk (Keeps.after (State.kernelCmd_keeps ..) ((.refl _ _)) rfl))
      (Keeps1.mk ((.refl _ _))))

theorem State.carDepart_keeps (c : Nat) (a : Nat) (l : Nat) (s : State) :
    Keeps [.book, .cars, .fab, .purse, .led] s (State.carDepart c a l s) := by
  unfold State.carDepart
  extract_lets -underBinder +onlyGivenNames -merge s1
  refine .viaKeeps (x := s1) (Keeps.ite (Keeps.after (State.latchLoad_keeps ..) ((.refl _ _)) rfl)
      ((.refl _ _))) fun h2 => ?_
  try clear_value s1
  extract_lets -underBinder +onlyGivenNames -merge s3
  refine .viaKeeps (x := s3) (Keeps.ite (Keeps.after (State.enterTrip_keeps ..) h2 rfl)
      h2) fun h4 => ?_
  try clear_value s3
  extract_lets -underBinder +onlyGivenNames -merge a5
  exact Keeps.after (State.carState_keeps ..) (Keeps.after (State.onCar_keeps ..) (Keeps.after (State.issueStop_keeps ..) h4 rfl) rfl) rfl

theorem State.carWants_keeps (c : Nat) (a : Nat) (l : Nat) (s : State) :
    Keeps [.book, .cars, .doors, .fab, .purse, .led] s (State.carWants c a l s) := by
  unfold State.carWants
  extract_lets -underBinder +onlyGivenNames -merge a1
  exact Keeps.ite (by
        extract_lets -underBinder +onlyGivenNames -merge s2
        refine .viaKeeps (x := s2) (Keeps.foldl (fun _ _ h3 =>
            Keeps.ite (Keeps.after (State.onDoor_keeps ..) h3 rfl)
              h3)
            ((.refl _ _)) _) fun h4 => ?_
        try clear_value s2
        exact Keeps.ite (Keeps.after (State.dropTrip_keeps ..) (Keeps.after (State.onCar_keeps ..) h4 rfl) rfl)
            h4)
      (by
        split
        next heq =>
        refine .ofP1 heq (Keeps.after (State.readyAxis_keeps ..) ((.refl _ _)) rfl) fun h5 => ?_
        exact Keeps.ite (Keeps.after (State.onCar_keeps ..) h5 rfl)
          (by
            split
            · exact Keeps.after (State.carDepart_keeps ..) h5 rfl
            · extract_lets -underBinder +onlyGivenNames -merge a6
              exact Keeps.ite h5
                  (Keeps.ite (by
                      split
                      · exact h5
                      · extract_lets -underBinder +onlyGivenNames -merge a7
                        exact Keeps.after (State.enterTrip_keeps ..) (Keeps.after (State.onCar_keeps ..) h5 rfl) rfl)
                    (Keeps.after (State.carDepart_keeps ..) h5 rfl))))

theorem State.askDoors_keeps (c : Nat) (sides : Nat) (s : State) :
    Keeps [.doors] s (State.askDoors c sides s) := by
  unfold State.askDoors
  exact Keeps.foldl (fun _ _ h1 =>
    Keeps.ite (Keeps.after (State.onDoor_keeps ..) h1 rfl)
      h1)
    ((.refl _ _)) _

theorem State.levelEv_keeps (c : Nat) (l : Nat) (attempt : Nat) (v : Int) (s : State) :
    Keeps [.led] s (State.levelEv c l attempt v s) := by
  unfold State.levelEv
  exact Keeps.after (State.raise_keeps ..) ((.refl _ _)) rfl

theorem State.issueRelevel_keeps (c : Nat) (a : Nat) (l : Nat) (s : State) :
    Keeps [.book, .cars, .led] s (State.issueRelevel c a l s) := by
  unfold State.issueRelevel
  extract_lets -underBinder +onlyGivenNames -merge a1 a2 s3
  refine .viaKeeps (x := s3) (Keeps.after (State.onCar_keeps ..) ((.refl _ _)) rfl) fun h4 => ?_
  try clear_value s3
  exact Keeps.after (State.kernelCmd_keeps ..) (Keeps.after (State.levelEv_keeps ..) h4 rfl) rfl

theorem State.latchRest_keeps (c : Nat) (s : State) :
    Keeps [.cars] s (State.latchRest c s) := by
  unfold State.latchRest
  extract_lets -underBinder +onlyGivenNames -merge a1 a2
  exact Keeps.after (State.onCar_keeps ..) ((.refl _ _)) rfl

theorem State.carArrive_keeps (c : Nat) (l : Nat) (s : State) :
    Keeps [.cars, .doors, .led] s (State.carArrive c l s) := by
  unfold State.carArrive
  extract_lets -underBinder +onlyGivenNames -merge a1 a2 s3
  refine .viaKeeps (x := s3) (Keeps.after (State.onCar_keeps ..) (Keeps.after (State.latchRest_keeps ..) ((.refl _ _)) rfl) rfl) fun h4 => ?_
  try clear_value s3
  exact Keeps.after (State.askDoors_keeps ..) (Keeps.after (State.carState_keeps ..) h4 rfl) rfl

theorem State.carRests_keeps (c : Nat) (s : State) :
    Keeps [.cars, .fab, .purse, .led] s (State.carRests c s) := by
  unfold State.carRests
  extract_lets -underBinder +onlyGivenNames -merge s1
  refine .viaKeeps (x := s1) (Keeps.after (State.dropTrip_keeps ..) (Keeps.after (State.onCar_keeps ..) ((.refl _ _)) rfl) rfl) fun h2 => ?_
  try clear_value s1
  split
  · exact Keeps.ite (Keeps.after (State.carState_keeps ..) (Keeps.after (State.onCar_keeps ..) (Keeps.after (State.latchRest_keeps ..) h2 rfl) rfl) rfl)
      (Keeps.after (State.carState_keeps ..) h2 rfl)
  · exact Keeps.after (State.carState_keeps ..) h2 rfl

theorem State.stopEnds_keeps (c : Nat) (a : Nat) (l : Nat) (s : State) :
    Keeps [.book, .cars, .doors, .fab, .purse, .led] s (State.stopEnds c a l s) := by
  unfold State.stopEnds
  extract_lets -underBinder +onlyGivenNames -merge a1 a2
  exact Keeps.ite (by
        extract_lets -underBinder +onlyGivenNames -merge s3
        refine .viaKeeps (x := s3) (Keeps.after (State.onCar_keeps ..) ((.refl _ _)) rfl) fun h4 => ?_
        try clear_value s3
        exact Keeps.ite (Keeps.after (State.carArrive_keeps ..) h4 rfl)
            (Keeps.after (State.carState_keeps ..) (Keeps.after (State.issueRelevel_keeps ..) (Keeps.after (State.onCar_keeps ..) h4 rfl) rfl) rfl))
      (by
        extract_lets -underBinder +onlyGivenNames -merge s5
        refine .viaKeeps (x := s5) (Keeps.after (State.raise_keeps ..) (Keeps.after (State.onCar_keeps ..) ((.refl _ _)) rfl) rfl) fun h6 => ?_
        try clear_value s5
        exact Keeps.ite (Keeps.after (State.issueStop_keeps ..) h6 rfl)
            (Keeps.after (State.carState_keeps ..) (Keeps.after (State.setOut_keeps ..) (Keeps.after (State.dropTrip_keeps ..) (Keeps.after (State.onCar_keeps ..) h6 rfl) rfl) rfl) rfl))

theorem State.carRunning_keeps (c : Nat) (a : Nat) (s : State) :
    Keeps [.book, .cars, .doors, .fab, .purse, .led] s (State.carRunning c a s) := by
  unfold State.carRunning
  extract_lets -underBinder +onlyGivenNames -merge a1 a2 a3 a4
  exact Keeps.ite (Keeps.after (State.issueStop_keeps ..) (Keeps.after (State.enterTrip_keeps ..) (Keeps.after (State.dropTrip_keeps ..) ((.refl _ _)) rfl) rfl) rfl)
      (Keeps.ite ((.refl _ _))
        (Keeps.ite (Keeps.after (State.stopEnds_keeps ..) ((.refl _ _)) rfl)
          (by
            extract_lets -underBinder +onlyGivenNames -merge a5 a6
            exact Keeps.ite (Keeps.after (State.onCar_keeps ..) (Keeps.after (State.issueStop_keeps ..) ((.refl _ _)) rfl) rfl)
                ((.refl _ _)))))

theorem State.carRelevelling_keeps (c : Nat) (a : Nat) (s : State) :
    Keeps [.book, .cars, .doors, .fab, .purse, .led] s (State.carRelevelling c a s) := by
  unfold State.carRelevelling
  extract_lets -underBinder +onlyGivenNames -merge a1 a2
  exact Keeps.ite ((.refl _ _))
      (by
        extract_lets -underBinder +onlyGivenNames -merge a3
        exact Keeps.ite (Keeps.after (State.carArrive_keeps ..) ((.refl _ _)) rfl)
            (by
              extract_lets -underBinder +onlyGivenNames -merge a4 s5
              refine .viaKeeps (x := s5) (Keeps.after (State.onCar_keeps ..) ((.refl _ _)) rfl) fun h6 => ?_
              try clear_value s5
              exact Keeps.ite (Keeps.after (State.carRests_keeps ..) (Keeps.after (State.setOut_keeps ..) h6 rfl) rfl)
                  (Keeps.ite (Keeps.after (State.issueRelevel_keeps ..) h6 rfl)
                    (Keeps.after (State.onCar_keeps ..) h6 rfl))))

theorem State.startCorrection_keeps (c : Nat) (a : Nat) (s : State) :
    Keeps [.book, .cars, .led] s (State.startCorrection c a s) := by
  unfold State.startCorrection
  extract_lets -underBinder +onlyGivenNames -merge a1 a2
  exact Keeps.ite ((.refl _ _))
      (by
        split
        next heq =>
        refine .ofP1 heq (Keeps.after (State.readyAxis_keeps ..) ((.refl _ _)) rfl) fun h3 => ?_
        exact Keeps.ite h3
          (by
            extract_lets -underBinder +onlyGivenNames -merge a4
            exact Keeps.after (State.carState_keeps ..) (Keeps.after (State.issueStop_keeps ..) (Keeps.after (State.onCar_keeps ..) h3 rfl) rfl) rfl))

theorem State.carCorrecting_keeps (c : Nat) (a : Nat) (s : State) :
    Keeps [.cars, .led] s (State.carCorrecting c a s) := by
  unfold State.carCorrecting
  extract_lets -underBinder +onlyGivenNames -merge a1
  exact Keeps.ite ((.refl _ _))
      (by
        extract_lets -underBinder +onlyGivenNames -merge s2
        refine .viaKeeps (x := s2) (Keeps.after (State.raise_keeps ..) ((.refl _ _)) rfl) fun h3 => ?_
        try clear_value s2
        extract_lets -underBinder +onlyGivenNames -merge s4
        refine .viaKeeps (x := s4) (Keeps.ite h3
            (Keeps.after (State.onCar_keeps ..) h3 rfl)) fun h5 => ?_
        try clear_value s4
        exact Keeps.after (State.carState_keeps ..) (Keeps.after (State.onCar_keeps ..) (Keeps.after (State.latchRest_keeps ..) h5 rfl) rfl) rfl)

theorem State.levelWatch_keeps (c : Nat) (s : State) :
    Keeps [.cars, .safe] s (State.levelWatch c s) := by
  unfold State.levelWatch
  extract_lets -underBinder +onlyGivenNames -merge a1 a2 a3 a4 a5 s6
  refine .viaKeeps (x := s6) (Keeps.after (State.onCar_keeps ..) ((.refl _ _)) rfl) fun h7 => ?_
  try clear_value s6
  exact Keeps.after (Keeps.safe ..) h7 rfl

theorem State.carAtRest_keeps (c : Nat) (a : Nat) (s : State) :
    Keeps [.book, .cars, .doors, .fab, .purse, .led] s (State.carAtRest c a s) := by
  unfold State.carAtRest
  extract_lets -underBinder +onlyGivenNames -merge a1 a2
  split
  · exact Keeps.ite (Keeps.after (State.askDoors_keeps ..) (Keeps.after (State.onCar_keeps ..) ((.refl _ _)) rfl) rfl)
      (Keeps.ite (Keeps.after (State.carWants_keeps ..) ((.refl _ _)) rfl)
        (Keeps.ite ((.refl _ _))
          (Keeps.after (State.startCorrection_keeps ..) ((.refl _ _)) rfl)))
  · exact Keeps.ite ((.refl _ _))
      (Keeps.after (State.startCorrection_keeps ..) ((.refl _ _)) rfl)

theorem State.carFaults_keeps (c : Nat) (a : Nat) (s : State) :
    Keeps [.cars, .doors, .fab, .purse, .led] s (State.carFaults c a s) := by
  unfold State.carFaults
  extract_lets -underBinder +onlyGivenNames -merge a1 s2
  refine .viaKeeps (x := s2) (Keeps.ite (Keeps.after (State.raise_keeps ..) (Keeps.after (State.onCar_keeps ..) (Keeps.after (State.setOut_keeps ..) ((.refl _ _)) rfl) rfl) rfl)
      ((.refl _ _))) fun h3 => ?_
  try clear_value s2
  extract_lets -underBinder +onlyGivenNames -merge s4
  refine .viaKeeps (x := s4) (Keeps.after (State.onCar_keeps ..) h3 rfl) fun h5 => ?_
  try clear_value s4
  exact Keeps.ite h5
      (by
        extract_lets -underBinder +onlyGivenNames -merge s6
        refine .viaKeeps (x := s6) (Keeps.ite (Keeps.after (State.carRests_keeps ..) h5 rfl)
            h5) fun h7 => ?_
        try clear_value s6
        extract_lets -underBinder +onlyGivenNames -merge a8 a9
        exact Keeps.ite (Keeps.after (State.askDoors_keeps ..) (Keeps.after (State.onCar_keeps ..) h7 rfl) rfl)
            h7)

theorem State.carKernel_keeps (c : Nat) (s : State) :
    Keeps [.book, .cars, .doors, .safe, .fab, .purse, .led] s (State.carKernel c s) := by
  unfold State.carKernel
  split
  · exact (.refl _ _)
  · extract_lets -underBinder +onlyGivenNames -merge s1
    refine .viaKeeps (x := s1) (Keeps.after (State.carMeasure_keeps ..) ((.refl _ _)) rfl) fun h2 => ?_
    try clear_value s1
    extract_lets -underBinder +onlyGivenNames -merge s3
    refine .viaKeeps (x := s3) (Keeps.foldl (fun _ _ h4 =>
        Keeps.ite (Keeps.after (State.markerEdge_keeps ..) h4 rfl)
          h4)
        h2 _) fun h5 => ?_
    try clear_value s3
    extract_lets -underBinder +onlyGivenNames -merge s6
    refine .viaKeeps (x := s6) (Keeps.after (State.carZone_keeps ..) (Keeps.after (State.inputChecks_keeps ..) (Keeps.after (State.motionCheck_keeps ..) h5 rfl) rfl) rfl) fun h7 => ?_
    try clear_value s6
    extract_lets -underBinder +onlyGivenNames -merge s8
    refine .viaKeeps (x := s8) (Keeps.after (State.carLoad_keeps ..) h7 rfl) fun h9 => ?_
    try clear_value s8
    extract_lets -underBinder +onlyGivenNames -merge s10
    refine .viaKeeps (x := s10) (Keeps.ite (Keeps.after (State.setOut_keeps ..) h9 rfl)
        h9) fun h11 => ?_
    try clear_value s10
    extract_lets -underBinder +onlyGivenNames -merge s12
    refine .viaKeeps (x := s12) (Keeps.ite (Keeps.after (State.onCar_keeps ..) (Keeps.after (State.setOut_keeps ..) h11 rfl) rfl)
        h11) fun h13 => ?_
    try clear_value s12
    extract_lets -underBinder +onlyGivenNames -merge s14
    refine .viaKeeps (x := s14) (Keeps.ite h13
        (Keeps.after (State.carState_keeps ..) (Keeps.after (State.dropTrip_keeps ..) (Keeps.after (State.onCar_keeps ..) h13 rfl) rfl) rfl)) fun h15 => ?_
    try clear_value s14
    extract_lets -underBinder +onlyGivenNames -merge s16
    refine .viaKeeps (x := s16) (Keeps.after (State.carFaults_keeps ..) h15 rfl) fun h17 => ?_
    try clear_value s16
    extract_lets -underBinder +onlyGivenNames -merge a18 s19
    refine .viaKeeps (x := s19) (Keeps.ite (Keeps.after (State.carRests_keeps ..) h17 rfl)
        h17) fun h20 => ?_
    try clear_value s19
    extract_lets -underBinder +onlyGivenNames -merge s21
    refine .viaKeeps (x := s21) (Keeps.after (State.levelWatch_keeps ..) h20 rfl) fun h22 => ?_
    try clear_value s21
    exact Keeps.ite h22
        (Keeps.ite h22
          (by
            split
            · exact Keeps.after (State.carAtRest_keeps ..) h22 rfl
            · exact Keeps.ite (Keeps.after (State.carState_keeps ..) (Keeps.after (State.dropTrip_keeps ..) (Keeps.after (State.onCar_keeps ..) h22 rfl) rfl) rfl)
                (Keeps.after (State.carRunning_keeps ..) h22 rfl)
            · exact Keeps.after (State.carRelevelling_keeps ..) h22 rfl
            · exact Keeps.after (State.carCorrecting_keeps ..) h22 rfl
            · exact Keeps.after (State.carAtRest_keeps ..) h22 rfl
            · exact Keeps.ite (Keeps.after (State.startCorrection_keeps ..) h22 rfl)
                h22))

theorem execDoorZoneDiscrepancy_keeps (t : Nat) (car : Nat) (s : State) :
    Runs [.cars, .led] s (execDoorZoneDiscrepancy t car s) := by
  unfold execDoorZoneDiscrepancy
  extract_lets -underBinder +onlyGivenNames -merge s1
  refine .viaKeeps (x := s1) (Keeps.after (State.tick_keeps ..) ((.refl _ _)) rfl) fun h2 => ?_
  try clear_value s1
  exact Runs.ite (Runs.next h2)
      (by
        extract_lets -underBinder +onlyGivenNames -merge a3
        split
        · exact Runs.ite (Runs.next (Keeps.after (State.raise_keeps ..) (Keeps.after (State.onCar_keeps ..) h2 rfl) rfl))
            (Runs.next h2)
        · exact Runs.next h2)

theorem execRelevel_keeps (t : Nat) (car : Nat) (s : State) :
    Runs [.book, .cars, .led] s (execRelevel t car s) := by
  unfold execRelevel
  extract_lets -underBinder +onlyGivenNames -merge s1
  refine .viaKeeps (x := s1) (Keeps.after (State.tick_keeps ..) ((.refl _ _)) rfl) fun h2 => ?_
  try clear_value s1
  exact Runs.ite (Runs.next h2)
      (by
        extract_lets -underBinder +onlyGivenNames -merge a3
        split
        · exact Runs.ite (by
              split
              next heq =>
              refine .ofP1 heq (Keeps.after (State.readyAxis_keeps ..) h2 rfl) fun h4 => ?_
              exact Runs.ite (Runs.next (Keeps.after (State.carState_keeps ..) (Keeps.after (State.issueRelevel_keeps ..) (Keeps.after (State.onCar_keeps ..) h4 rfl) rfl) rfl))
                (Runs.next (Keeps.after (State.onCar_keeps ..) h4 rfl)))
            (Runs.next h2)
        · exact Runs.next h2)

theorem execPairedDeparture_keeps (t : Nat) (car : Nat) (s : State) :
    Runs [.book, .cars, .fab, .purse, .led] s (execPairedDeparture t car s) := by
  unfold execPairedDeparture
  extract_lets -underBinder +onlyGivenNames -merge s1
  refine .viaKeeps (x := s1) (Keeps.after (State.tick_keeps ..) ((.refl _ _)) rfl) fun h2 => ?_
  try clear_value s1
  extract_lets -underBinder +onlyGivenNames -merge a3
  split
  · exact Runs.ite (by
        extract_lets -underBinder +onlyGivenNames -merge s4
        refine .viaKeeps (x := s4) (by
            dsimp -zeta only [s4]
            split
            · exact Keeps.after (State.onBus_keeps ..) h2 rfl
            · exact h2) fun h5 => ?_
        try clear_value s4
        exact Runs.next (Keeps.after (State.carDepart_keeps ..) h5 rfl))
      (Runs.next h2)
  · exact Runs.next h2

end Sys2Proof.Machine
end

