-- ==== Sys2Proof/Laws/Journal.lean ====
section
/-! SUPPORT. The laws of the operations of Machine/Journal.lean: which fields of the state each may change. -/

namespace Sys2Proof.Machine

theorem State.eraseSectors_keeps (first : Nat) (n : Nat) (s : State) :
    Keeps [.led, .stw] s (State.eraseSectors first n s) := by
  unfold State.eraseSectors
  exact Keeps.foldl (fun _ _ h1 =>
    by
      extract_lets -underBinder +onlyGivenNames -merge r2 s3
      refine .viaKeeps (x := s3) (Keeps.after (Keeps.stw ..) h1 rfl) fun h4 => ?_
      try clear_value s3
      extract_lets -underBinder +onlyGivenNames -merge a5
      exact Keeps.ite (Keeps.after (State.raise_keeps ..) h4 rfl)
          h4)
    ((.refl _ _)) _

theorem State.journalAppend_keeps (type : Nat) (learn : Nat) (signer : Nat) (objSeq : Nat) (cells : List Cell) (s : State) :
    Keeps1 [.stw] s (State.journalAppend type learn signer objSeq cells s) := by
  unfold State.journalAppend
  extract_lets -underBinder +onlyGivenNames -merge a1
  exact Keeps1.ite (Keeps1.mk ((.refl _ _)))
      (Keeps1.ite (Keeps1.mk ((.refl _ _)))
        (by
          extract_lets -underBinder +onlyGivenNames -merge a2
          exact Keeps1.ite (Keeps1.mk (Keeps.after (Keeps.stw ..) ((.refl _ _)) rfl))
              (by
                extract_lets -underBinder +onlyGivenNames -merge a3
                exact Keeps1.mk (Keeps.after (Keeps.stw ..) ((.refl _ _)) rfl))))

theorem State.journalCompact_keeps (s : State) :
    Keeps [.led, .stw] s (State.journalCompact s) := by
  unfold State.journalCompact
  extract_lets -underBinder +onlyGivenNames -merge s1
  refine .viaKeeps (x := s1) (Keeps.after (State.eraseSectors_keeps ..) ((.refl _ _)) rfl) fun h2 => ?_
  try clear_value s1
  extract_lets -underBinder +onlyGivenNames -merge r3 a4 a5 a6 a7 a8 a9
  exact Keeps.ite (Keeps.after (Keeps.stw ..) h2 rfl)
      (Keeps.after (Keeps.stw ..) h2 rfl)

theorem execJournalCompactionDone_keeps (t : Nat) (s : State) :
    Runs [.led, .stw] s (execJournalCompactionDone t s) := by
  unfold execJournalCompactionDone
  extract_lets -underBinder +onlyGivenNames -merge s1
  refine .viaKeeps (x := s1) (Keeps.after (State.tick_keeps ..) ((.refl _ _)) rfl) fun h2 => ?_
  try clear_value s1
  exact Runs.ite (Runs.next (Keeps.after (State.journalCompact_keeps ..) h2 rfl))
      (Runs.next h2)

end Sys2Proof.Machine
end

