-- ==== Sys2Proof/Laws/Groups.lean ====
section
/-! SUPPORT. The laws of the operations of Machine/Groups.lean: which fields of the state each may change. -/

namespace Sys2Proof.Machine

theorem State.rejectPath_keeps (g : Nat) (o : PathOffer) (reason : Nat) (s : State) :
    Keeps [.replies, .led] s (State.rejectPath g o reason s) := by
  unfold State.rejectPath
  exact Keeps.after (State.reply_keeps ..) (Keeps.after (State.raise_keeps ..) ((.refl _ _)) rfl) rfl

theorem State.acceptPath_keeps (g : Nat) (o : PathOffer) (s : State) :
    Keeps [.replies, .twin] s (State.acceptPath g o s) := by
  unfold State.acceptPath
  exact Keeps.after (State.reply_keeps ..) (Keeps.after (State.forward_keeps ..) ((.refl _ _)) rfl) rfl

theorem State.queueSeg_keeps (g : Nat) (q : Seg) (s : State) :
    Keeps [.pg, .led] s (State.queueSeg g q s) := by
  unfold State.queueSeg
  split
  · extract_lets -underBinder +onlyGivenNames -merge a1 s2
    refine .viaKeeps (x := s2) (Keeps.after (State.onPg_keeps ..) ((.refl _ _)) rfl) fun h3 => ?_
    try clear_value s2
    exact Keeps.ite (Keeps.after (State.raise_keeps ..) h3 rfl)
        h3

theorem State.takeSeg_keeps (g : Nat) (o : PathOffer) (s : State) :
    Keeps [.pg, .replies, .twin, .led] s (State.takeSeg g o s) := by
  unfold State.takeSeg
  extract_lets -underBinder +onlyGivenNames -merge a1
  exact Keeps.ite (Keeps.after (State.rejectPath_keeps ..) ((.refl _ _)) rfl)
      (Keeps.ite (Keeps.after (State.rejectPath_keeps ..) ((.refl _ _)) rfl)
        (by
          extract_lets -underBinder +onlyGivenNames -merge a2 a3 a4
          exact Keeps.ite (Keeps.after (State.rejectPath_keeps ..) ((.refl _ _)) rfl)
              (by
                extract_lets -underBinder +onlyGivenNames -merge s5
                refine .viaKeeps (x := s5) (Keeps.after (State.queueSeg_keeps ..) ((.refl _ _)) rfl) fun h6 => ?_
                try clear_value s5
                exact Keeps.after (State.acceptPath_keeps ..) (Keeps.after (State.onPg_keeps ..) h6 rfl) rfl)))

theorem State.takeStart_keeps (g : Nat) (o : PathOffer) (s : State) :
    Keeps [.ax, .book, .pg, .gc, .replies, .twin, .led] s (State.takeStart g o s) := by
  unfold State.takeStart
  extract_lets -underBinder +onlyGivenNames -merge a1 a2
  exact Keeps.ite (Keeps.after (State.rejectPath_keeps ..) ((.refl _ _)) rfl)
      (by
        split
        · exact Keeps.after (State.rejectPath_keeps ..) ((.refl _ _)) rfl
        · extract_lets -underBinder +onlyGivenNames -merge a3
          exact Keeps.ite (Keeps.after (State.rejectPath_keeps ..) ((.refl _ _)) rfl)
              (Keeps.ite (Keeps.after (State.rejectPath_keeps ..) ((.refl _ _)) rfl)
                (by
                  extract_lets -underBinder +onlyGivenNames -merge a4 a5
                  split
                  · exact Keeps.after (State.rejectPath_keeps ..) (Keeps.after (State.refuse_keeps ..) ((.refl _ _)) rfl) rfl
                  · extract_lets -underBinder +onlyGivenNames -merge s6
                    refine .viaKeeps (x := s6) (Keeps.foldl (fun _ _ h7 =>
                        by
                          split
                          · extract_lets -underBinder +onlyGivenNames -merge a8 s9
                            refine .viaKeeps (x := s9) (by
                                dsimp -zeta only [s9]
                                clear_value a8
                                split
                                · exact Keeps.after (State.setGc_keeps ..) h7 rfl
                                · exact h7) fun h10 => ?_
                            try clear_value s9
                            exact Keeps.after (State.raise_keeps ..) (Keeps.after (State.onAx_keeps ..) h10 rfl) rfl
                          · exact h7)
                        ((.refl _ _)) _) fun h11 => ?_
                    try clear_value s6
                    exact Keeps.after (State.acceptPath_keeps ..) (Keeps.after (State.onPg_keeps ..) h11 rfl) rfl)))

theorem State.takePathStop_keeps (g : Nat) (o : PathOffer) (s : State) :
    Keeps [.pg, .replies, .twin, .led] s (State.takePathStop g o s) := by
  unfold State.takePathStop
  exact Keeps.ite (Keeps.after (State.acceptPath_keeps ..) (Keeps.after (State.groupStop_keeps ..) ((.refl _ _)) rfl) rfl)
    (Keeps.after (State.rejectPath_keeps ..) ((.refl _ _)) rfl)

theorem State.takePathResume_keeps (g : Nat) (o : PathOffer) (s : State) :
    Keeps [.pg, .replies, .twin, .led] s (State.takePathResume g o s) := by
  unfold State.takePathResume
  exact Keeps.ite (Keeps.after (State.rejectPath_keeps ..) ((.refl _ _)) rfl)
    (Keeps.after (State.acceptPath_keeps ..) (Keeps.after (State.onPg_keeps ..) ((.refl _ _)) rfl) rfl)

theorem State.takeClear_keeps (g : Nat) (o : PathOffer) (s : State) :
    Keeps [.ax, .pg, .gc, .replies, .twin, .led] s (State.takeClear g o s) := by
  unfold State.takeClear
  exact Keeps.ite (Keeps.after (State.rejectPath_keeps ..) ((.refl _ _)) rfl)
    (by
      extract_lets -underBinder +onlyGivenNames -merge s1
      refine .viaKeeps (x := s1) (Keeps.foldl (fun _ _ h2 =>
          Keeps.ite (Keeps.after (State.enterHeld__keeps ..) h2 rfl)
            h2)
          ((.refl _ _)) _) fun h3 => ?_
      try clear_value s1
      exact Keeps.after (State.acceptPath_keeps ..) (Keeps.after (State.onPg_keeps ..) h3 rfl) rfl)

theorem State.takePath_keeps (g : Nat) (o : PathOffer) (s : State) :
    Keeps [.ax, .book, .pg, .gc, .replies, .twin, .led] s (State.takePath g o s) := by
  unfold State.takePath
  exact Keeps.ite (Keeps.after (State.rejectPath_keeps ..) ((.refl _ _)) rfl)
    (by
      split
      · exact Keeps.after (State.takeStart_keeps ..) ((.refl _ _)) rfl
      · exact Keeps.after (State.takeSeg_keeps ..) ((.refl _ _)) rfl
      · exact Keeps.after (State.takeSeg_keeps ..) ((.refl _ _)) rfl
      · exact Keeps.after (State.takePathStop_keeps ..) ((.refl _ _)) rfl
      · exact Keeps.after (State.takePathResume_keeps ..) ((.refl _ _)) rfl
      · exact Keeps.after (State.takeClear_keeps ..) ((.refl _ _)) rfl
      · exact Keeps.after (State.rejectPath_keeps ..) ((.refl _ _)) rfl)

theorem State.decidePath_keeps (g : Nat) (o : PathOffer) (s : State) :
    Keeps [.ax, .book, .pg, .gc, .replies, .twin, .led] s (State.decidePath g o s) := by
  unfold State.decidePath
  extract_lets -underBinder +onlyGivenNames -merge a1
  exact Keeps.ite (Keeps.after (State.rejectPath_keeps ..) ((.refl _ _)) rfl)
      (Keeps.after (State.takePath_keeps ..) ((.refl _ _)) rfl)

theorem State.decideGroup_keeps (g : Nat) (s : State) :
    Keeps [.ax, .book, .pg, .pgBook, .gc, .replies, .twin, .led] s (State.decideGroup g s) := by
  unfold State.decideGroup
  extract_lets -underBinder +onlyGivenNames -merge a1 s2
  refine .viaKeeps (x := s2) (Keeps.after (State.onPgBook_keeps ..) ((.refl _ _)) rfl) fun h3 => ?_
  try clear_value s2
  exact Keeps.foldl (fun _ _ h5 =>
      Keeps.after (State.rejectPath_keeps ..) h5 rfl)
      (Keeps.foldl (fun _ _ h4 =>
        Keeps.after (State.decidePath_keeps ..) h4 rfl)
        h3 _) _

theorem State.keepPath_keeps (g : Nat) (o : PathOffer) (s : State) :
    Keeps [.pgBook] s (State.keepPath g o s) := by
  unfold State.keepPath
  exact Keeps.after (State.onPgBook_keeps ..) ((.refl _ _)) rfl

theorem State.offerPath_keeps (g : Nat) (o : Origin) (c : PathCmd) (s : State) :
    Keeps [.ax, .book, .pg, .pgBook, .gc, .replies, .twin, .led] s (State.offerPath g o c s) := by
  unfold State.offerPath
  exact Keeps.ite ((.refl _ _))
    (Keeps.ite (Keeps.after (State.decidePath_keeps ..) ((.refl _ _)) rfl)
      (Keeps.after (State.keepPath_keeps ..) ((.refl _ _)) rfl))

theorem State.groupCommand_keeps (g : Nat) (o : Origin) (c : PathCmd) (s : State) :
    Keeps [.ax, .book, .pg, .pgBook, .gc, .home, .pre, .replies, .twin, .led] s (State.groupCommand g o c s) := by
  unfold State.groupCommand
  exact Keeps.ite ((.refl _ _))
    (Keeps.ite (Keeps.after (State.decidePath_keeps ..) ((.refl _ _)) rfl)
      (Keeps.ite (Keeps.after (State.keepPath_keeps ..) ((.refl _ _)) rfl)
        (Keeps.after (State.show_keeps ..) (Keeps.after (State.keepPath_keeps ..) (Keeps.after (State.unshow_keeps ..) ((.refl _ _)) rfl) rfl) rfl)))

theorem State.groupKernel_keeps (g : Nat) (s : State) :
    Keeps [.ax, .book, .pg, .pgBook, .gc, .replies, .twin, .led] s (State.groupKernel g s) := by
  unfold State.groupKernel
  extract_lets -underBinder +onlyGivenNames -merge s1
  refine .viaKeeps (x := s1) (Keeps.after (State.decideGroup_keeps ..) ((.refl _ _)) rfl) fun h2 => ?_
  try clear_value s1
  extract_lets -underBinder +onlyGivenNames -merge a3
  exact Keeps.ite (Keeps.after (State.onPg_keeps ..) h2 rfl)
      h2

theorem State.pathBreak_keeps (a : Nat) (cause : Nat) (s : State) :
    Keeps [.ax, .pg, .led] s (State.pathBreak a cause s) := by
  unfold State.pathBreak
  split
  · exact (.refl _ _)
  · extract_lets -underBinder +onlyGivenNames -merge a1
    exact Keeps.ite ((.refl _ _))
        (by
          extract_lets -underBinder +onlyGivenNames -merge s2
          refine .viaKeeps (x := s2) (Keeps.after (State.onPg_keeps ..) ((.refl _ _)) rfl) fun h3 => ?_
          try clear_value s2
          extract_lets -underBinder +onlyGivenNames -merge s4
          refine .viaKeeps (x := s4) (Keeps.after (State.raise_keeps ..) h3 rfl) fun h5 => ?_
          try clear_value s4
          exact Keeps.foldl (fun _ _ h6 =>
              Keeps.ite (Keeps.after (State.onAx_keeps ..) h6 rfl)
                h6)
              h5 _)

theorem State.groupRow_keeps (g : Nat) (src : Nat) (c : PathCmd) (s : State) :
    Runs [.ax, .book, .pg, .pgBook, .gc, .home, .pre, .replies, .twin, .led] s (State.groupRow g src c s) := by
  unfold State.groupRow
  exact Runs.next (Keeps.after (State.groupCommand_keeps ..) ((.refl _ _)) rfl)

theorem execStart_keeps (group : Nat) (src : Nat) (tag : Nat) (s : State) :
    Runs [.ax, .book, .pg, .pgBook, .gc, .home, .pre, .replies, .twin, .led] s (execStart group src tag s) := by
  unfold execStart
  exact Runs.after (State.groupRow_keeps ..) ((.refl _ _)) rfl

theorem execLine_keeps (group : Nat) (src : Nat) (seg : PathCmd) (s : State) :
    Runs [.ax, .book, .pg, .pgBook, .gc, .home, .pre, .replies, .twin, .led] s (execLine group src seg s) := by
  unfold execLine
  exact Runs.after (State.groupRow_keeps ..) ((.refl _ _)) rfl

theorem execArc_keeps (group : Nat) (src : Nat) (seg : PathCmd) (s : State) :
    Runs [.ax, .book, .pg, .pgBook, .gc, .home, .pre, .replies, .twin, .led] s (execArc group src seg s) := by
  unfold execArc
  exact Runs.after (State.groupRow_keeps ..) ((.refl _ _)) rfl

theorem execPathStop_keeps (group : Nat) (src : Nat) (tag : Nat) (s : State) :
    Runs [.ax, .book, .pg, .pgBook, .gc, .home, .pre, .replies, .twin, .led] s (execPathStop group src tag s) := by
  unfold execPathStop
  exact Runs.after (State.groupRow_keeps ..) ((.refl _ _)) rfl

theorem execPathResume_keeps (group : Nat) (src : Nat) (tag : Nat) (s : State) :
    Runs [.ax, .book, .pg, .pgBook, .gc, .home, .pre, .replies, .twin, .led] s (execPathResume group src tag s) := by
  unfold execPathResume
  exact Runs.after (State.groupRow_keeps ..) ((.refl _ _)) rfl

theorem execClear_keeps (group : Nat) (src : Nat) (tag : Nat) (s : State) :
    Runs [.ax, .book, .pg, .pgBook, .gc, .home, .pre, .replies, .twin, .led] s (execClear group src tag s) := by
  unfold execClear
  exact Runs.after (State.groupRow_keeps ..) ((.refl _ _)) rfl

theorem execDinFilterStable_keeps (t : Nat) (din : Nat) (s : State) :
    Runs [.din] s (execDinFilterStable t din s) := by
  unfold execDinFilterStable
  extract_lets -underBinder +onlyGivenNames -merge s1
  refine .viaKeeps (x := s1) (Keeps.after (State.tick_keeps ..) ((.refl _ _)) rfl) fun h2 => ?_
  try clear_value s1
  extract_lets -underBinder +onlyGivenNames -merge a3
  exact Runs.ite (Runs.next (Keeps.after (State.dinChange_keeps ..) h2 rfl))
      (Runs.next h2)

theorem execChatterEnd_keeps (t : Nat) (din : Nat) (s : State) :
    Runs [.din] s (execChatterEnd t din s) := by
  unfold execChatterEnd
  extract_lets -underBinder +onlyGivenNames -merge s1
  refine .viaKeeps (x := s1) (Keeps.after (State.tick_keeps ..) ((.refl _ _)) rfl) fun h2 => ?_
  try clear_value s1
  extract_lets -underBinder +onlyGivenNames -merge a3
  exact Runs.ite (by
        extract_lets -underBinder +onlyGivenNames -merge s4
        refine .viaKeeps (x := s4) (Keeps.after (State.onDin_keeps ..) h2 rfl) fun h5 => ?_
        try clear_value s4
        exact Runs.ite (Runs.next h5)
            (Runs.ite (Runs.next (Keeps.after (State.onDin_keeps ..) h5 rfl))
              (Runs.ite (Runs.next (Keeps.after (State.dinChange_keeps ..) h5 rfl))
                (Runs.next h5))))
      (Runs.next h2)

end Sys2Proof.Machine
end

