-- ==== Sys2Proof/Laws/Fabric.lean ====
section
/-! SUPPORT. The laws of the operations of Machine/Fabric.lean: which fields of the state each may change. -/

namespace Sys2Proof.Machine

theorem State.addOut_keeps (n : Nat) (s : State) :
    Keeps [.disp] s (State.addOut n s) := by
  unfold State.addOut
  exact Keeps.after (Keeps.disp ..) ((.refl _ _)) rfl

theorem State.subOut_keeps (n : Nat) (s : State) :
    Keeps [.disp] s (State.subOut n s) := by
  unfold State.subOut
  exact Keeps.after (Keeps.disp ..) ((.refl _ _)) rfl

theorem State.portSettle_keeps (p : Nat) (s : State) :
    Keeps [.disp, .fab, .led] s (State.portSettle p s) := by
  unfold State.portSettle
  extract_lets -underBinder +onlyGivenNames -merge a1 a2
  exact Keeps.ite ((.refl _ _))
      (by
        extract_lets -underBinder +onlyGivenNames -merge a3 a4 s5
        refine .viaKeeps (x := s5) (Keeps.after (State.onPort_keeps ..) ((.refl _ _)) rfl) fun h6 => ?_
        try clear_value s5
        extract_lets -underBinder +onlyGivenNames -merge r7 s8
        refine .viaKeeps (x := s8) (Keeps.after (Keeps.fab ..) h6 rfl) fun h9 => ?_
        try clear_value s8
        extract_lets -underBinder +onlyGivenNames -merge s10
        refine .viaKeeps (x := s10) (Keeps.ite (Keeps.after (State.dropQueue_keeps ..) h9 rfl)
            h9) fun h11 => ?_
        try clear_value s10
        exact Keeps.after (State.raise_keeps ..) h11 rfl)

theorem State.losePeers_keeps (p : Nat) (which : Peer → Bool) (s : State) :
    Keeps [.disp, .fab, .led] s (State.losePeers p which s) := by
  unfold State.losePeers
  extract_lets -underBinder +onlyGivenNames -merge a1 s2
  refine .viaKeeps (x := s2) (Keeps.foldl (fun _ _ h3 =>
      Keeps.after (State.subOut_keeps ..) h3 rfl)
      ((.refl _ _)) _) fun h4 => ?_
  try clear_value s2
  extract_lets -underBinder +onlyGivenNames -merge a5 s6
  refine .viaKeeps (x := s6) (Keeps.after (State.onPort_keeps ..) h4 rfl) fun h7 => ?_
  try clear_value s6
  extract_lets -underBinder +onlyGivenNames -merge s8
  refine .viaKeeps (x := s8) (Keeps.after (State.dropQueue_keeps ..) h7 rfl) fun h9 => ?_
  try clear_value s8
  exact Keeps.after (State.portSettle_keeps ..) h9 rfl

theorem State.hello_keeps (p : Nat) (s : State) :
    Keeps [.fab] s (State.hello p s) := by
  unfold State.hello
  exact Keeps.ite ((.refl _ _))
    (by
      extract_lets -underBinder +onlyGivenNames -merge s1
      refine .viaKeeps (x := s1) (Keeps.foldl (fun _ _ h2 =>
          Keeps.after (State.sendHop_keeps ..) h2 rfl)
          ((.refl _ _)) _) fun h3 => ?_
      try clear_value s1
      exact Keeps.after (State.onPort_keeps ..) h3 rfl)

theorem State.makeOper_keeps (p : Nat) (unit : Nat) (s : State) :
    Keeps [.disp, .fab, .led] s (State.makeOper p unit s) := by
  unfold State.makeOper
  split
  · exact (.refl _ _)
  · exact Keeps.ite ((.refl _ _))
      (by
        extract_lets -underBinder +onlyGivenNames -merge a1
        exact Keeps.after (State.portSettle_keeps ..) (Keeps.after (State.addOut_keeps ..) (Keeps.after (State.onPeer_keeps ..) ((.refl _ _)) rfl) rfl) rfl)

theorem execPortLinkChange_keeps (t : Nat) (port : Nat) (up : Bool) (s : State) :
    Runs [.disp, .fab, .led] s (execPortLinkChange t port up s) := by
  unfold execPortLinkChange
  extract_lets -underBinder +onlyGivenNames -merge s1
  refine .viaKeeps (x := s1) (Keeps.after (State.tick_keeps ..) ((.refl _ _)) rfl) fun h2 => ?_
  try clear_value s1
  exact Runs.ite (Runs.next h2)
      (by
        extract_lets -underBinder +onlyGivenNames -merge s3
        refine .viaKeeps (x := s3) (Keeps.after (State.losePeers_keeps ..) h2 rfl) fun h4 => ?_
        try clear_value s3
        extract_lets -underBinder +onlyGivenNames -merge s5
        refine .viaKeeps (x := s5) (Keeps.after (State.onPort_keeps ..) h4 rfl) fun h6 => ?_
        try clear_value s5
        exact Runs.next (Keeps.after (State.hello_keeps ..) (Keeps.after (State.portSettle_keeps ..) h6 rfl) rfl))

theorem State.reconcile_keeps (p : Nat) (unit : Nat) (c : Nat) (a : Nat) (s : State) :
    Keeps [.fab, .led] s (State.reconcile p unit c a s) := by
  unfold State.reconcile
  split
  · exact (.refl _ _)
  · extract_lets -underBinder +onlyGivenNames -merge a1
    exact Keeps.ite ((.refl _ _))
        (Keeps.after (State.raise_keeps ..) (Keeps.after (State.onPort_keeps ..) (Keeps.after (State.onPeer_keeps ..) ((.refl _ _)) rfl) rfl) rfl)

theorem State.idConflict_keeps (p : Nat) (boot : Nat) (s : State) :
    Keeps [.fab, .led] s (State.idConflict p boot s) := by
  unfold State.idConflict
  exact Keeps.after (State.raise_keeps ..) (Keeps.after (Keeps.fab ..) ((.refl _ _)) rfl) rfl

theorem State.takeHello_keeps (p : Nat) (unit : Nat) (boot : Nat) (a : List Nat) (s : State) :
    Keeps [.disp, .fab, .led] s (State.takeHello p unit boot a s) := by
  unfold State.takeHello
  exact Keeps.ite (Keeps.after (State.idConflict_keeps ..) ((.refl _ _)) rfl)
    (by
      split
      · exact (.refl _ _)
      · extract_lets -underBinder +onlyGivenNames -merge s1
        refine .viaKeeps (x := s1) (Keeps.ite (Keeps.after (State.losePeers_keeps ..) ((.refl _ _)) rfl)
            ((.refl _ _))) fun h2 => ?_
        try clear_value s1
        extract_lets -underBinder +onlyGivenNames -merge s3
        refine .viaKeeps (x := s3) (Keeps.after (State.onPeer_keeps ..) h2 rfl) fun h4 => ?_
        try clear_value s3
        extract_lets -underBinder +onlyGivenNames -merge s5
        refine .viaKeeps (x := s5) (Keeps.eachIx (fun _ _ h6 =>
            Keeps.after (State.reconcile_keeps ..) h6 rfl)
            h4) fun h7 => ?_
        try clear_value s5
        exact Keeps.after (State.makeOper_keeps ..) h7 rfl)

theorem execLinkHello_keeps (t : Nat) (port : Nat) (unit : Nat) (boot : Nat) (keyCur : Nat) (keyOther : Nat) (a : List Nat) (s : State) :
    Runs [.disp, .fab, .led] s (execLinkHello t port unit boot keyCur keyOther a s) := by
  unfold execLinkHello
  extract_lets -underBinder +onlyGivenNames -merge a1 s2
  refine .viaKeeps (x := s2) (Keeps.after (State.tick_keeps ..) ((.refl _ _)) rfl) fun h3 => ?_
  try clear_value s2
  exact Runs.ite (Runs.next (Keeps.after (State.takeHello_keeps ..) h3 rfl))
      (Runs.next h3)

theorem execHelloSend_keeps (t : Nat) (port : Nat) (s : State) :
    Runs [.disp, .fab, .led] s (execHelloSend t port s) := by
  unfold execHelloSend
  extract_lets -underBinder +onlyGivenNames -merge s1
  refine .viaKeeps (x := s1) (Keeps.after (State.tick_keeps ..) ((.refl _ _)) rfl) fun h2 => ?_
  try clear_value s1
  extract_lets -underBinder +onlyGivenNames -merge a3
  exact Runs.ite (by
        extract_lets -underBinder +onlyGivenNames -merge s4
        refine .viaKeeps (x := s4) (Keeps.after (State.hello_keeps ..) h2 rfl) fun h5 => ?_
        try clear_value s4
        exact Runs.next (Keeps.foldl (fun _ _ h6 =>
              Keeps.after (State.makeOper_keeps ..) h6 rfl)
              h5 _))
      (Runs.next h2)

theorem execNeighbourTimeout_keeps (t : Nat) (port : Nat) (unit : Nat) (s : State) :
    Runs [.disp, .fab, .led] s (execNeighbourTimeout t port unit s) := by
  unfold execNeighbourTimeout
  extract_lets -underBinder +onlyGivenNames -merge s1
  refine .viaKeeps (x := s1) (Keeps.after (State.tick_keeps ..) ((.refl _ _)) rfl) fun h2 => ?_
  try clear_value s1
  split
  · exact Runs.ite (Runs.next (Keeps.after (State.losePeers_keeps ..) h2 rfl))
      (Runs.next h2)
  · exact Runs.next h2

theorem State.takeCredit_keeps (p : Nat) (unit : Nat) (counts : List Nat) (s : State) :
    Keeps [.fab] s (State.takeCredit p unit counts s) := by
  unfold State.takeCredit
  exact Keeps.after (State.onPeer_keeps ..) ((.refl _ _)) rfl

theorem execCredit_keeps (t : Nat) (port : Nat) (unit : Nat) (counts : List Nat) (s : State) :
    Runs [.fab] s (execCredit t port unit counts s) := by
  unfold execCredit
  exact Runs.next (Keeps.after (State.takeCredit_keeps ..) (Keeps.after (State.tick_keeps ..) ((.refl _ _)) rfl) rfl)

theorem execCreditSend_keeps (t : Nat) (port : Nat) (unit : Nat) (s : State) :
    Runs [.fab] s (execCreditSend t port unit s) := by
  unfold execCreditSend
  extract_lets -underBinder +onlyGivenNames -merge s1
  refine .viaKeeps (x := s1) (Keeps.after (State.tick_keeps ..) ((.refl _ _)) rfl) fun h2 => ?_
  try clear_value s1
  split
  · split
    · exact Runs.ite (Runs.next (Keeps.after (State.sendHop_keeps ..) (Keeps.after (State.onPeer_keeps ..) h2 rfl) rfl))
        (Runs.next h2)
    · exact Runs.next h2
  · exact Runs.next h2

theorem execFrameTransmit_keeps (t : Nat) (port : Nat) (s : State) :
    Runs [.disp, .fab] s (execFrameTransmit t port s) := by
  unfold execFrameTransmit
  extract_lets -underBinder +onlyGivenNames -merge s1
  refine .viaKeeps (x := s1) (Keeps.after (State.tick_keeps ..) ((.refl _ _)) rfl) fun h2 => ?_
  try clear_value s1
  exact Runs.ite (Runs.next h2)
      (by
        split
        · exact Runs.next h2
        · extract_lets -underBinder +onlyGivenNames -merge a3 a4 a5 a6 a7 a8 s9
          refine .viaKeeps (x := s9) (Keeps.after (State.onPort_keeps ..) h2 rfl) fun h10 => ?_
          try clear_value s9
          extract_lets -underBinder +onlyGivenNames -merge s11
          refine .viaKeeps (x := s11) (Keeps.after (State.onPeer_keeps ..) h10 rfl) fun h12 => ?_
          try clear_value s11
          exact Runs.next (Keeps.after (State.freeBuf_keeps ..) h12 rfl))

theorem State.stallBoundary_keeps (p : Nat) (s : State) :
    Keeps [.fab] s (State.stallBoundary p s) := by
  unfold State.stallBoundary
  exact Keeps.ite (Keeps.after (State.onPort_keeps ..) ((.refl _ _)) rfl)
    ((.refl _ _))

theorem State.noteSource_keeps (p : Nat) (unit : Nat) (f : Frame) (s : State) :
    Keeps [.fab] s (State.noteSource p unit f s) := by
  unfold State.noteSource
  extract_lets -underBinder +onlyGivenNames -merge a1 a2 a3
  exact Keeps.after (State.setSource_keeps ..) ((.refl _ _)) rfl

theorem State.relay_keeps (p : Nat) (unit : Nat) (f : Frame) (s : State) :
    Keeps [.disp, .fab] s (State.relay p unit f s) := by
  unfold State.relay
  extract_lets -underBinder +onlyGivenNames -merge a1
  exact Keeps.ite (Keeps.after (State.giveBack_keeps ..) ((.refl _ _)) rfl)
      (by
        extract_lets -underBinder +onlyGivenNames -merge a2 r3 s4
        refine .viaKeeps (x := s4) (Keeps.after (Keeps.fab ..) ((.refl _ _)) rfl) fun h5 => ?_
        try clear_value s4
        exact Keeps.foldl (fun _ _ h6 =>
            Keeps.after (State.enqueue_keeps ..) h6 rfl)
            h5 _)

theorem State.frameRejected_keeps (p : Nat) (cause : Nat) (f : Frame) (s : State) :
    Keeps [.fab, .led] s (State.frameRejected p cause f s) := by
  unfold State.frameRejected
  exact Keeps.after (State.raise_keeps ..) (Keeps.after (State.onPort_keeps ..) ((.refl _ _)) rfl) rfl

end Sys2Proof.Machine
end

