-- ==== Sys2Proof/Laws/Purse.lean ====
section
/-! SUPPORT. The laws of the operations of Machine/Purse.lean: which fields of the state each may change. -/

namespace Sys2Proof.Machine

theorem State.onPurse_keeps (f : Purse → Purse) (s : State) :
    Keeps [.purse] s (State.onPurse f s) := by
  unfold State.onPurse
  exact Keeps.after (Keeps.purse ..) ((.refl _ _)) rfl

theorem execPdClass_keeps (t : Nat) (port : Nat) (cls : Nat) (powered : Bool) (s : State) :
    Runs [.purse, .led] s (execPdClass t port cls powered s) := by
  unfold execPdClass
  extract_lets -underBinder +onlyGivenNames -merge s1
  refine .viaKeeps (x := s1) (Keeps.after (State.tick_keeps ..) ((.refl _ _)) rfl) fun h2 => ?_
  try clear_value s1
  extract_lets -underBinder +onlyGivenNames -merge a3
  exact Runs.ite (Runs.next h2)
      (by
        extract_lets -underBinder +onlyGivenNames -merge a4 s5
        refine .viaKeeps (x := s5) (Keeps.after (State.onPurse_keeps ..) h2 rfl) fun h6 => ?_
        try clear_value s5
        extract_lets -underBinder +onlyGivenNames -merge a7
        exact Runs.next (Keeps.after (State.raise_keeps ..) h6 rfl))

theorem execClassFallback_keeps (t : Nat) (port : Nat) (s : State) :
    Runs [.purse] s (execClassFallback t port s) := by
  unfold execClassFallback
  extract_lets -underBinder +onlyGivenNames -merge s1
  refine .viaKeeps (x := s1) (Keeps.after (State.tick_keeps ..) ((.refl _ _)) rfl) fun h2 => ?_
  try clear_value s1
  extract_lets -underBinder +onlyGivenNames -merge a3
  exact Runs.ite (Runs.next (Keeps.after (State.onPurse_keeps ..) h2 rfl))
      (Runs.next h2)

theorem State.tierEv_keeps (tier : Nat) (funded : Bool) (cause : Nat) (s : State) :
    Keeps [.purse, .led] s (State.tierEv tier funded cause s) := by
  unfold State.tierEv
  exact Keeps.after (State.raise_keeps ..) (Keeps.after (State.onPurse_keeps ..) ((.refl _ _)) rfl) rfl

theorem State.tiers_keeps (s : State) :
    Keeps [.purse, .led] s (State.tiers s) := by
  unfold State.tiers
  extract_lets -underBinder +onlyGivenNames -merge a1 a2 a3 a4 s5
  refine .viaKeeps (x := s5) (Keeps.after (State.onPurse_keeps ..) ((.refl _ _)) rfl) fun h6 => ?_
  try clear_value s5
  extract_lets -underBinder +onlyGivenNames -merge s7
  refine .viaKeeps (x := s7) (Keeps.ite (Keeps.after (State.tierEv_keeps ..) h6 rfl)
      h6) fun h8 => ?_
  try clear_value s7
  exact Keeps.ite (Keeps.after (State.tierEv_keeps ..) h8 rfl)
      h8

theorem execGrantExceeded_keeps (t : Nat) (s : State) :
    Runs [.purse, .led] s (execGrantExceeded t s) := by
  unfold execGrantExceeded
  extract_lets -underBinder +onlyGivenNames -merge s1
  refine .viaKeeps (x := s1) (Keeps.after (State.tick_keeps ..) ((.refl _ _)) rfl) fun h2 => ?_
  try clear_value s1
  exact Runs.ite (by
        extract_lets -underBinder +onlyGivenNames -merge s3
        refine .viaKeeps (x := s3) (Keeps.after (State.onPurse_keeps ..) h2 rfl) fun h4 => ?_
        try clear_value s3
        exact Runs.next (Keeps.after (State.raise_keeps ..) (Keeps.after (State.tiers_keeps ..) h4 rfl) rfl))
      (Runs.next h2)

theorem State.railEv_keeps (rail : Nat) (measured : Nat) (s : State) :
    Keeps [.led] s (State.railEv rail measured s) := by
  unfold State.railEv
  exact Keeps.after (State.raise_keeps ..) ((.refl _ _)) rfl

theorem execSensorSupply_keeps (t : Nat) (mw5 : Nat) (mw12 : Nat) (s : State) :
    Runs [.purse, .led] s (execSensorSupply t mw5 mw12 s) := by
  unfold execSensorSupply
  extract_lets -underBinder +onlyGivenNames -merge s1
  refine .viaKeeps (x := s1) (Keeps.after (State.tick_keeps ..) ((.refl _ _)) rfl) fun h2 => ?_
  try clear_value s1
  extract_lets -underBinder +onlyGivenNames -merge a3 a4 a5 a6 a7 a8 a9 a10 a11 s12
  refine .viaKeeps (x := s12) (Keeps.after (State.onPurse_keeps ..) h2 rfl) fun h13 => ?_
  try clear_value s12
  extract_lets -underBinder +onlyGivenNames -merge s14
  refine .viaKeeps (x := s14) (Keeps.ite (Keeps.ite (Keeps.after (State.railEv_keeps ..) h13 rfl)
        h13)
      (Keeps.ite (Keeps.after (State.railEv_keeps ..) h13 rfl)
        h13)) fun h15 => ?_
  try clear_value s14
  extract_lets -underBinder +onlyGivenNames -merge a16
  refine .viaP (fun W => ∀ b0 b1, Keeps W s b1 → Keeps W s (a16 b0 b1)) (fun _ _ h17 =>
    Keeps.ite (Keeps.after (State.railEv_keeps ..) h17 rfl)
      h17) fun h18 => ?_
  try clear_value a16
  exact Runs.next (h18 _ _ (h18 _ _ h15))

theorem execRailLow_keeps (t : Nat) (rail : Nat) (s : State) :
    Runs [.purse, .led] s (execRailLow t rail s) := by
  unfold execRailLow
  extract_lets -underBinder +onlyGivenNames -merge s1
  refine .viaKeeps (x := s1) (Keeps.after (State.tick_keeps ..) ((.refl _ _)) rfl) fun h2 => ?_
  try clear_value s1
  exact Runs.ite (Runs.next h2)
      (by
        extract_lets -underBinder +onlyGivenNames -merge s3
        refine .viaKeeps (x := s3) (Keeps.after (State.onPurse_keeps ..) h2 rfl) fun h4 => ?_
        try clear_value s3
        exact Runs.next (Keeps.after (State.railEv_keeps ..) h4 rfl))

theorem State.holdUp_keeps (s : State) :
    Keeps [.purse, .led] s (State.holdUp s) := by
  unfold State.holdUp
  extract_lets -underBinder +onlyGivenNames -merge a1 a2 a3 s4
  refine .viaKeeps (x := s4) (Keeps.after (State.onPurse_keeps ..) ((.refl _ _)) rfl) fun h5 => ?_
  try clear_value s4
  exact Keeps.ite (Keeps.after (State.raise_keeps ..) h5 rfl)
      h5

theorem State.busBoundary_keeps (b : Nat) (s : State) :
    Keeps [.purse] s (State.busBoundary b s) := by
  unfold State.busBoundary
  extract_lets -underBinder +onlyGivenNames -merge a1
  exact Keeps.ite ((.refl _ _))
      (by
        extract_lets -underBinder +onlyGivenNames -merge a2 a3 a4 a5 a6
        exact Keeps.after (State.onBus_keeps ..) ((.refl _ _)) rfl)

theorem execBusEnergy_keeps (t : Nat) (bus : Nat) (s : State) :
    Runs [.book, .safe, .purse, .led] s (execBusEnergy t bus s) := by
  unfold execBusEnergy
  extract_lets -underBinder +onlyGivenNames -merge s1
  refine .viaKeeps (x := s1) (Keeps.after (State.tick_keeps ..) ((.refl _ _)) rfl) fun h2 => ?_
  try clear_value s1
  extract_lets -underBinder +onlyGivenNames -merge a3 a4 a5
  refine .viaP (fun W => ∀ b0 b1, Keeps W s b1 → Keeps W s (a5 b0 b1)) (fun _ _ h6 =>
    Keeps.after (State.raise_keeps ..) h6 rfl) fun h7 => ?_
  try clear_value a5
  exact Runs.ite (Runs.next h2)
      (Runs.ite (Runs.next (h7 _ _ (Keeps.after (State.onBus_keeps ..) h2 rfl)))
        (Runs.ite (by
            extract_lets -underBinder +onlyGivenNames -merge s8
            refine .viaKeeps (x := s8) (h7 _ _ (Keeps.after (State.onBus_keeps ..) h2 rfl)) fun h9 => ?_
            try clear_value s8
            exact Runs.next (Keeps.foldl (fun _ _ h10 =>
                  Keeps.after (State.orderSs1_keeps ..) h10 rfl)
                  h9 _))
          (Runs.ite (Runs.next (h7 _ _ (Keeps.after (State.onBus_keeps ..) h2 rfl)))
            (Runs.next h2))))

theorem State.takeEnergy_keeps (share : Nat) (unit : Nat) (slice0 : Nat) (inc : List (Int × Int)) (s : State) :
    Keeps [.purse] s (State.takeEnergy share unit slice0 inc s) := by
  unfold State.takeEnergy
  exact Keeps.ite ((.refl _ _))
    (Keeps.eachIx (fun _ _ h1 =>
      Keeps.ite h1
        (Keeps.after (State.onBus_keeps ..) h1 rfl))
      ((.refl _ _)))

theorem execEnergyOffer_keeps (t : Nat) (share : Nat) (unit : Nat) (slice0 : Nat) (inc : List (Int × Int)) (s : State) :
    Runs [.purse] s (execEnergyOffer t share unit slice0 inc s) := by
  unfold execEnergyOffer
  exact Runs.next (Keeps.after (State.takeEnergy_keeps ..) (Keeps.after (State.tick_keeps ..) ((.refl _ _)) rfl) rfl)

theorem State.sprintEnd_keeps (cause : Nat) (s : State) :
    Keeps [.clk, .purse, .led] s (State.sprintEnd cause s) := by
  unfold State.sprintEnd
  extract_lets -underBinder +onlyGivenNames -merge a1 s2 r3 s4
  refine .viaKeeps (x := s2) (Keeps.after (State.onPurse_keeps ..) ((.refl _ _)) rfl) fun h5 => ?_
  try clear_value s2
  refine .viaKeeps (x := s4) (Keeps.after (Keeps.clk ..) h5 rfl) fun h6 => ?_
  try clear_value s4
  extract_lets -underBinder +onlyGivenNames -merge s7
  refine .viaKeeps (x := s7) (Keeps.after (State.onPurse_keeps ..) h6 rfl) fun h8 => ?_
  try clear_value s7
  exact Keeps.after (State.raise_keeps ..) h8 rfl

theorem State.sprintCharge_keeps (s : State) :
    Keeps [.purse] s (State.sprintCharge s) := by
  unfold State.sprintCharge
  extract_lets -underBinder +onlyGivenNames -merge a1
  exact Keeps.after (State.onPurse_keeps ..) ((.refl _ _)) rfl

theorem State.sprintBoundary_keeps (s : State) :
    Keeps [.clk, .purse, .led] s (State.sprintBoundary s) := by
  unfold State.sprintBoundary
  extract_lets -underBinder +onlyGivenNames -merge s1
  refine .viaKeeps (x := s1) (Keeps.after (State.onPurse_keeps ..) ((.refl _ _)) rfl) fun h2 => ?_
  try clear_value s1
  exact Keeps.ite (by
        split
        · exact Keeps.after (State.sprintEnd_keeps ..) h2 rfl
        · exact Keeps.ite (Keeps.after (State.sprintCharge_keeps ..) h2 rfl)
            (Keeps.after (State.sprintEnd_keeps ..) h2 rfl))
      (Keeps.after (Keeps.clk ..) h2 rfl)

theorem State.sprintGrant_keeps (s : State) :
    Keeps [.clk, .purse, .led] s (State.sprintGrant s) := by
  unfold State.sprintGrant
  extract_lets -underBinder +onlyGivenNames -merge a1
  exact Keeps.ite ((.refl _ _))
      (by
        extract_lets -underBinder +onlyGivenNames -merge a2 s3 r4 s5
        refine .viaKeeps (x := s3) (Keeps.after (State.onPurse_keeps ..) ((.refl _ _)) rfl) fun h6 => ?_
        try clear_value s3
        refine .viaKeeps (x := s5) (Keeps.after (Keeps.clk ..) h6 rfl) fun h7 => ?_
        try clear_value s5
        extract_lets -underBinder +onlyGivenNames -merge s8
        refine .viaKeeps (x := s8) (Keeps.after (State.onPurse_keeps ..) h7 rfl) fun h9 => ?_
        try clear_value s8
        exact Keeps.after (State.sprintCharge_keeps ..) (Keeps.after (State.raise_keeps ..) h9 rfl) rfl)

theorem execSprintClockRise_keeps (t : Nat) (s : State) :
    Runs [.clk] s (execSprintClockRise t s) := by
  unfold execSprintClockRise
  extract_lets -underBinder +onlyGivenNames -merge s1
  refine .viaKeeps (x := s1) (Keeps.after (State.tick_keeps ..) ((.refl _ _)) rfl) fun h2 => ?_
  try clear_value s1
  exact Runs.ite (Runs.next (Keeps.after (Keeps.clk ..) h2 rfl))
      (Runs.next h2)

theorem execSprintRequestLapse_keeps (t : Nat) (s : State) :
    Runs [.purse] s (execSprintRequestLapse t s) := by
  unfold execSprintRequestLapse
  extract_lets -underBinder +onlyGivenNames -merge s1
  refine .viaKeeps (x := s1) (Keeps.after (State.tick_keeps ..) ((.refl _ _)) rfl) fun h2 => ?_
  try clear_value s1
  exact Runs.ite (Runs.next (Keeps.after (State.onPurse_keeps ..) h2 rfl))
      (Runs.next h2)

theorem State.thermalEv_keeps (level : Nat) (cause : Nat) (die : Nat) (s : State) :
    Keeps [.led] s (State.thermalEv level cause die s) := by
  unfold State.thermalEv
  exact Keeps.after (State.raise_keeps ..) ((.refl _ _)) rfl

theorem State.thermal_keeps (s : State) :
    Keeps [.purse, .led] s (State.thermal s) := by
  unfold State.thermal
  extract_lets -underBinder +onlyGivenNames -merge a1 a2 a3 a4 s5
  refine .viaKeeps (x := s5) (Keeps.after (State.onPurse_keeps ..) ((.refl _ _)) rfl) fun h6 => ?_
  try clear_value s5
  exact Keeps.ite (Keeps.after (State.tiers_keeps ..) (Keeps.after (State.thermalEv_keeps ..) h6 rfl) rfl)
      h6

theorem execThermalSample_keeps (t : Nat) (temps : List (Int × Int)) (s : State) :
    Runs [.freeIx, .purse, .led] s (execThermalSample t temps s) := by
  unfold execThermalSample
  extract_lets -underBinder +onlyGivenNames -merge s1
  refine .viaKeeps (x := s1) (Keeps.after (State.tick_keeps ..) ((.refl _ _)) rfl) fun h2 => ?_
  try clear_value s1
  extract_lets -underBinder +onlyGivenNames -merge a3 s4
  refine .viaKeeps (x := s4) (Keeps.after (State.onPurse_keeps ..) h2 rfl) fun h5 => ?_
  try clear_value s4
  extract_lets -underBinder +onlyGivenNames -merge s6
  refine .viaKeeps (x := s6) (Keeps.after (State.thermal_keeps ..) h5 rfl) fun h7 => ?_
  try clear_value s6
  extract_lets -underBinder +onlyGivenNames -merge a8
  split
  next heq =>
  refine .ofP2 heq (by
      clear_value a8
      split
      · exact Keeps2.mk h7
      · split
        next heq =>
        refine .ofP2 heq (Keeps.after (State.free_keeps ..) h7 rfl) fun h9 => ?_
        exact Keeps2.mk h9) fun h10 => ?_
  exact by
    extract_lets -underBinder +onlyGivenNames -merge s11
    refine .viaKeeps (x := s11) (Keeps.after (State.onPurse_keeps ..) h10 rfl) fun h12 => ?_
    try clear_value s11
    exact Runs.next (Keeps.after (State.onPurse_keeps ..) h12 rfl)

theorem execThermalCool_keeps (t : Nat) (s : State) :
    Runs [.purse, .led] s (execThermalCool t s) := by
  unfold execThermalCool
  extract_lets -underBinder +onlyGivenNames -merge s1
  refine .viaKeeps (x := s1) (Keeps.after (State.tick_keeps ..) ((.refl _ _)) rfl) fun h2 => ?_
  try clear_value s1
  extract_lets -underBinder +onlyGivenNames -merge a3 a4 a5
  exact Runs.ite (Runs.next h2)
      (Runs.next (Keeps.after (State.thermalEv_keeps ..) (Keeps.after (State.onPurse_keeps ..) h2 rfl) rfl))

theorem execSensorDisagreement_keeps (t : Nat) (die : Nat) (s : State) :
    Runs [.purse, .led] s (execSensorDisagreement t die s) := by
  unfold execSensorDisagreement
  extract_lets -underBinder +onlyGivenNames -merge s1
  refine .viaKeeps (x := s1) (Keeps.after (State.tick_keeps ..) ((.refl _ _)) rfl) fun h2 => ?_
  try clear_value s1
  split
  · exact Runs.ite (Runs.next (Keeps.after (State.thermalEv_keeps ..) (Keeps.after (State.thermal_keeps ..) (Keeps.after (State.onPurse_keeps ..) h2 rfl) rfl) rfl))
      (Runs.next h2)
  · exact Runs.next h2

theorem execPowerLoss_keeps (t : Nat) (s : State) :
    Runs [.safe, .purse, .led, .mode] s (execPowerLoss t s) := by
  unfold execPowerLoss
  extract_lets -underBinder +onlyGivenNames -merge s1
  refine .viaKeeps (x := s1) (Keeps.after (State.tick_keeps ..) ((.refl _ _)) rfl) fun h2 => ?_
  try clear_value s1
  exact Runs.ite (Runs.next h2)
      (by
        extract_lets -underBinder +onlyGivenNames -merge s3
        refine .viaKeeps (x := s3) (Keeps.after (State.tiers_keeps ..) (Keeps.after (State.onPurse_keeps ..) h2 rfl) rfl) fun h4 => ?_
        try clear_value s3
        extract_lets -underBinder +onlyGivenNames -merge s5
        refine .viaKeeps (x := s5) (Keeps.after (State.raise_keeps ..) h4 rfl) fun h6 => ?_
        try clear_value s5
        extract_lets -underBinder +onlyGivenNames -merge s7
        refine .viaKeeps (x := s7) (Keeps.eachIx (fun _ _ h8 =>
            Keeps.ite (Keeps.after (State.orderSto_keeps ..) h8 rfl)
              h8)
            h6) fun h9 => ?_
        try clear_value s7
        exact Runs.next (Keeps.after (State.powerFlushBegin_keeps ..) (Keeps.after (State.haltCause_keeps ..) h9 rfl) rfl))

theorem execPowerReturn_keeps (t : Nat) (s : State) :
    Runs [.purse, .led] s (execPowerReturn t s) := by
  unfold execPowerReturn
  extract_lets -underBinder +onlyGivenNames -merge s1
  refine .viaKeeps (x := s1) (Keeps.after (State.tick_keeps ..) ((.refl _ _)) rfl) fun h2 => ?_
  try clear_value s1
  exact Runs.ite (Runs.next (Keeps.after (State.raise_keeps ..) (Keeps.after (State.onPurse_keeps ..) h2 rfl) rfl))
      (Runs.next h2)

theorem State.purseBoundary_keeps (io : NoticeInputs) (s : State) :
    Keeps [.clk, .purse, .led] s (State.purseBoundary io s) := by
  unfold State.purseBoundary
  extract_lets -underBinder +onlyGivenNames -merge s1
  refine .viaKeeps (x := s1) (Keeps.after (State.onPurse_keeps ..) ((.refl _ _)) rfl) fun h2 => ?_
  try clear_value s1
  extract_lets -underBinder +onlyGivenNames -merge s3
  refine .viaKeeps (x := s3) (Keeps.after (State.sprintBoundary_keeps ..) h2 rfl) fun h4 => ?_
  try clear_value s3
  extract_lets -underBinder +onlyGivenNames -merge s5
  refine .viaKeeps (x := s5) (Keeps.after (State.holdUp_keeps ..) (Keeps.after (State.onPurse_keeps ..) h4 rfl) rfl) fun h6 => ?_
  try clear_value s5
  extract_lets -underBinder +onlyGivenNames -merge s7
  refine .viaKeeps (x := s7) (Keeps.after (State.onPurse_keeps ..) h6 rfl) fun h8 => ?_
  try clear_value s7
  extract_lets -underBinder +onlyGivenNames -merge s9
  refine .viaKeeps (x := s9) (Keeps.after (State.tiers_keeps ..) h8 rfl) fun h10 => ?_
  try clear_value s9
  extract_lets -underBinder +onlyGivenNames -merge s11
  refine .viaKeeps (x := s11) (Keeps.after (State.onPurse_keeps ..) h10 rfl) fun h12 => ?_
  try clear_value s11
  extract_lets -underBinder +onlyGivenNames -merge s13
  refine .viaKeeps (x := s13) (Keeps.eachIx (fun _ _ h14 =>
      Keeps.after (State.busBoundary_keeps ..) h14 rfl)
      h12) fun h15 => ?_
  try clear_value s13
  exact Keeps.after (State.sprintGrant_keeps ..) h15 rfl

theorem State.chargerNow_keeps (s : State) :
    Keeps [.pins] s (State.chargerNow s) := by
  unfold State.chargerNow
  exact Keeps.after (State.onPins_keeps ..) ((.refl _ _)) rfl

end Sys2Proof.Machine
end

