-- ==== Sys2Proof/Laws/Door.lean ====
section
/-! SUPPORT. The laws of the operations of Machine/Door.lean: which fields of the state each may change. -/

namespace Sys2Proof.Machine

theorem State.doorState_keeps (d : Nat) (dest : Nat) (s : State) :
    Keeps [.doors, .led] s (State.doorState d dest s) := by
  unfold State.doorState
  extract_lets -underBinder +onlyGivenNames -merge a1
  exact Keeps.ite ((.refl _ _))
      (Keeps.after (State.raise_keeps ..) (Keeps.after (State.onDoor_keeps ..) ((.refl _ _)) rfl) rfl)

theorem State.doorRefused_keeps (d : Nat) (req : Nat) (reason : Nat) (s : State) :
    Keeps [.led] s (State.doorRefused d req reason s) := by
  unfold State.doorRefused
  exact Keeps.after (State.raise_keeps ..) ((.refl _ _)) rfl

theorem State.doorFault_keeps (d : Nat) (cause : Nat) (detail : Int) (s : State) :
    Keeps [.doors, .led] s (State.doorFault d cause detail s) := by
  unfold State.doorFault
  exact Keeps.after (State.doorState_keeps ..) (Keeps.after (State.raise_keeps ..) (Keeps.after (State.onDoor_keeps ..) ((.refl _ _)) rfl) rfl) rfl

theorem State.doorCmds_keeps (d : Nat) (a : Nat) (l : List AxCmd) (s : State) :
    Keeps [.doors] s (State.doorCmds d a l s) := by
  unfold State.doorCmds
  extract_lets -underBinder +onlyGivenNames -merge a1
  exact Keeps.after (State.onDoor_keeps ..) ((.refl _ _)) rfl

theorem State.doorIssue_keeps (d : Nat) (a : Nat) (s : State) :
    Keeps [.book, .doors] s (State.doorIssue d a s) := by
  unfold State.doorIssue
  split
  · exact (.refl _ _)
  · exact Keeps.ite ((.refl _ _))
      (Keeps.after (State.kernelCmd_keeps ..) (Keeps.after (State.onDoor_keeps ..) ((.refl _ _)) rfl) rfl)

theorem State.doorOpen_keeps (d : Nat) (a : Nat) (dest : Nat) (s : State) :
    Keeps [.doors, .led] s (State.doorOpen d a dest s) := by
  unfold State.doorOpen
  extract_lets -underBinder +onlyGivenNames -merge s1
  refine .viaKeeps (x := s1) (Keeps.after (State.onDoor_keeps ..) ((.refl _ _)) rfl) fun h2 => ?_
  try clear_value s1
  exact Keeps.after (State.doorState_keeps ..) (Keeps.after (State.doorCmds_keeps ..) h2 rfl) rfl

theorem State.doorClose_keeps (d : Nat) (a : Nat) (nudge : Bool) (s : State) :
    Keeps [.doors, .led] s (State.doorClose d a nudge s) := by
  unfold State.doorClose
  extract_lets -underBinder +onlyGivenNames -merge a1 a2 a3 s4
  refine .viaKeeps (x := s4) (Keeps.after (State.onDoor_keeps ..) ((.refl _ _)) rfl) fun h5 => ?_
  try clear_value s4
  extract_lets -underBinder +onlyGivenNames -merge s6
  refine .viaKeeps (x := s6) (Keeps.after (State.doorState_keeps ..) (Keeps.after (State.doorCmds_keeps ..) h5 rfl) rfl) fun h7 => ?_
  try clear_value s6
  exact Keeps.ite (Keeps.after (State.raise_keeps ..) h7 rfl)
      h7

theorem State.doorHold_keeps (d : Nat) (len : Nat) (s : State) :
    Keeps [.doors] s (State.doorHold d len s) := by
  unfold State.doorHold
  extract_lets -underBinder +onlyGivenNames -merge a1
  exact Keeps.after (State.onDoor_keeps ..) ((.refl _ _)) rfl

theorem State.obstruction_keeps (d : Nat) (a : Nat) (cause : Nat) (s : State) :
    Keeps [.doors, .led] s (State.obstruction d a cause s) := by
  unfold State.obstruction
  exact Keeps.after (State.raise_keeps ..) (Keeps.after (State.onDoor_keeps ..) ((.refl _ _)) rfl) rfl

theorem State.doorUnknown_keeps (d : Nat) (a : Nat) (req : Bool) (s : State) :
    Keeps [.doors, .led] s (State.doorUnknown d a req s) := by
  unfold State.doorUnknown
  extract_lets -underBinder +onlyGivenNames -merge a1
  exact Keeps.ite (Keeps.ite ((.refl _ _))
        (Keeps.ite (Keeps.after (State.doorClose_keeps ..) (Keeps.after (State.onDoor_keeps ..) ((.refl _ _)) rfl) rfl)
          (Keeps.after (State.doorFault_keeps ..) ((.refl _ _)) rfl)))
      (Keeps.ite (Keeps.after (State.doorCmds_keeps ..) (Keeps.after (State.onDoor_keeps ..) ((.refl _ _)) rfl) rfl)
        ((.refl _ _)))

theorem State.doorClosed_keeps (d : Nat) (a : Nat) (open_ : Bool) (s : State) :
    Keeps [.doors, .led] s (State.doorClosed d a open_ s) := by
  unfold State.doorClosed
  exact Keeps.ite ((.refl _ _))
    (Keeps.ite (Keeps.after (State.doorRefused_keeps ..) ((.refl _ _)) rfl)
      (Keeps.ite (Keeps.after (State.doorRefused_keeps ..) ((.refl _ _)) rfl)
        (Keeps.after (State.doorOpen_keeps ..) ((.refl _ _)) rfl)))

theorem State.doorOpened_keeps (d : Nat) (a : Nat) (close : Bool) (s : State) :
    Keeps [.doors, .led] s (State.doorOpened d a close s) := by
  unfold State.doorOpened
  extract_lets -underBinder +onlyGivenNames -merge a1 a2
  exact Keeps.ite (Keeps.ite (Keeps.after (State.doorClose_keeps ..) ((.refl _ _)) rfl)
        ((.refl _ _)))
      (Keeps.ite ((.refl _ _))
        (by
          extract_lets -underBinder +onlyGivenNames -merge a3 s4
          refine .viaKeeps (x := s4) (Keeps.ite (Keeps.after (State.doorRefused_keeps ..) ((.refl _ _)) rfl)
              ((.refl _ _))) fun h5 => ?_
          try clear_value s4
          extract_lets -underBinder +onlyGivenNames -merge a6 s7
          refine .viaKeeps (x := s7) (Keeps.ite (Keeps.after (State.doorHold_keeps ..) h5 rfl)
              h5) fun h8 => ?_
          try clear_value s7
          extract_lets -underBinder +onlyGivenNames -merge s9
          refine .viaKeeps (x := s9) (Keeps.ite (Keeps.after (State.onDoor_keeps ..) h8 rfl)
              h8) fun h10 => ?_
          try clear_value s9
          extract_lets -underBinder +onlyGivenNames -merge a11
          exact Keeps.ite h10
              (by
                extract_lets -underBinder +onlyGivenNames -merge s12
                refine .viaKeeps (x := s12) (Keeps.after (State.onDoor_keeps ..) h10 rfl) fun h13 => ?_
                try clear_value s12
                exact Keeps.ite h13
                    (Keeps.ite (Keeps.after (State.doorClose_keeps ..) h13 rfl)
                      (Keeps.ite h13
                        (Keeps.after (State.doorClose_keeps ..) h13 rfl))))))

theorem State.doorClosing_keeps (d : Nat) (a : Nat) (nudge : Bool) (open_ : Bool) (s : State) :
    Keeps [.doors, .led] s (State.doorClosing d a nudge open_ s) := by
  unfold State.doorClosing
  extract_lets -underBinder +onlyGivenNames -merge a1 a2 s3
  refine .viaKeeps (x := s3) (Keeps.after (State.onDoor_keeps ..) ((.refl _ _)) rfl) fun h4 => ?_
  try clear_value s3
  extract_lets -underBinder +onlyGivenNames -merge a5 a6 a7 a8 a9 a10
  clear_value a10
  split
  · extract_lets -underBinder +onlyGivenNames -merge s11
    refine .viaKeeps (x := s11) (Keeps.after (State.obstruction_keeps ..) h4 rfl) fun h12 => ?_
    try clear_value s11
    exact Keeps.ite (Keeps.after (State.doorState_keeps ..) (Keeps.after (State.doorCmds_keeps ..) (Keeps.after (State.onDoor_keeps ..) h12 rfl) rfl) rfl)
        (Keeps.after (State.doorOpen_keeps ..) h12 rfl)
  · exact Keeps.ite (Keeps.after (State.doorOpen_keeps ..) h4 rfl)
      (Keeps.ite (by
          extract_lets -underBinder +onlyGivenNames -merge s13
          refine .viaKeeps (x := s13) (Keeps.after (State.onDoor_keeps ..) h4 rfl) fun h14 => ?_
          try clear_value s13
          extract_lets -underBinder +onlyGivenNames -merge s15
          refine .viaKeeps (x := s15) (Keeps.ite h14
              (Keeps.after (State.onDoor_keeps ..) h14 rfl)) fun h16 => ?_
          try clear_value s15
          exact Keeps.after (State.doorState_keeps ..) h16 rfl)
        h4)

theorem State.doorStopped_keeps (d : Nat) (a : Nat) (open_ : Bool) (close : Bool) (s : State) :
    Keeps [.doors, .led] s (State.doorStopped d a open_ close s) := by
  unfold State.doorStopped
  split
  · exact Keeps.ite (Keeps.after (State.doorState_keeps ..) (Keeps.after (State.doorCmds_keeps ..) (Keeps.after (State.onDoor_keeps ..) ((.refl _ _)) rfl) rfl) rfl)
      ((.refl _ _))
  · exact Keeps.ite ((.refl _ _))
      (Keeps.ite (Keeps.after (State.doorOpen_keeps ..) ((.refl _ _)) rfl)
        (Keeps.ite (Keeps.after (State.doorClose_keeps ..) ((.refl _ _)) rfl)
          ((.refl _ _))))

theorem State.doorKernel_keeps (d : Nat) (s : State) :
    Keeps [.book, .doors, .led] s (State.doorKernel d s) := by
  unfold State.doorKernel
  split
  · exact (.refl _ _)
  · split
    · extract_lets -underBinder +onlyGivenNames -merge a1 a2 a3 a4 a5 a6 s7
      refine .viaKeeps (x := s7) (Keeps.after (State.onDoor_keeps ..) ((.refl _ _)) rfl) fun h8 => ?_
      try clear_value s7
      extract_lets -underBinder +onlyGivenNames -merge s9
      refine .viaKeeps (x := s9) (Keeps.after (State.doorIssue_keeps ..) h8 rfl) fun h10 => ?_
      try clear_value s9
      exact Keeps.ite (Keeps.ite h10
            (Keeps.after (State.doorFault_keeps ..) h10 rfl))
          (by
            split
            · exact Keeps.after (State.doorUnknown_keeps ..) h10 rfl
            · exact Keeps.after (State.doorClosed_keeps ..) h10 rfl
            · exact Keeps.ite (Keeps.after (State.doorState_keeps ..) (Keeps.after (State.doorHold_keeps ..) h10 rfl) rfl)
                (Keeps.ite (Keeps.after (State.doorClose_keeps ..) h10 rfl)
                  h10)
            · exact Keeps.after (State.doorOpened_keeps ..) h10 rfl
            · exact Keeps.after (State.doorClosing_keeps ..) h10 rfl
            · exact Keeps.after (State.doorClosing_keeps ..) h10 rfl
            · exact Keeps.ite (Keeps.after (State.doorState_keeps ..) (Keeps.after (State.doorHold_keeps ..) h10 rfl) rfl)
                h10
            · exact Keeps.after (State.doorStopped_keeps ..) h10 rfl
            · exact Keeps.ite (Keeps.after (State.doorState_keeps ..) (Keeps.after (State.onDoor_keeps ..) h10 rfl) rfl)
                h10)

theorem State.doorHalt_keeps (d : Nat) (s : State) :
    Keeps [.doors, .led] s (State.doorHalt d s) := by
  unfold State.doorHalt
  exact Keeps.ite (Keeps.after (State.doorState_keeps ..) (Keeps.after (State.onDoor_keeps ..) ((.refl _ _)) rfl) rfl)
    ((.refl _ _))

theorem execDoorHoldEnd_keeps (t : Nat) (door : Nat) (s : State) :
    Runs [.doors] s (execDoorHoldEnd t door s) := by
  unfold execDoorHoldEnd
  extract_lets -underBinder +onlyGivenNames -merge s1
  refine .viaKeeps (x := s1) (Keeps.after (State.tick_keeps ..) ((.refl _ _)) rfl) fun h2 => ?_
  try clear_value s1
  exact Runs.ite (Runs.next h2)
      (by
        split
        · exact Runs.ite (Runs.next (Keeps.after (State.onDoor_keeps ..) h2 rfl))
            (Runs.next h2)
        · exact Runs.next h2)

theorem execNudgeTimer_keeps (t : Nat) (door : Nat) (s : State) :
    Runs [.doors] s (execNudgeTimer t door s) := by
  unfold execNudgeTimer
  extract_lets -underBinder +onlyGivenNames -merge s1
  refine .viaKeeps (x := s1) (Keeps.after (State.tick_keeps ..) ((.refl _ _)) rfl) fun h2 => ?_
  try clear_value s1
  exact Runs.ite (Runs.next h2)
      (by
        split
        · exact Runs.ite (Runs.next (Keeps.after (State.onDoor_keeps ..) h2 rfl))
            (Runs.next h2)
        · exact Runs.next h2)

end Sys2Proof.Machine
end

