-- ==== Sys2Proof/Laws/Scheduling.lean ====
section
/-! SUPPORT. The laws of the operations of Machine/Scheduling.lean: which fields of the state each may change. -/

namespace Sys2Proof.Machine

theorem State.onDsp_keeps (f : Dsp → Dsp) (s : State) :
    Keeps [.dsp] s (State.onDsp f s) := by
  unfold State.onDsp
  exact Keeps.after (Keeps.dsp ..) ((.refl _ _)) rfl

theorem State.onSched_keeps (c : Nat) (f : Sched1 → Sched1) (s : State) :
    Keeps [.dsp] s (State.onSched c f s) := by
  unfold State.onSched
  exact Keeps.after (State.onDsp_keeps ..) ((.refl _ _)) rfl

end Sys2Proof.Machine
end

