-- ==== Sys2Proof/Laws/Dispatching.lean ====
section
/-! SUPPORT. The laws of the operations of Machine/Dispatching.lean: which fields of the state each may change. -/

namespace Sys2Proof.Machine

theorem State.toGroup_keeps (m : Msg) (s : State) :
    Keeps [.fab] s (State.toGroup m s) := by
  unfold State.toGroup
  exact Keeps.after (State.send_keeps ..) ((.refl _ _)) rfl

theorem State.dspAnswer_keeps (type : Nat) (id : Nat) (car : Nat) (reason : Nat) (s : State) :
    Keeps [.fab] s (State.dspAnswer type id car reason s) := by
  unfold State.dspAnswer
  exact Keeps.after (State.toGroup_keeps ..) ((.refl _ _)) rfl

theorem State.addStop_keeps (c : Nat) (x : Stop) (s : State) :
    Keeps [.dsp] s (State.addStop c x s) := by
  unfold State.addStop
  exact Keeps.after (State.onSched_keeps ..) ((.refl _ _)) rfl

theorem State.carCall_keeps (c : Nat) (l : Option Nat) (side : Nat) (s : State) :
    Keeps [.doors, .dsp] s (State.carCall c l side s) := by
  unfold State.carCall
  split
  · exact (.refl _ _)
  · exact Keeps.ite ((.refl _ _))
      (Keeps.ite (Keeps.after (State.askDoors_keeps ..) ((.refl _ _)) rfl)
        (Keeps.ite ((.refl _ _))
          (Keeps.after (State.addStop_keeps ..) ((.refl _ _)) rfl)))

theorem State.releaseCar_keeps (c : Nat) (reason : Nat) (s : State) :
    Keeps [.dsp, .fab, .led] s (State.releaseCar c reason s) := by
  unfold State.releaseCar
  extract_lets -underBinder +onlyGivenNames -merge a1 s2
  refine .viaKeeps (x := s2) (Keeps.after (State.onSched_keeps ..) ((.refl _ _)) rfl) fun h3 => ?_
  try clear_value s2
  exact Keeps.foldl (fun _ _ h4 =>
      Keeps.after (State.raise_keeps ..) (Keeps.after (State.dspAnswer_keeps ..) (Keeps.after (State.onDsp_keeps ..) h4 rfl) rfl) rfl)
      h3 _

theorem State.releaseOrders_keeps (reason : Nat) (s : State) :
    Keeps [.dsp, .fab, .led] s (State.releaseOrders reason s) := by
  unfold State.releaseOrders
  extract_lets -underBinder +onlyGivenNames -merge a1
  exact Keeps.foldl (fun _ _ h2 =>
      Keeps.after (State.raise_keeps ..) (Keeps.after (State.dspAnswer_keeps ..) (Keeps.after (State.onDsp_keeps ..) h2 rfl) rfl) rfl)
      (Keeps.after (State.onDsp_keeps ..) ((.refl _ _)) rfl) _

theorem State.onCall_keeps (id : Nat) (f : CollCall → CollCall) (s : State) :
    Keeps [.dsp] s (State.onCall id f s) := by
  unfold State.onCall
  exact Keeps.after (State.onDsp_keeps ..) ((.refl _ _)) rfl

theorem State.openRound_keeps (id : Nat) (attempt : Nat) (s : State) :
    Keeps [.dsp, .fab] s (State.openRound id attempt s) := by
  unfold State.openRound
  extract_lets -underBinder +onlyGivenNames -merge a1 s2
  refine .viaKeeps (x := s2) (Keeps.after (State.onCall_keeps ..) ((.refl _ _)) rfl) fun h3 => ?_
  try clear_value s2
  extract_lets -underBinder +onlyGivenNames -merge s4
  refine .viaKeeps (x := s4) (Keeps.after (State.onDsp_keeps ..) h3 rfl) fun h5 => ?_
  try clear_value s4
  split
  · exact Keeps.after (State.toGroup_keeps ..) h5 rfl
  · exact h5

theorem State.newCall_keeps (k : Call) (s : State) :
    Keeps [.dsp, .fab] s (State.newCall k s) := by
  unfold State.newCall
  extract_lets -underBinder +onlyGivenNames -merge a1 s2
  refine .viaKeeps (x := s2) (Keeps.after (State.onDsp_keeps ..) ((.refl _ _)) rfl) fun h3 => ?_
  try clear_value s2
  exact Keeps.after (State.openRound_keeps ..) h3 rfl

theorem State.endCall_keeps (id : Nat) (s : State) :
    Keeps [.dsp, .fab] s (State.endCall id s) := by
  unfold State.endCall
  extract_lets -underBinder +onlyGivenNames -merge s1
  refine .viaKeeps (x := s1) (Keeps.after (State.onDsp_keeps ..) ((.refl _ _)) rfl) fun h2 => ?_
  try clear_value s1
  split
  · exact Keeps.ite (Keeps.after (State.newCall_keeps ..) (Keeps.after (State.onDsp_keeps ..) h2 rfl) rfl)
      h2
  · exact h2

theorem State.reopen_keeps (x : CollCall) (s : State) :
    Keeps [.dsp, .fab, .led] s (State.reopen x s) := by
  unfold State.reopen
  extract_lets -underBinder +onlyGivenNames -merge a1 s2
  refine .viaKeeps (x := s2) (Keeps.after (State.onCall_keeps ..) ((.refl _ _)) rfl) fun h3 => ?_
  try clear_value s2
  extract_lets -underBinder +onlyGivenNames -merge s4
  refine .viaKeeps (x := s4) (Keeps.ite (Keeps.after (State.raise_keeps ..) (Keeps.after (State.onDsp_keeps ..) h3 rfl) rfl)
      h3) fun h5 => ?_
  try clear_value s4
  exact Keeps.after (State.openRound_keeps ..) h5 rfl

theorem State.assignNext_keeps (id : Nat) (n : Nat) (s : State) :
    Keeps [.dsp, .fab] s (State.assignNext id n s) := by
  unfold State.assignNext
  split
  · exact (.refl _ _)
  · split
    · exact Keeps.after (State.onCall_keeps ..) ((.refl _ _)) rfl
    · exact Keeps.after (State.toGroup_keeps ..) (Keeps.after (State.onCall_keeps ..) ((.refl _ _)) rfl) rfl

theorem State.declined_keeps (x : CollCall) (reason : Nat) (s : State) :
    Keeps [.dsp, .fab, .led] s (State.declined x reason s) := by
  unfold State.declined
  extract_lets -underBinder +onlyGivenNames -merge a1
  exact Keeps.after (State.assignNext_keeps ..) (Keeps.after (State.raise_keeps ..) ((.refl _ _)) rfl) rfl

theorem State.takeCall_keeps (k : Call) (s : State) :
    Keeps [.doors, .dsp, .fab] s (State.takeCall k s) := by
  unfold State.takeCall
  exact Keeps.ite (Keeps.ite ((.refl _ _))
      (Keeps.after (State.carCall_keeps ..) ((.refl _ _)) rfl))
    (Keeps.ite ((.refl _ _))
      (Keeps.ite (Keeps.after (State.send_keeps ..) ((.refl _ _)) rfl)
        (by
          split
          · split
            · exact Keeps.after (State.send_keeps ..) ((.refl _ _)) rfl
            · exact Keeps.after (State.send_keeps ..) ((.refl _ _)) rfl
            · exact Keeps.after (State.send_keeps ..) ((.refl _ _)) rfl
          · exact Keeps.ite (Keeps.after (State.onDsp_keeps ..) ((.refl _ _)) rfl)
              (Keeps.after (State.newCall_keeps ..) ((.refl _ _)) rfl))))

theorem State.answered_keeps (ok : Asked → Bool) (s : State) :
    Keeps [.dsp] s (State.answered ok s) := by
  unfold State.answered
  exact Keeps.after (State.onDsp_keeps ..) ((.refl _ _)) rfl

theorem State.formBids_keeps (id : Nat) (s : State) :
    Keeps [.dsp] s (State.formBids id s) := by
  unfold State.formBids
  exact Keeps.after (State.onDsp_keeps ..) ((.refl _ _)) rfl

theorem State.takeOpen_keeps (o : DspOpen) (s : State) :
    Keeps [.disp, .dsp] s (State.takeOpen o s) := by
  unfold State.takeOpen
  extract_lets -underBinder +onlyGivenNames -merge a1
  exact Keeps.ite ((.refl _ _))
      (by
        extract_lets -underBinder +onlyGivenNames -merge s2
        refine .viaKeeps (x := s2) (Keeps.after (State.answered_keeps ..) ((.refl _ _)) rfl) fun h3 => ?_
        try clear_value s2
        extract_lets -underBinder +onlyGivenNames -merge a4
        exact Keeps.ite h3
            (by
              extract_lets -underBinder +onlyGivenNames -merge s5
              refine .viaKeeps (x := s5) (Keeps.ite h3
                  (Keeps.after (State.onDsp_keeps ..) h3 rfl)) fun h6 => ?_
              try clear_value s5
              extract_lets -underBinder +onlyGivenNames -merge s7
              refine .viaKeeps (x := s7) (Keeps.after (State.onDsp_keeps ..) h6 rfl) fun h8 => ?_
              try clear_value s7
              split
              · exact Keeps.after (State.fabArrive_keeps ..) h8 rfl
              · exact Keeps.after (State.formBids_keeps ..) h8 rfl))

theorem State.bidsUp_keeps (id : Nat) (collector : Nat) (merged : Nat) (l : List Bid) (s : State) :
    Keeps [.dsp, .fab] s (State.bidsUp id collector merged l s) := by
  unfold State.bidsUp
  exact Keeps.ite ((.refl _ _))
    (Keeps.ite (Keeps.after (State.onDsp_keeps ..) ((.refl _ _)) rfl)
      (Keeps.ite (Keeps.foldl (fun _ _ h1 =>
          Keeps.after (State.send_keeps ..) h1 rfl)
          ((.refl _ _)) _)
        (Keeps.after (State.send_keeps ..) ((.refl _ _)) rfl)))

theorem State.takeBids_keeps (id : Nat) (merged : Nat) (l : List Bid) (s : State) :
    Keeps [.dsp, .fab, .led] s (State.takeBids id merged l s) := by
  unfold State.takeBids
  exact Keeps.ite (Keeps.ite (Keeps.after (State.bidsUp_keeps ..) ((.refl _ _)) rfl)
      ((.refl _ _)))
    (by
      extract_lets -underBinder +onlyGivenNames -merge a1
      refine .viaP (fun W => ∀ b0 b1, Keeps W s b1 → Keeps W s (a1 b0 b1)) (fun _ _ h2 =>
        Keeps.foldl (fun _ _ h4 =>
          Keeps.after (State.raise_keeps ..) (Keeps.after (State.onDsp_keeps ..) h4 rfl) rfl)
          h2 _) fun h3 => ?_
      try clear_value a1
      split
      · exact Keeps.ite (Keeps.after (State.onCall_keeps ..) ((.refl _ _)) rfl)
          (h3 _ _ ((.refl _ _)))
      · exact h3 _ _ ((.refl _ _)))

theorem State.acceptCall_keeps (k : Call) (car : Nat) (s : State) :
    Keeps [.dsp, .fab] s (State.acceptCall k car s) := by
  unfold State.acceptCall
  extract_lets -underBinder +onlyGivenNames -merge s1
  refine .viaKeeps (x := s1) (Keeps.after (State.onDsp_keeps ..) ((.refl _ _)) rfl) fun h2 => ?_
  try clear_value s1
  extract_lets -underBinder +onlyGivenNames -merge s3
  refine .viaKeeps (x := s3) (Keeps.ite (Keeps.after (State.onDsp_keeps ..) h2 rfl)
      (by
        split
        · exact Keeps.after (State.addStop_keeps ..) h2 rfl
        · exact h2)) fun h4 => ?_
  try clear_value s3
  exact Keeps.after (State.dspAnswer_keeps ..) h4 rfl

theorem State.takeAssign_keeps (id : Nat) (unit : Nat) (car : Nat) (s : State) :
    Keeps [.dsp, .fab] s (State.takeAssign id unit car s) := by
  unfold State.takeAssign
  extract_lets -underBinder +onlyGivenNames -merge a1 s2
  refine .viaKeeps (x := s2) (by
      dsimp -zeta only [s2]
      clear_value a1
      split
      · exact Keeps.after (State.answered_keeps ..) ((.refl _ _)) rfl
      · exact (.refl _ _)) fun h3 => ?_
  try clear_value s2
  exact Keeps.ite h3
      (by
        extract_lets -underBinder +onlyGivenNames -merge a4
        refine .viaP (fun W => ∀ b0 b1, Keeps W s b1 → Keeps W s (a4 b0 b1)) (fun _ _ h5 =>
          Keeps.after (State.dspAnswer_keeps ..) (Keeps.after (State.onDsp_keeps ..) h5 rfl) rfl) fun h6 => ?_
        try clear_value a4
        clear_value a1
        split
        · exact h6 _ _ h3
        · exact Keeps.ite (Keeps.after (State.dspAnswer_keeps ..) h3 rfl)
            (Keeps.ite (h6 _ _ h3)
              (Keeps.ite (h6 _ _ h3)
                (Keeps.after (State.acceptCall_keeps ..) h3 rfl))))

theorem State.forgetCall_keeps (id : Nat) (s : State) :
    Keeps [.dsp] s (State.forgetCall id s) := by
  unfold State.forgetCall
  exact Keeps.after (State.onDsp_keeps ..) ((.refl _ _)) rfl

theorem State.takeAnswer_keeps (type : Nat) (id : Nat) (unit : Nat) (car : Nat) (reason : Nat) (s : State) :
    Keeps [.dsp, .fab, .led] s (State.takeAnswer type id unit car reason s) := by
  unfold State.takeAnswer
  split
  · exact Keeps.ite (Keeps.after (State.forgetCall_keeps ..) ((.refl _ _)) rfl)
      ((.refl _ _))
  · extract_lets -underBinder +onlyGivenNames -merge a1
    split
    · exact Keeps.ite (Keeps.after (State.onCall_keeps ..) ((.refl _ _)) rfl)
        ((.refl _ _))
    · exact Keeps.ite (Keeps.after (State.declined_keeps ..) ((.refl _ _)) rfl)
        ((.refl _ _))
    · exact Keeps.after (State.forgetCall_keeps ..) (Keeps.after (State.endCall_keeps ..) ((.refl _ _)) rfl) rfl
    · exact Keeps.after (State.reopen_keeps ..) ((.refl _ _)) rfl
    · exact (.refl _ _)

theorem State.takeCancel_keeps (id : Nat) (requester : Nat) (s : State) :
    Keeps [.dsp, .fab] s (State.takeCancel id requester s) := by
  unfold State.takeCancel
  exact Keeps.ite (Keeps.ite (Keeps.after (State.onDsp_keeps ..) ((.refl _ _)) rfl)
      ((.refl _ _)))
    (by
      extract_lets -underBinder +onlyGivenNames -merge s1
      refine .viaKeeps (x := s1) (Keeps.after (State.forgetCall_keeps ..) (Keeps.after (State.endCall_keeps ..) ((.refl _ _)) rfl) rfl) fun h2 => ?_
      try clear_value s1
      exact Keeps.after (State.onDsp_keeps ..) h2 rfl)

theorem State.askCall_keeps (k : Call) (s : State) :
    Keeps [.dsp, .fab] s (State.askCall k s) := by
  unfold State.askCall
  extract_lets -underBinder +onlyGivenNames -merge a1
  exact Keeps.after (State.send_keeps ..) (Keeps.after (State.onDsp_keeps ..) ((.refl _ _)) rfl) rfl

theorem State.buttons_keeps (s : State) :
    Keeps [.doors, .dsp, .fab] s (State.buttons s) := by
  unfold State.buttons
  exact Keeps.eachIx (fun _ _ h1 =>
    by
      extract_lets -underBinder +onlyGivenNames -merge a2
      exact Keeps.ite h1
          (by
            extract_lets -underBinder +onlyGivenNames -merge a3 a4
            exact Keeps.ite (Keeps.ite (Keeps.after (State.carCall_keeps ..) h1 rfl)
                  h1)
                (Keeps.ite h1
                  (Keeps.after (State.askCall_keeps ..) h1 rfl))))
    ((.refl _ _))

theorem State.schedArrive_keeps (c : Nat) (l : Nat) (s : State) :
    Keeps [.doors, .dsp, .fab] s (State.schedArrive c l s) := by
  unfold State.schedArrive
  extract_lets -underBinder +onlyGivenNames -merge a1 a2 a3 a4 a5 s6
  refine .viaKeeps (x := s6) (Keeps.after (State.onSched_keeps ..) ((.refl _ _)) rfl) fun h7 => ?_
  try clear_value s6
  extract_lets -underBinder +onlyGivenNames -merge s8
  refine .viaKeeps (x := s8) (Keeps.after (State.askDoors_keeps ..) h7 rfl) fun h9 => ?_
  try clear_value s8
  exact Keeps.foldl (fun _ _ h10 =>
      Keeps.after (State.dspAnswer_keeps ..) h10 rfl)
      h9 _

theorem State.schedCar_keeps (c : Nat) (s : State) :
    Keeps [.cars, .doors, .dsp, .fab] s (State.schedCar c s) := by
  unfold State.schedCar
  extract_lets -underBinder +onlyGivenNames -merge a1 s2
  refine .viaKeeps (x := s2) (by
      dsimp -zeta only [s2]
      split
      · exact Keeps.ite (Keeps.after (State.schedArrive_keeps ..) ((.refl _ _)) rfl)
          ((.refl _ _))
      · exact (.refl _ _)) fun h3 => ?_
  try clear_value s2
  extract_lets -underBinder +onlyGivenNames -merge s4
  refine .viaKeeps (x := s4) (Keeps.after (State.onSched_keeps ..) h3 rfl) fun h5 => ?_
  try clear_value s4
  extract_lets -underBinder +onlyGivenNames -merge a6
  split
  · extract_lets -underBinder +onlyGivenNames -merge a7
    refine .viaP (fun W => ∀ b0, Keeps W s b0 → Keeps W s (a7 b0)) (fun _ h8 =>
      Keeps.after (State.onCar_keeps ..) (Keeps.after (State.onSched_keeps ..) h8 rfl) rfl) fun h9 => ?_
    try clear_value a7
    exact Keeps.ite (by
          extract_lets -underBinder +onlyGivenNames -merge a10 a11
          exact Keeps.ite (h9 _ h5)
              h5)
        (Keeps.ite h5
          (h9 _ h5))
  · extract_lets -underBinder +onlyGivenNames -merge s12
    refine .viaKeeps (x := s12) (Keeps.ite (Keeps.after (State.onCar_keeps ..) h5 rfl)
        h5) fun h13 => ?_
    try clear_value s12
    exact Keeps.after (State.onSched_keeps ..) h13 rfl

theorem State.serveOrder_keeps (s : State) :
    Keeps [.cars, .doors, .dsp, .fab] s (State.serveOrder s) := by
  unfold State.serveOrder
  split
  · exact (.refl _ _)
  · extract_lets -underBinder +onlyGivenNames -merge a1
    refine .viaP (fun W => ∀ b0 b1, Keeps W s b1 → Keeps W s (a1 b0 b1)) (fun _ _ h2 =>
      Keeps.after (State.onDsp_keeps ..) h2 rfl) fun h3 => ?_
    try clear_value a1
    exact Keeps.ite (by
          extract_lets -underBinder +onlyGivenNames -merge a4
          exact Keeps.ite (h3 _ _ ((.refl _ _)))
              (Keeps.foldl (fun _ _ h5 =>
                Keeps.ite h5
                  (Keeps.after (State.onCar_keeps ..) h5 rfl))
                ((.refl _ _)) _))
        (by
          extract_lets -underBinder +onlyGivenNames -merge a6 a7
          exact Keeps.ite (h3 _ _ ((.refl _ _)))
              (Keeps.ite (Keeps.after (State.dspAnswer_keeps ..) (Keeps.after (State.onDsp_keeps ..) ((.refl _ _)) rfl) rfl)
                (Keeps.ite (Keeps.ite (h3 _ _ ((.refl _ _)))
                    (Keeps.foldl (fun _ _ h8 =>
                      Keeps.after (State.onDoor_keeps ..) h8 rfl)
                      ((.refl _ _)) _))
                  (Keeps.ite ((.refl _ _))
                    (Keeps.ite (h3 _ _ ((.refl _ _)))
                      (Keeps.after (State.dspAnswer_keeps ..) (Keeps.after (State.onDsp_keeps ..) ((.refl _ _)) rfl) rfl))))))

theorem State.lastStop_keeps (c : Nat) (s : State) :
    Keeps [.cars, .doors, .dsp, .fab] s (State.lastStop c s) := by
  unfold State.lastStop
  split
  · extract_lets -underBinder +onlyGivenNames -merge a1
    exact Keeps.after (State.onCar_keeps ..) ((.refl _ _)) rfl
  · exact Keeps.ite ((.refl _ _))
      (Keeps.after (State.schedArrive_keeps ..) ((.refl _ _)) rfl)
  · exact (.refl _ _)

theorem State.withdrawCar_keeps (c : Nat) (s : State) :
    Keeps [.cars, .doors, .dsp, .fab, .led] s (State.withdrawCar c s) := by
  unfold State.withdrawCar
  extract_lets -underBinder +onlyGivenNames -merge a1
  exact Keeps.ite ((.refl _ _))
      (by
        extract_lets -underBinder +onlyGivenNames -merge s2
        refine .viaKeeps (x := s2) (Keeps.after (State.onSched_keeps ..) ((.refl _ _)) rfl) fun h3 => ?_
        try clear_value s2
        extract_lets -underBinder +onlyGivenNames -merge s4
        refine .viaKeeps (x := s4) (Keeps.ite h3
            (Keeps.after (State.raise_keeps ..) h3 rfl)) fun h5 => ?_
        try clear_value s4
        exact Keeps.ite h5
            (by
              extract_lets -underBinder +onlyGivenNames -merge s6
              refine .viaKeeps (x := s6) (Keeps.after (State.releaseCar_keeps ..) (Keeps.after (State.lastStop_keeps ..) h5 rfl) rfl) fun h7 => ?_
              try clear_value s6
              exact Keeps.ite (Keeps.after (State.releaseOrders_keeps ..) h7 rfl)
                  h7))

theorem State.withdrawUnit_keeps (s : State) :
    Keeps [.dsp, .fab, .led] s (State.withdrawUnit s) := by
  unfold State.withdrawUnit
  extract_lets -underBinder +onlyGivenNames -merge a1
  exact Keeps.ite ((.refl _ _))
      (by
        extract_lets -underBinder +onlyGivenNames -merge s2
        refine .viaKeeps (x := s2) (Keeps.after (State.onDsp_keeps ..) ((.refl _ _)) rfl) fun h3 => ?_
        try clear_value s2
        extract_lets -underBinder +onlyGivenNames -merge s4
        refine .viaKeeps (x := s4) (Keeps.ite h3
            (Keeps.after (State.raise_keeps ..) h3 rfl)) fun h5 => ?_
        try clear_value s4
        exact Keeps.ite (Keeps.after (State.releaseOrders_keeps ..) (Keeps.eachIx (fun _ _ h6 =>
                Keeps.after (State.releaseCar_keeps ..) h6 rfl)
                h5) rfl)
            h5)

theorem State.dispatchKernel_keeps (s : State) :
    Keeps [.cars, .doors, .dsp, .fab, .led] s (State.dispatchKernel s) := by
  unfold State.dispatchKernel
  extract_lets -underBinder +onlyGivenNames -merge s1
  refine .viaKeeps (x := s1) (Keeps.eachIx (fun _ _ h2 =>
      Keeps.after (State.withdrawCar_keeps ..) h2 rfl)
      (Keeps.after (State.withdrawUnit_keeps ..) ((.refl _ _)) rfl)) fun h3 => ?_
  try clear_value s1
  exact Keeps.ite h3
      (by
        extract_lets -underBinder +onlyGivenNames -merge s4
        refine .viaKeeps (x := s4) (Keeps.after (State.buttons_keeps ..) h3 rfl) fun h5 => ?_
        try clear_value s4
        exact Keeps.ite (Keeps.ite (Keeps.after (State.serveOrder_keeps ..) h5 rfl)
              h5)
            (Keeps.ite (Keeps.eachIx (fun _ _ h6 =>
                Keeps.ite (Keeps.after (State.schedCar_keeps ..) h6 rfl)
                  h6)
                h5)
              h5))

theorem State.heldBoundary_keeps (s : State) :
    Keeps [.dsp, .led] s (State.heldBoundary s) := by
  unfold State.heldBoundary
  extract_lets -underBinder +onlyGivenNames -merge a1
  exact Keeps.ite ((.refl _ _))
      (by
        extract_lets -underBinder +onlyGivenNames -merge s2
        refine .viaKeeps (x := s2) (Keeps.after (State.onDsp_keeps ..) ((.refl _ _)) rfl) fun h3 => ?_
        try clear_value s2
        extract_lets -underBinder +onlyGivenNames -merge a4
        exact Keeps.ite h3
            (Keeps.after (State.raise_keeps ..) (Keeps.after (State.onDsp_keeps ..) h3 rfl) rfl))

theorem execDspCall_keeps (t : Nat) (call : Call) (s : State) :
    Runs [.doors, .dsp, .fab] s (execDspCall t call s) := by
  unfold execDspCall
  exact Runs.next (Keeps.after (State.takeCall_keeps ..) (Keeps.after (State.tick_keeps ..) ((.refl _ _)) rfl) rfl)

theorem execDspOpen_keeps (t : Nat) (o : DspOpen) (s : State) :
    Runs [.disp, .dsp] s (execDspOpen t o s) := by
  unfold execDspOpen
  exact Runs.next (Keeps.after (State.takeOpen_keeps ..) (Keeps.after (State.tick_keeps ..) ((.refl _ _)) rfl) rfl)

theorem execBidSend_keeps (t : Nat) (callId : Nat) (s : State) :
    Runs [.dsp, .fab] s (execBidSend t callId s) := by
  unfold execBidSend
  extract_lets -underBinder +onlyGivenNames -merge s1
  refine .viaKeeps (x := s1) (Keeps.after (State.tick_keeps ..) ((.refl _ _)) rfl) fun h2 => ?_
  try clear_value s1
  split
  · exact Runs.next h2
  · exact Runs.ite (by
        extract_lets -underBinder +onlyGivenNames -merge s3
        refine .viaKeeps (x := s3) (Keeps.after (State.onDsp_keeps ..) h2 rfl) fun h4 => ?_
        try clear_value s3
        exact Runs.next (Keeps.after (State.bidsUp_keeps ..) h4 rfl))
      (Runs.next h2)

theorem execDspBid_keeps (t : Nat) (callId : Nat) (merged : Nat) (bids : List Bid) (s : State) :
    Runs [.dsp, .fab, .led] s (execDspBid t callId merged bids s) := by
  unfold execDspBid
  exact Runs.next (Keeps.after (State.takeBids_keeps ..) (Keeps.after (State.tick_keeps ..) ((.refl _ _)) rfl) rfl)

theorem execWaystationForward_keeps (t : Nat) (callId : Nat) (s : State) :
    Runs [.dsp, .fab] s (execWaystationForward t callId s) := by
  unfold execWaystationForward
  extract_lets -underBinder +onlyGivenNames -merge s1
  refine .viaKeeps (x := s1) (Keeps.after (State.tick_keeps ..) ((.refl _ _)) rfl) fun h2 => ?_
  try clear_value s1
  split
  · exact Runs.next h2
  · extract_lets -underBinder +onlyGivenNames -merge a3
    exact Runs.ite (by
          extract_lets -underBinder +onlyGivenNames -merge s4
          refine .viaKeeps (x := s4) (Keeps.after (State.onDsp_keeps ..) h2 rfl) fun h5 => ?_
          try clear_value s4
          exact Runs.ite (Runs.next h5)
              (Runs.next (Keeps.after (State.send_keeps ..) h5 rfl)))
        (Runs.next h2)

theorem execBidRoundClose_keeps (t : Nat) (callId : Nat) (s : State) :
    Runs [.dsp, .fab, .led] s (execBidRoundClose t callId s) := by
  unfold execBidRoundClose
  extract_lets -underBinder +onlyGivenNames -merge s1
  refine .viaKeeps (x := s1) (Keeps.after (State.tick_keeps ..) ((.refl _ _)) rfl) fun h2 => ?_
  try clear_value s1
  split
  · exact Runs.next h2
  · exact Runs.ite (Runs.next h2)
      (by
        extract_lets -underBinder +onlyGivenNames -merge s3
        refine .viaKeeps (x := s3) (Keeps.after (State.assignNext_keeps ..) (Keeps.after (State.onCall_keeps ..) h2 rfl) rfl) fun h4 => ?_
        try clear_value s3
        split
        · exact Runs.next h4
        · exact Runs.next (Keeps.after (State.raise_keeps ..) h4 rfl))

theorem execDspAssign_keeps (t : Nat) (callId : Nat) (unit : Nat) (car : Nat) (attempt : Nat) (cost : Nat) (s : State) :
    Runs [.dsp, .fab] s (execDspAssign t callId unit car attempt cost s) := by
  unfold execDspAssign
  extract_lets -underBinder +onlyGivenNames -merge a1
  exact Runs.next (Keeps.after (State.takeAssign_keeps ..) (Keeps.after (State.tick_keeps ..) ((.refl _ _)) rfl) rfl)

theorem execDspAccept_keeps (t : Nat) (callId : Nat) (unit : Nat) (car : Nat) (s : State) :
    Runs [.dsp, .fab, .led] s (execDspAccept t callId unit car s) := by
  unfold execDspAccept
  exact Runs.next (Keeps.after (State.takeAnswer_keeps ..) (Keeps.after (State.tick_keeps ..) ((.refl _ _)) rfl) rfl)

theorem execDspDecline_keeps (t : Nat) (callId : Nat) (unit : Nat) (car : Nat) (reason : Nat) (s : State) :
    Runs [.dsp, .fab, .led] s (execDspDecline t callId unit car reason s) := by
  unfold execDspDecline
  exact Runs.next (Keeps.after (State.takeAnswer_keeps ..) (Keeps.after (State.tick_keeps ..) ((.refl _ _)) rfl) rfl)

theorem execAcceptTimeout_keeps (t : Nat) (callId : Nat) (s : State) :
    Runs [.dsp, .fab, .led] s (execAcceptTimeout t callId s) := by
  unfold execAcceptTimeout
  extract_lets -underBinder +onlyGivenNames -merge s1
  refine .viaKeeps (x := s1) (Keeps.after (State.tick_keeps ..) ((.refl _ _)) rfl) fun h2 => ?_
  try clear_value s1
  split
  · exact Runs.ite (Runs.next (Keeps.after (State.declined_keeps ..) h2 rfl))
      (Runs.next h2)
  · exact Runs.next h2

theorem execCallReopen_keeps (t : Nat) (callId : Nat) (s : State) :
    Runs [.dsp, .fab, .led] s (execCallReopen t callId s) := by
  unfold execCallReopen
  extract_lets -underBinder +onlyGivenNames -merge s1
  refine .viaKeeps (x := s1) (Keeps.after (State.tick_keeps ..) ((.refl _ _)) rfl) fun h2 => ?_
  try clear_value s1
  split
  · exact Runs.ite (Runs.next (Keeps.after (State.reopen_keeps ..) h2 rfl))
      (Runs.next h2)
  · exact Runs.next h2

theorem execCollectorSwitch_keeps (t : Nat) (req : Nat) (s : State) :
    Runs [.dsp, .fab, .led] s (execCollectorSwitch t req s) := by
  unfold execCollectorSwitch
  extract_lets -underBinder +onlyGivenNames -merge s1
  refine .viaKeeps (x := s1) (Keeps.after (State.tick_keeps ..) ((.refl _ _)) rfl) fun h2 => ?_
  try clear_value s1
  extract_lets -underBinder +onlyGivenNames -merge a3
  split
  · exact Runs.next h2
  · exact Runs.ite (Runs.next h2)
      (by
        extract_lets -underBinder +onlyGivenNames -merge s4
        refine .viaKeeps (x := s4) (Keeps.after (State.onDsp_keeps ..) h2 rfl) fun h5 => ?_
        try clear_value s4
        exact Runs.next (Keeps.after (State.raise_keeps ..) (Keeps.after (State.send_keeps ..) h5 rfl) rfl))

theorem execDspDone_keeps (t : Nat) (callId : Nat) (unit : Nat) (car : Nat) (s : State) :
    Runs [.dsp, .fab, .led] s (execDspDone t callId unit car s) := by
  unfold execDspDone
  exact Runs.next (Keeps.after (State.takeAnswer_keeps ..) (Keeps.after (State.tick_keeps ..) ((.refl _ _)) rfl) rfl)

theorem execDspRelease_keeps (t : Nat) (callId : Nat) (unit : Nat) (car : Nat) (reason : Nat) (s : State) :
    Runs [.dsp, .fab, .led] s (execDspRelease t callId unit car reason s) := by
  unfold execDspRelease
  exact Runs.next (Keeps.after (State.takeAnswer_keeps ..) (Keeps.after (State.tick_keeps ..) ((.refl _ _)) rfl) rfl)

theorem execDspCancel_keeps (t : Nat) (callId : Nat) (requester : Nat) (s : State) :
    Runs [.dsp, .fab] s (execDspCancel t callId requester s) := by
  unfold execDspCancel
  exact Runs.next (Keeps.after (State.takeCancel_keeps ..) (Keeps.after (State.tick_keeps ..) ((.refl _ _)) rfl) rfl)

end Sys2Proof.Machine
end

