-- ==== Sys2Proof/Laws/SafeCon.lean ====
section
/-! SUPPORT. The laws of the operations of Machine/SafeCon.lean: which fields of the state each may change. -/

namespace Sys2Proof.Machine

theorem State.onCon_keeps (k : Nat) (f : SafeCon → SafeCon) (s : State) :
    Keeps [.cons] s (State.onCon k f s) := by
  unfold State.onCon
  exact Keeps.after (Keeps.cons ..) ((.refl _ _)) rfl

theorem State.onXd_keeps (a : Nat) (f : Xd → Xd) (s : State) :
    Keeps [.xd] s (State.onXd a f s) := by
  unfold State.onXd
  exact Keeps.after (Keeps.xd ..) ((.refl _ _)) rfl

theorem State.conProduce_keeps (k : Nat) (s : State) :
    Keeps [.fab, .cons, .twin] s (State.conProduce k s) := by
  unfold State.conProduce
  exact Keeps.ite ((.refl _ _))
    (by
      extract_lets -underBinder +onlyGivenNames -merge a1 a2 a3 a4 a5 a6 s7
      refine .viaKeeps (x := s7) (Keeps.after (State.onCon_keeps ..) ((.refl _ _)) rfl) fun h8 => ?_
      try clear_value s7
      exact Keeps.after (State.sendPair_keeps ..) h8 rfl)

theorem State.conEv_keeps (k : Nat) (cause : Nat) (scount : Nat) (s : State) :
    Keeps [.led] s (State.conEv k cause scount s) := by
  unfold State.conEv
  exact Keeps.after (State.raise_keeps ..) ((.refl _ _)) rfl

theorem State.takePdu_keeps (src : Nat) (boot : Nat) (conn : Nat) (scount : Nat) (ts : Nat) (flags : Nat) (data : Nat) (x : Nat) (s : State) :
    Keeps [.cons, .led] s (State.takePdu src boot conn scount ts flags data x s) := by
  unfold State.takePdu
  split
  · exact (.refl _ _)
  · extract_lets -underBinder +onlyGivenNames -merge a1
    exact Keeps.ite (Keeps.after (State.conEv_keeps ..) (Keeps.after (State.onCon_keeps ..) ((.refl _ _)) rfl) rfl)
        (by
          extract_lets -underBinder +onlyGivenNames -merge a2 a3 s4
          refine .viaKeeps (x := s4) (Keeps.after (State.onCon_keeps ..) ((.refl _ _)) rfl) fun h5 => ?_
          try clear_value s4
          exact Keeps.ite (Keeps.after (State.conEv_keeps ..) h5 rfl)
              h5)

theorem execSafetyPdu_keeps (t : Nat) (src : Nat) (boot : Nat) (conn : Nat) (scount : Nat) (ts : Nat) (flags : Nat) (data : Nat) (crc : Nat) (s : State) :
    Runs [.cons, .led] s (execSafetyPdu t src boot conn scount ts flags data crc s) := by
  unfold execSafetyPdu
  exact Runs.next (Keeps.after (State.takePdu_keeps ..) (Keeps.after (State.tick_keeps ..) ((.refl _ _)) rfl) rfl)

theorem execSafetyWatchdog_keeps (t : Nat) (con : Nat) (s : State) :
    Runs [.cons, .led] s (execSafetyWatchdog t con s) := by
  unfold execSafetyWatchdog
  extract_lets -underBinder +onlyGivenNames -merge s1
  refine .viaKeeps (x := s1) (Keeps.after (State.tick_keeps ..) ((.refl _ _)) rfl) fun h2 => ?_
  try clear_value s1
  extract_lets -underBinder +onlyGivenNames -merge a3
  exact Runs.ite (Runs.next (Keeps.after (State.conEv_keeps ..) (Keeps.after (State.onCon_keeps ..) h2 rfl) rfl))
      (Runs.next h2)

theorem State.conBoundary_keeps (s : State) :
    Keeps [.cons] s (State.conBoundary s) := by
  unfold State.conBoundary
  exact Keeps.after (Keeps.cons ..) ((.refl _ _)) rfl

theorem State.xdSend_keeps (a : Nat) (s : State) :
    Keeps [.fab, .twin] s (State.xdSend a s) := by
  unfold State.xdSend
  extract_lets -underBinder +onlyGivenNames -merge a1
  exact Keeps.ite ((.refl _ _))
      (by
        extract_lets -underBinder +onlyGivenNames -merge a2 a3
        exact Keeps.after (State.sendPair_keeps ..) ((.refl _ _)) rfl)

theorem State.takeXdStatus_keeps (src : Nat) (a : Nat) (state : Nat) (epoch : Nat) (p : Int) (v : Int) (iq : Int) (s : State) :
    Keeps [.xd] s (State.takeXdStatus src a state epoch p v iq s) := by
  unfold State.takeXdStatus
  exact Keeps.ite ((.refl _ _))
    (Keeps.after (State.onXd_keeps ..) ((.refl _ _)) rfl)

theorem execXdStatus_keeps (t : Nat) (src : Nat) (axis : Nat) (state : Nat) (epoch : Nat) (p : Int) (v : Int) (iq : Int) (s : State) :
    Runs [.xd] s (execXdStatus t src axis state epoch p v iq s) := by
  unfold execXdStatus
  exact Runs.next (Keeps.after (State.takeXdStatus_keeps ..) (Keeps.after (State.tick_keeps ..) ((.refl _ _)) rfl) rfl)

theorem State.xdStage_keeps (a : Nat) (s : State) :
    Keeps [.book, .axAt, .safe, .xd, .led] s (State.xdStage a s) := by
  unfold State.xdStage
  exact Keeps.ite ((.refl _ _))
    (by
      extract_lets -underBinder +onlyGivenNames -merge a1 a2 a3 a4 a5 a6 a7 a8 a9 a10 s11
      refine .viaKeeps (x := s11) (Keeps.after (State.onXd_keeps ..) ((.refl _ _)) rfl) fun h12 => ?_
      try clear_value s11
      extract_lets -underBinder +onlyGivenNames -merge s13
      refine .viaKeeps (x := s13) (Keeps.ite (Keeps.after (State.axisFault_keeps ..) (Keeps.after (State.raise_keeps ..) h12 rfl) rfl)
          h12) fun h14 => ?_
      try clear_value s13
      exact Keeps.ite h14
          (by
            extract_lets -underBinder +onlyGivenNames -merge a15 s16
            refine .viaKeeps (x := s16) (Keeps.after (State.onBook_keeps ..) h14 rfl) fun h17 => ?_
            try clear_value s16
            exact Keeps.after (Keeps.axAt ..) h17 rfl))

theorem State.xdConfirm_keeps (a : Nat) (s : State) :
    Keeps [.xd] s (State.xdConfirm a s) := by
  unfold State.xdConfirm
  exact Keeps.ite ((.refl _ _))
    (Keeps.ite (Keeps.after (State.onXd_keeps ..) ((.refl _ _)) rfl)
      (Keeps.after (State.onXd_keeps ..) ((.refl _ _)) rfl))

theorem execXdConfirmTimeout_keeps (t : Nat) (axis : Nat) (s : State) :
    Runs [.xd, .led, .mode] s (execXdConfirmTimeout t axis s) := by
  unfold execXdConfirmTimeout
  extract_lets -underBinder +onlyGivenNames -merge s1
  refine .viaKeeps (x := s1) (Keeps.after (State.tick_keeps ..) ((.refl _ _)) rfl) fun h2 => ?_
  try clear_value s1
  split
  · exact Runs.ite (by
        extract_lets -underBinder +onlyGivenNames -merge a3
        exact Runs.next (Keeps.after (State.haltCause_keeps ..) (Keeps.after (State.conEv_keeps ..) (Keeps.after (State.onXd_keeps ..) h2 rfl) rfl) rfl))
      (Runs.next h2)
  · exact Runs.next h2

end Sys2Proof.Machine
end

