-- ==== Sys2Proof/Laws/Survey.lean ====
section
/-! SUPPORT. The laws of the operations of Machine/Survey.lean: which fields of the state each may change. -/

namespace Sys2Proof.Machine

theorem State.onRun_keeps (a : Nat) (f : Learn → Learn) (s : State) :
    Keeps [.survey] s (State.onRun a f s) := by
  unfold State.onRun
  exact Keeps.after (Keeps.survey ..) ((.refl _ _)) rfl

theorem State.dropRun_keeps (a : Nat) (s : State) :
    Keeps [.survey] s (State.dropRun a s) := by
  unfold State.dropRun
  exact Keeps.after (Keeps.survey ..) ((.refl _ _)) rfl

theorem State.surveyResult_keeps (kind : Nat) (target : Nat) (outcome : Nat) (reason : Nat) (v : Int) (s : State) :
    Keeps [.survey, .led] s (State.surveyResult kind target outcome reason v s) := by
  unfold State.surveyResult
  exact Keeps.after (State.raise_keeps ..) (Keeps.after (Keeps.survey ..) ((.refl _ _)) rfl) rfl

theorem State.surveyAppend_keeps (s : State) :
    Keeps [.survey, .led, .stw] s (State.surveyAppend s) := by
  unfold State.surveyAppend
  exact Keeps.foldl (fun _ _ h1 =>
    Keeps.ite h1
      (by
        split
        next heq =>
        refine .ofP1 heq (Keeps.after (State.journalAppend_keeps ..) h1 rfl) fun h2 => ?_
        exact Keeps.ite h2
          (by
            extract_lets -underBinder +onlyGivenNames -merge a3
            exact Keeps.after (State.surveyResult_keeps ..) (Keeps.after (Keeps.survey ..) h2 rfl) rfl)))
    ((.refl _ _)) _

theorem State.surveyDone_keeps (r : Learn) (cells : List Cell) (s : State) :
    Keeps [.survey, .led, .stw] s (State.surveyDone r cells s) := by
  unfold State.surveyDone
  extract_lets -underBinder +onlyGivenNames -merge s1
  refine .viaKeeps (x := s1) (Keeps.after (State.dropRun_keeps ..) ((.refl _ _)) rfl) fun h2 => ?_
  try clear_value s1
  extract_lets -underBinder +onlyGivenNames -merge a3
  exact Keeps.after (State.surveyAppend_keeps ..) (Keeps.after (Keeps.survey ..) h2 rfl) rfl

theorem State.surveyFail_keeps (r : Learn) (reason : Nat) (v : Int) (s : State) :
    Keeps [.survey, .led] s (State.surveyFail r reason v s) := by
  unfold State.surveyFail
  exact Keeps.after (State.surveyResult_keeps ..) (Keeps.after (State.dropRun_keeps ..) ((.refl _ _)) rfl) rfl

theorem State.surveyAbort_keeps (r : Learn) (s : State) :
    Keeps [.book, .survey, .led] s (State.surveyAbort r s) := by
  unfold State.surveyAbort
  extract_lets -underBinder +onlyGivenNames -merge s1
  refine .viaKeeps (x := s1) (Keeps.after (State.surveyResult_keeps ..) (Keeps.after (State.dropRun_keeps ..) ((.refl _ _)) rfl) rfl) fun h2 => ?_
  try clear_value s1
  exact Keeps.ite (Keeps.after (State.kernelCmd_keeps ..) h2 rfl)
      h2

theorem State.surveyAborts_keeps (s : State) :
    Keeps [.book, .survey, .led] s (State.surveyAborts s) := by
  unfold State.surveyAborts
  extract_lets -underBinder +onlyGivenNames -merge s1
  refine .viaKeeps (x := s1) (Keeps.foldl (fun _ _ h2 =>
      by
        extract_lets -underBinder +onlyGivenNames -merge a3
        exact Keeps.ite (Keeps.after (State.surveyAbort_keeps ..) h2 rfl)
            h2)
      ((.refl _ _)) _) fun h4 => ?_
  try clear_value s1
  exact Keeps.ite h4
      (Keeps.after (Keeps.survey ..) h4 rfl)

theorem State.learnStart_keeps (kind : Nat) (target : Nat) (step : Nat) (s : State) :
    Keeps1 [.survey, .led] s (State.learnStart kind target step s) := by
  unfold State.learnStart
  exact Keeps1.ite (Keeps1.mk ((.refl _ _)))
    (Keeps1.ite (Keeps1.mk ((.refl _ _)))
      (by
        split
        · exact Keeps1.mk (Keeps.after (State.surveyResult_keeps ..) ((.refl _ _)) rfl)
        · exact Keeps1.ite (Keeps1.mk (Keeps.after (State.surveyResult_keeps ..) ((.refl _ _)) rfl))
            (by
              extract_lets -underBinder +onlyGivenNames -merge a1
              exact Keeps1.mk (Keeps.after (Keeps.survey ..) ((.refl _ _)) rfl))))

theorem State.takeLearn_keeps (o : Origin) (kind : Nat) (target : Nat) (step : Nat) (s : State) :
    Keeps [.replies, .survey, .led] s (State.takeLearn o kind target step s) := by
  unfold State.takeLearn
  split
  next heq =>
  refine .ofP1 heq (Keeps.after (State.learnStart_keeps ..) ((.refl _ _)) rfl) fun h1 => ?_
  exact Keeps.after (State.reply_keeps ..) h1 rfl

theorem State.commResult_keeps (r : Learn) (s : State) :
    Keeps [.survey, .led, .stw] s (State.commResult r s) := by
  unfold State.commResult
  extract_lets -underBinder +onlyGivenNames -merge a1 a2 a3 a4 a5 a6
  split
  · exact Keeps.after (State.surveyFail_keeps ..) ((.refl _ _)) rfl
  · exact Keeps.ite (Keeps.after (State.surveyFail_keeps ..) ((.refl _ _)) rfl)
      (Keeps.after (State.surveyDone_keeps ..) ((.refl _ _)) rfl)

theorem execAlignSettle_keeps (t : Nat) (axis : Nat) (s : State) :
    Runs [.survey, .led, .stw] s (execAlignSettle t axis s) := by
  unfold execAlignSettle
  extract_lets -underBinder +onlyGivenNames -merge s1
  refine .viaKeeps (x := s1) (Keeps.after (State.tick_keeps ..) ((.refl _ _)) rfl) fun h2 => ?_
  try clear_value s1
  exact Runs.ite (Runs.next h2)
      (by
        split
        · exact Runs.ite (by
              extract_lets -underBinder +onlyGivenNames -merge a3 a4
              exact Runs.ite (Runs.next (Keeps.after (State.onRun_keeps ..) h2 rfl))
                  (Runs.next (Keeps.after (State.commResult_keeps ..) h2 rfl)))
            (Runs.next h2)
        · exact Runs.next h2)

theorem State.scDone_keeps (r : Learn) (s : State) :
    Keeps [.survey, .led, .stw] s (State.scDone r s) := by
  unfold State.scDone
  exact Keeps.ite (Keeps.after (State.surveyFail_keeps ..) ((.refl _ _)) rfl)
    (by
      split
      · exact Keeps.after (State.surveyFail_keeps ..) ((.refl _ _)) rfl
      · split
        · exact Keeps.after (State.surveyFail_keeps ..) ((.refl _ _)) rfl
        · exact Keeps.after (State.surveyDone_keeps ..) ((.refl _ _)) rfl)

theorem State.scSample_keeps (ch : Nat) (si : Int) (co : Int) (s : State) :
    Keeps [.book, .survey, .led, .stw] s (State.scSample ch si co s) := by
  unfold State.scSample
  split
  · exact (.refl _ _)
  · exact Keeps.ite (Keeps.after (State.surveyAbort_keeps ..) ((.refl _ _)) rfl)
      (by
        extract_lets -underBinder +onlyGivenNames -merge a1
        split
        · exact Keeps.after (State.onRun_keeps ..) ((.refl _ _)) rfl
        · extract_lets -underBinder +onlyGivenNames -merge a2 a3 a4 a5
          exact Keeps.ite (Keeps.after (State.scDone_keeps ..) ((.refl _ _)) rfl)
              (Keeps.ite (Keeps.after (State.onRun_keeps ..) ((.refl _ _)) rfl)
                (Keeps.after (State.onRun_keeps ..) ((.refl _ _)) rfl)))

theorem execSincosSample_keeps (t : Nat) (ch : Nat) (sin : Int) (cos : Int) (s : State) :
    Runs [.freeIx, .fb, .book, .survey, .safe, .led, .stw] s (execSincosSample t ch sin cos s) := by
  unfold execSincosSample
  extract_lets -underBinder +onlyGivenNames -merge s1
  refine .viaKeeps (x := s1) (Keeps.after (State.tick_keeps ..) ((.refl _ _)) rfl) fun h2 => ?_
  try clear_value s1
  exact Runs.ite (Runs.next h2)
      (Runs.ite (Runs.next h2)
        (by
          extract_lets -underBinder +onlyGivenNames -merge a3 a4 a5
          exact Runs.next (Keeps.after (State.scSample_keeps ..) (Keeps.after (State.sinCosTake_keeps ..) h2 rfl) rfl)))

theorem State.learnCmd_keeps (a : Nat) (m : AxCmd) (s : State) :
    Keeps [.book, .survey] s (State.learnCmd a m s) := by
  unfold State.learnCmd
  exact Keeps.after (State.kernelCmd_keeps ..) (Keeps.after (State.onRun_keeps ..) ((.refl _ _)) rfl) rfl

theorem State.learnReady_keeps (r : Learn) (s : State) :
    Keeps1 [.book, .survey] s (State.learnReady r s) := by
  unfold State.learnReady
  split
  next heq =>
  refine .ofP1 heq (Keeps.after (State.readyAxis_keeps ..) ((.refl _ _)) rfl) fun h1 => ?_
  exact Keeps1.mk (Keeps.ite (Keeps.after (State.onRun_keeps ..) h1 rfl)
      h1)

theorem State.zonesDone_keeps (r : Learn) (s : State) :
    Keeps [.survey, .led, .stw] s (State.zonesDone r s) := by
  unfold State.zonesDone
  extract_lets -underBinder +onlyGivenNames -merge a1 a2 a3 a4 a5
  split
  · exact Keeps.after (State.surveyFail_keeps ..) ((.refl _ _)) rfl
  · extract_lets -underBinder +onlyGivenNames -merge a6
    split
    · exact Keeps.after (State.surveyFail_keeps ..) ((.refl _ _)) rfl
    · extract_lets -underBinder +onlyGivenNames -merge a7
      exact Keeps.after (State.surveyDone_keeps ..) ((.refl _ _)) rfl

theorem State.learnZones_keeps (r : Learn) (s : State) :
    Keeps [.book, .survey, .led, .stw] s (State.learnZones r s) := by
  unfold State.learnZones
  extract_lets -underBinder +onlyGivenNames -merge a1 s2
  refine .viaKeeps (x := s2) (Keeps.after (State.onRun_keeps ..) ((.refl _ _)) rfl) fun h3 => ?_
  try clear_value s2
  extract_lets -underBinder +onlyGivenNames -merge a4 a5
  refine .viaP (fun W => ∀ b0 b1, Keeps W s b1 → Keeps W s (a5 b0 b1)) (fun _ _ h6 =>
    Keeps.after (State.learnCmd_keeps ..) (Keeps.after (State.onRun_keeps ..) h6 rfl) rfl) fun h7 => ?_
  try clear_value a5
  exact Keeps.ite (by
        split
        next heq =>
        refine .ofP1 heq (Keeps.after (State.learnReady_keeps ..) h3 rfl) fun h8 => ?_
        exact Keeps.ite (h7 _ _ h8)
          h8)
      (Keeps.ite h3
        (Keeps.ite (h7 _ _ h3)
          (Keeps.ite (h7 _ _ h3)
            (by
              split
              · exact Keeps.after (State.zonesDone_keeps ..) h3 rfl
              · exact h3))))

theorem State.levelDone_keeps (r : Learn) (s : State) :
    Keeps [.survey, .led, .stw] s (State.levelDone r s) := by
  unfold State.levelDone
  extract_lets -underBinder +onlyGivenNames -merge a1
  exact Keeps.ite (by
        extract_lets -underBinder +onlyGivenNames -merge a2 a3
        exact Keeps.after (State.surveyDone_keeps ..) (Keeps.after (Keeps.survey ..) ((.refl _ _)) rfl) rfl)
      (by
        split
        · extract_lets -underBinder +onlyGivenNames -merge a4 a5 a6
          split
          · exact Keeps.after (State.surveyFail_keeps ..) ((.refl _ _)) rfl
          · exact Keeps.after (State.surveyFail_keeps ..) ((.refl _ _)) rfl
          · exact Keeps.after (State.surveyDone_keeps ..) ((.refl _ _)) rfl)

theorem State.learnLevels_keeps (r : Learn) (s : State) :
    Keeps [.book, .survey] s (State.learnLevels r s) := by
  unfold State.learnLevels
  extract_lets -underBinder +onlyGivenNames -merge a1 a2
  exact Keeps.ite (Keeps.after (State.onRun_keeps ..) ((.refl _ _)) rfl)
      (Keeps.ite (by
          split
          next heq =>
          refine .ofP1 heq (Keeps.after (State.learnReady_keeps ..) ((.refl _ _)) rfl) fun h3 => ?_
          exact Keeps.ite h3
            (Keeps.after (State.learnCmd_keeps ..) (Keeps.after (State.onRun_keeps ..) h3 rfl) rfl))
        (Keeps.ite (Keeps.after (State.onRun_keeps ..) ((.refl _ _)) rfl)
          ((.refl _ _))))

theorem execLevelSettle_keeps (t : Nat) (axis : Nat) (s : State) :
    Runs [.survey, .led, .stw] s (execLevelSettle t axis s) := by
  unfold execLevelSettle
  extract_lets -underBinder +onlyGivenNames -merge s1
  refine .viaKeeps (x := s1) (Keeps.after (State.tick_keeps ..) ((.refl _ _)) rfl) fun h2 => ?_
  try clear_value s1
  exact Runs.ite (Runs.next h2)
      (by
        split
        · exact Runs.next h2
        · split
          · exact Runs.next h2
          · exact Runs.ite (Runs.next h2)
              (by
                extract_lets -underBinder +onlyGivenNames -merge a3 a4
                exact Runs.ite (Runs.next (Keeps.after (State.onRun_keeps ..) h2 rfl))
                    (Runs.next (Keeps.after (State.levelDone_keeps ..) h2 rfl))))

theorem State.learnDoor_keeps (r : Learn) (s : State) :
    Keeps [.book, .survey, .led, .stw] s (State.learnDoor r s) := by
  unfold State.learnDoor
  extract_lets -underBinder +onlyGivenNames -merge a1 a2 s3
  refine .viaKeeps (x := s3) (Keeps.after (State.onRun_keeps ..) ((.refl _ _)) rfl) fun h4 => ?_
  try clear_value s3
  extract_lets -underBinder +onlyGivenNames -merge a5
  refine .viaP (fun W => ∀ b0, Keeps W s b0 → Keeps W s (a5 b0)) (fun _ h6 =>
    by
      dsimp -zeta only [a5]
      extract_lets -underBinder +onlyGivenNames -merge a8
      exact Keeps.after (State.learnCmd_keeps ..) (Keeps.after (State.onRun_keeps ..) h6 rfl) rfl) fun h7 => ?_
  try clear_value a5
  exact Keeps.ite (by
        split
        next heq =>
        refine .ofP1 heq (Keeps.after (State.learnReady_keeps ..) h4 rfl) fun h9 => ?_
        exact Keeps.ite (h7 _ h9)
          h9)
      (Keeps.ite h4
        (Keeps.ite (h7 _ h4)
          (by
            split
            · exact h4
            · extract_lets -underBinder +onlyGivenNames -merge a10
              exact Keeps.ite (Keeps.after (State.surveyDone_keeps ..) h4 rfl)
                  (Keeps.after (State.surveyFail_keeps ..) h4 rfl))))

theorem State.surveyKernel_keeps (s : State) :
    Keeps [.book, .survey, .led, .stw] s (State.surveyKernel s) := by
  unfold State.surveyKernel
  extract_lets -underBinder +onlyGivenNames -merge s1
  refine .viaKeeps (x := s1) (Keeps.after (State.surveyAborts_keeps ..) ((.refl _ _)) rfl) fun h2 => ?_
  try clear_value s1
  exact Keeps.foldl (fun _ _ h3 =>
      by
        split
        · exact Keeps.after (State.learnZones_keeps ..) h3 rfl
        · exact Keeps.after (State.learnLevels_keeps ..) h3 rfl
        · exact Keeps.after (State.learnLevels_keeps ..) h3 rfl
        · exact Keeps.after (State.learnDoor_keeps ..) h3 rfl
        · exact h3)
      h2 _

theorem State.surveyTake_keeps (p : SurveyPend) (s : State) :
    Keeps [.cfg, .survey] s (State.surveyTake p s) := by
  unfold State.surveyTake
  exact Keeps.onto ((.refl _ _)) [.cfg, .survey] rfl
    (Keeps.of rfl rfl (fun hw => by first | exact applyCells_wf _ _ hw | exact applyCells_wf _ _ nil_wf | exact nil_wf | exact ite_wf _ _) fun x => by cases x <;> first | exact .inr rfl | exact .inl rfl)

end Sys2Proof.Machine
end

