-- ==== Sys2Proof/Laws/Time.lean ====
section
/-! SUPPORT. The laws of the operations of Machine/Time.lean: which fields of the state each may change. -/

namespace Sys2Proof.Machine

theorem State.onTime_keeps (f : TimeSt → TimeSt) (s : State) :
    Keeps [.time] s (State.onTime f s) := by
  unfold State.onTime
  exact Keeps.after (Keeps.time ..) ((.refl _ _)) rfl

theorem State.unaligned_keeps (cause : Nat) (e : Int) (s : State) :
    Keeps [.stage, .led] s (State.unaligned cause e s) := by
  unfold State.unaligned
  exact Keeps.after (State.raise_keeps ..) (Keeps.after (Keeps.stage ..) ((.refl _ _)) rfl) rfl

theorem State.lostSync_keeps (s : State) :
    Keeps [.stage, .led] s (State.lostSync s) := by
  unfold State.lostSync
  exact Keeps.ite (Keeps.after (State.unaligned_keeps ..) ((.refl _ _)) rfl)
    ((.refl _ _))

theorem State.syncSettle_keeps (cause : Nat) (s : State) :
    Keeps [.stage, .time, .led] s (State.syncSettle cause s) := by
  unfold State.syncSettle
  extract_lets -underBinder +onlyGivenNames -merge a1 a2
  refine .viaP (fun W => ∀ b0 b1 b2, Keeps W s b2 → Keeps W s (a2 b0 b1 b2)) (fun _ _ _ h3 =>
    Keeps.after (State.raise_keeps ..) h3 rfl) fun h4 => ?_
  try clear_value a2
  exact Keeps.ite (h4 _ _ _ (Keeps.after (State.onTime_keeps ..) ((.refl _ _)) rfl))
      (Keeps.ite (Keeps.after (State.lostSync_keeps ..) (h4 _ _ _ (Keeps.after (State.onTime_keeps ..) ((.refl _ _)) rfl)) rfl)
        ((.refl _ _)))

theorem State.changeGm_keeps (gm : Option (Announce × Nat)) (cause : Nat) (s : State) :
    Keeps [.stage, .time, .led] s (State.changeGm gm cause s) := by
  unfold State.changeGm
  extract_lets -underBinder +onlyGivenNames -merge s1
  refine .viaKeeps (x := s1) (Keeps.after (State.syncSettle_keeps ..) ((.refl _ _)) rfl) fun h2 => ?_
  try clear_value s1
  exact Keeps.after (State.syncSettle_keeps ..) (Keeps.after (State.onTime_keeps ..) h2 rfl) rfl

theorem State.syncPort_keeps (p : Nat) (s : State) :
    Keeps [.stage, .time, .led] s (State.syncPort p s) := by
  unfold State.syncPort
  split
  · exact Keeps.ite (Keeps.after (State.changeGm_keeps ..) ((.refl _ _)) rfl)
      ((.refl _ _))
  · exact (.refl _ _)

theorem State.setSite_keeps (v : Int) (s : State) :
    Keeps [.time] s (State.setSite v s) := by
  unfold State.setSite
  exact Keeps.after (State.onTime_keeps ..) ((.refl _ _)) rfl

theorem State.timeStep_keeps (old : Int) (new : Int) (cause : Nat) (s : State) :
    Keeps [.led] s (State.timeStep old new cause s) := by
  unfold State.timeStep
  exact Keeps.after (State.raise_keeps ..) ((.refl _ _)) rfl

theorem State.servoRate_keeps (s : State) :
    Keeps2 [.freeIx] s (State.servoRate s) := by
  unfold State.servoRate
  split
  next heq =>
  refine .ofP2 heq (Keeps.after (State.free_keeps ..) ((.refl _ _)) rfl) fun h1 => ?_
  exact Keeps2.mk h1

theorem execAnnounce_keeps (t : Nat) (port : Nat) (a : Announce) (s : State) :
    Runs [.stage, .time, .led] s (execAnnounce t port a s) := by
  unfold execAnnounce
  extract_lets -underBinder +onlyGivenNames -merge s1
  refine .viaKeeps (x := s1) (Keeps.after (State.tick_keeps ..) ((.refl _ _)) rfl) fun h2 => ?_
  try clear_value s1
  exact Runs.ite (Runs.next h2)
      (by
        extract_lets -underBinder +onlyGivenNames -merge a3
        split
        · exact Runs.ite (Runs.next (Keeps.after (State.changeGm_keeps ..) h2 rfl))
            (Runs.next h2)
        · exact Runs.ite (Runs.ite (Runs.next (Keeps.after (State.changeGm_keeps ..) h2 rfl))
              (Runs.next (Keeps.after (State.onTime_keeps ..) h2 rfl)))
            (Runs.ite (Runs.next (Keeps.after (State.changeGm_keeps ..) h2 rfl))
              (Runs.next h2)))

theorem execSync_keeps (t : Nat) (port : Nat) (seqId : Nat) (origin : Nat) (corr : Int) (stamp : SyncStamps) (s : State) :
    Runs [.freeIx, .stage, .time, .fab, .led] s (execSync t port seqId origin corr stamp s) := by
  unfold execSync
  extract_lets -underBinder +onlyGivenNames -merge s1
  refine .viaKeeps (x := s1) (Keeps.after (State.tick_keeps ..) ((.refl _ _)) rfl) fun h2 => ?_
  try clear_value s1
  extract_lets -underBinder +onlyGivenNames -merge a3 a4
  split
  · exact Runs.next h2
  · exact Runs.ite (Runs.next h2)
      (by
        extract_lets -underBinder +onlyGivenNames -merge s5
        refine .viaKeeps (x := s5) (Keeps.after (State.onPort_keeps ..) h2 rfl) fun h6 => ?_
        try clear_value s5
        extract_lets -underBinder +onlyGivenNames -merge a7 s8
        refine .viaKeeps (x := s8) (Keeps.after (State.onTime_keeps ..) h6 rfl) fun h9 => ?_
        try clear_value s8
        extract_lets -underBinder +onlyGivenNames -merge a10 s11 s12
        refine .viaKeeps (x := s11) (Keeps.after (State.setSite_keeps ..) h9 rfl) fun h13 => ?_
        try clear_value s11
        refine .viaKeeps (x := s12) (Keeps.ite (Keeps.after (State.onTime_keeps ..) (Keeps.after (State.setSite_keeps ..) h9 rfl) rfl)
            (Keeps.ite (Keeps.ite h9
                (Keeps.ite (Keeps.after (State.timeStep_keeps ..) h13 rfl)
                  h13))
              (by
                split
                next heq =>
                refine .ofP2 heq (Keeps.after (State.servoRate_keeps ..) h9 rfl) fun h14 => ?_
                exact Keeps.after (State.onTime_keeps ..) (Keeps.after (State.setSite_keeps ..) h14 rfl) rfl))) fun h15 => ?_
        try clear_value s12
        exact Runs.next (Keeps.after (State.syncSettle_keeps ..) h15 rfl))

theorem execSyncSend_keeps (t : Nat) (s : State) :
    Runs [.time] s (execSyncSend t s) := by
  unfold execSyncSend
  extract_lets -underBinder +onlyGivenNames -merge s1
  refine .viaKeeps (x := s1) (Keeps.after (State.tick_keeps ..) ((.refl _ _)) rfl) fun h2 => ?_
  try clear_value s1
  exact Runs.ite (by
        extract_lets -underBinder +onlyGivenNames -merge a3 a4
        exact Runs.next (Keeps.after (State.onTime_keeps ..) h2 rfl))
      (Runs.next h2)

theorem execSyncTimeout_keeps (t : Nat) (s : State) :
    Runs [.stage, .time, .led] s (execSyncTimeout t s) := by
  unfold execSyncTimeout
  extract_lets -underBinder +onlyGivenNames -merge s1
  refine .viaKeeps (x := s1) (Keeps.after (State.tick_keeps ..) ((.refl _ _)) rfl) fun h2 => ?_
  try clear_value s1
  exact Runs.ite (Runs.next (Keeps.ite (Keeps.after (State.changeGm_keeps ..) h2 rfl)
          (Keeps.after (State.syncSettle_keeps ..) h2 rfl)))
      (Runs.next h2)

theorem State.takeSeal_keeps (origin : Nat) (seqId : Nat) (s : State) :
    Keeps [.stage, .time, .led] s (State.takeSeal origin seqId s) := by
  unfold State.takeSeal
  exact Keeps.ite ((.refl _ _))
    (by
      split
      · exact Keeps.after (State.syncSettle_keeps ..) (Keeps.after (State.onTime_keeps ..) ((.refl _ _)) rfl) rfl
      · exact (.refl _ _))

theorem execTimeSeal_keeps (t : Nat) (origin : Nat) (seqId : Nat) (s : State) :
    Runs [.stage, .time, .led] s (execTimeSeal t origin seqId s) := by
  unfold execTimeSeal
  exact Runs.next (Keeps.after (State.takeSeal_keeps ..) (Keeps.after (State.tick_keeps ..) ((.refl _ _)) rfl) rfl)

theorem execTimeSealSend_keeps (t : Nat) (s : State) :
    Runs [.fab] s (execTimeSealSend t s) := by
  unfold execTimeSealSend
  extract_lets -underBinder +onlyGivenNames -merge s1
  refine .viaKeeps (x := s1) (Keeps.after (State.tick_keeps ..) ((.refl _ _)) rfl) fun h2 => ?_
  try clear_value s1
  split
  · exact Runs.next (Keeps.after (State.send_keeps ..) h2 rfl)
  · exact Runs.next h2

end Sys2Proof.Machine
end

