-- ==== Sys2Proof/Laws/Regions.lean ====
section
/-! SUPPORT. The laws of the operations of Machine/Regions.lean: which fields of the state each may change. -/

namespace Sys2Proof.Machine

theorem execUnitStatus_keeps (t : Nat) (s : State) :
    Runs [.fab, .twin] s (execUnitStatus t s) := by
  unfold execUnitStatus
  extract_lets -underBinder +onlyGivenNames -merge s1
  refine .viaKeeps (x := s1) (Keeps.after (State.tick_keeps ..) ((.refl _ _)) rfl) fun h2 => ?_
  try clear_value s1
  split
  · exact Runs.next h2
  · exact Runs.ite (Runs.next h2)
      (by
        extract_lets -underBinder +onlyGivenNames -merge a3 a4 r5 s6
        refine .viaKeeps (x := s6) (Keeps.after (Keeps.fab ..) h2 rfl) fun h7 => ?_
        try clear_value s6
        extract_lets -underBinder +onlyGivenNames -merge s8
        refine .viaKeeps (x := s8) (Keeps.after (State.sendAt_keeps ..) h7 rfl) fun h9 => ?_
        try clear_value s8
        exact Runs.next (Keeps.ite (Keeps.after (State.sendPair_keeps ..) h9 rfl)
              h9))

end Sys2Proof.Machine
end

