-- ==== Sys2Proof/Laws/Twin.lean ====
section
/-! SUPPORT. The laws of the operations of Machine/Twin.lean: which fields of the state each may change. -/

namespace Sys2Proof.Machine

theorem State.onTwin_keeps (f : Twin → Twin) (s : State) :
    Keeps [.twin] s (State.onTwin f s) := by
  unfold State.onTwin
  exact Keeps.after (Keeps.twin ..) ((.refl _ _)) rfl

theorem State.setRole_keeps (dest : Nat) (cause : Nat) (s : State) :
    Keeps [.twin, .led] s (State.setRole dest cause s) := by
  unfold State.setRole
  extract_lets -underBinder +onlyGivenNames -merge a1
  exact Keeps.ite ((.refl _ _))
      (Keeps.after (State.raise_keeps ..) (Keeps.after (State.onTwin_keeps ..) ((.refl _ _)) rfl) rfl)

theorem State.mirrorStale_keeps (s : State) :
    Keeps [.twin] s (State.mirrorStale s) := by
  unfold State.mirrorStale
  exact Keeps.after (State.onTwin_keeps ..) ((.refl _ _)) rfl

theorem State.leaseRelease_keeps (s : State) :
    Keeps [.fab, .twin] s (State.leaseRelease s) := by
  unfold State.leaseRelease
  extract_lets -underBinder +onlyGivenNames -merge a1
  exact Keeps.ite ((.refl _ _))
      (Keeps.after (State.onTwin_keeps ..) (Keeps.after (State.send_keeps ..) ((.refl _ _)) rfl) rfl)

theorem State.leaseAsk_keeps (cause : Nat) (s : State) :
    Keeps [.fab, .twin] s (State.leaseAsk cause s) := by
  unfold State.leaseAsk
  extract_lets -underBinder +onlyGivenNames -merge a1
  exact Keeps.after (State.send_keeps ..) (Keeps.after (State.onTwin_keeps ..) ((.refl _ _)) rfl) rfl

theorem execRoleRequest_keeps (t : Nat) (s : State) :
    Runs [.fab, .twin] s (execRoleRequest t s) := by
  unfold execRoleRequest
  extract_lets -underBinder +onlyGivenNames -merge s1
  refine .viaKeeps (x := s1) (Keeps.after (State.tick_keeps ..) ((.refl _ _)) rfl) fun h2 => ?_
  try clear_value s1
  extract_lets -underBinder +onlyGivenNames -merge a3 a4
  exact Runs.ite (Runs.next (Keeps.after (State.leaseAsk_keeps ..) h2 rfl))
      (Runs.next h2)

theorem execLeaseRenew_keeps (t : Nat) (s : State) :
    Runs [.fab, .twin] s (execLeaseRenew t s) := by
  unfold execLeaseRenew
  extract_lets -underBinder +onlyGivenNames -merge s1
  refine .viaKeeps (x := s1) (Keeps.after (State.tick_keeps ..) ((.refl _ _)) rfl) fun h2 => ?_
  try clear_value s1
  extract_lets -underBinder +onlyGivenNames -merge a3
  exact Runs.ite (Runs.next h2)
      (Runs.ite (Runs.next (Keeps.after (State.leaseAsk_keeps ..) h2 rfl))
        (Runs.ite (Runs.next (Keeps.after (State.leaseAsk_keeps ..) h2 rfl))
          (Runs.next h2)))

theorem State.onWit_keeps (k : Nat) (f : WitPair → WitPair) (s : State) :
    Keeps [.twin] s (State.onWit k f s) := by
  unfold State.onWit
  exact Keeps.after (State.onTwin_keeps ..) ((.refl _ _)) rfl

theorem leaseEv_keeps (event : Nat) (lease : Nat) (holder : Nat) (pair : Nat) (s : State) :
    Keeps [.led] s (leaseEv event lease holder pair s) := by
  unfold leaseEv
  exact Keeps.after (State.raise_keeps ..) ((.refl _ _)) rfl

theorem State.leaseAnswer_keeps (k : Nat) (result : Nat) (left : Nat) (unit : Nat) (s : State) :
    Keeps [.fab] s (State.leaseAnswer k result left unit s) := by
  unfold State.leaseAnswer
  extract_lets -underBinder +onlyGivenNames -merge a1
  exact Keeps.after (State.send_keeps ..) ((.refl _ _)) rfl

theorem State.newHolder_keeps (k : Nat) (unit : Nat) (lease : Nat) (succ : Nat) (s : State) :
    Keeps [.twin] s (State.newHolder k unit lease succ s) := by
  unfold State.newHolder
  exact Keeps.after (State.onWit_keeps ..) ((.refl _ _)) rfl

theorem State.takeLeaseRequest_keeps (pair : Nat) (unit : Nat) (leaseNo : Nat) (lease : Nat) (cause : Nat) (succ : Nat) (s : State) :
    Keeps [.fab, .twin, .led] s (State.takeLeaseRequest pair unit leaseNo lease cause succ s) := by
  unfold State.takeLeaseRequest
  split
  · exact (.refl _ _)
  · extract_lets -underBinder +onlyGivenNames -merge a1 a2 a3 a4 a5
    refine .viaP (fun W => ∀ b0, Keeps W s b0 → Keeps W s (a5 b0)) (fun _ h6 =>
      by
        dsimp -zeta only [a5]
        extract_lets -underBinder +onlyGivenNames -merge s8
        refine .viaKeeps (x := s8) (Keeps.after (State.newHolder_keeps ..) h6 rfl) fun h9 => ?_
        try clear_value s8
        extract_lets -underBinder +onlyGivenNames -merge a10
        exact Keeps.after (State.leaseAnswer_keeps ..) (Keeps.after (leaseEv_keeps ..) h9 rfl) rfl) fun h7 => ?_
    try clear_value a5
    exact Keeps.ite (Keeps.after (State.leaseAnswer_keeps ..) ((.refl _ _)) rfl)
        (Keeps.ite (h7 _ ((.refl _ _)))
          (Keeps.ite (h7 _ (Keeps.after (leaseEv_keeps ..) ((.refl _ _)) rfl))
            (Keeps.ite (by
                extract_lets -underBinder +onlyGivenNames -merge s11
                refine .viaKeeps (x := s11) (Keeps.after (State.onWit_keeps ..) ((.refl _ _)) rfl) fun h12 => ?_
                try clear_value s11
                exact Keeps.after (State.leaseAnswer_keeps ..) h12 rfl)
              (Keeps.ite (by
                  extract_lets -underBinder +onlyGivenNames -merge s13
                  refine .viaKeeps (x := s13) (Keeps.after (State.newHolder_keeps ..) ((.refl _ _)) rfl) fun h14 => ?_
                  try clear_value s13
                  extract_lets -underBinder +onlyGivenNames -merge a15
                  exact Keeps.after (State.leaseAnswer_keeps ..) (Keeps.after (leaseEv_keeps ..) h14 rfl) rfl)
                (by
                  extract_lets -underBinder +onlyGivenNames -merge s16
                  refine .viaKeeps (x := s16) (Keeps.after (State.onWit_keeps ..) ((.refl _ _)) rfl) fun h17 => ?_
                  try clear_value s16
                  exact Keeps.after (State.leaseAnswer_keeps ..) (Keeps.after (leaseEv_keeps ..) h17 rfl) rfl)))))

theorem execLeaseRequest_keeps (t : Nat) (pair : Nat) (unit : Nat) (leaseNo : Nat) (lease : Nat) (cause : Nat) (successor : Nat) (s : State) :
    Runs [.fab, .twin, .led] s (execLeaseRequest t pair unit leaseNo lease cause successor s) := by
  unfold execLeaseRequest
  exact Runs.next (Keeps.after (State.takeLeaseRequest_keeps ..) (Keeps.after (State.tick_keeps ..) ((.refl _ _)) rfl) rfl)

theorem State.takeLeaseRelease_keeps (pair : Nat) (unit : Nat) (leaseNo : Nat) (s : State) :
    Keeps [.twin] s (State.takeLeaseRelease pair unit leaseNo s) := by
  unfold State.takeLeaseRelease
  split
  · exact (.refl _ _)
  · extract_lets -underBinder +onlyGivenNames -merge a1
    exact Keeps.ite (Keeps.after (State.onWit_keeps ..) ((.refl _ _)) rfl)
        ((.refl _ _))

theorem execLeaseRelease_keeps (t : Nat) (pair : Nat) (unit : Nat) (leaseNo : Nat) (s : State) :
    Runs [.twin] s (execLeaseRelease t pair unit leaseNo s) := by
  unfold execLeaseRelease
  exact Runs.next (Keeps.after (State.takeLeaseRelease_keeps ..) (Keeps.after (State.tick_keeps ..) ((.refl _ _)) rfl) rfl)

theorem State.onItem_keeps (i : Nat) (f : MirrorItem → MirrorItem) (s : State) :
    Keeps [.twin] s (State.onItem i f s) := by
  unfold State.onItem
  exact Keeps.after (State.onTwin_keeps ..) ((.refl _ _)) rfl

theorem State.fillMirror_keeps (fuel room : Nat) (s : State) : Keeps1 [.twin] s (State.fillMirror fuel room s) := by
  induction fuel generalizing room s with
  | zero => exact Keeps.refl _ _
  | succ n ih =>
    unfold State.fillMirror
    split
    · exact Keeps.refl _ _
    · extract_lets -underBinder +onlyGivenNames -merge m s1
      have h : Keeps [.twin] s s1 := Keeps.ite (State.onItem_keeps ..) (.refl _ _)
      clear_value s1
      dsimp only
      refine Keeps1.ite h ?_
      exact (Keeps.after (State.onItem_keeps ..) h rfl).trans (ih _ _)

theorem State.takeEntry_keeps (e : MirrorEntry) (s : State) :
    Keeps [.twin] s (State.takeEntry e s) := by
  unfold State.takeEntry
  exact Keeps.after (State.onItem_keeps ..) ((.refl _ _)) rfl

theorem State.mirrorAges_keeps (s : State) :
    Keeps [.twin, .led] s (State.mirrorAges s) := by
  unfold State.mirrorAges
  exact Keeps.ite ((.refl _ _))
    (by
      extract_lets -underBinder +onlyGivenNames -merge a1 a2 s3
      refine .viaKeeps (x := s3) (Keeps.after (State.onTwin_keeps ..) ((.refl _ _)) rfl) fun h4 => ?_
      try clear_value s3
      exact Keeps.foldl (fun _ _ h5 =>
          by
            split
            · exact Keeps.ite (Keeps.after (State.raise_keeps ..) (Keeps.after (State.onTwin_keeps ..) (Keeps.after (State.onItem_keeps ..) h5 rfl) rfl) rfl)
                h5
            · exact h5)
          h4 _)

theorem State.takeAxis_keeps (a : Nat) (n : Nat) (s : State) :
    Keeps (([.fb, .snap, .snapPrev, .din, .emu, .ax, .axe, .axPrevRef, .book, .axAt, .cmp, .pre, .safe, .twin] : List Fld) ++
      ([.led] : List Fld)) s (State.takeAxis a n s) := by
  unfold State.takeAxis
  split
  · exact (.refl _ _)
  · extract_lets -underBinder +onlyGivenNames -merge a1 a2 a3 a4 a5 a6 s7
    refine .viaKeeps (x := s7) (Keeps.after (State.shiftAxis_keeps ..) ((.refl _ _)) rfl) fun h8 => ?_
    try clear_value s7
    extract_lets -underBinder +onlyGivenNames -merge s9
    refine .viaKeeps (x := s9) (Keeps.after (State.onTwin_keeps ..) h8 rfl) fun h10 => ?_
    try clear_value s9
    extract_lets -underBinder +onlyGivenNames -merge a11 r12 s13
    refine .viaKeeps (x := s13) (Keeps.onto h10 [.ax, .axe, .pre] rfl
        (Keeps.of rfl rfl id fun x => by cases x <;> first | exact .inr rfl | exact .inl rfl)) fun h14 => ?_
    try clear_value s13
    exact Keeps.after (State.onBook_keeps ..) h14 rfl

theorem State.takeCar_keeps (c : Nat) (s : State) :
    Keeps [.cars] s (State.takeCar c s) := by
  unfold State.takeCar
  split
  · exact (.refl _ _)
  · extract_lets -underBinder +onlyGivenNames -merge a1 a2 a3 a4
    exact Keeps.after (State.onCar_keeps ..) ((.refl _ _)) rfl

theorem State.takeDoor_keeps (d : Nat) (s : State) :
    Keeps [.doors] s (State.takeDoor d s) := by
  unfold State.takeDoor
  split
  · exact (.refl _ _)
  · extract_lets -underBinder +onlyGivenNames -merge a1 a2
    exact Keeps.after (State.onDoor_keeps ..) ((.refl _ _)) rfl

theorem State.takeStops_keeps (s : State) :
    Keeps [.dsp] s (State.takeStops s) := by
  unfold State.takeStops
  split
  · exact (.refl _ _)
  · extract_lets -underBinder +onlyGivenNames -merge a1
    exact Keeps.eachIx (fun _ _ h2 =>
        by
          extract_lets -underBinder +onlyGivenNames -merge a3 a4 a5 a6 a7
          exact Keeps.after (State.onSched_keeps ..) h2 rfl)
        ((.refl _ _))

theorem execRebase_keeps (t : Nat) (s : State) :
    Runs (([.fb, .snap, .snapPrev, .din, .emu, .ax, .axe, .axPrevRef, .book, .axAt, .pg, .gc, .cmp, .home] : List Fld) ++
      ([.pre, .cars, .doors, .dsp, .safe, .twin, .led] : List Fld)) s (execRebase t s) := by
  unfold execRebase
  extract_lets -underBinder +onlyGivenNames -merge s1
  refine .viaKeeps (x := s1) (Keeps.after (State.tick_keeps ..) ((.refl _ _)) rfl) fun h2 => ?_
  try clear_value s1
  split
  · exact Runs.next h2
  · extract_lets -underBinder +onlyGivenNames -merge a3
    exact Runs.ite (Runs.next h2)
        (by
          extract_lets -underBinder +onlyGivenNames -merge a4 s5
          refine .viaKeeps (x := s5) (Keeps.eachIx (fun _ _ h6 =>
              Keeps.ite (Keeps.after (State.takeAxis_keeps ..) h6 rfl)
                h6)
              (Keeps.after (State.unshow_keeps ..) h2 rfl)) fun h7 => ?_
          try clear_value s5
          extract_lets -underBinder +onlyGivenNames -merge s8
          refine .viaKeeps (x := s8) (Keeps.eachIx (fun _ _ h9 =>
              Keeps.ite (Keeps.after (State.takeCar_keeps ..) h9 rfl)
                h9)
              h7) fun h10 => ?_
          try clear_value s8
          extract_lets -underBinder +onlyGivenNames -merge s11
          refine .viaKeeps (x := s11) (Keeps.eachIx (fun _ _ h12 =>
              Keeps.ite (Keeps.after (State.takeDoor_keeps ..) h12 rfl)
                h12)
              h10) fun h13 => ?_
          try clear_value s11
          extract_lets -underBinder +onlyGivenNames -merge s14
          refine .viaKeeps (x := s14) (Keeps.after (State.takeStops_keeps ..) h13 rfl) fun h15 => ?_
          try clear_value s14
          extract_lets -underBinder +onlyGivenNames -merge s16
          refine .viaKeeps (x := s16) (Keeps.after (State.onTwin_keeps ..) h15 rfl) fun h17 => ?_
          try clear_value s16
          exact Runs.next (Keeps.ite (Keeps.after (State.setRole_keeps ..) h17 rfl)
                h17))

theorem execCompareResume_keeps (t : Nat) (s : State) :
    Runs [.twin] s (execCompareResume t s) := by
  unfold execCompareResume
  extract_lets -underBinder +onlyGivenNames -merge s1
  refine .viaKeeps (x := s1) (Keeps.after (State.tick_keeps ..) ((.refl _ _)) rfl) fun h2 => ?_
  try clear_value s1
  split
  · exact Runs.ite (Runs.next (Keeps.after (State.onTwin_keeps ..) h2 rfl))
      (Runs.next h2)
  · exact Runs.next h2

theorem State.diverge_keeps (e : Nat) (own : Nat) (other : Nat) (s : State) :
    Keeps [.twin, .led] s (State.diverge e own other s) := by
  unfold State.diverge
  extract_lets -underBinder +onlyGivenNames -merge a1 s2
  refine .viaKeeps (x := s2) (Keeps.after (State.onTwin_keeps ..) ((.refl _ _)) rfl) fun h3 => ?_
  try clear_value s2
  extract_lets -underBinder +onlyGivenNames -merge a4 s5
  refine .viaKeeps (x := s5) (Keeps.after (State.raise_keeps ..) h3 rfl) fun h6 => ?_
  try clear_value s5
  exact Keeps.ite (Keeps.after (State.raise_keeps ..) (Keeps.after (State.onTwin_keeps ..) (Keeps.after (State.setRole_keeps ..) h6 rfl) rfl) rfl)
      h6

theorem State.twinCompare_keeps (s : State) :
    Keeps [.twin, .led] s (State.twinCompare s) := by
  unfold State.twinCompare
  extract_lets -underBinder +onlyGivenNames -merge a1
  split
  · extract_lets -underBinder +onlyGivenNames -merge s2
    refine .viaKeeps (x := s2) (Keeps.after (State.onTwin_keeps ..) ((.refl _ _)) rfl) fun h3 => ?_
    try clear_value s2
    exact Keeps.ite h3
        (Keeps.after (State.diverge_keeps ..) h3 rfl)
  · exact (.refl _ _)

theorem State.beginHandoff_keeps (e : Nat) (s : State) :
    Keeps [.twin] s (State.beginHandoff e s) := by
  unfold State.beginHandoff
  exact Keeps.after (State.onTwin_keeps ..) ((.refl _ _)) rfl

theorem State.leaveActive_keeps (cause : Nat) (s : State) :
    Keeps [.fab, .twin, .led] s (State.leaveActive cause s) := by
  unfold State.leaveActive
  extract_lets -underBinder +onlyGivenNames -merge s1
  refine .viaKeeps (x := s1) (Keeps.after (State.leaseRelease_keeps ..) ((.refl _ _)) rfl) fun h2 => ?_
  try clear_value s1
  exact Keeps.after (State.onTwin_keeps ..) (Keeps.after (State.setRole_keeps ..) h2 rfl) rfl

theorem State.leaseLapse_keeps (s : State) :
    Keeps [.book, .safe, .fab, .twin, .led, .mode] s (State.leaseLapse s) := by
  unfold State.leaseLapse
  extract_lets -underBinder +onlyGivenNames -merge s1
  refine .viaKeeps (x := s1) (Keeps.after (leaseEv_keeps ..) ((.refl _ _)) rfl) fun h2 => ?_
  try clear_value s1
  extract_lets -underBinder +onlyGivenNames -merge s3
  refine .viaKeeps (x := s3) (Keeps.after (State.onTwin_keeps ..) h2 rfl) fun h4 => ?_
  try clear_value s3
  exact Keeps.ite (Keeps.after (State.beginHandoff_keeps ..) h4 rfl)
      (Keeps.after (State.haltCause_keeps ..) (Keeps.eachIx (fun _ _ h5 =>
          Keeps.after (State.orderSs1_keeps ..) h5 rfl)
          (Keeps.after (State.leaveActive_keeps ..) h4 rfl)) rfl)

theorem execLeaseExpiry_keeps (t : Nat) (s : State) :
    Runs [.book, .safe, .fab, .twin, .led, .mode] s (execLeaseExpiry t s) := by
  unfold execLeaseExpiry
  extract_lets -underBinder +onlyGivenNames -merge s1
  refine .viaKeeps (x := s1) (Keeps.after (State.tick_keeps ..) ((.refl _ _)) rfl) fun h2 => ?_
  try clear_value s1
  split
  · exact Runs.ite (Runs.next (Keeps.after (State.leaseLapse_keeps ..) h2 rfl))
      (Runs.next h2)
  · exact Runs.next h2

theorem State.takeover_keeps (kind : Nat) (resumed : Nat) (ss1 : Nat) (s : State) :
    Keeps [.led] s (State.takeover kind resumed ss1 s) := by
  unfold State.takeover
  extract_lets -underBinder +onlyGivenNames -merge a1
  exact Keeps.after (State.raise_keeps ..) ((.refl _ _)) rfl

theorem State.becomeActive_keeps (cause : Nat) (s : State) :
    Keeps [.twin, .led] s (State.becomeActive cause s) := by
  unfold State.becomeActive
  exact Keeps.after (State.onTwin_keeps ..) (Keeps.after (State.setRole_keeps ..) ((.refl _ _)) rfl) rfl

theorem State.takeIdle_keeps (a : Nat) (s : State) :
    Keeps [.ax, .home, .pre] s (State.takeIdle a s) := by
  unfold State.takeIdle
  extract_lets -underBinder +onlyGivenNames -merge a1 a2 a3 a4 r5 s6
  refine .viaKeeps (x := s6) (Keeps.onto ((.refl _ _)) [.ax, .pre] rfl
      (Keeps.of rfl rfl id fun x => by cases x <;> first | exact .inr rfl | exact .inl rfl)) fun h7 => ?_
  try clear_value s6
  exact Keeps.ite (Keeps.after (State.onHomeKept_keeps ..) h7 rfl)
      h7

theorem State.handoffAxis_keeps (a : Nat) (n : Nat) (s : State) :
    Keeps (([.fb, .snap, .snapPrev, .din, .emu, .ax, .axe, .axPrevRef, .book, .axAt, .pg, .gc, .cmp, .pre] : List Fld) ++
      ([.safe, .twin, .led] : List Fld)) s (State.handoffAxis a n s) := by
  unfold State.handoffAxis
  extract_lets -underBinder +onlyGivenNames -merge a1 s2
  refine .viaKeeps (x := s2) (Keeps.after (State.takeAxis_keeps ..) ((.refl _ _)) rfl) fun h3 => ?_
  try clear_value s2
  exact Keeps.ite h3
      (by
        extract_lets -underBinder +onlyGivenNames -merge a4 s5
        refine .viaKeeps (x := s5) (Keeps.after (State.orderSs1_keeps ..) h3 rfl) fun h6 => ?_
        try clear_value s5
        exact Keeps.ite (by
              extract_lets -underBinder +onlyGivenNames -merge s7
              refine .viaKeeps (x := s7) (by
                  dsimp -zeta only [s7]
                  split
                  · exact Keeps.after (State.setGc_keeps ..) h6 rfl
                  · exact h6) fun h8 => ?_
              try clear_value s7
              exact Keeps.after (State.pathBreak_keeps ..) h8 rfl)
            (by
              extract_lets -underBinder +onlyGivenNames -merge a9
              exact Keeps.after (State.onAxKept_keeps ..) h6 rfl))

theorem State.grantTaken_keeps (s : State) :
    Keeps [.ch, .cax, .twin, .led] s (State.grantTaken s) := by
  unfold State.grantTaken
  exact Keeps.ite ((.refl _ _))
    (by
      extract_lets -underBinder +onlyGivenNames -merge s1
      refine .viaKeeps (x := s1) (Keeps.after (State.onTwin_keeps ..) ((.refl _ _)) rfl) fun h2 => ?_
      try clear_value s1
      exact Keeps.eachIx (fun _ _ h3 =>
          by
            extract_lets -underBinder +onlyGivenNames -merge a4
            exact Keeps.ite (Keeps.after (State.curBoundary_keeps ..) h3 rfl)
                h3)
          h2)

theorem State.takeHandoff_keeps (a0 : Nat) (s : State) :
    Keeps (([.fb, .snap, .snapPrev, .din, .emu, .ch, .cax, .ax, .axe, .axPrevRef, .book, .axAt, .pg, .gc] : List Fld) ++
      ([.cmp, .pre, .cars, .doors, .dsp, .safe, .fab, .twin, .led] : List Fld)) s (State.takeHandoff a0 s) := by
  unfold State.takeHandoff
  extract_lets -underBinder +onlyGivenNames -merge a1 s2
  refine .viaKeeps (x := s2) (Keeps.after (State.onTwin_keeps ..) ((.refl _ _)) rfl) fun h3 => ?_
  try clear_value s2
  extract_lets -underBinder +onlyGivenNames -merge a4 a5 a6 s7
  refine .viaKeeps (x := s7) (Keeps.foldl (fun _ _ h8 =>
      Keeps.after (State.handoffAxis_keeps ..) h8 rfl)
      h3 _) fun h9 => ?_
  try clear_value s7
  extract_lets -underBinder +onlyGivenNames -merge s10
  refine .viaKeeps (x := s10) (Keeps.foldl (fun _ _ h11 =>
      by
        split
        · exact Keeps.after (State.onCax_brs (h := fun _ => rfl) ..) h11 rfl
        · exact h11)
      h9 _) fun h12 => ?_
  try clear_value s10
  extract_lets -underBinder +onlyGivenNames -merge s13
  refine .viaKeeps (x := s13) (Keeps.eachIx (fun _ _ h14 =>
      Keeps.ite (Keeps.after (State.takeCar_keeps ..) h14 rfl)
        h14)
      h12) fun h15 => ?_
  try clear_value s13
  extract_lets -underBinder +onlyGivenNames -merge s16
  refine .viaKeeps (x := s16) (Keeps.eachIx (fun _ _ h17 =>
      Keeps.ite (Keeps.after (State.takeDoor_keeps ..) h17 rfl)
        h17)
      h15) fun h18 => ?_
  try clear_value s16
  exact Keeps.after (State.leaseAsk_keeps ..) (Keeps.after (State.takeover_keeps ..) (Keeps.after (State.grantTaken_keeps ..) (Keeps.after (State.becomeActive_keeps ..) (Keeps.after (State.takeStops_keeps ..) h18 rfl) rfl) rfl) rfl) rfl

theorem execHandoff_keeps (t : Nat) (s : State) :
    Runs (([.fb, .snap, .snapPrev, .din, .emu, .ch, .cax, .ax, .axe, .axPrevRef, .book, .axAt, .pg, .gc] : List Fld) ++
      ([.cmp, .home, .pre, .cars, .doors, .dsp, .safe, .fab, .twin, .led, .mode] : List Fld)) s (execHandoff t s) := by
  unfold execHandoff
  extract_lets -underBinder +onlyGivenNames -merge s1
  refine .viaKeeps (x := s1) (Keeps.after (State.tick_keeps ..) ((.refl _ _)) rfl) fun h2 => ?_
  try clear_value s1
  split
  · exact Runs.next h2
  · exact Runs.ite (Runs.next h2)
      (Runs.ite (by
          extract_lets -underBinder +onlyGivenNames -merge s3
          refine .viaKeeps (x := s3) (Keeps.after (State.onTwin_keeps ..) (Keeps.after (State.setRole_keeps ..) h2 rfl) rfl) fun h4 => ?_
          try clear_value s3
          extract_lets -underBinder +onlyGivenNames -merge s5
          refine .viaKeeps (x := s5) (Keeps.ite (Keeps.eachIx (fun _ _ h6 =>
                Keeps.after (State.gatesOff_keeps ..) h6 rfl)
                h4)
              h4) fun h7 => ?_
          try clear_value s5
          exact Runs.next (Keeps.after (State.haltCause_keeps ..) h7 rfl))
        (Runs.ite (Runs.next (Keeps.after (State.takeHandoff_keeps ..) (Keeps.after (State.unshow_keeps ..) h2 rfl) rfl))
          (Runs.next (Keeps.after (State.onTwin_keeps ..) h2 rfl))))

theorem State.takeSwitch_keeps (o : Origin) (s : State) :
    Keeps [.replies, .twin] s (State.takeSwitch o s) := by
  unfold State.takeSwitch
  exact Keeps.ite (Keeps.after (State.reply_keeps ..) ((.refl _ _)) rfl)
    (Keeps.ite (Keeps.after (State.reply_keeps ..) ((.refl _ _)) rfl)
      (Keeps.ite (Keeps.after (State.reply_keeps ..) ((.refl _ _)) rfl)
        (Keeps.after (State.reply_keeps ..) (Keeps.after (State.beginHandoff_keeps ..) ((.refl _ _)) rfl) rfl)))

theorem State.rejoin_keeps (cause : Nat) (s : State) :
    Keeps [.twin, .led] s (State.rejoin cause s) := by
  unfold State.rejoin
  exact Keeps.after (State.onTwin_keeps ..) (Keeps.after (State.setRole_keeps ..) ((.refl _ _)) rfl) rfl

theorem State.takeLeaseGrant_keeps (pair : Nat) (holder : Nat) (leaseNo : Nat) (result : Nat) (requester : Nat) (s : State) :
    Keeps [.ax, .book, .home, .pre, .safe, .fab, .twin, .led, .mode] s (State.takeLeaseGrant pair holder leaseNo result requester s) := by
  unfold State.takeLeaseGrant
  extract_lets -underBinder +onlyGivenNames -merge a1
  exact Keeps.ite ((.refl _ _))
      (Keeps.ite (by
          extract_lets -underBinder +onlyGivenNames -merge a2 s3
          refine .viaKeeps (x := s3) (Keeps.after (State.onTwin_keeps ..) ((.refl _ _)) rfl) fun h4 => ?_
          try clear_value s3
          split
          · exact Keeps.after (State.becomeActive_keeps ..) h4 rfl
          · exact Keeps.after (State.takeover_keeps ..) (Keeps.eachIx (fun _ _ h5 =>
                Keeps.after (State.takeIdle_keeps ..) h5 rfl)
                (Keeps.after (State.becomeActive_keeps ..) h4 rfl)) rfl
          · exact Keeps.after (State.takeover_keeps ..) (Keeps.eachIx (fun _ _ h6 =>
                Keeps.after (State.takeIdle_keeps ..) h6 rfl)
                (Keeps.after (State.becomeActive_keeps ..) h4 rfl)) rfl
          · exact Keeps.after (State.takeover_keeps ..) (Keeps.eachIx (fun _ _ h7 =>
                Keeps.after (State.takeIdle_keeps ..) h7 rfl)
                (Keeps.after (State.becomeActive_keeps ..) h4 rfl)) rfl
          · exact h4)
        (by
          split
          · extract_lets -underBinder +onlyGivenNames -merge a8
            exact Keeps.ite (Keeps.after (State.onTwin_keeps ..) ((.refl _ _)) rfl)
                (Keeps.after (State.setRole_keeps ..) (Keeps.after (State.mirrorStale_keeps ..) ((.refl _ _)) rfl) rfl)
          · exact Keeps.ite (Keeps.after (State.leaseLapse_keeps ..) ((.refl _ _)) rfl)
              ((.refl _ _))
          · extract_lets -underBinder +onlyGivenNames -merge s9
            refine .viaKeeps (x := s9) (Keeps.after (State.setRole_keeps ..) (Keeps.after (State.mirrorStale_keeps ..) ((.refl _ _)) rfl) rfl) fun h10 => ?_
            try clear_value s9
            exact Keeps.ite (Keeps.after (State.rejoin_keeps ..) h10 rfl)
                h10
          · exact (.refl _ _)))

theorem execLeaseGrant_keeps (t : Nat) (pair : Nat) (holder : Nat) (leaseNo : Nat) (result : Nat) (left : Nat) (successor : Nat) (requester : Nat) (s : State) :
    Runs [.ax, .book, .home, .pre, .safe, .fab, .twin, .led, .mode] s (execLeaseGrant t pair holder leaseNo result left successor requester s) := by
  unfold execLeaseGrant
  extract_lets -underBinder +onlyGivenNames -merge a1
  exact Runs.next (Keeps.after (State.takeLeaseGrant_keeps ..) (Keeps.after (State.tick_keeps ..) ((.refl _ _)) rfl) rfl)

theorem execTwinPacket_keeps (t : Nat) (p : TwinPkt) (s : State) :
    Runs [.twin, .led] s (execTwinPacket t p s) := by
  unfold execTwinPacket
  extract_lets -underBinder +onlyGivenNames -merge s1
  refine .viaKeeps (x := s1) (Keeps.after (State.tick_keeps ..) ((.refl _ _)) rfl) fun h2 => ?_
  try clear_value s1
  exact Runs.ite (Runs.next h2)
      (Runs.ite (Runs.next (Keeps.after (State.onTwin_keeps ..) h2 rfl))
        (by
          extract_lets -underBinder +onlyGivenNames -merge a3 a4 s5
          refine .viaKeeps (x := s5) (Keeps.after (State.onTwin_keeps ..) h2 rfl) fun h6 => ?_
          try clear_value s5
          extract_lets -underBinder +onlyGivenNames -merge s7
          refine .viaKeeps (x := s7) (Keeps.ite (Keeps.after (State.raise_keeps ..) h6 rfl)
              h6) fun h8 => ?_
          try clear_value s7
          extract_lets -underBinder +onlyGivenNames -merge s9
          refine .viaKeeps (x := s9) (Keeps.ite h8
              (Keeps.foldl (fun _ _ h10 =>
                Keeps.after (State.takeEntry_keeps ..) h10 rfl)
                h8 _)) fun h11 => ?_
          try clear_value s9
          exact Runs.next (Keeps.ite (Keeps.after (State.rejoin_keeps ..) h11 rfl)
                h11)))

theorem execTwinHeartbeat_keeps (t : Nat) (s : State) :
    Runs [.fab, .twin, .led] s (execTwinHeartbeat t s) := by
  unfold execTwinHeartbeat
  extract_lets -underBinder +onlyGivenNames -merge s1
  refine .viaKeeps (x := s1) (Keeps.after (State.tick_keeps ..) ((.refl _ _)) rfl) fun h2 => ?_
  try clear_value s1
  extract_lets -underBinder +onlyGivenNames -merge a3
  exact Runs.ite (Runs.next h2)
      (by
        extract_lets -underBinder +onlyGivenNames -merge s4
        refine .viaKeeps (x := s4) (Keeps.after (State.raise_keeps ..) (Keeps.after (State.onTwin_keeps ..) h2 rfl) rfl) fun h5 => ?_
        try clear_value s4
        exact Runs.ite (Runs.next (Keeps.after (State.leaseAsk_keeps ..) (Keeps.after (State.onTwin_keeps ..) (Keeps.after (State.mirrorStale_keeps ..) h5 rfl) rfl) rfl))
            (Runs.ite (Runs.next (Keeps.after (State.setRole_keeps ..) (Keeps.after (State.onTwin_keeps ..) (Keeps.after (State.mirrorStale_keeps ..) h5 rfl) rfl) rfl))
              (Runs.next h5)))

theorem State.twinLink_keeps (up : Bool) (s : State) :
    Keeps [.twin, .led] s (State.twinLink up s) := by
  unfold State.twinLink
  exact Keeps.ite ((.refl _ _))
    (Keeps.after (State.raise_keeps ..) (Keeps.after (State.onTwin_keeps ..) ((.refl _ _)) rfl) rfl)

theorem execTwinLink_keeps (t : Nat) (up : Bool) (s : State) :
    Runs [.twin, .led] s (execTwinLink t up s) := by
  unfold execTwinLink
  extract_lets -underBinder +onlyGivenNames -merge s1
  refine .viaKeeps (x := s1) (Keeps.after (State.tick_keeps ..) ((.refl _ _)) rfl) fun h2 => ?_
  try clear_value s1
  exact Runs.ite (Runs.next h2)
      (Runs.next (Keeps.after (State.twinLink_keeps ..) h2 rfl))

theorem State.grantBoundary_keeps (s : State) :
    Keeps [.twin] s (State.grantBoundary s) := by
  unfold State.grantBoundary
  extract_lets -underBinder +onlyGivenNames -merge a1
  exact Keeps.ite ((.refl _ _))
      (Keeps.after (State.onTwin_keeps ..) ((.refl _ _)) rfl)

theorem execGrantCheck_keeps (t : Nat) (s : State) :
    Runs [.led, .mode] s (execGrantCheck t s) := by
  unfold execGrantCheck
  extract_lets -underBinder +onlyGivenNames -merge s1
  refine .viaKeeps (x := s1) (Keeps.after (State.tick_keeps ..) ((.refl _ _)) rfl) fun h2 => ?_
  try clear_value s1
  exact Runs.ite (Runs.next (Keeps.after (State.haltCause_keeps ..) (Keeps.after (State.raise_keeps ..) h2 rfl) rfl))
      (Runs.next h2)

theorem State.sendPacket_keeps (s : State) :
    Keeps [.twin] s (State.sendPacket s) := by
  unfold State.sendPacket
  extract_lets -underBinder +onlyGivenNames -merge a1
  exact Keeps.ite ((.refl _ _))
      (by
        extract_lets -underBinder +onlyGivenNames -merge a2
        split
        next heq =>
        refine .ofP1 heq (Keeps1.ite (Keeps.after (State.fillMirror_keeps ..) ((.refl _ _)) rfl)
            (Keeps1.mk ((.refl _ _)))) fun h3 => ?_
        exact by
          extract_lets -underBinder +onlyGivenNames -merge a4 a5 a6
          exact Keeps.after (State.onTwin_keeps ..) h3 rfl)

theorem State.twinHalt_keeps (s : State) :
    Keeps [.fab, .twin, .led] s (State.twinHalt s) := by
  unfold State.twinHalt
  extract_lets -underBinder +onlyGivenNames -merge a1
  exact Keeps.ite (Keeps.ite (Keeps.ite ((.refl _ _))
          (Keeps.ite (Keeps.after (State.beginHandoff_keeps ..) ((.refl _ _)) rfl)
            (Keeps.after (State.leaveActive_keeps ..) ((.refl _ _)) rfl)))
        (Keeps.ite ((.refl _ _))
          (Keeps.after (State.setRole_keeps ..) (Keeps.after (State.mirrorStale_keeps ..) ((.refl _ _)) rfl) rfl)))
      (Keeps.ite (Keeps.after (State.rejoin_keeps ..) ((.refl _ _)) rfl)
        ((.refl _ _)))

theorem State.usePacket_keeps (s : State) :
    Keeps [.ax, .book, .pg, .pgBook, .gc, .home, .replies, .survey, .cars, .safe, .fab, .twin, .led] s (State.usePacket s) := by
  unfold State.usePacket
  split
  · extract_lets -underBinder +onlyGivenNames -merge s1
    refine .viaKeeps (x := s1) (Keeps.ite (Keeps.ite (Keeps.after (State.onTwin_keeps ..) ((.refl _ _)) rfl)
          ((.refl _ _)))
        (Keeps.ite (Keeps.after (State.leaseAsk_keeps ..) ((.refl _ _)) rfl)
          ((.refl _ _)))) fun h2 => ?_
    try clear_value s1
    exact Keeps.foldl (fun _ _ h3 =>
        by
          split
          · exact Keeps.after (State.offerAxis_keeps ..) h3 rfl
          · exact Keeps.after (State.offerPath_keeps ..) h3 rfl)
        h2 _
  · exact (.refl _ _)

theorem State.twinBoundary_keeps (s : State) :
    Keeps [.ax, .book, .pg, .pgBook, .gc, .home, .replies, .survey, .cars, .safe, .fab, .twin, .led] s (State.twinBoundary s) := by
  unfold State.twinBoundary
  exact Keeps.ite ((.refl _ _))
    (by
      extract_lets -underBinder +onlyGivenNames -merge s1
      refine .viaKeeps (x := s1) (Keeps.after (State.twinHalt_keeps ..) ((.refl _ _)) rfl) fun h2 => ?_
      try clear_value s1
      extract_lets -underBinder +onlyGivenNames -merge a3 s4
      refine .viaKeeps (x := s4) (Keeps.after (State.onTwin_keeps ..) h2 rfl) fun h5 => ?_
      try clear_value s4
      exact Keeps.after (State.sendPacket_keeps ..) (Keeps.after (State.grantBoundary_keeps ..) (Keeps.after (State.mirrorAges_keeps ..) (Keeps.after (State.usePacket_keeps ..) (Keeps.after (State.twinCompare_keeps ..) h5 rfl) rfl) rfl) rfl) rfl)

end Sys2Proof.Machine
end

