-- ==== Sys2Proof/Laws/Checks.lean ====
section
/-! SUPPORT. The laws of the operations of Machine/Checks.lean: which fields of the state each may change. -/

namespace Sys2Proof.Machine

theorem State.withImage_keeps (w : Container) (kernels : List KernelEntry) (s : State) :
    Keeps [.cfg, .graph, .kernels, .wake] s (State.withImage w kernels s) := by
  unfold State.withImage
  exact Keeps.onto ((.refl _ _)) [.cfg, .graph, .kernels, .wake] rfl
    (Keeps.of rfl rfl (fun hw => by first | exact applyCells_wf _ _ hw | exact applyCells_wf _ _ nil_wf | exact nil_wf | exact ite_wf _ _) fun x => by cases x <;> first | exact .inr rfl | exact .inl rfl)

end Sys2Proof.Machine
end

