-- ==== Sys2Proof/Laws/Restart.lean ====
section
/-! SUPPORT. The laws of the operations of Machine/Restart.lean: which fields of the state each may change. -/

namespace Sys2Proof.Machine

theorem State.restart_keeps (s : State) : Keeps (allBut [.pending, .freeIx, .trims, .scTrims]) s (State.restart s) :=
  ⟨Nat.le_refl _, fun _ => ⟨rfl, nil_wf⟩, fun x h => by cases x <;> first | rfl | exact absurd (by decide) h⟩

theorem State.resetEnd_keeps (s : State) :
    Keeps (allBut [.pending, .freeIx, .trims, .scTrims]) s (State.resetEnd s) := by
  unfold State.resetEnd
  exact Keeps.ite (Keeps.after (State.restart_keeps ..) ((.refl _ _)) rfl)
    ((.refl _ _))

end Sys2Proof.Machine
end

