-- ==== Sys2Proof/Laws/Ledger.lean ====
section
/-! SUPPORT. The laws of the operations of Machine/Ledger.lean: which fields of the state each may change. -/

namespace Sys2Proof.Machine

theorem State.onLed_keeps (f : Led → Led) (s : State) :
    Keeps [.led] s (State.onLed f s) := by
  unfold State.onLed
  exact Keeps.after (Keeps.led ..) ((.refl _ _)) rfl

theorem State.eventsOut_keeps (s : State) :
    Keeps [.fab, .led] s (State.eventsOut s) := by
  unfold State.eventsOut
  exact Keeps.ite ((.refl _ _))
    (by
      extract_lets -underBinder +onlyGivenNames -merge a1 s2
      refine .viaKeeps (x := s2) (Keeps.after (State.onLed_keeps ..) ((.refl _ _)) rfl) fun h3 => ?_
      try clear_value s2
      split
      · exact h3
      · exact Keeps.foldl (fun _ _ h4 =>
          Keeps.after (State.sendAt_keeps ..) h4 rfl)
          h3 _)

theorem execLedgerOccurrence_keeps (t : Nat) (code : Nat) (sev : Nat) (payload : List Octet) (s : State) :
    Runs [.led] s (execLedgerOccurrence t code sev payload s) := by
  unfold execLedgerOccurrence
  extract_lets -underBinder +onlyGivenNames -merge s1
  refine .viaKeeps (x := s1) (Keeps.after (State.tick_keeps ..) ((.refl _ _)) rfl) fun h2 => ?_
  try clear_value s1
  extract_lets -underBinder +onlyGivenNames -merge a3
  exact Runs.ite (Runs.next (Keeps.after (State.ledTake_keeps ..) (Keeps.after (Keeps.led ..) h2 rfl) rfl))
      (Runs.next h2)

theorem execLedgerMaxAge_keeps (t : Nat) (s : State) :
    Runs [.led] s (execLedgerMaxAge t s) := by
  unfold execLedgerMaxAge
  extract_lets -underBinder +onlyGivenNames -merge s1
  refine .viaKeeps (x := s1) (Keeps.after (State.tick_keeps ..) ((.refl _ _)) rfl) fun h2 => ?_
  try clear_value s1
  split
  · exact Runs.ite (Runs.next (Keeps.after (State.beginFlush_keeps ..) h2 rfl))
      (Runs.next h2)
  · exact Runs.next h2

theorem State.ledFull_keeps (region : Nat) (s : State) :
    Keeps [.led] s (State.ledFull region s) := by
  unfold State.ledFull
  exact Keeps.after (State.raise_keeps ..) ((.refl _ _)) rfl

theorem State.dropRecs_keeps (l : List LedRec) (c : List SumCnt) (s : State) :
    Keeps [.led] s (State.dropRecs l c s) := by
  unfold State.dropRecs
  extract_lets -underBinder +onlyGivenNames -merge s1
  refine .viaKeeps (x := s1) (Keeps.foldl (fun _ _ h2 =>
      Keeps.after (State.onLed_keeps ..) h2 rfl)
      ((.refl _ _)) _) fun h3 => ?_
  try clear_value s1
  exact Keeps.foldl (fun _ _ h4 =>
      Keeps.after (State.onLed_keeps ..) h4 rfl)
      h3 _

theorem State.toReserve_keeps (s : State) :
    Keeps [.led] s (State.toReserve s) := by
  unfold State.toReserve
  extract_lets -underBinder +onlyGivenNames -merge a1 a2 s3
  refine .viaKeeps (x := s3) (Keeps.after (State.dropRecs_keeps ..) ((.refl _ _)) rfl) fun h4 => ?_
  try clear_value s3
  extract_lets -underBinder +onlyGivenNames -merge s5
  refine .viaKeeps (x := s5) (Keeps.after (State.onLed_keeps ..) h4 rfl) fun h6 => ?_
  try clear_value s5
  extract_lets -underBinder +onlyGivenNames -merge s7
  refine .viaKeeps (x := s7) (Keeps.after (State.ledFull_keeps ..) h6 rfl) fun h8 => ?_
  try clear_value s7
  exact Keeps.after (State.onLed_keeps ..) h8 rfl

theorem State.toSealed_keeps (s : State) :
    Keeps [.led] s (State.toSealed s) := by
  unfold State.toSealed
  extract_lets -underBinder +onlyGivenNames -merge a1 s2
  refine .viaKeeps (x := s2) (Keeps.after (State.onLed_keeps ..) ((.refl _ _)) rfl) fun h3 => ?_
  try clear_value s2
  extract_lets -underBinder +onlyGivenNames -merge s4
  refine .viaKeeps (x := s4) (Keeps.after (State.ledFull_keeps ..) h3 rfl) fun h5 => ?_
  try clear_value s4
  extract_lets -underBinder +onlyGivenNames -merge a6 s7
  refine .viaKeeps (x := s7) (Keeps.after (State.onLed_keeps ..) h5 rfl) fun h8 => ?_
  try clear_value s7
  extract_lets -underBinder +onlyGivenNames -merge s9
  refine .viaKeeps (x := s9) (Keeps.foldl (fun _ _ h10 =>
      Keeps.after (State.notRec_keeps ..) h10 rfl)
      (Keeps.after (State.dropRecs_keeps ..) h8 rfl) _) fun h11 => ?_
  try clear_value s9
  exact Keeps.after (State.onLed_keeps ..) h11 rfl

theorem State.voidSlot_keeps (slot : Nat) (s : State) :
    Keeps [.led] s (State.voidSlot slot s) := by
  unfold State.voidSlot
  extract_lets -underBinder +onlyGivenNames -merge s1
  refine .viaKeeps (x := s1) (Keeps.after (State.onLed_keeps ..) ((.refl _ _)) rfl) fun h2 => ?_
  try clear_value s1
  exact Keeps.after (State.raise_keeps ..) h2 rfl

theorem execPageProgrammed_keeps (t : Nat) (failed : List Nat) (s : State) :
    Runs (allBut [.pending, .freeIx, .trims, .scTrims]) s (execPageProgrammed t failed s) := by
  unfold execPageProgrammed
  extract_lets -underBinder +onlyGivenNames -merge s1
  refine .viaKeeps (x := s1) (Keeps.after (State.tick_keeps ..) ((.refl _ _)) rfl) fun h2 => ?_
  try clear_value s1
  extract_lets -underBinder +onlyGivenNames -merge a3
  exact Runs.ite (Runs.next h2)
      (by
        extract_lets -underBinder +onlyGivenNames -merge a4 a5 a6 a7 a8 a9 a10 s11
        refine .viaKeeps (x := s11) (Keeps.after (State.onLed_keeps ..) h2 rfl) fun h12 => ?_
        try clear_value s11
        extract_lets -underBinder +onlyGivenNames -merge s13
        refine .viaKeeps (x := s13) (Keeps.after (State.onLed_keeps ..) h12 rfl) fun h14 => ?_
        try clear_value s13
        extract_lets -underBinder +onlyGivenNames -merge s15
        refine .viaKeeps (x := s15) (Keeps.foldl (fun _ _ h16 =>
            Keeps.after (State.voidSlot_keeps ..) h16 rfl)
            h14 _) fun h17 => ?_
        try clear_value s15
        extract_lets -underBinder +onlyGivenNames -merge s18
        refine .viaKeeps (x := s18) (Keeps.ite (Keeps.after (State.toReserve_keeps ..) h17 rfl)
            (Keeps.ite (Keeps.after (State.toSealed_keeps ..) h17 rfl)
              h17)) fun h19 => ?_
        try clear_value s18
        exact Runs.next (Keeps.ite (Keeps.after (State.resetEnd_keeps ..) (Keeps.after (State.flushEnd_keeps ..) h19 rfl) rfl)
              (Keeps.after (State.onLed_keeps ..) h19 rfl)))

theorem execFlushBit_keeps (t : Nat) (value : Nat) (s : State) :
    Runs [.led] s (execFlushBit t value s) := by
  unfold execFlushBit
  exact Runs.next (Keeps.ite (Keeps.after (State.beginFlush_keeps ..) (Keeps.after (State.tick_keeps ..) ((.refl _ _)) rfl) rfl)
      (Keeps.after (State.tick_keeps ..) ((.refl _ _)) rfl))

theorem State.nevtAck_keeps (s : State) :
    Keeps [.led] s (State.nevtAck s) := by
  unfold State.nevtAck
  exact Keeps.after (State.onLed_keeps ..) ((.refl _ _)) rfl

theorem execNevtAck_keeps (t : Nat) (value : Nat) (s : State) :
    Runs [.led] s (execNevtAck t value s) := by
  unfold execNevtAck
  exact Runs.next (Keeps.ite (Keeps.after (State.nevtAck_keeps ..) (Keeps.after (State.tick_keeps ..) ((.refl _ _)) rfl) rfl)
      (Keeps.after (State.tick_keeps ..) ((.refl _ _)) rfl))

theorem execNevtPulseEnd_keeps (t : Nat) (s : State) :
    Runs [.led] s (execNevtPulseEnd t s) := by
  unfold execNevtPulseEnd
  extract_lets -underBinder +onlyGivenNames -merge s1
  refine .viaKeeps (x := s1) (Keeps.after (State.tick_keeps ..) ((.refl _ _)) rfl) fun h2 => ?_
  try clear_value s1
  exact Runs.ite (Runs.next (Keeps.after (State.onLed_keeps ..) h2 rfl))
      (Runs.next h2)

theorem State.setReadFrom_keeps (seq : Nat) (s : State) :
    Keeps [.led] s (State.setReadFrom seq s) := by
  unfold State.setReadFrom
  exact Keeps.after (State.onLed_keeps ..) ((.refl _ _)) rfl

theorem execReadFrom_keeps (t : Nat) (seq : Nat) (s : State) :
    Runs [.led] s (execReadFrom t seq s) := by
  unfold execReadFrom
  exact Runs.next (Keeps.after (State.setReadFrom_keeps ..) (Keeps.after (State.tick_keeps ..) ((.refl _ _)) rfl) rfl)

theorem execApertureFill_keeps (t : Nat) (s : State) :
    Runs [.led] s (execApertureFill t s) := by
  unfold execApertureFill
  extract_lets -underBinder +onlyGivenNames -merge s1
  refine .viaKeeps (x := s1) (Keeps.after (State.tick_keeps ..) ((.refl _ _)) rfl) fun h2 => ?_
  try clear_value s1
  split
  · exact Runs.next h2
  · exact Runs.ite (Runs.next h2)
      (by
        extract_lets -underBinder +onlyGivenNames -merge a3 a4
        exact Runs.next (Keeps.after (State.onLed_keeps ..) h2 rfl))

theorem execRtcTick_keeps (t : Nat) (s : State) :
    Runs [.led] s (execRtcTick t s) := by
  unfold execRtcTick
  extract_lets -underBinder +onlyGivenNames -merge s1
  refine .viaKeeps (x := s1) (Keeps.after (State.tick_keeps ..) ((.refl _ _)) rfl) fun h2 => ?_
  try clear_value s1
  exact Runs.ite (Runs.next h2)
      (Runs.next (Keeps.after (State.onLed_keeps ..) h2 rfl))

theorem execLifeClockPersist_keeps (t : Nat) (s : State) :
    Runs [.led] s (execLifeClockPersist t s) := by
  unfold execLifeClockPersist
  extract_lets -underBinder +onlyGivenNames -merge s1
  refine .viaKeeps (x := s1) (Keeps.after (State.tick_keeps ..) ((.refl _ _)) rfl) fun h2 => ?_
  try clear_value s1
  exact Runs.ite (Runs.next (Keeps.after (State.onLed_keeps ..) h2 rfl))
      (Runs.next h2)

end Sys2Proof.Machine
end

