-- ==== Sys2Proof/Laws/Links.lean ====
section
/-! SUPPORT. The laws of the operations of Machine/Links.lean: which fields of the state each may change. -/

namespace Sys2Proof.Machine

theorem State.setMode_keeps (m : Nat) (cause : Nat) (s : State) :
    Keeps [.led, .mode] s (State.setMode m cause s) := by
  unfold State.setMode
  exact Keeps.ite ((.refl _ _))
    (by
      extract_lets -underBinder +onlyGivenNames -merge a1 r2 s3
      refine .viaKeeps (x := s3) (Keeps.after (Keeps.mode ..) ((.refl _ _)) rfl) fun h4 => ?_
      try clear_value s3
      extract_lets -underBinder +onlyGivenNames -merge s5
      refine .viaKeeps (x := s5) (Keeps.after (State.raise_keeps ..) h4 rfl) fun h6 => ?_
      try clear_value s5
      exact Keeps.ite (Keeps.after (State.beginFlush_keeps ..) h6 rfl)
          h6)

theorem State.dropChan_keeps (b : Bool) (s : State) :
    Keeps [.cax, .safe, .led, .mode] s (State.dropChan b s) := by
  unfold State.dropChan
  exact Keeps.after (State.driveOuts_keeps ..) (Keeps.after (State.onChan_keeps ..) ((.refl _ _)) rfl) rfl

theorem State.holdMotion_keeps (s : State) :
    Keeps [.clk, .stage, .disp, .cax, .safe, .twin, .led, .mode] s (State.holdMotion s) := by
  unfold State.holdMotion
  extract_lets -underBinder +onlyGivenNames -merge r1 r2 r3 r4 s5
  refine .viaKeeps (x := s5) (Keeps.onto ((.refl _ _)) [.clk, .stage, .disp, .twin] rfl
      (Keeps.of rfl rfl id fun x => by cases x <;> first | exact .inr rfl | exact .inl rfl)) fun h6 => ?_
  try clear_value s5
  exact Keeps.after (State.dropChan_keeps ..) (Keeps.eachIx (fun _ _ h7 =>
        Keeps.after (State.gatesOff_keeps ..) h7 rfl)
        h6) rfl

theorem State.clockFault_keeps (s : State) :
    Keeps [.clk, .stage, .disp, .cax, .safe, .twin, .led, .mode] s (State.clockFault s) := by
  unfold State.clockFault
  extract_lets -underBinder +onlyGivenNames -merge r1 s2
  refine .viaKeeps (x := s2) (Keeps.after (Keeps.mode ..) ((.refl _ _)) rfl) fun h3 => ?_
  try clear_value s2
  exact Keeps.after (State.setMode_keeps ..) (Keeps.after (State.holdMotion_keeps ..) (Keeps.after (State.dropChan_keeps ..) h3 rfl) rfl) rfl

theorem State.onLink_keeps (k : Nat) (f : Link → Link) (s : State) :
    Keeps [.links] s (State.onLink k f s) := by
  unfold State.onLink
  exact Keeps.after (Keeps.links ..) ((.refl _ _)) rfl

theorem execHeartbeatFlit_keeps (t : Nat) (link : Nat) (s : State) :
    Runs [.links] s (execHeartbeatFlit t link s) := by
  unfold execHeartbeatFlit
  extract_lets -underBinder +onlyGivenNames -merge s1
  refine .viaKeeps (x := s1) (Keeps.after (State.tick_keeps ..) ((.refl _ _)) rfl) fun h2 => ?_
  try clear_value s1
  exact Runs.ite (Runs.next h2)
      (Runs.next (Keeps.after (State.onLink_keeps ..) h2 rfl))

theorem execFlitCheckFail_keeps (t : Nat) (link : Nat) (resentOk : Bool) (s : State) :
    Runs [.links] s (execFlitCheckFail t link resentOk s) := by
  unfold execFlitCheckFail
  extract_lets -underBinder +onlyGivenNames -merge s1
  refine .viaKeeps (x := s1) (Keeps.after (State.tick_keeps ..) ((.refl _ _)) rfl) fun h2 => ?_
  try clear_value s1
  exact Runs.ite (Runs.next h2)
      (Runs.next (Keeps.after (State.onLink_keeps ..) h2 rfl))

theorem State.linkReact_keeps (link : Nat) (s : State) :
    Keeps [.disp, .cax, .book, .safe, .fab, .twin, .purse, .led, .mode] s (State.linkReact link s) := by
  unfold State.linkReact
  split
  · exact Keeps.after (State.haltCause_keeps ..) (Keeps.after (State.dropChan_keeps ..) (Keeps.after (State.dropChan_keeps ..) ((.refl _ _)) rfl) rfl) rfl
  · extract_lets -underBinder +onlyGivenNames -merge s1
    refine .viaKeeps (x := s1) (Keeps.eachIx (fun _ _ h2 =>
        Keeps.after (State.losePeers_keeps ..) h2 rfl)
        ((.refl _ _))) fun h3 => ?_
    try clear_value s1
    extract_lets -underBinder +onlyGivenNames -merge s4
    refine .viaKeeps (x := s4) (Keeps.after (State.twinLink_keeps ..) h3 rfl) fun h5 => ?_
    try clear_value s4
    exact Keeps.after (State.haltCause_keeps ..) (Keeps.eachIx (fun _ _ h6 =>
          Keeps.after (State.orderSs1_keeps ..) h6 rfl)
          h5) rfl
  · extract_lets -underBinder +onlyGivenNames -merge s7
    refine .viaKeeps (x := s7) (Keeps.after (State.tiers_keeps ..) (Keeps.after (State.holdUp_keeps ..) (Keeps.after (State.onPurse_keeps ..) ((.refl _ _)) rfl) rfl) rfl) fun h8 => ?_
    try clear_value s7
    extract_lets -underBinder +onlyGivenNames -merge s9
    refine .viaKeeps (x := s9) (Keeps.eachIx (fun _ _ h10 =>
        Keeps.ite (Keeps.after (State.orderSto_keeps ..) h10 rfl)
          h10)
        h8) fun h11 => ?_
    try clear_value s9
    exact Keeps.after (State.powerFlushBegin_keeps ..) (Keeps.after (State.haltCause_keeps ..) h11 rfl) rfl

theorem execDieLinkFault_keeps (t : Nat) (link : Nat) (cause : Nat) (detector : Nat) (s : State) :
    Runs [.links, .disp, .cax, .book, .safe, .fab, .twin, .purse, .led, .mode] s (execDieLinkFault t link cause detector s) := by
  unfold execDieLinkFault
  extract_lets -underBinder +onlyGivenNames -merge s1
  refine .viaKeeps (x := s1) (Keeps.after (State.tick_keeps ..) ((.refl _ _)) rfl) fun h2 => ?_
  try clear_value s1
  extract_lets -underBinder +onlyGivenNames -merge a3 a4
  exact Runs.ite (Runs.next h2)
      (by
        extract_lets -underBinder +onlyGivenNames -merge s5
        refine .viaKeeps (x := s5) (Keeps.after (State.onLink_keeps ..) h2 rfl) fun h6 => ?_
        try clear_value s5
        exact Runs.next (Keeps.after (State.linkReact_keeps ..) (Keeps.after (State.raise_keeps ..) h6 rfl) rfl))

theorem execEdgeClockCheck_keeps (t : Nat) (khz : Nat) (s : State) :
    Runs [.clk, .stage, .disp, .cax, .safe, .twin, .led, .mode] s (execEdgeClockCheck t khz s) := by
  unfold execEdgeClockCheck
  extract_lets -underBinder +onlyGivenNames -merge s1
  refine .viaKeeps (x := s1) (Keeps.after (State.tick_keeps ..) ((.refl _ _)) rfl) fun h2 => ?_
  try clear_value s1
  exact Runs.ite (Runs.next h2)
      (Runs.next (Keeps.after (State.clockFault_keeps ..) (Keeps.after (State.raise_keeps ..) (Keeps.after (Keeps.clk ..) h2 rfl) rfl) rfl))

theorem execPllLossOfLock_keeps (t : Nat) (s : State) :
    Runs [.clk, .stage, .disp, .cax, .safe, .twin, .led, .mode] s (execPllLossOfLock t s) := by
  unfold execPllLossOfLock
  extract_lets -underBinder +onlyGivenNames -merge s1
  refine .viaKeeps (x := s1) (Keeps.after (State.tick_keeps ..) ((.refl _ _)) rfl) fun h2 => ?_
  try clear_value s1
  exact Runs.ite (Runs.next h2)
      (Runs.next (Keeps.after (State.clockFault_keeps ..) (Keeps.after (State.raise_keeps ..) (Keeps.after (Keeps.clk ..) h2 rfl) rfl) rfl))

theorem execRtcCheck_keeps (t : Nat) (mhz : Nat) (s : State) :
    Runs [.clk, .led] s (execRtcCheck t mhz s) := by
  unfold execRtcCheck
  extract_lets -underBinder +onlyGivenNames -merge s1
  refine .viaKeeps (x := s1) (Keeps.after (State.tick_keeps ..) ((.refl _ _)) rfl) fun h2 => ?_
  try clear_value s1
  extract_lets -underBinder +onlyGivenNames -merge a3
  exact Runs.ite (Runs.next h2)
      (by
        extract_lets -underBinder +onlyGivenNames -merge s4
        refine .viaKeeps (x := s4) (Keeps.after (State.onLed_keeps ..) h2 rfl) fun h5 => ?_
        try clear_value s4
        extract_lets -underBinder +onlyGivenNames -merge r6 s7
        refine .viaKeeps (x := s7) (Keeps.after (Keeps.clk ..) h5 rfl) fun h8 => ?_
        try clear_value s7
        exact Runs.next (Keeps.ite (Keeps.after (State.raise_keeps ..) h8 rfl)
              h8))

theorem execLockstepMismatch_keeps (t : Nat) (lane : Nat) (s : State) :
    Runs [.clk, .cax, .safe, .led, .mode] s (execLockstepMismatch t lane s) := by
  unfold execLockstepMismatch
  extract_lets -underBinder +onlyGivenNames -merge s1
  refine .viaKeeps (x := s1) (Keeps.after (State.tick_keeps ..) ((.refl _ _)) rfl) fun h2 => ?_
  try clear_value s1
  exact Runs.ite (Runs.next h2)
      (by
        extract_lets -underBinder +onlyGivenNames -merge r3 s4
        refine .viaKeeps (x := s4) (Keeps.after (Keeps.clk ..) h2 rfl) fun h5 => ?_
        try clear_value s4
        exact Runs.next (Keeps.after (State.haltCause_keeps ..) (Keeps.after (State.dropChan_keeps ..) (Keeps.after (State.raise_keeps ..) h5 rfl) rfl) rfl))

theorem execMemoryEcc_keeps (t : Nat) (addr : Nat) (double : Bool) (s : State) :
    Runs [.clk, .cax, .safe, .led, .mode] s (execMemoryEcc t addr double s) := by
  unfold execMemoryEcc
  extract_lets -underBinder +onlyGivenNames -merge s1
  refine .viaKeeps (x := s1) (Keeps.after (State.tick_keeps ..) ((.refl _ _)) rfl) fun h2 => ?_
  try clear_value s1
  exact Runs.ite (by
        extract_lets -underBinder +onlyGivenNames -merge r3 s4
        refine .viaKeeps (x := s4) (Keeps.after (Keeps.clk ..) h2 rfl) fun h5 => ?_
        try clear_value s4
        exact Runs.next (Keeps.after (State.haltCause_keeps ..) (Keeps.after (State.dropChan_keeps ..) (Keeps.after (State.raise_keeps ..) h5 rfl) rfl) rfl))
      (by
        extract_lets -underBinder +onlyGivenNames -merge r6 s7
        refine .viaKeeps (x := s7) (Keeps.after (Keeps.clk ..) h2 rfl) fun h8 => ?_
        try clear_value s7
        exact Runs.next (Keeps.after (State.raise_keeps ..) h8 rfl))

end Sys2Proof.Machine
end

