-- ==== Sys2Proof/Laws/Steward.lean ====
section
/-! SUPPORT. The laws of the operations of Machine/Steward.lean: which fields of the state each may change. -/

namespace Sys2Proof.Machine

theorem State.onStw_keeps (f : Stw → Stw) (s : State) :
    Keeps [.stw] s (State.onStw f s) := by
  unfold State.onStw
  exact Keeps.after (Keeps.stw ..) ((.refl _ _)) rfl

theorem State.delayLost_keeps (k : Nat) (x : Nat × Nat) (s : State) :
    Keeps2 [.freeIx] s (State.delayLost k x s) := by
  unfold State.delayLost
  extract_lets -underBinder +onlyGivenNames -merge a1
  exact Keeps2.ite (by
        split
        next heq =>
        refine .ofP2 heq (Keeps.after (State.free_keeps ..) ((.refl _ _)) rfl) fun h2 => ?_
        exact Keeps2.mk h2)
      (Keeps2.mk ((.refl _ _)))

theorem State.ageingEv_keeps (die : Nat) (cause : Nat) (pair : Nat) (s : State) (sev : Nat) :
    Keeps [.led] s (State.ageingEv die cause pair s sev) := by
  unfold State.ageingEv
  extract_lets -underBinder +onlyGivenNames -merge a1
  exact Keeps.after (State.raise_keeps ..) ((.refl _ _)) rfl

theorem State.ageDie_keeps (die : Nat) (first : Nat) (n : Nat) (least : Nat) (s : State) :
    Keeps [.led, .mode, .stw] s (State.ageDie die first n least s) := by
  unfold State.ageDie
  extract_lets -underBinder +onlyGivenNames -merge a1 a2 a3 a4 s5
  refine .viaKeeps (x := s5) (Keeps.after (State.onStw_keeps ..) ((.refl _ _)) rfl) fun h6 => ?_
  try clear_value s5
  extract_lets -underBinder +onlyGivenNames -merge a7 a8 s9
  refine .viaKeeps (x := s9) (Keeps.after (State.onStw_keeps ..) h6 rfl) fun h10 => ?_
  try clear_value s9
  extract_lets -underBinder +onlyGivenNames -merge a11 s12
  refine .viaKeeps (x := s12) (Keeps.foldl (fun _ _ h13 =>
      Keeps.after (State.ageingEv_keeps ..) h13 rfl)
      h10 _) fun h14 => ?_
  try clear_value s12
  extract_lets -underBinder +onlyGivenNames -merge s15
  refine .viaKeeps (x := s15) (Keeps.ite (Keeps.after (State.ageingEv_keeps ..) h14 rfl)
      h14) fun h16 => ?_
  try clear_value s15
  extract_lets -underBinder +onlyGivenNames -merge s17
  refine .viaKeeps (x := s17) (Keeps.ite (Keeps.after (State.ageingEv_keeps ..) h16 rfl)
      h16) fun h18 => ?_
  try clear_value s17
  exact Keeps.ite h18
      (Keeps.after (State.haltCause_keeps ..) (Keeps.ite (Keeps.after (State.ageingEv_keeps ..) h18 rfl)
          h18) rfl)

theorem State.ageAllowance_keeps (s : State) :
    Keeps [.purse, .led, .stw] s (State.ageAllowance s) := by
  unfold State.ageAllowance
  extract_lets -underBinder +onlyGivenNames -merge a1 a2 a3 a4 a5 s6
  refine .viaKeeps (x := s6) (Keeps.after (State.onPurse_keeps ..) ((.refl _ _)) rfl) fun h7 => ?_
  try clear_value s6
  extract_lets -underBinder +onlyGivenNames -merge s8
  refine .viaKeeps (x := s8) (Keeps.after (State.onStw_keeps ..) h7 rfl) fun h9 => ?_
  try clear_value s8
  exact Keeps.ite (Keeps.after (State.ageingEv_keeps ..) h9 rfl)
      h9

theorem State.measureAgeing_keeps (counts : List (Nat × Nat)) (s : State) :
    Keeps [.freeIx, .purse, .led, .mode, .stw] s (State.measureAgeing counts s) := by
  unfold State.measureAgeing
  extract_lets -underBinder +onlyGivenNames -merge s1
  refine .viaKeeps (x := s1) (Keeps.foldl (fun _ _ h2 =>
      by
        split
        next heq =>
        refine .ofP2 heq (Keeps.after (State.delayLost_keeps ..) h2 rfl) fun h3 => ?_
        exact Keeps.after (State.onStw_keeps ..) h3 rfl)
      ((.refl _ _)) _) fun h4 => ?_
  try clear_value s1
  extract_lets -underBinder +onlyGivenNames -merge s5
  refine .viaKeeps (x := s5) (Keeps.after (State.onStw_keeps ..) h4 rfl) fun h6 => ?_
  try clear_value s5
  exact Keeps.after (State.ageAllowance_keeps ..) (Keeps.after (State.ageDie_keeps ..) (Keeps.after (State.ageDie_keeps ..) h6 rfl) rfl) rfl

theorem execAgeingMeasurement_keeps (t : Nat) (counts : List (Nat × Nat)) (s : State) :
    Runs [.freeIx, .purse, .led, .mode, .stw] s (execAgeingMeasurement t counts s) := by
  unfold execAgeingMeasurement
  extract_lets -underBinder +onlyGivenNames -merge s1
  refine .viaKeeps (x := s1) (Keeps.after (State.tick_keeps ..) ((.refl _ _)) rfl) fun h2 => ?_
  try clear_value s1
  split
  · exact Runs.ite (Runs.next h2)
      (Runs.next (Keeps.after (State.measureAgeing_keeps ..) h2 rfl))
  · exact Runs.next (Keeps.after (State.measureAgeing_keeps ..) h2 rfl)

theorem execCoreSupplyLow_keeps (t : Nat) (die : Nat) (s : State) :
    Runs [.clk, .stage, .disp, .cax, .safe, .twin, .led, .mode] s (execCoreSupplyLow t die s) := by
  unfold execCoreSupplyLow
  exact Runs.next (Keeps.after (State.clockFault_keeps ..) (Keeps.after (State.ageingEv_keeps ..) (Keeps.after (State.tick_keeps ..) ((.refl _ _)) rfl) rfl) rfl)

theorem State.holdupEv_keeps (result : Nat) (c : Nat) (esr : Nat) (dt : Nat) (s : State) (sev : Nat) :
    Keeps [.led] s (State.holdupEv result c esr dt s sev) := by
  unfold State.holdupEv
  exact Keeps.after (State.raise_keeps ..) ((.refl _ _)) rfl

theorem State.takeHoldTest_keeps (o : Origin) (s : State) :
    Keeps [.replies, .stw] s (State.takeHoldTest o s) := by
  unfold State.takeHoldTest
  exact Keeps.ite (Keeps.after (State.reply_keeps ..) ((.refl _ _)) rfl)
    (Keeps.after (State.reply_keeps ..) (Keeps.after (State.onStw_keeps ..) ((.refl _ _)) rfl) rfl)

theorem execHoldTestDue_keeps (t : Nat) (s : State) :
    Runs [.stw] s (execHoldTestDue t s) := by
  unfold execHoldTestDue
  extract_lets -underBinder +onlyGivenNames -merge s1
  refine .viaKeeps (x := s1) (Keeps.after (State.tick_keeps ..) ((.refl _ _)) rfl) fun h2 => ?_
  try clear_value s1
  extract_lets -underBinder +onlyGivenNames -merge a3
  exact Runs.ite (Runs.next (Keeps.after (State.onStw_keeps ..) h2 rfl))
      (Runs.next h2)

theorem execHoldTestStart_keeps (t : Nat) (s : State) :
    Runs [.stw, .pins] s (execHoldTestStart t s) := by
  unfold execHoldTestStart
  extract_lets -underBinder +onlyGivenNames -merge s1
  refine .viaKeeps (x := s1) (Keeps.after (State.tick_keeps ..) ((.refl _ _)) rfl) fun h2 => ?_
  try clear_value s1
  extract_lets -underBinder +onlyGivenNames -merge a3
  exact Runs.ite (Runs.next (Keeps.after (State.onPins_keeps ..) (Keeps.after (State.onStw_keeps ..) h2 rfl) rfl))
      (Runs.next h2)

theorem State.testOver_keeps (retry : Bool) (s : State) :
    Keeps [.stw, .pins] s (State.testOver retry s) := by
  unfold State.testOver
  exact Keeps.after (State.onPins_keeps ..) (Keeps.after (State.onStw_keeps ..) ((.refl _ _)) rfl) rfl

theorem execHoldTestEnd_keeps (t : Nat) (esr : Nat) (dt : Option Nat) (s : State) :
    Runs [.purse, .led, .stw, .pins] s (execHoldTestEnd t esr dt s) := by
  unfold execHoldTestEnd
  extract_lets -underBinder +onlyGivenNames -merge s1
  refine .viaKeeps (x := s1) (Keeps.after (State.tick_keeps ..) ((.refl _ _)) rfl) fun h2 => ?_
  try clear_value s1
  exact Runs.ite (Runs.next h2)
      (by
        extract_lets -underBinder +onlyGivenNames -merge a3 a4 s5
        refine .viaKeeps (x := s5) (Keeps.after (State.onStw_keeps ..) h2 rfl) fun h6 => ?_
        try clear_value s5
        exact Runs.ite (Runs.next (Keeps.after (State.holdupEv_keeps ..) (Keeps.after (State.testOver_keeps ..) h6 rfl) rfl))
            (by
              extract_lets -underBinder +onlyGivenNames -merge s7
              refine .viaKeeps (x := s7) (Keeps.after (State.onPurse_keeps ..) (Keeps.after (State.testOver_keeps ..) h6 rfl) rfl) fun h8 => ?_
              try clear_value s7
              exact Runs.next (Keeps.ite (Keeps.after (State.holdupEv_keeps ..) h8 rfl)
                    (Keeps.after (State.holdupEv_keeps ..) h8 rfl))))

theorem State.testNotice_keeps (s : State) :
    Keeps [.freeIx, .led, .stw, .pins] s (State.testNotice s) := by
  unfold State.testNotice
  extract_lets -underBinder +onlyGivenNames -merge a1 s2
  refine .viaKeeps (x := s2) (Keeps.after (State.onStw_keeps ..) ((.refl _ _)) rfl) fun h3 => ?_
  try clear_value s2
  exact Keeps.ite (by
        split
        next heq =>
        refine .ofP2 heq (Keeps.after (State.free_keeps ..) h3 rfl) fun h4 => ?_
        exact by
          split
          next heq =>
          refine .ofP2 heq (Keeps.after (State.free_keeps ..) h4 rfl) fun h5 => ?_
          exact Keeps.after (State.holdupEv_keeps ..) (Keeps.after (State.testOver_keeps ..) h5 rfl) rfl)
      h3

theorem State.selfTestEv_keeps (test : Nat) (occasion : Nat) (pass : Bool) (s : State) (sev : Nat) :
    Keeps [.led] s (State.selfTestEv test occasion pass s sev) := by
  unfold State.selfTestEv
  exact Keeps.after (State.raise_keeps ..) ((.refl _ _)) rfl

theorem State.securityError_keeps (test : Nat) (occasion : Nat) (s : State) :
    Keeps [.led, .mode, .stw] s (State.securityError test occasion s) := by
  unfold State.securityError
  exact Keeps.after (State.haltCause_keeps ..) (Keeps.after (State.onStw_keeps ..) (Keeps.after (State.selfTestEv_keeps ..) ((.refl _ _)) rfl) rfl) rfl

theorem State.takeSelfTest_keeps (o : Origin) (pass : Bool) (s : State) :
    Keeps [.replies, .led, .mode, .stw] s (State.takeSelfTest o pass s) := by
  unfold State.takeSelfTest
  extract_lets -underBinder +onlyGivenNames -merge s1
  refine .viaKeeps (x := s1) (Keeps.after (State.reply_keeps ..) ((.refl _ _)) rfl) fun h2 => ?_
  try clear_value s1
  exact Keeps.ite (Keeps.after (State.selfTestEv_keeps ..) h2 rfl)
      (Keeps.after (State.securityError_keeps ..) h2 rfl)

theorem execPeriodicSelfTest_keeps (t : Nat) (pass : Bool) (s : State) :
    Runs [.led, .mode, .stw] s (execPeriodicSelfTest t pass s) := by
  unfold execPeriodicSelfTest
  extract_lets -underBinder +onlyGivenNames -merge s1
  refine .viaKeeps (x := s1) (Keeps.after (State.tick_keeps ..) ((.refl _ _)) rfl) fun h2 => ?_
  try clear_value s1
  exact Runs.ite (Runs.next h2)
      (by
        extract_lets -underBinder +onlyGivenNames -merge s3
        refine .viaKeeps (x := s3) (Keeps.after (State.onStw_keeps ..) h2 rfl) fun h4 => ?_
        try clear_value s3
        exact Runs.next (Keeps.ite h4
              (Keeps.after (State.securityError_keeps ..) h4 rfl)))

theorem State.sendTo_keeps (src : Nat) (m : Msg) (s : State) :
    Keeps [.fab, .win] s (State.sendTo src m s) := by
  unfold State.sendTo
  exact Keeps.ite (Keeps.after (Keeps.win ..) ((.refl _ _)) rfl)
    (Keeps.after (State.send_keeps ..) ((.refl _ _)) rfl)

theorem State.updateStatus_keeps (src : Nat) (obj : Nat) (part : Nat) (status : Nat) (next : Nat) (s : State) :
    Keeps [.freeIx, .fab, .win] s (State.updateStatus src obj part status next s) := by
  unfold State.updateStatus
  split
  next heq =>
  refine .ofP2 heq (Keeps.after (State.free_keeps ..) ((.refl _ _)) rfl) fun h1 => ?_
  exact Keeps.after (State.sendTo_keeps ..) h1 rfl

theorem State.objAnswer_keeps (ix : Nat) (src : Nat) (obj : Nat) (part : Nat) (status : Nat) (next : Nat) (s : State) :
    Keeps [.freeIx, .fab, .stw, .win] s (State.objAnswer ix src obj part status next s) := by
  unfold State.objAnswer
  exact Keeps.after (State.updateStatus_keeps ..) (Keeps.after (State.onStw_keeps ..) ((.refl _ _)) rfl) rfl

theorem State.setAsm_keeps (ix : Nat) (a : Option Assembly) (s : State) :
    Keeps [.stw] s (State.setAsm ix a s) := by
  unfold State.setAsm
  exact Keeps.after (State.onStw_keeps ..) ((.refl _ _)) rfl

theorem State.onSlot_keeps (k : Nat) (f : Slot → Slot) (s : State) :
    Keeps [.stw] s (State.onSlot k f s) := by
  unfold State.onSlot
  exact Keeps.after (State.onStw_keeps ..) ((.refl _ _)) rfl

theorem State.updateEv_keeps (slot : Nat) (event : Nat) (s : State) (sev : Nat) :
    Keeps [.led] s (State.updateEv slot event s sev) := by
  unfold State.updateEv
  exact Keeps.after (State.raise_keeps ..) ((.refl _ _)) rfl

theorem State.commitSlot_keeps (k : Nat) (s : State) :
    Keeps [.led, .stw] s (State.commitSlot k s) := by
  unfold State.commitSlot
  extract_lets -underBinder +onlyGivenNames -merge a1 s2
  refine .viaKeeps (x := s2) (Keeps.after (State.onStw_keeps ..) ((.refl _ _)) rfl) fun h3 => ?_
  try clear_value s2
  exact Keeps.after (State.updateEv_keeps ..) (Keeps.after (State.onSlot_keeps ..) h3 rfl) rfl

theorem State.beginPart_keeps (slot : Nat) (part : Nat) (s : State) :
    Keeps [.led, .stw] s (State.beginPart slot part s) := by
  unfold State.beginPart
  extract_lets -underBinder +onlyGivenNames -merge a1
  exact Keeps.after (State.onSlot_keeps ..) (Keeps.after (State.eraseSectors_keeps ..) ((.refl _ _)) rfl) rfl

theorem State.chunkIn_keeps (ix : Nat) (src : Nat) (a : Assembly) (c : Chunk) (s : State) :
    Keeps [.freeIx, .fab, .stw, .win] s (State.chunkIn ix src a c s) := by
  unfold State.chunkIn
  extract_lets -underBinder +onlyGivenNames -merge a1
  exact Keeps.ite (Keeps.after (State.objAnswer_keeps ..) (Keeps.after (State.setAsm_keeps ..) ((.refl _ _)) rfl) rfl)
      (Keeps.ite (Keeps.after (State.setAsm_keeps ..) ((.refl _ _)) rfl)
        (by
          extract_lets -underBinder +onlyGivenNames -merge a2 s3
          refine .viaKeeps (x := s3) (Keeps.after (State.onSlot_keeps ..) (Keeps.after (State.setAsm_keeps ..) ((.refl _ _)) rfl) rfl) fun h4 => ?_
          try clear_value s3
          exact Keeps.after (State.onStw_keeps ..) h4 rfl))

theorem State.takeChunk_keeps (ix : Nat) (src : Nat) (c : Chunk) (s : State) :
    Keeps [.freeIx, .fab, .led, .stw, .win] s (State.takeChunk ix src c s) := by
  unfold State.takeChunk
  extract_lets -underBinder +onlyGivenNames -merge a1 a2 a3 a4 a5 a6
  refine .viaP (fun W => ∀ b0 b1, Keeps W s b1 → Keeps W s (a6 b0 b1)) (fun _ _ h7 =>
    Keeps.after (State.objAnswer_keeps ..) h7 rfl) fun h8 => ?_
  try clear_value a6
  exact Keeps.ite (h8 _ _ ((.refl _ _)))
      (Keeps.ite (h8 _ _ ((.refl _ _)))
        (Keeps.ite (h8 _ _ ((.refl _ _)))
          (Keeps.ite (h8 _ _ ((.refl _ _)))
            (Keeps.ite (h8 _ _ ((.refl _ _)))
              (Keeps.ite (h8 _ _ ((.refl _ _)))
                (Keeps.ite (by
                    clear_value a1
                    split
                    · exact Keeps.ite (Keeps.after (State.chunkIn_keeps ..) ((.refl _ _)) rfl)
                        (h8 _ _ ((.refl _ _)))
                    · exact (.refl _ _))
                  (by
                    extract_lets -underBinder +onlyGivenNames -merge a9
                    refine .viaP (fun W => ∀ b0, Keeps W s b0 → Keeps W s (a9 b0)) (fun _ h10 =>
                      by
                        dsimp -zeta only [a9]
                        extract_lets -underBinder +onlyGivenNames -merge s12
                        refine .viaKeeps (x := s12) (by
                            dsimp -zeta only [s12]
                            clear_value a1
                            split
                            · exact Keeps.after (State.objAnswer_keeps ..) h10 rfl
                            · exact h10) fun h13 => ?_
                        try clear_value s12
                        exact Keeps.after (State.chunkIn_keeps ..) h13 rfl) fun h11 => ?_
                    try clear_value a9
                    exact Keeps.ite (h11 _ ((.refl _ _)))
                        (by
                          split
                          · exact h8 _ _ ((.refl _ _))
                          · exact h11 _ (Keeps.after (State.beginPart_keeps ..) ((.refl _ _)) rfl)))))))))

theorem execObjectChunk_keeps (t : Nat) (src : Nat) (type : Nat) (c : Chunk) (s : State) :
    Runs [.freeIx, .fab, .led, .stw, .win] s (execObjectChunk t src type c s) := by
  unfold execObjectChunk
  extract_lets -underBinder +onlyGivenNames -merge s1
  refine .viaKeeps (x := s1) (Keeps.after (State.tick_keeps ..) ((.refl _ _)) rfl) fun h2 => ?_
  try clear_value s1
  split
  · exact Runs.next (Keeps.after (State.takeChunk_keeps ..) h2 rfl)
  · exact Runs.next h2

theorem execUpdateBlock_keeps (t : Nat) (src : Nat) (c : Chunk) (s : State) :
    Runs [.freeIx, .fab, .led, .stw, .win] s (execUpdateBlock t src c s) := by
  unfold execUpdateBlock
  exact Runs.next (Keeps.after (State.takeChunk_keeps ..) (Keeps.after (State.tick_keeps ..) ((.refl _ _)) rfl) rfl)

theorem execPartEraseDone_keeps (t : Nat) (s : State) :
    Runs [.stw] s (execPartEraseDone t s) := by
  unfold execPartEraseDone
  exact Runs.next (Keeps.after (State.onStw_keeps ..) (Keeps.after (State.tick_keeps ..) ((.refl _ _)) rfl) rfl)

theorem execPartVerified_keeps (t : Nat) (c : Container) (s : State) :
    Runs [.freeIx, .fab, .led, .stw, .win] s (execPartVerified t c s) := by
  unfold execPartVerified
  extract_lets -underBinder +onlyGivenNames -merge s1
  refine .viaKeeps (x := s1) (Keeps.after (State.tick_keeps ..) ((.refl _ _)) rfl) fun h2 => ?_
  try clear_value s1
  split
  · exact Runs.next h2
  · split
    · extract_lets -underBinder +onlyGivenNames -merge a3 s4
      refine .viaKeeps (x := s4) (Keeps.after (State.onSlot_keeps ..) h2 rfl) fun h5 => ?_
      try clear_value s4
      extract_lets -underBinder +onlyGivenNames -merge s6
      refine .viaKeeps (x := s6) (Keeps.after (State.onStw_keeps ..) h5 rfl) fun h7 => ?_
      try clear_value s6
      extract_lets -underBinder +onlyGivenNames -merge a8 a9
      clear_value a9
      split
      · exact Runs.next (Keeps.after (State.objAnswer_keeps ..) (Keeps.after (State.updateEv_keeps ..) (Keeps.after (State.onSlot_keeps ..) h7 rfl) rfl) rfl)
      · exact Runs.next (Keeps.after (State.objAnswer_keeps ..) (Keeps.after (State.updateEv_keeps ..) (Keeps.after (State.onSlot_keeps ..) h7 rfl) rfl) rfl)

theorem State.objectEv_keeps (a : Assembly) (status : Nat) (s : State) :
    Keeps [.led] s (State.objectEv a status s) := by
  unfold State.objectEv
  exact Keeps.after (State.raise_keeps ..) ((.refl _ _)) rfl

theorem State.objRow_keeps {W : List Fld} {s : State} {t ix : Nat} {mine : Nat → Nat → Bool}
    {act : Assembly → Obj → State → State × Option Nat} (h : ∀ a o x, Keeps W s x → Keeps1 W s (act a o x))
    (w : within [.freeIx, .fab, .stw, .win, .led] W = true) : Runs W s (s.objRow t ix mine act) := by
  unfold State.objRow
  extract_lets -underBinder +onlyGivenNames -merge s1
  have h1 : Keeps W s s1 := (State.tick_keeps ..).mono rfl
  clear_value s1
  split
  · exact Runs.next h1
  · refine Runs.ite (Runs.next h1) ?_
    extract_lets -underBinder +onlyGivenNames -merge s2 done
    have h2 : Keeps W s s2 := Keeps.after (State.setAsm_keeps ..) h1 (within_trans rfl w)
    have hf : ∀ a b, Keeps W s b → Keeps W s (done a b) := fun _ _ h => Keeps.after (State.objAnswer_keeps ..) h (within_trans rfl w)
    clear_value done s2
    refine Runs.ite (Runs.next (hf _ _ h2)) ?_
    dsimp only
    split
    · refine Runs.next ?_
      split
      · exact hf _ _ (h _ _ _ (Keeps.after (State.onStw_keeps ..) h2 (within_trans rfl w)))
      · exact h _ _ _ (Keeps.after (State.onStw_keeps ..) h2 (within_trans rfl w))
    · exact Runs.next (hf _ _ (Keeps.after (State.objectEv_keeps ..) h2 (within_trans rfl w)))

theorem State.amendmentEv_keeps (status : Nat) (entries : Nat) (first : Nat) (seq : Nat) (s : State) :
    Keeps [.led] s (State.amendmentEv status entries first seq s) := by
  unfold State.amendmentEv
  exact Keeps.after (State.raise_keeps ..) ((.refl _ _)) rfl

theorem State.takeAmendment_keeps (a : Assembly) (o : Obj) (s : State) :
    Keeps1 [.led, .stw] s (State.takeAmendment a o s) := by
  unfold State.takeAmendment
  extract_lets -underBinder +onlyGivenNames -merge a1 a2 a3 a4
  refine .viaP (fun W => ∀ b0 b1, Keeps W s b1 → Keeps1 W s (a4 b0 b1)) (fun _ _ h5 =>
    Keeps1.mk (Keeps.after (State.amendmentEv_keeps ..) h5 rfl)) fun h6 => ?_
  try clear_value a4
  exact Keeps1.ite (h6 _ _ ((.refl _ _)))
      (Keeps1.ite (h6 _ _ ((.refl _ _)))
        (by
          split
          · exact h6 _ _ ((.refl _ _))
          · extract_lets -underBinder +onlyGivenNames -merge a7
            exact Keeps1.ite (h6 _ _ ((.refl _ _)))
                (Keeps1.ite (h6 _ _ ((.refl _ _)))
                  (by
                    split
                    next heq =>
                    refine .ofP1 heq (Keeps.after (State.journalAppend_keeps ..) ((.refl _ _)) rfl) fun h8 => ?_
                    exact Keeps1.ite (h6 _ _ h8)
                      (by
                        extract_lets -underBinder +onlyGivenNames -merge a9 a10 a11 s12
                        refine .viaKeeps (x := s12) (Keeps.after (State.onStw_keeps ..) h8 rfl) fun h13 => ?_
                        try clear_value s12
                        exact Keeps1.ite (Keeps1.mk h13)
                            (h6 _ _ h13))))))

theorem execAmendment_keeps (t : Nat) (s : State) :
    Runs [.freeIx, .fab, .led, .stw, .win] s (execAmendment t s) := by
  unfold execAmendment
  exact State.objRow_keeps (fun _ _ _ h1 =>
    Keeps.after (State.takeAmendment_keeps ..) h1 rfl) rfl

theorem State.supersede_keeps (p : PendAmd) (s : State) :
    Keeps [.survey, .led, .stw] s (State.supersede p s) := by
  unfold State.supersede
  extract_lets -underBinder +onlyGivenNames -merge a1
  exact Keeps.ite ((.refl _ _))
      (by
        extract_lets -underBinder +onlyGivenNames -merge s2
        refine .viaKeeps (x := s2) (Keeps.foldl (fun _ _ h3 =>
            Keeps.after (State.surveyResult_keeps ..) h3 rfl)
            ((.refl _ _)) _) fun h4 => ?_
        try clear_value s2
        extract_lets -underBinder +onlyGivenNames -merge s5
        refine .viaKeeps (x := s5) (Keeps.after (State.onStw_keeps ..) h4 rfl) fun h6 => ?_
        try clear_value s5
        extract_lets -underBinder +onlyGivenNames -merge r7 s8
        refine .viaKeeps (x := s8) (Keeps.after (Keeps.survey ..) h6 rfl) fun h9 => ?_
        try clear_value s8
        extract_lets -underBinder +onlyGivenNames -merge a10
        exact Keeps.after (State.journalAppend_keeps ..) h9 rfl)

theorem State.commitAmd_keeps (p : PendAmd) (s : State) :
    Keeps [.freeIx, .cfg, .survey, .fab, .led, .stw, .win] s (State.commitAmd p s) := by
  unfold State.commitAmd
  extract_lets -underBinder +onlyGivenNames -merge s1
  refine .viaKeeps (x := s1) (Keeps.after (State.supersede_keeps ..) ((.refl _ _)) rfl) fun h2 => ?_
  try clear_value s1
  extract_lets -underBinder +onlyGivenNames -merge r3 s4
  refine .viaKeeps (x := s4) (Keeps.onto h2 [.cfg, .stw] rfl
      (Keeps.of rfl rfl (fun hw => by first | exact applyCells_wf _ _ hw | exact applyCells_wf _ _ nil_wf | exact nil_wf | exact ite_wf _ _) fun x => by cases x <;> first | exact .inr rfl | exact .inl rfl)) fun h5 => ?_
  try clear_value s4
  extract_lets -underBinder +onlyGivenNames -merge a6
  exact Keeps.after (State.objAnswer_keeps ..) (Keeps.after (State.amendmentEv_keeps ..) h5 rfl) rfl

theorem execAmendmentCommit_keeps (t : Nat) (s : State) :
    Runs [.freeIx, .cfg, .cmp, .survey, .fab, .led, .stw, .wake, .win] s (execAmendmentCommit t s) := by
  unfold execAmendmentCommit
  extract_lets -underBinder +onlyGivenNames -merge s1
  refine .viaKeeps (x := s1) (Keeps.after (State.tick_keeps ..) ((.refl _ _)) rfl) fun h2 => ?_
  try clear_value s1
  exact Runs.ite (Runs.next h2)
      (by
        extract_lets -underBinder +onlyGivenNames -merge s3
        refine .viaKeeps (x := s3) (Keeps.after (State.cmpAmended_keeps ..) (Keeps.foldl (fun _ _ h4 =>
              Keeps.after (State.commitAmd_keeps ..) h4 rfl)
              h2 _) rfl) fun h5 => ?_
        try clear_value s3
        exact Runs.next (Keeps.after (Keeps.wake ..) h5 rfl))

theorem execSurveyCommit_keeps (t : Nat) (axis : Nat) (s : State) :
    Runs [.cfg, .survey] s (execSurveyCommit t axis s) := by
  unfold execSurveyCommit
  extract_lets -underBinder +onlyGivenNames -merge s1
  refine .viaKeeps (x := s1) (Keeps.after (State.tick_keeps ..) ((.refl _ _)) rfl) fun h2 => ?_
  try clear_value s1
  exact Runs.ite (Runs.next h2)
      (by
        extract_lets -underBinder +onlyGivenNames -merge a3 s4
        refine .viaKeeps (x := s4) (Keeps.foldl (fun _ _ h5 =>
            Keeps.after (State.surveyTake_keeps ..) h5 rfl)
            h2 _) fun h6 => ?_
        try clear_value s4
        exact Runs.next (Keeps.after (Keeps.survey ..) h6 rfl))

theorem State.keyEv_keeps (gen : Nat) (action : Nat) (was : Nat) (s : State) :
    Keeps [.led] s (State.keyEv gen action was s) := by
  unfold State.keyEv
  exact Keeps.after (State.raise_keeps ..) ((.refl _ _)) rfl

theorem State.onFab_keeps (f : Fab → Fab) (s : State) :
    Keeps [.fab] s (State.onFab f s) := by
  unfold State.onFab
  exact Keeps.after (Keeps.fab ..) ((.refl _ _)) rfl

theorem State.holdKey_keeps (gen : Nat) (key : List Octet) (at_ : Option Int) (s : State) :
    Keeps [.fab, .led, .stw] s (State.holdKey gen key at_ s) := by
  unfold State.holdKey
  extract_lets -underBinder +onlyGivenNames -merge a1
  exact Keeps.ite (Keeps.after (State.keyEv_keeps ..) (Keeps.after (State.onFab_keeps ..) ((.refl _ _)) rfl) rfl)
      (by
        extract_lets -underBinder +onlyGivenNames -merge a2 s3
        refine .viaKeeps (x := s3) (Keeps.after (State.onFab_keeps ..) ((.refl _ _)) rfl) fun h4 => ?_
        try clear_value s3
        extract_lets -underBinder +onlyGivenNames -merge s5
        refine .viaKeeps (x := s5) (Keeps.after (State.onStw_keeps ..) h4 rfl) fun h6 => ?_
        try clear_value s5
        extract_lets -underBinder +onlyGivenNames -merge s7
        refine .viaKeeps (x := s7) (Keeps.ite (Keeps.after (State.keyEv_keeps ..) h6 rfl)
            h6) fun h8 => ?_
        try clear_value s7
        exact Keeps.after (State.keyEv_keeps ..) h8 rfl)

theorem State.takeKey_keeps (a0 : Assembly) (o : Obj) (s : State) :
    Keeps1 [.fab, .led, .stw] s (State.takeKey a0 o s) := by
  unfold State.takeKey
  extract_lets -underBinder +onlyGivenNames -merge a1
  exact Keeps1.ite (Keeps1.mk ((.refl _ _)))
      (Keeps1.ite (Keeps1.mk ((.refl _ _)))
        (by
          split
          · exact Keeps1.mk ((.refl _ _))
          · extract_lets -underBinder +onlyGivenNames -merge a2
            exact Keeps1.mk (Keeps.after (State.holdKey_keeps ..) ((.refl _ _)) rfl)))

theorem execKeyDelivery_keeps (t : Nat) (s : State) :
    Runs [.freeIx, .fab, .led, .stw, .win] s (execKeyDelivery t s) := by
  unfold execKeyDelivery
  exact State.objRow_keeps (fun _ _ _ h1 =>
    Keeps.after (State.takeKey_keeps ..) h1 rfl) rfl

theorem execKeyActivation_keeps (t : Nat) (s : State) :
    Runs [.fab, .led, .stw] s (execKeyActivation t s) := by
  unfold execKeyActivation
  extract_lets -underBinder +onlyGivenNames -merge s1
  refine .viaKeeps (x := s1) (Keeps.after (State.tick_keeps ..) ((.refl _ _)) rfl) fun h2 => ?_
  try clear_value s1
  split
  · exact Runs.next h2
  · exact Runs.ite (Runs.next h2)
      (by
        extract_lets -underBinder +onlyGivenNames -merge a3 s4
        refine .viaKeeps (x := s4) (Keeps.after (State.onFab_keeps ..) h2 rfl) fun h5 => ?_
        try clear_value s4
        exact Runs.next (Keeps.after (State.keyEv_keeps ..) (Keeps.after (State.onStw_keeps ..) h5 rfl) rfl))

theorem State.takeFuse_keeps (a0 : Assembly) (o : Obj) (s : State) :
    Keeps1 [.stw] s (State.takeFuse a0 o s) := by
  unfold State.takeFuse
  extract_lets -underBinder +onlyGivenNames -merge a1
  exact Keeps1.ite (Keeps1.mk ((.refl _ _)))
      (Keeps1.mk (Keeps.after (State.onStw_keeps ..) ((.refl _ _)) rfl))

theorem execOwnerKeyFuse_keeps (t : Nat) (s : State) :
    Runs [.freeIx, .fab, .led, .stw, .win] s (execOwnerKeyFuse t s) := by
  unfold execOwnerKeyFuse
  exact State.objRow_keeps (fun _ _ _ h1 =>
    Keeps.after (State.takeFuse_keeps ..) h1 rfl) rfl

theorem State.takeRevoke_keeps (a0 : Assembly) (o : Obj) (s : State) :
    Keeps1 [.stw] s (State.takeRevoke a0 o s) := by
  unfold State.takeRevoke
  extract_lets -underBinder +onlyGivenNames -merge a1 a2
  exact Keeps1.ite (Keeps1.mk ((.refl _ _)))
      (Keeps1.mk (Keeps.after (State.onStw_keeps ..) ((.refl _ _)) rfl))

theorem execOwnerKeyRevoke_keeps (t : Nat) (s : State) :
    Runs [.freeIx, .fab, .led, .stw, .win] s (execOwnerKeyRevoke t s) := by
  unfold execOwnerKeyRevoke
  exact State.objRow_keeps (fun _ _ _ h1 =>
    Keeps.after (State.takeRevoke_keeps ..) h1 rfl) rfl

theorem State.zeroKeys_keeps (s : State) :
    Keeps [.fab, .led, .stw] s (State.zeroKeys s) := by
  unfold State.zeroKeys
  extract_lets -underBinder +onlyGivenNames -merge a1 a2 s3
  refine .viaKeeps (x := s3) (Keeps.after (State.onFab_keeps ..) ((.refl _ _)) rfl) fun h4 => ?_
  try clear_value s3
  extract_lets -underBinder +onlyGivenNames -merge s5
  refine .viaKeeps (x := s5) (Keeps.after (State.onStw_keeps ..) h4 rfl) fun h6 => ?_
  try clear_value s5
  exact Keeps.foldl (fun _ _ h7 =>
      Keeps.after (State.keyEv_keeps ..) h7 rfl)
      h6 _

theorem State.takeZeroise_keeps (a0 : Assembly) (o : Obj) (s : State) :
    Keeps1 [.fab, .led, .stw] s (State.takeZeroise a0 o s) := by
  unfold State.takeZeroise
  extract_lets -underBinder +onlyGivenNames -merge a1
  exact Keeps1.ite (Keeps1.mk ((.refl _ _)))
      (Keeps1.ite (Keeps1.mk ((.refl _ _)))
        (by
          extract_lets -underBinder +onlyGivenNames -merge s2
          refine .viaKeeps (x := s2) (Keeps.after (State.beginFlush_keeps ..) (Keeps.after (State.zeroKeys_keeps ..) (Keeps.after (State.raise_keeps ..) ((.refl _ _)) rfl) rfl) rfl) fun h3 => ?_
          try clear_value s2
          exact Keeps1.mk (Keeps.ite (Keeps.after (State.onStw_keeps ..) h3 rfl)
                h3)))

theorem execZeroise_keeps (t : Nat) (s : State) :
    Runs [.freeIx, .fab, .led, .stw, .win] s (execZeroise t s) := by
  unfold execZeroise
  exact Runs.ite (Runs.next (Keeps.after (State.tick_keeps ..) ((.refl _ _)) rfl))
    (State.objRow_keeps (fun _ _ _ h1 =>
      Keeps.after (State.takeZeroise_keeps ..) h1 rfl) rfl)

theorem State.takeCommit_keeps (a0 : Assembly) (o : Obj) (s : State) :
    Keeps1 [.led, .stw] s (State.takeCommit a0 o s) := by
  unfold State.takeCommit
  extract_lets -underBinder +onlyGivenNames -merge a1
  exact Keeps1.ite (Keeps1.mk ((.refl _ _)))
      (Keeps1.ite (Keeps1.mk ((.refl _ _)))
        (Keeps1.mk (Keeps.after (State.commitSlot_keeps ..) ((.refl _ _)) rfl)))

theorem execCommit_keeps (t : Nat) (s : State) :
    Runs [.freeIx, .fab, .led, .stw, .win] s (execCommit t s) := by
  unfold execCommit
  split
  · exact Runs.next (Keeps.ite (Keeps.after (State.commitSlot_keeps ..) (Keeps.after (State.tick_keeps ..) ((.refl _ _)) rfl) rfl)
        (Keeps.after (State.tick_keeps ..) ((.refl _ _)) rfl))
  · exact State.objRow_keeps (fun _ _ _ h1 =>
      Keeps.after (State.takeCommit_keeps ..) h1 rfl) rfl

theorem State.takeAttest_keeps (src : Nat) (keyless : Bool) (nonce : List Octet) (flags : Nat) (s : State) :
    Keeps [.freeIx, .fab, .led, .stw, .win] s (State.takeAttest src keyless nonce flags s) := by
  unfold State.takeAttest
  extract_lets -underBinder +onlyGivenNames -merge a1
  refine .viaP (fun W => ∀ b0 b1, Keeps W s b1 → Keeps W s (a1 b0 b1)) (fun _ _ h2 =>
    Keeps.after (State.raise_keeps ..) (Keeps.after (State.updateStatus_keeps ..) h2 rfl) rfl) fun h3 => ?_
  try clear_value a1
  extract_lets -underBinder +onlyGivenNames -merge a4
  exact Keeps.ite ((.refl _ _))
      (Keeps.ite (h3 _ _ ((.refl _ _)))
        (Keeps.ite (h3 _ _ ((.refl _ _)))
          (Keeps.ite (h3 _ _ ((.refl _ _)))
            (by
              extract_lets -underBinder +onlyGivenNames -merge a5
              exact Keeps.ite (Keeps.after (State.onStw_keeps ..) ((.refl _ _)) rfl)
                  (Keeps.ite (Keeps.after (State.onStw_keeps ..) ((.refl _ _)) rfl)
                    (h3 _ _ ((.refl _ _))))))))

theorem execAttestRequest_keeps (t : Nat) (src : Nat) (keyless : Bool) (nonce : List Octet) (flags : Nat) (s : State) :
    Runs [.freeIx, .fab, .led, .stw, .win] s (execAttestRequest t src keyless nonce flags s) := by
  unfold execAttestRequest
  exact Runs.next (Keeps.after (State.takeAttest_keeps ..) (Keeps.after (State.tick_keeps ..) ((.refl _ _)) rfl) rfl)

theorem State.sendReport_keeps (q : AttReq) (s : State) :
    Keeps [.freeIx, .fab, .win] s (State.sendReport q s) := by
  unfold State.sendReport
  extract_lets -underBinder +onlyGivenNames -merge a1 a2
  split
  next heq =>
  refine .ofP2 heq (Keeps.after (State.free_keeps ..) ((.refl _ _)) rfl) fun h3 => ?_
  exact by
    extract_lets -underBinder +onlyGivenNames -merge a4
    exact Keeps1.foldl (fun _ _ h5 =>
        Keeps1.mk (Keeps.after (State.sendTo_keeps ..) h5 rfl))
        (Keeps1.mk h3) _

theorem execAttestSigned_keeps (t : Nat) (pass : Bool) (s : State) :
    Runs [.freeIx, .fab, .led, .mode, .stw, .win] s (execAttestSigned t pass s) := by
  unfold execAttestSigned
  extract_lets -underBinder +onlyGivenNames -merge s1
  refine .viaKeeps (x := s1) (Keeps.after (State.tick_keeps ..) ((.refl _ _)) rfl) fun h2 => ?_
  try clear_value s1
  split
  · exact Runs.next h2
  · exact Runs.ite (Runs.next h2)
      (Runs.ite (by
          split
          next heq =>
          refine .ofP2 heq (Keeps.after (State.free_keeps ..) h2 rfl) fun h3 => ?_
          exact Runs.next (Keeps.after (State.securityError_keeps ..) (Keeps.after (State.onStw_keeps ..) h3 rfl) rfl))
        (by
          extract_lets -underBinder +onlyGivenNames -merge s4
          refine .viaKeeps (x := s4) (Keeps.after (State.sendReport_keeps ..) h2 rfl) fun h5 => ?_
          try clear_value s4
          extract_lets -underBinder +onlyGivenNames -merge s6
          refine .viaKeeps (x := s6) (Keeps.after (State.onStw_keeps ..) h5 rfl) fun h7 => ?_
          try clear_value s6
          exact Runs.next (Keeps.after (State.raise_keeps ..) h7 rfl)))

end Sys2Proof.Machine
end

