-- ==== Sys2Proof/Laws/Waking.lean ====
section
/-! SUPPORT. The laws of the operations of Machine/Waking.lean: which fields of the state each may change. -/

namespace Sys2Proof.Machine

theorem State.onWake_keeps (f : Wake → Wake) (s : State) :
    Keeps [.wake] s (State.onWake f s) := by
  unfold State.onWake
  exact Keeps.after (Keeps.wake ..) ((.refl _ _)) rfl

theorem State.beginWaking_keeps (s : State) :
    Keeps (allBut [.pending, .freeIx, .trims, .scTrims]) s (State.beginWaking s) := by
  unfold State.beginWaking
  extract_lets -underBinder +onlyGivenNames -merge s1
  refine .viaKeeps (x := s1) (Keeps.after (State.beginFlush_keeps ..) (Keeps.after (State.holdMotion_keeps ..) (Keeps.after (State.setMode_keeps ..) ((.refl _ _)) rfl) rfl) rfl) fun h2 => ?_
  try clear_value s1
  extract_lets -underBinder +onlyGivenNames -merge s3
  refine .viaKeeps (x := s3) (Keeps.after (State.onWake_keeps ..) h2 rfl) fun h4 => ?_
  try clear_value s3
  exact Keeps.ite (Keeps.after (State.resetEnd_keeps ..) h4 rfl)
      h4

theorem State.wakeStop_keeps (cause : Nat) (s : State) :
    Keeps [.led, .mode, .wake] s (State.wakeStop cause s) := by
  unfold State.wakeStop
  extract_lets -underBinder +onlyGivenNames -merge s1
  refine .viaKeeps (x := s1) (Keeps.after (State.onWake_keeps ..) ((.refl _ _)) rfl) fun h2 => ?_
  try clear_value s1
  exact Keeps.after (State.setMode_keeps ..) (Keeps.after (Keeps.mode ..) h2 rfl) rfl

theorem State.fabricUp_keeps (s : State) :
    Keeps [.fab] s (State.fabricUp s) := by
  unfold State.fabricUp
  exact Keeps.eachIx (fun _ _ h1 =>
    Keeps.after (State.onPort_keeps ..) h1 rfl)
    ((.refl _ _))

theorem State.bareHalt_keeps (w : Option Container) (s : State) :
    Keeps [.cfg, .graph, .kernels, .fab, .led, .mode, .wake] s (State.bareHalt w s) := by
  unfold State.bareHalt
  extract_lets -underBinder +onlyGivenNames -merge a1 a2 s3
  refine .viaKeeps (x := s3) (Keeps.onto ((.refl _ _)) [.cfg, .graph, .kernels] rfl
      (Keeps.of rfl rfl (fun hw => by first | exact applyCells_wf _ _ hw | exact applyCells_wf _ _ nil_wf | exact nil_wf | exact ite_wf _ _) fun x => by cases x <;> first | exact .inr rfl | exact .inl rfl)) fun h4 => ?_
  try clear_value s3
  extract_lets -underBinder +onlyGivenNames -merge s5
  refine .viaKeeps (x := s5) (Keeps.after (State.onWake_keeps ..) h4 rfl) fun h6 => ?_
  try clear_value s5
  exact Keeps.after (State.wakeStop_keeps ..) (Keeps.ite (Keeps.after (State.fabricUp_keeps ..) h6 rfl)
        h6) rfl

theorem State.rejectedEv_keeps (part : Nat) (cause : Nat) (sec : Option Nat) (sev : Nat) (s : State) :
    Keeps [.freeIx, .led, .wake] s (State.rejectedEv part cause sec sev s) := by
  unfold State.rejectedEv
  split
  next heq =>
  refine .ofP2 heq (Keeps.after (State.free_keeps ..) ((.refl _ _)) rfl) fun h1 => ?_
  exact by
    split
    next heq =>
    refine .ofP2 heq (Keeps.after (State.free_keeps ..) h1 rfl) fun h2 => ?_
    exact by
      extract_lets -underBinder +onlyGivenNames -merge a3 a4 a5
      exact Keeps.after (State.raise_keeps ..) (Keeps.after (State.onWake_keeps ..) h2 rfl) rfl

theorem State.bootFrom_keeps (s : State) :
    Keeps [.freeIx, .cfg, .graph, .kernels, .fab, .led, .mode, .wake] s (State.bootFrom s) := by
  unfold State.bootFrom
  extract_lets -underBinder +onlyGivenNames -merge s1
  refine .viaKeeps (x := s1) (Keeps.onto ((.refl _ _)) [.cfg, .graph, .kernels] rfl
      (Keeps.of rfl rfl (fun hw => by first | exact applyCells_wf _ _ hw | exact applyCells_wf _ _ nil_wf | exact nil_wf | exact ite_wf _ _) fun x => by cases x <;> first | exact .inr rfl | exact .inl rfl)) fun h2 => ?_
  try clear_value s1
  split
  · exact Keeps.after (State.onWake_keeps ..) h2 rfl
  · exact Keeps.after (State.bareHalt_keeps ..) (Keeps.after (State.rejectedEv_keeps ..) h2 rfl) rfl

theorem State.fallback_keeps (k : Nat) (s : State) :
    Keeps [.freeIx, .cfg, .graph, .kernels, .fab, .led, .mode, .stw, .wake] s (State.fallback k s) := by
  unfold State.fallback
  extract_lets -underBinder +onlyGivenNames -merge s1
  refine .viaKeeps (x := s1) (Keeps.after (State.onStw_keeps ..) ((.refl _ _)) rfl) fun h2 => ?_
  try clear_value s1
  exact Keeps.after (State.bootFrom_keeps ..) (Keeps.after (State.updateEv_keeps ..) h2 rfl) rfl

theorem State.imageFails_keeps (part : Nat) (cause : Nat) (sec : Option Nat) (w : Option Container) (s : State) :
    Keeps [.freeIx, .cfg, .graph, .kernels, .fab, .led, .mode, .stw, .wake] s (State.imageFails part cause sec w s) := by
  unfold State.imageFails
  exact Keeps.ite (Keeps.after (State.fallback_keeps ..) (Keeps.after (State.rejectedEv_keeps ..) ((.refl _ _)) rfl) rfl)
    (Keeps.after (State.bareHalt_keeps ..) (Keeps.after (State.rejectedEv_keeps ..) ((.refl _ _)) rfl) rfl)

theorem State.chooseSlot_keeps (s : State) :
    Keeps [.freeIx, .cfg, .graph, .kernels, .fab, .led, .mode, .stw, .wake] s (State.chooseSlot s) := by
  unfold State.chooseSlot
  extract_lets -underBinder +onlyGivenNames -merge s1
  refine .viaKeeps (x := s1) (Keeps.after (State.onStw_keeps ..) ((.refl _ _)) rfl) fun h2 => ?_
  try clear_value s1
  split
  · exact Keeps.after (State.bootFrom_keeps ..) h2 rfl
  · exact Keeps.ite (Keeps.after (State.fallback_keeps ..) h2 rfl)
      (by
        extract_lets -underBinder +onlyGivenNames -merge s3
        refine .viaKeeps (x := s3) (Keeps.after (State.onStw_keeps ..) h2 rfl) fun h4 => ?_
        try clear_value s3
        exact Keeps.after (State.updateEv_keeps ..) (Keeps.after (State.onWake_keeps ..) h4 rfl) rfl)

theorem State.identityFails_keeps (s : State) :
    Keeps [.led, .stw] s (State.identityFails s) := by
  unfold State.identityFails
  exact Keeps.after (State.selfTestEv_keeps ..) (Keeps.after (State.onStw_keeps ..) ((.refl _ _)) rfl) rfl

theorem State.ledgerWake_keeps (s : State) :
    Keeps [.fab, .led, .stw] s (State.ledgerWake s) := by
  unfold State.ledgerWake
  extract_lets -underBinder +onlyGivenNames -merge s1
  refine .viaKeeps (x := s1) (Keeps.after (State.onStw_keeps ..) ((.refl _ _)) rfl) fun h2 => ?_
  try clear_value s1
  extract_lets -underBinder +onlyGivenNames -merge s3
  refine .viaKeeps (x := s3) (Keeps.after (State.onFab_keeps ..) h2 rfl) fun h4 => ?_
  try clear_value s3
  exact Keeps.after (State.raise_keeps ..) h4 rfl

theorem State.startWaking_keeps (failed : List Nat) (nor : NorFacts) (s : State) :
    Keeps [.freeIx, .cfg, .graph, .kernels, .clk, .fab, .led, .mode, .stw, .wake, .pins] s (State.startWaking failed nor s) := by
  unfold State.startWaking
  extract_lets -underBinder +onlyGivenNames -merge s1
  refine .viaKeeps (x := s1) (Keeps.after (State.onPins_keeps ..) ((.refl _ _)) rfl) fun h2 => ?_
  try clear_value s1
  extract_lets -underBinder +onlyGivenNames -merge s3
  refine .viaKeeps (x := s3) (Keeps.after (State.onStw_keeps ..) h2 rfl) fun h4 => ?_
  try clear_value s3
  exact Keeps.ite (Keeps.after (State.wakeStop_keeps ..) (Keeps.after (State.securityError_keeps ..) h4 rfl) rfl)
      (by
        extract_lets -underBinder +onlyGivenNames -merge r5 s6
        refine .viaKeeps (x := s6) (Keeps.after (Keeps.clk ..) h4 rfl) fun h7 => ?_
        try clear_value s6
        exact Keeps.ite (Keeps.after (State.wakeStop_keeps ..) (Keeps.foldl (fun _ _ h8 =>
                Keeps.after (State.securityError_keeps ..) h8 rfl)
                h7 _) rfl)
            (by
              extract_lets -underBinder +onlyGivenNames -merge s9
              refine .viaKeeps (x := s9) (Keeps.ite (Keeps.after (State.identityFails_keeps ..) h7 rfl)
                  h7) fun h10 => ?_
              try clear_value s9
              extract_lets -underBinder +onlyGivenNames -merge s11
              refine .viaKeeps (x := s11) (Keeps.after (State.ledgerWake_keeps ..) h10 rfl) fun h12 => ?_
              try clear_value s11
              exact Keeps.ite (Keeps.after (State.wakeStop_keeps ..) h12 rfl)
                  (by
                    extract_lets -underBinder +onlyGivenNames -merge s13
                    refine .viaKeeps (x := s13) (Keeps.after (State.onWake_keeps ..) h12 rfl) fun h14 => ?_
                    try clear_value s13
                    exact Keeps.ite (Keeps.after (State.bareHalt_keeps ..) (Keeps.after (State.rejectedEv_keeps ..) h14 rfl) rfl)
                        (Keeps.after (State.chooseSlot_keeps ..) h14 rfl))))

theorem execWaking_keeps (t : Nat) (failed : List Nat) (nor : NorFacts) (s : State) :
    Runs (allBut [.pending, .trims, .scTrims]) s (execWaking t failed nor s) := by
  unfold execWaking
  extract_lets -underBinder +onlyGivenNames -merge s1
  refine .viaKeeps (x := s1) (Keeps.after (State.tick_keeps ..) ((.refl _ _)) rfl) fun h2 => ?_
  try clear_value s1
  extract_lets -underBinder +onlyGivenNames -merge s3
  refine .viaKeeps (x := s3) (Keeps.ite (Keeps.after (State.resetEnd_keeps ..) h2 rfl)
      h2) fun h4 => ?_
  try clear_value s3
  exact Runs.ite (Runs.next h4)
      (Runs.next (Keeps.after (State.startWaking_keeps ..) h4 rfl))

theorem execContainerChecked_keeps (t : Nat) (part : Nat) (c : Container) (s : State) :
    Runs [.freeIx, .cfg, .graph, .kernels, .fab, .led, .mode, .stw, .wake] s (execContainerChecked t part c s) := by
  unfold execContainerChecked
  extract_lets -underBinder +onlyGivenNames -merge s1
  refine .viaKeeps (x := s1) (Keeps.after (State.tick_keeps ..) ((.refl _ _)) rfl) fun h2 => ?_
  try clear_value s1
  exact Runs.ite (by
        extract_lets -underBinder +onlyGivenNames -merge s3
        refine .viaKeeps (x := s3) (Keeps.after (State.onSlot_keeps ..) h2 rfl) fun h4 => ?_
        try clear_value s3
        split
        · exact Runs.next (Keeps.after (State.onWake_keeps ..) h4 rfl)
        · exact Runs.next (Keeps.after (State.imageFails_keeps ..) h4 rfl))
      (Runs.ite (by
          extract_lets -underBinder +onlyGivenNames -merge s5
          refine .viaKeeps (x := s5) (Keeps.after (State.onSlot_keeps ..) h2 rfl) fun h6 => ?_
          try clear_value s5
          split
          · exact Runs.next (Keeps.after (State.onWake_keeps ..) h6 rfl)
          · exact Runs.next (Keeps.after (State.imageFails_keeps ..) h6 rfl))
        (Runs.next h2))

theorem execContainerLoaded_keeps (t : Nat) (fw : List Octet) (wb : List Octet) (s : State) :
    Runs [.freeIx, .cfg, .graph, .kernels, .fab, .led, .mode, .stw, .wake] s (execContainerLoaded t fw wb s) := by
  unfold execContainerLoaded
  extract_lets -underBinder +onlyGivenNames -merge s1
  refine .viaKeeps (x := s1) (Keeps.after (State.tick_keeps ..) ((.refl _ _)) rfl) fun h2 => ?_
  try clear_value s1
  exact Runs.ite (Runs.next h2)
      (Runs.ite (Runs.next (Keeps.after (State.imageFails_keeps ..) h2 rfl))
        (Runs.ite (Runs.next (Keeps.after (State.imageFails_keeps ..) h2 rfl))
          (Runs.next (Keeps.after (State.onWake_keeps ..) (Keeps.after (State.withImage_keeps ..) h2 rfl) rfl))))

theorem execSectionCheck_keeps (t : Nat) (s : State) :
    Runs [.freeIx, .cfg, .graph, .kernels, .fab, .led, .mode, .stw, .wake] s (execSectionCheck t s) := by
  unfold execSectionCheck
  extract_lets -underBinder +onlyGivenNames -merge s1
  refine .viaKeeps (x := s1) (Keeps.after (State.tick_keeps ..) ((.refl _ _)) rfl) fun h2 => ?_
  try clear_value s1
  exact Runs.ite (Runs.next h2)
      (by
        split
        · exact Runs.next (Keeps.after (State.onWake_keeps ..) h2 rfl)
        · exact Runs.next (Keeps.after (State.imageFails_keeps ..) h2 rfl))

theorem State.learnTarget_keeps (e : JEntry) (s : State) :
    Keeps2 [.freeIx] s (State.learnTarget e s) := by
  unfold State.learnTarget
  extract_lets -underBinder +onlyGivenNames -merge a1
  split
  · split
    next heq =>
    refine .ofP2 heq (Keeps.after (State.free_keeps ..) ((.refl _ _)) rfl) fun h2 => ?_
    exact Keeps2.mk h2
  · exact Keeps2.mk ((.refl _ _))
  · exact Keeps2.mk ((.refl _ _))
  · exact Keeps2.mk ((.refl _ _))
  · exact Keeps2.mk ((.refl _ _))

theorem State.skipEntry_keeps (e : JEntry) (reason : Nat) (status : Nat) (s : State) :
    Keeps [.led, .wake] s (State.skipEntry e reason status s) := by
  unfold State.skipEntry
  exact Keeps.after (State.raise_keeps ..) (Keeps.after (State.onWake_keeps ..) ((.refl _ _)) rfl) rfl

theorem State.skipSurvey_keeps (e : JEntry) (reason : Nat) (s : State) :
    Keeps [.freeIx, .led, .wake] s (State.skipSurvey e reason s) := by
  unfold State.skipSurvey
  split
  next heq =>
  refine .ofP2 heq (Keeps.after (State.learnTarget_keeps ..) (Keeps.after (State.onWake_keeps ..) ((.refl _ _)) rfl) rfl) fun h1 => ?_
  exact Keeps.after (State.raise_keeps ..) h1 rfl

theorem State.replayOne_keeps (last : Bool) (e : JEntry) (s : State) :
    Keeps [.freeIx, .cfg, .survey, .led, .stw, .wake] s (State.replayOne last e s) := by
  unfold State.replayOne
  extract_lets -underBinder +onlyGivenNames -merge a1 a2
  exact Keeps.ite ((.refl _ _))
      (Keeps.ite (Keeps.ite (Keeps.after (State.onWake_keeps ..) ((.refl _ _)) rfl)
          (Keeps.ite (Keeps.after (State.skipSurvey_keeps ..) ((.refl _ _)) rfl)
            (Keeps.after (State.skipEntry_keeps ..) ((.refl _ _)) rfl)))
        (Keeps.ite (Keeps.after (State.skipSurvey_keeps ..) ((.refl _ _)) rfl)
          (Keeps.ite ((.refl _ _))
            (by
              extract_lets -underBinder +onlyGivenNames -merge a3
              exact Keeps.ite (Keeps.ite (Keeps.after (State.skipSurvey_keeps ..) ((.refl _ _)) rfl)
                    (Keeps.after (State.skipEntry_keeps ..) ((.refl _ _)) rfl))
                  (by
                    extract_lets -underBinder +onlyGivenNames -merge s4
                    refine .viaKeeps (x := s4) (Keeps.onto ((.refl _ _)) [.cfg] rfl
                        (Keeps.of rfl rfl (fun hw => by first | exact applyCells_wf _ _ hw | exact applyCells_wf _ _ nil_wf | exact nil_wf | exact ite_wf _ _) fun x => by cases x <;> first | exact .inr rfl | exact .inl rfl)) fun h5 => ?_
                    try clear_value s4
                    extract_lets -underBinder +onlyGivenNames -merge s6
                    refine .viaKeeps (x := s6) (Keeps.after (State.onWake_keeps ..) h5 rfl) fun h7 => ?_
                    try clear_value s6
                    exact Keeps.ite (Keeps.after (Keeps.survey ..) h7 rfl)
                        (Keeps.after (State.onStw_keeps ..) h7 rfl))))))

theorem State.replay_keeps (s : State) :
    Keeps [.freeIx, .cfg, .survey, .led, .stw, .wake] s (State.replay s) := by
  unfold State.replay
  extract_lets -underBinder +onlyGivenNames -merge a1
  exact Keeps.foldl (fun _ _ h2 =>
      Keeps.after (State.replayOne_keeps ..) h2 rfl)
      ((.refl _ _)) _

theorem State.terminate_keeps (s : State) :
    Keeps [.pins] s (State.terminate s) := by
  unfold State.terminate
  exact Keeps.after (State.onPins_keeps ..) ((.refl _ _)) rfl

theorem State.stageZero_keeps (s : State) :
    Keeps [.stage, .disp, .emu, .acq, .fab, .twin, .wake, .pins] s (State.stageZero s) := by
  unfold State.stageZero
  extract_lets -underBinder +onlyGivenNames -merge s1
  refine .viaKeeps (x := s1) (Keeps.after (State.onWake_keeps ..) ((.refl _ _)) rfl) fun h2 => ?_
  try clear_value s1
  extract_lets -underBinder +onlyGivenNames -merge r3 s4
  refine .viaKeeps (x := s4) (Keeps.onto h2 [.stage, .disp, .emu, .acq] rfl
      (Keeps.of rfl rfl id fun x => by cases x <;> first | exact .inr rfl | exact .inl rfl)) fun h5 => ?_
  try clear_value s4
  extract_lets -underBinder +onlyGivenNames -merge s6
  refine .viaKeeps (x := s6) (Keeps.ite (Keeps.after (State.onTwin_keeps ..) h5 rfl)
      h5) fun h7 => ?_
  try clear_value s6
  exact Keeps.after (State.fabricUp_keeps ..) (Keeps.after (State.terminate_keeps ..) h7 rfl) rfl

theorem execJournalReplay_keeps (t : Nat) (s : State) :
    Runs [.freeIx, .cfg, .stage, .disp, .emu, .acq, .survey, .fab, .twin, .led, .stw, .wake, .pins] s (execJournalReplay t s) := by
  unfold execJournalReplay
  extract_lets -underBinder +onlyGivenNames -merge s1
  refine .viaKeeps (x := s1) (Keeps.after (State.tick_keeps ..) ((.refl _ _)) rfl) fun h2 => ?_
  try clear_value s1
  exact Runs.ite (Runs.next h2)
      (Runs.next (Keeps.after (State.stageZero_keeps ..) (Keeps.after (State.replay_keeps ..) h2 rfl) rfl))

theorem State.takeActivate_keeps (a0 : Assembly) (o : Obj) (s : State) :
    Keeps1 [.led, .stw] s (State.takeActivate a0 o s) := by
  unfold State.takeActivate
  extract_lets -underBinder +onlyGivenNames -merge a1
  exact Keeps1.ite (Keeps1.mk ((.refl _ _)))
      (Keeps1.ite (Keeps1.mk ((.refl _ _)))
        (by
          extract_lets -underBinder +onlyGivenNames -merge s2
          refine .viaKeeps (x := s2) (Keeps.after (State.onSlot_keeps ..) ((.refl _ _)) rfl) fun h3 => ?_
          try clear_value s2
          exact Keeps1.mk (Keeps.after (State.updateEv_keeps ..) (Keeps.after (State.onStw_keeps ..) h3 rfl) rfl)))

theorem execActivate_keeps (t : Nat) (s : State) : Runs (allBut [.pending, .trims, .scTrims]) s (execActivate t s) := by
  unfold execActivate
  refine Runs.ite (Runs.next ((State.tick_keeps ..).mono rfl)) ?_
  have h : Runs (allBut [.pending, .trims, .scTrims]) s (s.objRow t 2 (fun k g => k == 8 && g != 255) State.takeActivate) :=
    State.objRow_keeps (fun _ _ _ h => Keeps.after (State.takeActivate_keeps ..) h rfl) rfl
  obtain ⟨u, hu, hk⟩ := h
  dsimp only
  rw [hu]
  exact Runs.next (Keeps.ite (Keeps.after (State.beginWaking_keeps ..) hk rfl) hk)

theorem execUnsignedOwnerKey_keeps (t : Nat) (s : State) :
    Runs (allBut [.pending, .trims, .scTrims]) s (execUnsignedOwnerKey t s) := by
  unfold execUnsignedOwnerKey
  extract_lets -underBinder +onlyGivenNames -merge s1
  refine .viaKeeps (x := s1) (Keeps.after (State.tick_keeps ..) ((.refl _ _)) rfl) fun h2 => ?_
  try clear_value s1
  split
  · exact Runs.next h2
  · exact Runs.ite (Runs.next h2)
      (by
        extract_lets -underBinder +onlyGivenNames -merge s3
        refine .viaKeeps (x := s3) (Keeps.after (State.setAsm_keeps ..) h2 rfl) fun h4 => ?_
        try clear_value s3
        extract_lets -underBinder +onlyGivenNames -merge a5 a6
        clear_value a6
        clear_value a5
        split
        · extract_lets -underBinder +onlyGivenNames -merge s7
          refine .viaKeeps (x := s7) (Keeps.after (State.onStw_keeps ..) h4 rfl) fun h8 => ?_
          try clear_value s7
          exact Runs.next (Keeps.after (State.beginWaking_keeps ..) (Keeps.after (State.objAnswer_keeps ..) h8 rfl) rfl)
        · exact Runs.next (Keeps.after (State.objAnswer_keeps ..) (Keeps.ite h4
                (Keeps.after (State.objectEv_keeps ..) h4 rfl)) rfl))

theorem execSupplyUp_keeps (t : Nat) (s : State) :
    Runs (allBut [.pending, .freeIx, .trims, .scTrims]) s (execSupplyUp t s) := by
  unfold execSupplyUp
  extract_lets -underBinder +onlyGivenNames -merge s1
  refine .viaKeeps (x := s1) (Keeps.after (State.tick_keeps ..) ((.refl _ _)) rfl) fun h2 => ?_
  try clear_value s1
  exact Runs.ite (Runs.next h2)
      (Runs.next (Keeps.after (State.onPins_keeps ..) (Keeps.after (State.onWake_keeps ..) (Keeps.after (State.restart_keeps ..) h2 rfl) rfl) rfl))

theorem execNresetAssert_keeps (t : Nat) (s : State) :
    Runs (allBut [.pending, .freeIx, .trims, .scTrims]) s (execNresetAssert t s) := by
  unfold execNresetAssert
  extract_lets -underBinder +onlyGivenNames -merge s1
  refine .viaKeeps (x := s1) (Keeps.after (State.onWake_keeps ..) (Keeps.after (State.tick_keeps ..) ((.refl _ _)) rfl) rfl) fun h2 => ?_
  try clear_value s1
  exact Runs.ite (Runs.next h2)
      (by
        extract_lets -underBinder +onlyGivenNames -merge s3
        refine .viaKeeps (x := s3) (Keeps.after (State.onWake_keeps ..) (Keeps.after (State.powerFlushBegin_keeps ..) (Keeps.after (State.holdMotion_keeps ..) (Keeps.after (State.dropChan_keeps ..) h2 rfl) rfl) rfl) rfl) fun h4 => ?_
        try clear_value s3
        exact Runs.next (Keeps.ite (Keeps.after (State.resetEnd_keeps ..) h4 rfl)
              h4))

theorem execNresetRelease_keeps (t : Nat) (s : State) :
    Runs [.time, .wake] s (execNresetRelease t s) := by
  unfold execNresetRelease
  extract_lets -underBinder +onlyGivenNames -merge s1
  refine .viaKeeps (x := s1) (Keeps.after (State.onWake_keeps ..) (Keeps.after (State.tick_keeps ..) ((.refl _ _)) rfl) rfl) fun h2 => ?_
  try clear_value s1
  exact Runs.next (Keeps.ite (by
          extract_lets -underBinder +onlyGivenNames -merge s3
          refine .viaKeeps (x := s3) (Keeps.after (State.onWake_keeps ..) h2 rfl) fun h4 => ?_
          try clear_value s3
          exact Keeps.after (Keeps.time ..) h4 rfl)
        h2)

theorem execHoldFloor_keeps (t : Nat) (hold : Nat) (s : State) :
    Runs (allBut [.pending, .freeIx, .trims, .scTrims]) s (execHoldFloor t hold s) := by
  unfold execHoldFloor
  extract_lets -underBinder +onlyGivenNames -merge s1
  refine .viaKeeps (x := s1) (Keeps.after (State.tick_keeps ..) ((.refl _ _)) rfl) fun h2 => ?_
  try clear_value s1
  exact Runs.ite (Runs.next h2)
      (by
        extract_lets -underBinder +onlyGivenNames -merge s3
        refine .viaKeeps (x := s3) (Keeps.after (State.restart_keeps ..) h2 rfl) fun h4 => ?_
        try clear_value s3
        exact Runs.next (Keeps.after (State.onPins_keeps ..) (Keeps.after (State.onPurse_keeps ..) (Keeps.after (State.onWake_keeps ..) h4 rfl) rfl) rfl))

end Sys2Proof.Machine
end

