-- ==== Sys2Proof/Laws/Modes.lean ====
section
/-! SUPPORT. The laws of the operations of Machine/Modes.lean: which fields of the state each may change. -/

namespace Sys2Proof.Machine

theorem State.onMode_keeps (f : ModeSt → ModeSt) (s : State) :
    Keeps [.mode] s (State.onMode f s) := by
  unfold State.onMode
  exact Keeps.after (Keeps.mode ..) ((.refl _ _)) rfl

theorem State.haltBoundary_keeps (s : State) :
    Keeps [.mode] s (State.haltBoundary s) := by
  unfold State.haltBoundary
  exact Keeps.ite (Keeps.after (State.onMode_keeps ..) ((.refl _ _)) rfl)
    (by
      extract_lets -underBinder +onlyGivenNames -merge a1
      exact Keeps.after (State.onMode_keeps ..) ((.refl _ _)) rfl)

theorem State.modeRefused_keeps (req : Nat) (reason : Nat) (car : Nat) (s : State) :
    Keeps [.led, .mode] s (State.modeRefused req reason car s) := by
  unfold State.modeRefused
  exact Keeps.after (State.raise_keeps ..) (Keeps.after (State.onMode_keeps ..) ((.refl _ _)) rfl) rfl

theorem State.modeDecide_keeps (s : State) :
    Keeps [.led, .mode] s (State.modeDecide s) := by
  unfold State.modeDecide
  extract_lets -underBinder +onlyGivenNames -merge a1 a2 a3 a4 a5
  clear_value a4
  split
  · extract_lets -underBinder +onlyGivenNames -merge s6
    refine .viaKeeps (x := s6) (Keeps.ite ((.refl _ _))
        (Keeps.after (State.modeRefused_keeps ..) ((.refl _ _)) rfl)) fun h7 => ?_
    try clear_value s6
    exact Keeps.after (State.onMode_keeps ..) h7 rfl
  · extract_lets -underBinder +onlyGivenNames -merge a8
    exact Keeps.after (State.onMode_keeps ..) ((.refl _ _)) rfl

theorem State.takeModeCmd_keeps (c : ModeCmd) (s : State) :
    Keeps [.replies, .led, .mode] s (State.takeModeCmd c s) := by
  unfold State.takeModeCmd
  extract_lets -underBinder +onlyGivenNames -merge a1
  refine .viaP (fun W => ∀ b0 b1, Keeps W s b1 → Keeps W s (a1 b0 b1)) (fun _ _ h2 =>
    Keeps.after (State.reply_keeps ..) (Keeps.after (State.modeRefused_keeps ..) h2 rfl) rfl) fun h3 => ?_
  try clear_value a1
  extract_lets -underBinder +onlyGivenNames -merge a4
  refine .viaP (fun W => ∀ b0, Keeps W s b0 → Keeps W s (a4 b0)) (fun _ h5 =>
    Keeps.after (State.reply_keeps ..) h5 rfl) fun h6 => ?_
  try clear_value a4
  split
  · exact Keeps.ite (h3 _ _ ((.refl _ _)))
      (h6 _ (Keeps.after (State.onMode_keeps ..) ((.refl _ _)) rfl))
  · exact h6 _ (Keeps.after (State.onMode_keeps ..) ((.refl _ _)) rfl)
  · exact h6 _ (Keeps.after (State.onMode_keeps ..) ((.refl _ _)) rfl)
  · exact Keeps.ite (h6 _ (Keeps.after (State.onMode_keeps ..) ((.refl _ _)) rfl))
      (h3 _ _ ((.refl _ _)))
  · exact Keeps.after (State.reply_keeps ..) ((.refl _ _)) rfl

theorem State.takeModeCmds_keeps (s : State) :
    Keeps [.replies, .led, .mode] s (State.takeModeCmds s) := by
  unfold State.takeModeCmds
  exact Keeps.foldl (fun _ _ h1 =>
    Keeps.after (State.takeModeCmd_keeps ..) h1 rfl)
    (Keeps.after (State.onMode_keeps ..) ((.refl _ _)) rfl) _

theorem State.inspCar_keeps (c : Nat) (s : State) :
    Keeps [.book, .cars, .mode] s (State.inspCar c s) := by
  unfold State.inspCar
  split
  · exact (.refl _ _)
  · exact Keeps.ite ((.refl _ _))
      (by
        extract_lets -underBinder +onlyGivenNames -merge a1 a2
        refine .viaP (fun W => ∀ b0 b1, Keeps W s b1 → Keeps W s (a2 b0 b1)) (fun _ _ h3 =>
          Keeps.after (State.onMode_keeps ..) h3 rfl) fun h4 => ?_
        try clear_value a2
        split
        · exact Keeps.ite ((.refl _ _))
            (by
              split
              next heq =>
              refine .ofP1 heq (Keeps.after (State.readyAxis_keeps ..) ((.refl _ _)) rfl) fun h5 => ?_
              exact Keeps.ite (h4 _ _ (Keeps.after (State.kernelCmd_keeps ..) h5 rfl))
                (Keeps.after (State.onCar_keeps ..) h5 rfl))
        · exact Keeps.ite (Keeps.ite ((.refl _ _))
              (h4 _ _ ((.refl _ _))))
            (h4 _ _ (Keeps.after (State.kernelCmd_keeps ..) ((.refl _ _)) rfl)))

theorem State.recallEv_keeps (from_ : Nat) (dest : Nat) (s : State) :
    Keeps [.led] s (State.recallEv from_ dest s) := by
  unfold State.recallEv
  exact Keeps.after (State.raise_keeps ..) ((.refl _ _)) rfl

theorem State.recallEnter_keeps (p : Nat) (clear : Bool) (s : State) :
    Keeps [.cars, .dsp, .mode] s (State.recallEnter p clear s) := by
  unfold State.recallEnter
  extract_lets -underBinder +onlyGivenNames -merge s1
  refine .viaKeeps (x := s1) (Keeps.after (State.onMode_keeps ..) ((.refl _ _)) rfl) fun h2 => ?_
  try clear_value s1
  exact Keeps.ite (Keeps.eachIx (fun _ _ h3 =>
        Keeps.after (State.onCar_keeps ..) (Keeps.after (State.onSched_keeps ..) h3 rfl) rfl)
        h2)
      h2

theorem State.recallCar_keeps (c : Nat) (s : State) :
    Keeps [.cars, .doors, .mode] s (State.recallCar c s) := by
  unfold State.recallCar
  extract_lets -underBinder +onlyGivenNames -merge a1
  split
  · exact (.refl _ _)
  · extract_lets -underBinder +onlyGivenNames -merge a2
    exact Keeps.ite (Keeps.ite (Keeps.after (State.onMode_keeps ..) ((.refl _ _)) rfl)
          (Keeps.ite ((.refl _ _))
            (Keeps.after (State.askDoors_keeps ..) ((.refl _ _)) rfl)))
        (Keeps.after (State.onCar_keeps ..) ((.refl _ _)) rfl)

theorem State.recallStage_keeps (s : State) :
    Keeps [.cars, .doors, .dsp, .led, .mode] s (State.recallStage s) := by
  unfold State.recallStage
  extract_lets -underBinder +onlyGivenNames -merge s1
  refine .viaKeeps (x := s1) (Keeps.ite ((.refl _ _))
      (Keeps.after (State.recallEnter_keeps ..) (Keeps.after (State.onMode_keeps ..) ((.refl _ _)) rfl) rfl)) fun h2 => ?_
  try clear_value s1
  extract_lets -underBinder +onlyGivenNames -merge a3 a4 a5 a6 s7
  refine .viaKeeps (x := s7) (Keeps.ite (Keeps.after (State.recallEnter_keeps ..) (Keeps.after (State.onMode_keeps ..) (Keeps.after (State.recallEv_keeps ..) h2 rfl) rfl) rfl)
      (Keeps.ite (Keeps.after (State.recallEnter_keeps ..) (Keeps.after (State.recallEv_keeps ..) h2 rfl) rfl)
        h2)) fun h8 => ?_
  try clear_value s7
  extract_lets -underBinder +onlyGivenNames -merge s9
  refine .viaKeeps (x := s9) (Keeps.ite h8
      (Keeps.eachIx (fun _ _ h10 =>
        Keeps.after (State.recallCar_keeps ..) h10 rfl)
        h8)) fun h11 => ?_
  try clear_value s9
  extract_lets -underBinder +onlyGivenNames -merge s12
  refine .viaKeeps (x := s12) (Keeps.ite (Keeps.after (State.onMode_keeps ..) h11 rfl)
      h11) fun h13 => ?_
  try clear_value s12
  exact Keeps.ite (Keeps.after (State.onMode_keeps ..) h13 rfl)
      h13

theorem State.onRescue_keeps (c : Nat) (f : RescueCar → RescueCar) (s : State) :
    Keeps [.mode] s (State.onRescue c f s) := by
  unfold State.onRescue
  exact Keeps.after (State.onMode_keeps ..) ((.refl _ _)) rfl

theorem State.rescueEv_keeps (c : Nat) (ev : Nat) (dir : Int) (landing : Nat) (s : State) :
    Keeps [.led] s (State.rescueEv c ev dir landing s) := by
  unfold State.rescueEv
  exact Keeps.after (State.raise_keeps ..) ((.refl _ _)) rfl

theorem State.rescueCar_keeps (c : Nat) (s : State) :
    Keeps [.book, .cars, .fab, .purse, .led, .mode] s (State.rescueCar c s) := by
  unfold State.rescueCar
  split
  · exact (.refl _ _)
  · extract_lets -underBinder +onlyGivenNames -merge a1 a2
    exact Keeps.ite (Keeps.after (State.rescueEv_keeps ..) (Keeps.after (State.onRescue_keeps ..) ((.refl _ _)) rfl) rfl)
        (Keeps.ite (Keeps.after (State.rescueEv_keeps ..) (Keeps.after (State.onRescue_keeps ..) ((.refl _ _)) rfl) rfl)
          (by
            extract_lets -underBinder +onlyGivenNames -merge s3
            refine .viaKeeps (x := s3) (Keeps.ite (Keeps.after (State.order_keeps ..) ((.refl _ _)) rfl)
                ((.refl _ _))) fun h4 => ?_
            try clear_value s3
            extract_lets -underBinder +onlyGivenNames -merge s5
            refine .viaKeeps (x := s5) (Keeps.after (State.dropTrip_keeps ..) (Keeps.after (State.onCar_keeps ..) h4 rfl) rfl) fun h6 => ?_
            try clear_value s5
            extract_lets -underBinder +onlyGivenNames -merge s7
            refine .viaKeeps (x := s7) (Keeps.ite (Keeps.after (State.carState_keeps ..) h6 rfl)
                h6) fun h8 => ?_
            try clear_value s7
            exact Keeps.after (State.rescueEv_keeps ..) (Keeps.after (State.onRescue_keeps ..) h8 rfl) rfl))

theorem State.rescueStage1_keeps (c : Nat) (s : State) :
    Keeps [.doors, .led, .mode] s (State.rescueStage1 c s) := by
  unfold State.rescueStage1
  extract_lets -underBinder +onlyGivenNames -merge a1
  split
  · exact (.refl _ _)
  · exact Keeps.ite ((.refl _ _))
      (Keeps.ite (Keeps.ite ((.refl _ _))
          (Keeps.after (State.onRescue_keeps ..) ((.refl _ _)) rfl))
        (Keeps.ite (Keeps.ite (Keeps.after (State.rescueEv_keeps ..) (Keeps.after (State.onRescue_keeps ..) ((.refl _ _)) rfl) rfl)
            ((.refl _ _)))
          (Keeps.ite (Keeps.after (State.onRescue_keeps ..) ((.refl _ _)) rfl)
            (Keeps.ite (Keeps.ite (Keeps.after (State.onRescue_keeps ..) ((.refl _ _)) rfl)
                (Keeps.after (State.askDoors_keeps ..) ((.refl _ _)) rfl))
              (Keeps.ite (Keeps.after (State.onRescue_keeps ..) ((.refl _ _)) rfl)
                ((.refl _ _)))))))

theorem State.rescueStage_keeps (s : State) :
    Keeps [.doors, .led, .mode] s (State.rescueStage s) := by
  unfold State.rescueStage
  extract_lets -underBinder +onlyGivenNames -merge s1
  refine .viaKeeps (x := s1) (Keeps.eachIx (fun _ _ h2 =>
      Keeps.after (State.rescueStage1_keeps ..) h2 rfl)
      ((.refl _ _))) fun h3 => ?_
  try clear_value s1
  exact Keeps.ite (Keeps.after (State.rescueEv_keeps ..) (Keeps.after (State.onMode_keeps ..) h3 rfl) rfl)
      h3

theorem execRescue_keeps (t : Nat) (car : Nat) (s : State) :
    Runs [.cars, .led, .mode] s (execRescue t car s) := by
  unfold execRescue
  extract_lets -underBinder +onlyGivenNames -merge s1
  refine .viaKeeps (x := s1) (Keeps.after (State.tick_keeps ..) ((.refl _ _)) rfl) fun h2 => ?_
  try clear_value s1
  exact Runs.ite (Runs.next h2)
      (by
        extract_lets -underBinder +onlyGivenNames -merge a3
        split
        · exact Runs.next h2
        · exact Runs.ite (Runs.next h2)
            (by
              extract_lets -underBinder +onlyGivenNames -merge a4 a5 a6 a7
              split
              · exact Runs.next h2
              · extract_lets -underBinder +onlyGivenNames -merge a8 s9
                refine .viaKeeps (x := s9) (Keeps.after (State.onRescue_keeps ..) h2 rfl) fun h10 => ?_
                try clear_value s9
                extract_lets -underBinder +onlyGivenNames -merge s11
                refine .viaKeeps (x := s11) (Keeps.after (State.onCar_keeps ..) h10 rfl) fun h12 => ?_
                try clear_value s11
                exact Runs.next (Keeps.after (State.rescueEv_keeps ..) h12 rfl)))

theorem execRescueHoldEnd_keeps (t : Nat) (car : Nat) (s : State) :
    Runs [.doors] s (execRescueHoldEnd t car s) := by
  unfold execRescueHoldEnd
  extract_lets -underBinder +onlyGivenNames -merge s1
  refine .viaKeeps (x := s1) (Keeps.after (State.tick_keeps ..) ((.refl _ _)) rfl) fun h2 => ?_
  try clear_value s1
  exact Runs.ite (Runs.next h2)
      (Runs.ite (Runs.next h2)
        (Runs.next (Keeps.foldl (fun _ _ h3 =>
            by
              extract_lets -underBinder +onlyGivenNames -merge a4
              exact Keeps.ite (Keeps.after (State.onDoor_keeps ..) h3 rfl)
                  h3)
            h2 _)))

theorem State.modeKernel_keeps (s : State) :
    Keeps [.book, .replies, .cars, .doors, .dsp, .led, .mode] s (State.modeKernel s) := by
  unfold State.modeKernel
  exact Keeps.ite ((.refl _ _))
    (by
      extract_lets -underBinder +onlyGivenNames -merge s1
      refine .viaKeeps (x := s1) (Keeps.after (State.takeModeCmds_keeps ..) ((.refl _ _)) rfl) fun h2 => ?_
      try clear_value s1
      extract_lets -underBinder +onlyGivenNames -merge s3
      refine .viaKeeps (x := s3) (by
          dsimp -zeta only [s3]
          split
          · exact Keeps.eachIx (fun _ _ h4 =>
              Keeps.after (State.inspCar_keeps ..) h4 rfl)
              h2
          · exact Keeps.after (State.recallStage_keeps ..) h2 rfl
          · exact Keeps.after (State.rescueStage_keeps ..) h2 rfl
          · exact h2) fun h5 => ?_
      try clear_value s3
      exact Keeps.after (State.modeDecide_keeps ..) h5 rfl)

theorem State.betweenCars_keeps (s : State) :
    Keeps [.cars] s (State.betweenCars s) := by
  unfold State.betweenCars
  exact Keeps.eachIx (fun _ _ h1 =>
    by
      split
      · exact h1
      · exact Keeps.ite h1
          (by
            split
            · exact Keeps.after (State.onCar_keeps ..) h1 rfl
            · exact h1))
    ((.refl _ _))

theorem State.modeEffect_keeps (m : Nat) (cause : Nat) (s : State) :
    Keeps [.book, .cars, .doors, .safe, .fab, .purse, .led, .mode, .stw] s (State.modeEffect m cause s) := by
  unfold State.modeEffect
  extract_lets -underBinder +onlyGivenNames -merge a1 s2
  refine .viaKeeps (x := s2) (Keeps.ite (Keeps.after (State.onMode_keeps ..) ((.refl _ _)) rfl)
      ((.refl _ _))) fun h3 => ?_
  try clear_value s2
  extract_lets -underBinder +onlyGivenNames -merge s4
  refine .viaKeeps (x := s4) (Keeps.after (State.setMode_keeps ..) h3 rfl) fun h5 => ?_
  try clear_value s4
  extract_lets -underBinder +onlyGivenNames -merge s6
  refine .viaKeeps (x := s6) (Keeps.ite (Keeps.eachIx (fun _ _ h7 =>
        Keeps.after (State.orderSs1_keeps ..) h7 rfl)
        h5)
      (Keeps.eachIx (fun _ _ h8 =>
        Keeps.ite (Keeps.after (State.order_keeps ..) h8 rfl)
          h8)
        h5)) fun h9 => ?_
  try clear_value s6
  extract_lets -underBinder +onlyGivenNames -merge s10
  refine .viaKeeps (x := s10) (Keeps.ite (Keeps.eachIx (fun _ _ h11 =>
        Keeps.after (State.doorHalt_keeps ..) h11 rfl)
        h9)
      h9) fun h12 => ?_
  try clear_value s10
  extract_lets -underBinder +onlyGivenNames -merge s13
  refine .viaKeeps (x := s13) (Keeps.ite (Keeps.after (State.onMode_keeps ..) (Keeps.after (State.recallEv_keeps ..) h12 rfl) rfl)
      h12) fun h14 => ?_
  try clear_value s13
  extract_lets -underBinder +onlyGivenNames -merge s15
  refine .viaKeeps (x := s15) (Keeps.ite (Keeps.after (State.onMode_keeps ..) h14 rfl)
      h14) fun h16 => ?_
  try clear_value s15
  extract_lets -underBinder +onlyGivenNames -merge s17
  refine .viaKeeps (x := s17) (Keeps.ite (Keeps.after (State.onMode_keeps ..) h16 rfl)
      h16) fun h18 => ?_
  try clear_value s17
  extract_lets -underBinder +onlyGivenNames -merge s19
  refine .viaKeeps (x := s19) (Keeps.ite (Keeps.after (State.betweenCars_keeps ..) h18 rfl)
      h18) fun h20 => ?_
  try clear_value s19
  extract_lets -underBinder +onlyGivenNames -merge s21
  refine .viaKeeps (x := s21) (Keeps.ite (Keeps.eachIx (fun _ _ h22 =>
        Keeps.after (State.rescueCar_keeps ..) h22 rfl)
        (Keeps.after (State.onMode_keeps ..) h20 rfl))
      h20) fun h23 => ?_
  try clear_value s21
  split
  · exact Keeps.after (State.commitSlot_keeps ..) h23 rfl
  · exact h23

theorem State.modeBoundary_keeps (done : Bool) (s : State) :
    Keeps [.book, .cars, .doors, .safe, .fab, .purse, .led, .mode, .stw] s (State.modeBoundary done s) := by
  unfold State.modeBoundary
  extract_lets -underBinder +onlyGivenNames -merge s1
  refine .viaKeeps (x := s1) (Keeps.after (State.haltBoundary_keeps ..) ((.refl _ _)) rfl) fun h2 => ?_
  try clear_value s1
  extract_lets -underBinder +onlyGivenNames -merge s3
  refine .viaKeeps (x := s3) (Keeps.ite (Keeps.after (State.onMode_keeps ..) h2 rfl)
      (Keeps.ite (Keeps.after (State.modeEffect_keeps ..) h2 rfl)
        h2)) fun h4 => ?_
  try clear_value s3
  extract_lets -underBinder +onlyGivenNames -merge a5
  exact Keeps.after (State.onMode_keeps ..) h4 rfl

theorem execLodgeIdle_keeps (t : Nat) (s : State) :
    Runs [.mode] s (execLodgeIdle t s) := by
  unfold execLodgeIdle
  extract_lets -underBinder +onlyGivenNames -merge s1
  refine .viaKeeps (x := s1) (Keeps.after (State.tick_keeps ..) ((.refl _ _)) rfl) fun h2 => ?_
  try clear_value s1
  extract_lets -underBinder +onlyGivenNames -merge a3
  exact Runs.ite (Runs.next (Keeps.after (State.onMode_keeps ..) h2 rfl))
      (Runs.next h2)

theorem execLodgeEntry_keeps (t : Nat) (s : State) :
    Runs [.disp, .cax, .book, .cars, .doors, .safe, .fab, .twin, .purse, .led, .mode, .stw, .pins] s (execLodgeEntry t s) := by
  unfold execLodgeEntry
  extract_lets -underBinder +onlyGivenNames -merge s1
  refine .viaKeeps (x := s1) (Keeps.after (State.tick_keeps ..) ((.refl _ _)) rfl) fun h2 => ?_
  try clear_value s1
  exact Runs.ite (Runs.next h2)
      (by
        extract_lets -underBinder +onlyGivenNames -merge s3
        refine .viaKeeps (x := s3) (Keeps.after (State.modeEffect_keeps ..) h2 rfl) fun h4 => ?_
        try clear_value s3
        extract_lets -underBinder +onlyGivenNames -merge s5
        refine .viaKeeps (x := s5) (Keeps.after (State.onMode_keeps ..) h4 rfl) fun h6 => ?_
        try clear_value s5
        extract_lets -underBinder +onlyGivenNames -merge s7
        refine .viaKeeps (x := s7) (Keeps.after (State.onPins_keeps ..) h6 rfl) fun h8 => ?_
        try clear_value s7
        extract_lets -underBinder +onlyGivenNames -merge r9 r10 s11
        refine .viaKeeps (x := s11) (Keeps.onto h8 [.disp, .twin] rfl
            (Keeps.of rfl rfl id fun x => by cases x <;> first | exact .inr rfl | exact .inl rfl)) fun h12 => ?_
        try clear_value s11
        extract_lets -underBinder +onlyGivenNames -merge s13
        refine .viaKeeps (x := s13) (Keeps.after (State.driveOuts_keeps ..) (Keeps.eachIx (fun _ _ h14 =>
              Keeps.after (State.gatesOff_keeps ..) h14 rfl)
              h12) rfl) fun h15 => ?_
        try clear_value s13
        exact Runs.next (Keeps.after (State.raise_keeps ..) (Keeps.after (State.driveOuts_keeps ..) h15 rfl) rfl))

theorem State.lodgeWakes_keeps (source : Nat) (input : Nat) (s : State) :
    Keeps [.ax, .home, .pre, .safe, .led, .mode] s (State.lodgeWakes source input s) := by
  unfold State.lodgeWakes
  extract_lets -underBinder +onlyGivenNames -merge a1 s2
  refine .viaKeeps (x := s2) (Keeps.ite ((.refl _ _))
      (Keeps.eachIx (fun _ _ h3 =>
        by
          extract_lets -underBinder +onlyGivenNames -merge s4
          refine .viaKeeps (x := s4) (Keeps.ite (Keeps.after (State.setHomed_keeps ..) h3 rfl)
              h3) fun h5 => ?_
          try clear_value s4
          exact Keeps.ite (Keeps.after (State.onHomeKept_keeps ..) h5 rfl)
              h5)
        ((.refl _ _)))) fun h6 => ?_
  try clear_value s2
  exact Keeps.after (State.raise_keeps ..) (Keeps.after (State.onMode_keeps ..) (Keeps.after (State.lapseAll_keeps ..) h6 rfl) rfl) rfl

theorem execLodgeWake_keeps (t : Nat) (source : Nat) (input : Nat) (s : State) :
    Runs [.ax, .home, .pre, .safe, .led, .mode] s (execLodgeWake t source input s) := by
  unfold execLodgeWake
  extract_lets -underBinder +onlyGivenNames -merge s1
  refine .viaKeeps (x := s1) (Keeps.after (State.tick_keeps ..) ((.refl _ _)) rfl) fun h2 => ?_
  try clear_value s1
  exact Runs.ite (Runs.next h2)
      (Runs.ite (Runs.next (Keeps.after (State.onMode_keeps ..) h2 rfl))
        (Runs.next (Keeps.after (State.lodgeWakes_keeps ..) h2 rfl)))

theorem execLodgeSupplyRestored_keeps (t : Nat) (s : State) :
    Runs [.ch, .acq, .mode, .wake, .pins] s (execLodgeSupplyRestored t s) := by
  unfold execLodgeSupplyRestored
  extract_lets -underBinder +onlyGivenNames -merge s1
  refine .viaKeeps (x := s1) (Keeps.after (State.tick_keeps ..) ((.refl _ _)) rfl) fun h2 => ?_
  try clear_value s1
  exact Runs.ite (Runs.next h2)
      (by
        extract_lets -underBinder +onlyGivenNames -merge s3
        refine .viaKeeps (x := s3) (Keeps.after (State.onMode_keeps ..) h2 rfl) fun h4 => ?_
        try clear_value s3
        extract_lets -underBinder +onlyGivenNames -merge s5
        refine .viaKeeps (x := s5) (Keeps.after (State.onPins_keeps ..) (Keeps.after (State.onWake_keeps ..) h4 rfl) rfl) fun h6 => ?_
        try clear_value s5
        exact Runs.next (Keeps.onto h6 [.ch, .acq] rfl
              (Keeps.of rfl rfl id fun x => by cases x <;> first | exact .inr rfl | exact .inl rfl)))

theorem State.wakingEnds_keeps (s : State) :
    Keeps [.book, .cars, .doors, .safe, .fab, .purse, .led, .mode, .stw, .wake] s (State.wakingEnds s) := by
  unfold State.wakingEnds
  extract_lets -underBinder +onlyGivenNames -merge a1 s2
  refine .viaKeeps (x := s2) (Keeps.after (State.onWake_keeps ..) ((.refl _ _)) rfl) fun h3 => ?_
  try clear_value s2
  extract_lets -underBinder +onlyGivenNames -merge s4
  refine .viaKeeps (x := s4) (Keeps.after (State.onMode_keeps ..) h3 rfl) fun h5 => ?_
  try clear_value s4
  extract_lets -underBinder +onlyGivenNames -merge s6
  refine .viaKeeps (x := s6) (Keeps.after (State.raise_keeps ..) h5 rfl) fun h7 => ?_
  try clear_value s6
  extract_lets -underBinder +onlyGivenNames -merge a8 s9
  refine .viaKeeps (x := s9) (Keeps.after (State.onMode_keeps ..) h7 rfl) fun h10 => ?_
  try clear_value s9
  exact Keeps.after (State.modeEffect_keeps ..) h10 rfl

theorem execReleaseOutputs_keeps (t : Nat) (s : State) :
    Runs [.cax, .book, .cars, .doors, .safe, .fab, .purse, .led, .mode, .stw, .wake] s (execReleaseOutputs t s) := by
  unfold execReleaseOutputs
  extract_lets -underBinder +onlyGivenNames -merge s1
  refine .viaKeeps (x := s1) (Keeps.after (State.tick_keeps ..) ((.refl _ _)) rfl) fun h2 => ?_
  try clear_value s1
  exact Runs.ite (Runs.next h2)
      (Runs.ite (Runs.next (Keeps.after (State.driveOuts_keeps ..) (Keeps.after (State.wakingEnds_keeps ..) h2 rfl) rfl))
        (Runs.ite (Runs.next (Keeps.after (State.driveOuts_keeps ..) (Keeps.after (State.onMode_keeps ..) h2 rfl) rfl))
          (Runs.next h2)))

theorem execWakingTimeout_keeps (t : Nat) (s : State) :
    Runs [.book, .cars, .doors, .safe, .fab, .purse, .led, .mode, .stw, .wake] s (execWakingTimeout t s) := by
  unfold execWakingTimeout
  extract_lets -underBinder +onlyGivenNames -merge s1
  refine .viaKeeps (x := s1) (Keeps.after (State.tick_keeps ..) ((.refl _ _)) rfl) fun h2 => ?_
  try clear_value s1
  extract_lets -underBinder +onlyGivenNames -merge a3 a4
  exact Runs.ite (Runs.next h2)
      (by
        extract_lets -underBinder +onlyGivenNames -merge s5
        refine .viaKeeps (x := s5) (Keeps.after (State.onWake_keeps ..) h2 rfl) fun h6 => ?_
        try clear_value s5
        extract_lets -underBinder +onlyGivenNames -merge s7
        refine .viaKeeps (x := s7) (Keeps.after (State.onMode_keeps ..) h6 rfl) fun h8 => ?_
        try clear_value s7
        exact Runs.next (Keeps.after (State.modeEffect_keeps ..) h8 rfl))

end Sys2Proof.Machine
end

