-- ==== Sys2Proof/Laws/Service.lean ====
section
/-! SUPPORT. The laws of the operations of Machine/Service.lean: which fields of the state each may change. -/

namespace Sys2Proof.Machine

theorem State.onWin_keeps (f : Win → Win) (s : State) :
    Keeps [.win] s (State.onWin f s) := by
  unfold State.onWin
  exact Keeps.after (Keeps.win ..) ((.refl _ _)) rfl

theorem State.readError_keeps (src : Nat) (r : WinRead) (status : Nat) (s : State) :
    Keeps [.freeIx, .fab, .win] s (State.readError src r status s) := by
  unfold State.readError
  split
  next heq =>
  refine .ofP2 heq (Keeps.after (State.free_keeps ..) ((.refl _ _)) rfl) fun h1 => ?_
  exact Keeps.after (State.sendTo_keeps ..) h1 rfl

theorem State.takeRead_keeps (src : Nat) (r : WinRead) (s : State) :
    Keeps [.freeIx, .fab, .win] s (State.takeRead src r s) := by
  unfold State.takeRead
  split
  · exact Keeps.after (State.onWin_keeps ..) ((.refl _ _)) rfl
  · exact Keeps.after (State.readError_keeps ..) ((.refl _ _)) rfl

theorem execWindowRead_keeps (t : Nat) (src : Nat) (r : WinRead) (s : State) :
    Runs [.freeIx, .fab, .win] s (execWindowRead t src r s) := by
  unfold execWindowRead
  exact Runs.next (Keeps.after (State.takeRead_keeps ..) (Keeps.after (State.tick_keeps ..) ((.refl _ _)) rfl) rfl)

theorem State.serveRead_keeps (x : State × Bool) (r : HeldRead) : Keeps1 [.freeIx, .fab, .led, .win] x.1 (State.serveRead x r) := by
  obtain ⟨s, full⟩ := x
  unfold State.serveRead
  dsimp only
  have hk : Keeps [.freeIx, .fab, .led, .win] s (s.onWin (fun w => { w with reads := w.reads ++ [r] })) :=
    Keeps.after (State.onWin_keeps ..) (.refl _ _) rfl
  have he (k : Nat) : Keeps [.freeIx, .fab, .led, .win] s (s.readError r.src r.read k) :=
    Keeps.after (State.readError_keeps ..) (.refl _ _) rfl
  have hc (f : Win → Win) (m : Msg) : Keeps [.freeIx, .fab, .led, .win] s ((s.onWin f).sendTo r.src m) :=
    Keeps.after (State.sendTo_keeps ..) (Keeps.after (State.onWin_keeps ..) (.refl _ _) rfl) rfl
  exact Keeps1.ite (Keeps1.ite (.mk hk) (Keeps1.ite (.mk (he _)) (Keeps1.ite (.mk (hc _ _)) (.mk (he _)))))
    (Keeps1.ite (.mk hk) (Keeps1.ite (.mk hk) (.mk (hc _ _))))

theorem State.idleServe_keeps (s : State) :
    Keeps [.ax, .book, .pg, .gc, .home, .pre, .win, .pub] s (State.idleServe s) := by
  unfold State.idleServe
  exact Keeps.ite ((.refl _ _))
    (by
      extract_lets -underBinder +onlyGivenNames -merge s1
      refine .viaKeeps (x := s1) (Keeps.after (State.onWin_keeps ..) ((.refl _ _)) rfl) fun h2 => ?_
      try clear_value s1
      exact Keeps.ite (Keeps.after (State.publish_keeps ..) h2 rfl)
          h2)

theorem execWindowReadServe_keeps (t : Nat) (s : State) :
    Runs [.freeIx, .ax, .book, .pg, .gc, .home, .pre, .fab, .led, .win, .pub] s (execWindowReadServe t s) := by
  unfold execWindowReadServe
  extract_lets -underBinder +onlyGivenNames -merge s1
  refine .viaKeeps (x := s1) (Keeps.after (State.tick_keeps ..) ((.refl _ _)) rfl) fun h2 => ?_
  try clear_value s1
  exact Runs.ite (Runs.next h2)
      (by
        extract_lets -underBinder +onlyGivenNames -merge s3
        refine .viaKeeps (x := s3) (Keeps.after (State.idleServe_keeps ..) h2 rfl) fun h4 => ?_
        try clear_value s3
        exact Runs.next (Keeps1.foldl (fun _ _ h5 =>
              Keeps.after (State.serveRead_keeps ..) h5 rfl)
              (Keeps1.mk (Keeps.after (State.onWin_keeps ..) h4 rfl)) _))

theorem State.clearAxis_keeps (a : Nat) (s : State) :
    Keeps [.disp, .ax, .book, .pre] s (State.clearAxis a s) := by
  unfold State.clearAxis
  exact Keeps.ite ((.refl _ _))
    (by
      extract_lets -underBinder +onlyGivenNames -merge s1
      refine .viaKeeps (x := s1) (Keeps.after (State.onBook_keeps ..) ((.refl _ _)) rfl) fun h2 => ?_
      try clear_value s1
      exact Keeps.after (State.clearBinding_keeps ..) (Keeps.after (State.onAxKept_keeps ..) h2 rfl) rfl)

theorem State.clearCur_keeps (a : Nat) (s : State) :
    Keeps [.ch, .cax] s (State.clearCur a s) := by
  unfold State.clearCur
  exact Keeps.ite (Keeps.after (State.clearCurrent_keeps ..) ((.refl _ _)) rfl)
    ((.refl _ _))

theorem State.clearDoor_keeps (d : Nat) (s : State) :
    Keeps [.doors, .led] s (State.clearDoor d s) := by
  unfold State.clearDoor
  exact Keeps.ite ((.refl _ _))
    (Keeps.after (State.doorState_keeps ..) (Keeps.after (State.onDoor_keeps ..) ((.refl _ _)) rfl) rfl)

theorem State.clearCar_keeps (c : Nat) (s : State) :
    Keeps [.cars, .led] s (State.clearCar c s) := by
  unfold State.clearCar
  extract_lets -underBinder +onlyGivenNames -merge s1
  refine .viaKeeps (x := s1) (Keeps.after (State.onCar_keeps ..) ((.refl _ _)) rfl) fun h2 => ?_
  try clear_value s1
  exact Keeps.ite h2
      (Keeps.after (State.carState_keeps ..) (Keeps.after (State.setOut_keeps ..) (Keeps.after (State.onCar_keeps ..) h2 rfl) rfl) rfl)

theorem State.clearXd_keeps (a : Nat) (s : State) :
    Keeps [.xd] s (State.clearXd a s) := by
  unfold State.clearXd
  exact Keeps.ite (Keeps.after (State.onXd_keeps ..) ((.refl _ _)) rfl)
    ((.refl _ _))

theorem State.clearHalt_keeps (s : State) :
    Keeps [.disp, .mode] s (State.clearHalt s) := by
  unfold State.clearHalt
  extract_lets -underBinder +onlyGivenNames -merge a1
  exact Keeps.after (State.clearBinding_keeps ..) (Keeps.after (State.onMode_keeps ..) ((.refl _ _)) rfl) rfl

theorem State.clearFaults_keeps (s : State) :
    Keeps1 [.disp, .fb, .emu, .ch, .cax, .ax, .book, .pre, .cars, .doors, .safe, .xd, .led, .mode] s (State.clearFaults s) := by
  unfold State.clearFaults
  extract_lets -underBinder +onlyGivenNames -merge s1
  refine .viaKeeps (x := s1) (Keeps.eachIx (fun _ _ h2 =>
      Keeps.ite (Keeps.after (State.lapse_keeps ..) (Keeps.after (State.clearFb_keeps ..) h2 rfl) rfl)
        h2)
      ((.refl _ _))) fun h3 => ?_
  try clear_value s1
  extract_lets -underBinder +onlyGivenNames -merge s4
  refine .viaKeeps (x := s4) (Keeps.eachIx (fun _ _ h5 =>
      Keeps.after (State.clearEmu_keeps ..) h5 rfl)
      h3) fun h6 => ?_
  try clear_value s4
  extract_lets -underBinder +onlyGivenNames -merge s7
  refine .viaKeeps (x := s7) (Keeps.eachIx (fun _ _ h8 =>
      Keeps.after (State.clearCur_keeps ..) h8 rfl)
      h6) fun h9 => ?_
  try clear_value s7
  extract_lets -underBinder +onlyGivenNames -merge s10
  refine .viaKeeps (x := s10) (Keeps.eachIx (fun _ _ h11 =>
      Keeps.after (State.clearAxis_keeps ..) h11 rfl)
      h9) fun h12 => ?_
  try clear_value s10
  extract_lets -underBinder +onlyGivenNames -merge s13
  refine .viaKeeps (x := s13) (Keeps.eachIx (fun _ _ h14 =>
      Keeps.after (State.clearDoor_keeps ..) h14 rfl)
      h12) fun h15 => ?_
  try clear_value s13
  extract_lets -underBinder +onlyGivenNames -merge s16
  refine .viaKeeps (x := s16) (Keeps.eachIx (fun _ _ h17 =>
      Keeps.after (State.clearCar_keeps ..) h17 rfl)
      h15) fun h18 => ?_
  try clear_value s16
  extract_lets -underBinder +onlyGivenNames -merge s19
  refine .viaKeeps (x := s19) (Keeps.eachIx (fun _ _ h20 =>
      Keeps.after (State.clearXd_keeps ..) h20 rfl)
      h18) fun h21 => ?_
  try clear_value s19
  split
  · next heq =>
    refine .ofP1 heq (Keeps.after (State.safetyReset_keeps ..) h21 rfl) fun h22 => ?_
    exact Keeps1.mk (Keeps.after (State.clearHalt_keeps ..) h22 rfl)
  · next heq =>
    refine .ofP1 heq (Keeps.after (State.safetyReset_keeps ..) h21 rfl) fun h22 => ?_
    exact Keeps1.mk h22

theorem State.takeClearFault_keeps (o : Origin) (s : State) :
    Keeps (([.disp, .fb, .emu, .ch, .cax, .ax, .book, .pre, .replies, .cars, .doors, .safe, .xd, .twin] : List Fld) ++
      ([.led, .mode] : List Fld)) s (State.takeClearFault o s) := by
  unfold State.takeClearFault
  extract_lets -underBinder +onlyGivenNames -merge a1
  exact Keeps.ite (Keeps.after (State.reply_keeps ..) ((.refl _ _)) rfl)
      (by
        split
        next heq =>
        refine .ofP1 heq (Keeps1.ite (Keeps.after (State.clearFaults_keeps ..) ((.refl _ _)) rfl)
            (Keeps1.mk ((.refl _ _)))) fun h2 => ?_
        exact Keeps.after (State.reply_keeps ..) (Keeps.ite (Keeps.after (State.rejoin_keeps ..) h2 rfl)
            h2) rfl)

theorem State.takeSetTime_keeps (o : Origin) (site : Int) (s : State) :
    Keeps [.replies, .time, .led] s (State.takeSetTime o site s) := by
  unfold State.takeSetTime
  exact Keeps.ite (Keeps.after (State.reply_keeps ..) ((.refl _ _)) rfl)
    (by
      extract_lets -underBinder +onlyGivenNames -merge a1 s2
      refine .viaKeeps (x := s2) (Keeps.after (State.onTime_keeps ..) (Keeps.after (State.setSite_keeps ..) ((.refl _ _)) rfl) rfl) fun h3 => ?_
      try clear_value s2
      exact Keeps.after (State.reply_keeps ..) (Keeps.after (State.timeStep_keeps ..) h3 rfl) rfl)

theorem State.takeWrite_keeps (o : Origin) (addr : Nat) (width : Nat) (value : Nat) (s : State) :
    Keeps [.disp, .replies, .led] s (State.takeWrite o addr width value s) := by
  unfold State.takeWrite
  extract_lets -underBinder +onlyGivenNames -merge a1
  refine .viaP (fun W => ∀ b0, Keeps W s b0 → Keeps W s (a1 b0)) (fun _ h2 =>
    Keeps.after (Keeps.disp ..) h2 rfl) fun h3 => ?_
  try clear_value a1
  exact Keeps.ite (Keeps.after (State.reply_keeps ..) (Keeps.ite (h3 _ ((.refl _ _)))
          ((.refl _ _))) rfl)
      (Keeps.ite (by
          extract_lets -underBinder +onlyGivenNames -merge s4
          refine .viaKeeps (x := s4) (Keeps.ite (Keeps.after (State.nevtAck_keeps ..) ((.refl _ _)) rfl)
              ((.refl _ _))) fun h5 => ?_
          try clear_value s4
          exact Keeps.after (State.reply_keeps ..) (Keeps.ite (Keeps.after (State.beginFlush_keeps ..) h5 rfl)
                h5) rfl)
        (Keeps.ite (Keeps.after (State.reply_keeps ..) (Keeps.after (State.setReadFrom_keeps ..) ((.refl _ _)) rfl) rfl)
          (Keeps.after (State.reply_keeps ..) ((.refl _ _)) rfl)))

theorem State.mbAnswer_keeps (src : Nat) (id : Nat) (cmd : Nat) (status : Nat) (epoch : Nat) (detail : Nat) (s : State) :
    Keeps [.fab, .win] s (State.mbAnswer src id cmd status epoch detail s) := by
  unfold State.mbAnswer
  extract_lets -underBinder +onlyGivenNames -merge a1 a2 s3
  refine .viaKeeps (x := s3) (Keeps.after (State.onWin_keeps ..) ((.refl _ _)) rfl) fun h4 => ?_
  try clear_value s3
  exact Keeps.after (State.sendTo_keeps ..) h4 rfl

theorem State.replyAgain_keeps (k : KeptReply) (s : State) :
    Keeps [.fab, .win] s (State.replyAgain k s) := by
  unfold State.replyAgain
  exact Keeps.after (State.sendTo_keeps ..) ((.refl _ _)) rfl

theorem State.mbArrive_keeps (src : Nat) (pair : Bool) (id : Nat) (eff : Nat) (c : MbCmd) (s : State) :
    Keeps [.fab, .led, .mode, .win] s (State.mbArrive src pair id eff c s) := by
  unfold State.mbArrive
  split
  · exact Keeps.after (State.replyAgain_keeps ..) ((.refl _ _)) rfl
  · exact Keeps.ite ((.refl _ _))
      (by
        extract_lets -underBinder +onlyGivenNames -merge a1 a2 a3 a4
        refine .viaP (fun W => ∀ b0, Keeps W s b0 → Keeps W s (a4 b0)) (fun _ h5 =>
          by
            dsimp -zeta only [a4]
            clear_value a3
            split
            · exact Keeps.after (State.modeRefused_keeps ..) h5 rfl
            · exact h5) fun h6 => ?_
        try clear_value a4
        exact Keeps.ite (Keeps.after (State.mbAnswer_keeps ..) ((.refl _ _)) rfl)
            (Keeps.ite (Keeps.after (State.mbAnswer_keeps ..) ((.refl _ _)) rfl)
              (Keeps.ite (Keeps.after (State.mbAnswer_keeps ..) (h6 _ ((.refl _ _))) rfl)
                (Keeps.ite (Keeps.after (State.mbAnswer_keeps ..) (h6 _ ((.refl _ _))) rfl)
                  (Keeps.ite (Keeps.after (State.mbAnswer_keeps ..) ((.refl _ _)) rfl)
                    (Keeps.after (State.onWin_keeps ..) ((.refl _ _)) rfl))))))

theorem State.noteTaken_keeps (src : Nat) (id : Nat) (c : MbCmd) (s : State) :
    Keeps [.win] s (State.noteTaken src id c s) := by
  unfold State.noteTaken
  exact Keeps.after (State.onWin_keeps ..) ((.refl _ _)) rfl

theorem State.mbGive_keeps (o : Origin) (c : MbCmd) (s : State) :
    Keeps (([.freeIx, .disp, .fb, .emu, .ch, .cax, .ax, .book, .pg, .pgBook, .gc, .home, .pre, .replies] : List Fld) ++
      ([.survey, .cars, .doors, .safe, .time, .xd, .twin, .led, .mode, .stw] : List Fld)) s (State.mbGive o c s) := by
  unfold State.mbGive
  split
  · exact Keeps.ite (Keeps.after (State.reply_keeps ..) ((.refl _ _)) rfl)
      (Keeps.after (State.offerAxis_keeps ..) ((.refl _ _)) rfl)
  · exact Keeps.ite (Keeps.after (State.reply_keeps ..) ((.refl _ _)) rfl)
      (Keeps.after (State.offerPath_keeps ..) ((.refl _ _)) rfl)
  · exact Keeps.ite (Keeps.after (State.reply_keeps ..) ((.refl _ _)) rfl)
      (Keeps.after (State.onMode_keeps ..) ((.refl _ _)) rfl)
  · exact Keeps.after (State.takeClearFault_keeps ..) ((.refl _ _)) rfl
  · exact Keeps.after (State.takeLearn_keeps ..) ((.refl _ _)) rfl
  · exact Keeps.after (State.takeBrakeTest_keeps ..) ((.refl _ _)) rfl
  · exact Keeps.after (State.takeSwitch_keeps ..) ((.refl _ _)) rfl
  · exact Keeps.after (State.takeHoldTest_keeps ..) ((.refl _ _)) rfl
  · split
    next heq =>
    refine .ofP2 heq (Keeps.after (State.free_keeps ..) ((.refl _ _)) rfl) fun h1 => ?_
    exact Keeps.after (State.takeSelfTest_keeps ..) h1 rfl
  · exact Keeps.after (State.reply_keeps ..) (Keeps.after (State.beginFlush_keeps ..) ((.refl _ _)) rfl) rfl
  · exact Keeps.after (State.takeSetTime_keeps ..) ((.refl _ _)) rfl
  · exact Keeps.after (State.takeWrite_keeps ..) ((.refl _ _)) rfl
  · exact Keeps.after (State.reply_keeps ..) ((.refl _ _)) rfl

theorem State.mbBoundary_keeps (s : State) :
    Keeps (([.freeIx, .disp, .fb, .emu, .ch, .cax, .ax, .book, .pg, .pgBook, .gc, .home, .pre, .replies] : List Fld) ++
      ([.survey, .cars, .doors, .safe, .time, .xd, .twin, .led, .mode, .stw, .win] : List Fld)) s (State.mbBoundary s) := by
  unfold State.mbBoundary
  exact Keeps.ite ((.refl _ _))
    (by
      extract_lets -underBinder +onlyGivenNames -merge a1 a2
      exact Keeps.foldl (fun _ _ h3 =>
          Keeps.after (State.mbGive_keeps ..) (Keeps.after (State.noteTaken_keeps ..) h3 rfl) rfl)
          (Keeps.after (State.onWin_keeps ..) ((.refl _ _)) rfl) _)

theorem State.mbDeliver_keeps (s : State) :
    Keeps [.replies, .fab, .win] s (State.mbDeliver s) := by
  unfold State.mbDeliver
  exact Keeps.foldl (fun _ _ h1 =>
    by
      split
      · exact h1
      · exact Keeps.after (State.mbAnswer_keeps ..) (Keeps.after (State.onWin_keeps ..) h1 rfl) rfl)
    (Keeps.after (Keeps.replies ..) ((.refl _ _)) rfl) _

theorem State.mbRow_keeps {W : List Fld} {s : State} {t src id : Nat} {c : MbCmd} {give : Origin → State → State}
    (h : ∀ o x, Keeps W s x → Keeps W s (give o x)) (w : within [.win, .fab, .led] W = true) :
    Runs W s (s.mbRow t src id c give) := by
  unfold State.mbRow
  extract_lets -underBinder +onlyGivenNames -merge s1
  have h1 : Keeps W s s1 := (State.tick_keeps ..).mono rfl
  clear_value s1
  split
  · exact Runs.next (Keeps.after (State.replyAgain_keeps ..) h1 (within_trans rfl w))
  · exact Runs.next (h _ _ (Keeps.after (State.noteTaken_keeps ..) h1 (within_trans rfl w)))

theorem execLearn_keeps (t : Nat) (src : Nat) (id : Nat) (kind : Nat) (target : Nat) (step : Nat) (s : State) :
    Runs [.replies, .survey, .fab, .led, .win] s (execLearn t src id kind target step s) := by
  unfold execLearn
  exact State.mbRow_keeps (fun _ _ h1 =>
    Keeps.after (State.takeLearn_keeps ..) h1 rfl) rfl

theorem execBrakeTest_keeps (t : Nat) (src : Nat) (id : Nat) (axis : Nat) (s : State) :
    Runs [.replies, .safe, .fab, .led, .win] s (execBrakeTest t src id axis s) := by
  unfold execBrakeTest
  exact State.mbRow_keeps (fun _ _ h1 =>
    Keeps.after (State.takeBrakeTest_keeps ..) h1 rfl) rfl

theorem execClearFault_keeps (t : Nat) (src : Nat) (id : Nat) (s : State) :
    Runs (([.disp, .fb, .emu, .ch, .cax, .ax, .book, .pre, .replies, .cars, .doors, .safe, .fab, .xd] : List Fld) ++
      ([.twin, .led, .mode, .win] : List Fld)) s (execClearFault t src id s) := by
  unfold execClearFault
  exact State.mbRow_keeps (fun _ _ h1 =>
    Keeps.after (State.takeClearFault_keeps ..) h1 rfl) rfl

theorem execSwitch_keeps (t : Nat) (src : Nat) (id : Nat) (s : State) :
    Runs [.replies, .fab, .twin, .led, .win] s (execSwitch t src id s) := by
  unfold execSwitch
  exact State.mbRow_keeps (fun _ _ h1 =>
    Keeps.after (State.takeSwitch_keeps ..) h1 rfl) rfl

theorem execHoldTest_keeps (t : Nat) (src : Nat) (id : Nat) (s : State) :
    Runs [.replies, .fab, .led, .stw, .win] s (execHoldTest t src id s) := by
  unfold execHoldTest
  exact State.mbRow_keeps (fun _ _ h1 =>
    Keeps.after (State.takeHoldTest_keeps ..) h1 rfl) rfl

theorem execSelfTest_keeps (t : Nat) (src : Nat) (id : Nat) (pass : Bool) (s : State) :
    Runs [.replies, .fab, .led, .mode, .stw, .win] s (execSelfTest t src id pass s) := by
  unfold execSelfTest
  exact State.mbRow_keeps (fun _ _ h1 =>
    Keeps.after (State.takeSelfTest_keeps ..) h1 rfl) rfl

theorem execFlush_keeps (t : Nat) (src : Nat) (id : Nat) (s : State) :
    Runs [.replies, .fab, .led, .win] s (execFlush t src id s) := by
  unfold execFlush
  exact State.mbRow_keeps (fun _ _ h1 =>
    Keeps.after (State.reply_keeps ..) (Keeps.after (State.beginFlush_keeps ..) h1 rfl) rfl) rfl

theorem execSetTime_keeps (t : Nat) (src : Nat) (id : Nat) (site : Int) (s : State) :
    Runs [.replies, .time, .fab, .led, .win] s (execSetTime t src id site s) := by
  unfold execSetTime
  exact State.mbRow_keeps (fun _ _ h1 =>
    Keeps.after (State.takeSetTime_keeps ..) h1 rfl) rfl

theorem execWrite_keeps (t : Nat) (src : Nat) (id : Nat) (addr : Nat) (width : Nat) (value : Nat) (s : State) :
    Runs [.disp, .replies, .fab, .led, .win] s (execWrite t src id addr width value s) := by
  unfold execWrite
  exact State.mbRow_keeps (fun _ _ h1 =>
    Keeps.after (State.takeWrite_keeps ..) h1 rfl) rfl

theorem execModeCommand_keeps (t : Nat) (src : Nat) (id : Nat) (target : Nat) (eff : Nat) (s : State) :
    Runs [.fab, .led, .mode, .win] s (execModeCommand t src id target eff s) := by
  unfold execModeCommand
  exact Runs.next (Keeps.after (State.mbArrive_keeps ..) (Keeps.after (State.tick_keeps ..) ((.refl _ _)) rfl) rfl)

theorem State.svcTake_keeps (m : Msg) (s : State) :
    Keeps [.freeIx, .fab, .led, .mode, .stw, .win] s (State.svcTake m s) := by
  unfold State.svcTake
  split
  · exact Keeps.after (State.takeRead_keeps ..) ((.refl _ _)) rfl
  · exact Keeps.after (State.mbArrive_keeps ..) ((.refl _ _)) rfl
  · split
    · exact Keeps.after (State.takeChunk_keeps ..) ((.refl _ _)) rfl
    · exact (.refl _ _)
  · exact Keeps.after (State.takeAttest_keeps ..) ((.refl _ _)) rfl
  · exact (.refl _ _)

theorem execServiceWriteTransaction_keeps (t : Nat) (op : Nat) (len : Nat) (crc : Nat) (m : Msg) (s : State) :
    Runs [.freeIx, .fab, .led, .mode, .stw, .win] s (execServiceWriteTransaction t op len crc m s) := by
  unfold execServiceWriteTransaction
  extract_lets -underBinder +onlyGivenNames -merge s1
  refine .viaKeeps (x := s1) (Keeps.after (State.tick_keeps ..) ((.refl _ _)) rfl) fun h2 => ?_
  try clear_value s1
  extract_lets -underBinder +onlyGivenNames -merge a3
  exact Runs.ite (Runs.next h2)
      (Runs.ite (Runs.next (Keeps.after (State.onWin_keeps ..) h2 rfl))
        (Runs.ite (Runs.next (Keeps.after (State.onWin_keeps ..) h2 rfl))
          (Runs.ite (Runs.next (Keeps.after (State.svcTake_keeps ..) h2 rfl))
            (Runs.next h2))))

theorem execServiceReadTransaction_keeps (t : Nat) (whole : Bool) (s : State) :
    Runs [.win] s (execServiceReadTransaction t whole s) := by
  unfold execServiceReadTransaction
  extract_lets -underBinder +onlyGivenNames -merge s1
  refine .viaKeeps (x := s1) (Keeps.after (State.tick_keeps ..) ((.refl _ _)) rfl) fun h2 => ?_
  try clear_value s1
  exact Runs.ite (Runs.next h2)
      (Runs.next (Keeps.after (State.onWin_keeps ..) h2 rfl))

end Sys2Proof.Machine
end

