-- ==== Sys2Proof/Laws/Receive.lean ====
section
/-! SUPPORT. The laws of the operations of Machine/Receive.lean: which fields of the state each may change. -/

namespace Sys2Proof.Machine

theorem State.messageEvents_keeps (f : Frame) (s : State) :
    Keeps [.disp, .led] s (State.messageEvents f s) := by
  unfold State.messageEvents
  extract_lets -underBinder +onlyGivenNames -merge s1
  refine .viaKeeps (x := s1) (Keeps.after (State.waitEvent_keeps ..) ((.refl _ _)) rfl) fun h2 => ?_
  try clear_value s1
  exact Keeps.ite h2
      (by
        split
        · exact Keeps.after (State.fabArrive_keeps ..) h2 rfl
        · exact h2)

theorem State.consume_keeps (f : Frame) (s : State) :
    Keeps (([.freeIx, .stage, .disp, .ax, .book, .pg, .pgBook, .gc, .home, .pre, .replies, .survey, .cars, .doors] : List Fld) ++
      ([.dsp, .safe, .time, .fab, .cons, .xd, .twin, .purse, .led, .mode, .stw, .win] : List Fld)) s (State.consume f s) := by
  unfold State.consume
  extract_lets -underBinder +onlyGivenNames -merge a1 s2
  refine .viaKeeps (x := s2) (Keeps.ite (Keeps.after (State.onMode_keeps ..) ((.refl _ _)) rfl)
      ((.refl _ _))) fun h3 => ?_
  try clear_value s2
  extract_lets -underBinder +onlyGivenNames -merge s4
  refine .viaKeeps (x := s4) (Keeps.after (State.messageEvents_keeps ..) h3 rfl) fun h5 => ?_
  try clear_value s4
  split
  · exact Keeps.after (State.takeSeal_keeps ..) h5 rfl
  · exact Keeps.after (State.takePdu_keeps ..) h5 rfl
  · exact Keeps.after (State.offerAxis_keeps ..) h5 rfl
  · exact Keeps.after (State.offerPath_keeps ..) h5 rfl
  · exact Keeps.after (State.takeXdStatus_keeps ..) h5 rfl
  · exact Keeps.after (State.takeLeaseRequest_keeps ..) h5 rfl
  · exact Keeps.after (State.takeLeaseGrant_keeps ..) h5 rfl
  · exact Keeps.after (State.takeLeaseRelease_keeps ..) h5 rfl
  · exact Keeps.after (State.takeCall_keeps ..) h5 rfl
  · exact Keeps.after (State.takeOpen_keeps ..) h5 rfl
  · exact Keeps.after (State.takeBids_keeps ..) h5 rfl
  · exact Keeps.after (State.takeAssign_keeps ..) h5 rfl
  · exact Keeps.after (State.takeAnswer_keeps ..) h5 rfl
  · exact Keeps.after (State.takeCancel_keeps ..) h5 rfl
  · exact Keeps.after (State.takeEnergy_keeps ..) h5 rfl
  · exact Keeps.after (State.takeRead_keeps ..) h5 rfl
  · exact Keeps.after (State.mbArrive_keeps ..) h5 rfl
  · split
    · exact Keeps.after (State.takeChunk_keeps ..) h5 rfl
    · exact h5
  · exact Keeps.after (State.takeAttest_keeps ..) h5 rfl
  · exact h5

theorem State.loopBoundary_keeps (s : State) :
    Keeps (([.freeIx, .stage, .disp, .ax, .book, .pg, .pgBook, .gc, .home, .pre, .replies, .survey, .cars, .doors] : List Fld) ++
      ([.dsp, .safe, .time, .fab, .cons, .xd, .twin, .purse, .led, .mode, .stw, .win] : List Fld)) s (State.loopBoundary s) := by
  unfold State.loopBoundary
  exact Keeps.foldl (fun _ _ h1 =>
    Keeps.after (State.consume_keeps ..) h1 rfl)
    (Keeps.after (State.onFab_keeps ..) ((.refl _ _)) rfl) _

theorem State.useCredit_keeps (p : Nat) (unit : Nat) (c : Nat) (s : State) :
    Keeps [.disp, .fab] s (State.useCredit p unit c s) := by
  unfold State.useCredit
  extract_lets -underBinder +onlyGivenNames -merge s1
  refine .viaKeeps (x := s1) (Keeps.after (State.onPeer_keeps ..) ((.refl _ _)) rfl) fun h2 => ?_
  try clear_value s1
  exact Keeps.ite (Keeps.after (State.subOut_keeps ..) h2 rfl)
      h2

theorem State.acceptFrame_keeps (p : Nat) (unit : Nat) (f : Frame) (s : State) :
    Keeps (([.freeIx, .stage, .disp, .ax, .book, .pg, .pgBook, .gc, .home, .pre, .replies, .survey, .cars, .doors] : List Fld) ++
      ([.dsp, .safe, .time, .fab, .cons, .xd, .twin, .purse, .led, .mode, .stw, .win] : List Fld)) s (State.acceptFrame p unit f s) := by
  unfold State.acceptFrame
  extract_lets -underBinder +onlyGivenNames -merge s1
  refine .viaKeeps (x := s1) (Keeps.after (State.onPort_keeps ..) (Keeps.after (State.noteSource_keeps ..) ((.refl _ _)) rfl) rfl) fun h2 => ?_
  try clear_value s1
  split
  · exact Keeps.after (State.takeHello_keeps ..) (Keeps.after (State.messageEvents_keeps ..) h2 rfl) rfl
  · exact Keeps.after (State.messageEvents_keeps ..) h2 rfl
  · exact Keeps.ite (Keeps.after (State.giveBack_keeps ..) (Keeps.after (State.consume_keeps ..) h2 rfl) rfl)
      (by
        extract_lets -underBinder +onlyGivenNames -merge s3
        refine .viaKeeps (x := s3) (Keeps.ite (Keeps.after (State.consume_keeps ..) h2 rfl)
            h2) fun h4 => ?_
        try clear_value s3
        exact Keeps.after (State.relay_keeps ..) h4 rfl)

theorem execCysinFrame_keeps (t : Nat) (port : Nat) (from_ : Nat) (f : Frame) (s : State) :
    Runs (([.freeIx, .stage, .disp, .ax, .book, .pg, .pgBook, .gc, .home, .pre, .replies, .survey, .cars, .doors] : List Fld) ++
      ([.dsp, .safe, .time, .fab, .cons, .xd, .twin, .purse, .led, .mode, .stw, .win] : List Fld)) s (execCysinFrame t port from_ f s) := by
  unfold execCysinFrame
  extract_lets -underBinder +onlyGivenNames -merge s1
  refine .viaKeeps (x := s1) (Keeps.after (State.tick_keeps ..) ((.refl _ _)) rfl) fun h2 => ?_
  try clear_value s1
  exact Runs.ite (Runs.next h2)
      (by
        extract_lets -underBinder +onlyGivenNames -merge a3 a4 a5 a6 s7
        refine .viaKeeps (x := s7) (Keeps.after (State.onPeer_keeps ..) h2 rfl) fun h8 => ?_
        try clear_value s7
        extract_lets -underBinder +onlyGivenNames -merge s9
        refine .viaKeeps (x := s9) (Keeps.ite (Keeps.after (State.useCredit_keeps ..) h8 rfl)
            h8) fun h10 => ?_
        try clear_value s9
        extract_lets -underBinder +onlyGivenNames -merge a11
        refine .viaP (fun W => ∀ b0, Keeps W s b0 → Keeps W s (a11 b0)) (fun _ h12 =>
          Keeps.ite (Keeps.after (State.giveBack_keeps ..) h12 rfl)
            h12) fun h13 => ?_
        try clear_value a11
        extract_lets -underBinder +onlyGivenNames -merge a14
        refine .viaP (fun W => ∀ b0, Keeps W s b0 → Keeps W s (a14 b0)) (fun _ h15 =>
          Keeps.after (State.takeCredit_keeps ..) h15 rfl) fun h16 => ?_
        try clear_value a14
        clear_value a4
        split
        · exact Runs.next (Keeps.after (State.frameRejected_keeps ..) (h13 _ (h16 _ h10)) rfl)
        · exact Runs.next (Keeps.after (State.frameRejected_keeps ..) (h13 _ h10) rfl)
        · exact Runs.next (h13 _ (h16 _ h10))
        · exact Runs.next (Keeps.after (State.idConflict_keeps ..) (h13 _ (h16 _ h10)) rfl)
        · exact Runs.next (Keeps.after (State.onPort_keeps ..) (h13 _ (h16 _ h10)) rfl)
        · exact Runs.next (Keeps.after (State.acceptFrame_keeps ..) (h16 _ h10) rfl))

end Sys2Proof.Machine
end

