-- ==== Sys2Proof/Laws/Stages.lean ====
section
/-! SUPPORT. The laws of the operations of Machine/Stages.lean: which fields of the state each may change. -/

namespace Sys2Proof.Machine

theorem State.settleAxis_keeps (a : Nat) (s : State) :
    Keeps [.book] s (State.settleAxis a s) := by
  unfold State.settleAxis
  exact Keeps.after (State.onBook_keeps ..) ((.refl _ _)) rfl

theorem State.settleGroup_keeps (g : Nat) (s : State) :
    Keeps [.pgBook] s (State.settleGroup g s) := by
  unfold State.settleGroup
  exact Keeps.after (State.onPgBook_keeps ..) ((.refl _ _)) rfl

theorem State.commitHome_keeps (done : List Bool) (a : Nat) (s : State) :
    Keeps (([.fb, .snap, .snapPrev, .din, .emu, .ax, .axe, .axPrevRef, .book, .axAt, .cmp, .home, .cars, .safe] : List Fld) ++
      ([.twin, .led] : List Fld)) s (State.commitHome done a s) := by
  unfold State.commitHome
  exact Keeps.ite (Keeps.after (State.homeCommit_keeps ..) ((.refl _ _)) rfl)
    ((.refl _ _))

theorem State.closeStage_keeps (s : State) :
    Keeps (([.stage, .disp, .fb, .snap, .snapPrev, .din, .emu, .ax, .axe, .axPrevRef, .book, .axAt, .pg, .pgBook] : List Fld) ++
      ([.gc, .cmp, .home, .pre, .replies, .cars, .dsp, .safe, .fab, .twin, .led, .mode, .win] : List Fld)) s (State.closeStage s) := by
  unfold State.closeStage
  extract_lets -underBinder +onlyGivenNames -merge s1
  refine .viaKeeps (x := s1) (Keeps.ite ((.refl _ _))
      (Keeps.after (State.endSweep_keeps ..) ((.refl _ _)) rfl)) fun h2 => ?_
  try clear_value s1
  extract_lets -underBinder +onlyGivenNames -merge a3 s4
  refine .viaKeeps (x := s4) (Keeps.after (State.unshow_keeps ..) h2 rfl) fun h5 => ?_
  try clear_value s4
  extract_lets -underBinder +onlyGivenNames -merge s6
  refine .viaKeeps (x := s6) (Keeps.eachIx (fun _ _ h8 =>
      Keeps.after (State.settleGroup_keeps ..) h8 rfl)
      (Keeps.eachIx (fun _ _ h7 =>
        Keeps.after (State.settleAxis_keeps ..) h7 rfl)
        h5)) fun h9 => ?_
  try clear_value s6
  extract_lets -underBinder +onlyGivenNames -merge s10
  refine .viaKeeps (x := s10) (Keeps.after (State.dispBoundary_keeps ..) h9 rfl) fun h11 => ?_
  try clear_value s10
  extract_lets -underBinder +onlyGivenNames -merge s12
  refine .viaKeeps (x := s12) (Keeps.after (State.mbDeliver_keeps ..) (Keeps.after (State.stallBoundary_keeps ..) (Keeps.after (State.stallBoundary_keeps ..) (Keeps.after (State.heldBoundary_keeps ..) h11 rfl) rfl) rfl) rfl) fun h13 => ?_
  try clear_value s12
  exact Keeps.eachIx (fun _ _ h14 =>
      Keeps.after (State.commitHome_keeps ..) h14 rfl)
      h13

theorem State.alignAt_keeps (e : Int) (m : Int) (s : State) :
    Keeps [.stage, .led] s (State.alignAt e m s) := by
  unfold State.alignAt
  extract_lets -underBinder +onlyGivenNames -merge a1 a2 a3 a4 a5 a6 a7 r8 s9
  refine .viaKeeps (x := s9) (Keeps.after (Keeps.stage ..) ((.refl _ _)) rfl) fun h10 => ?_
  extract_lets -underBinder +onlyGivenNames -merge s11
  refine .viaKeeps (x := s11) (Keeps.ite (Keeps.after (State.raise_keeps ..) h10 rfl)
      h10) fun h12 => ?_
  extract_lets -underBinder +onlyGivenNames -merge s13
  refine .viaKeeps (x := s13) (Keeps.ite (Keeps.after (State.raise_keeps ..) h12 rfl)
      h12) fun h14 => ?_
  exact Keeps.ite (Keeps.after (State.unaligned_keeps ..) h14 rfl)
      h14

theorem State.nextStage_keeps (s : State) :
    Keeps [.stage, .led] s (State.nextStage s) := by
  unfold State.nextStage
  exact Keeps.ite (by
      extract_lets -underBinder +onlyGivenNames -merge a1
      exact Keeps.after (State.alignAt_keeps ..) ((.refl _ _)) rfl)
    (by
      extract_lets -underBinder +onlyGivenNames -merge a2 r3 s4
      refine .viaKeeps (x := s4) (Keeps.after (Keeps.stage ..) ((.refl _ _)) rfl) fun h5 => ?_
      try clear_value s4
      exact Keeps.ite (Keeps.after (State.unaligned_keeps ..) h5 rfl)
          h5)

theorem State.openStage_keeps (t : Nat) (s : State) :
    Keeps [.stage, .led] s (State.openStage t s) := by
  unfold State.openStage
  extract_lets -underBinder +onlyGivenNames -merge a1 r2 s3
  refine .viaKeeps (x := s3) (Keeps.after (Keeps.stage ..) ((.refl _ _)) rfl) fun h4 => ?_
  try clear_value s3
  exact Keeps.ite (Keeps.after (Keeps.stage ..) h4 rfl)
      (Keeps.after (State.nextStage_keeps ..) h4 rfl)

theorem State.measure_keeps (a : Nat) (s : State) :
    Keeps [.book] s (State.measure a s) := by
  unfold State.measure
  exact Keeps.ite ((.refl _ _))
    (Keeps.after (State.onBook_keeps ..) ((.refl _ _)) rfl)

theorem State.keepAt_keeps (a : Nat) (s : State) :
    Keeps [.axAt] s (State.keepAt a s) := by
  unfold State.keepAt
  extract_lets -underBinder +onlyGivenNames -merge a1
  exact Keeps.after (Keeps.axAt ..) ((.refl _ _)) rfl

theorem State.keepDin_keeps (i : Nat) (s : State) :
    Keeps [.din] s (State.keepDin i s) := by
  unfold State.keepDin
  extract_lets -underBinder +onlyGivenNames -merge a1
  exact Keeps.after (State.onDin_keeps ..) ((.refl _ _)) rfl

theorem State.latchAll_keeps (t : Nat) (conv : List (List Int)) (s : State) :
    Keeps (([.ain, .t16, .fb, .snap, .snapPrev, .din, .dinSnap, .dinPrev, .emu, .book, .axAt, .cap, .cmp, .safe] : List Fld) ++
      ([.led] : List Fld)) s (State.latchAll t conv s) := by
  unfold State.latchAll
  extract_lets -underBinder +onlyGivenNames -merge s1
  refine .viaKeeps (x := s1) (Keeps.eachIx (fun _ _ h2 =>
      Keeps.after (State.latchFb_keeps ..) h2 rfl)
      ((.refl _ _))) fun h3 => ?_
  try clear_value s1
  extract_lets -underBinder +onlyGivenNames -merge s4
  refine .viaKeeps (x := s4) (Keeps.eachIx (fun _ _ h5 =>
      Keeps.after (State.ainTake_keeps ..) h5 rfl)
      (Keeps.after (State.latchTemp_keeps ..) (Keeps.after (State.latchDin_keeps ..) h3 rfl) rfl)) fun h6 => ?_
  try clear_value s4
  extract_lets -underBinder +onlyGivenNames -merge s7
  refine .viaKeeps (x := s7) (Keeps.eachIx (fun _ _ h9 =>
      Keeps.after (State.keepAt_keeps ..) h9 rfl)
      (Keeps.eachIx (fun _ _ h8 =>
        Keeps.after (State.measure_keeps ..) h8 rfl)
        h6)) fun h10 => ?_
  try clear_value s7
  extract_lets -underBinder +onlyGivenNames -merge s11
  refine .viaKeeps (x := s11) (Keeps.eachIx (fun _ _ h12 =>
      Keeps.after (State.keepDin_keeps ..) h12 rfl)
      h10) fun h13 => ?_
  try clear_value s11
  exact Keeps.eachIx (fun _ _ h16 =>
      Keeps.after (State.cmpBoundary_keeps ..) h16 rfl)
      (Keeps.eachIx (fun _ _ h15 =>
        Keeps.after (State.capBoundary_keeps ..) h15 rfl)
        (Keeps.eachIx (fun _ _ h14 =>
          Keeps.after (State.emuBoundary_keeps ..) h14 rfl)
          h13))

theorem State.torqueOff_keeps (a : Nat) (s : State) :
    Keeps [.ax, .pg, .gc, .home, .led] s (State.torqueOff a s) := by
  unfold State.torqueOff
  extract_lets -underBinder +onlyGivenNames -merge s1
  refine .viaKeeps (x := s1) (Keeps.after (State.homeFail_keeps ..) ((.refl _ _)) rfl) fun h2 => ?_
  try clear_value s1
  extract_lets -underBinder +onlyGivenNames -merge s3
  refine .viaKeeps (x := s3) (Keeps.ite (Keeps.after (State.pathBreak_keeps ..) h2 rfl)
      h2) fun h4 => ?_
  try clear_value s3
  extract_lets -underBinder +onlyGivenNames -merge s5
  refine .viaKeeps (x := s5) (by
      dsimp -zeta only [s5]
      split
      · exact Keeps.after (State.setGc_keeps ..) h4 rfl
      · exact h4) fun h6 => ?_
  try clear_value s5
  exact Keeps.after (State.onAx_keeps ..) h6 rfl

theorem State.axisOut_keeps (a : Nat) (s : State) :
    Keeps [.ax, .axe, .axPrevRef, .pg, .gc, .home, .safe, .led] s (State.axisOut a s) := by
  unfold State.axisOut
  extract_lets -underBinder +onlyGivenNames -merge s1
  refine .viaKeeps (x := s1) (Keeps.after (Keeps.axPrevRef ..) ((.refl _ _)) rfl) fun h2 => ?_
  try clear_value s1
  extract_lets -underBinder +onlyGivenNames -merge s3
  refine .viaKeeps (x := s3) (Keeps.ite (Keeps.after (State.torqueOff_keeps ..) h2 rfl)
      h2) fun h4 => ?_
  try clear_value s3
  extract_lets -underBinder +onlyGivenNames -merge s5
  refine .viaKeeps (x := s5) (Keeps.ite h4
      (Keeps.after (State.onStop_keeps ..) h4 rfl)) fun h6 => ?_
  try clear_value s5
  exact Keeps.after (Keeps.axe ..) h6 rfl

theorem State.takeOrder_keeps (a : Nat) (s : State) :
    Keeps [.ax, .book, .pg, .home, .led] s (State.takeOrder a s) := by
  unfold State.takeOrder
  extract_lets -underBinder +onlyGivenNames -merge a1 s2
  refine .viaKeeps (x := s2) (Keeps.after (State.onBook_keeps ..) ((.refl _ _)) rfl) fun h3 => ?_
  try clear_value s2
  extract_lets -underBinder +onlyGivenNames -merge s4
  refine .viaKeeps (x := s4) (by
      dsimp -zeta only [s4]
      split
      · exact Keeps.after (State.pathBreak_keeps ..) h3 rfl
      · exact Keeps.after (State.pathBreak_keeps ..) h3 rfl
      · exact Keeps.after (State.pathBreak_keeps ..) h3 rfl
      · exact h3) fun h5 => ?_
  try clear_value s4
  split
  · exact h5
  · exact Keeps.ite h5
      (by
        extract_lets -underBinder +onlyGivenNames -merge s6
        refine .viaKeeps (x := s6) (Keeps.ite h5
            (Keeps.after (State.homeFail_keeps ..) h5 rfl)) fun h7 => ?_
        try clear_value s6
        exact Keeps.after (State.onAx_keeps ..) h7 rfl)

theorem State.watchTest_keeps (s : State) :
    Keeps [.safe, .led] s (State.watchTest s) := by
  unfold State.watchTest
  split
  · exact (.refl _ _)
  · extract_lets -underBinder +onlyGivenNames -merge a1
    exact Keeps.ite (Keeps.after (State.onTest_keeps ..) ((.refl _ _)) rfl)
        (Keeps.after (State.abortTest_keeps ..) ((.refl _ _)) rfl)

theorem State.releases_keeps (s : State) :
    Keeps [.ax, .safe] s (State.releases s) := by
  unfold State.releases
  extract_lets -underBinder +onlyGivenNames -merge r1 s2
  refine .viaKeeps (x := s2) (Keeps.after (Keeps.safe ..) ((.refl _ _)) rfl) fun h3 => ?_
  try clear_value s2
  exact Keeps.eachIx (fun _ _ h4 =>
      Keeps.ite (Keeps.after (State.onAx_keeps ..) h4 rfl)
        h4)
      h3

theorem State.currents_keeps (t : Nat) (s : State) :
    Keeps [.ch, .cax, .led] s (State.currents t s) := by
  unfold State.currents
  exact Keeps.eachIx (fun _ _ h1 =>
    by
      extract_lets -underBinder +onlyGivenNames -merge a2
      exact Keeps.after (State.curBoundary_keeps ..) h1 rfl)
    ((.refl _ _))

theorem State.outputs_keeps (t : Nat) (readback : List Nat) (modeDone : Bool) (s : State) :
    Keeps (([.ch, .cax, .ax, .axe, .axPrevRef, .book, .pg, .gc, .home, .cars, .doors, .safe, .fab, .purse] : List Fld) ++
      ([.led, .mode, .stw] : List Fld)) s (State.outputs t readback modeDone s) := by
  unfold State.outputs
  extract_lets -underBinder +onlyGivenNames -merge s1
  refine .viaKeeps (x := s1) (Keeps.after (State.sampleIns_keeps ..) (Keeps.after (State.monBoundary_keeps ..) ((.refl _ _)) rfl) rfl) fun h2 => ?_
  try clear_value s1
  extract_lets -underBinder +onlyGivenNames -merge s3
  refine .viaKeeps (x := s3) (Keeps.eachIx (fun _ _ h5 =>
      Keeps.after (State.torqueFall_keeps ..) h5 rfl)
      (Keeps.eachIx (fun _ _ h4 =>
        Keeps.after (State.ss1Boundary_keeps ..) h4 rfl)
        h2)) fun h6 => ?_
  try clear_value s3
  extract_lets -underBinder +onlyGivenNames -merge s7
  refine .viaKeeps (x := s7) (Keeps.after (State.modeBoundary_keeps ..) (Keeps.eachIx (fun _ _ h8 =>
        Keeps.after (State.axisOut_keeps ..) h8 rfl)
        h6) rfl) fun h9 => ?_
  try clear_value s7
  extract_lets -underBinder +onlyGivenNames -merge s10
  refine .viaKeeps (x := s10) (Keeps.eachIx (fun _ _ h12 =>
      Keeps.after (State.gearWatch_keeps ..) h12 rfl)
      (Keeps.eachIx (fun _ _ h11 =>
        Keeps.after (State.takeOrder_keeps ..) h11 rfl)
        h9)) fun h13 => ?_
  try clear_value s10
  extract_lets -underBinder +onlyGivenNames -merge s14
  refine .viaKeeps (x := s14) (Keeps.after (State.currents_keeps ..) (Keeps.after (State.driveOuts_keeps ..) (Keeps.after (State.watchTest_keeps ..) h13 rfl) rfl) rfl) fun h15 => ?_
  try clear_value s14
  exact Keeps.after (State.permitEvent_keeps ..) (Keeps.after (State.outsBoundary_keeps ..) (Keeps.after (State.driveOuts_keeps ..) (Keeps.after (State.releases_keeps ..) h15 rfl) rfl) rfl) rfl

theorem State.winBoundary_keeps (s : State) :
    Keeps (([.freeIx, .disp, .fb, .emu, .ch, .cax, .ax, .book, .pg, .pgBook, .gc, .home, .pre, .replies] : List Fld) ++
      ([.survey, .cars, .doors, .safe, .time, .xd, .twin, .led, .mode, .stw, .win] : List Fld)) s (State.winBoundary s) := by
  unfold State.winBoundary
  exact Keeps.after (State.mbBoundary_keeps ..) (Keeps.after (State.onWin_keeps ..) ((.refl _ _)) rfl) rfl

theorem State.linkBoundary_keeps (s : State) :
    Keeps (([.freeIx, .stage, .disp, .ax, .book, .pg, .pgBook, .gc, .home, .pre, .replies, .survey, .cars, .doors] : List Fld) ++
      ([.dsp, .safe, .time, .fab, .cons, .xd, .twin, .purse, .led, .mode, .stw, .win] : List Fld)) s (State.linkBoundary s) := by
  unfold State.linkBoundary
  extract_lets -underBinder +onlyGivenNames -merge s1
  refine .viaKeeps (x := s1) (Keeps.after (State.pairStage_keeps ..) (Keeps.after (State.giveKept_keeps ..) (Keeps.after (State.fabAgain_keeps ..) (Keeps.after (State.conBoundary_keeps ..) ((.refl _ _)) rfl) rfl) rfl) rfl) fun h2 => ?_
  try clear_value s1
  extract_lets -underBinder +onlyGivenNames -merge s3
  refine .viaKeeps (x := s3) (Keeps.eachIx (fun _ _ h5 =>
      Keeps.after (State.xdConfirm_keeps ..) h5 rfl)
      (Keeps.eachIx (fun _ _ h4 =>
        Keeps.after (State.xdSend_keeps ..) h4 rfl)
        h2)) fun h6 => ?_
  try clear_value s3
  exact Keeps.after (State.eventsOut_keeps ..) (Keeps.after (State.twinBoundary_keeps ..) (Keeps.after (State.loopBoundary_keeps ..) h6 rfl) rfl) rfl

theorem execStageBoundary_keeps (io : BoundaryInputs) (s : State) :
    Runs (allBut [.pending, .cfg, .graph, .kernels, .links, .clk, .trims, .scTrims, .acq, .wake, .pins]) s (execStageBoundary io s) := by
  unfold execStageBoundary
  exact Runs.ite (Runs.next ((.refl _ _)))
    (by
      extract_lets -underBinder +onlyGivenNames -merge a1 s2
      refine .viaKeeps (x := s2) (Keeps.after (State.tick_keeps ..) ((.refl _ _)) rfl) fun h3 => ?_
      try clear_value s2
      extract_lets -underBinder +onlyGivenNames -merge a4 a5 s6
      refine .viaKeeps (x := s6) (Keeps.ite h3
          (Keeps.after (State.closeStage_keeps ..) h3 rfl)) fun h7 => ?_
      try clear_value s6
      extract_lets -underBinder +onlyGivenNames -merge s8
      refine .viaKeeps (x := s8) (Keeps.after (State.outputs_keeps ..) (Keeps.after (State.latchAll_keeps ..) (Keeps.after (State.applyA_keeps ..) (Keeps.after (State.openStage_keeps ..) h7 rfl) rfl) rfl) rfl) fun h9 => ?_
      try clear_value s8
      extract_lets -underBinder +onlyGivenNames -merge s10
      refine .viaKeeps (x := s10) (Keeps.after (State.linkBoundary_keeps ..) (Keeps.after (State.winBoundary_keeps ..) (Keeps.after (State.surveyAppend_keeps ..) (Keeps.after (State.surveyAborts_keeps ..) h9 rfl) rfl) rfl) rfl) fun h11 => ?_
      try clear_value s10
      exact Runs.next (Keeps.ite (Keeps.after (State.publish_keeps ..) h11 rfl)
            h11))

theorem execBoundaryNotice_keeps (io : NoticeInputs) (s : State) :
    Runs (([.freeIx, .clk, .stage, .disp, .cax, .ax, .book, .pg, .gc, .home, .pre, .safe, .fab, .cons] : List Fld) ++
      ([.twin, .purse, .led, .mode, .stw, .pins, .pub] : List Fld)) s (execBoundaryNotice io s) := by
  unfold execBoundaryNotice
  extract_lets -underBinder +onlyGivenNames -merge s1
  refine .viaKeeps (x := s1) (Keeps.after (State.tick_keeps ..) ((.refl _ _)) rfl) fun h2 => ?_
  try clear_value s1
  exact Runs.ite (Runs.next h2)
      (by
        extract_lets -underBinder +onlyGivenNames -merge r3 s4
        refine .viaKeeps (x := s4) (Keeps.after (State.noticeB_keeps ..) (Keeps.after (Keeps.stage ..) h2 rfl) rfl) fun h5 => ?_
        try clear_value s4
        extract_lets -underBinder +onlyGivenNames -merge s6
        refine .viaKeeps (x := s6) (Keeps.eachIx (fun _ _ h7 =>
            Keeps.ite (Keeps.after (State.edmBoundary_keeps ..) h7 rfl)
              h7)
            h5) fun h8 => ?_
        try clear_value s6
        extract_lets -underBinder +onlyGivenNames -merge s9
        refine .viaKeeps (x := s9) (Keeps.after (State.ledBoundary_keeps ..) (Keeps.eachIx (fun _ _ h10 =>
              Keeps.after (State.conProduce_keeps ..) h10 rfl)
              h8) rfl) fun h11 => ?_
        try clear_value s9
        exact Runs.next (Keeps.after (State.offerStewardKept_keeps ..) (Keeps.after (State.publish_keeps ..) (Keeps.after (State.chargerNow_keeps ..) (Keeps.after (State.purseBoundary_keeps ..) (Keeps.after (State.testNotice_keeps ..) h11 rfl) rfl) rfl) rfl) rfl))

theorem execCommitCutoff_keeps (t : Nat) (executed : List (Work × Nat)) (s : State) :
    Runs [.stage, .disp, .led] s (execCommitCutoff t executed s) := by
  unfold execCommitCutoff
  extract_lets -underBinder +onlyGivenNames -merge s1
  refine .viaKeeps (x := s1) (Keeps.after (State.tick_keeps ..) ((.refl _ _)) rfl) fun h2 => ?_
  try clear_value s1
  exact Runs.ite (Runs.next h2)
      (Runs.next (Keeps.after (State.endSweep_keeps ..) h2 rfl))

theorem execGraphStart_keeps (t : Nat) (s : State) :
    Runs [.disp, .book, .axAt, .safe, .xd, .led] s (execGraphStart t s) := by
  unfold execGraphStart
  extract_lets -underBinder +onlyGivenNames -merge s1
  refine .viaKeeps (x := s1) (Keeps.after (State.tick_keeps ..) ((.refl _ _)) rfl) fun h2 => ?_
  try clear_value s1
  exact Runs.ite (Runs.next h2)
      (Runs.next (Keeps.after (State.graphStart_keeps ..) (Keeps.eachIx (fun _ _ h3 =>
            Keeps.after (State.xdStage_keeps ..) h3 rfl)
            h2) rfl))

theorem State.kernelWork_keeps (w : Work) (s : State) :
    Keeps (([.disp, .cax, .ax, .book, .pg, .pgBook, .gc, .home, .pre, .replies, .survey, .cars, .doors, .dsp] : List Fld) ++
      ([.safe, .fab, .twin, .purse, .led, .mode, .stw] : List Fld)) s (State.kernelWork w s) := by
  unfold State.kernelWork
  extract_lets -underBinder +onlyGivenNames -merge s1
  refine .viaKeeps (x := s1) (Keeps.after (State.repeatHeld_keeps ..) (Keeps.after (State.unshow_keeps ..) ((.refl _ _)) rfl) rfl) fun h2 => ?_
  try clear_value s1
  split
  · exact Keeps.after (State.modeKernel_keeps ..) h2 rfl
  · exact Keeps.after (State.evalChannel_keeps ..) h2 rfl
  · exact Keeps.after (State.axisKernel_keeps ..) h2 rfl
  · exact Keeps.after (State.groupKernel_keeps ..) h2 rfl
  · exact Keeps.after (State.carKernel_keeps ..) h2 rfl
  · exact Keeps.after (State.doorKernel_keeps ..) h2 rfl
  · exact Keeps.after (State.dispatchKernel_keeps ..) h2 rfl
  · split
    · split
      · exact Keeps.after (State.formBids_keeps ..) h2 rfl
      · exact h2
    · exact h2
  · exact Keeps.after (State.surveyKernel_keeps ..) h2 rfl
  · exact h2

theorem execTaskCompletion_keeps (t : Nat) (lane : Nat) (cyc : Nat) (s : State) :
    Runs (([.disp, .cax, .ax, .book, .pg, .pgBook, .gc, .home, .pre, .replies, .survey, .cars, .doors, .dsp] : List Fld) ++
      ([.safe, .fab, .twin, .purse, .led, .mode, .stw] : List Fld)) s (execTaskCompletion t lane cyc s) := by
  unfold execTaskCompletion
  extract_lets -underBinder +onlyGivenNames -merge s1
  refine .viaKeeps (x := s1) (Keeps.after (State.comeTo_keeps ..) (Keeps.after (State.tick_keeps ..) ((.refl _ _)) rfl) rfl) fun h2 => ?_
  try clear_value s1
  split
  · exact Runs.next (Keeps.after (State.select_keeps ..) h2 rfl)
  · extract_lets -underBinder +onlyGivenNames -merge a3
    exact Runs.ite (Runs.next (Keeps.after (State.select_keeps ..) h2 rfl))
        (by
          extract_lets -underBinder +onlyGivenNames -merge s4
          refine .viaKeeps (x := s4) (Keeps.after (State.setLane_keeps ..) h2 rfl) fun h5 => ?_
          try clear_value s4
          exact Runs.ite (Runs.next (Keeps.after (State.select_keeps ..) (Keeps.after (State.overrun_keeps ..) h5 rfl) rfl))
              (Runs.ite (Runs.next (Keeps.after (State.select_keeps ..) (Keeps.after (State.endedCancelled_keeps ..) (Keeps.after (State.respEv_keeps ..) h5 rfl) rfl) rfl))
                (Runs.next (Keeps.after (State.select_keeps ..) (Keeps.after (State.committed_keeps ..) (Keeps.after (State.kernelWork_keeps ..) h5 rfl) rfl) rfl))))

end Sys2Proof.Machine
end

