-- ==== Sys2Proof/Laws/Exec.lean ====
section
/-! SUPPORT. Every command answers a next state, keeps the invariant and the queue, and never sets the clock back. -/

namespace Sys2Proof.Machine

/-- The fields that some command changes. -/
abbrev changeable : List Fld :=
  [.freeIx, .cfg, .graph, .kernels, .links, .clk, .stage, .disp, .ain, .t16, .fb, .snap, .snapPrev, .din, .dinSnap,
   .dinPrev, .emu, .ch, .cax, .acq, .ax, .axe, .axPrevRef, .book, .axAt, .pg, .pgBook, .gc, .cap, .cmp, .home, .pre,
   .replies, .survey, .cars, .doors, .dsp, .safe, .time, .fab, .cons, .xd, .twin, .purse, .led, .mode, .stw, .wake,
   .win, .pins, .pub]

theorem exec_keeps (i : Instr) (s : State) : Runs changeable s (exec i s) := by
  cases i with
  | stageBoundary io => exact Runs.mono (execStageBoundary_keeps io s) rfl
  | boundaryNotice io => exact Runs.mono (execBoundaryNotice_keeps io s) rfl
  | commitCutoff t executed => exact Runs.mono (execCommitCutoff_keeps t executed s) rfl
  | graphStart t => exact Runs.mono (execGraphStart_keeps t s) rfl
  | taskCompletion t lane cyc => exact Runs.mono (execTaskCompletion_keeps t lane cyc s) rfl
  | budgetExhausted t lane => exact Runs.mono (execBudgetExhausted_keeps t lane s) rfl
  | cancelRequest t w => exact Runs.mono (execCancelRequest_keeps t w s) rfl
  | waitEvent t wkind wix => exact Runs.mono (execWaitEvent_keeps t wkind wix s) rfl
  | waitDeadline t task => exact Runs.mono (execWaitDeadline_keeps t task s) rfl
  | kernelSpawnRequest t task arg => exact Runs.mono (execKernelSpawnRequest_keeps t task arg s) rfl
  | stewardSpawnMessage t src arg => exact Runs.mono (execStewardSpawnMessage_keeps t src arg s) rfl
  | clrResp t value => exact Runs.mono (execClrResp_keeps t value s) rfl
  | heartbeatFlit t link => exact Runs.mono (execHeartbeatFlit_keeps t link s) rfl
  | flitCheckFail t link resentOk => exact Runs.mono (execFlitCheckFail_keeps t link resentOk s) rfl
  | dieLinkFault t link cause detector => exact Runs.mono (execDieLinkFault_keeps t link cause detector s) rfl
  | edgeClockCheck t khz => exact Runs.mono (execEdgeClockCheck_keeps t khz s) rfl
  | pllLossOfLock t => exact Runs.mono (execPllLossOfLock_keeps t s) rfl
  | rtcCheck t mhz => exact Runs.mono (execRtcCheck_keeps t mhz s) rfl
  | lockstepMismatch t lane => exact Runs.mono (execLockstepMismatch_keeps t lane s) rfl
  | memoryEcc t addr double => exact Runs.mono (execMemoryEcc_keeps t addr double s) rfl
  | quadTransition t ch a b z => exact Runs.mono (execQuadTransition_keeps t ch a b z s) rfl
  | quadConfirm t ch line => exact Runs.mono (execQuadConfirm_keeps t ch line s) rfl
  | indexInstant t ch => exact Runs.mono (execIndexInstant_keeps t ch s) rfl
  | sincosSample t ch sin cos => exact Runs.mono (execSincosSample_keeps t ch sin cos s) rfl
  | ssiFrameStart t ch => exact Runs.mono (execSsiFrameStart_keeps t ch s) rfl
  | ssiWord t ch word lowFirst allHigh => exact Runs.mono (execSsiWord_keeps t ch word lowFirst allHigh s) rfl
  | ssiDelayMeasure t ch delays => exact Runs.mono (execSsiDelayMeasure_keeps t ch delays s) rfl
  | dinRawTransition t din level => exact Runs.mono (execDinRawTransition_keeps t din level s) rfl
  | dinFilterStable t din => exact Runs.mono (execDinFilterStable_keeps t din s) rfl
  | dinFirstLevel t din => exact Runs.mono (execDinFirstLevel_keeps t din s) rfl
  | chatterEnd t din => exact Runs.mono (execChatterEnd_keeps t din s) rfl
  | emuStep t emu => exact Runs.mono (execEmuStep_keeps t emu s) rfl
  | modulatorBit ticks ch bit => exact Runs.mono (execModulatorBit_keeps ticks ch bit s) rfl
  | accurateEstimate ticks ch => exact Runs.mono (execAccurateEstimate_keeps ticks ch s) rfl
  | angleTick t => exact Runs.mono (execAngleTick_keeps t s) rfl
  | edgeFire ticks axis eng => exact Runs.mono (execEdgeFire_keeps ticks axis eng s) rfl
  | gateOn ticks axis hb => exact Runs.mono (execGateOn_keeps ticks axis hb s) rfl
  | modulatorTimeout ticks ch => exact Runs.mono (execModulatorTimeout_keeps ticks ch s) rfl
  | gateReadbackMismatch t axis hb high => exact Runs.mono (execGateReadbackMismatch_keeps t axis hb high s) rfl
  | driverFaultInput t axis low => exact Runs.mono (execDriverFaultInput_keeps t axis low s) rfl
  | offsetAcquired t => exact Runs.mono (execOffsetAcquired_keeps t s) rfl
  | enable axis src tag => exact Runs.mono (execEnable_keeps axis src tag s) rfl
  | disable axis src tag => exact Runs.mono (execDisable_keeps axis src tag s) rfl
  | mode axis src code tag => exact Runs.mono (execMode_keeps axis src code tag s) rfl
  | moveAbs axis src prof flags target vcap tag => exact Runs.mono (execMoveAbs_keeps axis src prof flags target vcap tag s) rfl
  | moveRel axis src prof dist vcap tag => exact Runs.mono (execMoveRel_keeps axis src prof dist vcap tag s) rfl
  | velocity axis src prof v vcap tag => exact Runs.mono (execVelocity_keeps axis src prof v vcap tag s) rfl
  | stop axis src tag => exact Runs.mono (execStop_keeps axis src tag s) rfl
  | resume axis src tag => exact Runs.mono (execResume_keeps axis src tag s) rfl
  | quickStop axis src tag => exact Runs.mono (execQuickStop_keeps axis src tag s) rfl
  | torque axis src current tag => exact Runs.mono (execTorque_keeps axis src current tag s) rfl
  | hold axis src tag => exact Runs.mono (execHold_keeps axis src tag s) rfl
  | release axis src tag => exact Runs.mono (execRelease_keeps axis src tag s) rfl
  | dwellEnd t axis => exact Runs.mono (execDwellEnd_keeps t axis s) rfl
  | start group src tag => exact Runs.mono (execStart_keeps group src tag s) rfl
  | line group src seg => exact Runs.mono (execLine_keeps group src seg s) rfl
  | arc group src seg => exact Runs.mono (execArc_keeps group src seg s) rfl
  | pathStop group src tag => exact Runs.mono (execPathStop_keeps group src tag s) rfl
  | pathResume group src tag => exact Runs.mono (execPathResume_keeps group src tag s) rfl
  | clear group src tag => exact Runs.mono (execClear_keeps group src tag s) rfl
  | captureTransition t cap level => exact Runs.mono (execCaptureTransition_keeps t cap level s) rfl
  | captureAccept t cap => exact Runs.mono (execCaptureAccept_keeps t cap s) rfl
  | compareFire t out => exact Runs.mono (execCompareFire_keeps t out s) rfl
  | comparePulseEnd t out => exact Runs.mono (execComparePulseEnd_keeps t out s) rfl
  | homingAuto t axis => exact Runs.mono (execHomingAuto_keeps t axis s) rfl
  | hardstopFound t axis => exact Runs.mono (execHardstopFound_keeps t axis s) rfl
  | learn t src id kind target step => exact Runs.mono (execLearn_keeps t src id kind target step s) rfl
  | alignSettle t axis => exact Runs.mono (execAlignSettle_keeps t axis s) rfl
  | levelSettle t axis => exact Runs.mono (execLevelSettle_keeps t axis s) rfl
  | surveyCommit t axis => exact Runs.mono (execSurveyCommit_keeps t axis s) rfl
  | doorZoneDiscrepancy t car => exact Runs.mono (execDoorZoneDiscrepancy_keeps t car s) rfl
  | relevel t car => exact Runs.mono (execRelevel_keeps t car s) rfl
  | doorHoldEnd t door => exact Runs.mono (execDoorHoldEnd_keeps t door s) rfl
  | nudgeTimer t door => exact Runs.mono (execNudgeTimer_keeps t door s) rfl
  | safetyInputChange t die pair ballB level => exact Runs.mono (execSafetyInputChange_keeps t die pair ballB level s) rfl
  | ss1End t axis => exact Runs.mono (execSs1End_keeps t axis s) rfl
  | brakeTest t src id axis => exact Runs.mono (execBrakeTest_keeps t src id axis s) rfl
  | brakeTestStepEnd t => exact Runs.mono (execBrakeTestStepEnd_keeps t s) rfl
  | testPulse t out offA offB => exact Runs.mono (execTestPulse_keeps t out offA offB s) rfl
  | edmTimeout t out => exact Runs.mono (execEdmTimeout_keeps t out s) rfl
  | clearFault t src id => exact Runs.mono (execClearFault_keeps t src id s) rfl
  | dspCall t call => exact Runs.mono (execDspCall_keeps t call s) rfl
  | dspOpen t o => exact Runs.mono (execDspOpen_keeps t o s) rfl
  | bidSend t callId => exact Runs.mono (execBidSend_keeps t callId s) rfl
  | dspBid t callId merged bids => exact Runs.mono (execDspBid_keeps t callId merged bids s) rfl
  | waystationForward t callId => exact Runs.mono (execWaystationForward_keeps t callId s) rfl
  | bidRoundClose t callId => exact Runs.mono (execBidRoundClose_keeps t callId s) rfl
  | dspAssign t callId unit car attempt cost => exact Runs.mono (execDspAssign_keeps t callId unit car attempt cost s) rfl
  | dspAccept t callId unit car => exact Runs.mono (execDspAccept_keeps t callId unit car s) rfl
  | dspDecline t callId unit car reason => exact Runs.mono (execDspDecline_keeps t callId unit car reason s) rfl
  | acceptTimeout t callId => exact Runs.mono (execAcceptTimeout_keeps t callId s) rfl
  | callReopen t callId => exact Runs.mono (execCallReopen_keeps t callId s) rfl
  | collectorSwitch t req => exact Runs.mono (execCollectorSwitch_keeps t req s) rfl
  | dspDone t callId unit car => exact Runs.mono (execDspDone_keeps t callId unit car s) rfl
  | dspRelease t callId unit car reason => exact Runs.mono (execDspRelease_keeps t callId unit car reason s) rfl
  | dspCancel t callId requester => exact Runs.mono (execDspCancel_keeps t callId requester s) rfl
  | portLinkChange t port up => exact Runs.mono (execPortLinkChange_keeps t port up s) rfl
  | linkHello t port unit boot keyCur keyOther a => exact Runs.mono (execLinkHello_keeps t port unit boot keyCur keyOther a s) rfl
  | helloSend t port => exact Runs.mono (execHelloSend_keeps t port s) rfl
  | neighbourTimeout t port unit => exact Runs.mono (execNeighbourTimeout_keeps t port unit s) rfl
  | credit t port unit counts => exact Runs.mono (execCredit_keeps t port unit counts s) rfl
  | creditSend t port unit => exact Runs.mono (execCreditSend_keeps t port unit s) rfl
  | frameTransmit t port => exact Runs.mono (execFrameTransmit_keeps t port s) rfl
  | sync t port seqId origin corr stamp => exact Runs.mono (execSync_keeps t port seqId origin corr stamp s) rfl
  | syncSend t => exact Runs.mono (execSyncSend_keeps t s) rfl
  | syncTimeout t => exact Runs.mono (execSyncTimeout_keeps t s) rfl
  | timeSeal t origin seqId => exact Runs.mono (execTimeSeal_keeps t origin seqId s) rfl
  | timeSealSend t => exact Runs.mono (execTimeSealSend_keeps t s) rfl
  | safetyPdu t src boot conn scount ts flags data crc => exact Runs.mono (execSafetyPdu_keeps t src boot conn scount ts flags data crc s) rfl
  | safetyWatchdog t con => exact Runs.mono (execSafetyWatchdog_keeps t con s) rfl
  | xdStatus t src axis state epoch p v iq => exact Runs.mono (execXdStatus_keeps t src axis state epoch p v iq s) rfl
  | xdConfirmTimeout t axis => exact Runs.mono (execXdConfirmTimeout_keeps t axis s) rfl
  | unitStatus t => exact Runs.mono (execUnitStatus_keeps t s) rfl
  | energyOffer t share unit slice0 inc => exact Runs.mono (execEnergyOffer_keeps t share unit slice0 inc s) rfl
  | twinPacket t p => exact Runs.mono (execTwinPacket_keeps t p s) rfl
  | twinHeartbeat t => exact Runs.mono (execTwinHeartbeat_keeps t s) rfl
  | twinLink t up => exact Runs.mono (execTwinLink_keeps t up s) rfl
  | rebase t => exact Runs.mono (execRebase_keeps t s) rfl
  | compareResume t => exact Runs.mono (execCompareResume_keeps t s) rfl
  | roleRequest t => exact Runs.mono (execRoleRequest_keeps t s) rfl
  | leaseRequest t pair unit leaseNo lease cause successor => exact Runs.mono (execLeaseRequest_keeps t pair unit leaseNo lease cause successor s) rfl
  | leaseGrant t pair holder leaseNo result left successor requester => exact Runs.mono (execLeaseGrant_keeps t pair holder leaseNo result left successor requester s) rfl
  | leaseRelease t pair unit leaseNo => exact Runs.mono (execLeaseRelease_keeps t pair unit leaseNo s) rfl
  | leaseRenew t => exact Runs.mono (execLeaseRenew_keeps t s) rfl
  | leaseExpiry t => exact Runs.mono (execLeaseExpiry_keeps t s) rfl
  | handoff t => exact Runs.mono (execHandoff_keeps t s) rfl
  | grantCheck t => exact Runs.mono (execGrantCheck_keeps t s) rfl
  | switch t src id => exact Runs.mono (execSwitch_keeps t src id s) rfl
  | pdClass t port cls powered => exact Runs.mono (execPdClass_keeps t port cls powered s) rfl
  | classFallback t port => exact Runs.mono (execClassFallback_keeps t port s) rfl
  | powerLoss t => exact Runs.mono (execPowerLoss_keeps t s) rfl
  | powerReturn t => exact Runs.mono (execPowerReturn_keeps t s) rfl
  | holdFloor t hold => exact Runs.mono (execHoldFloor_keeps t hold s) rfl
  | grantExceeded t => exact Runs.mono (execGrantExceeded_keeps t s) rfl
  | sensorSupply t mw5 mw12 => exact Runs.mono (execSensorSupply_keeps t mw5 mw12 s) rfl
  | railLow t rail => exact Runs.mono (execRailLow_keeps t rail s) rfl
  | busEnergy t bus => exact Runs.mono (execBusEnergy_keeps t bus s) rfl
  | pairedDeparture t car => exact Runs.mono (execPairedDeparture_keeps t car s) rfl
  | sprintClockRise t => exact Runs.mono (execSprintClockRise_keeps t s) rfl
  | sprintRequestLapse t => exact Runs.mono (execSprintRequestLapse_keeps t s) rfl
  | thermalSample t temps => exact Runs.mono (execThermalSample_keeps t temps s) rfl
  | thermalCool t => exact Runs.mono (execThermalCool_keeps t s) rfl
  | sensorDisagreement t die => exact Runs.mono (execSensorDisagreement_keeps t die s) rfl
  | ledgerOccurrence t code sev payload => exact Runs.mono (execLedgerOccurrence_keeps t code sev payload s) rfl
  | ledgerMaxAge t => exact Runs.mono (execLedgerMaxAge_keeps t s) rfl
  | pageProgrammed t failed => exact Runs.mono (execPageProgrammed_keeps t failed s) rfl
  | nevtAck t value => exact Runs.mono (execNevtAck_keeps t value s) rfl
  | flushBit t value => exact Runs.mono (execFlushBit_keeps t value s) rfl
  | nevtPulseEnd t => exact Runs.mono (execNevtPulseEnd_keeps t s) rfl
  | readFrom t seq => exact Runs.mono (execReadFrom_keeps t seq s) rfl
  | apertureFill t => exact Runs.mono (execApertureFill_keeps t s) rfl
  | rtcTick t => exact Runs.mono (execRtcTick_keeps t s) rfl
  | lifeClockPersist t => exact Runs.mono (execLifeClockPersist_keeps t s) rfl
  | ageingMeasurement t counts => exact Runs.mono (execAgeingMeasurement_keeps t counts s) rfl
  | coreSupplyLow t die => exact Runs.mono (execCoreSupplyLow_keeps t die s) rfl
  | holdTest t src id => exact Runs.mono (execHoldTest_keeps t src id s) rfl
  | holdTestDue t => exact Runs.mono (execHoldTestDue_keeps t s) rfl
  | holdTestStart t => exact Runs.mono (execHoldTestStart_keeps t s) rfl
  | holdTestEnd t esr dt => exact Runs.mono (execHoldTestEnd_keeps t esr dt s) rfl
  | selfTest t src id pass => exact Runs.mono (execSelfTest_keeps t src id pass s) rfl
  | periodicSelfTest t pass => exact Runs.mono (execPeriodicSelfTest_keeps t pass s) rfl
  | objectChunk t src type c => exact Runs.mono (execObjectChunk_keeps t src type c s) rfl
  | updateBlock t src c => exact Runs.mono (execUpdateBlock_keeps t src c s) rfl
  | partEraseDone t => exact Runs.mono (execPartEraseDone_keeps t s) rfl
  | partVerified t c => exact Runs.mono (execPartVerified_keeps t c s) rfl
  | amendment t => exact Runs.mono (execAmendment_keeps t s) rfl
  | amendmentCommit t => exact Runs.mono (execAmendmentCommit_keeps t s) rfl
  | keyDelivery t => exact Runs.mono (execKeyDelivery_keeps t s) rfl
  | keyActivation t => exact Runs.mono (execKeyActivation_keeps t s) rfl
  | ownerKeyFuse t => exact Runs.mono (execOwnerKeyFuse_keeps t s) rfl
  | unsignedOwnerKey t => exact Runs.mono (execUnsignedOwnerKey_keeps t s) rfl
  | ownerKeyRevoke t => exact Runs.mono (execOwnerKeyRevoke_keeps t s) rfl
  | zeroise t => exact Runs.mono (execZeroise_keeps t s) rfl
  | activate t => exact Runs.mono (execActivate_keeps t s) rfl
  | commit t => exact Runs.mono (execCommit_keeps t s) rfl
  | journalCompactionDone t => exact Runs.mono (execJournalCompactionDone_keeps t s) rfl
  | attestRequest t src keyless nonce flags => exact Runs.mono (execAttestRequest_keeps t src keyless nonce flags s) rfl
  | attestSigned t pass => exact Runs.mono (execAttestSigned_keeps t pass s) rfl
  | supplyUp t => exact Runs.mono (execSupplyUp_keeps t s) rfl
  | nresetAssert t => exact Runs.mono (execNresetAssert_keeps t s) rfl
  | nresetRelease t => exact Runs.mono (execNresetRelease_keeps t s) rfl
  | waking t failed nor => exact Runs.mono (execWaking_keeps t failed nor s) rfl
  | containerChecked t part c => exact Runs.mono (execContainerChecked_keeps t part c s) rfl
  | containerLoaded t fw wb => exact Runs.mono (execContainerLoaded_keeps t fw wb s) rfl
  | sectionCheck t => exact Runs.mono (execSectionCheck_keeps t s) rfl
  | journalReplay t => exact Runs.mono (execJournalReplay_keeps t s) rfl
  | releaseOutputs t => exact Runs.mono (execReleaseOutputs_keeps t s) rfl
  | wakingTimeout t => exact Runs.mono (execWakingTimeout_keeps t s) rfl
  | modeCommand t src id target eff => exact Runs.mono (execModeCommand_keeps t src id target eff s) rfl
  | rescue t car => exact Runs.mono (execRescue_keeps t car s) rfl
  | rescueHoldEnd t car => exact Runs.mono (execRescueHoldEnd_keeps t car s) rfl
  | lodgeIdle t => exact Runs.mono (execLodgeIdle_keeps t s) rfl
  | lodgeEntry t => exact Runs.mono (execLodgeEntry_keeps t s) rfl
  | lodgeWake t source input => exact Runs.mono (execLodgeWake_keeps t source input s) rfl
  | lodgeSupplyRestored t => exact Runs.mono (execLodgeSupplyRestored_keeps t s) rfl
  | windowRead t src r => exact Runs.mono (execWindowRead_keeps t src r s) rfl
  | windowReadServe t => exact Runs.mono (execWindowReadServe_keeps t s) rfl
  | flush t src id => exact Runs.mono (execFlush_keeps t src id s) rfl
  | setTime t src id site => exact Runs.mono (execSetTime_keeps t src id site s) rfl
  | write t src id addr width value => exact Runs.mono (execWrite_keeps t src id addr width value s) rfl
  | serviceReadTransaction t whole => exact Runs.mono (execServiceReadTransaction_keeps t whole s) rfl
  | cysinFrame t port from_ f => exact Runs.mono (execCysinFrame_keeps t port from_ f s) rfl
  | announce t port a => exact Runs.mono (execAnnounce_keeps t port a s) rfl
  | serviceWriteTransaction t op len crc m => exact Runs.mono (execServiceWriteTransaction_keeps t op len crc m s) rfl

end Sys2Proof.Machine
end

