-- ==== Sys2Proof/Laws/State.lean ====
section
/-! SUPPORT. What each named update of the state leaves and sets, field by field: no proof unfolds a record update. -/

namespace Sys2Proof.Machine

/-! ### tick -/

section
variable (s : State) (t : Nat)

@[simp] theorem State.tick_pending : (s.tick t).pending = s.pending := rfl
@[simp] theorem State.tick_freeIx : (s.tick t).freeIx = s.freeIx := rfl
@[simp] theorem State.tick_now : (s.tick t).now = max s.now t := rfl
@[simp] theorem State.tick_cfg : (s.tick t).cfg = s.cfg := rfl
@[simp] theorem State.tick_graph : (s.tick t).graph = s.graph := rfl
@[simp] theorem State.tick_kernels : (s.tick t).kernels = s.kernels := rfl
@[simp] theorem State.tick_links : (s.tick t).links = s.links := rfl
@[simp] theorem State.tick_clk : (s.tick t).clk = s.clk := rfl
@[simp] theorem State.tick_stage : (s.tick t).stage = s.stage := rfl
@[simp] theorem State.tick_disp : (s.tick t).disp = s.disp := rfl
@[simp] theorem State.tick_trims : (s.tick t).trims = s.trims := rfl
@[simp] theorem State.tick_scTrims : (s.tick t).scTrims = s.scTrims := rfl
@[simp] theorem State.tick_ain : (s.tick t).ain = s.ain := rfl
@[simp] theorem State.tick_t16 : (s.tick t).t16 = s.t16 := rfl
@[simp] theorem State.tick_fb : (s.tick t).fb = s.fb := rfl
@[simp] theorem State.tick_snap : (s.tick t).snap = s.snap := rfl
@[simp] theorem State.tick_snapPrev : (s.tick t).snapPrev = s.snapPrev := rfl
@[simp] theorem State.tick_din : (s.tick t).din = s.din := rfl
@[simp] theorem State.tick_dinSnap : (s.tick t).dinSnap = s.dinSnap := rfl
@[simp] theorem State.tick_dinPrev : (s.tick t).dinPrev = s.dinPrev := rfl
@[simp] theorem State.tick_emu : (s.tick t).emu = s.emu := rfl
@[simp] theorem State.tick_ch : (s.tick t).ch = s.ch := rfl
@[simp] theorem State.tick_cax : (s.tick t).cax = s.cax := rfl
@[simp] theorem State.tick_acq : (s.tick t).acq = s.acq := rfl
@[simp] theorem State.tick_ax : (s.tick t).ax = s.ax := rfl
@[simp] theorem State.tick_axe : (s.tick t).axe = s.axe := rfl
@[simp] theorem State.tick_axPrevRef : (s.tick t).axPrevRef = s.axPrevRef := rfl
@[simp] theorem State.tick_book : (s.tick t).book = s.book := rfl
@[simp] theorem State.tick_axAt : (s.tick t).axAt = s.axAt := rfl
@[simp] theorem State.tick_pg : (s.tick t).pg = s.pg := rfl
@[simp] theorem State.tick_pgBook : (s.tick t).pgBook = s.pgBook := rfl
@[simp] theorem State.tick_gc : (s.tick t).gc = s.gc := rfl
@[simp] theorem State.tick_cap : (s.tick t).cap = s.cap := rfl
@[simp] theorem State.tick_cmp : (s.tick t).cmp = s.cmp := rfl
@[simp] theorem State.tick_home : (s.tick t).home = s.home := rfl
@[simp] theorem State.tick_pre : (s.tick t).pre = s.pre := rfl
@[simp] theorem State.tick_replies : (s.tick t).replies = s.replies := rfl
@[simp] theorem State.tick_survey : (s.tick t).survey = s.survey := rfl
@[simp] theorem State.tick_cars : (s.tick t).cars = s.cars := rfl
@[simp] theorem State.tick_doors : (s.tick t).doors = s.doors := rfl
@[simp] theorem State.tick_dsp : (s.tick t).dsp = s.dsp := rfl
@[simp] theorem State.tick_safe : (s.tick t).safe = s.safe := rfl
@[simp] theorem State.tick_time : (s.tick t).time = s.time := rfl
@[simp] theorem State.tick_fab : (s.tick t).fab = s.fab := rfl
@[simp] theorem State.tick_cons : (s.tick t).cons = s.cons := rfl
@[simp] theorem State.tick_xd : (s.tick t).xd = s.xd := rfl
@[simp] theorem State.tick_twin : (s.tick t).twin = s.twin := rfl
@[simp] theorem State.tick_purse : (s.tick t).purse = s.purse := rfl
@[simp] theorem State.tick_led : (s.tick t).led = s.led := rfl
@[simp] theorem State.tick_mode : (s.tick t).mode = s.mode := rfl
@[simp] theorem State.tick_stw : (s.tick t).stw = s.stw := rfl
@[simp] theorem State.tick_wake : (s.tick t).wake = s.wake := rfl
@[simp] theorem State.tick_win : (s.tick t).win = s.win := rfl
@[simp] theorem State.tick_pins : (s.tick t).pins = s.pins := rfl
@[simp] theorem State.tick_pub : (s.tick t).pub = s.pub := rfl

end

/-! ### onTask -/

section
variable (s : State) (i : Nat) (f : TaskRun → TaskRun)

@[simp] theorem State.onTask_pending : (s.onTask i f).pending = s.pending := rfl
@[simp] theorem State.onTask_freeIx : (s.onTask i f).freeIx = s.freeIx := rfl
@[simp] theorem State.onTask_now : (s.onTask i f).now = s.now := rfl
@[simp] theorem State.onTask_cfg : (s.onTask i f).cfg = s.cfg := rfl
@[simp] theorem State.onTask_graph : (s.onTask i f).graph = s.graph := rfl
@[simp] theorem State.onTask_kernels : (s.onTask i f).kernels = s.kernels := rfl
@[simp] theorem State.onTask_links : (s.onTask i f).links = s.links := rfl
@[simp] theorem State.onTask_clk : (s.onTask i f).clk = s.clk := rfl
@[simp] theorem State.onTask_stage : (s.onTask i f).stage = s.stage := rfl
@[simp] theorem State.onTask_disp : (s.onTask i f).disp = { s.disp with tasks := s.disp.tasks.modify i f } := rfl
@[simp] theorem State.onTask_trims : (s.onTask i f).trims = s.trims := rfl
@[simp] theorem State.onTask_scTrims : (s.onTask i f).scTrims = s.scTrims := rfl
@[simp] theorem State.onTask_ain : (s.onTask i f).ain = s.ain := rfl
@[simp] theorem State.onTask_t16 : (s.onTask i f).t16 = s.t16 := rfl
@[simp] theorem State.onTask_fb : (s.onTask i f).fb = s.fb := rfl
@[simp] theorem State.onTask_snap : (s.onTask i f).snap = s.snap := rfl
@[simp] theorem State.onTask_snapPrev : (s.onTask i f).snapPrev = s.snapPrev := rfl
@[simp] theorem State.onTask_din : (s.onTask i f).din = s.din := rfl
@[simp] theorem State.onTask_dinSnap : (s.onTask i f).dinSnap = s.dinSnap := rfl
@[simp] theorem State.onTask_dinPrev : (s.onTask i f).dinPrev = s.dinPrev := rfl
@[simp] theorem State.onTask_emu : (s.onTask i f).emu = s.emu := rfl
@[simp] theorem State.onTask_ch : (s.onTask i f).ch = s.ch := rfl
@[simp] theorem State.onTask_cax : (s.onTask i f).cax = s.cax := rfl
@[simp] theorem State.onTask_acq : (s.onTask i f).acq = s.acq := rfl
@[simp] theorem State.onTask_ax : (s.onTask i f).ax = s.ax := rfl
@[simp] theorem State.onTask_axe : (s.onTask i f).axe = s.axe := rfl
@[simp] theorem State.onTask_axPrevRef : (s.onTask i f).axPrevRef = s.axPrevRef := rfl
@[simp] theorem State.onTask_book : (s.onTask i f).book = s.book := rfl
@[simp] theorem State.onTask_axAt : (s.onTask i f).axAt = s.axAt := rfl
@[simp] theorem State.onTask_pg : (s.onTask i f).pg = s.pg := rfl
@[simp] theorem State.onTask_pgBook : (s.onTask i f).pgBook = s.pgBook := rfl
@[simp] theorem State.onTask_gc : (s.onTask i f).gc = s.gc := rfl
@[simp] theorem State.onTask_cap : (s.onTask i f).cap = s.cap := rfl
@[simp] theorem State.onTask_cmp : (s.onTask i f).cmp = s.cmp := rfl
@[simp] theorem State.onTask_home : (s.onTask i f).home = s.home := rfl
@[simp] theorem State.onTask_pre : (s.onTask i f).pre = s.pre := rfl
@[simp] theorem State.onTask_replies : (s.onTask i f).replies = s.replies := rfl
@[simp] theorem State.onTask_survey : (s.onTask i f).survey = s.survey := rfl
@[simp] theorem State.onTask_cars : (s.onTask i f).cars = s.cars := rfl
@[simp] theorem State.onTask_doors : (s.onTask i f).doors = s.doors := rfl
@[simp] theorem State.onTask_dsp : (s.onTask i f).dsp = s.dsp := rfl
@[simp] theorem State.onTask_safe : (s.onTask i f).safe = s.safe := rfl
@[simp] theorem State.onTask_time : (s.onTask i f).time = s.time := rfl
@[simp] theorem State.onTask_fab : (s.onTask i f).fab = s.fab := rfl
@[simp] theorem State.onTask_cons : (s.onTask i f).cons = s.cons := rfl
@[simp] theorem State.onTask_xd : (s.onTask i f).xd = s.xd := rfl
@[simp] theorem State.onTask_twin : (s.onTask i f).twin = s.twin := rfl
@[simp] theorem State.onTask_purse : (s.onTask i f).purse = s.purse := rfl
@[simp] theorem State.onTask_led : (s.onTask i f).led = s.led := rfl
@[simp] theorem State.onTask_mode : (s.onTask i f).mode = s.mode := rfl
@[simp] theorem State.onTask_stw : (s.onTask i f).stw = s.stw := rfl
@[simp] theorem State.onTask_wake : (s.onTask i f).wake = s.wake := rfl
@[simp] theorem State.onTask_win : (s.onTask i f).win = s.win := rfl
@[simp] theorem State.onTask_pins : (s.onTask i f).pins = s.pins := rfl
@[simp] theorem State.onTask_pub : (s.onTask i f).pub = s.pub := rfl

end

/-! ### onFb -/

section
variable (s : State) (i : Nat) (f : Fb → Fb)

@[simp] theorem State.onFb_pending : (s.onFb i f).pending = s.pending := rfl
@[simp] theorem State.onFb_freeIx : (s.onFb i f).freeIx = s.freeIx := rfl
@[simp] theorem State.onFb_now : (s.onFb i f).now = s.now := rfl
@[simp] theorem State.onFb_cfg : (s.onFb i f).cfg = s.cfg := rfl
@[simp] theorem State.onFb_graph : (s.onFb i f).graph = s.graph := rfl
@[simp] theorem State.onFb_kernels : (s.onFb i f).kernels = s.kernels := rfl
@[simp] theorem State.onFb_links : (s.onFb i f).links = s.links := rfl
@[simp] theorem State.onFb_clk : (s.onFb i f).clk = s.clk := rfl
@[simp] theorem State.onFb_stage : (s.onFb i f).stage = s.stage := rfl
@[simp] theorem State.onFb_disp : (s.onFb i f).disp = s.disp := rfl
@[simp] theorem State.onFb_trims : (s.onFb i f).trims = s.trims := rfl
@[simp] theorem State.onFb_scTrims : (s.onFb i f).scTrims = s.scTrims := rfl
@[simp] theorem State.onFb_ain : (s.onFb i f).ain = s.ain := rfl
@[simp] theorem State.onFb_t16 : (s.onFb i f).t16 = s.t16 := rfl
@[simp] theorem State.onFb_fb : (s.onFb i f).fb = s.fb.modify i f := rfl
@[simp] theorem State.onFb_snap : (s.onFb i f).snap = s.snap := rfl
@[simp] theorem State.onFb_snapPrev : (s.onFb i f).snapPrev = s.snapPrev := rfl
@[simp] theorem State.onFb_din : (s.onFb i f).din = s.din := rfl
@[simp] theorem State.onFb_dinSnap : (s.onFb i f).dinSnap = s.dinSnap := rfl
@[simp] theorem State.onFb_dinPrev : (s.onFb i f).dinPrev = s.dinPrev := rfl
@[simp] theorem State.onFb_emu : (s.onFb i f).emu = s.emu := rfl
@[simp] theorem State.onFb_ch : (s.onFb i f).ch = s.ch := rfl
@[simp] theorem State.onFb_cax : (s.onFb i f).cax = s.cax := rfl
@[simp] theorem State.onFb_acq : (s.onFb i f).acq = s.acq := rfl
@[simp] theorem State.onFb_ax : (s.onFb i f).ax = s.ax := rfl
@[simp] theorem State.onFb_axe : (s.onFb i f).axe = s.axe := rfl
@[simp] theorem State.onFb_axPrevRef : (s.onFb i f).axPrevRef = s.axPrevRef := rfl
@[simp] theorem State.onFb_book : (s.onFb i f).book = s.book := rfl
@[simp] theorem State.onFb_axAt : (s.onFb i f).axAt = s.axAt := rfl
@[simp] theorem State.onFb_pg : (s.onFb i f).pg = s.pg := rfl
@[simp] theorem State.onFb_pgBook : (s.onFb i f).pgBook = s.pgBook := rfl
@[simp] theorem State.onFb_gc : (s.onFb i f).gc = s.gc := rfl
@[simp] theorem State.onFb_cap : (s.onFb i f).cap = s.cap := rfl
@[simp] theorem State.onFb_cmp : (s.onFb i f).cmp = s.cmp := rfl
@[simp] theorem State.onFb_home : (s.onFb i f).home = s.home := rfl
@[simp] theorem State.onFb_pre : (s.onFb i f).pre = s.pre := rfl
@[simp] theorem State.onFb_replies : (s.onFb i f).replies = s.replies := rfl
@[simp] theorem State.onFb_survey : (s.onFb i f).survey = s.survey := rfl
@[simp] theorem State.onFb_cars : (s.onFb i f).cars = s.cars := rfl
@[simp] theorem State.onFb_doors : (s.onFb i f).doors = s.doors := rfl
@[simp] theorem State.onFb_dsp : (s.onFb i f).dsp = s.dsp := rfl
@[simp] theorem State.onFb_safe : (s.onFb i f).safe = s.safe := rfl
@[simp] theorem State.onFb_time : (s.onFb i f).time = s.time := rfl
@[simp] theorem State.onFb_fab : (s.onFb i f).fab = s.fab := rfl
@[simp] theorem State.onFb_cons : (s.onFb i f).cons = s.cons := rfl
@[simp] theorem State.onFb_xd : (s.onFb i f).xd = s.xd := rfl
@[simp] theorem State.onFb_twin : (s.onFb i f).twin = s.twin := rfl
@[simp] theorem State.onFb_purse : (s.onFb i f).purse = s.purse := rfl
@[simp] theorem State.onFb_led : (s.onFb i f).led = s.led := rfl
@[simp] theorem State.onFb_mode : (s.onFb i f).mode = s.mode := rfl
@[simp] theorem State.onFb_stw : (s.onFb i f).stw = s.stw := rfl
@[simp] theorem State.onFb_wake : (s.onFb i f).wake = s.wake := rfl
@[simp] theorem State.onFb_win : (s.onFb i f).win = s.win := rfl
@[simp] theorem State.onFb_pins : (s.onFb i f).pins = s.pins := rfl
@[simp] theorem State.onFb_pub : (s.onFb i f).pub = s.pub := rfl

end

/-! ### onDin -/

section
variable (s : State) (i : Nat) (f : Din → Din)

@[simp] theorem State.onDin_pending : (s.onDin i f).pending = s.pending := rfl
@[simp] theorem State.onDin_freeIx : (s.onDin i f).freeIx = s.freeIx := rfl
@[simp] theorem State.onDin_now : (s.onDin i f).now = s.now := rfl
@[simp] theorem State.onDin_cfg : (s.onDin i f).cfg = s.cfg := rfl
@[simp] theorem State.onDin_graph : (s.onDin i f).graph = s.graph := rfl
@[simp] theorem State.onDin_kernels : (s.onDin i f).kernels = s.kernels := rfl
@[simp] theorem State.onDin_links : (s.onDin i f).links = s.links := rfl
@[simp] theorem State.onDin_clk : (s.onDin i f).clk = s.clk := rfl
@[simp] theorem State.onDin_stage : (s.onDin i f).stage = s.stage := rfl
@[simp] theorem State.onDin_disp : (s.onDin i f).disp = s.disp := rfl
@[simp] theorem State.onDin_trims : (s.onDin i f).trims = s.trims := rfl
@[simp] theorem State.onDin_scTrims : (s.onDin i f).scTrims = s.scTrims := rfl
@[simp] theorem State.onDin_ain : (s.onDin i f).ain = s.ain := rfl
@[simp] theorem State.onDin_t16 : (s.onDin i f).t16 = s.t16 := rfl
@[simp] theorem State.onDin_fb : (s.onDin i f).fb = s.fb := rfl
@[simp] theorem State.onDin_snap : (s.onDin i f).snap = s.snap := rfl
@[simp] theorem State.onDin_snapPrev : (s.onDin i f).snapPrev = s.snapPrev := rfl
@[simp] theorem State.onDin_din : (s.onDin i f).din = s.din.modify i f := rfl
@[simp] theorem State.onDin_dinSnap : (s.onDin i f).dinSnap = s.dinSnap := rfl
@[simp] theorem State.onDin_dinPrev : (s.onDin i f).dinPrev = s.dinPrev := rfl
@[simp] theorem State.onDin_emu : (s.onDin i f).emu = s.emu := rfl
@[simp] theorem State.onDin_ch : (s.onDin i f).ch = s.ch := rfl
@[simp] theorem State.onDin_cax : (s.onDin i f).cax = s.cax := rfl
@[simp] theorem State.onDin_acq : (s.onDin i f).acq = s.acq := rfl
@[simp] theorem State.onDin_ax : (s.onDin i f).ax = s.ax := rfl
@[simp] theorem State.onDin_axe : (s.onDin i f).axe = s.axe := rfl
@[simp] theorem State.onDin_axPrevRef : (s.onDin i f).axPrevRef = s.axPrevRef := rfl
@[simp] theorem State.onDin_book : (s.onDin i f).book = s.book := rfl
@[simp] theorem State.onDin_axAt : (s.onDin i f).axAt = s.axAt := rfl
@[simp] theorem State.onDin_pg : (s.onDin i f).pg = s.pg := rfl
@[simp] theorem State.onDin_pgBook : (s.onDin i f).pgBook = s.pgBook := rfl
@[simp] theorem State.onDin_gc : (s.onDin i f).gc = s.gc := rfl
@[simp] theorem State.onDin_cap : (s.onDin i f).cap = s.cap := rfl
@[simp] theorem State.onDin_cmp : (s.onDin i f).cmp = s.cmp := rfl
@[simp] theorem State.onDin_home : (s.onDin i f).home = s.home := rfl
@[simp] theorem State.onDin_pre : (s.onDin i f).pre = s.pre := rfl
@[simp] theorem State.onDin_replies : (s.onDin i f).replies = s.replies := rfl
@[simp] theorem State.onDin_survey : (s.onDin i f).survey = s.survey := rfl
@[simp] theorem State.onDin_cars : (s.onDin i f).cars = s.cars := rfl
@[simp] theorem State.onDin_doors : (s.onDin i f).doors = s.doors := rfl
@[simp] theorem State.onDin_dsp : (s.onDin i f).dsp = s.dsp := rfl
@[simp] theorem State.onDin_safe : (s.onDin i f).safe = s.safe := rfl
@[simp] theorem State.onDin_time : (s.onDin i f).time = s.time := rfl
@[simp] theorem State.onDin_fab : (s.onDin i f).fab = s.fab := rfl
@[simp] theorem State.onDin_cons : (s.onDin i f).cons = s.cons := rfl
@[simp] theorem State.onDin_xd : (s.onDin i f).xd = s.xd := rfl
@[simp] theorem State.onDin_twin : (s.onDin i f).twin = s.twin := rfl
@[simp] theorem State.onDin_purse : (s.onDin i f).purse = s.purse := rfl
@[simp] theorem State.onDin_led : (s.onDin i f).led = s.led := rfl
@[simp] theorem State.onDin_mode : (s.onDin i f).mode = s.mode := rfl
@[simp] theorem State.onDin_stw : (s.onDin i f).stw = s.stw := rfl
@[simp] theorem State.onDin_wake : (s.onDin i f).wake = s.wake := rfl
@[simp] theorem State.onDin_win : (s.onDin i f).win = s.win := rfl
@[simp] theorem State.onDin_pins : (s.onDin i f).pins = s.pins := rfl
@[simp] theorem State.onDin_pub : (s.onDin i f).pub = s.pub := rfl

end

/-! ### onCh -/

section
variable (s : State) (i : Nat) (f : Chan → Chan)

@[simp] theorem State.onCh_pending : (s.onCh i f).pending = s.pending := rfl
@[simp] theorem State.onCh_freeIx : (s.onCh i f).freeIx = s.freeIx := rfl
@[simp] theorem State.onCh_now : (s.onCh i f).now = s.now := rfl
@[simp] theorem State.onCh_cfg : (s.onCh i f).cfg = s.cfg := rfl
@[simp] theorem State.onCh_graph : (s.onCh i f).graph = s.graph := rfl
@[simp] theorem State.onCh_kernels : (s.onCh i f).kernels = s.kernels := rfl
@[simp] theorem State.onCh_links : (s.onCh i f).links = s.links := rfl
@[simp] theorem State.onCh_clk : (s.onCh i f).clk = s.clk := rfl
@[simp] theorem State.onCh_stage : (s.onCh i f).stage = s.stage := rfl
@[simp] theorem State.onCh_disp : (s.onCh i f).disp = s.disp := rfl
@[simp] theorem State.onCh_trims : (s.onCh i f).trims = s.trims := rfl
@[simp] theorem State.onCh_scTrims : (s.onCh i f).scTrims = s.scTrims := rfl
@[simp] theorem State.onCh_ain : (s.onCh i f).ain = s.ain := rfl
@[simp] theorem State.onCh_t16 : (s.onCh i f).t16 = s.t16 := rfl
@[simp] theorem State.onCh_fb : (s.onCh i f).fb = s.fb := rfl
@[simp] theorem State.onCh_snap : (s.onCh i f).snap = s.snap := rfl
@[simp] theorem State.onCh_snapPrev : (s.onCh i f).snapPrev = s.snapPrev := rfl
@[simp] theorem State.onCh_din : (s.onCh i f).din = s.din := rfl
@[simp] theorem State.onCh_dinSnap : (s.onCh i f).dinSnap = s.dinSnap := rfl
@[simp] theorem State.onCh_dinPrev : (s.onCh i f).dinPrev = s.dinPrev := rfl
@[simp] theorem State.onCh_emu : (s.onCh i f).emu = s.emu := rfl
@[simp] theorem State.onCh_ch : (s.onCh i f).ch = s.ch.modify i f := rfl
@[simp] theorem State.onCh_cax : (s.onCh i f).cax = s.cax := rfl
@[simp] theorem State.onCh_acq : (s.onCh i f).acq = s.acq := rfl
@[simp] theorem State.onCh_ax : (s.onCh i f).ax = s.ax := rfl
@[simp] theorem State.onCh_axe : (s.onCh i f).axe = s.axe := rfl
@[simp] theorem State.onCh_axPrevRef : (s.onCh i f).axPrevRef = s.axPrevRef := rfl
@[simp] theorem State.onCh_book : (s.onCh i f).book = s.book := rfl
@[simp] theorem State.onCh_axAt : (s.onCh i f).axAt = s.axAt := rfl
@[simp] theorem State.onCh_pg : (s.onCh i f).pg = s.pg := rfl
@[simp] theorem State.onCh_pgBook : (s.onCh i f).pgBook = s.pgBook := rfl
@[simp] theorem State.onCh_gc : (s.onCh i f).gc = s.gc := rfl
@[simp] theorem State.onCh_cap : (s.onCh i f).cap = s.cap := rfl
@[simp] theorem State.onCh_cmp : (s.onCh i f).cmp = s.cmp := rfl
@[simp] theorem State.onCh_home : (s.onCh i f).home = s.home := rfl
@[simp] theorem State.onCh_pre : (s.onCh i f).pre = s.pre := rfl
@[simp] theorem State.onCh_replies : (s.onCh i f).replies = s.replies := rfl
@[simp] theorem State.onCh_survey : (s.onCh i f).survey = s.survey := rfl
@[simp] theorem State.onCh_cars : (s.onCh i f).cars = s.cars := rfl
@[simp] theorem State.onCh_doors : (s.onCh i f).doors = s.doors := rfl
@[simp] theorem State.onCh_dsp : (s.onCh i f).dsp = s.dsp := rfl
@[simp] theorem State.onCh_safe : (s.onCh i f).safe = s.safe := rfl
@[simp] theorem State.onCh_time : (s.onCh i f).time = s.time := rfl
@[simp] theorem State.onCh_fab : (s.onCh i f).fab = s.fab := rfl
@[simp] theorem State.onCh_cons : (s.onCh i f).cons = s.cons := rfl
@[simp] theorem State.onCh_xd : (s.onCh i f).xd = s.xd := rfl
@[simp] theorem State.onCh_twin : (s.onCh i f).twin = s.twin := rfl
@[simp] theorem State.onCh_purse : (s.onCh i f).purse = s.purse := rfl
@[simp] theorem State.onCh_led : (s.onCh i f).led = s.led := rfl
@[simp] theorem State.onCh_mode : (s.onCh i f).mode = s.mode := rfl
@[simp] theorem State.onCh_stw : (s.onCh i f).stw = s.stw := rfl
@[simp] theorem State.onCh_wake : (s.onCh i f).wake = s.wake := rfl
@[simp] theorem State.onCh_win : (s.onCh i f).win = s.win := rfl
@[simp] theorem State.onCh_pins : (s.onCh i f).pins = s.pins := rfl
@[simp] theorem State.onCh_pub : (s.onCh i f).pub = s.pub := rfl

end

/-! ### onCax -/

section
variable (s : State) (i : Nat) (f : CurAx → CurAx)

@[simp] theorem State.onCax_pending : (s.onCax i f).pending = s.pending := rfl
@[simp] theorem State.onCax_freeIx : (s.onCax i f).freeIx = s.freeIx := rfl
@[simp] theorem State.onCax_now : (s.onCax i f).now = s.now := rfl
@[simp] theorem State.onCax_cfg : (s.onCax i f).cfg = s.cfg := rfl
@[simp] theorem State.onCax_graph : (s.onCax i f).graph = s.graph := rfl
@[simp] theorem State.onCax_kernels : (s.onCax i f).kernels = s.kernels := rfl
@[simp] theorem State.onCax_links : (s.onCax i f).links = s.links := rfl
@[simp] theorem State.onCax_clk : (s.onCax i f).clk = s.clk := rfl
@[simp] theorem State.onCax_stage : (s.onCax i f).stage = s.stage := rfl
@[simp] theorem State.onCax_disp : (s.onCax i f).disp = s.disp := rfl
@[simp] theorem State.onCax_trims : (s.onCax i f).trims = s.trims := rfl
@[simp] theorem State.onCax_scTrims : (s.onCax i f).scTrims = s.scTrims := rfl
@[simp] theorem State.onCax_ain : (s.onCax i f).ain = s.ain := rfl
@[simp] theorem State.onCax_t16 : (s.onCax i f).t16 = s.t16 := rfl
@[simp] theorem State.onCax_fb : (s.onCax i f).fb = s.fb := rfl
@[simp] theorem State.onCax_snap : (s.onCax i f).snap = s.snap := rfl
@[simp] theorem State.onCax_snapPrev : (s.onCax i f).snapPrev = s.snapPrev := rfl
@[simp] theorem State.onCax_din : (s.onCax i f).din = s.din := rfl
@[simp] theorem State.onCax_dinSnap : (s.onCax i f).dinSnap = s.dinSnap := rfl
@[simp] theorem State.onCax_dinPrev : (s.onCax i f).dinPrev = s.dinPrev := rfl
@[simp] theorem State.onCax_emu : (s.onCax i f).emu = s.emu := rfl
@[simp] theorem State.onCax_ch : (s.onCax i f).ch = s.ch := rfl
@[simp] theorem State.onCax_cax : (s.onCax i f).cax = s.cax.modify i f := rfl
@[simp] theorem State.onCax_acq : (s.onCax i f).acq = s.acq := rfl
@[simp] theorem State.onCax_ax : (s.onCax i f).ax = s.ax := rfl
@[simp] theorem State.onCax_axe : (s.onCax i f).axe = s.axe := rfl
@[simp] theorem State.onCax_axPrevRef : (s.onCax i f).axPrevRef = s.axPrevRef := rfl
@[simp] theorem State.onCax_book : (s.onCax i f).book = s.book := rfl
@[simp] theorem State.onCax_axAt : (s.onCax i f).axAt = s.axAt := rfl
@[simp] theorem State.onCax_pg : (s.onCax i f).pg = s.pg := rfl
@[simp] theorem State.onCax_pgBook : (s.onCax i f).pgBook = s.pgBook := rfl
@[simp] theorem State.onCax_gc : (s.onCax i f).gc = s.gc := rfl
@[simp] theorem State.onCax_cap : (s.onCax i f).cap = s.cap := rfl
@[simp] theorem State.onCax_cmp : (s.onCax i f).cmp = s.cmp := rfl
@[simp] theorem State.onCax_home : (s.onCax i f).home = s.home := rfl
@[simp] theorem State.onCax_pre : (s.onCax i f).pre = s.pre := rfl
@[simp] theorem State.onCax_replies : (s.onCax i f).replies = s.replies := rfl
@[simp] theorem State.onCax_survey : (s.onCax i f).survey = s.survey := rfl
@[simp] theorem State.onCax_cars : (s.onCax i f).cars = s.cars := rfl
@[simp] theorem State.onCax_doors : (s.onCax i f).doors = s.doors := rfl
@[simp] theorem State.onCax_dsp : (s.onCax i f).dsp = s.dsp := rfl
@[simp] theorem State.onCax_safe : (s.onCax i f).safe = s.safe := rfl
@[simp] theorem State.onCax_time : (s.onCax i f).time = s.time := rfl
@[simp] theorem State.onCax_fab : (s.onCax i f).fab = s.fab := rfl
@[simp] theorem State.onCax_cons : (s.onCax i f).cons = s.cons := rfl
@[simp] theorem State.onCax_xd : (s.onCax i f).xd = s.xd := rfl
@[simp] theorem State.onCax_twin : (s.onCax i f).twin = s.twin := rfl
@[simp] theorem State.onCax_purse : (s.onCax i f).purse = s.purse := rfl
@[simp] theorem State.onCax_led : (s.onCax i f).led = s.led := rfl
@[simp] theorem State.onCax_mode : (s.onCax i f).mode = s.mode := rfl
@[simp] theorem State.onCax_stw : (s.onCax i f).stw = s.stw := rfl
@[simp] theorem State.onCax_wake : (s.onCax i f).wake = s.wake := rfl
@[simp] theorem State.onCax_win : (s.onCax i f).win = s.win := rfl
@[simp] theorem State.onCax_pins : (s.onCax i f).pins = s.pins := rfl
@[simp] theorem State.onCax_pub : (s.onCax i f).pub = s.pub := rfl

end

/-! ### onAx -/

section
variable (s : State) (i : Nat) (f : Axis → Axis)

@[simp] theorem State.onAx_pending : (s.onAx i f).pending = s.pending := rfl
@[simp] theorem State.onAx_freeIx : (s.onAx i f).freeIx = s.freeIx := rfl
@[simp] theorem State.onAx_now : (s.onAx i f).now = s.now := rfl
@[simp] theorem State.onAx_cfg : (s.onAx i f).cfg = s.cfg := rfl
@[simp] theorem State.onAx_graph : (s.onAx i f).graph = s.graph := rfl
@[simp] theorem State.onAx_kernels : (s.onAx i f).kernels = s.kernels := rfl
@[simp] theorem State.onAx_links : (s.onAx i f).links = s.links := rfl
@[simp] theorem State.onAx_clk : (s.onAx i f).clk = s.clk := rfl
@[simp] theorem State.onAx_stage : (s.onAx i f).stage = s.stage := rfl
@[simp] theorem State.onAx_disp : (s.onAx i f).disp = s.disp := rfl
@[simp] theorem State.onAx_trims : (s.onAx i f).trims = s.trims := rfl
@[simp] theorem State.onAx_scTrims : (s.onAx i f).scTrims = s.scTrims := rfl
@[simp] theorem State.onAx_ain : (s.onAx i f).ain = s.ain := rfl
@[simp] theorem State.onAx_t16 : (s.onAx i f).t16 = s.t16 := rfl
@[simp] theorem State.onAx_fb : (s.onAx i f).fb = s.fb := rfl
@[simp] theorem State.onAx_snap : (s.onAx i f).snap = s.snap := rfl
@[simp] theorem State.onAx_snapPrev : (s.onAx i f).snapPrev = s.snapPrev := rfl
@[simp] theorem State.onAx_din : (s.onAx i f).din = s.din := rfl
@[simp] theorem State.onAx_dinSnap : (s.onAx i f).dinSnap = s.dinSnap := rfl
@[simp] theorem State.onAx_dinPrev : (s.onAx i f).dinPrev = s.dinPrev := rfl
@[simp] theorem State.onAx_emu : (s.onAx i f).emu = s.emu := rfl
@[simp] theorem State.onAx_ch : (s.onAx i f).ch = s.ch := rfl
@[simp] theorem State.onAx_cax : (s.onAx i f).cax = s.cax := rfl
@[simp] theorem State.onAx_acq : (s.onAx i f).acq = s.acq := rfl
@[simp] theorem State.onAx_ax : (s.onAx i f).ax = s.ax.modify i f := rfl
@[simp] theorem State.onAx_axe : (s.onAx i f).axe = s.axe := rfl
@[simp] theorem State.onAx_axPrevRef : (s.onAx i f).axPrevRef = s.axPrevRef := rfl
@[simp] theorem State.onAx_book : (s.onAx i f).book = s.book := rfl
@[simp] theorem State.onAx_axAt : (s.onAx i f).axAt = s.axAt := rfl
@[simp] theorem State.onAx_pg : (s.onAx i f).pg = s.pg := rfl
@[simp] theorem State.onAx_pgBook : (s.onAx i f).pgBook = s.pgBook := rfl
@[simp] theorem State.onAx_gc : (s.onAx i f).gc = s.gc := rfl
@[simp] theorem State.onAx_cap : (s.onAx i f).cap = s.cap := rfl
@[simp] theorem State.onAx_cmp : (s.onAx i f).cmp = s.cmp := rfl
@[simp] theorem State.onAx_home : (s.onAx i f).home = s.home := rfl
@[simp] theorem State.onAx_pre : (s.onAx i f).pre = s.pre := rfl
@[simp] theorem State.onAx_replies : (s.onAx i f).replies = s.replies := rfl
@[simp] theorem State.onAx_survey : (s.onAx i f).survey = s.survey := rfl
@[simp] theorem State.onAx_cars : (s.onAx i f).cars = s.cars := rfl
@[simp] theorem State.onAx_doors : (s.onAx i f).doors = s.doors := rfl
@[simp] theorem State.onAx_dsp : (s.onAx i f).dsp = s.dsp := rfl
@[simp] theorem State.onAx_safe : (s.onAx i f).safe = s.safe := rfl
@[simp] theorem State.onAx_time : (s.onAx i f).time = s.time := rfl
@[simp] theorem State.onAx_fab : (s.onAx i f).fab = s.fab := rfl
@[simp] theorem State.onAx_cons : (s.onAx i f).cons = s.cons := rfl
@[simp] theorem State.onAx_xd : (s.onAx i f).xd = s.xd := rfl
@[simp] theorem State.onAx_twin : (s.onAx i f).twin = s.twin := rfl
@[simp] theorem State.onAx_purse : (s.onAx i f).purse = s.purse := rfl
@[simp] theorem State.onAx_led : (s.onAx i f).led = s.led := rfl
@[simp] theorem State.onAx_mode : (s.onAx i f).mode = s.mode := rfl
@[simp] theorem State.onAx_stw : (s.onAx i f).stw = s.stw := rfl
@[simp] theorem State.onAx_wake : (s.onAx i f).wake = s.wake := rfl
@[simp] theorem State.onAx_win : (s.onAx i f).win = s.win := rfl
@[simp] theorem State.onAx_pins : (s.onAx i f).pins = s.pins := rfl
@[simp] theorem State.onAx_pub : (s.onAx i f).pub = s.pub := rfl

end

/-! ### onAxKept -/

section
variable (s : State) (i : Nat) (f : Axis → Axis)

@[simp] theorem State.onAxKept_pending : (s.onAxKept i f).pending = s.pending := rfl
@[simp] theorem State.onAxKept_freeIx : (s.onAxKept i f).freeIx = s.freeIx := rfl
@[simp] theorem State.onAxKept_now : (s.onAxKept i f).now = s.now := rfl
@[simp] theorem State.onAxKept_cfg : (s.onAxKept i f).cfg = s.cfg := rfl
@[simp] theorem State.onAxKept_graph : (s.onAxKept i f).graph = s.graph := rfl
@[simp] theorem State.onAxKept_kernels : (s.onAxKept i f).kernels = s.kernels := rfl
@[simp] theorem State.onAxKept_links : (s.onAxKept i f).links = s.links := rfl
@[simp] theorem State.onAxKept_clk : (s.onAxKept i f).clk = s.clk := rfl
@[simp] theorem State.onAxKept_stage : (s.onAxKept i f).stage = s.stage := rfl
@[simp] theorem State.onAxKept_disp : (s.onAxKept i f).disp = s.disp := rfl
@[simp] theorem State.onAxKept_trims : (s.onAxKept i f).trims = s.trims := rfl
@[simp] theorem State.onAxKept_scTrims : (s.onAxKept i f).scTrims = s.scTrims := rfl
@[simp] theorem State.onAxKept_ain : (s.onAxKept i f).ain = s.ain := rfl
@[simp] theorem State.onAxKept_t16 : (s.onAxKept i f).t16 = s.t16 := rfl
@[simp] theorem State.onAxKept_fb : (s.onAxKept i f).fb = s.fb := rfl
@[simp] theorem State.onAxKept_snap : (s.onAxKept i f).snap = s.snap := rfl
@[simp] theorem State.onAxKept_snapPrev : (s.onAxKept i f).snapPrev = s.snapPrev := rfl
@[simp] theorem State.onAxKept_din : (s.onAxKept i f).din = s.din := rfl
@[simp] theorem State.onAxKept_dinSnap : (s.onAxKept i f).dinSnap = s.dinSnap := rfl
@[simp] theorem State.onAxKept_dinPrev : (s.onAxKept i f).dinPrev = s.dinPrev := rfl
@[simp] theorem State.onAxKept_emu : (s.onAxKept i f).emu = s.emu := rfl
@[simp] theorem State.onAxKept_ch : (s.onAxKept i f).ch = s.ch := rfl
@[simp] theorem State.onAxKept_cax : (s.onAxKept i f).cax = s.cax := rfl
@[simp] theorem State.onAxKept_acq : (s.onAxKept i f).acq = s.acq := rfl
@[simp] theorem State.onAxKept_ax : (s.onAxKept i f).ax = s.ax.modify i f := rfl
@[simp] theorem State.onAxKept_axe : (s.onAxKept i f).axe = s.axe := rfl
@[simp] theorem State.onAxKept_axPrevRef : (s.onAxKept i f).axPrevRef = s.axPrevRef := rfl
@[simp] theorem State.onAxKept_book : (s.onAxKept i f).book = s.book := rfl
@[simp] theorem State.onAxKept_axAt : (s.onAxKept i f).axAt = s.axAt := rfl
@[simp] theorem State.onAxKept_pg : (s.onAxKept i f).pg = s.pg := rfl
@[simp] theorem State.onAxKept_pgBook : (s.onAxKept i f).pgBook = s.pgBook := rfl
@[simp] theorem State.onAxKept_gc : (s.onAxKept i f).gc = s.gc := rfl
@[simp] theorem State.onAxKept_cap : (s.onAxKept i f).cap = s.cap := rfl
@[simp] theorem State.onAxKept_cmp : (s.onAxKept i f).cmp = s.cmp := rfl
@[simp] theorem State.onAxKept_home : (s.onAxKept i f).home = s.home := rfl
@[simp] theorem State.onAxKept_pre : (s.onAxKept i f).pre = { s.pre with ax := s.pre.ax.modify i f } := rfl
@[simp] theorem State.onAxKept_replies : (s.onAxKept i f).replies = s.replies := rfl
@[simp] theorem State.onAxKept_survey : (s.onAxKept i f).survey = s.survey := rfl
@[simp] theorem State.onAxKept_cars : (s.onAxKept i f).cars = s.cars := rfl
@[simp] theorem State.onAxKept_doors : (s.onAxKept i f).doors = s.doors := rfl
@[simp] theorem State.onAxKept_dsp : (s.onAxKept i f).dsp = s.dsp := rfl
@[simp] theorem State.onAxKept_safe : (s.onAxKept i f).safe = s.safe := rfl
@[simp] theorem State.onAxKept_time : (s.onAxKept i f).time = s.time := rfl
@[simp] theorem State.onAxKept_fab : (s.onAxKept i f).fab = s.fab := rfl
@[simp] theorem State.onAxKept_cons : (s.onAxKept i f).cons = s.cons := rfl
@[simp] theorem State.onAxKept_xd : (s.onAxKept i f).xd = s.xd := rfl
@[simp] theorem State.onAxKept_twin : (s.onAxKept i f).twin = s.twin := rfl
@[simp] theorem State.onAxKept_purse : (s.onAxKept i f).purse = s.purse := rfl
@[simp] theorem State.onAxKept_led : (s.onAxKept i f).led = s.led := rfl
@[simp] theorem State.onAxKept_mode : (s.onAxKept i f).mode = s.mode := rfl
@[simp] theorem State.onAxKept_stw : (s.onAxKept i f).stw = s.stw := rfl
@[simp] theorem State.onAxKept_wake : (s.onAxKept i f).wake = s.wake := rfl
@[simp] theorem State.onAxKept_win : (s.onAxKept i f).win = s.win := rfl
@[simp] theorem State.onAxKept_pins : (s.onAxKept i f).pins = s.pins := rfl
@[simp] theorem State.onAxKept_pub : (s.onAxKept i f).pub = s.pub := rfl

end

/-! ### onBook -/

section
variable (s : State) (i : Nat) (f : AxisBook → AxisBook)

@[simp] theorem State.onBook_pending : (s.onBook i f).pending = s.pending := rfl
@[simp] theorem State.onBook_freeIx : (s.onBook i f).freeIx = s.freeIx := rfl
@[simp] theorem State.onBook_now : (s.onBook i f).now = s.now := rfl
@[simp] theorem State.onBook_cfg : (s.onBook i f).cfg = s.cfg := rfl
@[simp] theorem State.onBook_graph : (s.onBook i f).graph = s.graph := rfl
@[simp] theorem State.onBook_kernels : (s.onBook i f).kernels = s.kernels := rfl
@[simp] theorem State.onBook_links : (s.onBook i f).links = s.links := rfl
@[simp] theorem State.onBook_clk : (s.onBook i f).clk = s.clk := rfl
@[simp] theorem State.onBook_stage : (s.onBook i f).stage = s.stage := rfl
@[simp] theorem State.onBook_disp : (s.onBook i f).disp = s.disp := rfl
@[simp] theorem State.onBook_trims : (s.onBook i f).trims = s.trims := rfl
@[simp] theorem State.onBook_scTrims : (s.onBook i f).scTrims = s.scTrims := rfl
@[simp] theorem State.onBook_ain : (s.onBook i f).ain = s.ain := rfl
@[simp] theorem State.onBook_t16 : (s.onBook i f).t16 = s.t16 := rfl
@[simp] theorem State.onBook_fb : (s.onBook i f).fb = s.fb := rfl
@[simp] theorem State.onBook_snap : (s.onBook i f).snap = s.snap := rfl
@[simp] theorem State.onBook_snapPrev : (s.onBook i f).snapPrev = s.snapPrev := rfl
@[simp] theorem State.onBook_din : (s.onBook i f).din = s.din := rfl
@[simp] theorem State.onBook_dinSnap : (s.onBook i f).dinSnap = s.dinSnap := rfl
@[simp] theorem State.onBook_dinPrev : (s.onBook i f).dinPrev = s.dinPrev := rfl
@[simp] theorem State.onBook_emu : (s.onBook i f).emu = s.emu := rfl
@[simp] theorem State.onBook_ch : (s.onBook i f).ch = s.ch := rfl
@[simp] theorem State.onBook_cax : (s.onBook i f).cax = s.cax := rfl
@[simp] theorem State.onBook_acq : (s.onBook i f).acq = s.acq := rfl
@[simp] theorem State.onBook_ax : (s.onBook i f).ax = s.ax := rfl
@[simp] theorem State.onBook_axe : (s.onBook i f).axe = s.axe := rfl
@[simp] theorem State.onBook_axPrevRef : (s.onBook i f).axPrevRef = s.axPrevRef := rfl
@[simp] theorem State.onBook_book : (s.onBook i f).book = s.book.modify i f := rfl
@[simp] theorem State.onBook_axAt : (s.onBook i f).axAt = s.axAt := rfl
@[simp] theorem State.onBook_pg : (s.onBook i f).pg = s.pg := rfl
@[simp] theorem State.onBook_pgBook : (s.onBook i f).pgBook = s.pgBook := rfl
@[simp] theorem State.onBook_gc : (s.onBook i f).gc = s.gc := rfl
@[simp] theorem State.onBook_cap : (s.onBook i f).cap = s.cap := rfl
@[simp] theorem State.onBook_cmp : (s.onBook i f).cmp = s.cmp := rfl
@[simp] theorem State.onBook_home : (s.onBook i f).home = s.home := rfl
@[simp] theorem State.onBook_pre : (s.onBook i f).pre = s.pre := rfl
@[simp] theorem State.onBook_replies : (s.onBook i f).replies = s.replies := rfl
@[simp] theorem State.onBook_survey : (s.onBook i f).survey = s.survey := rfl
@[simp] theorem State.onBook_cars : (s.onBook i f).cars = s.cars := rfl
@[simp] theorem State.onBook_doors : (s.onBook i f).doors = s.doors := rfl
@[simp] theorem State.onBook_dsp : (s.onBook i f).dsp = s.dsp := rfl
@[simp] theorem State.onBook_safe : (s.onBook i f).safe = s.safe := rfl
@[simp] theorem State.onBook_time : (s.onBook i f).time = s.time := rfl
@[simp] theorem State.onBook_fab : (s.onBook i f).fab = s.fab := rfl
@[simp] theorem State.onBook_cons : (s.onBook i f).cons = s.cons := rfl
@[simp] theorem State.onBook_xd : (s.onBook i f).xd = s.xd := rfl
@[simp] theorem State.onBook_twin : (s.onBook i f).twin = s.twin := rfl
@[simp] theorem State.onBook_purse : (s.onBook i f).purse = s.purse := rfl
@[simp] theorem State.onBook_led : (s.onBook i f).led = s.led := rfl
@[simp] theorem State.onBook_mode : (s.onBook i f).mode = s.mode := rfl
@[simp] theorem State.onBook_stw : (s.onBook i f).stw = s.stw := rfl
@[simp] theorem State.onBook_wake : (s.onBook i f).wake = s.wake := rfl
@[simp] theorem State.onBook_win : (s.onBook i f).win = s.win := rfl
@[simp] theorem State.onBook_pins : (s.onBook i f).pins = s.pins := rfl
@[simp] theorem State.onBook_pub : (s.onBook i f).pub = s.pub := rfl

end

/-! ### onPg -/

section
variable (s : State) (i : Nat) (f : Pg → Pg)

@[simp] theorem State.onPg_pending : (s.onPg i f).pending = s.pending := rfl
@[simp] theorem State.onPg_freeIx : (s.onPg i f).freeIx = s.freeIx := rfl
@[simp] theorem State.onPg_now : (s.onPg i f).now = s.now := rfl
@[simp] theorem State.onPg_cfg : (s.onPg i f).cfg = s.cfg := rfl
@[simp] theorem State.onPg_graph : (s.onPg i f).graph = s.graph := rfl
@[simp] theorem State.onPg_kernels : (s.onPg i f).kernels = s.kernels := rfl
@[simp] theorem State.onPg_links : (s.onPg i f).links = s.links := rfl
@[simp] theorem State.onPg_clk : (s.onPg i f).clk = s.clk := rfl
@[simp] theorem State.onPg_stage : (s.onPg i f).stage = s.stage := rfl
@[simp] theorem State.onPg_disp : (s.onPg i f).disp = s.disp := rfl
@[simp] theorem State.onPg_trims : (s.onPg i f).trims = s.trims := rfl
@[simp] theorem State.onPg_scTrims : (s.onPg i f).scTrims = s.scTrims := rfl
@[simp] theorem State.onPg_ain : (s.onPg i f).ain = s.ain := rfl
@[simp] theorem State.onPg_t16 : (s.onPg i f).t16 = s.t16 := rfl
@[simp] theorem State.onPg_fb : (s.onPg i f).fb = s.fb := rfl
@[simp] theorem State.onPg_snap : (s.onPg i f).snap = s.snap := rfl
@[simp] theorem State.onPg_snapPrev : (s.onPg i f).snapPrev = s.snapPrev := rfl
@[simp] theorem State.onPg_din : (s.onPg i f).din = s.din := rfl
@[simp] theorem State.onPg_dinSnap : (s.onPg i f).dinSnap = s.dinSnap := rfl
@[simp] theorem State.onPg_dinPrev : (s.onPg i f).dinPrev = s.dinPrev := rfl
@[simp] theorem State.onPg_emu : (s.onPg i f).emu = s.emu := rfl
@[simp] theorem State.onPg_ch : (s.onPg i f).ch = s.ch := rfl
@[simp] theorem State.onPg_cax : (s.onPg i f).cax = s.cax := rfl
@[simp] theorem State.onPg_acq : (s.onPg i f).acq = s.acq := rfl
@[simp] theorem State.onPg_ax : (s.onPg i f).ax = s.ax := rfl
@[simp] theorem State.onPg_axe : (s.onPg i f).axe = s.axe := rfl
@[simp] theorem State.onPg_axPrevRef : (s.onPg i f).axPrevRef = s.axPrevRef := rfl
@[simp] theorem State.onPg_book : (s.onPg i f).book = s.book := rfl
@[simp] theorem State.onPg_axAt : (s.onPg i f).axAt = s.axAt := rfl
@[simp] theorem State.onPg_pg : (s.onPg i f).pg = s.pg.modify i f := rfl
@[simp] theorem State.onPg_pgBook : (s.onPg i f).pgBook = s.pgBook := rfl
@[simp] theorem State.onPg_gc : (s.onPg i f).gc = s.gc := rfl
@[simp] theorem State.onPg_cap : (s.onPg i f).cap = s.cap := rfl
@[simp] theorem State.onPg_cmp : (s.onPg i f).cmp = s.cmp := rfl
@[simp] theorem State.onPg_home : (s.onPg i f).home = s.home := rfl
@[simp] theorem State.onPg_pre : (s.onPg i f).pre = s.pre := rfl
@[simp] theorem State.onPg_replies : (s.onPg i f).replies = s.replies := rfl
@[simp] theorem State.onPg_survey : (s.onPg i f).survey = s.survey := rfl
@[simp] theorem State.onPg_cars : (s.onPg i f).cars = s.cars := rfl
@[simp] theorem State.onPg_doors : (s.onPg i f).doors = s.doors := rfl
@[simp] theorem State.onPg_dsp : (s.onPg i f).dsp = s.dsp := rfl
@[simp] theorem State.onPg_safe : (s.onPg i f).safe = s.safe := rfl
@[simp] theorem State.onPg_time : (s.onPg i f).time = s.time := rfl
@[simp] theorem State.onPg_fab : (s.onPg i f).fab = s.fab := rfl
@[simp] theorem State.onPg_cons : (s.onPg i f).cons = s.cons := rfl
@[simp] theorem State.onPg_xd : (s.onPg i f).xd = s.xd := rfl
@[simp] theorem State.onPg_twin : (s.onPg i f).twin = s.twin := rfl
@[simp] theorem State.onPg_purse : (s.onPg i f).purse = s.purse := rfl
@[simp] theorem State.onPg_led : (s.onPg i f).led = s.led := rfl
@[simp] theorem State.onPg_mode : (s.onPg i f).mode = s.mode := rfl
@[simp] theorem State.onPg_stw : (s.onPg i f).stw = s.stw := rfl
@[simp] theorem State.onPg_wake : (s.onPg i f).wake = s.wake := rfl
@[simp] theorem State.onPg_win : (s.onPg i f).win = s.win := rfl
@[simp] theorem State.onPg_pins : (s.onPg i f).pins = s.pins := rfl
@[simp] theorem State.onPg_pub : (s.onPg i f).pub = s.pub := rfl

end

/-! ### onGc -/

section
variable (s : State) (i : Nat) (f : Gc → Gc)

@[simp] theorem State.onGc_pending : (s.onGc i f).pending = s.pending := rfl
@[simp] theorem State.onGc_freeIx : (s.onGc i f).freeIx = s.freeIx := rfl
@[simp] theorem State.onGc_now : (s.onGc i f).now = s.now := rfl
@[simp] theorem State.onGc_cfg : (s.onGc i f).cfg = s.cfg := rfl
@[simp] theorem State.onGc_graph : (s.onGc i f).graph = s.graph := rfl
@[simp] theorem State.onGc_kernels : (s.onGc i f).kernels = s.kernels := rfl
@[simp] theorem State.onGc_links : (s.onGc i f).links = s.links := rfl
@[simp] theorem State.onGc_clk : (s.onGc i f).clk = s.clk := rfl
@[simp] theorem State.onGc_stage : (s.onGc i f).stage = s.stage := rfl
@[simp] theorem State.onGc_disp : (s.onGc i f).disp = s.disp := rfl
@[simp] theorem State.onGc_trims : (s.onGc i f).trims = s.trims := rfl
@[simp] theorem State.onGc_scTrims : (s.onGc i f).scTrims = s.scTrims := rfl
@[simp] theorem State.onGc_ain : (s.onGc i f).ain = s.ain := rfl
@[simp] theorem State.onGc_t16 : (s.onGc i f).t16 = s.t16 := rfl
@[simp] theorem State.onGc_fb : (s.onGc i f).fb = s.fb := rfl
@[simp] theorem State.onGc_snap : (s.onGc i f).snap = s.snap := rfl
@[simp] theorem State.onGc_snapPrev : (s.onGc i f).snapPrev = s.snapPrev := rfl
@[simp] theorem State.onGc_din : (s.onGc i f).din = s.din := rfl
@[simp] theorem State.onGc_dinSnap : (s.onGc i f).dinSnap = s.dinSnap := rfl
@[simp] theorem State.onGc_dinPrev : (s.onGc i f).dinPrev = s.dinPrev := rfl
@[simp] theorem State.onGc_emu : (s.onGc i f).emu = s.emu := rfl
@[simp] theorem State.onGc_ch : (s.onGc i f).ch = s.ch := rfl
@[simp] theorem State.onGc_cax : (s.onGc i f).cax = s.cax := rfl
@[simp] theorem State.onGc_acq : (s.onGc i f).acq = s.acq := rfl
@[simp] theorem State.onGc_ax : (s.onGc i f).ax = s.ax := rfl
@[simp] theorem State.onGc_axe : (s.onGc i f).axe = s.axe := rfl
@[simp] theorem State.onGc_axPrevRef : (s.onGc i f).axPrevRef = s.axPrevRef := rfl
@[simp] theorem State.onGc_book : (s.onGc i f).book = s.book := rfl
@[simp] theorem State.onGc_axAt : (s.onGc i f).axAt = s.axAt := rfl
@[simp] theorem State.onGc_pg : (s.onGc i f).pg = s.pg := rfl
@[simp] theorem State.onGc_pgBook : (s.onGc i f).pgBook = s.pgBook := rfl
@[simp] theorem State.onGc_gc : (s.onGc i f).gc = s.gc.modify i f := rfl
@[simp] theorem State.onGc_cap : (s.onGc i f).cap = s.cap := rfl
@[simp] theorem State.onGc_cmp : (s.onGc i f).cmp = s.cmp := rfl
@[simp] theorem State.onGc_home : (s.onGc i f).home = s.home := rfl
@[simp] theorem State.onGc_pre : (s.onGc i f).pre = s.pre := rfl
@[simp] theorem State.onGc_replies : (s.onGc i f).replies = s.replies := rfl
@[simp] theorem State.onGc_survey : (s.onGc i f).survey = s.survey := rfl
@[simp] theorem State.onGc_cars : (s.onGc i f).cars = s.cars := rfl
@[simp] theorem State.onGc_doors : (s.onGc i f).doors = s.doors := rfl
@[simp] theorem State.onGc_dsp : (s.onGc i f).dsp = s.dsp := rfl
@[simp] theorem State.onGc_safe : (s.onGc i f).safe = s.safe := rfl
@[simp] theorem State.onGc_time : (s.onGc i f).time = s.time := rfl
@[simp] theorem State.onGc_fab : (s.onGc i f).fab = s.fab := rfl
@[simp] theorem State.onGc_cons : (s.onGc i f).cons = s.cons := rfl
@[simp] theorem State.onGc_xd : (s.onGc i f).xd = s.xd := rfl
@[simp] theorem State.onGc_twin : (s.onGc i f).twin = s.twin := rfl
@[simp] theorem State.onGc_purse : (s.onGc i f).purse = s.purse := rfl
@[simp] theorem State.onGc_led : (s.onGc i f).led = s.led := rfl
@[simp] theorem State.onGc_mode : (s.onGc i f).mode = s.mode := rfl
@[simp] theorem State.onGc_stw : (s.onGc i f).stw = s.stw := rfl
@[simp] theorem State.onGc_wake : (s.onGc i f).wake = s.wake := rfl
@[simp] theorem State.onGc_win : (s.onGc i f).win = s.win := rfl
@[simp] theorem State.onGc_pins : (s.onGc i f).pins = s.pins := rfl
@[simp] theorem State.onGc_pub : (s.onGc i f).pub = s.pub := rfl

end

/-! ### onHome -/

section
variable (s : State) (i : Nat) (f : Home → Home)

@[simp] theorem State.onHome_pending : (s.onHome i f).pending = s.pending := rfl
@[simp] theorem State.onHome_freeIx : (s.onHome i f).freeIx = s.freeIx := rfl
@[simp] theorem State.onHome_now : (s.onHome i f).now = s.now := rfl
@[simp] theorem State.onHome_cfg : (s.onHome i f).cfg = s.cfg := rfl
@[simp] theorem State.onHome_graph : (s.onHome i f).graph = s.graph := rfl
@[simp] theorem State.onHome_kernels : (s.onHome i f).kernels = s.kernels := rfl
@[simp] theorem State.onHome_links : (s.onHome i f).links = s.links := rfl
@[simp] theorem State.onHome_clk : (s.onHome i f).clk = s.clk := rfl
@[simp] theorem State.onHome_stage : (s.onHome i f).stage = s.stage := rfl
@[simp] theorem State.onHome_disp : (s.onHome i f).disp = s.disp := rfl
@[simp] theorem State.onHome_trims : (s.onHome i f).trims = s.trims := rfl
@[simp] theorem State.onHome_scTrims : (s.onHome i f).scTrims = s.scTrims := rfl
@[simp] theorem State.onHome_ain : (s.onHome i f).ain = s.ain := rfl
@[simp] theorem State.onHome_t16 : (s.onHome i f).t16 = s.t16 := rfl
@[simp] theorem State.onHome_fb : (s.onHome i f).fb = s.fb := rfl
@[simp] theorem State.onHome_snap : (s.onHome i f).snap = s.snap := rfl
@[simp] theorem State.onHome_snapPrev : (s.onHome i f).snapPrev = s.snapPrev := rfl
@[simp] theorem State.onHome_din : (s.onHome i f).din = s.din := rfl
@[simp] theorem State.onHome_dinSnap : (s.onHome i f).dinSnap = s.dinSnap := rfl
@[simp] theorem State.onHome_dinPrev : (s.onHome i f).dinPrev = s.dinPrev := rfl
@[simp] theorem State.onHome_emu : (s.onHome i f).emu = s.emu := rfl
@[simp] theorem State.onHome_ch : (s.onHome i f).ch = s.ch := rfl
@[simp] theorem State.onHome_cax : (s.onHome i f).cax = s.cax := rfl
@[simp] theorem State.onHome_acq : (s.onHome i f).acq = s.acq := rfl
@[simp] theorem State.onHome_ax : (s.onHome i f).ax = s.ax := rfl
@[simp] theorem State.onHome_axe : (s.onHome i f).axe = s.axe := rfl
@[simp] theorem State.onHome_axPrevRef : (s.onHome i f).axPrevRef = s.axPrevRef := rfl
@[simp] theorem State.onHome_book : (s.onHome i f).book = s.book := rfl
@[simp] theorem State.onHome_axAt : (s.onHome i f).axAt = s.axAt := rfl
@[simp] theorem State.onHome_pg : (s.onHome i f).pg = s.pg := rfl
@[simp] theorem State.onHome_pgBook : (s.onHome i f).pgBook = s.pgBook := rfl
@[simp] theorem State.onHome_gc : (s.onHome i f).gc = s.gc := rfl
@[simp] theorem State.onHome_cap : (s.onHome i f).cap = s.cap := rfl
@[simp] theorem State.onHome_cmp : (s.onHome i f).cmp = s.cmp := rfl
@[simp] theorem State.onHome_home : (s.onHome i f).home = s.home.modify i f := rfl
@[simp] theorem State.onHome_pre : (s.onHome i f).pre = s.pre := rfl
@[simp] theorem State.onHome_replies : (s.onHome i f).replies = s.replies := rfl
@[simp] theorem State.onHome_survey : (s.onHome i f).survey = s.survey := rfl
@[simp] theorem State.onHome_cars : (s.onHome i f).cars = s.cars := rfl
@[simp] theorem State.onHome_doors : (s.onHome i f).doors = s.doors := rfl
@[simp] theorem State.onHome_dsp : (s.onHome i f).dsp = s.dsp := rfl
@[simp] theorem State.onHome_safe : (s.onHome i f).safe = s.safe := rfl
@[simp] theorem State.onHome_time : (s.onHome i f).time = s.time := rfl
@[simp] theorem State.onHome_fab : (s.onHome i f).fab = s.fab := rfl
@[simp] theorem State.onHome_cons : (s.onHome i f).cons = s.cons := rfl
@[simp] theorem State.onHome_xd : (s.onHome i f).xd = s.xd := rfl
@[simp] theorem State.onHome_twin : (s.onHome i f).twin = s.twin := rfl
@[simp] theorem State.onHome_purse : (s.onHome i f).purse = s.purse := rfl
@[simp] theorem State.onHome_led : (s.onHome i f).led = s.led := rfl
@[simp] theorem State.onHome_mode : (s.onHome i f).mode = s.mode := rfl
@[simp] theorem State.onHome_stw : (s.onHome i f).stw = s.stw := rfl
@[simp] theorem State.onHome_wake : (s.onHome i f).wake = s.wake := rfl
@[simp] theorem State.onHome_win : (s.onHome i f).win = s.win := rfl
@[simp] theorem State.onHome_pins : (s.onHome i f).pins = s.pins := rfl
@[simp] theorem State.onHome_pub : (s.onHome i f).pub = s.pub := rfl

end

/-! ### onStop -/

section
variable (s : State) (i : Nat) (f : SafeStop → SafeStop)

@[simp] theorem State.onStop_pending : (s.onStop i f).pending = s.pending := rfl
@[simp] theorem State.onStop_freeIx : (s.onStop i f).freeIx = s.freeIx := rfl
@[simp] theorem State.onStop_now : (s.onStop i f).now = s.now := rfl
@[simp] theorem State.onStop_cfg : (s.onStop i f).cfg = s.cfg := rfl
@[simp] theorem State.onStop_graph : (s.onStop i f).graph = s.graph := rfl
@[simp] theorem State.onStop_kernels : (s.onStop i f).kernels = s.kernels := rfl
@[simp] theorem State.onStop_links : (s.onStop i f).links = s.links := rfl
@[simp] theorem State.onStop_clk : (s.onStop i f).clk = s.clk := rfl
@[simp] theorem State.onStop_stage : (s.onStop i f).stage = s.stage := rfl
@[simp] theorem State.onStop_disp : (s.onStop i f).disp = s.disp := rfl
@[simp] theorem State.onStop_trims : (s.onStop i f).trims = s.trims := rfl
@[simp] theorem State.onStop_scTrims : (s.onStop i f).scTrims = s.scTrims := rfl
@[simp] theorem State.onStop_ain : (s.onStop i f).ain = s.ain := rfl
@[simp] theorem State.onStop_t16 : (s.onStop i f).t16 = s.t16 := rfl
@[simp] theorem State.onStop_fb : (s.onStop i f).fb = s.fb := rfl
@[simp] theorem State.onStop_snap : (s.onStop i f).snap = s.snap := rfl
@[simp] theorem State.onStop_snapPrev : (s.onStop i f).snapPrev = s.snapPrev := rfl
@[simp] theorem State.onStop_din : (s.onStop i f).din = s.din := rfl
@[simp] theorem State.onStop_dinSnap : (s.onStop i f).dinSnap = s.dinSnap := rfl
@[simp] theorem State.onStop_dinPrev : (s.onStop i f).dinPrev = s.dinPrev := rfl
@[simp] theorem State.onStop_emu : (s.onStop i f).emu = s.emu := rfl
@[simp] theorem State.onStop_ch : (s.onStop i f).ch = s.ch := rfl
@[simp] theorem State.onStop_cax : (s.onStop i f).cax = s.cax := rfl
@[simp] theorem State.onStop_acq : (s.onStop i f).acq = s.acq := rfl
@[simp] theorem State.onStop_ax : (s.onStop i f).ax = s.ax := rfl
@[simp] theorem State.onStop_axe : (s.onStop i f).axe = s.axe := rfl
@[simp] theorem State.onStop_axPrevRef : (s.onStop i f).axPrevRef = s.axPrevRef := rfl
@[simp] theorem State.onStop_book : (s.onStop i f).book = s.book := rfl
@[simp] theorem State.onStop_axAt : (s.onStop i f).axAt = s.axAt := rfl
@[simp] theorem State.onStop_pg : (s.onStop i f).pg = s.pg := rfl
@[simp] theorem State.onStop_pgBook : (s.onStop i f).pgBook = s.pgBook := rfl
@[simp] theorem State.onStop_gc : (s.onStop i f).gc = s.gc := rfl
@[simp] theorem State.onStop_cap : (s.onStop i f).cap = s.cap := rfl
@[simp] theorem State.onStop_cmp : (s.onStop i f).cmp = s.cmp := rfl
@[simp] theorem State.onStop_home : (s.onStop i f).home = s.home := rfl
@[simp] theorem State.onStop_pre : (s.onStop i f).pre = s.pre := rfl
@[simp] theorem State.onStop_replies : (s.onStop i f).replies = s.replies := rfl
@[simp] theorem State.onStop_survey : (s.onStop i f).survey = s.survey := rfl
@[simp] theorem State.onStop_cars : (s.onStop i f).cars = s.cars := rfl
@[simp] theorem State.onStop_doors : (s.onStop i f).doors = s.doors := rfl
@[simp] theorem State.onStop_dsp : (s.onStop i f).dsp = s.dsp := rfl
@[simp] theorem State.onStop_safe : (s.onStop i f).safe = { s.safe with stops := s.safe.stops.modify i f } := rfl
@[simp] theorem State.onStop_time : (s.onStop i f).time = s.time := rfl
@[simp] theorem State.onStop_fab : (s.onStop i f).fab = s.fab := rfl
@[simp] theorem State.onStop_cons : (s.onStop i f).cons = s.cons := rfl
@[simp] theorem State.onStop_xd : (s.onStop i f).xd = s.xd := rfl
@[simp] theorem State.onStop_twin : (s.onStop i f).twin = s.twin := rfl
@[simp] theorem State.onStop_purse : (s.onStop i f).purse = s.purse := rfl
@[simp] theorem State.onStop_led : (s.onStop i f).led = s.led := rfl
@[simp] theorem State.onStop_mode : (s.onStop i f).mode = s.mode := rfl
@[simp] theorem State.onStop_stw : (s.onStop i f).stw = s.stw := rfl
@[simp] theorem State.onStop_wake : (s.onStop i f).wake = s.wake := rfl
@[simp] theorem State.onStop_win : (s.onStop i f).win = s.win := rfl
@[simp] theorem State.onStop_pins : (s.onStop i f).pins = s.pins := rfl
@[simp] theorem State.onStop_pub : (s.onStop i f).pub = s.pub := rfl

end

/-! ### onOut -/

section
variable (s : State) (i : Nat) (f : SafeOut → SafeOut)

@[simp] theorem State.onOut_pending : (s.onOut i f).pending = s.pending := rfl
@[simp] theorem State.onOut_freeIx : (s.onOut i f).freeIx = s.freeIx := rfl
@[simp] theorem State.onOut_now : (s.onOut i f).now = s.now := rfl
@[simp] theorem State.onOut_cfg : (s.onOut i f).cfg = s.cfg := rfl
@[simp] theorem State.onOut_graph : (s.onOut i f).graph = s.graph := rfl
@[simp] theorem State.onOut_kernels : (s.onOut i f).kernels = s.kernels := rfl
@[simp] theorem State.onOut_links : (s.onOut i f).links = s.links := rfl
@[simp] theorem State.onOut_clk : (s.onOut i f).clk = s.clk := rfl
@[simp] theorem State.onOut_stage : (s.onOut i f).stage = s.stage := rfl
@[simp] theorem State.onOut_disp : (s.onOut i f).disp = s.disp := rfl
@[simp] theorem State.onOut_trims : (s.onOut i f).trims = s.trims := rfl
@[simp] theorem State.onOut_scTrims : (s.onOut i f).scTrims = s.scTrims := rfl
@[simp] theorem State.onOut_ain : (s.onOut i f).ain = s.ain := rfl
@[simp] theorem State.onOut_t16 : (s.onOut i f).t16 = s.t16 := rfl
@[simp] theorem State.onOut_fb : (s.onOut i f).fb = s.fb := rfl
@[simp] theorem State.onOut_snap : (s.onOut i f).snap = s.snap := rfl
@[simp] theorem State.onOut_snapPrev : (s.onOut i f).snapPrev = s.snapPrev := rfl
@[simp] theorem State.onOut_din : (s.onOut i f).din = s.din := rfl
@[simp] theorem State.onOut_dinSnap : (s.onOut i f).dinSnap = s.dinSnap := rfl
@[simp] theorem State.onOut_dinPrev : (s.onOut i f).dinPrev = s.dinPrev := rfl
@[simp] theorem State.onOut_emu : (s.onOut i f).emu = s.emu := rfl
@[simp] theorem State.onOut_ch : (s.onOut i f).ch = s.ch := rfl
@[simp] theorem State.onOut_cax : (s.onOut i f).cax = s.cax := rfl
@[simp] theorem State.onOut_acq : (s.onOut i f).acq = s.acq := rfl
@[simp] theorem State.onOut_ax : (s.onOut i f).ax = s.ax := rfl
@[simp] theorem State.onOut_axe : (s.onOut i f).axe = s.axe := rfl
@[simp] theorem State.onOut_axPrevRef : (s.onOut i f).axPrevRef = s.axPrevRef := rfl
@[simp] theorem State.onOut_book : (s.onOut i f).book = s.book := rfl
@[simp] theorem State.onOut_axAt : (s.onOut i f).axAt = s.axAt := rfl
@[simp] theorem State.onOut_pg : (s.onOut i f).pg = s.pg := rfl
@[simp] theorem State.onOut_pgBook : (s.onOut i f).pgBook = s.pgBook := rfl
@[simp] theorem State.onOut_gc : (s.onOut i f).gc = s.gc := rfl
@[simp] theorem State.onOut_cap : (s.onOut i f).cap = s.cap := rfl
@[simp] theorem State.onOut_cmp : (s.onOut i f).cmp = s.cmp := rfl
@[simp] theorem State.onOut_home : (s.onOut i f).home = s.home := rfl
@[simp] theorem State.onOut_pre : (s.onOut i f).pre = s.pre := rfl
@[simp] theorem State.onOut_replies : (s.onOut i f).replies = s.replies := rfl
@[simp] theorem State.onOut_survey : (s.onOut i f).survey = s.survey := rfl
@[simp] theorem State.onOut_cars : (s.onOut i f).cars = s.cars := rfl
@[simp] theorem State.onOut_doors : (s.onOut i f).doors = s.doors := rfl
@[simp] theorem State.onOut_dsp : (s.onOut i f).dsp = s.dsp := rfl
@[simp] theorem State.onOut_safe : (s.onOut i f).safe = { s.safe with outs := s.safe.outs.modify i f } := rfl
@[simp] theorem State.onOut_time : (s.onOut i f).time = s.time := rfl
@[simp] theorem State.onOut_fab : (s.onOut i f).fab = s.fab := rfl
@[simp] theorem State.onOut_cons : (s.onOut i f).cons = s.cons := rfl
@[simp] theorem State.onOut_xd : (s.onOut i f).xd = s.xd := rfl
@[simp] theorem State.onOut_twin : (s.onOut i f).twin = s.twin := rfl
@[simp] theorem State.onOut_purse : (s.onOut i f).purse = s.purse := rfl
@[simp] theorem State.onOut_led : (s.onOut i f).led = s.led := rfl
@[simp] theorem State.onOut_mode : (s.onOut i f).mode = s.mode := rfl
@[simp] theorem State.onOut_stw : (s.onOut i f).stw = s.stw := rfl
@[simp] theorem State.onOut_wake : (s.onOut i f).wake = s.wake := rfl
@[simp] theorem State.onOut_win : (s.onOut i f).win = s.win := rfl
@[simp] theorem State.onOut_pins : (s.onOut i f).pins = s.pins := rfl
@[simp] theorem State.onOut_pub : (s.onOut i f).pub = s.pub := rfl

end

/-! ### onPins -/

section
variable (s : State) (f : Pins → Pins)

@[simp] theorem State.onPins_pending : (s.onPins f).pending = s.pending := rfl
@[simp] theorem State.onPins_freeIx : (s.onPins f).freeIx = s.freeIx := rfl
@[simp] theorem State.onPins_now : (s.onPins f).now = s.now := rfl
@[simp] theorem State.onPins_cfg : (s.onPins f).cfg = s.cfg := rfl
@[simp] theorem State.onPins_graph : (s.onPins f).graph = s.graph := rfl
@[simp] theorem State.onPins_kernels : (s.onPins f).kernels = s.kernels := rfl
@[simp] theorem State.onPins_links : (s.onPins f).links = s.links := rfl
@[simp] theorem State.onPins_clk : (s.onPins f).clk = s.clk := rfl
@[simp] theorem State.onPins_stage : (s.onPins f).stage = s.stage := rfl
@[simp] theorem State.onPins_disp : (s.onPins f).disp = s.disp := rfl
@[simp] theorem State.onPins_trims : (s.onPins f).trims = s.trims := rfl
@[simp] theorem State.onPins_scTrims : (s.onPins f).scTrims = s.scTrims := rfl
@[simp] theorem State.onPins_ain : (s.onPins f).ain = s.ain := rfl
@[simp] theorem State.onPins_t16 : (s.onPins f).t16 = s.t16 := rfl
@[simp] theorem State.onPins_fb : (s.onPins f).fb = s.fb := rfl
@[simp] theorem State.onPins_snap : (s.onPins f).snap = s.snap := rfl
@[simp] theorem State.onPins_snapPrev : (s.onPins f).snapPrev = s.snapPrev := rfl
@[simp] theorem State.onPins_din : (s.onPins f).din = s.din := rfl
@[simp] theorem State.onPins_dinSnap : (s.onPins f).dinSnap = s.dinSnap := rfl
@[simp] theorem State.onPins_dinPrev : (s.onPins f).dinPrev = s.dinPrev := rfl
@[simp] theorem State.onPins_emu : (s.onPins f).emu = s.emu := rfl
@[simp] theorem State.onPins_ch : (s.onPins f).ch = s.ch := rfl
@[simp] theorem State.onPins_cax : (s.onPins f).cax = s.cax := rfl
@[simp] theorem State.onPins_acq : (s.onPins f).acq = s.acq := rfl
@[simp] theorem State.onPins_ax : (s.onPins f).ax = s.ax := rfl
@[simp] theorem State.onPins_axe : (s.onPins f).axe = s.axe := rfl
@[simp] theorem State.onPins_axPrevRef : (s.onPins f).axPrevRef = s.axPrevRef := rfl
@[simp] theorem State.onPins_book : (s.onPins f).book = s.book := rfl
@[simp] theorem State.onPins_axAt : (s.onPins f).axAt = s.axAt := rfl
@[simp] theorem State.onPins_pg : (s.onPins f).pg = s.pg := rfl
@[simp] theorem State.onPins_pgBook : (s.onPins f).pgBook = s.pgBook := rfl
@[simp] theorem State.onPins_gc : (s.onPins f).gc = s.gc := rfl
@[simp] theorem State.onPins_cap : (s.onPins f).cap = s.cap := rfl
@[simp] theorem State.onPins_cmp : (s.onPins f).cmp = s.cmp := rfl
@[simp] theorem State.onPins_home : (s.onPins f).home = s.home := rfl
@[simp] theorem State.onPins_pre : (s.onPins f).pre = s.pre := rfl
@[simp] theorem State.onPins_replies : (s.onPins f).replies = s.replies := rfl
@[simp] theorem State.onPins_survey : (s.onPins f).survey = s.survey := rfl
@[simp] theorem State.onPins_cars : (s.onPins f).cars = s.cars := rfl
@[simp] theorem State.onPins_doors : (s.onPins f).doors = s.doors := rfl
@[simp] theorem State.onPins_dsp : (s.onPins f).dsp = s.dsp := rfl
@[simp] theorem State.onPins_safe : (s.onPins f).safe = s.safe := rfl
@[simp] theorem State.onPins_time : (s.onPins f).time = s.time := rfl
@[simp] theorem State.onPins_fab : (s.onPins f).fab = s.fab := rfl
@[simp] theorem State.onPins_cons : (s.onPins f).cons = s.cons := rfl
@[simp] theorem State.onPins_xd : (s.onPins f).xd = s.xd := rfl
@[simp] theorem State.onPins_twin : (s.onPins f).twin = s.twin := rfl
@[simp] theorem State.onPins_purse : (s.onPins f).purse = s.purse := rfl
@[simp] theorem State.onPins_led : (s.onPins f).led = s.led := rfl
@[simp] theorem State.onPins_mode : (s.onPins f).mode = s.mode := rfl
@[simp] theorem State.onPins_stw : (s.onPins f).stw = s.stw := rfl
@[simp] theorem State.onPins_wake : (s.onPins f).wake = s.wake := rfl
@[simp] theorem State.onPins_win : (s.onPins f).win = s.win := rfl
@[simp] theorem State.onPins_pins : (s.onPins f).pins = f s.pins := rfl
@[simp] theorem State.onPins_pub : (s.onPins f).pub = s.pub := rfl

end

/-! ### show -/

section
variable (s : State) (g : State → State)

@[simp] theorem State.show_pending : (s.show g).pending = s.pending := rfl
@[simp] theorem State.show_freeIx : (s.show g).freeIx = s.freeIx := rfl
@[simp] theorem State.show_now : (s.show g).now = s.now := rfl
@[simp] theorem State.show_cfg : (s.show g).cfg = s.cfg := rfl
@[simp] theorem State.show_graph : (s.show g).graph = s.graph := rfl
@[simp] theorem State.show_kernels : (s.show g).kernels = s.kernels := rfl
@[simp] theorem State.show_links : (s.show g).links = s.links := rfl
@[simp] theorem State.show_clk : (s.show g).clk = s.clk := rfl
@[simp] theorem State.show_stage : (s.show g).stage = s.stage := rfl
@[simp] theorem State.show_disp : (s.show g).disp = s.disp := rfl
@[simp] theorem State.show_trims : (s.show g).trims = s.trims := rfl
@[simp] theorem State.show_scTrims : (s.show g).scTrims = s.scTrims := rfl
@[simp] theorem State.show_ain : (s.show g).ain = s.ain := rfl
@[simp] theorem State.show_t16 : (s.show g).t16 = s.t16 := rfl
@[simp] theorem State.show_fb : (s.show g).fb = s.fb := rfl
@[simp] theorem State.show_snap : (s.show g).snap = s.snap := rfl
@[simp] theorem State.show_snapPrev : (s.show g).snapPrev = s.snapPrev := rfl
@[simp] theorem State.show_din : (s.show g).din = s.din := rfl
@[simp] theorem State.show_dinSnap : (s.show g).dinSnap = s.dinSnap := rfl
@[simp] theorem State.show_dinPrev : (s.show g).dinPrev = s.dinPrev := rfl
@[simp] theorem State.show_emu : (s.show g).emu = s.emu := rfl
@[simp] theorem State.show_ch : (s.show g).ch = s.ch := rfl
@[simp] theorem State.show_cax : (s.show g).cax = s.cax := rfl
@[simp] theorem State.show_acq : (s.show g).acq = s.acq := rfl
@[simp] theorem State.show_ax : (s.show g).ax = (g s).ax := rfl
@[simp] theorem State.show_axe : (s.show g).axe = s.axe := rfl
@[simp] theorem State.show_axPrevRef : (s.show g).axPrevRef = s.axPrevRef := rfl
@[simp] theorem State.show_book : (s.show g).book = s.book.zipWith AxisBook.show (g s).book := rfl
@[simp] theorem State.show_axAt : (s.show g).axAt = s.axAt := rfl
@[simp] theorem State.show_pg : (s.show g).pg = (g s).pg := rfl
@[simp] theorem State.show_pgBook : (s.show g).pgBook = s.pgBook := rfl
@[simp] theorem State.show_gc : (s.show g).gc = (g s).gc := rfl
@[simp] theorem State.show_cap : (s.show g).cap = s.cap := rfl
@[simp] theorem State.show_cmp : (s.show g).cmp = s.cmp := rfl
@[simp] theorem State.show_home : (s.show g).home = (g s).home := rfl
@[simp] theorem State.show_pre : (s.show g).pre = { shown := true, ax := s.ax, pg := s.pg, gc := s.gc, home := s.home, book := s.book } := rfl
@[simp] theorem State.show_replies : (s.show g).replies = s.replies := rfl
@[simp] theorem State.show_survey : (s.show g).survey = s.survey := rfl
@[simp] theorem State.show_cars : (s.show g).cars = s.cars := rfl
@[simp] theorem State.show_doors : (s.show g).doors = s.doors := rfl
@[simp] theorem State.show_dsp : (s.show g).dsp = s.dsp := rfl
@[simp] theorem State.show_safe : (s.show g).safe = s.safe := rfl
@[simp] theorem State.show_time : (s.show g).time = s.time := rfl
@[simp] theorem State.show_fab : (s.show g).fab = s.fab := rfl
@[simp] theorem State.show_cons : (s.show g).cons = s.cons := rfl
@[simp] theorem State.show_xd : (s.show g).xd = s.xd := rfl
@[simp] theorem State.show_twin : (s.show g).twin = s.twin := rfl
@[simp] theorem State.show_purse : (s.show g).purse = s.purse := rfl
@[simp] theorem State.show_led : (s.show g).led = s.led := rfl
@[simp] theorem State.show_mode : (s.show g).mode = s.mode := rfl
@[simp] theorem State.show_stw : (s.show g).stw = s.stw := rfl
@[simp] theorem State.show_wake : (s.show g).wake = s.wake := rfl
@[simp] theorem State.show_win : (s.show g).win = s.win := rfl
@[simp] theorem State.show_pins : (s.show g).pins = s.pins := rfl
@[simp] theorem State.show_pub : (s.show g).pub = s.pub := rfl

end

/-! ### publish -/

section
variable (s : State)

@[simp] theorem State.publish_pending : (s.publish).pending = s.pending := rfl
@[simp] theorem State.publish_freeIx : (s.publish).freeIx = s.freeIx := rfl
@[simp] theorem State.publish_now : (s.publish).now = s.now := rfl
@[simp] theorem State.publish_cfg : (s.publish).cfg = s.cfg := rfl
@[simp] theorem State.publish_graph : (s.publish).graph = s.graph := rfl
@[simp] theorem State.publish_kernels : (s.publish).kernels = s.kernels := rfl
@[simp] theorem State.publish_links : (s.publish).links = s.links := rfl
@[simp] theorem State.publish_clk : (s.publish).clk = s.clk := rfl
@[simp] theorem State.publish_stage : (s.publish).stage = s.stage := rfl
@[simp] theorem State.publish_disp : (s.publish).disp = s.disp := rfl
@[simp] theorem State.publish_trims : (s.publish).trims = s.trims := rfl
@[simp] theorem State.publish_scTrims : (s.publish).scTrims = s.scTrims := rfl
@[simp] theorem State.publish_ain : (s.publish).ain = s.ain := rfl
@[simp] theorem State.publish_t16 : (s.publish).t16 = s.t16 := rfl
@[simp] theorem State.publish_fb : (s.publish).fb = s.fb := rfl
@[simp] theorem State.publish_snap : (s.publish).snap = s.snap := rfl
@[simp] theorem State.publish_snapPrev : (s.publish).snapPrev = s.snapPrev := rfl
@[simp] theorem State.publish_din : (s.publish).din = s.din := rfl
@[simp] theorem State.publish_dinSnap : (s.publish).dinSnap = s.dinSnap := rfl
@[simp] theorem State.publish_dinPrev : (s.publish).dinPrev = s.dinPrev := rfl
@[simp] theorem State.publish_emu : (s.publish).emu = s.emu := rfl
@[simp] theorem State.publish_ch : (s.publish).ch = s.ch := rfl
@[simp] theorem State.publish_cax : (s.publish).cax = s.cax := rfl
@[simp] theorem State.publish_acq : (s.publish).acq = s.acq := rfl
@[simp] theorem State.publish_ax : (s.publish).ax = s.ax := rfl
@[simp] theorem State.publish_axe : (s.publish).axe = s.axe := rfl
@[simp] theorem State.publish_axPrevRef : (s.publish).axPrevRef = s.axPrevRef := rfl
@[simp] theorem State.publish_book : (s.publish).book = s.book := rfl
@[simp] theorem State.publish_axAt : (s.publish).axAt = s.axAt := rfl
@[simp] theorem State.publish_pg : (s.publish).pg = s.pg := rfl
@[simp] theorem State.publish_pgBook : (s.publish).pgBook = s.pgBook := rfl
@[simp] theorem State.publish_gc : (s.publish).gc = s.gc := rfl
@[simp] theorem State.publish_cap : (s.publish).cap = s.cap := rfl
@[simp] theorem State.publish_cmp : (s.publish).cmp = s.cmp := rfl
@[simp] theorem State.publish_home : (s.publish).home = s.home := rfl
@[simp] theorem State.publish_pre : (s.publish).pre = s.pre := rfl
@[simp] theorem State.publish_replies : (s.publish).replies = s.replies := rfl
@[simp] theorem State.publish_survey : (s.publish).survey = s.survey := rfl
@[simp] theorem State.publish_cars : (s.publish).cars = s.cars := rfl
@[simp] theorem State.publish_doors : (s.publish).doors = s.doors := rfl
@[simp] theorem State.publish_dsp : (s.publish).dsp = s.dsp := rfl
@[simp] theorem State.publish_safe : (s.publish).safe = s.safe := rfl
@[simp] theorem State.publish_time : (s.publish).time = s.time := rfl
@[simp] theorem State.publish_fab : (s.publish).fab = s.fab := rfl
@[simp] theorem State.publish_cons : (s.publish).cons = s.cons := rfl
@[simp] theorem State.publish_xd : (s.publish).xd = s.xd := rfl
@[simp] theorem State.publish_twin : (s.publish).twin = s.twin := rfl
@[simp] theorem State.publish_purse : (s.publish).purse = s.purse := rfl
@[simp] theorem State.publish_led : (s.publish).led = s.led := rfl
@[simp] theorem State.publish_mode : (s.publish).mode = s.mode := rfl
@[simp] theorem State.publish_stw : (s.publish).stw = s.stw := rfl
@[simp] theorem State.publish_wake : (s.publish).wake = s.wake := rfl
@[simp] theorem State.publish_win : (s.publish).win = s.win := rfl
@[simp] theorem State.publish_pins : (s.publish).pins = s.pins := rfl

end

/-! ### haltCause -/

section
variable (s : State) (k : Nat)

@[simp] theorem State.haltCause_pending : (s.haltCause k).pending = s.pending := rfl
@[simp] theorem State.haltCause_freeIx : (s.haltCause k).freeIx = s.freeIx := rfl
@[simp] theorem State.haltCause_now : (s.haltCause k).now = s.now := rfl
@[simp] theorem State.haltCause_cfg : (s.haltCause k).cfg = s.cfg := rfl
@[simp] theorem State.haltCause_graph : (s.haltCause k).graph = s.graph := rfl
@[simp] theorem State.haltCause_kernels : (s.haltCause k).kernels = s.kernels := rfl
@[simp] theorem State.haltCause_links : (s.haltCause k).links = s.links := rfl
@[simp] theorem State.haltCause_clk : (s.haltCause k).clk = s.clk := rfl
@[simp] theorem State.haltCause_stage : (s.haltCause k).stage = s.stage := rfl
@[simp] theorem State.haltCause_disp : (s.haltCause k).disp = s.disp := rfl
@[simp] theorem State.haltCause_trims : (s.haltCause k).trims = s.trims := rfl
@[simp] theorem State.haltCause_scTrims : (s.haltCause k).scTrims = s.scTrims := rfl
@[simp] theorem State.haltCause_ain : (s.haltCause k).ain = s.ain := rfl
@[simp] theorem State.haltCause_t16 : (s.haltCause k).t16 = s.t16 := rfl
@[simp] theorem State.haltCause_fb : (s.haltCause k).fb = s.fb := rfl
@[simp] theorem State.haltCause_snap : (s.haltCause k).snap = s.snap := rfl
@[simp] theorem State.haltCause_snapPrev : (s.haltCause k).snapPrev = s.snapPrev := rfl
@[simp] theorem State.haltCause_din : (s.haltCause k).din = s.din := rfl
@[simp] theorem State.haltCause_dinSnap : (s.haltCause k).dinSnap = s.dinSnap := rfl
@[simp] theorem State.haltCause_dinPrev : (s.haltCause k).dinPrev = s.dinPrev := rfl
@[simp] theorem State.haltCause_emu : (s.haltCause k).emu = s.emu := rfl
@[simp] theorem State.haltCause_ch : (s.haltCause k).ch = s.ch := rfl
@[simp] theorem State.haltCause_cax : (s.haltCause k).cax = s.cax := rfl
@[simp] theorem State.haltCause_acq : (s.haltCause k).acq = s.acq := rfl
@[simp] theorem State.haltCause_ax : (s.haltCause k).ax = s.ax := rfl
@[simp] theorem State.haltCause_axe : (s.haltCause k).axe = s.axe := rfl
@[simp] theorem State.haltCause_axPrevRef : (s.haltCause k).axPrevRef = s.axPrevRef := rfl
@[simp] theorem State.haltCause_book : (s.haltCause k).book = s.book := rfl
@[simp] theorem State.haltCause_axAt : (s.haltCause k).axAt = s.axAt := rfl
@[simp] theorem State.haltCause_pg : (s.haltCause k).pg = s.pg := rfl
@[simp] theorem State.haltCause_pgBook : (s.haltCause k).pgBook = s.pgBook := rfl
@[simp] theorem State.haltCause_gc : (s.haltCause k).gc = s.gc := rfl
@[simp] theorem State.haltCause_cap : (s.haltCause k).cap = s.cap := rfl
@[simp] theorem State.haltCause_cmp : (s.haltCause k).cmp = s.cmp := rfl
@[simp] theorem State.haltCause_home : (s.haltCause k).home = s.home := rfl
@[simp] theorem State.haltCause_pre : (s.haltCause k).pre = s.pre := rfl
@[simp] theorem State.haltCause_replies : (s.haltCause k).replies = s.replies := rfl
@[simp] theorem State.haltCause_survey : (s.haltCause k).survey = s.survey := rfl
@[simp] theorem State.haltCause_cars : (s.haltCause k).cars = s.cars := rfl
@[simp] theorem State.haltCause_doors : (s.haltCause k).doors = s.doors := rfl
@[simp] theorem State.haltCause_dsp : (s.haltCause k).dsp = s.dsp := rfl
@[simp] theorem State.haltCause_safe : (s.haltCause k).safe = s.safe := rfl
@[simp] theorem State.haltCause_time : (s.haltCause k).time = s.time := rfl
@[simp] theorem State.haltCause_fab : (s.haltCause k).fab = s.fab := rfl
@[simp] theorem State.haltCause_cons : (s.haltCause k).cons = s.cons := rfl
@[simp] theorem State.haltCause_xd : (s.haltCause k).xd = s.xd := rfl
@[simp] theorem State.haltCause_twin : (s.haltCause k).twin = s.twin := rfl
@[simp] theorem State.haltCause_purse : (s.haltCause k).purse = s.purse := rfl
@[simp] theorem State.haltCause_led : (s.haltCause k).led = s.led := rfl
@[simp] theorem State.haltCause_mode : (s.haltCause k).mode = { s.mode with haltNew := setBit s.mode.haltNew k true } := rfl
@[simp] theorem State.haltCause_stw : (s.haltCause k).stw = s.stw := rfl
@[simp] theorem State.haltCause_wake : (s.haltCause k).wake = s.wake := rfl
@[simp] theorem State.haltCause_win : (s.haltCause k).win = s.win := rfl
@[simp] theorem State.haltCause_pins : (s.haltCause k).pins = s.pins := rfl
@[simp] theorem State.haltCause_pub : (s.haltCause k).pub = s.pub := rfl

end

end Sys2Proof.Machine
end

