-- ==== Sys2Proof/Laws/Raise.lean ====
section
/-! SUPPORT. Raising an event changes the Ledger and nothing else (R573 to R576, R586 to R602), and counts the event. -/

namespace Sys2Proof.Machine

/-- Two states that differ at most in the Ledger. -/
def LedOnly (s t : State) : Prop := t = { s with led := t.led }

theorem LedOnly.refl (s : State) : LedOnly s s := rfl

theorem LedOnly.upd (s : State) (l : Led) : LedOnly s { s with led := l } := rfl

theorem LedOnly.trans {s t u : State} (h : LedOnly s t) (k : LedOnly t u) : LedOnly s u := by
  unfold LedOnly at *
  rw [k, h]

theorem ledOnly_beginFlush (s : State) : LedOnly s s.beginFlush := by
  unfold State.beginFlush; split <;> rfl

theorem ledOnly_flushDecide (v : Nat) (s : State) : LedOnly s (s.flushDecide v) := by
  unfold State.flushDecide; dsimp only; split
  · exact ledOnly_beginFlush s
  · rfl

theorem ledOnly_enterRec (r : LedRec) (s : State) : LedOnly s (s.enterRec r) := by
  unfold State.enterRec
  exact (LedOnly.upd s _).trans (ledOnly_flushDecide _ _)

theorem ledOnly_ledTake (o : Occ) (s : State) : LedOnly s (s.ledTake o) := by
  unfold State.ledTake State.notRec
  repeat' split
  all_goals first | rfl | exact ledOnly_enterRec _ _

theorem ledOnly_fabTake (o : Occ) (k : Option Nat) (s : State) : LedOnly s (s.fabTake o k) := by
  unfold State.fabTake; split <;> rfl

theorem ledOnly_nevtTake (c : Nat) (s : State) : LedOnly s (s.nevtTake c) := by
  unfold State.nevtTake; split <;> rfl

theorem ledOnly_raise (c : Nat) (p : List Octet) (s : State) (v : Nat) : LedOnly s (s.raise c p v) := by
  unfold State.raise
  dsimp only
  have h1 := LedOnly.upd s { s.led with raised := countUp s.led.raised c }
  have h2 : ∀ x : State, ∀ b : Bool, ∀ o : Occ, LedOnly x (if b = true then x.ledTake o else x) := by
    intro x b o; split
    · exact ledOnly_ledTake _ _
    · rfl
  have h3 : ∀ x : State, ∀ b : Bool, ∀ o : Occ, ∀ k, LedOnly x (if b = true then x.fabTake o k else x) := by
    intro x b o k; split
    · exact ledOnly_fabTake _ _ _
    · rfl
  have h4 : ∀ x : State, ∀ b : Bool, LedOnly x (if b = true then x.nevtTake c else x) := by
    intro x b; split
    · exact ledOnly_nevtTake _ _
    · rfl
  exact ((h1.trans (h2 _ _ _)).trans (h3 _ _ _ _)).trans (h4 _ _)

section
variable (s : State) (c : Nat) (p : List Octet) (v : Nat)

@[simp] theorem State.raise_pending : (s.raise c p v).pending = s.pending := by rw [ledOnly_raise c p s v]
@[simp] theorem State.raise_freeIx : (s.raise c p v).freeIx = s.freeIx := by rw [ledOnly_raise c p s v]
@[simp] theorem State.raise_now : (s.raise c p v).now = s.now := by rw [ledOnly_raise c p s v]
@[simp] theorem State.raise_cfg : (s.raise c p v).cfg = s.cfg := by rw [ledOnly_raise c p s v]
@[simp] theorem State.raise_graph : (s.raise c p v).graph = s.graph := by rw [ledOnly_raise c p s v]
@[simp] theorem State.raise_kernels : (s.raise c p v).kernels = s.kernels := by rw [ledOnly_raise c p s v]
@[simp] theorem State.raise_links : (s.raise c p v).links = s.links := by rw [ledOnly_raise c p s v]
@[simp] theorem State.raise_clk : (s.raise c p v).clk = s.clk := by rw [ledOnly_raise c p s v]
@[simp] theorem State.raise_stage : (s.raise c p v).stage = s.stage := by rw [ledOnly_raise c p s v]
@[simp] theorem State.raise_disp : (s.raise c p v).disp = s.disp := by rw [ledOnly_raise c p s v]
@[simp] theorem State.raise_trims : (s.raise c p v).trims = s.trims := by rw [ledOnly_raise c p s v]
@[simp] theorem State.raise_scTrims : (s.raise c p v).scTrims = s.scTrims := by rw [ledOnly_raise c p s v]
@[simp] theorem State.raise_ain : (s.raise c p v).ain = s.ain := by rw [ledOnly_raise c p s v]
@[simp] theorem State.raise_t16 : (s.raise c p v).t16 = s.t16 := by rw [ledOnly_raise c p s v]
@[simp] theorem State.raise_fb : (s.raise c p v).fb = s.fb := by rw [ledOnly_raise c p s v]
@[simp] theorem State.raise_snap : (s.raise c p v).snap = s.snap := by rw [ledOnly_raise c p s v]
@[simp] theorem State.raise_snapPrev : (s.raise c p v).snapPrev = s.snapPrev := by rw [ledOnly_raise c p s v]
@[simp] theorem State.raise_din : (s.raise c p v).din = s.din := by rw [ledOnly_raise c p s v]
@[simp] theorem State.raise_dinSnap : (s.raise c p v).dinSnap = s.dinSnap := by rw [ledOnly_raise c p s v]
@[simp] theorem State.raise_dinPrev : (s.raise c p v).dinPrev = s.dinPrev := by rw [ledOnly_raise c p s v]
@[simp] theorem State.raise_emu : (s.raise c p v).emu = s.emu := by rw [ledOnly_raise c p s v]
@[simp] theorem State.raise_ch : (s.raise c p v).ch = s.ch := by rw [ledOnly_raise c p s v]
@[simp] theorem State.raise_cax : (s.raise c p v).cax = s.cax := by rw [ledOnly_raise c p s v]
@[simp] theorem State.raise_acq : (s.raise c p v).acq = s.acq := by rw [ledOnly_raise c p s v]
@[simp] theorem State.raise_ax : (s.raise c p v).ax = s.ax := by rw [ledOnly_raise c p s v]
@[simp] theorem State.raise_axe : (s.raise c p v).axe = s.axe := by rw [ledOnly_raise c p s v]
@[simp] theorem State.raise_axPrevRef : (s.raise c p v).axPrevRef = s.axPrevRef := by rw [ledOnly_raise c p s v]
@[simp] theorem State.raise_book : (s.raise c p v).book = s.book := by rw [ledOnly_raise c p s v]
@[simp] theorem State.raise_axAt : (s.raise c p v).axAt = s.axAt := by rw [ledOnly_raise c p s v]
@[simp] theorem State.raise_pg : (s.raise c p v).pg = s.pg := by rw [ledOnly_raise c p s v]
@[simp] theorem State.raise_pgBook : (s.raise c p v).pgBook = s.pgBook := by rw [ledOnly_raise c p s v]
@[simp] theorem State.raise_gc : (s.raise c p v).gc = s.gc := by rw [ledOnly_raise c p s v]
@[simp] theorem State.raise_cap : (s.raise c p v).cap = s.cap := by rw [ledOnly_raise c p s v]
@[simp] theorem State.raise_cmp : (s.raise c p v).cmp = s.cmp := by rw [ledOnly_raise c p s v]
@[simp] theorem State.raise_home : (s.raise c p v).home = s.home := by rw [ledOnly_raise c p s v]
@[simp] theorem State.raise_pre : (s.raise c p v).pre = s.pre := by rw [ledOnly_raise c p s v]
@[simp] theorem State.raise_replies : (s.raise c p v).replies = s.replies := by rw [ledOnly_raise c p s v]
@[simp] theorem State.raise_survey : (s.raise c p v).survey = s.survey := by rw [ledOnly_raise c p s v]
@[simp] theorem State.raise_cars : (s.raise c p v).cars = s.cars := by rw [ledOnly_raise c p s v]
@[simp] theorem State.raise_doors : (s.raise c p v).doors = s.doors := by rw [ledOnly_raise c p s v]
@[simp] theorem State.raise_dsp : (s.raise c p v).dsp = s.dsp := by rw [ledOnly_raise c p s v]
@[simp] theorem State.raise_safe : (s.raise c p v).safe = s.safe := by rw [ledOnly_raise c p s v]
@[simp] theorem State.raise_time : (s.raise c p v).time = s.time := by rw [ledOnly_raise c p s v]
@[simp] theorem State.raise_fab : (s.raise c p v).fab = s.fab := by rw [ledOnly_raise c p s v]
@[simp] theorem State.raise_cons : (s.raise c p v).cons = s.cons := by rw [ledOnly_raise c p s v]
@[simp] theorem State.raise_xd : (s.raise c p v).xd = s.xd := by rw [ledOnly_raise c p s v]
@[simp] theorem State.raise_twin : (s.raise c p v).twin = s.twin := by rw [ledOnly_raise c p s v]
@[simp] theorem State.raise_purse : (s.raise c p v).purse = s.purse := by rw [ledOnly_raise c p s v]
@[simp] theorem State.raise_mode : (s.raise c p v).mode = s.mode := by rw [ledOnly_raise c p s v]
@[simp] theorem State.raise_stw : (s.raise c p v).stw = s.stw := by rw [ledOnly_raise c p s v]
@[simp] theorem State.raise_wake : (s.raise c p v).wake = s.wake := by rw [ledOnly_raise c p s v]
@[simp] theorem State.raise_win : (s.raise c p v).win = s.win := by rw [ledOnly_raise c p s v]
@[simp] theorem State.raise_pins : (s.raise c p v).pins = s.pins := by rw [ledOnly_raise c p s v]
@[simp] theorem State.raise_pub : (s.raise c p v).pub = s.pub := by rw [ledOnly_raise c p s v]

end

end Sys2Proof.Machine
end

