-- ==== Sys2Proof/Tests/Slice0.lean ====
section
/-! SUPPORT. The model's own tests: ill-formed commands refused, the worked examples of the specification, and for every
statement with hypotheses a state and operands that meet them. Where a hypothesis rests on a signature, a digest or an opened key,
which the model leaves uninterpreted (log entry 9), the witness takes that one fact as a premise. -/

namespace Sys2Proof.Tests

open Sys2Proof Sys2Proof.Machine

/-! ### Small states -/

/-- A cell of a field, by record. -/
def tc (f : Field) (i : Nat) (v : Int) (k : Nat := 0) : Cell := ⟨f.sec, f.rec0 + i, f.cellOff k 0, v⟩

/-- The reset state under a small waybill, its motion die running. -/
def conf (l : List Cell) : State := { State.reset with cfg := l, clk := { State.reset.clk with motionHeld := false } }

/-- A running Stage of epoch `e`, the third since Stages began. -/
def run0 (l : List Cell) (e : Nat) : State :=
  { conf l with stage := { running := true, epoch := e, len := 40000, boundaries := 3 } }

/-- A task record. -/
def tk (kind : Nat := 0) (waitEn : Bool := false) (srcKind : Nat := 0) (srcIx : Nat := 0) : Task :=
  { kernel := 1, prio := 0, budget := 1000, bound := 5000, kind := kind, waitEn := waitEn, srcKind := srcKind, srcIx := srcIx }

/-- One task in a Stage that runs, with where it stands, its record and its wait. -/
def oneTask (st : TaskStatus) (r : Task) (w : WaitEntry) : State :=
  { run0 [] 7 with
    graph := { tasks := [r], waits := [w] },
    disp := { started := true, tasks := [{ status := st, budget := 1000 }],
              lanes := [match st with | .running _ => some (.task 0) | _ => none, none] } }

/-- A pair member in STANDBY that has asked for a lease. -/
def pairReq : State :=
  { run0 [tc FABRIC.unit_id 0 7, tc FABRIC.pair_id 0 0x4001, tc TWIN.partner 0 9, tc TWIN.lease 0 100] 7 with
    twin := { st := 1, reqAt := some 0, reqCause := 1 } }

/-- One axis of kind 1 with its book, the part in Service and its outputs on. -/
def drv (l : List Cell) (x : Axis) (b : AxisBook := {}) : State :=
  { run0 ([tc CURRENT.kind 0 1] ++ l) 7 with
    ax := [x], book := [b], mode := { mode := 2, released := true },
    safe := { a := { effect := some { permit := true, torque := List.replicate 12 true } },
              b := { effect := some { permit := true, torque := List.replicate 12 true } } } }

/-- An axis that follows a move from rest to 1000. -/
def seg : Seg := { cmd := { cmd := 2, ends := [1000] }, len := 1000, start := [0] }

/-- A unit in service on a running trunk: port 0 up, unit 5 its neighbour. -/
def net (l : List Cell) (q : Peer := { unit := 5, boot := 3, heard := true, said := true, oper := true }) : State :=
  { run0 ([tc FABRIC.unit_id 0 7] ++ l) 7 with
    wake := { phase := 7, supply := true }, mode := { mode := 2, released := true }, purse := { t0 := true, t1 := true },
    fab := { ports := [{ up := true, peers := [q] }, {}] } }

/-- The collector of group 1 with these calls. -/
def coll (l : List CollCall) : State :=
  let s := net [tc DISPATCH.group 0 1, tc DISPATCH.mode 0 1, tc DISPATCH.collector 0 7]
  { s with dsp := { calls := l } }

/-- A call of group 1. -/
def tcall (id : Nat) : Call := { callId := id, group := 1, req := 7, kind := 1, from_ := 2, dest := 0 }

/-- A member of a pair in a state of R505. -/
def member (st : Nat) (tw : Twin := {}) (l : List Cell := []) : State :=
  { run0 ([tc FABRIC.unit_id 0 7, tc FABRIC.pair_id 0 0x4001, tc TWIN.partner 0 9] ++ l) 7 with
    twin := { tw with st := st }, mode := { mode := 2 } }

/-- An open round of a member whose bids are ready. -/
def trnd : Round :=
  { open_ := { call := tcall 3, tOpen := 0, lead := 100, slot := 10, window := 1000, collector := 5, attempt := 1 }, ready := true }

def tbid : Bid := { callId := 3, unit := 5, car := 1, cost := 10, eta := 20 }

/-- The hello of unit 5. -/
def thello : Frame :=
  { cls := 1, src := 5, type := 0x001, boot := 3, len := (msgBytes (.linkHello 5 3 0 0 [])).length, msg := .linkHello 5 3 0 0 []
    tag := zeros 16 }

/-- The unit with key 1, its neighbour's CREDIT without its tag. -/
def keyed : State := let s := net []; { s with fab := { s.fab with keyCur := 1, keys := [(1, [1, 2])] } }

def tcredit : Frame := { cls := 1, src := 5, type := 0x002, boot := 3, key := 1, len := (msgBytes .credit).length, msg := .credit }

/-- A SHADOW member that waits for a rebase, its copies complete. -/
def rebased : State := member 3 { rebase := some 5, items := List.replicate 32 { copy := some (9, []) } }

/-- A waybill that passes the section checks: one task, the mode kernel's, a unit ID and one interlock term. -/
def twb : Container :=
  { dir := [(1, 40), (0x65, 24), (0x80, 816)]
    cells := [tc INTERLOCK.n_terms 0 1, ⟨0x65, 0, 9, 1⟩, ⟨0x65, 0, 10, 0x18⟩, tc FABRIC.unit_id 0 7]
    graph := { tasks := [{ kernel := 1, prio := 0, budget := 1000, bound := 5000, bind := 12 }] } }

/-- A unit at a phase of its Waking with that waybill. -/
def waked (ph : Nat) : State :=
  { State.reset with wake := { phase := ph, supply := true, wb := twb }, cfg := twb.cells, graph := twb.graph,
                     kernels := [{ kernel := 1, minBudget := 100, serves := .mode }] }

/-- The octets of a signed object of owner 0 (or of `signer`), its digest zeros, and `sig` octets of signature. -/
def tdata (kind : Nat) (body : List Octet) (signer : Nat := 0) (sig : Nat := 29792) : List Octet :=
  [0x50, 0x59, 0x53, 0x4F, kind, signer, 0, 0] ++ zeros 8 ++ le 8 1 ++ le 4 body.length ++ zeros 4 ++ body ++ zeros 64 ++ zeros sig

/-- The object that its octets spell. -/
def tobj (d : List Octet) (sig : Nat := 29792) : Obj :=
  { kind := num d 4 1, signer := num d 5 1, device := sub d 8 8, seq := num d 0x10 8, body := sub d 0x20 (num d 0x18 4)
    signed := d.take (0x20 + num d 0x18 4), digest := sub d (0x20 + num d 0x18 4) 64
    signature := sub d (0x60 + num d 0x18 4) sig }

/-- The bodies of the objects of kinds 3 to 9 that the witnesses use. -/
def tbody (kind : Nat) : List Octet :=
  match kind with
  | 3 => zeros 64 ++ [1, 0] ++ zeros 6 ++ [0x12, 0, 3, 0, 3, 0, 1, 0] ++ [9] ++ zeros 7
  | 4 => [1] ++ zeros 1623
  | 5 => [1] ++ zeros 71
  | 7 => [2] ++ zeros 7
  | _ => [1] ++ zeros 7

def tasm (kind total : Nat) (d : List Octet) : Assembly :=
  { obj := 1, part := kind, total := total, next := total, data := d, src := 65536 }

/-- Halt, owner 0 active, with a complete object of this kind. -/
def holds (kind total : Nat) : State :=
  let a := some (tasm kind total (tdata kind (tbody kind)))
  let s := net []
  { s with
    mode := { mode := 6 }, wake := { s.wake with wb := { digest := zeros 64 } },
    stw := { owners := [{ state := 1 }, {}, {}, {}], slots := [{}, { state := if kind = 9 then 5 else 2 }],
             asm := if kind = 3 then [none, a, none] else [none, none, a] } }

/-- An object passes when the two functions that the model leaves uninterpreted say so. -/
theorem holds_passes (s : State) (o : Obj) (part : Nat) (hk : o.kind = part) (hdev : o.device = zeros 8) (hs : o.signer < 4)
    (hw : (nth s.stw.owners o.signer).state = 1) (hd : o.digestOk = true)
    (hv : Config.slhVerify (nth s.stw.owners o.signer).pk (withContext "PYRAD-OBJ" o.digest) o.signature = true)
    (hq : (nth s.stw.owners o.signer).lastSeq < o.seq) : s.objStatus part (some o) = 0 := by
  have h : ¬(4 ≤ o.signer) := by omega
  have h' : ¬(o.seq ≤ (nth s.stw.owners o.signer).lastSeq) := by omega
  simp [State.objStatus, hk, hdev, hw, hd, hv, h, h']

/-- A firmware container and a waybill container that pass but for their signatures. -/
def tfw : Container := { device := zeros 8, dir := [(0x8000, 0), (0x8001, 0), (0x8002, 0)] }
def twc : Container := { device := zeros 8, signer := 0 }

/-- An unsigned owner-key object passes on an unowned part when its digest is right. -/
theorem unsigned_passes (s : State) (o : Obj) (hw : s.owned = false) (hk : o.kind = 5) (hq : o.seq = 1)
    (hb : num o.body 0 1 = 0) (h0 : (nth s.stw.owners 0).state = 0) (hdev : o.device = s.devId) (hd : o.digestOk = true) :
    s.unsignedStatus 5 (some o) = 0 := by
  simp [State.unsignedStatus, hw, hk, hq, hb, h0, hdev, hd]

theorem tobj_reads (d : List Octet)
    (h : d.length = 0x60 + num d 0x18 4 + 29792 ∧ sub d 0 4 = [0x50, 0x59, 0x53, 0x4F] ∧ 3 ≤ num d 4 1 ∧ num d 4 1 ≤ 9 ∧
      isZero (sub d 6 2) ∧ isZero (sub d 0x1C 4) ∧ bodyOk (num d 4 1) (sub d 0x20 (num d 0x18 4))) :
    readObj false d = some (tobj d) := if_pos h

theorem tobj_reads_unsigned (d : List Octet)
    (h : d.length = 0x60 + num d 0x18 4 + 0 ∧ sub d 0 4 = [0x50, 0x59, 0x53, 0x4F] ∧ 3 ≤ num d 4 1 ∧ num d 4 1 ≤ 9 ∧
      isZero (sub d 6 2) ∧ isZero (sub d 0x1C 4) ∧ bodyOk (num d 4 1) (sub d 0x20 (num d 0x18 4))) :
    readObj true d = some (tobj d 0) := if_pos h

/-! ### Well-formedness: for each kind of operand, one that names nothing is refused -/

theorem test_wf_lane : (Instr.lockstepMismatch 0 2).wf = false := by decide
theorem test_wf_link : (Instr.heartbeatFlit 0 3).wf = false := by decide
theorem test_wf_axis : (Instr.release 12 0 0).wf = false := by decide
theorem test_wf_channel : (Instr.ssiFrameStart 0 16).wf = false := by decide
theorem test_wf_current : (Instr.accurateEstimate 0 36).wf = false := by decide
theorem test_wf_line : (Instr.quadConfirm 0 0 3).wf = false := by decide
theorem test_wf_din : (Instr.chatterEnd 0 64).wf = false := by decide
theorem test_wf_emu : (Instr.emuStep 0 4).wf = false := by decide
theorem test_wf_engine : (Instr.edgeFire 0 0 2).wf = false := by decide
theorem test_wf_half_bridge : (Instr.gateOn 0 0 4).wf = false := by decide
theorem test_wf_group : (Instr.pathStop 4 0 0).wf = false := by decide
theorem test_wf_capture : (Instr.captureAccept 0 16).wf = false := by decide
theorem test_wf_compare : (Instr.compareFire 0 8).wf = false := by decide
theorem test_wf_car : (Instr.rescue 0 4).wf = false := by decide
theorem test_wf_door : (Instr.nudgeTimer 0 8).wf = false := by decide
theorem test_wf_safe_in : (Instr.safetyInputChange 0 0 24 false true).wf = false := by decide
theorem test_wf_safe_out : (Instr.edmTimeout 0 23).wf = false := by decide
theorem test_wf_die : (Instr.safetyInputChange 0 2 0 false true).wf = false := by decide
theorem test_wf_sensor_die : (Instr.sensorDisagreement 0 3).wf = false := by decide
theorem test_wf_port : (Instr.helloSend 0 2).wf = false := by decide
theorem test_wf_connection : (Instr.safetyWatchdog 0 16).wf = false := by decide
theorem test_wf_bus : (Instr.busEnergy 0 4).wf = false := by decide
theorem test_wf_rail : (Instr.railLow 0 2).wf = false := by decide
theorem test_wf_source : (Instr.release 0 3 0).wf = false := by decide
theorem test_wf_wake_source : (Instr.lodgeWake 0 5 0).wf = false := by decide
theorem test_wf_event : (Instr.ledgerOccurrence 0 256 0 []).wf = false := by decide
theorem test_wf_severity : (Instr.ledgerOccurrence 0 0 5 []).wf = false := by decide
theorem test_wf_accepts : (Instr.gateOn 0 11 3).wf = true := by decide

/-! ### Worked examples of the specification -/

/-- What a command answers, where it answers a next state. -/
def after (c : Instr) (s : State) : State := match exec c s with | .next u => u | _ => s

/-- spec/03, ratio 2/3: Stages 3 to 5. -/
theorem test_ratio_carries :
    (rstep 1000001 2 3 2, rstep (-5) 2 3 0, rstep 5 2 3 2) = ((666668, 0), (-4, 2), (4, 0)) := by decide

/-- spec/03, AIN1 on a DC bus: x1, x2 and y. -/
theorem test_analogue_chain :
    ((({ conf [tc ANALOG.role 1 2, tc ANALOG.offset 1 640, tc ANALOG.gain 1 16844325] with
        trims := [{}, { foff := -12, fgain := 32850 }], t16 := 1040 }.ainTake 1 (List.replicate 16 21000)).ain.getD 1 default).x1,
     (({ conf [tc ANALOG.role 1 2, tc ANALOG.offset 1 640, tc ANALOG.gain 1 16844325] with
        trims := [{}, { foff := -12, fgain := 32850 }], t16 := 1040 }.ainTake 1 (List.replicate 16 21000)).ain.getD 1 default).y) =
      (5392533, 5413461) := by decide +kernel

/-- spec/04, FB3 on a hoist motor: the speed at the boundary and a Stage later. -/
theorem test_speed_of_edges :
    (let l : List SpeedEdge := [⟨100000, 983040, 1, 81920⟩, ⟨75400, 0, 1, 81920⟩, ⟨73900, -81920, 1, 81920⟩]
     (speedAt 25000 25000 20000000 101000 l, speedAt 25000 25000 20000000 126000 l)) = (65472062439, 5162220307) := by decide

/-- spec/04, the smallest SSI latch time of 25 bits at 5 MHz. -/
theorem test_ssi_latch_default : (conf [tc FB.kind 5 3, tc FB.ssi_bits 5 25, tc FB.ssi_div 5 40]).ssiLatch 5 = 2464 := by decide

/-- spec/07, engaging at 3/2 over 1,000 grains. -/
theorem test_gear_engages :
    ([300, 600, 900].map (engageY 1 3 2 1000)) = [67, 270, 607] := by decide

/-- spec/09, the target of CAR0 at landing 3. -/
theorem test_landing_target :
    ({ conf [tc LANDING.zone_lo 3 166513868800, tc LANDING.zone_hi 3 169030451200, tc LANDING.lc 3 (-1562500)] with
        cars := [{ loadKnown := true, y := 2097152, g := -33554432 }] }.stopTarget 0 3).1 = 167855714432 := by decide

/-- The unit of the dispatch example of spec/11. -/
def tdsp : State :=
  conf [tc CAR.axis 0 1, tc PROFILE.v_max 0 1677722, tc PROFILE.a1 0 5153961, tc PROFILE.d1 0 5153961,
        tc DISPATCH.balance 0 2097152, tc DISPATCH.k_pot 0 10045440, tc DISPATCH.k_run 0 3276800, tc DISPATCH.e_start 0 2000]

/-- spec/11: the flight over 6,000 mm, and the energies of the leg up. -/
theorem test_flight_and_energy :
    (tdsp.flight 0 100663296000, tdsp.legEnergy 0 0 100663296000) = (5083, (302000, 29430000)) := by decide +kernel

/-- spec/11: the bids of units 12 and 7. -/
theorem test_bid_costs :
    (tdsp.costOf 6083 0 0 302000 29430000 10000000 0, tdsp.costOf 6083 0 0 29732000 0 0 0) = (2147481978, 2147519674) := by
  decide +kernel

/-- The DSP_BID frame of the example of spec/12. -/
def tbidFrame : Frame :=
  { cls := 2, src := 12, dst := 3, type := 0x052, seq := 0xFFFFFFFF, boot := 0x17, epoch := 0x0A1B2C3D, hops := 64, key := 5
    credit := [0, 3, 7, 1], len := 24
    msg := .dspBid 0xC0105 0 [{ callId := 0xC0105, unit := 12, car := 0, cost := 2147481978, eta := 6083 }] }

theorem test_frame_bytes :
    (frameHeader tbidFrame, msgBytes tbidFrame.msg) =
      ([1, 2, 0, 0x0C, 0, 3, 0, 0x52, 0xFF, 0xFF, 0xFF, 0xFF, 0, 0x17, 0, 0, 0x0A, 0x1B, 0x2C, 0x3D, 0x40, 5, 3, 0x71, 0, 0x18,
        0, 0],
       [0, 0x0C, 1, 5, 1, 0, 0, 0, 0, 0x0C, 1, 5, 0, 0x0C, 0, 0, 0x7F, 0xFF, 0xF9, 0x7A, 0, 0, 0x17, 0xC3]) := by decide

/-- spec/12: the collector takes SEQ 0xFFFFFFFF, then 0, and no copy. -/
theorem test_sequences_wrap :
    ((seqAccept (some (0xFFFFFFFE, 1)) 0xFFFFFFFF).map (·.1), (seqAccept (some (0xFFFFFFFF, 3)) 0).map (·.1),
     seqAccept (some (0, 7)) 0xFFFFFFFF) = (some 0xFFFFFFFF, some 0, none) := by decide

/-- spec/14: the aged bank. -/
theorem test_aged_bank :
    (let s := { State.reset with purse := { cap := 1760, esr := 120 } }
     (s.eHoldOf 48000, s.pmaxOf 1741766, s.reserve 902)) = (1741766, 902, 1740640) := by decide

/-- spec/14: a Stage of Sprint at 48 steps above the reference temperature. -/
theorem test_sprint_charge :
    (({ run0 [] 7 with stage := { len := 25000 }, purse := { sprint := true, tj := 2048 } }).sprintCharge).purse.charged = 32508 := by
  decide +kernel

/-- spec/16: the pair of r0 16,441,672 at a life of 9 years. -/
theorem test_ageing :
    (let s := after (.ageingMeasurement 5 (List.replicate 20 (967700, 1000000))) State.reset
     ((nth s.stw.dies 0).d, (nth s.stw.dies 0).vreq, s.purse.allow)) = (12551, 785, 3952656000000000) := by decide +kernel

/-- spec/20: the body of the first request. -/
theorem test_window_request_bytes :
    msgBytes (.windowRead { req := 1, addr := 0x1A188, len := 8, at_ := true, atEpoch := 76800 }) =
      [0, 0, 0, 1, 0, 1, 0xA1, 0x88, 0, 8, 1, 0, 0, 0, 0, 1, 0x2C, 0, 0, 0] := by decide

/-- No word spells a command: the operations table gives no row any bits. -/
theorem test_no_words (n w : Nat) : decodeTableWord n w = none := rfl

/-- A step runs the front command and leaves the rest. -/
theorem test_step_front :
    (match step { State.reset with pending := [.rtcTick 5, .rtcTick 9] } with | .next u => (u.now, u.pending) | _ => (0, [])) =
      (5, [.rtcTick 9]) := by decide

/-! ### Witnesses -/

theorem test_witness_StepRunsFront :
    (∃ (s : State) (c : Instr) (cs : List Instr), (s.pending = c :: cs)) ∧
    (∃ (s : State), (s.pending = [])) :=
  ⟨⟨({ conf [] with pending := [.nevtAck 5 1, .supplyUp 6] }), (.nevtAck 5 1), [.supplyUp 6], by decide⟩,
   ⟨(conf []), by decide⟩⟩

theorem test_witness_QueueAndClock_QueueOnlyShortens :
    ∃ (s : State) (t : State), (step s = .next t) :=
  ⟨({ conf [] with pending := [.nevtAck 5 1] }), _, rfl⟩

theorem test_witness_QueueAndClock_ClockNeverGoesBack :
    ∃ (s : State) (t : State), (step s = .next t) :=
  ⟨({ conf [] with pending := [.nevtAck 5 1] }), _, rfl⟩

theorem test_witness_InvariantKept :
    ∃ (s : State) (t : State), (s.Inv) ∧ (step s = .next t) :=
  ⟨({ conf [] with pending := [.nevtAck 5 1] }), _, ⟨by decide, by decide⟩, rfl⟩

theorem test_witness_FieldsUntouched :
    ∃ (c : Instr) (s : State) (u : State) (x : Fld), (exec c s = .next u) ∧ (x ∉ writes c) :=
  ⟨(.nevtAck 5 1), (conf []), _, (.stw), rfl, by decide⟩

theorem test_witness_OthersUntouched :
    (∃ (c : Instr) (s : State) (u : State) (t : Nat) (ch : Nat) (j : Nat), (exec c s = .next u) ∧ (((∃ a b z,
     c = .quadTransition t ch a b z) ∨ (∃ l, c = .quadConfirm t ch l) ∨ c = .indexInstant t ch ∨ (∃ x y,
     c = .sincosSample t ch x y) ∨ c = .ssiFrameStart t ch ∨ (∃ w l h, c = .ssiWord t ch w l h) ∨ (∃ v,
     c = .ssiDelayMeasure t ch v))) ∧ (j ≠ ch)) ∧
    (∃ (c : Instr) (s : State) (u : State) (t : Nat) (i : Nat) (j : Nat), (exec c s = .next u) ∧ (((∃ v,
     c = .dinRawTransition t i v) ∨ c = .dinFilterStable t i ∨ c = .dinFirstLevel t i ∨ c = .chatterEnd t i)) ∧ (j ≠ i)) ∧
    (∃ (s : State) (u : State) (t : Nat) (e : Nat) (j : Nat), (exec (.emuStep t e) s = .next u) ∧ (j ≠ e)) ∧
    (∃ (s : State) (u : State) (k : Nat) (c : Nat) (v : Sample) (j : Nat),
     (exec (.modulatorBit k c v) s = .next u ∨ exec (.accurateEstimate k c) s = .next u) ∧ (j ≠ c)) ∧
    (∃ (s : State) (u : State) (k : Nat) (a : Nat) (e : Nat) (j : Nat),
     (exec (.edgeFire k a e) s = .next u ∨ exec (.gateOn k a e) s = .next u) ∧ (j ≠ a)) ∧
    (∃ (s : State) (u : State) (t : Nat) (i : Nat) (v : Bool) (j : Nat),
     (exec (.captureTransition t i v) s = .next u ∨ exec (.captureAccept t i) s = .next u) ∧ (j ≠ i)) ∧
    (∃ (s : State) (u : State) (t : Nat) (o : Nat) (j : Nat),
     (exec (.compareFire t o) s = .next u ∨ exec (.comparePulseEnd t o) s = .next u) ∧ (j ≠ o)) ∧
    (∃ (s : State) (u : State) (t : Nat) (d : Nat) (j : Nat),
     (exec (.doorHoldEnd t d) s = .next u ∨ exec (.nudgeTimer t d) s = .next u) ∧ (j ≠ d)) ∧
    (∃ (s : State) (u : State) (t : Nat) (k : Nat) (ok : Bool) (j : Nat),
     (exec (.heartbeatFlit t k) s = .next u ∨ exec (.flitCheckFail t k ok) s = .next u) ∧ (j ≠ k)) :=
  ⟨⟨(.quadTransition 5 2 true false false), (conf [tc FB.kind 2 1]), _, 5, 2, 3, rfl, Or.inl ⟨true, false, false, rfl⟩,
   by decide⟩,
   ⟨(.dinRawTransition 5 2 true), (conf []), _, 5, 2, 3, rfl, Or.inl ⟨true, rfl⟩, by decide⟩,
   ⟨({ conf [] with emu := [{ backlog := 2, stepsLeft := 2, spacing := 8 }, {}] }), _, 8, 0, 1, rfl, by decide⟩,
   ⟨(conf [tc CURRENT.form 0 1]), _, 3, 0, { rising := true, bit := some true }, 1, Or.inl rfl, by decide⟩,
   ⟨(conf []), _, 3, 0, 0, 1, Or.inl rfl, by decide⟩,
   ⟨(conf [tc CAPTURE.mode 2 1]), _, 9, 2, true, 1, Or.inl rfl, by decide⟩,
   ⟨(conf []), _, 9, 0, 1, Or.inl rfl, by decide⟩,
   ⟨(conf []), _, 9, 0, 1, Or.inl rfl, by decide⟩,
   ⟨(conf []), _, 9, 0, true, 1, Or.inl rfl, by decide⟩⟩

theorem test_witness_FlashAndFusesKept :
    (∃ (c : Instr) (s : State) (u : State), (exec c s = .next u) ∧ (s.stw.kill = true)) ∧
    (∃ (c : Instr) (s : State) (u : State) (k : Nat), (exec c s = .next u) ∧ ((nth s.stw.owners k).state ≤ 3)) :=
  ⟨⟨(.nevtAck 5 1), { conf [] with stw := { kill := true } }, _, rfl, by decide⟩,
   ⟨(.nevtAck 5 1), (conf []), _, 0, rfl, by decide⟩⟩

theorem test_witness_ActiveOnlyByLease :
    ∃ (c : Instr) (s : State) (u : State), (exec c s = .next u) ∧ (s.twin.st ≠ 2) ∧ (u.twin.st = 2) :=
  ⟨(.leaseGrant 5 0x4001 7 9 0 100 0 7), pairReq, _, rfl, by decide, by decide⟩

theorem test_witness_EpochsOfStages :
    (∃ (s : State), (s.stage.running = true) ∧ (s.stage.epoch = 0xFFFFFFFFFFFF)) ∧
    (∃ (s : State), (s.stage.running = true) ∧ (s.stage.epoch ≠ 0xFFFFFFFFFFFF)) ∧
    (∃ (s : State) (t : State), (s.stage.running = true) ∧ (s.stage.epoch < 0xFFFFFFFFFFFF) ∧ (step s = .next t) ∧
     (t.stage.running = true)) :=
  ⟨⟨(run0 [] 0xFFFFFFFFFFFF), by decide, by decide⟩,
   ⟨(run0 [] 7), by decide, by decide⟩,
   ⟨({ run0 [] 7 with pending := [.nevtAck 5 1] }), _, by decide, by decide, rfl, by decide⟩⟩

theorem test_witness_BoundaryOpensStage :
    (∃ (s : State), (s.stage.running = true) ∧ (s.stage.epoch = 0xFFFFFFFFFFFF)) ∧
    (∃ (s : State), (s.stage.running = true) ∧ (s.stage.epoch ≠ 0xFFFFFFFFFFFF)) :=
  ⟨⟨(run0 [] 0xFFFFFFFFFFFF), by decide, by decide⟩,
   ⟨(run0 [] 7), by decide, by decide⟩⟩

theorem test_witness_BoundaryOpensStage_BoundaryNotices :
    ∃ (s : State) (io : NoticeInputs), (s.stage.running = true) ∧ (s.stage.epoch ≠ 0xFFFFFFFFFFFF) ∧
     ((nth s.links 0).failed = false) ∧ (s.stage.noticed ≠ some s.stage.boundaries) ∧ (max s.now io.t ≤ s.stage.openedAt + 400) :=
  ⟨(run0 [] 7), { t := 400, hold := 20000, draw := 3000 }, by decide, by decide, by decide, by decide, by decide⟩

theorem test_witness_FreeRunningStages :
    ∃ (s : State), (s.stage.running = true) ∧ (s.nat STAGE.align = 1) :=
  ⟨(run0 [tc STAGE.align 0 1] 7), by decide, by decide⟩

theorem test_witness_GraphStartAndCutoff :
    (∃ (s : State), (s.stage.running = true) ∧ (s.stage.closed = false) ∧ (s.disp.started = false) ∧
     (s.mode.lanesOff = false) ∧ (s.stage.epoch ≠ 0xFFFFFFFFFFFF)) ∧
    (∃ (s : State) (t : Nat), (s.stage.running = true) ∧ (s.stage.closed = false) ∧ (s.stage.epoch ≠ 0xFFFFFFFFFFFF) ∧
     (s.stage.openedAt + s.stage.len - 64 ≤ t)) :=
  ⟨⟨(run0 [] 7), by decide, by decide, by decide, by decide, by decide⟩,
   ⟨(run0 [] 7), 39936, by decide, by decide, by decide, by decide⟩⟩

theorem test_witness_ActivationsEnd_CompletionCommits :
    (∃ (s : State) (c : State) (t : Nat) (lane : Nat) (cyc : Nat) (i : Nat), (c = (s.tick t).comeTo) ∧
     (c.laneOf lane = some (.task i)) ∧ (i < c.disp.tasks.length) ∧ (c.laneDead lane = false) ∧ (c.stage.closed = false) ∧
     (c.now ≤ c.cutoff) ∧ (cyc ≤ (c.taskRec i).budget) ∧ ((c.run i).cancel = false)) ∧
    (∃ (s : State) (c : State) (t : Nat) (lane : Nat) (i : Nat), (c = (s.tick t).comeTo) ∧ (c.laneOf lane = some (.task i)) ∧
     (i < c.disp.tasks.length) ∧ (c.laneDead lane = false) ∧ (c.budgetOf (.task i) ≤ c.sinceRun (.task i) c.now)) :=
  ⟨⟨(oneTask (.running 0) (tk) { wkind := 1, deadline := 100 }), ((((oneTask (.running 0) (tk) { wkind := 1, deadline := 100 }).tick 5).comeTo)),
   5, 0, 100, 0, rfl, by decide, by decide, by decide, by decide, by decide, by decide, by decide⟩,
   ⟨(let s := oneTask (.running 0) (tk) { wkind := 1, deadline := 100 }; { s with disp := { s.disp with selAt := 1199 } }),
   (((let s := oneTask (.running 0) (tk) { wkind := 1, deadline := 100 };
   ({ s with disp := { s.disp with selAt := 1199 } } : State)).tick 1200).comeTo), 1200, 0, 0, rfl, by decide, by decide,
   by decide, by decide⟩⟩

theorem test_witness_ActivationsEnd_CancelRequest :
    (∃ (s : State) (c : State) (t : Nat) (i : Nat), (c = (s.tick t).comeTo) ∧ (i < c.disp.tasks.length) ∧
     (((c.run i).status.inService = false → ∀ l, c.laneOf l ≠ some (.task i))) ∧ ((c.run i).status = .ready)) ∧
    (∃ (s : State) (c : State) (t : Nat) (i : Nat), (c = (s.tick t).comeTo) ∧ (i < c.disp.tasks.length) ∧
     (((c.run i).status.inService = false → ∀ l, c.laneOf l ≠ some (.task i))) ∧ ((c.run i).status.inService = true)) ∧
    (∃ (s : State) (c : State) (t : Nat) (i : Nat), (c = (s.tick t).comeTo) ∧ (i < c.disp.tasks.length) ∧
     (((c.run i).status.inService = false → ∀ l, c.laneOf l ≠ some (.task i))) ∧ ((c.run i).status = .completed)) :=
  ⟨⟨(oneTask .ready (tk) { wkind := 1, deadline := 100 }), ((((oneTask .ready (tk) { wkind := 1, deadline := 100 }).tick 0).comeTo)),
   0, 0, rfl, by decide,
   fun _ l => match l with | 0 => by decide | 1 => by decide | _ + 2 => (nofun : (none : Option Work) ≠ some (.task 0)),
   by decide⟩,
   ⟨(oneTask (.running 0) (tk) { wkind := 1, deadline := 100 }), ((((oneTask (.running 0) (tk) { wkind := 1, deadline := 100 }).tick 5).comeTo)),
   5, 0, rfl, by decide, fun h => absurd h (by decide), by decide⟩,
   ⟨(oneTask .completed (tk) { wkind := 1, deadline := 100 }), ((((oneTask .completed (tk) { wkind := 1, deadline := 100 }).tick 5).comeTo)),
   5, 0, rfl, by decide,
   fun _ l => match l with | 0 => by decide | 1 => by decide | _ + 2 => (nofun : (none : Option Work) ≠ some (.task 0)),
   by decide⟩⟩

theorem test_witness_WaitsAndSpawns_WaitsResolve :
    (∃ (s : State) (c : State) (t : Nat) (k : Nat) (x : Nat) (i : Nat), (c = (s.tick t).comeTo) ∧ (i < c.graph.tasks.length) ∧
     (i < c.disp.tasks.length) ∧ ((c.taskRec i).waitEn = true) ∧ ((c.waitOf i).wkind = k) ∧ ((c.waitOf i).wix = x) ∧ (k ≠ 4) ∧
     ((∀ l, c.laneOf l ≠ some (.task i)))) ∧
    (∃ (s : State) (c : State) (t : Nat) (i : Nat), (c = (s.tick t).comeTo) ∧ (i < c.disp.tasks.length) ∧
     ((c.taskRec i).waitEn = true) ∧ ((c.run i).status = .waiting) ∧ ((c.run i).latch = false) ∧
     ((c.run i).deadlinePassed = false) ∧ ((c.run i).marked = false) ∧ (c.stage.openedAt + (c.waitOf i).deadline ≤ c.now) ∧
     ((c.waitOf i).wkind = 4)) ∧
    (∃ (s : State) (c : State) (t : Nat) (i : Nat), (c = (s.tick t).comeTo) ∧ (i < c.disp.tasks.length) ∧
     ((c.taskRec i).waitEn = true) ∧ ((c.run i).status = .waiting) ∧ ((c.run i).latch = false) ∧
     ((c.run i).deadlinePassed = false) ∧ ((c.run i).marked = false) ∧ (c.stage.openedAt + (c.waitOf i).deadline ≤ c.now) ∧
     ((c.waitOf i).wkind ≠ 4) ∧ ((c.waitOf i).onto = false)) :=
  ⟨⟨(oneTask .waiting (tk (waitEn := true)) { wkind := 1, wix := 5, deadline := 100 }),
   ((((oneTask .waiting (tk (waitEn := true)) { wkind := 1, wix := 5, deadline := 100 }).tick 5).comeTo)), 5, 1, 5, 0, rfl,
   by decide, by decide, by decide, by decide, by decide, by decide,
   fun l => match l with | 0 => by decide | 1 => by decide | _ + 2 => (nofun : (none : Option Work) ≠ some (.task 0))⟩,
   ⟨(let s := oneTask .waiting (tk (waitEn := true)) { wkind := 4, deadline := 100 };
   { s with disp := { s.disp with selAt := 99 } }), (((let s := oneTask .waiting (tk (waitEn := true)) { wkind := 4, deadline := 100 };
   ({ s with disp := { s.disp with selAt := 99 } } : State)).tick 100).comeTo), 100, 0, rfl, by decide, by decide, by decide,
   by decide, by decide, by decide, by decide, by decide⟩,
   ⟨(let s := oneTask .waiting (tk (waitEn := true)) { wkind := 1, deadline := 100 };
   { s with disp := { s.disp with selAt := 99 } }), (((let s := oneTask .waiting (tk (waitEn := true)) { wkind := 1, deadline := 100 };
   ({ s with disp := { s.disp with selAt := 99 } } : State)).tick 100).comeTo), 100, 0, rfl, by decide, by decide, by decide,
   by decide, by decide, by decide, by decide, by decide, by decide⟩⟩

theorem test_witness_WaitsAndSpawns_SpawnAccepted :
    (∃ (s : State) (i : Nat), ((s.taskRec i).kind = 1) ∧ ((s.taskRec i).srcKind = 2) ∧ (s.disp.creditsOut < s.freeEntries)) ∧
    (∃ (s : State) (i : Nat), ((s.taskRec i).kind = 1) ∧ ((s.taskRec i).srcKind = 2) ∧ (s.freeEntries ≤ s.disp.creditsOut)) ∧
    (∃ (s : State) (src : Nat) (i : Nat), (s.spawnTask 3 src = some i) ∧ (s.disp.creditsOut < s.freeEntries)) ∧
    (∃ (s : State) (src : Nat) (i : Nat), (s.spawnTask 3 src = some i) ∧ (s.freeEntries ≤ s.disp.creditsOut)) :=
  ⟨⟨(oneTask .idle (tk (kind := 1) (srcKind := 2)) { wkind := 1, deadline := 100 }), 0, by decide, by decide, by decide⟩,
   ⟨{ oneTask .idle (tk (kind := 1) (srcKind := 2)) { wkind := 1, deadline := 100 } with disp := { creditsOut := 256 } }, 0,
   by decide, by decide, by decide⟩,
   ⟨(oneTask .idle (tk (kind := 1) (srcKind := 3) (srcIx := 9)) { wkind := 1, deadline := 100 }), 9, 0, by decide, by decide⟩,
   ⟨{ oneTask .idle (tk (kind := 1) (srcKind := 3) (srcIx := 9)) { wkind := 1, deadline := 100 } with disp := { creditsOut := 256 } },
   9, 0, by decide, by decide⟩⟩

theorem test_witness_Supervision :
    (∃ (s : State) (k : Nat), (k < s.links.length) ∧ ((nth s.links k).failed = false)) ∧
    (∃ (s : State) (k : Nat), (k < s.links.length) ∧ ((nth s.links k).failed = false)) ∧
    (∃ (s : State) (t : Nat) (k : Nat), (k < 3) ∧ (k < s.links.length) ∧ ((nth s.links k).failed = false) ∧
     ((nth s.links k).lastFlit + 1600 ≤ t)) ∧
    (∃ (s : State) (khz : Nat), (s.clk.edgeFault = false) ∧ (s.clk.motionHeld = false) ∧ ((khz < 388000 ∨ 412000 < khz))) ∧
    (∃ (s : State), (s.clk.edgeFault = false)) ∧
    (∃ (s : State) (mhz : Nat), (s.clk.rtcFault = false) ∧ ((mhz < 31129600 ∨ 34406400 < mhz))) ∧
    (∃ (s : State) (l : Nat), (l < 2) ∧ (s.clk.laneStopped.length = 2) ∧ (s.clk.laneStopped.getD l false = false)) :=
  ⟨⟨(conf []), 2, by decide, by decide⟩,
   ⟨(conf []), 2, by decide, by decide⟩,
   ⟨(conf []), 1600, 2, by decide, by decide, by decide, by decide⟩,
   ⟨{ conf [] with clk := { motionHeld := false } }, 387999, by decide, by decide, by decide⟩,
   ⟨(conf []), by decide⟩,
   ⟨(conf []), 31129599, by decide, by decide⟩,
   ⟨(conf []), 1, by decide, by decide, by decide⟩⟩

theorem test_witness_QuadratureAndSsiDelay :
    (∃ (s : State) (ch : Nat) (a : Bool) (b : Bool), (ch < 16) ∧ (ch < s.fb.length) ∧ (s.fbOff = false) ∧
     (s.clk.motionHeld = false) ∧ ((s.nat FB.kind ch = 1 ∨ s.nat FB.kind ch = 2)) ∧ (((s.fbOf ch).a, (s.fbOf ch).b, a,
     b) ∈ [(false, false, true, false), (true, false, true, true), (true, true, false, true), (false, true, false, false)])) ∧
    (∃ (s : State) (ch : Nat) (a : Bool) (b : Bool), (ch < 16) ∧ (ch < s.fb.length) ∧ (s.fbOff = false) ∧
     (s.clk.motionHeld = false) ∧ ((s.nat FB.kind ch = 1 ∨ s.nat FB.kind ch = 2)) ∧ (((s.fbOf ch).a, (s.fbOf ch).b, a,
     b) ∈ [(true, false, false, false), (true, true, true, false), (false, true, true, true), (false, false, false, true)])) ∧
    (∃ (s : State) (ch : Nat) (v : List (Option Nat)), (s.clk.motionHeld = false) ∧ (ch < s.fb.length) ∧
     (s.nat FB.kind ch = 3) ∧ (v.length = 16) ∧ ((s.fbOf ch).fault = false) ∧
     ((none ∈ v ∨ 400 < ((sortNat (v.filterMap id)).getD 7 0 + (sortNat (v.filterMap id)).getD 8 0 + 1) / 2))) :=
  ⟨⟨(conf [tc FB.kind 15 1]), 15, true, false, by decide, by decide, by decide, by decide, by decide, by decide⟩,
   ⟨(conf [tc FB.kind 15 2]), 15, false, true, by decide, by decide, by decide, by decide, by decide, by decide⟩,
   ⟨(conf [tc FB.kind 15 3]), 15, (List.replicate 15 (some 10) ++ [none]), by decide, by decide, by decide, by decide,
   by decide, by decide⟩⟩

theorem test_witness_FeedbackChannels_QuadratureCounts :
    (∃ (s : State) (ch : Nat) (a : Bool) (b : Bool), (ch < 16) ∧ (ch < s.fb.length) ∧ (s.fbOff = false) ∧
     (s.clk.motionHeld = false) ∧ ((s.nat FB.kind ch = 1 ∨ s.nat FB.kind ch = 2)) ∧ ((s.fbOf ch).a ≠ a) ∧ ((s.fbOf ch).b = b)) ∧
    (∃ (s : State) (ch : Nat) (a : Bool) (b : Bool), (ch < 16) ∧ (ch < s.fb.length) ∧ (s.fbOff = false) ∧
     (s.clk.motionHeld = false) ∧ ((s.nat FB.kind ch = 1 ∨ s.nat FB.kind ch = 2)) ∧ ((s.fbOf ch).a = a) ∧ ((s.fbOf ch).b ≠ b)) ∧
    (∃ (s : State) (ch : Nat) (a : Bool) (b : Bool), (ch < 16) ∧ (ch < s.fb.length) ∧ (s.fbOff = false) ∧
     (s.clk.motionHeld = false) ∧ ((s.nat FB.kind ch = 1 ∨ s.nat FB.kind ch = 2)) ∧ ((s.fbOf ch).a ≠ a) ∧ ((s.fbOf ch).b ≠ b)) ∧
    (∃ (s : State) (ch : Nat) (a : Bool) (b : Bool), (ch < 16) ∧ (ch < s.fb.length) ∧ (s.fbOff = false) ∧
     (s.clk.motionHeld = false) ∧ ((s.nat FB.kind ch = 1 ∨ s.nat FB.kind ch = 2)) ∧ ((s.fbOf ch).a = a) ∧ ((s.fbOf ch).b = b)) ∧
    (∃ (s : State) (ch : Nat) (j : Nat), (ch < 16) ∧ (ch < s.fb.length) ∧ (s.fbOff = false) ∧ (s.clk.motionHeld = false) ∧
     ((s.nat FB.kind ch = 1 ∨ s.nat FB.kind ch = 2)) ∧ (j ≠ ch)) :=
  ⟨⟨(conf [tc FB.kind 15 1]), 15, true, false, by decide, by decide, by decide, by decide, by decide, by decide, by decide⟩,
   ⟨(conf [tc FB.kind 0 1]), 0, false, true, by decide, by decide, by decide, by decide, by decide, by decide, by decide⟩,
   ⟨(conf [tc FB.kind 0 2]), 0, true, true, by decide, by decide, by decide, by decide, by decide, by decide, by decide⟩,
   ⟨(conf [tc FB.kind 0 1]), 0, false, false, by decide, by decide, by decide, by decide, by decide, by decide, by decide⟩,
   ⟨(conf [tc FB.kind 0 1]), 0, 15, by decide, by decide, by decide, by decide, by decide, by decide⟩⟩

theorem test_witness_FeedbackChannels_ConfirmedTransition :
    (∃ (s : State) (t : Nat) (ch : Nat) (e : RawEdge), (ch < s.fb.length) ∧ (s.clk.motionHeld = false) ∧
     (s.nat FB.kind ch = 1) ∧ ((s.fbOf ch).fault = false) ∧ ((s.fbOf ch).pendingEdges = [e]) ∧
     (e.t + s.nat FB.min_edge ch ≤ t) ∧ (e.line = 2)) ∧
    (∃ (s : State) (t : Nat) (ch : Nat) (e : RawEdge), (ch < s.fb.length) ∧ (s.clk.motionHeld = false) ∧
     (s.nat FB.kind ch = 1) ∧ ((s.fbOf ch).fault = false) ∧ ((s.fbOf ch).pendingEdges = [e]) ∧
     (e.t + s.nat FB.min_edge ch ≤ t) ∧ (e.line ≠ 2) ∧ ((e.step = 1 ∨ e.step = -1)) ∧ ((s.fbOf ch).count < s.cpr ch)) :=
  ⟨⟨({ conf [tc FB.kind 0 1] with fb := [{ pendingEdges := [{ line := 2, t := 5, step := 0, level := true }] }] }), 13, 0,
   { line := 2, t := 5, step := 0, level := true }, by decide, by decide, by decide, by decide, by decide, by decide, by decide⟩,
   ⟨({ conf [tc FB.kind 0 1, tc FB.cpr 0 4000] with fb := [{ count := 3999, pendingEdges := [{ line := 0, t := 5, step := 1, level := true }] }] }),
   13, 0, { line := 0, t := 5, step := 1, level := true }, by decide, by decide, by decide, by decide, by decide, by decide,
   by decide, by decide, by decide⟩⟩

theorem test_witness_FeedbackChannels_IndexInstant :
    ∃ (s : State) (ch : Nat) (e : RawEdge), (ch < s.fb.length) ∧ (s.clk.motionHeld = false) ∧
     ((s.fbOf ch).pendingEdges = []) ∧ ((s.fbOf ch).zEdge = some e) ∧ (s.flag FB.flags 0 ch = true) ∧
     ((s.fbOf ch).fault = false) ∧ (((e.level = true ∧ e.step = 1) ∨ (e.level = false ∧ e.step = -1))) ∧
     ((s.fbOf ch).indexSeen = false) :=
  ⟨({ conf [tc FB.kind 0 1, tc FB.flags 0 1] with fb := [{ lastRawDir := 1, zEdge := some { line := 2, t := 5, step := 1, level := true, x := 77, p := 9 } }] }),
   0, { line := 2, t := 5, step := 1, level := true, x := 77, p := 9 }, by decide, by decide, by decide, by decide, by decide,
   by decide, by decide, by decide⟩

theorem test_witness_AnalogueAndSerialChannels_SineCosineSample :
    (∃ (s : State) (ch : Nat) (si : Int) (co : Int),
     let m := ampOf (s.sinCosVec ch (trimCode (nth s.scTrims ch).1 si) (trimCode (nth s.scTrims ch).2 co)); (ch < 16) ∧
     (ch < s.fb.length) ∧ (s.fbOff = false) ∧ (s.clk.motionHeld = false) ∧ (s.nat FB.kind ch = 2) ∧ (s.inWindow ch m = true)) ∧
    (∃ (s : State) (ch : Nat) (si : Int) (co : Int),
     let m := ampOf (s.sinCosVec ch (trimCode (nth s.scTrims ch).1 si) (trimCode (nth s.scTrims ch).2 co)); (ch < 16) ∧
     (ch < s.fb.length) ∧ (s.fbOff = false) ∧ (s.clk.motionHeld = false) ∧ (s.nat FB.kind ch = 2) ∧ (s.inWindow ch m = false) ∧
     (s.nat FB.amp_samples ch ≤ (s.fbOf ch).outRun + 1)) :=
  ⟨⟨(conf [tc FB.kind 0 2]), 0, 0, 16384, by decide, by decide, by decide, by decide, by decide, by decide⟩,
   ⟨({ conf [tc FB.kind 0 2] with fb := [{ outRun := 3 }] }), 0, 0, 1000, by decide, by decide, by decide, by decide,
   by decide, by decide, by decide⟩⟩

theorem test_witness_AnalogueAndSerialChannels_SsiChannel :
    (∃ (s : State) (t : Nat) (ch : Nat), (ch < s.fb.length) ∧ (s.nat FB.kind ch = 3) ∧ (s.fbOff = false) ∧
     (s.stage.running = true) ∧ (t + s.ssiLatch ch = s.nextBoundary)) ∧
    (∃ (s : State) (ch : Nat) (word : Nat) (t0 : Nat) (low : Bool) (high : Bool), (ch < s.fb.length) ∧
     (s.clk.motionHeld = false) ∧ ((s.fbOf ch).ssiStart = some t0) ∧ (s.ssiCheck ch word low high = 0) ∧
     ((s.fbOf ch).fault = false)) ∧
    (∃ (s : State) (ch : Nat) (word : Nat) (t0 : Nat) (low : Bool) (high : Bool), (ch < s.fb.length) ∧
     (s.clk.motionHeld = false) ∧ ((s.fbOf ch).ssiStart = some t0) ∧ (s.ssiCheck ch word low high ≠ 0) ∧
     (3 ≤ (s.fbOf ch).ssiRejects + 1)) ∧
    (∃ (s : State) (ch : Nat) (v : List Nat), let d := ((sortNat v).getD 7 0 + (sortNat v).getD 8 0 + 1) / 2;
     (ch < s.fb.length) ∧ (s.clk.motionHeld = false) ∧ (s.nat FB.kind ch = 3) ∧ (v.length = 16) ∧ (d ≤ 400)) ∧
    (∃ (s : State) (ch : Nat) (v : List Nat), let d := ((sortNat v).getD 7 0 + (sortNat v).getD 8 0 + 1) / 2;
     (ch < s.fb.length) ∧ (s.clk.motionHeld = false) ∧ (s.nat FB.kind ch = 3) ∧ (v.length = 16) ∧ (400 < d)) :=
  ⟨⟨(run0 [tc FB.kind 15 3] 7), (40000 - (run0 [tc FB.kind 15 3] 7).ssiLatch 15), 15, by decide, by decide, by decide,
   by decide, by decide⟩,
   ⟨({ conf [tc FB.kind 0 3] with fb := [{ ssiStart := some 5 }] }), 0, 1234, 5, false, false, by decide, by decide, by decide,
   by decide, by decide⟩,
   ⟨({ conf [tc FB.kind 0 3] with fb := [{ ssiStart := some 5, ssiRejects := 2 }] }), 0, 1234, 5, true, false, by decide,
   by decide, by decide, by decide, by decide⟩,
   ⟨(conf [tc FB.kind 0 3]), 0, (List.replicate 16 400), by decide, by decide, by decide, by decide, by decide⟩,
   ⟨(conf [tc FB.kind 0 3]), 0, (List.replicate 16 401), by decide, by decide, by decide, by decide, by decide⟩⟩

theorem test_witness_InputsAndEmulators_DiscreteInput :
    (∃ (s : State) (i : Nat) (lv : Bool) (j : Nat), (s.clk.motionHeld = false) ∧ (i < 64) ∧ (i < s.din.length) ∧
     ((s.dinOf i).ball ≠ lv) ∧ (j ≠ i)) ∧
    (∃ (s : State) (t : Nat) (i : Nat), (s.clk.motionHeld = false) ∧ (i < 64) ∧ (i < s.din.length) ∧
     ((s.dinOf i).first = true) ∧ ((s.dinOf i).chatter = false) ∧ ((s.dinOf i).lastT + s.nat DIN.stable i ≤ t + 1) ∧
     ((s.dinOf i).filt ≠ s.dinRaw i)) ∧
    (∃ (s : State) (t : Nat) (i : Nat), (s.clk.motionHeld = false) ∧ (i < s.din.length) ∧ ((s.dinOf i).first = false) ∧
     ((s.dinOf i).chatter = false) ∧ ((s.dinOf i).lastT + s.nat DIN.stable i ≤ t + 1)) ∧
    (∃ (s : State) (t : Nat) (i : Nat), (s.clk.motionHeld = false) ∧ (i < s.din.length) ∧ ((s.dinOf i).chatter = true) ∧
     ((s.dinOf i).lastT + s.nat DIN.chatter_win i ≤ t)) :=
  ⟨⟨(conf []), 63, true, 0, by decide, by decide, by decide, by decide, by decide⟩,
   ⟨({ conf [] with din := [{ ball := true, first := true, lastT := 5 }] }), 800004, 0, by decide, by decide, by decide,
   by decide, by decide, by decide, by decide⟩,
   ⟨({ conf [] with din := [{ ball := true, lastT := 5 }] }), 800004, 0, by decide, by decide, by decide, by decide, by decide⟩,
   ⟨({ conf [] with din := [{ chatter := true, lastT := 5, times := [1, 2] }] }), 40000005, 0, by decide, by decide, by decide,
   by decide⟩⟩

theorem test_witness_InputsAndEmulators_EmulatorStep :
    ∃ (s : State) (t : Nat) (e : Nat), (s.clk.motionHeld = false) ∧ (e < s.emu.length) ∧ ((nth s.emu e).stepsLeft ≠ 0) ∧
     ((nth s.emu e).fault = false) ∧ (s.stage.openedAt + ((nth s.emu e).stepsDone + 1) * (nth s.emu e).spacing ≤ t) :=
  ⟨({ conf [] with emu := [{ backlog := -2, stepsLeft := 2, stepsDone := 1, spacing := 8 }] }), 16, 0, by decide, by decide,
   by decide, by decide, by decide⟩

theorem test_witness_EstimatesTicksAndEdges_CurrentEstimates :
    (∃ (s : State) (c : Nat) (rise : Bool), (s.clk.motionHeld = false) ∧ (c < 36) ∧ (c < s.ch.length) ∧
     (s.nat CURRENT.form c ≠ 0) ∧ ((s.nat CURRENT.form c = 1 → rise = true)) ∧ ((s.nat CURRENT.form c = 2 → rise = false))) ∧
    (∃ (s : State) (c : Nat), (s.clk.motionHeld = false) ∧ (c < s.ch.length) ∧ ((s.chOf c).n ≠ 0) ∧
     ((s.chOf c).n % 2 ^ s.nat CURRENT.osr_log2 c = 0) ∧ ((s.chOf c).n ≠ (s.chOf c).accN)) :=
  ⟨⟨(conf [tc CURRENT.form 35 1]), 35, true, by decide, by decide, by decide, by decide, by decide, by decide⟩,
   ⟨({ conf [tc CURRENT.form 0 1] with ch := [{ n := 128, bits := List.replicate 130 1, times := [128] }] }), 0, by decide,
   by decide, by decide, by decide, by decide⟩⟩

theorem test_witness_EstimatesTicksAndEdges_AngleTick :
    ∃ (s : State) (k : Nat) (a : Nat), (s.stage.running = true) ∧ (400 * k < s.stage.len) ∧ (a < 12) ∧ (a < s.cax.length) ∧
     (kindEngs (s.kind a) ≠ 0) ∧ ((s.caxOf a).nextTick = k) :=
  ⟨(run0 [tc CURRENT.kind 0 1] 7), 0, 0, by decide, by decide, by decide, by decide, by decide, by decide⟩

theorem test_witness_EstimatesTicksAndEdges_EdgesAndGates :
    (∃ (s : State) (k : Nat) (a : Nat) (e : Nat) (sc : Sched), (s.clk.motionHeld = false) ∧ (a < s.cax.length) ∧
     (e < (s.caxOf a).engs.length) ∧ ((s.caxOf a).active = true) ∧ ((s.engOf a e).sched = some sc) ∧ (sc.t ≤ k)) ∧
    (∃ (s : State) (k : Nat) (a : Nat) (hb : Nat) (t : Nat), (s.clk.motionHeld = false) ∧ (a < s.cax.length) ∧ (hb < 4) ∧
     (hb < (s.caxOf a).brs.length) ∧ ((nth (s.caxOf a).brs hb).onAt = some t) ∧ (t ≤ k)) :=
  ⟨⟨({ conf [] with cax := [{ active := true, engs := [{ sched := some { t := 100, p := 3 } }] }] }), 100, 0, 0, { t := 100, p := 3 },
   by decide, by decide, by decide, by decide, by decide, by decide⟩,
   ⟨({ conf [] with cax := [{ brs := [{ level := true, onAt := some 90 }] }] }), 100, 0, 0, 90, by decide, by decide,
   by decide, by decide, by decide, by decide⟩⟩

theorem test_witness_CurrentFaultsAndOffsets_CurrentFaults :
    (∃ (s : State) (k : Nat) (c : Nat) (a : Nat), (s.clk.motionHeld = false) ∧ (s.claimOf c = some a) ∧ (c < s.ch.length) ∧
     (a < s.cax.length) ∧ (bit (s.chOf c).causes 3 = false) ∧ ((s.chOf c).times.headD 0 + 3200 ≤ k)) ∧
    (∃ (s : State) (t : Nat) (a : Nat) (hb : Nat) (high : Bool), (s.clk.motionHeld = false) ∧ (a < s.cax.length) ∧
     (hb < kindHbs (s.kind a)) ∧ (bit (s.caxOf a).causes 7 = false) ∧
     ((if high then (nth (s.caxOf a).brs hb).hAt else (nth (s.caxOf a).brs hb).lAt) + 192 ≤ 8 * t)) ∧
    (∃ (s : State) (a : Nat) (low : Nat), (s.clk.motionHeld = false) ∧ (a < s.cax.length) ∧ (kindHbs (s.kind a) ≠ 0) ∧
     (bit (s.caxOf a).causes 8 = false) ∧ (s.nat CURRENT.drv_filter a ≤ low)) :=
  ⟨⟨(conf [tc CURRENT.kind 0 1, tc CURRENT.form 0 1]), 3200, 0, 0, by decide, by decide, by decide, by decide, by decide,
   by decide⟩,
   ⟨(conf [tc CURRENT.kind 0 1]), 24, 0, 2, true, by decide, by decide, by decide, by decide, by decide⟩,
   ⟨(conf [tc CURRENT.kind 11 3]), 11, 4000, by decide, by decide, by decide, by decide, by decide⟩⟩

theorem test_witness_CurrentFaultsAndOffsets_OffsetsAcquired :
    ∃ (s : State) (n : Nat) (c : Nat), (s.clk.motionHeld = false) ∧ (s.acq.from_ = some n) ∧ (s.acq.done = false) ∧
     (n + 256 ≤ s.stage.boundaries) ∧ (c < 36) ∧ (c < s.ch.length) ∧ ((s.chOf c).acqCount ≠ 0) :=
  ⟨({ run0 [] 7 with stage := { running := true, epoch := 300, boundaries := 300 }, acq := { from_ := some 44 }, ch := [{ acqSum := 300, acqCount := 3 }] }),
   44, 0, by decide, by decide, by decide, by decide, by decide, by decide, by decide⟩

theorem test_witness_EnableDisable :
    (∃ (s : State) (a : Nat) (src : Nat), (s.takesNow a src = true) ∧ (s.atEase a = true) ∧ ((s.axOf a).enabled = false) ∧
     (modePermits s.mode.mode 8 = true) ∧ (s.commLearned a = true) ∧ (s.stoReady a = true) ∧ (s.firstKind s.safe.a a = false)) ∧
    (∃ (s : State) (a : Nat) (src : Nat), (s.takesNow a src = true) ∧ (s.usable a = true) ∧ ((s.axOf a).enabled = true)) :=
  ⟨⟨({ drv [] {} { pf := 55 } with survey := { haveComm := [true] } }), 0, 1, by decide, by decide, by decide, by decide,
   by decide, by decide, by decide⟩,
   ⟨(drv [] { enabled := true, mode := 8 }), 0, 1, by decide, by decide, by decide⟩⟩

theorem test_witness_EnableDisable_CommandRejected :
    ∃ (s : State) (a : Nat) (src : Nat) (tag : Nat) (c : Instr), (s.takesNow a src = true) ∧ (s.usable a = true) ∧
     ((s.axOf a).enabled = false) ∧ (c = .disable a src tag ∨ c = .stop a src tag ∨ c = .quickStop a src tag) :=
  ⟨(drv [] {}), 0, 1, 9, (.stop 0 1 9), by decide, by decide, by decide, Or.inr (Or.inl rfl)⟩

theorem test_witness_ModeChange :
    (∃ (s : State) (a : Nat) (src : Nat) (m : Nat), (s.takesNow a src = true) ∧ (s.atEase a = true) ∧
     ((s.axOf a).enabled = true) ∧ ((s.axOf a).mode = 8) ∧ (m = 2 ∨ (m = 1 ∧ (s.axOf a).homed = true)) ∧
     (modePermits s.mode.mode m = true)) ∧
    (∃ (s : State) (a : Nat) (src : Nat), (s.takesNow a src = true) ∧ (s.atEase a = true) ∧ ((s.axOf a).enabled = true) ∧
     ((s.axOf a).mode = 2) ∧ ((s.axOf a).vFF = 0) ∧ (modePermits s.mode.mode 8 = true)) :=
  ⟨⟨(drv [] { enabled := true, mode := 8, homed := true, pRef := 44 }), 0, 1, 1, by decide, by decide, by decide, by decide,
   by decide, by decide⟩,
   ⟨(drv [] { enabled := true, mode := 2, pRef := 44 }), 0, 1, by decide, by decide, by decide, by decide, by decide, by decide⟩⟩

theorem test_witness_MovesFromRest :
    (∃ (s : State) (a : Nat) (src : Nat) (prof : Nat) (v : Int) (fl : Nat), (s.takesNow a src = true) ∧ (s.atEase a = true) ∧
     ((s.axOf a).enabled = true) ∧ ((s.axOf a).gen.phase = .rest) ∧ ((s.axOf a).gen.ve = 0) ∧ ((s.axOf a).kept = none) ∧
     ((s.axOf a).decel = false) ∧ (prof < s.nat AXIS.prof_count a) ∧ ((s.axOf a).gen.dwellOver = true) ∧ (fl < 3) ∧
     ((s.axOf a).mode = 1) ∧ (modePermits s.mode.mode 1 = true) ∧ (s.rotary a = false) ∧ (s.softBroken a v = false) ∧
     (s.limitActive a (sgn (v - (s.axOf a).pRef)) = false)) ∧
    (∃ (s : State) (a : Nat) (src : Nat) (prof : Nat) (v : Int), (s.takesNow a src = true) ∧ (s.atEase a = true) ∧
     ((s.axOf a).enabled = true) ∧ ((s.axOf a).gen.phase = .rest) ∧ ((s.axOf a).gen.ve = 0) ∧ ((s.axOf a).kept = none) ∧
     ((s.axOf a).decel = false) ∧ (prof < s.nat AXIS.prof_count a) ∧ ((s.axOf a).gen.dwellOver = true) ∧
     ((s.axOf a).mode = 1) ∧ (modePermits s.mode.mode 1 = true) ∧ (s.softBroken a ((s.axOf a).pRef + v) = false) ∧
     (s.limitActive a (sgn v) = false)) ∧
    (∃ (s : State) (a : Nat) (src : Nat) (prof : Nat) (v : Int), (s.takesNow a src = true) ∧ (s.atEase a = true) ∧
     ((s.axOf a).enabled = true) ∧ ((s.axOf a).gen.phase = .rest) ∧ ((s.axOf a).gen.ve = 0) ∧ ((s.axOf a).kept = none) ∧
     ((s.axOf a).decel = false) ∧ (prof < s.nat AXIS.prof_count a) ∧ ((s.axOf a).gen.dwellOver = true) ∧
     ((s.axOf a).mode = 2) ∧ (modePermits s.mode.mode 2 = true) ∧ (sat v 48 = v) ∧ (s.limitActive a (sgn v) = false)) :=
  ⟨⟨(drv [] { enabled := true, mode := 1, homed := true }), 0, 1, 0, (-70000), 0, by decide, by decide, by decide, by decide,
   by decide, by decide, by decide, by decide, by decide, by decide, by decide, by decide, by decide, by decide, by decide⟩,
   ⟨(drv [] { enabled := true, mode := 1, homed := true, pRef := 7 }), 0, 1, 0, 70000, by decide, by decide, by decide,
   by decide, by decide, by decide, by decide, by decide, by decide, by decide, by decide, by decide, by decide⟩,
   ⟨(drv [] { enabled := true, mode := 2 }), 0, 1, 0, (-140737488355328), by decide, by decide, by decide, by decide,
   by decide, by decide, by decide, by decide, by decide, by decide, by decide, by decide, by decide⟩⟩

theorem test_witness_StopsAndTorque :
    (∃ (s : State) (a : Nat) (src : Nat), (s.takesNow a src = true) ∧ (s.usable a = true) ∧ ((s.axOf a).enabled = true) ∧
     (s.homing a = false) ∧ ((s.axOf a).ramp = false) ∧ ((s.axOf a).mode = 2) ∧ ((s.axOf a).gen.phase = .vel) ∧
     ((s.axOf a).gen.ve ≠ 0)) ∧
    (∃ (s : State) (a : Nat) (src : Nat) (m : Move), (s.takesNow a src = true) ∧ (s.atEase a = true) ∧ ((s.axOf a).mode = 2) ∧
     ((s.axOf a).kept = some m) ∧ (m.vel = true) ∧ ((s.axOf a).gen.phase = .rest) ∧ ((s.axOf a).gen.dwellOver = true) ∧
     (s.limitActive a (sgn m.target) = false)) ∧
    (∃ (s : State) (a : Nat) (src : Nat), (s.takesNow a src = true) ∧ (s.usable a = true) ∧ ((s.axOf a).enabled = true) ∧
     ((s.axOf a).ramp = false)) ∧
    (∃ (s : State) (a : Nat) (src : Nat) (i : Int), (s.takesNow a src = true) ∧ (s.atEase a = true) ∧
     ((s.axOf a).enabled = true) ∧ ((s.axOf a).mode = 6) ∧ ((s.axOf a).decel = false) ∧ (modePermits s.mode.mode 6 = true) ∧
     (s.limitActive a (sgn i) = false)) ∧
    (∃ (s : State) (a : Nat) (src : Nat), (s.takesNow a src = true) ∧ (s.usable a = true) ∧ (s.homing a = false) ∧
     ((s.bookOf a).stopLatch = true) ∧ (s.chattering a = false) ∧ (s.limitActive a 1 = false) ∧ (s.limitActive a (-1) = false)) :=
  ⟨⟨(drv [] { enabled := true, mode := 2, gen := { phase := .vel, ve := 65536, vtgt := 655360 } }), 0, 1, by decide, by decide,
   by decide, by decide, by decide, by decide, by decide, by decide⟩,
   ⟨(drv [] { enabled := true, mode := 2, kept := some { vel := true, target := -12 } }), 0, 1, { vel := true, target := -12 },
   by decide, by decide, by decide, by decide, by decide, by decide, by decide, by decide⟩,
   ⟨(drv [] { enabled := true, mode := 1, gen := { phase := .pos, ve := 65536, target := 99 } }), 0, 1, by decide, by decide,
   by decide, by decide⟩,
   ⟨(drv [] { enabled := true, mode := 6 }), 0, 1, (-30), by decide, by decide, by decide, by decide, by decide, by decide,
   by decide⟩,
   ⟨(drv [] { enabled := true, mode := 8 } { stopLatch := true }), 0, 1, by decide, by decide, by decide, by decide, by decide,
   by decide, by decide⟩⟩

theorem test_witness_StopsAndTorque_DwellEnds :
    ∃ (s : State) (t : Nat) (a : Nat), (s.clk.motionHeld = false) ∧ (a < 12) ∧ (a < s.ax.length) ∧ ((s.axOf a).gen.ve = 0) ∧
     ((s.axOf a).gen.dwellOver = false) ∧ ((s.axOf a).gen.restAt + s.stagesOf (s.nat AXIS.dwell a) * s.period ≤ t) :=
  ⟨({ conf [] with ax := [{ gen := { dwellOver := false, restAt := 5 } }] }), 400000000, 0, by decide, by decide, by decide,
   by decide, by decide, by decide⟩

theorem test_witness_SegmentsQueue :
    ∃ (s : State) (g : Nat) (src : Nat) (seg : PathCmd) (k : Nat), (s.groupTakes g src = true) ∧
     (s.forwards { src := src } = false) ∧ ((s.pgOf g).st ≠ .broken) ∧ ((s.pgOf g).queue.length < s.nat PATH.queue g) ∧
     (k = 2 ∨ k = 3) ∧ (((s.pgOf g).queue = [] ∧ (s.pgOf g).st = .idle ∧
     s.segReason0 g { seg with cmd := k } = 0 ∨ (s.pgOf g).st = .running ∧
     s.segReason g (s.segGeom g { seg with cmd := k } (s.pgOf g).lastEnd) = 0)) :=
  ⟨(drv [tc PATH.members 0 1] { enabled := true, mode := 8, homed := true }), 0, 1, { cmd := 0, ends := [1000] }, 2,
   by decide, by decide, by decide, by decide, by decide, by decide⟩

theorem test_witness_GroupRuns :
    (∃ (s : State) (g : Nat) (src : Nat) (a : Nat), (a ∈ s.members g) ∧ (s.groupTakes g src = true) ∧ ((s.pgOf g).st = .idle) ∧
     (12 ≤ s.ax.length) ∧ ((∀ q, (s.pgOf g).queue.head? = some q →
     s.segReason g (s.segGeom g q.cmd ((s.members g).map (fun a => (s.axOf a).pRef))) = 0)) ∧ ((s.pgOf g).queue ≠ []) ∧
     ((s.members g).all s.memberOk = true) ∧ ((∀ x ∈ s.startHand g, x.2.toBool = true))) ∧
    (∃ (s : State) (g : Nat) (src : Nat), (s.groupTakes g src = true) ∧ ((s.pgOf g).st = .running) ∧
     ((((s.feedProf g none (s.pgOf g).gen).stopDist (s.pgOf g).gen.ve.natAbs : Nat) : Int) ≤ (s.pgOf g).endL * 65536 - (s.pgOf g).gen.pe)) ∧
    (∃ (s : State) (g : Nat) (src : Nat), (s.groupTakes g src = true) ∧ ((s.pgOf g).st = .paused)) ∧
    (∃ (s : State) (g : Nat) (src : Nat), (s.groupTakes g src = true) ∧ ((s.pgOf g).st ≠ .running)) :=
  ⟨⟨({ drv [tc PATH.members 0 1] {} with ax := List.replicate 12 { enabled := true, mode := 8, homed := true }, pg := [{ queue := [seg] }] }),
   0, 1, 0, by decide, by decide, by decide, by decide, fun q h => by cases h; decide +kernel, by decide, by decide +kernel,
   by decide +kernel⟩,
   ⟨({ drv [tc PATH.members 0 1] { enabled := true, mode := 5 } with pg := [{ st := .running, queue := [seg], gen := { phase := .pos, target := 1000 } }] }),
   0, 1, by decide, by decide, by decide⟩,
   ⟨({ drv [tc PATH.members 0 1] { enabled := true, mode := 5 } with pg := [{ st := .paused, queue := [seg] }] }), 0, 1,
   by decide, by decide⟩,
   ⟨({ drv [tc PATH.members 0 1] { enabled := true, mode := 5 } with pg := [{ st := .paused, queue := [seg] }] }), 0, 1,
   by decide, by decide⟩⟩

theorem test_witness_CaptureAndCompare_CaptureEdges :
    (∃ (s : State) (i : Nat) (lv : Bool), (s.clk.motionHeld = false) ∧ (i < 16) ∧ (i < s.cap.length) ∧
     (s.nat CAPTURE.mode i ≠ 0) ∧ ((s.capOf i).ball ≠ lv)) ∧
    (∃ (s : State) (t : Nat) (i : Nat), (s.clk.motionHeld = false) ∧ (i < s.cap.length) ∧ ((s.capOf i).pend = true) ∧
     ((s.capOf i).lastT + s.nat CAPTURE.min_width i ≤ t) ∧ (s.nat CAPTURE.mode i = 1) ∧
     (s.capSelects i (s.capOf i).ball = true) ∧ ((s.capOf i).lastAccept = none)) :=
  ⟨⟨(conf [tc CAPTURE.mode 15 1]), 15, true, by decide, by decide, by decide, by decide, by decide⟩,
   ⟨({ conf [tc CAPTURE.mode 0 1] with cap := [{ ball := true, pend := true, lastT := 5 }] }), 4000005, 0, by decide,
   by decide, by decide, by decide, by decide, by decide, by decide⟩⟩

theorem test_witness_CaptureAndCompare_CompareFires :
    (∃ (s : State) (t : Nat) (o : Nat) (j : Nat), (s.clk.motionHeld = false) ∧ (o < 8) ∧ (o < s.cmp.length) ∧
     (s.nat COMPARE.source o ≠ 0) ∧ ((s.cmpOf o).fault = false) ∧ (s.cmpFaulted o = false) ∧ ((s.cmpOf o).armed = some j) ∧
     ((s.cmpOf o).pulseEnd = none) ∧ ((s.cmpOf o).nextPulse ≤ t) ∧ ((s.cmpOf o).pendPulses = 0) ∧
     (s.flag COMPARE.flags 1 o = false) ∧ (s.cmpDir o * (s.cmpEntry o j - s.cmpSource o t) ≤ 0) ∧ (s.cmpHas o (j + 1) = true) ∧
     (0 < s.cmpDir o * (s.cmpEntry o (j + 1) - s.cmpSource o t))) ∧
    (∃ (s : State) (t : Nat) (o : Nat) (e : Nat), (s.clk.motionHeld = false) ∧ (o < s.cmp.length) ∧
     ((s.cmpOf o).pulseEnd = some e) ∧ (e ≤ t) ∧ (s.flag COMPARE.flags 2 o = false)) :=
  ⟨⟨({ conf [tc COMPARE.source 0 1, tc COMPARE.count 0 2, tc COMPARE.pos 0 100, tc COMPARE.pos 1 200] with fb := [{ pos := 150 }], cmp := [{ armed := some 0 }] }),
   5, 0, 0, by decide, by decide, by decide, by decide, by decide, by decide, by decide, by decide, by decide, by decide,
   by decide, by decide, by decide, by decide⟩,
   ⟨({ conf [] with cmp := [{ level := true, pulseEnd := some 5 }] }), 5, 0, 5, by decide, by decide, by decide, by decide,
   by decide⟩⟩

theorem test_witness_HomingEnds :
    (∃ (s : State) (t : Nat) (a : Nat) (t0 : Nat), (s.clk.motionHeld = false) ∧ (max s.now t = s.stage.openedAt) ∧
     (a < s.home.length) ∧ (a < s.ax.length) ∧ ((s.homeOf a).phase = .hardstop) ∧ ((s.homeOf a).hsSince = some t0) ∧
     (t0 + (s.homeOf a).hr.hsTime ≤ t) ∧ ((s.homeOf a).ref = none) ∧ ((s.homeOf a).shifted = false)) ∧
    (∃ (s : State) (t : Nat) (a : Nat) (ch : Nat), (s.clk.motionHeld = false) ∧ (max s.now t = s.stage.openedAt) ∧
     (s.pre.shown = false) ∧ (a < s.home.length) ∧ (a < s.ax.length) ∧ (s.fbPos a = some ch) ∧ (s.defined a = true) ∧
     ((s.readHome a).method = 6) ∧ ((s.readHome a).auto = true) ∧ ((nth s.snap ch).valid = true) ∧
     ((s.bookOf a).fault = false) ∧ (s.homing a = false) ∧ (s.mode.mode ≠ 0) ∧ ((s.homeOf a).result = 0)) :=
  ⟨⟨({ conf [] with now := 105, stage := { openedAt := 105 }, home := [{ phase := .hardstop, hsSince := some 5, hr := { hsTime := 100 } }] }),
   105, 0, 5, by decide, by decide, by decide, by decide, by decide, by decide, by decide, by decide, by decide⟩,
   ⟨({ drv [tc AXIS.fb_motor 0 1, tc HOMING.method 0 6, tc HOMING.flags 0 2] {} with snap := [{ valid := true, pos := 500 }] }),
   0, 0, 0, by decide, by decide, by decide, by decide, by decide, by decide, by decide, by decide, by decide, by decide,
   by decide, by decide, by decide, by decide⟩⟩

theorem test_witness_LearnRuns :
    (∃ (s : State) (src : Nat) (id : Nat) (kind : Nat) (target : Nat) (a : Nat), (s.keptFor src id = none) ∧ (1 ≤ kind) ∧
     (kind ≤ 6) ∧ (s.mode.mode = 1) ∧ (s.learnAxis kind target = some a) ∧ (s.runOf a = none)) ∧
    (∃ (s : State) (t : Nat) (a : Nat) (ch : Nat) (r : Learn), (s.runOf a = some r) ∧ (s.fbMotor a = some ch) ∧ (r.kind = 1) ∧
     (s.clk.motionHeld = false) ∧ (r.hold + s.nat SURVEY.align_settle ≤ max s.now t) ∧ (r.k + 1 < 4)) ∧
    (∃ (s : State) (t : Nat) (a : Nat) (ch : Nat) (r : Learn), (s.runOf a = some r) ∧ (s.fbMotor a = some ch) ∧ (r.kind = 1) ∧
     (s.clk.motionHeld = false) ∧ (r.hold + s.nat SURVEY.align_settle ≤ max s.now t) ∧ (4 ≤ r.k + 1)) ∧
    (∃ (s : State) (t : Nat) (a : Nat) (v : Nat) (r : Learn), (s.clk.motionHeld = false) ∧ (s.runOf a = some r) ∧
     (r.stopAt = some v) ∧ (v + s.nat SURVEY.level_settle ≤ max s.now t) ∧ (r.k + 1 < s.nat CAR.count r.target)) ∧
    (∃ (s : State) (t : Nat) (a : Nat) (v : Nat) (r : Learn), (s.clk.motionHeld = false) ∧ (s.runOf a = some r) ∧
     (r.stopAt = some v) ∧ (v + s.nat SURVEY.level_settle ≤ max s.now t) ∧ (s.nat CAR.count r.target ≤ r.k + 1)) :=
  ⟨⟨{ drv [] { enabled := true, mode := 8 } with mode := { mode := 1 } }, 12, 3, 1, 0, 0, by decide, by decide, by decide,
   by decide, by decide, by decide⟩,
   ⟨({ drv [tc AXIS.fb_motor 0 1] {} with survey := { runs := [{ kind := 1, target := 0, axis := 0 }] } }), 4000000000, 0, 0,
   { kind := 1, target := 0, axis := 0 }, by decide, by decide, by decide, by decide, by decide, by decide⟩,
   ⟨({ drv [tc AXIS.fb_motor 0 1] {} with survey := { runs := [{ kind := 1, target := 0, axis := 0, k := 3, thms := [0, 1, 2] }] } }),
   4000000000, 0, 0, { kind := 1, target := 0, axis := 0, k := 3, thms := [0, 1, 2] }, by decide, by decide, by decide,
   by decide, by decide, by decide⟩,
   ⟨({ drv [tc CAR.axis 0 1, tc CAR.count 0 3] {} with survey := { runs := [{ kind := 4, target := 0, axis := 0, stopAt := some 5 }] } }),
   4000000000, 0, 5, { kind := 4, target := 0, axis := 0, stopAt := some 5 }, by decide, by decide, by decide, by decide,
   by decide⟩,
   ⟨({ drv [tc CAR.axis 0 1, tc CAR.count 0 3] {} with survey := { runs := [{ kind := 4, target := 0, axis := 0, stopAt := some 5, k := 2 }] } }),
   4000000000, 0, 5, { kind := 4, target := 0, axis := 0, stopAt := some 5, k := 2 }, by decide, by decide, by decide,
   by decide, by decide⟩⟩

theorem test_witness_SurveyCommits :
    (∃ (s : State) (t : Nat) (a : Nat), (max s.now t = s.stage.openedAt) ∧ ((s.axOf a).standstill = true) ∧ (s.amdsDue = [])) ∧
    (∃ (s : State) (t : Nat) (a : Nat), (max s.now t = s.stage.openedAt) ∧ ((s.axOf a).standstill = false)) :=
  ⟨⟨({ drv [] { standstill := true } with survey := { pend := [{ kind := 1, target := 0, axis := 0, cells := [tc AXIS.comm_offset 0 99], appended := true }] } }),
   0, 0, by decide, by decide, by decide⟩,
   ⟨({ drv [] {} with survey := { pend := [{ kind := 1, target := 0, axis := 0, cells := [tc AXIS.comm_offset 0 99], appended := true }] } }),
   0, 0, by decide, by decide⟩⟩

theorem test_witness_CarsAndDoorTimers_CarHappenings :
    (∃ (s : State) (t : Nat) (c : Nat) (i : Nat) (j : Nat) (u0 : Nat), (s.clk.motionHeld = false) ∧ (c < s.cars.length) ∧
     (s.dzIns c = [i, j]) ∧ ((s.car c).differ = some u0) ∧ (u0 + s.nat CAR.dz_disc c < max s.now t) ∧
     ((s.car c).dzDegraded = false)) ∧
    (∃ (s : State) (c : Nat) (a : Nat) (l : Nat), (s.clk.motionHeld = false) ∧ (c < s.cars.length) ∧ (s.carAxis c = some a) ∧
     ((s.car c).landing = some l) ∧ ((s.car c).st = 1) ∧ (s.carDrives = true) ∧ (s.nat CAR.relevel_n c ≤ (s.car c).levelRun) ∧
     ((s.doorsClosed c || s.bypassed c) = true) ∧ ((s.car c).axisFault = false) ∧ ((s.axOf a).enabled = true)) ∧
    (∃ (s : State) (t : Nat) (c : Nat) (a : Nat) (l : Nat) (v : Int) (w : Int), (c < s.cars.length) ∧ (s.carAxis c = some a) ∧
     ((s.car c).paired = some (v, w)) ∧ ((s.car c).assigned = some l) ∧ (v ≤ s.siteAt (max s.now t)) ∧ (s.departOk c = true) ∧
     ((s.car c).st = 1 ∨ (s.car c).st = 5) ∧ (s.carDrives = true)) :=
  ⟨⟨({ conf [tc CAR.dz_in0 0 1, tc CAR.dz_in1 0 2] with cars := [{ differ := some 0 }] }), 4000000001, 0, 0, 1, 0, by decide,
   by decide, by decide, by decide, by decide, by decide⟩,
   ⟨({ drv [tc CAR.axis 0 1] { enabled := true, mode := 8 } with cars := [{ st := 1, landing := some 0, levelRun := 100000 }] }),
   0, 0, 0, by decide, by decide, by decide, by decide, by decide, by decide, by decide, by decide, by decide, by decide⟩,
   ⟨({ drv [tc CAR.axis 0 1] { enabled := true, mode := 8 } with cars := [{ st := 1, paired := some (0, 9), assigned := some 0 }] }),
   5, 0, 0, 0, 0, 9, by decide, by decide, by decide, by decide, by decide, by decide, by decide, by decide⟩⟩

theorem test_witness_CarsAndDoorTimers_DoorTimers :
    (∃ (s : State) (t : Nat) (d : Nat) (v : Nat), (s.clk.motionHeld = false) ∧ (d < s.doors.length) ∧
     ((s.door d).holdEnd = some v) ∧ ((s.door d).st = 3) ∧ (v ≤ max s.now t)) ∧
    (∃ (s : State) (t : Nat) (d : Nat) (v : Nat), (s.clk.motionHeld = false) ∧ (d < s.doors.length) ∧
     ((s.door d).nudgeFrom = some v) ∧ (v + s.nat DOOR.nudge_time d < max s.now t) ∧ (s.flag DOOR.flags 0 d = true) ∧
     (s.recallFlag 1 = false) ∧ (s.recallFlag 3 = false)) :=
  ⟨⟨({ conf [] with doors := [{ st := 3, holdEnd := some 5 }] }), 5, 0, 5, by decide, by decide, by decide, by decide,
   by decide⟩,
   ⟨({ conf [tc DOOR.flags 0 1] with doors := [{ st := 6, nudgeFrom := some 5 }] }), 400000000000, 0, 5, by decide, by decide,
   by decide, by decide, by decide, by decide, by decide⟩⟩

theorem test_witness_InterlockInputsAndOutputs_SafetyInputsAndStops :
    (∃ (s : State) (die : Nat) (i : Nat), (die < 2) ∧ (i < 24) ∧ (i < (s.chan (die == 1)).ins.length)) ∧
    (∃ (s : State) (die : Nat) (i : Nat), (die < 2) ∧ (i < 24) ∧ (i < (s.chan (die == 1)).ins.length)) ∧
    (∃ (s : State) (t : Nat) (a : Nat), (max s.now t = s.stage.openedAt) ∧ (a < s.safe.stops.length) ∧
     ((nth s.safe.stops a).kind = .ss1) ∧
     (s.standstillS a = true ∨ s.nat SAFE_AXIS.ss1_max a ≤ s.stage.boundaries - (nth s.safe.stops a).start)) :=
  ⟨⟨(conf []), 1, 23, by decide, by decide, by decide⟩,
   ⟨(conf []), 0, 23, by decide, by decide, by decide⟩,
   ⟨({ conf [] with safe := { stops := [{ kind := .ss1 }], still := [true] } }), 0, 0, by decide, by decide, by decide,
   by exact Or.inl (by decide)⟩⟩

theorem test_witness_InterlockInputsAndOutputs_OutputTests :
    (∃ (s : State) (o : Nat), (o < 22) ∧ (o < s.safe.outs.length) ∧ (s.flag SAFE_OUT.flags 0 o = true) ∧
     ((s.stage.boundaries + 4096 * 22 - 128 * o) % 4096 = 0) ∧ (((s.outOf o).a || (s.outOf o).b) = true)) ∧
    (∃ (s : State) (o : Nat), (o < s.safe.outs.length) ∧ (o < 22) ∧ (s.edmOf o ≠ 0) ∧ ((s.outOf o).settled = false) ∧
     ((s.outOf o).fault = 0) ∧ (s.edmOn o = (s.outOf o).on) ∧
     ((s.outOf o).since + (if (s.outOf o).on then s.nat SAFE_OUT.t_on o else s.nat SAFE_OUT.t_off o) ≤ s.stage.boundaries)) :=
  ⟨⟨{ run0 [tc SAFE_OUT.flags 21 1] 7 with stage := { boundaries := 2688 }, safe := { outs := List.replicate 22 { a := true, b := true } } },
   21, by decide, by decide, by decide, by decide, by decide⟩,
   ⟨{ run0 [tc SAFE_OUT.edm 0 1] 7 with stage := { boundaries := 1000000 } }, 0, by decide, by decide, by decide, by decide,
   by decide, by decide, by decide⟩⟩

theorem test_witness_BrakeTestsAndClearing_BrakeTests :
    (∃ (s : State) (src : Nat) (id : Nat) (a : Nat), (s.keptFor src id = none) ∧ (s.testAllowed a = true) ∧ (s.testSteps a ≠ [])) ∧
    (∃ (s : State) (o : Nat) (d : Int) (rest : List (Nat × Int)) (x : BrakeTest), (s.safe.test = some x) ∧ (x.steps = (o,
     d) :: rest) ∧ (x.from_ + s.nat SAFE_AXIS.test_time x.axis ≤ s.stage.boundaries) ∧ (rest = [])) ∧
    (∃ (s : State) (o : Nat) (d : Int) (rest : List (Nat × Int)) (x : BrakeTest), (s.safe.test = some x) ∧ (x.steps = (o,
     d) :: rest) ∧ (x.from_ + s.nat SAFE_AXIS.test_time x.axis ≤ s.stage.boundaries) ∧ (rest ≠ [])) :=
  ⟨⟨(drv [tc SAFE_OUT.role 3 2, tc SAFE_OUT.axis 3 1] { enabled := true, mode := 8, standstill := true }), 12, 3, 0, by decide,
   by decide, by decide⟩,
   ⟨({ run0 [] 7 with stage := { boundaries := 1000000 }, safe := { test := some { axis := 0, steps := [(3, 1)] } } }), 3, 1,
   [], { axis := 0, steps := [(3, 1)] }, by decide, by decide, by decide, by decide⟩,
   ⟨({ run0 [] 7 with stage := { boundaries := 1000000 }, safe := { test := some { axis := 0, steps := [(3, 1), (3, -1)] } } }),
   3, 1, [(3, -1)], { axis := 0, steps := [(3, 1), (3, -1)] }, by decide, by decide, by decide, by decide⟩⟩

theorem test_witness_BrakeTestsAndClearing_FaultsClear :
    ∃ (s : State) (src : Nat) (id : Nat) (a : Nat), (s.keptFor src id = none) ∧ (s.mode.mode = 6) ∧ (s.inPair = false) ∧
     (a < 12) :=
  ⟨({ conf [] with mode := { mode := 6 }, book := [{ fault := true }] }), 12, 3, 0, by decide, by decide, by decide, by decide⟩

theorem test_witness_BidRounds :
    (∃ (s : State) (k : Call), (s.collects = true) ∧ (k.group = s.group) ∧ (kindAllowed s.dspMode k.kind = true) ∧
     (k.from_ ≤ 255) ∧ ((3 ≤ k.kind → k.dest ≤ 255)) ∧ ((k.kind = 4 → ∀ l ∈ [k.fromB, k.toB], l ≠ 0xFFFF → l ≤ 255)) ∧
     (s.dsp.calls.length < 1024) ∧ ((∀ x ∈ s.dsp.calls, sameKey x.call k = false))) ∧
    (∃ (s : State) (o : DspOpen), (s.group ≠ 0) ∧ (o.call.group = s.group) ∧ (o.collector = s.nat DISPATCH.collector) ∧
     ((∀ r ∈ s.dsp.rounds, r.open_.call.callId ≠ o.call.callId))) ∧
    (∃ (s : State) (t : Nat) (id : Nat) (r : Round), (max s.now t = s.stage.openedAt) ∧
     (s.dsp.rounds.find? (fun r => r.open_.call.callId == id) = some r) ∧ (r.ready = true) ∧ (r.sent = false) ∧
     (r.open_.tOpen + usNs r.open_.lead + s.machineId % 64 * usNs r.open_.slot ≤ s.siteAt (max s.now t))) ∧
    (∃ (s : State) (t : Nat) (id : Nat) (x : CollCall), (s.collects = true) ∧ (callUnit id = s.machineId) ∧
     (s.callOf id = some x) ∧ (x.phase = 0) ∧ (s.siteAt (max s.now t) < x.closeAt)) ∧
    (∃ (s : State) (t : Nat) (id : Nat) (w : WsCall), (max s.now t = s.stage.openedAt) ∧
     (s.dsp.ws.find? (fun w => w.open_.call.callId == id) = some w) ∧
     (w.open_.tOpen + usNs w.open_.lead + 64 * usNs w.open_.slot + s.nat DISPATCH.ws_rank * usNs (s.nat DISPATCH.ws_step) ≤ s.siteAt (max s.now t))) :=
  ⟨⟨(coll []), (tcall 0), by decide, by decide, by decide, by decide, by decide, by decide, by decide, by decide⟩,
   ⟨(coll []), { call := tcall 3, tOpen := 0, lead := 100, slot := 10, window := 1000, collector := 7, attempt := 1 },
   by decide, by decide, by decide, fun _ h => absurd h List.not_mem_nil⟩,
   ⟨({ coll [] with stage := { running := true, epoch := 7, openedAt := 400000000 }, dsp := { rounds := [trnd] } }), 400000000,
   3, trnd, by decide, by decide, by decide, by decide, by decide⟩,
   ⟨(coll [{ call := tcall 1835009, closeAt := 1000000 }]), 5, 1835009, { call := tcall 1835009, closeAt := 1000000 },
   by decide, by decide, by decide, by decide, by decide⟩,
   ⟨({ coll [] with stage := { running := true, epoch := 7, openedAt := 400000000 }, dsp := { ws := [{ open_ := trnd.open_ }], wsWaiting := [trnd.open_] } }),
   400000000, 3, { open_ := trnd.open_ }, by decide, by decide, by decide⟩⟩

theorem test_witness_Assignments :
    (∃ (s : State) (t : Nat) (id : Nat) (x : CollCall), (max s.now t = s.stage.openedAt) ∧ (s.callOf id = some x) ∧
     (x.phase = 0) ∧ (x.closeAt ≤ s.siteAt (max s.now t)) ∧ (x.bids ≠ [])) ∧
    (∃ (s : State) (t : Nat) (id : Nat) (x : CollCall), (max s.now t = s.stage.openedAt) ∧ (s.callOf id = some x) ∧
     (x.phase = 0) ∧ (x.closeAt ≤ s.siteAt (max s.now t)) ∧ (x.bids = [])) ∧
    (∃ (s : State) (id : Nat) (unit : Nat) (car : Nat) (r : Round), (unit = s.machineId) ∧ (s.leads = true) ∧
     (s.dsp.rounds.find? (fun r => r.open_.call.callId == id) = some r) ∧ (s.holdsCall id = false) ∧ (r.sent = true) ∧
     (r.bids.any (fun b => b.car == car) = true) ∧ (s.unitWithdraw = 0) ∧ (s.mayServe r.open_.call car = true)) ∧
    (∃ (s : State) (id : Nat) (x : CollCall) (b : Bid), (s.callOf id = some x) ∧ (x.phase = 1) ∧ (x.bids[x.next]? = some b)) ∧
    (∃ (s : State) (id : Nat) (x : CollCall) (b : Bid), (s.callOf id = some x) ∧ (x.phase = 1) ∧ (x.bids[x.next]? = some b) ∧
     (x.next + 1 < x.bids.length)) ∧
    (∃ (s : State) (id : Nat) (x : CollCall) (b : Bid), (s.callOf id = some x) ∧ (x.phase = 1) ∧ (x.bids[x.next]? = some b) ∧
     (x.bids.length ≤ x.next + 1)) ∧
    (∃ (s : State) (t : Nat) (id : Nat) (x : CollCall) (b : Bid), (s.callOf id = some x) ∧ (x.phase = 1) ∧
     (x.bids[x.next]? = some b) ∧ (x.answerBy ≤ s.siteAt (max s.now t)) ∧ (x.next + 1 < x.bids.length)) ∧
    (∃ (s : State) (t : Nat) (id : Nat) (x : CollCall) (b : Bid), (s.callOf id = some x) ∧ (x.phase = 1) ∧
     (x.bids[x.next]? = some b) ∧ (x.answerBy ≤ s.siteAt (max s.now t)) ∧ (x.bids.length ≤ x.next + 1)) :=
  ⟨⟨(let s := coll [{ call := tcall 3, closeAt := 10, bids := [tbid] }]; { s with stage := { running := true, epoch := 7, openedAt := 5 } }),
   5, 3, { call := tcall 3, closeAt := 10, bids := [tbid] }, by decide, by decide, by decide, by decide, by decide⟩,
   ⟨(let s := coll [{ call := tcall 3, closeAt := 10 }]; { s with stage := { running := true, epoch := 7, openedAt := 5 } }),
   5, 3, { call := tcall 3, closeAt := 10 }, by decide, by decide, by decide, by decide, by decide⟩,
   ⟨({ net [tc DISPATCH.group 0 1, tc CAR.axis 0 1, tc CAR.count 0 3, tc LANDING.sides 2 1, tc CURRENT.kind 0 1] with dsp := { rounds := [{ trnd with sent := true, bids := [{ tbid with unit := 7, car := 0 }] }] } }),
   3, 7, 0, { trnd with sent := true, bids := [{ tbid with unit := 7, car := 0 }] }, by decide, by decide, by decide,
   by decide, by decide, by decide, by decide, by decide⟩,
   ⟨(coll [{ call := tcall 3, phase := 1, bids := [tbid] }]), 3, { call := tcall 3, phase := 1, bids := [tbid] }, tbid,
   by decide, by decide, by decide⟩,
   ⟨(coll [{ call := tcall 3, phase := 1, bids := [tbid, tbid] }]), 3, { call := tcall 3, phase := 1, bids := [tbid, tbid] },
   tbid, by decide, by decide, by decide, by decide⟩,
   ⟨(coll [{ call := tcall 3, phase := 1, bids := [tbid] }]), 3, { call := tcall 3, phase := 1, bids := [tbid] }, tbid,
   by decide, by decide, by decide, by decide⟩,
   ⟨(coll [{ call := tcall 3, phase := 1, bids := [tbid, tbid], answerBy := 10 }]), 5, 3, { call := tcall 3, phase := 1, bids := [tbid, tbid], answerBy := 10 },
   tbid, by decide, by decide, by decide, by decide, by decide⟩,
   ⟨(coll [{ call := tcall 3, phase := 1, bids := [tbid], answerBy := 10 }]), 5, 3, { call := tcall 3, phase := 1, bids := [tbid], answerBy := 10 },
   tbid, by decide, by decide, by decide, by decide, by decide⟩⟩

theorem test_witness_CallsEnd :
    (∃ (s : State) (t : Nat) (id : Nat) (x : CollCall), (s.callOf id = some x) ∧ (x.phase = 3) ∧
     (x.reopenAt ≤ s.siteAt (max s.now t))) ∧
    (∃ (s : State) (id : Nat) (x : CollCall), (s.callOf id = some x)) ∧
    (∃ (s : State) (id : Nat) (x : CollCall), (s.callOf id = some x) ∧ (s.dsp.waiting = [])) ∧
    (∃ (s : State) (id : Nat) (x : CollCall), (s.callOf id = some x) ∧ (s.dsp.waiting = []) ∧ (id ≠ 0)) ∧
    (∃ (s : State) (t : Nat) (req : Nat) (x : Asked), (s.dsp.asked.find? (fun x => x.call.req == req && !x.alt) = some x) ∧
     (s.nat DISPATCH.collector_alt ≠ 0) ∧ (x.at_ + usNs (s.nat DISPATCH.accept_to) ≤ s.siteAt (max s.now t))) :=
  ⟨⟨(coll [{ call := tcall 3, phase := 3, reopenAt := 10 }]), 5, 3, { call := tcall 3, phase := 3, reopenAt := 10 }, by decide,
   by decide, by decide⟩,
   ⟨(coll [{ call := tcall 3, phase := 2 }]), 3, { call := tcall 3, phase := 2 }, by decide⟩,
   ⟨(coll [{ call := tcall 3, phase := 2 }]), 3, { call := tcall 3, phase := 2 }, by decide, by decide⟩,
   ⟨(coll [{ call := tcall 3, phase := 2 }]), 3, { call := tcall 3, phase := 2 }, by decide, by decide, by decide⟩,
   ⟨({ net [tc DISPATCH.group 0 1, tc DISPATCH.collector_alt 0 8] with dsp := { asked := [{ call := tcall 0, at_ := 0 }] } }),
   4000000000, 7, { call := tcall 0, at_ := 0 }, by decide, by decide, by decide⟩⟩

theorem test_witness_Neighbours :
    (∃ (s : State) (p : Nat) (up : Bool), (p < 2) ∧ (p < s.fab.ports.length) ∧ ((s.portOf p).up ≠ up)) ∧
    (∃ (s : State) (p : Nat) (unit : Nat) (q : Peer), (s.portOn p = true) ∧ (unit ≠ s.unitId) ∧ (s.peerOf p unit = some q) ∧
     (q.heard = false) ∧ (q.oper = false)) ∧
    (∃ (s : State) (p : Nat), (s.portOn p = true) ∧ ((s.portOf p).lastHello = none)) ∧
    (∃ (s : State) (t : Nat) (p : Nat) (unit : Nat) (q : Peer), (s.peerOf p unit = some q) ∧ (q.heard = true) ∧
     (q.helloAt + 3 * msCycles (s.nat FABRIC.hello_period) ≤ max s.now t)) :=
  ⟨⟨(conf []), 1, true, by decide, by decide, by decide⟩,
   ⟨(net [] {}), 0, 5, {}, by decide, by decide, by decide, by decide, by decide⟩,
   ⟨(net []), 0, by decide, by decide⟩,
   ⟨(net [] { unit := 5, heard := true, oper := true }), 4000000000, 0, 5, { unit := 5, heard := true, oper := true },
   by decide, by decide, by decide⟩⟩

theorem test_witness_FramesAndCredits_CreditsAndSending :
    (∃ (s : State) (p : Nat) (unit : Nat) (q : Peer), (s.peerOf p unit = some q) ∧ (q.oper = true)) ∧
    (∃ (s : State) (t : Nat) (p : Nat) (unit : Nat) (v : Nat) (q : Peer), (s.peerOf p unit = some q) ∧ (q.oper = true) ∧
     (q.changedAt = some v) ∧ (v + 20000 ≤ max s.now t)) ∧
    (∃ (s : State) (t : Nat) (p : Nat) (i : Nat), (s.portOn p = true) ∧ ((s.portOf p).busyUntil ≤ max s.now t) ∧
     (s.nextItem p = some i)) ∧
    (∃ (s : State) (d : Dest), (dstField (s.nat FABRIC.status_dst) = some d) ∧ (s.fab.statusNext ≤ s.stage.boundaries) ∧
     (s.purse.t1 = true) ∧ (s.inPair = false) ∧ (s.fab.conflict = false) ∧ (s.wake.bare = false)) :=
  ⟨⟨(net [] { unit := 5, heard := true, oper := true, k := [0, 2, 0, 0], got := [0, 15, 0, 0] }), 0, 5, ({ unit := 5, heard := true, oper := true, k := [0, 2, 0, 0], got := [0, 15, 0, 0] }),
   by decide, by decide⟩,
   ⟨(net [] { unit := 5, heard := true, oper := true, changedAt := some 5 }), 20005, 0, 5, 5, { unit := 5, heard := true, oper := true, changedAt := some 5 },
   by decide, by decide, by decide, by decide⟩,
   ⟨(let s := net []; { s with fab := { ports := [{ up := true, queue := [{ frame := thello }] }] } }), 5, 0, 0, by decide,
   by decide, by decide⟩,
   ⟨(net [tc FABRIC.status_dst 0 0x4005]), { id := 5 }, by decide, by decide, by decide, by decide, by decide, by decide⟩⟩

theorem test_witness_FramesAndCredits_FrameReception :
    (∃ (s : State) (p : Nat) (from_ : Nat) (f : Frame) (q : Peer), (s.portOn p = true) ∧ (s.peerOf p from_ = some q) ∧
     (s.verdict q f = .reject 1)) ∧
    (∃ (s : State) (p : Nat) (from_ : Nat) (f : Frame) (q : Peer), (s.portOn p = true) ∧ (s.peerOf p from_ = some q) ∧
     (s.verdict q f = .dup)) ∧
    (∃ (s : State) (p : Nat) (from_ : Nat) (f : Frame) (q : Peer), (s.portOn p = true) ∧ (s.peerOf p from_ = some q) ∧
     (s.verdict q f = .accept) ∧ (f.type = 0x002) ∧ (f.msg = .credit) ∧ (s.spawnTask 1 0x002 = none)) :=
  ⟨⟨(net []), 0, 5, { thello with version := 2 }, { unit := 5, boot := 3, heard := true, said := true, oper := true },
   by decide, by decide, by decide⟩,
   ⟨(let s := net []; { s with fab := { s.fab with sources := [{ src := 5, boot := some 3, seqs := [none, some (9, 1), none, none] }] } }),
   0, 5, { thello with seq := 9 }, { unit := 5, boot := 3, heard := true, said := true, oper := true }, by decide, by decide,
   by decide⟩,
   ⟨keyed, 0, 5, { tcredit with tag := keyed.tagOf 5 3 tcredit }, { unit := 5, boot := 3, heard := true, said := true, oper := true },
   by decide, by decide, by unfold State.verdict; rw [if_neg (by decide), if_neg (by decide), if_neg (by decide),
   if_neg (fun h => h rfl), if_neg (by decide), if_neg (by decide), if_neg (by decide), if_neg (by decide)], by decide,
   by decide, by decide⟩⟩

theorem test_witness_SiteTime :
    (∃ (s : State) (p : Nat) (a : Announce), (s.portOn p = true) ∧ (a.gm ≠ s.clockId) ∧ (a.prio1 ≠ 255) ∧ (s.time.gm = none) ∧
     (clockBetter a s.ownClock = true)) ∧
    (∃ (s : State) (t : Nat) (p : Nat) (o : Nat) (stamp : SyncStamps) (corr : Int) (off : Int) (g : Announce),
     (s.portOn p = true) ∧ (s.time.gm = some (g, p)) ∧ (s.time.everSet = false) ∧ ((s.tick t).syncOffset p o corr stamp = off)) ∧
    (∃ (s : State), (s.isGm = true)) ∧
    (∃ (s : State) (t : Nat) (v : Nat) (g : Announce × Nat), (s.time.gm = some g) ∧ (s.time.lastSync = some v) ∧
     (v + s.nat FABRIC.sync_timeout * s.syncInterval ≤ max s.now t)) ∧
    (∃ (s : State) (q : Nat) (x : Nat), (s.flag FABRIC.flags 0 = true) ∧ (s.time.origins.find? (fun z => z.1 == q) = some (q,
     x))) ∧
    (∃ (s : State) (q : Nat) (o : Nat), (s.isGm = true) ∧ (s.time.sent = some (q, o)) ∧ (s.fab.conflict = false) ∧
     (s.wake.bare = false)) :=
  ⟨⟨(net []), 0, { prio1 := 1, gm := 1 }, by decide, by decide, by decide, by decide, by decide⟩,
   ⟨(let s := net []; { s with time := { gm := some ({ prio1 := 1, gm := 1 }, 0) } }), 400, 0, 0, { strobe := 300 }, 0,
   ((((let s := net []; ({ s with time := { gm := some ({ prio1 := 1, gm := 1 }, 0) } } : State)).tick 400).syncOffset 0 0 0 { strobe := 300 })),
   { prio1 := 1, gm := 1 }, by decide, by decide, by decide, rfl⟩,
   ⟨(net [tc FABRIC.gm_priority 0 1]), by decide⟩,
   ⟨(let s := net []; { s with time := { gm := some ({ prio1 := 1, gm := 1 }, 0), lastSync := some 5 } }), 4000000000, 5,
   (({ prio1 := 1, gm := 1 }, 0)), by decide, by decide, by decide⟩,
   ⟨(let s := net [tc FABRIC.flags 0 1]; { s with time := { origins := [(4, 77)] } }), 4, 77, by decide, by decide⟩,
   ⟨(let s := net [tc FABRIC.gm_priority 0 1]; { s with time := { sent := some (4, 77) } }), 4, 77, by decide, by decide,
   by decide, by decide⟩⟩

theorem test_witness_SiteTime_TimeIsSet :
    ∃ (s : State) (src : Nat) (id : Nat), (s.keptFor src id = none) ∧ (s.isGm = true) :=
  ⟨(net [tc FABRIC.gm_priority 0 1]), 12, 3, by decide, by decide⟩

theorem test_witness_ConnectionsAndDrives :
    (∃ (s : State) (t : Nat) (src : Nat) (boot : Nat) (conn : Nat) (sc : Nat) (ts : Nat) (fl : Nat) (d : Nat) (x : Nat) (k : Nat),
     (k < s.cons.length) ∧
     ((List.range 16).find? (fun k => s.nat SAFECON.dir k == 2 && s.nat SAFECON.conn_id k == conn && s.nat SAFECON.peer k == src) = some k) ∧
     ((s.tick t).pduFails k boot sc ts fl d x = 0) ∧ ((s.conOf k).st ≠ 3)) ∧
    (∃ (s : State) (t : Nat) (k : Nat), (max s.now t = s.stage.openedAt) ∧ (k < 16) ∧ (k < s.cons.length) ∧
     (s.nat SAFECON.dir k = 2) ∧ ((s.conOf k).st = 2) ∧ ((s.conOf k).lastB + s.nat SAFECON.watchdog k ≤ s.stage.boundaries)) ∧
    (∃ (s : State) (src : Nat) (a : Nat), (a < 12) ∧ (a < s.xd.length) ∧ (s.hasXd a = true) ∧ (s.nat XD.unit a = src)) ∧
    (∃ (s : State) (a : Nat) (n : Nat), (a < s.xd.length) ∧ ((s.xdOf a).offSince = some n) ∧
     (n + s.nat XD.t_conf a ≤ s.stage.boundaries) ∧ ((s.xdOf a).unconfirmed = false)) :=
  ⟨⟨({ run0 [tc SAFECON.dir 2 2, tc SAFECON.conn_id 2 6, tc SAFECON.peer 2 5, tc SAFECON.seed 2 9] 7 with cons := [{}, {}, { st := 1 }] }),
   5, 5, 3, 6, 1, 0, 0, 1, (crc32c (pduBytes 6 1 0 0 1) 9), 2, by decide, by decide, by decide +kernel, by decide⟩,
   ⟨({ run0 [tc SAFECON.dir 0 2] 7 with stage := { boundaries := 16 }, cons := [{ st := 2, data := 1 }] }), 0, 0, by decide,
   by decide, by decide, by decide, by decide, by decide⟩,
   ⟨(run0 [tc CURRENT.kind 11 4, tc XD.unit 11 5] 7), 5, 11, by decide, by decide, by decide, by decide⟩,
   ⟨({ run0 [tc CURRENT.kind 0 4, tc XD.unit 0 5] 7 with stage := { boundaries := 3200 }, xd := [{ offSince := some 0 }] }), 0,
   0, by decide, by decide, by decide, by decide⟩⟩

theorem test_witness_TwinLinkAndMirror :
    (∃ (s : State) (p : TwinPkt), (s.inPair = true) ∧ (s.twin.linkUp = true) ∧ (p.crcOk = true) ∧ (p.pair = s.pairId) ∧
     (p.unit = s.nat TWIN.partner)) ∧
    (∃ (s : State) (p : TwinPkt), (s.inPair = true) ∧ (s.twin.linkUp = true) ∧ (p.crcOk = false)) ∧
    (∃ (s : State), (s.inPair = true) ∧ (s.twin.heartbeat = true) ∧ (s.nat TWIN.hb_miss ≤ s.twin.missRun) ∧ (s.twin.st = 3)) ∧
    (∃ (s : State), (s.clk.motionHeld = false)) ∧
    (∃ (s : State) (t : Nat) (e : Nat), (max s.now t = s.stage.openedAt) ∧ (s.twin.rebase = some e) ∧ (s.twin.st = 3) ∧
     ((∀ i ∈ s.mirrorItems, ∃ n b, (s.item i).copy = some (n, b) ∧ e ≤ n))) ∧
    (∃ (s : State) (n : Nat), (s.twin.resumeAt = some n) ∧ (n ≤ s.stage.boundaries)) :=
  ⟨⟨(member 1 { linkUp := true, missRun := 2 }), { kind := 3, pair := 0x4001, unit := 9, epoch := 7 }, by decide, by decide,
   by decide, by decide, by decide⟩,
   ⟨(member 1 { linkUp := true, missRun := 2 }), { kind := 3, pair := 0x4001, unit := 9, epoch := 7, crcOk := false },
   by decide, by decide, by decide⟩,
   ⟨(member 3 { heartbeat := true, missRun := 3 }), by decide, by decide, by decide, by decide⟩,
   ⟨(conf []), by decide⟩,
   ⟨rebased, 0, 5, by decide, by decide, by decide, fun i hi => ⟨9, [], (by decide : ∀ i ∈ rebased.mirrorItems,
   (rebased.item i).copy = some (9, [])) i hi, by decide⟩⟩,
   ⟨(member 3 { resumeAt := some 3 }), 3, by decide, by decide⟩⟩

theorem test_witness_Leases_WitnessLeases :
    (∃ (s : State) (t : Nat) (pair : Nat) (k : Nat), (s.witnessIx pair = some k) ∧ (k < s.twin.wit.length) ∧
     (s.wake.from_ + msCycles 150 ≤ max s.now t) ∧ ((nth s.twin.wit k).holder = 0)) ∧
    (∃ (s : State) (t : Nat) (pair : Nat) (unit : Nat) (k : Nat), (s.witnessIx pair = some k) ∧ (k < s.twin.wit.length) ∧
     (s.wake.from_ + msCycles 150 ≤ max s.now t) ∧ ((nth s.twin.wit k).holder ≠ 0) ∧ ((nth s.twin.wit k).holder ≠ unit) ∧
     ((nth s.twin.wit k).successor ≠ unit) ∧ (max s.now t < (nth s.twin.wit k).until_)) ∧
    (∃ (s : State) (pair : Nat) (unit : Nat) (k : Nat), (s.witnessIx pair = some k) ∧ (k < s.twin.wit.length) ∧ (unit ≠ 0) ∧
     ((nth s.twin.wit k).holder = unit)) :=
  ⟨⟨(conf [tc TWIN.serves 0 0x4001 7]), 60000000, 0x4001, 7, by decide, by decide, by decide, by decide⟩,
   ⟨({ conf [tc TWIN.serves 0 0x4001 0] with twin := { wit := [{ holder := 8, until_ := 70000000 }] } }), 60000000, 0x4001, 9,
   0, by decide, by decide, by decide, by decide, by decide, by decide, by decide⟩,
   ⟨({ conf [tc TWIN.serves 0 0x4001 0] with twin := { wit := [{ holder := 8, until_ := 70000000 }] } }), 0x4001, 8, 0,
   by decide, by decide, by decide, by decide⟩⟩

theorem test_witness_Leases_LeaseOfMember :
    (∃ (s : State) (v : Nat), (s.inPair = true) ∧ (s.twin.st = 1) ∧ (s.stage.aligned = true) ∧ (s.twin.wakeReq = some v) ∧
     (s.flag TWIN.flags 0 = true) ∧ (s.twin.rebase = none) ∧ (s.twin.reqAt = none)) ∧
    (∃ (s : State) (t : Nat) (v : Nat), (s.inPair = true) ∧ (s.twin.st = 2) ∧ (s.twin.leaseNo ≠ 0) ∧ (s.twin.reqAt = some v) ∧
     (v + msCycles (s.nat TWIN.renew) ≤ max s.now t)) ∧
    (∃ (s : State) (v : Nat), (s.inPair = true) ∧ (s.twin.st = 1) ∧ (s.twin.reqAt = some v)) :=
  ⟨⟨(let s := member 1 { wakeReq := some 5 } [tc TWIN.flags 0 1]; { s with stage := { s.stage with aligned := true } }), 5,
   by decide, by decide, by decide, by decide, by decide, by decide, by decide⟩,
   ⟨(member 2 { leaseNo := 1, reqAt := some 0 }), 20000000, 0, by decide, by decide, by decide, by decide, by decide⟩,
   ⟨(member 1 { reqAt := some 0 }), 0, by decide, by decide, by decide⟩⟩

theorem test_witness_HandoffAndGrant :
    (∃ (s : State) (t : Nat) (v : Nat), (s.twin.leaseEnd = some v) ∧ (s.twin.st = 2) ∧ (v ≤ max s.now t) ∧
     (s.twin.handoff = none) ∧ (s.partnerFit = true)) ∧
    (∃ (s : State) (t : Nat) (v : Nat), (s.twin.leaseEnd = some v) ∧ (s.twin.st = 2) ∧ (v ≤ max s.now t) ∧
     (s.twin.handoff = none) ∧ (s.partnerFit = false)) ∧
    (∃ (s : State) (t : Nat) (h : Nat), (max s.now t = s.stage.openedAt) ∧ (s.twin.handoff = some h) ∧ (h ≤ s.stage.epoch) ∧
     (s.twin.st = 2)) ∧
    (∃ (s : State) (t : Nat), (s.localPair = true) ∧
     (s.twin.grantAt + usCycles (s.nat TWIN.sel_time) + s.period ≤ max s.now t) ∧ (s.selReading ≠ s.twin.grant)) ∧
    (∃ (s : State) (src : Nat) (id : Nat), (s.keptFor src id = none) ∧ (s.mode.mode ≠ 0) ∧ (s.localPair = true) ∧
     (s.twin.st = 2) ∧ (s.partnerFit = true) ∧ (s.twin.handoff = none)) :=
  ⟨⟨(member 2 { leaseNo := 1, leaseEnd := some 5, heartbeat := true, pkts := [{ kind := 3, flags := 24, pair := 0x4001, unit := 9, epoch := 7 }] }),
   5, 5, by decide, by decide, by decide, by decide, by decide⟩,
   ⟨(member 2 { leaseNo := 1, leaseEnd := some 5 }), 5, 5, by decide, by decide, by decide, by decide, by decide⟩,
   ⟨(member 2 { leaseNo := 1, grant := true, handoff := some 7 }), 0, 7, by decide, by decide, by decide, by decide⟩,
   ⟨(member 2 { grant := true } [tc TWIN.sel_si 0 1, tc CURRENT.kind 0 1]), 4000000000, by decide, by decide, by decide⟩,
   ⟨(member 2 { leaseNo := 1, heartbeat := true, pkts := [{ kind := 3, flags := 24, pair := 0x4001, unit := 9, epoch := 7 }] } [tc TWIN.sel_si 0 1,
   tc CURRENT.kind 0 1]), 12, 3, by decide, by decide, by decide, by decide, by decide, by decide⟩⟩

theorem test_witness_PortClassChanges :
    (∃ (s : State) (p : Nat) (c : Nat) (on : Bool), (p < 2) ∧ (((nth s.purse.pd p).cls ≠ c ∨ (nth s.purse.pd p).powered ≠ on))) ∧
    (∃ (s : State) (io : NoticeInputs), (s.stage.running = true) ∧ (s.stage.epoch ≠ 0xFFFFFFFFFFFF) ∧
     ((nth s.links 0).failed = false) ∧ (s.stage.noticed ≠ some s.stage.boundaries) ∧
     (max s.now io.t ≤ s.stage.openedAt + 400) ∧ (s.purse.lost = false) ∧ (s.purse.linkFailed = false)) :=
  ⟨⟨(conf []), 1, 5, true, by decide, by decide⟩,
   ⟨(run0 [] 7), { t := 400 }, by decide, by decide, by decide, by decide, by decide, by decide, by decide⟩⟩

theorem test_witness_PowerInput :
    (∃ (s : State) (p : Nat) (c : Nat) (on : Bool), (p < 2) ∧ (p < s.purse.pd.length) ∧
     (((nth s.purse.pd p).cls ≠ c ∨ (nth s.purse.pd p).powered ≠ on))) ∧
    (∃ (s : State) (t : Nat) (p : Nat), (p < 2) ∧ (p < s.purse.pd.length) ∧ (s.flag PURSE.flags 0 = true) ∧
     (s.nat PURSE.class_req = 15) ∧ ((nth s.purse.pd p).powered = false) ∧ ((nth s.purse.pd p).fellBack = false) ∧
     ((nth s.purse.pd p).advAt + 400000000 ≤ max s.now t)) ∧
    (∃ (s : State), (s.purse.lost = false) ∧ (s.nat PURSE.loss_n ≤ s.purse.lossRun)) ∧
    (∃ (s : State), (s.purse.lost = true) ∧ (s.purse.lossRun = 0) ∧ (s.purse.railsOff = false)) ∧
    (∃ (s : State) (h : Nat), (s.purse.lost = true) ∧ (h ≤ s.nat PURSE.v_floor)) ∧
    (∃ (s : State), (1000 ≤ s.purse.overRun) ∧ (s.purse.exceeded = false)) :=
  ⟨⟨(conf []), 1, 5, true, by decide, by decide, by decide⟩,
   ⟨(conf [tc PURSE.flags 0 1]), 400000000, 0, by decide, by decide, by decide, by decide, by decide, by decide, by decide⟩,
   ⟨{ conf [] with purse := { lossRun := 16, t1 := true, t2 := true, grant := 40000 } }, by decide, by decide⟩,
   ⟨{ conf [] with purse := { lost := true } }, by decide, by decide, by decide⟩,
   ⟨{ run0 [] 7 with purse := { lost := true }, wake := { supply := true } }, 18000, by decide, by decide⟩,
   ⟨{ conf [] with purse := { overRun := 1000, t2 := true } }, by decide, by decide⟩⟩

theorem test_witness_RailsAndBuses :
    (∃ (s : State) (m5 : Nat), (s.purse.sAllow ≤ m5)) ∧
    (∃ (s : State) (r : Nat), (r < 2) ∧ (r < s.purse.railOff.length) ∧ (s.purse.railOff.getD r none = none)) ∧
    (∃ (s : State) (b : Nat), (b < 4) ∧ (b < s.purse.buses.length) ∧ (s.nat BUS.ain b ≠ 0) ∧
     ((nth s.ain (s.nat BUS.ain b - 1)).sat = true) ∧ ((s.bus b).susp = false)) ∧
    (∃ (s : State) (b : Nat), (b < 4) ∧ (b < s.purse.buses.length) ∧ (s.nat BUS.ain b ≠ 0) ∧
     ((nth s.ain (s.nat BUS.ain b - 1)).sat = false) ∧ (s.nat BUS.low_n b ≤ (s.bus b).lowRun) ∧ ((s.bus b).low = false)) ∧
    (∃ (s : State) (b : Nat), (b < 4) ∧ (b < s.purse.buses.length) ∧ (s.nat BUS.ain b ≠ 0) ∧
     ((nth s.ain (s.nat BUS.ain b - 1)).sat = false) ∧ ((s.bus b).lowRun < s.nat BUS.low_n b) ∧
     (s.nat BUS.low_n b ≤ (s.bus b).highRun) ∧ ((s.bus b).high = false)) ∧
    (∃ (s : State) (share : Nat) (unit : Nat) (b : Nat), (b < 4) ∧ (b < s.purse.buses.length) ∧ (unit ≠ s.unitId) ∧
     (s.nat BUS.ain b ≠ 0) ∧ (s.flag BUS.flags 1 b = true) ∧ (s.nat BUS.share_id b = share)) :=
  ⟨⟨{ conf [] with purse := { sAllow := 7000 } }, 7000, by decide⟩,
   ⟨(conf []), 1, by decide, by decide, by decide⟩,
   ⟨({ conf [tc BUS.ain 3 1] with ain := [{ sat := true }] }), 3, by decide, by decide, by decide, by decide, by decide⟩,
   ⟨(let s := conf [tc BUS.ain 0 1]; { s with purse := { buses := [{ lowRun := 16 }] } }), 0, by decide, by decide, by decide,
   by decide, by decide, by decide⟩,
   ⟨(let s := conf [tc BUS.ain 0 1]; { s with purse := { buses := [{ highRun := 16 }] } }), 0, by decide, by decide, by decide,
   by decide, by decide, by decide, by decide⟩,
   ⟨(conf [tc FABRIC.unit_id 0 7, tc BUS.ain 0 1, tc BUS.flags 0 2, tc BUS.share_id 0 44]), 44, 5, 0, by decide, by decide,
   by decide, by decide, by decide, by decide⟩⟩

theorem test_witness_SprintClock :
    (∃ (s : State) (t : Nat), (s.purse.sprint = true) ∧ (s.clk.supplyRaised = true) ∧ (s.clk.stage500 = false) ∧
     (max s.now t = s.stage.openedAt) ∧ (s.purse.sprintAt + 40000 ≤ max s.now t)) ∧
    (∃ (s : State) (t : Nat), (s.purse.sprint = true) ∧ (s.clk.supplyRaised = true) ∧ (s.clk.stage500 = false) ∧
     (max s.now t ≠ s.stage.openedAt ∨ max s.now t < s.purse.sprintAt + 40000)) ∧
    (∃ (s : State), (s.purse.sprintReq = true) ∧ (s.nat PURSE.sprint_hold ≤ s.purse.sprintAbsent)) :=
  ⟨⟨(let s := conf []; { s with purse := { sprint := true }, clk := { supplyRaised := true }, stage := { openedAt := 40000 } }),
   40000, by decide, by decide, by decide, by decide, by decide⟩,
   ⟨(let s := conf []; { s with purse := { sprint := true }, clk := { supplyRaised := true }, stage := { openedAt := 39999 } }),
   39999, by decide, by decide, by decide, by decide⟩,
   ⟨(let s := conf []; { s with purse := { sprintReq := true, sprintAbsent := 1600 } }), by decide, by decide⟩⟩

theorem test_witness_ThermalLimits :
    (∃ (k : Nat), (k < 3)) ∧
    (∃ (s : State) (t : Nat) (k : Nat) (v : Nat), (1 ≤ k) ∧ (k ≤ 3) ∧ (s.purse.level = k) ∧
     (s.purse.coolSince.getD (k - 1) none = some v) ∧ (v + msCycles (s.nat PURSE.cool) ≤ max s.now t)) ∧
    (∃ (s : State) (t : Nat) (d : Nat) (v : Nat), (d < 3) ∧ (d < s.purse.plus8.length) ∧
     (s.purse.disSince.getD d none = some v) ∧ (v + 400000000 ≤ max s.now t) ∧ (s.purse.plus8.getD d false = false)) :=
  ⟨⟨0, by decide⟩,
   ⟨(let s := conf []; { s with purse := { level := 1, coolSince := [some 5, none, none] } }), 400000005, 1, 5, by decide,
   by decide, by decide, by decide, by decide⟩,
   ⟨(let s := conf []; { s with purse := { disSince := [none, none, some 5] } }), 400000005, 2, 5, by decide, by decide,
   by decide, by decide, by decide⟩⟩

theorem test_witness_LedgerAndNevtRouting :
    (∃ (v : Nat), (3 ≤ v)) ∧
    (∃ (s : State) (c : Nat) (v : Nat), (s.wake.ledgerOn = true) ∧ ((s.routeOf c (max (s.sevOf c) v)).2.2 = true)) ∧
    (∃ (s : State), (s.nat LEDGER.nevt_mode = 2) ∧ (s.led.nevtLow = true)) :=
  ⟨⟨3, by decide⟩,
   ⟨(let s := net []; { s with wake := { phase := 7, supply := true, ledgerOn := true } }), 0xB2, 0, by decide, by decide⟩,
   ⟨(let s := conf [tc LEDGER.nevt_mode 0 2]; { s with led := { nevtLow := true } }), by decide, by decide⟩⟩

theorem test_witness_LedgerRecords :
    (∃ (s : State) (c : Nat) (v : Nat), (codeBorne (c % 256) = true) ∧ (s.led.state = .opened) ∧ (s.led.buf = []) ∧
     (s.led.cnt = []) ∧ (0 < s.ledL) ∧ (max (s.sevOf (c % 256)) v < 4)) ∧
    (∃ (s : State) (t : Nat) (r : LedRec) (l : List LedRec), (s.led.buf = r :: l) ∧
     (r.life + s.nat LEDGER.max_age * 1000000000 ≤ (s.tick t).life)) ∧
    (∃ (s : State) (p : List LedRec), (s.led.flushing = true) ∧ (p = s.led.buf.takeWhile (·.begun)) ∧ (p ≠ []) ∧
     (s.led.state = .opened)) ∧
    (∃ (s : State) (v : Nat), (bit v 1 = true) ∧ (s.led.buf ≠ [])) ∧
    (∃ (s : State) (src : Nat) (id : Nat), (s.keptFor src id = none) ∧ (s.led.buf ≠ [])) ∧
    (∃ (v : Nat), (bit v 0 = true)) ∧
    (∃ (s : State) (t : Nat), (s.nat LEDGER.nevt_mode = 2) ∧ (s.led.nevtLow = true) ∧
     (s.led.nevtLastAt + s.nat LEDGER.nevt_width ≤ max s.now t)) :=
  ⟨⟨(let s := conf []; { s with purse := { pmax := 100 } }), 0x60, 0, by decide, by decide, by decide, by decide, by decide,
   by decide⟩,
   ⟨(let s := conf []; { s with led := { buf := [{}], life64 := 64000000000000000 } }), 5, {}, [], by decide, by decide⟩,
   ⟨(let s := conf []; { s with led := { flushing := true, buf := [{ begun := true }, { begun := true }] } }),
   [{ begun := true }, { begun := true }], by decide, by decide, by decide, by decide⟩,
   ⟨(let s := conf []; { s with led := { buf := [{}] } }), 2, by decide, by decide⟩,
   ⟨(let s := conf []; { s with led := { buf := [{}] } }), 12, 3, by decide, by decide⟩,
   ⟨1, by decide⟩,
   ⟨(let s := conf [tc LEDGER.nevt_mode 0 2]; { s with led := { nevtLow := true } }), 400000000, by decide, by decide,
   by decide⟩⟩

theorem test_witness_LedgerReadsAndClock :
    (∃ (s : State) (t : Nat) (v : Nat), (max s.now t = s.stage.openedAt) ∧ (s.led.readAt = some v) ∧ (v + 40000 ≤ max s.now t)) ∧
    (∃ (s : State), (s.clk.rtcFault = false)) ∧
    (∃ (s : State) (t : Nat), (s.led.lifePersist + 3600000000000 ≤ (s.tick t).life)) ∧
    (∃ (v : Nat), (bit v 0 = true)) ∧
    (∃ (s : State) (src : Nat) (id : Nat) (addr : Nat) (w : Nat) (v : Nat), (s.keptFor src id = none) ∧ (addr = 0x10004) ∧
     (w = 4) ∧ (bit v 0 = true)) ∧
    (∃ (s : State) (src : Nat) (id : Nat) (addr : Nat) (w : Nat) (v : Nat), (s.keptFor src id = none) ∧ (addr = 0x32004) ∧
     (w = 4) ∧ (bit v 0 = true)) ∧
    (∃ (s : State) (src : Nat) (id : Nat) (addr : Nat) (w : Nat), (s.keptFor src id = none) ∧ (addr = 0x32050) ∧ (w = 8)) ∧
    (∃ (s : State) (src : Nat) (id : Nat) (addr : Nat) (w : Nat), (s.keptFor src id = none) ∧ ((addr = 0x10004 ∧
     w = 4) ∨ (addr = 0x32004 ∧ w = 4) ∨ (addr = 0x32050 ∧ w = 8))) ∧
    (∃ (s : State) (src : Nat) (id : Nat) (addr : Nat), (s.keptFor src id = none) ∧ (addr ≠ 0x10004) ∧ (addr ≠ 0x32004) ∧
     (addr ≠ 0x32050)) :=
  ⟨⟨(let s := conf []; { s with stage := { openedAt := 40005 }, led := { readAt := some 5, readFrom := 0 } }), 40005, 5,
   by decide, by decide, by decide⟩,
   ⟨(conf []), by decide⟩,
   ⟨(let s := conf []; { s with led := { life64 := 230400000000000 } }), 5, by decide⟩,
   ⟨1, by decide⟩,
   ⟨(oneTask .ready (tk) { wkind := 1, deadline := 100 }), 12, 3, 0x10004, 4, 1, by decide, by decide, by decide, by decide⟩,
   ⟨(let s := conf []; { s with led := { nevtLow := true } }), 12, 3, 0x32004, 4, 1, by decide, by decide, by decide, by decide⟩,
   ⟨(conf []), 12, 3, 0x32050, 8, by decide, by decide, by decide⟩,
   ⟨(conf []), 12, 3, 0x32050, 8, by decide, by decide⟩,
   ⟨(conf []), 12, 3, 0x32000, by decide, by decide, by decide, by decide⟩⟩

theorem test_witness_AgeingAndHoldUp :
    (∃ (s : State) (n : List (Nat × Nat)) (k : Nat), (s.stw.agedAt = none) ∧ (k < 20) ∧ (k < s.stw.pairD.length) ∧
     ((nth n k).2 ≠ 0) ∧ (nth s.stw.r0 k ≠ 0)) ∧
    (∃ (s : State) (src : Nat) (id : Nat), (s.keptFor src id = none) ∧ (s.stw.testFrom = none)) ∧
    (∃ (s : State), (s.stw.testFrom = none) ∧ (s.stw.testRetry = none) ∧ (s.stw.testLife = none)) ∧
    (∃ (s : State) (t : Nat) (v : Nat), (s.stw.testDue = true) ∧ (s.stw.testFrom = none) ∧ (s.testMode = true) ∧
     (s.stw.holdSince = some v) ∧ (max s.now t = s.stage.openedAt) ∧ (v + 4000000000 ≤ max s.now t) ∧ (0 < s.purse.grant) ∧
     (s.purse.lost = false)) ∧
    (∃ (s : State) (esr : Nat) (us : Nat) (v : Nat), (s.stw.testFrom = some v) ∧ (us ≤ 1000000) ∧ (100 ≤ us / 20) ∧
     (us / 20 ≤ 12000) ∧ (esr ≤ 5000)) ∧
    (∃ (s : State) (v : Nat), (s.stw.testFrom = some v)) :=
  ⟨⟨(conf []), [(97000, 100000)], 0, by decide, by decide, by decide, by decide, by decide⟩,
   ⟨(conf []), 12, 3, by decide, by decide⟩,
   ⟨(conf []), by decide, by decide, by decide⟩,
   ⟨(let s := conf []; { s with stage := { openedAt := 4000000005 }, stw := { testDue := true, holdSince := some 5 }, mode := { mode := 6 }, purse := { grant := 40000 } }),
   4000000005, 5, by decide, by decide, by decide, by decide, by decide, by decide, by decide, by decide⟩,
   ⟨(let s := conf []; { s with stw := { testFrom := some 5 } }), 500, 100000, 5, by decide, by decide, by decide, by decide,
   by decide⟩,
   ⟨(let s := conf []; { s with stw := { testFrom := some 5 } }), 5, by decide⟩⟩

theorem test_witness_SelfTestsAndAttestation :
    (∃ (s : State) (src : Nat) (id : Nat) (p : Bool), (s.keptFor src id = none) ∧ (p = false)) ∧
    (∃ (s : State) (src : Nat) (id : Nat) (p : Bool), (s.keptFor src id = none) ∧ (p = true)) ∧
    (∃ (s : State) (t : Nat) (p : Bool), (s.stw.selfTestAt + 3600000000000 * s.nat STEWARD.selftest_h ≤ (s.tick t).life) ∧
     (p = false)) ∧
    (∃ (s : State) (t : Nat) (p : Bool), (s.stw.selfTestAt + 3600000000000 * s.nat STEWARD.selftest_h ≤ (s.tick t).life) ∧
     (p = true)) ∧
    (∃ (s : State) (f : Nat), (s.stw.secError = false) ∧ (s.stw.idFault = false) ∧ (s.stw.kill = false) ∧ (f < 2) ∧
     (s.stw.attest = none)) ∧
    (∃ (s : State), (s.stw.secError = true)) ∧
    (∃ (s : State) (q : AttReq), (s.stw.attest = some q) ∧ (s.purse.t1 = true)) ∧
    (∃ (s : State) (q : AttReq), (s.stw.attest = some q) ∧ (s.purse.t1 = true)) :=
  ⟨⟨(conf []), 12, 3, false, by decide, by decide⟩,
   ⟨(conf []), 12, 3, true, by decide, by decide⟩,
   ⟨(let s := conf []; { s with led := { life64 := 64000000000000000 } }), 5, false, by decide, by decide⟩,
   ⟨(let s := conf []; { s with led := { life64 := 64000000000000000 } }), 5, true, by decide, by decide⟩,
   ⟨(net []), 1, by decide, by decide, by decide, by decide, by decide⟩,
   ⟨(let s := net []; { s with stw := { secError := true } }), by decide⟩,
   ⟨(let s := net []; { s with stw := { attest := some { src := 12, nonce := [1] } } }), { src := 12, nonce := [1] },
   by decide, by decide⟩,
   ⟨(let s := net []; { s with stw := { attest := some { src := 12, nonce := [1] } } }), { src := 12, nonce := [1] },
   by decide, by decide⟩⟩

theorem test_witness_ChunksAndParts :
    (∃ (s : State) (ty : Nat) (ix : Nat) (c : Chunk), (chunkIx ty = some ix) ∧ (ix = 1 ∨ ix = 2) ∧ (ix < s.stw.asm.length) ∧
     (s.stw.secError = false) ∧ (s.mode.mode ≠ 0) ∧ (c.rsvd = false) ∧ (partAllowed ix c.part = true) ∧ (c.offset = 0) ∧
     (c.data ≠ []) ∧ (c.data.length < c.total) ∧ (c.total ≤ areaOf c.part) ∧ (s.asmOf ix = none)) ∧
    (∃ (s : State) (k : Nat) (c : Chunk), (0 < s.stw.asm.length) ∧ (s.stw.secError = false) ∧ (s.mode.mode ≠ 0) ∧
     (c.rsvd = false) ∧ (partAllowed 0 c.part = true) ∧ (c.offset = 0) ∧ (c.data ≠ []) ∧ (c.data.length < c.total) ∧
     (c.total ≤ areaOf c.part) ∧ (s.asmOf 0 = none) ∧ (s.stw.verifying = none) ∧ (s.stagingSlot = some k) ∧
     (k < s.stw.slots.length)) ∧
    (∃ (s : State) (a : Assembly), (s.asmOf 0 = some a)) ∧
    (∃ (s : State) (k : Nat) (c : Container), (s.stw.verifying = some k) ∧ (k < s.stw.slots.length) ∧
     (s.stw.verifySrc.2.2 = 1) ∧ ((nth s.stw.slots k).fwStaged = true) ∧ (s.containerCause 1 0 c ≠ none)) :=
  ⟨⟨(net []), 0x7B, 1, { obj := 1, part := 3, total := 10, offset := 0, data := [1, 2] }, by decide, by decide, by decide,
   by decide, by decide, by decide, by decide, by decide, by decide, by decide, by decide, by decide⟩,
   ⟨(net []), 0, { obj := 1, part := 1, total := 10, offset := 0, data := [1, 2] }, by decide, by decide, by decide, by decide,
   by decide, by decide, by decide, by decide, by decide, by decide, by decide, by decide, by decide⟩,
   ⟨(let s := net []; { s with stw := { asm := [some { obj := 1, part := 1, total := 10, erasing := true }, none, none] } }),
   { obj := 1, part := 1, total := 10, erasing := true }, by decide⟩,
   ⟨(let s := net []; { s with stw := { verifying := some 1, verifySrc := (12, 1, 1), slots := [{}, { state := 1, fwStaged := true }] } }),
   1, { layoutOk := false }, by decide, by decide, by decide, by decide, by decide⟩⟩

theorem test_witness_ChunksAndParts_given
    (hf4 : Config.slhVerify [] (withContext "PYRAD-FIRMWARE" []) [] = true)
    (hw4 : Config.slhVerify [] (withContext "PYRAD-WAYBILL" []) [] = true) :
    ∃ (s : State) (k : Nat) (c : Container) (w : Container), (s.stw.verifying = some k) ∧ (k < s.stw.slots.length) ∧
     (s.stw.verifySrc.2.2 = 1) ∧ ((nth s.stw.slots k).fwStaged = true) ∧ (s.containerCause 1 0 c = none) ∧
     ((nth s.stw.slots k).wbStaged = true) ∧ ((nth s.stw.slots k).wb = some w) ∧ (s.containerCause 2 c.api w = none) :=
  ⟨(let s := net []; { s with stw := { owners := [{ state := 1 }, {}, {}, {}], verifying := some 1, verifySrc := (12, 1, 1), slots := [{}, { state := 1, fwStaged := true, wbStaged := true, wb := some twc }] } }),
   1, tfw, twc, by decide, by decide, by decide, by decide, by simp [State.containerCause, tfw, rising, hf4], by decide,
   by decide, by simp [State.containerCause, tfw, twc, nth, hw4, net, run0, conf, State.reset]⟩

theorem test_witness_SignedObjects :
    ∃ (s : State) (t : Nat) (a : Assembly) (c : Instr), (s.complete 2 = some a) ∧ (2 < s.stw.answers.length) ∧
     (s.stw.owners.length = 4) ∧ (s.stw.secError = false) ∧ (s.stw.verifying = none) ∧ (num a.data 5 1 ≠ 255) ∧
     ((c = .ownerKeyFuse t ∧ num a.data 4 1 = 5) ∨ (c = .ownerKeyRevoke t ∧ num a.data 4 1 = 6) ∨ (c = .zeroise t ∧
     num a.data 4 1 = 7) ∨ (c = .activate t ∧ num a.data 4 1 = 8) ∨ (c = .commit t ∧
     num a.data 4 1 = 9) ∨ (c = .keyDelivery t ∧ num a.data 4 1 = 4)) ∧ (s.objStatus a.part (readObj false a.data) ≠ 0) :=
  ⟨(let s := net []; { s with stw := { asm := [none, none, some { obj := 1, part := 5, total := 5, next := 5, data := [0, 0, 0, 0, 5] }] } }),
   5, { obj := 1, part := 5, total := 5, next := 5, data := [0, 0, 0, 0, 5] }, (.ownerKeyFuse 5), by decide, by decide,
   by decide, by decide, by decide, by decide, Or.inl ⟨rfl, by decide⟩, by decide⟩

theorem test_witness_SignedObjects_given
    (hd1 : (tobj (tdata 5 (tbody 5))).digestOk = true)
    (hv1 : Config.slhVerify [] (withContext "PYRAD-OBJ" (tobj (tdata 5 (tbody 5))).digest) (tobj (tdata 5 (tbody 5))).signature = true)
    (hd2 : (tobj (tdata 6 (tbody 6))).digestOk = true)
    (hv2 : Config.slhVerify [] (withContext "PYRAD-OBJ" (tobj (tdata 6 (tbody 6))).digest) (tobj (tdata 6 (tbody 6))).signature = true)
    (hd3 : (tobj (tdata 7 (tbody 7))).digestOk = true)
    (hv3 : Config.slhVerify [] (withContext "PYRAD-OBJ" (tobj (tdata 7 (tbody 7))).digest) (tobj (tdata 7 (tbody 7))).signature = true)
    (hd4 : (tobj (tdata 8 (tbody 8))).digestOk = true)
    (hv4 : Config.slhVerify [] (withContext "PYRAD-OBJ" (tobj (tdata 8 (tbody 8))).digest) (tobj (tdata 8 (tbody 8))).signature = true)
    (hd5 : (tobj (tdata 9 (tbody 9))).digestOk = true)
    (hv5 : Config.slhVerify [] (withContext "PYRAD-OBJ" (tobj (tdata 9 (tbody 9))).digest) (tobj (tdata 9 (tbody 9))).signature = true)
    (hd6 : (tobj (tdata 4 (tbody 4))).digestOk = true)
    (hv6 : Config.slhVerify [] (withContext "PYRAD-OBJ" (tobj (tdata 4 (tbody 4))).digest) (tobj (tdata 4 (tbody 4))).signature = true)
    (hk6 : Config.kemOpen [] (sub (tobj (tdata 4 (tbody 4))).body 0x10 1568) (sub (tobj (tdata 4 (tbody 4))).body 0x630 40 ++ [num (tobj (tdata 4 (tbody 4))).body 0 1] ++ le 8 (tobj (tdata 4 (tbody 4))).seq) = some [7]) :
    (∃ (s : State) (a : Assembly) (o : Obj), (s.complete 2 = some a) ∧ (2 < s.stw.answers.length) ∧ (s.stw.owners.length = 4) ∧
     (s.stw.secError = false) ∧ (s.stw.verifying = none) ∧ (num a.data 5 1 ≠ 255) ∧ (readObj false a.data = some o) ∧
     (s.objStatus a.part (some o) = 0) ∧ (o.kind = 5) ∧ (num o.body 0 1 < 4) ∧ ((nth s.stw.owners (num o.body 0 1)).state = 0)) ∧
    (∃ (s : State) (a : Assembly) (o : Obj), (s.complete 2 = some a) ∧ (2 < s.stw.answers.length) ∧ (s.stw.owners.length = 4) ∧
     (s.stw.secError = false) ∧ (s.stw.verifying = none) ∧ (num a.data 5 1 ≠ 255) ∧ (readObj false a.data = some o) ∧
     (s.objStatus a.part (some o) = 0) ∧ (o.kind = 6) ∧ (num o.body 0 1 < 4) ∧ (num o.body 0 1 ≠ o.signer) ∧
     (¬((nth s.stw.owners (num o.body 0 1)).state = 1 ∧ (s.stw.owners.filter (fun x => x.state == 1)).length = 1))) ∧
    (∃ (s : State) (a : Assembly) (o : Obj), (s.complete 2 = some a) ∧ (2 < s.stw.answers.length) ∧ (s.stw.owners.length = 4) ∧
     (s.stw.secError = false) ∧ (s.stw.verifying = none) ∧ (num a.data 5 1 ≠ 255) ∧ (readObj false a.data = some o) ∧
     (s.objStatus a.part (some o) = 0) ∧ (o.kind = 7) ∧ (num o.body 0 1 = 1 ∨ num o.body 0 1 = 2) ∧
     (s.mode.mode = 6 ∨ s.mode.mode = 7) ∧ (num o.body 0 1 = 2)) ∧
    (∃ (s : State) (a : Assembly) (o : Obj), (s.complete 2 = some a) ∧ (2 < s.stw.answers.length) ∧ (s.stw.owners.length = 4) ∧
     (s.stw.secError = false) ∧ (s.stw.verifying = none) ∧ (num a.data 5 1 ≠ 255) ∧ (readObj false a.data = some o) ∧
     (s.objStatus a.part (some o) = 0) ∧ (o.kind = 8) ∧ (num o.body 0 1 < 2) ∧ ((nth s.stw.slots (num o.body 0 1)).state = 2) ∧
     (s.mode.mode = 6 ∨ s.mode.mode = 7)) ∧
    (∃ (s : State) (a : Assembly) (o : Obj), (s.complete 2 = some a) ∧ (2 < s.stw.answers.length) ∧ (s.stw.owners.length = 4) ∧
     (s.stw.secError = false) ∧ (s.stw.verifying = none) ∧ (num a.data 5 1 ≠ 255) ∧ (readObj false a.data = some o) ∧
     (s.objStatus a.part (some o) = 0) ∧ (o.kind = 9) ∧ (num o.body 0 1 < 2) ∧ ((nth s.stw.slots (num o.body 0 1)).state = 5)) ∧
    (∃ (s : State) (a : Assembly) (o : Obj) (key : List Octet), (s.complete 2 = some a) ∧ (2 < s.stw.answers.length) ∧
     (s.stw.owners.length = 4) ∧ (s.stw.secError = false) ∧ (s.stw.verifying = none) ∧ (num a.data 5 1 ≠ 255) ∧
     (readObj false a.data = some o) ∧ (s.objStatus a.part (some o) = 0) ∧ (o.kind = 4) ∧ (s.stw.idFault = false) ∧
     (s.stw.kill = false) ∧ (num o.body 0 1 ≠ s.fab.keyCur) ∧
     (Config.kemOpen s.stw.seed (sub o.body 0x10 1568) (sub o.body 0x630 40 ++ [num o.body 0 1] ++ le 8 o.seq) = some key)) :=
  ⟨⟨(holds 5 29960), (tasm 5 29960 (tdata 5 (tbody 5))), (tobj (tdata 5 (tbody 5))), rfl, by decide, by decide, by decide,
   by decide, by decide +kernel, tobj_reads _ (by decide +kernel),
   holds_passes _ _ _ (by decide +kernel) (by decide +kernel) (by decide +kernel) (by decide +kernel) hd1 hv1 (by decide +kernel),
   by decide +kernel, by decide +kernel, by decide +kernel⟩,
   ⟨(holds 6 29896), (tasm 6 29896 (tdata 6 (tbody 6))), (tobj (tdata 6 (tbody 6))), rfl, by decide, by decide, by decide,
   by decide, by decide +kernel, tobj_reads _ (by decide +kernel),
   holds_passes _ _ _ (by decide +kernel) (by decide +kernel) (by decide +kernel) (by decide +kernel) hd2 hv2 (by decide +kernel),
   by decide +kernel, by decide +kernel, by decide +kernel, by decide +kernel⟩,
   ⟨(holds 7 29896), (tasm 7 29896 (tdata 7 (tbody 7))), (tobj (tdata 7 (tbody 7))), rfl, by decide, by decide, by decide,
   by decide, by decide +kernel, tobj_reads _ (by decide +kernel),
   holds_passes _ _ _ (by decide +kernel) (by decide +kernel) (by decide +kernel) (by decide +kernel) hd3 hv3 (by decide +kernel),
   by decide +kernel, by decide +kernel, by decide +kernel, by decide +kernel⟩,
   ⟨(holds 8 29896), (tasm 8 29896 (tdata 8 (tbody 8))), (tobj (tdata 8 (tbody 8))), rfl, by decide, by decide, by decide,
   by decide, by decide +kernel, tobj_reads _ (by decide +kernel),
   holds_passes _ _ _ (by decide +kernel) (by decide +kernel) (by decide +kernel) (by decide +kernel) hd4 hv4 (by decide +kernel),
   by decide +kernel, by decide +kernel, by decide +kernel, by decide +kernel⟩,
   ⟨(holds 9 29896), (tasm 9 29896 (tdata 9 (tbody 9))), (tobj (tdata 9 (tbody 9))), rfl, by decide, by decide, by decide,
   by decide, by decide +kernel, tobj_reads _ (by decide +kernel),
   holds_passes _ _ _ (by decide +kernel) (by decide +kernel) (by decide +kernel) (by decide +kernel) hd5 hv5 (by decide +kernel),
   by decide +kernel, by decide +kernel, by decide +kernel⟩,
   ⟨(holds 4 31512), (tasm 4 31512 (tdata 4 (tbody 4))), (tobj (tdata 4 (tbody 4))), [7], rfl, by decide, by decide, by decide,
   by decide, by decide +kernel, tobj_reads _ (by decide +kernel),
   holds_passes _ _ _ (by decide +kernel) (by decide +kernel) (by decide +kernel) (by decide +kernel) hd6 hv6 (by decide +kernel),
   by decide +kernel, by decide +kernel, by decide +kernel, by decide +kernel, hk6⟩⟩

theorem test_witness_AmendmentsAndKeys_Amendments :
    ∃ (s : State) (a : Assembly), (s.complete 1 = some a) ∧ (1 < s.stw.answers.length) ∧ (s.stw.owners.length = 4) ∧
     (s.stw.secError = false) ∧ (s.objStatus a.part (readObj false a.data) ≠ 0) :=
  ⟨(let s := net []; { s with stw := { asm := [none, some { obj := 1, part := 3, total := 5, next := 5, data := [0, 0, 0, 0, 5] }, none] } }),
   { obj := 1, part := 3, total := 5, next := 5, data := [0, 0, 0, 0, 5] }, by decide, by decide, by decide, by decide,
   by decide⟩

theorem test_witness_AmendmentsAndKeys_Amendments_given
    (hd1 : (tobj (tdata 3 (tbody 3))).digestOk = true)
    (hv1 : Config.slhVerify [] (withContext "PYRAD-OBJ" (tobj (tdata 3 (tbody 3))).digest) (tobj (tdata 3 (tbody 3))).signature = true) :
    ∃ (s : State) (a : Assembly) (o : Obj) (c : List Cell), (s.complete 1 = some a) ∧ (1 < s.stw.answers.length) ∧
     (s.stw.owners.length = 4) ∧ (s.stw.secError = false) ∧ (readObj false a.data = some o) ∧
     (s.objStatus a.part (some o) = 0) ∧ (s.mode.mode ≠ 0) ∧ (sub o.body 0 64 = s.wbDigest) ∧
     (cellsOf ((amdEntries (num o.body 0x40 2) (o.body.drop 0x48)).getD []) = .ok c) ∧
     (State.cellsStatus c { s with cfg := s.newest } = 0) ∧ (s.stw.amds.length < 16) ∧ (s.stw.jFull = false) ∧
     (s.stw.compacting = false) ∧ (s.stw.jUsed + entryRoom c ≤ journalHalf) :=
  ⟨(holds 3 29976), (tasm 3 29976 (tdata 3 (tbody 3))), (tobj (tdata 3 (tbody 3))), [tc DIN.chatter_n 3 9], rfl, by decide,
   by decide, by decide, tobj_reads _ (by decide +kernel),
   holds_passes _ _ _ (by decide +kernel) (by decide +kernel) (by decide +kernel) (by decide +kernel) hd1 hv1 (by decide +kernel),
   by decide, by decide +kernel, rfl, by decide +kernel, by decide, by decide, by decide, by decide⟩

theorem test_witness_AmendmentsAndKeys_Amendments2 :
    ∃ (s : State) (t : Nat) (p : PendAmd), (max s.now t = s.stage.openedAt) ∧ (s.stw.amds = [p]) ∧
     (s.groupReady p.grp = true) ∧ (s.survey.pend = []) :=
  ⟨(let s := drv [] { standstill := true }; { s with stw := { amds := [{ src := 12, obj := 1, objSeq := 1, cells := [tc AXIS.comm_offset 0 99] }] } }),
   0, { src := 12, obj := 1, objSeq := 1, cells := [tc AXIS.comm_offset 0 99] }, by decide, by decide, by decide, by decide⟩

theorem test_witness_AmendmentsAndKeys_KeysAndCompaction :
    ∃ (s : State) (a : Assembly), (s.complete 2 = some a) ∧ (num a.data 5 1 = 255) ∧ (s.stw.secError = false) ∧
     (s.stw.owners.length = 4) ∧ (2 < s.stw.answers.length) ∧ (a.src ≠ 65536) :=
  ⟨(let s := net []; { s with stw := { asm := [none, none, some { obj := 1, part := 5, total := 6, next := 6, data := [0, 0, 0, 0, 5, 255], src := 12 }] } }),
   { obj := 1, part := 5, total := 6, next := 6, data := [0, 0, 0, 0, 5, 255], src := 12 }, by decide, by decide, by decide,
   by decide, by decide, by decide⟩

theorem test_witness_AmendmentsAndKeys_KeysAndCompaction_given
    (hd1 : (tobj (tdata 5 (zeros 72) 255 0) 0).digestOk = true) :
    ∃ (s : State) (a : Assembly) (o : Obj), (s.complete 2 = some a) ∧ (num a.data 5 1 = 255) ∧ (s.stw.secError = false) ∧
     (s.stw.owners.length = 4) ∧ (2 < s.stw.answers.length) ∧ (a.src = 65536) ∧ (readObj true a.data = some o) ∧
     (s.unsignedStatus a.part (some o) = 0) :=
  ⟨(let s := net []; { s with stw := { dev := zeros 8, asm := [none, none, some (tasm 5 168 (tdata 5 (zeros 72) 255 0))] } }),
   (tasm 5 168 (tdata 5 (zeros 72) 255 0)), (tobj (tdata 5 (zeros 72) 255 0) 0), rfl, by decide +kernel, by decide, by decide,
   by decide, by decide, tobj_reads_unsigned _ (by decide +kernel),
   unsigned_passes _ _ (by decide +kernel) (by decide +kernel) (by decide +kernel) (by decide +kernel) (by decide +kernel) (by decide +kernel) hd1⟩

theorem test_witness_AmendmentsAndKeys_KeysAndCompaction2 :
    (∃ (s : State) (t : Nat) (gen : Nat), (s.stw.keyAt = some (gen, 0)) ∧ (max s.now t = s.stage.openedAt) ∧
     (s.fab.keyOther = gen)) ∧
    (∃ (s : State), (s.stw.compacting = true)) :=
  ⟨⟨(let s := keyed; { s with fab := { s.fab with keyOther := 2 }, stw := { keyAt := some (2, 0) } }), 0, 2, by decide,
   by decide, by decide⟩,
   ⟨(let s := conf []; { s with stw := { compacting := true } }), by decide⟩⟩

theorem test_witness_SupplyAndReset :
    (∃ (s : State), (s.wake.supply = false)) ∧
    (∃ (s : State), (s.wake.supply = true) ∧ (s.wake.resetting = false) ∧ (s.led.buf ≠ [])) ∧
    (∃ (s : State), (s.wake.resetting = false) ∧ (s.wake.phase = 0)) :=
  ⟨⟨(conf []), by decide⟩,
   ⟨(let s := net []; { s with led := { buf := [{}] } }), by decide, by decide, by decide⟩,
   ⟨(let s := conf []; { s with wake := { supply := true, resetLow := true } }), by decide, by decide⟩⟩

theorem test_witness_SupplyAndReset_WakingGoesOn :
    ∃ (s : State) (k : Nat) (n : NorFacts), (s.wake.supply = true) ∧ (s.wake.resetLow = false) ∧ (s.wake.resetting = false) ∧
     (s.wake.phase = 0) ∧ (s.owned = true) ∧ (n.present = true) ∧ (256 ≤ n.mbit) ∧ (s.slotIn 5 = none) ∧ (s.slotIn 4 = some k) :=
  ⟨(let s := conf []; { s with wake := { supply := true }, stw := { owners := [{ state := 1 }, {}, {}, {}], slots := [{}, { state := 4, fw := some {}, wb := some {} }] } }),
   1, {}, by decide, by decide, by decide, by decide, by decide, by decide, by decide, by decide, by decide⟩

theorem test_witness_SupplyAndReset_WakingGoesOn_given
    (hf1 : Config.slhVerify [] (withContext "PYRAD-FIRMWARE" []) [] = true) :
    ∃ (s : State) (c : Container), (s.wake.phase = 1) ∧ (s.containerCause 1 0 c = none) :=
  ⟨(waked 1), tfw, by decide, by simp [State.containerCause, tfw, rising, hf1, waked, State.reset]⟩

theorem test_witness_SupplyAndReset_WakingGoesOn2 :
    ∃ (s : State) (c : Container), (s.wake.phase = 1) ∧ (s.containerCause 1 0 c ≠ none) ∧ (s.wake.trial = false) :=
  ⟨(waked 1), { layoutOk := false }, by decide, by decide, by decide⟩

theorem test_witness_SupplyAndReset_WakingGoesOn_given2
    (hw3 : Config.slhVerify [] (withContext "PYRAD-WAYBILL" []) [] = true) :
    ∃ (s : State) (c : Container), (s.wake.phase = 2) ∧ (s.containerCause 2 s.wake.fw.api c = none) :=
  ⟨(let s := waked 2; { s with stw := { owners := [{ state := 1 }, {}, {}, {}] } }), twc, by decide,
   by simp [State.containerCause, twc, nth, hw3, waked, State.reset]⟩

theorem test_witness_SupplyAndReset_WakingGoesOn3 :
    (∃ (s : State) (c : Container), (s.wake.phase = 2) ∧ (s.containerCause 2 s.wake.fw.api c ≠ none) ∧ (s.wake.trial = false)) ∧
    (∃ (s : State) (x : List Octet) (y : List Octet), (s.wake.phase = 3) ∧ (x = s.wake.fw.digest) ∧ (y = s.wake.wb.digest)) ∧
    (∃ (s : State) (x : List Octet) (y : List Octet), (s.wake.phase = 3) ∧ (x ≠ s.wake.fw.digest ∨ y ≠ s.wake.wb.digest) ∧
     (s.wake.trial = false)) ∧
    (∃ (s : State) (t : Nat), (s.wake.phase = 4) ∧ ((s.tick t).sectionFault = none)) ∧
    (∃ (s : State) (t : Nat), (s.wake.phase = 4) ∧ ((s.tick t).sectionFault ≠ none) ∧ (s.wake.trial = false)) ∧
    (∃ (s : State), (s.wake.phase = 5)) :=
  ⟨⟨(waked 2), { layoutOk := false }, by decide, by decide, by decide⟩,
   ⟨(waked 3), [], [], by decide, by decide, by decide⟩,
   ⟨(waked 3), [1], [], by decide, by decide, by decide⟩,
   ⟨(waked 4), 5, by decide, by decide +kernel⟩,
   ⟨(let s := waked 4; { s with cfg := [] }), 5, by decide, by decide +kernel, by decide⟩,
   ⟨(waked 5), by decide⟩⟩

theorem test_witness_ReleaseRescueLodge_ReleaseAndRescue :
    (∃ (s : State) (t : Nat), (max s.now t = s.stage.openedAt) ∧ (s.mode.released = false) ∧ (s.acquired = true) ∧
     (s.purse.t0 = true) ∧ (s.permitThrough = true) ∧ (s.wake.phase = 6)) ∧
    (∃ (s : State) (t : Nat), (max s.now t = s.stage.openedAt) ∧ (s.mode.released = false) ∧ (s.acquired = true) ∧
     (s.purse.t0 = true) ∧ (s.permitThrough = true) ∧ (s.wake.phase = 7) ∧ (s.mode.mode ≠ 7) ∧ (bit s.mode.halt 10 = false)) ∧
    (∃ (s : State), (s.wake.phase = 6) ∧ (s.nat PURSE.v_full ≤ s.purse.hold + 500) ∧ (s.purse.t0 = false)) ∧
    (∃ (s : State) (src : Nat) (id : Nat) (eff : Nat), (s.keptFor src id = none) ∧ (s.win.cmds.length < 16) ∧
     (s.win.taken = []) ∧ ((∀ h ∈ s.win.cmds, h.id ≠ id)) ∧ (src ≠ 65536) ∧ (s.inPair = false) ∧ (eff = 0 ∨ s.stage.epoch < eff)) ∧
    (∃ (s : State) (t : Nat) (c : Nat) (a : Nat) (l : Nat), (s.clk.motionHeld = false) ∧ (c < s.cars.length) ∧
     (c < s.mode.rescue.length) ∧ (s.carAxis c = some a) ∧ (s.mode.mode = 5) ∧ ((s.rescueOf c).active = true) ∧
     ((s.rescueOf c).chosen = false) ∧ ((s.axOf a).standstill = true) ∧
     ((s.rescueOf c).since + s.nat AXIS.dwell a ≤ max s.now t) ∧ (s.nearestLanding c (s.car c).pc (fun _ => true) = some l)) ∧
    (∃ (s : State) (t : Nat) (c : Nat) (d : Nat) (v : Nat), (s.clk.motionHeld = false) ∧ (s.mode.mode = 5) ∧
     ((s.rescueOf c).arrived = true) ∧ (d ∈ s.doorsOf c) ∧ (d < s.doors.length) ∧ ((s.door d).st = 3) ∧
     ((s.door d).holdEnd = some v) ∧ (v ≤ max s.now t)) :=
  ⟨⟨(let s := waked 6; { s with purse := { t0 := true }, safe := { a := { effect := some { permit := true } }, b := { result := some { permit := true } } } }),
   0, by decide, by decide, by decide, by decide, by decide, by decide⟩,
   ⟨(let s := waked 7; { s with purse := { t0 := true }, mode := { mode := 2 }, safe := { a := { effect := some { permit := true } }, b := { result := some { permit := true } } } }),
   0, by decide, by decide, by decide, by decide, by decide, by decide, by decide, by decide⟩,
   ⟨(let s := waked 6; { s with purse := { hold := 47500 } }), by decide, by decide, by decide⟩,
   ⟨(net []), 12, 3, 0, by decide, by decide, by decide, by simp [net, run0, conf, State.reset], by decide, by decide,
   by decide⟩,
   ⟨(let s := drv [tc CAR.axis 0 1, tc CAR.count 0 2] { standstill := true }; { s with mode := { mode := 5, rescue := [{ active := true }] } }),
   4000000000, 0, 0, 0, by decide, by decide, by decide, by decide, by decide, by decide, by decide, by decide, by decide,
   by decide⟩,
   ⟨(let s := drv [tc CAR.axis 0 1, tc DOOR.axis 0 2, tc DOOR.cars 0 1] {}; { s with mode := { mode := 5, rescue := [{ active := true, arrived := true }] }, doors := [{ st := 3, holdEnd := some 5 }] }),
   5, 0, 0, 5, by decide, by decide, by decide, by decide, by decide, by decide, by decide, by decide⟩⟩

theorem test_witness_ReleaseRescueLodge_LodgeInAndOut :
    (∃ (s : State) (t : Nat) (v : Nat), (s.mode.t0Since = some v) ∧ (v + 400000000 ≤ max s.now t)) ∧
    (∃ (s : State) (t : Nat), (s.mode.mode = 6) ∧ (s.mode.lodgeReq = true) ∧ (max s.now t = s.stage.openedAt) ∧ ((∀ x ∈ s.axe,
     x.enabled = false))) ∧
    (∃ (s : State) (t : Nat) (x : Nat) (i : Nat), (s.mode.mode = 7) ∧ (s.mode.waking = false) ∧
     (max s.now t = s.stage.openedAt) ∧ ((s.tick t).wakeDue x i = true) ∧ (s.purse.t0 = true)) ∧
    (∃ (s : State) (t : Nat) (x : Nat) (i : Nat), (s.mode.mode = 7) ∧ (s.mode.waking = false) ∧
     (max s.now t = s.stage.openedAt) ∧ ((s.tick t).wakeDue x i = true) ∧ (s.purse.t0 = false)) ∧
    (∃ (s : State), (s.mode.mode = 7) ∧ (s.mode.waking = true) ∧ (s.mode.lanesOff = true)) :=
  ⟨⟨(let s := net []; { s with mode := { mode := 2, t0Since := some 5 } }), 400000005, 5, by decide, by decide⟩,
   ⟨(let s := net []; { s with mode := { mode := 6, lodgeReq := true } }), 0, by decide, by decide, by decide, by decide⟩,
   ⟨(let s := net [tc MODES.wake_mask 0 4]; { s with mode := { mode := 7, lanesOff := true }, dinSnap := { level := [false, false, true], moved := [false, false, true] } }),
   0, 0, 2, by decide, by decide, by decide, by decide, by decide⟩,
   ⟨(let s := net [tc MODES.wake_mask 0 4]; { s with mode := { mode := 7, lanesOff := true }, dinSnap := { level := [false, false, true], moved := [false, false, true] }, purse := {} }),
   0, 0, 2, by decide, by decide, by decide, by decide, by decide⟩,
   ⟨(let s := net []; { s with mode := { mode := 7, waking := true, lanesOff := true } }), by decide, by decide, by decide⟩⟩

theorem test_witness_WindowAndService :
    (∃ (s : State) (t : Nat) (src : Nat) (r : WinRead), ((s.tick t).readStatus src r = 0)) ∧
    (∃ (s : State) (t : Nat) (src : Nat) (r : WinRead), ((s.tick t).readStatus src r ≠ 0)) ∧
    (∃ (s : State) (h : HeldRead), (s.stage.running = true) ∧ (s.stage.epoch ≠ 0xFFFFFFFFFFFF) ∧
     (s.stage.noticed = some s.stage.boundaries) ∧ (s.win.reads = [h]) ∧ (h.due = true) ∧ (h.read.at_ = false) ∧
     (s.win.copied + h.read.len ≤ 16384) ∧ (h.src = 65536)) ∧
    (∃ (s : State), (s.svcOpen = true) ∧ (s.svcFull = true)) ∧
    (∃ (s : State) (op : Nat) (len : Nat) (crc : Nat) (m : Msg), (s.svcOpen = true) ∧ (s.svcFull = false) ∧
     (len ≠ (msgBytes m).length ∨ msgType m ≠ op ∨ crc ≠ svcCrc op (msgBytes m))) ∧
    (∃ (s : State) (t : Nat) (op : Nat) (len : Nat) (crc : Nat) (m : Msg) (r : WinRead), (s.svcOpen = true) ∧
     (s.svcFull = false) ∧ (len = (msgBytes m).length) ∧ (msgType m = op) ∧ (crc = svcCrc op (msgBytes m)) ∧
     (s.svcAdmits op m = true) ∧ (m = .windowRead r) ∧ ((s.tick t).readStatus 65536 r = 0)) ∧
    (∃ (s : State), (s.svcOpen = true)) :=
  ⟨⟨(net []), 5, 12, { req := 1, addr := 0, len := 4 }, by decide⟩,
   ⟨(net []), 5, 12, { req := 1, addr := 0, len := 3 }, by decide⟩,
   ⟨(let s := net []; { s with stage := { running := true, epoch := 7, boundaries := 3, noticed := some 3 }, win := { reads := [{ src := 65536, read := { req := 1, addr := 0, len := 8 }, due := true }] } }),
   { src := 65536, read := { req := 1, addr := 0, len := 8 }, due := true }, by decide, by decide, by decide, by decide,
   by decide, by decide, by decide, by decide⟩,
   ⟨(let s := net []; { s with win := { svcQueue := List.replicate 4 (.octets 1 []) } }), by decide, by decide⟩,
   ⟨(net []), 0x70, 1, 0, (.windowRead { req := 1, addr := 0, len := 4 }), by decide, by decide, by decide⟩,
   ⟨(let s := net []; { s with win := { svcOn := true }, stw := { owners := [{ state := 1 }, {}, {}, {}] } }), 5, 0x70,
   ((msgBytes (.windowRead { req := 1, addr := 0, len := 4 })).length), (svcCrc 0x70 (msgBytes (.windowRead { req := 1, addr := 0, len := 4 }))),
   (.windowRead { req := 1, addr := 0, len := 4 }), { req := 1, addr := 0, len := 4 }, by decide, by decide, by decide,
   by decide, by decide +kernel, by decide, by decide, by decide⟩,
   ⟨(let s := net []; { s with win := { svcQueue := [.octets 0x71 [1, 2]] } }), by decide⟩⟩

end Sys2Proof.Tests
end

namespace Sys2Proof.Machine

/-! # The epoch of a Stage (R59, R71)

A boundary opens the Stage that `State.openStage` makes; no other command moves the epoch of a Stage that runs. -/

/-! ## The fields that each command writes -/

/-- A command changes no field outside its own list; `exec_keeps` says so of the union of the lists. -/
theorem exec_keeps_writes (i : Instr) (s : State) : Runs (writes i) s (exec i s) := by
  cases i with
  | stageBoundary io => exact Runs.mono (execStageBoundary_keeps io s) rfl
  | boundaryNotice io => exact Runs.mono (execBoundaryNotice_keeps io s) rfl
  | commitCutoff t executed => exact Runs.mono (execCommitCutoff_keeps t executed s) rfl
  | graphStart t => exact Runs.mono (execGraphStart_keeps t s) rfl
  | taskCompletion t lane cyc => exact Runs.mono (execTaskCompletion_keeps t lane cyc s) rfl
  | budgetExhausted t lane => exact Runs.mono (execBudgetExhausted_keeps t lane s) rfl
  | cancelRequest t w => exact Runs.mono (execCancelRequest_keeps t w s) rfl
  | waitEvent t wkind wix => exact Runs.mono (execWaitEvent_keeps t wkind wix s) rfl
  | waitDeadline t task => exact Runs.mono (execWaitDeadline_keeps t task s) rfl
  | kernelSpawnRequest t task arg => exact Runs.mono (execKernelSpawnRequest_keeps t task arg s) rfl
  | stewardSpawnMessage t src arg => exact Runs.mono (execStewardSpawnMessage_keeps t src arg s) rfl
  | clrResp t value => exact Runs.mono (execClrResp_keeps t value s) rfl
  | heartbeatFlit t link => exact Runs.mono (execHeartbeatFlit_keeps t link s) rfl
  | flitCheckFail t link resentOk => exact Runs.mono (execFlitCheckFail_keeps t link resentOk s) rfl
  | dieLinkFault t link cause detector => exact Runs.mono (execDieLinkFault_keeps t link cause detector s) rfl
  | edgeClockCheck t khz => exact Runs.mono (execEdgeClockCheck_keeps t khz s) rfl
  | pllLossOfLock t => exact Runs.mono (execPllLossOfLock_keeps t s) rfl
  | rtcCheck t mhz => exact Runs.mono (execRtcCheck_keeps t mhz s) rfl
  | lockstepMismatch t lane => exact Runs.mono (execLockstepMismatch_keeps t lane s) rfl
  | memoryEcc t addr double => exact Runs.mono (execMemoryEcc_keeps t addr double s) rfl
  | quadTransition t ch a b z => exact Runs.mono (execQuadTransition_keeps t ch a b z s) rfl
  | quadConfirm t ch line => exact Runs.mono (execQuadConfirm_keeps t ch line s) rfl
  | indexInstant t ch => exact Runs.mono (execIndexInstant_keeps t ch s) rfl
  | sincosSample t ch sin cos => exact Runs.mono (execSincosSample_keeps t ch sin cos s) rfl
  | ssiFrameStart t ch => exact Runs.mono (execSsiFrameStart_keeps t ch s) rfl
  | ssiWord t ch word lowFirst allHigh => exact Runs.mono (execSsiWord_keeps t ch word lowFirst allHigh s) rfl
  | ssiDelayMeasure t ch delays => exact Runs.mono (execSsiDelayMeasure_keeps t ch delays s) rfl
  | dinRawTransition t din level => exact Runs.mono (execDinRawTransition_keeps t din level s) rfl
  | dinFilterStable t din => exact Runs.mono (execDinFilterStable_keeps t din s) rfl
  | dinFirstLevel t din => exact Runs.mono (execDinFirstLevel_keeps t din s) rfl
  | chatterEnd t din => exact Runs.mono (execChatterEnd_keeps t din s) rfl
  | emuStep t emu => exact Runs.mono (execEmuStep_keeps t emu s) rfl
  | modulatorBit ticks ch bit => exact Runs.mono (execModulatorBit_keeps ticks ch bit s) rfl
  | accurateEstimate ticks ch => exact Runs.mono (execAccurateEstimate_keeps ticks ch s) rfl
  | angleTick t => exact Runs.mono (execAngleTick_keeps t s) rfl
  | edgeFire ticks axis eng => exact Runs.mono (execEdgeFire_keeps ticks axis eng s) rfl
  | gateOn ticks axis hb => exact Runs.mono (execGateOn_keeps ticks axis hb s) rfl
  | modulatorTimeout ticks ch => exact Runs.mono (execModulatorTimeout_keeps ticks ch s) rfl
  | gateReadbackMismatch t axis hb high => exact Runs.mono (execGateReadbackMismatch_keeps t axis hb high s) rfl
  | driverFaultInput t axis low => exact Runs.mono (execDriverFaultInput_keeps t axis low s) rfl
  | offsetAcquired t => exact Runs.mono (execOffsetAcquired_keeps t s) rfl
  | enable axis src tag => exact Runs.mono (execEnable_keeps axis src tag s) rfl
  | disable axis src tag => exact Runs.mono (execDisable_keeps axis src tag s) rfl
  | mode axis src code tag => exact Runs.mono (execMode_keeps axis src code tag s) rfl
  | moveAbs axis src prof flags target vcap tag => exact Runs.mono (execMoveAbs_keeps axis src prof flags target vcap tag s) rfl
  | moveRel axis src prof dist vcap tag => exact Runs.mono (execMoveRel_keeps axis src prof dist vcap tag s) rfl
  | velocity axis src prof v vcap tag => exact Runs.mono (execVelocity_keeps axis src prof v vcap tag s) rfl
  | stop axis src tag => exact Runs.mono (execStop_keeps axis src tag s) rfl
  | resume axis src tag => exact Runs.mono (execResume_keeps axis src tag s) rfl
  | quickStop axis src tag => exact Runs.mono (execQuickStop_keeps axis src tag s) rfl
  | torque axis src current tag => exact Runs.mono (execTorque_keeps axis src current tag s) rfl
  | hold axis src tag => exact Runs.mono (execHold_keeps axis src tag s) rfl
  | release axis src tag => exact Runs.mono (execRelease_keeps axis src tag s) rfl
  | dwellEnd t axis => exact Runs.mono (execDwellEnd_keeps t axis s) rfl
  | start group src tag => exact Runs.mono (execStart_keeps group src tag s) rfl
  | line group src seg => exact Runs.mono (execLine_keeps group src seg s) rfl
  | arc group src seg => exact Runs.mono (execArc_keeps group src seg s) rfl
  | pathStop group src tag => exact Runs.mono (execPathStop_keeps group src tag s) rfl
  | pathResume group src tag => exact Runs.mono (execPathResume_keeps group src tag s) rfl
  | clear group src tag => exact Runs.mono (execClear_keeps group src tag s) rfl
  | captureTransition t cap level => exact Runs.mono (execCaptureTransition_keeps t cap level s) rfl
  | captureAccept t cap => exact Runs.mono (execCaptureAccept_keeps t cap s) rfl
  | compareFire t out => exact Runs.mono (execCompareFire_keeps t out s) rfl
  | comparePulseEnd t out => exact Runs.mono (execComparePulseEnd_keeps t out s) rfl
  | homingAuto t axis => exact Runs.mono (execHomingAuto_keeps t axis s) rfl
  | hardstopFound t axis => exact Runs.mono (execHardstopFound_keeps t axis s) rfl
  | learn t src id kind target step => exact Runs.mono (execLearn_keeps t src id kind target step s) rfl
  | alignSettle t axis => exact Runs.mono (execAlignSettle_keeps t axis s) rfl
  | levelSettle t axis => exact Runs.mono (execLevelSettle_keeps t axis s) rfl
  | surveyCommit t axis => exact Runs.mono (execSurveyCommit_keeps t axis s) rfl
  | doorZoneDiscrepancy t car => exact Runs.mono (execDoorZoneDiscrepancy_keeps t car s) rfl
  | relevel t car => exact Runs.mono (execRelevel_keeps t car s) rfl
  | doorHoldEnd t door => exact Runs.mono (execDoorHoldEnd_keeps t door s) rfl
  | nudgeTimer t door => exact Runs.mono (execNudgeTimer_keeps t door s) rfl
  | safetyInputChange t die pair ballB level => exact Runs.mono (execSafetyInputChange_keeps t die pair ballB level s) rfl
  | ss1End t axis => exact Runs.mono (execSs1End_keeps t axis s) rfl
  | brakeTest t src id axis => exact Runs.mono (execBrakeTest_keeps t src id axis s) rfl
  | brakeTestStepEnd t => exact Runs.mono (execBrakeTestStepEnd_keeps t s) rfl
  | testPulse t out offA offB => exact Runs.mono (execTestPulse_keeps t out offA offB s) rfl
  | edmTimeout t out => exact Runs.mono (execEdmTimeout_keeps t out s) rfl
  | clearFault t src id => exact Runs.mono (execClearFault_keeps t src id s) rfl
  | dspCall t call => exact Runs.mono (execDspCall_keeps t call s) rfl
  | dspOpen t o => exact Runs.mono (execDspOpen_keeps t o s) rfl
  | bidSend t callId => exact Runs.mono (execBidSend_keeps t callId s) rfl
  | dspBid t callId merged bids => exact Runs.mono (execDspBid_keeps t callId merged bids s) rfl
  | waystationForward t callId => exact Runs.mono (execWaystationForward_keeps t callId s) rfl
  | bidRoundClose t callId => exact Runs.mono (execBidRoundClose_keeps t callId s) rfl
  | dspAssign t callId unit car attempt cost => exact Runs.mono (execDspAssign_keeps t callId unit car attempt cost s) rfl
  | dspAccept t callId unit car => exact Runs.mono (execDspAccept_keeps t callId unit car s) rfl
  | dspDecline t callId unit car reason => exact Runs.mono (execDspDecline_keeps t callId unit car reason s) rfl
  | acceptTimeout t callId => exact Runs.mono (execAcceptTimeout_keeps t callId s) rfl
  | callReopen t callId => exact Runs.mono (execCallReopen_keeps t callId s) rfl
  | collectorSwitch t req => exact Runs.mono (execCollectorSwitch_keeps t req s) rfl
  | dspDone t callId unit car => exact Runs.mono (execDspDone_keeps t callId unit car s) rfl
  | dspRelease t callId unit car reason => exact Runs.mono (execDspRelease_keeps t callId unit car reason s) rfl
  | dspCancel t callId requester => exact Runs.mono (execDspCancel_keeps t callId requester s) rfl
  | portLinkChange t port up => exact Runs.mono (execPortLinkChange_keeps t port up s) rfl
  | linkHello t port unit boot keyCur keyOther a => exact Runs.mono (execLinkHello_keeps t port unit boot keyCur keyOther a s) rfl
  | helloSend t port => exact Runs.mono (execHelloSend_keeps t port s) rfl
  | neighbourTimeout t port unit => exact Runs.mono (execNeighbourTimeout_keeps t port unit s) rfl
  | credit t port unit counts => exact Runs.mono (execCredit_keeps t port unit counts s) rfl
  | creditSend t port unit => exact Runs.mono (execCreditSend_keeps t port unit s) rfl
  | frameTransmit t port => exact Runs.mono (execFrameTransmit_keeps t port s) rfl
  | sync t port seqId origin corr stamp => exact Runs.mono (execSync_keeps t port seqId origin corr stamp s) rfl
  | syncSend t => exact Runs.mono (execSyncSend_keeps t s) rfl
  | syncTimeout t => exact Runs.mono (execSyncTimeout_keeps t s) rfl
  | timeSeal t origin seqId => exact Runs.mono (execTimeSeal_keeps t origin seqId s) rfl
  | timeSealSend t => exact Runs.mono (execTimeSealSend_keeps t s) rfl
  | safetyPdu t src boot conn scount ts flags data crc => exact Runs.mono (execSafetyPdu_keeps t src boot conn scount ts flags data crc s) rfl
  | safetyWatchdog t con => exact Runs.mono (execSafetyWatchdog_keeps t con s) rfl
  | xdStatus t src axis state epoch p v iq => exact Runs.mono (execXdStatus_keeps t src axis state epoch p v iq s) rfl
  | xdConfirmTimeout t axis => exact Runs.mono (execXdConfirmTimeout_keeps t axis s) rfl
  | unitStatus t => exact Runs.mono (execUnitStatus_keeps t s) rfl
  | energyOffer t share unit slice0 inc => exact Runs.mono (execEnergyOffer_keeps t share unit slice0 inc s) rfl
  | twinPacket t p => exact Runs.mono (execTwinPacket_keeps t p s) rfl
  | twinHeartbeat t => exact Runs.mono (execTwinHeartbeat_keeps t s) rfl
  | twinLink t up => exact Runs.mono (execTwinLink_keeps t up s) rfl
  | rebase t => exact Runs.mono (execRebase_keeps t s) rfl
  | compareResume t => exact Runs.mono (execCompareResume_keeps t s) rfl
  | roleRequest t => exact Runs.mono (execRoleRequest_keeps t s) rfl
  | leaseRequest t pair unit leaseNo lease cause successor => exact Runs.mono (execLeaseRequest_keeps t pair unit leaseNo lease cause successor s) rfl
  | leaseGrant t pair holder leaseNo result left successor requester => exact Runs.mono (execLeaseGrant_keeps t pair holder leaseNo result left successor requester s) rfl
  | leaseRelease t pair unit leaseNo => exact Runs.mono (execLeaseRelease_keeps t pair unit leaseNo s) rfl
  | leaseRenew t => exact Runs.mono (execLeaseRenew_keeps t s) rfl
  | leaseExpiry t => exact Runs.mono (execLeaseExpiry_keeps t s) rfl
  | handoff t => exact Runs.mono (execHandoff_keeps t s) rfl
  | grantCheck t => exact Runs.mono (execGrantCheck_keeps t s) rfl
  | switch t src id => exact Runs.mono (execSwitch_keeps t src id s) rfl
  | pdClass t port cls powered => exact Runs.mono (execPdClass_keeps t port cls powered s) rfl
  | classFallback t port => exact Runs.mono (execClassFallback_keeps t port s) rfl
  | powerLoss t => exact Runs.mono (execPowerLoss_keeps t s) rfl
  | powerReturn t => exact Runs.mono (execPowerReturn_keeps t s) rfl
  | holdFloor t hold => exact Runs.mono (execHoldFloor_keeps t hold s) rfl
  | grantExceeded t => exact Runs.mono (execGrantExceeded_keeps t s) rfl
  | sensorSupply t mw5 mw12 => exact Runs.mono (execSensorSupply_keeps t mw5 mw12 s) rfl
  | railLow t rail => exact Runs.mono (execRailLow_keeps t rail s) rfl
  | busEnergy t bus => exact Runs.mono (execBusEnergy_keeps t bus s) rfl
  | pairedDeparture t car => exact Runs.mono (execPairedDeparture_keeps t car s) rfl
  | sprintClockRise t => exact Runs.mono (execSprintClockRise_keeps t s) rfl
  | sprintRequestLapse t => exact Runs.mono (execSprintRequestLapse_keeps t s) rfl
  | thermalSample t temps => exact Runs.mono (execThermalSample_keeps t temps s) rfl
  | thermalCool t => exact Runs.mono (execThermalCool_keeps t s) rfl
  | sensorDisagreement t die => exact Runs.mono (execSensorDisagreement_keeps t die s) rfl
  | ledgerOccurrence t code sev payload => exact Runs.mono (execLedgerOccurrence_keeps t code sev payload s) rfl
  | ledgerMaxAge t => exact Runs.mono (execLedgerMaxAge_keeps t s) rfl
  | pageProgrammed t failed => exact Runs.mono (execPageProgrammed_keeps t failed s) rfl
  | nevtAck t value => exact Runs.mono (execNevtAck_keeps t value s) rfl
  | flushBit t value => exact Runs.mono (execFlushBit_keeps t value s) rfl
  | nevtPulseEnd t => exact Runs.mono (execNevtPulseEnd_keeps t s) rfl
  | readFrom t seq => exact Runs.mono (execReadFrom_keeps t seq s) rfl
  | apertureFill t => exact Runs.mono (execApertureFill_keeps t s) rfl
  | rtcTick t => exact Runs.mono (execRtcTick_keeps t s) rfl
  | lifeClockPersist t => exact Runs.mono (execLifeClockPersist_keeps t s) rfl
  | ageingMeasurement t counts => exact Runs.mono (execAgeingMeasurement_keeps t counts s) rfl
  | coreSupplyLow t die => exact Runs.mono (execCoreSupplyLow_keeps t die s) rfl
  | holdTest t src id => exact Runs.mono (execHoldTest_keeps t src id s) rfl
  | holdTestDue t => exact Runs.mono (execHoldTestDue_keeps t s) rfl
  | holdTestStart t => exact Runs.mono (execHoldTestStart_keeps t s) rfl
  | holdTestEnd t esr dt => exact Runs.mono (execHoldTestEnd_keeps t esr dt s) rfl
  | selfTest t src id pass => exact Runs.mono (execSelfTest_keeps t src id pass s) rfl
  | periodicSelfTest t pass => exact Runs.mono (execPeriodicSelfTest_keeps t pass s) rfl
  | objectChunk t src type c => exact Runs.mono (execObjectChunk_keeps t src type c s) rfl
  | updateBlock t src c => exact Runs.mono (execUpdateBlock_keeps t src c s) rfl
  | partEraseDone t => exact Runs.mono (execPartEraseDone_keeps t s) rfl
  | partVerified t c => exact Runs.mono (execPartVerified_keeps t c s) rfl
  | amendment t => exact Runs.mono (execAmendment_keeps t s) rfl
  | amendmentCommit t => exact Runs.mono (execAmendmentCommit_keeps t s) rfl
  | keyDelivery t => exact Runs.mono (execKeyDelivery_keeps t s) rfl
  | keyActivation t => exact Runs.mono (execKeyActivation_keeps t s) rfl
  | ownerKeyFuse t => exact Runs.mono (execOwnerKeyFuse_keeps t s) rfl
  | unsignedOwnerKey t => exact Runs.mono (execUnsignedOwnerKey_keeps t s) rfl
  | ownerKeyRevoke t => exact Runs.mono (execOwnerKeyRevoke_keeps t s) rfl
  | zeroise t => exact Runs.mono (execZeroise_keeps t s) rfl
  | activate t => exact Runs.mono (execActivate_keeps t s) rfl
  | commit t => exact Runs.mono (execCommit_keeps t s) rfl
  | journalCompactionDone t => exact Runs.mono (execJournalCompactionDone_keeps t s) rfl
  | attestRequest t src keyless nonce flags => exact Runs.mono (execAttestRequest_keeps t src keyless nonce flags s) rfl
  | attestSigned t pass => exact Runs.mono (execAttestSigned_keeps t pass s) rfl
  | supplyUp t => exact Runs.mono (execSupplyUp_keeps t s) rfl
  | nresetAssert t => exact Runs.mono (execNresetAssert_keeps t s) rfl
  | nresetRelease t => exact Runs.mono (execNresetRelease_keeps t s) rfl
  | waking t failed nor => exact Runs.mono (execWaking_keeps t failed nor s) rfl
  | containerChecked t part c => exact Runs.mono (execContainerChecked_keeps t part c s) rfl
  | containerLoaded t fw wb => exact Runs.mono (execContainerLoaded_keeps t fw wb s) rfl
  | sectionCheck t => exact Runs.mono (execSectionCheck_keeps t s) rfl
  | journalReplay t => exact Runs.mono (execJournalReplay_keeps t s) rfl
  | releaseOutputs t => exact Runs.mono (execReleaseOutputs_keeps t s) rfl
  | wakingTimeout t => exact Runs.mono (execWakingTimeout_keeps t s) rfl
  | modeCommand t src id target eff => exact Runs.mono (execModeCommand_keeps t src id target eff s) rfl
  | rescue t car => exact Runs.mono (execRescue_keeps t car s) rfl
  | rescueHoldEnd t car => exact Runs.mono (execRescueHoldEnd_keeps t car s) rfl
  | lodgeIdle t => exact Runs.mono (execLodgeIdle_keeps t s) rfl
  | lodgeEntry t => exact Runs.mono (execLodgeEntry_keeps t s) rfl
  | lodgeWake t source input => exact Runs.mono (execLodgeWake_keeps t source input s) rfl
  | lodgeSupplyRestored t => exact Runs.mono (execLodgeSupplyRestored_keeps t s) rfl
  | windowRead t src r => exact Runs.mono (execWindowRead_keeps t src r s) rfl
  | windowReadServe t => exact Runs.mono (execWindowReadServe_keeps t s) rfl
  | flush t src id => exact Runs.mono (execFlush_keeps t src id s) rfl
  | setTime t src id site => exact Runs.mono (execSetTime_keeps t src id site s) rfl
  | write t src id addr width value => exact Runs.mono (execWrite_keeps t src id addr width value s) rfl
  | serviceReadTransaction t whole => exact Runs.mono (execServiceReadTransaction_keeps t whole s) rfl
  | cysinFrame t port from_ f => exact Runs.mono (execCysinFrame_keeps t port from_ f s) rfl
  | announce t port a => exact Runs.mono (execAnnounce_keeps t port a s) rfl
  | serviceWriteTransaction t op len crc m => exact Runs.mono (execServiceWriteTransaction_keeps t op len crc m s) rfl

/-! ## The Stage of a state, but for ALIGNED

Outside the boundary, the notice, the cut-off and the ends of a Waking, a command writes one bit of the Stage: ALIGNED, which a
loss of site time clears (R70). -/

/-- `t` is in the Stage of `s`; at most ALIGNED differs. -/
def SameStage (s t : State) : Prop := t.stage = { s.stage with aligned := t.stage.aligned }

/-- The command answers a next state, of which `P` holds. `Runs W s` is the case of a frame. -/
def Answers (P : State → Prop) (a : Answer) : Prop := ∃ u, a = .next u ∧ P u

theorem Answers.next {P : State → Prop} {u : State} (h : P u) : Answers P (.next u) := ⟨u, rfl, h⟩

theorem Answers.ite {P : State → Prop} {a b : Answer} {c : Prop} [Decidable c] (h : Answers P a) (k : Answers P b) :
    Answers P (if c then a else b) := by split <;> assumption

theorem Answers.mono {P Q : State → Prop} {a : Answer} (h : Answers P a) (k : ∀ u, P u → Q u) : Answers Q a := by
  obtain ⟨u, hu, hP⟩ := h
  exact ⟨u, hu, k u hP⟩

theorem Answers.of_next {P : State → Prop} {a : Answer} {u : State} (h : Answers P a) (e : a = .next u) : P u := by
  obtain ⟨v, hv, hP⟩ := h
  obtain rfl : v = u := by simpa [hv] using e
  exact hP

namespace SameStage

theorem refl (s : State) : SameStage s s := rfl

theorem trans {s t u : State} (h : SameStage s t) (k : SameStage t u) : SameStage s u := by
  unfold SameStage at *
  rw [k, h]

theorem of_keeps {W : List Fld} {s t : State} (h : Keeps W s t) (w : W.contains .stage = false) : SameStage s t := by
  have e : t.stage = s.stage := h.get .stage w
  unfold SameStage
  rw [e]

/-- An operation that does not write the Stage, after what led to the state it works on. -/
theorem keeps {W : List Fld} {s t u : State} (h : SameStage s t) (k : Keeps W t u) (w : W.contains .stage = false) :
    SameStage s u := h.trans (of_keeps k w)

theorem ite {s a b : State} {c : Prop} [Decidable c] (h : SameStage s a) (k : SameStage s b) :
    SameStage s (if c then a else b) := by split <;> assumption

theorem foldl {α : Type} {f : State → α → State} (h : ∀ t a, SameStage t (f t a)) (l : List α) (s : State) :
    SameStage s (l.foldl f s) := by
  induction l generalizing s with
  | nil => exact refl s
  | cons a l ih => exact (h s a).trans (ih _)

variable {s t : State}

theorem running (h : SameStage s t) : t.stage.running = s.stage.running := by rw [h]
theorem epoch (h : SameStage s t) : t.stage.epoch = s.stage.epoch := by rw [h]
theorem len (h : SameStage s t) : t.stage.len = s.stage.len := by rw [h]
theorem phaseErr (h : SameStage s t) : t.stage.phaseErr = s.stage.phaseErr := by rw [h]

end SameStage

/-! ### Site time -/

theorem State.unaligned_sameStage (cause : Nat) (e : Int) (s : State) : SameStage s (s.unaligned cause e) := by
  simp [SameStage, State.unaligned]

theorem State.lostSync_sameStage (s : State) : SameStage s s.lostSync :=
  .ite (State.unaligned_sameStage ..) (.refl s)

theorem State.syncSettle_sameStage (cause : Nat) (s : State) : SameStage s (s.syncSettle cause) := by
  have ev (f : TimeSt → TimeSt) (p : State → List Octet) : SameStage s ((s.onTime f).raise 0xD3 (p (s.onTime f))) :=
    .keeps (.of_keeps (State.onTime_keeps f s) rfl) (State.raise_keeps ..) rfl
  unfold State.syncSettle
  exact .ite (ev _ (fun t => le 1 1 ++ le 1 0 ++ le 4 t.time.offset))
    (.ite ((ev _ (fun t => le 1 0 ++ le 1 _ ++ le 4 t.time.offset)).trans (State.lostSync_sameStage _)) (.refl s))

theorem State.changeGm_sameStage (gm : Option (Announce × Nat)) (cause : Nat) (s : State) :
    SameStage s (s.changeGm gm cause) :=
  ((State.syncSettle_sameStage cause s).keeps (State.onTime_keeps ..) rfl).trans (State.syncSettle_sameStage ..)

theorem State.takeSeal_sameStage (origin seqId : Nat) (s : State) : SameStage s (s.takeSeal origin seqId) := by
  unfold State.takeSeal
  refine .ite (.refl s) ?_
  split
  · exact (SameStage.of_keeps (State.onTime_keeps ..) rfl).trans (State.syncSettle_sameStage ..)
  · exact .refl s

theorem State.tick_sameStage (t : Nat) (s : State) : SameStage s (s.tick t) := .refl s

theorem execAnnounce_sameStage (t port : Nat) (a : Announce) (s : State) :
    Answers (SameStage s) (execAnnounce t port a s) := by
  have change (gm : Option (Announce × Nat)) (k : Nat) : SameStage s ((s.tick t).changeGm gm k) :=
    (State.tick_sameStage t s).trans (State.changeGm_sameStage gm k _)
  unfold execAnnounce
  refine .ite (.next (State.tick_sameStage t s)) ?_
  dsimp only
  split
  · exact .ite (.next (change _ _)) (.next (State.tick_sameStage t s))
  · exact .ite
      (.ite (.next (change _ _)) (.next ((State.tick_sameStage t s).keeps (State.onTime_keeps ..) rfl)))
      (.ite (.next (change _ _)) (.next (State.tick_sameStage t s)))

theorem execSyncTimeout_sameStage (t : Nat) (s : State) : Answers (SameStage s) (execSyncTimeout t s) :=
  .ite (.next (.ite ((State.tick_sameStage t s).trans (State.changeGm_sameStage ..))
    ((State.tick_sameStage t s).trans (State.syncSettle_sameStage ..)))) (.next (State.tick_sameStage t s))

theorem execTimeSeal_sameStage (t origin seqId : Nat) (s : State) :
    Answers (SameStage s) (execTimeSeal t origin seqId s) :=
  .next ((State.tick_sameStage t s).trans (State.takeSeal_sameStage ..))

theorem execSync_sameStage (t port seqId origin : Nat) (corr : Int) (stamp : SyncStamps) (s : State) :
    Answers (SameStage s) (execSync t port seqId origin corr stamp s) := by
  unfold execSync
  extract_lets +onlyGivenNames s1 offset pdelay
  have h1 : SameStage s s1 := State.tick_sameStage t s
  split
  · exact .next h1
  · refine .ite (.next h1) ?_
    extract_lets +onlyGivenNames s2 good s3 old s4 s5
    have h3 : SameStage s s3 := (h1.keeps (State.onPort_keeps ..) rfl).keeps (State.onTime_keeps ..) rfl
    have h4 : SameStage s s4 := h3.keeps (State.setSite_keeps ..) rfl
    have servo : SameStage s s3.servoRate.2 := h3.keeps (State.servoRate_keeps s3) rfl
    have h5 : SameStage s s5 :=
      .ite ((h3.keeps (State.setSite_keeps ..) rfl).keeps (State.onTime_keeps ..) rfl)
        (.ite (.ite h3 (.ite (h4.keeps (State.timeStep_keeps ..) rfl) h4))
          ((servo.keeps (State.setSite_keeps ..) rfl).keeps (State.onTime_keeps ..) rfl))
    exact .next (h5.trans (State.syncSettle_sameStage ..))

/-! ### Frames -/

/-- Of the messages only a TIME_SEAL reaches the Stage. -/
theorem State.consume_sameStage (f : Frame) (s : State) : SameStage s (s.consume f) := by
  unfold State.consume
  extract_lets +onlyGivenNames pair s1 s2
  have h1 : SameStage s s1 := .ite (.of_keeps (State.onMode_keeps ..) rfl) (.refl s)
  have h2 : SameStage s s2 := h1.keeps (State.messageEvents_keeps ..) rfl
  split
  · exact h2.trans (State.takeSeal_sameStage ..)
  · exact h2.keeps (State.takePdu_keeps ..) rfl
  · exact h2.keeps (State.offerAxis_keeps ..) rfl
  · exact h2.keeps (State.offerPath_keeps ..) rfl
  · exact h2.keeps (State.takeXdStatus_keeps ..) rfl
  · exact h2.keeps (State.takeLeaseRequest_keeps ..) rfl
  · exact h2.keeps (State.takeLeaseGrant_keeps ..) rfl
  · exact h2.keeps (State.takeLeaseRelease_keeps ..) rfl
  · exact h2.keeps (State.takeCall_keeps ..) rfl
  · exact h2.keeps (State.takeOpen_keeps ..) rfl
  · exact h2.keeps (State.takeBids_keeps ..) rfl
  · exact h2.keeps (State.takeAssign_keeps ..) rfl
  · exact h2.keeps (State.takeAnswer_keeps ..) rfl
  · exact h2.keeps (State.takeCancel_keeps ..) rfl
  · exact h2.keeps (State.takeEnergy_keeps ..) rfl
  · exact h2.keeps (State.takeRead_keeps ..) rfl
  · exact h2.keeps (State.mbArrive_keeps ..) rfl
  · split
    · exact h2.keeps (State.takeChunk_keeps ..) rfl
    · exact h2
  · exact h2.keeps (State.takeAttest_keeps ..) rfl
  · exact h2

theorem State.loopBoundary_sameStage (s : State) : SameStage s s.loopBoundary :=
  (SameStage.of_keeps (State.onFab_keeps ..) rfl).trans (.foldl (fun t f => t.consume_sameStage f) _ _)

theorem State.acceptFrame_sameStage (p unit : Nat) (f : Frame) (s : State) : SameStage s (s.acceptFrame p unit f) := by
  unfold State.acceptFrame
  extract_lets +onlyGivenNames s1
  have h1 : SameStage s s1 := .keeps (.of_keeps (State.noteSource_keeps ..) rfl) (State.onPort_keeps ..) rfl
  have consumed : SameStage s (s1.consume f) := h1.trans (State.consume_sameStage ..)
  split
  · exact (h1.keeps (State.messageEvents_keeps ..) rfl).keeps (State.takeHello_keeps ..) rfl
  · exact h1.keeps (State.messageEvents_keeps ..) rfl
  · exact .ite (consumed.keeps (State.giveBack_keeps ..) rfl)
      (.keeps (.ite consumed h1) (State.relay_keeps ..) rfl)

theorem execCysinFrame_sameStage (t port from_ : Nat) (f : Frame) (s : State) :
    Answers (SameStage s) (execCysinFrame t port from_ f s) := by
  unfold execCysinFrame
  extract_lets +onlyGivenNames s1
  refine .ite (.next (State.tick_sameStage t s)) ?_
  extract_lets +onlyGivenNames q v credited count s2 s3 free counts
  have h2 : SameStage s s2 := (State.tick_sameStage t s).keeps (State.onPeer_keeps ..) rfl
  have h3 : SameStage s s3 := .ite (h2.keeps (State.useCredit_keeps ..) rfl) h2
  have hcounts : SameStage s (counts s3) := h3.keeps (State.takeCredit_keeps ..) rfl
  have hfree (x : State) (h : SameStage s x) : SameStage s (free x) := .ite (h.keeps (State.giveBack_keeps ..) rfl) h
  clear_value v
  split
  · exact .next ((hfree _ hcounts).keeps (State.frameRejected_keeps ..) rfl)
  · exact .next ((hfree _ h3).keeps (State.frameRejected_keeps ..) rfl)
  · exact .next (hfree _ hcounts)
  · exact .next ((hfree _ hcounts).keeps (State.idConflict_keeps ..) rfl)
  · exact .next ((hfree _ hcounts).keeps (State.onPort_keeps ..) rfl)
  · exact .next (hcounts.trans (State.acceptFrame_sameStage ..))

/-! ## The boundary -/

theorem State.linkBoundary_sameStage (s : State) : SameStage s s.linkBoundary := by
  unfold State.linkBoundary
  extract_lets +onlyGivenNames s1 s2
  have h1 : SameStage s s1 :=
    (((SameStage.of_keeps (State.conBoundary_keeps s) rfl).keeps (State.fabAgain_keeps ..) rfl).keeps
      (State.giveKept_keeps ..) rfl).keeps (State.pairStage_keeps ..) rfl
  have xd : Keeps (allBut [.stage]) s1 s2 :=
    .eachIx (fun _ _ h => h.onto _ rfl (State.xdConfirm_keeps ..))
      (.eachIx (fun _ _ h => h.onto _ rfl (State.xdSend_keeps ..)) (.refl _ s1))
  have h2 : SameStage s s2.loopBoundary := (h1.keeps xd rfl).trans s2.loopBoundary_sameStage
  exact (h2.keeps (State.twinBoundary_keeps ..) rfl).keeps (State.eventsOut_keeps ..) rfl

/-- Of the Stage, the end sweep changes only that it is closed (R46). -/
@[simp] theorem State.endSweep_stage (executed : List (Work × Nat)) (s : State) :
    (s.endSweep executed).stage = { s.stage with closed := true } := by
  unfold State.endSweep
  extract_lets +onlyGivenNames s1 serv s2 s3 s4
  have h2 : Keeps (allBut [.stage]) s s2 :=
    .foldl (fun _ _ h => h.onto _ rfl (State.overrun_keeps ..)) ((State.comeTo_keeps s).mono rfl) _
  have h3 : Keeps (allBut [.stage]) s s3 := .foldl (fun _ _ h => h.onto _ rfl (State.overrun_keeps ..)) h2 _
  have h4 : Keeps (allBut [.stage]) s s4 :=
    .eachIx (fun _ _ h => .ite (h.onto _ rfl (State.setStatus_keeps ..)) h) h3
  have e : s4.stage = s.stage := h4.get .stage rfl
  show { s4.stage with closed := true } = _
  rw [e]

@[simp] theorem State.closeStage_stage (s : State) : s.closeStage.stage = { s.stage with closed := true } := by
  unfold State.closeStage
  extract_lets +onlyGivenNames s1 axes s2 s3 s4 s5
  have h1 : s1.stage = { s.stage with closed := true } := by
    unfold s1
    split
    · next closed => rw [← closed]
    · exact State.endSweep_stage [] s
  have h3 : Keeps (allBut [.stage]) s1 s3 :=
    .eachIx (fun _ _ h => h.onto _ rfl (State.settleGroup_keeps ..))
      (.eachIx (fun _ _ h => h.onto _ rfl (State.settleAxis_keeps ..)) ((State.unshow_keeps s1).mono rfl))
  have h5 : Keeps (allBut [.stage]) s1 s5 :=
    ((((h3.onto _ rfl (State.dispBoundary_keeps ..)).onto _ rfl (State.heldBoundary_keeps ..)).onto _ rfl
      (State.stallBoundary_keeps ..)).onto _ rfl (State.stallBoundary_keeps ..)).onto _ rfl (State.mbDeliver_keeps ..)
  have h6 : Keeps (allBut [.stage]) s1 (eachIx 12 (State.commitHome axes) s5) :=
    .eachIx (fun _ _ h => h.onto _ rfl (State.commitHome_keeps ..)) h5
  exact Eq.trans (h6.get .stage rfl) h1

/-- `u` is a state in which a boundary may open the Stage after that of `s`: the waybill is the same, and so is the Stage, closed
where it was not (R46). -/
structure EndsStage (s u : State) : Prop where
  cfg : u.cfg = s.cfg
  stage : u.stage = { s.stage with closed := u.stage.closed }

/-- The boundary closes the Stage and opens the next; what then arrives for it clears at most ALIGNED. -/
theorem execStageBoundary_opens (io : BoundaryInputs) (s : State) (hrun : s.stage.running = true) :
    ∃ u, EndsStage s u ∧
      Answers (SameStage (u.openStage (s.stage.openedAt + s.stage.len))) (exec (.stageBoundary io) s) := by
  show ∃ u, EndsStage s u ∧ Answers (SameStage (u.openStage (s.stage.openedAt + s.stage.len))) (execStageBoundary io s)
  unfold execStageBoundary
  rw [if_neg (by simp [hrun])]
  extract_lets +onlyGivenNames t s1 modeDone inter s2 s3 s4
  have closed : EndsStage s s2 := by
    unfold s2
    split
    · exact ⟨rfl, rfl⟩
    · exact ⟨(State.closeStage_keeps s1).get .cfg rfl, by rw [State.closeStage_stage]; rfl⟩
  have h3 : SameStage (s2.openStage t) s3 :=
    ((SameStage.of_keeps (State.applyA_keeps ..) rfl).keeps (State.latchAll_keeps ..) rfl).keeps (State.outputs_keeps ..) rfl
  have h4 : SameStage (s2.openStage t) s4 :=
    (((h3.keeps (State.surveyAborts_keeps ..) rfl).keeps (State.surveyAppend_keeps ..) rfl).keeps
      (State.winBoundary_keeps ..) rfl).trans (State.linkBoundary_sameStage _)
  exact ⟨s2, closed, .next (.ite (h4.keeps (State.publish_keeps ..) rfl) h4)⟩

/-! ### The Stage opened -/

/-- Stage 0 has epoch 0 and N cycles, and no phase error is measured (R59). -/
theorem State.openStage_first (t : Nat) (s : State) (h : s.stage.epoch = 0xFFFFFFFFFFFF) :
    (s.openStage t).stage.epoch = 0 ∧ (s.openStage t).stage.len = s.period ∧
      (s.openStage t).stage.phaseErr = s.stage.phaseErr := by
  simp [State.openStage, h, State.period, State.nat, State.int]

/-- A Stage opened under site alignment has the next epoch, or the greater one of the nearest T(n) (R66). -/
theorem State.alignAt_epoch (e m : Int) (s : State) :
    (s.alignAt e m).stage.epoch =
      if (rndDiv e 5).natAbs ≤ 1 then max (s.stage.epoch + 1) m.toNat else s.stage.epoch + 1 := by
  unfold State.alignAt
  extract_lets +onlyGivenNames prev k ns hit epoch d was old s1 s2 s3
  have h2 : SameStage s1 s2 := .ite (.of_keeps (State.raise_keeps ..) rfl) (.refl s1)
  have h3 : SameStage s1 s3 := .ite (h2.keeps (State.raise_keeps ..) rfl) h2
  have h4 : SameStage s1 (if s3.stage.aligned ∧ 2000 < e.natAbs then s3.unaligned 1 ns else s3) :=
    .ite (h3.trans (State.unaligned_sameStage ..)) h3
  rw [h4.epoch]
  simp [s1, epoch, hit, k, prev]

/-- Without a phase error to measure, the next Stage has the next epoch and N cycles (R70, R71). -/
theorem State.nextStage_unmeasured (s : State) (h : ¬ (s.nat STAGE.align = 0 ∧ s.time.synced)) :
    s.nextStage.stage.epoch = s.stage.epoch + 1 ∧ s.nextStage.stage.len = s.period ∧
      s.nextStage.stage.phaseErr = s.stage.phaseErr := by
  unfold State.nextStage
  rw [if_neg h]
  extract_lets +onlyGivenNames lost old s1
  have h1 : SameStage s1 (if lost then s1.unaligned 0 s1.stage.phaseErr else s1) :=
    .ite (State.unaligned_sameStage ..) (.refl s1)
  exact ⟨h1.epoch, h1.len, h1.phaseErr⟩

theorem State.nextStage_epoch (s : State) :
    s.nextStage.stage.epoch = s.stage.epoch + 1 ∨ (s.nat STAGE.align = 0 ∧ s.stage.epoch + 1 < s.nextStage.stage.epoch) := by
  by_cases measured : s.nat STAGE.align = 0 ∧ s.time.synced
  · have e : s.nextStage = s.alignAt s.phaseOf.1 s.phaseOf.2 := by unfold State.nextStage; rw [if_pos measured]
    rw [e, State.alignAt_epoch]
    have align := measured.1
    split <;> omega
  · exact .inl (s.nextStage_unmeasured measured).1

/-- A boundary after Stage 0 opens the Stage that `nextStage` makes of the state with the boundary counted. -/
theorem State.openStage_later (t : Nat) (s : State) (h : s.stage.epoch ≠ 0xFFFFFFFFFFFF) :
    s.openStage t = { s with stage := { s.stage with
      openedAt := t, closed := false, boundaries := s.stage.boundaries + 1 } }.nextStage := by
  simp [State.openStage, h]

theorem State.openStage_epoch (t : Nat) (s : State) (h : s.stage.epoch ≠ 0xFFFFFFFFFFFF) :
    (s.openStage t).stage.epoch = s.stage.epoch + 1 ∨
      (s.nat STAGE.align = 0 ∧ s.stage.epoch + 1 < (s.openStage t).stage.epoch) := by
  rw [State.openStage_later t s h]
  exact State.nextStage_epoch _

/-- A free-running unit opens a Stage of N cycles and leaves the phase error as it was (R71). -/
theorem State.openStage_freeRunning (t : Nat) (s : State) (free : s.nat STAGE.align = 1) :
    (s.openStage t).stage.epoch = (if s.stage.epoch = 0xFFFFFFFFFFFF then 0 else s.stage.epoch + 1) ∧
      (s.openStage t).stage.len = s.period ∧ (s.openStage t).stage.phaseErr = s.stage.phaseErr := by
  split
  · next first => exact s.openStage_first t first
  · next later =>
    rw [State.openStage_later t s later]
    refine State.nextStage_unmeasured _ fun measured => ?_
    have align : s.nat STAGE.align = 0 := measured.1
    omega

namespace EndsStage

variable {s u : State}

theorem nat (h : EndsStage s u) (f : Field) : u.nat f = s.nat f := by simp [State.nat, State.int, h.cfg]
theorem period (h : EndsStage s u) : u.period = s.period := h.nat STAGE.period
theorem epoch (h : EndsStage s u) : u.stage.epoch = s.stage.epoch := by rw [h.stage]
theorem phaseErr (h : EndsStage s u) : u.stage.phaseErr = s.stage.phaseErr := by rw [h.stage]

end EndsStage

/-- The epoch that a boundary gives (R59). -/
theorem execStageBoundary_epoch (io : BoundaryInputs) (s : State) (hrun : s.stage.running = true) :
    Answers (fun t => (s.stage.epoch = 0xFFFFFFFFFFFF → t.stage.epoch = 0) ∧
      (s.stage.epoch ≠ 0xFFFFFFFFFFFF → t.stage.epoch = s.stage.epoch + 1 ∨
        (s.nat STAGE.align = 0 ∧ s.stage.epoch + 1 < t.stage.epoch))) (exec (.stageBoundary io) s) := by
  obtain ⟨u, closed, opens⟩ := execStageBoundary_opens io s hrun
  refine opens.mono fun t same => ⟨fun first => ?_, fun later => ?_⟩
  · rw [same.epoch]
    exact (u.openStage_first _ (closed.epoch.trans first)).1
  · have h := u.openStage_epoch (s.stage.openedAt + s.stage.len) (by rwa [closed.epoch])
    rwa [← same.epoch, closed.epoch, closed.nat] at h

/-- Settles O11: a boundary of a free-running unit opens its Stage without a measurement of the phase (R71). -/
theorem freeRunningStages : Obligations.FreeRunningStages := by
  intro s io hrun free
  obtain ⟨u, closed, t, ht, same⟩ := execStageBoundary_opens io s hrun
  obtain ⟨hepoch, hlen, hphase⟩ :=
    u.openStage_freeRunning (s.stage.openedAt + s.stage.len) ((closed.nat STAGE.align).trans free)
  rw [closed.epoch] at hepoch
  exact ⟨t, ht, same.len.trans (hlen.trans closed.period), same.phaseErr.trans (hphase.trans closed.phaseErr),
    same.epoch.trans hepoch⟩

/-! ## No other command moves the epoch of a Stage that runs -/

/-- A Stage that runs in `t` is the one that ran in `s`, or Stage 0 has still to open (R53, R59). -/
def EpochKept (s t : State) : Prop :=
  t.stage.running = true → t.stage.epoch = 0xFFFFFFFFFFFF ∨ (s.stage.running = true ∧ t.stage.epoch = s.stage.epoch)

namespace EpochKept

variable {s t u : State}

theorem stopped (h : t.stage.running = false) : EpochKept s t := fun k => by simp [h] at k

theorem of_eq (hr : t.stage.running = s.stage.running) (he : t.stage.epoch = s.stage.epoch) : EpochKept s t :=
  fun k => .inr ⟨hr ▸ k, he⟩

theorem of_same (h : SameStage s t) : EpochKept s t := of_eq h.running h.epoch

theorem of_keeps {W : List Fld} (h : Keeps W s t) (w : W.contains .stage = false) : EpochKept s t :=
  of_same (.of_keeps h w)

/-- An operation that does not write the Stage, after what led to the state it works on. -/
theorem keeps {W : List Fld} (h : EpochKept s t) (k : Keeps W t u) (w : W.contains .stage = false) : EpochKept s u := by
  have e : u.stage = t.stage := k.get .stage w
  unfold EpochKept
  rw [e]
  exact h

theorem ite {a b : State} {c : Prop} [Decidable c] (h : EpochKept s a) (k : EpochKept s b) :
    EpochKept s (if c then a else b) := by split <;> assumption

end EpochKept

/-! ### Notice and cut-off -/

theorem execBoundaryNotice_epochKept (io : NoticeInputs) (s : State) :
    Answers (EpochKept s) (execBoundaryNotice io s) := by
  unfold execBoundaryNotice
  extract_lets +onlyGivenNames s1
  refine .ite (.next (.of_same (State.tick_sameStage io.t s))) ?_
  extract_lets +onlyGivenNames old s2 s3 s4
  have noticed : EpochKept s { s1 with stage := { s1.stage with noticed := some s1.stage.boundaries } } := .of_eq rfl rfl
  have h2 : EpochKept s s2 := noticed.keeps (State.noticeB_keeps _) rfl
  have edm : Keeps (allBut [.stage]) s2 s3 :=
    .eachIx (fun _ _ h => .ite (h.onto _ rfl (State.edmBoundary_keeps ..)) h) (.refl _ s2)
  have pdus : Keeps (allBut [.stage]) s3 (eachIx 16 State.conProduce s3) :=
    .eachIx (fun _ _ h => h.onto _ rfl (State.conProduce_keeps ..)) (.refl _ s3)
  have h4 : EpochKept s s4 := ((h2.keeps edm rfl).keeps pdus rfl).keeps (State.ledBoundary_keeps _) rfl
  have h5 : EpochKept s (s4.testNotice.purseBoundary io) :=
    (h4.keeps (State.testNotice_keeps _) rfl).keeps (State.purseBoundary_keeps ..) rfl
  exact .next (((h5.keeps (State.chargerNow_keeps _) rfl).keeps (State.publish_keeps _) rfl).keeps
    (State.offerStewardKept_keeps _) rfl)

theorem execCommitCutoff_epochKept (t : Nat) (executed : List (Work × Nat)) (s : State) :
    Answers (EpochKept s) (execCommitCutoff t executed s) :=
  .ite (.next (.of_same (State.tick_sameStage t s)))
    (.next (.of_eq (by simp) (by simp)))

/-! ### The motion die held in reset, and the ends of a Waking -/

theorem State.holdMotion_stopped (s : State) : s.holdMotion.stage.running = false := by
  unfold State.holdMotion
  extract_lets +onlyGivenNames clk stage disp twin s1
  have gates : Keeps (allBut [.stage]) s1 (eachIx 12 (fun a x => x.gatesOff a (8 * x.now)) s1) :=
    .eachIx (fun _ _ h => h.onto _ rfl (State.gatesOff_keeps ..)) (.refl _ s1)
  have drop : Same s1 _ .stage := (gates.onto _ rfl (State.dropChan_keeps false _)).get .stage rfl
  exact congrArg Stage.running drop

theorem State.clockFault_stopped (s : State) : s.clockFault.stage.running = false := by
  unfold State.clockFault
  extract_lets +onlyGivenNames mode s1
  have h : Same (s1.dropChan true).holdMotion _ .stage := (State.setMode_keeps 6 2 _).get .stage rfl
  exact (congrArg Stage.running h).trans (State.holdMotion_stopped _)

theorem execEdgeClockCheck_epochKept (t khz : Nat) (s : State) : Answers (EpochKept s) (execEdgeClockCheck t khz s) :=
  .ite (.next (.of_same (State.tick_sameStage t s))) (.next (.stopped (State.clockFault_stopped _)))

theorem execPllLossOfLock_epochKept (t : Nat) (s : State) : Answers (EpochKept s) (execPllLossOfLock t s) :=
  .ite (.next (.of_same (State.tick_sameStage t s))) (.next (.stopped (State.clockFault_stopped _)))

theorem execCoreSupplyLow_epochKept (t die : Nat) (s : State) : Answers (EpochKept s) (execCoreSupplyLow t die s) :=
  .next (.stopped (State.clockFault_stopped _))

theorem State.restart_stopped (s : State) : s.restart.stage.running = false := rfl

theorem EpochKept.resetEnd {s t : State} (h : EpochKept s t) : EpochKept s t.resetEnd :=
  .ite (.stopped t.restart_stopped) h

/-- A restart that follows at once leaves no Stage running either. -/
theorem State.beginWaking_epochKept (s t : State) : EpochKept s t.beginWaking := by
  unfold State.beginWaking
  extract_lets +onlyGivenNames s1 s2
  have h1 : EpochKept s s1 := (EpochKept.stopped (State.holdMotion_stopped _)).keeps (State.beginFlush_keeps _) rfl
  have h2 : EpochKept s s2 := h1.keeps (State.onWake_keeps ..) rfl
  exact .ite h2.resetEnd h2

theorem execPageProgrammed_epochKept (t : Nat) (failed : List Nat) (s : State) :
    Answers (EpochKept s) (execPageProgrammed t failed s) := by
  unfold execPageProgrammed
  extract_lets +onlyGivenNames s1 page
  refine .ite (.next (.of_same (State.tick_sameStage t s))) ?_
  extract_lets +onlyGivenNames ord base n ix bad slots again s2 s3 s4 s5
  have h3 : Keeps (allBut [.stage]) s s3 :=
    (((State.tick_keeps t s).mono rfl).onto _ rfl (State.onLed_keeps ..)).onto _ rfl (State.onLed_keeps ..)
  have h4 : Keeps (allBut [.stage]) s s4 := .foldl (fun _ _ h => h.onto _ rfl (State.voidSlot_keeps ..)) h3 _
  have h5 : Keeps (allBut [.stage]) s s5 :=
    .ite (h4.onto _ rfl (State.toReserve_keeps _)) (.ite (h4.onto _ rfl (State.toSealed_keeps _)) h4)
  have flushed : EpochKept s s5.flushEnd := (EpochKept.of_keeps h5 rfl).keeps (State.flushEnd_keeps _) rfl
  exact .next (.ite flushed.resetEnd ((EpochKept.of_keeps h5 rfl).keeps (State.onLed_keeps ..) rfl))

theorem execHoldFloor_epochKept (t hold : Nat) (s : State) : Answers (EpochKept s) (execHoldFloor t hold s) :=
  .ite (.next (.of_same (State.tick_sameStage t s))) (.next (.stopped rfl))

theorem execSupplyUp_epochKept (t : Nat) (s : State) : Answers (EpochKept s) (execSupplyUp t s) :=
  .ite (.next (.of_same (State.tick_sameStage t s))) (.next (.stopped rfl))

theorem execNresetAssert_epochKept (t : Nat) (s : State) : Answers (EpochKept s) (execNresetAssert t s) := by
  unfold execNresetAssert
  extract_lets +onlyGivenNames s1
  refine .ite (.next ((EpochKept.of_same (State.tick_sameStage t s)).keeps (State.onWake_keeps ..) rfl)) ?_
  extract_lets +onlyGivenNames s2
  have h2 : EpochKept s s2 := ((EpochKept.stopped (State.holdMotion_stopped _)).keeps (State.powerFlushBegin_keeps _) rfl).keeps
    (State.onWake_keeps ..) rfl
  exact .next (.ite h2.resetEnd h2)

theorem execWaking_epochKept (t : Nat) (failed : List Nat) (nor : NorFacts) (s : State) :
    Answers (EpochKept s) (execWaking t failed nor s) := by
  unfold execWaking
  extract_lets +onlyGivenNames s1 s2
  have h1 : EpochKept s s1 := .of_same (State.tick_sameStage t s)
  have h2 : EpochKept s s2 := .ite h1.resetEnd h1
  exact .ite (.next h2) (.next (h2.keeps (State.startWaking_keeps ..) rfl))

theorem execUnsignedOwnerKey_epochKept (t : Nat) (s : State) : Answers (EpochKept s) (execUnsignedOwnerKey t s) := by
  unfold execUnsignedOwnerKey
  extract_lets +onlyGivenNames s1
  have h1 : EpochKept s s1 := .of_same (State.tick_sameStage t s)
  split
  · exact .next h1
  · refine .ite (.next h1) ?_
    extract_lets +onlyGivenNames s2 o st
    have h2 : EpochKept s s2 := h1.keeps (State.setAsm_keeps ..) rfl
    clear_value st o
    split
    · exact .next (State.beginWaking_epochKept _ _)
    · exact .next (.keeps (.ite h2 (h2.keeps (State.objectEv_keeps ..) rfl)) (State.objAnswer_keeps ..) rfl)

theorem execActivate_epochKept (t : Nat) (s : State) : Answers (EpochKept s) (execActivate t s) := by
  obtain ⟨u, hu, hk⟩ : Runs (allBut [.stage]) s (s.objRow t 2 (fun k g => k == 8 && g != 255) State.takeActivate) :=
    State.objRow_keeps (fun _ _ _ h => h.onto _ rfl (State.takeActivate_keeps ..)) rfl
  unfold execActivate
  refine .ite (.next (.of_same (State.tick_sameStage t s))) ?_
  rw [hu]
  exact .next (.ite (State.beginWaking_epochKept s u) (.of_keeps hk rfl))

/-- Stage 0 has still to open when the journal has been replayed (R59). -/
theorem State.stageZero_epoch (s : State) : s.stageZero.stage.epoch = 0xFFFFFFFFFFFF := by
  unfold State.stageZero
  extract_lets +onlyGivenNames s1 disp s2 s3
  have twin : Keeps (allBut [.stage]) s2 s3 := .ite ((State.onTwin_keeps ..).mono rfl) (.refl _ s2)
  have h : Same s2 _ .stage :=
    ((twin.onto _ rfl (State.terminate_keeps _)).onto _ rfl (State.fabricUp_keeps _)).get .stage rfl
  exact congrArg Stage.epoch h

theorem execJournalReplay_epochKept (t : Nat) (s : State) : Answers (EpochKept s) (execJournalReplay t s) :=
  .ite (.next (.of_same (State.tick_sameStage t s))) (.next fun _ => .inl (State.stageZero_epoch _))

/-! ### Every command -/

theorem exec_epochKept_of_writes {c : Instr} (s : State) (w : (writes c).contains .stage = false) :
    Answers (EpochKept s) (exec c s) := by
  obtain ⟨u, hu, hk⟩ := exec_keeps_writes c s
  exact ⟨u, hu, .of_keeps hk w⟩

/-- Every command but the boundary keeps the epoch of the Stage that runs. -/
theorem exec_epochKept (c : Instr) (s : State) (h : ∀ io, c ≠ .stageBoundary io) : Answers (EpochKept s) (exec c s) := by
  cases c with
  | stageBoundary io => exact absurd rfl (h io)
  | boundaryNotice io => exact execBoundaryNotice_epochKept io s
  | commitCutoff t executed => exact execCommitCutoff_epochKept t executed s
  | edgeClockCheck t khz => exact execEdgeClockCheck_epochKept t khz s
  | pllLossOfLock t => exact execPllLossOfLock_epochKept t s
  | coreSupplyLow t die => exact execCoreSupplyLow_epochKept t die s
  | announce t port a => exact (execAnnounce_sameStage t port a s).mono fun _ => .of_same
  | sync t port seqId origin corr stamp => exact (execSync_sameStage t port seqId origin corr stamp s).mono fun _ => .of_same
  | syncTimeout t => exact (execSyncTimeout_sameStage t s).mono fun _ => .of_same
  | timeSeal t origin seqId => exact (execTimeSeal_sameStage t origin seqId s).mono fun _ => .of_same
  | cysinFrame t port from_ f => exact (execCysinFrame_sameStage t port from_ f s).mono fun _ => .of_same
  | pageProgrammed t failed => exact execPageProgrammed_epochKept t failed s
  | holdFloor t hold => exact execHoldFloor_epochKept t hold s
  | supplyUp t => exact execSupplyUp_epochKept t s
  | nresetAssert t => exact execNresetAssert_epochKept t s
  | waking t failed nor => exact execWaking_epochKept t failed nor s
  | unsignedOwnerKey t => exact execUnsignedOwnerKey_epochKept t s
  | activate t => exact execActivate_epochKept t s
  | journalReplay t => exact execJournalReplay_epochKept t s
  | _ => exact exec_epochKept_of_writes s rfl

/-- While Stages run, no command decreases the epoch. -/
theorem exec_epoch_mono (c : Instr) (s t : State) (hrun : s.stage.running = true) (hlt : s.stage.epoch < 0xFFFFFFFFFFFF)
    (ht : exec c s = .next t) (hrun' : t.stage.running = true) : s.stage.epoch ≤ t.stage.epoch := by
  by_cases boundary : ∃ io, c = .stageBoundary io
  · obtain ⟨io, rfl⟩ := boundary
    have later := ((execStageBoundary_epoch io s hrun).of_next ht).2 (Nat.ne_of_lt hlt)
    omega
  · have kept := (exec_epochKept c s fun io e => boundary ⟨io, e⟩).of_next ht hrun'
    omega

/-- Settles O9: the boundary gives the next epoch or a greater one, and every other command keeps it while Stages run (R59). -/
theorem epochsOfStages : Obligations.EpochsOfStages := by
  refine ⟨fun s io hrun => execStageBoundary_epoch io s hrun, fun s t hrun hlt hstep hrun' => ?_⟩
  unfold step at hstep
  split at hstep
  · cases hstep
    exact Nat.le_refl _
  · next c cs _ => exact exec_epoch_mono c { s with pending := cs } t hrun hlt hstep hrun'

end Sys2Proof.Machine

namespace Sys2Proof.Machine

/-! # Quadrature counting and the SSI delay (R143, R162) -/

/-! ## One feedback channel, and the axes that a feedback fault reaches -/

theorem State.fbOf_onFb {s : State} {ch : Nat} (h : ch < s.fb.length) (f : Fb → Fb) :
    (s.onFb ch f).fbOf ch = f (s.fbOf ch) := by
  simp [State.fbOf, nth, List.getD_eq_getElem?_getD, h]

theorem State.fbOf_of_fb {s t : State} (h : t.fb = s.fb) (ch : Nat) : t.fbOf ch = s.fbOf ch := by
  unfold State.fbOf
  rw [h]

/-- The second half of a feedback fault: every axis that uses the channel faults (R170). -/
def State.faultUsers (ch : Nat) (s : State) : State :=
  eachIx 12 (fun a s => if s.usesFb a ch then s.axisFault a 2 ch else s) s

theorem State.fbFault_eq (ch cause : Nat) (detail : Int) (s : State) :
    s.fbFault ch cause detail =
      if (s.fbOf ch).fault then s
      else ((s.onFb ch fun f => { f with fault := true, cause := cause, valid := false }).raise 0x00
        (le 1 ch ++ le 1 cause ++ le 4 detail)).faultUsers ch := rfl

theorem State.faultUsers_keeps (ch : Nat) (s : State) : Keeps [.book, .safe, .led] s (s.faultUsers ch) :=
  .eachIx (fun a _ h => .ite ((State.axisFault_keeps a 2 ch _).after h rfl) h) (.refl _ s)

/-- A fault of a channel that has none latches its cause (R169). -/
theorem State.fbFault_latches {s : State} {ch : Nat} (h : ch < s.fb.length) (clear : (s.fbOf ch).fault = false) (cause : Nat)
    (detail : Int) :
    ((s.fbFault ch cause detail).fbOf ch).fault = true ∧ ((s.fbFault ch cause detail).fbOf ch).cause = cause := by
  have channel : (s.fbFault ch cause detail).fbOf ch = { s.fbOf ch with fault := true, cause := cause, valid := false } := by
    rw [State.fbFault_eq, if_neg (by simp [clear]), State.fbOf_of_fb ((State.faultUsers_keeps ch _).get .fb rfl),
      State.fbOf_of_fb (State.raise_fb ..), State.fbOf_onFb h]
  simp [channel]

/-! ## The count register (R143)

Confirming, faults and the events move the count and the position of a channel, not its count register. -/

/-- The count register of a channel moves by `d` from `s` to `t`; there are as many channels as before. -/
structure RegMoves (ch : Nat) (d : Int) (s t : State) : Prop where
  reg : (t.fbOf ch).reg = (s.fbOf ch).reg + d
  channels : t.fb.length = s.fb.length

namespace RegMoves

variable {ch : Nat} {d : Int} {s t u : State}

theorem of_fb (h : t.fb = s.fb) : RegMoves ch 0 s t :=
  ⟨by rw [State.fbOf_of_fb h, Int.add_zero], congrArg List.length h⟩

theorem refl (s : State) : RegMoves ch 0 s s := of_fb rfl

theorem of_keeps {W : List Fld} (h : Keeps W s t) (w : W.contains .fb = false) : RegMoves ch 0 s t := of_fb (h.get .fb w)

/-- An update that leaves the register, after what moved it. -/
theorem still (h : RegMoves ch d s t) (k : RegMoves ch 0 t u) : RegMoves ch d s u :=
  ⟨by rw [k.reg, h.reg, Int.add_zero], k.channels.trans h.channels⟩

/-- A move of the register, after an update that left it. -/
theorem after (k : RegMoves ch d t u) (h : RegMoves ch 0 s t) : RegMoves ch d s u :=
  ⟨by rw [k.reg, h.reg, Int.add_zero], k.channels.trans h.channels⟩

theorem ite {a b : State} {c : Prop} [Decidable c] (h : RegMoves ch d s a) (k : RegMoves ch d s b) :
    RegMoves ch d s (if c then a else b) := by split <;> assumption

theorem foldl {α : Type} {f : State → α → State} (h : ∀ t a, RegMoves ch 0 t (f t a)) (l : List α) (s : State) :
    RegMoves ch 0 s (l.foldl f s) :=
  List.foldlRecOn l f (refl s) fun _ k a _ => k.still (h _ a)

theorem onFb (h : ch < s.fb.length) {f : Fb → Fb} (hf : ∀ x, (f x).reg = x.reg + d) : RegMoves ch d s (s.onFb ch f) :=
  ⟨by rw [State.fbOf_onFb h, hf], by simp⟩

/-- An update of a channel that leaves its register, of a channel that need not exist. -/
theorem onFb_still {f : Fb → Fb} (hf : ∀ x, (f x).reg = x.reg) : RegMoves ch 0 s (s.onFb ch f) := by
  by_cases h : ch < s.fb.length
  · exact onFb h fun x => by rw [hf, Int.add_zero]
  · exact of_fb (by simp [List.modify_eq_self (Nat.le_of_not_lt h)])

end RegMoves

theorem State.raise_regStill (ch c : Nat) (p : List Octet) (s : State) :
    RegMoves ch 0 s (s.raise c p) :=
  .of_fb (State.raise_fb ..)

theorem State.axisSaturated_regStill (ch a quantity : Nat) (v : Int) (s : State) :
    RegMoves ch 0 s (s.axisSaturated a quantity v) := .of_keeps (State.axisSaturated_keeps ..) rfl

theorem State.fbFault_regStill (ch cause : Nat) (detail : Int) (s : State) : RegMoves ch 0 s (s.fbFault ch cause detail) := by
  rw [State.fbFault_eq]
  refine .ite (.refl s) (.still (.still ?_ (State.raise_regStill ..)) (.of_keeps (State.faultUsers_keeps ..) rfl))
  exact .onFb_still fun _ => rfl

theorem State.edgeError_regStill (ch : Nat) (s : State) : RegMoves ch 0 s (s.edgeError ch) := by
  unfold State.edgeError
  extract_lets counted
  have h : RegMoves ch 0 s counted := .onFb_still fun _ => rfl
  exact .ite (h.still (State.fbFault_regStill ..)) h

theorem State.moveCount_regStill (ch : Nat) (dc : Int) (s : State) : RegMoves ch 0 s (s.moveCount ch dc) := by
  unfold State.moveCount
  extract_lets f cpr c turns y dy p moved checked
  have hm : RegMoves ch 0 s moved := .onFb_still fun _ => rfl
  have hc : RegMoves ch 0 s checked := by
    unfold checked
    split
    · exact hm
    · extract_lets stepped
      have hs : RegMoves ch 0 s stepped := .ite (hm.still (State.axisSaturated_regStill ..)) hm
      exact .ite (hs.still (State.axisSaturated_regStill ..)) hs
  exact .ite ((hc.still (State.raise_regStill ..)).still (State.fbFault_regStill ..)) hc

theorem State.countIn_regStill (ch : Nat) (dc : Int) (t : Nat) (s : State) : RegMoves ch 0 s (s.countIn ch dc t) :=
  .ite (.refl s) ((State.moveCount_regStill ch dc s).still (.onFb_still fun _ => rfl))

theorem State.confirmLine_regStill (t ch line : Nat) (s : State) : RegMoves ch 0 s (s.confirmLine t ch line) := by
  unfold State.confirmLine
  split
  · exact .refl s
  · extract_lets taken directed
    have h : RegMoves ch 0 s taken := .onFb_still fun _ => rfl
    have hd : RegMoves ch 0 s directed := h.still (.onFb_still fun _ => rfl)
    exact .ite (h.still (.onFb_still fun _ => rfl)) (.ite (hd.still (State.countIn_regStill ..)) hd)

theorem State.confirmDue_regStill (t ch : Nat) (s : State) : RegMoves ch 0 s (s.confirmDue t ch) :=
  .foldl (fun x line => State.confirmLine_regStill t ch line x) _ s

/-- A change of one line moves the register by its count step, also as the second half of a glitch pair (R145). -/
theorem State.lineChange_regMoves {s : State} {ch : Nat} (h : ch < s.fb.length) (t line : Nat) (d : Int) (level : Bool) :
    RegMoves ch d s (s.lineChange t ch line d level) := by
  unfold State.lineChange
  extract_lets f
  split
  · extract_lets paired
    have hp : RegMoves ch d s paired := .onFb h fun _ => rfl
    exact (hp.still (State.raise_regStill ..)).still (State.edgeError_regStill ..)
  · exact .onFb h fun _ => rfl

/-- A change of one of A and B moves the register of a channel that counts by its step of the sequence (R143). -/
theorem execQuadTransition_regMoves {s : State} {ch : Nat} (h : ch < s.fb.length) (on : s.fbOff = false)
    (free : s.clk.motionHeld = false) (kind : s.nat FB.kind ch = 1 ∨ s.nat FB.kind ch = 2) (t : Nat) (a b z : Bool)
    (one : (s.fbOf ch).a = a ↔ (s.fbOf ch).b ≠ b) :
    Answers (RegMoves ch (quadStep (s.fbOf ch).a (s.fbOf ch).b a b) s) (execQuadTransition t ch a b z s) := by
  unfold execQuadTransition
  extract_lets ticked f due changed next
  have counts : (ticked.fbOff || ticked.clk.motionHeld ||
      !(ticked.nat FB.kind ch == 1 || ticked.nat FB.kind ch == 2)) = false := by
    have kind' : ticked.nat FB.kind ch = 1 ∨ ticked.nat FB.kind ch = 2 := kind
    simpa [show ticked.fbOff = false from on, show ticked.clk.motionHeld = false from free] using kind'.resolve_left
  have hdue : RegMoves ch 0 s due := .after (State.confirmDue_regStill t ch ticked) (.of_fb rfl)
  have hchanged : RegMoves ch (quadStep f.a f.b a b) s changed := by
    have inDue : ch < due.fb.length := hdue.channels ▸ h
    refine .after ?_ hdue
    unfold changed
    by_cases hA : f.a = a
    · have hB : f.b ≠ b := one.mp hA
      rw [if_neg (fun both => both.1 hA), if_neg (fun k => k hA), if_pos hB]
      exact State.lineChange_regMoves inDue ..
    · rw [if_neg (fun both => hA (one.mpr both.2)), if_pos hA]
      exact State.lineChange_regMoves inDue ..
  have hnext : RegMoves ch (quadStep f.a f.b a b) s next := by
    unfold next
    rw [counts, if_neg Bool.false_ne_true]
    exact .ite (hchanged.still (State.lineChange_regMoves (hchanged.channels ▸ h) ..)) hchanged
  exact .next (hnext.still (.onFb_still fun _ => rfl))

/-- The steps 00, 10, 11, 01, 00 of the counting sequence. -/
def forwardSteps : List (Bool × Bool × Bool × Bool) :=
  [(false, false, true, false), (true, false, true, true), (true, true, false, true), (false, true, false, false)]

/-- The steps of the reverse sequence. -/
def reverseSteps : List (Bool × Bool × Bool × Bool) :=
  [(true, false, false, false), (true, true, true, false), (false, true, true, true), (false, false, false, true)]

theorem quadStep_of_forward :
    ∀ {a b a' b' : Bool}, (a, b, a', b') ∈ forwardSteps → (a = a' ↔ b ≠ b') ∧ quadStep a b a' b' = 1 := by decide

theorem quadStep_of_reverse :
    ∀ {a b a' b' : Bool}, (a, b, a', b') ∈ reverseSteps → (a = a' ↔ b ≠ b') ∧ quadStep a b a' b' = -1 := by decide

/-! ## The counts of the events -/

theorem find?_key_filter (c : Counts) {p : Nat × Nat → Bool} {j : Nat} {r : Bool} (h : ∀ x ∈ c, x.1 = j → p x = r) :
    (c.filter p).find? (·.1 == j) = if r then c.find? (·.1 == j) else none := by
  induction c with
  | nil => simp
  | cons x c ih =>
    have hx := h x
    have ih := ih fun y hy => h y (List.mem_cons_of_mem x hy)
    grind

theorem countOf_countSet (c : Counts) (j k v : Nat) : countOf (countSet c k v) j = if j = k then v else countOf c j := by
  have below := find?_key_filter c (p := fun x => decide (x.1 < k)) (j := j) (r := decide (j < k)) (by simp +contextual)
  have above := find?_key_filter c (p := fun x => decide (k < x.1)) (j := j) (r := decide (k < j)) (by simp +contextual)
  have here : (if v = 0 then [] else [(k, v)] : Counts).find? (·.1 == j) = if v ≠ 0 ∧ k = j then some (k, v) else none := by
    split <;> simp [*]
  unfold countOf countSet
  rw [List.find?_append, List.find?_append, below, above, here]
  rcases Nat.lt_trichotomy j k with lt | rfl | gt
  · simp [lt, Nat.ne_of_lt lt, Nat.ne_of_gt lt, Nat.lt_asymm lt]
  · by_cases hv : v = 0 <;> simp [hv]
  · simp [gt, Nat.ne_of_lt gt, Nat.ne_of_gt gt, Nat.lt_asymm gt]

/-! ### Raising an event counts it -/

/-- The counts of the events raised are those of `s`. -/
def SameRaised (s t : State) : Prop := t.led.raised = s.led.raised

theorem SameRaised.ite {s a b : State} {c : Prop} [Decidable c] (h : SameRaised s a) (k : SameRaised s b) :
    SameRaised s (if c then a else b) := by split <;> assumption

theorem State.beginFlush_sameRaised (s : State) : SameRaised s s.beginFlush := .ite rfl rfl

theorem State.flushDecide_sameRaised (sev : Nat) (s : State) : SameRaised s (s.flushDecide sev) :=
  .ite s.beginFlush_sameRaised rfl

theorem State.enterRec_sameRaised (r : LedRec) (s : State) : SameRaised s (s.enterRec r) := State.flushDecide_sameRaised ..

theorem State.ledTake_sameRaised (o : Occ) (s : State) : SameRaised s (s.ledTake o) :=
  .ite rfl (.ite rfl (.ite (.ite (s.enterRec_sameRaised _) (.ite rfl rfl)) (.ite rfl (s.enterRec_sameRaised _))))

theorem State.fabTake_sameRaised (o : Occ) (kept : Option Nat) (s : State) : SameRaised s (s.fabTake o kept) := .ite rfl rfl

theorem State.nevtTake_sameRaised (code : Nat) (s : State) : SameRaised s (s.nevtTake code) := .ite rfl rfl

/-- Wherever an event is routed, raising it counts it once. -/
theorem State.raise_raised (code : Nat) (pl : List Octet) (s : State) (sev : Nat) :
    (s.raise code pl sev).led.raised = countUp s.led.raised code := by
  unfold State.raise
  extract_lets sv o ledger counted before
  split
  next led fab nevt _ =>
  extract_lets taken kept sent
  have hTaken : SameRaised counted taken := .ite (State.ledTake_sameRaised ..) rfl
  have hSent : SameRaised taken sent := .ite (State.fabTake_sameRaised ..) rfl
  have hNevt : SameRaised sent (if nevt = true then sent.nevtTake code else sent) := .ite (State.nevtTake_sameRaised ..) rfl
  exact hNevt.trans (hSent.trans hTaken)

/-- The count of the event `k` is that of `s`. -/
def SameCount (k : Nat) (s t : State) : Prop := countOf t.led.raised k = countOf s.led.raised k

namespace SameCount

variable {k : Nat} {s t u : State}

theorem trans (h : SameCount k s t) (h' : SameCount k t u) : SameCount k s u := Eq.trans h' h

theorem ite {a b : State} {c : Prop} [Decidable c] (h : SameCount k s a) (h' : SameCount k s b) :
    SameCount k s (if c then a else b) := by split <;> assumption

/-- Another event does not count under `k`. -/
theorem raise {code : Nat} (h : SameCount k s t) (ne : k ≠ code) (pl : List Octet) (sev : Nat) :
    SameCount k s (t.raise code pl sev) := by
  rw [SameCount, State.raise_raised, countUp, countOf_countSet, if_neg ne]
  exact h

end SameCount

/-- An axis fault raises EV_AXIS_FAULT, and EV_SAFE_STOP for the stop that it orders. -/
theorem State.axisFault_sameCount {k : Nat} (noFault : k ≠ 0x60) (noStop : k ≠ 0xB7) (a cause : Nat) (detail : Int)
    (s : State) : SameCount k s (s.axisFault a cause detail) := by
  unfold State.axisFault
  extract_lets b booked told
  have hTold : SameCount k s told := .raise (t := booked) rfl noFault ..
  refine .ite rfl (.ite (.ite hTold ?_) (.ite hTold (.ite hTold ?_)))
  · exact .raise (t := told.onStop a _) hTold noStop ..
  · exact .raise (t := (told.onStop a _).order a ..) hTold noStop ..

theorem State.faultUsers_sameCount {k : Nat} (noFault : k ≠ 0x60) (noStop : k ≠ 0xB7) (ch : Nat) (s : State) :
    SameCount k s (s.faultUsers ch) :=
  List.foldlRecOn _ _ rfl fun t h a _ => .ite (.trans h (t.axisFault_sameCount noFault noStop a 2 ch)) h

/-- A feedback fault raises EV_FEEDBACK_FAULT, beside what the axes raise. -/
theorem State.fbFault_sameCount {k : Nat} (noFeedback : k ≠ 0x00) (noFault : k ≠ 0x60) (noStop : k ≠ 0xB7) (ch cause : Nat)
    (detail : Int) (s : State) : SameCount k s (s.fbFault ch cause detail) := by
  rw [State.fbFault_eq]
  exact .ite rfl (.trans (.raise (t := s.onFb ch _) rfl noFeedback ..) (State.faultUsers_sameCount noFault noStop ..))

/-! ## The SSI delay (R162) -/

/-- The channel has feedback fault cause 6, and EV_SSI_DELAY counts once more than in `s`. -/
structure SsiDelayFaulted (ch : Nat) (s u : State) : Prop where
  fault : (u.fbOf ch).fault = true
  cause : (u.fbOf ch).cause = 6
  counted : countOf u.led.raised 0x07 = inc32 (countOf s.led.raised 0x07)

/-- What a failed measurement does to a channel that has no fault; `x` is `s` but for the clock and the Waking's own record. -/
theorem State.ssiDelayFaulted {s x : State} {ch : Nat} (fb : x.fb = s.fb) (led : x.led = s.led) (h : ch < s.fb.length)
    (clear : (s.fbOf ch).fault = false) (pl : List Octet) (detail : Int) :
    SsiDelayFaulted ch s ((x.raise 0x07 pl).fbFault ch 6 detail) := by
  have bank : (x.raise 0x07 pl).fb = s.fb := (State.raise_fb ..).trans fb
  have clear' : ((x.raise 0x07 pl).fbOf ch).fault = false := by rw [State.fbOf_of_fb bank, clear]
  obtain ⟨fault, cause⟩ := State.fbFault_latches (bank ▸ h) clear' 6 detail
  refine ⟨fault, cause, ?_⟩
  calc countOf ((x.raise 0x07 pl).fbFault ch 6 detail).led.raised 0x07
      = countOf (x.raise 0x07 pl).led.raised 0x07 := State.fbFault_sameCount (by decide) (by decide) (by decide) ..
    _ = inc32 (countOf s.led.raised 0x07) := by rw [State.raise_raised, countUp, countOf_countSet, if_pos rfl, led]

/-- The mean of the middle two of sixteen intervals (R161). -/
def middleMean (v : List (Option Nat)) : Nat :=
  ((sortNat (v.filterMap id)).getD 7 0 + (sortNat (v.filterMap id)).getD 8 0 + 1) / 2

/-- A frame without a fall of the data line, or a delay above 400 cycles, is a feedback fault. -/
theorem execSsiDelayMeasure_faults {s : State} {ch : Nat} (free : s.clk.motionHeld = false) (h : ch < s.fb.length)
    (kind : s.nat FB.kind ch = 3) {v : List (Option Nat)} (sixteen : v.length = 16) (clear : (s.fbOf ch).fault = false)
    (bad : none ∈ v ∨ 400 < middleMean v) (t : Nat) : Answers (SsiDelayFaulted ch s) (execSsiDelayMeasure t ch v s) := by
  unfold execSsiDelayMeasure
  extract_lets ticked wake measured sorted mean
  rw [if_neg (by simp [ticked, free]), if_neg (not_not_intro (show ticked.nat FB.kind ch = 3 from kind))]
  have faults (pl detail) : SsiDelayFaulted ch s ((measured.raise 0x07 pl).fbFault ch 6 detail) :=
    State.ssiDelayFaulted (s := s) (x := measured) rfl rfl h clear pl detail
  have incomplete : v.any (·.isNone) ∨ v.length ≠ 16 ↔ none ∈ v := by simp [sixteen]
  by_cases unfallen : none ∈ v
  · rw [if_pos (incomplete.mpr unfallen)]
    exact .next (faults ..)
  · have long : 400 < mean := bad.resolve_left unfallen
    rw [if_neg (fun k => unfallen (incomplete.mp k)), if_pos long]
    exact .next (faults ..)

/-- Settles O16: one change of A or B moves the register by its step of the sequence, and both failures of a measurement latch
cause 6 (R143, R162). -/
theorem quadratureAndSsiDelay : Obligations.QuadratureAndSsiDelay := by
  refine ⟨fun s t ch a b z _ h on free kind => ?_, fun s t ch v free h kind sixteen clear bad => ?_⟩
  · obtain ⟨u, hu, -⟩ := execQuadTransition_keeps t ch a b z s
    have moves (one) := ((execQuadTransition_regMoves h on free kind t a b z one).of_next hu).reg
    refine ⟨u, hu, fun forward => ?_, fun reverse => ?_⟩
    · obtain ⟨one, step⟩ := quadStep_of_forward forward
      rw [moves one, step]
    · obtain ⟨one, step⟩ := quadStep_of_reverse reverse
      rw [moves one, step, Int.sub_eq_add_neg]
  · obtain ⟨u, hu, faulted⟩ := execSsiDelayMeasure_faults free h kind sixteen clear bad t
    exact ⟨u, hu, faulted.fault, faulted.cause, faulted.counted⟩

end Sys2Proof.Machine

namespace Sys2Proof.Machine

/-! # The ports and the grant (R543 to R547)

At a boundary notice the Purse forms G from the ports as they stand; nothing else of the notice writes the ports or G. -/

/-! ## Operations that leave the ports and the grant -/

/-- `t` has the grant of `s`, and all that the next grant is formed from (R544, R547). -/
structure SameGrant (s t : State) : Prop where
  pd : t.purse.pd = s.purse.pd
  lost : t.purse.lost = s.purse.lost
  linkFailed : t.purse.linkFailed = s.purse.linkFailed
  grant : t.purse.grant = s.purse.grant

namespace SameGrant

variable {s t u : State}

theorem of_purse (h : t.purse = s.purse) : SameGrant s t := by constructor <;> rw [h]

theorem refl (s : State) : SameGrant s s := of_purse rfl

theorem trans (h : SameGrant s t) (k : SameGrant t u) : SameGrant s u :=
  ⟨k.pd.trans h.pd, k.lost.trans h.lost, k.linkFailed.trans h.linkFailed, k.grant.trans h.grant⟩

theorem ite {a b : State} {c : Prop} [Decidable c] (h : SameGrant s a) (k : SameGrant s b) :
    SameGrant s (if c then a else b) := by split <;> assumption

theorem raise (h : SameGrant s t) (code : Nat) (pl : List Octet) (sev : Nat) : SameGrant s (t.raise code pl sev) :=
  h.trans (of_purse (State.raise_purse ..))

theorem eachIx {f : Nat → State → State} (h : ∀ i t, SameGrant t (f i t)) (n : Nat) (s : State) :
    SameGrant s (eachIx n f s) :=
  List.foldlRecOn _ _ (refl s) fun _ k i _ => k.trans (h i _)

/-- The grant that the next boundary forms is the same too. -/
theorem grantNow (h : SameGrant s t) : t.grantNow = s.grantNow := by
  unfold State.grantNow
  rw [h.pd, h.lost, h.linkFailed]

end SameGrant

theorem State.holdUp_sameGrant (s : State) : SameGrant s s.holdUp := by
  unfold State.holdUp
  extract_lets e m was set
  have h : SameGrant s set := ⟨rfl, rfl, rfl, rfl⟩
  exact .ite (h.raise ..) h

theorem State.tierEv_sameGrant (tier : Nat) (funded : Bool) (cause : Nat) (s : State) :
    SameGrant s (s.tierEv tier funded cause) := by
  unfold State.tierEv
  refine .trans ?_ (.of_purse (State.raise_purse ..))
  exact ⟨rfl, rfl, rfl, rfl⟩

theorem State.tiers_sameGrant (s : State) : SameGrant s s.tiers := by
  unfold State.tiers
  extract_lets c1 c2 p first set told
  have hSet : SameGrant s set := ⟨rfl, rfl, rfl, rfl⟩
  have hTold : SameGrant s told := .ite (hSet.trans (State.tierEv_sameGrant ..)) hSet
  exact .ite (hTold.trans (State.tierEv_sameGrant ..)) hTold

theorem State.busBoundary_sameGrant (b : Nat) (s : State) : SameGrant s (s.busBoundary b) :=
  .ite (.refl s) ⟨rfl, rfl, rfl, rfl⟩

/-! ### Sprint (R561 to R566) -/

/-- A debit touches the sprint allowance alone. -/
theorem State.takeDebit_sameGrant (s : State) : SameGrant s (s.onPurse Purse.takeDebit) := by
  unfold State.onPurse Purse.takeDebit
  constructor <;> dsimp only <;> split <;> rfl

theorem State.sprintCharge_sameGrant (s : State) : SameGrant s s.sprintCharge :=
  s.takeDebit_sameGrant.trans ⟨rfl, rfl, rfl, rfl⟩

theorem State.sprintEnd_sameGrant (cause : Nat) (s : State) : SameGrant s (s.sprintEnd cause) := by
  unfold State.sprintEnd
  extract_lets n ended clk fallen predicted
  have h : SameGrant s predicted := ⟨rfl, rfl, rfl, rfl⟩
  exact h.raise ..

theorem State.sprintBoundary_sameGrant (s : State) : SameGrant s s.sprintBoundary := by
  unfold State.sprintBoundary
  extract_lets asked
  have hAsked : SameGrant s asked := by
    unfold asked State.onPurse
    split <;> exact ⟨rfl, rfl, rfl, rfl⟩
  refine hAsked.trans (.ite ?_ (.of_purse rfl))
  split
  · exact State.sprintEnd_sameGrant ..
  · exact .ite (State.sprintCharge_sameGrant _) (State.sprintEnd_sameGrant ..)

theorem State.sprintGrant_sameGrant (s : State) : SameGrant s s.sprintGrant := by
  unfold State.sprintGrant
  extract_lets p f granted clk supplied predicted
  have hPredicted : SameGrant s predicted := s.takeDebit_sameGrant.trans ⟨rfl, rfl, rfl, rfl⟩
  exact .ite (.refl s) ((hPredicted.raise ..).trans (State.sprintCharge_sameGrant _))

/-! ## The grant at a boundary notice -/

/-- The Purse's part of the notice puts into force the grant of the ports as they stand (R545). -/
theorem State.purseBoundary_grant (io : NoticeInputs) (s : State) : (s.purseBoundary io).purse.grant = s.grantNow := by
  unfold State.purseBoundary
  extract_lets latched sprinted granted formed tiered allowed bused
  have hSprinted : SameGrant s sprinted :=
    .trans (t := latched) ⟨rfl, rfl, rfl, rfl⟩ (State.sprintBoundary_sameGrant _)
  have hGranted : granted.purse.grant = sprinted.grantNow := (State.holdUp_sameGrant _).grant
  have hTiered : SameGrant granted tiered := .trans (t := formed) ⟨rfl, rfl, rfl, rfl⟩ (State.tiers_sameGrant _)
  have hBused : SameGrant granted bused :=
    hTiered.trans (.trans (t := allowed) ⟨rfl, rfl, rfl, rfl⟩ (.eachIx State.busBoundary_sameGrant ..))
  calc bused.sprintGrant.purse.grant
      = granted.purse.grant := (hBused.trans (State.sprintGrant_sameGrant _)).grant
    _ = s.grantNow := hGranted.trans hSprinted.grantNow

/-- A notice that is due puts the grant of the ports into force. -/
theorem execBoundaryNotice_grant {s : State} {io : NoticeInputs} (due : (s.tick io.t).noticeDue = true) :
    Answers (fun u => u.purse.grant = s.grantNow) (execBoundaryNotice io s) := by
  unfold execBoundaryNotice
  extract_lets +onlyGivenNames ticked
  rw [if_neg (by simp [ticked, due])]
  extract_lets +onlyGivenNames stage noticed monitored reported
  have hNoticed : Keeps (allBut [.purse]) s noticed :=
    (((State.tick_keeps io.t s).mono rfl).onto _ rfl (.stage ..)).onto _ rfl (State.noticeB_keeps _)
  have hMonitored : Keeps (allBut [.purse]) s monitored :=
    .eachIx (fun _ _ h => .ite (h.onto _ rfl (State.edmBoundary_keeps ..)) h) hNoticed
  have pdus : Keeps (allBut [.purse]) s (eachIx 16 State.conProduce monitored) :=
    .eachIx (fun _ _ h => h.onto _ rfl (State.conProduce_keeps ..)) hMonitored
  have before : Keeps (allBut [.purse]) s reported.testNotice :=
    (pdus.onto _ rfl (State.ledBoundary_keeps _)).onto _ rfl (State.testNotice_keeps _)
  have after (x : State) : Keeps (allBut [.purse]) x x.chargerNow.publish.offerStewardKept :=
    (((State.chargerNow_keeps x).mono rfl).onto _ rfl (State.publish_keeps _)).onto _ rfl (State.offerStewardKept_keeps _)
  refine .next ?_
  calc (reported.testNotice.purseBoundary io).chargerNow.publish.offerStewardKept.purse.grant
      = (reported.testNotice.purseBoundary io).purse.grant := congrArg Purse.grant ((after _).get .purse rfl)
    _ = reported.testNotice.grantNow := State.purseBoundary_grant ..
    _ = s.grantNow := (SameGrant.of_purse (before.get .purse rfl)).grantNow

theorem State.tick_noticeDue {s : State} {t : Nat} (running : s.stage.running = true)
    (opened : s.stage.epoch ≠ 0xFFFFFFFFFFFF) (link : (nth s.links 0).failed = false)
    (fresh : s.stage.noticed ≠ some s.stage.boundaries) (prompt : max s.now t ≤ s.stage.openedAt + 400) :
    (s.tick t).noticeDue = true := by
  simp [State.noticeDue, State.tick, running, opened, link, fresh, prompt]

/-- With neither the input nor the power link lost, the next grant is the greater of the ports' grants (R544, R547). -/
theorem State.grantNow_of_input {s : State} (input : s.purse.lost = false) (link : s.purse.linkFailed = false) :
    s.grantNow = (s.purse.pd.map (·.grant)).foldl max 0 := by
  simp [State.grantNow, input, link]

/-! ## A change of a port -/

/-- A change of a port's class or powered state is told once; the grant in force waits for the boundary (R545). -/
theorem execPdClass_changed {s : State} {port cls : Nat} {powered : Bool} (h : port < 2)
    (changed : (nth s.purse.pd port).cls ≠ cls ∨ (nth s.purse.pd port).powered ≠ powered) (t : Nat) :
    Answers (fun u => u.led.raised = countUp s.led.raised 0xE0 ∧ u.purse.grant = s.purse.grant)
      (execPdClass t port cls powered s) := by
  unfold execPdClass
  extract_lets ticked p off entered g
  have told : ¬ (2 ≤ port ∨ p.cls = cls ∧ p.powered = powered) := by
    rintro (far | ⟨sameCls, samePower⟩)
    · omega
    · exact changed.elim (· sameCls) (· samePower)
  rw [if_neg told]
  refine .next ⟨State.raise_raised .., ?_⟩
  calc (entered.raise 0xE0 _).purse.grant
      = entered.purse.grant := congrArg Purse.grant (State.raise_purse ..)
    _ = s.purse.grant := rfl

/-- Settles O45: a change of a port is told and leaves G, and the notice of the next boundary forms G of the ports (R545). -/
theorem portClassChanges : Obligations.PortClassChanges := by
  refine ⟨fun s t p c on h changed => execPdClass_changed h changed t,
    fun s io running opened link fresh prompt input power => ?_⟩
  obtain ⟨u, hu, grant⟩ := execBoundaryNotice_grant (State.tick_noticeDue running opened link fresh prompt)
  exact ⟨u, hu, grant.trans (State.grantNow_of_input input power)⟩

end Sys2Proof.Machine

namespace Sys2Proof.Machine

/-! # Routing to the Ledger and the nEVT pulse (R576, R602)

An occurrence drives nEVT at the instant of its raising: the Ledger and the fabric, which take it first, leave the clock and the
Waking's record. -/

/-- A fault or a critical occurrence reaches the Ledger whatever its route (R576). -/
theorem State.routeOf_ledger_of_fault (s : State) (c : Nat) {sev : Nat} (fault : 3 ≤ sev) : (s.routeOf c sev).1 = true := by
  simp [State.routeOf, fault]

theorem LedOnly.ite {s a b : State} {c : Prop} [Decidable c] (h : LedOnly s a) (k : LedOnly s b) :
    LedOnly s (if c then a else b) := by split <;> assumption

theorem LedOnly.now_eq {s t : State} (h : LedOnly s t) : t.now = s.now := by rw [h]

theorem LedOnly.wake_eq {s t : State} (h : LedOnly s t) : t.wake = s.wake := by rw [h]

/-- nEVT is low, and the last occurrence that drove it came at `n`. -/
structure NevtDrivenAt (n : Nat) (u : State) : Prop where
  low : u.led.nevtLow = true
  last : u.led.nevtLastAt = n

/-- Once the LEDGER section is in effect, an nEVT-routed occurrence drives nEVT at the instant that it is taken (R602, R712). -/
theorem State.nevtTake_drives {s : State} (inEffect : s.wake.ledgerOn = true) (code : Nat) :
    NevtDrivenAt s.now (s.nevtTake code) := by
  unfold State.nevtTake
  rw [if_neg (by simp [inEffect])]
  exact ⟨rfl, rfl⟩

/-- Whatever else its route names, an nEVT-routed occurrence that is raised drives nEVT. -/
theorem State.raise_drives {s : State} {code sev : Nat} (inEffect : s.wake.ledgerOn = true)
    (routed : (s.routeOf code (max (s.sevOf code) sev)).2.2 = true) (pl : List Octet) :
    NevtDrivenAt s.now (s.raise code pl sev) := by
  unfold State.raise
  extract_lets sv o countedLed counted before
  split
  next ledger fab nevt route =>
  extract_lets taken kept sent
  have toNevt : nevt = true := by simpa [sv, route] using routed
  have hTaken : LedOnly counted taken := .ite (ledOnly_ledTake ..) (.refl _)
  have hSent : LedOnly taken sent := .ite (ledOnly_fabTake ..) (.refl _)
  have sentLedOnly : LedOnly s sent := ((LedOnly.upd s _).trans hTaken).trans hSent
  rw [if_pos toNevt, ← sentLedOnly.now_eq]
  exact State.nevtTake_drives (sentLedOnly.wake_eq ▸ inEffect) code

/-- In mode 2 the pulse is over once LEDGER.nevt_width cycles have passed since the last occurrence; before that nEVT stays
low. -/
theorem execNevtPulseEnd_low {s : State} (pulses : s.nat LEDGER.nevt_mode = 2) (low : s.led.nevtLow = true) (t : Nat) :
    Answers (fun u => u.led.nevtLow = decide (max s.now t < s.led.nevtLastAt + s.nat LEDGER.nevt_width))
      (execNevtPulseEnd t s) := by
  unfold execNevtPulseEnd
  extract_lets ticked
  split
  next ended =>
    obtain ⟨-, -, passed⟩ := ended
    exact .next (decide_eq_false (Nat.not_lt.mpr passed)).symm
  next runs =>
    have within : max s.now t < s.led.nevtLastAt + s.nat LEDGER.nevt_width :=
      Nat.lt_of_not_le fun passed => runs ⟨pulses, low, passed⟩
    exact .next (low.trans (decide_eq_true within).symm)

/-- Settles O50: the severity overrules the route, each nEVT-routed occurrence starts the pulse anew, and the pulse lasts its
width (R576, R602). -/
theorem ledgerAndNevtRouting : Obligations.LedgerAndNevtRouting := by
  refine ⟨fun s c v fault => s.routeOf_ledger_of_fault c fault, fun s c v pl inEffect routed => ?_,
    fun s t pulses low => execNevtPulseEnd_low pulses low t⟩
  obtain ⟨low, last⟩ := State.raise_drives inEffect routed pl
  exact ⟨low, last⟩

end Sys2Proof.Machine

namespace Sys2Proof.Machine

/-! # Every step: the queue, the clock, the invariant, the frame -/

/-! ## A step runs the front command -/

theorem step_of_pending {s : State} {c : Instr} {cs : List Instr} (h : s.pending = c :: cs) :
    step s = exec c { s with pending := cs } := by simp only [step, h]

theorem step_of_idle {s : State} (h : s.pending = []) : step s = .next s := by simp only [step, h]

/-- Settles O1: the front command runs on the state without it; an empty queue idles. -/
theorem stepRunsFront : Obligations.StepRunsFront := fun _ => ⟨fun _ _ => step_of_pending, step_of_idle⟩

/-- A command keeps the queue, the clock's direction and the invariant, and writes changeable fields alone. -/
theorem exec_keeps_of_next {c : Instr} {s u : State} (h : exec c s = .next u) : Keeps changeable s u :=
  (exec_keeps c s).keeps h

/-- A step answers the state itself, or what the front command makes of the state without it. -/
theorem step_cases {s t : State} (h : step s = .next t) :
    (s.pending = [] ∧ t = s) ∨
      ∃ c cs, s.pending = c :: cs ∧ Keeps changeable { s with pending := cs } t := by
  cases hp : s.pending with
  | nil =>
    rw [step_of_idle hp] at h
    cases h
    exact .inl ⟨rfl, rfl⟩
  | cons c cs =>
    rw [step_of_pending hp] at h
    exact .inr ⟨c, cs, rfl, exec_keeps_of_next h⟩

theorem step_pending {s t : State} (h : step s = .next t) : t.pending = s.pending.tail := by
  obtain ⟨idle, rfl⟩ | ⟨c, cs, hp, kept⟩ := step_cases h
  · rw [idle, List.tail_nil]
  · rw [hp, List.tail_cons]
    exact kept.get .pending rfl

theorem step_now_le {s t : State} (h : step s = .next t) : s.now ≤ t.now := by
  obtain ⟨-, rfl⟩ | ⟨c, cs, -, kept⟩ := step_cases h
  · exact Nat.le_refl _
  · exact kept.clock

/-- Settles O2: a step takes the front of the queue and never sets the clock back. -/
theorem queueAndClock : Obligations.QueueAndClock := ⟨fun _ _ => step_pending, fun _ _ => step_now_le⟩

/-- Settles O4: every command keeps the invariant, whatever stands in the queue (R217). -/
theorem invariantKept : Obligations.InvariantKept := by
  intro s t inv h
  obtain ⟨-, rfl⟩ | ⟨c, cs, -, kept⟩ := step_cases h
  · exact inv
  · exact kept.inv inv

/-! ## Reset -/

theorem State.reset_inv : State.reset.Inv := ⟨by decide, nil_wf⟩

/-- Settles O3: every gate, axis and safe output of the machine after reset is off (R53, R217). -/
theorem resetState : Obligations.ResetState :=
  ⟨State.reset_inv, rfl, rfl, rfl, by decide, by decide, by decide⟩

/-! ## The frame of every command -/

/-- Settles O5: a command changes the fields of its list alone, and the queue and the trims stand in no list. -/
theorem fieldsUntouched : Obligations.FieldsUntouched := by
  intro c s u h
  have listed := ((exec_keeps_writes c s).keeps h).same
  have kept := exec_keeps_of_next h
  exact ⟨listed, kept.get .pending rfl, kept.get .trims rfl, kept.get .scTrims rfl⟩

end Sys2Proof.Machine

namespace Sys2Proof.Machine

/-! # A row that names one unit leaves the others -/

section
variable {α : Type} [Inhabited α]

theorem nth_modify_ne (l : List α) (f : α → α) {i j : Nat} (ne : j ≠ i) : nth (l.modify i f) j = nth l j := by
  simp [nth, List.getD_eq_getElem?_getD, ne.symm]

theorem nth_modify_same {l : List α} {i : Nat} (h : i < l.length) (f : α → α) : nth (l.modify i f) i = f (nth l i) := by
  simp [nth, List.getD_eq_getElem?_getD, h]

theorem nth_of_length_le {l : List α} {i : Nat} (h : l.length ≤ i) : nth l i = default := by
  rw [nth, List.getD_eq_getElem?_getD, List.getElem?_eq_none h, Option.getD_none]

theorem nth_set_ne (l : List α) (x : α) {i j : Nat} (ne : j ≠ i) : nth (l.set i x) j = nth l j := by
  simp [nth, List.getD_eq_getElem?_getD, ne.symm]

theorem nth_set_same {l : List α} {i : Nat} (h : i < l.length) (x : α) : nth (l.set i x) i = x := by
  simp [nth, List.getD_eq_getElem?_getD, h]

end

/-- In a bank of units, `t` differs from `s` at most at unit `i`. -/
structure OnlyAt {α : Type} [Inhabited α] (bank : State → List α) (i : Nat) (s t : State) : Prop where
  others : ∀ j, j ≠ i → nth (bank t) j = nth (bank s) j

namespace OnlyAt

variable {α : Type} [Inhabited α] {bank : State → List α} {i : Nat} {s t u : State}

theorem of_eq (h : bank t = bank s) : OnlyAt bank i s t := ⟨fun j _ => congrArg (nth · j) h⟩

theorem refl (s : State) : OnlyAt bank i s s := of_eq rfl

theorem trans (h : OnlyAt bank i s t) (k : OnlyAt bank i t u) : OnlyAt bank i s u :=
  ⟨fun j ne => (k.others j ne).trans (h.others j ne)⟩

/-- An operation that leaves the bank, after what led to the state it works on. -/
theorem still (h : OnlyAt bank i s t) (e : bank u = bank t) : OnlyAt bank i s u := h.trans (of_eq e)

theorem of_modify {f : α → α} (e : bank t = (bank s).modify i f) : OnlyAt bank i s t :=
  ⟨fun j ne => by rw [e, nth_modify_ne _ _ ne]⟩

theorem of_set {x : α} (e : bank t = (bank s).set i x) : OnlyAt bank i s t :=
  ⟨fun j ne => by rw [e, nth_set_ne _ _ ne]⟩

/-- The same with the order of the two exchanged. -/
theorem after (h : OnlyAt bank i t u) (e : bank t = bank s) : OnlyAt bank i s u := (of_eq e).trans h

/-- An update of the unit, after what led to the state it works on. -/
theorem modify {f : α → α} (h : OnlyAt bank i s t) (e : bank u = (bank t).modify i f) : OnlyAt bank i s u :=
  h.trans (of_modify e)

theorem ite {a b : State} {c : Prop} [Decidable c] (h : OnlyAt bank i s a) (k : OnlyAt bank i s b) :
    OnlyAt bank i s (if c then a else b) := by split <;> assumption

theorem foldl {β : Type} {f : State → β → State} (h : ∀ t a, OnlyAt bank i t (f t a)) (l : List β) (s : State) :
    OnlyAt bank i s (l.foldl f s) :=
  List.foldlRecOn l f (refl s) fun _ k a _ => k.trans (h _ a)

end OnlyAt

/-! ## Feedback channels -/

section
variable (ch : Nat)

theorem State.fbFault_onlyFb (cause : Nat) (detail : Int) (s : State) : OnlyAt State.fb ch s (s.fbFault ch cause detail) := by
  rw [State.fbFault_eq]
  refine .ite (.refl s) (.still ?_ ((State.faultUsers_keeps ch _).get .fb rfl))
  exact .still (t := s.onFb ch _) (.of_modify rfl) (State.raise_fb ..)

theorem State.edgeError_onlyFb (s : State) : OnlyAt State.fb ch s (s.edgeError ch) := by
  unfold State.edgeError
  extract_lets counted
  have h : OnlyAt State.fb ch s counted := .of_modify rfl
  exact .ite (h.trans (State.fbFault_onlyFb ..)) h

theorem State.axisSaturated_fb (a q : Nat) (v : Int) (s : State) : (s.axisSaturated a q v).fb = s.fb :=
  (State.axisSaturated_keeps a q v s).get .fb rfl

theorem State.moveCount_onlyFb (dc : Int) (s : State) : OnlyAt State.fb ch s (s.moveCount ch dc) := by
  unfold State.moveCount
  extract_lets f cpr c turns y dy p moved checked
  have hm : OnlyAt State.fb ch s moved := .of_modify rfl
  have hc : OnlyAt State.fb ch s checked := by
    unfold checked
    split
    · exact hm
    · extract_lets stepped
      have hs : OnlyAt State.fb ch s stepped := .ite (hm.still (State.axisSaturated_fb ..)) hm
      exact .ite (hs.still (State.axisSaturated_fb ..)) hs
  exact .ite ((hc.still (State.raise_fb ..)).trans (State.fbFault_onlyFb ..)) hc

theorem State.countIn_onlyFb (dc : Int) (t : Nat) (s : State) : OnlyAt State.fb ch s (s.countIn ch dc t) :=
  .ite (.refl s) ((State.moveCount_onlyFb ch dc s).modify rfl)

theorem State.confirmLine_onlyFb (t line : Nat) (s : State) : OnlyAt State.fb ch s (s.confirmLine t ch line) := by
  unfold State.confirmLine
  split
  · exact .refl s
  · extract_lets taken directed
    have h : OnlyAt State.fb ch s taken := .of_modify rfl
    have hd : OnlyAt State.fb ch s directed := h.modify rfl
    exact .ite (h.modify rfl) (.ite (hd.trans (State.countIn_onlyFb ..)) hd)

theorem State.confirmDue_onlyFb (t : Nat) (s : State) : OnlyAt State.fb ch s (s.confirmDue t ch) :=
  .foldl (fun x line => State.confirmLine_onlyFb ch t line x) _ s

theorem State.lineChange_onlyFb (t line : Nat) (d : Int) (level : Bool) (s : State) :
    OnlyAt State.fb ch s (s.lineChange t ch line d level) := by
  unfold State.lineChange
  extract_lets f
  split
  · extract_lets paired
    have hp : OnlyAt State.fb ch s paired := .of_modify rfl
    exact (hp.still (State.raise_fb ..)).trans (State.edgeError_onlyFb ..)
  · exact .of_modify rfl

theorem State.quadSkip_onlyFb (t : Nat) (s : State) : OnlyAt State.fb ch s (s.quadSkip t ch) := by
  unfold State.quadSkip
  extract_lets skipped
  have h : OnlyAt State.fb ch s skipped := .of_modify rfl
  exact (h.still (State.raise_fb ..)).trans (State.edgeError_onlyFb ..)

theorem execQuadTransition_onlyFb (t : Nat) (a b z : Bool) (s : State) :
    Answers (OnlyAt State.fb ch s) (execQuadTransition t ch a b z s) := by
  unfold execQuadTransition
  extract_lets ticked f due changed next
  have hdue : OnlyAt State.fb ch s due := (State.confirmDue_onlyFb ch t ticked).after rfl
  have hchanged : OnlyAt State.fb ch s changed :=
    .ite (hdue.trans (State.quadSkip_onlyFb ..)) (.ite (hdue.trans (State.lineChange_onlyFb ..))
      (.ite (hdue.trans (State.lineChange_onlyFb ..)) hdue))
  have hnext : OnlyAt State.fb ch s next :=
    .ite (.of_eq rfl) (.ite (hchanged.trans (State.lineChange_onlyFb ..)) hchanged)
  exact .next (hnext.modify rfl)

theorem execQuadConfirm_onlyFb (t line : Nat) (s : State) :
    Answers (OnlyAt State.fb ch s) (execQuadConfirm t ch line s) :=
  .ite (.next (.of_eq rfl)) (.next ((State.confirmLine_onlyFb ch t line (s.tick t)).after rfl))

theorem State.indexAt_onlyFb (e : RawEdge) (s : State) : OnlyAt State.fb ch s (s.indexAt ch e) := by
  unfold State.indexAt
  extract_lets f held d measured near far told
  have h : OnlyAt State.fb ch s held := .of_modify rfl
  have hm : OnlyAt State.fb ch s measured := h.modify rfl
  have hNear : OnlyAt State.fb ch s near := hm.modify rfl
  have hTold : OnlyAt State.fb ch s told := (hm.modify (u := far) rfl).still (State.raise_fb ..)
  exact .ite (h.modify rfl) (.ite (.ite ((hNear.trans (State.moveCount_onlyFb ..)).modify rfl) hNear)
    (.ite (hTold.trans (State.fbFault_onlyFb ..)) hTold))

theorem execIndexInstant_onlyFb (t : Nat) (s : State) : Answers (OnlyAt State.fb ch s) (execIndexInstant t ch s) := by
  unfold execIndexInstant
  extract_lets ticked due f
  have hdue : OnlyAt State.fb ch s due := (State.confirmDue_onlyFb ch t ticked).after rfl
  refine .ite (.next (.of_eq rfl)) ?_
  split
  · exact .next hdue
  · next taken _ _ _ =>
    have h : OnlyAt State.fb ch s taken := hdue.modify rfl
    exact .ite (.next (h.trans (State.indexAt_onlyFb ..))) (.next h)

theorem State.coarse_onlyFb (theta : Nat) (d : Int) (s : State) : OnlyAt State.fb ch s (s.coarse ch theta d).1 := by
  unfold State.coarse
  extract_lets f near fwd q stepped
  have h : OnlyAt State.fb ch s stepped := .of_modify rfl
  split
  · exact .refl s
  · split
    · split
      · exact .still (t := s.onFb ch _) (.of_modify rfl) (State.raise_fb ..)
      · exact State.fbFault_onlyFb ..
    · split
      · exact .refl s
      · exact (h.still (State.raise_fb ..)).trans (State.edgeError_onlyFb ..)

theorem State.sinCosTake_onlyFb (t : Nat) (si co : Int) (s : State) : OnlyAt State.fb ch s (s.sinCosTake t ch si co) := by
  unfold State.sinCosTake
  extract_lets f v m out told a64 theta quad l aligned q d0
  have hOut : OnlyAt State.fb ch s out := .of_modify rfl
  have hTold : OnlyAt State.fb ch s told := .ite (hOut.still (State.raise_fb ..)) hOut
  have hAligned : OnlyAt State.fb ch s aligned := .ite (.refl s) (.of_modify rfl)
  refine .ite (.ite (hTold.trans (State.fbFault_onlyFb ..)) hTold) ?_
  split
  next stepped q' coarse =>
  have hStepped : OnlyAt State.fb ch s stepped := by
    have := hAligned.trans (State.coarse_onlyFb ch theta (if d0 = 3 then -1 else d0) aligned)
    rwa [coarse] at this
  split
  next df shifted fine =>
  have hShifted : OnlyAt State.fb ch s shifted := by
    refine hStepped.still ?_
    have : Same stepped _ .fb := (State.fineShift_keeps a64 l stepped).get .fb rfl
    rwa [fine] at this
  extract_lets p taken counted
  have hTaken : OnlyAt State.fb ch s taken := hShifted.modify rfl
  exact .ite ((hTaken.trans (State.countIn_onlyFb ..)).modify rfl) (hTaken.modify rfl)

theorem execSincosSample_onlyFb (t : Nat) (si co : Int) (s : State) :
    Answers (OnlyAt State.fb ch s) (execSincosSample t ch si co s) := by
  unfold execSincosSample
  extract_lets ticked tr si' co'
  refine .ite (.next (.of_eq rfl)) (.ite (.next (.of_eq rfl)) (.next ?_))
  have h := (State.sinCosTake_onlyFb ch ticked.now si' co' ticked).after (s := s) rfl
  exact h.still ((State.scSample_keeps ..).get .fb rfl)

theorem execSsiFrameStart_onlyFb (t : Nat) (s : State) : Answers (OnlyAt State.fb ch s) (execSsiFrameStart t ch s) :=
  .ite (.next (.of_modify rfl)) (.next (.of_eq rfl))

theorem execSsiWord_onlyFb (t word : Nat) (low high : Bool) (s : State) :
    Answers (OnlyAt State.fb ch s) (execSsiWord t ch word low high s) := by
  unfold execSsiWord
  extract_lets ticked f
  refine .ite (.next (.of_eq rfl)) ?_
  split
  · exact .next (.of_eq rfl)
  next taken cause rejected told w inc _ t0 _ =>
    extract_lets latch accepted counted
    have h : OnlyAt State.fb ch s taken := .of_modify rfl
    have hTold : OnlyAt State.fb ch s told := (h.modify (u := rejected) rfl).still (State.raise_fb ..)
    have hCounted : OnlyAt State.fb ch s counted := (h.modify (u := accepted) rfl).trans (State.countIn_onlyFb ..)
    exact .ite (.ite (.next (hTold.trans (State.fbFault_onlyFb ..))) (.next hTold))
      (.ite (.next (h.modify rfl)) (.next (hCounted.modify rfl)))

theorem execSsiDelayMeasure_onlyFb (t : Nat) (v : List (Option Nat)) (s : State) :
    Answers (OnlyAt State.fb ch s) (execSsiDelayMeasure t ch v s) := by
  unfold execSsiDelayMeasure
  extract_lets ticked wake measured sorted mean
  have faults (pl : List Octet) (d : Int) : OnlyAt State.fb ch s ((measured.raise 0x07 pl).fbFault ch 6 d) :=
    (State.fbFault_onlyFb ..).after (State.raise_fb measured ..)
  exact .ite (.next (.of_eq rfl)) (.ite (.next (.of_eq rfl))
    (.ite (.next (faults ..)) (.ite (.next (faults ..)) (.next (.of_modify rfl)))))

end

/-! ## Discrete inputs, emulators, links, doors -/

theorem execDinRawTransition_onlyDin (t i : Nat) (v : Bool) (s : State) :
    Answers (OnlyAt State.din i s) (execDinRawTransition t i v s) := by
  unfold execDinRawTransition
  extract_lets ticked d win times bound entered chattering
  have h : OnlyAt State.din i s entered := .of_modify rfl
  refine .ite (.next (.of_modify rfl)) (.ite (.ite (.next ?_) (.next h)) (.next (.of_eq rfl)))
  exact ((h.modify (u := chattering) rfl).still (State.raise_din ..)).still ((State.chatterStop_keeps ..).get .din rfl)

theorem execDinFilterStable_onlyDin (t i : Nat) (s : State) : Answers (OnlyAt State.din i s) (execDinFilterStable t i s) :=
  .ite (.next (.of_modify rfl)) (.next (.of_eq rfl))

theorem execDinFirstLevel_onlyDin (t i : Nat) (s : State) : Answers (OnlyAt State.din i s) (execDinFirstLevel t i s) :=
  .ite (.next (.of_modify rfl)) (.next (.of_eq rfl))

theorem execChatterEnd_onlyDin (t i : Nat) (s : State) : Answers (OnlyAt State.din i s) (execChatterEnd t i s) := by
  unfold execChatterEnd
  extract_lets ticked d quiet
  have h : OnlyAt State.din i s quiet := .of_modify rfl
  exact .ite (.ite (.next h) (.ite (.next (h.modify rfl)) (.ite (.next (h.modify rfl)) (.next h)))) (.next (.of_eq rfl))

theorem execEmuStep_onlyEmu (t e : Nat) (s : State) : Answers (OnlyAt State.emu e s) (execEmuStep t e s) :=
  .ite (.next (.of_eq rfl)) (.next (.of_set rfl))

theorem execHeartbeatFlit_onlyLink (t k : Nat) (s : State) : Answers (OnlyAt State.links k s) (execHeartbeatFlit t k s) :=
  .ite (.next (.of_eq rfl)) (.next (.of_modify rfl))

theorem execFlitCheckFail_onlyLink (t k : Nat) (ok : Bool) (s : State) :
    Answers (OnlyAt State.links k s) (execFlitCheckFail t k ok s) :=
  .ite (.next (.of_eq rfl)) (.next (.of_modify rfl))

theorem execDoorHoldEnd_onlyDoor (t d : Nat) (s : State) : Answers (OnlyAt State.doors d s) (execDoorHoldEnd t d s) := by
  unfold execDoorHoldEnd
  refine .ite (.next (.of_eq rfl)) ?_
  split
  · exact .ite (.next (.of_modify rfl)) (.next (.of_eq rfl))
  · exact .next (.of_eq rfl)

theorem execNudgeTimer_onlyDoor (t d : Nat) (s : State) : Answers (OnlyAt State.doors d s) (execNudgeTimer t d s) := by
  unfold execNudgeTimer
  refine .ite (.next (.of_eq rfl)) ?_
  split
  · exact .ite (.next (.of_modify rfl)) (.next (.of_eq rfl))
  · exact .next (.of_eq rfl)

/-! ## Current channels and axis stages -/

theorem State.takeBit_onlyCh (c tn : Nat) (b : Int) (s : State) : OnlyAt State.ch c s (s.takeBit c tn b) := by
  unfold State.takeBit
  extract_lets x
  split
  next tb drawn eq =>
  have h : OnlyAt State.ch c s drawn := .of_eq (by split at eq <;> cases eq <;> rfl)
  exact h.modify rfl

theorem State.channelFault_onlyCh (c t k : Nat) (detail : Int) (s : State) :
    OnlyAt State.ch c s (s.channelFault c t k detail) := by
  unfold State.channelFault
  split
  · exact .refl s
  · refine .ite (.refl s) (.still ?_ ((State.currentFault_keeps ..).get .ch rfl))
    exact .of_modify rfl

theorem State.bitFaults_onlyCh (c t : Nat) (s : State) : OnlyAt State.ch c s (s.bitFaults c t) := by
  unfold State.bitFaults
  split
  · exact .refl s
  · extract_lets x oc b sum sr counted s1 s2 rate s3 s4 s5
    have fault {y : State} (h : OnlyAt State.ch c s y) (k : Nat) (d : Int) : OnlyAt State.ch c s (y.channelFault c t k d) :=
      h.trans (State.channelFault_onlyCh ..)
    have h0 : OnlyAt State.ch c s counted := .of_modify rfl
    have h1 : OnlyAt State.ch c s s1 := .ite (fault h0 ..) h0
    have h2 : OnlyAt State.ch c s s2 := .ite (fault h1 ..) h1
    have h3 : OnlyAt State.ch c s s3 := .ite (fault h2 ..) h2
    have h4 : OnlyAt State.ch c s s4 := .ite (fault h3 ..) h3
    have h5 : OnlyAt State.ch c s s5 := .ite (fault h4 ..) h4
    exact .ite (fault h5 ..) h5

theorem execModulatorBit_onlyCh (k c : Nat) (v : Sample) (s : State) :
    Answers (OnlyAt State.ch c s) (execModulatorBit k c v s) := by
  unfold execModulatorBit
  extract_lets ticked form x tn b coded taken judged
  have hJudged : OnlyAt State.ch c s judged :=
    ((OnlyAt.of_modify (t := coded) rfl).trans (State.takeBit_onlyCh ..)).trans (State.bitFaults_onlyCh ..)
  refine .ite (.next (.of_eq rfl)) (.ite (.next (.of_eq rfl)) ?_)
  split
  · exact .next hJudged
  · exact .next (hJudged.still ((State.bridgeDecide_keeps ..).get .ch rfl))

theorem execAccurateEstimate_onlyCh (k c : Nat) (s : State) : Answers (OnlyAt State.ch c s) (execAccurateEstimate k c s) := by
  unfold execAccurateEstimate
  extract_lets ticked tn a0 formed
  have h : OnlyAt State.ch c s formed := .of_modify rfl
  refine .ite (.next (.of_eq rfl)) (.ite (.next (.of_eq rfl)) ?_)
  split
  · exact .next h
  next judged _ a _ =>
    have hJudged : OnlyAt State.ch c s judged := .ite (h.trans (State.channelFault_onlyCh ..)) h
    exact .next (hJudged.still ((State.centreUpdate_keeps ..).get .ch rfl))

theorem State.onEng_onlyCax (a e : Nat) (f : Eng → Eng) (s : State) : OnlyAt State.cax a s (s.onEng a e f) := .of_modify rfl

theorem State.applyState_onlyCax (a e : Nat) (sc : Sched) (s : State) : OnlyAt State.cax a s (s.applyState a e sc) := by
  unfold State.applyState
  extract_lets k dead minp gd hbs applied brs last
  have h : OnlyAt State.cax a s applied := .of_modify rfl
  exact h.trans (State.onEng_onlyCax ..)

theorem execEdgeFire_onlyCax (k a e : Nat) (s : State) : Answers (OnlyAt State.cax a s) (execEdgeFire k a e s) := by
  unfold execEdgeFire
  extract_lets ticked dead due
  have h : OnlyAt State.cax a s due := .of_modify rfl
  refine .ite (.next (.of_eq rfl)) ?_
  split
  · extract_lets counted
    have hCounted : OnlyAt State.cax a s counted := .ite (h.modify rfl) h
    exact .ite (.next h) (.next (hCounted.trans (State.applyState_onlyCax ..)))
  · exact .next h

theorem execGateOn_onlyCax (k a hb : Nat) (s : State) : Answers (OnlyAt State.cax a s) (execGateOn k a hb s) := by
  unfold execGateOn
  extract_lets ticked b
  refine .ite (.next (.of_eq rfl)) ?_
  split
  · exact .ite (.next (.of_eq rfl)) (.next (.of_modify rfl))
  · exact .next (.of_eq rfl)

/-! ## Capture inputs and compare outputs -/

theorem execCaptureTransition_onlyCap (t i : Nat) (v : Bool) (s : State) :
    Answers (OnlyAt State.cap i s) (execCaptureTransition t i v s) :=
  .ite (.next (.of_modify rfl)) (.ite (.next (.of_eq rfl)) (.next (.of_modify rfl)))

theorem State.capRecord_onlyCap (i t : Nat) (rising : Bool) (s : State) :
    OnlyAt State.cap i s (s.capRecord i t rising) := by
  unfold State.capRecord
  extract_lets c
  split
  next lost _ st ep _ =>
  have h : OnlyAt State.cap i s lost := (OnlyAt.of_modify (t := s.onCap i _) rfl).modify rfl
  exact .ite (.ite (h.still (State.raise_cap ..)) h) (.of_modify rfl)

theorem execCaptureAccept_onlyCap (t i : Nat) (s : State) : Answers (OnlyAt State.cap i s) (execCaptureAccept t i s) := by
  unfold execCaptureAccept
  extract_lets ticked c settled rising mode accepted recorded
  have h : OnlyAt State.cap i s settled := .of_modify rfl
  have hAccepted : OnlyAt State.cap i s accepted := h.modify rfl
  have hRecorded : OnlyAt State.cap i s recorded := .ite (hAccepted.trans (State.capRecord_onlyCap ..)) hAccepted
  exact .ite (.next (.of_eq rfl)) (.ite (.next (.of_eq rfl)) (.ite (.next (.ite (h.modify rfl) h))
    (.ite (.next h) (.ite (.next (h.modify rfl)) (.next (hRecorded.still ((State.waitEvent_keeps ..).get .cap rfl)))))))

theorem State.cmpPulse_onlyCmp (o t j : Nat) (s : State) : OnlyAt State.cmp o s (s.cmpPulse o t j) := by
  unfold State.cmpPulse
  refine .ite (.ite (.of_modify rfl) ?_) (.of_modify rfl)
  exact .still (t := s.onCmp o _) (.of_modify rfl) (State.raise_cmp ..)

theorem State.cmpPass_onlyCmp (o t : Nat) (p d : Int) (n : Nat) (s : State) :
    OnlyAt State.cmp o s (s.cmpPass o t p d n) := by
  induction n generalizing s with
  | zero => exact .refl s
  | succ n ih =>
    unfold State.cmpPass
    split
    · exact .refl s
    · extract_lets pulsed armed
      have h : OnlyAt State.cmp o s pulsed := State.cmpPulse_onlyCmp ..
      have hArmed : OnlyAt State.cmp o s armed := .ite (h.modify rfl) (h.modify rfl)
      exact .ite (.refl s) (hArmed.trans (ih armed))

theorem State.cmpRearm_onlyCmp (o : Nat) (p d : Int) (s : State) : OnlyAt State.cmp o s (s.cmpRearm o p d) := by
  unfold State.cmpRearm
  split
  · exact .ite (.of_modify rfl) (.refl s)
  · exact .refl s

theorem execCompareFire_onlyCmp (t o : Nat) (s : State) : Answers (OnlyAt State.cmp o s) (execCompareFire t o s) := by
  unfold execCompareFire
  extract_lets ticked c p d passed c'
  have h : OnlyAt State.cmp o s passed :=
    .after (t := ticked) ((State.cmpRearm_onlyCmp o p d ticked).trans (State.cmpPass_onlyCmp ..)) rfl
  refine .ite (.next (.of_eq rfl)) (.ite (.next (.of_eq rfl)) (.ite (.next (.of_modify rfl)) (.ite (.next ?_) (.next h))))
  exact (h.modify (u := passed.onCmp o _) rfl).trans (State.cmpPulse_onlyCmp ..)

theorem execComparePulseEnd_onlyCmp (t o : Nat) (s : State) : Answers (OnlyAt State.cmp o s) (execComparePulseEnd t o s) := by
  unfold execComparePulseEnd
  refine .ite (.next (.of_eq rfl)) ?_
  split
  · exact .ite (.next (.of_eq rfl)) (.next (.of_modify rfl))
  · exact .next (.of_eq rfl)

/-- Settles O6: each row writes the bank of its units at the unit that it names alone. -/
theorem othersUntouched : Obligations.OthersUntouched := by
  refine ⟨?fb, ?din, fun s u t e h => ((execEmuStep_onlyEmu t e s).of_next h).others, ?ch, ?cax, ?cap, ?cmp, ?door, ?link⟩
  case fb =>
    rintro c s u t ch h (⟨a, b, z, rfl⟩ | ⟨l, rfl⟩ | rfl | ⟨x, y, rfl⟩ | rfl | ⟨w, l, b, rfl⟩ | ⟨v, rfl⟩)
    · exact ((execQuadTransition_onlyFb ch t a b z s).of_next h).others
    · exact ((execQuadConfirm_onlyFb ch t l s).of_next h).others
    · exact ((execIndexInstant_onlyFb ch t s).of_next h).others
    · exact ((execSincosSample_onlyFb ch t x y s).of_next h).others
    · exact ((execSsiFrameStart_onlyFb ch t s).of_next h).others
    · exact ((execSsiWord_onlyFb ch t w l b s).of_next h).others
    · exact ((execSsiDelayMeasure_onlyFb ch t v s).of_next h).others
  case din =>
    rintro c s u t i h (⟨v, rfl⟩ | rfl | rfl | rfl)
    · exact ((execDinRawTransition_onlyDin t i v s).of_next h).others
    · exact ((execDinFilterStable_onlyDin t i s).of_next h).others
    · exact ((execDinFirstLevel_onlyDin t i s).of_next h).others
    · exact ((execChatterEnd_onlyDin t i s).of_next h).others
  case ch =>
    rintro s u k c v (h | h)
    · exact ((execModulatorBit_onlyCh k c v s).of_next h).others
    · exact ((execAccurateEstimate_onlyCh k c s).of_next h).others
  case cax =>
    rintro s u k a e (h | h)
    · exact ((execEdgeFire_onlyCax k a e s).of_next h).others
    · exact ((execGateOn_onlyCax k a e s).of_next h).others
  case cap =>
    rintro s u t i v (h | h)
    · exact ((execCaptureTransition_onlyCap t i v s).of_next h).others
    · exact ((execCaptureAccept_onlyCap t i s).of_next h).others
  case cmp =>
    rintro s u t o (h | h)
    · exact ((execCompareFire_onlyCmp t o s).of_next h).others
    · exact ((execComparePulseEnd_onlyCmp t o s).of_next h).others
  case door =>
    rintro s u t d (h | h)
    · exact ((execDoorHoldEnd_onlyDoor t d s).of_next h).others
    · exact ((execNudgeTimer_onlyDoor t d s).of_next h).others
  case link =>
    rintro s u t k ok (h | h)
    · exact ((execHeartbeatFlit_onlyLink t k s).of_next h).others
    · exact ((execFlitCheckFail_onlyLink t k ok s).of_next h).others

end Sys2Proof.Machine

namespace Sys2Proof.Machine

/-! # A reading of the state that an operation leaves

`Keeps` speaks of whole fields of the state. Where an operation writes a field but leaves a part of it, `Fixes p s t` says so of
the part `p`. -/

structure Fixes {α : Type} (p : State → α) (s t : State) : Prop where
  eq : p t = p s

namespace Fixes

variable {α : Type} {p : State → α} {s t u : State}

theorem refl (s : State) : Fixes p s s := ⟨rfl⟩

theorem trans (h : Fixes p s t) (k : Fixes p t u) : Fixes p s u := ⟨k.eq.trans h.eq⟩

/-- An update that leaves the part, after what led to the state it works on. -/
theorem then_ (h : Fixes p s t) (e : p u = p t) : Fixes p s u := h.trans ⟨e⟩

theorem ite {a b : State} {c : Prop} [Decidable c] (h : Fixes p s a) (k : Fixes p s b) :
    Fixes p s (if c then a else b) := by split <;> assumption

theorem foldl {β : Type} {f : State → β → State} (h : ∀ t a, Fixes p t (f t a)) (l : List β) (s : State) :
    Fixes p s (l.foldl f s) :=
  List.foldlRecOn l f (refl s) fun _ k a _ => k.trans (h _ a)

theorem eachIx {f : Nat → State → State} (h : ∀ i t, Fixes p t (f i t)) (n : Nat) (s : State) :
    Fixes p s (eachIx n f s) := foldl (fun t i => h i t) _ s

end Fixes

/-! # The boundary and its notice (R51, R57, R59, R65) -/

/-! ## The Stage that a boundary opens -/

/-- `t` is in the Stage that `s` has come to, with the next epoch or a greater one and a length within S of N. -/
structure NextStage (s t : State) : Prop where
  running : t.stage.running = s.stage.running
  closed : t.stage.closed = s.stage.closed
  openedAt : t.stage.openedAt = s.stage.openedAt
  boundaries : t.stage.boundaries = s.stage.boundaries
  shortest : s.period - s.slew ≤ t.stage.len
  longest : t.stage.len ≤ s.period + s.slew

/-- What then arrives for the Stage leaves it, but for ALIGNED. -/
theorem NextStage.same {s t u : State} (h : NextStage s t) (k : SameStage t u) : NextStage s u := by
  have e : u.stage = { t.stage with aligned := u.stage.aligned } := k
  refine ⟨?_, ?_, ?_, ?_, ?_, ?_⟩ <;> rw [e]
  · exact h.running
  · exact h.closed
  · exact h.openedAt
  · exact h.boundaries
  · exact h.shortest
  · exact h.longest

theorem NextStage.of_len {t : State} (h : t.stage.len = t.period) : NextStage t t :=
  ⟨rfl, rfl, rfl, rfl, by omega, by omega⟩

theorem neg_le_clamp {x m : Int} (h : 0 ≤ m) : -m ≤ clamp x (-m) m := by unfold clamp; grind

theorem clamp_le {x m : Int} (h : 0 ≤ m) : clamp x (-m) m ≤ m := by unfold clamp; grind

/-- A Stage under site alignment is slewed by at most S (R65). -/
theorem State.alignAt_next (e m : Int) (s : State) : NextStage s (s.alignAt e m) := by
  unfold State.alignAt
  extract_lets prev k ns hit epoch d was stage slewed renumbered drifted
  have low := neg_le_clamp (x := k) (Int.natCast_nonneg s.slew)
  have high := clamp_le (x := k) (Int.natCast_nonneg s.slew)
  have hSlewed : NextStage s slewed := by
    refine ⟨rfl, rfl, rfl, rfl, ?_, ?_⟩ <;> simp only [slewed] <;> omega
  have hRenumbered : SameStage slewed renumbered := .ite (.of_keeps (State.raise_keeps ..) rfl) (.refl _)
  have hDrifted : SameStage slewed drifted := .ite (hRenumbered.keeps (State.raise_keeps ..) rfl) hRenumbered
  exact hSlewed.same (.ite (hDrifted.trans (State.unaligned_sameStage ..)) hDrifted)

theorem State.nextStage_next (s : State) : NextStage s s.nextStage := by
  unfold State.nextStage
  split
  · exact State.alignAt_next _ _ s
  · extract_lets lost stage stepped
    have h : NextStage s stepped := ⟨rfl, rfl, rfl, rfl, Nat.sub_le .., Nat.le_add_right ..⟩
    exact h.same (.ite (State.unaligned_sameStage ..) (.refl _))

/-- The Stage that a boundary opens: Stage 0 of N cycles, or the one after that of `s`. -/
theorem State.openStage_next (t : Nat) (s : State) :
    ∃ v : State, v.stage.running = s.stage.running ∧ v.stage.closed = false ∧ v.stage.openedAt = t ∧
      v.period = s.period ∧ (s.stage.epoch ≠ 0xFFFFFFFFFFFF → v.stage.boundaries = s.stage.boundaries + 1) ∧
      NextStage v (s.openStage t) := by
  by_cases first : s.stage.epoch = 0xFFFFFFFFFFFF
  · refine ⟨s.openStage t, ?_⟩
    have len := (s.openStage_first t first).2.1
    have period : (s.openStage t).period = s.period := by simp [State.openStage, first, State.period, State.nat, State.int]
    refine ⟨?_, ?_, ?_, period, fun later => absurd first later, .of_len (len.trans period.symm)⟩ <;>
      simp [State.openStage, first]
  · rw [State.openStage_later t s first]
    refine ⟨_, ?_, ?_, ?_, ?_, ?_, State.nextStage_next _⟩
    · rfl
    · rfl
    · rfl
    · rfl
    · exact fun _ => rfl

/-- A boundary of a running unit opens the next Stage where the last one ended. -/
theorem execStageBoundary_next (io : BoundaryInputs) {s : State} (running : s.stage.running = true) :
    Answers (fun t => t.stage.running = true ∧ t.stage.closed = false ∧
      t.stage.openedAt = s.stage.openedAt + s.stage.len ∧ s.period - s.slew ≤ t.stage.len ∧ t.stage.len ≤ s.period + s.slew ∧
      (s.stage.epoch = 0xFFFFFFFFFFFF → t.stage.epoch = 0 ∧ t.stage.len = s.period) ∧
      (s.stage.epoch ≠ 0xFFFFFFFFFFFF → s.stage.epoch < t.stage.epoch ∧ t.stage.boundaries = s.stage.boundaries + 1))
      (exec (.stageBoundary io) s) := by
  obtain ⟨u, ends, opens⟩ := execStageBoundary_opens io s running
  have epochs := execStageBoundary_epoch io s running
  obtain ⟨t, ht, same⟩ := opens
  obtain ⟨first, later⟩ := epochs.of_next ht
  obtain ⟨v, vRunning, vClosed, vOpened, vPeriod, vBoundaries, next⟩ := u.openStage_next (s.stage.openedAt + s.stage.len)
  have opened := next.same same
  have slew : v.slew = s.slew := by unfold State.slew; rw [vPeriod, ends.period]
  have period : v.period = s.period := vPeriod.trans ends.period
  have stage := ends.stage
  refine ⟨t, ht, ?_, opened.closed.trans vClosed, opened.openedAt.trans vOpened, ?_, ?_, fun h => ⟨first h, ?_⟩,
    fun h => ⟨?_, ?_⟩⟩
  · rw [opened.running, vRunning, stage, running]
  · rw [← period, ← slew]; exact opened.shortest
  · rw [← period, ← slew]; exact opened.longest
  · have len := (u.openStage_first (s.stage.openedAt + s.stage.len) (ends.epoch.trans h)).2.1
    exact same.len.trans (len.trans ends.period)
  · have := later h
    omega
  · rw [opened.boundaries, vBoundaries (by rwa [ends.epoch]), stage]

/-! ## The results of channel B take effect -/

/-- The vector of channel B that is in effect. -/
def State.effectB (s : State) : Option SafeVec := s.safe.b.effect

/-- An operation that does not write the safety channels, after what led to the state it works on. -/
theorem Fixes.effectB_keeps {W : List Fld} {s t u : State} (h : Fixes State.effectB s t) (k : Keeps W t u)
    (w : W.contains .safe = false) : Fixes State.effectB s u :=
  h.then_ (congrArg (fun x : Safe => x.b.effect) (k.get .safe w))

theorem Fixes.effectB_raise {s t : State} {c : Nat} {pl : List Octet} {v : Nat} (h : Fixes State.effectB s t) :
    Fixes State.effectB s (t.raise c pl v) := h.effectB_keeps (State.raise_keeps c pl t v) rfl

theorem State.onChan_effectB {b : Bool} {s : State} {f : SafeChan → SafeChan} (hf : ∀ c, (f c).effect = c.effect) :
    Fixes State.effectB s (s.onChan b f) := by
  refine ⟨?_⟩
  unfold State.effectB State.onChan
  cases b
  · rfl
  · exact hf _

theorem State.orderSto_effectB (a code : Nat) (s : State) : Fixes State.effectB s (s.orderSto a code) :=
  .ite (.refl s) (.effectB_raise (t := s.onStop a _) ⟨rfl⟩)

theorem State.outputFault_effectB (o ch cause react : Nat) (s : State) :
    Fixes State.effectB s (s.outputFault o ch cause react) := by
  unfold State.outputFault
  extract_lets react' latched told halted dropped
  have hTold : Fixes State.effectB s told := .effectB_raise (t := latched) ⟨rfl⟩
  have hHalted : Fixes State.effectB s halted := .ite (hTold.effectB_keeps (State.haltCause_keeps ..) rfl) hTold
  have hDropped : Fixes State.effectB s dropped := .ite (hHalted.trans (State.onChan_effectB fun _ => rfl)) hHalted
  exact .ite (.refl s) (.ite (.ite (hDropped.trans (.eachIx (fun a t => .ite (State.orderSto_effectB ..) (.refl t)) ..))
    (.ite (hDropped.trans (State.orderSto_effectB ..)) hDropped)) hDropped)

theorem State.driveOut_effectB (b : Bool) (o : Nat) (s : State) : Fixes State.effectB s (s.driveOut b o) := by
  unfold State.driveOut
  extract_lets judged v was driven
  have hJudged : Fixes State.effectB s judged := .ite (State.outputFault_effectB ..) (.refl s)
  have hDriven : Fixes State.effectB s driven := hJudged.then_ rfl
  exact .ite hDriven (hDriven.then_ rfl)

theorem State.driveOuts_effectB (b : Bool) (s : State) : Fixes State.effectB s (s.driveOuts b) := by
  refine .trans (.foldl (fun t o => t.driveOut_effectB b o) _ s) (.eachIx (fun a t => ?_) _ _)
  exact Fixes.effectB_keeps (.refl t) (State.gatesFollow_keeps a t) rfl

theorem State.crossCompare_effectB (va vb : SafeVec) (s : State) : Fixes State.effectB s (s.crossCompare va vb) := by
  unfold State.crossCompare
  split
  · exact ⟨rfl⟩
  · extract_lets n safe counted safe' faulted
    have h : Fixes State.effectB s faulted := ⟨rfl⟩
    exact .ite ⟨rfl⟩ ((h.effectB_raise).effectB_keeps (State.haltCause_keeps ..) rfl)

theorem State.permitEvent_effectB (s : State) : Fixes State.effectB s s.permitEvent := by
  unfold State.permitEvent
  extract_lets opened safe noted
  exact .ite (.refl s) (.effectB_raise (t := noted) ⟨rfl⟩)

theorem State.sampleIn_effectB (die i : Nat) (s : State) : Fixes State.effectB s (s.sampleIn die i) := by
  unfold State.sampleIn
  extract_lets k x la lb act dis newFault cleared fault stop ar ir valid sampled
  have h : Fixes State.effectB s sampled := State.onChan_effectB fun _ => rfl
  exact .ite (.refl s) (.ite (h.effectB_raise) h)

theorem State.tripReaction_effectB (c code : Nat) (s : State) : Fixes State.effectB s (s.tripReaction c code) := by
  unfold State.tripReaction
  extract_lets safe counted halted
  have h : Fixes State.effectB s halted := ⟨rfl⟩
  split
  · exact h.trans (State.orderSto_effectB ..)
  · exact h

theorem State.ucmTrip_effectB (b : Bool) (c cause : Nat) (disp : Int) (s : State) :
    Fixes State.effectB s (s.ucmTrip b c cause disp) := by
  unfold State.ucmTrip
  extract_lets new latched
  have h : Fixes State.effectB s latched := State.onChan_effectB fun _ => rfl
  exact .ite (.refl s) (.ite ((h.effectB_raise).trans (State.tripReaction_effectB ..)) h)

theorem State.carMonitor_effectB (b : Bool) (c : Nat) (s : State) : Fixes State.effectB s (s.carMonitor b c) := by
  unfold State.carMonitor
  split
  · exact .refl s
  · refine .ite (State.onChan_effectB fun _ => rfl) ?_
    extract_lets +onlyGivenNames w sp x v asc dsc ovr slow mask lock dz req mode was may lost ended byp p pu disp held told tripped
    have hHeld : Fixes State.effectB s held := State.onChan_effectB fun _ => rfl
    have hTold : Fixes State.effectB s told := .ite (hHeld.effectB_raise) hHeld
    have trip (cause : Nat) : Fixes State.effectB s (told.ucmTrip b c cause disp) :=
      hTold.trans (State.ucmTrip_effectB ..)
    have hTripped : Fixes State.effectB s tripped := .ite (trip 2) (.ite (trip 0) (.ite (trip 1) hTold))
    clear_value ovr
    split
    · exact hTripped
    · refine .ite hTripped ?_
      extract_lets new latched
      have h : Fixes State.effectB s latched := hTripped.trans (State.onChan_effectB fun _ => rfl)
      exact .ite ((h.effectB_raise).trans (State.tripReaction_effectB ..)) h

theorem State.slsMonitor_effectB (b : Bool) (a : Nat) (s : State) : Fixes State.effectB s (s.slsMonitor b a) := by
  unfold State.slsMonitor
  extract_lets x since timed new latched safe
  have hTimed : Fixes State.effectB s timed := State.onChan_effectB fun _ => rfl
  refine .ite (.refl s) (.ite (State.onChan_effectB fun _ => rfl) (.ite hTimed ?_))
  have h : Fixes State.effectB s latched := hTimed.trans (State.onChan_effectB fun _ => rfl)
  refine .ite (.trans (.effectB_raise ?_) (State.orderSto_effectB ..)) h
  exact ⟨h.eq⟩

theorem State.evalChannel_effectB (b : Bool) (s : State) : Fixes State.effectB s (s.evalChannel b) := by
  unfold State.evalChannel
  extract_lets cars axes
  have hCars : Fixes State.effectB s cars := .eachIx (State.carMonitor_effectB b) _ _
  have hAxes : Fixes State.effectB cars axes := .eachIx (State.slsMonitor_effectB b) _ _
  exact (hCars.trans hAxes).trans (State.onChan_effectB fun _ => rfl)

theorem State.edmBoundary_effectB (o : Nat) (s : State) : Fixes State.effectB s (s.edmBoundary o) :=
  .ite (.refl s) (.ite (State.outputFault_effectB ..) (.ite ⟨rfl⟩ (.refl s)))

/-- The result that channel B has formed comes into effect at the notice; what follows in it leaves the vector in effect. -/
theorem State.noticeB_effectB (s : State) : s.noticeB.effectB = s.safe.b.result := by
  unfold State.noticeB
  extract_lets effective compared driven
  have h : Fixes State.effectB effective compared := by
    unfold compared
    split
    · exact State.crossCompare_effectB ..
    · exact .refl _
  have hDriven : Fixes State.effectB effective driven :=
    (h.trans (State.driveOuts_effectB ..)).trans (State.permitEvent_effectB _)
  exact ((hDriven.trans (.eachIx (State.sampleIn_effectB 1) _ _)).trans (State.evalChannel_effectB ..)).eq

/-! ## The readings of the notice -/

/-- The bank voltage and the draw as the Purse holds them. -/
def State.readings (s : State) : Nat × Nat := (s.purse.hold, s.purse.draw)

theorem Fixes.readings_raise {s t : State} {c : Nat} {pl : List Octet} {v : Nat} (h : Fixes State.readings s t) :
    Fixes State.readings s (t.raise c pl v) :=
  h.then_ (congrArg (fun x : Purse => (x.hold, x.draw)) (State.raise_purse t c pl v))

theorem State.holdUp_readings (s : State) : Fixes State.readings s s.holdUp := by
  unfold State.holdUp
  extract_lets e m was set
  have h : Fixes State.readings s set := ⟨rfl⟩
  exact .ite (h.readings_raise) h

theorem State.tierEv_readings (tier : Nat) (funded : Bool) (cause : Nat) (s : State) :
    Fixes State.readings s (s.tierEv tier funded cause) := .readings_raise (t := s.onPurse _) ⟨rfl⟩

theorem State.tiers_readings (s : State) : Fixes State.readings s s.tiers := by
  unfold State.tiers
  extract_lets c1 c2 p first set told
  have h : Fixes State.readings s set := ⟨rfl⟩
  have hTold : Fixes State.readings s told := .ite (h.trans (State.tierEv_readings ..)) h
  exact .ite (hTold.trans (State.tierEv_readings ..)) hTold

theorem State.busBoundary_readings (b : Nat) (s : State) : Fixes State.readings s (s.busBoundary b) := .ite (.refl s) ⟨rfl⟩

theorem Purse.takeDebit_hold (p : Purse) : p.takeDebit.hold = p.hold := by unfold Purse.takeDebit; split <;> rfl

theorem Purse.takeDebit_draw (p : Purse) : p.takeDebit.draw = p.draw := by unfold Purse.takeDebit; split <;> rfl

theorem State.sprintCharge_readings (s : State) : Fixes State.readings s s.sprintCharge :=
  ⟨Prod.ext s.purse.takeDebit_hold s.purse.takeDebit_draw⟩

theorem State.sprintEnd_readings (cause : Nat) (s : State) : Fixes State.readings s (s.sprintEnd cause) := by
  unfold State.sprintEnd
  extract_lets n ended clk fallen predicted
  have h : Fixes State.readings s predicted := ⟨rfl⟩
  exact h.readings_raise

theorem State.sprintBoundary_readings (s : State) : Fixes State.readings s s.sprintBoundary := by
  unfold State.sprintBoundary
  extract_lets asked
  have h : Fixes State.readings s asked := by
    unfold asked State.onPurse
    split <;> exact ⟨rfl⟩
  refine h.trans (.ite ?_ ⟨rfl⟩)
  split
  · exact State.sprintEnd_readings ..
  · exact .ite (State.sprintCharge_readings _) (State.sprintEnd_readings ..)

theorem State.sprintGrant_readings (s : State) : Fixes State.readings s s.sprintGrant := by
  unfold State.sprintGrant
  extract_lets p f granted clk supplied predicted
  have h : Fixes State.readings s predicted := ⟨Prod.ext s.purse.takeDebit_hold s.purse.takeDebit_draw⟩
  exact .ite (.refl s) ((h.readings_raise).trans (State.sprintCharge_readings _))

/-- The Purse's part of the notice latches what the Steward has measured (R51). -/
theorem State.purseBoundary_readings (io : NoticeInputs) (s : State) :
    (s.purseBoundary io).readings = (io.hold, io.draw) := by
  unfold State.purseBoundary
  extract_lets latched sprinted granted formed tiered allowed bused
  have hGranted : Fixes State.readings latched granted :=
    ((State.sprintBoundary_readings latched).then_ (u := sprinted.onPurse _) rfl).trans (State.holdUp_readings _)
  have hTiered : Fixes State.readings latched tiered :=
    (hGranted.then_ (u := formed) rfl).trans (State.tiers_readings _)
  have hBused : Fixes State.readings latched bused :=
    (hTiered.then_ (u := allowed) rfl).trans (.eachIx State.busBoundary_readings ..)
  exact (hBused.trans (State.sprintGrant_readings _)).eq

/-! ## The notice -/

/-- What the Steward publishes bears the epoch that it knows. -/
theorem State.publish_epoch (s : State) : s.publish.pub.map (·.stage.epoch) = some s.stage.epoch := by
  unfold State.publish
  extract_lets u
  have h : Same s u .stage := (State.unshow_keeps s).get .stage rfl
  exact congrArg (fun x : Stage => some x.epoch) h

/-- What follows the Purse's part of a notice leaves Stage, Purse and safety channels. -/
structure NoticeEnds (x y : State) : Prop where
  purse : y.purse = x.purse
  safe : y.safe = x.safe
  stage : y.stage = x.stage
  pub : y.pub = x.chargerNow.publish.pub

theorem State.offerStewardKept_noticeEnds (x : State) : NoticeEnds x x.chargerNow.publish.offerStewardKept := by
  have kept := State.offerStewardKept_keeps x.chargerNow.publish
  exact ⟨kept.get .purse rfl, kept.get .safe rfl, kept.get .stage rfl, kept.get .pub rfl⟩

/-- A notice that is due: the readings are latched, channel B's results are in effect, the epoch is published (R51). -/
theorem execBoundaryNotice_latches {s : State} {io : NoticeInputs} (due : (s.tick io.t).noticeDue = true) :
    Answers (fun u => u.purse.hold = io.hold ∧ u.purse.draw = io.draw ∧ u.safe.b.effect = s.safe.b.result ∧
      u.stage = { s.stage with noticed := some s.stage.boundaries } ∧ u.pub.map (·.stage.epoch) = some s.stage.epoch)
      (execBoundaryNotice io s) := by
  unfold execBoundaryNotice
  extract_lets +onlyGivenNames ticked
  rw [if_neg (by simp [due])]
  extract_lets +onlyGivenNames stage noticed monitored reported
  have hMonitored : Fixes State.effectB noticed monitored :=
    .eachIx (fun o t => .ite (State.edmBoundary_effectB o t) (.refl t)) _ _
  have monitoring : Keeps (allBut [.stage]) noticed monitored :=
    .eachIx (fun _ _ h => .ite (h.onto _ rfl (State.edmBoundary_keeps ..)) h) (.refl _ _)
  have pdus : Keeps (allBut [.stage, .safe]) monitored (eachIx 16 State.conProduce monitored) :=
    .eachIx (fun _ _ h => h.onto _ rfl (State.conProduce_keeps ..)) (.refl _ _)
  have reporting : Keeps (allBut [.stage, .safe]) monitored (reported.testNotice.purseBoundary io) :=
    ((pdus.onto _ rfl (State.ledBoundary_keeps _)).onto _ rfl (State.testNotice_keeps _)).onto _ rfl
      (State.purseBoundary_keeps ..)
  have readings := State.purseBoundary_readings io reported.testNotice
  generalize reported.testNotice.purseBoundary io = formed at readings reporting ⊢
  obtain ⟨purse, safe, opened, pub⟩ := formed.offerStewardKept_noticeEnds
  have stage : formed.stage = { s.stage with noticed := some s.stage.boundaries } :=
    calc formed.stage
        = monitored.stage := reporting.get .stage rfl
      _ = noticed.stage := monitoring.get .stage rfl
      _ = _ := (State.noticeB_keeps _).get .stage rfl
  have effect : formed.safe.b.effect = s.safe.b.result :=
    calc formed.safe.b.effect
        = monitored.effectB := congrArg (fun x : Safe => x.b.effect) (reporting.get .safe rfl)
      _ = noticed.effectB := hMonitored.eq
      _ = _ := State.noticeB_effectB _
  refine .next ⟨?_, ?_, safe ▸ effect, opened.trans stage, ?_⟩
  · rw [purse]; exact congrArg Prod.fst readings
  · rw [purse]; exact congrArg Prod.snd readings
  · rw [pub, State.publish_epoch, show formed.chargerNow.stage = _ from stage]

/-- Settles O10: the boundary opens the Stage that follows, and its notice latches and publishes (R51, R57, R59, R65). -/
theorem boundaryOpensStage : Obligations.BoundaryOpensStage :=
  ⟨fun _ io running => execStageBoundary_next io running, fun _ _ running opened link fresh prompt =>
    execBoundaryNotice_latches (State.tick_noticeDue running opened link fresh prompt)⟩

end Sys2Proof.Machine

namespace Sys2Proof.Machine

/-! # The dispatcher (R74 to R99)

Two readings of the dispatcher carry its proofs. `lasting` is what a selection leaves of the tasks (all but status and budget
counter), `accounts` is what readiness, annulment and release leave of them (commit and overruns). -/

theorem List.map_modify_of_fixes {α β : Type} {g : α → β} {f : α → α} (h : ∀ x, g (f x) = g x) (l : List α) (i : Nat) :
    (l.modify i f).map g = l.map g := by
  refine List.ext_getElem? fun j => ?_
  simp only [List.getElem?_map, List.getElem?_modify]
  cases l[j]? with
  | none => rfl
  | some x => by_cases e : i = j <;> simp [e, h]

theorem nth_map_congr {α β : Type} [Inhabited α] {g : α → β} {l m : List α} (h : l.map g = m.map g) (i : Nat) :
    g (nth l i) = g (nth m i) := by
  have at_ : l[i]?.map g = m[i]?.map g := by rw [← List.getElem?_map, ← List.getElem?_map, h]
  simpa [nth, List.getD_eq_getElem?_getD, Option.getD_map] using congrArg (·.getD (g default)) at_

/-! ## One task -/

theorem State.run_onTask_same {s : State} {i : Nat} (h : i < s.disp.tasks.length) (f : TaskRun → TaskRun) :
    (s.onTask i f).run i = f (s.run i) := nth_modify_same h f

theorem State.run_onTask_ne (s : State) {i j : Nat} (ne : i ≠ j) (f : TaskRun → TaskRun) :
    (s.onTask j f).run i = s.run i := nth_modify_ne _ f ne

/-- What a selection leaves of a task. -/
def TaskRun.lasting (r : TaskRun) : TaskRun := { r with status := .idle, budget := 0, ranAt := 0 }

/-- Whether a task has committed in this Stage, has overrun, and how often in all. -/
def TaskRun.account (r : TaskRun) : Bool × Bool × Nat := (r.committed, r.overran, r.overruns)

/-- What a selection leaves of the dispatcher. -/
def State.lasting (s : State) : List TaskRun × Option DispAnswer × Bool × Nat :=
  (s.disp.tasks.map TaskRun.lasting, s.disp.answer, s.disp.started, s.disp.graphStartAt)

/-- What readiness, annulment and release leave of the dispatcher. -/
def State.accounts (s : State) : List (Bool × Bool × Nat) × List (Option Work) × Bool × Nat :=
  (s.disp.tasks.map TaskRun.account, s.disp.lanes, s.disp.started, s.disp.graphStartAt)

namespace Fixes

variable {s t : State}

theorem lasting_run (h : Fixes State.lasting s t) (i : Nat) : (t.run i).lasting = (s.run i).lasting :=
  nth_map_congr (congrArg Prod.fst h.eq) i

theorem lasting_tasks (h : Fixes State.lasting s t) : t.disp.tasks.length = s.disp.tasks.length := by
  simpa [State.lasting] using congrArg (fun x => x.1.length) h.eq

theorem lasting_answer (h : Fixes State.lasting s t) : t.disp.answer = s.disp.answer := congrArg (fun x => x.2.1) h.eq

theorem lasting_started (h : Fixes State.lasting s t) : t.disp.started = s.disp.started := congrArg (fun x => x.2.2.1) h.eq

theorem lasting_startAt (h : Fixes State.lasting s t) : t.disp.graphStartAt = s.disp.graphStartAt :=
  congrArg (fun x => x.2.2.2) h.eq

theorem account_run (h : Fixes State.accounts s t) (i : Nat) : (t.run i).account = (s.run i).account :=
  nth_map_congr (congrArg Prod.fst h.eq) i

theorem account_tasks (h : Fixes State.accounts s t) : t.disp.tasks.length = s.disp.tasks.length := by
  simpa [State.accounts] using congrArg (fun x => x.1.length) h.eq

theorem account_lanes (h : Fixes State.accounts s t) : t.disp.lanes = s.disp.lanes := congrArg (fun x => x.2.1) h.eq

theorem account_started (h : Fixes State.accounts s t) : t.disp.started = s.disp.started := congrArg (fun x => x.2.2.1) h.eq

theorem account_startAt (h : Fixes State.accounts s t) : t.disp.graphStartAt = s.disp.graphStartAt :=
  congrArg (fun x => x.2.2.2) h.eq

end Fixes

/-! ## Selection -/

theorem State.onTask_lasting {s : State} {i : Nat} {f : TaskRun → TaskRun} (hf : ∀ r, (f r).lasting = r.lasting) :
    Fixes State.lasting s (s.onTask i f) :=
  ⟨Prod.ext (List.map_modify_of_fixes hf _ _) rfl⟩

theorem State.setStatus_lasting (w : Work) (st : TaskStatus) (s : State) : Fixes State.lasting s (s.setStatus w st) := by
  cases w with
  | task i => exact State.onTask_lasting fun _ => rfl
  | inst sl => exact ⟨rfl⟩

theorem State.setBudget_lasting (w : Work) (b t : Nat) (s : State) : Fixes State.lasting s (s.setBudget w b t) := by
  cases w with
  | task i => exact State.onTask_lasting fun _ => rfl
  | inst sl => exact ⟨rfl⟩

theorem State.selStatus_lasting (w : Work) (st : TaskStatus) (s : State) : Fixes State.lasting s (s.selStatus w st) :=
  (State.setStatus_lasting w st s).then_ rfl

theorem State.dispatch_lasting (lane t : Nat) (w : Work) (s : State) : Fixes State.lasting s (s.dispatch lane t w) :=
  ((State.selStatus_lasting w (.running lane) s).trans (State.setBudget_lasting ..)).then_ rfl

theorem State.fillLane_lasting (lane t : Nat) (s : State) : Fixes State.lasting s (s.fillLane lane t) := by
  unfold State.fillLane
  refine .ite (.refl s) ?_
  split
  · exact .refl s
  · exact State.dispatch_lasting ..

theorem State.preempt_lasting (t : Nat) (s : State) : Fixes State.lasting s (s.preempt t) := by
  unfold State.preempt
  split
  · exact .ite (((State.setBudget_lasting ..).trans (State.selStatus_lasting ..)).trans (State.dispatch_lasting ..)) (.refl s)
  · exact .refl s

theorem State.selectOnce_lasting (t : Nat) (s : State) : Fixes State.lasting s (s.selectOnce t) :=
  ((State.fillLane_lasting 0 t s).trans (State.fillLane_lasting ..)).trans (State.preempt_lasting ..)

theorem State.select_lasting (s : State) : Fixes State.lasting s s.select := by
  refine .ite (.refl s) (.trans ?_ (State.selectOnce_lasting ..))
  exact ⟨rfl⟩

/-! ### A task that a selection does not reach -/

/-- No lane holds task `i`. -/
def State.offLane (i : Nat) (s : State) : Prop := ∀ l, s.laneOf l ≠ some (.task i)

/-- The selection chooses among the eligible works. -/
theorem State.bestEligible_eligible {s : State} {w : Work} (h : s.bestEligible = some w) : s.eligible w = true := by
  unfold State.bestEligible at h
  refine List.foldlRecOn (motive := fun b => ∀ v, b = some v → s.eligible v = true) _ _ (fun v hv => by cases hv)
    (fun b hb v hv x hx => ?_) w h
  have hv := (List.mem_filter.mp hv).2
  split at hx
  · cases hx
    exact hv
  · split at hx
    · cases hx
      exact hv
    · exact hb x hx

/-- A task in this status is neither dispatched nor pre-empted. -/
def TaskStatus.apart (st : TaskStatus) : Prop := st ≠ .ready ∧ st ≠ .preempted

theorem State.eligible_apart {s : State} {i : Nat} (h : (s.run i).status.apart) {w : Work} (e : s.eligible w = true) :
    w ≠ .task i := by
  rintro rfl
  have := h.1
  have := h.2
  simp_all [State.eligible, State.status]

theorem State.setStatus_run_ne {i : Nat} {w : Work} (ne : w ≠ .task i) (st : TaskStatus) (s : State) :
    (s.setStatus w st).run i = s.run i := by
  cases w with
  | task j => exact s.run_onTask_ne (fun e => ne (congrArg _ e.symm)) _
  | inst sl => rfl

theorem State.setBudget_run_ne {i : Nat} {w : Work} (ne : w ≠ .task i) (b t : Nat) (s : State) :
    (s.setBudget w b t).run i = s.run i := by
  cases w with
  | task j => exact s.run_onTask_ne (fun e => ne (congrArg _ e.symm)) _
  | inst sl => rfl

theorem State.setStatus_lanes (w : Work) (st : TaskStatus) (s : State) : (s.setStatus w st).disp.lanes = s.disp.lanes := by
  cases w <;> rfl

theorem State.setBudget_lanes (w : Work) (b t : Nat) (s : State) : (s.setBudget w b t).disp.lanes = s.disp.lanes := by
  cases w <;> rfl

/-- `t` has task `i` as `s` has it, and on no lane. -/
structure Spares (i : Nat) (s t : State) : Prop where
  run : t.run i = s.run i
  off : t.offLane i

theorem Spares.trans {i : Nat} {s t u : State} (h : Spares i s t) (k : Spares i t u) : Spares i s u := ⟨k.run.trans h.run, k.off⟩

theorem State.dispatch_spares {i lane t : Nat} {w : Work} {s : State} (off : s.offLane i) (ne : w ≠ .task i) :
    Spares i s (s.dispatch lane t w) := by
  refine ⟨?_, fun l => ?_⟩
  · exact (State.setBudget_run_ne ne ..).trans (State.setStatus_run_ne ne ..)
  · have lanes : (s.dispatch lane t w).disp.lanes = s.disp.lanes.set lane (some w) := by
      show ((s.selStatus w (.running lane)).setBudget w _ t).disp.lanes.set lane (some w) = _
      rw [State.setBudget_lanes]
      exact congrArg (·.set lane (some w)) (State.setStatus_lanes ..)
    unfold State.laneOf
    rw [lanes, List.getD_eq_getElem?_getD, List.getElem?_set]
    split
    · split <;> simp [ne]
    · rw [← List.getD_eq_getElem?_getD]
      exact off l

theorem State.fillLane_spares {i lane t : Nat} {s : State} (off : s.offLane i) (apart : (s.run i).status.apart) :
    Spares i s (s.fillLane lane t) := by
  unfold State.fillLane
  split
  · exact ⟨rfl, off⟩
  · split
    · exact ⟨rfl, off⟩
    · next w best => exact State.dispatch_spares off (State.eligible_apart apart (State.bestEligible_eligible best))

theorem State.preempt_spares {i t : Nat} {s : State} (off : s.offLane i) (apart : (s.run i).status.apart) :
    Spares i s (s.preempt t) := by
  unfold State.preempt
  split
  next c v0 v1 best h0 h1 =>
    extract_lets e0 e1 lane v
    split
    · have hv : v ≠ .task i := by
        have n0 := off 0
        have n1 := off 1
        rw [h0] at n0
        rw [h1] at n1
        unfold v
        split <;> simp_all
      have stopped : Spares i s ((s.chargeWork v t).selStatus v .preempted) := by
        refine ⟨(State.setStatus_run_ne hv ..).trans (State.setBudget_run_ne hv ..), fun l => ?_⟩
        have lanes : ((s.chargeWork v t).selStatus v .preempted).disp.lanes = s.disp.lanes :=
          (State.setStatus_lanes ..).trans (State.setBudget_lanes ..)
        unfold State.laneOf
        rw [lanes]
        exact off l
      exact stopped.trans
        (State.dispatch_spares stopped.off (State.eligible_apart apart (State.bestEligible_eligible best)))
    · exact ⟨rfl, off⟩
  next => exact ⟨rfl, off⟩

theorem State.selectOnce_spares {i t : Nat} {s : State} (off : s.offLane i) (apart : (s.run i).status.apart) :
    Spares i s (s.selectOnce t) := by
  have h0 : Spares i s (s.fillLane 0 t) := State.fillLane_spares off apart
  have h1 : Spares i s ((s.fillLane 0 t).fillLane 1 t) := h0.trans (State.fillLane_spares h0.off (h0.run ▸ apart))
  exact h1.trans (State.preempt_spares h1.off (h1.run ▸ apart))

theorem State.select_spares {i : Nat} {s : State} (off : s.offLane i) (apart : (s.run i).status.apart) :
    Spares i s s.select := by
  unfold State.select
  split
  · exact ⟨rfl, off⟩
  · have h := State.selectOnce_spares (t := s.now)
      (s := { s with disp := { s.disp with selAt := s.now, undo := [], undoLanes := s.disp.lanes } }) off apart
    exact ⟨h.run, h.off⟩

/-! ## Readiness, annulment and release -/

theorem State.onTask_accounts {s : State} {i : Nat} {f : TaskRun → TaskRun} (hf : ∀ r, (f r).account = r.account) :
    Fixes State.accounts s (s.onTask i f) :=
  ⟨Prod.ext (List.map_modify_of_fixes hf _ _) rfl⟩

theorem Fixes.accounts_raise {s t : State} {c : Nat} {pl : List Octet} {v : Nat} (h : Fixes State.accounts s t) :
    Fixes State.accounts s (t.raise c pl v) :=
  h.then_ (congrArg (fun d : Disp => (d.tasks.map TaskRun.account, d.lanes, d.started, d.graphStartAt))
    (State.raise_disp t c pl v))

theorem State.setStatus_accounts (w : Work) (st : TaskStatus) (s : State) : Fixes State.accounts s (s.setStatus w st) := by
  cases w with
  | task i => exact State.onTask_accounts fun _ => rfl
  | inst sl => exact ⟨rfl⟩

theorem State.annulTask_accounts (i reason : Nat) (s : State) : Fixes State.accounts s (s.annulTask i reason) :=
  .accounts_raise (State.onTask_accounts fun _ => rfl)

/-- A ready number touches no more of a task than its place in the order (R89). -/
theorem State.number_tasks {β : Type} {g : TaskRun → β} (hg : ∀ r n, g { r with readySeq := n } = g r) (i : Nat) (s : State) :
    (s.number i).disp.tasks.map g = s.disp.tasks.map g := by
  unfold State.number
  extract_lets n mine rs below
  show (rs.map _).map g = _
  rw [List.map_map]
  have e : s.disp.tasks.map g = rs.map (fun x => g x.1) := by
    calc s.disp.tasks.map g = (rs.map Prod.fst).map g := by rw [List.zipIdx_map_fst]
      _ = rs.map (fun x => g x.1) := List.map_map
  rw [e]
  refine List.map_congr_left fun x _ => ?_
  simp only [Function.comp]
  split
  · exact hg ..
  · split
    · exact hg ..
    · rfl

theorem State.number_accounts (i : Nat) (s : State) : Fixes State.accounts s (s.number i) :=
  ⟨Prod.ext (State.number_tasks (fun _ _ => rfl) i s) rfl⟩

theorem State.checkReady_accounts (i : Nat) (s : State) : Fixes State.accounts s (s.checkReady i) := by
  unfold State.checkReady
  extract_lets r resolved
  refine .ite (.ite (State.annulTask_accounts ..) ((State.number_accounts i s).trans ?_)) (.refl s)
  exact State.onTask_accounts fun _ => rfl

theorem State.release_accounts (cancel : Bool) (fuel : Nat) (js : List Nat) (s : State) :
    Fixes State.accounts s (s.release cancel fuel js) := by
  induction fuel generalizing cancel js s with
  | zero => unfold State.release; exact .refl s
  | succ fuel ih =>
    cases js with
    | nil => unfold State.release; exact .refl s
    | cons j js =>
      unfold State.release
      extract_lets next
      have h : Fixes State.accounts s next := by
        refine .ite (.refl s) (.ite (.trans ?_ (ih ..)) (.trans ?_ (State.checkReady_accounts ..)))
        · exact State.onTask_accounts fun _ => rfl
        · exact State.onTask_accounts fun _ => rfl
      exact h.trans (ih ..)

theorem State.reachDeadline_accounts (i : Nat) (s : State) : Fixes State.accounts s (s.reachDeadline i) := by
  unfold State.reachDeadline
  refine .ite (.refl s) (.ite ?_ ?_)
  · exact State.onTask_accounts fun _ => rfl
  · exact State.onTask_accounts fun _ => rfl

theorem State.flagCancel_accounts (w : Work) (s : State) : Fixes State.accounts s (s.flagCancel w) := by
  cases w with
  | task i => exact State.onTask_accounts fun _ => rfl
  | inst sl => exact ⟨rfl⟩

theorem State.annulInst_accounts (sl reason : Nat) (s : State) : Fixes State.accounts s (s.annulInst sl reason) := by
  unfold State.annulInst
  split
  · exact .refl s
  · refine .accounts_raise (.trans (t := s.freeInst sl) ⟨rfl⟩ ?_)
    exact State.onTask_accounts fun _ => rfl

theorem State.cancelWork_accounts (w : Work) (reason : Nat) (s : State) : Fixes State.accounts s (s.cancelWork w reason) := by
  unfold State.cancelWork
  split
  · refine .trans ?_ (State.checkReady_accounts ..)
    exact State.onTask_accounts fun _ => rfl
  · exact State.annulTask_accounts ..
  · exact State.flagCancel_accounts ..
  · exact State.flagCancel_accounts ..
  · exact .ite ⟨rfl⟩ (.refl s)
  · exact State.annulInst_accounts ..
  · exact State.annulInst_accounts ..
  · exact .refl s

theorem State.startDeadline_accounts (i : Nat) (s : State) : Fixes State.accounts s (s.startDeadline i) :=
  .ite ((State.reachDeadline_accounts i s).trans (State.cancelWork_accounts ..)) (State.reachDeadline_accounts i s)

theorem State.passOver_accounts (e i : Nat) (s : State) : Fixes State.accounts s (s.passOver e i) := by
  refine .ite (.foldl (fun t j => ?_) _ s) (.refl s)
  exact State.onTask_accounts fun _ => rfl

theorem State.releaseInsts_accounts (i : Nat) (s : State) : Fixes State.accounts s (s.releaseInsts i) := by
  unfold State.releaseInsts
  refine .ite (.refl s) (.foldl (fun t e => ?_) _ s)
  exact ⟨rfl⟩

/-! ## Graph start and cut-off (R44, R46, R61, R74) -/

/-- How many tasks the dispatcher has, whether it has started, and when. -/
def State.opening (s : State) : Nat × Bool × Nat := (s.disp.tasks.length, s.disp.started, s.disp.graphStartAt)

theorem Fixes.opening_accounts {s t u : State} (h : Fixes State.opening s t) (k : Fixes State.accounts t u) :
    Fixes State.opening s u :=
  h.then_ (Prod.ext k.account_tasks (Prod.ext k.account_started k.account_startAt))

theorem State.loadTask_opening (e i : Nat) (s : State) : Fixes State.opening s (s.loadTask e i) :=
  ⟨Prod.ext (List.length_modify ..) rfl⟩

theorem State.graphStart_opening (t : Nat) (s : State) :
    (s.graphStart t).opening = (s.graph.tasks.length, true, t) := by
  unfold State.graphStart
  extract_lets e n disp started loaded passed
  have hStarted : started.opening = (s.graph.tasks.length, true, t) := by
    refine Prod.ext ?_ rfl
    show ((s.disp.tasks ++ List.replicate n ({} : TaskRun)).take n).length = n
    simp
  have hLoaded : Fixes State.opening started loaded := .eachIx (State.loadTask_opening e) _ _
  have hPassed : Fixes State.opening started passed := hLoaded.opening_accounts (.eachIx (State.passOver_accounts e) _ _)
  have hReady : Fixes State.opening started (eachIx n State.checkReady (eachIx n State.startDeadline passed)) :=
    (hPassed.opening_accounts (.eachIx State.startDeadline_accounts _ _)).opening_accounts
      (.eachIx State.checkReady_accounts _ _)
  have hReleased := hReady.opening_accounts (.eachIx State.releaseInsts_accounts n _)
  have selected := State.select_lasting (eachIx n State.releaseInsts (eachIx n State.checkReady (eachIx n State.startDeadline passed)))
  refine .trans ?_ (hReleased.eq.trans hStarted)
  exact Prod.ext selected.lasting_tasks (Prod.ext selected.lasting_started selected.lasting_startAt)

theorem execGraphStart_starts {s : State} (running : s.stage.running = true) (opened : s.stage.closed = false)
    (fresh : s.disp.started = false) (lanes : s.mode.lanesOff = false) (later : s.stage.epoch ≠ 0xFFFFFFFFFFFF) (t : Nat) :
    Answers (fun u => u.disp.started = true ∧ u.disp.graphStartAt = t ∧ u.disp.tasks.length = s.graph.tasks.length)
      (execGraphStart t s) := by
  unfold execGraphStart
  extract_lets ticked
  rw [if_neg (by simp [ticked, running, opened, fresh, lanes, later])]
  have kept : Keeps (allBut [.graph]) s (eachIx 12 State.xdStage ticked) :=
    .eachIx (fun _ _ h => h.onto _ rfl (State.xdStage_keeps ..)) ((State.tick_keeps t s).mono rfl)
  have graph : (eachIx 12 State.xdStage ticked).graph = s.graph := kept.get .graph rfl
  have h := (eachIx 12 State.xdStage ticked).graphStart_opening t
  rw [graph] at h
  simp only [State.opening, Prod.mk.injEq] at h
  exact .next ⟨h.2.1, h.2.2, h.1⟩

theorem execCommitCutoff_closes {s : State} (running : s.stage.running = true) (opened : s.stage.closed = false)
    (later : s.stage.epoch ≠ 0xFFFFFFFFFFFF) {t : Nat} (due : s.stage.openedAt + s.stage.len - 64 ≤ t)
    (executed : List (Work × Nat)) :
    Answers (fun u => u.stage.closed = true ∧ u.disp.lanes = [none, none] ∧ u.disp.started = false)
      (execCommitCutoff t executed s) := by
  unfold execCommitCutoff
  extract_lets ticked
  have notEarly : ¬ t < ticked.cutoff := Nat.not_lt.mpr due
  rw [if_neg (by simp [ticked, running, opened, later, notEarly])]
  exact .next ⟨by simp, rfl, rfl⟩

/-- Settles O12: nothing after the tables are loaded changes their length, and the end sweep empties the lanes. -/
theorem graphStartAndCutoff : Obligations.GraphStartAndCutoff :=
  ⟨fun _ t running opened fresh lanes later => execGraphStart_starts running opened fresh lanes later t,
    fun _ _ ex running opened later due => execCommitCutoff_closes running opened later due ex⟩

/-! ## Completion and overrun (R88, R95 to R97) -/

theorem State.spawn_tasks (task : Nat) (arg : List Octet) (s : State) : (s.spawn task arg).1.disp.tasks = s.disp.tasks := by
  unfold State.spawn
  split <;> rfl

theorem State.kernelSpawn_tasks (asker task : Nat) (arg : List Octet) (s : State) :
    (s.kernelSpawn asker task arg).disp.tasks = s.disp.tasks := by
  unfold State.kernelSpawn
  extract_lets answer
  have h := s.spawn_tasks task arg
  split
  all_goals
    next spawned eq =>
    rw [eq] at h
    exact h

theorem State.repeatHeld_tasks (i : Nat) (s : State) : (s.repeatHeld i).disp.tasks = s.disp.tasks := by
  unfold State.repeatHeld
  extract_lets old l
  have h : Fixes (·.disp.tasks) s (l.foldl (fun s x => s.kernelSpawn x.1 x.2.2.1 x.2.2.2)
      { s with disp := { s.disp with kernelHeld := s.disp.kernelHeld.filter (fun x => !old x) } }) := by
    refine .trans ?_ (.foldl (fun t x => ⟨State.kernelSpawn_tasks ..⟩) _ _)
    exact ⟨rfl⟩
  exact h.eq

/-- The work of a kernel leaves the tasks of the dispatcher. -/
theorem State.kernelWork_tasks (w : Work) (s : State) : (s.kernelWork w).disp.tasks = s.disp.tasks := by
  unfold State.kernelWork
  extract_lets asked
  have h : asked.disp.tasks = s.disp.tasks := by
    have shown : s.unshow.disp = s.disp := (State.unshow_keeps s).get .disp rfl
    exact (State.repeatHeld_tasks ..).trans (congrArg Disp.tasks shown)
  have kept {W : List Fld} {u : State} (k : Keeps W asked u) (w : W.contains .disp = false) : u.disp.tasks = s.disp.tasks :=
    (congrArg Disp.tasks (k.get .disp w)).trans h
  split
  · exact kept (State.modeKernel_keeps _) rfl
  · exact kept (State.evalChannel_keeps ..) rfl
  · exact kept (State.axisKernel_keeps ..) rfl
  · exact kept (State.groupKernel_keeps ..) rfl
  · exact kept (State.carKernel_keeps ..) rfl
  · exact kept (State.doorKernel_keeps ..) rfl
  · exact kept (State.dispatchKernel_keeps _) rfl
  · split
    · split
      · exact kept (State.formBids_keeps ..) rfl
      · exact h
    · exact h
  · exact kept (State.surveyKernel_keeps _) rfl
  · exact h

/-- A task that completes is committed; what its completion releases leaves that. -/
theorem State.committed_run {s : State} {i : Nat} (h : i < s.disp.tasks.length) (t : Nat) :
    ((s.committed (.task i) t).run i).committed = true := by
  unfold State.committed
  extract_lets k resp accounted told
  have account : (accounted.run i).committed = true := by
    have : accounted.run i = _ := State.run_onTask_same h _
    rw [this]
  have hTold : Fixes State.accounts accounted told := by
    unfold told State.respEv
    extract_lets
    exact .ite (.accounts_raise (.refl _)) (.refl _)
  have done : Fixes State.accounts accounted ((told.setStatus (.task i) .completed).releaseOf i false) :=
    (hTold.trans (State.setStatus_accounts ..)).trans (State.release_accounts ..)
  have := congrArg Prod.fst (done.account_run i)
  exact this.trans account

theorem Fixes.lasting_committed {s t : State} (h : Fixes State.lasting s t) (i : Nat) :
    (t.run i).account = (s.run i).account :=
  show (t.run i).lasting.account = (s.run i).lasting.account from congrArg TaskRun.account (h.lasting_run i)

theorem State.select_committed {s : State} {i : Nat} (h : (s.run i).committed = true) : (s.select.run i).committed = true := by
  have account := (State.select_lasting s).lasting_committed i
  simp only [TaskRun.account, Prod.mk.injEq] at account
  exact account.1.trans h

theorem execTaskCompletion_commits {s : State} {t lane cyc i : Nat} (held : (s.tick t).comeTo.laneOf lane = some (.task i))
    (task : i < (s.tick t).comeTo.disp.tasks.length) (alive : (s.tick t).comeTo.laneDead lane = false)
    (opened : (s.tick t).comeTo.stage.closed = false) (early : (s.tick t).comeTo.now ≤ (s.tick t).comeTo.cutoff)
    (within : cyc ≤ ((s.tick t).comeTo.taskRec i).budget) (wanted : ((s.tick t).comeTo.run i).cancel = false) :
    Answers (fun u => (u.run i).committed = true) (execTaskCompletion t lane cyc s) := by
  unfold execTaskCompletion
  extract_lets come
  rw [held]
  dsimp only
  rw [if_neg (by simp [come, alive, opened, early]), 
    if_neg (show ¬ (come.taskRec (come.taskIx (.task i))).budget < cyc from Nat.not_lt.mpr within)]
  have uncancelled : (come.setLane lane none).cancelled (.task i) = false := wanted
  rw [if_neg (show ¬ (come.setLane lane none).cancelledBefore (.task i) = true by
    simp [State.cancelledBefore, uncancelled])]
  refine .next ?_
  have tasks := State.kernelWork_tasks (.task i) (come.setLane lane none)
  exact State.select_committed (State.committed_run (by rw [tasks]; exact task) _)

/-- A task that is stopped is overrun, and its commit stands as it was (R99). -/
theorem State.overrun_account {s : State} {i : Nat} (h : i < s.disp.tasks.length) (cause cycles : Nat) :
    ((s.overrun (.task i) cause cycles).run i).account = ((s.run i).committed, true, inc32 (s.run i).overruns) := by
  unfold State.overrun
  extract_lets k was counted told
  have account : (counted.run i).account = ((s.run i).committed, true, inc32 (s.run i).overruns) := by
    have : counted.run i = _ := State.run_onTask_same h _
    rw [this]
    rfl
  have done : Fixes State.accounts counted ((told.setStatus (.task i) .stopped).releaseOf i true) :=
    (Fixes.trans (.accounts_raise (.refl _)) (State.setStatus_accounts ..)).trans (State.release_accounts ..)
  exact (done.account_run i).trans account

theorem execBudgetExhausted_overruns {s : State} {t lane i : Nat} (held : (s.tick t).comeTo.laneOf lane = some (.task i))
    (task : i < (s.tick t).comeTo.disp.tasks.length) (alive : (s.tick t).comeTo.laneDead lane = false)
    (spent : (s.tick t).comeTo.budgetOf (.task i) ≤ (s.tick t).comeTo.sinceRun (.task i) (s.tick t).comeTo.now) :
    Answers (fun u => (u.run i).overran = true ∧ (u.run i).committed = ((s.tick t).comeTo.run i).committed ∧
      (u.run i).overruns = inc32 ((s.tick t).comeTo.run i).overruns) (execBudgetExhausted t lane s) := by
  unfold execBudgetExhausted
  extract_lets come
  rw [held]
  dsimp only
  rw [if_neg (by simp [come, alive, spent])]
  refine .next ?_
  have account := State.overrun_account (s := come.setLane lane none) (i := i) task 0 (come.taskRec (come.taskIx (.task i))).budget
  have selected := (State.select_lasting ((come.setLane lane none).overrun (.task i) 0
    (come.taskRec (come.taskIx (.task i))).budget)).lasting_committed i
  have both := selected.trans account
  simp only [TaskRun.account, Prod.mk.injEq] at both
  exact ⟨both.2.1, both.1, both.2.2⟩

/-! ## Cancellation (R98) -/

theorem State.annulTask_run {s : State} {i : Nat} (h : i < s.disp.tasks.length) (reason : Nat) :
    (s.annulTask i reason).run i =
      { s.run i with status := .annulled, marked := false, latch := false, annulled := inc32 (s.run i).annulled } := by
  unfold State.annulTask State.run
  rw [State.raise_disp]
  exact State.run_onTask_same h _

theorem State.annulTask_lanes (i reason : Nat) (s : State) : (s.annulTask i reason).disp.lanes = s.disp.lanes :=
  (State.annulTask_accounts i reason s).account_lanes

theorem State.offLane_of_lanes {s t : State} {i : Nat} (h : s.offLane i) (e : t.disp.lanes = s.disp.lanes) : t.offLane i := by
  intro l
  unfold State.laneOf
  rw [e]
  exact h l

/-- What a selection after the request leaves of a task that is annulled or completed. -/
theorem State.select_run {s : State} {i : Nat} (off : s.offLane i) (apart : (s.run i).status.apart) :
    s.select.run i = s.run i := (State.select_spares off apart).run

theorem execCancelRequest_answers {s : State} {t i : Nat} (task : i < (s.tick t).comeTo.disp.tasks.length)
    (off : ((s.tick t).comeTo.run i).status.inService = false → (s.tick t).comeTo.offLane i) :
    Answers (fun u =>
      (((s.tick t).comeTo.run i).status = .ready → (u.run i).status = .annulled ∧
        (u.run i).annulled = inc32 ((s.tick t).comeTo.run i).annulled) ∧
      (((s.tick t).comeTo.run i).status.inService = true → (u.run i).cancel = true) ∧
      (((s.tick t).comeTo.run i).status = .completed → u.run i = (s.tick t).comeTo.run i ∧ u.disp.answer = some .done))
      (execCancelRequest t (.task i) s) := by
  unfold execCancelRequest
  extract_lets come a cancelled
  refine .next ⟨fun ready => ?_, fun inService => ?_, fun completed => ?_⟩
  · have status : come.status (.task i) = .ready := ready
    have h : cancelled = come.annulTask i 0 := by
      unfold cancelled State.cancelWork
      rw [status]
    have run := State.annulTask_run task 0
    have selected := State.select_run (s := { cancelled with disp := { cancelled.disp with answer := some a } }) (i := i)
      (State.offLane_of_lanes (off (by rw [ready]; rfl)) (by rw [h]; exact State.annulTask_lanes ..))
      (by rw [h]; show ((come.annulTask i 0).run i).status.apart; rw [run]; exact ⟨by simp, by simp⟩)
    have both : _ = (come.annulTask i 0).run i := selected.trans (by rw [h]; rfl)
    rw [both, run]
    exact ⟨rfl, rfl⟩
  · have h : cancelled = come.flagCancel (.task i) := by
      unfold cancelled State.cancelWork
      have : come.status (.task i) = (come.run i).status := rfl
      rw [this]
      generalize (come.run i).status = st at inService
      cases st with
      | running lane => rfl
      | preempted => rfl
      | _ => cases inService
    have lasting := (State.select_lasting { cancelled with disp := { cancelled.disp with answer := some a } }).lasting_run i
    have run : ({ cancelled with disp := { cancelled.disp with answer := some a } } : State).run i = _ :=
      (show cancelled.run i = (come.flagCancel (.task i)).run i by rw [h]).trans (State.run_onTask_same task _)
    rw [run] at lasting
    exact congrArg TaskRun.cancel lasting
  · have status : come.status (.task i) = .completed := completed
    have h : cancelled = come := by
      unfold cancelled State.cancelWork
      rw [status]
    have done : a = .done := by
      unfold a State.cancelAnswer
      rw [status]
    have selected := State.select_run (s := { cancelled with disp := { cancelled.disp with answer := some a } }) (i := i)
      (State.offLane_of_lanes (off (by rw [completed]; rfl)) (by rw [h]))
      (by rw [h]; show (come.run i).status.apart; rw [completed]; exact ⟨by simp, by simp⟩)
    refine ⟨selected.trans (show cancelled.run i = come.run i by rw [h]), ?_⟩
    exact (State.select_lasting _).lasting_answer.trans (congrArg some done)

/-- Settles O13: completion commits, an exhausted budget overruns, and a request does what the task's status asks (R95 to R98). -/
theorem activationsEnd : Obligations.ActivationsEnd := by
  refine ⟨⟨?_, ?_⟩, ?_⟩
  · rintro s _ t lane cyc i rfl held task alive opened early within wanted
    exact execTaskCompletion_commits held task alive opened early within wanted
  · rintro s _ t lane i rfl held task alive spent
    exact execBudgetExhausted_overruns held task alive spent
  · rintro s _ t i rfl task off
    exact execCancelRequest_answers task off

/-! ## Waits (R77 to R79) -/

/-- The latch and the status of a task. -/
def State.waitRun (i : Nat) (s : State) : Bool × TaskStatus := ((s.run i).latch, (s.run i).status)

theorem State.run_of_disp {s t : State} (h : t.disp = s.disp) (i : Nat) : t.run i = s.run i := by
  unfold State.run
  rw [h]

theorem State.number_run {β : Type} {g : TaskRun → β} (hg : ∀ r n, g { r with readySeq := n } = g r) (i j : Nat) (s : State) :
    g ((s.number j).run i) = g (s.run i) := nth_map_congr (State.number_tasks hg j s) i

theorem State.checkReady_waitRun_ne {i j : Nat} (ne : i ≠ j) (s : State) :
    Fixes (State.waitRun i) s (s.checkReady j) := by
  unfold State.checkReady
  extract_lets r resolved
  refine .ite (.ite ⟨?_⟩ ⟨?_⟩) (.refl s)
  · have e : (s.annulTask j r.markReason).run i = s.run i :=
      (State.run_of_disp (State.raise_disp ..) i).trans (State.run_onTask_ne _ ne _)
    unfold State.waitRun
    rw [e]
  · have e := State.run_onTask_ne (s.number j) ne (fun r => { r with
      status := .ready, timedOut := (s.taskRec j).waitEn && r.deadlinePassed })
    have number := State.number_run (g := fun r => (r.latch, r.status)) (fun _ _ => rfl) i j s
    exact (congrArg (fun r : TaskRun => (r.latch, r.status)) e).trans number

/-- A latched task stays latched as it becomes ready, or is annulled for a request that marked it. -/
theorem State.checkReady_latched {s : State} {i : Nat} (task : i < s.disp.tasks.length) (latched : (s.run i).latch = true) :
    ((s.checkReady i).run i).latch = true ∨ ((s.checkReady i).run i).status = .annulled := by
  unfold State.checkReady
  extract_lets r resolved
  split
  · split
    · exact .inr (by rw [State.annulTask_run task])
    · refine .inl ?_
      have inNumber : i < (s.number i).disp.tasks.length := by
        have := (State.number_accounts i s).account_tasks
        omega
      rw [State.run_onTask_same inNumber]
      exact (State.number_run (g := TaskRun.latch) (fun _ _ => rfl) i i s).trans latched
  · exact .inl latched

/-- What an event does to the wait of task `j`. -/
def State.latchWait (wkind wix j : Nat) (s : State) : State :=
  if (s.taskRec j).waitEn && (s.waitOf j).wkind == wkind && (s.waitOf j).wix == wix && wkind != 4 then
    (s.onTask j (fun r => { r with latch := true })).checkReady j
  else s

theorem State.waitEvent_eq (wkind wix : Nat) (s : State) :
    s.waitEvent wkind wix = (eachIx s.graph.tasks.length (State.latchWait wkind wix) s.comeTo).select := rfl

theorem State.latchWait_accounts (wkind wix j : Nat) (s : State) : Fixes State.accounts s (s.latchWait wkind wix j) := by
  refine .ite (.trans ?_ (State.checkReady_accounts ..)) (.refl s)
  exact State.onTask_accounts fun _ => rfl

theorem State.latchWait_keeps (wkind wix j : Nat) (s : State) : Keeps [.disp, .led] s (s.latchWait wkind wix j) :=
  .ite ((State.checkReady_keeps ..).after ((State.onTask_keeps ..).mono rfl) rfl) (.refl _ s)

theorem State.latchWait_waitRun_ne {i j : Nat} (ne : i ≠ j) (wkind wix : Nat) (s : State) :
    Fixes (State.waitRun i) s (s.latchWait wkind wix j) := by
  refine .ite (.trans ?_ (State.checkReady_waitRun_ne ne _)) (.refl s)
  exact ⟨congrArg (fun r : TaskRun => (r.latch, r.status)) (State.run_onTask_ne s ne _)⟩

theorem State.latchWait_same {s : State} {i k x : Nat} (task : i < s.disp.tasks.length) (waits : (s.taskRec i).waitEn = true)
    (kind : (s.waitOf i).wkind = k) (source : (s.waitOf i).wix = x) (event : k ≠ 4) :
    ((s.latchWait k x i).run i).latch = true ∨ ((s.latchWait k x i).run i).status = .annulled := by
  unfold State.latchWait
  rw [if_pos (by simp [waits, kind, source, event])]
  refine State.checkReady_latched (by simpa [State.onTask] using task) ?_
  rw [State.run_onTask_same task]

/-- Through the tasks of the graph, the one whose wait is on the source is latched, or annulled. -/
theorem State.latchWaits {s : State} {i k x : Nat} (task : i < s.disp.tasks.length) (waits : (s.taskRec i).waitEn = true)
    (kind : (s.waitOf i).wkind = k) (source : (s.waitOf i).wix = x) (event : k ≠ 4) {n : Nat} (reached : i < n) :
    ((eachIx n (State.latchWait k x) s).run i).latch = true ∨
      ((eachIx n (State.latchWait k x) s).run i).status = .annulled := by
  induction n with
  | zero => cases reached
  | succ n ih =>
    have step : eachIx (n + 1) (State.latchWait k x) s = (eachIx n (State.latchWait k x) s).latchWait k x n := by
      simp [eachIx, List.range_succ]
    rw [step]
    have accounts : Fixes State.accounts s (eachIx n (State.latchWait k x) s) := .eachIx (State.latchWait_accounts k x) _ _
    have graph : (eachIx n (State.latchWait k x) s).graph = s.graph :=
      (Keeps.eachIx (fun _ _ h => h.onto _ rfl (State.latchWait_keeps ..)) (.refl [.disp, .led] s)).get .graph rfl
    by_cases here : i = n
    · subst here
      have recs : (eachIx i (State.latchWait k x) s).taskRec i = s.taskRec i := by unfold State.taskRec; rw [graph]
      have entry : (eachIx i (State.latchWait k x) s).waitOf i = s.waitOf i := by
        unfold State.waitOf
        rw [recs, graph]
      exact State.latchWait_same (accounts.account_tasks ▸ task) (recs ▸ waits) (entry ▸ kind) (entry ▸ source) event
    · have still := (State.latchWait_waitRun_ne here k x (eachIx n (State.latchWait k x) s)).eq
      simp only [State.waitRun, Prod.mk.injEq] at still
      rw [still.1, still.2]
      exact ih (by omega)

theorem execWaitEvent_latches {s : State} {t k x i : Nat} (inGraph : i < (s.tick t).comeTo.graph.tasks.length)
    (task : i < (s.tick t).comeTo.disp.tasks.length) (waits : ((s.tick t).comeTo.taskRec i).waitEn = true)
    (kind : ((s.tick t).comeTo.waitOf i).wkind = k) (source : ((s.tick t).comeTo.waitOf i).wix = x) (event : k ≠ 4)
    (off : (s.tick t).comeTo.offLane i) :
    Answers (fun u => (u.run i).latch = true ∨ (u.run i).status = .annulled) (execWaitEvent t k x s) := by
  unfold execWaitEvent
  rw [State.waitEvent_eq]
  have graph : (s.tick t).comeTo.graph = (s.tick t).graph := (State.comeTo_keeps _).get .graph rfl
  rw [graph] at inGraph
  have latched := State.latchWaits task waits kind source event inGraph
  have lanes : Fixes State.accounts (s.tick t).comeTo
      (eachIx (s.tick t).graph.tasks.length (State.latchWait k x) (s.tick t).comeTo) :=
    .eachIx (State.latchWait_accounts k x) _ _
  generalize eachIx (s.tick t).graph.tasks.length (State.latchWait k x) (s.tick t).comeTo = latchedAll at latched lanes ⊢
  have lasting := (State.select_lasting latchedAll).lasting_run i
  refine .next (latched.imp (fun h => ?_) fun h => ?_)
  · exact (congrArg TaskRun.latch lasting : _).trans h
  · rw [State.select_run (State.offLane_of_lanes off lanes.account_lanes) (h ▸ ⟨by simp, by simp⟩)]
    exact h

/-- A task without a mark that becomes ready keeps what is known of its wait. -/
theorem State.checkReady_unmarked {s : State} {i : Nat} (task : i < s.disp.tasks.length) (unmarked : (s.run i).marked = false) :
    ((s.checkReady i).run i).latch = (s.run i).latch ∧
      ((s.checkReady i).run i).deadlinePassed = (s.run i).deadlinePassed := by
  unfold State.checkReady
  extract_lets r resolved
  split
  · rw [if_neg (by simp [r, unmarked])]
    have inNumber : i < (s.number i).disp.tasks.length := by
      have := (State.number_accounts i s).account_tasks
      omega
    rw [State.run_onTask_same inNumber]
    exact ⟨State.number_run (g := TaskRun.latch) (fun _ _ => rfl) i i s,
      State.number_run (g := TaskRun.deadlinePassed) (fun _ _ => rfl) i i s⟩
  · exact ⟨rfl, rfl⟩

/-- What a reached DEADLINE does to a wait that was not resolved (R78, R79). -/
theorem State.reachDeadline_run {s : State} {i : Nat} (task : i < s.disp.tasks.length) (waits : (s.taskRec i).waitEn = true)
    (open_ : (s.run i).latch = false) (fresh : (s.run i).deadlinePassed = false)
    (due : s.stage.openedAt + (s.waitOf i).deadline ≤ s.now) :
    (s.reachDeadline i).run i =
      if (s.waitOf i).wkind = 4 then { s.run i with latch := true } else { s.run i with deadlinePassed := true } := by
  unfold State.reachDeadline
  extract_lets w
  rw [if_neg (by simp [State.deadlineDue, waits, open_, fresh, due])]
  split <;> exact State.run_onTask_same task _

theorem execWaitDeadline_resolves {s : State} {t i : Nat} (task : i < (s.tick t).comeTo.disp.tasks.length)
    (waits : ((s.tick t).comeTo.taskRec i).waitEn = true) (open_ : ((s.tick t).comeTo.run i).latch = false)
    (fresh : ((s.tick t).comeTo.run i).deadlinePassed = false) (unmarked : ((s.tick t).comeTo.run i).marked = false)
    (due : (s.tick t).comeTo.stage.openedAt + ((s.tick t).comeTo.waitOf i).deadline ≤ (s.tick t).comeTo.now) :
    Answers (fun u => (((s.tick t).comeTo.waitOf i).wkind = 4 → (u.run i).latch = true) ∧
      (((s.tick t).comeTo.waitOf i).wkind ≠ 4 → ((s.tick t).comeTo.waitOf i).onto = false → (u.run i).deadlinePassed = true))
      (execWaitDeadline t i s) := by
  unfold execWaitDeadline
  extract_lets come was reached onto
  have run : reached.run i = _ := State.reachDeadline_run task waits open_ fresh due
  have inReached : i < reached.disp.tasks.length := (State.reachDeadline_accounts i come).account_tasks ▸ task
  have graph : reached.graph = come.graph := (State.reachDeadline_keeps i come).get .graph rfl
  have entry : reached.waitOf i = come.waitOf i := by unfold State.waitOf State.taskRec; rw [graph]
  have still : (reached.run i).marked = false := by rw [run]; split <;> exact unmarked
  have selected (x : State) := (State.select_lasting x).lasting_run i
  have latch (x : State) : (x.select.run i).latch = (x.run i).latch := (congrArg TaskRun.latch (selected x) : _)
  have passed (x : State) : (x.select.run i).deadlinePassed = (x.run i).deadlinePassed :=
    (congrArg TaskRun.deadlinePassed (selected x) : _)
  have settled : ((come.waitOf i).wkind = 4 → (reached.run i).latch = true) ∧
      ((come.waitOf i).wkind ≠ 4 → (reached.run i).deadlinePassed = true) := by
    rw [run]
    exact ⟨fun h => by rw [if_pos h], fun h => by rw [if_neg h]⟩
  have kept := State.checkReady_unmarked inReached still
  have notOnto : (come.waitOf i).wkind = 4 ∨ (come.waitOf i).onto = false → onto = false := by
    rintro (h | h)
    · have : (reached.run i).deadlinePassed = false := by rw [run, if_pos h]; exact fresh
      simp [onto, this]
    · simp [onto, entry, h]
  split
  · exact .next ⟨fun h => (latch _).trans (settled.1 h), fun h _ => (passed _).trans (settled.2 h)⟩
  · split
    next cancels =>
      exact .next ⟨fun h => by simp [notOnto (.inl h)] at cancels, fun _ h => by simp [notOnto (.inr h)] at cancels⟩
    next =>
      exact .next ⟨fun h => (latch _).trans (kept.1.trans (settled.1 h)),
        fun h _ => (passed _).trans (kept.2.trans (settled.2 h))⟩

/-! ## Spawn requests (R86) -/

theorem execKernelSpawnRequest_answers {s : State} {b i : Nat} (kind : (s.taskRec i).kind = 1)
    (source : (s.taskRec i).srcKind = 2) (t : Nat) (arg : List Octet) :
    Answers (fun u =>
      (s.disp.creditsOut < s.freeEntries → u.disp.queue.length = s.disp.queue.length + 1 ∧ u.disp.answer = some .accepted) ∧
      (s.freeEntries ≤ s.disp.creditsOut → u.disp.queue = s.disp.queue ∧ u.disp.answer = some .held))
      (execKernelSpawnRequest t { asker := b, template := i } arg s) := by
  unfold execKernelSpawnRequest
  extract_lets ticked r
  rw [if_pos ⟨kind, source⟩]
  unfold State.kernelSpawn State.spawn
  by_cases room : s.disp.creditsOut < s.freeEntries
  · rw [if_pos (show ticked.disp.creditsOut < ticked.freeEntries from room)]
    exact .next ⟨fun _ => ⟨List.length_append, rfl⟩, fun full => absurd room (Nat.not_lt.mpr full)⟩
  · rw [if_neg (show ¬ ticked.disp.creditsOut < ticked.freeEntries from room)]
    exact .next ⟨fun free => absurd free room, fun _ => ⟨rfl, rfl⟩⟩

theorem execStewardSpawnMessage_offers {s : State} {src i : Nat} (spawns : s.spawnTask 3 src = some i) (t : Nat)
    (arg : List Octet) :
    Answers (fun u =>
      (s.disp.creditsOut < s.freeEntries → u.disp.queue.length = s.disp.queue.length + 1) ∧
      (s.freeEntries ≤ s.disp.creditsOut → u.disp.queue = s.disp.queue ∧
        u.disp.stewardHeld = s.disp.stewardHeld ++ [(src, arg)])) (execStewardSpawnMessage t src arg s) := by
  unfold execStewardSpawnMessage State.offerSteward
  rw [show (s.tick t).spawnTask 3 src = some i from spawns]
  dsimp only
  unfold State.spawn
  by_cases room : s.disp.creditsOut < s.freeEntries
  · rw [if_pos (show (s.tick t).disp.creditsOut < (s.tick t).freeEntries from room)]
    exact .next ⟨fun _ => List.length_append, fun full => absurd room (Nat.not_lt.mpr full)⟩
  · rw [if_neg (show ¬ (s.tick t).disp.creditsOut < (s.tick t).freeEntries from room)]
    exact .next ⟨fun free => absurd free room, fun _ => ⟨rfl, rfl⟩⟩

/-- Settles O14: events and deadlines resolve waits, and a spawn request is accepted while there is room (R77 to R79, R86). -/
theorem waitsAndSpawns : Obligations.WaitsAndSpawns := by
  refine ⟨⟨?_, ?_⟩, fun s t b i arg kind source => execKernelSpawnRequest_answers kind source t arg,
    fun s t src i arg spawns => execStewardSpawnMessage_offers spawns t arg⟩
  · rintro s _ t k x i rfl inGraph task waits kind source event off
    exact execWaitEvent_latches inGraph task waits kind source event off
  · rintro s _ t i rfl task waits _ open_ fresh unmarked due
    exact execWaitDeadline_resolves task waits open_ fresh unmarked due

end Sys2Proof.Machine

namespace Sys2Proof.Machine

/-! # Supervision of links, clocks, lanes and memory (R12, R14, R26, R29 to R33) -/

theorem bit_setBit_same (v i : Nat) : bit (setBit v i true) i = true := by
  have pos : 0 < 2 ^ i := Nat.two_pow_pos i
  unfold setBit
  by_cases h : bit v i = true
  · rw [if_pos h]
    exact h
  · rw [if_neg h, if_pos rfl]
    simp only [bit, decide_eq_true_eq] at h ⊢
    rw [Nat.add_div_right _ pos]
    omega

/-- A Halt cause that is made due stands in the causes of the next boundary. -/
theorem State.haltCause_new (k : Nat) (s : State) : bit (s.haltCause k).mode.haltNew k = true := bit_setBit_same ..

theorem State.link_onLink {s : State} {k : Nat} (h : k < s.links.length) (f : Link → Link) :
    nth (s.onLink k f).links k = f (nth s.links k) := nth_modify_same h f

theorem execHeartbeatFlit_hears {s : State} {k : Nat} (h : k < s.links.length) (up : (nth s.links k).failed = false) (t : Nat) :
    Answers (fun u => (nth u.links k).lastFlit = max s.now t) (execHeartbeatFlit t k s) := by
  unfold execHeartbeatFlit
  extract_lets ticked
  rw [if_neg (by simp [ticked, up])]
  exact .next (congrArg Link.lastFlit (State.link_onLink (s := ticked) h _))

theorem execFlitCheckFail_retries {s : State} {k : Nat} (h : k < s.links.length) (up : (nth s.links k).failed = false) (t : Nat) :
    Answers (fun u => (nth u.links k).retry = inc32 (nth s.links k).retry) (execFlitCheckFail t k true s) := by
  unfold execFlitCheckFail
  extract_lets ticked
  rw [if_neg (by simp [ticked, up])]
  exact .next (congrArg Link.retry (State.link_onLink (s := ticked) h _))

theorem execDieLinkFault_fails {s : State} {t k : Nat} (die : k < 3) (h : k < s.links.length)
    (up : (nth s.links k).failed = false) (silent : (nth s.links k).lastFlit + 1600 ≤ t) (d : Nat) :
    Answers (fun u => (nth u.links k).failed = true) (execDieLinkFault t k 0 d s) := by
  unfold execDieLinkFault
  extract_lets ticked l due s1
  have isDue : due = true := decide_eq_true (Nat.le_trans silent (Nat.le_max_right ..))
  rw [if_neg (by simp [l, ticked, up, isDue, Nat.not_le.mpr die])]
  have links (x : State) : (x.linkReact k).links = x.links := (State.linkReact_keeps k x).get .links rfl
  exact .next (by rw [links, State.raise_links, State.link_onLink (s := ticked) h])

/-- A mode that is entered is the mode. -/
theorem State.setMode_mode (m cause : Nat) (s : State) : (s.setMode m cause).mode.mode = m := by
  unfold State.setMode
  by_cases same : s.mode.mode = m
  · rw [if_pos same]
    exact same
  rw [if_neg same]
  extract_lets was mode s1 s2
  have told : s2.mode.mode = m := congrArg ModeSt.mode (State.raise_mode ..)
  split
  · exact (congrArg ModeSt.mode ((State.beginFlush_keeps s2).get .mode rfl)).trans told
  · exact told

/-- The motion die is held in reset: no Stage runs and its clock's fault stands as it was. -/
theorem State.holdMotion_clk (s : State) : s.holdMotion.clk = { s.clk with motionHeld := true } := by
  unfold State.holdMotion
  extract_lets +onlyGivenNames clk stage disp twin s1
  have gates : Keeps (allBut [.clk]) s1 (eachIx 12 (fun a x => x.gatesOff a (8 * x.now)) s1) :=
    .eachIx (fun _ _ h => h.onto _ rfl (State.gatesOff_keeps ..)) (.refl _ s1)
  exact (gates.onto _ rfl (State.dropChan_keeps false _)).get .clk rfl

theorem State.clockFault_clk (s : State) : s.clockFault.clk = { s.clk with motionHeld := true } := by
  unfold State.clockFault
  extract_lets +onlyGivenNames mode s1
  have dropped : (s1.dropChan true).clk = s.clk := (State.dropChan_keeps true s1).get .clk rfl
  have entered : ((s1.dropChan true).holdMotion.setMode 6 2).clk = (s1.dropChan true).holdMotion.clk :=
    (State.setMode_keeps 6 2 _).get .clk rfl
  rw [entered, State.holdMotion_clk, dropped]

theorem State.clockFault_mode (s : State) : s.clockFault.mode.mode = 6 := by
  unfold State.clockFault
  rw [State.setMode_mode]

theorem execEdgeClockCheck_faults {s : State} {khz : Nat} (good : s.clk.edgeFault = false) (up : s.clk.motionHeld = false)
    (off : khz < 388000 ∨ 412000 < khz) (t : Nat) :
    Answers (fun u => u.clk.edgeFault = true ∧ u.clk.motionHeld = true ∧ u.mode.mode = 6) (execEdgeClockCheck t khz s) := by
  unfold execEdgeClockCheck
  extract_lets ticked
  rw [if_neg (by simp [ticked, good, up]; omega)]
  exact .next ⟨by simp [State.clockFault_clk], by simp [State.clockFault_clk], State.clockFault_mode _⟩

theorem execPllLossOfLock_faults {s : State} (good : s.clk.edgeFault = false) (t : Nat) :
    Answers (fun u => u.clk.edgeFault = true ∧ u.clk.motionHeld = true ∧ u.mode.mode = 6) (execPllLossOfLock t s) := by
  unfold execPllLossOfLock
  extract_lets ticked
  rw [if_neg (by simp [ticked, good])]
  exact .next ⟨by simp [State.clockFault_clk], by simp [State.clockFault_clk], State.clockFault_mode _⟩

theorem execRtcCheck_faults {s : State} {mhz : Nat} (good : s.clk.rtcFault = false) (off : mhz < 31129600 ∨ 34406400 < mhz)
    (t : Nat) : Answers (fun u => u.clk.rtcFault = true) (execRtcCheck t mhz s) := by
  unfold execRtcCheck
  extract_lets ticked bad s1 clk s2
  have isBad : bad = true := by simpa [bad] using off
  rw [if_neg (by simp [isBad, ticked, good]), if_pos isBad]
  exact .next (by rw [State.raise_clk]; exact isBad)

theorem execLockstepMismatch_stops {s : State} {l : Nat} (lane : l < 2) (two : s.clk.laneStopped.length = 2)
    (runs : s.clk.laneStopped.getD l false = false) (t : Nat) :
    Answers (fun u => u.clk.laneStopped.getD l false = true ∧ bit u.mode.haltNew 2 = true) (execLockstepMismatch t l s) := by
  unfold execLockstepMismatch
  extract_lets ticked _ s1
  rw [if_neg (by simpa [ticked, Nat.not_le.mpr lane] using runs)]
  refine .next ⟨?_, State.haltCause_new ..⟩
  have dropped (x : State) : (x.dropChan false).clk = x.clk := (State.dropChan_keeps false x).get .clk rfl
  rw [State.haltCause_clk, dropped, State.raise_clk]
  have : l < ticked.clk.laneStopped.length := two ▸ lane
  simp [s1, List.getD_eq_getElem?_getD, this]

theorem execMemoryEcc_double (t a : Nat) (s : State) :
    Answers (fun u => u.clk.eccDouble = inc32 s.clk.eccDouble ∧ bit u.mode.haltNew 2 = true) (execMemoryEcc t a true s) := by
  unfold execMemoryEcc
  extract_lets +onlyGivenNames ticked
  rw [if_pos rfl]
  extract_lets clk s1
  refine .next ⟨?_, State.haltCause_new ..⟩
  have dropped (x : State) : (x.dropChan false).clk = x.clk := (State.dropChan_keeps false x).get .clk rfl
  rw [State.haltCause_clk, dropped, State.raise_clk]
  rfl

theorem execMemoryEcc_corrected (t a : Nat) (s : State) :
    Answers (fun u => u.clk.eccCorrected = inc32 s.clk.eccCorrected) (execMemoryEcc t a false s) := by
  unfold execMemoryEcc
  extract_lets +onlyGivenNames ticked
  rw [if_neg (by simp)]
  exact .next (by simp [ticked])

/-- Settles O15: each fault latches its own state, and what follows it leaves that state alone. -/
theorem supervision : Obligations.Supervision :=
  ⟨fun _ t _ h up => execHeartbeatFlit_hears h up t, fun _ t _ h up => execFlitCheckFail_retries h up t,
    fun _ _ _ d die h up silent => execDieLinkFault_fails die h up silent d,
    fun _ t _ good up off => execEdgeClockCheck_faults good up off t, fun _ t good => execPllLossOfLock_faults good t,
    fun _ t _ good off => execRtcCheck_faults good off t, fun _ t _ lane two runs => execLockstepMismatch_stops lane two runs t,
    fun s t a => ⟨execMemoryEcc_double t a s, execMemoryEcc_corrected t a s⟩⟩

end Sys2Proof.Machine

namespace Sys2Proof.Machine

/-! # Feedback channels, discrete inputs and emulators -/

theorem Answers.and {P Q : State → Prop} {a : Answer} (h : Answers P a) (k : Answers Q a) : Answers (fun u => P u ∧ Q u) a := by
  obtain ⟨u, rfl, hP⟩ := h
  exact .next ⟨hP, k.of_next rfl⟩

/-! ## What stays of a channel -/

/-- What a reading of its members shows of a bank of the machine. -/
def viewed {α β : Type} (bank : State → List α) (g : α → β) (s : State) : List β := (bank s).map g

/-- What a fault and its count of errors leave of a channel. -/
def Fb.core (f : Fb) : Fb := { f with fault := false, cause := 0, valid := false, edgeErrs := [] }

/-- What counting leaves of a channel. -/
def Fb.apart (f : Fb) : Fb :=
  { f.core with count := 0, turns := 0, rem := 0, pos := 0, posTime := 0, neg := false, edges := [] }

namespace Fixes

variable {α β γ : Type} {bank : State → List α} {g : α → β} {s t u : State}

theorem view_of (e : bank t = bank s) : Fixes (viewed bank g) s t := ⟨congrArg (List.map g) e⟩

/-- After what leaves the reading, an operation that leaves the bank. -/
theorem view_still (h : Fixes (viewed bank g) s t) (e : bank u = bank t) : Fixes (viewed bank g) s u := h.trans (view_of e)

/-- An update of a member that leaves its reading. -/
theorem view_modify {i : Nat} {f : α → α} (e : bank t = (bank s).modify i f) (hf : ∀ x, g (f x) = g x) :
    Fixes (viewed bank g) s t :=
  ⟨(congrArg (List.map g) e).trans (List.map_modify_of_fixes hf _ i)⟩

theorem view_then {i : Nat} {f : α → α} (h : Fixes (viewed bank g) s t) (e : bank u = (bank t).modify i f)
    (hf : ∀ x, g (f x) = g x) : Fixes (viewed bank g) s u := h.trans (view_modify e hf)

theorem view_at [Inhabited α] (h : Fixes (viewed bank g) s t) (i : Nat) : g (nth (bank t) i) = g (nth (bank s) i) :=
  nth_map_congr h.eq i

theorem fb_at {g : Fb → β} (h : Fixes (viewed State.fb g) s t) (ch : Nat) : g (t.fbOf ch) = g (s.fbOf ch) := h.view_at ch

theorem view_length (h : Fixes (viewed bank g) s t) : (bank t).length = (bank s).length := by
  simpa [viewed] using congrArg List.length h.eq

theorem view_coarser (k : β → γ) (h : Fixes (viewed bank g) s t) : Fixes (viewed bank fun x => k (g x)) s t := by
  have := congrArg (List.map k) h.eq
  simp only [viewed, List.map_map] at this
  exact ⟨this⟩

end Fixes

theorem State.fbFault_core (ch cause : Nat) (detail : Int) (s : State) :
    Fixes (viewed State.fb Fb.core) s (s.fbFault ch cause detail) := by
  rw [State.fbFault_eq]
  refine .ite (.refl s) (.view_still (.view_still ?_ (State.raise_fb ..)) ((State.faultUsers_keeps ch _).get .fb rfl))
  exact .view_modify rfl fun _ => rfl

/-- A channel is faulted after a fault, whether it was before or not. -/
theorem State.fbFault_fault {s : State} {ch : Nat} (h : ch < s.fb.length) (cause : Nat) (detail : Int) :
    ((s.fbFault ch cause detail).fbOf ch).fault = true := by
  by_cases was : (s.fbOf ch).fault = true
  · rw [State.fbFault_eq, if_pos was]
    exact was
  · exact (State.fbFault_latches h (by simpa using was) cause detail).1

theorem State.edgeError_core (ch : Nat) (s : State) : Fixes (viewed State.fb Fb.core) s (s.edgeError ch) := by
  unfold State.edgeError
  extract_lets counted
  have h : Fixes (viewed State.fb Fb.core) s counted := .view_modify rfl fun _ => rfl
  exact .ite (h.trans (State.fbFault_core ..)) h

/-- Counting updates the counts of the channel, and what follows it, a fault among it, leaves them (R147). -/
theorem State.moveCount_onFb (ch : Nat) (dc : Int) (s : State) :
    ∃ f : Fb → Fb, (∀ x, (f x).apart = x.apart ∧ (f x).count = (((s.fbOf ch).count + dc) % (s.cpr ch : Int)).toNat) ∧
      Fixes (viewed State.fb Fb.core) (s.onFb ch f) (s.moveCount ch dc) := by
  unfold State.moveCount
  extract_lets f cpr c turns y dy p moved checked
  refine ⟨_, fun x => ⟨?_, ?_⟩, show Fixes (viewed State.fb Fb.core) moved _ from ?_⟩
  rotate_left 2
  · have hc : checked.fb = moved.fb := by
      unfold checked
      split
      · rfl
      · extract_lets stepped
        have hs : stepped.fb = moved.fb := by
          unfold stepped
          split
          · exact State.axisSaturated_fb ..
          · rfl
        split
        · exact (State.axisSaturated_fb ..).trans hs
        · exact hs
    exact .ite (.trans (.view_still (.view_of hc) (State.raise_fb ..)) (State.fbFault_core ..)) (.view_of hc)
  · rfl
  · rfl

theorem State.moveCount_apart (ch : Nat) (dc : Int) (s : State) : Fixes (viewed State.fb Fb.apart) s (s.moveCount ch dc) := by
  obtain ⟨f, hf, rest⟩ := State.moveCount_onFb ch dc s
  exact (Fixes.view_modify rfl fun x => (hf x).1).trans (rest.view_coarser Fb.apart)

theorem State.moveCount_count {s : State} {ch : Nat} (h : ch < s.fb.length) (dc : Int) :
    ((s.moveCount ch dc).fbOf ch).count = (((s.fbOf ch).count + dc) % (s.cpr ch : Int)).toNat := by
  obtain ⟨f, hf, rest⟩ := State.moveCount_onFb ch dc s
  have moved := congrArg Fb.count (State.fbOf_onFb h f)
  exact (congrArg Fb.count (rest.fb_at ch)).trans (moved.trans (hf _).2)

theorem State.countIn_apart (ch : Nat) (dc : Int) (t : Nat) (s : State) :
    Fixes (viewed State.fb Fb.apart) s (s.countIn ch dc t) :=
  .ite (.refl s) ((State.moveCount_apart ch dc s).view_then rfl fun _ => rfl)

theorem State.countIn_count {s : State} {ch : Nat} (h : ch < s.fb.length) (clear : (s.fbOf ch).fault = false) (dc : Int)
    (t : Nat) : ((s.countIn ch dc t).fbOf ch).count = (((s.fbOf ch).count + dc) % (s.cpr ch : Int)).toNat := by
  unfold State.countIn
  extract_lets f
  rw [if_neg (by simp [f, clear]), State.fbOf_onFb ((State.moveCount_apart ch dc s).view_length.symm ▸ h)]
  exact State.moveCount_count h dc

/-! ## Quadrature (R143, R144) -/

theorem State.confirmLine_skips (t ch line : Nat) (s : State) : Fixes (viewed State.fb Fb.skips) s (s.confirmLine t ch line) := by
  unfold State.confirmLine
  split
  · exact .refl s
  · extract_lets taken directed
    have h : Fixes (viewed State.fb Fb.skips) s taken := .view_modify rfl fun _ => rfl
    have hd : Fixes (viewed State.fb Fb.skips) s directed := h.view_then rfl fun _ => rfl
    exact .ite (h.view_then rfl fun _ => rfl) (.ite (hd.trans ((State.countIn_apart ..).view_coarser Fb.skips)) hd)

theorem State.confirmDue_skips (t ch : Nat) (s : State) : Fixes (viewed State.fb Fb.skips) s (s.confirmDue t ch) :=
  .foldl (fun x line => State.confirmLine_skips t ch line x) _ s

theorem State.lineChange_skips (t ch line : Nat) (d : Int) (level : Bool) (s : State) :
    Fixes (viewed State.fb Fb.skips) s (s.lineChange t ch line d level) := by
  unfold State.lineChange
  extract_lets f
  split
  · extract_lets paired
    have hp : Fixes (viewed State.fb Fb.skips) s paired := .view_modify rfl fun _ => rfl
    exact (hp.view_still (State.raise_fb ..)).trans ((State.edgeError_core ..).view_coarser Fb.skips)
  · exact .view_modify rfl fun _ => rfl

theorem State.quadSkip_skips {s : State} {ch : Nat} (h : ch < s.fb.length) (t : Nat) :
    ((s.quadSkip t ch).fbOf ch).skips = inc32 (s.fbOf ch).skips := by
  unfold State.quadSkip
  extract_lets skipped
  have hs : (skipped.fbOf ch).skips = inc32 (s.fbOf ch).skips := congrArg Fb.skips (State.fbOf_onFb h _)
  have rest : Fixes (viewed State.fb Fb.core) skipped ((skipped.raise 0x02 (le 1 ch ++ le 1 0 ++ le 8 t)).edgeError ch) :=
    .trans (.view_of (State.raise_fb ..)) (State.edgeError_core ..)
  exact (congrArg Fb.skips (rest.fb_at ch)).trans hs

theorem State.quadSkip_regStill (ch t : Nat) (s : State) : RegMoves ch 0 s (s.quadSkip t ch) := by
  unfold State.quadSkip
  extract_lets skipped
  have h : RegMoves ch 0 s skipped := .onFb_still fun _ => rfl
  exact (h.still (State.raise_regStill ..)).still (State.edgeError_regStill ..)

section
variable {s : State} {ch : Nat} (h : ch < s.fb.length) (on : s.fbOff = false) (free : s.clk.motionHeld = false)
  (kind : s.nat FB.kind ch = 1 ∨ s.nat FB.kind ch = 2)

include on free kind in
/-- A channel of kind 1 or 2 counts, unless it is off or held. -/
theorem State.counts_tick (t : Nat) : ((s.tick t).fbOff || (s.tick t).clk.motionHeld ||
    !((s.tick t).nat FB.kind ch == 1 || (s.tick t).nat FB.kind ch == 2)) = false := by
  have kind' : (s.tick t).nat FB.kind ch = 1 ∨ (s.tick t).nat FB.kind ch = 2 := kind
  simpa [show (s.tick t).fbOff = false from on, free] using kind'.resolve_left

theorem State.confirmDue_channels (t : Nat) : ((s.tick t).confirmDue t ch).fb.length = s.fb.length :=
  (State.confirmDue_skips t ch (s.tick t)).view_length

include h in
/-- The levels are held (R143). -/
theorem execQuadTransition_levels (t : Nat) (a b z : Bool) :
    Answers (fun u => (u.fbOf ch).a = a ∧ (u.fbOf ch).b = b ∧ (u.fbOf ch).z = z) (execQuadTransition t ch a b z s) := by
  unfold execQuadTransition
  extract_lets ticked f due changed next
  have hdue : Fixes (viewed State.fb Fb.skips) ticked due := State.confirmDue_skips ..
  have length : next.fb.length = s.fb.length := by
    have quad : (due.quadSkip t ch).fb.length = due.fb.length := (State.quadSkip_regStill ch t due).channels
    have line (x : State) (l : Nat) (d : Int) (v : Bool) : (x.lineChange t ch l d v).fb.length = x.fb.length :=
      (State.lineChange_skips t ch l d v x).view_length
    have hchanged : changed.fb.length = s.fb.length := by
      have unmoved : due.fb.length = s.fb.length := hdue.view_length
      unfold changed
      split
      · exact quad.trans unmoved
      · split
        · exact (line ..).trans unmoved
        · split
          · exact (line ..).trans unmoved
          · exact unmoved
    unfold next
    split
    · rfl
    · split
      · exact (line ..).trans hchanged
      · exact hchanged
  exact .next (by rw [State.fbOf_onFb (length ▸ h)]; exact ⟨rfl, rfl, rfl⟩)

include h on free kind in
/-- A change of both lines, or of none, moves no count; of both it is a skip (R144). -/
theorem execQuadTransition_still (t : Nat) (a b z : Bool) (even : (s.fbOf ch).a = a ↔ (s.fbOf ch).b = b) :
    Answers (fun u => (u.fbOf ch).reg = (s.fbOf ch).reg ∧
      ((s.fbOf ch).a ≠ a → (u.fbOf ch).skips = inc32 (s.fbOf ch).skips)) (execQuadTransition t ch a b z s) := by
  unfold execQuadTransition
  extract_lets ticked f due changed next
  have hdue : RegMoves ch 0 s due := .after (State.confirmDue_regStill t ch ticked) (.of_fb rfl)
  have dueSkips : (due.fbOf ch).skips = (s.fbOf ch).skips := (State.confirmDue_skips t ch ticked).fb_at ch
  have inDue : ch < due.fb.length := hdue.channels ▸ h
  have hchanged : RegMoves ch 0 s changed ∧ (f.a ≠ a → (changed.fbOf ch).skips = inc32 (s.fbOf ch).skips) := by
    unfold changed
    by_cases hA : f.a = a
    · have hB : f.b = b := even.mp hA
      rw [if_neg (fun both => both.1 hA), if_neg (fun k => k hA), if_neg (fun k => k hB)]
      exact ⟨hdue, fun k => absurd hA k⟩
    · rw [if_pos ⟨hA, fun k => hA (even.mpr k)⟩]
      exact ⟨hdue.still (State.quadSkip_regStill ..), fun _ => by rw [State.quadSkip_skips inDue, dueSkips]⟩
  have hnext : RegMoves ch 0 changed next ∧ Fixes (viewed State.fb Fb.skips) changed next := by
    unfold next
    rw [State.counts_tick on free kind t, if_neg Bool.false_ne_true]
    exact ⟨.ite (State.lineChange_regMoves (hchanged.1.channels ▸ h) ..) (.refl _), .ite (State.lineChange_skips ..) (.refl _)⟩
  refine .next ⟨?_, fun ne => ?_⟩
  · have := ((hchanged.1.still hnext.1).still (RegMoves.onFb_still (f := fun f => { f with a := a, b := b, z := z }) fun _ => rfl)).reg
    simpa using this
  · have rest := hnext.2.view_then (u := next.onFb ch fun f => { f with a := a, b := b, z := z }) rfl fun _ => rfl
    exact (rest.fb_at ch).trans (hchanged.2 ne)

end

/-- A change of one line is a step up the sequence or down it. -/
theorem quadStep_of_a : ∀ {a b a' : Bool}, a ≠ a' → quadStep a b a' b = if b = a then 1 else -1 := by decide

theorem quadStep_of_b : ∀ {a b b' : Bool}, b ≠ b' → quadStep a b a b' = if b = a then -1 else 1 := by decide

theorem execQuadTransition_counts {s : State} {ch : Nat} (h : ch < s.fb.length) (on : s.fbOff = false)
    (free : s.clk.motionHeld = false) (kind : s.nat FB.kind ch = 1 ∨ s.nat FB.kind ch = 2) (t : Nat) (a b z : Bool) :
    Answers (fun u => ((s.fbOf ch).a ≠ a → (s.fbOf ch).b = b →
         (u.fbOf ch).reg = (s.fbOf ch).reg + (if (s.fbOf ch).b = (s.fbOf ch).a then 1 else -1)) ∧
       ((s.fbOf ch).a = a → (s.fbOf ch).b ≠ b →
         (u.fbOf ch).reg = (s.fbOf ch).reg + (if (s.fbOf ch).b = (s.fbOf ch).a then -1 else 1)) ∧
       ((s.fbOf ch).a ≠ a → (s.fbOf ch).b ≠ b →
         (u.fbOf ch).reg = (s.fbOf ch).reg ∧ (u.fbOf ch).skips = inc32 (s.fbOf ch).skips) ∧
       ((s.fbOf ch).a = a → (s.fbOf ch).b = b → (u.fbOf ch).reg = (s.fbOf ch).reg)) (execQuadTransition t ch a b z s) := by
  by_cases hA : (s.fbOf ch).a = a <;> by_cases hB : (s.fbOf ch).b = b
  · refine (execQuadTransition_still h on free kind t a b z (by simp [hA, hB])).mono fun u hu => ?_
    exact ⟨fun k => absurd hA k, fun _ k => absurd hB k, fun k => absurd hA k, fun _ _ => hu.1⟩
  · refine (execQuadTransition_regMoves h on free kind t a b z (by simp [hA, hB])).mono fun u hu => ?_
    refine ⟨fun k => absurd hA k, fun _ _ => ?_, fun k => absurd hA k, fun _ k => absurd k hB⟩
    rw [hu.reg, ← hA, quadStep_of_b hB]
  · refine (execQuadTransition_regMoves h on free kind t a b z (by simp [hA, hB])).mono fun u hu => ?_
    refine ⟨fun _ _ => ?_, fun k => absurd k hA, fun _ k => absurd hB k, fun k => absurd k hA⟩
    rw [hu.reg, ← hB, quadStep_of_a hA]
  · refine (execQuadTransition_still h on free kind t a b z (by simp [hA, hB])).mono fun u hu => ?_
    exact ⟨fun _ k => absurd k hB, fun k => absurd k hA, fun _ _ => ⟨hu.1, hu.2 hA⟩, fun k => absurd k hA⟩

/-! ## Confirmed transitions and the index (R140, R144, R151, R152) -/

/-- The only pending edge, once it has stood, is confirmed. -/
theorem State.confirmLine_only {s : State} {t ch : Nat} {e : RawEdge} (pending : (s.fbOf ch).pendingEdges = [e])
    (stood : e.t + s.nat FB.min_edge ch ≤ t) :
    (s.fbOf ch).pendingEdges.find? (fun x => x.line == e.line && x.t + s.nat FB.min_edge ch ≤ t) = some e := by
  rw [pending]
  simp [stood]

theorem execQuadConfirm_confirms {s : State} {t ch : Nat} {e : RawEdge} (h : ch < s.fb.length) (free : s.clk.motionHeld = false)
    (kind : s.nat FB.kind ch = 1) (clear : (s.fbOf ch).fault = false) (pending : (s.fbOf ch).pendingEdges = [e])
    (stood : e.t + s.nat FB.min_edge ch ≤ t) :
    Answers (fun u => (u.fbOf ch).pendingEdges = [] ∧
      (e.line = 2 → (u.fbOf ch).zEdge = some { e with
          step := (s.fbOf ch).lastRawDir, x := (s.fbOf ch).count, p := (s.fbOf ch).pos } ∧
        (u.fbOf ch).count = (s.fbOf ch).count) ∧
      (e.line ≠ 2 → (e.step = 1 ∨ e.step = -1) → (s.fbOf ch).count < s.cpr ch →
        ((u.fbOf ch).count : Int) = ((s.fbOf ch).count + e.step * s.dirOf ch) % (s.cpr ch : Int)))
      (execQuadConfirm t ch e.line s) := by
  unfold execQuadConfirm
  extract_lets ticked
  rw [if_neg (by simp [ticked, free])]
  unfold State.confirmLine
  rw [State.confirmLine_only (s := ticked) pending stood]
  dsimp -zeta only
  extract_lets taken directed
  have inTaken : ch < taken.fb.length := by simpa [taken, ticked] using h
  have hTaken : taken.fbOf ch = { s.fbOf ch with pendingEdges := [] } := by
    have : (ticked.fbOf ch).pendingEdges = [e] := pending
    rw [State.fbOf_onFb (s := ticked) h, this]
    simp [ticked, State.fbOf]
  by_cases z : e.line = 2
  · rw [if_pos z]
    refine .next ?_
    rw [State.fbOf_onFb inTaken, hTaken, if_neg (show ¬ taken.nat FB.kind ch = 2 from by rw [show taken.nat FB.kind ch = 1 from kind]; decide)]
    exact ⟨rfl, fun _ => ⟨rfl, rfl⟩, fun ne => absurd z ne⟩
  · rw [if_neg z, if_pos (show directed.nat FB.kind ch = 1 from kind)]
    have inDirected : ch < directed.fb.length := by simpa [directed] using inTaken
    have hDirected : directed.fbOf ch = { s.fbOf ch with pendingEdges := [], lastRawDir := e.step } := by
      rw [State.fbOf_onFb inTaken, hTaken]
    refine .next ⟨?_, fun k => absurd k z, fun _ _ below => ?_⟩
    · have rest := (State.countIn_apart ch (e.step * directed.dirOf ch) e.t directed).fb_at ch
      exact (congrArg Fb.pendingEdges rest).trans (congrArg Fb.pendingEdges hDirected)
    · have count := State.countIn_count inDirected (by rw [hDirected]; exact clear) (e.step * directed.dirOf ch) e.t
      rw [count, hDirected]
      have base : (s.cpr ch : Int) ≠ 0 := by omega
      exact Int.toNat_of_nonneg (Int.emod_nonneg _ base)

theorem State.confirmDue_idle {s : State} {ch : Nat} (idle : (s.fbOf ch).pendingEdges = []) (t : Nat) : s.confirmDue t ch = s := by
  unfold State.confirmDue
  rw [idle]
  rfl

/-- An index instant holds the reference; what follows it leaves that and the latched edge (R151). -/
theorem State.indexAt_holds {s : State} {ch : Nat} (h : ch < s.fb.length) (e : RawEdge) :
    ((s.indexAt ch e).fbOf ch).indexRef = some (e.t, e.p, e.x) ∧ ((s.indexAt ch e).fbOf ch).zEdge = (s.fbOf ch).zEdge ∧
      ((s.fbOf ch).indexSeen = false → ((s.indexAt ch e).fbOf ch).ref = e.x ∧ ((s.indexAt ch e).fbOf ch).indexSeen = true) := by
  unfold State.indexAt
  extract_lets f held d measured near far told
  have hHeld : held.fbOf ch = { s.fbOf ch with indexRef := some (e.t, e.p, e.x) } := State.fbOf_onFb h _
  have inHeld : ch < held.fb.length := by simpa [held] using h
  by_cases first : f.indexSeen = false
  · rw [if_pos (by simp [first]), State.fbOf_onFb inHeld, hHeld]
    exact ⟨rfl, rfl, fun _ => ⟨rfl, rfl⟩⟩
  · rw [if_neg (by simpa using first)]
    have hm : Fixes (viewed State.fb (fun f => (f.indexRef, f.zEdge))) held measured := .view_modify rfl fun _ => rfl
    have hNear : Fixes (viewed State.fb (fun f => (f.indexRef, f.zEdge))) held near := hm.view_then rfl fun _ => rfl
    have hFar : Fixes (viewed State.fb (fun f => (f.indexRef, f.zEdge))) held far := hm.view_then rfl fun _ => rfl
    have hTold : Fixes (viewed State.fb (fun f => (f.indexRef, f.zEdge))) held told := hFar.view_still (State.raise_fb far ..)
    have rest : Fixes (viewed State.fb (fun f => (f.indexRef, f.zEdge))) held
        (if d.natAbs ≤ held.nat FB.index_tol ch then
          if d ≠ 0 ∧ near.flag FB.flags 1 ch then
            (near.moveCount ch (-d)).onFb ch (fun f => { f with reg := f.reg - d, realigns := inc32 f.realigns })
          else near
        else if 2 ≤ f.mismatchRun + 1 then told.fbFault ch 2 d else told) :=
      .ite (.ite (.view_then (hNear.trans ((State.moveCount_apart ..).view_coarser fun f => (f.indexRef, f.zEdge))) rfl fun _ => rfl) hNear)
        (.ite (hTold.trans ((State.fbFault_core ..).view_coarser fun f => (f.indexRef, f.zEdge))) hTold)
    have view := rest.fb_at ch
    rw [hHeld] at view
    exact ⟨congrArg Prod.fst view, congrArg Prod.snd view, fun k => absurd k first⟩

theorem execIndexInstant_holds {s : State} {ch : Nat} {e : RawEdge} (h : ch < s.fb.length) (free : s.clk.motionHeld = false)
    (idle : (s.fbOf ch).pendingEdges = []) (edge : (s.fbOf ch).zEdge = some e) (uses : s.flag FB.flags 0 ch = true)
    (clear : (s.fbOf ch).fault = false) (instant : (e.level = true ∧ e.step = 1) ∨ (e.level = false ∧ e.step = -1)) (t : Nat) :
    Answers (fun u => (u.fbOf ch).indexRef = some (e.t, e.p, e.x) ∧ (u.fbOf ch).zEdge = none ∧
      ((s.fbOf ch).indexSeen = false → (u.fbOf ch).ref = e.x ∧ (u.fbOf ch).indexSeen = true)) (execIndexInstant t ch s) := by
  unfold execIndexInstant
  extract_lets ticked due f taken
  rw [if_neg (by simp [ticked, free])]
  have hdue : due = ticked := State.confirmDue_idle (s := ticked) idle t
  have hf : f = s.fbOf ch := by unfold f; rw [hdue]; rfl
  rw [hf, edge]
  dsimp only
  have channel : taken.fbOf ch = { s.fbOf ch with zEdge := none } := by
    unfold taken
    rw [hdue, State.fbOf_onFb (s := ticked) h]
    rfl
  have inTaken : ch < taken.fb.length := by simpa [taken, hdue, ticked] using h
  have flag : taken.flag FB.flags 0 ch = true := by
    unfold taken
    rw [hdue]
    exact uses
  have held := State.indexAt_holds inTaken e
  rw [channel] at held
  rw [if_pos (by simp [flag, clear, instant])]
  exact .next held

/-- Settles O17: a channel counts its transitions, confirms those that have stood, and holds its index. -/
theorem feedbackChannels : Obligations.FeedbackChannels := by
  refine ⟨fun s t ch a b z _ h on free kind => ?_, fun _ _ _ _ h free kind clear pending stood =>
    execQuadConfirm_confirms h free kind clear pending stood, fun _ t _ _ h free idle edge uses clear instant =>
    execIndexInstant_holds h free idle edge uses clear instant t⟩
  refine (((execQuadTransition_levels h t a b z).and (execQuadTransition_counts h on free kind t a b z)).and
    (execQuadTransition_onlyFb ch t a b z s)).mono fun u hu => ?_
  obtain ⟨⟨⟨hA, hB, hZ⟩, one, other, both, none⟩, others⟩ := hu
  exact ⟨hA, hB, hZ, one, other, both, none, fun j ne => others.others j ne⟩

/-! ## Sine/cosine samples (R154, R156) -/

theorem State.coarse_channels (ch theta : Nat) (d : Int) (s : State) :
    Fixes (viewed State.fb (fun _ => ())) s (s.coarse ch theta d).1 := by
  unfold State.coarse
  extract_lets f near fwd q stepped
  split
  · exact .refl s
  · split
    · split
      · exact .view_still (t := s.onFb ch _) (.view_modify rfl fun _ => rfl) (State.raise_fb ..)
      · exact (State.fbFault_core ..).view_coarser fun _ => ()
    · split
      · exact .refl s
      · have h : Fixes (viewed State.fb (fun _ => ())) s stepped := .view_modify rfl fun _ => rfl
        exact (h.view_still (State.raise_fb stepped ..)).trans ((State.edgeError_core ..).view_coarser fun _ => ())

theorem State.sinCosTake_inside {s : State} {ch : Nat} (h : ch < s.fb.length) {si co : Int} {t : Nat}
    (inside : s.inWindow ch (ampOf (s.sinCosVec ch si co)) = true) :
    ((s.sinCosTake t ch si co).fbOf ch).outRun = 0 ∧
      ((s.sinCosTake t ch si co).fbOf ch).amp = satU (ampOf (s.sinCosVec ch si co)) 32 := by
  unfold State.sinCosTake
  extract_lets f v m out told a64 theta quad l aligned q d0
  rw [if_neg (by simp [m, v, inside])]
  have hAligned : Fixes (viewed State.fb (fun _ => ())) s aligned := .ite (.refl s) (.view_modify rfl fun _ => rfl)
  split
  next stepped q' coarse =>
  have hStepped : Fixes (viewed State.fb (fun _ => ())) s stepped := by
    have := hAligned.trans (State.coarse_channels ch theta (if d0 = 3 then -1 else d0) aligned)
    rwa [coarse] at this
  split
  next df shifted fine =>
  have hShifted : Fixes (viewed State.fb (fun _ => ())) s shifted := by
    refine hStepped.view_still ?_
    have : Same stepped _ .fb := (State.fineShift_keeps a64 l stepped).get .fb rfl
    rwa [fine] at this
  extract_lets p taken counted
  have hTaken : (taken.fbOf ch).outRun = 0 ∧ (taken.fbOf ch).amp = satU m 32 := by
    rw [State.fbOf_onFb (hShifted.view_length.symm ▸ h)]
    exact ⟨rfl, rfl⟩
  have rest : Fixes (viewed State.fb (fun f => (f.outRun, f.amp))) taken (if f.qAligned = true then
      counted.onFb ch (fun f => { f with posTime := if f.fault then f.posTime else t })
    else taken.onFb ch (fun f => { f with posTime := t })) :=
    .ite (.view_then ((State.countIn_apart ..).view_coarser fun f => (f.outRun, f.amp)) rfl fun _ => rfl) (.view_modify rfl fun _ => rfl)
  have outRun := congrArg Prod.fst (rest.fb_at ch)
  have amp := congrArg Prod.snd (rest.fb_at ch)
  exact ⟨outRun.trans hTaken.1, amp.trans hTaken.2⟩

theorem State.sinCosTake_outside {s : State} {ch : Nat} (h : ch < s.fb.length) {si co : Int} {t : Nat}
    (outside : s.inWindow ch (ampOf (s.sinCosVec ch si co)) = false) :
    ((s.sinCosTake t ch si co).fbOf ch).outRun = (s.fbOf ch).outRun + 1 ∧
      (s.nat FB.amp_samples ch ≤ (s.fbOf ch).outRun + 1 → ((s.sinCosTake t ch si co).fbOf ch).fault = true) := by
  unfold State.sinCosTake
  extract_lets f v m out told
  rw [if_pos (by simp [m, v, outside])]
  have hOut : (out.fbOf ch).outRun = (s.fbOf ch).outRun + 1 := congrArg Fb.outRun (State.fbOf_onFb h _)
  have hTold : Fixes (viewed State.fb (fun f => f.outRun)) out told := .ite (.view_of (State.raise_fb ..)) (.refl out)
  have inTold : ch < told.fb.length := hTold.view_length.symm ▸ (by simpa [out] using h)
  have limit : told.nat FB.amp_samples ch = s.nat FB.amp_samples ch := by
    have cfg : told.cfg = out.cfg := by unfold told; split <;> simp
    unfold State.nat State.int
    rw [cfg]
    rfl
  by_cases long : s.nat FB.amp_samples ch ≤ f.outRun + 1
  · rw [if_pos (limit.symm ▸ long)]
    have rest := ((State.fbFault_core ch 3 (satU m 31) told).view_coarser Fb.outRun).fb_at ch
    exact ⟨rest.trans ((hTold.fb_at ch).trans hOut), fun _ => State.fbFault_fault inTold ..⟩
  · rw [if_neg (limit.symm ▸ long)]
    exact ⟨(hTold.fb_at ch).trans hOut, fun k => absurd k long⟩

theorem execSincosSample_judges {s : State} {ch : Nat} (channel : ch < 16) (h : ch < s.fb.length) (on : s.fbOff = false)
    (free : s.clk.motionHeld = false) (kind : s.nat FB.kind ch = 2) (t : Nat) (si co : Int) :
    Answers (fun u =>
      let m := ampOf (s.sinCosVec ch (trimCode (nth s.scTrims ch).1 si) (trimCode (nth s.scTrims ch).2 co))
      (s.inWindow ch m = true → (u.fbOf ch).outRun = 0 ∧ (u.fbOf ch).amp = satU m 32) ∧
      (s.inWindow ch m = false → (u.fbOf ch).outRun = (s.fbOf ch).outRun + 1 ∧
        (s.nat FB.amp_samples ch ≤ (s.fbOf ch).outRun + 1 → (u.fbOf ch).fault = true))) (execSincosSample t ch si co s) := by
  unfold execSincosSample
  extract_lets m ticked tr si' co'
  have on' : ticked.fbOff = false := on
  have kind' : ticked.nat FB.kind ch = 2 := kind
  rw [if_neg (by simp [ticked, free]), if_neg (by simp [Nat.not_le.mpr channel, kind', on'])]
  have kept : ((ticked.sinCosTake ticked.now ch si' co').scSample ch si' co').fbOf ch =
      (ticked.sinCosTake ticked.now ch si' co').fbOf ch :=
    State.fbOf_of_fb ((State.scSample_keeps ch si' co' (ticked.sinCosTake ticked.now ch si' co')).get .fb rfl) ch
  refine .next ⟨fun inside => ?_, fun outside => ?_⟩
  · rw [kept]
    exact State.sinCosTake_inside (s := ticked) h inside
  · rw [kept]
    exact State.sinCosTake_outside (s := ticked) h outside

/-! ## SSI frames (R159, R161 to R164) -/

theorem execSsiFrameStart_starts {s : State} {t ch : Nat} (h : ch < s.fb.length) (kind : s.nat FB.kind ch = 3)
    (on : s.fbOff = false) (running : s.stage.running = true) (latch : t + s.ssiLatch ch = s.nextBoundary) :
    Answers (fun u => (u.fbOf ch).ssiStart = some t) (execSsiFrameStart t ch s) := by
  unfold execSsiFrameStart
  extract_lets ticked
  have latch' : t + ticked.ssiLatch ch = ticked.nextBoundary := latch
  have kind' : ticked.nat FB.kind ch = 3 := kind
  have on' : ticked.fbOff = false := on
  rw [if_pos ⟨kind', by simp [on'], running, latch'⟩]
  exact .next (congrArg Fb.ssiStart (State.fbOf_onFb (s := ticked) h _))

theorem execSsiWord_judges {s : State} {ch word t0 : Nat} {low high : Bool} (h : ch < s.fb.length)
    (free : s.clk.motionHeld = false) (began : (s.fbOf ch).ssiStart = some t0) (t : Nat) :
    Answers (fun u => (u.fbOf ch).ssiStart = none ∧
      (s.ssiCheck ch word low high = 0 → (s.fbOf ch).fault = false →
        (u.fbOf ch).ssiLast = some (s.ssiPosition ch word) ∧ (u.fbOf ch).ssiRejects = 0) ∧
      (s.ssiCheck ch word low high ≠ 0 →
        (u.fbOf ch).ssiLast = (s.fbOf ch).ssiLast ∧ (u.fbOf ch).ssiRejects = (s.fbOf ch).ssiRejects + 1 ∧
        (3 ≤ (s.fbOf ch).ssiRejects + 1 → (u.fbOf ch).fault = true))) (execSsiWord t ch word low high s) := by
  unfold execSsiWord
  extract_lets ticked f
  rw [if_neg (by simp [ticked, free])]
  split
  next none => exact absurd (none.symm.trans began) (by simp)
  next taken cause rejected told w inc _ t1 _ =>
  extract_lets latch accepted counted
  have hTaken : taken.fbOf ch = { s.fbOf ch with ssiStart := none } := State.fbOf_onFb (s := ticked) h _
  have inTaken : ch < taken.fb.length := by simpa [taken, ticked] using h
  have check : cause = s.ssiCheck ch word low high := by
    unfold cause State.ssiCheck
    rw [hTaken]
    rfl
  by_cases good : cause = 0
  · rw [if_neg (by simpa using good)]
    have notBad : ¬ s.ssiCheck ch word low high ≠ 0 := fun bad => bad (check ▸ good)
    by_cases faulted : f.fault = true
    · rw [if_pos faulted]
      refine .next ⟨?_, fun _ clear => absurd (faulted.symm.trans clear) (by simp), fun bad => absurd bad notBad⟩
      rw [State.fbOf_onFb inTaken, hTaken]
    · rw [if_neg faulted]
      have view : Fixes (viewed State.fb (fun f => (f.ssiStart, f.ssiLast, f.ssiRejects))) accepted
          (counted.onFb ch fun g => { g with
            valid := !g.fault, posTime := if g.fault then g.posTime else latch
            edges := if f.ssiLast.isNone then [] else g.edges }) :=
        .view_then ((State.countIn_apart ..).view_coarser fun f => (f.ssiStart, f.ssiLast, f.ssiRejects)) rfl fun _ => rfl
      have hAccepted : accepted.fbOf ch = { s.fbOf ch with
          ssiStart := none, ssiRejects := 0, ssiLast := some w, ssiLatchTime := latch } := by
        rw [State.fbOf_onFb inTaken, hTaken]
      have fields := view.fb_at ch
      rw [hAccepted] at fields
      simp only [Prod.mk.injEq] at fields
      exact .next ⟨fields.1, fun _ _ => ⟨fields.2.1, fields.2.2⟩, fun bad => absurd bad notBad⟩
  · rw [if_pos good]
    have hRejected : rejected.fbOf ch = { s.fbOf ch with ssiStart := none, ssiRejects := (s.fbOf ch).ssiRejects + 1 } := by
      rw [State.fbOf_onFb inTaken, hTaken]
    have hTold : told.fbOf ch = rejected.fbOf ch := State.fbOf_of_fb (State.raise_fb ..) ch
    have inTold : ch < told.fb.length := by simpa [told, rejected] using inTaken
    have notGood : ¬ s.ssiCheck ch word low high = 0 := fun k => good (check.trans k)
    by_cases third : 3 ≤ f.ssiRejects + 1
    · rw [if_pos third]
      have kept := (State.fbFault_core ch 5 0 told).fb_at ch
      rw [hTold, hRejected] at kept
      exact .next ⟨congrArg Fb.ssiStart kept, fun k => absurd k notGood,
        fun _ => ⟨(congrArg Fb.ssiLast kept :), (congrArg Fb.ssiRejects kept :), fun _ => State.fbFault_fault inTold ..⟩⟩
    · rw [if_neg third]
      refine .next ?_
      rw [hTold, hRejected]
      exact ⟨rfl, fun k => absurd k notGood, fun _ => ⟨rfl, rfl, fun k => absurd k third⟩⟩

/-- Sixteen measured intervals give the delay, or a fault (R162). -/
theorem execSsiDelayMeasure_measures {s : State} {ch : Nat} {v : List Nat} (h : ch < s.fb.length)
    (free : s.clk.motionHeld = false) (kind : s.nat FB.kind ch = 3) (sixteen : v.length = 16) (t : Nat) :
    Answers (fun u =>
      let d := ((sortNat v).getD 7 0 + (sortNat v).getD 8 0 + 1) / 2
      (d ≤ 400 → (u.fbOf ch).ssiDelay = d) ∧ (400 < d → (u.fbOf ch).fault = true))
      (execSsiDelayMeasure t ch (v.map some) s) := by
  unfold execSsiDelayMeasure
  extract_lets d ticked wake measured sorted mean
  have kind' : ticked.nat FB.kind ch = 3 := kind
  have same : mean = d := by
    unfold mean d sorted
    rw [List.filterMap_map]
    simp
  rw [if_neg (by simp [ticked, free]), if_neg (by simp [kind']), if_neg (by simp [sixteen]), same]
  by_cases long : 400 < d
  · rw [if_pos long]
    have inTold (pl : List Octet) : ch < (measured.raise 0x07 pl).fb.length := by simpa [measured, ticked] using h
    exact .next ⟨fun k => absurd long (Nat.not_lt.mpr k), fun _ => State.fbFault_fault (inTold _) ..⟩
  · rw [if_neg long]
    exact .next ⟨fun _ => congrArg Fb.ssiDelay (State.fbOf_onFb (s := measured) h _), fun k => absurd k long⟩

/-- Settles O18: what a sample, a word or a measurement decides, what follows it leaves alone. -/
theorem analogueAndSerialChannels : Obligations.AnalogueAndSerialChannels :=
  ⟨fun _ t _ si co channel h on free kind => execSincosSample_judges channel h on free kind t si co,
    fun _ _ _ h kind on running latch => execSsiFrameStart_starts h kind on running latch,
    fun _ t _ _ _ _ _ h free began => execSsiWord_judges h free began t,
    fun _ t _ _ h free kind sixteen => execSsiDelayMeasure_measures h free kind sixteen t⟩

/-! ## Discrete inputs (R174, R176, R178, R746) -/

theorem State.dinOf_onDin {s : State} {i : Nat} (h : i < s.din.length) (f : Din → Din) :
    (s.onDin i f).dinOf i = f (s.dinOf i) := nth_modify_same h f

theorem State.dinOf_of_din {s t : State} (h : t.din = s.din) (i : Nat) : t.dinOf i = s.dinOf i := by
  unfold State.dinOf
  rw [h]

theorem execDinRawTransition_counts {s : State} {i : Nat} {lv : Bool} (free : s.clk.motionHeld = false) (ball : i < 64)
    (h : i < s.din.length) (moved : (s.dinOf i).ball ≠ lv) (t : Nat) :
    Answers (fun u => (u.dinOf i).ball = lv ∧ (u.dinOf i).lastT = t ∧ (u.dinOf i).filt = (s.dinOf i).filt ∧
      (u.dinOf i).trans = inc32 (s.dinOf i).trans) (execDinRawTransition t i lv s) := by
  unfold execDinRawTransition
  extract_lets ticked d win times bound counted chattering
  have moved' : d.ball ≠ lv := moved
  rw [if_neg (by simp [ticked, free]), if_pos ⟨ball, moved'⟩]
  have hCounted : counted.dinOf i = _ := State.dinOf_onDin (s := ticked) h _
  have inCounted : i < counted.din.length := by simpa [counted, ticked] using h
  split
  · have hChattering : chattering.dinOf i = { counted.dinOf i with chatter := true } := State.dinOf_onDin inCounted _
    have stop (x : State) : (x.chatterStop i).din = x.din := (State.chatterStop_keeps i x).get .din rfl
    refine .next ?_
    rw [State.dinOf_of_din (stop _), State.dinOf_of_din (State.raise_din chattering ..), hChattering, hCounted]
    exact ⟨rfl, rfl, rfl, rfl⟩
  · refine .next ?_
    rw [hCounted]
    exact ⟨rfl, rfl, rfl, rfl⟩

theorem execDinFilterStable_filters {s : State} {t i : Nat} (free : s.clk.motionHeld = false) (ball : i < 64)
    (h : i < s.din.length) (first : (s.dinOf i).first = true) (quiet : (s.dinOf i).chatter = false)
    (stood : (s.dinOf i).lastT + s.nat DIN.stable i ≤ t + 1) (new : (s.dinOf i).filt ≠ s.dinRaw i) :
    Answers (fun u => (u.dinOf i).filt = s.dinRaw i ∧ (u.dinOf i).edgeT = (s.dinOf i).lastT) (execDinFilterStable t i s) := by
  unfold execDinFilterStable
  extract_lets ticked d
  have stable : ticked.dinStable t i = true := decide_eq_true stood
  have new' : d.filt ≠ ticked.dinRaw i := new
  have hd : d = s.dinOf i := rfl
  rw [if_pos ⟨ball, by rw [hd]; exact first, by simp [ticked, free], by rw [hd]; simp [quiet], stable, new'⟩]
  refine .next ?_
  unfold State.dinChange
  rw [State.dinOf_onDin (s := ticked) h]
  exact ⟨rfl, rfl⟩

theorem execDinFirstLevel_takes {s : State} {t i : Nat} (free : s.clk.motionHeld = false) (h : i < s.din.length)
    (fresh : (s.dinOf i).first = false) (quiet : (s.dinOf i).chatter = false)
    (stood : (s.dinOf i).lastT + s.nat DIN.stable i ≤ t + 1) :
    Answers (fun u => (u.dinOf i).first = true ∧ (u.dinOf i).filt = s.dinRaw i ∧ (u.dinOf i).edgeT = (s.dinOf i).edgeT)
      (execDinFirstLevel t i s) := by
  unfold execDinFirstLevel
  extract_lets ticked d
  have stable : ticked.dinStable t i = true := decide_eq_true stood
  have hd : d = s.dinOf i := rfl
  rw [if_pos (by simp [hd, ticked, free, fresh, quiet, stable])]
  refine .next ?_
  rw [State.dinOf_onDin (s := ticked) h]
  exact ⟨rfl, rfl, rfl⟩

theorem execChatterEnd_ends {s : State} {t i : Nat} (free : s.clk.motionHeld = false) (h : i < s.din.length)
    (noisy : (s.dinOf i).chatter = true) (stood : (s.dinOf i).lastT + s.nat DIN.chatter_win i ≤ t) :
    Answers (fun u => (u.dinOf i).chatter = false ∧ (u.dinOf i).times = []) (execChatterEnd t i s) := by
  unfold execChatterEnd
  extract_lets ticked d ended
  have stood' : d.lastT + ticked.nat DIN.chatter_win i ≤ t := stood
  have hd : d = s.dinOf i := rfl
  rw [if_pos ⟨by rw [hd]; exact noisy, stood', by simp [ticked, free]⟩]
  have inEnded : i < ended.din.length := by simpa [ended, ticked] using h
  have hEnded : ended.dinOf i = { s.dinOf i with chatter := false, times := [] } := State.dinOf_onDin (s := ticked) h _
  have only {f : Din → Din} (hf : ∀ d, (f d).chatter = d.chatter ∧ (f d).times = d.times) :
      ((ended.onDin i f).dinOf i).chatter = false ∧ ((ended.onDin i f).dinOf i).times = [] := by
    rw [State.dinOf_onDin inEnded, (hf _).1, (hf _).2, hEnded]
    exact ⟨rfl, rfl⟩
  have still : (ended.dinOf i).chatter = false ∧ (ended.dinOf i).times = [] := by
    rw [hEnded]
    exact ⟨rfl, rfl⟩
  refine .ite (.next still) (.ite (.next ?_) (.ite (.next ?_) (.next still)))
  · exact only fun _ => ⟨rfl, rfl⟩
  · exact only fun _ => ⟨rfl, rfl⟩

/-! ## Encoder emulation (R107, R109, R183, R184) -/

theorem execEmuStep_steps {s : State} {t e : Nat} (free : s.clk.motionHeld = false) (h : e < s.emu.length)
    (left : (nth s.emu e).stepsLeft ≠ 0) (good : (nth s.emu e).fault = false)
    (due : s.stage.openedAt + ((nth s.emu e).stepsDone + 1) * (nth s.emu e).spacing ≤ t) :
    Answers (fun u =>
      ((nth u.emu e).count : Int) = clamp ((nth s.emu e).count + sgn (nth s.emu e).backlog) 0 (2 ^ 32 - 1) ∧
      ((nth u.emu e).ph : Int) = ((nth s.emu e).ph + sgn (nth s.emu e).backlog) % 4 ∧
      (nth u.emu e).backlog = (nth s.emu e).backlog - sgn (nth s.emu e).backlog ∧
      ((nth u.emu e).a = true ↔ (nth u.emu e).ph = 1 ∨ (nth u.emu e).ph = 2) ∧
      ((nth u.emu e).b = true ↔ (nth u.emu e).ph = 2 ∨ (nth u.emu e).ph = 3)) (execEmuStep t e s) := by
  unfold execEmuStep
  extract_lets ticked m d c ph stepped
  have hm : m = nth s.emu e := rfl
  have early : ¬ t < ticked.stage.openedAt + (m.stepsDone + 1) * m.spacing := Nat.not_lt.mpr due
  rw [if_neg (by simp [ticked, free, hm, left, good] at early ⊢; omega)]
  refine .next ?_
  have step : nth (ticked.emu.set e stepped) e = stepped := nth_set_same (l := ticked.emu) h _
  have nonneg : (0 : Int) ≤ clamp ((m.count : Int) + d) 0 (2 ^ 32 - 1) := by unfold clamp; grind
  rw [step]
  exact ⟨Int.toNat_of_nonneg nonneg, Int.toNat_of_nonneg (Int.emod_nonneg _ (by decide)), rfl, by simp [stepped], by simp [stepped]⟩

/-- Settles O19: each transition, filtered level and step has its own effect on its own record. -/
theorem inputsAndEmulators : Obligations.InputsAndEmulators := by
  refine ⟨⟨fun s t i lv free ball h moved => ?_, fun _ _ _ free ball h first quiet stood new =>
      execDinFilterStable_filters free ball h first quiet stood new,
    fun _ _ _ free h fresh quiet stood => execDinFirstLevel_takes free h fresh quiet stood,
    fun _ _ _ free h noisy stood => execChatterEnd_ends free h noisy stood⟩,
    fun _ _ _ free h left good due => execEmuStep_steps free h left good due⟩
  refine ((execDinRawTransition_counts free ball h moved t).and (execDinRawTransition_onlyDin t i lv s)).mono fun u hu => ?_
  obtain ⟨⟨hBall, hT, hFilt, hTrans⟩, others⟩ := hu
  exact ⟨hBall, hT, hFilt, hTrans, others.others⟩

end Sys2Proof.Machine

namespace Sys2Proof.Machine

/-! # The current engine (R194 to R229) -/

/-- What each index of a sweep does: one index turns the first property into the second, the others keep either. -/
theorem eachIx_at {P Q : State → Prop} {n a : Nat} {f : Nat → State → State} {s : State} (reached : a < n)
    (start : P s) (before : ∀ i x, i ≠ a → P x → P (f i x)) (here : ∀ x, P x → Q (f a x))
    (after : ∀ i x, i ≠ a → Q x → Q (f i x)) : Q (eachIx n f s) := by
  have upTo (m : Nat) : (a < m → Q (eachIx m f s)) ∧ (m ≤ a → P (eachIx m f s)) := by
    induction m with
    | zero => exact ⟨fun h => absurd h (Nat.not_lt_zero a), fun _ => start⟩
    | succ m ih =>
      have step : eachIx (m + 1) f s = f m (eachIx m f s) := by simp [eachIx, List.range_succ]
      rw [step]
      refine ⟨fun h => ?_, fun h => before m _ (by omega) (ih.2 (by omega))⟩
      by_cases e : m = a
      · subst e
        exact here _ (ih.2 (Nat.le_refl m))
      · exact after m _ e (ih.1 (by omega))
  exact (upTo n).1 reached

/-! ## Modulator bits and the accurate estimate (R194, R195, R197) -/

/-- What the checks of a bit leave of its channel. -/
def Chan.taken (x : Chan) : Chan := { x with ocRun := 0, sumRun := 0, fault := false, causes := 0 }

theorem State.chOf_onCh {s : State} {c : Nat} (h : c < s.ch.length) (f : Chan → Chan) :
    (s.onCh c f).chOf c = f (s.chOf c) := nth_modify_same h f

theorem Fixes.ch_at {β : Type} {g : Chan → β} {s t : State} (h : Fixes (viewed State.ch g) s t) (c : Nat) :
    g (t.chOf c) = g (s.chOf c) := h.view_at c

theorem State.channelFault_taken (c t k : Nat) (detail : Int) (s : State) :
    Fixes (viewed State.ch Chan.taken) s (s.channelFault c t k detail) := by
  unfold State.channelFault
  split
  · exact .refl s
  · refine .ite (.refl s) (.view_still ?_ ((State.currentFault_keeps ..).get .ch rfl))
    exact .view_modify rfl fun _ => rfl

theorem State.bitFaults_taken (c t : Nat) (s : State) : Fixes (viewed State.ch Chan.taken) s (s.bitFaults c t) := by
  unfold State.bitFaults
  split
  · exact .refl s
  · extract_lets x oc b sum sr counted s1 s2 rate s3 s4 s5
    have fault {y : State} (h : Fixes (viewed State.ch Chan.taken) s y) (k : Nat) (d : Int) :
        Fixes (viewed State.ch Chan.taken) s (y.channelFault c t k d) := h.trans (State.channelFault_taken ..)
    have h0 : Fixes (viewed State.ch Chan.taken) s counted := .view_modify rfl fun _ => rfl
    have h1 : Fixes (viewed State.ch Chan.taken) s s1 := .ite (fault h0 ..) h0
    have h2 : Fixes (viewed State.ch Chan.taken) s s2 := .ite (fault h1 ..) h1
    have h3 : Fixes (viewed State.ch Chan.taken) s s3 := .ite (fault h2 ..) h2
    have h4 : Fixes (viewed State.ch Chan.taken) s s4 := .ite (fault h3 ..) h3
    have h5 : Fixes (viewed State.ch Chan.taken) s s5 := .ite (fault h4 ..) h4
    exact .ite (fault h5 ..) h5

theorem State.takeBit_estimates {s : State} {c : Nat} (h : c < s.ch.length) (tn : Nat) (b : Int) :
    ((s.takeBit c tn b).chOf c).n = (s.chOf c).n + 1 ∧ ((s.takeBit c tn b).chOf c).times.head? = some tn ∧
      ((s.takeBit c tn b).chOf c).f0 = s.fixedOfs c (sat (fastSum (s.chOf c).bits * 2 ^ 15) 24) ∧
      ((s.takeBit c tn b).chOf c).f = sat (((s.takeBit c tn b).chOf c).f0 - (s.chOf c).ofs) 24 := by
  unfold State.takeBit
  extract_lets x
  split
  next tb drawn eq =>
  extract_lets f0 f acq
  have same : drawn.ch = s.ch ∧ drawn.cfg = s.cfg := by split at eq <;> cases eq <;> exact ⟨rfl, rfl⟩
  have channel : drawn.chOf c = s.chOf c := by unfold State.chOf; rw [same.1]
  have fixed (v : Int) : drawn.fixedOfs c v = s.fixedOfs c v := by
    unfold State.fixedOfs State.int
    rw [same.2]
  rw [State.chOf_onCh (same.1 ▸ h), channel]
  exact ⟨rfl, rfl, fixed _, rfl⟩

theorem execModulatorBit_estimates {s : State} {k c : Nat} {rise v : Bool} (free : s.clk.motionHeld = false) (channel : c < 36)
    (h : c < s.ch.length) (used : s.nat CURRENT.form c ≠ 0) (rising : s.nat CURRENT.form c = 1 → rise = true)
    (falling : s.nat CURRENT.form c = 2 → rise = false) :
    Answers (fun u => (u.chOf c).n = (s.chOf c).n + 1 ∧ (u.chOf c).times.head? = some k ∧
      (u.chOf c).f0 = s.fixedOfs c (sat (fastSum (s.chOf c).bits * 2 ^ 15) 24) ∧
      (u.chOf c).f = sat ((u.chOf c).f0 - (s.chOf c).ofs) 24)
      (execModulatorBit k c { rising := rise, bit := some v } s) := by
  unfold execModulatorBit
  extract_lets ticked form x tn b coded taken judged
  have hForm : form = s.nat CURRENT.form c := rfl
  rw [if_neg (by simp [ticked, free]), if_neg (by
    rw [hForm]
    simp only [used, Nat.not_le.mpr channel, false_or, reduceCtorEq, false_and]
    rintro (⟨one, ne⟩ | ⟨two, up⟩)
    · simp [rising one] at ne
    · simp [falling two] at up)]
  have inCoded : c < coded.ch.length := by simpa [coded, ticked] using h
  have hCoded : coded.chOf c = _ := State.chOf_onCh (s := ticked) h _
  obtain ⟨hn, ht, h0, hf⟩ := State.takeBit_estimates inCoded tn b
  have facts {u : State} (kept : u.ch = judged.ch) : (u.chOf c).n = (s.chOf c).n + 1 ∧ (u.chOf c).times.head? = some k ∧
      (u.chOf c).f0 = s.fixedOfs c (sat (fastSum (s.chOf c).bits * 2 ^ 15) 24) ∧
      (u.chOf c).f = sat ((u.chOf c).f0 - (s.chOf c).ofs) 24 := by
    have same : (u.chOf c).taken = (taken.chOf c).taken :=
      ((State.bitFaults_taken c tn taken).view_still kept).ch_at c
    have n : (u.chOf c).n = (taken.chOf c).n := (congrArg Chan.n same :)
    have times : (u.chOf c).times = (taken.chOf c).times := (congrArg Chan.times same :)
    have f0 : (u.chOf c).f0 = (taken.chOf c).f0 := (congrArg Chan.f0 same :)
    have f : (u.chOf c).f = (taken.chOf c).f := (congrArg Chan.f same :)
    rw [n, times, f0, f, hn, ht, hf, h0, hCoded]
    exact ⟨rfl, rfl, rfl, rfl⟩
  split
  · exact .next (facts rfl)
  · exact .next (facts ((State.bridgeDecide_keeps ..).get .ch rfl))

theorem execAccurateEstimate_forms {s : State} {c : Nat} (free : s.clk.motionHeld = false) (h : c < s.ch.length)
    (some_ : (s.chOf c).n ≠ 0) (multiple : (s.chOf c).n % 2 ^ s.nat CURRENT.osr_log2 c = 0)
    (new : (s.chOf c).n ≠ (s.chOf c).accN) (k : Nat) :
    Answers (fun u => (u.chOf c).acc =
      sat (s.fixedOfs c (accRaw (s.nat CURRENT.osr_log2 c) ((s.chOf c).bits.drop 1)) - (s.chOf c).ofs) 24)
      (execAccurateEstimate k c s) := by
  unfold execAccurateEstimate
  extract_lets ticked tn a0 formed
  have due : s.accDue c = true := by simp [State.accDue, some_, multiple, new]
  have due' : ticked.accDue c = true := due
  rw [if_neg (by simp [ticked, free]), if_neg (by simp [due'])]
  have acc : (formed.chOf c).acc = a0 := congrArg Chan.acc (State.chOf_onCh (s := ticked) h _)
  split
  · exact .next acc
  next judged _ a _ =>
    have hJudged : Fixes (viewed State.ch Chan.taken) formed judged := .ite (State.channelFault_taken ..) (.refl formed)
    have same := (hJudged.view_still ((State.centreUpdate_keeps a c tn judged).get .ch rfl)).ch_at c
    exact .next ((congrArg Chan.acc same :).trans acc)

/-! ## The tick of the angle (R201) -/

/-- What deciding a bridge and taking a zero instant leave of an axis stage: its set-point, ticks and centres. -/
def CurAx.record (x : CurAx) : Nat × SetPoint × List TickRec × Int × Int := (x.nextTick, x.sp, x.ticks, x.c0, x.c1)

/-- What a tick of the angle reads. -/
def State.angles (s : State) : List (Nat × SetPoint × List TickRec × Int × Int) × List Nat × List Cell :=
  (s.cax.map CurAx.record, s.ch.map Chan.tb, s.cfg)

namespace Fixes

variable {s t u : State}

theorem angles_keeps {W : List Fld} (h : Fixes State.angles s t) (k : Keeps W t u) (wc : W.contains .cax = false)
    (wh : W.contains .ch = false) (wg : W.contains .cfg = false) : Fixes State.angles s u :=
  h.then_ (Prod.ext (congrArg (List.map CurAx.record) (k.get .cax wc))
    (Prod.ext (congrArg (List.map Chan.tb) (k.get .ch wh)) (k.get .cfg wg)))

theorem angles_raise {c : Nat} {pl : List Octet} {v : Nat} (h : Fixes State.angles s t) : Fixes State.angles s (t.raise c pl v) :=
  h.angles_keeps (State.raise_keeps c pl t v) rfl rfl rfl

theorem angles_onCax {a : Nat} {f : CurAx → CurAx} (h : Fixes State.angles s t) (hf : ∀ x, (f x).record = x.record) :
    Fixes State.angles s (t.onCax a f) :=
  h.then_ (Prod.ext (List.map_modify_of_fixes hf t.cax a) rfl)

theorem angles_onEng {a e : Nat} {f : Eng → Eng} (h : Fixes State.angles s t) : Fixes State.angles s (t.onEng a e f) :=
  h.angles_onCax fun _ => rfl

theorem angles_onCh {c : Nat} {f : Chan → Chan} (h : Fixes State.angles s t) (hf : ∀ x, (f x).tb = x.tb) :
    Fixes State.angles s (t.onCh c f) :=
  h.then_ (Prod.ext rfl (Prod.ext (List.map_modify_of_fixes hf t.ch c) rfl))

theorem angles_axis (h : Fixes State.angles s t) (a : Nat) : (t.caxOf a).record = (s.caxOf a).record :=
  nth_map_congr (congrArg (fun x => x.1) h.eq) a

theorem angles_tb (h : Fixes State.angles s t) (c : Nat) : (t.chOf c).tb = (s.chOf c).tb :=
  nth_map_congr (congrArg (fun x => x.2.1) h.eq) c

theorem angles_cfg (h : Fixes State.angles s t) : t.cfg = s.cfg := congrArg (fun x => x.2.2) h.eq

theorem angles_length (h : Fixes State.angles s t) : t.cax.length = s.cax.length := by
  simpa [State.angles] using congrArg (fun x => x.1.length) h.eq

end Fixes

theorem State.setGain_angles (a g : Nat) (s : State) : Fixes State.angles s (s.setGain a g) := by
  unfold State.setGain
  extract_lets gi end_ was moved
  have h : Fixes State.angles s moved := .angles_onCax (.refl s) fun _ => rfl
  clear_value end_
  split
  · exact .ite h h.angles_raise
  · exact h

theorem State.gainUpdate_angles (a i j : Nat) (di dj : Int × Int) (s : State) : Fixes State.angles s (s.gainUpdate a i j di dj) :=
  State.setGain_angles ..

theorem State.refreshSlope_angles (a e tn tb delay : Nat) (s : State) :
    Fixes State.angles s (s.refreshSlope a e tn tb delay) := by
  unfold State.refreshSlope
  extract_lets g h d measured
  have hm : Fixes State.angles s measured := .angles_onEng (.refl s)
  refine .ite (.refl s) ?_
  split
  · exact hm.trans (State.gainUpdate_angles ..)
  · exact hm

theorem State.startEng_angles (a e base : Nat) (s : State) : Fixes State.angles s (s.startEng a e base) := .angles_onEng (.refl s)

theorem State.schedule_angles (a e : Nat) (t : Int) (done p : Nat) (d : Int × Int) (s : State) :
    Fixes State.angles s (s.schedule a e t done p d) := .angles_onEng (.refl s)

theorem State.voltNote_angles (a e t : Nat) (limited : Bool) (s : State) : Fixes State.angles s (s.voltNote a e t limited) :=
  .angles_onCax (.angles_onEng (.refl s)) fun _ => rfl

theorem State.decideVector_angles (a base tn tb delay : Nat) (start : Bool) (s : State) :
    Fixes State.angles s (s.decideVector a base tn tb delay start) := by
  unfold State.decideVector
  extract_lets x r sp ds i0 e h dp ep gd hh eh r0 rH h2 delta
  clear_value delta
  split
  · exact State.voltNote_angles ..
  · extract_lets
    split
    · exact State.voltNote_angles ..
    · exact (State.voltNote_angles ..).trans (State.schedule_angles ..)

theorem State.decideScalar_angles (a e base tn tb delay : Nat) (start : Bool) (s : State) :
    Fixes State.angles s (s.decideScalar a e base tn tb delay start) := by
  unfold State.decideScalar
  extract_lets k x r sp ds done zero noted h er dp ep outside low delta j d ej judged
  have hn : Fixes State.angles s noted := .angles_onEng (.refl s)
  have hj : Fixes State.angles s judged := hn.trans (State.voltNote_angles ..)
  exact .ite (.ite hn (hn.trans (State.schedule_angles ..)))
    (.ite (hn.trans (State.voltNote_angles ..)) (.ite hj (hj.trans (State.schedule_angles ..))))

theorem State.bridgeDecide_angles (a e c base : Nat) (s : State) : Fixes State.angles s (s.bridgeDecide a e c base) := by
  unfold State.bridgeDecide
  extract_lets ch x
  split
  · extract_lets slope start begun
    have hs : Fixes State.angles s slope := State.refreshSlope_angles ..
    have hb : Fixes State.angles s begun := .ite (hs.trans (State.startEng_angles ..)) hs
    exact .ite (.refl s) (.ite (hb.trans (State.decideVector_angles ..)) (hb.trans (State.decideScalar_angles ..)))
  · exact .refl s

theorem State.currentFault_angles (a t k src : Nat) (detail : Int) (s : State) :
    Fixes State.angles s (s.currentFault a t k src detail) := by
  unfold State.currentFault
  extract_lets off latched told
  have hOff : Fixes State.angles s off := .angles_onCax (.refl s) fun _ => rfl
  have hLatched : Fixes State.angles s latched := hOff.angles_onCax fun _ => rfl
  have hTold : Fixes State.angles s told := hLatched.angles_raise
  exact hTold.angles_keeps (State.axisFault_keeps ..) rfl rfl rfl

theorem State.channelFault_angles (c t k : Nat) (detail : Int) (s : State) :
    Fixes State.angles s (s.channelFault c t k detail) := by
  unfold State.channelFault
  split
  · exact .refl s
  · refine .ite (.refl s) (.trans ?_ (State.currentFault_angles ..))
    exact .angles_onCh (.refl s) fun _ => rfl

theorem State.offsetUpdate_angles (c t : Nat) (s : State) : Fixes State.angles s (s.offsetUpdate c t) := by
  unfold State.offsetUpdate
  extract_lets x lim o o' held run moved pl told
  have hm : Fixes State.angles s moved := .angles_onCh (.refl s) fun _ => rfl
  have ht : Fixes State.angles s told := .ite hm.angles_raise hm
  exact .ite (ht.angles_raise.trans (State.channelFault_angles ..)) ht

theorem State.zeroInstants_angles (a e t : Nat) (s : State) : Fixes State.angles s (s.zeroInstants a e t) := by
  unfold State.zeroInstants
  extract_lets x k settle off moved cs
  refine .ite (.refl s) (.foldl (fun y i => ?_) _ s)
  extract_lets c counted
  have h : Fixes State.angles y counted := .angles_onCh (.refl y) fun _ => rfl
  exact .ite (.refl y) (.ite h (h.trans (State.offsetUpdate_angles ..)))

/-- The tick of an axis: the record's next tick, and what no other part of the tick touches. -/
theorem State.axisTick_angles (t a : Nat) (s : State) (used : kindEngs (s.kind a) ≠ 0) :
    Fixes State.angles (s.onCax a fun x => { x with
      nextTick := x.nextTick + 1, ticks := (s.tickSp a (s.caxOf a).nextTick t :: x.ticks).take 128 }) (s.axisTick t a) := by
  unfold State.axisTick
  extract_lets k x r ticked zeroed
  rw [if_neg used]
  exact .trans (.eachIx (fun e y => State.zeroInstants_angles a e t y) _ ticked)
    (.eachIx (fun e y => State.bridgeDecide_angles ..) _ zeroed)

/-- What the tick of axis `a` reads, the same in both states. -/
structure SameTick (a : Nat) (s t : State) : Prop where
  record : (t.caxOf a).record = (s.caxOf a).record
  tb : ∀ c, (t.chOf c).tb = (s.chOf c).tb
  cfg : t.cfg = s.cfg
  axes : t.cax.length = s.cax.length

namespace SameTick

variable {a : Nat} {s t u : State}

theorem refl (s : State) : SameTick a s s := ⟨rfl, fun _ => rfl, rfl, rfl⟩

theorem trans (h : SameTick a s t) (k : SameTick a t u) : SameTick a s u :=
  ⟨k.record.trans h.record, fun c => (k.tb c).trans (h.tb c), k.cfg.trans h.cfg, k.axes.trans h.axes⟩

theorem of_angles (h : Fixes State.angles s t) : SameTick a s t := ⟨h.angles_axis a, h.angles_tb, h.angles_cfg, h.angles_length⟩

theorem kind (h : SameTick a s t) : t.kind a = s.kind a := by unfold State.kind State.nat State.int; rw [h.cfg]

/-- The tick of another axis. -/
theorem axisTick {b : Nat} (h : SameTick a s t) (ne : b ≠ a) (n : Nat) : SameTick a s (t.axisTick n b) := by
  refine h.trans ?_
  by_cases used : kindEngs (t.kind b) = 0
  · unfold State.axisTick
    extract_lets
    rw [if_pos used]
    exact refl t
  · refine trans ?_ (of_angles (a := a) (State.axisTick_angles n b t used))
    refine ⟨?_, fun _ => rfl, rfl, List.length_modify ..⟩
    exact congrArg CurAx.record (nth_modify_ne t.cax _ (Ne.symm ne))

theorem tickSp (h : SameTick a s t) (k n : Nat) : t.tickSp a k n = s.tickSp a k n := by
  have record := h.record
  simp only [CurAx.record, Prod.mk.injEq] at record
  obtain ⟨_, sp, ticks, c0, c1⟩ := record
  have base : t.phBase a = s.phBase a := by unfold State.phBase State.nat State.int; rw [h.cfg]
  simp only [State.tickSp, sp, ticks, c0, c1, h.kind, base, h.tb]

end SameTick

theorem execAngleTick_takes {s : State} {k : Nat} (running : s.stage.running = true) (within : 400 * k < s.stage.len) :
    Answers (fun u => ∀ a, a < 12 → a < s.cax.length → kindEngs (s.kind a) ≠ 0 → (s.caxOf a).nextTick = k →
      (u.caxOf a).nextTick = k + 1 ∧ (u.caxOf a).sp = (s.caxOf a).sp ∧
      (u.caxOf a).ticks.head? = some (s.tickSp a k (8 * (s.stage.openedAt + 400 * k))))
      (execAngleTick (s.stage.openedAt + 400 * k) s) := by
  unfold execAngleTick
  extract_lets ticked d
  have hd : d = 400 * k := Nat.add_sub_cancel_left ..
  rw [if_neg (by simp [hd, ticked, running]; omega)]
  refine .next fun a below inCax used first => ?_
  refine eachIx_at (P := SameTick a s) (Q := fun u => (u.caxOf a).nextTick = k + 1 ∧ (u.caxOf a).sp = (s.caxOf a).sp ∧
    (u.caxOf a).ticks.head? = some (s.tickSp a k (8 * (s.stage.openedAt + 400 * k)))) below ⟨rfl, fun _ => rfl, rfl, rfl⟩
    (fun i x ne h => ?_) (fun x h => ?_) (fun i x ne h => ?_)
  · split
    · exact h.axisTick ne _
    · exact h
  · have record := h.record
    simp only [CurAx.record, Prod.mk.injEq] at record
    obtain ⟨next, sp, ticks, c0, c1⟩ := record
    have due : (x.caxOf a).nextTick = d / 400 := by rw [next, first, hd]; omega
    rw [if_pos due]
    have axis := (State.axisTick_angles (8 * (s.stage.openedAt + 400 * k)) a x (h.kind ▸ used)).angles_axis a
    have moved : (x.onCax a fun y => { y with
        nextTick := y.nextTick + 1
        ticks := (x.tickSp a (x.caxOf a).nextTick (8 * (s.stage.openedAt + 400 * k)) :: y.ticks).take 128 }).caxOf a = _ :=
      nth_modify_same (h.axes ▸ inCax) _
    rw [moved] at axis
    simp only [CurAx.record, Prod.mk.injEq] at axis
    obtain ⟨next', sp', ticks', _⟩ := axis
    refine ⟨next'.trans (congrArg (· + 1) (next.trans first)), sp'.trans sp, ?_⟩
    rw [ticks', next, first, h.tickSp]
    rfl
  · split
    · have record := ((SameTick.refl x).axisTick ne (8 * (s.stage.openedAt + 400 * k))).record
      simp only [CurAx.record, Prod.mk.injEq] at record
      obtain ⟨next, sp, ticks, _⟩ := record
      rw [next, sp, ticks]
      exact h
    · exact h

/-! ## Scheduled edges and gates (R215 to R217) -/

theorem State.caxOf_onCax {s : State} {a : Nat} (h : a < s.cax.length) (f : CurAx → CurAx) :
    (s.onCax a f).caxOf a = f (s.caxOf a) := nth_modify_same h f

/-- A fold of updates that leave a reading leaves it. -/
theorem foldl_fixes {σ α β : Type} {g : σ → β} {f : σ → α → σ} (h : ∀ x a, g (f x a) = g x) (l : List α) (x : σ) :
    g (l.foldl f x) = g x :=
  List.foldlRecOn (motive := fun y => g y = g x) l f rfl fun _ k a _ => (h _ a).trans k

theorem State.engOf_onEng {s : State} {a e : Nat} (h : a < s.cax.length) (k : e < (s.caxOf a).engs.length) (f : Eng → Eng) :
    (s.onEng a e f).engOf a e = f (s.engOf a e) := by
  unfold State.onEng State.engOf
  rw [State.caxOf_onCax h]
  exact nth_modify_same k f

/-- The engine that applies a state holds it and schedules nothing more. -/
theorem State.applyState_engine {s : State} {a e : Nat} (h : a < s.cax.length) (k : e < (s.caxOf a).engs.length) (sc : Sched) :
    ((s.applyState a e sc).engOf a e).sched = none ∧ ((s.applyState a e sc).engOf a e).head.p = sc.p := by
  unfold State.applyState
  extract_lets kd dead minp gd hbs applied brs last
  have inApplied : a < applied.cax.length := by simpa [applied] using h
  have engs : (applied.caxOf a).engs = (s.caxOf a).engs := by
    rw [State.caxOf_onCax h]
    refine foldl_fixes (g := CurAx.engs) (fun x b => ?_) _ _
    obtain ⟨i, lv⟩ := b
    dsimp only
    split
    · rfl
    · rfl
  rw [State.engOf_onEng inApplied (engs ▸ k)]
  exact ⟨rfl, rfl⟩

theorem execEdgeFire_applies {s : State} {k a e : Nat} {sc : Sched} (free : s.clk.motionHeld = false) (h : a < s.cax.length)
    (eng : e < (s.caxOf a).engs.length) (active : (s.caxOf a).active = true) (sched : (s.engOf a e).sched = some sc)
    (due : sc.t ≤ k) :
    Answers (fun u => (u.engOf a e).sched = none ∧ (u.engOf a e).head.p = sc.p) (execEdgeFire k a e s) := by
  unfold execEdgeFire
  extract_lets ticked dead switched
  rw [if_neg (by simp [ticked, free])]
  have inSwitched : a < switched.cax.length := by simpa [switched, ticked] using h
  have kept : ((switched.caxOf a).engs, (switched.caxOf a).active) = ((s.caxOf a).engs, (s.caxOf a).active) := by
    rw [State.caxOf_onCax (s := ticked) h]
    refine foldl_fixes (g := fun x : CurAx => (x.engs, x.active)) (fun x i => ?_) _ _
    split
    · split
      · rfl
      · rfl
    · rfl
  obtain ⟨engs, act⟩ := Prod.mk.inj kept
  have sched' : (switched.engOf a e).sched = some sc := by
    unfold State.engOf
    rw [engs]
    exact sched
  rw [sched']
  dsimp -zeta only
  extract_lets counted
  rw [if_neg (by simp [act, active, due])]
  have hCounted : a < counted.cax.length ∧ e < (counted.caxOf a).engs.length := by
    unfold counted
    split
    · rw [State.caxOf_onCax inSwitched]
      exact ⟨by simpa using inSwitched, engs ▸ eng⟩
    · exact ⟨inSwitched, engs ▸ eng⟩
  exact .next (State.applyState_engine hCounted.1 hCounted.2 sc)

theorem execGateOn_turnsOn {s : State} {k a hb t : Nat} (free : s.clk.motionHeld = false) (h : a < s.cax.length) (bridge : hb < 4)
    (inBrs : hb < (s.caxOf a).brs.length) (instant : (nth (s.caxOf a).brs hb).onAt = some t) (due : t ≤ k) :
    Answers (fun u => (nth (u.caxOf a).brs hb).gateH = (nth (s.caxOf a).brs hb).level ∧
      (nth (u.caxOf a).brs hb).gateL = !(nth (s.caxOf a).brs hb).level ∧ (nth (u.caxOf a).brs hb).onAt = none)
      (execGateOn k a hb s) := by
  unfold execGateOn
  extract_lets ticked b
  have hb' : b = nth (s.caxOf a).brs hb := rfl
  rw [if_neg (by simp [ticked, free]), show b.onAt = some t from instant]
  dsimp only
  rw [if_neg (by omega)]
  refine .next ?_
  rw [State.caxOf_onCax (s := ticked) h]
  dsimp only
  rw [nth_set_same (l := (ticked.caxOf a).brs) inBrs]
  exact ⟨rfl, rfl, rfl⟩

/-- Settles O20: the bit, the tick, the edge and the gate each write what the rest of their command leaves alone. -/
theorem estimatesTicksAndEdges : Obligations.EstimatesTicksAndEdges :=
  ⟨⟨fun _ _ _ _ _ free channel h used rising falling => execModulatorBit_estimates free channel h used rising falling,
      fun _ k _ free h some_ multiple new => execAccurateEstimate_forms free h some_ multiple new k⟩,
    fun _ _ running within => execAngleTick_takes running within,
    fun _ _ _ _ _ free h eng active sched due => execEdgeFire_applies free h eng active sched due,
    fun _ _ _ _ _ free h bridge inBrs instant due => execGateOn_turnsOn free h bridge inBrs instant due⟩

/-! ## Faults of the current engine (R226, R227, R229) -/

/-- Axis `a` shows the fault of cause `k`: the cause is latched and every gate is off. -/
structure ShowsFault (a k : Nat) (s : State) : Prop where
  cause : bit (s.caxOf a).causes k = true
  inactive : (s.caxOf a).active = false
  gates : ∀ b ∈ (s.caxOf a).brs, b.gateH = false ∧ b.gateL = false

theorem State.currentFault_shows {s : State} {a : Nat} (h : a < s.cax.length) (t k src : Nat) (detail : Int) :
    ShowsFault a k (s.currentFault a t k src detail) := by
  unfold State.currentFault
  extract_lets off latched told
  have cax : (told.axisFault a 3 k).caxOf a = latched.caxOf a := by
    have fault : (told.axisFault a 3 k).cax = told.cax := (State.axisFault_keeps ..).get .cax rfl
    unfold State.caxOf
    rw [fault, State.raise_cax]
  have hOff : off.caxOf a = { s.caxOf a with
      active := false, wholeStage := false, brs := (s.caxOf a).brs.map (HalfBr.off t), engs := List.replicate 2 {} } :=
    State.caxOf_onCax h _
  have hLatched : latched.caxOf a = _ := State.caxOf_onCax (s := off) (by simpa [off, State.gatesOff] using h) _
  refine ⟨?_, ?_, fun b mem => ?_⟩
  · rw [cax, hLatched]
    exact bit_setBit_same ..
  · rw [cax, hLatched, hOff]
  · rw [cax, hLatched, hOff] at mem
    obtain ⟨b0, _, rfl⟩ := List.mem_map.mp mem
    exact ⟨rfl, rfl⟩

theorem execModulatorTimeout_faults {s : State} {k c a : Nat} (free : s.clk.motionHeld = false) (claimed : s.claimOf c = some a)
    (h : c < s.ch.length) (axis : a < s.cax.length) (new : bit (s.chOf c).causes 3 = false)
    (silent : (s.chOf c).times.headD 0 + 3200 ≤ k) :
    Answers (fun u => (u.chOf c).fault = true ∧ bit (u.chOf c).causes 3 = true ∧ ShowsFault a 3 u)
      (execModulatorTimeout k c s) := by
  unfold execModulatorTimeout
  extract_lets ticked x
  have hx : x = s.chOf c := rfl
  rw [if_neg (by simp [ticked, free]), if_neg (by rw [hx]; omega)]
  unfold State.channelFault
  have claimed' : ticked.claimOf c = some a := claimed
  have new' : ¬ bit (ticked.chOf c).causes 3 = true := by simpa using (show bit (ticked.chOf c).causes 3 = false from new)
  rw [claimed']
  dsimp only
  rw [if_neg new']
  have channel : ((ticked.onCh c fun x => { x with fault := true, causes := setBit x.causes 3 true }).currentFault
      a k 3 c x.tb).chOf c = { ticked.chOf c with fault := true, causes := setBit (ticked.chOf c).causes 3 true } := by
    have kept : ((ticked.onCh c fun x => { x with fault := true, causes := setBit x.causes 3 true }).currentFault
      a k 3 c x.tb).ch = _ := (State.currentFault_keeps ..).get .ch rfl
    unfold State.chOf
    rw [kept]
    exact State.chOf_onCh (s := ticked) h _
  refine .next ⟨by rw [channel], by rw [channel]; exact bit_setBit_same .., ?_⟩
  exact State.currentFault_shows (s := ticked.onCh c _) axis ..

theorem execGateReadbackMismatch_faults {s : State} {t a hb : Nat} {high : Bool} (free : s.clk.motionHeld = false)
    (axis : a < s.cax.length) (bridge : hb < kindHbs (s.kind a)) (new : bit (s.caxOf a).causes 7 = false)
    (stood : (if high then (nth (s.caxOf a).brs hb).hAt else (nth (s.caxOf a).brs hb).lAt) + 192 ≤ 8 * t) :
    Answers (ShowsFault a 7) (execGateReadbackMismatch t a hb high s) := by
  unfold execGateReadbackMismatch
  extract_lets ticked b n
  have bridge' : ¬ kindHbs (ticked.kind a) ≤ hb := Nat.not_le.mpr bridge
  have stood' : ¬ 8 * t < (if high then b.hAt else b.lAt) + 8 * 24 := Nat.not_lt.mpr stood
  have new' : ¬ bit (ticked.caxOf a).causes 7 = true := by simpa using (show bit (ticked.caxOf a).causes 7 = false from new)
  rw [if_neg (by simp [ticked, free]), if_neg (fun k => k.elim bridge' fun k => k.elim stood' new')]
  exact .next (State.currentFault_shows (s := ticked) axis ..)

theorem execDriverFaultInput_faults {s : State} {a low : Nat} (free : s.clk.motionHeld = false) (axis : a < s.cax.length)
    (used : kindHbs (s.kind a) ≠ 0) (new : bit (s.caxOf a).causes 8 = false) (stood : s.nat CURRENT.drv_filter a ≤ low) (t : Nat) :
    Answers (ShowsFault a 8) (execDriverFaultInput t a low s) := by
  unfold execDriverFaultInput
  extract_lets ticked
  have stood' : ¬ low < ticked.nat CURRENT.drv_filter a := Nat.not_lt.mpr stood
  have new' : ¬ bit (ticked.caxOf a).causes 8 = true := by simpa using (show bit (ticked.caxOf a).causes 8 = false from new)
  rw [if_neg (by simp [ticked, free]), if_neg (fun k => k.elim used fun k => k.elim stood' new')]
  exact .next (State.currentFault_shows (s := ticked) axis ..)

/-! ## The offsets (R138) -/

theorem execOffsetAcquired_ends {s : State} {n : Nat} (free : s.clk.motionHeld = false) (from_ : s.acq.from_ = some n)
    (open_ : s.acq.done = false) (ended : n + 256 ≤ s.stage.boundaries) (t : Nat) :
    Answers (fun u => u.acq.done = true ∧ ∀ c, c < 36 → c < s.ch.length → (s.chOf c).acqCount ≠ 0 →
      (u.chOf c).ofs = clamp (rndDiv (s.chOf c).acqSum (s.chOf c).acqCount) (-(s.int CURRENT.ofs_limit c))
        (s.int CURRENT.ofs_limit c)) (execOffsetAcquired t s) := by
  unfold execOffsetAcquired
  extract_lets ticked acq finished
  rw [if_neg (by simp [ticked, free]), show ticked.acq.from_ = some n from from_, show ticked.acq.done = false from open_]
  dsimp only
  rw [if_neg (show ¬ ticked.stage.boundaries < n + 256 from Nat.not_lt.mpr ended)]
  refine .next ⟨?_, fun c below h counted => ?_⟩
  · refine congrArg Acq.done (Fixes.eq (p := State.acq) (s := finished) (.eachIx (fun _ x => ?_) _ _))
    exact .ite (.refl x) ⟨rfl⟩
  · refine eachIx_at (P := fun x => x.chOf c = s.chOf c ∧ x.ch.length = s.ch.length ∧ x.cfg = s.cfg)
      (Q := fun u => (u.chOf c).ofs = clamp (rndDiv (s.chOf c).acqSum (s.chOf c).acqCount) (-(s.int CURRENT.ofs_limit c))
        (s.int CURRENT.ofs_limit c)) below ⟨rfl, rfl, rfl⟩ (fun i x ne hx => ?_) (fun x hx => ?_) (fun i x ne hx => ?_)
    · split
      · exact hx
      · exact ⟨(nth_modify_ne x.ch _ (Ne.symm ne)).trans hx.1, (List.length_modify ..).trans hx.2.1, hx.2.2⟩
    · obtain ⟨channel, length, cfg⟩ := hx
      have limit : x.int CURRENT.ofs_limit c = s.int CURRENT.ofs_limit c := by unfold State.int; rw [cfg]
      rw [if_neg (channel.symm ▸ counted), State.chOf_onCh (length.symm ▸ h), channel, limit]
    · split
      · exact hx
      · exact (congrArg Chan.ofs (nth_modify_ne x.ch _ (Ne.symm ne))).trans hx

/-- Settles O21: a current fault turns every gate of its axis off, and the sweep of the channels sets each offset once. -/
theorem currentFaultsAndOffsets : Obligations.CurrentFaultsAndOffsets := by
  refine ⟨⟨fun s k c a free claimed h axis new silent => ?_, fun s t a hb high free axis bridge new stood => ?_,
    fun s t a low free axis used new stood => ?_⟩,
    fun _ t _ free from_ open_ ended => execOffsetAcquired_ends free from_ open_ ended t⟩
  · refine (execModulatorTimeout_faults free claimed h axis new silent).mono fun u hu => ?_
    exact ⟨hu.1, hu.2.1, hu.2.2.cause, hu.2.2.inactive, hu.2.2.gates⟩
  · exact (execGateReadbackMismatch_faults free axis bridge new stood).mono fun u hu => ⟨hu.cause, hu.inactive, hu.gates⟩
  · exact (execDriverFaultInput_faults free axis used new stood t).mono fun u hu => ⟨hu.cause, hu.inactive, hu.gates⟩

end Sys2Proof.Machine

namespace Sys2Proof.Machine

/-! # Axis commands (R234 to R276)

A command that comes first in a Stage is decided at once on the state in which the axis's offers are taken (`deciding`), and the
row shows the axis and its book as that decision leaves them. -/

/-! ## The decision that a row shows -/

/-- The state on which the controller decides: the offers of the axis taken. -/
def State.deciding (a : Nat) (s : State) : State := s.onBook a fun b => { b with offered := [], decided := true }

theorem State.bookOf_onBook {s : State} {a : Nat} (h : a < s.book.length) (f : AxisBook → AxisBook) :
    (s.onBook a f).bookOf a = f (s.bookOf a) := nth_modify_same h f

theorem State.axOf_onAx {s : State} {a : Nat} (h : a < s.ax.length) (f : Axis → Axis) : (s.onAx a f).axOf a = f (s.axOf a) :=
  nth_modify_same h f

theorem State.deciding_bookOf {s : State} {a : Nat} (h : a < s.book.length) :
    (s.deciding a).bookOf a = { s.bookOf a with offered := [], decided := true } := State.bookOf_onBook h _

theorem nth_zipWith {α β γ : Type} [Inhabited α] [Inhabited β] [Inhabited γ] {f : α → β → γ} {l : List α} {m : List β} {i : Nat}
    (h : i < l.length) (k : i < m.length) : nth (l.zipWith f m) i = f (nth l i) (nth m i) := by
  simp [nth, List.getD_eq_getElem?_getD, List.getElem?_zipWith, h, k]

/-- The parts of `takesNow`. -/
structure Takes (s : State) (a src : Nat) : Prop where
  ix : a < 12
  ax : a < s.ax.length
  book : a < s.book.length
  defined : s.defined a = true
  free : s.clk.motionHeld = false
  open_ : (s.bookOf a).decided = false
  lanes : s.mode.lanesOff = false
  first : (s.bookOf a).offered = []
  fresh : s.pre.shown = false
  room : s.forwardFull { src := src } = false

theorem State.takesNow_iff (s : State) (a src : Nat) : s.takesNow a src = true ↔ Takes s a src := by
  unfold State.takesNow
  simp only [Bool.and_eq_true, decide_eq_true_eq, Bool.not_eq_true', List.isEmpty_iff]
  constructor
  · rintro ⟨⟨⟨⟨⟨⟨⟨⟨⟨ix, ax⟩, book⟩, defined⟩, free⟩, open_⟩, lanes⟩, first⟩, fresh⟩, room⟩
    exact ⟨ix, ax, book, defined, free, open_, lanes, first, fresh, room⟩
  · rintro ⟨ix, ax, book, defined, free, open_, lanes, first, fresh, room⟩
    exact ⟨⟨⟨⟨⟨⟨⟨⟨⟨ix, ax⟩, book⟩, defined⟩, free⟩, open_⟩, lanes⟩, first⟩, fresh⟩, room⟩

theorem modify_congr_at {α : Type} [Inhabited α] {l : List α} {i : Nat} {f g : α → α} (e : f (nth l i) = g (nth l i)) :
    l.modify i f = l.modify i g := by
  refine List.ext_getElem? fun j => ?_
  rw [List.getElem?_modify, List.getElem?_modify]
  by_cases h : i = j
  · subst h
    cases k : l[i]? with
    | none => rfl
    | some x =>
      have : nth l i = x := by simp [nth, List.getD_eq_getElem?_getD, k]
      simpa [this] using e
  · simp [h]

theorem State.onBook_congr {s : State} {a : Nat} {f g : AxisBook → AxisBook} (e : f (s.bookOf a) = g (s.bookOf a)) :
    s.onBook a f = s.onBook a g := congrArg (fun l => { s with book := l }) (modify_congr_at e)

theorem State.onBook_onBook (s : State) (a : Nat) (f g : AxisBook → AxisBook) :
    (s.onBook a f).onBook a g = s.onBook a (g ∘ f) := congrArg (fun l => { s with book := l }) (List.modify_modify_eq f g a s.book)

section
variable {s : State} {a src : Nat} (now : Takes s a src) (c : AxCmd)
include now

/-- The one offer of the Stage is the one decided (R252, R751). -/
theorem State.decideOffered_keepOffer (o : Offer) : (s.keepOffer a o).decideOffered a = (s.deciding a).decideCmd a o := by
  have kept : s.keepOffer a o = s.onBook a fun b => { b with offered := [o] } :=
    State.onBook_congr (by simp [now.open_, now.lanes, now.first])
  have offered : ((s.keepOffer a o).bookOf a).offered = [o] := by
    rw [kept, State.bookOf_onBook now.book]
  have taken : (s.keepOffer a o).onBook a (fun b => { b with offered := [], decided := true }) = s.deciding a := by
    rw [kept, State.onBook_onBook]
    rfl
  unfold State.decideOffered
  extract_lets l s1
  rw [show l = [o] from offered, show s1 = s.deciding a from taken]
  simp

theorem State.axisRow_eq : s.axisRow a src c =
    .next ((s.keepOffer a { origin := { src := src }, cmd := c }).show
      fun _ => (s.deciding a).decideCmd a { origin := { src := src }, cmd := c }) := by
  unfold State.axisRow State.axisCommand
  have shown : s.unshow = s := if_pos (by simp [now.fresh])
  rw [if_neg (by simp [now.ix, now.free]), if_neg (by simp [now.defined]), if_neg (by simp [now.open_, now.lanes]), shown]
  unfold State.show
  rw [State.decideOffered_keepOffer now]

/-- What the row shows of the decision `t`. -/
theorem State.axisRow_shows {t : State} (decided : (s.deciding a).decideCmd a { origin := { src := src }, cmd := c } = t)
    (books : t.book.length = s.book.length) :
    Answers (fun u => u.ax = t.ax ∧ (u.bookOf a).cmdTag = (t.bookOf a).cmdTag ∧ (u.bookOf a).rejTag = (t.bookOf a).rejTag ∧
      (u.bookOf a).rejects = (t.bookOf a).rejects ∧ (u.bookOf a).stopLatch = (t.bookOf a).stopLatch) (s.axisRow a src c) := by
  rw [State.axisRow_eq now c, decided]
  refine .next ⟨rfl, ?_⟩
  have shown : ((s.keepOffer a { origin := { src := src }, cmd := c }).show fun _ => t).bookOf a =
      ((s.keepOffer a { origin := { src := src }, cmd := c }).bookOf a).show (t.bookOf a) :=
    nth_zipWith (by simpa [State.keepOffer] using now.book) (books ▸ now.book)
  rw [shown]
  exact ⟨rfl, rfl, rfl, rfl⟩

/-- An accepted command shows the axis that it makes, and its tag (R252). -/
theorem State.axisRow_accepts {t : State} (reason : (s.deciding a).rejectReason a c = 0)
    (take : (s.deciding a).takeCmd a s.nextBoundary c = (t, 0)) (books : t.book.length = s.book.length) :
    Answers (fun u => u.ax = t.ax ∧ (u.bookOf a).cmdTag = c.tag ∧ (u.bookOf a).stopLatch = (t.bookOf a).stopLatch)
      (s.axisRow a src c) := by
  have decided : (s.deciding a).decideCmd a { origin := { src := src }, cmd := c } =
      t.acceptCmd a { origin := { src := src }, cmd := c } := by
    unfold State.decideCmd
    extract_lets r r'
    have room : (s.deciding a).forwardFull { src := src } = false := now.room
    have none : r' = 0 := by simp [r', r, reason, room]
    rw [if_neg (by simp [none]), show (s.deciding a).takeCmd a (s.deciding a).nextBoundary c = (t, 0) from take]
    rfl
  have book : ((t.acceptCmd a { origin := { src := src }, cmd := c }).bookOf a).cmdTag = c.tag ∧
      ((t.acceptCmd a { origin := { src := src }, cmd := c }).bookOf a).stopLatch = (t.bookOf a).stopLatch ∧
      (t.acceptCmd a { origin := { src := src }, cmd := c }).book.length = t.book.length := by
    unfold State.acceptCmd
    extract_lets survey aborted
    have same : aborted.book = t.book := by unfold aborted; split <;> rfl
    have kept (x : State) : ((x.forward { src := src } (.axis a c)).reply { src := src } 0 0).book = x.book :=
      (((State.forward_keeps ..).mono rfl : Keeps [.twin, .replies] x _).onto _ rfl (State.reply_keeps ..)).get .book rfl
    have tagged := State.bookOf_onBook (s := aborted) (a := a) (same ▸ books ▸ now.book) fun b => { b with cmdTag := c.tag }
    have of_book {x y : State} (e : x.book = y.book) : x.bookOf a = y.bookOf a := by unfold State.bookOf; rw [e]
    refine ⟨?_, ?_, ?_⟩
    · rw [of_book (kept _), tagged]
    · rw [of_book (kept _), tagged, of_book same]
    · rw [kept]
      exact (List.length_modify ..).trans (congrArg List.length same)
  refine (State.axisRow_shows now c decided (book.2.2.trans books)).mono fun u hu => ?_
  obtain ⟨ax, tag, _, _, latch⟩ := hu
  exact ⟨ax.trans ((State.acceptCmd_keeps ..).get .ax rfl), tag.trans book.1, latch.trans book.2.1⟩

/-- A rejected command leaves every axis; its tag is held and counted (R252). -/
theorem State.axisRow_rejects {r : Nat} (reason : (s.deciding a).rejectReason a c = r) (ne : r ≠ 0) :
    Answers (fun u => (u.bookOf a).rejTag = c.tag ∧ (u.bookOf a).rejects = inc32 (s.bookOf a).rejects ∧
      (u.bookOf a).cmdTag = (s.bookOf a).cmdTag ∧ u.ax = s.ax) (s.axisRow a src c) := by
  have decided : (s.deciding a).decideCmd a { origin := { src := src }, cmd := c } =
      (s.deciding a).rejectCmd a { origin := { src := src }, cmd := c } r := by
    unfold State.decideCmd
    extract_lets r1 r2
    have some_ : r2 = r := by simp [r2, r1, reason, ne]
    rw [if_pos (by rw [some_]; exact ne), some_]
  have book : ((s.deciding a).rejectCmd a { origin := { src := src }, cmd := c } r).book =
      ((s.deciding a).onBook a fun b => { b with rejTag := c.tag, rejects := inc32 b.rejects }).book := by
    unfold State.rejectCmd
    extract_lets told raised
    have replied : (raised.reply { src := src } (if r = 6 then 3 else 1) r).book = raised.book :=
      (State.reply_keeps ..).get .book rfl
    exact replied.trans (State.raise_book told ..)
  have inDeciding : a < (s.deciding a).book.length := by simpa [State.deciding] using now.book
  have tagged := State.bookOf_onBook inDeciding fun b => { b with rejTag := c.tag, rejects := inc32 b.rejects }
  have at_ : ((s.deciding a).rejectCmd a { origin := { src := src }, cmd := c } r).bookOf a =
      { s.bookOf a with offered := [], decided := true, rejTag := c.tag, rejects := inc32 (s.bookOf a).rejects } := by
    rw [State.deciding_bookOf now.book] at tagged
    rw [← tagged]
    unfold State.bookOf
    rw [book]
  refine (State.axisRow_shows now c decided (by rw [book]; simp [State.deciding])).mono fun u hu => ?_
  obtain ⟨ax, cmdTag, rejTag, rejects, _⟩ := hu
  rw [at_] at cmdTag rejTag rejects
  exact ⟨rejTag, rejects, cmdTag, ax.trans ((State.rejectCmd_keeps ..).get .ax rfl)⟩

end

/-! ## Reasons for rejection -/

theorem State.deciding_usable {s : State} {a : Nat} (h : a < s.book.length) : (s.deciding a).usable a = s.usable a := by
  unfold State.usable
  rw [State.deciding_bookOf h]
  rfl

theorem State.deciding_atEase {s : State} {a : Nat} (h : a < s.book.length) : (s.deciding a).atEase a = s.atEase a := by
  unfold State.atEase
  rw [State.deciding_usable h, State.deciding_bookOf h]
  rfl

/-- The parts of `usable`. -/
theorem State.usable_iff (s : State) (a : Nat) :
    s.usable a = true ↔ s.defined a = true ∧ s.measuring a = false ∧ (s.bookOf a).fault = false := by
  simp [State.usable, and_assoc]

/-- The parts of `atEase`. -/
theorem State.atEase_iff (s : State) (a : Nat) :
    s.atEase a = true ↔ s.usable a = true ∧ (s.bookOf a).stopLatch = false ∧ s.homing a = false ∧ (s.axOf a).ramp = false ∧
      (s.axOf a).disabling = false := by
  simp [State.atEase, and_assoc]

/-- The device mode permits the mode that a command asks for. -/
def State.permits (s : State) (c : AxCmd) : Bool :=
  match targetMode c with | some m => modePermits s.mode.mode m | none => true

/-- An axis at ease rejects a listed, permitted command for the last reasons alone. -/
theorem State.rejectReason_atEase {s : State} {a : Nat} {c : AxCmd} (ease : s.atEase a = true) (listed : s.cmdListed a c = true)
    (permit : s.permits c = true) (learned : c.cmd = 1 → s.commLearned a = true) : s.rejectReason a c = s.cmdReason a c := by
  obtain ⟨usable, latch, homing, ramp, disabling⟩ := (s.atEase_iff a).mp ease
  obtain ⟨defined, measuring, fault⟩ := (s.usable_iff a).mp usable
  unfold State.rejectReason
  extract_lets x
  rw [if_neg (by simp [defined, measuring]), if_neg (by simp [listed]), if_neg (by simp [fault]), if_neg (by simp [homing]),
    if_neg (by simp [x, ramp, disabling]), if_neg (by
      unfold State.permits at permit
      cases mode : targetMode c with
      | none => simp
      | some m =>
        rw [mode] at permit
        simp [show modePermits s.mode.mode m = true from permit]), if_neg (fun k => by simp [learned k.1] at k),
    if_neg (by simp [latch])]

/-- A stop or DISABLE is rejected for the last reasons alone, at ease or not. -/
theorem State.rejectReason_stop {s : State} {a : Nat} {c : AxCmd} (usable : s.usable a = true) (listed : s.cmdListed a c = true)
    (stop : [2, 7, 9].contains c.cmd = true) : s.rejectReason a c = s.cmdReason a c := by
  obtain ⟨defined, measuring, fault⟩ := (s.usable_iff a).mp usable
  have cmd : c.cmd = 2 ∨ c.cmd = 7 ∨ c.cmd = 9 := by simpa using stop
  have target : targetMode c = none := by
    unfold targetMode
    rcases cmd with k | k | k <;> simp [k]
  have still : moving c = false := by
    unfold moving
    rcases cmd with k | k | k <;> rw [k] <;> rfl
  have others : [2, 7, 9, 12].contains c.cmd = true := by rcases cmd with k | k | k <;> rw [k] <;> rfl
  unfold State.rejectReason
  extract_lets x
  rw [if_neg (by simp [defined, measuring]), if_neg (by simp [listed]), if_neg (by simp [fault]), if_neg (by simp [cmd]),
    if_neg (by rw [others]; simp), if_neg (by simp [target]), if_neg (by omega), if_neg (by simp [still])]

/-- A stop or DISABLE is for an enabled axis (R252). -/
theorem State.cmdReason_stop (s : State) (a : Nat) {c : AxCmd} (stop : [2, 7, 9].contains c.cmd = true) :
    s.cmdReason a c = if (s.axOf a).enabled then 0 else 8 := by
  have cmd : c.cmd = 2 ∨ c.cmd = 7 ∨ c.cmd = 9 := by simpa using stop
  unfold State.cmdReason
  rcases cmd with k | k | k <;> simp [k]

theorem State.axOf_of_ax {s t : State} (h : t.ax = s.ax) (a : Nat) : t.axOf a = s.axOf a := by
  unfold State.axOf
  rw [h]

/-- How many axes and books there are. -/
def State.axisBanks (s : State) : Nat × Nat := (s.ax.length, s.book.length)

namespace Fixes

variable {s t u : State}

theorem banks_keeps {W : List Fld} (h : Fixes State.axisBanks s t) (k : Keeps W t u) (wa : W.contains .ax = false)
    (wb : W.contains .book = false) : Fixes State.axisBanks s u :=
  h.then_ (Prod.ext (congrArg List.length (k.get .ax wa)) (congrArg List.length (k.get .book wb)))

theorem banks_onAx {a : Nat} {f : Axis → Axis} (h : Fixes State.axisBanks s t) : Fixes State.axisBanks s (t.onAx a f) :=
  h.then_ (Prod.ext (List.length_modify ..) rfl)

theorem banks_onBook {a : Nat} {f : AxisBook → AxisBook} (h : Fixes State.axisBanks s t) :
    Fixes State.axisBanks s (t.onBook a f) := h.then_ (Prod.ext rfl (List.length_modify ..))

theorem banks_ax (h : Fixes State.axisBanks s t) : t.ax.length = s.ax.length := congrArg Prod.fst h.eq

theorem banks_book (h : Fixes State.axisBanks s t) : t.book.length = s.book.length := congrArg Prod.snd h.eq

end Fixes

theorem State.deciding_banks (a : Nat) (s : State) : Fixes State.axisBanks s (s.deciding a) := .banks_onBook (.refl s)

/-- A quick stop keeps the number of axes and books. -/
theorem State.takeQuick_banks (a : Nat) (k : RampThen) (cause : Nat) (s : State) :
    Fixes State.axisBanks s (s.takeQuick a k cause) := by
  unfold State.takeQuick
  extract_lets failed broken
  have hFailed : Fixes State.axisBanks s failed :=
    .ite ((Fixes.refl s).banks_keeps (State.homeFail_keeps ..) rfl rfl) (.refl s)
  have hBroken : Fixes State.axisBanks s broken := .ite hFailed.banks_onBook hFailed
  exact hBroken.banks_onAx

theorem State.enterHeld_banks (a : Nat) (s : State) : Fixes State.axisBanks s (s.enterHeld_ a) := by
  unfold State.enterHeld_
  extract_lets off
  have h : Fixes State.axisBanks s off := by
    unfold off
    split
    · exact (Fixes.refl s).banks_keeps (State.setGc_keeps ..) rfl rfl
    · exact .refl s
  exact h.banks_onAx

/-! ## ENABLE and DISABLE (R247, R248, R252) -/

section
variable {s : State} {a src : Nat} (now : Takes s a src)
include now

theorem State.deciding_reason {c : AxCmd} (ease : s.atEase a = true) (listed : s.cmdListed a c = true)
    (permit : s.permits c = true) (learned : c.cmd = 1 → s.commLearned a = true) :
    (s.deciding a).rejectReason a c = (s.deciding a).cmdReason a c :=
  State.rejectReason_atEase ((State.deciding_atEase now.book).trans ease) listed permit learned

theorem State.deciding_stopReason {c : AxCmd} (usable : s.usable a = true) (listed : s.cmdListed a c = true)
    (stop : [2, 7, 9].contains c.cmd = true) :
    (s.deciding a).rejectReason a c = if (s.axOf a).enabled then 0 else 8 := by
  rw [State.rejectReason_stop ((State.deciding_usable now.book).trans usable) listed stop, State.cmdReason_stop _ _ stop]
  rfl

theorem execEnable_enables (ease : s.atEase a = true) (off : (s.axOf a).enabled = false)
    (permit : modePermits s.mode.mode 8 = true) (learned : s.commLearned a = true) (ready : s.stoReady a = true)
    (first : s.firstKind s.safe.a a = false) (tag : Nat) :
    Answers (fun u => (u.axOf a).enabled = true ∧ (u.axOf a).mode = 8 ∧ (u.axOf a).pRef = (s.bookOf a).pf ∧
      (u.bookOf a).cmdTag = tag) (execEnable a src tag s) := by
  have first' : (s.deciding a).firstKind (s.deciding a).safe.a a = false := by
    have causes : (nth (s.deciding a).book a).causes = (nth s.book a).causes :=
      (congrArg AxisBook.causes (State.deciding_bookOf now.book) :)
    unfold State.firstKind at first ⊢
    rw [causes]
    exact first
  have reason : (s.deciding a).rejectReason a { cmd := 1, tag := tag } = 0 := by
    rw [State.deciding_reason now (c := { cmd := 1, tag := tag }) ease (by simp [State.cmdListed]) permit fun _ => learned]
    unfold State.cmdReason
    simp only
    rw [if_neg (by rw [show ((s.deciding a).axOf a).enabled = false from off]; simp),
      if_pos (by rw [show (s.deciding a).stoReady a = true from ready, first']; rfl)]
  have enabled := State.axOf_onAx (s := s.deciding a) now.ax
  refine (State.axisRow_accepts now _ reason rfl (State.deciding_banks a s).banks_book).mono fun u hu => ?_
  obtain ⟨ax, hTag, _⟩ := hu
  rw [State.axOf_of_ax ax]
  unfold State.takeEnable
  rw [enabled, State.deciding_bookOf now.book]
  exact ⟨rfl, rfl, rfl, hTag⟩

theorem execDisable_begins (usable : s.usable a = true) (on : (s.axOf a).enabled = true) (tag : Nat) :
    Answers (fun u => (u.axOf a).disabling = true ∧ (u.bookOf a).cmdTag = tag) (execDisable a src tag s) := by
  have reason : (s.deciding a).rejectReason a { cmd := 2, tag := tag } = 0 := by
    rw [State.deciding_stopReason now usable (by simp [State.cmdListed]) (by simp), if_pos on]
  have banks : ∃ t, Fixes State.axisBanks s t ∧
      (s.deciding a).takeDisable a = t.onAx a fun x => { x with disabling := true } := by
    unfold State.takeDisable
    extract_lets x begun broken
    have hBegun : Fixes State.axisBanks (s.deciding a) begun :=
      .ite ((Fixes.refl _).banks_keeps (State.homeFail_keeps ..) rfl rfl)
        (.ite (.ite (.refl _) (State.enterHeld_banks ..)) (State.takeQuick_banks ..))
    exact ⟨broken, (State.deciding_banks a s).trans (.ite hBegun.banks_onBook hBegun), rfl⟩
  obtain ⟨t, ht, taken⟩ := banks
  refine (State.axisRow_accepts now _ reason (congrArg (·, 0) taken) ht.banks_onAx.banks_book).mono fun u hu => ?_
  obtain ⟨ax, hTag, _⟩ := hu
  rw [State.axOf_of_ax ax, State.axOf_onAx (ht.banks_ax.symm ▸ now.ax)]
  exact ⟨rfl, hTag⟩

/-- A stop or DISABLE of an axis that is not enabled. -/
theorem State.axisRow_rejectsStop (usable : s.usable a = true) (off : (s.axOf a).enabled = false) {k tag : Nat}
    (stop : [2, 7, 9].contains k = true) :
    Answers (fun u => (u.bookOf a).rejTag = tag ∧ (u.bookOf a).rejects = inc32 (s.bookOf a).rejects ∧
      (u.bookOf a).cmdTag = (s.bookOf a).cmdTag ∧ u.ax = s.ax) (s.axisRow a src { cmd := k, tag := tag }) := by
  have listed : s.cmdListed a { cmd := k, tag := tag } = true := by
    have : k = 2 ∨ k = 7 ∨ k = 9 := by simpa using stop
    rcases this with rfl | rfl | rfl <;> simp [State.cmdListed]
  refine State.axisRow_rejects now { cmd := k, tag := tag } (r := 8) ?_ (by decide)
  rw [State.deciding_stopReason now usable listed stop, if_neg (by simp [off])]

end

/-- Settles O22: an axis at ease accepts ENABLE, an enabled one DISABLE; what one that is not enabled rejects leaves every axis. -/
theorem enableDisable : Obligations.EnableDisable := by
  refine ⟨⟨fun s a src tag now ease off permit learned ready first => ?_, fun s a src tag now usable on => ?_⟩,
    fun s a src tag now usable off c hc => ?_⟩
  · exact execEnable_enables ((s.takesNow_iff a src).mp now) ease off permit learned ready first tag
  · exact execDisable_begins ((s.takesNow_iff a src).mp now) usable on tag
  · have now' := (s.takesNow_iff a src).mp now
    rcases hc with rfl | rfl | rfl
    · exact State.axisRow_rejectsStop now' usable off rfl
    · exact State.axisRow_rejectsStop now' usable off rfl
    · exact State.axisRow_rejectsStop now' usable off rfl

/-! ## MODE and HOLD (R249, R251, R273) -/

theorem State.preload_carries (s : State) (a m : Nat) (x : Axis) :
    (s.preload a m x).mode = m ∧ (s.preload a m x).pRef = x.pRef ∧ (s.preload a m x).vFF = x.vFF := by
  unfold State.preload
  extract_lets
  split
  · split
    · exact ⟨rfl, rfl, rfl⟩
    · exact ⟨rfl, rfl, rfl⟩
  · exact ⟨rfl, rfl, rfl⟩

/-- A mode disagrees with the reference that it takes over by nothing. -/
theorem State.refusal_none (s : State) (a : Nat) : s.refusal a 0 0 0 = none := by simp [State.refusal]

/-- A hand-over from Held or Velocity into Held, Velocity or Position carries the reference and its speed over, where Held is
entered from rest alone (R273). -/
theorem State.handover_carries {s : State} {a m restAt : Nat} {i : Int} (from_ : (s.axOf a).mode ≠ 6)
    (into : m = 1 ∨ m = 2 ∨ m = 8 ∧ (s.axOf a).vFF = 0) :
    ∃ x, s.handover a m restAt i = .ok x ∧ x.mode = m ∧ x.pRef = (s.axOf a).pRef ∧ x.vFF = (s.axOf a).vFF := by
  obtain ⟨hm, hp, hv⟩ := s.preload_carries a m (s.axOf a)
  unfold State.handover
  extract_lets old new s' r dp dv
  have speed : dv = 0 := by
    unfold dv
    rcases into with rfl | rfl | ⟨rfl, rest⟩
    · rfl
    · rfl
    · have still : new.decel = false := by
        unfold new State.preload
        extract_lets
        rfl
      have out : r = new.stepRef 0 := by
        unfold r State.modeRef
        simp [still]
      rw [if_pos (by simp), out, show old.vFF = 0 from rest]
      rfl
  have place : dp = 0 := if_neg (by omega)
  rw [if_neg (by omega), speed, place]
  unfold State.handRef
  extract_lets k blended di
  have current : di = 0 := if_neg from_
  rw [current, State.refusal_none]
  exact ⟨_, rfl, hm, hp, hv⟩

theorem State.changeMode_carries {s : State} {a m restAt : Nat} {i : Int} (h : a < s.ax.length) (from6 : (s.axOf a).mode ≠ 6)
    (from4 : (s.axOf a).mode ≠ 4) (into : m = 1 ∨ m = 2 ∨ m = 8 ∧ (s.axOf a).vFF = 0) :
    ∃ t, s.changeMode a m restAt i = (t, true) ∧ Fixes State.axisBanks s t ∧ (t.axOf a).mode = m ∧
      (t.axOf a).pRef = (s.axOf a).pRef ∧ (t.axOf a).vFF = (s.axOf a).vFF := by
  obtain ⟨x, ok, mode, pRef, vFF⟩ := State.handover_carries (restAt := restAt) (i := i) from6 into
  unfold State.changeMode
  extract_lets from_
  rw [ok]
  dsimp -zeta only
  extract_lets entered coupled
  have held : coupled = entered := by
    unfold coupled
    split
    · omega
    · exact if_neg from4
    · rfl
  have axis : entered.axOf a = x := State.axOf_onAx h _
  rw [held]
  refine ⟨_, rfl, ((Fixes.refl s).banks_onAx.banks_keeps (State.raise_keeps ..) rfl rfl), ?_⟩
  rw [State.axOf_of_ax (State.raise_ax entered ..), axis]
  exact ⟨mode, pRef, vFF⟩

section
variable {s : State} {a src : Nat} (now : Takes s a src)
include now

/-- A command that asks for another of these modes, and for nothing more. -/
theorem State.axisRow_changes {c : AxCmd} {m : Nat} (asks : targetMode c = some m) (cmd : c.cmd = 3 ∨ c.cmd = 11)
    (reason : (s.deciding a).rejectReason a c = 0) (other : m ≠ (s.axOf a).mode) (from6 : (s.axOf a).mode ≠ 6)
    (from4 : (s.axOf a).mode ≠ 4) (into : m = 1 ∨ m = 2 ∨ m = 8 ∧ (s.axOf a).vFF = 0) :
    Answers (fun u => (u.axOf a).mode = m ∧ (u.axOf a).pRef = (s.axOf a).pRef ∧ (u.axOf a).vFF = (s.axOf a).vFF ∧
      (u.bookOf a).cmdTag = c.tag) (s.axisRow a src c) := by
  obtain ⟨t, changed, banks, mode, pRef, vFF⟩ := State.changeMode_carries (s := s.deciding a) (m := m) (restAt := s.nextBoundary)
    (i := (s.axOf a).iq) now.ax from6 from4 into
  have noPhase : (s.deciding a).phaseMove a c = none := if_neg (by omega)
  have other' : m ≠ ((s.deciding a).axOf a).mode := other
  have take : (s.deciding a).takeCmd a s.nextBoundary c = (t, 0) := by
    have off : m ≠ 0 := by omega
    have homing : m ≠ 7 := by omega
    have changed' : (s.deciding a).changeMode a m s.nextBoundary ((s.deciding a).axOf a).iq = (t, true) := changed
    unfold State.takeCmd
    rcases cmd with k | k
    · simp [k, noPhase, asks, off, homing, other', changed']
    · simp [k, noPhase, asks, other', changed']
  refine (State.axisRow_accepts now _ reason take ((State.deciding_banks a s).trans banks).banks_book).mono fun u hu => ?_
  obtain ⟨ax, hTag, _⟩ := hu
  rw [State.axOf_of_ax ax]
  exact ⟨mode, pRef, vFF, hTag⟩

omit now in
/-- An enabled axis outside Gear, Path and Torque enters another mode when it may. -/
theorem State.deciding_modeReason {c : AxCmd} {m : Nat} (asks : targetMode c = some m) (cmd : c.cmd = 3 ∧ c.arg ≠ 0 ∨ c.cmd = 11)
    (on : (s.axOf a).enabled = true) (other : m ≠ (s.axOf a).mode) (from5 : (s.axOf a).mode ≠ 5)
    (entry : s.entryOk a m = true) : (s.deciding a).cmdReason a c = 0 := by
  have noPhase : (s.deciding a).phaseMove a c = none := if_neg (by omega)
  have idle : (s.deciding a).groupBusy a = false := by
    have : ((s.deciding a).axOf a).mode ≠ 5 := from5
    simp [State.groupBusy, this]
  have on' : ((s.deciding a).axOf a).enabled = true := on
  have other' : m ≠ ((s.deciding a).axOf a).mode := other
  have entry' : (s.deciding a).entryOk a m = true := entry
  unfold State.cmdReason
  rcases cmd with ⟨k, arg⟩ | k
  · simp [k, arg, noPhase, idle, asks, on', other', entry']
  · simp [k, noPhase, idle, asks, on', entry']

theorem execMode_enters {m tag : Nat} (ease : s.atEase a = true) (on : (s.axOf a).enabled = true) (held : (s.axOf a).mode = 8)
    (into : m = 2 ∨ m = 1 ∧ (s.axOf a).homed = true) (permit : modePermits s.mode.mode m = true) :
    Answers (fun u => (u.axOf a).mode = m ∧ (u.axOf a).pRef = (s.axOf a).pRef ∧ (u.axOf a).vFF = (s.axOf a).vFF ∧
      (u.bookOf a).cmdTag = tag) (execMode a src m tag s) := by
  have entry : s.entryOk a m = true := by
    rcases into with rfl | ⟨rfl, homed⟩
    · simp [State.entryOk, on]
    · simp [State.entryOk, on, homed]
  have listed : s.cmdListed a { cmd := 3, arg := m, tag := tag } = true := by
    rcases into with rfl | ⟨rfl, _⟩ <;> simp [State.cmdListed]
  refine State.axisRow_changes now (c := { cmd := 3, arg := m, tag := tag }) rfl (.inl rfl) ?_ (by omega) (by omega) (by omega)
    (by omega)
  rw [State.deciding_reason now ease listed permit (fun k => by simp at k)]
  exact State.deciding_modeReason (m := m) rfl (.inl ⟨rfl, show m ≠ 0 by omega⟩) on (by omega) (by omega) entry

theorem execHold_holds {tag : Nat} (ease : s.atEase a = true) (on : (s.axOf a).enabled = true) (velocity : (s.axOf a).mode = 2)
    (rest : (s.axOf a).vFF = 0) (permit : modePermits s.mode.mode 8 = true) :
    Answers (fun u => (u.axOf a).mode = 8 ∧ (u.axOf a).pRef = (s.axOf a).pRef ∧ (u.axOf a).vFF = (s.axOf a).vFF ∧
      (u.bookOf a).cmdTag = tag) (execHold a src tag s) := by
  refine State.axisRow_changes now (c := { cmd := 11, tag := tag }) rfl (.inr rfl) ?_ (by omega) (by omega) (by omega)
    (.inr (.inr ⟨rfl, rest⟩))
  rw [State.deciding_reason now (c := { cmd := 11, tag := tag }) ease (by simp [State.cmdListed]) permit (fun k => by simp at k)]
  exact State.deciding_modeReason rfl (.inr rfl) on (by omega) (by omega) (by simp [State.entryOk, on])

end

/-- Settles O23: these hand-overs are refused for no disagreement, so the reference and its speed are carried over. -/
theorem modeChange : Obligations.ModeChange := by
  refine ⟨fun s a src m tag now ease on held into permit => ?_, fun s a src tag now ease on velocity rest permit => ?_⟩
  · exact execMode_enters ((s.takesNow_iff a src).mp now) ease on held into permit
  · refine (execHold_holds ((s.takesNow_iff a src).mp now) ease on velocity rest permit).mono fun u hu => ?_
    exact ⟨hu.1, hu.2.1, hu.2.2.1.trans rest, hu.2.2.2⟩

/-! ## Moves from rest (R254, R259, R264) -/

/-- A generator that starts a move in a direction that it may take. -/
theorem Gen.start_pos {m : Move} {g : Gen} (may : g.dwellOver = true) (position : m.vel = false) :
    (g.start m).phase = .pos ∧ (g.start m).target = m.target ∧ (g.start m).vcap = m.vcap := by
  unfold Gen.start
  extract_lets d started
  rw [if_neg (by simp [Gen.mayStart, may]), if_neg (by simp [position])]
  exact ⟨rfl, rfl, rfl⟩

theorem Gen.start_vel {m : Move} {g : Gen} (may : g.dwellOver = true) (velocity : m.vel = true) :
    (g.start m).phase = .vel ∧ (g.start m).vtgt = m.target * 65536 := by
  unfold Gen.start
  extract_lets d started
  rw [if_neg (by simp [Gen.mayStart, may]), if_pos velocity]
  exact ⟨rfl, rfl⟩

theorem Gen.retarget_rest {p : Prof} {m : Move} {land : Option (List Int)} {g : Gen} (rest : g.phase = .rest) (still : g.ve = 0) :
    g.retarget p m land = (g.start m, .goes) := by
  unfold Gen.retarget
  cases next : g.next <;> simp [rest, still]

theorem State.onAx_congr {s : State} {a : Nat} {f g : Axis → Axis} (e : f (s.axOf a) = g (s.axOf a)) : s.onAx a f = s.onAx a g :=
  congrArg (fun l => { s with ax := l }) (modify_congr_at e)

/-- A move given to a generator at rest starts at once. -/
theorem State.giveMove_rest {s : State} {a : Nat} {m : Move} (rest : (s.axOf a).gen.phase = .rest)
    (position : m.vel = false → (s.axOf a).gen.ve = 0) :
    s.giveMove a m = s.onAx a fun x => { x with gen := x.gen.start m, kept := none, moveDone := false } := by
  unfold State.giveMove
  extract_lets x p
  by_cases vel : m.vel = true
  · rw [if_pos vel]
    refine State.onAx_congr ?_
    simp only [rest]
  · rw [if_neg vel, Gen.retarget_rest (g := x.gen) rest (position (by simpa using vel))]
    exact State.onAx_congr rfl

section
variable {s : State} {a src : Nat} (now : Takes s a src)

omit now in
/-- A move command in the mode that it asks for. -/
theorem State.deciding_moveReason {c : AxCmd} (move : c.cmd = 4 ∨ c.cmd = 5 ∨ c.cmd = 6) (asks : targetMode c = some (s.axOf a).mode)
    (on : (s.axOf a).enabled = true) (from_ : (s.axOf a).mode = 1 ∨ (s.axOf a).mode = 2)
    (soft : c.cmd = 4 ∨ c.cmd = 5 → s.softBroken a (s.moveTarget a c) = false ∧
      s.limitActive a (sgn (s.moveTarget a c - (s.axOf a).pRef)) = false)
    (speed : c.cmd = 6 → s.limitActive a (sgn c.value) = false) : (s.deciding a).cmdReason a c = 0 := by
  have mode : ((s.deciding a).axOf a).mode = (s.axOf a).mode := rfl
  have noPhase : (s.deciding a).phaseMove a c = none := if_neg (by omega)
  have idle : (s.deciding a).groupBusy a = false := by
    have : ((s.deciding a).axOf a).mode ≠ 5 := by omega
    simp [State.groupBusy, this]
  have not4 : (s.axOf a).mode ≠ 4 := by omega
  have on' : ((s.deciding a).axOf a).enabled = true := on
  have soft' : c.cmd = 4 ∨ c.cmd = 5 → (s.deciding a).softBroken a ((s.deciding a).moveTarget a c) = false ∧
      (s.deciding a).limitActive a (sgn ((s.deciding a).moveTarget a c - ((s.deciding a).axOf a).pRef)) = false := soft
  have speed' : c.cmd = 6 → (s.deciding a).limitActive a (sgn c.value) = false := speed
  unfold State.cmdReason
  rcases move with k | k | k
  · simp [k, noPhase, idle, asks, on', mode, not4, soft' (.inl k)]
  · simp [k, noPhase, idle, asks, on', mode, not4, soft' (.inr k)]
  · simp [k, noPhase, idle, asks, on', mode, speed' k]

include now in
/-- From rest, an accepted move is in the generator at once. -/
theorem State.axisRow_moves {c : AxCmd} (move : c.cmd = 4 ∨ c.cmd = 5 ∨ c.cmd = 6) (asks : targetMode c = some (s.axOf a).mode)
    (reason : (s.deciding a).rejectReason a c = 0) (from_ : (s.axOf a).mode = 1 ∨ (s.axOf a).mode = 2)
    (steady : (s.axOf a).decel = false) (rest : (s.axOf a).gen.phase = .rest) (still : (s.axOf a).gen.ve = 0)
    (kept : (s.axOf a).kept = none) :
    Answers (fun u => (u.axOf a).gen = (s.axOf a).gen.start (s.moveOf a c) ∧ (u.bookOf a).cmdTag = c.tag)
      (s.axisRow a src c) := by
  have noPhase : (s.deciding a).phaseMove a c = none := if_neg (by have : ((s.deciding a).axOf a).mode = (s.axOf a).mode := rfl; omega)
  have given : (s.deciding a).takeMove a (s.moveOf a c) = (s.deciding a).onAx a fun x =>
      { x with gen := x.gen.start (s.moveOf a c), kept := none, moveDone := false } := by
    unfold State.takeMove
    extract_lets x
    rw [if_neg (by simp [x, show ((s.deciding a).axOf a).kept = none from kept])]
    exact State.giveMove_rest rest fun _ => still
  have take : (s.deciding a).takeCmd a s.nextBoundary c = ((s.deciding a).onAx a fun x =>
      { x with gen := x.gen.start (s.moveOf a c), kept := none, moveDone := false }, 0) := by
    have steady' : ((s.deciding a).axOf a).decel = false := steady
    have mode : ((s.deciding a).axOf a).mode = (s.axOf a).mode := rfl
    have given' : (s.deciding a).takeMove a ((s.deciding a).moveOf a c) = _ := given
    unfold State.takeCmd
    rcases move with k | k | k <;> simp [k, noPhase, asks, mode, steady', given']
  refine (State.axisRow_accepts now _ reason take (State.deciding_banks a s).banks_onAx.banks_book).mono fun u hu => ?_
  obtain ⟨ax, hTag, _⟩ := hu
  rw [State.axOf_of_ax ax, State.axOf_onAx (s := s.deciding a) now.ax]
  exact ⟨rfl, hTag⟩

variable {prof vcap tag : Nat} {v : Int} (ease : s.atEase a = true) (on : (s.axOf a).enabled = true)
  (steady : (s.axOf a).decel = false) (rest : (s.axOf a).gen.phase = .rest) (still : (s.axOf a).gen.ve = 0)
  (kept : (s.axOf a).kept = none) (listed : prof < s.nat AXIS.prof_count a) (ended : (s.axOf a).gen.dwellOver = true)
include now ease on steady rest still kept listed ended

theorem execMoveAbs_starts {fl : Nat} (flags : fl < 3) (mode : (s.axOf a).mode = 1) (permit : modePermits s.mode.mode 1 = true)
    (straight : s.rotary a = false) (soft : s.softBroken a v = false) (limit : s.limitActive a (sgn (v - (s.axOf a).pRef)) = false) :
    Answers (fun u => (u.axOf a).gen.phase = .pos ∧ (u.axOf a).gen.target = v ∧ (u.axOf a).gen.vcap = vcap ∧
      (u.bookOf a).cmdTag = tag) (execMoveAbs a src prof fl v vcap tag s) := by
  unfold execMoveAbs
  generalize hc : ({ cmd := 4, arg := prof, flags := fl, value := v, vcap := vcap, tag := tag } : AxCmd) = c
  have asks : targetMode c = some (s.axOf a).mode := by rw [mode, ← hc]; rfl
  have target : s.moveTarget a c = v := by simp [State.moveTarget, straight, ← hc]
  have move : s.moveOf a c = { target := v, prof := s.profIx a c, vcap := vcap } := by
    rw [State.moveOf, if_neg (by simp [← hc]), target, ← hc]
  have reason : (s.deciding a).rejectReason a c = 0 := by
    rw [State.deciding_reason now ease (by simp [State.cmdListed, flags, listed, ← hc]) (by rw [← hc]; exact permit)
      (fun k => by simp [← hc] at k)]
    exact State.deciding_moveReason (.inl (by rw [← hc])) asks on (.inl mode) (fun _ => by rw [target]; exact ⟨soft, limit⟩)
      (fun k => by simp [← hc] at k)
  refine (State.axisRow_moves now (.inl (by rw [← hc])) asks reason (.inl mode) steady rest still kept).mono fun u hu => ?_
  obtain ⟨gen, hTag⟩ := hu
  rw [gen, move]
  obtain ⟨phase, goal, cap⟩ := Gen.start_pos (m := { target := v, prof := s.profIx a c, vcap := vcap }) ended rfl
  exact ⟨phase, goal, cap, hTag.trans (by rw [← hc])⟩

theorem execMoveRel_starts (mode : (s.axOf a).mode = 1) (permit : modePermits s.mode.mode 1 = true)
    (soft : s.softBroken a ((s.axOf a).pRef + v) = false) (limit : s.limitActive a (sgn v) = false) :
    Answers (fun u => (u.axOf a).gen.phase = .pos ∧ (u.axOf a).gen.target = (s.axOf a).pRef + v ∧ (u.bookOf a).cmdTag = tag)
      (execMoveRel a src prof v vcap tag s) := by
  unfold execMoveRel
  generalize hc : ({ cmd := 5, arg := prof, value := v, vcap := vcap, tag := tag } : AxCmd) = c
  have asks : targetMode c = some (s.axOf a).mode := by rw [mode, ← hc]; rfl
  have target : s.moveTarget a c = (s.axOf a).pRef + v := by simp [State.moveTarget, mode, Gen.present, rest, ← hc]
  have move : s.moveOf a c = { target := (s.axOf a).pRef + v, prof := s.profIx a c, vcap := vcap } := by
    rw [State.moveOf, if_neg (by simp [← hc]), target, ← hc]
  have reason : (s.deciding a).rejectReason a c = 0 := by
    rw [State.deciding_reason now ease (by simp [State.cmdListed, listed, ← hc]) (by rw [← hc]; exact permit)
      (fun k => by simp [← hc] at k)]
    exact State.deciding_moveReason (.inr (.inl (by rw [← hc]))) asks on (.inl mode)
      (fun _ => by rw [target, show (s.axOf a).pRef + v - (s.axOf a).pRef = v by omega]; exact ⟨soft, limit⟩) (fun k => by simp [← hc] at k)
  refine (State.axisRow_moves now (.inr (.inl (by rw [← hc]))) asks reason (.inl mode) steady rest still kept).mono fun u hu => ?_
  obtain ⟨gen, hTag⟩ := hu
  rw [gen, move]
  obtain ⟨phase, goal, _⟩ := Gen.start_pos (m := { target := (s.axOf a).pRef + v, prof := s.profIx a c, vcap := vcap }) ended rfl
  exact ⟨phase, goal, hTag.trans (by rw [← hc])⟩

theorem execVelocity_starts (mode : (s.axOf a).mode = 2) (permit : modePermits s.mode.mode 2 = true) (fits : sat v 48 = v)
    (limit : s.limitActive a (sgn v) = false) :
    Answers (fun u => (u.axOf a).gen.phase = .vel ∧ (u.axOf a).gen.vtgt = v * 65536 ∧ (u.bookOf a).cmdTag = tag)
      (execVelocity a src prof v vcap tag s) := by
  unfold execVelocity
  generalize hc : ({ cmd := 6, arg := prof, value := v, vcap := vcap, tag := tag } : AxCmd) = c
  have asks : targetMode c = some (s.axOf a).mode := by rw [mode, ← hc]; rfl
  have move : s.moveOf a c = { vel := true, target := v, prof := s.profIx a c, vcap := vcap } := by
    rw [State.moveOf, if_pos (by simp [← hc]), ← hc]
  have reason : (s.deciding a).rejectReason a c = 0 := by
    rw [State.deciding_reason now ease (by simp [State.cmdListed, listed, fits, ← hc]) (by rw [← hc]; exact permit)
      (fun k => by simp [← hc] at k)]
    exact State.deciding_moveReason (.inr (.inr (by rw [← hc]))) asks on (.inr mode) (fun k => by simp [← hc] at k)
      (fun _ => by rw [← hc]; exact limit)
  refine (State.axisRow_moves now (.inr (.inr (by rw [← hc]))) asks reason (.inr mode) steady rest still kept).mono fun u hu => ?_
  obtain ⟨gen, hTag⟩ := hu
  rw [gen, move]
  obtain ⟨phase, goal⟩ := Gen.start_vel (m := { vel := true, target := v, prof := s.profIx a c, vcap := vcap }) ended rfl
  exact ⟨phase, goal, hTag.trans (by rw [← hc])⟩

end

/-- Settles O24: from rest, with the dwell over, an accepted move is started by the generator at once. -/
theorem movesFromRest : Obligations.MovesFromRest := by
  intro s a src prof vcap tag v now ease on rest still kept steady listed ended
  have now := (s.takesNow_iff a src).mp now
  exact ⟨fun fl flags mode permit straight soft limit =>
      execMoveAbs_starts now ease on steady rest still kept listed ended flags mode permit straight soft limit,
    fun mode permit soft limit => execMoveRel_starts now ease on steady rest still kept listed ended mode permit soft limit,
    fun mode permit fits limit => execVelocity_starts now ease on steady rest still kept listed ended mode permit fits limit⟩

/-! ## STOP, RESUME, QUICK_STOP, TORQUE, RELEASE (R243, R266, R267, R273, R748) -/

/-- A ramp that begins: the axis is in it, where its reference is; the move that it broke off is given up (R748). -/
theorem Axis.startRamp_ramps (k : RampThen) (x : Axis) :
    (x.startRamp k).ramp = true ∧ (x.startRamp k).pRef = x.pRef ∧
      (x.ramp = false → (x.startRamp k).kept = none ∧ (x.startRamp k).gen.phase = .rest) := by
  unfold Axis.startRamp
  by_cases h : x.ramp = true
  · rw [if_pos h]
    exact ⟨h, rfl, fun k => by simp [h] at k⟩
  · rw [if_neg h]
    exact ⟨rfl, rfl, fun _ => ⟨rfl, rfl⟩⟩

section
variable {s : State} {a src tag : Nat} (now : Takes s a src)
include now

theorem execStop_stops (usable : s.usable a = true) (on : (s.axOf a).enabled = true) (homed : s.homing a = false)
    (noRamp : (s.axOf a).ramp = false) (mode : (s.axOf a).mode = 2) (phase : (s.axOf a).gen.phase = .vel)
    (moving : (s.axOf a).gen.ve ≠ 0) :
    Answers (fun u => (u.axOf a).gen.phase = .stop ∧ (u.axOf a).pRef = (s.axOf a).pRef ∧
      (u.axOf a).kept.map (·.target) = some ((s.axOf a).gen.vtgt / 65536) ∧ (u.bookOf a).cmdTag = tag) (execStop a src tag s) := by
  have reason : (s.deciding a).rejectReason a { cmd := 7, tag := tag } = 0 := by
    rw [State.deciding_stopReason now usable (by simp [State.cmdListed]) (by simp), if_pos on]
  have taken : (s.deciding a).takeStop a = (s.deciding a).onAx a ((s.deciding a).stopMove a) := by
    have noRamp' : ((s.deciding a).axOf a).ramp = false := noRamp
    have homed' : (s.deciding a).homing a = false := homed
    have mode' : ((s.deciding a).axOf a).mode = 2 := mode
    unfold State.takeStop
    simp [noRamp', homed', mode']
  refine (State.axisRow_accepts now _ reason (congrArg (·, 0) taken) (State.deciding_banks a s).banks_onAx.banks_book).mono
    fun u hu => ?_
  obtain ⟨ax, hTag, _⟩ := hu
  rw [State.axOf_of_ax ax, State.axOf_onAx (s := s.deciding a) now.ax]
  have phase' : ((s.deciding a).axOf a).gen.phase = .vel := phase
  have moving' : ((s.deciding a).axOf a).gen.ve ≠ 0 := moving
  unfold State.stopMove
  simp only [phase', moving']
  exact ⟨rfl, rfl, rfl, hTag⟩

theorem execResume_resumes {m : Move} (ease : s.atEase a = true) (mode : (s.axOf a).mode = 2) (kept : (s.axOf a).kept = some m)
    (velocity : m.vel = true) (rest : (s.axOf a).gen.phase = .rest) (ended : (s.axOf a).gen.dwellOver = true)
    (limit : s.limitActive a (sgn m.target) = false) :
    Answers (fun u => (u.axOf a).kept = none ∧ (u.axOf a).gen.phase = .vel ∧ (u.axOf a).gen.vtgt = m.target * 65536 ∧
      (u.bookOf a).cmdTag = tag) (execResume a src tag s) := by
  have kept' : ((s.deciding a).axOf a).kept = some m := kept
  have reason : (s.deciding a).rejectReason a { cmd := 8, tag := tag } = 0 := by
    rw [State.deciding_reason now (c := { cmd := 8, tag := tag }) ease (by simp [State.cmdListed]) rfl (fun k => by simp at k)]
    have mode' : ((s.deciding a).axOf a).mode = 2 := mode
    have limit' : (s.deciding a).limitActive a (sgn m.target) = false := limit
    simp [State.cmdReason, kept', mode', velocity, limit']
  let cleared := (s.deciding a).onAx a fun x => { x with kept := none }
  have atCleared : cleared.axOf a = { s.axOf a with kept := none } := State.axOf_onAx (s := s.deciding a) now.ax _
  have given : cleared.giveMove a m = cleared.onAx a fun x => { x with gen := x.gen.start m, kept := none, moveDone := false } :=
    State.giveMove_rest (by rw [atCleared]; exact rest) fun k => by simp [velocity] at k
  have take : (s.deciding a).takeCmd a s.nextBoundary { cmd := 8, tag := tag } = (cleared.onAx a fun x =>
      { x with gen := x.gen.start m, kept := none, moveDone := false }, 0) := by
    rw [← given]
    unfold State.takeCmd
    simp only [kept']
    rfl
  refine (State.axisRow_accepts now _ reason take (State.deciding_banks a s).banks_onAx.banks_onAx.banks_book).mono fun u hu => ?_
  obtain ⟨ax, hTag, _⟩ := hu
  have started := State.axOf_onAx (s := cleared) (a := a) (by simpa [cleared, State.deciding] using now.ax)
    fun x => { x with gen := x.gen.start m, kept := none, moveDone := false }
  rw [State.axOf_of_ax ax, started, atCleared]
  obtain ⟨phase, goal⟩ := Gen.start_vel (m := m) ended velocity
  exact ⟨rfl, phase, goal, hTag⟩

theorem execQuickStop_ramps (usable : s.usable a = true) (on : (s.axOf a).enabled = true) :
    Answers (fun u => (u.axOf a).ramp = true ∧ (u.axOf a).pRef = (s.axOf a).pRef ∧
      ((s.axOf a).ramp = false → (u.axOf a).kept = none ∧ (u.axOf a).gen.phase = .rest) ∧ (u.bookOf a).cmdTag = tag)
      (execQuickStop a src tag s) := by
  have reason : (s.deciding a).rejectReason a { cmd := 9, tag := tag } = 0 := by
    rw [State.deciding_stopReason now usable (by simp [State.cmdListed]) (by simp), if_pos on]
  have taken : ∃ t, Fixes State.axisBanks s t ∧ t.ax = s.ax ∧
      (s.deciding a).takeQuick a .held 0 = t.onAx a (Axis.startRamp .held) := by
    unfold State.takeQuick
    extract_lets failed broken
    have hFailed : Fixes State.axisBanks s failed :=
      .ite ((State.deciding_banks a s).banks_keeps (State.homeFail_keeps ..) rfl rfl) (State.deciding_banks a s)
    have ax : failed.ax = s.ax := by
      unfold failed
      split
      · exact (State.homeFail_keeps a 4 (s.deciding a)).get .ax rfl
      · rfl
    refine ⟨broken, .ite hFailed.banks_onBook hFailed, ?_, rfl⟩
    unfold broken
    split
    · exact ax
    · exact ax
  obtain ⟨t, banks, same, eq⟩ := taken
  refine (State.axisRow_accepts now _ reason (congrArg (·, 0) eq) banks.banks_onAx.banks_book).mono fun u hu => ?_
  obtain ⟨ax, hTag, _⟩ := hu
  obtain ⟨ramp, pRef, gone⟩ := Axis.startRamp_ramps .held (s.axOf a)
  rw [State.axOf_of_ax ax, State.axOf_onAx (same ▸ now.ax), State.axOf_of_ax same]
  exact ⟨ramp, pRef, gone, hTag⟩

theorem execTorque_commands {i : Int} (ease : s.atEase a = true) (on : (s.axOf a).enabled = true) (mode : (s.axOf a).mode = 6)
    (steady : (s.axOf a).decel = false) (permit : modePermits s.mode.mode 6 = true) (limit : s.limitActive a (sgn i) = false) :
    Answers (fun u => (u.axOf a).torqueCmd = i ∧ (u.bookOf a).cmdTag = tag) (execTorque a src i tag s) := by
  have mode' : ((s.deciding a).axOf a).mode = 6 := mode
  have noPhase (c : AxCmd) : (s.deciding a).phaseMove a c = none := if_neg (by omega)
  have reason : (s.deciding a).rejectReason a { cmd := 10, current := i, tag := tag } = 0 := by
    rw [State.deciding_reason now (c := { cmd := 10, current := i, tag := tag }) ease (by simp [State.cmdListed]) permit
      (fun k => by simp at k)]
    have on' : ((s.deciding a).axOf a).enabled = true := on
    have idle : (s.deciding a).groupBusy a = false := by simp [State.groupBusy, mode']
    have limit' : (s.deciding a).limitActive a (sgn i) = false := limit
    simp [State.cmdReason, idle, on', noPhase, targetMode, mode', limit']
  have take : (s.deciding a).takeCmd a s.nextBoundary { cmd := 10, current := i, tag := tag } =
      ((s.deciding a).onAx a fun x => { x with torqueCmd := i }, 0) := by
    have steady' : ((s.deciding a).axOf a).decel = false := steady
    simp [State.takeCmd, noPhase, targetMode, mode', steady']
  refine (State.axisRow_accepts now _ reason take (State.deciding_banks a s).banks_onAx.banks_book).mono fun u hu => ?_
  obtain ⟨ax, hTag, _⟩ := hu
  rw [State.axOf_of_ax ax, State.axOf_onAx (s := s.deciding a) now.ax]
  exact ⟨rfl, hTag⟩

theorem execRelease_releases (usable : s.usable a = true) (homed : s.homing a = false) (latched : (s.bookOf a).stopLatch = true)
    (quiet : s.chattering a = false) (up : s.limitActive a 1 = false) (down : s.limitActive a (-1) = false) :
    Answers (fun u => (u.bookOf a).stopLatch = false ∧ (u.bookOf a).cmdTag = tag) (execRelease a src tag s) := by
  obtain ⟨defined, measuring, fault⟩ := (s.usable_iff a).mp usable
  have book := State.deciding_bookOf now.book
  have reason : (s.deciding a).rejectReason a { cmd := 12, tag := tag } = 0 := by
    have defined' : (s.deciding a).defined a = true := defined
    have measuring' : (s.deciding a).measuring a = false := measuring
    have homed' : (s.deciding a).homing a = false := homed
    have quiet' : (s.deciding a).chattering a = false := quiet
    have up' : (s.deciding a).limitActive a 1 = false := up
    have down' : (s.deciding a).limitActive a (-1) = false := down
    simp [State.rejectReason, State.cmdListed, State.cmdReason, targetMode, moving, defined', measuring', homed', book, fault,
      latched, quiet', up', down']
  refine (State.axisRow_accepts now _ reason (t := (s.deciding a).onBook a fun b => { b with stopLatch := false }) rfl
    (State.deciding_banks a s).banks_onBook.banks_book).mono fun u hu => ?_
  obtain ⟨_, hTag, latch⟩ := hu
  have inDeciding : a < (s.deciding a).book.length := by simpa [State.deciding] using now.book
  rw [State.bookOf_onBook inDeciding] at latch
  exact ⟨latch, hTag⟩

end

theorem execDwellEnd_ends {s : State} {t a : Nat} (free : s.clk.motionHeld = false) (axis : a < 12) (h : a < s.ax.length)
    (still : (s.axOf a).gen.ve = 0) (waits : (s.axOf a).gen.dwellOver = false)
    (due : (s.axOf a).gen.restAt + s.stagesOf (s.nat AXIS.dwell a) * s.period ≤ t) :
    Answers (fun u => (u.axOf a).gen.dwellOver = true ∧ (u.axOf a).pRef = (s.axOf a).pRef) (execDwellEnd t a s) := by
  unfold execDwellEnd
  extract_lets ticked x due' ph ovr coupled
  have isDue : due' x.gen = true := by
    have hx : x = s.axOf a := rfl
    have elapsed : decide (x.gen.restAt + ticked.stagesOf (ticked.nat AXIS.dwell a) * ticked.period ≤ t) = true :=
      decide_eq_true due
    simp [due', hx ▸ still, hx ▸ waits, elapsed]
  rw [if_neg (by simp [ticked, free]), if_pos (by simp [axis, isDue])]
  have ax : coupled.ax = s.ax := by
    unfold coupled
    split
    · rfl
    · rfl
  have at_ : (coupled.onAxKept a ovr).axOf a = ovr (s.axOf a) := by
    have := State.axOf_onAx (s := coupled) (a := a) (ax ▸ h) ovr
    rw [State.axOf_of_ax ax] at this
    exact this
  refine .next ?_
  rw [at_]
  exact ⟨by simp [ovr, show due' (s.axOf a).gen = true from isDue], rfl⟩

/-- Settles O25: each accepted command does to the axis what its row says, and the dwell of an axis at rest ends. -/
theorem stopsAndTorque : Obligations.StopsAndTorque := by
  refine ⟨⟨fun s a src tag now usable on homed noRamp mode phase moving => ?_,
      fun s a src tag m now ease mode kept velocity rest ended limit => ?_, fun s a src tag now usable on => ?_,
      fun s a src tag i now ease on mode steady permit limit => ?_, fun s a src tag now usable homed latched quiet up down => ?_⟩,
    fun _ _ _ free axis h still waits due => execDwellEnd_ends free axis h still waits due⟩
  · exact execStop_stops ((s.takesNow_iff a src).mp now) usable on homed noRamp mode phase moving
  · exact execResume_resumes ((s.takesNow_iff a src).mp now) ease mode kept velocity rest ended limit
  · exact execQuickStop_ramps ((s.takesNow_iff a src).mp now) usable on
  · exact execTorque_commands ((s.takesNow_iff a src).mp now) ease on mode steady permit limit
  · exact execRelease_releases ((s.takesNow_iff a src).mp now) usable homed latched quiet up down

end Sys2Proof.Machine

namespace Sys2Proof.Machine

/-! # Path groups, capture and compare (R285 to R315) -/

/-! ## The decision that a group's row shows -/

/-- The state on which the group's task decides: the offers of the group taken. -/
def State.grouping (g : Nat) (s : State) : State := s.onPgBook g fun b => { b with offered := [], decided := true }

/-- The parts of `groupTakes`. -/
structure GroupTakes (s : State) (g src : Nat) : Prop where
  ix : g < 4
  pg : g < s.pg.length
  book : g < s.pgBook.length
  free : s.clk.motionHeld = false
  open_ : (nth s.pgBook g).decided = false
  lanes : s.mode.lanesOff = false
  first : (nth s.pgBook g).offered = []
  fresh : s.pre.shown = false
  room : s.forwardFull { src := src } = false
  members : s.members g ≠ []

theorem State.groupTakes_iff (s : State) (g src : Nat) : s.groupTakes g src = true ↔ GroupTakes s g src := by
  unfold State.groupTakes
  simp only [Bool.and_eq_true, decide_eq_true_eq, Bool.not_eq_true', List.isEmpty_iff, bne_iff_ne]
  constructor
  · rintro ⟨⟨⟨⟨⟨⟨⟨⟨⟨ix, pg⟩, book⟩, free⟩, open_⟩, lanes⟩, first⟩, fresh⟩, room⟩, members⟩
    exact ⟨ix, pg, book, free, open_, lanes, first, fresh, room, members⟩
  · rintro ⟨ix, pg, book, free, open_, lanes, first, fresh, room, members⟩
    exact ⟨⟨⟨⟨⟨⟨⟨⟨⟨ix, pg⟩, book⟩, free⟩, open_⟩, lanes⟩, first⟩, fresh⟩, room⟩, members⟩

theorem State.onPgBook_congr {s : State} {g : Nat} {f k : PgBook → PgBook} (e : f (nth s.pgBook g) = k (nth s.pgBook g)) :
    s.onPgBook g f = s.onPgBook g k := congrArg (fun l => { s with pgBook := l }) (modify_congr_at e)

theorem State.onPgBook_onPgBook (s : State) (g : Nat) (f k : PgBook → PgBook) :
    (s.onPgBook g f).onPgBook g k = s.onPgBook g (k ∘ f) :=
  congrArg (fun l => { s with pgBook := l }) (List.modify_modify_eq f k g s.pgBook)

/-- One command alone is taken in its place, whatever its source. -/
theorem pathOrder_singleton (o : PathOffer) : pathOrder [o] = [o] := by
  unfold pathOrder
  by_cases stop : o.cmd.cmd = 4
  · simp [stop]
  · rcases Nat.lt_trichotomy o.origin.src 1 with none | one | more
    · simp [stop, show o.origin.src = 0 by omega]
    · simp [stop, one]
    · simp [stop, show o.origin.src ≠ 0 by omega, show o.origin.src ≠ 1 by omega, show 2 ≤ o.origin.src by omega]

theorem State.pgOf_onPg {s : State} {g : Nat} (h : g < s.pg.length) (f : Pg → Pg) : (s.onPg g f).pgOf g = f (s.pgOf g) :=
  nth_modify_same h f

theorem State.pgOf_of_pg {s t : State} (h : t.pg = s.pg) (g : Nat) : t.pgOf g = s.pgOf g := by
  unfold State.pgOf
  rw [h]

section
variable {s : State} {g src : Nat} (now : GroupTakes s g src)
include now

/-- The one offer of the Stage is the one taken (R296, R751). -/
theorem State.decideGroup_keepPath {o : PathOffer} (room : s.forwardFull o.origin = false)
    (alone : (o.cmd.cmd = 2 ∨ o.cmd.cmd = 3) → s.forwards o.origin = false) :
    (s.keepPath g o).decideGroup g = (s.grouping g).takePath g o := by
  have kept : s.keepPath g o = s.onPgBook g fun b => { b with offered := [o] } :=
    State.onPgBook_congr (by simp [now.open_, now.lanes, now.first])
  have offered : (nth (s.keepPath g o).pgBook g).offered = [o] := by
    have : nth (s.keepPath g o).pgBook g = _ := (congrArg (fun x : State => nth x.pgBook g) kept).trans (nth_modify_same now.book _)
    rw [this]
  have taken : (s.keepPath g o).onPgBook g (fun b => { b with offered := [], decided := true }) = s.grouping g := by
    rw [kept, State.onPgBook_onPgBook]
    rfl
  unfold State.decideGroup
  extract_lets l s1
  have room' : (s.grouping g).forwardFull o.origin = false := room
  have alone' : ¬ ((o.cmd.cmd == 2 || o.cmd.cmd == 3) = true ∧ (s.grouping g).forwards o.origin = true) := by
    rintro ⟨seg, tells⟩
    exact Bool.false_ne_true ((alone (by simpa using seg)).symm.trans tells)
  rw [show l = pathOrder [o] from congrArg pathOrder offered, pathOrder_singleton, show s1 = s.grouping g from taken]
  show (s.grouping g).decidePath g o = _
  unfold State.decidePath
  extract_lets seg
  exact if_neg (fun k => k.elim (by simp [room']) alone')

theorem State.groupRow_takes (c : PathCmd) (alone : (c.cmd = 2 ∨ c.cmd = 3) → s.forwards { src := src } = false) :
    Answers (fun u => u.pg = ((s.grouping g).takePath g { origin := { src := src }, cmd := c }).pg ∧
      u.ax = ((s.grouping g).takePath g { origin := { src := src }, cmd := c }).ax) (s.groupRow g src c) := by
  unfold State.groupRow State.groupCommand
  have shown : s.unshow = s := if_pos (by simp [now.fresh])
  rw [if_neg (by simp [now.ix, now.free]), if_neg now.members, if_neg (by simp [now.open_, now.lanes]), shown]
  unfold State.show
  rw [State.decideGroup_keepPath now now.room alone]
  exact .next ⟨rfl, rfl⟩

end

/-- An accepted group command leaves the groups and the axes as it found them. -/
theorem State.acceptPath_pg (g : Nat) (o : PathOffer) (s : State) : (s.acceptPath g o).pg = s.pg :=
  (State.acceptPath_keeps g o s).get .pg rfl

theorem State.acceptPath_ax (g : Nat) (o : PathOffer) (s : State) : (s.acceptPath g o).ax = s.ax :=
  (State.acceptPath_keeps g o s).get .ax rfl

/-! ## LINE and ARC (R285, R286, R288) -/

/-- A segment is appended: the queue is one longer, and the state of the group stands. -/
theorem Pg.append_grows (q : Seg) (p : Pg) : (p.append q).1.queue.length = p.queue.length + 1 ∧ (p.append q).1.st = p.st := by
  unfold Pg.append
  split
  · next none =>
    have empty : p.queue = [] := List.getLast?_eq_none_iff.mp none
    exact ⟨by simp [empty], rfl⟩
  · extract_lets
    exact ⟨by simp, rfl⟩

theorem State.queueSeg_grows {s : State} {g : Nat} (h : g < s.pg.length) (q : Seg) :
    ((s.queueSeg g q).pgOf g).queue.length = (s.pgOf g).queue.length + 1 ∧ ((s.queueSeg g q).pgOf g).st = (s.pgOf g).st ∧
      (s.queueSeg g q).pg.length = s.pg.length := by
  obtain ⟨longer, st⟩ := Pg.append_grows q (s.pgOf g)
  unfold State.queueSeg
  split
  next p dropped eq =>
  rw [eq] at longer st
  extract_lets ended queued
  have hq : queued.pgOf g = ended := State.pgOf_onPg h _
  have length : queued.pg.length = s.pg.length := List.length_modify ..
  split
  · rw [State.pgOf_of_pg (State.raise_pg queued ..), State.raise_pg, hq]
    exact ⟨longer, st, length⟩
  · rw [hq]
    exact ⟨longer, st, length⟩

theorem State.takeSeg_grows {s : State} {g : Nat} {o : PathOffer} (h : g < s.pg.length) (whole : (s.pgOf g).st ≠ .broken)
    (room : (s.pgOf g).queue.length < s.nat PATH.queue g)
    (fits : (s.pgOf g).queue = [] ∧ (s.pgOf g).st = .idle ∧ s.segReason0 g o.cmd = 0 ∨
      (s.pgOf g).st = .running ∧ s.segReason g (s.segGeom g o.cmd (s.pgOf g).lastEnd) = 0) :
    ((s.takeSeg g o).pgOf g).queue.length = (s.pgOf g).queue.length + 1 ∧ ((s.takeSeg g o).pgOf g).st = (s.pgOf g).st := by
  unfold State.takeSeg
  extract_lets p first q bad queued
  have good : bad = 0 := by
    unfold bad q first
    rcases fits with ⟨empty, idle, ok⟩ | ⟨running, ok⟩
    · simp [p, empty, idle, ok]
    · simp [p, running, ok]
  rw [if_neg (show ¬ p.st = .broken from whole), if_neg (show ¬ s.nat PATH.queue g ≤ p.queue.length from Nat.not_le.mpr room),
    if_neg (by simp [good])]
  obtain ⟨longer, st, length⟩ := State.queueSeg_grows h q
  rw [State.pgOf_of_pg (State.acceptPath_pg ..), State.pgOf_onPg (length.symm ▸ h)]
  rcases fits with ⟨_, idle, _⟩ | ⟨running, _⟩
  · rw [if_neg (by rw [st, idle]; simp)]
    exact ⟨longer, st⟩
  · rw [if_pos (by rw [st]; exact .inl running)]
    exact ⟨longer, running.symm⟩

/-- Settles O26: a segment that passes is appended to a queue with room, and the group goes on as it was. -/
theorem segmentsQueue : Obligations.SegmentsQueue := by
  intro s g src seg takes alone whole room k hk fits
  have now := (s.groupTakes_iff g src).mp takes
  have grows : Answers (fun u => (u.pgOf g).queue.length = (s.pgOf g).queue.length + 1 ∧ (u.pgOf g).st = (s.pgOf g).st)
      (s.groupRow g src { seg with cmd := k }) := by
    refine (State.groupRow_takes now { seg with cmd := k } fun _ => alone).mono fun u hu => ?_
    rw [State.pgOf_of_pg hu.1]
    have taken : (s.grouping g).takePath g { origin := { src := src }, cmd := { seg with cmd := k } } =
        (s.grouping g).takeSeg g { origin := { src := src }, cmd := { seg with cmd := k } } := by
      unfold State.takePath
      rw [if_neg (show ¬ (s.grouping g).members g = [] from now.members)]
      rcases hk with rfl | rfl <;> rfl
    rw [taken]
    exact State.takeSeg_grows (s := s.grouping g) now.pg whole room fits
  rcases hk with rfl | rfl
  · exact grows
  · exact grows

/-! ## START (R297) -/

theorem State.planQueue_st (s : State) (g : Nat) (start : List Int) (cs : List PathCmd) (from_ : List Int) (p : Pg) :
    (s.planQueue g start cs from_ p).st = p.st := by
  induction cs generalizing from_ p with
  | nil => rfl
  | cons c cs ih =>
    unfold State.planQueue
    extract_lets q
    exact (ih ..).trans (Pg.append_grows q p).2

theorem State.startPg_st (s : State) (g : Nat) : (s.startPg g).st = .running := State.planQueue_st ..

/-- A hand-over that is not refused gives the axis that its mode preloads, blended. -/
theorem State.handRef_mode {s : State} {a : Nat} {old new : Axis} {r : RefOut} {dp dv : Int} {y : Axis}
    (ok : s.handRef a old new r dp dv = .ok y) : y.mode = new.mode := by
  unfold State.handRef at ok
  extract_lets k blended di at ok
  split at ok
  · cases ok
  · cases ok
    rfl

/-- What START does with one member's hand-over. -/
def State.enterPath (s : State) (x : Nat × Except (Nat × Int) Axis) : State :=
  match x.2 with
  | .ok y =>
    let from_ := (s.axOf x.1).mode
    let s := match from_, s.couplingOf x.1 with
      | 4, some c => s.setGc c { (s.gcOf c) with st := .off }
      | _, _ => s
    (s.onAx x.1 (fun _ => y)).raise 0x62 (le 1 x.1 ++ le 1 from_ ++ le 1 5 ++ le 4 y.blendK)
  | .error _ => s

theorem State.enterPath_frame (s : State) (x : Nat × Except (Nat × Int) Axis) :
    (s.enterPath x).pg = s.pg ∧ (s.enterPath x).ax = match x.2 with | .ok y => s.ax.modify x.1 fun _ => y | .error _ => s.ax := by
  unfold State.enterPath
  split
  · next y _ =>
    extract_lets from_ left
    have kept : left.pg = s.pg ∧ left.ax = s.ax := by
      unfold left
      split
      · next c _ _ =>
        have k := State.setGc_keeps c { (s.gcOf c) with st := .off } s
        exact ⟨k.get .pg rfl, k.get .ax rfl⟩
      · exact ⟨rfl, rfl⟩
    refine ⟨(State.raise_pg ..).trans kept.1, (State.raise_ax ..).trans ?_⟩
    rw [State.onAx_ax, kept.2]
  · exact ⟨rfl, rfl⟩

/-- Once every hand-over is in Path, so is every member handed over. -/
theorem State.enterPath_all {l : List (Nat × Except (Nat × Int) Axis)} {s : State}
    (path : ∀ x ∈ l, ∃ y, x.2 = .ok y ∧ y.mode = 5) :
    (l.foldl State.enterPath s).pg = s.pg ∧
      ∀ a, a < s.ax.length → (s.axOf a).mode = 5 ∨ a ∈ l.map Prod.fst → ((l.foldl State.enterPath s).axOf a).mode = 5 := by
  induction l generalizing s with
  | nil => exact ⟨rfl, fun a _ h => h.elim id fun k => by simp at k⟩
  | cons x l ih =>
    obtain ⟨y, ok, mode⟩ := path x List.mem_cons_self
    obtain ⟨pg, ax⟩ := s.enterPath_frame x
    rw [ok] at ax
    have step := ih (s := s.enterPath x) fun z hz => path z (List.mem_cons_of_mem x hz)
    refine ⟨step.1.trans pg, fun a h within => step.2 a (by rw [ax]; simpa using h) ?_⟩
    by_cases e : a = x.1
    · refine .inl ?_
      rw [e] at h ⊢
      unfold State.axOf
      rw [ax, nth_modify_same h]
      exact mode
    · rcases within with here | there
      · refine .inl ?_
        unfold State.axOf
        rw [ax, nth_modify_ne _ _ e]
        exact here
      · refine .inr ?_
        simpa [e] using there

theorem State.startHand_members (s : State) (g : Nat) : (s.startHand g).map Prod.fst = s.members g := by
  unfold State.startHand
  extract_lets p
  rw [List.map_map]
  exact List.zipIdx_map_fst 0 (s.members g)

theorem State.startHand_path {s : State} {g : Nat} (ok : ∀ x ∈ s.startHand g, x.2.toBool = true) :
    ∀ x ∈ s.startHand g, ∃ y, x.2 = .ok y ∧ y.mode = 5 := by
  intro x hx
  have good := ok x hx
  unfold State.startHand at hx
  extract_lets p at hx
  obtain ⟨⟨a, i⟩, _, rfl⟩ := List.mem_map.mp hx
  dsimp only at good ⊢
  generalize hy : s.handRef a _ _ _ _ _ = out at good ⊢
  cases out with
  | error q => cases good
  | ok y => exact ⟨y, rfl, (State.handRef_mode hy).trans (s.preload_carries a 5 (s.axOf a)).1⟩

/-! Which lists of a group have been offered does not show in the way it is started. -/

theorem State.planQueue_grouping (s : State) (h g : Nat) (start : List Int) (cs : List PathCmd) (c : List Int) (p : Pg) :
    (s.grouping h).planQueue g start cs c p = s.planQueue g start cs c p := by
  induction cs generalizing c p with
  | nil => rfl
  | cons _ cs ih => exact ih ..

theorem State.startPg_grouping (s : State) (h g : Nat) : (s.grouping h).startPg g = s.startPg g := by
  unfold State.startPg
  simp only [State.planQueue_grouping]
  rfl

theorem State.pathSpeed_grouping (s : State) (h g : Nat) (p : Pg) : (s.grouping h).pathSpeed g p = s.pathSpeed g p := rfl

theorem State.pathStage_grouping (s : State) (h g restAt : Nat) (p : Pg) :
    (s.grouping h).pathStage g restAt p = s.pathStage g restAt p := by
  unfold State.pathStage
  simp only [State.pathSpeed_grouping]
  rfl

theorem State.startHand_grouping (s : State) (h g : Nat) : (s.grouping h).startHand g = s.startHand g := by
  unfold State.startHand
  simp only [State.startPg_grouping, State.pathStage_grouping]
  rfl

theorem State.takeStart_runs {s : State} {g : Nat} {o : PathOffer} (h : g < s.pg.length) (axes : 12 ≤ s.ax.length)
    (idle : (s.pgOf g).st = .idle) (first : ∀ q, (s.pgOf g).queue.head? = some q →
      s.segReason g (s.segGeom g q.cmd ((s.members g).map (fun a => (s.axOf a).pRef))) = 0) (queued : (s.pgOf g).queue ≠ [])
    (ready : (s.members g).all s.memberOk = true) (hand : ∀ x ∈ s.startHand g, x.2.toBool = true) :
    ((s.takeStart g o).pgOf g).st = .running ∧ ∀ a ∈ s.members g, ((s.takeStart g o).axOf a).mode = 5 := by
  unfold State.takeStart
  extract_lets old ms
  rw [if_neg (by simp [old, idle])]
  split
  · next none => exact absurd none queued
  next p outs entered _ q0 rest eq =>
  extract_lets bad
  have good : bad = 0 := first q0 (by rw [show (s.pgOf g).queue = q0 :: rest from eq]; rfl)
  rw [if_neg (by simp [good]), if_neg (by simp [ms, ready])]
  have path := State.startHand_path hand
  split
  · next a q found =>
    obtain ⟨x, mem, bad⟩ := List.exists_of_findSome?_eq_some found
    obtain ⟨y, ok, _⟩ := path x mem
    rw [ok] at bad
    cases bad
  obtain ⟨pg, axis⟩ := State.enterPath_all (s := s) path
  show (((outs.foldl State.enterPath s).onPg g fun _ => p).acceptPath g o |>.pgOf g).st = .running ∧
    ∀ a ∈ s.members g, ((((outs.foldl State.enterPath s).onPg g fun _ => p).acceptPath g o).axOf a).mode = 5
  rw [State.pgOf_of_pg (State.acceptPath_pg ..), State.pgOf_onPg (pg ▸ h)]
  refine ⟨State.startPg_st s g, fun a mem => ?_⟩
  rw [State.axOf_of_ax (State.acceptPath_ax ..)]
  have below : a < 12 := List.mem_range.mp (List.mem_filter.mp mem).1
  exact axis a (Nat.lt_of_lt_of_le below axes) (.inr (by rw [State.startHand_members]; exact mem))

/-! ## STOP, RESUME and CLEAR (R296) -/

theorem State.takePathStop_pauses {s : State} {g : Nat} {o : PathOffer} (h : g < s.pg.length) (running : (s.pgOf g).st = .running)
    (room : (((s.feedProf g none (s.pgOf g).gen).stopDist (s.pgOf g).gen.ve.natAbs : Nat) : Int) ≤
      (s.pgOf g).endL * 65536 - (s.pgOf g).gen.pe) :
    ((s.takePathStop g o).pgOf g).st = .paused ∧ ((s.takePathStop g o).pgOf g).queue = (s.pgOf g).queue := by
  unfold State.takePathStop State.groupStop
  extract_lets p pr rem
  rw [if_pos running, State.pgOf_of_pg (State.acceptPath_pg ..), if_neg (by simp [p, running]), if_pos room, State.pgOf_onPg h]
  exact ⟨rfl, rfl⟩

theorem State.takePathResume_runs {s : State} {g : Nat} {o : PathOffer} (h : g < s.pg.length) (paused : (s.pgOf g).st = .paused) :
    ((s.takePathResume g o).pgOf g).st = .running ∧ ((s.takePathResume g o).pgOf g).queue = (s.pgOf g).queue := by
  unfold State.takePathResume
  rw [if_neg (by simp [paused]), State.pgOf_of_pg (State.acceptPath_pg ..), State.pgOf_onPg h]
  exact ⟨rfl, rfl⟩

theorem State.takeClear_empties {s : State} {g : Nat} {o : PathOffer} (h : g < s.pg.length) (still : (s.pgOf g).st ≠ .running) :
    ((s.takeClear g o).pgOf g).st = .idle ∧ ((s.takeClear g o).pgOf g).queue = [] := by
  unfold State.takeClear
  extract_lets held
  have kept : Fixes State.pg s held := .foldl (fun x a => .ite ⟨(State.enterHeld__keeps a x).get .pg rfl⟩ (.refl x)) _ s
  rw [if_neg still, State.pgOf_of_pg (State.acceptPath_pg ..), State.pgOf_onPg (kept.eq.symm ▸ h)]
  exact ⟨rfl, rfl⟩

/-- Settles O27: START hands every member over in one boundary; STOP, RESUME and CLEAR change the state of the group alone. -/
theorem groupRuns : Obligations.GroupRuns := by
  have taken {s : State} {g src : Nat} (now : GroupTakes s g src) : ¬ (s.grouping g).members g = [] := now.members
  refine ⟨fun s g src tag takes idle axes first queued ready hand => ?_, fun s g src tag takes running room => ?_,
    fun s g src tag takes paused => ?_, fun s g src tag takes still => ?_⟩
  all_goals have now := (s.groupTakes_iff g src).mp takes
  · refine (State.groupRow_takes now { cmd := 1, tag := tag } fun k => by simp at k).mono fun u hu => ?_
    obtain ⟨pg, ax⟩ := hu
    unfold State.takePath at pg ax
    rw [if_neg (taken now)] at pg ax
    obtain ⟨runs, path⟩ := State.takeStart_runs (s := s.grouping g) (o := { origin := { src := src }, cmd := { cmd := 1, tag := tag } })
      now.pg axes idle first queued ready (by rw [State.startHand_grouping]; exact hand)
    exact ⟨by rw [State.pgOf_of_pg pg]; exact runs, fun a mem => by rw [State.axOf_of_ax ax]; exact path a mem⟩
  · refine (State.groupRow_takes now { cmd := 4, tag := tag } fun k => by simp at k).mono fun u hu => ?_
    rw [State.pgOf_of_pg hu.1, State.takePath, if_neg (taken now)]
    exact State.takePathStop_pauses (s := s.grouping g) now.pg running room
  · refine (State.groupRow_takes now { cmd := 5, tag := tag } fun k => by simp at k).mono fun u hu => ?_
    rw [State.pgOf_of_pg hu.1, State.takePath, if_neg (taken now)]
    exact State.takePathResume_runs (s := s.grouping g) now.pg paused
  · refine (State.groupRow_takes now { cmd := 6, tag := tag } fun k => by simp at k).mono fun u hu => ?_
    rw [State.pgOf_of_pg hu.1, State.takePath, if_neg (taken now)]
    exact State.takeClear_empties (s := s.grouping g) now.pg still

/-- A condition's two sides each answer with what it gives. -/
theorem Answers.ite_of {P : State → Prop} {a b : Answer} {c : Prop} [Decidable c] (h : c → Answers P a) (k : ¬ c → Answers P b) :
    Answers P (if c then a else b) := by
  by_cases e : c
  · rw [if_pos e]
    exact h e
  · rw [if_neg e]
    exact k e

/-! ## Capture (R304, R305) -/

theorem State.capOf_onCap {s : State} {i : Nat} (h : i < s.cap.length) (f : Cap → Cap) : (s.onCap i f).capOf i = f (s.capOf i) :=
  nth_modify_same h f

theorem execCaptureTransition_starts {s : State} {i : Nat} {lv : Bool} (free : s.clk.motionHeld = false) (input : i < 16)
    (h : i < s.cap.length) (used : s.nat CAPTURE.mode i ≠ 0) (moved : (s.capOf i).ball ≠ lv) (t : Nat) :
    Answers (fun u => (u.capOf i).ball = lv ∧ (u.capOf i).lastT = t ∧ (u.capOf i).pend = (lv != (s.capOf i).filt) ∧
      (u.capOf i).filt = (s.capOf i).filt) (execCaptureTransition t i lv s) := by
  unfold execCaptureTransition
  extract_lets ticked c glitch other
  have used' : ticked.nat CAPTURE.mode i ≠ 0 := used
  have moved' : c.ball ≠ lv := moved
  rw [if_neg (by simp [ticked, used', free]), if_neg (by simp [moved', Nat.not_le.mpr input])]
  refine .next ?_
  rw [State.capOf_onCap (s := ticked) h]
  exact ⟨rfl, rfl, rfl, rfl⟩

/-- What a capture record, a loss and an event leave of a capture input. -/
def Cap.settled (c : Cap) : Bool × Bool × Option Nat := (c.filt, c.pend, c.lastAccept)

theorem State.capLost_settled (i : Nat) (s : State) : Fixes (viewed State.cap Cap.settled) s (s.capLost i) :=
  .view_modify rfl fun _ => rfl

theorem State.capRecord_settled (i t : Nat) (rising : Bool) (s : State) :
    Fixes (viewed State.cap Cap.settled) s (s.capRecord i t rising) := by
  unfold State.capRecord
  extract_lets c
  split
  next lost _ st ep _ =>
  have counted : Fixes (viewed State.cap Cap.settled) s (s.onCap i fun c => { c with lostStage := c.lostStage + 1 }) :=
    .view_modify rfl fun _ => rfl
  have h : Fixes (viewed State.cap Cap.settled) s lost := counted.trans (State.capLost_settled ..)
  exact .ite (.ite (h.view_still (State.raise_cap ..)) h) (.view_modify rfl fun _ => rfl)

theorem execCaptureAccept_accepts {s : State} {t i : Nat} (free : s.clk.motionHeld = false) (h : i < s.cap.length)
    (pending : (s.capOf i).pend = true) (stood : (s.capOf i).lastT + s.nat CAPTURE.min_width i ≤ t) :
    Answers (fun u => (u.capOf i).filt = (s.capOf i).ball ∧ (u.capOf i).pend = false ∧
      (s.nat CAPTURE.mode i = 1 → s.capSelects i (s.capOf i).ball = true → (s.capOf i).lastAccept = none →
        (u.capOf i).lastAccept = some (s.capOf i).lastT)) (execCaptureAccept t i s) := by
  unfold execCaptureAccept
  extract_lets ticked c settled rising mode accepted recorded
  have hc : c = s.capOf i := rfl
  have early : ¬ t < c.lastT + ticked.nat CAPTURE.min_width i := Nat.not_lt.mpr stood
  rw [if_neg (by simp [ticked, free]), if_neg (by simp [hc, pending] at early ⊢; exact early)]
  have hSettled : settled.capOf i = { s.capOf i with pend := false, filt := (s.capOf i).ball } :=
    State.capOf_onCap (s := ticked) h _
  have base {u : State} (kept : Fixes (viewed State.cap Cap.settled) settled u) :
      (u.capOf i).filt = (s.capOf i).ball ∧ (u.capOf i).pend = false ∧ (u.capOf i).lastAccept = (s.capOf i).lastAccept := by
    have view : (u.capOf i).settled = (settled.capOf i).settled := kept.view_at i
    rw [hSettled] at view
    simpa only [Cap.settled, Prod.mk.injEq] using view
  have hMode : mode = s.nat CAPTURE.mode i := rfl
  by_cases two : mode = 2
  · rw [if_pos two]
    have still := base (u := if rising then settled.onCap i fun c => { c with
      rises := c.rises ++ [((settled.stageOf c.lastT).1, if c.dirHigh then (1 : Int) else -1)] } else settled)
      (.ite (.view_modify rfl fun _ => rfl) (.refl _))
    exact .next ⟨still.1, still.2.1, fun one => by simp [hMode, one] at two⟩
  rw [if_neg two]
  by_cases sel : settled.capSelects i rising = true
  case neg =>
    rw [if_pos (by simpa using sel)]
    have still := base (.refl settled)
    exact .next ⟨still.1, still.2.1, fun _ yes => absurd yes sel⟩
  rw [if_neg (by simp [sel])]
  refine .ite_of (fun held => ?_) fun _ => ?_
  · have still := base (State.capLost_settled i settled)
    refine ⟨_, rfl, still.1, still.2.1, fun _ _ never => ?_⟩
    rw [show c.lastAccept = none from never] at held
    cases held
  · have hAccepted : accepted.capOf i = { settled.capOf i with lastAccept := some (settled.capOf i).lastT } :=
      State.capOf_onCap (s := settled) (by simpa [settled, ticked, State.onCap] using h) fun c => { c with lastAccept := some c.lastT }
    have kept : Fixes (viewed State.cap Cap.settled) accepted (recorded.waitEvent 3 i) :=
      (show Fixes (viewed State.cap Cap.settled) accepted recorded from
        .ite (State.capRecord_settled ..) (.refl _)).view_still ((State.waitEvent_keeps 3 i recorded).get .cap rfl)
    have view : ((recorded.waitEvent 3 i).capOf i).settled = (accepted.capOf i).settled := kept.view_at i
    rw [hAccepted, hSettled] at view
    simp only [Cap.settled, Prod.mk.injEq] at view
    exact ⟨_, rfl, view.1, view.2.1, fun _ _ _ => view.2.2⟩

/-! ## Compare (R312, R315) -/

theorem State.cmpOf_onCmp {s : State} {o : Nat} (h : o < s.cmp.length) (f : Cmp → Cmp) : (s.onCmp o f).cmpOf o = f (s.cmpOf o) :=
  nth_modify_same h f

/-- Without flag 1 no output goes back to the entry before. -/
theorem State.cmpRearm_forward {s : State} {o : Nat} (forward : s.flag COMPARE.flags 1 o = false) (p d : Int) : s.cmpRearm o p d = s := by
  unfold State.cmpRearm
  split
  · rw [forward]
    rfl
  · rfl

/-- A sweep stops before the first entry not reached. -/
theorem State.cmpPass_waits {s : State} {o j : Nat} {p d : Int} (armed : (s.cmpOf o).armed = some j)
    (ahead : 0 < d * (s.cmpEntry o j - p)) (t n : Nat) : s.cmpPass o t p d n = s := by
  cases n with
  | zero => rfl
  | succ n =>
    unfold State.cmpPass
    rw [armed]
    exact if_pos ahead

theorem State.cmpPulse_free {s : State} {o t : Nat} (idle : (s.cmpOf o).pulseEnd = none) (due : (s.cmpOf o).nextPulse ≤ t) (j : Nat) :
    s.cmpPulse o t j = s.onCmp o fun c => { c with
      level := if s.flag COMPARE.flags 2 o then !c.level else true, pulseEnd := some (t + s.nat COMPARE.width o),
      nextPulse := t + s.nat COMPARE.width o + s.cmpGap o, fired := inc32 c.fired, lastTime := t } := by
  unfold State.cmpPulse
  extract_lets c toggle w
  rw [if_neg (by simp [c, idle, due])]

/-- Output `o` as the pulse of entry `j` at cycle `t` leaves it, with the entry after `j` armed. -/
def State.pulsed (s : State) (o t j : Nat) : Cmp :=
  { s.cmpOf o with
    armed := some (j + 1), level := if s.flag COMPARE.flags 2 o then !(s.cmpOf o).level else true
    pulseEnd := some (t + s.nat COMPARE.width o), nextPulse := t + s.nat COMPARE.width o + s.cmpGap o
    fired := inc32 (s.cmpOf o).fired, lastTime := t }

/-- A sweep whose next entry alone is reached fires it and arms the one after. -/
theorem State.cmpPass_fires {s : State} {o t j : Nat} {p d : Int} (h : o < s.cmp.length) (armed : (s.cmpOf o).armed = some j)
    (idle : (s.cmpOf o).pulseEnd = none) (due : (s.cmpOf o).nextPulse ≤ t) (reached : d * (s.cmpEntry o j - p) ≤ 0)
    (more : s.cmpHas o (j + 1) = true) (ahead : 0 < d * (s.cmpEntry o (j + 1) - p)) (n : Nat) :
    (s.cmpPass o t p d (n + 1)).cmpOf o = s.pulsed o t j := by
  have fired := State.cmpPulse_free idle due j
  unfold State.cmpPass
  rw [armed]
  dsimp -zeta only
  rw [if_neg (Int.not_lt.mpr reached)]
  extract_lets pulsed next
  have hPulsed : pulsed = _ := fired
  have hNext : next = pulsed.onCmp o fun c => { c with armed := some (j + 1) } := by
    unfold next
    rw [if_pos (by rw [hPulsed]; exact more)]
  have here : next.cmpOf o = s.pulsed o t j := by
    rw [hNext, State.cmpOf_onCmp (by rw [hPulsed]; simpa [State.onCmp] using h), hPulsed, State.cmpOf_onCmp h]
    rfl
  rw [State.cmpPass_waits (s := next) (j := j + 1) (by rw [here]; rfl) (by rw [hNext, hPulsed]; exact ahead)]
  exact here

theorem execCompareFire_fires {s : State} {t o j : Nat} (free : s.clk.motionHeld = false) (output : o < 8) (h : o < s.cmp.length)
    (used : s.nat COMPARE.source o ≠ 0) (sound : (s.cmpOf o).fault = false) (source : s.cmpFaulted o = false)
    (armed : (s.cmpOf o).armed = some j) (idle : (s.cmpOf o).pulseEnd = none) (due : (s.cmpOf o).nextPulse ≤ t)
    (single : (s.cmpOf o).pendPulses = 0) (forward : s.flag COMPARE.flags 1 o = false)
    (reached : s.cmpDir o * (s.cmpEntry o j - s.cmpSource o t) ≤ 0) (more : s.cmpHas o (j + 1) = true)
    (ahead : 0 < s.cmpDir o * (s.cmpEntry o (j + 1) - s.cmpSource o t)) :
    Answers (fun u => u.cmpOf o = s.pulsed o t j) (execCompareFire t o s) := by
  unfold execCompareFire
  extract_lets ticked c p d swept cSwept
  have used' : ticked.nat COMPARE.source o ≠ 0 := used
  have sound' : c.fault = false := sound
  rw [if_neg (by simp [ticked, free]), if_neg (by simp [used', sound', Nat.not_le.mpr output]),
    if_neg (by rw [show ticked.cmpFaulted o = false from source]; simp)]
  have hSwept : swept = ticked.cmpPass o t p d 64 := by
    unfold swept
    rw [State.cmpRearm_forward (s := ticked) forward]
  have here := State.cmpPass_fires (s := ticked) h armed idle due reached more ahead 63
  rw [show ticked.cmpPass o t (s.cmpSource o t) (s.cmpDir o) (63 + 1) = swept from hSwept.symm] at here
  have waits : cSwept.pendPulses = 0 := by
    rw [show cSwept = _ from here]
    exact single
  rw [if_neg (by simp [waits])]
  exact .next here

theorem execComparePulseEnd_ends {s : State} {t o e : Nat} (free : s.clk.motionHeld = false) (h : o < s.cmp.length)
    (pulse : (s.cmpOf o).pulseEnd = some e) (due : e ≤ t) :
    Answers (fun u => (u.cmpOf o).pulseEnd = none ∧ (s.flag COMPARE.flags 2 o = false → (u.cmpOf o).level = false))
      (execComparePulseEnd t o s) := by
  unfold execComparePulseEnd
  extract_lets ticked
  rw [if_neg (by simp [ticked, free]), show (ticked.cmpOf o).pulseEnd = some e from pulse]
  dsimp -zeta only
  rw [if_neg (Nat.not_lt.mpr due)]
  refine .next ?_
  rw [State.cmpOf_onCmp (s := ticked) h]
  exact ⟨rfl, fun level => by rw [show ticked.flag COMPARE.flags 2 o = false from level]; rfl⟩

/-- Settles O28: the filter and the hold-off of a capture input, and the sweep of a compare output over its entries. -/
theorem captureAndCompare : Obligations.CaptureAndCompare :=
  ⟨⟨fun _ t _ _ free input h used moved => execCaptureTransition_starts free input h used moved t,
    fun _ _ _ free h pending stood => execCaptureAccept_accepts free h pending stood⟩,
   ⟨fun _ _ _ _ free output h used sound source armed idle due single forward reached more ahead =>
      (execCompareFire_fires free output h used sound source armed idle due single forward reached more ahead).mono
        fun _ now => by rw [now]; exact ⟨rfl, rfl, rfl, rfl⟩,
    fun _ _ _ _ free h pulse due => execComparePulseEnd_ends free h pulse due⟩⟩

end Sys2Proof.Machine

namespace Sys2Proof.Machine

/-! # Homing, Survey and the learn runs -/

theorem State.atBoundary_of {s : State} {t : Nat} (h : max s.now t = s.stage.openedAt) : (s.tick t).atBoundary = true :=
  beq_iff_eq.mpr h

/-! ## Homing (R325, R326, R331) -/

theorem State.homeOf_onHome {s : State} {a : Nat} (h : a < s.home.length) (f : Home → Home) :
    (s.onHome a f).homeOf a = f (s.homeOf a) := nth_modify_same h f

theorem State.homeOf_onHomeKept {s : State} {a : Nat} (h : a < s.home.length) (f : Home → Home) :
    (s.onHomeKept a f).homeOf a = f (s.homeOf a) := nth_modify_same h f

theorem State.axOf_onAxKept {s : State} {a : Nat} (h : a < s.ax.length) (f : Axis → Axis) :
    (s.onAxKept a f).axOf a = f (s.axOf a) := nth_modify_same h f

theorem execHardstopFound_refers {s : State} {t a t0 : Nat} (free : s.clk.motionHeld = false)
    (boundary : max s.now t = s.stage.openedAt) (h : a < s.home.length) (hx : a < s.ax.length)
    (phase : (s.homeOf a).phase = .hardstop) (since : (s.homeOf a).hsSince = some t0)
    (held : t0 + (s.homeOf a).hr.hsTime ≤ t) (fresh : (s.homeOf a).ref = none) (unshifted : (s.homeOf a).shifted = false) :
    Answers (fun u => (u.homeOf a).ref.map (·.2.1) = some (s.bookOf a).pf ∧ (u.axOf a).gen.phase = .rest)
      (execHardstopFound t a s) := by
  unfold execHardstopFound
  extract_lets ticked hm
  have here : hm = s.homeOf a := rfl
  rw [if_neg (by simp [ticked, free]), here, phase, since]
  dsimp -zeta only
  rw [if_pos ⟨State.atBoundary_of boundary, held, by rw [fresh]; rfl, by rw [unshifted]; rfl⟩]
  refine .next ⟨?_, ?_⟩
  · show ((ticked.onHomeKept a _).homeOf a).ref.map _ = _
    rw [State.homeOf_onHomeKept (s := ticked) h]
    rfl
  · rw [State.axOf_onAxKept (s := ticked.onHomeKept a _) hx]

/-- The homing records and the number of axes. -/
def State.homings (s : State) : List Home × Nat := (s.home, s.ax.length)

theorem Fixes.homings_keeps {W : List Fld} {s t u : State} (h : Fixes State.homings s t) (k : Keeps W t u)
    (home : W.contains .home = false) (ax : W.contains .ax = false) : Fixes State.homings s u :=
  h.then_ (Prod.ext (k.get .home home) (congrArg List.length (k.get .ax ax)))

theorem State.onAx_homings (a : Nat) (f : Axis → Axis) (s : State) : Fixes State.homings s (s.onAx a f) :=
  ⟨Prod.ext rfl (List.length_modify ..)⟩

theorem State.shiftAxis_homings (home : Bool) (a : Nat) (d : Int) (s : State) : Fixes State.homings s (s.shiftAxis home a d) := by
  unfold State.shiftAxis
  extract_lets shifted p moved booked
  have hShifted : Fixes State.homings s shifted := by
    unfold shifted
    split
    · exact (Fixes.refl s).homings_keeps (State.shiftChannel_keeps ..) rfl rfl
    · exact .refl s
  have hMoved : Fixes State.homings s moved := hShifted.then_ (Prod.ext rfl (List.length_modify ..))
  refine .trans (hMoved.homings_keeps (State.onBook_keeps ..) rfl rfl) (.eachIx (fun o x => ?_) _ _)
  exact .ite ((Fixes.refl x).homings_keeps (State.cmpReseek_keeps ..) rfl rfl) (.refl x)

theorem State.wrapAxis_homings (a : Nat) (s : State) : Fixes State.homings s (s.wrapAxis a) := by
  unfold State.wrapAxis
  extract_lets m x k mv t wrapped
  have h : Fixes State.homings s wrapped := State.onAx_homings ..
  exact .ite (.refl s) (.ite (.refl s) (.ite h ((h.homings_keeps (State.raise_keeps ..) rfl rfl).homings_keeps (State.axisFault_keeps ..) rfl rfl)))

/-- R325: the reference found shifts the axis by what HOMING.home_pos lacks. -/
theorem State.homeCommit_shifts {s : State} {a t : Nat} {p : Int} (h : a < s.home.length)
    (ref : (s.homeOf a).ref = some (t, p, none)) :
    ((s.homeCommit a).homeOf a).shift = sat ((s.homeOf a).hr.homePos - p) 64 ∧
      (s.homeCommit a).home.length = s.home.length ∧ (s.homeCommit a).ax.length = s.ax.length := by
  unfold State.homeCommit
  extract_lets hm
  rw [show hm = s.homeOf a from rfl, ref]
  dsimp -zeta only
  extract_lets d shifted seen twin counted referred
  have hShifted : Fixes State.homings s shifted := State.shiftAxis_homings ..
  clear_value shifted
  have hReferred : Fixes State.homings s referred := by
    unfold referred
    split <;> exact hShifted.then_ rfl
  have same : referred.home = s.home := congrArg Prod.fst hReferred.eq
  have axes : referred.ax.length = s.ax.length := congrArg Prod.snd hReferred.eq
  generalize hd : (fun h : Home => { h with
    ref := none, shifted := true, refTime := t, refPos := p, shift := d, lastP := h.lastP + d
    backFrom := h.backFrom.map (· + d) }) = taken
  have wrapped := State.wrapAxis_homings a (referred.onHome a taken)
  have hHome : ((referred.onHome a taken).wrapAxis a).home = referred.home.modify a taken := congrArg Prod.fst wrapped.eq
  have hAx : ((referred.onHome a taken).wrapAxis a).ax.length = referred.ax.length := congrArg Prod.snd wrapped.eq
  refine ⟨?_, ?_, hAx.trans axes⟩
  · unfold State.homeOf
    rw [hHome, same, nth_modify_same h, ← hd]
    rfl
  · rw [hHome, List.length_modify, same]

theorem State.homeDone_homed {s : State} {a : Nat} (h : a < s.home.length) (hx : a < s.ax.length) :
    ((s.homeDone a).axOf a).homed = true ∧ ((s.homeDone a).homeOf a).result = 1 ∧
      ((s.homeDone a).homeOf a).shift = (s.homeOf a).shift := by
  unfold State.homeDone
  extract_lets hm homed
  have hAx : (homed.axOf a).homed = true := by
    unfold homed
    rw [State.axOf_onAx hx]
  refine ⟨?_, ?_⟩
  · unfold State.axOf
    rw [State.raise_ax]
    exact hAx
  · unfold State.homeOf
    rw [State.raise_home]
    rw [show (homed.onHome a _).home = homed.home.modify a _ from rfl, nth_modify_same (show a < homed.home.length from h)]
    exact ⟨rfl, rfl⟩

theorem execHomingAuto_homes {s : State} {t a ch : Nat} (free : s.clk.motionHeld = false)
    (boundary : max s.now t = s.stage.openedAt) (unshown : s.pre.shown = false) (h : a < s.home.length) (hx : a < s.ax.length)
    (pos : s.fbPos a = some ch) (defined : s.defined a = true) (method : (s.readHome a).method = 6)
    (auto : (s.readHome a).auto = true) (valid : (nth s.snap ch).valid = true) (sound : (s.bookOf a).fault = false)
    (idle : s.homing a = false) (mode : s.mode.mode ≠ 0) (fresh : (s.homeOf a).result = 0) :
    Answers (fun u => (u.axOf a).homed = true ∧ (u.homeOf a).result = 1 ∧
      (u.homeOf a).shift = sat ((s.readHome a).homePos - s.homeWord ch) 64) (execHomingAuto t a s) := by
  unfold execHomingAuto
  extract_lets ticked r
  rw [if_neg (by simp [ticked, free]), show ticked.fbPos a = some ch from pos]
  dsimp -zeta only
  extract_lets taken done
  rw [if_pos (show _ from ⟨State.atBoundary_of boundary, defined, method, auto, valid, by rw [show (ticked.bookOf a).fault = false from sound]; rfl,
    by rw [show ticked.homing a = false from idle]; rfl, mode, fresh⟩)]
  have same : ticked.unshow = ticked := if_pos (by rw [show ticked.pre.shown = false from unshown]; rfl)
  have hTaken : taken.homeOf a = { s.homeOf a with
      method := 6, hr := s.readHome a, ref := some ((nth s.snap ch).time, s.homeWord ch, none) } := by
    unfold taken
    rw [same, State.homeOf_onHome (s := ticked) h]
    rfl
  have hHome : taken.home.length = s.home.length := by
    unfold taken
    rw [same]
    exact List.length_modify ..
  have hAx : taken.ax.length = s.ax.length := by
    unfold taken
    rw [same]
    rfl
  obtain ⟨shift, home, ax⟩ := State.homeCommit_shifts (s := taken) (hHome.symm ▸ h) (by rw [hTaken])
  obtain ⟨homed, result, left⟩ := State.homeDone_homed (s := taken.homeCommit a) (a := a) (by omega) (by omega)
  refine .next ⟨homed, result, ?_⟩
  rw [left, shift, hTaken]

/-- Settles O29: a hard stop held gives the reference in place; AUTO homing runs from the start to its end in one boundary. -/
theorem homingEnds : Obligations.HomingEnds :=
  ⟨fun _ _ _ _ free boundary h hx phase since held fresh unshifted =>
    execHardstopFound_refers free boundary h hx phase since held fresh unshifted,
   fun _ _ _ _ free boundary unshown h hx pos defined method auto valid sound idle mode fresh =>
    execHomingAuto_homes free boundary unshown h hx pos defined method auto valid sound idle mode fresh⟩

/-! ## Learn runs (R337, R341, R348) -/

/-- A mailbox command whose ID is new is taken at once. -/
theorem State.mbRow_fresh {s : State} {src id : Nat} (fresh : s.keptFor src id = none) (t : Nat) (c : MbCmd)
    (give : Origin → State → State) :
    s.mbRow t src id c give = .next (give { src := 2, mbSrc := src, mbId := some id } ((s.tick t).noteTaken src id c)) := by
  unfold State.mbRow
  extract_lets ticked
  rw [show ticked.keptFor src id = none from fresh]

theorem State.learnStart_runs {s : State} {kind target a : Nat} (low : 1 ≤ kind) (high : kind ≤ 6) (halt : s.mode.mode = 1)
    (axis : s.learnAxis kind target = some a) (free : s.runOf a = none) :
    ((s.learnStart kind target (learnStep kind)).1.runOf a).map (fun r => (r.kind, r.target)) = some (kind, target) ∧
      (s.learnStart kind target (learnStep kind)).2 = (7, 0) ∧
      (s.learnStart kind target (learnStep kind)).1.replies = s.replies := by
  unfold State.learnStart
  rw [if_neg (by omega), if_neg (by simp [halt]), axis]
  dsimp -zeta only
  rw [if_neg (by rw [free]; simp)]
  refine ⟨?_, rfl, rfl⟩
  have none : s.survey.runs.find? (fun r => r.axis == a) = none := free
  show Option.map _ ((s.survey.runs ++ [_]).find? fun r : Learn => r.axis == a) = _
  rw [List.find?_append, none]
  simp

theorem execLearn_runs {s : State} {src id kind target a : Nat} (fresh : s.keptFor src id = none) (low : 1 ≤ kind) (high : kind ≤ 6)
    (halt : s.mode.mode = 1) (axis : s.learnAxis kind target = some a) (free : s.runOf a = none) (t : Nat) :
    Answers (fun u => (u.runOf a).map (fun r => (r.kind, r.target)) = some (kind, target) ∧
      u.replies = s.replies ++ [{ src := src, id := id, code := 7, detail := 0 }]) (execLearn t src id kind target (learnStep kind) s) := by
  obtain ⟨run, code, replies⟩ := State.learnStart_runs (s := (s.tick t).noteTaken src id (.learn kind target (learnStep kind)))
    low high halt axis free
  unfold execLearn
  rw [State.mbRow_fresh fresh]
  refine .next ?_
  unfold State.takeLearn
  generalize State.learnStart .. = started at run code replies ⊢
  obtain ⟨started, _, _⟩ := started
  obtain ⟨rfl, rfl⟩ := Prod.mk.inj code
  exact ⟨run, congrArg (· ++ _) replies⟩

theorem State.runOf_axis {s : State} {a : Nat} {r : Learn} (h : s.runOf a = some r) : r.axis = a :=
  beq_iff_eq.mp (List.find?_some (p := fun x : Learn => x.axis == a) h)

theorem State.runOf_onRun {s : State} {a : Nat} {r r' : Learn} (h : s.runOf a = some r) (axis : r'.axis = a) :
    (s.onRun a fun _ => r').runOf a = some r' := by
  show (s.survey.runs.map fun x => if x.axis == a then r' else x).find? (·.axis == a) = some r'
  have found : s.survey.runs.find? (·.axis == a) = some r := h
  generalize s.survey.runs = l at found ⊢
  induction l with
  | nil => cases found
  | cons x l ih =>
    by_cases e : x.axis = a
    · simp [e, axis]
    · rw [List.find?_cons_of_neg (by simpa using e)] at found
      rw [List.map_cons, if_neg (by simpa using e), List.find?_cons_of_neg (by simpa using e)]
      exact ih found

/-- The runs of Survey. -/
def State.learning (s : State) : List Learn := s.survey.runs

theorem State.surveyResult_runs (kind target outcome reason : Nat) (v : Int) (s : State) :
    Fixes State.learning s (s.surveyResult kind target outcome reason v) :=
  ⟨by unfold State.learning State.surveyResult; rw [State.raise_survey]⟩

theorem State.surveyAppend_runs (s : State) : Fixes State.learning s s.surveyAppend := by
  unfold State.surveyAppend
  refine .foldl (fun x p => .ite (.refl x) ?_) _ s
  split
  next appended st eq =>
  have h : Fixes State.learning x appended := by
    have kept := (State.journalAppend_keeps 2 p.kind 255 0 p.cells x).get .survey rfl
    rw [eq] at kept
    exact ⟨congrArg Survey.runs kept⟩
  extract_lets l
  have marked : Fixes State.learning x
      { appended with survey := { appended.survey with pend := l, written := inc32 appended.survey.written } } := ⟨h.eq⟩
  exact .ite h (marked.trans (State.surveyResult_runs ..))

theorem State.runOf_dropped {s t : State} {a : Nat} (h : Fixes State.learning (s.dropRun a) t) : t.runOf a = none := by
  have e : t.survey.runs = s.survey.runs.filter (·.axis != a) := h.eq
  unfold State.runOf
  rw [e, List.find?_eq_none]
  intro r mem
  simpa using (List.mem_filter.mp mem).2

theorem State.surveyDone_drops (r : Learn) (cells : List Cell) (s : State) : (s.surveyDone r cells).runOf r.axis = none := by
  unfold State.surveyDone
  extract_lets dropped p
  have added : Fixes State.learning dropped { dropped with survey := { dropped.survey with pend := dropped.survey.pend ++ [p] } } :=
    ⟨rfl⟩
  exact State.runOf_dropped (added.trans (State.surveyAppend_runs _))

theorem State.surveyFail_drops (r : Learn) (reason : Nat) (v : Int) (s : State) : (s.surveyFail r reason v).runOf r.axis = none :=
  State.runOf_dropped (s := s) (State.surveyResult_runs ..)

theorem State.commResult_drops (r : Learn) (s : State) : (s.commResult r).runOf r.axis = none := by
  unfold State.commResult
  extract_lets pp o d ds tol onward
  split
  · exact State.surveyFail_drops ..
  · split
    · exact State.surveyFail_drops ..
    · exact State.surveyDone_drops ..

theorem State.levelDone_drops (r : Learn) (s : State) : (s.levelDone r).runOf r.axis = none := by
  unfold State.levelDone
  extract_lets c n cells
  split
  · exact State.surveyDone_drops ..
  · split
    extract_lets dx lc
    split
    · exact State.surveyFail_drops ..
    · exact State.surveyFail_drops ..
    · exact State.surveyDone_drops ..

theorem execAlignSettle_records {s : State} {t a ch : Nat} {r : Learn} (run : s.runOf a = some r) (fb : s.fbMotor a = some ch)
    (kind : r.kind = 1) (free : s.clk.motionHeld = false) (settled : r.hold + s.nat SURVEY.align_settle ≤ max s.now t) :
    Answers (fun u => (r.k + 1 < 4 → (u.runOf a).map (fun x => (x.k, x.thms)) =
        some (r.k + 1, r.thms ++ [(nth s.snap ch).count * 2 ^ 32 / s.cpr ch])) ∧ (4 ≤ r.k + 1 → u.runOf a = none))
      (execAlignSettle t a s) := by
  unfold execAlignSettle
  extract_lets ticked
  rw [if_neg (by simp [ticked, free]), show ticked.runOf a = some r from run, show ticked.fbMotor a = some ch from fb]
  dsimp -zeta only
  rw [if_pos ⟨kind, settled⟩]
  extract_lets th held
  have axis : held.axis = a := State.runOf_axis (r := r) run
  refine .ite_of (fun more => .next ⟨fun _ => ?_, fun last => absurd more (Nat.not_lt.mpr last)⟩)
    (fun last => .next ⟨fun more => absurd more last, fun _ => ?_⟩)
  · rw [State.runOf_onRun (s := ticked) run axis]
    rfl
  · rw [← axis]
    exact State.commResult_drops held ticked

theorem execLevelSettle_records {s : State} {t a v : Nat} {r : Learn} (free : s.clk.motionHeld = false) (run : s.runOf a = some r)
    (stop : r.stopAt = some v) (settled : v + s.nat SURVEY.level_settle ≤ max s.now t) :
    Answers (fun u => (r.k + 1 < s.nat CAR.count r.target → (u.runOf a).map (fun x => (x.k, x.stopAt, x.deltas)) =
        some (r.k + 1, none, r.deltas ++ [s.levelErr r.target r.k])) ∧ (s.nat CAR.count r.target ≤ r.k + 1 → u.runOf a = none))
      (execLevelSettle t a s) := by
  unfold execLevelSettle
  extract_lets ticked
  rw [if_neg (by simp [ticked, free]), show ticked.runOf a = some r from run]
  dsimp -zeta only
  rw [stop]
  dsimp -zeta only
  rw [if_neg (show ¬ ticked.now < v + ticked.nat SURVEY.level_settle from Nat.not_lt.mpr settled)]
  extract_lets x held
  have axis : held.axis = a := State.runOf_axis (r := r) run
  refine .ite_of (fun more => .next ⟨fun _ => ?_, fun last => absurd more (Nat.not_lt.mpr last)⟩)
    (fun last => .next ⟨fun more => absurd more last, fun _ => ?_⟩)
  · rw [State.runOf_onRun (s := ticked) run axis]
    rfl
  · rw [← axis]
    exact State.levelDone_drops held ticked

/-- Settles O30: a run that ends is dropped whatever its result; one that goes on holds what it has recorded. -/
theorem learnRuns : Obligations.LearnRuns :=
  ⟨fun _ t _ _ _ _ _ fresh low high halt axis free => execLearn_runs fresh low high halt axis free t,
   fun _ _ _ _ _ run fb kind free settled => execAlignSettle_records run fb kind free settled,
   fun _ _ _ _ _ free run stop settled => execLevelSettle_records free run stop settled⟩

/-! ## Survey values (R54, R62, R131, R353) -/

/-- The values taken so far, and those that wait. -/
theorem State.surveyTake_all (l : List SurveyPend) (s : State) :
    (l.foldl (fun s p => s.surveyTake p) s).cfg = l.foldl (fun c p => applyCells c p.cells) s.cfg ∧
      (l.foldl (fun s p => s.surveyTake p) s).survey.pend = s.survey.pend := by
  induction l generalizing s with
  | nil => exact ⟨rfl, rfl⟩
  | cons p l ih =>
    refine ⟨(ih (s.surveyTake p)).1, (ih (s.surveyTake p)).2.trans ?_⟩
    show (s.survey.supply p.kind p.target p.cells).pend = s.survey.pend
    unfold Survey.supply
    split <;> rfl

/-- Settles O31: what is due is what has been appended of an axis at standstill, and nothing else leaves the list. -/
theorem surveyCommits : Obligations.SurveyCommits := by
  intro s t a boundary
  have due (still : Bool) (h : (s.axOf a).standstill = still) : (s.tick t).surveyDue a =
      if still then s.survey.pend.filter (fun p => p.appended && p.axis == a) else [] := by
    rw [← h]
    rfl
  refine ⟨fun still none => ?_, fun moving => ?_⟩
  all_goals
    show Answers _ (execSurveyCommit t a s)
    unfold execSurveyCommit
    extract_lets ticked l taken
    rw [if_neg (by simp [ticked, State.atBoundary_of boundary])]
    obtain ⟨cfg, pend⟩ := State.surveyTake_all l ticked
    rw [show l.foldl (fun s p => s.surveyTake p) ticked = taken from rfl] at cfg pend
  · have hl : l = s.survey.pend.filter fun p => p.appended && p.axis == a := by
      unfold l
      rw [due true still, show ticked.amdsDue = [] from none]
      simp
    refine .next ⟨?_, cfg.trans (by rw [hl]; rfl)⟩
    show taken.survey.pend.filter _ = _
    rw [pend, hl]
    refine List.filter_congr fun p mem => ?_
    have there : p ∈ s.survey.pend := mem
    rw [List.contains_eq_mem, Bool.eq_iff_iff]
    simp [there]
  · have hl : l = [] := by
      unfold l
      rw [due false moving]
      rfl
    refine .next ⟨?_, cfg.trans (by rw [hl]; rfl)⟩
    show taken.survey.pend.filter _ = _
    rw [pend, hl]
    exact List.filter_eq_self.mpr fun _ _ => rfl

end Sys2Proof.Machine

namespace Sys2Proof.Machine

/-! # Cars, doors, interlocks, brake tests and CLEAR_FAULT -/

/-! ## Cars (R366, R375, R560) -/

theorem State.car_onCar {s : State} {c : Nat} (h : c < s.cars.length) (f : Car → Car) : (s.onCar c f).car c = f (s.car c) :=
  nth_modify_same h f

theorem State.car_of_cars {s t : State} (e : t.cars = s.cars) (c : Nat) : t.car c = s.car c :=
  congrArg (fun l : List Car => nth l c) e

theorem State.carState_car {s : State} {c : Nat} (h : c < s.cars.length) (dest : Nat) :
    (s.carState c dest).car c = { s.car c with st := dest } := by
  unfold State.carState
  extract_lets x
  split
  · next same =>
    rw [← same]
  · rw [State.car_of_cars (State.raise_cars ..), State.car_onCar h]

theorem execDoorZoneDiscrepancy_degrades {s : State} {t c i j u0 : Nat} (free : s.clk.motionHeld = false) (h : c < s.cars.length)
    (ins : s.dzIns c = [i, j]) (differ : (s.car c).differ = some u0) (long : u0 + s.nat CAR.dz_disc c < max s.now t)
    (first : (s.car c).dzDegraded = false) : Answers (fun u => (u.car c).dzDegraded = true) (execDoorZoneDiscrepancy t c s) := by
  unfold execDoorZoneDiscrepancy
  extract_lets ticked x
  rw [if_neg (by simp [ticked, free]), show ticked.dzIns c = [i, j] from ins, show x.differ = some u0 from differ]
  dsimp -zeta only
  rw [if_pos ⟨long, by rw [show x.dzDegraded = false from first]; rfl⟩]
  refine .next ?_
  rw [State.car_of_cars (State.raise_cars ..), State.car_onCar (s := ticked) h]

theorem State.readyAxis_enabled {s : State} {a : Nat} (h : (s.axOf a).enabled = true) (since : Nat) :
    s.readyAxis a since = (s, true) := if_pos h

theorem State.issueRelevel_car {s : State} {c : Nat} (h : c < s.cars.length) (a l : Nat) :
    (s.issueRelevel c a l).car c =
        { s.car c with since := s.stage.boundaries, running := some l, relevels := inc32 (s.car c).relevels } ∧
      (s.issueRelevel c a l).cars.length = s.cars.length := by
  unfold State.issueRelevel
  extract_lets v cap issued
  have kept {m : AxCmd} : ((issued.levelEv c l ((issued.car c).tries + 1) v).kernelCmd a m).cars = issued.cars :=
    (State.raise_cars ..)
  refine ⟨?_, (congrArg List.length kept).trans (List.length_modify ..)⟩
  rw [State.car_of_cars kept]
  exact State.car_onCar h _

theorem execRelevel_starts {s : State} {c a l : Nat} (free : s.clk.motionHeld = false) (h : c < s.cars.length)
    (axis : s.carAxis c = some a) (landing : (s.car c).landing = some l) (stands : (s.car c).st = 1) (drives : s.carDrives = true)
    (out : s.nat CAR.relevel_n c ≤ (s.car c).levelRun) (doors : (s.doorsClosed c || s.bypassed c) = true)
    (sound : (s.car c).axisFault = false) (enabled : (s.axOf a).enabled = true) (t : Nat) :
    Answers (fun u => (u.car c).st = 3 ∧ (u.car c).relevels = inc32 (s.car c).relevels ∧ (u.car c).running = some l)
      (execRelevel t c s) := by
  unfold execRelevel
  extract_lets ticked x
  rw [if_neg (by simp [ticked, free]), show ticked.carAxis c = some a from axis, show x.landing = some l from landing]
  dsimp -zeta only
  rw [if_pos ⟨stands, drives, out, (Bool.or_eq_true _ _).mp doors, by rw [show x.axisFault = false from sound]; rfl⟩,
    State.readyAxis_enabled (s := ticked) enabled]
  dsimp -zeta only
  rw [if_pos rfl]
  refine .next ?_
  have fresh : (ticked.onCar c fun x => { x with tries := 0 }).cars.length = s.cars.length := List.length_modify ..
  obtain ⟨issued, length⟩ := State.issueRelevel_car (s := ticked.onCar c fun x => { x with tries := 0 }) (c := c) (by rw [fresh]; exact h) a l
  rw [State.carState_car (by rw [length, fresh]; exact h), issued, State.car_onCar (s := ticked) h]
  exact ⟨rfl, rfl, rfl⟩

/-- How many cars there are. -/
def State.carCount (s : State) : Nat := s.cars.length

theorem State.onCar_carCount (c : Nat) (f : Car → Car) (s : State) : Fixes State.carCount s (s.onCar c f) := ⟨List.length_modify ..⟩

theorem State.latchLoad_carCount (c : Nat) (s : State) : Fixes State.carCount s (s.latchLoad c) := by
  unfold State.latchLoad
  split <;> exact State.onCar_carCount ..

theorem State.enterTrip_carCount (c l : Nat) (t : Int) (s : State) : Fixes State.carCount s (s.enterTrip c l t) := by
  unfold State.enterTrip
  split
  · exact .refl s
  · exact (State.onCar_carCount ..).then_ (congrArg List.length ((State.offerTrip_keeps ..).get .cars rfl))

theorem State.carDepart_departs {s : State} {c : Nat} (h : c < s.cars.length) (a l : Nat) :
    ((s.carDepart c a l).car c).st = 2 ∧ ((s.carDepart c a l).car c).running = some l ∧ ((s.carDepart c a l).car c).paired = none := by
  unfold State.carDepart
  extract_lets loaded entered vcap
  have count : Fixes State.carCount s entered :=
    .trans (.ite (State.latchLoad_carCount ..) (.refl s)) (.ite (State.enterTrip_carCount ..) (.refl _))
  have hc : c < entered.cars.length := lt_of_lt_of_eq h count.eq.symm
  clear_value entered
  unfold State.issueStop
  split
  next target cl _ =>
  generalize hi : entered.onCar c _ = issued
  have hIssued : c < issued.cars.length := by
    rw [← hi]
    exact lt_of_lt_of_eq hc (List.length_modify ..).symm
  have running : (issued.car c).running = some l := by
    rw [← hi, State.car_onCar hc]
  generalize AxCmd.mk .. = m
  rw [State.carState_car (s := (issued.kernelCmd a m).onCar c _) (lt_of_lt_of_eq hIssued (List.length_modify ..).symm),
    State.car_onCar (s := issued.kernelCmd a m) hIssued]
  exact ⟨rfl, running, rfl⟩

theorem execPairedDeparture_departs {s : State} {t c a l : Nat} {v w : Int} (h : c < s.cars.length) (axis : s.carAxis c = some a)
    (paired : (s.car c).paired = some (v, w)) (assigned : (s.car c).assigned = some l) (due : v ≤ s.siteAt (max s.now t))
    (ok : s.departOk c = true) (st : (s.car c).st = 1 ∨ (s.car c).st = 5) (drives : s.carDrives = true) :
    Answers (fun u => (u.car c).st = 2 ∧ (u.car c).running = some l ∧ (u.car c).paired = none) (execPairedDeparture t c s) := by
  unfold execPairedDeparture
  extract_lets ticked x
  rw [show ticked.carAxis c = some a from axis, show x.paired = some (v, w) from paired, show x.assigned = some l from assigned]
  dsimp -zeta only
  rw [if_pos ⟨due, ok, st, drives⟩]
  extract_lets held
  refine .next (State.carDepart_departs ?_ a l)
  unfold held
  split <;> exact h

/-! ## Door timers (R384, R385) -/

theorem State.door_onDoor {s : State} {d : Nat} (h : d < s.doors.length) (f : Door → Door) :
    (s.onDoor d f).door d = f (s.door d) := nth_modify_same h f

theorem execDoorHoldEnd_ends {s : State} {t d v : Nat} (free : s.clk.motionHeld = false) (h : d < s.doors.length)
    (hold : (s.door d).holdEnd = some v) (open_ : (s.door d).st = 3) (due : v ≤ max s.now t) :
    Answers (fun u => (u.door d).holdOver = true ∧ (u.door d).st = 3) (execDoorHoldEnd t d s) := by
  unfold execDoorHoldEnd
  extract_lets ticked
  rw [if_neg (by simp [ticked, free]), show (ticked.door d).holdEnd = some v from hold]
  dsimp -zeta only
  rw [if_pos ⟨open_, due⟩]
  refine .next ?_
  rw [State.door_onDoor (s := ticked) h]
  exact ⟨rfl, open_⟩

theorem execNudgeTimer_due {s : State} {t d v : Nat} (free : s.clk.motionHeld = false) (h : d < s.doors.length)
    (since : (s.door d).nudgeFrom = some v) (due : v + s.nat DOOR.nudge_time d < max s.now t)
    (may : s.flag DOOR.flags 0 d = true) (recall1 : s.recallFlag 1 = false) (recall3 : s.recallFlag 3 = false) :
    Answers (fun u => (u.door d).nudgeDue = true ∧ (u.door d).st = (s.door d).st) (execNudgeTimer t d s) := by
  unfold execNudgeTimer
  extract_lets ticked
  rw [if_neg (by simp [ticked, free]), show (ticked.door d).nudgeFrom = some v from since]
  dsimp -zeta only
  rw [if_pos ⟨due, may, by rw [show ticked.recallFlag 1 = false from recall1]; rfl,
    by rw [show ticked.recallFlag 3 = false from recall3]; rfl⟩]
  refine .next ?_
  rw [State.door_onDoor (s := ticked) h]
  exact ⟨rfl, rfl⟩

/-- Settles O32: each row's guard holds of the state it names, and its effect is on that car or door. -/
theorem carsAndDoorTimers : Obligations.CarsAndDoorTimers :=
  ⟨⟨fun _ _ _ _ _ _ free h ins differ long first => execDoorZoneDiscrepancy_degrades free h ins differ long first,
    fun _ t _ _ _ free h axis landing stands drives out doors sound enabled =>
      execRelevel_starts free h axis landing stands drives out doors sound enabled t,
    fun _ _ _ _ _ _ _ h axis paired assigned due ok st drives => execPairedDeparture_departs h axis paired assigned due ok st drives⟩,
   ⟨fun _ _ _ _ free h hold open_ due => execDoorHoldEnd_ends free h hold open_ due,
    fun _ _ _ _ free h since due may recall1 recall3 => execNudgeTimer_due free h since due may recall1 recall3⟩⟩

/-! ## Safety inputs and SS1 (R400, R413) -/

theorem State.chan_onChan (b : Bool) (f : SafeChan → SafeChan) (s : State) :
    (s.onChan b f).chan b = f (s.chan b) ∧ (s.onChan b f).chan (!b) = s.chan (!b) := by
  cases b <;> exact ⟨rfl, rfl⟩

theorem execSafetyInputChange_moves {s : State} {die i : Nat} (hd : die < 2) (hi : i < 24)
    (h : i < (s.chan (die == 1)).ins.length) (t : Nat) (lv : Bool) (b : Bool) :
    Answers (fun u => (if b then (nth (u.chan (die == 1)).ins i).ballB else (nth (u.chan (die == 1)).ins i).ballA) = lv ∧
      u.chan (die == 0) = s.chan (die == 0)) (execSafetyInputChange t die i b lv s) := by
  unfold execSafetyInputChange
  extract_lets ticked open_ reads
  rw [if_neg (by omega)]
  refine .next ?_
  unfold State.onSafeIn
  obtain ⟨here, there⟩ := State.chan_onChan (die == 1) (fun c => { c with ins := c.ins.modify i fun x =>
    if b then { x with ballB := lv, openedB := x.openedB || open_ && reads }
    else { x with ballA := lv, openedA := x.openedA || open_ && reads } }) ticked
  have other : (die == 0) = !(die == 1) := by
    have : die = 0 ∨ die = 1 := by omega
    rcases this with rfl | rfl <;> rfl
  rw [here, other, there]
  refine ⟨?_, rfl⟩
  show (if b then (nth ((ticked.chan (die == 1)).ins.modify i _) i).ballB else (nth ((ticked.chan (die == 1)).ins.modify i _) i).ballA) = lv
  rw [nth_modify_same (l := (ticked.chan (die == 1)).ins) h]
  cases b <;> rfl

/-- The safe stops of the axes. -/
def State.stops (s : State) : List SafeStop := s.safe.stops

theorem Fixes.stops_raise {s t : State} {c : Nat} {pl : List Octet} {v : Nat} (h : Fixes State.stops s t) :
    Fixes State.stops s (t.raise c pl v) := h.then_ (congrArg Safe.stops (State.raise_safe t c pl v))

theorem State.onChan_stops (b : Bool) (f : SafeChan → SafeChan) (s : State) : Fixes State.stops s (s.onChan b f) := by
  cases b <;> exact ⟨rfl⟩

/-- A fault of an output whose reaction is no stop leaves the stops. -/
theorem State.outputFault_stops {o ch cause react : Nat} (pair : o < 22) (still : react ≠ 1) (s : State) :
    Fixes State.stops s (s.outputFault o ch cause react) := by
  unfold State.outputFault
  extract_lets re s1 s2 s3 s4
  have same : re = react := if_neg (by omega)
  have h1 : Fixes State.stops s s1 := ⟨rfl⟩
  have h3 : Fixes State.stops s s3 := .ite (h1.stops_raise.then_ rfl) h1.stops_raise
  have h4 : Fixes State.stops s s4 := .ite (h3.trans (State.onChan_stops ..)) h3
  rw [if_neg (show ¬ re = 1 from same ▸ still)]
  exact .ite (.refl s) h4

theorem State.driveOut_stops {o : Nat} (pair : o < 22) (b : Bool) (s : State) : Fixes State.stops s (s.driveOut b o) := by
  unfold State.driveOut
  extract_lets faulted v was driven
  have h : Fixes State.stops s faulted := .ite (State.outputFault_stops pair (by decide) s) (.refl s)
  have hDriven : Fixes State.stops s driven := h.then_ rfl
  exact .ite hDriven (hDriven.then_ rfl)

/-- A sweep over members that each leave the reading leaves it. -/
theorem Fixes.foldl_mem {α β : Type} {p : State → α} {f : State → β → State} {l : List β}
    (h : ∀ a ∈ l, ∀ t, Fixes p t (f t a)) (s : State) : Fixes p s (l.foldl f s) :=
  List.foldlRecOn l f (Fixes.refl s) fun _ k a mem => k.trans (h a mem _)

theorem execSs1End_ends {s : State} {t a : Nat} (boundary : max s.now t = s.stage.openedAt) (h : a < s.safe.stops.length)
    (ss1 : (nth s.safe.stops a).kind = .ss1)
    (over_ : s.standstillS a = true ∨ s.nat SAFE_AXIS.ss1_max a ≤ s.stage.boundaries - (nth s.safe.stops a).start) :
    Answers (fun u => (nth u.safe.stops a).kind = .ss1End ∧ (nth u.safe.stops a).endAt = s.stage.boundaries) (execSs1End t a s) := by
  unfold execSs1End
  extract_lets ticked st k ended raised
  have runs : ¬ (!ticked.standstillS a ∧ k < ticked.nat SAFE_AXIS.ss1_max a) := by
    rintro ⟨moves, early⟩
    rcases over_ with still | late
    · rw [show ticked.standstillS a = true from still] at moves
      cases moves
    · exact absurd early (Nat.not_lt.mpr late)
  have ss1' : st.kind = .ss1 := ss1
  rw [if_neg (by rintro (early | other | going)
                 · rw [State.atBoundary_of boundary] at early; cases early
                 · exact other ss1'
                 · exact runs going)]
  refine .next ?_
  have hEnded : nth ended.safe.stops a = { nth s.safe.stops a with kind := .ss1End, env := 0, endAt := s.stage.boundaries } :=
    nth_modify_same (l := ticked.safe.stops) h _
  have driven : Fixes State.stops ended ((raised.pairsOf 2 a).foldl (fun s o => (s.driveOut false o).driveOut true o) raised) := by
    refine (Fixes.refl ended).stops_raise.trans (.foldl_mem (fun o mem x => ?_) raised)
    have pair : o < 22 := List.mem_range.mp (List.mem_filter.mp mem).1
    exact (State.driveOut_stops pair ..).trans (State.driveOut_stops pair ..)
  have e := driven.eq
  unfold State.stops at e
  rw [e, hEnded]
  exact ⟨rfl, rfl⟩

/-! ## Test pulses and EDM (R420) -/

/-- The pairs of safety outputs. -/
def State.outs (s : State) : List SafeOut := s.safe.outs

theorem State.outOf_onOut {s : State} {o : Nat} (h : o < s.safe.outs.length) (f : SafeOut → SafeOut) :
    (s.onOut o f).outOf o = f (s.outOf o) := nth_modify_same h f

section
variable {β : Type} {g : SafeOut → β} {s t : State}

theorem Fixes.outs_at (h : Fixes (viewed State.outs g) s t) (o : Nat) : g (t.outOf o) = g (s.outOf o) := h.view_at o

theorem Fixes.outs_raise {c : Nat} {pl : List Octet} {v : Nat} (h : Fixes (viewed State.outs g) s t) :
    Fixes (viewed State.outs g) s (t.raise c pl v) := h.view_still (congrArg Safe.outs (State.raise_safe t c pl v))

theorem Fixes.outs_onChan {b : Bool} {f : SafeChan → SafeChan} (h : Fixes (viewed State.outs g) s t) :
    Fixes (viewed State.outs g) s (t.onChan b f) := h.view_still (by cases b <;> rfl)

theorem Fixes.outs_orderSto {a c : Nat} (h : Fixes (viewed State.outs g) s t) : Fixes (viewed State.outs g) s (t.orderSto a c) := by
  unfold State.orderSto
  have stopped : Fixes (viewed State.outs g) s
      (t.onStop a fun x => { x with kind := .sto, code := c, start := t.stage.boundaries }) := h.view_still rfl
  exact .ite h stopped.outs_raise

/-- What a fault of an output does beside marking it leaves every output. -/
theorem State.outputFault_marks (o ch cause react : Nat) (hg : ∀ (x : SafeOut) c r, g { x with fault := c, react := r, brakePassed := false } = g x) :
    Fixes (viewed State.outs g) s (s.outputFault o ch cause react) := by
  unfold State.outputFault
  extract_lets re s1 s2 s3 s4
  have h1 : Fixes (viewed State.outs g) s s1 := .view_modify rfl fun x => hg x cause re
  have h3 : Fixes (viewed State.outs g) s s3 := .ite (h1.outs_raise.view_still rfl) h1.outs_raise
  have h4 : Fixes (viewed State.outs g) s s4 := .ite h3.outs_onChan h3
  refine .ite (.refl s) (.ite (.ite ?_ (.ite h4.outs_orderSto h4)) h4)
  exact h4.trans (.eachIx (fun a x => .ite (Fixes.refl x).outs_orderSto (.refl x)) _ _)

end

theorem State.outputFault_fault {s : State} {o : Nat} (h : o < s.safe.outs.length) (sound : (s.outOf o).fault = 0)
    (ch cause react : Nat) : ((s.outputFault o ch cause react).outOf o).fault = cause := by
  unfold State.outputFault
  extract_lets re s1 s2 s3 s4
  rw [if_neg (by rw [sound]; simp)]
  have h3 : Fixes (viewed State.outs SafeOut.fault) s1 s3 := .ite ((Fixes.refl s1).outs_raise.view_still rfl) (Fixes.refl s1).outs_raise
  have h4 : Fixes (viewed State.outs SafeOut.fault) s1 s4 := .ite h3.outs_onChan h3
  have marked : (s1.outOf o).fault = cause := by
    unfold s1
    rw [State.outOf_onOut h]
  refine (Fixes.outs_at (g := SafeOut.fault) (.ite (.ite ?_ (.ite h4.outs_orderSto h4)) h4) o).trans marked
  exact h4.trans (.eachIx (fun a x => .ite (Fixes.refl x).outs_orderSto (.refl x)) _ _)

/-- The counts of the test pulses of an output. -/
def SafeOut.pulses (x : SafeOut) : Nat × Nat := (x.pulseA, x.pulseB)

/-- The counts after a pulse at which the balls read back off or not. -/
def SafeOut.pulsed (x : SafeOut) (offA offB : Bool) : Nat × Nat :=
  (if x.a && !offA then x.pulseA + 1 else 0, if x.b && !offB then x.pulseB + 1 else 0)

theorem execTestPulse_counts {s : State} {o : Nat} (pair : o < 22) (h : o < s.safe.outs.length)
    (tested : s.flag SAFE_OUT.flags 0 o = true) (due : (s.stage.boundaries + 4096 * 22 - 128 * o) % 4096 = 0)
    (on : ((s.outOf o).a || (s.outOf o).b) = true) (t : Nat) (offA offB : Bool) :
    Answers (fun u => (u.outOf o).pulses = (s.outOf o).pulsed offA offB) (execTestPulse t o offA offB s) := by
  unfold execTestPulse
  extract_lets ticked x dueNow na nb counted faultedA
  rw [if_neg ?_]
  · have hCounted : counted.outOf o = { s.outOf o with pulseA := na, pulseB := nb } := State.outOf_onOut (s := ticked) h _
    have hA : Fixes (viewed State.outs SafeOut.pulses) counted faultedA :=
      .ite (State.outputFault_marks o 0 5 5 fun _ _ _ => rfl) (.refl counted)
    have hB : Fixes (viewed State.outs SafeOut.pulses) counted (if 2 ≤ nb then faultedA.outputFault o 1 5 5 else faultedA) :=
      .ite (hA.trans (State.outputFault_marks o 1 5 5 fun _ _ _ => rfl)) hA
    have kept := hB.outs_at o
    rw [hCounted] at kept
    exact ⟨_, rfl, kept⟩
  · rintro (high | untested | early | off)
    · omega
    · rw [show ticked.flag SAFE_OUT.flags 0 o = true from tested] at untested
      cases untested
    · exact absurd (show dueNow from due) (by simpa using early)
    · rw [← Bool.not_or, show (x.a || x.b) = true from on] at off
      cases off

theorem execEdmTimeout_faults {s : State} {o : Nat} (h : o < s.safe.outs.length) (pair : o < 22) (used : s.edmOf o ≠ 0)
    (open_ : (s.outOf o).settled = false) (sound : (s.outOf o).fault = 0) (differs : s.edmOn o = (s.outOf o).on)
    (long : (s.outOf o).since + (if (s.outOf o).on then s.nat SAFE_OUT.t_on o else s.nat SAFE_OUT.t_off o) ≤ s.stage.boundaries)
    (t : Nat) : Answers (fun u => (u.outOf o).fault = if (s.outOf o).on then 1 else 2) (execEdmTimeout t o s) := by
  unfold execEdmTimeout
  extract_lets ticked x tOn tOff
  have hOn : tOn = s.nat SAFE_OUT.t_on o := if_neg (by omega)
  have hOff : tOff = s.nat SAFE_OUT.t_off o := if_neg (by omega)
  have unused : ¬ (ticked.edmOf o = 0 ∨ x.settled ∨ x.fault ≠ 0 ∨ ticked.edmOn o = !x.on) := by
    rintro (none | settled | faulted | agrees)
    · exact used none
    · rw [show x.settled = false from open_] at settled
      cases settled
    · exact faulted sound
    · rw [show ticked.edmOn o = x.on from differs] at agrees
      cases hx : x.on <;> simp [hx] at agrees
  rw [if_neg unused]
  cases on : (s.outOf o).on
  · rw [on] at long
    rw [if_neg (show ¬ x.on = true from by rw [show x.on = false from on]; simp),
      if_neg (show ¬ ticked.stage.boundaries < x.since + tOff from by rw [hOff]; exact Nat.not_lt.mpr long)]
    exact .next (State.outputFault_fault (s := ticked) h sound 0 2 2)
  · rw [on] at long
    rw [if_pos (show x.on = true from on),
      if_neg (show ¬ ticked.stage.boundaries < x.since + tOn from by rw [hOn]; exact Nat.not_lt.mpr long)]
    exact .next (State.outputFault_fault (s := ticked) h sound 0 1 1)

/-- Settles O33: a ball is of one die; the stops of an SS1 that ends are left by the outputs that it turns off; the fault of an
output leaves the counts of its pulses and is what its EDM shows. -/
theorem interlockInputsAndOutputs : Obligations.InterlockInputsAndOutputs :=
  ⟨⟨fun _ t _ _ lv hd hi h => ⟨execSafetyInputChange_moves hd hi h t lv false, execSafetyInputChange_moves hd hi h t lv true⟩,
    fun _ _ _ boundary h ss1 over_ => execSs1End_ends boundary h ss1 over_⟩,
   ⟨fun _ t _ offA offB pair h tested due on => (execTestPulse_counts pair h tested due on t offA offB).mono
      fun _ e => ⟨congrArg Prod.fst e, congrArg Prod.snd e⟩,
    fun _ t _ h pair used open_ sound differs long => execEdmTimeout_faults h pair used open_ sound differs long t⟩⟩

/-! ## Brake tests (R418) -/

theorem execBrakeTest_starts {s : State} {src id a : Nat} (fresh : s.keptFor src id = none) (allowed : s.testAllowed a = true)
    (steps : s.testSteps a ≠ []) (t : Nat) :
    Answers (fun u => u.safe.test.map (fun x => (x.axis, x.steps)) = some (a, s.testSteps a) ∧
      u.replies = s.replies ++ [{ src := src, id := id, code := 7, detail := 0 }]) (execBrakeTest t src id a s) := by
  unfold execBrakeTest
  rw [State.mbRow_fresh fresh]
  refine .next ?_
  generalize hx : (s.tick t).noteTaken src id (.brakeTest a) = x
  have may : x.testAllowed a = true := by
    rw [← hx]
    exact allowed
  have same : x.testSteps a = s.testSteps a := by
    rw [← hx]
    rfl
  have told : x.replies = s.replies := by
    rw [← hx]
    rfl
  have parts := may
  unfold State.testAllowed at parts
  simp only [Bool.and_eq_true, Bool.or_eq_true, beq_iff_eq, Option.isNone_iff_eq_none] at parts
  unfold State.takeBrakeTest
  extract_lets _ started answered
  rw [if_neg (by omega), if_neg (by simp [parts]), if_neg (by rw [may]; simp)]
  have some_ : (answered.testSteps a).isEmpty = false := by
    rw [show answered.testSteps a = s.testSteps a from same]
    simpa using steps
  rw [if_neg (by rw [some_]; simp)]
  refine ⟨?_, congrArg (· ++ _) told⟩
  rw [← same]
  rfl

/-- The brake test under way. -/
def State.testing (s : State) : Option BrakeTest := s.safe.test

theorem Fixes.testing_raise {s t : State} {c : Nat} {pl : List Octet} {v : Nat} (h : Fixes State.testing s t) :
    Fixes State.testing s (t.raise c pl v) := h.then_ (congrArg Safe.test (State.raise_safe t c pl v))

theorem Fixes.testing_orderSto {s t : State} {a c : Nat} (h : Fixes State.testing s t) : Fixes State.testing s (t.orderSto a c) := by
  unfold State.orderSto
  have stopped : Fixes State.testing s (t.onStop a fun x => { x with kind := .sto, code := c, start := t.stage.boundaries }) := h.then_ rfl
  exact .ite h stopped.testing_raise

theorem State.outputFault_testing (o ch cause react : Nat) (s : State) : Fixes State.testing s (s.outputFault o ch cause react) := by
  unfold State.outputFault
  extract_lets re s1 s2 s3 s4
  have h1 : Fixes State.testing s s1 := ⟨rfl⟩
  have h3 : Fixes State.testing s s3 := .ite (h1.testing_raise.then_ rfl) h1.testing_raise
  have h4 : Fixes State.testing s s4 := .ite (h3.then_ (by cases ch == 1 <;> rfl)) h3
  refine .ite (.refl s) (.ite (.ite ?_ (.ite h4.testing_orderSto h4)) h4)
  exact h4.trans (.eachIx (fun a x => .ite (Fixes.refl x).testing_orderSto (.refl x)) _ _)

theorem State.brakeResult_testing (x : BrakeTest) (o : Nat) (moved : Bool) (disp : Int) (s : State) :
    Fixes State.testing s (s.brakeResult x o moved disp) := by
  unfold State.brakeResult
  extract_lets told
  have h : Fixes State.testing s told := (Fixes.refl s).testing_raise
  exact .ite (h.trans (State.outputFault_testing ..)) (h.then_ rfl)

theorem execBrakeTestStepEnd_ends {s : State} {t o : Nat} {d : Int} {rest : List (Nat × Int)} {x : BrakeTest} (test : s.safe.test = some x)
    (steps : x.steps = (o, d) :: rest) (long : x.from_ + s.nat SAFE_AXIS.test_time x.axis ≤ s.stage.boundaries) :
    Answers (fun u => (rest = [] → u.safe.test = none) ∧
      (rest ≠ [] → u.safe.test.map (fun y => (y.axis, y.steps, y.from_)) = some (x.axis, rest, s.stage.boundaries + 1)))
      (execBrakeTestStepEnd t s) := by
  unfold execBrakeTestStepEnd
  extract_lets ticked
  rw [show ticked.safe.test = some x from test]
  dsimp -zeta only
  rw [steps]
  dsimp -zeta only
  rw [if_neg (show ¬ ticked.stage.boundaries < x.from_ + ticked.nat SAFE_AXIS.test_time x.axis from Nat.not_lt.mpr long)]
  extract_lets moved disp more judged stepped
  have hJudged : judged.safe.test = some x := by
    have kept : Fixes State.testing ticked judged := .ite (.refl ticked) (State.brakeResult_testing ..)
    exact kept.eq.trans test
  have boundaries : judged.stage.boundaries = s.stage.boundaries := by
    have kept : Keeps [.safe, .led, .mode] ticked judged := Keeps.ite (Keeps.refl _ ticked) (State.brakeResult_keeps x o moved disp ticked)
    exact congrArg Stage.boundaries (kept.get .stage rfl)
  have hStepped : stepped.safe.test.map (fun y => (y.axis, y.steps, y.from_)) = some (x.axis, rest, s.stage.boundaries + 1) := by
    show ((judged.safe.test.map _).map _) = _
    rw [hJudged, ← boundaries]
    rfl
  cases rest with
  | nil => exact ⟨_, rfl, fun _ => rfl, fun some_ => absurd rfl some_⟩
  | cons p rest => exact ⟨_, rfl, fun none => absurd none (List.cons_ne_nil p rest), fun _ => hStepped⟩

/-! ## CLEAR_FAULT (R278, R423) -/

theorem State.clearAxis_clears {s : State} (a : Nat) : ((s.clearAxis a).bookOf a).fault = false := by
  unfold State.clearAxis
  extract_lets cleared
  split
  · next sound =>
    simpa using sound
  · show (nth (s.book.modify a _) a).fault = false
    by_cases h : a < s.book.length
    · rw [nth_modify_same h]
    · rw [nth_of_length_le (by simpa using h)]
      rfl

theorem State.clearAxis_sound {s : State} {b : Nat} (h : (s.bookOf b).fault = false) (a : Nat) :
    ((s.clearAxis a).bookOf b).fault = false := by
  by_cases e : b = a
  · exact e ▸ State.clearAxis_clears a
  unfold State.clearAxis
  extract_lets cleared
  split
  · exact h
  · show (nth (s.book.modify a _) b).fault = false
    rw [nth_modify_ne _ _ e]
    exact h

/-- Once an axis is cleared, what is cleared after it leaves it so. -/
theorem State.clearFaults_clears {s : State} {a : Nat} (h : a < 12) : (s.clearFaults.1.bookOf a).fault = false := by
  unfold State.clearFaults
  extract_lets fbs emus curs axes doors cars xds
  have hAxes : (axes.bookOf a).fault = false :=
    eachIx_at (P := fun _ => True) (Q := fun x => (x.bookOf a).fault = false) h trivial (fun _ _ _ _ => trivial)
      (fun _ _ => State.clearAxis_clears a) fun i _ _ k => State.clearAxis_sound k i
  have kept : Keeps [.doors, .cars, .xd, .led] axes xds :=
    Keeps.eachIx (fun i x k => (State.clearXd_keeps i x).after k rfl)
      (Keeps.eachIx (fun i x k => (State.clearCar_keeps i x).after k rfl)
        (Keeps.eachIx (fun i x k => (State.clearDoor_keeps i x).after k rfl) (Keeps.refl _ axes)))
  have hXds : xds.book = axes.book := kept.get .book rfl
  have reset : xds.safetyReset.1.book = xds.book := (State.safetyReset_keeps xds).get .book rfl
  have whole {t : State} (e : t.book = axes.book) : (t.bookOf a).fault = false := by
    unfold State.bookOf
    rw [e]
    exact hAxes
  split
  · next reset' n eq =>
    rw [eq] at reset
    have halted : reset'.clearHalt.book = reset'.book := (State.clearHalt_keeps reset').get .book rfl
    exact whole (halted.trans (reset.trans hXds))
  · next reset' eq =>
    rw [eq] at reset
    exact whole (reset.trans hXds)

theorem execClearFault_clears {s : State} {src id : Nat} (fresh : s.keptFor src id = none) (halt : s.mode.mode = 6)
    (single : s.inPair = false) (t : Nat) :
    Answers (fun u => (∀ a, a < 12 → (u.bookOf a).fault = false) ∧ u.replies.length = s.replies.length + 1)
      (execClearFault t src id s) := by
  unfold execClearFault
  rw [State.mbRow_fresh fresh]
  refine .next ?_
  generalize hx : (s.tick t).noteTaken src id .clearFault = x
  have halt' : x.mode.mode = 6 := by
    rw [← hx]
    exact halt
  have told : x.replies = s.replies := by
    rw [← hx]
    rfl
  unfold State.takeClearFault
  extract_lets unfit
  have fit : unfit = false := by
    have : x.inPair = false := by
      rw [← hx]
      exact single
    unfold unfit
    rw [this]
    rfl
  rw [if_neg (by simp [halt']), if_pos halt']
  have cleared (a : Nat) (h : a < 12) := State.clearFaults_clears (s := x) h
  have replies : x.clearFaults.1.replies = x.replies := (State.clearFaults_keeps x).get .replies rfl
  generalize x.clearFaults = out at cleared replies ⊢
  obtain ⟨y, n⟩ := out
  dsimp only at cleared replies ⊢
  rw [if_neg (by rw [fit]; simp)]
  refine ⟨cleared, ?_⟩
  show (y.replies ++ [_]).length = _
  rw [List.length_append, replies, told]
  rfl

/-- Settles O34: a step of a test leaves the test by its result alone; an axis once cleared stays so to the end of the row. -/
theorem brakeTestsAndClearing : Obligations.BrakeTestsAndClearing :=
  ⟨⟨fun _ t _ _ _ fresh allowed steps => execBrakeTest_starts fresh allowed steps t,
    fun _ _ _ _ _ _ test steps long => execBrakeTestStepEnd_ends test steps long⟩,
   fun _ t _ _ fresh halt single => execClearFault_clears fresh halt single t⟩

end Sys2Proof.Machine

namespace Sys2Proof.Machine

/-! # Dispatching calls (chapter 11) -/

theorem State.dsp_send (d : Dest) (m : Msg) (s : State) : (s.send d m).dsp = s.dsp := (State.send_keeps d m s).get .dsp rfl

theorem State.dsp_toGroup (m : Msg) (s : State) : (s.toGroup m).dsp = s.dsp := State.dsp_send ..

theorem State.callOf_of_dsp {s t : State} (e : t.dsp = s.dsp) (id : Nat) : t.callOf id = s.callOf id :=
  congrArg (fun d : Dsp => d.calls.find? fun x : CollCall => x.call.callId == id) e

/-- A change of a call that leaves its ID. -/
theorem State.callOf_onCall {s : State} {id : Nat} {x : CollCall} {f : CollCall → CollCall} (h : s.callOf id = some x)
    (hf : ∀ y, (f y).call = y.call) : (s.onCall id f).callOf id = some (f x) := by
  show (s.dsp.calls.map fun y => if y.call.callId == id then f y else y).find? (fun y => y.call.callId == id) = _
  have found : s.dsp.calls.find? (fun y => y.call.callId == id) = some x := h
  generalize s.dsp.calls = l at found ⊢
  induction l with
  | nil => cases found
  | cons y l ih =>
    by_cases e : y.call.callId = id
    · simp only [List.find?_cons, e, beq_self_eq_true, Option.some.injEq] at found
      subst found
      simp [e, hf]
    · simp only [List.find?_cons, beq_eq_false_iff_ne.mpr e] at found
      simpa [e] using ih found

/-! ## Calls and rounds (R439, R444, R454) -/

/-- How many calls are held, and the counts of those opened. -/
def State.callCounts (s : State) : Nat × Nat := (s.dsp.calls.length, s.dsp.serial)

theorem State.openRound_counts (id attempt : Nat) (s : State) :
    Fixes State.callCounts s (s.openRound id attempt) ∧ (s.openRound id attempt).dsp.opened = inc32 s.dsp.opened := by
  unfold State.openRound
  extract_lets t reset counted
  have h : Fixes State.callCounts s counted := ⟨Prod.ext (List.length_map ..) rfl⟩
  have opened : counted.dsp.opened = inc32 s.dsp.opened := rfl
  clear_value counted
  split
  · next x _ =>
    have same := State.dsp_toGroup (.dspOpen (counted.openMsg x)) counted
    exact ⟨h.then_ (congrArg (fun d : Dsp => (d.calls.length, d.serial)) same), (congrArg Dsp.opened same).trans opened⟩
  · exact ⟨h, opened⟩

theorem State.takeCall_new {s : State} {k : Call} (collects : s.collects = true) (group : k.group = s.group)
    (kind : kindAllowed s.dspMode k.kind = true) (from_ : k.from_ ≤ 255) (dest : 3 ≤ k.kind → k.dest ≤ 255)
    (behind : k.kind = 4 → ∀ l ∈ [k.fromB, k.toB], l ≠ 0xFFFF → l ≤ 255) (room : s.dsp.calls.length < 1024)
    (new_ : ∀ x ∈ s.dsp.calls, sameKey x.call k = false) : s.takeCall k = s.newCall k := by
  have car : k.kind ≠ 6 := by
    intro six
    rw [six] at kind
    cases kind
  have far : (decide (3 ≤ k.kind) && decide (255 < k.dest)) = false := by
    by_cases h : 3 ≤ k.kind
    · simp [dest h]
    · simp [h]
  have rear : (k.kind == 4 && [k.fromB, k.toB].any (fun l => l != 0xFFFF && decide (255 < l))) = false := by
    by_cases h : k.kind = 4
    · rw [Bool.and_eq_false_imp]
      intro _
      rw [List.any_eq_false]
      intro l mem
      by_cases e : l = 0xFFFF
      · simp [e]
      · simpa [e] using behind h l mem e
    · simp [h]
  have fresh : s.dsp.calls.find? (fun x => sameKey x.call k) = none :=
    List.find?_eq_none.mpr fun x mem => by simp [new_ x mem]
  unfold State.takeCall
  rw [if_neg car, if_neg (by simp [collects, group]), if_neg (by rw [kind, far, rear]; simpa using from_), fresh]
  exact if_neg (Nat.not_le.mpr room)

theorem execDspCall_opens {s : State} {k : Call} (collects : s.collects = true) (group : k.group = s.group)
    (kind : kindAllowed s.dspMode k.kind = true) (from_ : k.from_ ≤ 255) (dest : 3 ≤ k.kind → k.dest ≤ 255)
    (behind : k.kind = 4 → ∀ l ∈ [k.fromB, k.toB], l ≠ 0xFFFF → l ≤ 255) (room : s.dsp.calls.length < 1024)
    (new_ : ∀ x ∈ s.dsp.calls, sameKey x.call k = false) (t : Nat) :
    Answers (fun u => u.dsp.calls.length = s.dsp.calls.length + 1 ∧ u.dsp.serial = (s.dsp.serial + 1) % 2 ^ 18 ∧
      u.dsp.opened = inc32 s.dsp.opened) (execDspCall t k s) := by
  unfold execDspCall
  rw [State.takeCall_new (s := s.tick t) collects group kind from_ dest behind room new_]
  unfold State.newCall
  extract_lets id held
  obtain ⟨counts, opened⟩ := State.openRound_counts id 1 held
  obtain ⟨calls, serial⟩ := Prod.mk.inj counts.eq
  exact .next ⟨calls.trans List.length_append, serial, opened⟩

theorem execDspOpen_holds {s : State} {o : DspOpen} (member : s.group ≠ 0) (group : o.call.group = s.group)
    (collector : o.collector = s.nat DISPATCH.collector) (new_ : ∀ r ∈ s.dsp.rounds, r.open_.call.callId ≠ o.call.callId) (t : Nat) :
    Answers (fun u => ∃ r ∈ u.dsp.rounds, r.open_ = o ∧ (s.spawnTask 1 0x051 = none → r.ready = true)) (execDspOpen t o s) := by
  unfold execDspOpen
  refine .next ?_
  unfold State.takeOpen
  extract_lets id answered known stationed held
  have fresh : known = false := List.any_eq_false.mpr fun r mem => by
    have ne : r.open_.call.callId ≠ id := new_ r mem
    simp [ne]
  rw [if_neg (by rintro (none | other | stranger)
                 · exact member none
                 · exact other group
                 · exact stranger (.inl collector)), if_neg (by simp [fresh])]
  have mem : ({ open_ := o } : Round) ∈ held.dsp.rounds := List.mem_append_right _ (List.mem_singleton_self _)
  have spawns : held.spawnTask 1 0x051 = s.spawnTask 1 0x051 := by
    have graph : held.graph = s.graph := by
      have kept : Keeps [.dsp] (s.tick t) stationed :=
        Keeps.ite (State.answered_keeps ..) ((State.onDsp_keeps ..).after (State.answered_keeps ..) rfl)
      exact kept.get .graph rfl
    unfold State.spawnTask State.taskRec
    rw [graph]
  rw [spawns]
  split
  · next i some_ =>
    have same : (held.fabArrive i (callBytes o.call)).dsp = held.dsp := (State.fabArrive_keeps ..).get .dsp rfl
    rw [same]
    exact ⟨_, mem, rfl, fun none => by rw [none] at some_; cases some_⟩
  · exact ⟨_, List.mem_map_of_mem mem, by simp [id], fun _ => by simp [id]⟩

/-- What the bids sent up leave of the dispatcher. -/
def State.roundsHeld (s : State) : List Round × Nat := (s.dsp.rounds, s.dsp.bidsSent)

theorem State.bidsUp_rounds (id collector merged : Nat) (l : List Bid) (s : State) :
    Fixes State.roundsHeld s (s.bidsUp id collector merged l) := by
  have sent (d : Dest) (m : Msg) (x : State) : Fixes State.roundsHeld x (x.send d m) :=
    ⟨congrArg (fun d : Dsp => (d.rounds, d.bidsSent)) (State.dsp_send d m x)⟩
  unfold State.bidsUp
  exact .ite (.refl s) (.ite ⟨rfl⟩ (.ite (.foldl (fun x b => sent _ _ x) l s) (sent ..)))

theorem execBidSend_sends {s : State} {t id : Nat} {r : Round} (boundary : max s.now t = s.stage.openedAt)
    (round : s.dsp.rounds.find? (fun r => r.open_.call.callId == id) = some r) (ready : r.ready = true) (unsent : r.sent = false)
    (due : r.open_.tOpen + usNs r.open_.lead + s.machineId % 64 * usNs r.open_.slot ≤ s.siteAt (max s.now t)) :
    Answers (fun u => (∀ x ∈ u.dsp.rounds, x.open_.call.callId = id → x.sent = true) ∧
      u.dsp.bidsSent = satU (s.dsp.bidsSent + r.bids.length) 32) (execBidSend t id s) := by
  unfold execBidSend
  extract_lets ticked
  rw [show ticked.dsp.rounds.find? (fun r => r.open_.call.callId == id) = some r from round]
  dsimp -zeta only
  rw [if_pos ⟨State.atBoundary_of boundary, ready, by rw [unsent]; rfl, due⟩]
  extract_lets marked
  obtain ⟨rounds, bids⟩ := Prod.mk.inj (State.bidsUp_rounds id r.open_.collector 0 r.bids marked).eq
  refine .next ⟨fun x mem own => ?_, bids⟩
  rw [rounds] at mem
  obtain ⟨y, _, rfl⟩ := List.mem_map.mp mem
  by_cases e : y.open_.call.callId = id
  · simp [e]
  · simp [e] at own

theorem execDspBid_ranks {s : State} {t id m : Nat} {l : List Bid} {x : CollCall} (collects : s.collects = true)
    (own : callUnit id = s.machineId) (call : s.callOf id = some x) (open_ : x.phase = 0) :
    Answers (fun u => (u.callOf id).map (·.bids) = some (bestFour x.bids l)) (execDspBid t id m l s) := by
  unfold execDspBid State.takeBids
  extract_lets late
  refine .next ?_
  rw [if_neg (by rw [show (s.tick t).collects = true from collects, show (s.tick t).machineId = s.machineId from rfl, own]; simp),
    show (s.tick t).callOf id = some x from call]
  dsimp only
  rw [if_pos open_, State.callOf_onCall (s := s.tick t) call]
  · rfl
  · exact fun _ => rfl

theorem execWaystationForward_forwards {s : State} {t id : Nat} {w : WsCall} (boundary : max s.now t = s.stage.openedAt)
    (call : s.dsp.ws.find? (fun w => w.open_.call.callId == id) = some w)
    (due : w.open_.tOpen + usNs w.open_.lead + 64 * usNs w.open_.slot + s.nat DISPATCH.ws_rank * usNs (s.nat DISPATCH.ws_step) ≤
      s.siteAt (max s.now t)) :
    Answers (fun u => u.dsp.forwarded = s.dsp.forwarded ++ [id] ∧ u.dsp.wsWaiting = s.dsp.wsWaiting.drop 1)
      (execWaystationForward t id s) := by
  unfold execWaystationForward
  extract_lets ticked
  rw [show ticked.dsp.ws.find? (fun w => w.open_.call.callId == id) = some w from call]
  dsimp -zeta only
  extract_lets o
  rw [if_pos ⟨State.atBoundary_of boundary, due⟩]
  exact .ite (.next ⟨rfl, rfl⟩) (.next (by rw [State.dsp_send]; exact ⟨rfl, rfl⟩))

/-- Settles O35: a call of another key takes the next SERIAL; the bids of a round are those of the member's own cars, and the
collector's those of the best four. -/
theorem bidRounds : Obligations.BidRounds :=
  ⟨fun _ t _ collects group kind from_ dest behind room new_ =>
      execDspCall_opens collects group kind from_ dest behind room new_ t,
   fun _ t _ member group collector new_ => execDspOpen_holds member group collector new_ t,
   fun _ _ _ _ boundary round ready unsent due => execBidSend_sends boundary round ready unsent due,
   fun _ _ _ _ _ _ collects own call open_ _ => execDspBid_ranks collects own call open_,
   fun _ _ _ _ boundary call due => execWaystationForward_forwards boundary call due⟩

/-! ## Assignments (R454, R456, R457) -/

theorem State.callOf_id {s : State} {id : Nat} {x : CollCall} (h : s.callOf id = some x) : x.call.callId = id :=
  beq_iff_eq.mp (List.find?_some (p := fun x : CollCall => x.call.callId == id) h)

/-- A call passes to its bid `n`, or waits for its reopening when there is none. -/
theorem State.assignNext_passes {s : State} {id : Nat} {x : CollCall} (h : s.callOf id = some x) (n : Nat) :
    (n < x.bids.length → ((s.assignNext id n).callOf id).map (fun y => (y.phase, y.next)) = some (1, n)) ∧
      (x.bids.length ≤ n → ((s.assignNext id n).callOf id).map (·.phase) = some 3) := by
  unfold State.assignNext
  rw [h]
  dsimp only
  split
  · next none =>
    have last : x.bids.length ≤ n := List.getElem?_eq_none_iff.mp none
    refine ⟨fun more => absurd more (Nat.not_lt.mpr last), fun _ => ?_⟩
    rw [State.callOf_onCall h]
    · rfl
    · exact fun _ => rfl
  · next b some_ =>
    have more : n < x.bids.length := List.getElem?_eq_some_iff.mp some_ |>.1
    refine ⟨fun _ => ?_, fun last => absurd more (Nat.not_lt.mpr last)⟩
    rw [State.callOf_of_dsp (State.dsp_toGroup ..), State.callOf_onCall h]
    · rfl
    · exact fun _ => rfl

theorem State.declined_passes {s : State} {id : Nat} {x : CollCall} (h : s.callOf id = some x) (reason : Nat) :
    (x.next + 1 < x.bids.length →
        ((s.declined x reason).callOf id).map (fun y => (y.phase, y.next)) = some (1, x.next + 1)) ∧
      (x.bids.length ≤ x.next + 1 → ((s.declined x reason).callOf id).map (·.phase) = some 3) := by
  unfold State.declined
  rw [State.callOf_id h]
  exact State.assignNext_passes ((State.callOf_of_dsp (State.raise_dsp ..) id).trans h) _

theorem execBidRoundClose_closes {s : State} {t id : Nat} {x : CollCall} (boundary : max s.now t = s.stage.openedAt)
    (call : s.callOf id = some x) (open_ : x.phase = 0) (over_ : x.closeAt ≤ s.siteAt (max s.now t)) :
    Answers (fun u => (x.bids ≠ [] → (u.callOf id).map (fun y => (y.phase, y.next)) = some (1, 0)) ∧
      (x.bids = [] → (u.callOf id).map (·.phase) = some 3)) (execBidRoundClose t id s) := by
  unfold execBidRoundClose
  extract_lets ticked
  rw [show ticked.callOf id = some x from call]
  dsimp -zeta only
  rw [if_neg (by rintro (early | later | open_)
                 · rw [State.atBoundary_of boundary] at early
                   cases early
                 · exact later (by assumption)
                 · exact absurd over_ (Int.not_le.mpr open_))]
  have closed : (ticked.onCall id fun y => { y with closeAt := ticked.site }).callOf id = some { x with closeAt := ticked.site } :=
    State.callOf_onCall (s := ticked) call fun _ => rfl
  obtain ⟨more, last⟩ := State.assignNext_passes closed 0
  split
  · next none =>
    exact .next ⟨fun some_ => absurd none some_, fun _ => last (by simp [none])⟩
  · next b rest some_ =>
    refine .next ⟨fun _ => ?_, fun none => by rw [none] at some_; cases some_⟩
    rw [State.callOf_of_dsp (State.raise_dsp ..)]
    exact more (by simp [some_])

theorem State.addStop_assigned (c : Nat) (x : Stop) (s : State) : (s.addStop c x).dsp.assigned = s.dsp.assigned := rfl

theorem State.acceptCall_assigned (k : Call) (car : Nat) (s : State) :
    (s.acceptCall k car).dsp.assigned = inc32 s.dsp.assigned := by
  unfold State.acceptCall
  extract_lets counted served
  have h : served.dsp.assigned = counted.dsp.assigned := by
    unfold served
    split
    · rfl
    · split <;> rfl
  rw [show (served.dspAnswer 0x054 k.callId car 0).dsp = served.dsp from (State.dspAnswer_keeps ..).get .dsp rfl, h]
  rfl

theorem execDspAssign_accepts {s : State} {id unit car : Nat} {r : Round} (own : unit = s.machineId) (leads : s.leads = true)
    (round : s.dsp.rounds.find? (fun r => r.open_.call.callId == id) = some r) (fresh : s.holdsCall id = false) (sent : r.sent = true)
    (bid : r.bids.any (fun b => b.car == car) = true) (fit : s.unitWithdraw = 0) (may : s.mayServe r.open_.call car = true)
    (t att cost : Nat) : Answers (fun u => u.dsp.assigned = inc32 s.dsp.assigned) (execDspAssign t id unit car att cost s) := by
  unfold execDspAssign
  refine .next ?_
  unfold State.takeAssign
  rw [show (s.tick t).dsp.rounds.find? (fun r => r.open_.call.callId == id) = some r from round]
  extract_lets found answered no
  generalize hx : answered = x
  have leads' : x.leads = true := by rw [← hx]; exact leads
  have fresh' : x.holdsCall id = false := by rw [← hx]; exact fresh
  have fit' : x.unitWithdraw = 0 := by rw [← hx]; exact fit
  have may' : x.mayServe r.open_.call car = true := by rw [← hx]; exact may
  have own' : unit = x.machineId := by rw [← hx]; exact own
  rw [if_neg (by rintro (other | standby)
                 · exact other own'
                 · rw [leads'] at standby
                   cases standby)]
  dsimp only [found]
  rw [if_neg (by simp [fresh']), if_neg (by simp [sent, bid]), if_neg (by simp [fit', may']), State.acceptCall_assigned, ← hx]
  rfl

/-- What the answers of the unit asked do to a call (R456, R457). -/
theorem State.takeAnswer_call {s : State} {id : Nat} {x : CollCall} (h : s.callOf id = some x) (unit car reason : Nat) :
    (∀ b, x.phase = 1 → x.bids[x.next]? = some b →
      s.takeAnswer 0x054 id b.unit b.car reason = s.onCall id (fun y => { y with phase := 2 }) ∧
        s.takeAnswer 0x055 id b.unit b.car reason = s.declined x reason) ∧
    s.takeAnswer 0x056 id unit car reason = (s.endCall id).forgetCall id ∧ s.takeAnswer 0x057 id unit car reason = s.reopen x := by
  unfold State.takeAnswer
  rw [h]
  refine ⟨fun b phase bid => ⟨if_pos ?_, if_pos ?_⟩, rfl, rfl⟩
  all_goals
    rw [phase, bid]
    simp

theorem execDspAccept_settles {s : State} {id : Nat} {x : CollCall} {b : Bid} (call : s.callOf id = some x) (phase : x.phase = 1)
    (bid : x.bids[x.next]? = some b) (t : Nat) :
    Answers (fun u => (u.callOf id).map (·.phase) = some 2) (execDspAccept t id b.unit b.car s) := by
  unfold execDspAccept
  rw [((State.takeAnswer_call (s := s.tick t) call b.unit b.car 0).1 b phase bid).1]
  refine .next ?_
  rw [State.callOf_onCall (s := s.tick t) call]
  · rfl
  · exact fun _ => rfl

theorem execDspDecline_passes {s : State} {id : Nat} {x : CollCall} {b : Bid} (call : s.callOf id = some x) (phase : x.phase = 1)
    (bid : x.bids[x.next]? = some b) (t reason : Nat) :
    Answers (fun u => (x.next + 1 < x.bids.length → (u.callOf id).map (fun y => (y.phase, y.next)) = some (1, x.next + 1)) ∧
      (x.bids.length ≤ x.next + 1 → (u.callOf id).map (·.phase) = some 3)) (execDspDecline t id b.unit b.car reason s) := by
  unfold execDspDecline
  rw [((State.takeAnswer_call (s := s.tick t) call b.unit b.car reason).1 b phase bid).2]
  exact .next (State.declined_passes (s := s.tick t) call reason)

theorem execAcceptTimeout_passes {s : State} {t id : Nat} {x : CollCall} (call : s.callOf id = some x) (phase : x.phase = 1)
    (due : x.answerBy ≤ s.siteAt (max s.now t)) :
    Answers (fun u => (x.next + 1 < x.bids.length → (u.callOf id).map (fun y => (y.phase, y.next)) = some (1, x.next + 1)) ∧
      (x.bids.length ≤ x.next + 1 → (u.callOf id).map (·.phase) = some 3)) (execAcceptTimeout t id s) := by
  unfold execAcceptTimeout
  extract_lets ticked
  rw [show ticked.callOf id = some x from call]
  dsimp -zeta only
  rw [if_pos ⟨phase, due⟩]
  exact .next (State.declined_passes (s := ticked) call 2)

/-- Settles O36: each answer passes the call to its next bid, or to its reopening when it has none. -/
theorem assignments : Obligations.Assignments :=
  ⟨fun _ _ _ _ boundary call open_ over_ => execBidRoundClose_closes boundary call open_ over_,
   fun _ t _ _ _ att cost _ own leads round fresh sent bid fit may =>
      execDspAssign_accepts own leads round fresh sent bid fit may t att cost,
   fun _ t _ _ _ call phase bid => ⟨execDspAccept_settles call phase bid t, fun reason => execDspDecline_passes call phase bid t reason,
      fun due => execAcceptTimeout_passes call phase due⟩⟩

/-! ## How a call ends (R439, R441, R457, R458) -/

theorem State.openRound_callOf {s : State} {id : Nat} {x : CollCall} (h : s.callOf id = some x) (attempt : Nat) :
    ((s.openRound id attempt).callOf id).map (fun y => (y.phase, y.attempt, y.reopenings)) =
      some (0, satU attempt 8, x.reopenings) := by
  unfold State.openRound
  extract_lets t reset counted
  have here : (counted.callOf id).map (fun y => (y.phase, y.attempt, y.reopenings)) = some (0, satU attempt 8, x.reopenings) := by
    rw [show counted.callOf id = reset.callOf id from rfl, State.callOf_onCall h]
    · rfl
    · exact fun _ => rfl
  clear_value counted
  split
  · rw [State.callOf_of_dsp (State.dsp_toGroup ..)]
    exact here
  · exact here

theorem State.reopen_reopens {s : State} {id : Nat} {x : CollCall} (h : s.callOf id = some x) :
    ((s.reopen x).callOf id).map (fun y => (y.phase, y.attempt, y.reopenings)) =
      some (0, satU (x.attempt + 1) 8, x.reopenings + 1) := by
  unfold State.reopen
  extract_lets n counted told
  rw [State.callOf_id h] at *
  have here : counted.callOf id = some { x with reopenings := n } := by
    unfold counted
    rw [State.callOf_id h]
    exact State.callOf_onCall h fun _ => rfl
  have same : told.callOf id = counted.callOf id := by
    unfold told
    split
    · exact (State.callOf_of_dsp (State.raise_dsp ..) id).trans rfl
    · rfl
  exact State.openRound_callOf (same.trans here) _

/-- A call ends; another that waited could take its place. -/
theorem State.endCall_ends {s : State} (idle : s.dsp.waiting = []) (id : Nat) : (s.endCall id).callOf id = none := by
  unfold State.endCall
  extract_lets ended
  rw [show ended.dsp.waiting = [] from idle]
  refine List.find?_eq_none.mpr fun x mem => ?_
  simpa using (List.mem_filter.mp mem).2

theorem execCallReopen_reopens {s : State} {t id : Nat} {x : CollCall} (call : s.callOf id = some x) (phase : x.phase = 3)
    (due : x.reopenAt ≤ s.siteAt (max s.now t)) :
    Answers (fun u => (u.callOf id).map (fun y => (y.phase, y.attempt, y.reopenings)) =
      some (0, satU (x.attempt + 1) 8, x.reopenings + 1)) (execCallReopen t id s) := by
  unfold execCallReopen
  extract_lets ticked
  rw [show ticked.callOf id = some x from call]
  dsimp -zeta only
  rw [if_pos ⟨phase, due⟩]
  exact .next (State.reopen_reopens (s := ticked) call)

theorem execDspRelease_reopens {s : State} {id : Nat} {x : CollCall} (call : s.callOf id = some x) (t unit car reason : Nat) :
    Answers (fun u => (u.callOf id).map (fun y => (y.phase, y.attempt, y.reopenings)) =
      some (0, satU (x.attempt + 1) 8, x.reopenings + 1)) (execDspRelease t id unit car reason s) := by
  unfold execDspRelease
  rw [(State.takeAnswer_call (s := s.tick t) call unit car reason).2.2]
  exact .next (State.reopen_reopens (s := s.tick t) call)

theorem execDspDone_ends {s : State} {id : Nat} {x : CollCall} (call : s.callOf id = some x) (idle : s.dsp.waiting = [])
    (t unit car : Nat) : Answers (fun u => u.callOf id = none) (execDspDone t id unit car s) := by
  unfold execDspDone
  rw [(State.takeAnswer_call (s := s.tick t) call unit car 0).2.1]
  exact .next (State.endCall_ends (s := s.tick t) idle id)

theorem execDspCancel_ends {s : State} {id : Nat} (idle : s.dsp.waiting = []) (some_ : id ≠ 0) (t q : Nat) :
    Answers (fun u => u.callOf id = none ∧ ∀ r ∈ u.dsp.rounds, r.open_.call.callId ≠ id) (execDspCancel t id q s) := by
  unfold execDspCancel State.takeCancel
  rw [if_neg some_]
  refine .next ⟨State.endCall_ends (s := s.tick t) idle id, fun r mem => ?_⟩
  simpa using (List.mem_filter.mp mem).2

theorem execCollectorSwitch_asks {s : State} {t req : Nat} {x : Asked}
    (asked : s.dsp.asked.find? (fun x => x.call.req == req && !x.alt) = some x) (alt : s.nat DISPATCH.collector_alt ≠ 0)
    (due : x.at_ + usNs (s.nat DISPATCH.accept_to) ≤ s.siteAt (max s.now t)) :
    Answers (fun u => { x with alt := true } ∈ u.dsp.asked) (execCollectorSwitch t req s) := by
  unfold execCollectorSwitch
  extract_lets ticked other
  rw [show ticked.dsp.asked.find? (fun x => x.call.req == req && !x.alt) = some x from asked]
  dsimp -zeta only
  rw [if_neg (by rintro (none | early)
                 · exact alt none
                 · exact absurd due (Int.not_le.mpr early))]
  refine .next ?_
  rw [State.raise_dsp, State.dsp_send]
  have mem : x ∈ s.dsp.asked := List.mem_of_find?_eq_some asked
  exact List.mem_map.mpr ⟨x, mem, if_pos (by simp)⟩

/-- Settles O37: reopened and released calls take the next attempt; a call that is done or cancelled is held no more. -/
theorem callsEnd : Obligations.CallsEnd :=
  ⟨fun _ t _ _ call => ⟨fun phase due => execCallReopen_reopens call phase due,
      fun unit car reason => execDspRelease_reopens call t unit car reason,
      fun idle unit car => execDspDone_ends call idle t unit car,
      fun idle some_ q => execDspCancel_ends idle some_ t q⟩,
   fun _ _ _ _ asked alt due => execCollectorSwitch_asks asked alt due⟩

end Sys2Proof.Machine

namespace Sys2Proof.Machine

/-! # The fabric (chapter 12) -/

/-! ## What the traffic leaves of a port

The queue, the credits and the counts of frames lost change with every frame; the link, what its neighbours are, and the
counters of frames received do not. -/

/-- Who a neighbour is and how far it is heard. -/
def Peer.status (q : Peer) : Nat × Nat × Bool × Bool × Bool := (q.unit, q.boot, q.heard, q.said, q.oper)

/-- The link of a port, its counters of frames and the frame on the wire. -/
def Port.line (x : Port) : Bool × Option Nat × Nat × Nat × Nat × Nat × Option Frame :=
  (x.up, x.lastHello, x.rx, x.rejected, x.dups, x.tx, x.wire)

def Port.face (x : Port) : (Bool × Option Nat × Nat × Nat × Nat × Nat × Option Frame) × List (Nat × Nat × Bool × Bool × Bool) :=
  (x.line, x.peers.map Peer.status)

def State.ports (s : State) : List Port := s.fab.ports

section
variable {β : Type} {g : Port → β} {s t : State}

theorem Fixes.port_at (h : Fixes (viewed State.ports g) s t) (p : Nat) : g (t.portOf p) = g (s.portOf p) := h.view_at p

theorem Fixes.port_raise {c : Nat} {pl : List Octet} {v : Nat} (h : Fixes (viewed State.ports g) s t) :
    Fixes (viewed State.ports g) s (t.raise c pl v) := h.view_still (congrArg Fab.ports (State.raise_fab t c pl v))

theorem Fixes.port_sources (h : Fixes (viewed State.ports g) s t) (f : Fab → Fab) (hf : ∀ x, (f x).ports = x.ports) :
    Fixes (viewed State.ports g) s { t with fab := f t.fab } := h.view_still (hf t.fab)

end

theorem State.portOf_onPort {s : State} {p : Nat} (h : p < s.fab.ports.length) (f : Port → Port) :
    (s.onPort p f).portOf p = f (s.portOf p) := nth_modify_same h f

/-- A change of neighbours that leaves their status. -/
theorem State.onPeer_face {f : Peer → Peer} (p unit : Nat) (s : State) (hf : ∀ q, (f q).status = q.status) :
    Fixes (viewed State.ports Port.face) s (s.onPeer p unit f) := by
  unfold State.onPeer
  refine .view_modify rfl fun x => Prod.ext rfl ?_
  show (x.peers.map _).map Peer.status = x.peers.map Peer.status
  rw [List.map_map]
  refine List.map_congr_left fun q _ => ?_
  show Peer.status (if _ then f q else q) = q.status
  split
  · exact hf q
  · rfl

/-- A change of neighbours leaves the link. -/
theorem State.onPeer_line (p unit : Nat) (f : Peer → Peer) (s : State) :
    Fixes (viewed State.ports Port.line) s (s.onPeer p unit f) := .view_modify rfl fun _ => rfl

theorem State.giveBack_face (p unit c : Nat) (s : State) : Fixes (viewed State.ports Port.face) s (s.giveBack p unit c) := by
  unfold State.giveBack
  extract_lets short pressed _ _ counted
  have h1 : Fixes (viewed State.ports Port.face) s pressed := .ite (.view_of rfl) (.refl s)
  have h2 : Fixes (viewed State.ports Port.face) s counted := .ite (.view_of rfl) (.refl s)
  exact .ite (h1.view_still rfl) (h2.trans (State.onPeer_face p unit counted fun _ => rfl))

theorem State.freeBuf_face (i : TxItem) (s : State) : Fixes (viewed State.ports Port.face) s (s.freeBuf i) := by
  unfold State.freeBuf
  split
  · exact .refl s
  · exact .ite (.refl s) (State.giveBack_face ..)

theorem State.dropQueue_face (p : Nat) (gone : TxItem → Bool) (s : State) :
    Fixes (viewed State.ports Port.face) s (s.dropQueue p gone) := by
  unfold State.dropQueue
  extract_lets l dropped
  have h : Fixes (viewed State.ports Port.face) s dropped := .view_modify rfl fun _ => rfl
  exact h.trans (.foldl (fun x i => State.freeBuf_face i x) l dropped)

theorem State.portSettle_face (p : Nat) (s : State) : Fixes (viewed State.ports Port.face) s (s.portSettle p) := by
  unfold State.portSettle
  extract_lets x n q was moved _ rerouted dropped
  have h1 : Fixes (viewed State.ports Port.face) s moved := .view_modify rfl fun _ => rfl
  have h2 : Fixes (viewed State.ports Port.face) s rerouted := h1.view_still rfl
  have h3 : Fixes (viewed State.ports Port.face) s dropped := .ite (h2.trans (State.dropQueue_face ..)) h2
  exact .ite (.refl s) h3.port_raise

theorem State.enqueue_face (p dest : Nat) (buf : Option (Nat × Nat × Nat)) (f : Frame) (s : State) :
    Fixes (viewed State.ports Port.face) s (s.enqueue p dest buf f) := .view_modify rfl fun _ => rfl

theorem State.sendHop_face (p dest : Nat) (m : Msg) (s : State) : Fixes (viewed State.ports Port.face) s (s.sendHop p dest m) := by
  unfold State.sendHop
  extract_lets q f
  exact (Fixes.view_of (by rfl)).trans (State.enqueue_face ..)

theorem State.reconcile_face (p unit c a : Nat) (s : State) : Fixes (viewed State.ports Port.face) s (s.reconcile p unit c a) := by
  unfold State.reconcile
  split
  · exact .refl s
  · next q _ =>
    extract_lets lost
    have h := State.onPeer_face (f := fun q => { q with lostN := addAt q.lostN c lost, k := addAt q.k c lost }) p unit s fun _ => rfl
    have counted := h.view_then (i := p) (f := fun x : Port => { x with lost := satU (x.lost + lost) 32 }) (u := State.onPort p _ _)
      rfl fun _ => rfl
    exact .ite (.refl s) counted.port_raise

/-- A neighbour that becomes operational leaves the link of its port. -/
theorem State.makeOper_line (p unit : Nat) (s : State) : Fixes (viewed State.ports Port.line) s (s.makeOper p unit) := by
  unfold State.makeOper
  split
  · exact .refl s
  · next q _ =>
    extract_lets q'
    have told : Fixes (viewed State.ports Port.line) s ((s.onPeer p unit fun _ => q').addOut (s.outstanding q')) :=
      (State.onPeer_line p unit (fun _ => q') s).view_still rfl
    exact .ite (.refl s) (told.trans ((State.portSettle_face ..).view_coarser Prod.fst))

theorem State.losePeers_line (p : Nat) (which : Peer → Bool) (s : State) : Fixes (viewed State.ports Port.line) s (s.losePeers p which) := by
  unfold State.losePeers
  extract_lets gone counted fresh lost dropped
  have h1 : Fixes (viewed State.ports Port.line) s counted := .foldl (f := fun s q => s.subOut (s.outstanding q)) (fun x q => .view_of rfl) gone s
  have h2 : Fixes (viewed State.ports Port.line) s lost := h1.trans (.view_modify rfl fun _ => rfl)
  have h3 : Fixes (viewed State.ports Port.line) s dropped := h2.trans ((State.dropQueue_face ..).view_coarser Prod.fst)
  exact h3.trans ((State.portSettle_face ..).view_coarser Prod.fst)

/-! ## Neighbours (R465, R466) -/

theorem State.portOn_below {s : State} {p : Nat} (on : s.portOn p = true) : p < s.fab.ports.length := by
  by_cases h : p < s.fab.ports.length
  · exact h
  · unfold State.portOn at on
    have none : (s.portOf p).up = false := by
      unfold State.portOf
      rw [nth_of_length_le (by simpa using h)]
      rfl
    rw [none] at on
    simp at on

/-- What shows of a neighbour is what shows of its port. -/
theorem State.peerOf_status {s t : State} (h : Fixes (viewed State.ports Port.face) s t) (cfg : t.cfg = s.cfg) (p unit : Nat) :
    (t.peerOf p unit).map Peer.status = (s.peerOf p unit).map Peer.status := by
  have peers : (t.portOf p).peers.map Peer.status = (s.portOf p).peers.map Peer.status := congrArg Prod.snd (h.port_at p)
  have chain : t.chain p = s.chain p := by
    unfold State.chain State.nat State.int
    rw [cfg]
  have found (l : List Peer) : (l.find? (·.unit == unit)).map Peer.status = (l.map Peer.status).find? (·.1 == unit) := by
    rw [List.find?_map]
    rfl
  unfold State.peerOf
  rw [chain]
  split
  · rw [← List.head?_map, ← List.head?_map, peers]
  · rw [found, found, peers]

theorem State.peerOf_below {s : State} {p unit : Nat} {q : Peer} (peer : s.peerOf p unit = some q) : p < s.fab.ports.length := by
  by_cases below : p < s.fab.ports.length
  · exact below
  · unfold State.peerOf State.portOf at peer
    rw [nth_of_length_le (by simpa using below)] at peer
    cases hc : s.chain p <;> rw [hc] at peer <;> cases peer

/-- A change of the neighbour asked for. -/
theorem State.peerOf_onPeer {s : State} {p unit : Nat} {q : Peer} {f : Peer → Peer} (h : s.peerOf p unit = some q)
    (hf : ∀ x, x.unit = unit → (f x).unit = unit) : (s.onPeer p unit f).peerOf p unit = some (f q) := by
  have below := State.peerOf_below h
  have peers : ((s.onPeer p unit f).portOf p).peers =
      (s.portOf p).peers.map fun q => if s.chain p || q.unit == unit then f q else q := by
    unfold State.onPeer
    rw [State.portOf_onPort below]
  unfold State.peerOf at h ⊢
  rw [show (s.onPeer p unit f).chain p = s.chain p from rfl, peers]
  cases hc : s.chain p
  · rw [hc] at h
    have found : (s.portOf p).peers.find? (·.unit == unit) = some q := h
    show ((s.portOf p).peers.map fun q => if q.unit == unit then f q else q).find? (·.unit == unit) = some (f q)
    generalize (s.portOf p).peers = l at found ⊢
    induction l with
    | nil => cases found
    | cons y l ih =>
      by_cases e : y.unit = unit
      · simp only [List.find?_cons, e, beq_self_eq_true, Option.some.injEq] at found
        subst found
        simp [e, hf]
      · simp only [List.find?_cons, beq_eq_false_iff_ne.mpr e] at found
        simpa [e] using ih found
  · rw [hc] at h
    have found : (s.portOf p).peers.head? = some q := h
    show ((s.portOf p).peers.map fun q => f q).head? = some (f q)
    rw [List.head?_map, found]
    rfl

theorem State.hello_line (p : Nat) (s : State) : Fixes (viewed State.ports Port.up) s (s.hello p) := by
  unfold State.hello
  extract_lets told
  have h : Fixes (viewed State.ports Port.up) s told :=
    .foldl (fun x q => (State.sendHop_face ..).view_coarser fun y => y.1.1) _ s
  exact .ite (.refl s) (h.trans (.view_modify rfl fun _ => rfl))

theorem execPortLinkChange_follows {s : State} {p : Nat} {up : Bool} (two : p < 2) (h : p < s.fab.ports.length)
    (moved : (s.portOf p).up ≠ up) (t : Nat) : Answers (fun u => (u.portOf p).up = up) (execPortLinkChange t p up s) := by
  unfold execPortLinkChange
  extract_lets ticked lost linked
  rw [if_neg (by rintro (high | same)
                 · omega
                 · exact moved same)]
  have hLost : Fixes (viewed State.ports Port.up) ticked lost := (State.losePeers_line ..).view_coarser Prod.fst
  have below : p < lost.fab.ports.length := lt_of_lt_of_eq (show p < ticked.fab.ports.length from h) hLost.view_length.symm
  have here : (linked.portOf p).up = up := by
    unfold linked
    rw [State.portOf_onPort below]
  have settled : Fixes (viewed State.ports Port.up) linked ((linked.portSettle p).hello p) :=
    ((State.portSettle_face p linked).view_coarser fun y => y.1.1).trans (State.hello_line ..)
  exact .next ((settled.port_at p).trans here)

theorem State.sendHop_now (p dest : Nat) (m : Msg) (s : State) : Fixes State.now s (s.sendHop p dest m) := ⟨rfl⟩

theorem execHelloSend_says {s : State} {p : Nat} (on : s.portOn p = true) (first : (s.portOf p).lastHello = none) (t : Nat) :
    Answers (fun u => (u.portOf p).lastHello = some (max s.now t)) (execHelloSend t p s) := by
  unfold execHelloSend
  extract_lets ticked due said
  have now : due = true := by
    unfold due
    rw [show (ticked.portOf p).lastHello = none from first]
  rw [if_pos ⟨show ticked.portOn p = true from on, now⟩]
  have here : (said.portOf p).lastHello = some (max s.now t) := by
    unfold said State.hello
    rw [if_neg (by rw [show ticked.portOn p = true from on]; simp)]
    extract_lets told
    have kept : Fixes (viewed State.ports fun _ => ()) ticked told :=
      .foldl (fun x q => (State.sendHop_face ..).view_coarser fun _ => ()) _ ticked
    have same : Fixes State.now ticked told := .foldl (fun _ _ => State.sendHop_now ..) _ ticked
    have below : p < told.fab.ports.length :=
      lt_of_lt_of_eq (show p < ticked.fab.ports.length from State.portOn_below on) kept.view_length.symm
    rw [State.portOf_onPort below, same.eq]
    rfl
  have kept : Fixes (viewed State.ports fun x => x.lastHello) said
      ((said.portOf p).peers.foldl (fun s q => s.makeOper p (s.peerKey p q)) said) :=
    .foldl (fun x q => (State.makeOper_line ..).view_coarser fun y => y.2.1) _ said
  exact .next ((kept.port_at p).trans here)

/-- A first LINK_HELLO; what it says of frames lost leaves who the neighbour is. -/
theorem execLinkHello_heard {s : State} {p unit boot : Nat} {q : Peer} (on : s.portOn p = true) (other : unit ≠ s.unitId)
    (peer : s.peerOf p unit = some q) (silent : q.heard = false) (idle : q.oper = false) (t kc ko : Nat) (a : List Nat) :
    Answers (fun u => (u.peerOf p unit).map (fun x => (x.unit, x.boot, x.heard, x.oper)) = some (unit, boot, true, q.said))
      (execLinkHello t p unit boot kc ko a s) := by
  unfold execLinkHello
  extract_lets both ticked
  rw [if_pos (show ticked.portOn p = true from on)]
  refine .next ?_
  unfold State.takeHello
  rw [if_neg (show ¬ unit = ticked.unitId from other), show ticked.peerOf p unit = some q from peer]
  dsimp -zeta only
  rw [if_neg (by rw [silent]; simp)]
  extract_lets before noted reconciled
  have hNoted : (noted.peerOf p unit).map Peer.status = some (unit, boot, true, q.said, false) := by
    unfold noted
    rw [State.peerOf_onPeer (s := ticked) peer fun _ _ => rfl, ← idle]
    rfl
  have kept : Fixes (viewed State.ports Port.face) noted reconciled := .eachIx (fun c x => State.reconcile_face p unit c _ x) 4 noted
  have cfg : Keeps [.fab, .led] noted reconciled :=
    Keeps.eachIx (fun c x k => (State.reconcile_keeps p unit c _ x).after k rfl) (Keeps.refl _ noted)
  have hReconciled := (State.peerOf_status kept (cfg.get .cfg rfl) p unit).trans hNoted
  clear_value reconciled
  obtain ⟨x, found, status⟩ := Option.map_eq_some_iff.mp hReconciled
  unfold Peer.status at status
  simp only [Prod.mk.injEq] at status
  obtain ⟨hUnit, hBoot, hHeard, hSaid, hOper⟩ := status
  unfold State.makeOper
  rw [found]
  dsimp -zeta only
  extract_lets q'
  cases said : q.said
  · rw [if_pos (by rw [hSaid, said]; simp), found]
    simp [hUnit, hBoot, hHeard, hOper]
  · rw [if_neg (by rw [hOper, hHeard, hSaid, said]; simp)]
    have now : (reconciled.onPeer p unit fun _ => q').peerOf p unit = some q' := State.peerOf_onPeer found fun _ _ => hUnit
    have settled := State.portSettle_face p ((reconciled.onPeer p unit fun _ => q').addOut (reconciled.outstanding q'))
    have cfg' : (((reconciled.onPeer p unit fun _ => q').addOut (reconciled.outstanding q')).portSettle p).cfg = reconciled.cfg :=
      (State.portSettle_keeps ..).get .cfg rfl
    have last := State.peerOf_status settled cfg' p unit
    rw [show ((reconciled.onPeer p unit fun _ => q').addOut (reconciled.outstanding q')).peerOf p unit = some q' from now] at last
    obtain ⟨y, here, status⟩ := Option.map_eq_some_iff.mp last
    unfold Peer.status at status
    simp only [Prod.mk.injEq] at status
    rw [here]
    simp [status, q', hUnit, hBoot]

theorem execNeighbourTimeout_loses {s : State} {t p unit : Nat} {q : Peer} (peer : s.peerOf p unit = some q) (heard : q.heard = true)
    (late : q.helloAt + 3 * msCycles (s.nat FABRIC.hello_period) ≤ max s.now t) :
    Answers (fun u => (u.peerOf p unit).map (fun x => (x.heard, x.oper)) = some (false, false)) (execNeighbourTimeout t p unit s) := by
  unfold execNeighbourTimeout
  extract_lets ticked
  rw [show ticked.peerOf p unit = some q from peer]
  dsimp -zeta only
  rw [if_pos ⟨heard, late⟩]
  refine .next ?_
  unfold State.losePeers
  extract_lets gone counted fresh lost dropped
  have hCounted : Keeps [.disp] ticked counted := Keeps.foldl (fun _ _ k => (State.subOut_keeps ..).after k rfl) (Keeps.refl _ ticked) _
  have cfg : counted.cfg = ticked.cfg := hCounted.get .cfg rfl
  have fab : counted.fab = ticked.fab := hCounted.get .fab rfl
  have chain : counted.chain p = ticked.chain p := by
    unfold State.chain State.nat State.int
    rw [cfg]
  have same : lost = counted.onPeer p unit fun q => { unit := q.unit } := by
    unfold State.onPeer
    rw [chain]
  have hLost : lost.peerOf p unit = some { unit := q.unit } := by
    rw [same]
    refine State.peerOf_onPeer ?_ fun _ e => e
    unfold State.peerOf State.portOf
    rw [chain, fab]
    exact peer
  have settled : Fixes (viewed State.ports Port.face) lost (dropped.portSettle p) :=
    (State.dropQueue_face ..).trans (State.portSettle_face ..)
  have kept : Keeps [.disp, .fab, .led] lost dropped := Keeps.after (State.dropQueue_keeps ..) (Keeps.refl _ lost) rfl
  have cfg' : (dropped.portSettle p).cfg = lost.cfg := ((State.portSettle_keeps p dropped).after kept rfl).get .cfg rfl
  have last := State.peerOf_status settled cfg' p unit
  rw [hLost] at last
  obtain ⟨y, here, status⟩ := Option.map_eq_some_iff.mp last
  unfold Peer.status at status
  simp only [Prod.mk.injEq] at status
  rw [here]
  simp [status]

/-- Settles O38: a port that follows its PHY, and a neighbour's status through LINK_HELLO and its silence. -/
theorem neighbours : Obligations.Neighbours :=
  ⟨fun _ t _ _ two h moved => execPortLinkChange_follows two h moved t,
   fun _ t _ _ _ kc ko a _ on other peer silent idle => execLinkHello_heard on other peer silent idle t kc ko a,
   fun _ t _ on first => execHelloSend_says on first t,
   fun _ _ _ _ _ peer heard late => execNeighbourTimeout_loses peer heard late⟩

/-! ## Credits and frames (R475 to R477, R482, R483) -/

theorem execCredit_returns {s : State} {p unit : Nat} {q : Peer} (peer : s.peerOf p unit = some q) (oper : q.oper = true)
    (t : Nat) (n : List Nat) : Answers (fun u => ∃ x, u.peerOf p unit = some x ∧
      ∀ c, c < 4 → x.k.getD c 0 = q.k.getD c 0 + (n.getD c 0 + 16 - q.got.getD c 0) % 16) (execCredit t p unit n s) := by
  unfold execCredit State.takeCredit
  refine .next ⟨_, State.peerOf_onPeer (s := s.tick t) peer fun x e => ?_, fun c low => ?_⟩
  · split <;> exact e
  · rw [oper]
    simp [List.getD_eq_getElem?_getD, low]

theorem State.sendHop_queue {s : State} {p : Nat} (h : p < s.fab.ports.length) (dest : Nat) (m : Msg) :
    ((s.sendHop p dest m).portOf p).queue.length = (s.portOf p).queue.length + 1 := by
  unfold State.sendHop
  extract_lets q f
  unfold State.enqueue
  rw [State.portOf_onPort]
  · exact List.length_append
  · exact h

theorem execCreditSend_queues {s : State} {t p unit v : Nat} {q : Peer} (peer : s.peerOf p unit = some q) (oper : q.oper = true)
    (changed : q.changedAt = some v) (due : v + 20000 ≤ max s.now t) :
    Answers (fun u => (u.portOf p).queue.length = (s.portOf p).queue.length + 1) (execCreditSend t p unit s) := by
  unfold execCreditSend
  extract_lets ticked
  rw [show ticked.peerOf p unit = some q from peer]
  dsimp -zeta only
  rw [changed]
  dsimp -zeta only
  rw [if_pos ⟨oper, due⟩]
  refine .next ?_
  have below : p < ticked.fab.ports.length := State.peerOf_below (s := ticked) peer
  have cleared : (((ticked.onPeer p unit fun q => { q with changedAt := none }).portOf p).queue) = (s.portOf p).queue := by
    unfold State.onPeer
    rw [State.portOf_onPort below]
    rfl
  rw [State.sendHop_queue (lt_of_lt_of_eq below (State.onPeer_line ..).view_length.symm), cleared]

/-- The frame that leaves a port is counted and is on its wire. -/
theorem execFrameTransmit_sends {s : State} {t p i : Nat} (on : s.portOn p = true) (idle : (s.portOf p).busyUntil ≤ max s.now t)
    (item : s.nextItem p = some i) :
    Answers (fun u => (u.portOf p).tx = inc32 (s.portOf p).tx ∧ (u.portOf p).wire.isSome = true) (execFrameTransmit t p s) := by
  unfold execFrameTransmit
  extract_lets ticked
  rw [if_neg (by rw [show ticked.portOn p = true from on, show decide (ticked.now < (ticked.portOf p).busyUntil) = false from decide_eq_false (Nat.not_lt.mpr idle)]; simp),
    show ticked.nextItem p = some i from item]
  dsimp -zeta only
  extract_lets x q f c local_ ended sent credited
  have below : p < ticked.fab.ports.length := State.portOn_below (s := ticked) on
  have hSent : (sent.portOf p).line.2.2.2.2.2 = (inc32 (s.portOf p).tx, some f) := by
    unfold sent
    rw [State.portOf_onPort below]
    rfl
  have kept : Fixes (viewed State.ports Port.line) sent (credited.freeBuf x) :=
    (State.onPeer_line ..).trans ((State.freeBuf_face ..).view_coarser Prod.fst)
  obtain ⟨tx, wire⟩ := Prod.mk.inj ((congrArg (fun l => l.2.2.2.2.2) (kept.port_at p)).trans hSent)
  exact .next ⟨tx, by rw [wire]; rfl⟩

/-- The sequence numbers, and when the status is due. -/
def State.numbering (s : State) : List Nat × Nat := (s.fab.seq, s.fab.statusNext)

theorem State.enqueue_numbering (p dest : Nat) (buf : Option (Nat × Nat × Nat)) (f : Frame) (s : State) :
    Fixes State.numbering s (s.enqueue p dest buf f) := ⟨rfl⟩

theorem State.launch_numbering (f : Frame) (s : State) : Fixes State.numbering s (s.launch f) := by
  unfold State.launch
  extract_lets queued own
  have kept : Fixes State.numbering s queued := .foldl (fun _ _ => State.enqueue_numbering ..) _ s
  exact .ite (kept.then_ rfl) kept

/-- A message of class `c` takes the next sequence number of its class. -/
theorem State.sendAt_numbering {s : State} {m : Msg} {c : Nat} (cls : typeClass (msgType m) = some c) (lone : s.fab.conflict = false)
    (bare : s.wake.bare = false) (d : Dest) (epoch : Nat) :
    (s.sendAt d m epoch).numbering = (setAt s.fab.seq c ((s.fab.seq.getD c 0 + 1) % 2 ^ 32), s.fab.statusNext) := by
  unfold State.sendAt
  rw [cls]
  dsimp only
  rw [if_neg (by simp [lone, bare]), (State.launch_numbering ..).eq]
  rfl

theorem execUnitStatus_sends {s : State} {d : Dest} (dst : dstField (s.nat FABRIC.status_dst) = some d)
    (due : s.fab.statusNext ≤ s.stage.boundaries) (powered : s.purse.t1 = true) (single : s.inPair = false)
    (lone : s.fab.conflict = false) (bare : s.wake.bare = false) (t : Nat) :
    Answers (fun u => u.fab.statusNext = s.stage.boundaries + s.nat FABRIC.status_period ∧
      u.fab.seq = setAt s.fab.seq 1 ((s.fab.seq.getD 1 0 + 1) % 2 ^ 32)) (execUnitStatus t s) := by
  unfold execUnitStatus
  extract_lets ticked m e _ noted
  rw [show dstField (ticked.nat FABRIC.status_dst) = some d from dst]
  dsimp -zeta only
  rw [if_neg (by rintro (early | dark)
                 · exact absurd due (Nat.not_le.mpr early)
                 · rw [show ticked.purse.t1 = true from powered] at dark
                   cases dark)]
  extract_lets sent
  have alone : sent.inPair = false := by
    have kept : Keeps [.fab] noted sent := State.sendAt_keeps ..
    have cfg : sent.cfg = s.cfg := kept.get .cfg rfl
    rw [← single]
    unfold State.inPair State.nat State.int
    rw [cfg]
  rw [if_neg (by rw [alone]; simp)]
  obtain ⟨seq, next⟩ := Prod.mk.inj (State.sendAt_numbering (s := noted) (m := m) rfl lone bare d e)
  exact .next ⟨next, seq⟩

/-! ## Frames received (R475 to R477) -/

theorem State.takeCredit_line (p unit : Nat) (n : List Nat) (s : State) : Fixes (viewed State.ports Port.line) s (s.takeCredit p unit n) :=
  State.onPeer_line ..

theorem State.useCredit_line (p unit c : Nat) (s : State) : Fixes (viewed State.ports Port.line) s (s.useCredit p unit c) := by
  unfold State.useCredit
  extract_lets used
  have h : Fixes (viewed State.ports Port.line) s used := State.onPeer_line ..
  exact .ite (h.view_still rfl) h

theorem State.giveBack_line (p unit c : Nat) (s : State) : Fixes (viewed State.ports Port.line) s (s.giveBack p unit c) :=
  (State.giveBack_face ..).view_coarser Prod.fst

theorem State.noteSource_line (p unit : Nat) (f : Frame) (s : State) : Fixes (viewed State.ports Port.line) s (s.noteSource p unit f) := by
  unfold State.noteSource
  exact .view_of rfl

theorem execCysinFrame_counts {s : State} {p from_ : Nat} {f : Frame} {q : Peer} (on : s.portOn p = true)
    (peer : s.peerOf p from_ = some q) (t : Nat) :
    (s.verdict q f = .reject 1 →
      Answers (fun u => (u.portOf p).rejected = inc32 (s.portOf p).rejected) (execCysinFrame t p from_ f s)) ∧
    (s.verdict q f = .dup → Answers (fun u => (u.portOf p).dups = inc32 (s.portOf p).dups) (execCysinFrame t p from_ f s)) ∧
    (s.verdict q f = .accept → f.msg = .credit →
      Answers (fun u => (u.portOf p).rx = inc32 (s.portOf p).rx) (execCysinFrame t p from_ f s)) := by
  have below : p < s.fab.ports.length := State.portOn_below on
  have two : p < 2 := by
    unfold State.portOn at on
    simp only [Bool.and_eq_true, decide_eq_true_eq] at on
    omega
  unfold execCysinFrame
  extract_lets ticked q' v credited count counted used free counts
  rw [if_neg (by rintro (high | off)
                 · omega
                 · rw [show ticked.portOn p = true from on] at off
                   cases off)]
  have hq : q' = q := by
    unfold q'
    rw [show ticked.peerOf p from_ = some q from peer]
    rfl
  have hv : v = s.verdict q f := by
    unfold v
    rw [hq]
    rfl
  have hUsed : Fixes (viewed State.ports Port.line) ticked used :=
    .ite ((State.onPeer_line ..).trans (State.useCredit_line ..)) (State.onPeer_line ..)
  have hFree (x : State) : Fixes (viewed State.ports Port.line) x (free x) := .ite (State.giveBack_line ..) (.refl x)
  have hCounts (x : State) : Fixes (viewed State.ports Port.line) x (counts x) := State.takeCredit_line ..
  have here {x : State} (k : Fixes (viewed State.ports Port.line) ticked x) :
      p < x.fab.ports.length ∧ (x.portOf p).line = (s.portOf p).line :=
    ⟨lt_of_lt_of_eq (show p < ticked.fab.ports.length from below) k.view_length.symm, k.port_at p⟩
  rw [hv]
  refine ⟨fun bad => ?_, fun dup => ?_, fun ok msg => ?_⟩
  · rw [bad]
    obtain ⟨h, line⟩ := here (hUsed.trans (hFree used))
    have rejected : ((free used).portOf p).rejected = (s.portOf p).rejected := congrArg (fun l => l.2.2.2.1) line
    refine .next ?_
    show (((State.onPort p _ (free used)).raise 0xD1 _).portOf p).rejected = _
    unfold State.portOf
    rw [State.raise_fab]
    show ((State.onPort p _ (free used)).portOf p).rejected = inc32 (s.portOf p).rejected
    rw [State.portOf_onPort h, ← rejected]
  · rw [dup]
    obtain ⟨h, line⟩ := here ((hUsed.trans (hCounts used)).trans (hFree _))
    have dups : ((free (counts used)).portOf p).dups = (s.portOf p).dups := congrArg (fun l => l.2.2.2.2.1) line
    refine .next ?_
    rw [State.portOf_onPort h, ← dups]
  · rw [ok]
    obtain ⟨h, line⟩ := here ((hUsed.trans (hCounts used)).trans (State.noteSource_line p from_ f _))
    have rx : (((counts used).noteSource p from_ f).portOf p).rx = (s.portOf p).rx := congrArg (fun l => l.2.2.1) line
    refine .next ?_
    unfold State.acceptFrame
    extract_lets received
    rw [msg]
    have told : (received.messageEvents f).fab = received.fab := (State.messageEvents_keeps f received).get .fab rfl
    show ((received.messageEvents f).portOf p).rx = _
    unfold State.portOf
    rw [told]
    show (received.portOf p).rx = inc32 (s.portOf p).rx
    unfold received
    rw [State.portOf_onPort h, ← rx]

/-- Settles O39: credits and counts are those of the port and the neighbour named, which what is sent and given back on the way
leaves. -/
theorem framesAndCredits : Obligations.FramesAndCredits :=
  ⟨⟨fun _ t _ _ n _ peer oper => execCredit_returns peer oper t n,
    fun _ _ _ _ _ _ peer oper changed due => execCreditSend_queues peer oper changed due,
    fun _ _ _ _ on idle item => execFrameTransmit_sends on idle item,
    fun _ t _ dst due powered single lone bare => execUnitStatus_sends dst due powered single lone bare t⟩,
   fun _ t _ _ _ _ on peer =>
    have counted := execCysinFrame_counts on peer t
    ⟨counted.1, counted.2.1, fun ok _ msg _ => counted.2.2 ok msg⟩⟩

end Sys2Proof.Machine

namespace Sys2Proof.Machine

/-! # Site time, safety connections and external drives (chapter 12) -/

/-! ## Site time (R487 to R491) -/

/-- What SYNCED leaves of site time: all but itself and the count of its losses. -/
def State.timing (s : State) : TimeSt × Nat := ({ s.time with synced := false, losses := 0 }, s.now)

theorem Fixes.timing_raise {s t : State} {c : Nat} {pl : List Octet} {v : Nat} (h : Fixes State.timing s t) :
    Fixes State.timing s (t.raise c pl v) := by
  refine h.then_ ?_
  unfold State.timing
  rw [State.raise_time, State.raise_now]

theorem State.lostSync_timing (s : State) : Fixes State.timing s s.lostSync := by
  unfold State.lostSync State.unaligned
  have told : Fixes State.timing s { s with stage := { s.stage with aligned := false } } := ⟨rfl⟩
  exact .ite told.timing_raise (.refl s)

theorem State.syncSettle_timing (cause : Nat) (s : State) : Fixes State.timing s (s.syncSettle cause) := by
  unfold State.syncSettle
  extract_lets k ev
  have gained : Fixes State.timing s (s.onTime fun x => { x with synced := true }) := ⟨rfl⟩
  have lost : Fixes State.timing s (s.onTime fun x => { x with synced := false, losses := inc32 x.losses }) := ⟨rfl⟩
  exact .ite gained.timing_raise (.ite (lost.timing_raise.trans (State.lostSync_timing _)) (.refl s))

/-- What the timing shows of site time. -/
theorem Fixes.timing_at {s t : State} (h : Fixes State.timing s t) :
    (t.time.gm = s.time.gm ∧ t.time.goodRun = s.time.goodRun ∧ t.time.offset = s.time.offset ∧ t.time.lastSync = s.time.lastSync ∧
      t.time.everSet = s.time.everSet ∧ t.time.sealOk = s.time.sealOk) ∧ t.site = s.site := by
  obtain ⟨time, now⟩ := Prod.mk.inj h.eq
  simp only [TimeSt.mk.injEq] at time
  unfold State.site State.siteAt
  simp [time, now]

theorem State.changeGm_gm (gm : Option (Announce × Nat)) (cause : Nat) (s : State) :
    (s.changeGm gm cause).time.gm = gm ∧ (s.changeGm gm cause).time.goodRun = 0 ∧ (s.changeGm gm cause).time.lastSync = none := by
  unfold State.changeGm
  extract_lets settled
  obtain ⟨⟨gm', good, _, last, _, _⟩, _⟩ := (State.syncSettle_timing 0
    (settled.onTime fun x => { x with gm := gm, goodRun := 0, lastSync := none, sealOk := false, origins := [] })).timing_at
  exact ⟨gm', good, last⟩

theorem State.setSite_site (v : Int) (s : State) : (s.setSite v).site = v := by
  show v + ((s.now : Int) - s.now) * 5 * (1000000000 + s.time.ratePpb) / 2000000000 = v
  simp

theorem execAnnounce_changes {s : State} {p : Nat} {a : Announce} (on : s.portOn p = true) (other : a.gm ≠ s.clockId)
    (may : a.prio1 ≠ 255) (none : s.time.gm = none) (better : clockBetter a s.ownClock = true) (t : Nat) :
    Answers (fun u => u.time.gm = some (a, p) ∧ u.time.goodRun = 0) (execAnnounce t p a s) := by
  unfold execAnnounce
  extract_lets ticked own
  have h1 : ticked.portOn p = true := on
  have h2 : a.gm ≠ ticked.clockId := other
  rw [if_neg (by simp [h1, h2, may]), show ticked.time.gm = Option.none from none]
  dsimp -zeta only
  rw [if_pos (.inr better)]
  obtain ⟨gm, good, _⟩ := State.changeGm_gm (some (a, p)) 4 ticked
  exact .next ⟨gm, good⟩

theorem execSync_sets {s : State} {t p o : Nat} {stamp : SyncStamps} {corr off : Int} {g : Announce} (on : s.portOn p = true)
    (gm : s.time.gm = some (g, p)) (first : s.time.everSet = false) (offset : (s.tick t).syncOffset p o corr stamp = off) (q : Nat) :
    Answers (fun u => u.site = s.siteAt (max s.now t) - off ∧ u.time.everSet = true ∧ u.time.offset = sat off 32 ∧
      u.time.lastSync = some (max s.now t)) (execSync t p q o corr stamp s) := by
  unfold execSync
  extract_lets ticked offset' pdelay measured good noted old stepped set
  rw [show ticked.time.gm = some (g, p) from gm]
  dsimp -zeta only
  rw [if_neg (by rw [show ticked.portOn p = true from on]; simp)]
  have fresh : noted.time.everSet = false := first
  have hSet : set = (noted.setSite (old - offset')).onTime fun x => { x with everSet := true } := if_pos (by rw [fresh]; rfl)
  obtain ⟨⟨_, _, off', last, ever, _⟩, site⟩ := (State.syncSettle_timing 0 set).timing_at
  rw [hSet] at off' last ever site
  refine .next ⟨?_, ?_, ?_, ?_⟩
  · rw [hSet, site, ← offset]
    exact State.setSite_site _ _
  · rw [hSet, ever]
    rfl
  · rw [hSet, off', ← offset]
    rfl
  · rw [hSet, last]
    rfl

theorem execSyncSend_remembers {s : State} (gm : s.isGm = true) (t : Nat) :
    Answers (fun u => u.time.sent.isSome = true) (execSyncSend t s) := by
  unfold execSyncSend
  extract_lets ticked site q
  rw [if_pos (show ticked.isGm = true from gm)]
  exact .next rfl

theorem execSyncTimeout_loses {s : State} {t v : Nat} {g : Announce × Nat} (gm : s.time.gm = some g) (last : s.time.lastSync = some v)
    (late : v + s.nat FABRIC.sync_timeout * s.syncInterval ≤ max s.now t) :
    Answers (fun u => u.time.gm = none ∧ u.time.lastSync = none) (execSyncTimeout t s) := by
  unfold execSyncTimeout
  extract_lets ticked
  have hLate : ticked.syncLate = true := by
    unfold State.syncLate
    rw [show ticked.time.lastSync = some v from last]
    exact decide_eq_true late
  rw [if_pos ⟨by rw [show ticked.time.gm = some g from gm]; rfl, hLate⟩, if_pos (by rw [show ticked.time.lastSync = some v from last]; rfl)]
  obtain ⟨gm', _, last'⟩ := State.changeGm_gm none 1 ticked
  exact .next ⟨gm', last'⟩

theorem execTimeSeal_holds {s : State} {q x : Nat} (sealed : s.flag FABRIC.flags 0 = true)
    (sync : s.time.origins.find? (fun z => z.1 == q) = some (q, x)) (t o : Nat) :
    Answers (fun u => u.time.sealOk = decide (x = o)) (execTimeSeal t o q s) := by
  unfold execTimeSeal State.takeSeal
  refine .next ?_
  rw [if_neg (by rw [show (s.tick t).flag FABRIC.flags 0 = true from sealed]; simp),
    show (s.tick t).time.origins.find? (fun z => z.1 == q) = some (q, x) from sync]
  obtain ⟨⟨_, _, _, _, _, ok⟩, _⟩ := (State.syncSettle_timing 0 ((s.tick t).onTime fun y => { y with sealOk := x == o })).timing_at
  exact ok

theorem execTimeSealSend_seals {s : State} {q o : Nat} (gm : s.isGm = true) (sent : s.time.sent = some (q, o))
    (lone : s.fab.conflict = false) (bare : s.wake.bare = false) (t : Nat) :
    Answers (fun u => u.fab.seq = setAt s.fab.seq 1 ((s.fab.seq.getD 1 0 + 1) % 2 ^ 32)) (execTimeSealSend t s) := by
  unfold execTimeSealSend
  extract_lets ticked
  rw [show ticked.isGm = true from gm, show ticked.time.sent = some (q, o) from sent]
  exact .next (Prod.mk.inj (State.sendAt_numbering (s := ticked) (m := .timeSeal o q) rfl lone bare _ _)).1

theorem execSetTime_sets {s : State} {src id : Nat} (fresh : s.keptFor src id = none) (gm : s.isGm = true) (t : Nat) (v : Int) :
    Answers (fun u => u.site = v ∧ u.replies = s.replies ++ [{ src := src, id := id, code := 0, detail := 0 }])
      (execSetTime t src id v s) := by
  unfold execSetTime
  rw [State.mbRow_fresh fresh]
  refine .next ?_
  unfold State.takeSetTime
  rw [if_neg (by rw [show ((s.tick t).noteTaken src id (.setTime v)).isGm = true from gm]; simp)]
  extract_lets old set
  have site : (set.timeStep old v 1).site = set.site := by
    unfold State.timeStep State.site State.siteAt
    rw [State.raise_time, State.raise_now]
  refine ⟨site.trans (State.setSite_site v _), ?_⟩
  show (set.timeStep old v 1).replies ++ [_] = _
  unfold State.timeStep
  rw [State.raise_replies]
  rfl

/-- Settles O40: SYNCED and its events leave the clock; what sets the clock gives it the value named at the present cycle. -/
theorem siteTime : Obligations.SiteTime :=
  ⟨⟨fun _ t _ _ on other may none better => execAnnounce_changes on other may none better t,
    fun _ _ _ q _ _ _ _ _ on gm first offset => execSync_sets on gm first offset q,
    fun _ t gm => execSyncSend_remembers gm t,
    fun _ _ _ _ gm last late => execSyncTimeout_loses gm last late,
    fun _ t o _ _ sealed sync => execTimeSeal_holds sealed sync t o,
    fun _ t _ _ gm sent lone bare => execTimeSealSend_seals gm sent lone bare t⟩,
   fun _ t _ _ v fresh gm => execSetTime_sets fresh gm t v⟩

/-! ## Safety connections and external drives (R495, R497, R499) -/

theorem State.conOf_onCon {s : State} {k : Nat} (h : k < s.cons.length) (f : SafeCon → SafeCon) :
    (s.onCon k f).conOf k = f (s.conOf k) := nth_modify_same h f

theorem State.conOf_conEv (k j cause n : Nat) (s : State) : (s.conEv j cause n).conOf k = s.conOf k := by
  unfold State.conOf State.conEv
  rw [State.raise_cons]

theorem State.xdOf_onXd {s : State} {a : Nat} (h : a < s.xd.length) (f : Xd → Xd) : (s.onXd a f).xdOf a = f (s.xdOf a) :=
  nth_modify_same h f

theorem execSafetyPdu_used {s : State} {t src boot conn sc ts fl d x k : Nat} (h : k < s.cons.length)
    (con : (List.range 16).find? (fun k => s.nat SAFECON.dir k == 2 && s.nat SAFECON.conn_id k == conn && s.nat SAFECON.peer k == src)
      = some k) (valid : (s.tick t).pduFails k boot sc ts fl d x = 0) (unsafe_ : (s.conOf k).st ≠ 3) :
    Answers (fun u => (u.conOf k).st = 2 ∧ (u.conOf k).count = sc ∧ (u.conOf k).next = some (d % 2 ^ s.nat SAFECON.nbits k))
      (execSafetyPdu t src boot conn sc ts fl d x s) := by
  unfold execSafetyPdu State.takePdu
  refine .next ?_
  rw [show (List.range 16).find? (fun k => (s.tick t).nat SAFECON.dir k == 2 && (s.tick t).nat SAFECON.conn_id k == conn &&
    (s.tick t).nat SAFECON.peer k == src) = some k from con]
  dsimp -zeta only
  extract_lets bad safe use_ taken
  have notSafe : safe = false := beq_eq_false_iff_ne.mpr unsafe_
  have uses : use_ = true := by
    unfold use_
    rw [notSafe]
    rfl
  rw [if_neg (by simp [bad, valid]), if_neg (by simp [notSafe])]
  unfold taken
  rw [State.conOf_onCon (s := s.tick t) h, uses]
  exact ⟨rfl, rfl, rfl⟩

theorem execSafetyWatchdog_safe {s : State} {t k : Nat} (boundary : max s.now t = s.stage.openedAt) (hk : k < 16)
    (h : k < s.cons.length) (consumes : s.nat SAFECON.dir k = 2) (runs : (s.conOf k).st = 2)
    (silent : (s.conOf k).lastB + s.nat SAFECON.watchdog k ≤ s.stage.boundaries) :
    Answers (fun u => (u.conOf k).st = 3 ∧ (u.conOf k).data = 0) (execSafetyWatchdog t k s) := by
  unfold execSafetyWatchdog
  extract_lets ticked c
  rw [if_pos ⟨State.atBoundary_of boundary, hk, consumes, runs, silent⟩]
  refine .next ?_
  rw [State.conOf_conEv, State.conOf_onCon (s := ticked) h]
  exact ⟨rfl, rfl⟩

theorem execXdStatus_waits {s : State} {src a : Nat} (ha : a < 12) (h : a < s.xd.length) (has : s.hasXd a = true)
    (unit : s.nat XD.unit a = src) (t st e : Nat) (p v iq : Int) :
    Answers (fun u => (u.xdOf a).inbox.getLast? = some (e, p, v, iq, st)) (execXdStatus t src a st e p v iq s) := by
  unfold execXdStatus State.takeXdStatus
  refine .next ?_
  rw [if_neg (by rintro (high | none | other)
                 · omega
                 · rw [show (s.tick t).hasXd a = true from has] at none
                   cases none
                 · exact other unit), State.xdOf_onXd (s := s.tick t) h]
  exact List.getLast?_concat ..

theorem execXdConfirmTimeout_tells {s : State} {a n : Nat} (h : a < s.xd.length) (off : (s.xdOf a).offSince = some n)
    (late : n + s.nat XD.t_conf a ≤ s.stage.boundaries) (first : (s.xdOf a).unconfirmed = false) (t : Nat) :
    Answers (fun u => (u.xdOf a).unconfirmed = true ∧ bit u.mode.haltNew 4 = true) (execXdConfirmTimeout t a s) := by
  unfold execXdConfirmTimeout
  extract_lets ticked
  rw [show (ticked.xdOf a).offSince = some n from off]
  dsimp -zeta only
  rw [if_pos ⟨late, by rw [show (ticked.xdOf a).unconfirmed = false from first]; rfl⟩]
  refine .next ⟨?_, State.haltCause_new ..⟩
  show (nth (State.conEv _ 5 _ (ticked.onXd a _)).xd a).unconfirmed = true
  unfold State.conEv
  rw [State.raise_xd]
  show ((ticked.onXd a _).xdOf a).unconfirmed = true
  rw [State.xdOf_onXd (s := ticked) h]

/-- Settles O41: each row acts on the connection or the drive it names, whose state its event leaves. -/
theorem connectionsAndDrives : Obligations.ConnectionsAndDrives :=
  ⟨fun _ _ _ _ _ _ _ _ _ _ _ h con valid unsafe_ => execSafetyPdu_used h con valid unsafe_,
   fun _ _ _ boundary hk h consumes runs silent => execSafetyWatchdog_safe boundary hk h consumes runs silent,
   fun _ t _ _ st e p v iq ha h has unit => execXdStatus_waits ha h has unit t st e p v iq,
   fun _ t _ _ h off late first => execXdConfirmTimeout_tells h off late first t⟩

end Sys2Proof.Machine

namespace Sys2Proof.Machine

/-! # Twin operation (chapter 13) -/

theorem State.twin_send (d : Dest) (m : Msg) (s : State) : (s.send d m).twin = s.twin := (State.send_keeps d m s).get .twin rfl

/-! ## The twin link and the mirror (R510, R511, R522) -/

/-- What a change of role leaves of the twin's state. -/
def Twin.link (x : Twin) : Bool × Nat × List TwinPkt × Nat := (x.heartbeat, x.missRun, x.pkts, x.hbLosses)

def State.twinHears (s : State) : Bool × Nat × List TwinPkt × Nat := s.twin.link

theorem Fixes.twinHears_raise {s t : State} {c : Nat} {pl : List Octet} {v : Nat} (h : Fixes State.twinHears s t) :
    Fixes State.twinHears s (t.raise c pl v) := h.then_ (congrArg Twin.link (State.raise_twin t c pl v))

theorem State.setRole_hears (dest cause : Nat) (s : State) : Fixes State.twinHears s (s.setRole dest cause) := by
  unfold State.setRole
  extract_lets was
  have moved : Fixes State.twinHears s (s.onTwin fun x => { x with st := dest }) := ⟨rfl⟩
  exact .ite (.refl s) moved.twinHears_raise

theorem State.rejoin_hears (cause : Nat) (s : State) : Fixes State.twinHears s (s.rejoin cause) :=
  (State.setRole_hears 1 cause s).then_ rfl

theorem State.takeEntry_hears (e : MirrorEntry) (s : State) : Fixes State.twinHears s (s.takeEntry e) := ⟨rfl⟩

theorem execTwinPacket_keeps_packet {s : State} {p : TwinPkt} (pair : s.inPair = true) (up : s.twin.linkUp = true) (t : Nat) :
    (p.crcOk = true → p.pair = s.pairId → p.unit = s.nat TWIN.partner →
      Answers (fun u => u.twin.heartbeat = true ∧ u.twin.missRun = 0 ∧ u.twin.pkts.head? = some p) (execTwinPacket t p s)) ∧
    (p.crcOk = false → Answers (fun u => u.twin.crcErrors = inc32 s.twin.crcErrors ∧ u.twin.pkts = s.twin.pkts) (execTwinPacket t p s)) := by
  unfold execTwinPacket
  extract_lets ticked back miss kept told taken
  rw [if_neg (by rw [show ticked.inPair = true from pair, show ticked.twin.linkUp = true from up]; simp)]
  refine ⟨fun ok own unit => ?_, fun bad => ?_⟩
  · rw [if_neg (by rw [ok, own, unit]; simp [ticked, show (s.tick t).pairId = s.pairId from rfl, show (s.tick t).nat TWIN.partner = s.nat TWIN.partner from rfl])]
    have hTold : Fixes State.twinHears kept told := .ite (Fixes.refl kept).twinHears_raise (.refl kept)
    have hTaken : Fixes State.twinHears kept taken :=
      .ite hTold (hTold.trans (.foldl (fun x e => State.takeEntry_hears e x) _ _))
    have last : Fixes State.twinHears kept (if back = true ∧ taken.twin.st = 5 then taken.rejoin 3 else taken) :=
      .ite (hTaken.trans (State.rejoin_hears ..)) hTaken
    obtain ⟨beat, rest⟩ := Prod.mk.inj last.eq
    obtain ⟨miss', rest⟩ := Prod.mk.inj rest
    obtain ⟨pkts, _⟩ := Prod.mk.inj rest
    exact .next ⟨beat, miss', by rw [pkts]; rfl⟩
  · rw [if_pos (.inl (by rw [bad]; rfl))]
    exact .next ⟨rfl, rfl⟩

theorem State.setRole_st (dest cause : Nat) (s : State) : (s.setRole dest cause).twin.st = dest := by
  unfold State.setRole
  extract_lets was
  split
  · assumption
  · rw [State.raise_twin]
    rfl

theorem execTwinHeartbeat_lost {s : State} (pair : s.inPair = true) (beat : s.twin.heartbeat = true)
    (missed : s.nat TWIN.hb_miss ≤ s.twin.missRun) (t : Nat) :
    Answers (fun u => u.twin.heartbeat = false ∧ u.twin.hbLosses = inc32 s.twin.hbLosses ∧
      (s.twin.st = 3 → u.twin.st = 4 ∧ u.twin.fresh = false)) (execTwinHeartbeat t s) := by
  unfold execTwinHeartbeat
  extract_lets ticked x lost
  rw [if_neg (by rintro (single | silent | short)
                 · rw [show ticked.inPair = true from pair] at single
                   cases single
                 · rw [show x.heartbeat = true from beat] at silent
                   cases silent
                 · exact absurd missed (Nat.not_le.mpr short))]
  have hLost : lost.twin = { s.twin with heartbeat := false, hbLosses := inc32 s.twin.hbLosses } := State.raise_twin ..
  refine .ite_of (fun standby => ?_) fun other => .ite_of (fun waits => ?_) fun _ => ?_
  · refine .next ?_
    unfold State.leaseAsk
    extract_lets succ
    rw [State.twin_send]
    show (lost.twin.heartbeat = false ∧ lost.twin.hbLosses = _ ∧ _)
    rw [hLost]
    exact ⟨rfl, rfl, fun _ => ⟨rfl, rfl⟩⟩
  · refine .next ?_
    have role := State.setRole_hears 5 2 (lost.mirrorStale.onTwin fun x => { x with rebase := none })
    obtain ⟨beat', rest⟩ := Prod.mk.inj role.eq
    obtain ⟨_, rest⟩ := Prod.mk.inj rest
    obtain ⟨_, losses⟩ := Prod.mk.inj rest
    refine ⟨beat'.trans ?_, losses.trans ?_, fun h => absurd h other⟩
    · show lost.twin.heartbeat = false
      rw [hLost]
    · show lost.twin.hbLosses = _
      rw [hLost]
  · exact .next ⟨by rw [hLost], by rw [hLost], fun h => absurd h other⟩

theorem execTwinLink_follows {s : State} (free : s.clk.motionHeld = false) (t : Nat) (up : Bool) :
    Answers (fun u => u.twin.linkUp = (up && !(nth s.links 1).failed)) (execTwinLink t up s) := by
  unfold execTwinLink
  extract_lets ticked
  rw [if_neg (by simp [ticked, free])]
  refine .next ?_
  unfold State.twinLink
  split
  · next same =>
    exact same
  · rw [State.raise_twin]
    rfl

/-- What the copies taken leave: the role, the count of boundaries and the configuration. -/
def State.rebasing (s : State) : Nat × Nat × List Cell := (s.twin.st, s.stage.boundaries, s.cfg)

theorem Fixes.rebasing_keeps {W : List Fld} {s t u : State} (h : Fixes State.rebasing s t) (k : Keeps W t u)
    (twin : W.contains .twin = false) (stage : W.contains .stage = false) (cfg : W.contains .cfg = false) :
    Fixes State.rebasing s u :=
  h.then_ (Prod.ext (congrArg Twin.st (k.get .twin twin)) (Prod.ext (congrArg Stage.boundaries (k.get .stage stage)) (k.get .cfg cfg)))

theorem State.takeAxis_rebasing (a n : Nat) (s : State) : Fixes State.rebasing s (s.takeAxis a n) := by
  unfold State.takeAxis
  split
  · exact .refl s
  · extract_lets w p target fl mode prof shifted noted take _ taken
    have hShifted : Fixes State.rebasing s shifted := (Fixes.refl s).rebasing_keeps (State.shiftAxis_keeps ..) rfl rfl rfl
    clear_value shifted
    have hTaken : Fixes State.rebasing s taken := hShifted.then_ rfl
    exact hTaken.then_ rfl

theorem execRebase_rebases {s : State} {t e : Nat} (boundary : max s.now t = s.stage.openedAt) (waits : s.twin.rebase = some e)
    (standby : s.twin.st = 3) (copies : ∀ i ∈ s.mirrorItems, ∃ n b, (s.item i).copy = some (n, b) ∧ e ≤ n) :
    Answers (fun u => u.twin.rebase = none ∧ u.twin.resumeAt = some (s.stage.boundaries + s.nat TWIN.rebase)) (execRebase t s) := by
  unfold execRebase
  extract_lets ticked n axes cars doors stops rebased
  rw [show ticked.twin.rebase = some e from waits]
  dsimp -zeta only
  extract_lets ok
  have complete : ok = true := List.all_eq_true.mpr fun i mem => by
    obtain ⟨n, b, copy, new_⟩ := copies i mem
    rw [show (ticked.item i).copy = some (n, b) from copy]
    exact decide_eq_true new_
  rw [if_neg (by rintro (early | short | other)
                 · rw [State.atBoundary_of boundary] at early
                   cases early
                 · rw [complete] at short
                   cases short
                 · simp [show ticked.twin.st = 3 from standby] at other)]
  have hAxes : Fixes State.rebasing ticked axes :=
    ((Fixes.refl ticked).rebasing_keeps (State.unshow_keeps ticked) rfl rfl rfl).trans
      (.eachIx (fun a x => .ite (State.takeAxis_rebasing a n x) (.refl x)) 12 _)
  have hCars : Fixes State.rebasing ticked cars :=
    hAxes.trans (.eachIx (fun c x => .ite ((Fixes.refl x).rebasing_keeps (State.takeCar_keeps c x) rfl rfl rfl) (.refl x)) 4 axes)
  have hDoors : Fixes State.rebasing ticked doors :=
    hCars.trans (.eachIx (fun d x => .ite ((Fixes.refl x).rebasing_keeps (State.takeDoor_keeps d x) rfl rfl rfl) (.refl x)) 8 cars)
  have hStops : Fixes State.rebasing ticked stops := hDoors.rebasing_keeps (State.takeStops_keeps doors) rfl rfl rfl
  obtain ⟨st, rest⟩ := Prod.mk.inj hStops.eq
  obtain ⟨boundaries, cfg⟩ := Prod.mk.inj rest
  clear_value stops doors cars axes
  have role : rebased.twin.st = 3 := st.trans standby
  rw [if_neg (by rw [role]; decide)]
  refine .next ⟨rfl, ?_⟩
  show some (stops.stage.boundaries + stops.nat TWIN.rebase) = _
  unfold State.nat State.int
  rw [boundaries, cfg]
  rfl

theorem execCompareResume_resumes {s : State} {n : Nat} (at_ : s.twin.resumeAt = some n) (due : n ≤ s.stage.boundaries) (t : Nat) :
    Answers (fun u => u.twin.resumeAt = none) (execCompareResume t s) := by
  unfold execCompareResume
  extract_lets ticked
  rw [show ticked.twin.resumeAt = some n from at_]
  dsimp -zeta only
  rw [if_pos (show n ≤ ticked.stage.boundaries from due)]
  exact .next rfl

/-- Settles O42: a packet that is valid is the heartbeat whatever it carries; the copies taken leave the role and the count of
boundaries. -/
theorem twinLinkAndMirror : Obligations.TwinLinkAndMirror :=
  ⟨fun _ t _ pair up => execTwinPacket_keeps_packet pair up t,
   fun _ t pair beat missed => execTwinHeartbeat_lost pair beat missed t,
   fun _ t up free => execTwinLink_follows free t up,
   fun _ _ _ boundary waits standby copies => execRebase_rebases boundary waits standby copies,
   fun _ t _ at_ due => execCompareResume_resumes at_ due t⟩

/-! ## The witness and its members (R513, R515) -/

/-- The leases of the pairs served. -/
def State.wit (s : State) : List WitPair := s.twin.wit

theorem State.leaseEv_wit (event lease holder pair : Nat) (s : State) : (leaseEv event lease holder pair s).wit = s.wit :=
  congrArg Twin.wit (State.raise_twin ..)

theorem State.leaseAnswer_wit (k result left unit : Nat) (s : State) : (s.leaseAnswer k result left unit).wit = s.wit :=
  congrArg Twin.wit (State.twin_send ..)

theorem execLeaseRequest_answers {s : State} {t pair k : Nat} (serves : s.witnessIx pair = some k) (h : k < s.twin.wit.length)
    (awake : s.wake.from_ + msCycles 150 ≤ max s.now t) (unit n l c succ : Nat) :
    ((nth s.twin.wit k).holder = 0 → Answers (fun u => (nth u.twin.wit k).holder = unit ∧
      (nth u.twin.wit k).counter = ((nth s.twin.wit k).counter + 1) % 65536 ∧
      (nth u.twin.wit k).until_ = max s.now t + msCycles (l + s.nat TWIN.grace)) (execLeaseRequest t pair unit n l c succ s)) ∧
    ((nth s.twin.wit k).holder ≠ 0 → (nth s.twin.wit k).holder ≠ unit → (nth s.twin.wit k).successor ≠ unit →
      max s.now t < (nth s.twin.wit k).until_ → Answers (fun u => (nth u.twin.wit k).holder = (nth s.twin.wit k).holder ∧
        (nth u.twin.wit k).until_ = (nth s.twin.wit k).until_ ∧
        (nth u.twin.wit k).refusals = inc32 (nth s.twin.wit k).refusals) (execLeaseRequest t pair unit n l c succ s)) := by
  unfold execLeaseRequest State.takeLeaseRequest
  rw [show (s.tick t).witnessIx pair = some k from serves]
  dsimp -zeta only
  extract_lets w early runs left grant renewed given w' refused
  rw [if_neg (show ¬ (s.tick t).now < early from Nat.not_lt.mpr awake)]
  refine ⟨fun free => ?_, fun held other stranger running => ?_⟩
  · rw [if_pos (show w.holder = 0 from free)]
    refine .next ?_
    have same : (State.leaseAnswer k 0 (given.msLeft w'.until_) unit (leaseEv 0 w'.leaseNo unit pair given)).twin.wit = given.twin.wit :=
      (State.leaseAnswer_wit ..).trans (State.leaseEv_wit ..)
    have here : nth given.twin.wit k = _ := nth_modify_same (l := (s.tick t).twin.wit) h _
    rw [same, here]
    exact ⟨rfl, rfl, rfl⟩
  · have runs' : runs = true := decide_eq_true running
    rw [if_neg (show ¬ w.holder = 0 from held), if_neg (by rw [runs']; simp), if_neg (fun own => other own.1),
      if_neg (fun own => stranger own.1)]
    refine .next ?_
    have same : (State.leaseAnswer k 1 left unit (leaseEv 1 w.leaseNo w.holder pair refused)).twin.wit = refused.twin.wit :=
      (State.leaseAnswer_wit ..).trans (State.leaseEv_wit ..)
    have here : nth refused.twin.wit k = _ := nth_modify_same (l := (s.tick t).twin.wit) h _
    rw [same, here]
    exact ⟨rfl, rfl, rfl⟩

theorem execLeaseRelease_frees {s : State} {pair unit k : Nat} (serves : s.witnessIx pair = some k) (h : k < s.twin.wit.length)
    (some_ : unit ≠ 0) (holds : (nth s.twin.wit k).holder = unit) (t : Nat) :
    Answers (fun u => (nth u.twin.wit k).holder = 0) (execLeaseRelease t pair unit (nth s.twin.wit k).leaseNo s) := by
  unfold execLeaseRelease State.takeLeaseRelease
  rw [show (s.tick t).witnessIx pair = some k from serves]
  dsimp -zeta only
  extract_lets w
  have holds' : w.holder = unit := holds
  rw [if_pos ⟨holds', by rw [holds']; exact some_, rfl⟩]
  refine .next ?_
  rw [show nth ((s.tick t).onWit k _).twin.wit k = _ from nth_modify_same (l := (s.tick t).twin.wit) h _]

theorem State.leaseAsk_asks (cause : Nat) (s : State) : (s.leaseAsk cause).twin = { s.twin with reqAt := some s.now, reqCause := cause } := by
  unfold State.leaseAsk
  extract_lets succ
  rw [State.twin_send]
  rfl

theorem execRoleRequest_asks {s : State} {v : Nat} (pair : s.inPair = true) (waiting : s.twin.st = 1) (aligned : s.stage.aligned = true)
    (wakes : s.twin.wakeReq = some v) (prefer : s.flag TWIN.flags 0 = true) (whole : s.twin.rebase = none)
    (first : s.twin.reqAt = none) (t : Nat) :
    Answers (fun u => u.twin.reqAt = some (max s.now t) ∧ u.twin.reqCause = 1) (execRoleRequest t s) := by
  unfold execRoleRequest
  extract_lets ticked x due
  have hDue : due = true := by
    unfold due
    rw [show x.wakeReq = some v from wakes]
    simp [show ticked.flag TWIN.flags 0 = true from prefer]
  have since : ticked.msSince x.reqAt (ticked.nat TWIN.renew) = true := by
    rw [show x.reqAt = none from first]
    rfl
  rw [if_pos ⟨pair, waiting, aligned, hDue, by rw [show x.rebase = none from whole]; rfl, since⟩]
  exact .next (by rw [State.leaseAsk_asks]; exact ⟨rfl, rfl⟩)

theorem execLeaseRenew_asks {s : State} {t v : Nat} (pair : s.inPair = true) (active : s.twin.st = 2) (leased : s.twin.leaseNo ≠ 0)
    (last : s.twin.reqAt = some v) (due : v + msCycles (s.nat TWIN.renew) ≤ max s.now t) :
    Answers (fun u => u.twin.reqAt = some (max s.now t) ∧ u.twin.reqCause = 0) (execLeaseRenew t s) := by
  unfold execLeaseRenew
  extract_lets ticked x
  have since : ticked.msSince x.reqAt (ticked.nat TWIN.renew) = true := by
    rw [show x.reqAt = some v from last]
    exact decide_eq_true due
  rw [if_neg (by rw [since, show ticked.inPair = true from pair]; simp), if_pos ⟨active, leased⟩]
  exact .next (by rw [State.leaseAsk_asks]; exact ⟨rfl, rfl⟩)

theorem State.setRole_lease (dest cause : Nat) (s : State) :
    (s.setRole dest cause).twin = { s.twin with st := dest } := by
  unfold State.setRole
  extract_lets was
  split
  · next same =>
    rw [← same]
  · rw [State.raise_twin]
    rfl

theorem execLeaseGrant_activates {s : State} {v : Nat} (pair : s.inPair = true) (waiting : s.twin.st = 1) (asked : s.twin.reqAt = some v)
    (t n left succ : Nat) :
    Answers (fun u => u.twin.st = 2 ∧ u.twin.leaseNo = n ∧ u.twin.leaseEnd = some (v + msCycles (s.nat TWIN.lease)) ∧
      u.twin.takeovers = inc32 s.twin.takeovers) (execLeaseGrant t s.pairId s.unitId n 0 left succ s.unitId s) := by
  unfold execLeaseGrant State.takeLeaseGrant
  extract_lets both x from_ granted
  rw [if_neg (by rw [show (s.tick t).inPair = true from pair]; simp [State.pairId, State.unitId, State.nat, State.int]),
    if_pos ⟨rfl, rfl⟩, show x.st = 1 from waiting]
  have since : from_ = v := by
    unfold from_
    rw [show x.reqAt = some v from asked]
    rfl
  refine .next ?_
  show (granted.becomeActive 0).twin.st = 2 ∧ _
  have role : (granted.setRole 2 0).twin = { granted.twin with st := 2 } := State.setRole_lease ..
  show (granted.setRole 2 0).twin.st = 2 ∧ (granted.setRole 2 0).twin.leaseNo = n ∧ (granted.setRole 2 0).twin.leaseEnd = _ ∧
    inc32 (granted.setRole 2 0).twin.takeovers = _
  rw [role, ← since]
  exact ⟨rfl, rfl, rfl, rfl⟩

/-- Settles O43: the witness answers by the lease it holds; a member asks, renews and becomes ACTIVE on its own lease. -/
theorem leases : Obligations.Leases :=
  ⟨⟨fun _ _ _ unit n l c succ _ serves h awake => execLeaseRequest_answers serves h awake unit n l c succ,
    fun _ t _ _ _ serves h some_ holds => execLeaseRelease_frees serves h some_ holds t⟩,
   ⟨fun _ t _ pair waiting aligned wakes prefer whole first => execRoleRequest_asks pair waiting aligned wakes prefer whole first t,
    fun _ _ _ pair active leased last due => execLeaseRenew_asks pair active leased last due,
    fun _ t n left succ _ pair waiting asked => execLeaseGrant_activates pair waiting asked t n left succ⟩⟩

/-! ## Hand-off and GRANT (R514, R526, R532, R533) -/

theorem State.leaveActive_out (cause : Nat) {s : State} (lapsed : s.twin.leaseEnd = none) :
    (s.leaveActive cause).twin.st = 7 ∧ (s.leaveActive cause).twin.leaseEnd = none := by
  unfold State.leaveActive
  extract_lets released
  have kept : released.twin.leaseEnd = none := by
    unfold released State.leaseRelease
    extract_lets n
    split
    · exact lapsed
    · rfl
  show (released.setRole 7 cause).twin.st = 7 ∧ (released.setRole 7 cause).twin.leaseEnd = _
  rw [State.setRole_lease]
  exact ⟨rfl, kept⟩

theorem execLeaseExpiry_lapses {s : State} {t v : Nat} (lease : s.twin.leaseEnd = some v) (active : s.twin.st = 2)
    (over_ : v ≤ max s.now t) (idle : s.twin.handoff = none) :
    Answers (fun u => u.twin.leaseEnd = none ∧ (s.partnerFit = true → u.twin.handoff = some (s.stage.epoch + 4) ∧ u.twin.st = 2) ∧
      (s.partnerFit = false → u.twin.st = 7 ∧ bit u.mode.haltNew 8 = true)) (execLeaseExpiry t s) := by
  unfold execLeaseExpiry
  extract_lets ticked
  rw [show ticked.twin.leaseEnd = some v from lease]
  dsimp -zeta only
  rw [if_pos ⟨active, over_, by rw [show ticked.twin.handoff = none from idle]; rfl⟩]
  refine .next ?_
  unfold State.leaseLapse
  extract_lets told ended
  have hTold : told.twin = s.twin := State.raise_twin ..
  have epoch : ended.stage.epoch = s.stage.epoch := congrArg Stage.epoch (State.raise_stage ..)
  have fit : ended.partnerFit = s.partnerFit := by
    unfold State.partnerFit ended State.onTwin
    dsimp only
    rw [hTold]
  have st : ended.twin.st = 2 := (congrArg Twin.st hTold).trans active
  have lapsed : ended.twin.leaseEnd = none := rfl
  clear_value ended
  rw [fit]
  by_cases yes : s.partnerFit = true
  · rw [if_pos yes]
    refine ⟨lapsed, fun _ => ⟨?_, st⟩, fun no => by rw [no] at yes; cases yes⟩
    show some (ended.stage.epoch + 1 + 3) = _
    rw [epoch]
  · rw [if_neg yes]
    have stopped : (eachIx 12 (fun a s => s.orderSs1 a 0xDC) (ended.leaveActive 6)).twin = (ended.leaveActive 6).twin :=
      (Keeps.eachIx (fun a x k => (State.orderSs1_keeps a 0xDC x).after k rfl) (Keeps.refl [.book, .safe, .led] _)).get .twin rfl
    obtain ⟨out, lease'⟩ := State.leaveActive_out 6 lapsed
    refine ⟨?_, fun fit => absurd fit yes, fun _ => ⟨?_, State.haltCause_new ..⟩⟩
    · rw [State.haltCause_twin, stopped]
      exact lease'
    · rw [State.haltCause_twin, stopped]
      exact out

theorem execHandoff_out {s : State} {t h : Nat} (boundary : max s.now t = s.stage.openedAt) (hand : s.twin.handoff = some h)
    (due : h ≤ s.stage.epoch) (active : s.twin.st = 2) :
    Answers (fun u => u.twin.st = 7 ∧ u.twin.grant = false ∧ u.twin.leaseNo = 0 ∧ u.twin.handoff = none) (execHandoff t s) := by
  unfold execHandoff
  extract_lets ticked out off
  rw [show ticked.twin.handoff = some h from hand]
  dsimp -zeta only
  rw [if_neg (by rintro (early | early)
                 · exact absurd due (Nat.not_le.mpr early)
                 · rw [State.atBoundary_of boundary] at early
                   cases early), if_pos (show ticked.twin.st = 2 from active)]
  have hOff : off.twin = out.twin := by
    have kept : Keeps [.cax] out off :=
      Keeps.ite (Keeps.eachIx (fun a x k => (State.gatesOff_keeps a _ x).after k rfl) (Keeps.refl _ out)) (Keeps.refl _ out)
    exact kept.get .twin rfl
  refine .next ?_
  rw [State.haltCause_twin, hOff]
  show (ticked.setRole 7 1).twin.st = 7 ∧ _
  rw [State.setRole_lease]
  exact ⟨rfl, rfl, rfl, rfl⟩

theorem execGrantCheck_tells {s : State} {t : Nat} (pair : s.localPair = true)
    (late : s.twin.grantAt + usCycles (s.nat TWIN.sel_time) + s.period ≤ max s.now t) (differs : s.selReading ≠ s.twin.grant) :
    Answers (fun u => bit u.mode.haltNew 4 = true) (execGrantCheck t s) := by
  unfold execGrantCheck
  extract_lets ticked
  rw [if_pos ⟨pair, late, differs⟩]
  exact .next (State.haltCause_new ..)

theorem execSwitch_begins {s : State} {src id : Nat} (fresh : s.keptFor src id = none) (mode : s.mode.mode ≠ 0)
    (pair : s.localPair = true) (active : s.twin.st = 2) (fit : s.partnerFit = true) (idle : s.twin.handoff = none) (t : Nat) :
    Answers (fun u => u.twin.handoff = some (s.stage.epoch + 4) ∧
      u.replies = s.replies ++ [{ src := src, id := id, code := 0, detail := 0 }]) (execSwitch t src id s) := by
  unfold execSwitch
  rw [State.mbRow_fresh fresh]
  refine .next ?_
  generalize hx : (s.tick t).noteTaken src id .switch = x
  have mode' : ¬ x.mode.mode = 0 := by rw [← hx]; exact mode
  have pair' : x.localPair = true := by rw [← hx]; exact pair
  have active' : x.twin.st = 2 := by rw [← hx]; exact active
  have fit' : x.partnerFit = true := by rw [← hx]; exact fit
  have idle' : x.twin.handoff = none := by rw [← hx]; exact idle
  unfold State.takeSwitch
  rw [if_neg mode', if_neg (by simp [pair', active']), if_neg (by simp [fit', idle']), ← hx]
  exact ⟨rfl, rfl⟩

/-- Settles O44: what begins a hand-off names the epoch three after the next; what ends one leaves the member OUT. -/
theorem handoffAndGrant : Obligations.HandoffAndGrant :=
  ⟨fun _ _ _ lease active over_ idle => execLeaseExpiry_lapses lease active over_ idle,
   fun _ _ _ boundary hand due active => execHandoff_out boundary hand due active,
   fun _ _ pair late differs => execGrantCheck_tells pair late differs,
   fun _ t _ _ fresh mode pair active fit idle => execSwitch_begins fresh mode pair active fit idle t⟩

end Sys2Proof.Machine

namespace Sys2Proof.Machine

/-! # The purse: power, rails, buses and heat (chapter 14) -/

theorem State.tierEv_purse (tier : Nat) (funded : Bool) (cause : Nat) (s : State) :
    (s.tierEv tier funded cause).purse = { s.purse with sheds := inc32 s.purse.sheds } := State.raise_purse ..

/-- The tiers are judged anew, and the changes counted. -/
theorem State.tiers_purse (s : State) : ∃ n, s.tiers.purse =
    { s.purse with t1 := s.t1Cause.isNone, t2 := s.t2Cause.isNone, shed := s.t2Cause.getD s.purse.shed, sheds := n } := by
  unfold State.tiers
  extract_lets c1 c2 p first judged told
  have hTold : ∃ n, told.purse = { judged.purse with sheds := n } := by
    unfold told
    split
    · exact ⟨_, State.tierEv_purse ..⟩
    · exact ⟨_, rfl⟩
  obtain ⟨n, hTold⟩ := hTold
  split
  · exact ⟨inc32 n, by rw [State.tierEv_purse, hTold]; rfl⟩
  · exact ⟨n, hTold⟩

/-! ## The power input (R543, R545, R547, R553) -/

theorem execPdClass_takes {s : State} {p c : Nat} {on : Bool} (two : p < 2) (h : p < s.purse.pd.length)
    (moved : (nth s.purse.pd p).cls ≠ c ∨ (nth s.purse.pd p).powered ≠ on) (t : Nat) :
    Answers (fun u => (nth u.purse.pd p).cls = c ∧ (nth u.purse.pd p).powered = on) (execPdClass t p c on s) := by
  unfold execPdClass
  extract_lets ticked x off taken g
  rw [if_neg (by rintro (high | ⟨cls, powered⟩)
                 · omega
                 · exact moved.elim (fun k => k cls) fun k => k powered)]
  refine .next ?_
  rw [State.raise_purse, show nth taken.purse.pd p = _ from nth_modify_same (l := ticked.purse.pd) h _]
  exact ⟨rfl, rfl⟩

theorem execClassFallback_falls {s : State} {t p : Nat} (two : p < 2) (h : p < s.purse.pd.length) (may : s.flag PURSE.flags 0 = true)
    (requested : s.nat PURSE.class_req = 15) (dark : (nth s.purse.pd p).powered = false) (first : (nth s.purse.pd p).fellBack = false)
    (late : (nth s.purse.pd p).advAt + 400000000 ≤ max s.now t) :
    Answers (fun u => (nth u.purse.pd p).fellBack = true ∧ u.advertised p = 14) (execClassFallback t p s) := by
  unfold execClassFallback
  extract_lets ticked x
  rw [if_pos ⟨two, may, requested, by rw [show x.powered = false from dark]; rfl, by rw [show x.fellBack = false from first]; rfl, late⟩]
  refine .next ?_
  show (nth (ticked.purse.pd.modify p _) p).fellBack = true ∧ (if (nth (ticked.purse.pd.modify p _) p).fellBack then 14 else _) = 14
  rw [nth_modify_same (l := ticked.purse.pd) h]
  exact ⟨rfl, rfl⟩

theorem execPowerLoss_loses {s : State} (powered : s.purse.lost = false) (run : s.nat PURSE.loss_n ≤ s.purse.lossRun) (t : Nat) :
    Answers (fun u => u.purse.lost = true ∧ u.purse.losses = inc32 s.purse.losses ∧ u.purse.grant = 0 ∧
      u.purse.t1 = false ∧ u.purse.t2 = false ∧ bit u.mode.haltNew 5 = true) (execPowerLoss t s) := by
  unfold execPowerLoss
  extract_lets ticked judged told stopped
  rw [if_neg (by rintro (lost | short)
                 · rw [show ticked.purse.lost = false from powered] at lost
                   cases lost
                 · exact absurd run (Nat.not_le.mpr short))]
  obtain ⟨n, hJudged⟩ := State.tiers_purse (ticked.onPurse fun p => { p with lost := true, losses := inc32 p.losses, grant := 0 })
  have hTold : told.purse = judged.purse := State.raise_purse ..
  have hStopped : stopped.purse = told.purse :=
    (Keeps.eachIx (fun a x k => Keeps.ite ((State.orderSto_keeps a 0xE1 x).after k rfl) k) (Keeps.refl [.safe, .led] told)).get .purse rfl
  have flushed : (stopped.haltCause 5).powerFlushBegin.purse = (stopped.haltCause 5).purse := (State.powerFlushBegin_keeps _).get .purse rfl
  have mode : (stopped.haltCause 5).powerFlushBegin.mode = (stopped.haltCause 5).mode := (State.powerFlushBegin_keeps _).get .mode rfl
  refine .next ?_
  rw [mode, flushed, State.haltCause_purse, hStopped, hTold, show judged.purse = _ from hJudged]
  exact ⟨rfl, rfl, rfl, rfl, rfl, State.haltCause_new ..⟩

theorem execPowerReturn_returns {s : State} (lost : s.purse.lost = true) (run : s.purse.lossRun = 0) (rails : s.purse.railsOff = false)
    (t : Nat) : Answers (fun u => u.purse.lost = false) (execPowerReturn t s) := by
  unfold execPowerReturn
  extract_lets ticked
  rw [if_pos ⟨lost, run, by rw [show ticked.purse.railsOff = false from rails]; rfl⟩]
  refine .next ?_
  rw [State.raise_purse]
  rfl

theorem execHoldFloor_ends {s : State} {h : Nat} (lost : s.purse.lost = true) (low : h ≤ s.nat PURSE.v_floor) (t : Nat) :
    Answers (fun u => u.purse.railsOff = true ∧ u.purse.hold = h ∧ u.wake.supply = false ∧ u.stage.running = false ∧
      u.led.buf = [] ∧ u.led.slots = s.led.slots) (execHoldFloor t h s) := by
  unfold execHoldFloor
  extract_lets ticked restarted
  rw [if_neg (by rintro (powered | high)
                 · rw [show ticked.purse.lost = true from lost] at powered
                   cases powered
                 · exact absurd low (Nat.not_le.mpr high))]
  exact .next ⟨rfl, rfl, rfl, rfl, rfl, rfl⟩

theorem execGrantExceeded_sheds {s : State} (run : 1000 ≤ s.purse.overRun) (first : s.purse.exceeded = false) (t : Nat) :
    Answers (fun u => u.purse.exceeded = true ∧ u.purse.t2 = false) (execGrantExceeded t s) := by
  unfold execGrantExceeded
  extract_lets ticked marked
  rw [if_pos ⟨run, by rw [show ticked.purse.exceeded = false from first]; rfl⟩]
  refine .next ?_
  obtain ⟨n, hJudged⟩ := marked.tiers_purse
  have cause : marked.t2Cause.isNone = false := by
    unfold State.t2Cause
    split
    · rfl
    · split
      · rfl
      · rw [if_pos (show marked.purse.exceeded = true from rfl)]
        rfl
  rw [State.raise_purse, hJudged, cause]
  exact ⟨rfl, rfl⟩

/-- Settles O46: each row changes the port or the part of the purse it names; what is judged after a loss funds no tier. -/
theorem powerInput : Obligations.PowerInput :=
  ⟨fun _ t _ _ _ two h moved => execPdClass_takes two h moved t,
   fun _ _ _ two h may requested dark first late => execClassFallback_falls two h may requested dark first late,
   fun _ t powered run => execPowerLoss_loses powered run t,
   fun _ t lost run rails => execPowerReturn_returns lost run rails t,
   fun _ t _ lost low => execHoldFloor_ends lost low t,
   fun _ t run first => execGrantExceeded_sheds run first t⟩

/-! ## Rails and buses (R558, R559, R722) -/

theorem State.railEv_purse (rail measured : Nat) (s : State) : (s.railEv rail measured).purse = s.purse := State.raise_purse ..

theorem execSensorSupply_limits (t m5 m12 : Nat) (s : State) :
    Answers (fun u => u.purse.limited = [decide (6000 ≤ m5), decide (12000 ≤ m12)] ∧
      (s.purse.sAllow ≤ m5 → u.purse.foldBack = [some s.purse.sAllow, some 0])) (execSensorSupply t m5 m12 s) := by
  unfold execSensorSupply
  extract_lets ticked p a off fold was low since ovr lim limited told one
  have hTold : told.purse = limited.purse := by
    unfold told
    split
    · split
      · exact State.railEv_purse ..
      · rfl
    · split
      · exact State.railEv_purse ..
      · rfl
  have hOne (r : Nat) (x : State) : (one r x).purse = x.purse := by
    unfold one
    split
    · exact State.railEv_purse ..
    · rfl
  refine .next ?_
  rw [hOne, hOne, hTold]
  refine ⟨rfl, fun short => ?_⟩
  have folded : fold = [some a, some 0] := if_pos short
  have high : low = false := decide_eq_false (by
    have : a ≤ m5 := short
    omega)
  have never : since = none := by
    unfold since
    rw [high]
    simp
  have kept : ovr = false := by
    unfold ovr
    rw [never]
  show (if ovr then [none, none] else fold) = _
  rw [kept, folded]
  rfl

theorem execRailLow_off {s : State} {r : Nat} (two : r < 2) (h : r < s.purse.railOff.length)
    (on : s.purse.railOff.getD r none = none) (t : Nat) :
    Answers (fun u => u.purse.railOff.getD r none = some (max s.now t)) (execRailLow t r s) := by
  unfold execRailLow
  extract_lets ticked off
  rw [if_neg (by rintro (high | dark)
                 · omega
                 · rw [show ticked.purse.railOff.getD r none = none from on] at dark
                   cases dark)]
  refine .next ?_
  rw [State.railEv_purse]
  show (s.purse.railOff.set r (some (max s.now t))).getD r none = _
  simp [List.getD_eq_getElem?_getD, h]

theorem State.bus_onBus {s : State} {b : Nat} (h : b < s.purse.buses.length) (f : Bus → Bus) : (s.onBus b f).bus b = f (s.bus b) :=
  nth_modify_same h f

theorem State.bus_of_purse {s t : State} (e : t.purse = s.purse) (b : Nat) : t.bus b = s.bus b :=
  congrArg (fun p : Purse => nth p.buses b) e

theorem execBusEnergy_judges {s : State} {b : Nat} (four : b < 4) (h : b < s.purse.buses.length) (read : s.nat BUS.ain b ≠ 0) (t : Nat) :
    Answers (fun u =>
      ((nth s.ain (s.nat BUS.ain b - 1)).sat = true → (s.bus b).susp = false → (u.bus b).susp = true ∧ (u.bus b).e = 0) ∧
      ((nth s.ain (s.nat BUS.ain b - 1)).sat = false → s.nat BUS.low_n b ≤ (s.bus b).lowRun → (s.bus b).low = false →
        (u.bus b).low = true) ∧
      ((nth s.ain (s.nat BUS.ain b - 1)).sat = false → (s.bus b).lowRun < s.nat BUS.low_n b →
        s.nat BUS.low_n b ≤ (s.bus b).highRun → (s.bus b).high = false → (u.bus b).high = true)) (execBusEnergy t b s) := by
  unfold execBusEnergy
  extract_lets ticked i y ev low
  have hEv (cause : Nat) (x : State) : (ev cause x).bus b = x.bus b := State.bus_of_purse (State.raise_purse ..) b
  rw [if_neg (by rintro (high | none)
                 · omega
                 · exact read none)]
  refine .ite_of (fun bad => ?_) fun sound => .ite_of (fun short => ?_) fun level => .ite_of (fun over_ => ?_) fun calm => ?_
  · refine .next ⟨fun _ _ => ?_, fun good => ?_, fun good => ?_⟩
    · rw [hEv, State.bus_onBus (s := ticked) h]
      exact ⟨rfl, rfl⟩
    all_goals exact absurd (show (nth s.ain (s.nat BUS.ain b - 1)).sat = true from bad.1) (by rw [good]; simp)
  · refine .next ⟨fun bad fresh => ?_, fun _ _ _ => ?_, fun _ calm => ?_⟩
    · exact absurd ⟨bad, by rw [show y.susp = false from fresh]; rfl⟩ sound
    · have stopped := foldl_fixes (g := State.purse) (fun (x : State) a => (State.orderSs1_keeps a 0xE8 x).get .purse rfl)
        ((List.range 12).filter (fun a => bit (low.nat BUS.axes b) a)) low
      rw [State.bus_of_purse stopped]
      show ((ev 0 _).bus b).low = true
      rw [hEv, State.bus_onBus (s := ticked) h]
    · exact absurd short.1 (Nat.not_le.mpr calm)
  · refine .next ⟨fun bad fresh => ?_, fun _ run first => ?_, fun _ _ _ _ => ?_⟩
    · exact absurd ⟨bad, by rw [show y.susp = false from fresh]; rfl⟩ sound
    · exact absurd ⟨run, by rw [show y.low = false from first]; rfl⟩ level
    · rw [hEv, State.bus_onBus (s := ticked) h]
  · refine .next ⟨fun bad fresh => ?_, fun _ run first => ?_, fun _ _ run first => ?_⟩
    · exact absurd ⟨bad, by rw [show y.susp = false from fresh]; rfl⟩ sound
    · exact absurd ⟨run, by rw [show y.low = false from first]; rfl⟩ level
    · exact absurd ⟨run, by rw [show y.high = false from first]; rfl⟩ calm

/-- A bus takes the offers of its slices once, and none of another bus. -/
theorem State.takeEnergy_bus {s : State} {share unit b : Nat} (four : b < 4) (h : b < s.purse.buses.length) (other : unit ≠ s.unitId)
    (read : s.nat BUS.ain b ≠ 0) (shares : s.flag BUS.flags 1 b = true) (same : s.nat BUS.share_id b = share) (z : Nat)
    (inc : List (Int × Int)) :
    (s.takeEnergy share unit z inc).bus b =
      inc.zipIdx.foldl (fun (x : Bus) i => x.add ((z : Int) + i.2, i.1.1, i.1.2)) (s.bus b) := by
  unfold State.takeEnergy
  rw [if_neg other]
  refine eachIx_at (P := fun x => x.bus b = s.bus b ∧ x.cfg = s.cfg ∧ b < x.purse.buses.length)
    (Q := fun x => x.bus b = inc.zipIdx.foldl (fun (x : Bus) i => x.add ((z : Int) + i.2, i.1.1, i.1.2)) (s.bus b)) four
    ⟨rfl, rfl, h⟩ (fun i x ne hx => ?_) (fun x hx => ?_) (fun i x ne hx => ?_)
  · obtain ⟨bus, cfg, length⟩ := hx
    split
    · exact ⟨bus, cfg, length⟩
    · exact ⟨(nth_modify_ne x.purse.buses _ (Ne.symm ne)).trans bus, cfg, lt_of_lt_of_eq length (List.length_modify ..).symm⟩
  · obtain ⟨bus, cfg, length⟩ := hx
    have setup : ¬ (x.nat BUS.ain b = 0 ∨ !x.flag BUS.flags 1 b ∨ x.nat BUS.share_id b ≠ share) := by
      have nat (f : Field) : x.nat f b = s.nat f b := by
        unfold State.nat State.int
        rw [cfg]
      have flag : x.flag BUS.flags 1 b = s.flag BUS.flags 1 b := by
        unfold State.flag State.nat State.int
        rw [cfg]
      simp [nat, flag, read, shares, same]
    rw [if_neg setup, State.bus_onBus length, bus]
  · split
    · exact hx
    · exact (nth_modify_ne x.purse.buses _ (Ne.symm ne)).trans hx

theorem execEnergyOffer_enters {s : State} {share unit b : Nat} (four : b < 4) (h : b < s.purse.buses.length) (other : unit ≠ s.unitId)
    (read : s.nat BUS.ain b ≠ 0) (shares : s.flag BUS.flags 1 b = true) (same : s.nat BUS.share_id b = share) (t z : Nat)
    (inc : List (Int × Int)) :
    Answers (fun u => u.bus b = inc.zipIdx.foldl (fun (x : Bus) i => x.add ((z : Int) + i.2, i.1.1, i.1.2)) (s.bus b))
      (execEnergyOffer t share unit z inc s) := by
  exact .next (State.takeEnergy_bus (s := s.tick t) four h other read shares same z inc)

/-- Settles O47: a rail and a bus are judged by what is held of them; an offer enters the buses that share it. -/
theorem railsAndBuses : Obligations.RailsAndBuses :=
  ⟨fun s t m5 m12 => execSensorSupply_limits t m5 m12 s,
   fun _ t _ two h on => execRailLow_off two h on t,
   fun _ t _ four h read => execBusEnergy_judges four h read t,
   fun _ t _ _ z _ inc four h other read shares same => execEnergyOffer_enters four h other read shares same t z inc⟩

/-! ## Sprint (R33, R34, R561, R563) -/

theorem execSprintClockRise_rises {s : State} {t : Nat} (sprint : s.purse.sprint = true) (supply : s.clk.supplyRaised = true)
    (slow : s.clk.stage500 = false) (boundary : max s.now t = s.stage.openedAt) (late : s.purse.sprintAt + 40000 ≤ max s.now t) :
    Answers (fun u => u.clk = { s.clk with stage500 := true } ∧ u.purse = s.purse) (execSprintClockRise t s) := by
  unfold execSprintClockRise
  extract_lets _ ticked
  rw [if_pos ⟨State.atBoundary_of boundary, sprint, supply, by rw [show ticked.clk.stage500 = false from slow]; rfl, late⟩]
  exact .next ⟨rfl, rfl⟩

theorem execSprintClockRise_waits {s : State} {t : Nat}
    (early : max s.now t ≠ s.stage.openedAt ∨ max s.now t < s.purse.sprintAt + 40000) :
    Answers (fun u => u.clk = s.clk ∧ u.purse = s.purse) (execSprintClockRise t s) := by
  unfold execSprintClockRise
  extract_lets ticked
  refine .ite_of (fun due => ?_) fun _ => .next ⟨rfl, rfl⟩
  obtain ⟨boundary, _, _, _, late⟩ := due
  rcases early with off | soon
  · exact absurd (beq_iff_eq.mp boundary) off
  · exact absurd late (Nat.not_le.mpr soon)

theorem execSprintRequestLapse_lapses {s : State} (asked : s.purse.sprintReq = true)
    (absent : s.nat PURSE.sprint_hold ≤ s.purse.sprintAbsent) (t : Nat) :
    Answers (fun u => u.purse = { s.purse with sprintReq := false } ∧ u.clk = s.clk) (execSprintRequestLapse t s) := by
  unfold execSprintRequestLapse
  extract_lets ticked
  rw [if_pos ⟨asked, absent⟩]
  exact .next ⟨rfl, rfl⟩

/-- Settles O48: the clock rises at a boundary 100 µs after the grant and under no other condition. -/
theorem sprintClock : Obligations.SprintClock :=
  ⟨fun _ _ sprint supply slow => ⟨fun boundary late => execSprintClockRise_rises sprint supply slow boundary late,
      fun early => execSprintClockRise_waits early⟩,
   fun _ t asked absent => execSprintRequestLapse_lapses asked absent t⟩

/-! ## Heat (R565, R567, R568) -/

theorem Purse.hottest_below (p : Purse) : p.hottest < 3 := by
  unfold Purse.hottest
  grind

theorem Purse.dieT_le_hottest (p : Purse) {k : Nat} (h : k < 3) : p.dieT k ≤ p.dieT p.hottest := by
  have three : k = 0 ∨ k = 1 ∨ k = 2 := by omega
  unfold Purse.hottest
  rcases three with rfl | rfl | rfl <;> grind

/-- What a sample of the temperatures shows: Tj is the greatest of the dies', the level at least its own and the one before. -/
structure ThermalOf (p q : Purse) : Prop where
  dieTemps : q.dieTemps = p.dieTemps
  plus8 : q.plus8 = p.plus8
  temps : q.temps = p.temps
  tj : q.tj = p.dieT p.hottest
  level : q.level = max p.level (levelAt q.tj)

theorem State.thermal_of (s : State) : ThermalOf s.purse s.thermal.purse := by
  unfold State.thermal
  extract_lets p tj cool up judged
  have h : ThermalOf p judged.purse := ⟨rfl, rfl, rfl, rfl, rfl⟩
  split
  · obtain ⟨n, e⟩ := (judged.thermalEv up 0 p.hottest).tiers_purse
    rw [e, show (judged.thermalEv up 0 p.hottest).purse = judged.purse from State.raise_purse ..]
    exact ⟨rfl, rfl, rfl, rfl, rfl⟩
  · exact h

theorem ThermalOf.dieT {p q : Purse} (h : ThermalOf p q) (k : Nat) : q.dieT k = p.dieT k := by
  unfold Purse.dieT
  rw [h.dieTemps, h.plus8]

theorem ThermalOf.dieT_le {p q : Purse} (h : ThermalOf p q) {k : Nat} (three : k < 3) : q.dieT k ≤ q.tj := by
  rw [h.dieT, h.tj]
  exact p.dieT_le_hottest three

theorem execThermalSample_samples (t : Nat) (l : List (Int × Int)) (s : State) :
    Answers (fun u => u.purse.dieTemps = (List.range 3).map (fun k => nth l k) ∧ (∀ k, k < 3 → u.purse.dieT k ≤ u.purse.tj) ∧
      (∃ k, k < 3 ∧ u.purse.tj = u.purse.dieT k) ∧ u.purse.temps.head? = some u.purse.tj ∧ s.purse.level ≤ u.purse.level ∧
      levelAt u.purse.tj ≤ u.purse.level) (execThermalSample t l s) := by
  unfold execThermalSample
  extract_lets ticked apart sampled heated old
  have h : ThermalOf sampled.purse heated.purse := State.thermal_of sampled
  clear_value old
  split
  next slope after eq =>
  have same : after.purse = heated.purse := by
    split at eq
    · cases eq
      rfl
    · rw [← (Prod.mk.inj eq).2]
  extract_lets kept
  have hk : ThermalOf sampled.purse after.purse := same.symm ▸ h
  have three {k : Nat} (below : k < 3) : after.purse.dieT k ≤ after.purse.tj := hk.dieT_le below
  refine .next ⟨hk.dieTemps, fun k below => three below, ⟨sampled.purse.hottest, Purse.hottest_below _, ?_⟩, rfl, ?_, ?_⟩
  · exact hk.tj.trans (hk.dieT _).symm
  · show s.purse.level ≤ after.purse.level
    rw [hk.level]
    exact Nat.le_max_left ..
  · show levelAt after.purse.tj ≤ after.purse.level
    rw [hk.level]
    exact Nat.le_max_right ..

theorem execThermalCool_cools {s : State} {t k v : Nat} (low : 1 ≤ k) (high : k ≤ 3) (level : s.purse.level = k)
    (since : s.purse.coolSince.getD (k - 1) none = some v) (late : v + msCycles (s.nat PURSE.cool) ≤ max s.now t) :
    Answers (fun u => u.purse.level < k ∧ u.purse.tj = s.purse.tj) (execThermalCool t s) := by
  unfold execThermalCool
  extract_lets ticked p done n
  have hDone : done k = true := by
    unfold done
    rw [show p.coolSince.getD (k - 1) none = some v from since]
    exact decide_eq_true late
  have hLevel : p.level = k := level
  have below : n < k := by
    unfold n
    rw [hLevel]
    have three : k = 1 ∨ k = 2 ∨ k = 3 := by omega
    rcases three with rfl | rfl | rfl <;> simp only [hDone] <;> grind
  rw [if_neg (by omega)]
  refine .next ?_
  rw [show ((ticked.onPurse fun p => { p with level := n }).thermalEv 0 0 p.hottest).purse = _ from State.raise_purse ..]
  exact ⟨below, rfl⟩

theorem execSensorDisagreement_marks {s : State} {t d v : Nat} (three : d < 3) (h : d < s.purse.plus8.length)
    (since : s.purse.disSince.getD d none = some v) (late : v + 400000000 ≤ max s.now t) (first : s.purse.plus8.getD d false = false) :
    Answers (fun u => u.purse.plus8.getD d false = true ∧ u.purse.dieT d ≤ u.purse.tj) (execSensorDisagreement t d s) := by
  unfold execSensorDisagreement
  extract_lets ticked
  rw [show ticked.purse.disSince.getD d none = some v from since]
  dsimp -zeta only
  rw [if_pos ⟨late, by rw [show ticked.purse.plus8.getD d false = false from first]; rfl⟩]
  have hot := State.thermal_of (ticked.onPurse fun p => { p with plus8 := p.plus8.set d true })
  refine .next ?_
  rw [show (State.thermalEv _ 1 d (ticked.onPurse fun p => { p with plus8 := p.plus8.set d true }).thermal).purse = _ from
    State.raise_purse ..]
  refine ⟨?_, hot.dieT_le three⟩
  rw [hot.plus8]
  show (s.purse.plus8.set d true).getD d false = true
  simp [List.getD_eq_getElem?_getD, h]

/-- Settles O49: Tj is that of the hottest die, whose 8 K are marked before it is sought. -/
theorem thermalLimits : Obligations.ThermalLimits :=
  ⟨fun s t l => execThermalSample_samples t l s,
   fun _ _ _ _ low high level since late => execThermalCool_cools low high level since late,
   fun _ _ _ _ three h since late first => execSensorDisagreement_marks three h since late first⟩

end Sys2Proof.Machine

namespace Sys2Proof.Machine

/-! # The Ledger, ageing and the hold-up test (chapters 15 and 16) -/

/-! ## What an occurrence leaves of the Ledger's flash

An event is recorded in the buffer; the flash, its regions and its state are left to the page that is programmed. -/

/-- The flash of the Ledger: its slots, what is used of each region, and the voids. -/
def State.store (s : State) : List (Nat × LedSlot) × Nat × Nat × Nat := (s.led.slots, s.led.ordUsed, s.led.resUsed, s.led.voids)

/-- The flash of the Ledger and the state of the Ledger. -/
def State.flash (s : State) : (List (Nat × LedSlot) × Nat × Nat × Nat) × LedState := (s.store, s.led.state)

theorem Fixes.store {s t : State} (h : Fixes State.flash s t) : Fixes State.store s t := ⟨congrArg Prod.fst h.eq⟩

theorem State.beginFlush_flash (s : State) : Fixes State.flash s s.beginFlush := .ite (.refl s) ⟨rfl⟩

theorem State.flushDecide_flash (sev : Nat) (s : State) : Fixes State.flash s (s.flushDecide sev) :=
  .ite (State.beginFlush_flash s) (.refl s)

theorem State.enterRec_flash (r : LedRec) (s : State) : Fixes State.flash s (s.enterRec r) := by
  unfold State.enterRec
  extract_lets r' b _ entered
  have h : Fixes State.flash s entered := ⟨rfl⟩
  exact h.trans (State.flushDecide_flash ..)

theorem State.ledTake_flash (o : Occ) (s : State) : Fixes State.flash s (s.ledTake o) :=
  .ite ⟨rfl⟩ (.ite ⟨rfl⟩ (.ite (.ite (State.enterRec_flash ..) (.ite ⟨rfl⟩ ⟨rfl⟩)) (.ite ⟨rfl⟩ (State.enterRec_flash ..))))

theorem State.fabTake_flash (o : Occ) (kept : Option Nat) (s : State) : Fixes State.flash s (s.fabTake o kept) := .ite ⟨rfl⟩ ⟨rfl⟩

theorem State.nevtTake_flash (code : Nat) (s : State) : Fixes State.flash s (s.nevtTake code) := .ite (.refl s) ⟨rfl⟩

theorem State.raise_flash (code : Nat) (pl : List Octet) (v : Nat) (s : State) : Fixes State.flash s (s.raise code pl v) := by
  unfold State.raise
  extract_lets sv o ledger counted before
  split
  next led fab nevt _ =>
  extract_lets taken kept sent
  have hCounted : Fixes State.flash s counted := ⟨rfl⟩
  have hTaken : Fixes State.flash s taken := .ite (hCounted.trans (State.ledTake_flash ..)) hCounted
  have hSent : Fixes State.flash s sent := .ite (hTaken.trans (State.fabTake_flash ..)) hTaken
  exact .ite (hSent.trans (State.nevtTake_flash ..)) hSent

/-! ## Occurrences (R573, R591) -/

/-- The first record of an OPEN Ledger with room: it takes the next sequence number. -/
theorem State.ledTake_enters {s : State} {o : Occ} (opened : s.led.state = .opened) (empty : s.led.buf = [])
    (noCnt : s.led.cnt = []) (room : 0 < s.ledL) (minor : o.sev < 4) : s.ledTake o = s.enterRec o.toRec := by
  have nNon : s.led.nNon = 0 := by rw [Led.nNon, empty, List.length_nil, Nat.zero_sub]
  unfold State.ledTake
  rw [if_neg, if_neg, if_neg (by omega), if_neg]
  · rw [noCnt, nNon]
    simpa using Nat.ne_of_gt room
  · unfold State.foldable
    simp [empty]
  · simp [opened]

/-- The numbers and the text of the buffer. -/
def State.entries (s : State) : Nat × List (Option Nat × Nat × Nat) :=
  (s.led.nextSeq, s.led.buf.map fun r => (r.seq, r.code, r.sev))

theorem State.beginFlush_entries (s : State) : Fixes State.entries s s.beginFlush := by
  refine .ite (.refl s) ⟨?_⟩
  unfold State.entries Led.beginPage
  simp only [List.map_append, List.map_map, Function.comp_def]
  rw [← List.map_append, List.take_append_drop]

theorem State.flushDecide_entries (sev : Nat) (s : State) : Fixes State.entries s (s.flushDecide sev) :=
  .ite (State.beginFlush_entries s) (.refl s)

theorem State.enterRec_entries (r : LedRec) (s : State) : (s.enterRec r).entries =
    (s.led.nextSeq + 1, (s.led.buf.map fun r => (r.seq, r.code, r.sev)) ++ [(some s.led.nextSeq, r.code, r.sev)]) := by
  unfold State.enterRec
  extract_lets r' b _ entered
  rw [(State.flushDecide_entries r'.sev entered).eq]
  show (_, List.map _ (s.led.buf ++ [r'])) = _
  rw [List.map_append]
  rfl

/-- What follows an occurrence `c` of severity `v`. -/
def Occurred (s : State) (c v : Nat) (u : State) : Prop :=
  u.led.raised = countUp s.led.raised c ∧
    (s.led.state = .opened → s.led.buf = [] → s.led.cnt = [] → 0 < s.ledL → v < 4 →
      u.entries = (s.led.nextSeq + 1, [(some s.led.nextSeq, c, v)]))

theorem execLedgerOccurrence_records {s : State} {c : Nat} (borne : codeBorne (c % 256) = true) (t v : Nat) (pl : List Octet) :
    Answers (Occurred s (c % 256) (max (s.sevOf (c % 256)) v)) (execLedgerOccurrence t c v pl s) := by
  unfold execLedgerOccurrence
  extract_lets ticked o
  rw [if_pos borne]
  refine .next ⟨State.ledTake_sameRaised .., fun opened empty noCnt room minor => ?_⟩
  have sev : o.sev = max (s.sevOf (c % 256)) v := by
    show min 4 (max (s.sevOf (c % 256)) v) = _
    omega
  rw [State.ledTake_enters (by exact opened) (by exact empty) (by exact noCnt) (by exact room) (by omega), State.enterRec_entries,
    show o.toRec.sev = o.sev from rfl, sev]
  show (s.led.nextSeq + 1, List.map _ s.led.buf ++ _) = _
  rw [empty]
  rfl

/-! ## Flushes (R586, R593) -/

theorem State.beginFlush_flushing {s : State} (some_ : s.led.buf ≠ []) : s.beginFlush.led.flushing = true := by
  unfold State.beginFlush
  split
  case isTrue h => exact h.resolve_right some_
  case isFalse => rfl

theorem execLedgerMaxAge_flushes {s : State} {t : Nat} {r : LedRec} {l : List LedRec} (buf : s.led.buf = r :: l)
    (old : r.life + s.nat LEDGER.max_age * 1000000000 ≤ (s.tick t).life) :
    Answers (fun u => u.led.flushing = true) (execLedgerMaxAge t s) := by
  unfold execLedgerMaxAge
  extract_lets ticked
  have buf' : ticked.led.buf = r :: l := buf
  rw [buf']
  dsimp -zeta only
  rw [if_pos (show r.life + ticked.nat LEDGER.max_age * 1000000000 ≤ ticked.life from old)]
  exact .next (State.beginFlush_flushing (by rw [buf']; exact List.cons_ne_nil r l))

theorem execFlushBit_flushes {s : State} {v : Nat} (one : bit v 1 = true) (some_ : s.led.buf ≠ []) (t : Nat) :
    Answers (fun u => u.led.flushing = true) (execFlushBit t v s) := by
  unfold execFlushBit
  rw [if_pos one]
  exact .next (State.beginFlush_flushing (s := s.tick t) some_)

theorem State.beginFlush_replies (s : State) : s.beginFlush.replies = s.replies := by
  unfold State.beginFlush
  split <;> rfl

/-- What follows FLUSH. -/
structure Flushed (s : State) (src id : Nat) (u : State) : Prop where
  flushing : s.led.buf ≠ [] → u.led.flushing = true
  replies : u.replies = s.replies ++ [{ src := src, id := id, code := 0, detail := 0 }]

theorem execFlush_flushes {s : State} {src id : Nat} (fresh : s.keptFor src id = none) (t : Nat) :
    Answers (Flushed s src id) (execFlush t src id s) := by
  unfold execFlush
  rw [State.mbRow_fresh fresh]
  generalize hx : (s.tick t).noteTaken _ _ _ = x
  have buf : x.led.buf = s.led.buf := by rw [← hx]; rfl
  have replies : x.replies = s.replies := by rw [← hx]; rfl
  refine .next ⟨fun some_ => State.beginFlush_flushing (buf ▸ some_), ?_⟩
  show x.beginFlush.replies ++ _ = _
  rw [State.beginFlush_replies, replies]

/-! ## Pages (R592) -/

theorem State.dropRecs_flash (l : List LedRec) (c : List SumCnt) (s : State) : Fixes State.flash s (s.dropRecs l c) := by
  unfold State.dropRecs
  refine (Fixes.foldl ?_ l s).trans (Fixes.foldl ?_ c _) <;> exact fun _ _ => ⟨rfl⟩

theorem State.toReserve_store (s : State) : Fixes State.store s s.toReserve := by
  unfold State.toReserve
  extract_lets keep gone dropped reserve full
  have hDropped : Fixes State.store s dropped := (State.dropRecs_flash ..).store
  have hReserve : Fixes State.store dropped reserve := ⟨rfl⟩
  have hFull : Fixes State.store reserve full := (State.raise_flash ..).store
  exact ((hDropped.trans hReserve).trans hFull).trans ⟨rfl⟩

theorem State.flushEnd_store (s : State) : Fixes State.store s s.flushEnd := ⟨rfl⟩

theorem State.resetEnd_store (s : State) : Fixes State.store s s.resetEnd := .ite ⟨rfl⟩ (.refl s)

/-- A slot that becomes void is counted. -/
theorem State.voidSlot_flash (slot : Nat) (s : State) : (s.voidSlot slot).flash =
    ((s.led.slots, s.led.ordUsed, s.led.resUsed, s.led.voids + 1), s.led.state) := (State.raise_flash ..).eq

theorem State.voidSlots_flash {α : Type} (f : α → Nat) (l : List α) (s : State) :
    (l.foldl (fun s x => s.voidSlot (f x)) s).flash =
      ((s.led.slots, s.led.ordUsed, s.led.resUsed, s.led.voids + l.length), s.led.state) := by
  induction l generalizing s with
  | nil => rfl
  | cons x l ih =>
    have h : (s.voidSlot (f x)).flash = _ := State.voidSlot_flash ..
    simp only [State.flash, State.store, Prod.mk.injEq] at h
    obtain ⟨⟨slots, ord, res, voids⟩, state⟩ := h
    rw [List.foldl_cons, ih, slots, ord, res, voids, state, List.length_cons, Nat.add_right_comm, Nat.add_assoc]

theorem zipIdx_filter_length {α : Type} (p : Nat → Bool) (l : List α) (n : Nat) :
    ((l.zipIdx n).filter fun x => p x.2).length = ((List.range' n l.length).filter p).length := by
  induction l generalizing n with
  | nil => rfl
  | cons x l ih =>
    rw [List.zipIdx_cons, List.length_cons, List.range'_succ, List.filter_cons, List.filter_cons]
    split <;> simp [ih]

/-- What follows the programming of the page `p` with the slots `bad` failed. -/
structure Programmed (s : State) (p : List LedRec) (bad : List Nat) (u : State) : Prop where
  ordUsed : u.led.ordUsed = s.led.ordUsed + p.length
  slots : u.led.slots.length = s.led.slots.length + p.length
  voids : u.led.voids = s.led.voids + ((List.range p.length).filter (fun k => bad.contains k)).length

theorem execPageProgrammed_programs {s : State} {p : List LedRec} (flushing : s.led.flushing = true)
    (page : p = s.led.buf.takeWhile (·.begun)) (some_ : p ≠ []) (opened : s.led.state = .opened) (t : Nat) (bad : List Nat) :
    Answers (Programmed s p bad) (execPageProgrammed t bad s) := by
  unfold execPageProgrammed
  extract_lets ticked p' ord base n ix failed slots again written headed voided filled
  rw [if_neg (by
    rintro (idle | none_)
    · have busy : ticked.led.flushing = true := flushing
      simp [busy] at idle
    · exact some_ (page.trans none_))]
  have p'_eq : p' = p := page.symm
  have isOrd : ord = true := beq_iff_eq.mpr opened
  have failed_length : failed.length = ((List.range p.length).filter fun k => bad.contains k).length := by
    rw [List.range_eq_range', ← p'_eq]
    exact zipIdx_filter_length (fun k => bad.contains k) p' 0
  have hWritten : headed.flash = ((s.led.slots ++ slots, s.led.ordUsed + n, s.led.resUsed, s.led.voids), .opened) := by
    show ((_, if ord = true then _ else _, if ord = true then _ else _, _), s.led.state) = _
    rw [if_pos isOrd, if_pos isOrd, opened]
    rfl
  have hVoided : voided.flash = ((s.led.slots ++ slots, s.led.ordUsed + n, s.led.resUsed, s.led.voids + failed.length), .opened) := by
    simp only [State.flash, State.store, Prod.mk.injEq] at hWritten
    obtain ⟨⟨hSlots, hOrd, hRes, hVoids⟩, hState⟩ := hWritten
    refine (State.voidSlots_flash (fun x : LedRec × Nat => base + x.2) failed headed).trans ?_
    rw [hSlots, hOrd, hRes, hVoids, hState]
  have hFilled : Fixes State.store voided filled := by
    refine .ite (State.toReserve_store voided) ?_
    rw [if_neg]
    · exact .refl voided
    · rintro ⟨reserve, -⟩
      have stillOpen : voided.led.state = .opened := congrArg Prod.snd hVoided
      exact absurd (reserve.symm.trans stillOpen) (by decide)
  clear_value filled
  have hEnd : Fixes State.store filled
      (if filled.led.buf = [] then filled.flushEnd.resetEnd else filled.onLed fun l => l.beginPage) :=
    .ite ((State.flushEnd_store filled).trans (State.resetEnd_store _)) ⟨rfl⟩
  have stored := (hFilled.trans hEnd).eq.trans (congrArg Prod.fst hVoided)
  simp only [State.store, Prod.mk.injEq] at stored
  obtain ⟨slots_eq, ord_eq, -, voids_eq⟩ := stored
  refine .next ⟨?_, ?_, ?_⟩
  · rw [ord_eq, ← p'_eq]
  · rw [slots_eq, List.length_append, List.length_map, List.length_zipIdx, p'_eq]
  · rw [voids_eq, failed_length]

/-! ## nEVT (R601, R602) -/

theorem execNevtAck_acks (s : State) {v : Nat} (one : bit v 0 = true) (t : Nat) :
    Answers (fun u => u.led.nevtLow = false ∧ u.led.nevtFresh = true) (execNevtAck t v s) := by
  unfold execNevtAck
  rw [if_pos one]
  exact .next ⟨rfl, rfl⟩

/-- Settles O51: the first record of an OPEN Ledger takes the next number; a flush only marks the page that has begun, and of a
programmed page the slots are appended, each failed one a void. -/
theorem ledgerRecords : Obligations.LedgerRecords := by
  refine ⟨fun s t c v pl borne => ?_, fun s t r l buf old => execLedgerMaxAge_flushes buf old,
    fun s t bad p flushing page some_ opened => ?_, fun s t v one some_ => execFlushBit_flushes one some_ t,
    fun s t src id fresh => ?_, fun s t v one => execNevtAck_acks s one t, fun s t mode low past => ?_⟩
  · obtain ⟨u, h, raised, enters⟩ := execLedgerOccurrence_records borne t v pl
    exact ⟨u, h, raised, fun opened empty noCnt room minor => Prod.mk.inj (enters opened empty noCnt room minor)⟩
  · obtain ⟨u, h, r⟩ := execPageProgrammed_programs flushing page some_ opened t bad
    exact ⟨u, h, r.ordUsed, r.slots, r.voids⟩
  · obtain ⟨u, h, r⟩ := execFlush_flushes fresh t
    exact ⟨u, h, r.flushing, r.replies⟩
  · obtain ⟨u, h, r⟩ := execNevtPulseEnd_low mode low t
    exact ⟨u, h, r.trans (decide_eq_false (Nat.not_lt.mpr past))⟩

end Sys2Proof.Machine

namespace Sys2Proof.Machine

/-! # The aperture, the life clock, WRITE, ageing and the hold-up test -/

/-! ## The aperture (R599) -/

theorem execApertureFill_answers {s : State} {t v : Nat} (boundary : max s.now t = s.stage.openedAt)
    (asked : s.led.readAt = some v) (ripe : v + 40000 ≤ max s.now t) :
    Answers (fun u => u.led.readAt = none ∧ u.led.aperture.length ≤ 8 ∧
      ∀ r ∈ u.led.aperture, ∃ k, k < 8 ∧ r.seq = some (s.led.readFrom + k)) (execApertureFill t s) := by
  unfold execApertureFill
  extract_lets ticked all l
  rw [show ticked.led.readAt = some v from asked]
  dsimp -zeta only
  have ripe' : ¬ ticked.now < v + 40000 := Nat.not_lt.mpr ripe
  rw [if_neg (by rw [State.atBoundary_of boundary]; simpa using ripe')]
  refine .next ⟨rfl, ?_, fun r mem => ?_⟩
  · show (l.map _).length ≤ 8
    rw [List.length_map]
    exact List.length_filterMap_le ..
  · obtain ⟨x, xIn, rfl⟩ := List.mem_map.mp mem
    obtain ⟨k, kIn, found⟩ := List.mem_filterMap.mp xIn
    exact ⟨k, List.mem_range.mp kIn, beq_iff_eq.mp (List.find?_some (p := fun x : LedRec × Bool => x.1.seq == some (s.led.readFrom + k)) found)⟩

/-! ## The life clock (R583, R584) -/

theorem execRtcTick_counts {s : State} (sound : s.clk.rtcFault = false) (t : Nat) :
    Answers (fun u => u.led.life64 = s.led.life64 + 1953125 ∧ u.led.tickAt = max s.now t) (execRtcTick t s) := by
  unfold execRtcTick
  extract_lets ticked
  rw [if_neg (by rw [show ticked.clk.rtcFault = false from sound]; decide)]
  exact .next ⟨rfl, rfl⟩

theorem execLifeClockPersist_persists {s : State} {t : Nat} (hour : s.led.lifePersist + 3600000000000 ≤ (s.tick t).life) :
    Answers (fun u => u.led.lifePersist = (s.tick t).life) (execLifeClockPersist t s) := by
  unfold execLifeClockPersist
  extract_lets ticked
  rw [if_pos (show ticked.led.lifePersist + 3600000000000 ≤ ticked.life from hour)]
  exact .next rfl

/-! ## CLR_RESP and WRITE (R735) -/

/-- Every greatest response is zero, and the dispatcher's queue is as it was. -/
structure Cleared (s u : State) : Prop where
  zero : ∀ x ∈ u.disp.tasks, x.respMax = 0
  queue : u.disp.queue = s.disp.queue

theorem map_respMax_zero (l : List TaskRun) : ∀ x ∈ l.map (fun r => { r with respMax := 0 }), x.respMax = 0 := by
  intro x mem
  obtain ⟨r, -, rfl⟩ := List.mem_map.mp mem
  rfl

theorem execClrResp_clears (s : State) {v : Nat} (one : bit v 0 = true) (t : Nat) : Answers (Cleared s) (execClrResp t v s) := by
  unfold execClrResp
  extract_lets ticked
  rw [if_pos one]
  exact .next ⟨map_respMax_zero _, rfl⟩

/-- What follows a WRITE of `v`, `w` octets wide, to `addr`. -/
structure Written (s : State) (src id addr w v : Nat) (u : State) : Prop where
  resp : addr = 0x10004 → w = 4 → bit v 0 = true → ∀ x ∈ u.disp.tasks, x.respMax = 0
  nevt : addr = 0x32004 → w = 4 → bit v 0 = true → u.led.nevtLow = false
  aperture : addr = 0x32050 → w = 8 → u.led.readFrom = v % 2 ^ 64
  taken : (addr = 0x10004 ∧ w = 4) ∨ (addr = 0x32004 ∧ w = 4) ∨ (addr = 0x32050 ∧ w = 8) →
    u.replies = s.replies ++ [{ src := src, id := id, code := 0, detail := 0 }]
  refused : addr ≠ 0x10004 → addr ≠ 0x32004 → addr ≠ 0x32050 →
    u.replies = s.replies ++ [{ src := src, id := id, code := 5, detail := 0 }] ∧ u.led = s.led ∧ u.disp = s.disp

theorem State.beginFlush_nevtLow (s : State) : s.beginFlush.led.nevtLow = s.led.nevtLow := by
  unfold State.beginFlush
  split <;> rfl

theorem State.takeWrite_writes (src id addr w v : Nat) (s : State) :
    Written s src id addr w v (s.takeWrite { src := 2, mbSrc := src, mbId := some id } addr w v) := by
  unfold State.takeWrite
  extract_lets clr acked
  split
  next h =>
    obtain ⟨rfl, rfl⟩ := h
    refine ⟨fun _ _ one => ?_, nofun, nofun, fun _ => ?_, fun ne => absurd rfl ne⟩
    · rw [if_pos one]
      exact map_respMax_zero _
    · split <;> rfl
  next ne₁ =>
    split
    next h =>
      obtain ⟨rfl, rfl⟩ := h
      have acked_replies : acked.replies = s.replies := by unfold acked; split <;> rfl
      refine ⟨nofun, fun _ _ one => ?_, nofun, fun _ => ?_, fun _ ne => absurd rfl ne⟩
      · have low : acked.led.nevtLow = false := by
          unfold acked
          rw [if_pos one]
          rfl
        show (if _ then _ else _ : State).led.nevtLow = false
        split
        · rw [State.beginFlush_nevtLow, low]
        · exact low
      · refine congrArg (· ++ _) ?_
        split
        · rw [State.beginFlush_replies, acked_replies]
        · exact acked_replies
    next ne₂ =>
      split
      next h =>
        obtain ⟨rfl, rfl⟩ := h
        exact ⟨nofun, nofun, fun _ _ => rfl, fun _ => rfl, fun _ _ ne => absurd rfl ne⟩
      next ne₃ =>
        exact ⟨fun a b => absurd ⟨a, b⟩ ne₁, fun a b => absurd ⟨a, b⟩ ne₂, fun a b => absurd ⟨a, b⟩ ne₃,
          (absurd · (not_or.mpr ⟨ne₁, not_or.mpr ⟨ne₂, ne₃⟩⟩)), fun _ _ _ => ⟨rfl, rfl, rfl⟩⟩

theorem execWrite_writes {s : State} {src id : Nat} (fresh : s.keptFor src id = none) (t addr w v : Nat) :
    Answers (Written s src id addr w v) (execWrite t src id addr w v s) := by
  unfold execWrite
  rw [State.mbRow_fresh fresh]
  obtain ⟨resp, nevt, aperture, taken, refused⟩ :=
    State.takeWrite_writes src id addr w v ((s.tick t).noteTaken src id (.write addr w v))
  exact .next ⟨resp, nevt, aperture, taken, refused⟩

/-- Settles O52: each row reads or writes the fields it names; an address with another width is left to the clauses above it. -/
theorem ledgerReadsAndClock : Obligations.LedgerReadsAndClock := by
  refine ⟨fun s t q => ⟨_, rfl, rfl, rfl⟩, fun s t v boundary asked ripe => execApertureFill_answers boundary asked ripe,
    fun s t sound => execRtcTick_counts sound t, fun s t hour => execLifeClockPersist_persists hour, fun s t v one => ?_,
    fun s t src id addr w v fresh => ?_⟩
  · obtain ⟨u, h, r⟩ := execClrResp_clears s one t
    exact ⟨u, h, r.zero, r.queue⟩
  · obtain ⟨u, h, r⟩ := execWrite_writes fresh t addr w v
    exact ⟨u, h, r.resp, r.nevt, r.aperture, r.taken, r.refused⟩

/-! ## Ageing (R608) -/

/-- The delays lost, and when they were measured. -/
def State.aged (s : State) : List Int × Option Nat := (s.stw.pairD, s.stw.agedAt)

theorem State.ageingEv_aged (die cause pair sev : Nat) (s : State) : Fixes State.aged s (s.ageingEv die cause pair sev) :=
  ⟨by unfold State.aged State.ageingEv; rw [State.raise_stw]⟩

theorem State.ageDie_aged (die first n least : Nat) (s : State) : Fixes State.aged s (s.ageDie die first n least) := by
  unfold State.ageDie
  extract_lets l m ok good counted few was grown d told scarce drawn
  have hGrown : Fixes State.aged s grown := ⟨rfl⟩
  have hTold : Fixes State.aged grown told := .foldl (fun x _ => State.ageingEv_aged ..) _ grown
  have hScarce : Fixes State.aged told scarce := .ite (State.ageingEv_aged ..) (.refl told)
  have hDrawn : Fixes State.aged scarce drawn := .ite (State.ageingEv_aged ..) (.refl scarce)
  have upTo := ((hGrown.trans hTold).trans hScarce).trans hDrawn
  have hWarned : Fixes State.aged drawn (if was.vreq ≤ was.vmax then drawn.ageingEv die 4 0xFF 4 else drawn) :=
    .ite (State.ageingEv_aged ..) (.refl drawn)
  exact .ite upTo ((upTo.trans hWarned).trans ⟨rfl⟩)

theorem State.ageAllowance_aged (s : State) : Fixes State.aged s s.ageAllowance := by
  unfold State.ageAllowance
  extract_lets d cap none_ cap' was bounded limited
  have hLimited : Fixes State.aged s limited := ⟨rfl⟩
  exact .ite (hLimited.trans (State.ageingEv_aged ..)) hLimited

/-- The delay lost of pair `k`, in parts in a million of the factory's. -/
def delayPpm (r0 : Nat) (x : Nat × Nat) : Int :=
  sat (1000000 * ((r0 : Int) - ((x.1 * 2 ^ 24 / x.2 : Nat) : Int)) / r0) 32

/-- The delay lost of a pair that was counted. -/
theorem State.delayLost_counted {k : Nat} {x : Nat × Nat} {s : State} (counted : x.2 ≠ 0) (factory : nth s.stw.r0 k ≠ 0) :
    s.delayLost k x = (delayPpm (nth s.stw.r0 k) x, s) := if_neg (not_or.mpr ⟨counted, factory⟩)

/-- What a pair's measurement leaves. -/
def State.ageBase (s : State) : Nat × List Nat × Nat := (s.life, s.stw.r0, s.stw.pairD.length)

/-- Measures the pair `k`. -/
def State.measurePair (n : List (Nat × Nat)) (k : Nat) (s : State) : State :=
  let (d, s) := s.delayLost k (nth n k)
  s.onStw (fun w => { w with pairD := w.pairD.set k d })

/-- A pair that was not counted draws an unspecified value, and no more. -/
theorem State.delayLost_drawn (k : Nat) (x : Nat × Nat) (s : State) : ∃ i, (s.delayLost k x).2 = { s with freeIx := i } := by
  by_cases h : x.2 = 0 ∨ nth s.stw.r0 k = 0
  · exact ⟨_, congrArg Prod.snd (if_pos h)⟩
  · exact ⟨_, congrArg Prod.snd (if_neg h)⟩

theorem State.delayLost_stw (k : Nat) (x : Nat × Nat) (s : State) : (s.delayLost k x).2.stw = s.stw := by
  obtain ⟨i, h⟩ := s.delayLost_drawn k x
  rw [h]

theorem State.measurePair_base (n : List (Nat × Nat)) (k : Nat) (s : State) : Fixes State.ageBase s (s.measurePair n k) := by
  obtain ⟨i, h⟩ := s.delayLost_drawn k (nth n k)
  constructor
  show ((s.delayLost k _).2.life, (s.delayLost k _).2.stw.r0, ((s.delayLost k _).2.stw.pairD.set k _).length) = _
  rw [List.length_set, h]
  rfl

/-- What the measurement of the counts `n` gives. -/
structure Aged (s : State) (n : List (Nat × Nat)) (u : State) : Prop where
  at_ : u.stw.agedAt = some s.life
  lost : ∀ k, k < 20 → k < s.stw.pairD.length → (nth n k).2 ≠ 0 → nth s.stw.r0 k ≠ 0 →
    nth u.stw.pairD k = delayPpm (nth s.stw.r0 k) (nth n k)

/-- The twenty pairs measured, and the time of it. -/
def State.measurePairs (n : List (Nat × Nat)) (s : State) : State :=
  let s := eachIx 20 (State.measurePair n) s
  s.onStw fun w => { w with pairsValid := 0, agedAt := some s.life }

theorem State.measureAgeing_eq (n : List (Nat × Nat)) (s : State) :
    s.measureAgeing n = (((s.measurePairs n).ageDie 0 0 16 12).ageDie 1 16 4 3).ageAllowance := rfl

theorem State.measureAgeing_aged (n : List (Nat × Nat)) (s : State) : (s.measureAgeing n).aged = (s.measurePairs n).aged := by
  rw [State.measureAgeing_eq, (State.ageAllowance_aged _).eq, (State.ageDie_aged ..).eq, (State.ageDie_aged ..).eq]

theorem State.measurePair_lost {n : List (Nat × Nat)} {k : Nat} {s : State} (h : k < s.stw.pairD.length) (counted : (nth n k).2 ≠ 0)
    (factory : nth s.stw.r0 k ≠ 0) : nth (s.measurePair n k).stw.pairD k = delayPpm (nth s.stw.r0 k) (nth n k) := by
  unfold State.measurePair
  rw [State.delayLost_counted counted factory]
  exact nth_set_same h _

theorem State.measurePair_other {n : List (Nat × Nat)} {i k : Nat} (ne : i ≠ k) (s : State) :
    nth (s.measurePair n i).stw.pairD k = nth s.stw.pairD k := by
  show nth ((s.delayLost i _).2.stw.pairD.set i _) k = _
  rw [nth_set_ne _ _ ne.symm, State.delayLost_stw]

theorem State.measurePairs_aged (n : List (Nat × Nat)) (s : State) : (s.measurePairs n).aged =
    ((eachIx 20 (State.measurePair n) s).stw.pairD, some (eachIx 20 (State.measurePair n) s).life) := by
  unfold State.measurePairs
  generalize eachIx 20 (State.measurePair n) s = x
  rfl

theorem State.measurePairs_lost (n : List (Nat × Nat)) (s : State) {k : Nat} (twenty : k < 20) (h : k < s.stw.pairD.length)
    (counted : (nth n k).2 ≠ 0) (factory : nth s.stw.r0 k ≠ 0) :
    nth (eachIx 20 (State.measurePair n) s).stw.pairD k = delayPpm (nth s.stw.r0 k) (nth n k) := by
  refine eachIx_at (P := fun x => x.ageBase = s.ageBase) (Q := fun x => nth x.stw.pairD k = delayPpm (nth s.stw.r0 k) (nth n k))
    twenty rfl (fun i x _ same => (State.measurePair_base n i x).eq.trans same) (fun x same => ?_)
    (fun i x ne lost => (State.measurePair_other ne x).trans lost)
  simp only [State.ageBase, Prod.mk.injEq] at same
  obtain ⟨-, r0, length⟩ := same
  rw [State.measurePair_lost (length ▸ h) counted (r0 ▸ factory), r0]

theorem State.measureAgeing_measures (n : List (Nat × Nat)) (s : State) : Aged s n (s.measureAgeing n) := by
  have aged := (State.measureAgeing_aged n s).trans (State.measurePairs_aged n s)
  simp only [State.aged, Prod.mk.injEq] at aged
  obtain ⟨pairD, agedAt⟩ := aged
  have base : Fixes State.ageBase s (eachIx 20 (State.measurePair n) s) := .eachIx (State.measurePair_base n) 20 s
  have lost {k : Nat} := State.measurePairs_lost n s (k := k)
  generalize eachIx 20 (State.measurePair n) s = x at pairD agedAt base lost
  refine ⟨?_, fun k twenty h counted factory => ?_⟩
  · rw [agedAt, show x.life = s.life from congrArg Prod.fst base.eq]
  · rw [pairD, lost twenty h counted factory]

theorem execAgeingMeasurement_measures {s : State} (first : s.stw.agedAt = none) (t : Nat) (n : List (Nat × Nat)) :
    Answers (Aged (s.tick t) n) (execAgeingMeasurement t n s) := by
  unfold execAgeingMeasurement
  extract_lets ticked
  rw [show ticked.stw.agedAt = none from first]
  exact .next (State.measureAgeing_measures n ticked)

/-! ## The core supply and the hold-up test (R607, R610, R612 to R615) -/

/-- What follows a core supply that is low. -/
structure CoreFault (u : State) : Prop where
  held : u.clk.motionHeld = true
  stopped : u.stage.running = false
  halt : u.mode.mode = 6

theorem execCoreSupplyLow_faults (t die : Nat) (s : State) : Answers CoreFault (execCoreSupplyLow t die s) :=
  .next ⟨by rw [State.clockFault_clk], State.clockFault_stopped _, State.clockFault_mode _⟩

/-- What follows HOLD_TEST. -/
structure TestAsked (s : State) (src id : Nat) (u : State) : Prop where
  due : u.stw.testDue = true
  told : u.replies = s.replies ++ [{ src := src, id := id, code := 7, detail := 0 }]

theorem execHoldTest_asks {s : State} {src id : Nat} (fresh : s.keptFor src id = none) (idle : s.stw.testFrom = none) (t : Nat) :
    Answers (TestAsked s src id) (execHoldTest t src id s) := by
  unfold execHoldTest
  rw [State.mbRow_fresh fresh]
  unfold State.takeHoldTest
  rw [if_neg (by rw [show ((s.tick t).noteTaken src id MbCmd.holdTest).stw.testFrom = none from idle]; decide)]
  exact .next ⟨rfl, rfl⟩

theorem execHoldTestDue_due {s : State} (idle : s.stw.testFrom = none) (noRetry : s.stw.testRetry = none)
    (never : s.stw.testLife = none) (t : Nat) : Answers (fun u => u.stw.testDue = true) (execHoldTestDue t s) := by
  unfold execHoldTestDue
  extract_lets ticked due
  have isDue : due = true := by
    unfold due
    rw [show ticked.stw.testRetry = none from noRetry, show ticked.stw.testLife = none from never]
  rw [if_pos (by rw [isDue, show ticked.stw.testFrom = none from idle]; rfl)]
  exact .next rfl

theorem execHoldTestStart_starts {s : State} {t v : Nat} (due : s.stw.testDue = true) (idle : s.stw.testFrom = none)
    (may : s.testMode = true) (since : s.stw.holdSince = some v) (boundary : max s.now t = s.stage.openedAt)
    (full : v + 4000000000 ≤ max s.now t) (granted : 0 < s.purse.grant) (fed : s.purse.lost = false) :
    Answers (fun u => u.stw.testFrom = some (max s.now t) ∧ u.stw.testDue = false) (execHoldTestStart t s) := by
  unfold execHoldTestStart
  extract_lets ticked full'
  have isFull : full' = true := by
    unfold full'
    rw [show ticked.stw.holdSince = some v from since]
    exact decide_eq_true full
  rw [if_pos (by
    rw [State.atBoundary_of boundary, show ticked.stw.testDue = true from due, show ticked.stw.testFrom = none from idle,
      show ticked.testMode = true from may, isFull, show ticked.purse.lost = false from fed]
    simpa using (show 0 < ticked.purse.grant from granted))]
  exact .next ⟨rfl, rfl⟩

/-- What a hold-up test leaves: the figures of the bank, and when the next is due. -/
def State.bank (s : State) : Nat × Nat × Option Nat × Option Nat := (s.purse.cap, s.purse.esr, s.stw.testFrom, s.stw.testRetry)

theorem State.holdupEv_bank (result c esr dt sev : Nat) (s : State) : Fixes State.bank s (s.holdupEv result c esr dt sev) :=
  ⟨by unfold State.bank State.holdupEv; rw [State.raise_purse, State.raise_stw]⟩

theorem execHoldTestEnd_passes {s : State} {us esr v : Nat} (running : s.stw.testFrom = some v) (inTime : us ≤ 1000000)
    (least : 100 ≤ us / 20) (most : us / 20 ≤ 12000) (low : esr ≤ 5000) (t : Nat) :
    Answers (fun u => u.bank = (us / 20, esr, none, none)) (execHoldTestEnd t esr (some us) s) := by
  unfold execHoldTestEnd
  extract_lets ticked us' c timed passed
  rw [if_neg (by rw [show ticked.stw.testFrom = some v from running]; exact Bool.false_ne_true),
    if_neg (by
      have us_eq : us' = us := rfl
      have c_eq : c = us / 20 := rfl
      rw [c_eq, us_eq]
      simp; omega)]
  refine .next ?_
  have hPassed : passed.bank = (us / 20, esr, none, none) := rfl
  exact (Fixes.ite (State.holdupEv_bank ..) (State.holdupEv_bank ..)).eq.trans hPassed

theorem execHoldTestEnd_repeats {s : State} {v : Nat} (running : s.stw.testFrom = some v) (t esr : Nat) :
    Answers (fun u => u.bank = (s.purse.cap, s.purse.esr, none, some ((s.tick t).life + 3600000000000))) (execHoldTestEnd t esr none s) := by
  unfold execHoldTestEnd
  extract_lets ticked us' c timed passed
  rw [if_neg (by rw [show ticked.stw.testFrom = some v from running]; exact Bool.false_ne_true), if_pos (.inl rfl)]
  exact .next (State.holdupEv_bank ..).eq

/-- Settles O53: each pair that is counted loses its own delay, as no later pair writes it; the events change neither the bank nor
the delays. -/
theorem ageingAndHoldUp : Obligations.AgeingAndHoldUp := by
  refine ⟨fun s t n first => ?_, fun s t die => ?_, fun s t src id fresh idle => ?_,
    fun s t idle noRetry never => execHoldTestDue_due idle noRetry never t,
    fun s t v due idle may since boundary full granted fed => execHoldTestStart_starts due idle may since boundary full granted fed,
    fun s t esr us v running inTime least most low => ?_, fun s t esr v running => ?_⟩
  · obtain ⟨u, h, r⟩ := execAgeingMeasurement_measures first t n
    exact ⟨u, h, r.at_, r.lost⟩
  · obtain ⟨u, h, r⟩ := execCoreSupplyLow_faults t die s
    exact ⟨u, h, r.held, r.stopped, r.halt⟩
  · obtain ⟨u, h, r⟩ := execHoldTest_asks fresh idle t
    exact ⟨u, h, r.due, r.told⟩
  · obtain ⟨u, h, r⟩ := execHoldTestEnd_passes running inTime least most low t
    simp only [State.bank, Prod.mk.injEq] at r
    obtain ⟨cap, bankEsr, ended, -⟩ := r
    exact ⟨u, h, cap, bankEsr, ended⟩
  · obtain ⟨u, h, r⟩ := execHoldTestEnd_repeats running t esr
    simp only [State.bank, Prod.mk.injEq] at r
    obtain ⟨cap, -, ended, retry⟩ := r
    exact ⟨u, h, cap, ended, retry⟩

end Sys2Proof.Machine

namespace Sys2Proof.Machine

/-! # Self-tests, attestation and the chunks of objects (chapter 16) -/

/-! ## The security error state (R624) -/

/-- A failed self-test: the security error state, and a Halt. -/
def SecFault (u : State) : Prop := u.stw.secError = true ∧ bit u.mode.haltNew 9 = true

theorem State.securityError_faults (test occasion : Nat) (s : State) : SecFault (s.securityError test occasion) :=
  ⟨rfl, State.haltCause_new ..⟩

/-- What a self-test with the result `p` leaves. -/
def Tested (s : State) (p : Bool) (u : State) : Prop :=
  (p = false → SecFault u) ∧ (p = true → u.stw.secError = s.stw.secError)

theorem execSelfTest_tests {s : State} {src id : Nat} (fresh : s.keptFor src id = none) (t : Nat) (p : Bool) :
    Answers (fun u => u.replies = s.replies ++ [{ src := src, id := id, code := 7, detail := 0 }] ∧ Tested s p u)
      (execSelfTest t src id p s) := by
  unfold execSelfTest
  rw [State.mbRow_fresh fresh]
  refine .next ?_
  generalize hx : (s.tick t).noteTaken src id _ = x
  have told : x.replies = s.replies := by rw [← hx]; rfl
  have sec : x.stw.secError = s.stw.secError := by rw [← hx]; rfl
  unfold State.takeSelfTest
  extract_lets replied
  have replies : replied.replies = s.replies ++ [{ src := src, id := id, code := 7, detail := 0 }] := congrArg (· ++ _) told
  cases p
  · have kept : (replied.securityError 2 2).replies = replied.replies := (State.securityError_keeps 2 2 replied).get .replies rfl
    exact ⟨kept.trans replies, fun _ => State.securityError_faults .., nofun⟩
  · refine ⟨?_, nofun, fun _ => ?_⟩
    · exact (State.raise_replies ..).trans replies
    · exact (congrArg Stw.secError (State.raise_stw ..)).trans sec

theorem execPeriodicSelfTest_tests {s : State} {t : Nat} (due : s.stw.selfTestAt + 3600000000000 * s.nat STEWARD.selftest_h ≤ (s.tick t).life)
    (p : Bool) : Answers (fun u => u.stw.selfTestAt = (s.tick t).life ∧ Tested s p u) (execPeriodicSelfTest t p s) := by
  unfold execPeriodicSelfTest
  extract_lets ticked marked
  have due' : ticked.stw.selfTestAt + 3600000000000 * ticked.nat STEWARD.selftest_h ≤ ticked.life := due
  rw [if_neg (by unfold lifeSec; omega)]
  refine .next ?_
  cases p
  · refine ⟨?_, fun _ => State.securityError_faults .., nofun⟩
    show ((marked.selfTestEv 2 1 false 4).stw).selfTestAt = _
    exact congrArg Stw.selfTestAt (State.raise_stw ..)
  · exact ⟨rfl, nofun, fun _ => rfl⟩

/-! ## Attestation (R645, R646) -/

theorem execAttestRequest_holds {s : State} {f : Nat} (sound : s.stw.secError = false) (known : s.stw.idFault = false)
    (alive : s.stw.kill = false) (flags : f < 2) (free : s.stw.attest = none) (t src : Nat) (n : List Octet) :
    Answers (fun u => u.stw.attest = some { src := src, nonce := n, ek := bit f 0, keyless := false }) (execAttestRequest t src false n f s) := by
  unfold execAttestRequest State.takeAttest
  extract_lets no soon q
  rw [if_neg (by simp), if_neg (by simp [sound, known, alive]), if_neg (by omega), if_neg (by simp), if_pos (by simp [free])]
  exact .next rfl

theorem State.updateStatus_stw (src obj part status next : Nat) (s : State) : (s.updateStatus src obj part status next).stw = s.stw :=
  (State.updateStatus_keeps ..).get .stw rfl

theorem execAttestRequest_refuses {s : State} (error : s.stw.secError = true) (t src f : Nat) (n : List Octet) :
    Answers (fun u => u.stw = s.stw) (execAttestRequest t src false n f s) := by
  unfold execAttestRequest State.takeAttest
  extract_lets no soon q
  rw [if_neg (by simp), if_pos (by simp [error])]
  exact .next ((State.raise_stw ..).trans (State.updateStatus_stw ..))

theorem execAttestSigned_passes {s : State} {q : AttReq} (asked : s.stw.attest = some q) (t1 : s.purse.t1 = true) (t : Nat) :
    Answers (fun u => u.stw.attest = s.stw.attQueue.head? ∧ u.stw.attQueue = s.stw.attQueue.drop 1) (execAttestSigned t true s) := by
  unfold execAttestSigned
  extract_lets ticked
  rw [show ticked.stw.attest = some q from asked]
  dsimp -zeta only
  rw [if_neg (by simp [ticked, t1]), if_neg (by decide)]
  extract_lets sent taken
  have same : sent.stw = s.stw := (State.sendReport_keeps q ticked).get .stw rfl
  clear_value sent
  refine .next ?_
  rw [State.raise_stw]
  show sent.stw.attQueue.head? = _ ∧ sent.stw.attQueue.drop 1 = _
  rw [same]
  exact ⟨rfl, rfl⟩

theorem execAttestSigned_fails {s : State} {q : AttReq} (asked : s.stw.attest = some q) (t1 : s.purse.t1 = true) (t : Nat) :
    Answers (fun u => u.stw.attest = none ∧ SecFault u) (execAttestSigned t false s) := by
  unfold execAttestSigned
  extract_lets ticked
  rw [show ticked.stw.attest = some q from asked]
  dsimp -zeta only
  rw [if_neg (by simp [ticked, t1]), if_pos (by decide)]
  refine .next ⟨?_, State.securityError_faults ..⟩
  exact congrArg Stw.attest (State.raise_stw ..)

/-- Settles O54: an event changes nothing of the Steward's state, and a report only what is sent. -/
theorem selfTestsAndAttestation : Obligations.SelfTestsAndAttestation := by
  refine ⟨fun s t src id p fresh => execSelfTest_tests fresh t p, fun s t p due => execPeriodicSelfTest_tests due p,
    fun s t src f n sound known alive flags free => execAttestRequest_holds sound known alive flags free t src n,
    fun s t src f n error => execAttestRequest_refuses error t src f n, fun s t q asked t1 =>
      ⟨execAttestSigned_passes asked t1 t, execAttestSigned_fails asked t1 t⟩⟩

/-! ## Chunks (R626, R627) -/

theorem State.asmOf_setAsm {s : State} {ix : Nat} (h : ix < s.stw.asm.length) (a : Option Assembly) : (s.setAsm ix a).asmOf ix = a := by
  show (s.stw.asm.set ix a).getD ix none = a
  simp [List.getD_eq_getElem?_getD, h]

theorem State.objAnswer_stw (ix src obj part status next : Nat) (s : State) : (s.objAnswer ix src obj part status next).stw =
    { s.stw with answers := s.stw.answers.set ix (status, part) } := State.updateStatus_stw ..

/-- A chunk that does not complete its object is kept. -/
theorem State.chunkIn_keeps_part {s : State} {ix : Nat} {a : Assembly} {c : Chunk} (h : ix < s.stw.asm.length)
    (more : a.next + c.data.length < a.total) (src : Nat) : (s.chunkIn ix src a c).asmOf ix =
      some { a with next := a.next + c.data.length, data := if ix = 0 then [] else a.data ++ c.data } ∧
      (s.chunkIn ix src a c).stw.slots = s.stw.slots := by
  unfold State.chunkIn
  extract_lets grown
  rw [if_pos (show grown.next < grown.total from more)]
  refine ⟨?_, by rw [State.objAnswer_stw]; rfl⟩
  refine (congrArg (fun w : Stw => w.asm.getD ix none) (State.objAnswer_stw ..)).trans ?_
  exact State.asmOf_setAsm h _

/-- The chunk `c` may begin an object of the kind `ix`. -/
structure Begins (s : State) (ix : Nat) (c : Chunk) : Prop where
  sound : s.stw.secError = false
  awake : s.mode.mode ≠ 0
  rsvd : c.rsvd = false
  part : partAllowed ix c.part = true
  first : c.offset = 0
  data : c.data ≠ []
  more : c.data.length < c.total
  fits : c.total ≤ areaOf c.part
  fresh : s.asmOf ix = none
  room : ix < s.stw.asm.length

/-- The assembly that the first chunk `c` from `src` begins. -/
def begunBy (c : Chunk) (ix src : Nat) : Assembly :=
  { obj := c.obj, part := c.part, total := c.total, src := src, erasing := ix == 0 }

/-- A first chunk begins its assembly, an image part's also the erase of the staging slot. -/
theorem State.takeChunk_begins {s : State} {ix : Nat} {c : Chunk} (b : Begins s ix c) (src : Nat)
    (idle : ix = 0 → s.stw.verifying = none) : s.takeChunk ix src c =
      if ix ≠ 0 then s.chunkIn ix src (begunBy c ix src) c
      else match s.stagingSlot with
        | none => s.objAnswer ix src c.obj c.part 10 0
        | some k => (s.beginPart k c.part).chunkIn ix src (begunBy c ix src) c := by
  obtain ⟨sound, awake, rsvd, part, first, data, more, fits, fresh, room⟩ := b
  unfold State.takeChunk
  rw [fresh]
  extract_lets old same next done erasing no begin_
  have idle' : (done || erasing || (ix == 0 && s.stw.verifying.isSome)) = false := by
    by_cases e : ix = 0
    · rw [idle e]
      simp [done, erasing, old]
    · simp [done, erasing, old, e]
  rw [if_neg (by simp [sound]), if_neg (by simp [awake]), if_neg (by simp [rsvd, part, first, data]; omega),
    if_neg (by simp [idle']), if_neg (by simp [first, next, old]), if_neg (by omega),
    if_neg (by simp [same, old])]
  rfl

theorem execObjectChunk_begins {s : State} {ty ix : Nat} {c : Chunk} (kind : chunkIx ty = some ix) (notPart : ix ≠ 0)
    (b : Begins s ix c) (t src : Nat) : Answers (fun u => u.asmOf ix =
      some { obj := c.obj, part := c.part, total := c.total, src := src, next := c.data.length, data := c.data })
      (execObjectChunk t src ty c s) := by
  unfold execObjectChunk
  extract_lets ticked
  rw [kind]
  have b' : Begins ticked ix c := ⟨b.sound, b.awake, b.rsvd, b.part, b.first, b.data, b.more, b.fits, b.fresh, b.room⟩
  refine .next ?_
  rw [State.takeChunk_begins b' src fun e => absurd e notPart, if_pos notPart,
    (State.chunkIn_keeps_part b'.room (by simpa [begunBy] using b.more) src).1, if_neg notPart]
  simp [begunBy, notPart]

/-! ## Image parts (R635, R636) -/

/-- The Steward's state but for the wear of its sectors. -/
def State.unworn (s : State) : Stw := { s.stw with wear := [] }

theorem State.eraseSectors_unworn (first n : Nat) (s : State) : Fixes State.unworn s (s.eraseSectors first n) := by
  refine .foldl (fun x i => ?_) _ s
  extract_lets _ worn c
  have hWorn : Fixes State.unworn x worn := ⟨rfl⟩
  exact .ite (hWorn.trans ⟨by unfold State.unworn; rw [State.raise_stw]⟩) hWorn

/-- A part that begins erases its region: its slot is LOADING. -/
theorem State.beginPart_loads {s : State} {k : Nat} (h : k < s.stw.slots.length) (part : Nat) :
    (nth (s.beginPart k part).stw.slots k).state = 1 ∧ (s.beginPart k part).stw.asm = s.stw.asm := by
  unfold State.beginPart
  extract_lets x
  have same := (State.eraseSectors_unworn x.1 x.2 s).eq
  have slots : (s.eraseSectors x.1 x.2).stw.slots = s.stw.slots := by
    show (State.unworn _).slots = s.unworn.slots
    rw [same]
  have asm : (s.eraseSectors x.1 x.2).stw.asm = s.stw.asm := by
    show (State.unworn _).asm = s.unworn.asm
    rw [same]
  refine ⟨?_, asm⟩
  show (nth ((s.eraseSectors x.1 x.2).stw.slots.modify k _) k).state = 1
  rw [nth_modify_same (lt_of_lt_of_eq h (congrArg List.length slots).symm)]
  split <;> rfl

/-- What follows the first chunk of an image part. -/
structure PartBegun (c : Chunk) (k : Nat) (u : State) : Prop where
  slot : (nth u.stw.slots k).state = 1
  asm : (u.asmOf 0).map (fun a => (a.obj, a.part, a.next, a.erasing)) = some (c.obj, c.part, c.data.length, true)

theorem execUpdateBlock_begins {s : State} {c : Chunk} {k : Nat} (b : Begins s 0 c) (idle : s.stw.verifying = none)
    (staging : s.stagingSlot = some k) (h : k < s.stw.slots.length) (t src : Nat) :
    Answers (PartBegun c k) (execUpdateBlock t src c s) := by
  unfold execUpdateBlock
  generalize hx : s.tick t = x
  have stw : x.stw = s.stw := by rw [← hx]; rfl
  have b' : Begins x 0 c := by
    rw [← hx]
    exact ⟨b.sound, b.awake, b.rsvd, b.part, b.first, b.data, b.more, b.fits, b.fresh, b.room⟩
  have staging' : x.stagingSlot = some k := by rw [← hx]; exact staging
  rw [State.takeChunk_begins b' src fun _ => by rw [stw]; exact idle, if_neg (by simp), staging']
  obtain ⟨loading, asm⟩ := State.beginPart_loads (s := x) (k := k) (by rw [stw]; exact h) c.part
  obtain ⟨kept, slots⟩ := State.chunkIn_keeps_part (s := x.beginPart k c.part) (a := begunBy c 0 src) (c := c) (ix := 0)
    (by rw [asm]; exact b'.room) (by simpa [begunBy] using b.more) src
  refine .next ⟨?_, ?_⟩
  · rw [slots, loading]
  · rw [kept]
    simp [begunBy]

theorem execPartEraseDone_ends {s : State} {a : Assembly} (asm : s.asmOf 0 = some a) (t : Nat) :
    Answers (fun u => u.asmOf 0 = some { a with erasing := false }) (execPartEraseDone t s) := by
  refine .next ?_
  show (s.stw.asm.modify 0 _).getD 0 none = _
  have : s.stw.asm.getD 0 none = some a := asm
  revert this
  cases s.stw.asm with
  | nil => nofun
  | cons x l => 
    intro h
    have : x = some a := h
    simp [this]

/-- The staged slot of the part `part` with its container `c` read back, and the parts not staged those of the BOOT slot. -/
def Slot.readBack (y : Slot) (part : Nat) (c : Container) (boot : Option Slot) : Slot :=
  let y := if part = 1 then { y with fw := some c } else { y with wb := some c }
  let y := if y.fwStaged then y else { y with fw := boot.bind (·.fw) }
  if y.wbStaged then y else { y with wb := boot.bind (·.wb) }

/-- Why a slot read back is INVALID, if it is. -/
def State.slotCause (s : State) (x : Slot) : Option Nat := match x.fw, x.wb with
  | some f, some w => (s.containerCause 1 0 f).orElse (fun _ => s.containerCause 2 f.api w)
  | _, _ => some 2

/-- What the read-back of a part leaves: its slot VERIFIED, or INVALID for the cause. -/
structure PartRead (k : Nat) (cause : Option Nat) (u : State) : Prop where
  ended : u.stw.verifying = none
  state : (nth u.stw.slots k).state = if cause = none then 2 else 3

/-- The state of the slot that the read-back leaves is told, and nothing else of it changes. -/
theorem State.slotVerdict {s : State} {k : Nat} (h : k < s.stw.slots.length) (st ev sev src obj part code : Nat) :
    ((((s.onSlot k fun y => { y with state := st }).updateEv k ev sev).objAnswer 0 src obj part code 0).stw.verifying
      = s.stw.verifying) ∧
    (nth (((s.onSlot k fun y => { y with state := st }).updateEv k ev sev).objAnswer 0 src obj part code 0).stw.slots k).state
      = st := by
  rw [State.objAnswer_stw]
  unfold State.updateEv
  rw [State.raise_stw]
  exact ⟨rfl, congrArg Slot.state (nth_modify_same h _)⟩

theorem execPartVerified_reads {s : State} {k : Nat} {c : Container} (reading : s.stw.verifying = some k)
    (h : k < s.stw.slots.length) (t : Nat) :
    Answers (PartRead k (s.slotCause ((nth s.stw.slots k).readBack s.stw.verifySrc.2.2 c ((s.slotIn 4).map (fun b => nth s.stw.slots b)))))
      (execPartVerified t c s) := by
  unfold execPartVerified
  extract_lets ticked boot
  rw [show ticked.stw.verifying = some k from reading]
  dsimp -zeta only
  extract_lets kept read x cause
  have x_eq : x = (nth s.stw.slots k).readBack s.stw.verifySrc.2.2 c boot := nth_modify_same h _
  have cause_eq : cause = s.slotCause x := rfl
  have room : k < read.stw.slots.length := by
    show k < (s.stw.slots.modify k _).length
    rwa [List.length_modify]
  rw [show s.slotCause ((nth s.stw.slots k).readBack s.stw.verifySrc.2.2 c ((s.slotIn 4).map fun b => nth s.stw.slots b)) = cause from
    (congrArg s.slotCause x_eq.symm).trans cause_eq.symm]
  clear_value cause
  cases cause with
  | none =>
    obtain ⟨verifying, state⟩ := State.slotVerdict room 2 0 0 s.stw.verifySrc.1 s.stw.verifySrc.2.1 s.stw.verifySrc.2.2 0
    exact .next ⟨verifying, state⟩
  | some e =>
    obtain ⟨verifying, state⟩ := State.slotVerdict room 3 1 2 s.stw.verifySrc.1 s.stw.verifySrc.2.1 s.stw.verifySrc.2.2
      (if e = 6 then 7 else 5)
    exact .next ⟨verifying, state⟩

theorem Slot.readBack_fw {y : Slot} (staged : y.fwStaged = true) (c : Container) (boot : Option Slot) :
    (y.readBack 1 c boot).fw = some c := by
  unfold Slot.readBack
  extract_lets own fw
  have : fw.fw = some c := by simp [fw, own, staged]
  split <;> exact this

theorem Slot.readBack_wb {y : Slot} (staged : y.fwStaged = true) (wbStaged : y.wbStaged = true) (c : Container) (boot : Option Slot) :
    (y.readBack 1 c boot).wb = y.wb := by
  simp [Slot.readBack, staged, wbStaged]

/-- Settles O55: a first chunk finds no assembly, so it begins one; the checks of a container read nothing that the read-back
writes. -/
theorem chunksAndParts : Obligations.ChunksAndParts := by
  refine ⟨fun s t src ty ix c kind which room sound awake rsvd part first data more fits fresh => ?_,
    fun s t src k c room sound awake rsvd part first data more fits fresh idle staging h => ?_,
    fun s t a asm => execPartEraseDone_ends asm t, fun s t k c reading h => ?_⟩
  · exact execObjectChunk_begins kind (by omega) ⟨sound, awake, rsvd, part, first, data, more, fits, fresh, room⟩ t src
  · obtain ⟨u, h, r⟩ :=
      execUpdateBlock_begins ⟨sound, awake, rsvd, part, first, data, more, fits, fresh, room⟩ idle staging h t src
    exact ⟨u, h, r.slot, r.asm⟩
  · obtain ⟨u, h, r⟩ := execPartVerified_reads (c := c) reading h t
    refine ⟨u, h, r.ended, ?_, fun whole staged fails => ?_, fun w whole staged passes wbStaged wb wbPasses => ?_⟩
    · rw [r.state]
      split
      · exact .inl rfl
      · exact .inr rfl
    · rw [r.state, if_neg]
      unfold State.slotCause
      rw [whole, Slot.readBack_fw staged]
      split
      next f w fw _ =>
        cases fw
        obtain ⟨e, cause⟩ := Option.ne_none_iff_exists'.mp fails
        rw [cause]
        exact Option.some_ne_none e
      next => exact Option.some_ne_none 2
    · rw [r.state, if_pos]
      unfold State.slotCause
      rw [whole, Slot.readBack_fw staged, Slot.readBack_wb staged wbStaged, wb]
      dsimp only
      rw [passes]
      exact wbPasses

end Sys2Proof.Machine

namespace Sys2Proof.Machine

/-! # Signed objects (R628 to R639) -/

/-! ## The fabric keys, and what is sent (R629) -/

/-- The fabric keys that the unit holds, and their generations. -/
def State.ring (s : State) : List (Nat × List Octet) × Nat × Nat := (s.fab.keys, s.fab.keyCur, s.fab.keyOther)

theorem State.enqueue_ring (p dest : Nat) (buf : Option (Nat × Nat × Nat)) (f : Frame) (s : State) :
    Fixes State.ring s (s.enqueue p dest buf f) := ⟨rfl⟩

theorem State.launch_ring (f : Frame) (s : State) : Fixes State.ring s (s.launch f) := by
  unfold State.launch
  extract_lets queued own
  have kept : Fixes State.ring s queued := .foldl (fun _ _ => State.enqueue_ring ..) _ s
  exact .ite (kept.then_ rfl) kept

theorem State.sendAt_ring (d : Dest) (m : Msg) (epoch : Nat) (s : State) : Fixes State.ring s (s.sendAt d m epoch) := by
  unfold State.sendAt
  split
  · exact .refl s
  next c _ =>
    refine .ite (.refl s) ?_
    extract_lets q f
    exact Fixes.trans (t := { s with fab := { s.fab with seq := setAt s.fab.seq c ((q + 1) % 2 ^ 32) } }) ⟨rfl⟩ (State.launch_ring ..)

theorem State.sendTo_ring (src : Nat) (m : Msg) (s : State) : Fixes State.ring s (s.sendTo src m) :=
  .ite ⟨rfl⟩ (State.sendAt_ring ..)

theorem State.objAnswer_ring (ix src obj part status next : Nat) (s : State) :
    Fixes State.ring s (s.objAnswer ix src obj part status next) :=
  Fixes.trans (t := (s.onStw fun w => { w with answers := w.answers.set ix (status, part) }).free.2) ⟨rfl⟩ (State.sendTo_ring ..)

theorem State.raise_ring (code : Nat) (pl : List Octet) (v : Nat) (s : State) : Fixes State.ring s (s.raise code pl v) :=
  ⟨by unfold State.ring; rw [State.raise_fab]⟩

/-- What an answer to an object leaves: the Steward's state but the answers, and the keys. -/
def State.silent (s : State) : Stw × (List (Nat × List Octet) × Nat × Nat) := ({ s.stw with answers := [] }, s.ring)

theorem State.objAnswer_silent (ix src obj part status next : Nat) (s : State) :
    Fixes State.silent s (s.objAnswer ix src obj part status next) :=
  ⟨by unfold State.silent; rw [State.objAnswer_stw, (State.objAnswer_ring ..).eq]⟩

theorem State.raise_silent (code : Nat) (pl : List Octet) (v : Nat) (s : State) : Fixes State.silent s (s.raise code pl v) :=
  ⟨by unfold State.silent; rw [State.raise_stw, (State.raise_ring ..).eq]⟩

namespace Fixes

variable {s t : State}

theorem silent_asm (h : Fixes State.silent s t) : t.stw.asm = s.stw.asm := congrArg (fun x => x.1.asm) h.eq

theorem silent_owners (h : Fixes State.silent s t) : t.stw.owners = s.stw.owners := congrArg (fun x => x.1.owners) h.eq

theorem silent_slots (h : Fixes State.silent s t) : t.stw.slots = s.stw.slots := congrArg (fun x => x.1.slots) h.eq

theorem silent_kill (h : Fixes State.silent s t) : t.stw.kill = s.stw.kill := congrArg (fun x => x.1.kill) h.eq

theorem silent_ring (h : Fixes State.silent s t) : t.ring = s.ring := congrArg Prod.snd h.eq

end Fixes

/-! ## The row of an object (R628) -/

/-- The end of an object's row: the answer of its kind, if it gives one. -/
def Assembly.answered (a : Assembly) (ix : Nat) (r : State × Option Nat) : State :=
  match r.2 with
  | some st => r.1.objAnswer ix a.src a.obj a.part st 0
  | none => r.1

theorem Assembly.answered_silent (a : Assembly) (ix : Nat) (r : State × Option Nat) : Fixes State.silent r.1 (a.answered ix r) := by
  unfold Assembly.answered
  split
  · exact State.objAnswer_silent ..
  · exact .refl r.1

/-- The object is consumed. -/
def State.consumed (s : State) (t ix : Nat) : State := (s.tick t).setAsm ix none

/-- The last sequence number of the owner that signed `o`. -/
def State.noteSeq (o : Obj) (s : State) : State :=
  s.onStw fun w => { w with owners := w.owners.modify o.signer (fun x => { x with lastSeq := o.seq }) }

/-- A complete object is consumed; it is answered with the first step that it fails, or taken by its kind. -/
theorem State.objRow_answers {P : State → Prop} {s : State} {ix : Nat} {a : Assembly} {mine : Nat → Nat → Bool}
    {act : Assembly → Obj → State → State × Option Nat} (complete : s.complete ix = some a)
    (own : mine (num a.data 4 1) (num a.data 5 1) = true) (sound : s.stw.secError = false) (t : Nat)
    (refused : ∀ st, st = s.objStatus a.part (readObj false a.data) → st ≠ 0 →
      P (((s.consumed t ix).objectEv a st).objAnswer ix a.src a.obj a.part st 0))
    (passed : ∀ o, readObj false a.data = some o → s.objStatus a.part (some o) = 0 →
      P (a.answered ix (act a o ((s.consumed t ix).noteSeq o)))) : Answers P (s.objRow t ix mine act) := by
  unfold State.objRow
  extract_lets ticked taken
  rw [show ticked.complete ix = some a from complete]
  dsimp -zeta only
  rw [if_neg (by simp [own])]
  extract_lets done o st
  rw [if_neg (by rw [show taken.stw.secError = false from sound]; decide)]
  have st_eq : st = s.objStatus a.part o := rfl
  have o_eq : readObj false a.data = o := rfl
  clear_value st o
  split
  next o' =>
    extract_lets noted
    have got := passed o' o_eq st_eq.symm
    unfold Assembly.answered at got
    change P (match (act a o' noted).2 with | some st => done st (act a o' noted).1 | none => (act a o' noted).1) at got
    exact .next got
  next ne =>
    refine .next (refused st (by rw [o_eq]; exact st_eq) fun zero => ?_)
    cases o with
    | none => exact absurd (st_eq.symm.trans zero) (by decide : (4 : Nat) ≠ 0)
    | some o' => exact ne o' zero rfl

/-! ## The kinds -/

/-- A consumed object: refused, it is answered with the first step it fails, and nothing else of the unit's keys and slots
changes. -/
structure Consumed (s : State) (a : Assembly) (u : State) : Prop where
  ended : u.asmOf 2 = none
  refused : s.objStatus a.part (readObj false a.data) ≠ 0 →
    u.stw.answers.getD 2 (0, 0) = (s.objStatus a.part (readObj false a.data), a.part) ∧ u.stw.owners = s.stw.owners ∧
      u.stw.slots = s.stw.slots ∧ u.stw.kill = s.stw.kill ∧ u.fab.keys = s.fab.keys

theorem getD_set_none {α : Type} (l : List (Option α)) (i : Nat) : (l.set i none).getD i none = none := by
  by_cases h : i < l.length
  · simp [List.getD_eq_getElem?_getD, h]
  · simp [List.getD_eq_getElem?_getD, Nat.le_of_not_lt h]

/-- A refused object of part 2. -/
theorem State.refusal_consumed {s : State} (answers : 2 < s.stw.answers.length) (a : Assembly) (t : Nat) {st : Nat}
    (status : st = s.objStatus a.part (readObj false a.data)) :
    Consumed s a (((s.consumed t 2).objectEv a st).objAnswer 2 a.src a.obj a.part st 0) := by
  have told : Fixes State.silent (s.consumed t 2) ((s.consumed t 2).objectEv a st) := State.raise_silent ..
  have whole := told.trans (State.objAnswer_silent 2 a.src a.obj a.part st 0 _)
  constructor
  · show List.getD (Stw.asm _) 2 none = none
    rw [whole.silent_asm]
    exact getD_set_none ..
  · intro _
    refine ⟨?_, whole.silent_owners, whole.silent_slots, whole.silent_kill, congrArg Prod.fst whole.silent_ring⟩
    rw [State.objAnswer_stw, ← status]
    have kept : ((s.consumed t 2).objectEv a st).stw.answers = s.stw.answers := by
      unfold State.objectEv
      rw [State.raise_stw]
      rfl
    show List.getD (List.set _ 2 _) 2 _ = _
    rw [kept]
    simp [List.getD_eq_getElem?_getD, answers]

/-- A taken object of part 2 whose kind writes no assembly. -/
theorem State.taking_consumed {s : State} {a : Assembly} {o : Obj} {r : State × Option Nat} {t : Nat}
    (read : readObj false a.data = some o) (passed : s.objStatus a.part (some o) = 0)
    (keeps : r.1.stw.asm = ((s.consumed t 2).noteSeq o).stw.asm) : Consumed s a (a.answered 2 r) := by
  constructor
  · show List.getD (Stw.asm _) 2 none = none
    rw [(a.answered_silent 2 r).silent_asm, keeps]
    exact getD_set_none ..
  · intro ne
    exact absurd (read ▸ passed) ne

/-- The row of a kind that writes no assembly consumes its object. -/
theorem State.objRow_consumes {s : State} {a : Assembly} {mine : Nat → Nat → Bool}
    {act : Assembly → Obj → State → State × Option Nat} (complete : s.complete 2 = some a)
    (own : mine (num a.data 4 1) (num a.data 5 1) = true) (sound : s.stw.secError = false) (answers : 2 < s.stw.answers.length)
    (keeps : ∀ o x, (act a o x).1.stw.asm = x.stw.asm) (t : Nat) : Answers (Consumed s a) (s.objRow t 2 mine act) :=
  State.objRow_answers complete own sound t (fun _ status _ => State.refusal_consumed answers a t status)
    fun _ read passed => State.taking_consumed read passed (keeps _ _)

/-! ### What each kind leaves of the assemblies -/

theorem State.takeFuse_asm (a : Assembly) (o : Obj) (s : State) : (s.takeFuse a o).1.stw.asm = s.stw.asm := by
  unfold State.takeFuse
  extract_lets k
  split <;> rfl

theorem State.takeRevoke_asm (a : Assembly) (o : Obj) (s : State) : (s.takeRevoke a o).1.stw.asm = s.stw.asm := by
  unfold State.takeRevoke
  extract_lets k last
  split <;> rfl

theorem State.keyEv_silent (gen action was : Nat) (s : State) : Fixes State.silent s (s.keyEv gen action was) := State.raise_silent ..

/-- The keys are dropped: none is left, and the Steward's state but the key that waits is as it was. -/
theorem State.zeroKeys_silent (s : State) : s.zeroKeys.silent = ({ s.stw with answers := [], keyAt := none }, [], 0, 0) := by
  unfold State.zeroKeys
  extract_lets gens cur dropped unset
  exact (Fixes.foldl (fun x g => State.keyEv_silent g 3 cur x) gens unset).eq

theorem State.beginFlush_silent (s : State) : Fixes State.silent s s.beginFlush := .ite (.refl s) ⟨rfl⟩

/-- What an allowed zeroisation of the kind `k` leaves. -/
def State.zeroised (k : Nat) (s : State) : Stw :=
  let w := { s.stw with answers := [], keyAt := none }
  if k = 2 then { w with kill := true, idFault := true, seed := [] } else w

theorem State.takeZeroise_zeroises {s : State} {o : Obj} (mode : s.mode.mode = 6 ∨ s.mode.mode = 7)
    (kind : num o.body 0 1 = 1 ∨ num o.body 0 1 = 2) (a : Assembly) :
    (s.takeZeroise a o).1.silent = (s.zeroised (num o.body 0 1), [], 0, 0) := by
  unfold State.takeZeroise
  extract_lets k flushed
  rw [if_neg (by omega), if_neg (by omega)]
  have hFlushed : flushed.silent = ({ s.stw with answers := [], keyAt := none }, [], 0, 0) := by
    unfold flushed
    rw [(State.beginFlush_silent _).eq, State.zeroKeys_silent, State.raise_stw]
  clear_value flushed
  dsimp only
  unfold State.zeroised
  split
  · have stw : { flushed.stw with answers := [] } = ({ s.stw with answers := [], keyAt := none } : Stw) := congrArg Prod.fst hFlushed
    have ring : flushed.ring = ([], 0, 0) := congrArg Prod.snd hFlushed
    refine Prod.ext ?_ ring
    exact congrArg (fun w : Stw => { w with kill := true, idFault := true, seed := [] }) stw
  · exact hFlushed

theorem State.takeZeroise_asm (a : Assembly) (o : Obj) (s : State) : (s.takeZeroise a o).1.stw.asm = s.stw.asm := by
  by_cases mode : s.mode.mode = 6 ∨ s.mode.mode = 7
  · by_cases kind : num o.body 0 1 = 1 ∨ num o.body 0 1 = 2
    · have h := congrArg (fun x => x.1.asm) (State.takeZeroise_zeroises mode kind a)
      refine h.trans ?_
      unfold State.zeroised
      dsimp only
      split <;> rfl
    · unfold State.takeZeroise
      extract_lets k flushed
      rw [if_neg (by omega), if_pos (by omega)]
  · unfold State.takeZeroise
    extract_lets k flushed
    rw [if_pos (by omega)]

theorem State.updateEv_silent (slot event sev : Nat) (s : State) : Fixes State.silent s (s.updateEv slot event sev) := State.raise_silent ..

theorem State.takeActivate_asm (a : Assembly) (o : Obj) (s : State) : (s.takeActivate a o).1.stw.asm = s.stw.asm := by
  unfold State.takeActivate
  extract_lets k set
  split
  · rfl
  split
  · rfl
  · exact (State.updateEv_silent ..).silent_asm

theorem State.commitSlot_asm (k : Nat) (s : State) : (s.commitSlot k).stw.asm = s.stw.asm := (State.updateEv_silent ..).silent_asm

theorem State.takeCommit_asm (a : Assembly) (o : Obj) (s : State) : (s.takeCommit a o).1.stw.asm = s.stw.asm := by
  unfold State.takeCommit
  extract_lets k
  split
  · rfl
  split
  · rfl
  · exact State.commitSlot_asm k s

theorem State.holdKey_asm (gen : Nat) (key : List Octet) (at_ : Option Int) (s : State) : (s.holdKey gen key at_).stw.asm = s.stw.asm := by
  unfold State.holdKey
  extract_lets cur old other kept told
  split
  · exact (State.keyEv_silent ..).silent_asm
  · have hTold : told.stw.asm = s.stw.asm := by
      unfold told
      split
      · exact (State.keyEv_silent ..).silent_asm
      · rfl
    exact (State.keyEv_silent ..).silent_asm.trans hTold

theorem State.takeKey_asm (a : Assembly) (o : Obj) (s : State) : (s.takeKey a o).1.stw.asm = s.stw.asm := by
  unfold State.takeKey
  extract_lets gen at_
  split
  · rfl
  split
  · rfl
  split
  · rfl
  · exact State.holdKey_asm ..

/-! ### Activation -/

/-- What the restart of a unit leaves of the Steward. -/
theorem State.beginWaking_stw (s : State) : s.beginWaking.stw = s.stw ∨ s.beginWaking.stw = s.stw.restart := by
  unfold State.beginWaking
  extract_lets flushed resetting
  have h : Keeps [.clk, .stage, .disp, .cax, .safe, .twin, .led, .mode] s flushed :=
    Keeps.after (State.beginFlush_keeps ..) (Keeps.after (State.holdMotion_keeps ..) (Keeps.after (State.setMode_keeps ..) (.refl _ s) rfl) rfl) rfl
  have hFlushed : flushed.stw = s.stw := h.get .stw rfl
  clear_value flushed
  have hResetting : resetting.stw = s.stw := hFlushed
  clear_value resetting
  split
  · unfold State.resetEnd
    split
    · right
      rw [← hResetting]
      rfl
    · exact .inl hResetting
  · exact .inl hResetting

/-- An activation that begins a Waking keeps the slots; an assembly is lost. -/
theorem State.beginWaking_slots (s : State) : s.beginWaking.stw.slots = s.stw.slots ∧ s.beginWaking.stw.attempts = s.stw.attempts := by
  obtain h | h := s.beginWaking_stw <;> rw [h] <;> exact ⟨rfl, rfl⟩

theorem State.beginWaking_asm {s : State} (h : s.asmOf 2 = none) : s.beginWaking.asmOf 2 = none := by
  unfold State.asmOf at h ⊢
  obtain same | restarted := s.beginWaking_stw
  · rw [same, h]
  · rw [restarted]
    rfl

/-- ACTIVATE is the row of its kind, after which a Waking may begin. -/
theorem execActivate_answers {P : State → Prop} {s : State} (idle : s.stw.verifying = none) (t : Nat)
    (row : Answers (fun u => P (if (s.slotIn 5).isNone ∧ (u.slotIn 5).isSome then u.beginWaking else u))
      (s.objRow t 2 (fun k g => k == 8 && g != 255) State.takeActivate)) : Answers P (execActivate t s) := by
  unfold execActivate
  extract_lets was
  rw [if_neg (by rw [idle]; decide)]
  obtain ⟨u, hu, p⟩ := row
  rw [hu]
  exact .next p

theorem State.slotIn_congr {s u : State} (h : u.stw.slots = s.stw.slots) (st : Nat) : u.slotIn st = s.slotIn st := by
  unfold State.slotIn
  rw [h]

theorem execActivate_consumes {s : State} {a : Assembly} (complete : s.complete 2 = some a)
    (kind : num a.data 4 1 = 8) (signed : num a.data 5 1 ≠ 255) (sound : s.stw.secError = false)
    (idle : s.stw.verifying = none) (answers : 2 < s.stw.answers.length) (t : Nat) : Answers (Consumed s a) (execActivate t s) := by
  refine execActivate_answers idle t ((State.objRow_consumes complete (by simp [kind, signed]) sound answers
    (fun o x => x.takeActivate_asm a o) t).mono fun u consumed => ?_)
  obtain ⟨ended, refused⟩ := consumed
  split
  next begins =>
    refine ⟨State.beginWaking_asm ended, fun ne => ?_⟩
    obtain ⟨-, -, slots, -, -⟩ := refused ne
    rw [State.slotIn_congr slots] at begins
    obtain ⟨no, yes⟩ := begins
    rw [Option.isNone_iff_eq_none.mp no] at yes
    cases yes
  next => exact ⟨ended, refused⟩

/-! ### What each kind does -/

theorem Obj.kind_of_read {d : List Octet} {b : Bool} {o : Obj} (read : readObj b d = some o) :
    o.kind = num d 4 1 ∧ o.signer = num d 5 1 := by
  unfold readObj at read
  extract_lets len sig at read
  split at read
  · cases read
    exact ⟨rfl, rfl⟩
  · cases read

/-- What the number of the last object leaves of the owners. -/
theorem State.noteSeq_owners (o : Obj) (s : State) {β : Type} {g : Owner → β} (hg : ∀ x, g { x with lastSeq := o.seq } = g x) :
    (s.noteSeq o).stw.owners.map g = s.stw.owners.map g := List.map_modify_of_fixes hg _ o.signer

/-- The row of a kind whose object passes. -/
theorem State.objRow_takes {P : State → Prop} {s : State} {ix : Nat} {a : Assembly} {o : Obj} {mine : Nat → Nat → Bool}
    {act : Assembly → Obj → State → State × Option Nat} (complete : s.complete ix = some a) (read : readObj false a.data = some o)
    (passed : s.objStatus a.part (some o) = 0) (own : mine (num a.data 4 1) (num a.data 5 1) = true)
    (sound : s.stw.secError = false) (t : Nat) (taken : P (a.answered ix (act a o ((s.consumed t ix).noteSeq o)))) :
    Answers P (s.objRow t ix mine act) := by
  refine State.objRow_answers complete own sound t (fun st status ne => ?_) (fun o' read' _ => ?_)
  · exact absurd (status.trans (read ▸ passed)) ne
  · obtain rfl : o = o' := Option.some.inj (read.symm.trans read')
    exact taken

/-- The hypotheses of an object of part 2 that passes its checks. -/
structure Passing (s : State) (a : Assembly) (o : Obj) : Prop where
  complete : s.complete 2 = some a
  read : readObj false a.data = some o
  passed : s.objStatus a.part (some o) = 0
  signed : num a.data 5 1 ≠ 255
  sound : s.stw.secError = false
  owners : s.stw.owners.length = 4

theorem execOwnerKeyFuse_fuses {s : State} {a : Assembly} {o : Obj} (p : Passing s a o) (kind : o.kind = 5) (four : num o.body 0 1 < 4)
    (blank : (nth s.stw.owners (num o.body 0 1)).state = 0) (t : Nat) :
    Answers (fun u => (nth u.stw.owners (num o.body 0 1)).state = 1 ∧ (nth u.stw.owners (num o.body 0 1)).pk = sub o.body 8 64)
      (execOwnerKeyFuse t s) := by
  have kind' := (Obj.kind_of_read p.read).1.symm.trans kind
  refine State.objRow_takes p.complete p.read p.passed (by simp [kind', p.signed]) p.sound t ?_
  rw [(a.answered_silent ..).silent_owners]
  generalize hx : (s.consumed t 2).noteSeq o = x
  have states : x.stw.owners.map Owner.state = s.stw.owners.map Owner.state := by
    rw [← hx]
    exact State.noteSeq_owners o _ fun _ => rfl
  have blank' : (nth x.stw.owners (num o.body 0 1)).state = 0 := (nth_map_congr states _).trans blank
  have length : x.stw.owners.length = 4 := by
    have := congrArg List.length states
    simpa [p.owners] using this
  unfold State.takeFuse
  extract_lets k
  rw [if_neg (not_or.mpr ⟨Nat.not_le.mpr four, not_not_intro blank'⟩)]
  show (nth (x.stw.owners.modify k _) k).state = 1 ∧ (nth (x.stw.owners.modify k _) k).pk = _
  rw [nth_modify_same (by rw [length]; exact four)]
  exact ⟨rfl, rfl⟩

theorem execOwnerKeyRevoke_revokes {s : State} {a : Assembly} {o : Obj} (p : Passing s a o) (kind : o.kind = 6)
    (four : num o.body 0 1 < 4) (other : num o.body 0 1 ≠ o.signer)
    (more : ¬ ((nth s.stw.owners (num o.body 0 1)).state = 1 ∧ (s.stw.owners.filter (fun x => x.state == 1)).length = 1)) (t : Nat) :
    Answers (fun u => (nth u.stw.owners (num o.body 0 1)).state = 3) (execOwnerKeyRevoke t s) := by
  have kind' := (Obj.kind_of_read p.read).1.symm.trans kind
  refine State.objRow_takes p.complete p.read p.passed (by simp [kind', p.signed]) p.sound t ?_
  rw [(a.answered_silent ..).silent_owners]
  generalize hx : (s.consumed t 2).noteSeq o = x
  have states : x.stw.owners.map Owner.state = s.stw.owners.map Owner.state := by
    rw [← hx]
    exact State.noteSeq_owners o _ fun _ => rfl
  have length : x.stw.owners.length = 4 := by
    have := congrArg List.length states
    simpa [p.owners] using this
  have state : (nth x.stw.owners (num o.body 0 1)).state = (nth s.stw.owners (num o.body 0 1)).state := nth_map_congr states _
  have valid : (x.stw.owners.filter (fun x => x.state == 1)).length = (s.stw.owners.filter (fun x => x.state == 1)).length := by
    have count (l : List Owner) : (l.filter (fun x => x.state == 1)).length = ((l.map Owner.state).filter (· == 1)).length := by
      simp [List.filter_map, Function.comp_def]
    rw [count, count, states]
  unfold State.takeRevoke
  extract_lets k last
  rw [if_neg (by
    rintro (high | own | isLast)
    · exact absurd four (Nat.not_lt.mpr high)
    · exact other own
    · simp only [last, Bool.and_eq_true, beq_iff_eq] at isLast
      exact more ⟨state ▸ isLast.1, valid ▸ isLast.2⟩)]
  show (nth (x.stw.owners.modify k _) k).state = 3
  rw [nth_modify_same (by rw [length]; exact four)]

theorem execZeroise_zeroises {s : State} {a : Assembly} {o : Obj} (p : Passing s a o) (idle : s.stw.verifying = none)
    (kind : o.kind = 7) (which : num o.body 0 1 = 1 ∨ num o.body 0 1 = 2) (mode : s.mode.mode = 6 ∨ s.mode.mode = 7) (t : Nat) :
    Answers (fun u => u.ring = ([], 0, 0) ∧ (num o.body 0 1 = 2 → u.stw.kill = true)) (execZeroise t s) := by
  have kind' := (Obj.kind_of_read p.read).1.symm.trans kind
  unfold execZeroise
  rw [if_neg (by rw [idle]; decide)]
  refine State.objRow_takes p.complete p.read p.passed (by simp [kind', p.signed]) p.sound t ?_
  have silent := State.takeZeroise_zeroises (s := (s.consumed t 2).noteSeq o) mode which a
  have answered := a.answered_silent 2 (((s.consumed t 2).noteSeq o).takeZeroise a o)
  refine ⟨answered.silent_ring.trans (congrArg Prod.snd silent), fun two => ?_⟩
  rw [answered.silent_kill]
  refine (congrArg (fun x => x.1.kill) silent).trans ?_
  unfold State.zeroised
  rw [two]
  rfl

theorem slot_lt_of_state {l : List Slot} {k : Nat} (h : (nth l k).state ≠ 0) : k < l.length := by
  refine Decidable.byContradiction fun outside => h ?_
  rw [nth_of_length_le (Nat.le_of_not_lt outside)]
  rfl

theorem State.takeActivate_activates {s : State} {o : Obj} (two : num o.body 0 1 < 2)
    (verified : (nth s.stw.slots (num o.body 0 1)).state = 2) (mode : s.mode.mode = 6 ∨ s.mode.mode = 7) (a : Assembly) :
    (nth (s.takeActivate a o).1.stw.slots (num o.body 0 1)).state = 5 ∧ (s.takeActivate a o).1.stw.attempts = 0 := by
  unfold State.takeActivate
  extract_lets k set
  rw [if_neg (by omega), if_neg (by
    rintro (other | ⟨notHalt, notLodge⟩)
    · exact other verified
    · exact mode.elim notHalt notLodge)]
  have silent := State.updateEv_silent k 2 0 (set.onStw fun w => { w with attempts := 0 })
  refine ⟨?_, congrArg (fun x => x.1.attempts) silent.eq⟩
  rw [silent.silent_slots]
  show (nth (s.stw.slots.modify k _) k).state = 5
  rw [nth_modify_same (slot_lt_of_state (by rw [verified]; decide))]

theorem execActivate_activates {s : State} {a : Assembly} {o : Obj} (p : Passing s a o) (idle : s.stw.verifying = none)
    (kind : o.kind = 8) (two : num o.body 0 1 < 2) (verified : (nth s.stw.slots (num o.body 0 1)).state = 2)
    (mode : s.mode.mode = 6 ∨ s.mode.mode = 7) (t : Nat) :
    Answers (fun u => (nth u.stw.slots (num o.body 0 1)).state = 5 ∧ u.stw.attempts = 0) (execActivate t s) := by
  have kind' := (Obj.kind_of_read p.read).1.symm.trans kind
  refine execActivate_answers idle t ?_
  refine (State.objRow_takes (P := fun u => (nth u.stw.slots (num o.body 0 1)).state = 5 ∧ u.stw.attempts = 0) p.complete p.read
    p.passed (by simp [kind', p.signed]) p.sound t ?_).mono fun u h => ?_
  · have silent := a.answered_silent 2 (((s.consumed t 2).noteSeq o).takeActivate a o)
    obtain ⟨slots, attempts⟩ := State.takeActivate_activates (s := (s.consumed t 2).noteSeq o) two verified mode a
    exact ⟨by rw [silent.silent_slots]; exact slots, (congrArg (fun x => x.1.attempts) silent.eq).trans attempts⟩
  · split
    · obtain ⟨slots, attempts⟩ := u.beginWaking_slots
      rw [slots, attempts]
      exact h
    · exact h

theorem State.commitSlot_boots {s : State} {k : Nat} (trial : (nth s.stw.slots k).state = 5) :
    (nth (s.commitSlot k).stw.slots k).state = 4 := by
  unfold State.commitSlot
  extract_lets x freed
  rw [(State.updateEv_silent k 3 0 _).silent_slots]
  show Slot.state (nth ((s.stw.slots.map _).modify k _) k) = 4
  rw [nth_modify_same (by rw [List.length_map]; exact slot_lt_of_state (by rw [trial]; decide))]

theorem execCommit_consumes {s : State} {a : Assembly} (complete : s.complete 2 = some a)
    (kind : num a.data 4 1 = 9) (signed : num a.data 5 1 ≠ 255) (sound : s.stw.secError = false)
    (answers : 2 < s.stw.answers.length) (t : Nat) : Answers (Consumed s a) (execCommit t s) := by
  unfold execCommit
  rw [show (s.tick t).complete 2 = some a from complete]
  exact State.objRow_consumes complete (by simp [kind, signed]) sound answers (fun o x => x.takeCommit_asm a o) t

theorem execCommit_commits {s : State} {a : Assembly} {o : Obj} (p : Passing s a o) (kind : o.kind = 9) (two : num o.body 0 1 < 2)
    (trial : (nth s.stw.slots (num o.body 0 1)).state = 5) (t : Nat) :
    Answers (fun u => (nth u.stw.slots (num o.body 0 1)).state = 4) (execCommit t s) := by
  have kind' := (Obj.kind_of_read p.read).1.symm.trans kind
  unfold execCommit
  rw [show (s.tick t).complete 2 = some a from p.complete]
  refine State.objRow_takes p.complete p.read p.passed (by simp [kind', p.signed]) p.sound t ?_
  rw [(a.answered_silent ..).silent_slots]
  generalize hx : (s.consumed t 2).noteSeq o = x
  have trial' : (nth x.stw.slots (num o.body 0 1)).state = 5 := by
    rw [← hx]
    exact trial
  unfold State.takeCommit
  extract_lets k
  rw [if_neg (by omega), if_neg (not_not_intro trial')]
  exact State.commitSlot_boots trial'

theorem State.holdKey_holds (gen : Nat) (key : List Octet) (at_ : Option Int) (s : State) :
    (gen, key) ∈ (s.holdKey gen key at_).ring.1 := by
  unfold State.holdKey
  extract_lets cur old other kept told
  split
  · rw [(State.keyEv_silent ..).silent_ring]
    exact List.mem_singleton.mpr rfl
  · have hTold : told.ring = kept.ring := by
      unfold told
      split
      · exact (State.keyEv_silent ..).silent_ring
      · rfl
    rw [(State.keyEv_silent ..).silent_ring, hTold]
    exact List.mem_append_right _ (List.mem_singleton.mpr rfl)

theorem execKeyDelivery_holds {s : State} {a : Assembly} {o : Obj} {key : List Octet} (p : Passing s a o) (kind : o.kind = 4)
    (known : s.stw.idFault = false) (alive : s.stw.kill = false) (other : num o.body 0 1 ≠ s.fab.keyCur)
    (opens : Config.kemOpen s.stw.seed (sub o.body 0x10 1568) (sub o.body 0x630 40 ++ [num o.body 0 1] ++ le 8 o.seq) = some key)
    (t : Nat) : Answers (fun u => (num o.body 0 1, key) ∈ u.fab.keys) (execKeyDelivery t s) := by
  have kind' := (Obj.kind_of_read p.read).1.symm.trans kind
  refine State.objRow_takes p.complete p.read p.passed (by simp [kind', p.signed]) p.sound t ?_
  show _ ∈ (a.answered 2 _).ring.1
  rw [(a.answered_silent ..).silent_ring]
  generalize hx : (s.consumed t 2).noteSeq o = x
  have same : x.stw.idFault = false ∧ x.stw.kill = false ∧ x.fab.keyCur = s.fab.keyCur ∧ x.stw.seed = s.stw.seed := by
    rw [← hx]
    exact ⟨known, alive, rfl, rfl⟩
  obtain ⟨known', alive', cur, seed⟩ := same
  unfold State.takeKey
  extract_lets gen at_
  rw [if_neg (by simp [known', alive']), if_neg (by rw [cur]; exact other), seed, opens]
  exact State.holdKey_holds ..

/-- Settles O56: every kind's row consumes its object and writes no assembly; the answer writes only the answers, so what the kind
has written stands. -/
theorem signedObjects : Obligations.SignedObjects := by
  intro s t a complete answers owners sound idle signed
  refine ⟨fun c which => ?_, fun o read passed => ?_⟩
  · have consumes : Answers (Consumed s a) (exec c s) := by
      obtain ⟨rfl, kind⟩ | ⟨rfl, kind⟩ | ⟨rfl, kind⟩ | ⟨rfl, kind⟩ | ⟨rfl, kind⟩ | ⟨rfl, kind⟩ := which
      · exact State.objRow_consumes (mine := fun k g => k == 5 && g != 255) complete (by simp [kind, signed]) sound answers
          (fun o x => x.takeFuse_asm a o) t
      · exact State.objRow_consumes (mine := fun k g => k == 6 && g != 255) complete (by simp [kind, signed]) sound answers
          (fun o x => x.takeRevoke_asm a o) t
      · show Answers _ (execZeroise t s)
        unfold execZeroise
        rw [if_neg (by rw [idle]; decide)]
        exact State.objRow_consumes complete (by simp [kind, signed]) sound answers (fun o x => x.takeZeroise_asm a o) t
      · exact execActivate_consumes complete kind signed sound idle answers t
      · exact execCommit_consumes complete kind signed sound answers t
      · exact State.objRow_consumes (mine := fun k g => g != 255 && !(5 ≤ k && k ≤ 9)) complete (by simp [kind, signed]) sound answers
          (fun o x => x.takeKey_asm a o) t
    obtain ⟨u, h, r⟩ := consumes
    exact ⟨u, h, r.ended, r.refused⟩
  · have p : Passing s a o := ⟨complete, read, passed, signed, sound, owners⟩
    refine ⟨fun kind four blank => execOwnerKeyFuse_fuses p kind four blank t,
      fun kind four other more => execOwnerKeyRevoke_revokes p kind four other more t, fun kind which mode => ?_,
      fun kind two verified mode => execActivate_activates p idle kind two verified mode t,
      fun kind two trial => execCommit_commits p kind two trial t,
      fun key kind known alive other opens => execKeyDelivery_holds p kind known alive other opens t⟩
    obtain ⟨u, h, ring, kill⟩ := execZeroise_zeroises p idle kind which mode t
    simp only [State.ring, Prod.mk.injEq] at ring
    obtain ⟨keys, cur, -⟩ := ring
    exact ⟨u, h, keys, cur, kill⟩

end Sys2Proof.Machine

namespace Sys2Proof.Machine

/-! # Amendments, the unsigned owner key and compaction (R623, R630, R640 to R644) -/

/-! ## The checks of a section read neither the clock nor the Steward's state -/

/-- The clock and the Steward's state, set. -/
def State.touch (n : Nat) (w : Stw) (s : State) : State := { s with now := n, stw := w }

/-- The check gives what it gave when the clock and the Steward's state are others. -/
def Chk.Still (c : Chk) : Prop := ∀ n w (s : State), c.ok (s.touch n w) = c.ok s

theorem checksStage_still : ∀ c ∈ checksStage, c.Still := by
  simp only [checksStage, List.forall_mem_cons, List.not_mem_nil, false_imp_iff, implies_true, and_true]
  and_intros <;> exact fun _ _ _ => rfl

theorem checksModes_still : ∀ c ∈ checksModes, c.Still := by
  simp only [checksModes, List.forall_mem_cons, List.not_mem_nil, false_imp_iff, implies_true, and_true]
  and_intros <;> exact fun _ _ _ => rfl

theorem checksRatio_still : ∀ c ∈ checksRatio, c.Still := List.forall_mem_map.mpr fun _ _ _ _ _ => rfl

theorem checksDin_still : ∀ c ∈ checksDin, c.Still := by
  simp only [checksDin, List.forall_mem_cons, List.not_mem_nil, false_imp_iff, implies_true, and_true]
  exact fun _ _ _ => rfl

theorem checksFb_still : ∀ c ∈ checksFb, c.Still := by
  simp only [checksFb, List.forall_mem_cons, List.not_mem_nil, false_imp_iff, implies_true, and_true]
  and_intros <;> exact fun _ _ _ => rfl

theorem checksCurrent_still : ∀ c ∈ checksCurrent, c.Still := by
  simp only [checksCurrent, List.forall_mem_cons, List.not_mem_nil, false_imp_iff, implies_true, and_true]
  and_intros <;> exact fun _ _ _ => rfl

theorem checksAxis_still : ∀ c ∈ checksAxis, c.Still := by
  simp only [checksAxis, List.forall_mem_cons, List.not_mem_nil, false_imp_iff, implies_true, and_true]
  and_intros <;> exact fun _ _ _ => rfl

theorem checksPath_still : ∀ c ∈ checksPath, c.Still := by
  simp only [checksPath, List.forall_mem_cons, List.not_mem_nil, false_imp_iff, implies_true, and_true]
  and_intros <;> exact fun _ _ _ => rfl

theorem checksHoming_still : ∀ c ∈ checksHoming, c.Still := by
  simp only [checksHoming, List.forall_mem_cons, List.not_mem_nil, false_imp_iff, implies_true, and_true]
  and_intros <;> exact fun _ _ _ => rfl

theorem checksCar_still : ∀ c ∈ checksCar, c.Still := by
  simp only [checksCar, List.forall_mem_cons, List.not_mem_nil, false_imp_iff, implies_true, and_true]
  and_intros <;> exact fun _ _ _ => rfl

theorem checksSafe_still : ∀ c ∈ checksSafe, c.Still := by
  simp only [checksSafe, List.forall_mem_cons, List.not_mem_nil, false_imp_iff, implies_true, and_true]
  and_intros <;> exact fun _ _ _ => rfl

theorem checksDispatch_still : ∀ c ∈ checksDispatch, c.Still := by
  simp only [checksDispatch, List.forall_mem_cons, List.not_mem_nil, false_imp_iff, implies_true, and_true]
  and_intros <;> exact fun _ _ _ => rfl

theorem checksFabric_still : ∀ c ∈ checksFabric, c.Still := by
  simp only [checksFabric, List.forall_mem_cons, List.not_mem_nil, false_imp_iff, implies_true, and_true]
  and_intros <;> exact fun _ _ _ => rfl

theorem checksPurse_still : ∀ c ∈ checksPurse, c.Still := by
  simp only [checksPurse, List.forall_mem_cons, List.not_mem_nil, false_imp_iff, implies_true, and_true]
  and_intros <;> exact fun _ _ _ => rfl

theorem checksLedger_still : ∀ c ∈ checksLedger, c.Still := by
  simp only [checksLedger, List.forall_mem_cons, List.not_mem_nil, false_imp_iff, implies_true, and_true]
  and_intros <;> exact fun _ _ _ => rfl

/-! ### The mirror's items have a fixed length, whatever the clock shows -/

theorem le_length (w : Nat) (v : Int) : (le w v).length = w := by
  induction w generalizing v with
  | zero => rfl
  | succ w ih => rw [le, List.length_cons, ih]

theorem padTo_length (n : Nat) (b : List Octet) : (padTo n b).length = n := by
  simp only [padTo, zeros, List.length_append, List.length_take, List.length_replicate]
  omega

theorem State.purseAccounts_length (s : State) : s.purseAccounts.length = 32 := by
  simp [State.purseAccounts, le_length]

theorem State.stopsItem_length (s : State) : s.stopsItem.length = 1024 := by
  have car (c : Nat) : (s.carDsp c).length = 128 := padTo_length ..
  simp [State.stopsItem, car, padTo_length, List.range_succ]

theorem State.itemData_length_touch (n : Nat) (w : Stw) (s : State) (i : Nat) :
    ((s.touch n w).itemData i).length = (s.itemData i).length := by
  unfold State.itemData
  split
  · rfl
  split
  · unfold State.carItem
    rw [padTo_length, padTo_length]
  split
  · unfold State.doorItem
    rw [padTo_length, padTo_length]
  split
  · rw [State.stopsItem_length, State.stopsItem_length]
  split
  · simp only [List.length_append, le_length]
  · rw [State.purseAccounts_length, State.purseAccounts_length]

/-- The bytes of a mirror's items with their headers. -/
def State.mirrorSize (s : State) : Nat := (s.mirrorItems.map (fun i =>
  let n := (s.itemData i).length
  n + 16 * max 1 (ceilDiv n (s.mirrorP - 16)))).sum

theorem State.mirrorSize_touch (n : Nat) (w : Stw) (s : State) : (s.touch n w).mirrorSize = s.mirrorSize := by
  unfold State.mirrorSize
  simp only [State.itemData_length_touch]
  rfl

theorem mirrorFits_still : Chk.Still { sec := 0x81, ok := fun s => imp s.inPair (decide (s.mirrorSize ≤ s.mirrorP * s.nat TWIN.fresh_max)) } :=
  fun n w s => congrArg (fun m => imp s.inPair (decide (m ≤ s.mirrorP * s.nat TWIN.fresh_max))) (s.mirrorSize_touch n w)

theorem checksTwin_still : ∀ c ∈ checksTwin, c.Still := by
  simp only [checksTwin, List.forall_mem_cons, List.not_mem_nil, false_imp_iff, implies_true, and_true]
  refine ⟨?_, ?_, ?_, ?_, mirrorFits_still⟩ <;> exact fun _ _ _ => rfl

theorem allChecks_still : ∀ c ∈ allChecks, c.Still := by
  unfold allChecks
  simp only [List.forall_mem_append]
  exact ⟨⟨⟨⟨⟨⟨⟨⟨⟨⟨⟨⟨⟨⟨⟨checksStage_still, checksModes_still⟩, checksRatio_still⟩, checksDin_still⟩, checksFb_still⟩, checksCurrent_still⟩,
    checksAxis_still⟩, checksPath_still⟩, checksHoming_still⟩, checksCar_still⟩, checksSafe_still⟩, checksDispatch_still⟩,
    checksFabric_still⟩, checksTwin_still⟩, checksPurse_still⟩, checksLedger_still⟩

theorem State.cellsStatus_touch (n : Nat) (w : Stw) (s : State) (l : List Cell) : (s.touch n w).cellsStatus l = s.cellsStatus l := by
  unfold State.cellsStatus
  extract_lets image bad image' bad'
  have same : bad = bad' := List.filter_congr fun c mem => by
    rw [show c.ok image = c.ok image' from allChecks_still c mem n w image']
  rw [same]
  rfl

/-! ## Amendments (R640 to R643) -/

theorem State.journalAppend_asm (type learn signer objSeq : Nat) (cells : List Cell) (s : State) :
    (s.journalAppend type learn signer objSeq cells).1.stw.asm = s.stw.asm := by
  unfold State.journalAppend
  extract_lets w room e
  split
  · rfl
  split
  · rfl
  split <;> rfl

theorem State.amendmentEv_silent (status entries first seq : Nat) (s : State) :
    Fixes State.silent s (s.amendmentEv status entries first seq) := State.raise_silent ..

theorem State.takeAmendment_asm (a : Assembly) (o : Obj) (s : State) : (s.takeAmendment a o).1.stw.asm = s.stw.asm := by
  unfold State.takeAmendment
  extract_lets n l first no
  have refused (st : Nat) (x : State) : (no st x).1.stw.asm = x.stw.asm := (State.amendmentEv_silent ..).silent_asm
  clear_value no
  split
  · exact refused ..
  split
  · exact refused ..
  split
  · exact refused ..
  next c _ =>
    extract_lets st touch
    split
    · exact refused ..
    split
    · exact refused ..
    have appended := State.journalAppend_asm 1 0 o.signer o.seq c s
    generalize s.journalAppend 1 0 o.signer o.seq c = r at appended ⊢
    obtain ⟨x, st'⟩ := r
    dsimp -zeta only
    extract_lets gs p joined
    split
    · exact (refused ..).trans appended
    have hJoined : joined.stw.asm = s.stw.asm := appended
    split
    · exact hJoined
    · exact (refused ..).trans hJoined

/-- A consumed amendment: refused, it is answered with the first step it fails, and the journal is as it was. -/
structure AmdConsumed (s : State) (a : Assembly) (u : State) : Prop where
  ended : u.asmOf 1 = none
  cfg : u.cfg = s.cfg
  refused : s.objStatus a.part (readObj false a.data) ≠ 0 →
    u.stw.answers.getD 1 (0, 0) = (s.objStatus a.part (readObj false a.data), a.part) ∧ u.stw.journal = s.stw.journal

theorem State.refusal_amdConsumed {s : State} (answers : 1 < s.stw.answers.length) (a : Assembly) (t : Nat) {st : Nat}
    (status : st = s.objStatus a.part (readObj false a.data)) :
    AmdConsumed s a (((s.consumed t 1).objectEv a st).objAnswer 1 a.src a.obj a.part st 0) := by
  have told : Fixes State.silent (s.consumed t 1) ((s.consumed t 1).objectEv a st) := State.raise_silent ..
  have whole := told.trans (State.objAnswer_silent 1 a.src a.obj a.part st 0 _)
  refine ⟨?_, ?_, fun _ => ⟨?_, congrArg (fun x => x.1.journal) whole.eq⟩⟩
  · show List.getD (Stw.asm _) 1 none = none
    rw [whole.silent_asm]
    exact getD_set_none ..
  · have answered : (((s.consumed t 1).objectEv a st).objAnswer 1 a.src a.obj a.part st 0).cfg = ((s.consumed t 1).objectEv a st).cfg :=
      (State.objAnswer_keeps ..).get .cfg rfl
    exact answered.trans ((State.objectEv_keeps a st (s.consumed t 1)).get .cfg rfl)
  · rw [State.objAnswer_stw, ← status]
    have kept : ((s.consumed t 1).objectEv a st).stw.answers = s.stw.answers := by
      unfold State.objectEv
      rw [State.raise_stw]
      rfl
    show List.getD (List.set _ 1 _) 1 _ = _
    rw [kept]
    simp [List.getD_eq_getElem?_getD, answers]

theorem Assembly.answered_cfg (a : Assembly) (ix : Nat) (r : State × Option Nat) : (a.answered ix r).cfg = r.1.cfg := by
  unfold Assembly.answered
  split
  · exact (State.objAnswer_keeps ..).get .cfg rfl
  · rfl

theorem execAmendment_consumes {s : State} {a : Assembly} (complete : s.complete 1 = some a) (answers : 1 < s.stw.answers.length)
    (sound : s.stw.secError = false) (t : Nat) : Answers (AmdConsumed s a) (execAmendment t s) := by
  refine State.objRow_answers complete rfl sound t (fun _ status _ => State.refusal_amdConsumed answers a t status)
    fun o read passed => ⟨?_, ?_, fun ne => absurd (read ▸ passed) ne⟩
  · show List.getD (Stw.asm _) 1 none = none
    rw [(a.answered_silent 1 _).silent_asm, State.takeAmendment_asm]
    exact getD_set_none ..
  · have kept : (((s.consumed t 1).noteSeq o).takeAmendment a o).1.cfg = ((s.consumed t 1).noteSeq o).cfg :=
      (State.takeAmendment_keeps a o _).get .cfg rfl
    rw [Assembly.answered_cfg, kept]
    rfl

/-- The amendment `o` with the cells `c` passes the checks of R640, and the journal has room. -/
structure AmdPassing (s : State) (o : Obj) (c : List Cell) : Prop where
  awake : s.mode.mode ≠ 0
  digest : sub o.body 0 64 = s.wbDigest
  cells : cellsOf ((amdEntries (num o.body 0x40 2) (o.body.drop 0x48)).getD []) = .ok c
  status : State.cellsStatus c { s with cfg := s.newest } = 0
  few : s.stw.amds.length < 16
  notFull : s.stw.jFull = false
  idle : s.stw.compacting = false
  room : s.stw.jUsed + entryRoom c ≤ journalHalf

/-- How many amendments wait, and how many entries the journal has. -/
def State.amdCount (s : State) : Nat × Nat := (s.stw.amds.length, s.stw.journal.length)

theorem Fixes.silent_amdCount {s t : State} (h : Fixes State.silent s t) : t.amdCount = s.amdCount :=
  congrArg (fun x => (x.1.amds.length, x.1.journal.length)) h.eq

theorem State.journalAppend_appends {s : State} {c : List Cell} (notFull : s.stw.jFull = false) (idle : s.stw.compacting = false)
    (room : s.stw.jUsed + entryRoom c ≤ journalHalf) (type learn signer objSeq : Nat) :
    (s.journalAppend type learn signer objSeq c).1.amdCount = (s.stw.amds.length, s.stw.journal.length + 1) ∧
      (s.journalAppend type learn signer objSeq c).2 = 0 := by
  unfold State.journalAppend
  extract_lets w room' e
  rw [if_neg (by simp [w, notFull]), if_neg (by simp [w, idle]), if_neg (Nat.not_lt.mpr room)]
  refine ⟨?_, rfl⟩
  show (_, (s.stw.journal ++ [e]).length) = _
  rw [List.length_append]
  rfl

theorem State.takeAmendment_appends {s : State} {o : Obj} {c : List Cell} (p : AmdPassing s o c) (a : Assembly) :
    (s.takeAmendment a o).1.amdCount = (s.stw.amds.length + 1, s.stw.journal.length + 1) := by
  obtain ⟨awake, digest, cells, status, few, notFull, idle, room⟩ := p
  unfold State.takeAmendment
  extract_lets n l first no
  rw [if_neg awake, if_neg (not_not_intro digest), show cellsOf l = .ok c from cells]
  dsimp -zeta only
  extract_lets st touch gs p joined
  obtain ⟨count, zero⟩ := State.journalAppend_appends notFull idle room 1 0 o.signer o.seq
  rw [if_neg (not_not_intro status), if_neg (by omega), if_neg (not_not_intro zero)]
  have hJoined : joined.amdCount = (s.stw.amds.length + 1, s.stw.journal.length + 1) := by
    obtain ⟨amds, journal⟩ := Prod.mk.inj count
    refine Prod.ext ?_ journal
    show (_ ++ [p]).length = _
    rw [List.length_append, List.length_map, amds]
    rfl
  split
  · exact hJoined
  · exact (State.amendmentEv_silent ..).silent_amdCount.trans hJoined

theorem execAmendment_appends {s : State} {a : Assembly} {o : Obj} {c : List Cell} (complete : s.complete 1 = some a)
    (sound : s.stw.secError = false) (read : readObj false a.data = some o) (passed : s.objStatus a.part (some o) = 0)
    (p : AmdPassing s o c) (t : Nat) :
    Answers (fun u => u.amdCount = (s.stw.amds.length + 1, s.stw.journal.length + 1)) (execAmendment t s) := by
  refine State.objRow_takes complete read passed rfl sound t ?_
  rw [(a.answered_silent 1 _).silent_amdCount]
  obtain ⟨awake, digest, cells, status, few, notFull, idle, room⟩ := p
  exact State.takeAmendment_appends (s := (s.consumed t 1).noteSeq o) ⟨awake, digest, cells,
    (State.cellsStatus_touch _ _ { s with cfg := s.newest } c).trans status, few, notFull, idle, room⟩ a

/-- What takes effect at a boundary: the image in force, and the amendments that wait. -/
def State.inForce (s : State) : List Cell × List PendAmd := (s.cfg, s.stw.amds)

theorem State.supersede_none {s : State} (none_ : s.survey.pend = []) (p : PendAmd) : s.supersede p = s := by
  unfold State.supersede
  rw [none_]
  rfl

theorem State.commitAmd_commits {s : State} {p : PendAmd} (only : s.stw.amds = [p]) (none_ : s.survey.pend = []) :
    (s.commitAmd p).inForce = (applyCells s.cfg p.cells, []) := by
  unfold State.commitAmd
  extract_lets superseded _ applied first
  have hApplied : applied.inForce = (applyCells s.cfg p.cells, []) := by
    unfold applied superseded
    rw [State.supersede_none none_]
    unfold State.inForce
    dsimp only
    rw [only]
    simp
  have told := State.amendmentEv_silent 0 p.cells.length first p.objSeq applied
  have answered := told.trans (State.objAnswer_silent 1 p.src p.obj p.part 0 0 _)
  have answer_cfg : ((applied.amendmentEv 0 p.cells.length first p.objSeq).objAnswer 1 p.src p.obj p.part 0 0).cfg =
      (applied.amendmentEv 0 p.cells.length first p.objSeq).cfg := (State.objAnswer_keeps ..).get .cfg rfl
  have told_cfg : (applied.amendmentEv 0 p.cells.length first p.objSeq).cfg = applied.cfg := (State.amendmentEv_keeps ..).get .cfg rfl
  refine Prod.ext ?_ ?_
  · exact (answer_cfg.trans told_cfg).trans (congrArg Prod.fst hApplied)
  · exact (congrArg (fun x => x.1.amds) answered.eq).trans (congrArg Prod.snd hApplied)

theorem State.cmpAmended_inForce (s old : State) : Fixes State.inForce s (s.cmpAmended old) := by
  have kept : Keeps [.cmp] s (s.cmpAmended old) := State.cmpAmended_keeps ..
  have cfg : (s.cmpAmended old).cfg = s.cfg := kept.get .cfg rfl
  have stw : (s.cmpAmended old).stw = s.stw := kept.get .stw rfl
  exact ⟨by unfold State.inForce; rw [cfg, stw]⟩

theorem execAmendmentCommit_commits {s : State} {t : Nat} {p : PendAmd} (boundary : max s.now t = s.stage.openedAt)
    (only : s.stw.amds = [p]) (ready : s.groupReady p.grp = true) (none_ : s.survey.pend = []) :
    Answers (fun u => u.inForce = (applyCells s.cfg p.cells, [])) (execAmendmentCommit t s) := by
  unfold execAmendmentCommit
  extract_lets ticked committed
  have due : ticked.amdsDue = [p] := by
    show s.stw.amds.filter (fun q => s.groupReady q.grp) = [p]
    rw [only, List.filter_cons, ready]
    rfl
  rw [if_neg (by rw [State.atBoundary_of boundary, due]; simp)]
  refine .next ?_
  have hCommitted : committed = (ticked.commitAmd p).cmpAmended ticked := by
    unfold committed
    rw [due]
    rfl
  have done : committed.inForce = (applyCells s.cfg p.cells, []) := by
    rw [hCommitted, (State.cmpAmended_inForce ..).eq, State.commitAmd_commits (by exact only) (by exact none_)]
    rfl
  clear_value committed
  exact done

/-! ## The unsigned owner key (R623, R632) -/

/-- A Waking that begins: the unit resets, or has. -/
theorem State.beginWaking_resets (s : State) : s.beginWaking.wake.resetting = true ∨ s.beginWaking.wake.phase = 0 := by
  unfold State.beginWaking
  extract_lets flushed resetting
  have hResetting : resetting.wake.resetting = true := rfl
  clear_value resetting
  split
  · right
    unfold State.resetEnd
    rw [if_pos hResetting]
    rfl
  · exact .inl hResetting

theorem State.beginWaking_owners (s : State) : s.beginWaking.stw.owners = s.stw.owners := by
  obtain h | h := s.beginWaking_stw
  · rw [h]
  · rw [h]
    rfl

/-- A consumed owner-key object without a signature. -/
structure UnsignedTaken (s : State) (a : Assembly) (u : State) : Prop where
  ended : u.asmOf 2 = none
  elsewhere : a.src ≠ 65536 → u.stw.answers.getD 2 (0, 0) = (6, a.part) ∧ u.stw.owners = s.stw.owners
  fused : ∀ o, a.src = 65536 → readObj true a.data = some o → s.unsignedStatus a.part (some o) = 0 →
    nth u.stw.owners 0 = { state := 1, pk := sub o.body 8 64, lastSeq := 1 } ∧ (u.wake.resetting = true ∨ u.wake.phase = 0)

theorem execUnsignedOwnerKey_takes {s : State} {a : Assembly} (complete : s.complete 2 = some a) (unsigned_ : num a.data 5 1 = 255)
    (sound : s.stw.secError = false) (owners : s.stw.owners.length = 4) (answers : 2 < s.stw.answers.length) (t : Nat) :
    Answers (UnsignedTaken s a) (execUnsignedOwnerKey t s) := by
  unfold execUnsignedOwnerKey
  extract_lets ticked taken
  rw [show ticked.complete 2 = some a from complete]
  dsimp -zeta only
  rw [if_neg (by simp [unsigned_])]
  extract_lets o st
  have o_eq : o = readObj true a.data := rfl
  have st_eq : st = if a.src ≠ 65536 then 6 else s.unsignedStatus a.part o := by
    unfold st
    rw [if_neg (by rw [show taken.stw.secError = false from sound]; decide)]
    rfl
  have gone : taken.stw.asm.getD 2 none = none := getD_set_none ..
  clear_value st o
  split
  next o' =>
    extract_lets fused
    have here : a.src = 65536 := by
      refine Decidable.byContradiction fun elsewhere => ?_
      rw [if_pos elsewhere] at st_eq
      cases st_eq
    have silent := State.objAnswer_silent 2 a.src a.obj a.part 0 0 fused
    refine .next ⟨State.beginWaking_asm ?_, fun elsewhere => absurd here elsewhere, fun q _ read _ => ?_⟩
    · unfold State.asmOf
      rw [silent.silent_asm]
      exact gone
    · refine ⟨?_, State.beginWaking_resets _⟩
      obtain rfl : o' = q := Option.some.inj (o_eq.trans read)
      rw [State.beginWaking_owners, silent.silent_owners]
      exact nth_set_same (by rw [show taken.stw.owners.length = 4 from owners]; decide) _
  next ne =>
    have told : Fixes State.silent taken (if st = 13 then taken else taken.objectEv a st) :=
      .ite (.refl taken) (State.raise_silent ..)
    have told_answers : (if st = 13 then taken else taken.objectEv a st).stw.answers = s.stw.answers := by
      split
      · rfl
      · unfold State.objectEv
        rw [State.raise_stw]
        rfl
    have whole := told.trans (State.objAnswer_silent 2 a.src a.obj a.part st 0 _)
    refine .next ⟨?_, fun elsewhere => ⟨?_, whole.silent_owners⟩, fun q here read zero => ?_⟩
    · unfold State.asmOf
      rw [whole.silent_asm]
      exact gone
    · rw [if_pos elsewhere] at st_eq
      rw [State.objAnswer_stw]
      show List.getD (List.set _ 2 _) 2 _ = _
      rw [told_answers, st_eq]
      simp [List.getD_eq_getElem?_getD, answers]
    · rw [if_neg (not_not_intro here), o_eq, read, zero] at st_eq
      exact absurd (o_eq.trans read) (ne q st_eq)

/-! ## Key activation and compaction (R630, R644) -/

theorem execKeyActivation_activates {s : State} {t gen : Nat} (waits : s.stw.keyAt = some (gen, 0))
    (boundary : max s.now t = s.stage.openedAt) (other : s.fab.keyOther = gen) :
    Answers (fun u => u.ring = (s.fab.keys, gen, s.fab.keyCur) ∧ u.stw.keyAt = none) (execKeyActivation t s) := by
  unfold execKeyActivation
  extract_lets ticked cur
  rw [show ticked.stw.keyAt = some (gen, 0) from waits]
  dsimp -zeta only
  rw [if_neg (by rw [State.atBoundary_of boundary, show ticked.fab.keyOther = gen from other]; simp)]
  extract_lets current
  have silent := State.keyEv_silent gen 1 cur (current.onStw fun w => { w with keyAt := none })
  exact .next ⟨silent.silent_ring, congrArg (fun x => x.1.keyAt) silent.eq⟩

theorem execJournalCompactionDone_ends {s : State} (compacting : s.stw.compacting = true) (t : Nat) :
    Answers (fun u => u.stw.compacting = false) (execJournalCompactionDone t s) := by
  unfold execJournalCompactionDone
  extract_lets ticked
  rw [if_pos (show ticked.stw.compacting = true from compacting)]
  refine .next ?_
  unfold State.journalCompact
  extract_lets erased w other ds l numbered used
  split <;> rfl

/-- Settles O57: the checks of the amended image read neither the clock nor the Steward's state, which consuming the object
changes. -/
theorem amendmentsAndKeys : Obligations.AmendmentsAndKeys := by
  refine ⟨⟨fun s t a complete answers owners sound => ?_, fun s t p boundary only ready none_ => ?_⟩,
    fun s t a complete unsigned_ sound owners answers => ?_, fun s t gen waits boundary other => ?_,
    fun s t compacting => execJournalCompactionDone_ends compacting t⟩
  · obtain ⟨u, h, r⟩ := execAmendment_consumes complete answers sound t
    refine ⟨u, h, r.ended, r.cfg, r.refused, fun o c read passed awake digest cells status few notFull idle room => ?_⟩
    exact Prod.mk.inj ((execAmendment_appends complete sound read passed ⟨awake, digest, cells, status, few, notFull, idle, room⟩
      t).of_next h)
  · obtain ⟨u, h, r⟩ := execAmendmentCommit_commits boundary only ready none_
    exact ⟨u, h, Prod.mk.inj r⟩
  · obtain ⟨u, h, r⟩ := execUnsignedOwnerKey_takes complete unsigned_ sound owners answers t
    exact ⟨u, h, r.ended, r.elsewhere, r.fused⟩
  · obtain ⟨u, h, ring, keyAt⟩ := execKeyActivation_activates waits boundary other
    simp only [State.ring, Prod.mk.injEq] at ring
    obtain ⟨keys, cur, old⟩ := ring
    exact ⟨u, h, cur, old, keyAt, keys⟩

end Sys2Proof.Machine

namespace Sys2Proof.Machine

/-! # Supply, reset and the course of Waking (R547, R637, R660 to R667, R673, R717, R724) -/

/-! ## A record that waits is not lost before it is flushed -/

/-- A record that waits in `s` leaves one that waits in `t`. -/
structure StillWaits (s t : State) : Prop where
  waits : s.led.buf ≠ [] → t.led.buf ≠ []

namespace StillWaits

variable {s t u : State}

theorem refl (s : State) : StillWaits s s := ⟨id⟩

theorem trans (h : StillWaits s t) (k : StillWaits t u) : StillWaits s u := ⟨fun x => k.waits (h.waits x)⟩

theorem of_led (h : t.led = s.led) : StillWaits s t := ⟨fun x => h ▸ x⟩

theorem ite {a b : State} {c : Prop} [Decidable c] (h : StillWaits s a) (k : StillWaits s b) : StillWaits s (if c then a else b) := by
  split <;> assumption

theorem foldl {β : Type} {f : State → β → State} (h : ∀ t a, StillWaits t (f t a)) (l : List β) (s : State) :
    StillWaits s (l.foldl f s) :=
  List.foldlRecOn l f (refl s) fun _ k a _ => k.trans (h _ a)

theorem of_keeps {W : List Fld} (k : Keeps W s t) (w : W.contains .led = false) : StillWaits s t := of_led (k.get .led w)

end StillWaits

theorem State.beginFlush_waits (s : State) : StillWaits s s.beginFlush := by
  refine ⟨fun waits gone => waits ?_⟩
  have same := congrArg Prod.snd (State.beginFlush_entries s).eq
  rw [State.entries, gone] at same
  exact List.map_eq_nil_iff.mp same.symm

theorem State.enterRec_waits (r : LedRec) (s : State) : StillWaits s (s.enterRec r) := by
  unfold State.enterRec
  extract_lets r' b _ entered
  have h : StillWaits s entered := ⟨fun _ => by simp [entered, b]⟩
  exact h.trans (.ite (State.beginFlush_waits _) (.refl _))

theorem State.ledTake_waits (o : Occ) (s : State) : StillWaits s (s.ledTake o) := by
  refine .ite ⟨id⟩ (.ite ⟨fun waits => ?_⟩ (.ite (.ite (State.enterRec_waits ..) (.ite ⟨id⟩ ⟨id⟩)) (.ite ⟨id⟩ (State.enterRec_waits ..))))
  obtain ⟨r, last⟩ := Option.ne_none_iff_exists'.mp (mt List.getLast?_eq_none_iff.mp waits)
  show _ ++ _ ≠ []
  rw [last]
  simp

theorem State.raise_waits (code : Nat) (pl : List Octet) (v : Nat) (s : State) : StillWaits s (s.raise code pl v) := by
  unfold State.raise
  extract_lets sv o ledger counted before
  split
  next led fab nevt _ =>
  extract_lets taken kept sent
  have hCounted : StillWaits s counted := ⟨id⟩
  have hTaken : StillWaits s taken := .ite (hCounted.trans (State.ledTake_waits ..)) hCounted
  have hSent : StillWaits s sent := .ite (hTaken.trans (.ite ⟨id⟩ ⟨id⟩)) hTaken
  exact .ite (hSent.trans (.ite (.refl sent) ⟨id⟩)) hSent

theorem State.orderSto_waits (a code : Nat) (s : State) : StillWaits s (s.orderSto a code) :=
  .ite (.refl s) (.trans (t := s.onStop a _) ⟨id⟩ (State.raise_waits ..))

theorem State.onChan_waits (b : Bool) (f : SafeChan → SafeChan) (s : State) : StillWaits s (s.onChan b f) := ⟨id⟩

theorem State.outputFault_waits (o ch cause react : Nat) (s : State) : StillWaits s (s.outputFault o ch cause react) := by
  unfold State.outputFault
  extract_lets react' latched told halted dropped
  have hTold : StillWaits s told := .trans (t := latched) ⟨id⟩ (State.raise_waits ..)
  have hHalted : StillWaits s halted := .ite (hTold.trans ⟨id⟩) hTold
  have hDropped : StillWaits s dropped := .ite (hHalted.trans ⟨id⟩) hHalted
  exact .ite (.refl s) (.ite (.ite (hDropped.trans (.foldl (fun t a => .ite (State.orderSto_waits ..) (.refl t)) _ _))
    (.ite (hDropped.trans (State.orderSto_waits ..)) hDropped)) hDropped)

theorem State.driveOut_waits (b : Bool) (o : Nat) (s : State) : StillWaits s (s.driveOut b o) := by
  unfold State.driveOut
  extract_lets judged v was driven
  have hJudged : StillWaits s judged := .ite (State.outputFault_waits ..) (.refl s)
  have hDriven : StillWaits s driven := hJudged.trans ⟨id⟩
  exact .ite hDriven (hDriven.trans ⟨id⟩)

theorem State.dropChan_waits (b : Bool) (s : State) : StillWaits s (s.dropChan b) := by
  have h : StillWaits s (s.onChan b fun c => { c with dead := true }) := ⟨id⟩
  refine h.trans (.trans (.foldl (fun t o => t.driveOut_waits b o) _ _) (.foldl (fun t a => ?_) _ _))
  exact .of_keeps (State.gatesFollow_keeps a t) rfl

theorem State.holdMotion_waits (s : State) : StillWaits s s.holdMotion := by
  unfold State.holdMotion
  extract_lets +onlyGivenNames clk stage disp twin held
  have hHeld : StillWaits s held := ⟨id⟩
  refine hHeld.trans (.trans (.foldl (fun t a => ?_) _ _) (State.dropChan_waits ..))
  exact .of_keeps (State.gatesOff_keeps a _ t) rfl

/-! ## Supply and reset (R547, R717, R724) -/

/-- What a supply that comes up leaves. -/
structure Supplied (s : State) (t : Nat) (u : State) : Prop where
  supply : u.wake.supply = true
  phase : u.wake.phase = 0
  begun : u.wake.from_ = max s.now t
  stopped : u.stage.running = false
  owners : u.stw.owners = s.stw.owners
  slots : u.led.slots = s.led.slots

theorem execSupplyUp_supplies {s : State} (down : s.wake.supply = false) (t : Nat) : Answers (Supplied s t) (execSupplyUp t s) := by
  unfold execSupplyUp
  extract_lets ticked
  rw [if_neg (by rw [show ticked.wake.supply = false from down]; decide)]
  exact .next ⟨rfl, rfl, rfl, rfl, rfl, rfl⟩

theorem State.enterSummaries_waits (all : Bool) (room : Nat) (l : List SumCnt) (s : State) :
    StillWaits s (State.enterSummaries all room l s) := by
  induction l generalizing s with
  | nil => exact .refl s
  | cons c l ih =>
    unfold State.enterSummaries
    refine .ite ?_ (.refl s)
    extract_lets entered
    have hEntered : StillWaits s entered := State.enterRec_waits ..
    refine hEntered.trans (.trans ?_ (ih _))
    exact ⟨id⟩

theorem State.beginFlush_powerFlush (s : State) : s.beginFlush.led.powerFlush = s.led.powerFlush := by
  unfold State.beginFlush
  split <;> rfl

theorem marked_ne_nil {l : List LedRec} (h : l ≠ []) (f : LedRec → LedRec) : l.dropLast ++ l.getLast?.toList.map f ≠ [] := by
  obtain ⟨r, last⟩ := Option.ne_none_iff_exists'.mp (mt List.getLast?_eq_none_iff.mp h)
  rw [last]
  simp

/-- A flush of the power's end begins, and a record that waits keeps it going. -/
theorem State.powerFlushBegin_flushes {s : State} (waits : s.led.buf ≠ []) :
    s.powerFlushBegin.led.powerFlush = true ∧ s.powerFlushBegin.led.buf ≠ [] := by
  unfold State.powerFlushBegin
  split
  next already => exact ⟨already, waits⟩
  next =>
    extract_lets n summed lost mark b marked _ begun
    have hSummed : b ≠ [] := (State.enterSummaries_waits ..).waits waits
    have hMarked : marked ≠ [] := by
      unfold marked
      split
      · exact marked_ne_nil hSummed mark
      · exact hSummed
    have hBegun : begun.led.buf ≠ [] := (State.beginFlush_waits _).waits (by exact hMarked)
    rw [if_neg hBegun]
    exact ⟨State.beginFlush_powerFlush _, hBegun⟩

/-- What nRESET leaves. -/
structure ResetHeld (u : State) : Prop where
  low : u.wake.resetLow = true
  resetting : u.wake.resetting = true
  held : u.clk.motionHeld = true
  stopped : u.stage.running = false
  flush : u.led.powerFlush = true

theorem execNresetAssert_holds {s : State} (up : s.wake.supply = true) (free : s.wake.resetting = false) (waits : s.led.buf ≠ []) (t : Nat) :
    Answers ResetHeld (execNresetAssert t s) := by
  unfold execNresetAssert
  extract_lets low reset
  rw [if_neg (by
    rintro (down | busy | ⟨-, empty⟩)
    · rw [show low.wake.supply = true from up] at down
      cases down
    · exact absurd (busy.symm.trans free) (by decide)
    · exact waits empty)]
  have hDropped : StillWaits low (low.dropChan true) := State.dropChan_waits ..
  have hHeld : StillWaits low (low.dropChan true).holdMotion := hDropped.trans (State.holdMotion_waits _)
  obtain ⟨flush, buf⟩ := State.powerFlushBegin_flushes (hHeld.waits waits)
  have kept : Keeps [.led] (low.dropChan true).holdMotion (low.dropChan true).holdMotion.powerFlushBegin :=
    State.powerFlushBegin_keeps _
  have clk : (low.dropChan true).holdMotion.powerFlushBegin.clk = (low.dropChan true).holdMotion.clk := kept.get .clk rfl
  have stage : (low.dropChan true).holdMotion.powerFlushBegin.stage = (low.dropChan true).holdMotion.stage := kept.get .stage rfl
  have wake : (low.dropChan true).holdMotion.powerFlushBegin.wake = low.wake := by
    have k : Keeps [.clk, .stage, .disp, .cax, .safe, .twin, .led, .mode] low (low.dropChan true).holdMotion.powerFlushBegin :=
      Keeps.after kept (Keeps.after (State.holdMotion_keeps ..) (Keeps.after (State.dropChan_keeps ..) (.refl _ low) rfl) rfl) rfl
    exact k.get .wake rfl
  have motion := State.holdMotion_clk (low.dropChan true)
  have stopped := State.holdMotion_stopped (low.dropChan true)
  unfold reset
  generalize (low.dropChan true).holdMotion = x at *
  generalize x.powerFlushBegin = y at *
  refine .next ?_
  rw [if_neg (by exact buf)]
  refine ⟨?_, rfl, ?_, ?_, flush⟩
  · show y.wake.resetLow = true
    rw [wake]
    rfl
  · show y.clk.motionHeld = true
    rw [clk, motion]
  · show y.stage.running = false
    rw [stage, stopped]

theorem execNresetRelease_releases (s : State) (t : Nat) :
    Answers (fun u => u.wake.resetLow = false ∧ (s.wake.resetting = false → s.wake.phase = 0 → u.wake.from_ = max s.now t))
      (execNresetRelease t s) := by
  unfold execNresetRelease
  extract_lets high
  refine .next ⟨?_, fun free zero => ?_⟩
  · split <;> rfl
  · rw [if_pos ⟨by rw [show high.wake.resetting = false from free]; rfl, zero⟩]
    rfl

/-! ## The start of a Waking (R58, R663) -/

theorem find_slot_map {l : List Slot} {f : Slot → Slot} (st : Nat) (same : ∀ x, ((f x).state == st) = (x.state == st)) :
    (List.range 2).find? (fun k => (nth (l.map f) k).state == st) = (List.range 2).find? (fun k => (nth l k).state == st) := by
  congr 1
  funext k
  by_cases h : k < l.length
  · simp [nth, List.getD_eq_getElem?_getD, h, same]
  · simp [nth, List.getD_eq_getElem?_getD, Nat.le_of_not_lt h]

/-- The slot that a Waking takes, and what it has counted. -/
structure Woken (s : State) (k : Nat) (u : State) : Prop where
  phase : u.wake.phase = 1
  slot : u.wake.slot = k
  trial : u.wake.trial = false
  boots : u.stw.boots = s.stw.boots + 1
  up : u.clk.motionHeld = false

theorem State.bootFrom_boots {s : State} {k : Nat} (boot : s.slotIn 4 = some k) :
    s.bootFrom.wake.phase = 1 ∧ s.bootFrom.wake.slot = k ∧ s.bootFrom.wake.trial = false ∧ s.bootFrom.stw = s.stw ∧
      s.bootFrom.clk = s.clk := by
  unfold State.bootFrom
  extract_lets bare
  rw [show bare.slotIn 4 = some k from boot]
  exact ⟨rfl, rfl, rfl, rfl, rfl⟩

theorem State.chooseSlot_boots {s : State} {k : Nat} (noTrial : s.slotIn 5 = none) (boot : s.slotIn 4 = some k) :
    s.chooseSlot.wake.phase = 1 ∧ s.chooseSlot.wake.slot = k ∧ s.chooseSlot.wake.trial = false ∧
      s.chooseSlot.stw.boots = s.stw.boots ∧ s.chooseSlot.clk = s.clk := by
  unfold State.chooseSlot
  extract_lets freed
  have slots (st : Nat) (other : st ≠ 0) (notLoading : st ≠ 1) : freed.slotIn st = s.slotIn st := by
    refine find_slot_map st fun x => ?_
    by_cases loading : x.state = 1
    · rw [if_pos loading, loading]
      exact (beq_false_of_ne other.symm).trans (beq_false_of_ne notLoading.symm).symm
    · simp [loading]
  rw [slots 5 (by decide) (by decide), noTrial]
  obtain ⟨phase, slot, trial, stw, clk⟩ := State.bootFrom_boots ((slots 4 (by decide) (by decide)).trans boot)
  exact ⟨phase, slot, trial, by rw [stw]; rfl, by rw [clk]; rfl⟩

theorem State.ledgerWake_stw (s : State) : s.ledgerWake.stw = { s.stw with boots := s.stw.boots + 1 } := by
  unfold State.ledgerWake
  rw [State.raise_stw]
  rfl

theorem execWaking_wakes {s : State} {k : Nat} {n : NorFacts} (up : s.wake.supply = true) (high : s.wake.resetLow = false)
    (free : s.wake.resetting = false) (zero : s.wake.phase = 0) (owned : s.owned = true) (present : n.present = true)
    (size : 256 ≤ n.mbit) (noTrial : s.slotIn 5 = none) (boot : s.slotIn 4 = some k) (t : Nat) :
    Answers (Woken s k) (execWaking t [] n s) := by
  unfold execWaking
  extract_lets ticked waked
  have hWaked : waked = ticked := by
    have none_ : ticked.resetEnd = ticked := if_neg (by rw [show ticked.wake.resetting = false from free]; decide)
    rw [show waked = if _ then ticked.resetEnd else ticked from rfl, none_, ite_self]
  clear_value waked
  subst hWaked
  rw [if_neg (by simp [ticked, up, high, free, zero])]
  refine .next ?_
  unfold State.startWaking
  extract_lets railed kept _ released known logged sized
  have stw : logged.stw = { kept.stw with boots := s.stw.boots + 1 } := State.ledgerWake_stw known
  have clk : logged.clk = released.clk := (State.ledgerWake_keeps known).get .clk rfl
  have slotIn (st : Nat) : sized.slotIn st = s.slotIn st :=
    State.slotIn_congr (show logged.stw.slots = s.stw.slots by rw [stw]; rfl) st
  have isOwned : logged.owned = true := by
    unfold State.owned
    rw [stw]
    exact owned
  rw [if_neg (by simp), if_neg (by simp), if_neg (by rw [isOwned]; decide), if_neg (by simp [present]; exact size)]
  obtain ⟨phase, slot, trial, boots, up'⟩ :=
    State.chooseSlot_boots (s := sized) ((slotIn 5).trans noTrial) ((slotIn 4).trans boot)
  refine ⟨phase, slot, trial, ?_, ?_⟩
  · rw [boots, show sized.stw = logged.stw from rfl, stw]
  · rw [up', show sized.clk = logged.clk from rfl, clk]

/-! ## The containers and the sections (R637, R660 to R667, R673) -/

/-- The checks of a container read neither the slots nor the clock. -/
theorem State.containerCause_onSlot (k t part api : Nat) (f : Slot → Slot) (c : Container) (s : State) :
    ((s.tick t).onSlot k f).containerCause part api c = s.containerCause part api c := by
  unfold State.containerCause
  rfl

/-- Bare Halt: no image is in force. -/
structure BareHalt (u : State) : Prop where
  bare : u.wake.bare = true
  phase : u.wake.phase = 8
  halt : u.mode.mode = 6

theorem State.bareHalt_halts (w : Option Container) (s : State) : BareHalt (s.bareHalt w) := by
  unfold State.bareHalt
  extract_lets fab cells unloaded bare
  have kept : (if fab then bare.fabricUp else bare).wake = bare.wake := by
    split
    · exact (State.fabricUp_keeps bare).get .wake rfl
    · rfl
  have wake : ((if fab then bare.fabricUp else bare).wakeStop 10).wake = { bare.wake with phase := 8 } := by
    unfold State.wakeStop
    extract_lets stopped
    have same : ({ stopped with mode := { stopped.mode with halt := setBit stopped.mode.halt 10 true } }.setMode 6 10).wake = stopped.wake :=
      (State.setMode_keeps ..).get .wake rfl
    refine same.trans ?_
    show { (if fab then bare.fabricUp else bare).wake with phase := 8 } = _
    rw [kept]
  refine ⟨by rw [wake]; rfl, by rw [wake], State.setMode_mode ..⟩

theorem State.imageFails_halts {s : State} (noTrial : s.wake.trial = false) (part cause : Nat) (sec : Option Nat) (w : Option Container) :
    BareHalt (s.imageFails part cause sec w) := by
  unfold State.imageFails
  rw [if_neg (by rw [noTrial]; decide)]
  exact State.bareHalt_halts ..

/-- The check of a container: passed, the Waking goes on with `P`; failed in the BOOT slot, the unit is in bare Halt. -/
def Checked (passes : Prop) (trial : Bool) (P : State → Prop) (u : State) : Prop :=
  (passes → P u) ∧ (¬ passes → trial = false → BareHalt u)

theorem execContainerChecked_fw {s : State} (phase : s.wake.phase = 1) (t : Nat) (c : Container) :
    Answers (Checked (s.containerCause 1 0 c = none) s.wake.trial fun u => u.wake.phase = 2 ∧ u.wake.fw = c)
      (execContainerChecked t 1 c s) := by
  unfold execContainerChecked
  extract_lets ticked put put'
  rw [if_pos ⟨rfl, phase⟩, show put.containerCause 1 0 c = s.containerCause 1 0 c from State.containerCause_onSlot ..]
  cases s.containerCause 1 0 c with
  | none => exact .next ⟨fun _ => ⟨rfl, rfl⟩, fun ne => absurd rfl ne⟩
  | some e => exact .next ⟨nofun, fun _ noTrial => State.imageFails_halts (by exact noTrial) ..⟩

theorem execContainerChecked_wb {s : State} (phase : s.wake.phase = 2) (t : Nat) (c : Container) :
    Answers (Checked (s.containerCause 2 s.wake.fw.api c = none) s.wake.trial fun u => u.wake.phase = 3 ∧ u.wake.wb = c)
      (execContainerChecked t 2 c s) := by
  unfold execContainerChecked
  extract_lets ticked put put'
  rw [if_neg (by simp), if_pos ⟨rfl, phase⟩,
    show put'.containerCause 2 put'.wake.fw.api c = s.containerCause 2 s.wake.fw.api c from State.containerCause_onSlot ..]
  cases s.containerCause 2 s.wake.fw.api c with
  | none => exact .next ⟨fun _ => ⟨rfl, rfl⟩, fun ne => absurd rfl ne⟩
  | some e => exact .next ⟨nofun, fun _ noTrial => State.imageFails_halts (by exact noTrial) ..⟩

theorem execContainerLoaded_loads {s : State} (phase : s.wake.phase = 3) (t : Nat) (x y : List Octet) :
    Answers (Checked (x = s.wake.fw.digest ∧ y = s.wake.wb.digest) s.wake.trial fun u => u.wake.phase = 4)
      (execContainerLoaded t x y s) := by
  unfold execContainerLoaded
  extract_lets ticked
  rw [if_neg (show ¬ ticked.wake.phase ≠ 3 from not_not_intro phase)]
  refine .ite_of (fun ne => .next ⟨fun ok => absurd ok.1 ne, fun _ noTrial => State.imageFails_halts (by exact noTrial) ..⟩) fun fw => ?_
  refine .ite_of (fun ne => .next ⟨fun ok => absurd ok.2 ne, fun _ noTrial => State.imageFails_halts (by exact noTrial) ..⟩) fun wb => ?_
  exact .next ⟨fun _ => rfl, fun no => absurd ⟨Decidable.not_not.mp fw, Decidable.not_not.mp wb⟩ no⟩

theorem execSectionCheck_checks {s : State} (phase : s.wake.phase = 4) (t : Nat) :
    Answers (Checked ((s.tick t).sectionFault = none) s.wake.trial fun u => u.wake.phase = 5) (execSectionCheck t s) := by
  unfold execSectionCheck
  extract_lets ticked
  rw [if_neg (show ¬ ticked.wake.phase ≠ 4 from not_not_intro phase)]
  cases ticked.sectionFault with
  | none => exact .next ⟨fun _ => rfl, fun ne => absurd rfl ne⟩
  | some e => exact .next ⟨nofun, fun _ noTrial => State.imageFails_halts (by exact noTrial) ..⟩

/-! ## The journal, and Stage 0 (R58, R59, R667) -/

theorem State.learnTarget_now (e : JEntry) (s : State) : (s.learnTarget e).2.now = s.now := by
  unfold State.learnTarget
  extract_lets ix
  split <;> rfl

theorem State.skipSurvey_now (e : JEntry) (reason : Nat) (s : State) : Fixes State.now s (s.skipSurvey e reason) := by
  constructor
  show (State.raise 0x70 _ (State.learnTarget e _).2).now = _
  rw [State.raise_now, State.learnTarget_now]
  rfl

theorem State.replayOne_now (last : Bool) (e : JEntry) (s : State) : Fixes State.now s (s.replayOne last e) := by
  unfold State.replayOne
  extract_lets survey own st applied counted
  have hSkip (a b : Nat) : Fixes State.now s (s.skipEntry e a b) := ⟨State.raise_now ..⟩
  exact .ite (.refl s) (.ite (.ite ⟨rfl⟩ (.ite (State.skipSurvey_now ..) (hSkip ..))) (.ite (State.skipSurvey_now ..)
    (.ite (.refl s) (.ite (.ite (State.skipSurvey_now ..) (hSkip ..)) (.ite ⟨rfl⟩ ⟨rfl⟩)))))

theorem State.replay_now (s : State) : Fixes State.now s s.replay := by
  unfold State.replay
  extract_lets n
  exact .foldl (fun t (x : JEntry × Nat) => State.replayOne_now (x.2 + 1 == n) x.1 t) _ s

/-- What the replay of the journal leaves: Stage 0 begins. -/
structure Begun (s : State) (t : Nat) (u : State) : Prop where
  phase : u.wake.phase = 6
  running : u.stage.running = true
  opened : u.stage.openedAt = max s.now t
  epoch : u.stage.epoch = 0xFFFFFFFFFFFF
  offsets : u.acq.from_ = some 0
  tasks : u.disp.tasks.length = s.graph.tasks.length

theorem execJournalReplay_begins {s : State} (phase : s.wake.phase = 5) (t : Nat) : Answers (Begun s t) (execJournalReplay t s) := by
  unfold execJournalReplay
  extract_lets ticked
  rw [if_neg (show ¬ ticked.wake.phase ≠ 5 from not_not_intro phase)]
  have now : ticked.replay.now = max s.now t := (State.replay_now ticked).eq
  have graph : ticked.replay.graph = s.graph := (State.replay_keeps ticked).get .graph rfl
  generalize ticked.replay = x at now graph
  refine .next ?_
  unfold State.stageZero
  extract_lets woken _ begun member
  have up : Keeps [.fab, .pins] member member.terminate.fabricUp :=
    Keeps.after (State.fabricUp_keeps _) (Keeps.after (State.terminate_keeps member) (.refl _ member) rfl) rfl
  have wake : member.terminate.fabricUp.wake = member.wake := up.get .wake rfl
  have stage : member.terminate.fabricUp.stage = member.stage := up.get .stage rfl
  have acq : member.terminate.fabricUp.acq = member.acq := up.get .acq rfl
  have disp : member.terminate.fabricUp.disp = member.disp := up.get .disp rfl
  have hMember : member.wake = begun.wake ∧ member.stage = begun.stage ∧ member.acq = begun.acq ∧ member.disp = begun.disp := by
    unfold member
    split <;> exact ⟨rfl, rfl, rfl, rfl⟩
  clear_value member
  obtain ⟨hWake, hStage, hAcq, hDisp⟩ := hMember
  refine ⟨?_, ?_, ?_, ?_, ?_, ?_⟩
  · rw [wake, hWake]
    rfl
  · rw [stage, hStage]
  · rw [stage, hStage]
    exact now
  · rw [stage, hStage]
  · rw [acq, hAcq]
  · rw [disp, hDisp]
    show (List.replicate x.graph.tasks.length _).length = _
    rw [List.length_replicate, graph]

/-- Settles O58: nRESET finds the record that waits still there, so its flush runs on; a Waking's slots and owners stand through
the rows before them; the replay of the journal leaves the graph and the clock. -/
theorem supplyAndReset : Obligations.SupplyAndReset := by
  refine ⟨⟨fun s t down => ?_, fun s t up free waits => ?_, fun s t => execNresetRelease_releases s t⟩,
    fun s t k n up high free zero owned present size noTrial boot => ?_, fun s t c phase => ?_, fun s t c phase => ?_,
    fun s t x y phase => ?_, fun s t phase => ?_, fun s t phase => ?_⟩
  · obtain ⟨u, h, r⟩ := execSupplyUp_supplies down t
    exact ⟨u, h, r.supply, r.phase, r.begun, r.stopped, r.owners, r.slots⟩
  · obtain ⟨u, h, r⟩ := execNresetAssert_holds up free waits t
    exact ⟨u, h, r.low, r.resetting, r.held, r.stopped, r.flush⟩
  · obtain ⟨u, h, r⟩ := execWaking_wakes up high free zero owned present size noTrial boot t
    exact ⟨u, h, r.phase, r.slot, r.trial, r.boots, r.up⟩
  · obtain ⟨u, h, passes, fails⟩ := execContainerChecked_fw phase t c
    refine ⟨u, h, passes, fun bad noTrial => ?_⟩
    obtain ⟨bare, eight, halt⟩ := fails bad noTrial
    exact ⟨bare, eight, halt⟩
  · obtain ⟨u, h, passes, fails⟩ := execContainerChecked_wb phase t c
    refine ⟨u, h, passes, fun bad noTrial => ?_⟩
    obtain ⟨bare, eight, halt⟩ := fails bad noTrial
    exact ⟨bare, eight, halt⟩
  · obtain ⟨u, h, passes, fails⟩ := execContainerLoaded_loads phase t x y
    refine ⟨u, h, fun fw wb => passes ⟨fw, wb⟩, fun bad noTrial => ?_⟩
    obtain ⟨bare, eight, -⟩ := fails (fun ok => bad.elim (· ok.1) (· ok.2)) noTrial
    exact ⟨bare, eight⟩
  · obtain ⟨u, h, passes, fails⟩ := execSectionCheck_checks phase t
    refine ⟨u, h, passes, fun bad noTrial => ?_⟩
    obtain ⟨bare, eight, -⟩ := fails bad noTrial
    exact ⟨bare, eight⟩
  · obtain ⟨u, h, r⟩ := execJournalReplay_begins phase t
    exact ⟨u, h, r.phase, r.running, r.opened, r.epoch, r.offsets, r.tasks⟩

end Sys2Proof.Machine

namespace Sys2Proof.Machine

/-! # Release of the outputs, mode commands, Rescue and Lodge (R670, R671, R684, R694 to R700) -/

/-! ## What the mode's own fields show -/

/-- The mode, whether the outputs are released, what Lodge has, and the Halt causes in force. -/
def State.standing (s : State) : Nat × Bool × Bool × Bool × Nat :=
  (s.mode.mode, s.mode.released, s.mode.lanesOff, s.mode.lodgeReq, s.mode.halt)

theorem Fixes.standing_keeps {W : List Fld} {s t : State} (k : Keeps W s t) (w : W.contains .mode = false) :
    Fixes State.standing s t :=
  ⟨congrArg (fun m : ModeSt => (m.mode, m.released, m.lanesOff, m.lodgeReq, m.halt)) (k.get .mode w)⟩

theorem State.raise_standing (code : Nat) (pl : List Octet) (v : Nat) (s : State) : Fixes State.standing s (s.raise code pl v) :=
  .standing_keeps (State.raise_keeps ..) rfl

theorem State.outputFault_standing (o ch cause react : Nat) (s : State) : Fixes State.standing s (s.outputFault o ch cause react) := by
  unfold State.outputFault
  extract_lets react' latched told halted dropped
  have hTold : Fixes State.standing s told := .trans (t := latched) ⟨rfl⟩ (State.raise_standing ..)
  have hHalted : Fixes State.standing s halted := .ite (hTold.then_ rfl) hTold
  have hDropped : Fixes State.standing s dropped := .ite (hHalted.then_ rfl) hHalted
  have sto (a : Nat) (t : State) : Fixes State.standing t (t.orderSto a 0xB8) := .standing_keeps (State.orderSto_keeps ..) rfl
  exact .ite (.refl s) (.ite (.ite (hDropped.trans (.eachIx (fun a t => .ite (sto a t) (.refl t)) ..))
    (.ite (hDropped.trans (sto ..)) hDropped)) hDropped)

theorem State.driveOut_standing (b : Bool) (o : Nat) (s : State) : Fixes State.standing s (s.driveOut b o) := by
  unfold State.driveOut
  extract_lets judged v was driven
  have hJudged : Fixes State.standing s judged := .ite (State.outputFault_standing ..) (.refl s)
  have hDriven : Fixes State.standing s driven := hJudged.then_ rfl
  exact .ite hDriven (hDriven.then_ rfl)

theorem State.driveOuts_standing (b : Bool) (s : State) : Fixes State.standing s (s.driveOuts b) :=
  .trans (.foldl (fun t o => t.driveOut_standing b o) _ s)
    (.eachIx (fun a t => .standing_keeps (State.gatesFollow_keeps a t) rfl) _ _)

theorem State.setMode_standing (m cause : Nat) (s : State) :
    (s.setMode m cause).standing = (m, s.mode.released, s.mode.lanesOff, s.mode.lodgeReq, s.mode.halt) := by
  unfold State.setMode
  by_cases same : s.mode.mode = m
  · rw [if_pos same]
    unfold State.standing
    rw [same]
  · rw [if_neg same]
    extract_lets was _ entered told
    have hTold : Fixes State.standing entered told := State.raise_standing ..
    exact (hTold.trans (.ite (.standing_keeps (State.beginFlush_keeps told) rfl) (.refl told))).eq

theorem State.rescueCar_standing (c : Nat) (s : State) : Fixes State.standing s (s.rescueCar c) := by
  unfold State.rescueCar
  split
  · exact .refl s
  next a _ =>
    extract_lets x l held dropped stopped
    have hHeld : Fixes State.standing s held := .ite (.standing_keeps (State.order_keeps ..) rfl) (.refl s)
    have hDropped : Fixes State.standing s dropped := hHeld.trans (.trans (t := held.onCar c _) ⟨rfl⟩ (.standing_keeps (State.dropTrip_keeps ..) rfl))
    have hStopped : Fixes State.standing s stopped := .ite (hDropped.trans (.standing_keeps (State.carState_keeps ..) rfl)) hDropped
    exact .ite (.trans (t := s.onRescue c _) ⟨rfl⟩ (State.raise_standing ..))
      (.ite (.trans (t := s.onRescue c _) ⟨rfl⟩ (State.raise_standing ..))
        (hStopped.trans (.trans (t := stopped.onRescue c _) ⟨rfl⟩ (State.raise_standing ..))))

/-- A mode that takes effect leaves the causes and what Lodge has. -/
theorem State.modeEffect_standing (m cause : Nat) (s : State) :
    (s.modeEffect m cause).standing = (m, s.mode.released, s.mode.lanesOff, s.mode.lodgeReq, s.mode.halt) := by
  unfold State.modeEffect
  extract_lets was based set held doors recalled inspected woken cars rescued
  have hBased : Fixes State.standing s based := .ite ⟨rfl⟩ (.refl s)
  have hSet : set.standing = (m, s.mode.released, s.mode.lanesOff, s.mode.lodgeReq, s.mode.halt) := by
    have same := hBased.eq
    simp only [State.standing, Prod.mk.injEq] at same
    obtain ⟨-, released, lanes, lodge, halt⟩ := same
    rw [State.setMode_standing, released, lanes, lodge, halt]
  have hHeld : Fixes State.standing set held := .ite
    (.eachIx (fun a t => .standing_keeps (State.orderSs1_keeps a 0x83 t) rfl) ..)
    (.eachIx (fun a t => .ite (.standing_keeps (State.order_keeps ..) rfl) (.refl t)) ..)
  have hDoors : Fixes State.standing held doors := .ite (.eachIx (fun d t => .standing_keeps (State.doorHalt_keeps d t) rfl) ..) (.refl held)
  have hRecalled : Fixes State.standing doors recalled := .ite (.trans (.standing_keeps (State.recallEv_keeps ..) rfl) ⟨rfl⟩) (.refl doors)
  have hInspected : Fixes State.standing recalled inspected := .ite ⟨rfl⟩ (.refl recalled)
  have hWoken : Fixes State.standing inspected woken := .ite ⟨rfl⟩ (.refl inspected)
  have hCars : Fixes State.standing woken cars := .ite (.standing_keeps (State.betweenCars_keeps woken) rfl) (.refl woken)
  have hRescued : Fixes State.standing cars rescued := .ite (.trans (t := cars.onMode _) ⟨rfl⟩
    (.eachIx (fun c t => t.rescueCar_standing c) ..)) (.refl cars)
  have upTo := (((((hHeld.trans hDoors).trans hRecalled).trans hInspected).trans hWoken).trans hCars).trans hRescued
  clear_value rescued
  split
  · exact ((upTo.trans (.standing_keeps (State.commitSlot_keeps ..) rfl)).eq).trans hSet
  · exact upTo.eq.trans hSet

/-! ## Release of the outputs (R670, R671) -/

/-- What the release at the end of Waking leaves. -/
structure Released (s : State) (u : State) : Prop where
  waking : s.wake.phase = 6 → u.mode.released = true ∧ u.wake.phase = 7 ∧ u.wake.releaseEpoch = s.stage.epoch
  later : s.wake.phase = 7 → s.mode.mode ≠ 7 → bit s.mode.halt 10 = false → u.mode.released = true ∧ u.mode.mode = s.mode.mode

theorem State.wakingEnds_releases (s : State) : s.wakingEnds.mode.released = true ∧ s.wakingEnds.wake.phase = 7 ∧
    s.wakingEnds.wake.releaseEpoch = s.stage.epoch := by
  unfold State.wakingEnds
  extract_lets us seven released told mask cleared
  have hTold : told.mode.released = true := congrArg ModeSt.released (State.raise_mode ..)
  have wake : told.wake = released.wake := State.raise_wake ..
  have effect := State.modeEffect_standing cleared.request (if cleared.request = 6 then cleared.haltFirst else 0) cleared
  have effect_wake : (cleared.modeEffect cleared.request (if cleared.request = 6 then cleared.haltFirst else 0)).wake = cleared.wake :=
    (State.modeEffect_keeps ..).get .wake rfl
  refine ⟨(congrArg (fun x => x.2.1) effect).trans hTold, ?_, ?_⟩
  · rw [effect_wake, show cleared.wake = told.wake from rfl, wake]
    rfl
  · rw [effect_wake, show cleared.wake = told.wake from rfl, wake]
    rfl

theorem State.driveOuts_released (b : Bool) (s : State) :
    (s.driveOuts b).mode.released = s.mode.released ∧ (s.driveOuts b).mode.mode = s.mode.mode := by
  have standing := (State.driveOuts_standing b s).eq
  simp only [State.standing, Prod.mk.injEq] at standing
  obtain ⟨mode, released, -⟩ := standing
  exact ⟨released, mode⟩

theorem execReleaseOutputs_releases {s : State} {t : Nat} (boundary : max s.now t = s.stage.openedAt) (held : s.mode.released = false)
    (acquired : s.acquired = true) (t0 : s.purse.t0 = true) (permit : s.permitThrough = true) :
    Answers (Released s) (execReleaseOutputs t s) := by
  unfold execReleaseOutputs
  extract_lets ticked
  rw [if_neg (by
    rw [State.atBoundary_of boundary, show ticked.mode.released = false from held, show ticked.acquired = true from acquired,
      show ticked.purse.t0 = true from t0, show ticked.permitThrough = true from permit]
    decide)]
  refine .ite_of (fun six => ?_) fun notSix => ?_
  · obtain ⟨released, phase, epoch⟩ := ticked.wakingEnds_releases
    generalize ticked.wakingEnds = x at released phase epoch
    have wake : (x.driveOuts false).wake = x.wake := (State.driveOuts_keeps ..).get .wake rfl
    refine .next ⟨fun _ => ?_, fun seven => ?_⟩
    · rw [wake, (State.driveOuts_released false x).1]
      exact ⟨released, phase, epoch⟩
    · have six' : s.wake.phase = 6 := six
      omega
  · refine .ite_of (fun h => .next ⟨fun six => absurd six notSix, fun _ _ _ => ?_⟩)
      fun no => .next ⟨fun six => absurd six notSix, fun seven mode halt => absurd ⟨seven, mode, by
        rw [show bit ticked.mode.halt 10 = false from halt]; rfl⟩ no⟩
    rw [(State.driveOuts_released false _).1, (State.driveOuts_released false _).2]
    exact ⟨rfl, rfl⟩

/-- A Waking that cannot end: Halt with cause 10. -/
structure TimedOut (u : State) : Prop where
  phase : u.wake.phase = 7
  halt : u.mode.mode = 6
  cause : bit u.mode.halt 10 = true

theorem execWakingTimeout_halts {s : State} (six : s.wake.phase = 6) (full : s.nat PURSE.v_full ≤ s.purse.hold + 500)
    (t0 : s.purse.t0 = false) (t : Nat) : Answers TimedOut (execWakingTimeout t s) := by
  unfold execWakingTimeout
  extract_lets ticked late poor ended halted
  have isPoor : poor = true := by
    unfold poor
    rw [show ticked.purse.t0 = false from t0]
    simpa using (show ticked.nat PURSE.v_full ≤ ticked.purse.hold + 500 from full)
  rw [if_neg (by
    rintro (other | neither)
    · exact other six
    · rw [isPoor] at neither
      simp at neither)]
  have standing := State.modeEffect_standing 6 10 halted
  have wake : (halted.modeEffect 6 10).wake = halted.wake := (State.modeEffect_keeps ..).get .wake rfl
  refine .next ⟨by rw [wake]; rfl, congrArg Prod.fst standing, ?_⟩
  refine (congrArg (fun x => bit x.2.2.2.2 10) standing).trans ?_
  exact bit_setBit_same ..

/-! ## Mode commands (R684) -/

theorem execModeCommand_holds {s : State} {src id eff : Nat} (fresh : s.keptFor src id = none) (few : s.win.cmds.length < 16)
    (noneTaken : s.win.taken = []) (unused : ∀ h ∈ s.win.cmds, h.id ≠ id) (fabric : src ≠ 65536) (single : s.inPair = false)
    (ahead : eff = 0 ∨ s.stage.epoch < eff) (t m : Nat) :
    Answers (fun u => u.win.cmds = s.win.cmds ++ [{ src := src, id := id, eff := eff, cmd := .mode m }]) (execModeCommand t src id m eff s) := by
  unfold execModeCommand State.mbArrive
  generalize hx : s.tick t = x
  have fresh' : x.keptFor src id = none := by rw [← hx]; exact fresh
  have win : x.win = s.win := by rw [← hx]; rfl
  have single' : x.inPair = false := by rw [← hx]; exact single
  have epoch : x.stage.epoch = s.stage.epoch := by rw [← hx]; rfl
  rw [fresh']
  dsimp -zeta only
  extract_lets code bad member refuse
  have noMember : member = none := by
    show (if x.inPair then some m else none) = none
    rw [single']
    rfl
  rw [if_neg (by
      rw [win, noneTaken, List.append_nil]
      intro any_
      obtain ⟨h, mem, eq⟩ := List.any_eq_true.mp any_
      exact unused h mem (beq_iff_eq.mp (Bool.and_eq_true_iff.mp eq).2)),
    if_neg (by decide), if_neg (fun h => fabric h.1), if_neg (by
      rintro ⟨some_, past⟩
      have le_epoch : eff ≤ x.stage.epoch := of_decide_eq_true (Bool.and_eq_true_iff.mp past).1
      omega), if_neg (by rw [noMember]; simp), if_neg (by rw [win]; omega)]
  refine .next ?_
  show x.win.cmds ++ _ = _
  rw [win]

/-! ## Rescue (R694 to R696) -/

/-- What a rescue's choice leaves of the car `c`. -/
structure Chosen (c : Nat) (u : State) : Prop where
  chosen : (u.rescueOf c).chosen = true
  assigned : (u.car c).assigned = some (u.rescueOf c).landing
  dir : (u.rescueOf c).dir = 1 ∨ (u.rescueOf c).dir = -1

theorem State.rescueOf_onRescue {s : State} {c : Nat} (h : c < s.mode.rescue.length) (f : RescueCar → RescueCar) :
    (s.onRescue c f).rescueOf c = f (s.rescueOf c) := nth_modify_same h f

theorem execRescue_chooses {s : State} {t c a l : Nat} (free : s.clk.motionHeld = false) (car : c < s.cars.length)
    (room : c < s.mode.rescue.length) (axis : s.carAxis c = some a) (mode : s.mode.mode = 5) (active : (s.rescueOf c).active = true)
    (open_ : (s.rescueOf c).chosen = false) (still : (s.axOf a).standstill = true)
    (dwelt : (s.rescueOf c).since + s.nat AXIS.dwell a ≤ max s.now t)
    (near : s.nearestLanding c (s.car c).pc (fun _ => true) = some l) : Answers (Chosen c) (execRescue t c s) := by
  unfold execRescue
  extract_lets ticked r p nearest down way d
  rw [if_neg (by rw [show ticked.clk.motionHeld = false from free]; decide), show ticked.carAxis c = some a from axis]
  dsimp -zeta only
  rw [if_neg (by
    rintro (m | m | m | m | m)
    · exact m mode
    · rw [show r.active = true from active] at m
      cases m
    · exact absurd (m.symm.trans open_) (by decide)
    · rw [show (ticked.axOf a).standstill = true from still] at m
      cases m
    · exact absurd dwelt (Nat.not_le.mpr m))]
  have found : ((ticked.nearestLanding c p (way down)).orElse fun _ => nearest) ≠ none := by
    rw [show nearest = some l from near]
    cases ticked.nearestLanding c p (way down) <;> exact Option.some_ne_none _
  have dir : d = 1 ∨ d = -1 := by
    unfold d
    split
    · exact .inr rfl
    · exact .inl rfl
  clear_value d
  generalize ((ticked.nearestLanding c p (way down)).orElse fun _ => nearest) = target at found
  cases target with
  | none => exact absurd rfl found
  | some l' =>
    dsimp -zeta only
    extract_lets picked sent
    have rescue : (sent.rescueEv c 1 d l').rescueOf c = picked.rescueOf c :=
      congrArg (fun m : ModeSt => nth m.rescue c) (State.raise_mode ..)
    have cars : (sent.rescueEv c 1 d l').car c = sent.car c := congrArg (nth · c) (State.raise_cars ..)
    have hPicked : picked.rescueOf c = _ := State.rescueOf_onRescue (s := ticked) room _
    have hSent : sent.car c = _ := State.car_onCar (s := picked) car _
    exact .next ⟨by rw [rescue, hPicked], by rw [cars, rescue, hSent, hPicked], by rw [rescue, hPicked]; exact dir⟩

/-- One element of a list of updates brings `Q` about; the others keep what holds. -/
theorem foldl_reaches {β : Type} {f : State → β → State} {P Q : State → Prop} {x : β} {l : List β} (mem : x ∈ l)
    (before : ∀ s y, P s → P (f s y)) (here : ∀ s, P s → Q (f s x)) (after : ∀ s y, Q s → Q (f s y)) {s : State} (start : P s) :
    Q (l.foldl f s) := by
  obtain ⟨l₁, l₂, rfl⟩ := List.append_of_mem mem
  rw [List.foldl_append, List.foldl_cons]
  exact List.foldlRecOn l₂ f (here _ (List.foldlRecOn l₁ f start fun t h y _ => before t y h)) fun t h y _ => after t y h

/-- Ends the hold of a door that has lasted. -/
def State.endHold (s : State) (d : Nat) : State :=
  let ovr : Bool := match (s.door d).holdEnd with | some u => decide (u ≤ s.now) | none => false
  if (s.door d).st = 3 ∧ ovr then s.onDoor d (fun x => { x with holdOver := true }) else s

/-- A door that has stood open until its hold was over, at the time `n`. -/
structure Due (d n v : Nat) (s : State) : Prop where
  now : s.now = n
  room : d < s.doors.length
  open_ : (s.door d).st = 3
  end_ : (s.door d).holdEnd = some v

theorem State.endHold_door (s : State) (e d : Nat) : ((s.endHold e).door d).st = (s.door d).st ∧
    ((s.endHold e).door d).holdEnd = (s.door d).holdEnd ∧ (s.endHold e).doors.length = s.doors.length ∧ (s.endHold e).now = s.now ∧
    ((s.door d).holdOver = true → ((s.endHold e).door d).holdOver = true) := by
  unfold State.endHold
  extract_lets ovr
  split
  · by_cases same : d = e
    · subst same
      by_cases room : d < s.doors.length
      · rw [State.door_onDoor room]
        exact ⟨rfl, rfl, List.length_modify .., rfl, fun _ => rfl⟩
      · have gone : s.onDoor d (fun x => { x with holdOver := true }) = s := by
          unfold State.onDoor
          rw [List.modify_eq_self (by omega)]
        rw [gone]
        exact ⟨rfl, rfl, rfl, rfl, id⟩
    · have other : (s.onDoor e fun x => { x with holdOver := true }).door d = s.door d := nth_modify_ne _ _ same
      rw [other]
      exact ⟨rfl, rfl, List.length_modify .., rfl, id⟩
  · exact ⟨rfl, rfl, rfl, rfl, id⟩

theorem execRescueHoldEnd_ends {s : State} {t c d v : Nat} (free : s.clk.motionHeld = false) (mode : s.mode.mode = 5)
    (arrived : (s.rescueOf c).arrived = true) (door : d ∈ s.doorsOf c) (room : d < s.doors.length) (open_ : (s.door d).st = 3)
    (end_ : (s.door d).holdEnd = some v) (past : v ≤ max s.now t) :
    Answers (fun u => (u.door d).holdOver = true) (execRescueHoldEnd t c s) := by
  unfold execRescueHoldEnd
  extract_lets ticked
  rw [if_neg (by rw [show ticked.clk.motionHeld = false from free]; decide), if_neg (by
    rintro (m | m)
    · exact m mode
    · rw [show (ticked.rescueOf c).arrived = true from arrived] at m
      cases m)]
  refine .next ?_
  show (((ticked.doorsOf c).foldl State.endHold ticked).door d).holdOver = true
  refine foldl_reaches (P := Due d (max s.now t) v) (Q := fun u => (u.door d).holdOver = true) door (fun x e h => ?_) (fun x h => ?_)
    (fun x e h => (x.endHold_door e d).2.2.2.2 h) ⟨rfl, room, open_, end_⟩
  · obtain ⟨st, holdEnd, length, now, -⟩ := x.endHold_door e d
    exact ⟨now.trans h.now, by rw [length]; exact h.room, st.trans h.open_, holdEnd.trans h.end_⟩
  · unfold State.endHold
    extract_lets ovr
    have isOver : ovr = true := by
      unfold ovr
      rw [h.end_]
      exact decide_eq_true (h.now ▸ past)
    rw [if_pos ⟨h.open_, isOver⟩, State.door_onDoor h.room]

/-! ## Lodge (R697 to R700) -/

theorem execLodgeIdle_asks {s : State} {t v : Nat} (idle : s.mode.t0Since = some v) (past : v + 400000000 ≤ max s.now t) :
    Answers (fun u => u.mode.lodgeReq = true ∧ u.mode.mode = s.mode.mode) (execLodgeIdle t s) := by
  unfold execLodgeIdle
  extract_lets ticked n
  have since : ticked.since ticked.mode.t0Since 400000000 = true := by
    rw [show ticked.mode.t0Since = some v from idle]
    exact decide_eq_true past
  rw [if_pos (.inl since)]
  exact .next ⟨rfl, rfl⟩

/-- What the entry of Lodge leaves. -/
structure Lodged (u : State) : Prop where
  mode : u.mode.mode = 7
  released : u.mode.released = false
  lanes : u.mode.lanesOff = true
  req : u.mode.lodgeReq = false
  stopped : u.disp.started = false
  grant : u.twin.grant = false

theorem execLodgeEntry_lodges {s : State} {t : Nat} (halt : s.mode.mode = 6) (asked : s.mode.lodgeReq = true)
    (boundary : max s.now t = s.stage.openedAt) (disabled : ∀ x ∈ s.axe, x.enabled = false) : Answers Lodged (execLodgeEntry t s) := by
  unfold execLodgeEntry
  extract_lets ticked entered lodged railed _ _ held off
  rw [if_neg (by
    rintro (m | m | m | m)
    · exact m halt
    · rw [show ticked.mode.lodgeReq = true from asked] at m
      cases m
    · rw [State.atBoundary_of boundary] at m
      cases m
    · obtain ⟨x, mem, on⟩ := List.any_eq_true.mp m
      rw [disabled x mem] at on
      cases on)]
  have hEntered := congrArg Prod.fst (State.modeEffect_standing 7 0 ticked)
  have hHeld : held.standing = (7, false, true, false, held.mode.halt) := by
    show (entered.mode.mode, _) = _
    rw [show entered.mode.mode = 7 from hEntered]
    rfl
  have hOff : off.standing = held.standing :=
    ((Fixes.trans (.eachIx (fun a x => .standing_keeps (State.gatesOff_keeps a (8 * x.now) x) rfl) 12 held)
      (State.driveOuts_standing false _)).trans (.refl off)).eq
  have kept : Keeps [.cax, .safe, .led, .mode] held (off.driveOuts true) :=
    Keeps.after (State.driveOuts_keeps ..) (Keeps.after (State.driveOuts_keeps ..)
      (Keeps.eachIx (fun _ _ k => (State.gatesOff_keeps ..).after k rfl) (Keeps.refl _ held)) rfl) rfl
  have disp : (off.driveOuts true).disp = held.disp := kept.get .disp rfl
  have twin : (off.driveOuts true).twin = held.twin := kept.get .twin rfl
  have standing : (off.driveOuts true).standing = (7, false, true, false, held.mode.halt) :=
    ((State.driveOuts_standing true off).eq.trans hOff).trans hHeld
  have started : held.disp.started = false := rfl
  have grant : held.twin.grant = false := rfl
  simp only [State.standing, Prod.mk.injEq] at standing
  obtain ⟨mode, released, lanes, req, -⟩ := standing
  clear_value held off
  refine .next ⟨?_, ?_, ?_, ?_, ?_, ?_⟩
  · rw [State.raise_mode, mode]
  · rw [State.raise_mode, released]
  · rw [State.raise_mode, lanes]
  · rw [State.raise_mode, req]
  · rw [State.raise_disp, disp, started]
  · rw [State.raise_twin, twin, grant]

/-- What a wake from Lodge leaves. -/
structure WokenFrom (s : State) (x i : Nat) (u : State) : Prop where
  mode : u.mode.mode = 7
  fed : s.purse.t0 = true → u.mode.waking = true ∧ u.mode.lodgeWakes = inc32 s.mode.lodgeWakes ∧ u.mode.wakePending = none
  starved : s.purse.t0 = false → u.mode.waking = false ∧ u.mode.wakePending = some (x, i)

/-- The mode's fields and the clock. -/
def State.modeAndClock (s : State) : ModeSt × Nat := (s.mode, s.now)

theorem State.lodgeWakes_mode (x i : Nat) (s : State) : (s.lodgeWakes x i).mode =
    { s.mode with waking := true, wakeAt := s.now, wakePending := none, lodgeWakes := inc32 s.mode.lodgeWakes } := by
  unfold State.lodgeWakes
  extract_lets lost unhomed
  rw [State.raise_mode]
  have kept : Fixes State.modeAndClock s unhomed := by
    refine .ite (.refl s) (.eachIx (fun a u => ?_) 12 s)
    extract_lets homed
    have hHomed : Fixes State.modeAndClock u homed := .ite ⟨rfl⟩ (.refl u)
    exact .ite (hHomed.then_ rfl) hHomed
  obtain ⟨mode, now⟩ := Prod.mk.inj kept.eq
  clear_value unhomed
  show { unhomed.mode with waking := true, wakeAt := unhomed.now, wakePending := none, lodgeWakes := inc32 unhomed.mode.lodgeWakes } = _
  rw [mode, now]

theorem execLodgeWake_wakes {s : State} {t x i : Nat} (lodge : s.mode.mode = 7) (asleep : s.mode.waking = false)
    (boundary : max s.now t = s.stage.openedAt) (due : (s.tick t).wakeDue x i = true) :
    Answers (WokenFrom s x i) (execLodgeWake t x i s) := by
  unfold execLodgeWake
  extract_lets ticked
  rw [if_neg (by
    rintro (m | m | m | m)
    · exact m lodge
    · exact absurd (m.symm.trans asleep) (by decide)
    · rw [State.atBoundary_of boundary] at m
      cases m
    · rw [show ticked.wakeDue x i = true from due] at m
      cases m)]
  cases t0 : s.purse.t0
  · rw [if_pos (by rw [show ticked.purse.t0 = false from t0]; rfl)]
    exact .next ⟨lodge, by rw [t0]; nofun, fun _ => ⟨asleep, rfl⟩⟩
  · rw [if_neg (by rw [show ticked.purse.t0 = true from t0]; decide)]
    refine .next ⟨?_, fun _ => ?_, by rw [t0]; nofun⟩
    · rw [State.lodgeWakes_mode]
      exact lodge
    · rw [State.lodgeWakes_mode]
      exact ⟨rfl, rfl, rfl⟩

/-- What the supply restored after a wake leaves: the offsets are acquired anew. -/
structure Restored (s u : State) : Prop where
  lanes : u.mode.lanesOff = false
  done : u.acq.done = false
  from_ : u.acq.from_ = some (s.stage.boundaries + 1)
  chans : ∀ x ∈ u.ch, x.acqCount = 0 ∧ x.acqSum = 0

theorem execLodgeSupplyRestored_restores {s : State} (lodge : s.mode.mode = 7) (waking : s.mode.waking = true)
    (off : s.mode.lanesOff = true) (t : Nat) : Answers (Restored s) (execLodgeSupplyRestored t s) := by
  unfold execLodgeSupplyRestored
  extract_lets ticked lit railed
  rw [if_neg (by
    rintro (m | m | m)
    · exact m lodge
    · rw [show ticked.mode.waking = true from waking] at m
      cases m
    · rw [show ticked.mode.lanesOff = true from off] at m
      cases m)]
  refine .next ⟨rfl, rfl, rfl, fun x mem => ?_⟩
  obtain ⟨c, -, rfl⟩ := List.mem_map.mp mem
  exact ⟨rfl, rfl⟩

/-- Settles O59: a mode that takes effect and the outputs that it drives leave what is released, and the Halt causes in force; a
landing is always found, as the nearest is one. -/
theorem releaseRescueLodge : Obligations.ReleaseRescueLodge := by
  refine ⟨⟨fun s t boundary held acquired t0 permit => ?_, fun s t six full t0 => ?_,
    fun s t src id m eff fresh few noneTaken unused fabric single ahead =>
      execModeCommand_holds fresh few noneTaken unused fabric single ahead t m,
    fun s t c a l free car room axis mode active open_ still dwelt near => ?_,
    fun s t c d v free mode arrived door room open_ end_ past => execRescueHoldEnd_ends free mode arrived door room open_ end_ past⟩,
    fun s t v idle past => execLodgeIdle_asks idle past, fun s t halt asked boundary disabled => ?_,
    fun s t x i lodge asleep boundary due => ?_, fun s t lodge waking off => ?_⟩
  · obtain ⟨u, h, r⟩ := execReleaseOutputs_releases boundary held acquired t0 permit
    exact ⟨u, h, r.waking, r.later⟩
  · obtain ⟨u, h, r⟩ := execWakingTimeout_halts six full t0 t
    exact ⟨u, h, r.phase, r.halt, r.cause⟩
  · obtain ⟨u, h, r⟩ := execRescue_chooses free car room axis mode active open_ still dwelt near
    exact ⟨u, h, r.chosen, r.assigned, r.dir⟩
  · obtain ⟨u, h, r⟩ := execLodgeEntry_lodges halt asked boundary disabled
    exact ⟨u, h, r.mode, r.released, r.lanes, r.req, r.stopped, r.grant⟩
  · obtain ⟨u, h, r⟩ := execLodgeWake_wakes lodge asleep boundary due
    exact ⟨u, h, r.mode, r.fed, r.starved⟩
  · obtain ⟨u, h, r⟩ := execLodgeSupplyRestored_restores lodge waking off t
    exact ⟨u, h, r.lanes, r.done, r.from_, r.chans⟩

end Sys2Proof.Machine

namespace Sys2Proof.Machine

/-! # Window reads and the service port (R730 to R732, R739 to R742) -/

/-- The reads held and what has been served, and the errors of the service port. -/
def State.reading (s : State) : List HeldRead × Nat × Nat × Nat × Nat :=
  (s.win.reads, s.win.copied, s.win.served, s.win.svcErrors, s.win.svcRefused)

theorem State.sendTo_reading (src : Nat) (m : Msg) (s : State) : Fixes State.reading s (s.sendTo src m) := by
  refine .ite ⟨rfl⟩ ⟨?_⟩
  have win : (s.send { id := src } m).win = s.win := (State.send_keeps ..).get .win rfl
  unfold State.reading
  rw [win]

theorem State.readError_reading (src : Nat) (r : WinRead) (status : Nat) (s : State) :
    Fixes State.reading s (s.readError src r status) :=
  Fixes.trans (t := s.free.2) ⟨rfl⟩ (State.sendTo_reading ..)

/-- A read whose status is 0 joins those held; any other is answered. -/
theorem State.takeRead_reads (src : Nat) (r : WinRead) (s : State) :
    (s.readStatus src r = 0 → (s.takeRead src r).win = { s.win with reads := s.win.reads ++ [{ src := src, read := r }] }) ∧
      (s.readStatus src r ≠ 0 → (s.takeRead src r).win.reads = s.win.reads) := by
  unfold State.takeRead
  split
  next zero => exact ⟨fun _ => rfl, fun ne => absurd zero ne⟩
  next ne => exact ⟨fun zero => absurd zero ne, fun _ => congrArg Prod.fst (State.readError_reading ..).eq⟩

/-- What follows a window read. -/
structure ReadTaken (s : State) (t src : Nat) (r : WinRead) (u : State) : Prop where
  held : (s.tick t).readStatus src r = 0 → u.win.reads.map (fun h => (h.src, h.read)) =
    s.win.reads.map (fun h => (h.src, h.read)) ++ [(src, r)]
  answered : (s.tick t).readStatus src r ≠ 0 → u.win.reads = s.win.reads

theorem execWindowRead_takes (t src : Nat) (r : WinRead) (s : State) : Answers (ReadTaken s t src r) (execWindowRead t src r s) := by
  obtain ⟨held, answered⟩ := State.takeRead_reads src r (s.tick t)
  refine .next ⟨fun zero => ?_, answered⟩
  rw [held zero]
  exact List.map_append ..

/-! ## A held read is served (R730, R731) -/

theorem State.view_epoch {s t : State} (stage : t.stage = s.stage) (pub : t.pub = s.pub) : t.view.stage = s.view.stage := by
  unfold State.view
  rw [pub]
  split
  · unfold State.unshow
    split <;> split <;> exact stage
  · rfl

/-- What the service of one held read leaves. -/
structure Served (s : State) (t : Nat) (h : HeldRead) (u : State) : Prop where
  reads : u.win.reads = []
  served : u.win.served = inc32 s.win.served
  copied : u.win.copied = s.win.copied + h.read.len
  told : h.src = 65536 → u.win.svcQueue.getLast? = some (.windowData h.read.req h.read.addr 0 s.view.stage.epoch
    (State.windowBytes { (s.tick t) with win := { s.win with reads := [] } } h.read.addr h.read.len))

theorem execWindowReadServe_serves {s : State} {h : HeldRead} (running : s.stage.running = true)
    (stage : s.stage.epoch ≠ 0xFFFFFFFFFFFF) (noticed : s.stage.noticed = some s.stage.boundaries) (only : s.win.reads = [h])
    (due : h.due = true) (plain : h.read.at_ = false) (fits : s.win.copied + h.read.len ≤ 16384) (t : Nat) :
    Answers (Served s t h) (execWindowReadServe t s) := by
  unfold execWindowReadServe
  extract_lets ticked idle
  have isDue : ticked.readsDue = true := by
    unfold State.readsDue
    simp [show ticked.stage.noticed = some ticked.stage.boundaries from noticed]
  have hIdle : idle = ticked := by
    refine if_pos ?_
    rw [show ticked.stage.running = true from running]
    simpa using (show ticked.stage.epoch ≠ 0xFFFFFFFFFFFF from stage)
  clear_value idle
  subst hIdle
  rw [if_neg (by rw [isDue]; decide), show ticked.win.reads = [h] from only]
  refine .next ?_
  generalize hx : (ticked.onWin fun w => { w with reads := [] }) = x
  have win : x.win = { s.win with reads := [] } := by rw [← hx]; rfl
  show Served s t h (State.serveRead (x, false) h).1
  unfold State.serveRead
  extract_lets r keep copy
  dsimp -zeta only
  extract_lets room
  have hRoom : room = true := decide_eq_true (by rw [win]; exact fits)
  rw [if_neg (by rw [show r.at_ = false from plain]; decide), if_neg (by rw [due]; decide), if_neg (by rw [hRoom]; decide)]
  dsimp -zeta only
  unfold copy
  extract_lets b
  have reading := (State.sendTo_reading h.src (.windowData r.req r.addr 0 x.view.stage.epoch b)
    (x.onWin fun w => { w with copied := w.copied + r.len, served := inc32 w.served })).eq
  have base : (x.onWin fun w => { w with copied := w.copied + r.len, served := inc32 w.served }).reading =
      ([], s.win.copied + h.read.len, inc32 s.win.served, s.win.svcErrors, s.win.svcRefused) := by
    show (x.win.reads, x.win.copied + r.len, inc32 x.win.served, x.win.svcErrors, x.win.svcRefused) = _
    rw [win]
  rw [base] at reading
  simp only [State.reading, Prod.mk.injEq] at reading
  obtain ⟨reads, copied, served, -, -⟩ := reading
  refine ⟨reads, served, copied, fun service => ?_⟩
  unfold State.sendTo
  rw [if_pos service]
  have epoch : x.view.stage = s.view.stage := State.view_epoch (by rw [← hx]; rfl) (by rw [← hx]; rfl)
  have bytes : b = State.windowBytes { s.tick t with win := { s.win with reads := [] } } h.read.addr h.read.len := by
    unfold b
    rw [← hx]
    rfl
  rw [epoch, bytes]
  exact List.getLast?_concat ..

/-! ## The service port (R739 to R742) -/

/-- What follows a transaction that writes the service port. -/
structure Transacted (s : State) (t op len crc : Nat) (m : Msg) (u : State) : Prop where
  full : s.svcFull = true → u.win.svcRefused = inc32 s.win.svcRefused ∧ u.win.reads = s.win.reads
  error : s.svcFull = false → len ≠ (msgBytes m).length ∨ msgType m ≠ op ∨ crc ≠ svcCrc op (msgBytes m) →
    u.win.svcErrors = inc32 s.win.svcErrors ∧ u.win.reads = s.win.reads
  taken : ∀ r, s.svcFull = false → len = (msgBytes m).length → msgType m = op → crc = svcCrc op (msgBytes m) →
    s.svcAdmits op m = true → m = .windowRead r → (s.tick t).readStatus 65536 r = 0 →
    u.win.reads.length = s.win.reads.length + 1 ∧ u.win.svcErrors = s.win.svcErrors

theorem execServiceWriteTransaction_transacts {s : State} (isOpen : s.svcOpen = true) (t op len crc : Nat) (m : Msg) :
    Answers (Transacted s t op len crc m) (execServiceWriteTransaction t op len crc m s) := by
  unfold execServiceWriteTransaction
  extract_lets ticked b
  rw [if_neg (by rw [show ticked.svcOpen = true from isOpen]; decide)]
  have full_eq : ticked.svcFull = s.svcFull := rfl
  rw [full_eq]
  refine .ite_of (fun full => .next ⟨fun _ => ⟨rfl, rfl⟩, fun no => ?_, fun r no => ?_⟩) fun free => ?_
  · rw [full] at no
    cases no
  · rw [full] at no
    cases no
  refine .ite_of (fun bad => .next ⟨fun full => absurd full free, fun _ _ => ⟨rfl, rfl⟩, fun r _ len_eq type crc_eq => ?_⟩) fun good => ?_
  · exact absurd bad (not_or.mpr ⟨not_not_intro len_eq, not_or.mpr ⟨not_not_intro type, not_not_intro crc_eq⟩⟩)
  refine .ite_of (fun admits => .next ⟨fun full => absurd full free, fun _ bad => absurd bad good, ?_⟩)
    fun no => .next ⟨fun full => absurd full free, fun _ bad => absurd bad good, fun r _ _ _ _ admits => absurd admits no⟩
  rintro r - - - - - rfl zero
  rw [show State.svcTake (.windowRead r) ticked = ticked.takeRead 65536 r from rfl, (State.takeRead_reads 65536 r ticked).1 zero]
  exact ⟨List.length_append .., rfl⟩

theorem execServiceReadTransaction_answers {s : State} (isOpen : s.svcOpen = true) (t : Nat) (w : Bool) :
    Answers (fun u => u.win.svcOut = s.svcAnswer ∧ u.win.svcQueue = if w then s.win.svcQueue.drop 1 else s.win.svcQueue)
      (execServiceReadTransaction t w s) := by
  unfold execServiceReadTransaction
  extract_lets ticked
  rw [if_neg (show ¬ (!ticked.svcOpen) = true by rw [show ticked.svcOpen = true from isOpen]; decide)]
  exact .next ⟨rfl, rfl⟩

/-- Settles O60: an answer writes neither the reads held nor the counts, and a read alone is copied whole when it fits. -/
theorem windowAndService : Obligations.WindowAndService := by
  refine ⟨fun s t src r => ?_, fun s t h running stage noticed only due plain fits => ?_, fun s t op len crc m isOpen => ?_,
    fun s t w isOpen => execServiceReadTransaction_answers isOpen t w⟩
  · obtain ⟨u, hu, x⟩ := execWindowRead_takes t src r s
    exact ⟨u, hu, x.held, x.answered⟩
  · obtain ⟨u, hu, x⟩ := execWindowReadServe_serves running stage noticed only due plain fits t
    exact ⟨u, hu, x.reads, x.served, x.copied, x.told⟩
  · obtain ⟨u, hu, x⟩ := execServiceWriteTransaction_transacts isOpen t op len crc m
    exact ⟨u, hu, x.full, x.error, x.taken⟩

end Sys2Proof.Machine

namespace Sys2Proof.Machine

/-! # What no command takes back (chapters 13, 15 and 16)

The programmed slots of the Ledger flash and the fuses only grow (R596, R619), and outside a boundary a member becomes ACTIVE by
a lease or a hand-off alone (R506). One relation of states says all three; every operation that reaches the Ledger, the Steward
or the twin has one law of it, in the order of the operations, beside its law of the fields it may write. -/

/-- The part of the Ledger that is kept in flash in the order of its programming. -/
def Led.flashed (l : Led) : List (Nat × LedSlot) × Nat := (l.slots, l.ordUsed)

/-- The fuses and the counters of the Steward's part. -/
def Stw.fuses (w : Stw) : Nat × Nat × Bool × Nat × List Owner := (w.fwCtr, w.wbCtr, w.kill, w.boots, w.owners)

/-- No fuse of `v` is unblown in `w`. An owner slot stays within its two bits, so that the relation is transitive. -/
structure Unblown (v w : Stw) : Prop where
  fw : v.fwCtr ≤ w.fwCtr
  wb : v.wbCtr ≤ w.wbCtr
  kill : v.kill = true → w.kill = true
  boots : v.boots ≤ w.boots
  owners : ∀ k, (nth v.owners k).state ≤ 3 → (nth v.owners k).state ≤ (nth w.owners k).state ∧ (nth w.owners k).state ≤ 3

theorem Unblown.of_fuses {v w : Stw} (h : w.fuses = v.fuses) : Unblown v w := by
  obtain ⟨fw, rest⟩ := Prod.mk.inj h
  obtain ⟨wb, rest⟩ := Prod.mk.inj rest
  obtain ⟨kill, rest⟩ := Prod.mk.inj rest
  obtain ⟨boots, owners⟩ := Prod.mk.inj rest
  exact ⟨Nat.le_of_eq fw.symm, Nat.le_of_eq wb.symm, fun k => kill.trans k, Nat.le_of_eq boots.symm, fun k two => by rw [owners]; exact ⟨Nat.le_refl _, two⟩⟩

theorem Unblown.trans {u v w : Stw} (h : Unblown u v) (k : Unblown v w) : Unblown u w :=
  ⟨Nat.le_trans h.fw k.fw, Nat.le_trans h.wb k.wb, fun d => k.kill (h.kill d), Nat.le_trans h.boots k.boots, fun i two =>
    have mid := h.owners i two
    have last := k.owners i mid.2
    ⟨Nat.le_trans mid.1 last.1, last.2⟩⟩

/-- An update of one owner slot that takes it no further back than it stands, within its two bits. -/
theorem Unblown.of_owners {w : Stw} {k : Nat} {f : Owner → Owner}
    (h : (nth w.owners k).state ≤ 3 → (nth w.owners k).state ≤ (f (nth w.owners k)).state ∧ (f (nth w.owners k)).state ≤ 3) :
    Unblown w { w with owners := w.owners.modify k f } := by
  refine ⟨Nat.le_refl _, Nat.le_refl _, id, Nat.le_refl _, fun i two => ?_⟩
  by_cases same : i = k
  · subst same
    by_cases inside : i < w.owners.length
    · rw [nth_modify_same inside]
      exact h two
    · rw [List.modify_eq_self (Nat.le_of_not_lt inside)]
      exact ⟨Nat.le_refl _, two⟩
  · rw [nth_modify_ne _ _ same]
    exact ⟨Nat.le_refl _, two⟩

theorem Unblown.of_set {w : Stw} {k : Nat} {x : Owner}
    (h : (nth w.owners k).state ≤ x.state ∧ x.state ≤ 3) : Unblown w { w with owners := w.owners.set k x } := by
  have constant : w.owners.set k x = w.owners.modify k fun _ => x := by
    rw [List.modify_eq_set]
  rw [constant]
  exact .of_owners fun _ => h

/-- `t` comes from `s` with every programmed slot kept, no fuse unblown, and the member ACTIVE only if it was or if `G` allows it. -/
structure Lasts (G : Prop) (s t : State) : Prop where
  slots : s.led.slots <+: t.led.slots
  used : s.led.ordUsed ≤ t.led.ordUsed
  fuses : Unblown s.stw t.stw
  role : t.twin.st = 2 → s.twin.st = 2 ∨ G

/-- The same of an operation that answers a value beside the state. -/
abbrev Lasts1 {α : Type} (G : Prop) (s : State) (r : State × α) : Prop := Lasts G s r.1

abbrev Lasts2 {α : Type} (G : Prop) (s : State) (r : α × State) : Prop := Lasts G s r.2

/-- The fields that `Lasts` speaks of are outside W. -/
def elsewhere (W : List Fld) : Bool := !W.contains .led && !W.contains .stw && !W.contains .twin

/-- What `Lasts` looks at. -/
def State.enduring (s : State) : (List (Nat × LedSlot) × Nat) × (Nat × Nat × Bool × Nat × List Owner) × Nat :=
  (s.led.flashed, s.stw.fuses, s.twin.st)

namespace Lasts

variable {G : Prop} {s t u : State}

theorem of_enduring (h : t.enduring = s.enduring) : Lasts G s t := by
  obtain ⟨led, rest⟩ := Prod.mk.inj h
  obtain ⟨slots, used⟩ := Prod.mk.inj led
  obtain ⟨fuses, st⟩ := Prod.mk.inj rest
  exact ⟨slots ▸ List.prefix_refl _, Nat.le_of_eq used.symm, .of_fuses fuses, fun two => .inl (st.symm.trans two)⟩

theorem refl (s : State) : Lasts G s s := of_enduring rfl

theorem trans (h : Lasts G s t) (k : Lasts G t u) : Lasts G s u :=
  ⟨h.slots.trans k.slots, Nat.le_trans h.used k.used, h.fuses.trans k.fuses, fun two => (k.role two).elim h.role .inr⟩

/-- A law of an operation, after what led to the state it works on. -/
theorem after (k : Lasts G t u) (h : Lasts G s t) : Lasts G s u := h.trans k

/-- An update that leaves alone what `Lasts` looks at. -/
theorem same (h : Lasts G s t) (e : u.enduring = t.enduring) : Lasts G s u := h.trans (of_enduring e)

theorem keeps {W : List Fld} (k : Keeps W s t) (w : elsewhere W = true) : Lasts G s t := by
  simp only [elsewhere, Bool.and_eq_true, Bool.not_eq_true'] at w
  obtain ⟨⟨led, stw⟩, twin⟩ := w
  have hled : t.led = s.led := k.get .led led
  have hstw : t.stw = s.stw := k.get .stw stw
  have htwin : t.twin = s.twin := k.get .twin twin
  exact of_enduring (by simp only [State.enduring, hled, hstw, htwin])

/-- An operation whose law of fields is enough. -/
theorem past {W : List Fld} (k : Keeps W t u) (h : Lasts G s t) (w : elsewhere W = true) : Lasts G s u := h.trans (keeps k w)

theorem ite {a b : State} {c : Prop} [Decidable c] (h : Lasts G s a) (k : Lasts G s b) : Lasts G s (if c then a else b) := by
  split <;> assumption

theorem foldl {α : Type} {f : State → α → State} (h : ∀ t a, Lasts G s t → Lasts G s (f t a)) (k : Lasts G s t) (l : List α) :
    Lasts G s (l.foldl f t) := by
  induction l generalizing t with
  | nil => exact k
  | cons a l ih => exact ih (h t a k)

theorem eachIx {n : Nat} {f : Nat → State → State} (h : ∀ i t, Lasts G s t → Lasts G s (f i t)) (k : Lasts G s t) :
    Lasts G s (eachIx n f t) := foldl (fun t a => h a t) k _

theorem ofFst {β : Type} {a : β} {d : State × β} (e : d = (t, a)) (h : Lasts1 G s d) : Lasts G s t := by
  subst e
  exact h

theorem ofSnd {β : Type} {a : β} {d : β × State} (e : d = (a, t)) (h : Lasts2 G s d) : Lasts G s t := by
  subst e
  exact h

theorem tick {n : Nat} : Lasts G s (s.tick n) := of_enduring rfl

theorem raise {c : Nat} {pl : List Octet} {v : Nat} (h : Lasts G s t) : Lasts G s (t.raise c pl v) := by
  have flash : (t.raise c pl v).store = t.store := (State.raise_flash ..).store.eq
  obtain ⟨slots, rest⟩ := Prod.mk.inj flash
  obtain ⟨used, _⟩ := Prod.mk.inj rest
  have hled : (t.raise c pl v).led.flashed = t.led.flashed := Prod.ext slots used
  refine h.same ?_
  rw [State.enduring, hled, State.raise_stw, State.raise_twin]
  rfl

/-! One update of one part: what it leaves alone is said of the part. -/

theorem led {v : Led} (h : Lasts G s t) (e : v.flashed = t.led.flashed) : Lasts G s { t with led := v } :=
  h.same (congrArg (·, t.stw.fuses, t.twin.st) e)

theorem stw {v : Stw} (h : Lasts G s t) (e : v.fuses = t.stw.fuses) : Lasts G s { t with stw := v } :=
  h.same (congrArg (t.led.flashed, ·, t.twin.st) e)

theorem twin {v : Twin} (h : Lasts G s t) (e : v.st = t.twin.st) : Lasts G s { t with twin := v } :=
  h.same (congrArg (t.led.flashed, t.stw.fuses, ·) e)

theorem onLed {f : Led → Led} (h : Lasts G s t) (e : ∀ l, (f l).flashed = l.flashed) : Lasts G s (t.onLed f) := h.led (e _)

theorem onStw {f : Stw → Stw} (h : Lasts G s t) (e : ∀ w, (f w).fuses = w.fuses) : Lasts G s (t.onStw f) := h.stw (e _)

theorem onTwin {f : Twin → Twin} (h : Lasts G s t) (e : ∀ x, (f x).st = x.st) : Lasts G s (t.onTwin f) := h.twin (e _)

theorem onItem {i : Nat} {f : MirrorItem → MirrorItem} (h : Lasts G s t) : Lasts G s (t.onItem i f) := h.onTwin fun _ => rfl

theorem onWit {i : Nat} {f : WitPair → WitPair} (h : Lasts G s t) : Lasts G s (t.onWit i f) := h.onTwin fun _ => rfl

theorem onSlot {i : Nat} {f : Slot → Slot} (h : Lasts G s t) : Lasts G s (t.onSlot i f) := h.onStw fun _ => rfl

theorem setAsm {i : Nat} {a : Option Assembly} (h : Lasts G s t) : Lasts G s (t.setAsm i a) := h.onStw fun _ => rfl

/-- Slots are programmed behind those that are. -/
theorem program {f : Led → Led} {new : List (Nat × LedSlot)} (h : Lasts G s t) (e : (f t.led).slots = t.led.slots ++ new)
    (more : t.led.ordUsed ≤ (f t.led).ordUsed) : Lasts G s (t.onLed f) :=
  h.trans ⟨⟨new, e.symm⟩, more, .of_fuses rfl, .inl⟩

/-- An update of the twin's part that leaves the member in another role than ACTIVE. -/
theorem vacate {f : Twin → Twin} (h : Lasts G s t) (e : ∀ x, (f x).st ≠ 2) : Lasts G s (t.onTwin f) :=
  h.trans ⟨List.prefix_refl _, Nat.le_refl _, .of_fuses rfl, fun two => absurd two (e _)⟩

/-- An update of the Steward's part that may blow a fuse. -/
theorem blow {f : Stw → Stw} (h : Lasts G s t) (e : Unblown t.stw (f t.stw)) : Lasts G s (t.onStw f) :=
  h.trans ⟨List.prefix_refl _, Nat.le_refl _, e, .inl⟩

/-- The number of the last object that an owner has signed is no fuse. -/
theorem signedBy {k q : Nat} (h : Lasts G s t) :
    Lasts G s (t.onStw fun w => { w with owners := w.owners.modify k (fun x => { x with lastSeq := q }) }) :=
  h.blow (.of_owners fun two => ⟨Nat.le_refl _, two⟩)

end Lasts

/-! The same rules for pairs and for answers. -/

section
variable {G : Prop} {s t : State}

theorem Lasts1.mk {α : Type} {a : α} (h : Lasts G s t) : Lasts1 G s (t, a) := h

theorem Lasts2.mk {α : Type} {a : α} (h : Lasts G s t) : Lasts2 G s (a, t) := h

theorem Lasts1.ite {α : Type} {a b : State × α} {c : Prop} [Decidable c] (h : Lasts1 G s a) (k : Lasts1 G s b) :
    Lasts1 G s (if c then a else b) := by split <;> assumption

theorem Lasts2.ite {α : Type} {a b : α × State} {c : Prop} [Decidable c] (h : Lasts2 G s a) (k : Lasts2 G s b) :
    Lasts2 G s (if c then a else b) := by split <;> assumption

theorem Lasts1.foldl {α β : Type} {f : State × β → α → State × β} (h : ∀ t a, Lasts1 G s t → Lasts1 G s (f t a)) {r : State × β}
    (k : Lasts1 G s r) (l : List α) : Lasts1 G s (l.foldl f r) := by
  induction l generalizing r with
  | nil => exact k
  | cons a l ih => exact ih (h r a k)

theorem State.clearWhere_lasts {n : Nat} {was gone : Nat → Bool} {clear : Nat → State → State}
    (h : ∀ i t, Lasts G s t → Lasts G s (clear i t)) (k : Lasts G s t) : Lasts1 G s (t.clearWhere n was gone clear) := by
  unfold State.clearWhere
  exact Lasts1.foldl (fun r i hr => Lasts1.ite (h i r.1 hr) hr) k _

theorem Answers.after {a : Answer} (h : Answers (Lasts G t) a) (k : Lasts G s t) : Answers (Lasts G s) a := h.mono fun _ => k.trans

end

end Sys2Proof.Machine

namespace Sys2Proof.Machine

/-! # What lasts through tasks, feedback and the current engine (chapters 1 to 5) -/

section
variable {G : Prop}

/-! ## Events, the Ledger and orders to the axes -/

theorem State.beginFlush_lasts (s : State) : Lasts G s (State.beginFlush s) := by
  unfold State.beginFlush
  exact .ite (.refl _) (.led (.refl _) rfl)

theorem State.flushDecide_lasts (sev : Nat) (s : State) : Lasts G s (State.flushDecide sev s) := by
  unfold State.flushDecide
  extract_lets +onlyGivenNames _
  exact .ite (State.beginFlush_lasts ..) (.refl _)

theorem State.enterRec_lasts (r : LedRec) (s : State) : Lasts G s (State.enterRec r s) := by
  unfold State.enterRec
  exact .after (State.flushDecide_lasts ..) (.led (.refl _) rfl)

theorem State.notRec_lasts (c : Nat) (s : State) : Lasts G s (State.notRec c s) := by
  unfold State.notRec
  exact .led (.refl _) rfl

theorem State.ledTake_lasts (o : Occ) (s : State) : Lasts G s (State.ledTake o s) := by
  unfold State.ledTake
  exact .ite (State.notRec_lasts ..) (.ite (.led (.refl _) rfl)
    (.ite (.ite (State.enterRec_lasts ..) (.ite (.led (.refl _) rfl) (.led (.refl _) rfl)))
    (.ite (.led (.refl _) rfl) (State.enterRec_lasts ..))))

theorem State.enterSummaries_lasts (all : Bool) (room : Nat) (l : List SumCnt) (s : State) :
    Lasts G s (State.enterSummaries all room l s) := by
  induction l generalizing s with
  | nil => exact .refl s
  | cons c cs ih =>
    unfold State.enterSummaries
    exact .ite (.after (ih _) (.led (State.enterRec_lasts ..) rfl)) (.refl s)

theorem State.enterHeld_lasts (l : List Occ) (s : State) : Lasts G s (State.enterHeld l s) := by
  induction l generalizing s with
  | nil => exact .refl s
  | cons c cs ih =>
    unfold State.enterHeld
    exact .ite (.after (ih _) (.after (State.enterRec_lasts ..) (.led (.refl s) rfl))) (.refl s)

theorem State.ledBoundary_lasts (s : State) : Lasts G s (State.ledBoundary s) := by
  unfold State.ledBoundary
  extract_lets +onlyGivenNames s1
  have h1 : Lasts G s s1 := .ite (State.enterSummaries_lasts ..) (.refl _)
  clear_value s1
  extract_lets +onlyGivenNames s2
  have h2 : Lasts G s s2 := .after (State.enterHeld_lasts ..) h1
  clear_value s2
  exact .ite (.after (State.beginFlush_lasts ..) h2) h2

theorem State.flushEnd_lasts (s : State) : Lasts G s (State.flushEnd s) := by
  unfold State.flushEnd
  exact .led (.refl _) rfl

theorem State.powerFlushBegin_lasts (s : State) : Lasts G s (State.powerFlushBegin s) := by
  unfold State.powerFlushBegin
  refine .ite (.refl s) ?_
  extract_lets +onlyGivenNames _ s1
  have h1 : Lasts G s s1 := State.enterSummaries_lasts ..
  extract_lets +onlyGivenNames _ _ _ _ _ s2
  have h2 : Lasts G s s2 := .after (State.beginFlush_lasts ..) (.led h1 rfl)
  exact .ite (.after (State.flushEnd_lasts ..) h2) h2

theorem State.orderSto_lasts (a code : Nat) (s : State) : Lasts G s (State.orderSto a code s) := by
  unfold State.orderSto
  exact .ite (.refl _) (.raise (.keeps (State.onStop_keeps ..) rfl))

theorem State.orderSs1_lasts (a code : Nat) (s : State) : Lasts G s (State.orderSs1 a code s) := by
  unfold State.orderSs1
  exact .ite (.refl _) (.raise (.past (State.order_keeps ..) (.keeps (State.onStop_keeps ..) rfl) rfl))

theorem State.axisFault_lasts (a cause : Nat) (detail : Int) (s : State) : Lasts G s (State.axisFault a cause detail s) := by
  unfold State.axisFault
  extract_lets +onlyGivenNames _
  exact .ite (.refl _) (.ite (.after (State.orderSto_lasts ..) (.raise (.keeps (State.onBook_keeps ..) rfl)))
    (.ite (.raise (.keeps (State.onBook_keeps ..) rfl))
    (.after (State.orderSs1_lasts ..) (.raise (.keeps (State.onBook_keeps ..) rfl)))))

theorem State.axisSaturated_lasts (a quantity : Nat) (v : Int) (s : State) :
    Lasts G s (State.axisSaturated a quantity v s) := by
  unfold State.axisSaturated
  exact .after (State.axisFault_lasts ..) (.raise (.refl _))

/-! ## The dispatcher -/

theorem State.annulTask_lasts (i reason : Nat) (s : State) : Lasts G s (State.annulTask i reason s) := by
  unfold State.annulTask
  exact .raise (.keeps (State.onTask_keeps ..) rfl)

theorem State.checkReady_lasts (i : Nat) (s : State) : Lasts G s (State.checkReady i s) := by
  unfold State.checkReady
  extract_lets +onlyGivenNames _ _
  exact .ite (.ite (State.annulTask_lasts ..) (.past (State.onTask_keeps ..) (.keeps (State.number_keeps ..) rfl) rfl))
    (.refl _)

theorem State.release_lasts (cancel : Bool) (fuel : Nat) (js : List Nat) (s : State) :
    Lasts G s (State.release cancel fuel js s) := by
  induction fuel generalizing cancel js s with
  | zero =>
    unfold State.release
    exact .refl s
  | succ n ih =>
    cases js with
    | nil =>
      unfold State.release
      exact .refl s
    | cons j js =>
      unfold State.release
      exact .after (ih ..) (.ite (.refl s) (.ite (.after (ih ..) (.keeps (State.onTask_keeps ..) rfl))
        (.after (State.checkReady_lasts ..) (.keeps (State.onTask_keeps ..) rfl))))

theorem State.releaseOf_lasts (i : Nat) (cancel : Bool) (s : State) : Lasts G s (State.releaseOf i cancel s) := by
  unfold State.releaseOf
  exact State.release_lasts ..

theorem State.respEv_lasts (w : Work) (t : Nat) (s : State) : Lasts G s (State.respEv w t s) := by
  unfold State.respEv
  extract_lets +onlyGivenNames _ _ _
  exact .ite (.raise (.refl _)) (.refl _)

theorem State.committed_lasts (w : Work) (t : Nat) (s : State) : Lasts G s (State.committed w t s) := by
  unfold State.committed
  extract_lets +onlyGivenNames _ _ s1
  have h1 : Lasts G s s1 := .keeps (State.onTask_keeps ..) rfl
  clear_value s1
  extract_lets +onlyGivenNames s2
  have h2 : Lasts G s s2 := .after (State.respEv_lasts ..) h1
  clear_value s2
  split
  · exact .after (State.releaseOf_lasts ..) (.past (State.setStatus_keeps ..) h2 rfl)
  · exact .past (State.freeInst_keeps ..) h2 rfl

theorem State.endedCancelled_lasts (w : Work) (s : State) : Lasts G s (State.endedCancelled w s) := by
  unfold State.endedCancelled
  split
  · exact .after (State.releaseOf_lasts ..) (.keeps (State.setStatus_keeps ..) rfl)
  · exact .keeps (State.freeInst_keeps ..) rfl

theorem State.overrunEv_lasts (i cause slot cycles : Nat) (s : State) : Lasts G s (State.overrunEv i cause slot cycles s) := by
  unfold State.overrunEv
  exact .raise (.refl _)

theorem State.overrun_lasts (w : Work) (cause cycles : Nat) (s : State) : Lasts G s (State.overrun w cause cycles s) := by
  unfold State.overrun
  extract_lets +onlyGivenNames _ _ s1
  have h1 : Lasts G s s1 := .keeps (State.onTask_keeps ..) rfl
  clear_value s1
  extract_lets +onlyGivenNames s2
  have h2 : Lasts G s s2 := .after (State.overrunEv_lasts ..) h1
  clear_value s2
  split
  · exact .after (State.releaseOf_lasts ..) (.past (State.setStatus_keeps ..) h2 rfl)
  · extract_lets +onlyGivenNames _
    exact .ite (.past (State.freeInst_keeps ..) h2 rfl)
      (.ite (.after (State.overrunEv_lasts ..) (.past (State.freeInst_keeps ..) h2 rfl))
      (.past (State.onInst_keeps ..) h2 rfl))

theorem State.annulInst_lasts (sl reason : Nat) (s : State) : Lasts G s (State.annulInst sl reason s) := by
  unfold State.annulInst
  split
  · exact .refl _
  · exact .raise (.past (State.onTask_keeps ..) (.keeps (State.freeInst_keeps ..) rfl) rfl)

theorem State.cancelWork_lasts (w : Work) (reason : Nat) (s : State) : Lasts G s (State.cancelWork w reason s) := by
  unfold State.cancelWork
  split
  · exact .after (State.checkReady_lasts ..) (.keeps (State.onTask_keeps ..) rfl)
  · exact State.annulTask_lasts ..
  · exact .keeps (State.flagCancel_keeps ..) rfl
  · exact .keeps (State.flagCancel_keeps ..) rfl
  · exact .ite (.keeps (State.freeInst_keeps ..) rfl) (.refl _)
  · exact State.annulInst_lasts ..
  · exact State.annulInst_lasts ..
  · exact .refl _

theorem State.bpEvent_lasts (s : State) : Lasts G s (State.bpEvent s) := by
  unfold State.bpEvent
  exact .raise (.refl _)

theorem State.startDeadline_lasts (i : Nat) (s : State) : Lasts G s (State.startDeadline i s) := by
  unfold State.startDeadline
  extract_lets +onlyGivenNames s1
  have h1 : Lasts G s s1 := .keeps (State.reachDeadline_keeps ..) rfl
  clear_value s1
  exact .ite (.after (State.cancelWork_lasts ..) h1) h1

theorem State.graphStart_lasts (t : Nat) (s : State) : Lasts G s (State.graphStart t s) := by
  unfold State.graphStart
  exact .past (State.select_keeps ..) (.eachIx (fun _ _ h => .past (State.releaseInsts_keeps ..) h rfl)
    (.eachIx (fun _ _ h => .after (State.checkReady_lasts ..) h)
    (.eachIx (fun _ _ h => .after (State.startDeadline_lasts ..) h)
    (.eachIx (fun _ _ h => .past (State.passOver_keeps ..) h rfl)
    (.eachIx (fun _ _ h => .past (State.loadTask_keeps ..) h rfl) (.keeps (Keeps.disp ..) rfl)))))) rfl

theorem State.endSweep_lasts (executed : List (Work × Nat)) (s : State) : Lasts G s (State.endSweep executed s) := by
  unfold State.endSweep
  extract_lets +onlyGivenNames s1
  have h1 : Lasts G s s1 := .keeps (State.comeTo_keeps ..) rfl
  clear_value s1
  extract_lets +onlyGivenNames _ s2
  have h2 : Lasts G s s2 := .foldl (fun _ _ h => .after (State.overrun_lasts ..) h) h1 _
  clear_value s2
  extract_lets +onlyGivenNames s3
  have h3 : Lasts G s s3 := .foldl (fun _ _ h => .after (State.overrun_lasts ..) h) h2 _
  clear_value s3
  extract_lets +onlyGivenNames s4
  have h4 : Lasts G s s4 := .eachIx (fun _ _ h => .ite (.past (State.setStatus_keeps ..) h rfl) h) h3
  clear_value s4
  exact h4.same rfl

theorem State.accountBinding_lasts (b : Nat) (s : State) : Lasts G s (State.accountBinding b s) := by
  unfold State.accountBinding
  extract_lets +onlyGivenNames _ _ _ _ s1
  have h1 : Lasts G s s1 := .keeps (State.onBinding_keeps ..) rfl
  clear_value s1
  extract_lets +onlyGivenNames _ _ _
  refine .ite ?_ h1
  extract_lets +onlyGivenNames _ s2
  have h2 : Lasts G s s2 := .past (State.onBinding_keeps ..) h1 rfl
  clear_value s2
  exact .ite (.after (State.axisFault_lasts ..) (.raise h2)) (.past (State.haltCause_keeps ..) (.raise h2) rfl)

theorem State.dispBoundary_lasts (s : State) : Lasts G s (State.dispBoundary s) := by
  unfold State.dispBoundary
  extract_lets +onlyGivenNames s1
  have h1 : Lasts G s s1 := .eachIx (fun _ _ h => .after (State.accountBinding_lasts ..) h) (.refl _)
  clear_value s1
  exact .past (Keeps.disp ..) (.past (State.dropTimes_keeps ..) (.ite (.after (State.bpEvent_lasts ..) h1) h1) rfl) rfl

theorem execBudgetExhausted_lasts (t lane : Nat) (s : State) : Answers (Lasts G s) (execBudgetExhausted t lane s) := by
  unfold execBudgetExhausted
  extract_lets +onlyGivenNames s1
  have h1 : Lasts G s s1 := .past (State.comeTo_keeps ..) .tick rfl
  clear_value s1
  split
  · exact .next (.past (State.select_keeps ..) h1 rfl)
  · exact .ite (.next (.past (State.select_keeps ..) h1 rfl))
      (.next (.past (State.select_keeps ..) (.after (State.overrun_lasts ..) (.past (State.setLane_keeps ..) h1 rfl)) rfl))

theorem execCancelRequest_lasts (t : Nat) (w : Work) (s : State) : Answers (Lasts G s) (execCancelRequest t w s) := by
  unfold execCancelRequest
  exact .next (.past (State.select_keeps ..)
    (.past (Keeps.disp ..) (.after (State.cancelWork_lasts ..) (.past (State.comeTo_keeps ..) .tick rfl)) rfl) rfl)

theorem State.waitEvent_lasts (wkind wix : Nat) (s : State) : Lasts G s (State.waitEvent wkind wix s) := by
  unfold State.waitEvent
  refine .past (State.select_keeps ..) (.eachIx (fun _ _ h => ?_) (.keeps (State.comeTo_keeps ..) rfl)) rfl
  extract_lets +onlyGivenNames _
  exact .ite (.after (State.checkReady_lasts ..) (.past (State.onTask_keeps ..) h rfl)) h

theorem execWaitEvent_lasts (t wkind wix : Nat) (s : State) : Answers (Lasts G s) (execWaitEvent t wkind wix s) := by
  unfold execWaitEvent
  exact .next (.after (State.waitEvent_lasts ..) .tick)

theorem execWaitDeadline_lasts (t task : Nat) (s : State) : Answers (Lasts G s) (execWaitDeadline t task s) := by
  unfold execWaitDeadline
  extract_lets +onlyGivenNames s1
  have h1 : Lasts G s s1 := .past (State.comeTo_keeps ..) .tick rfl
  clear_value s1
  extract_lets +onlyGivenNames _ s2
  have h2 : Lasts G s s2 := .past (State.reachDeadline_keeps ..) h1 rfl
  clear_value s2
  extract_lets +onlyGivenNames _
  exact .ite (.next (.past (State.select_keeps ..) h2 rfl))
    (.ite (.next (.past (State.select_keeps ..) (.after (State.cancelWork_lasts ..) h2) rfl))
    (.next (.past (State.select_keeps ..) (.after (State.checkReady_lasts ..) h2) rfl)))

/-! ## Capture and compare -/

theorem State.capRecord_lasts (i t : Nat) (rising : Bool) (s : State) : Lasts G s (State.capRecord i t rising s) := by
  unfold State.capRecord
  extract_lets +onlyGivenNames _
  split
  · refine .ite ?_ (.keeps (State.onCap_keeps ..) rfl)
    extract_lets +onlyGivenNames s1
    have h1 : Lasts G s s1 := .past (State.capLost_keeps ..) (.keeps (State.onCap_keeps ..) rfl) rfl
    clear_value s1
    exact .ite (.raise h1) h1

theorem execCaptureAccept_lasts (t cap : Nat) (s : State) : Answers (Lasts G s) (execCaptureAccept t cap s) := by
  unfold execCaptureAccept
  refine .ite (.next .tick) ?_
  extract_lets +onlyGivenNames _
  refine .ite (.next .tick) ?_
  extract_lets +onlyGivenNames s1
  have h1 : Lasts G s s1 := .past (State.onCap_keeps ..) .tick rfl
  clear_value s1
  extract_lets +onlyGivenNames _ _
  refine .ite (.next (.ite (.past (State.onCap_keeps ..) h1 rfl) h1))
    (.ite (.next h1) (.ite (.next (.past (State.capLost_keeps ..) h1 rfl)) ?_))
  extract_lets +onlyGivenNames s2
  have h2 : Lasts G s s2 := .past (State.onCap_keeps ..) h1 rfl
  clear_value s2
  exact .next (.after (State.waitEvent_lasts ..) (.ite (.after (State.capRecord_lasts ..) h2) h2))

theorem State.cmpPulse_lasts (o t j : Nat) (s : State) : Lasts G s (State.cmpPulse o t j s) := by
  unfold State.cmpPulse
  extract_lets +onlyGivenNames _ _
  refine .ite (.ite (.keeps (State.onCmp_keeps ..) rfl) (.raise (.keeps (State.onCmp_keeps ..) rfl))) ?_
  extract_lets +onlyGivenNames _
  exact .keeps (State.onCmp_keeps ..) rfl

theorem State.cmpPass_lasts (o t : Nat) (p d : Int) (n : Nat) (s : State) : Lasts G s (State.cmpPass o t p d n s) := by
  induction n generalizing s with
  | zero => exact .refl s
  | succ n ih =>
    unfold State.cmpPass
    split
    · exact .refl s
    · have pulsed (j : Nat) : Lasts G s (s.cmpPulse o t j) := State.cmpPulse_lasts ..
      exact .ite (.refl s) (.after (ih _) (.ite (.past (State.onCmp_keeps ..) (pulsed _) rfl) (.past (State.onCmp_keeps ..) (pulsed _) rfl)))

theorem execCompareFire_lasts (t out : Nat) (s : State) : Answers (Lasts G s) (execCompareFire t out s) := by
  unfold execCompareFire
  refine .ite (.next .tick) ?_
  extract_lets +onlyGivenNames _
  refine .ite (.next .tick) (.ite (.next (.past (State.onCmp_keeps ..) .tick rfl)) ?_)
  extract_lets +onlyGivenNames _ _ s1
  have h1 : Lasts G s s1 := .after (State.cmpPass_lasts ..) (.past (State.cmpRearm_keeps ..) .tick rfl)
  clear_value s1
  extract_lets +onlyGivenNames _
  exact .ite (.next (.after (State.cmpPulse_lasts ..) (.past (State.onCmp_keeps ..) h1 rfl))) (.next h1)

/-! ## Feedback channels and inputs -/

theorem State.fbFault_lasts (ch cause : Nat) (detail : Int) (s : State) : Lasts G s (State.fbFault ch cause detail s) := by
  unfold State.fbFault
  exact .ite (.refl _) (.eachIx (fun _ _ h => .ite (.after (State.axisFault_lasts ..) h) h)
    (.raise (.keeps (State.onFb_keeps ..) rfl)))

theorem State.edgeError_lasts (ch : Nat) (s : State) : Lasts G s (State.edgeError ch s) := by
  unfold State.edgeError
  exact .ite (.after (State.fbFault_lasts ..) (.keeps (State.onFb_keeps ..) rfl)) (.keeps (State.onFb_keeps ..) rfl)

theorem State.moveCount_lasts (ch : Nat) (dc : Int) (s : State) : Lasts G s (State.moveCount ch dc s) := by
  unfold State.moveCount
  extract_lets +onlyGivenNames _ _ _ _ _ _ _ s1
  have h1 : Lasts G s s1 := .keeps (State.onFb_keeps ..) rfl
  clear_value s1
  extract_lets +onlyGivenNames s2
  have h2 : Lasts G s s2 := by
    dsimp -zeta only [s2]
    split
    · exact h1
    · extract_lets +onlyGivenNames s3
      have h3 : Lasts G s s3 := .ite (.after (State.axisSaturated_lasts ..) h1) h1
      clear_value s3
      exact .ite (.after (State.axisSaturated_lasts ..) h3) h3
  clear_value s2
  exact .ite (.after (State.fbFault_lasts ..) (.raise h2)) h2

theorem State.countIn_lasts (ch : Nat) (dc : Int) (t : Nat) (s : State) : Lasts G s (State.countIn ch dc t s) := by
  unfold State.countIn
  extract_lets +onlyGivenNames _
  exact .ite (.refl _) (.past (State.onFb_keeps ..) (State.moveCount_lasts ..) rfl)

theorem State.confirmLine_lasts (t ch line : Nat) (s : State) : Lasts G s (State.confirmLine t ch line s) := by
  unfold State.confirmLine
  split
  · exact .refl _
  · extract_lets +onlyGivenNames s1
    have h1 : Lasts G s s1 := .keeps (State.onFb_keeps ..) rfl
    clear_value s1
    exact .ite (.past (State.onFb_keeps ..) h1 rfl)
      (.ite (.after (State.countIn_lasts ..) (.past (State.onFb_keeps ..) h1 rfl)) (.past (State.onFb_keeps ..) h1 rfl))

theorem State.confirmDue_lasts (t ch : Nat) (s : State) : Lasts G s (State.confirmDue t ch s) := by
  unfold State.confirmDue
  exact .foldl (fun _ _ h => .after (State.confirmLine_lasts ..) h) (.refl _) _

theorem State.lineChange_lasts (t ch line : Nat) (step : Int) (level : Bool) (s : State) :
    Lasts G s (State.lineChange t ch line step level s) := by
  unfold State.lineChange
  extract_lets +onlyGivenNames _
  split
  · extract_lets +onlyGivenNames s1
    have h1 : Lasts G s s1 := .keeps (State.onFb_keeps ..) rfl
    clear_value s1
    exact .after (State.edgeError_lasts ..) (.raise h1)
  · extract_lets +onlyGivenNames _
    exact .keeps (State.onFb_keeps ..) rfl

theorem State.quadSkip_lasts (t ch : Nat) (s : State) : Lasts G s (State.quadSkip t ch s) := by
  unfold State.quadSkip
  exact .after (State.edgeError_lasts ..) (.raise (.keeps (State.onFb_keeps ..) rfl))

theorem execQuadTransition_lasts (t ch : Nat) (a b z : Bool) (s : State) :
    Answers (Lasts G s) (execQuadTransition t ch a b z s) := by
  unfold execQuadTransition
  extract_lets +onlyGivenNames s1
  have h1 : Lasts G s s1 := .tick
  clear_value s1
  extract_lets +onlyGivenNames _ s2 s3 s4
  have h2 : Lasts G s s2 := .after (State.confirmDue_lasts ..) h1
  clear_value s2
  have h3 : Lasts G s s3 := .ite (.after (State.quadSkip_lasts ..) h2)
    (.ite (.after (State.lineChange_lasts ..) h2) (.ite (.after (State.lineChange_lasts ..) h2) h2))
  clear_value s3
  have h4 : Lasts G s s4 := .ite h1 (.ite (.after (State.lineChange_lasts ..) h3) h3)
  clear_value s4
  exact .next (.past (State.onFb_keeps ..) h4 rfl)

theorem execQuadConfirm_lasts (t ch line : Nat) (s : State) : Answers (Lasts G s) (execQuadConfirm t ch line s) := by
  unfold execQuadConfirm
  exact .ite (.next .tick) (.next (.after (State.confirmLine_lasts ..) .tick))

theorem State.indexAt_lasts (ch : Nat) (e : RawEdge) (s : State) : Lasts G s (State.indexAt ch e s) := by
  unfold State.indexAt
  exact .ite (.past (State.onFb_keeps ..) (.keeps (State.onFb_keeps ..) rfl) rfl)
    (.ite (.ite (.past (State.onFb_keeps ..)
    (.after (State.moveCount_lasts ..) (.past (State.onFb_keeps ..)
    (.past (State.onFb_keeps ..) (.keeps (State.onFb_keeps ..) rfl) rfl) rfl)) rfl)
    (.past (State.onFb_keeps ..) (.past (State.onFb_keeps ..) (.keeps (State.onFb_keeps ..) rfl) rfl) rfl))
    (.ite (.after (State.fbFault_lasts ..)
    (.raise (.past (State.onFb_keeps ..) (.past (State.onFb_keeps ..) (.keeps (State.onFb_keeps ..) rfl) rfl) rfl)))
    (.raise (.past (State.onFb_keeps ..) (.past (State.onFb_keeps ..) (.keeps (State.onFb_keeps ..) rfl) rfl) rfl))))

theorem execIndexInstant_lasts (t ch : Nat) (s : State) : Answers (Lasts G s) (execIndexInstant t ch s) := by
  unfold execIndexInstant
  refine .ite (.next .tick) ?_
  extract_lets +onlyGivenNames s1
  have h1 : Lasts G s s1 := .after (State.confirmDue_lasts ..) .tick
  clear_value s1
  extract_lets +onlyGivenNames _
  split
  · exact .next h1
  · extract_lets +onlyGivenNames s2
    have h2 : Lasts G s s2 := .past (State.onFb_keeps ..) h1 rfl
    clear_value s2
    exact .ite (.next (.after (State.indexAt_lasts ..) h2)) (.next h2)

theorem State.coarse_lasts (ch theta : Nat) (d : Int) (s : State) : Lasts1 G s (State.coarse ch theta d s) := by
  unfold State.coarse
  extract_lets +onlyGivenNames _ _
  refine Lasts1.ite (Lasts1.mk (.refl _))
    (Lasts1.ite (Lasts1.ite ?_ (Lasts1.mk (State.fbFault_lasts ..)))
    (Lasts1.ite (Lasts1.mk (.refl _)) (Lasts1.mk
    (.after (State.edgeError_lasts ..) (.raise (.keeps (State.onFb_keeps ..) rfl))))))
  extract_lets +onlyGivenNames _ _
  exact Lasts1.mk (.raise (.keeps (State.onFb_keeps ..) rfl))

theorem State.sinCosTake_lasts (t ch : Nat) (si co : Int) (s : State) : Lasts G s (State.sinCosTake t ch si co s) := by
  unfold State.sinCosTake
  extract_lets +onlyGivenNames _ _ _
  refine .ite (.ite (.after (State.fbFault_lasts ..)
    (.ite (.raise (.keeps (State.onFb_keeps ..) rfl)) (.keeps (State.onFb_keeps ..) rfl)))
    (.ite (.raise (.keeps (State.onFb_keeps ..) rfl)) (.keeps (State.onFb_keeps ..) rfl))) ?_
  extract_lets +onlyGivenNames _ _ _ _ s1
  have h1 : Lasts G s s1 := .ite (.refl _) (.keeps (State.onFb_keeps ..) rfl)
  clear_value s1
  extract_lets +onlyGivenNames _ _
  split
  next s2 _ heq =>
  have h2 : Lasts G s s2 := .ofFst heq (.after (State.coarse_lasts ..) h1)
  split
  next _ s3 heq =>
  have h3 : Lasts G s s3 := .ofSnd heq (.past (State.fineShift_keeps ..) h2 rfl)
  extract_lets +onlyGivenNames _ _ _ s4
  have h4 : Lasts G s s4 := .past (State.onFb_keeps ..) h3 rfl
  clear_value s4
  exact .ite (.past (State.onFb_keeps ..) (.after (State.countIn_lasts ..) h4) rfl) (.past (State.onFb_keeps ..) h4 rfl)

theorem execSsiWord_lasts (t ch word : Nat) (lowFirst allHigh : Bool) (s : State) :
    Answers (Lasts G s) (execSsiWord t ch word lowFirst allHigh s) := by
  unfold execSsiWord
  extract_lets +onlyGivenNames s1
  have h1 : Lasts G s s1 := .tick
  clear_value s1
  extract_lets +onlyGivenNames _
  refine .ite (.next h1) ?_
  split
  · exact .next h1
  · extract_lets +onlyGivenNames s2
    have h2 : Lasts G s s2 := .past (State.onFb_keeps ..) h1 rfl
    clear_value s2
    extract_lets +onlyGivenNames _
    exact .ite (.ite (.next (.after (State.fbFault_lasts ..) (.raise (.past (State.onFb_keeps ..) h2 rfl))))
      (.next (.raise (.past (State.onFb_keeps ..) h2 rfl))))
      (.ite (.next (.past (State.onFb_keeps ..) h2 rfl))
      (.next (.past (State.onFb_keeps ..) (.after (State.countIn_lasts ..) (.past (State.onFb_keeps ..) h2 rfl)) rfl)))

theorem execSsiDelayMeasure_lasts (t ch : Nat) (delays : List (Option Nat)) (s : State) :
    Answers (Lasts G s) (execSsiDelayMeasure t ch delays s) := by
  unfold execSsiDelayMeasure
  refine .ite (.next .tick) (.ite (.next .tick)
    (.ite (.next (.after (State.fbFault_lasts ..) (.raise (.past (Keeps.wake ..) .tick rfl)))) ?_))
  extract_lets +onlyGivenNames _ _
  exact .ite (.next (.after (State.fbFault_lasts ..) (.raise (.past (Keeps.wake ..) .tick rfl))))
    (.next (.past (State.onFb_keeps ..) (.past (Keeps.wake ..) .tick rfl) rfl))

theorem State.speedSaturated_lasts (ch : Nat) (v : Int) (s : State) : Lasts G s (State.speedSaturated ch v s) := by
  unfold State.speedSaturated
  exact .ite (.refl _) (.eachIx (fun _ _ h => .ite (.after (State.axisSaturated_lasts ..) h) h) (.refl _))

theorem State.latchFb_lasts (tb ch : Nat) (s : State) : Lasts G s (State.latchFb tb ch s) := by
  unfold State.latchFb
  extract_lets +onlyGivenNames s1
  have h1 : Lasts G s s1 := .ite (State.confirmDue_lasts ..) (.refl _)
  clear_value s1
  extract_lets +onlyGivenNames _ _ _ s2
  have h2 : Lasts G s s2 := .after (State.speedSaturated_lasts ..) h1
  clear_value s2
  extract_lets +onlyGivenNames _ _ _
  split
  · extract_lets +onlyGivenNames _ _ _ s3
    have h3 : Lasts G s s3 := .past (State.onFb_keeps ..) h2 rfl
    clear_value s3
    exact .same h3 rfl

theorem execDinRawTransition_lasts (t din : Nat) (level : Bool) (s : State) :
    Answers (Lasts G s) (execDinRawTransition t din level s) := by
  unfold execDinRawTransition
  extract_lets +onlyGivenNames s1
  have h1 : Lasts G s s1 := .tick
  clear_value s1
  extract_lets +onlyGivenNames _
  refine .ite (.next (.past (State.onDin_keeps ..) h1 rfl)) (.ite ?_ (.next h1))
  extract_lets +onlyGivenNames _ _ _ s2
  have h2 : Lasts G s s2 := .past (State.onDin_keeps ..) h1 rfl
  clear_value s2
  exact .ite (.next (.past (State.chatterStop_keeps ..) (.raise (.past (State.onDin_keeps ..) h2 rfl)) rfl)) (.next h2)

theorem State.ainStep_lasts (i step : Nat) (raw v : Int) (s : State) : Lasts1 G s (State.ainStep i step raw v s) := by
  unfold State.ainStep
  extract_lets +onlyGivenNames _
  exact Lasts1.ite (Lasts1.mk (.refl _)) (Lasts1.mk (.raise (.refl _)))

theorem State.ainTake_lasts (i : Nat) (new : List Int) (s : State) : Lasts G s (State.ainTake i new s) := by
  unfold State.ainTake
  extract_lets +onlyGivenNames _ _ _
  split
  next s1 _ _ heq1 =>
  have h1 : Lasts G s s1 := .ofFst heq1 (State.ainStep_lasts ..)
  split
  next s2 _ _ heq2 =>
  have h2 : Lasts G s s2 := .ofFst heq2 (.after (State.ainStep_lasts ..) h1)
  split
  next s3 _ _ heq3 =>
  have h3 : Lasts G s s3 := .ofFst heq3 (.after (State.ainStep_lasts ..) h2)
  extract_lets +onlyGivenNames _
  split
  next s4 _ _ heq4 =>
  exact .past (Keeps.ain ..) (.ofFst heq4 (.after (State.ainStep_lasts ..) h3)) rfl

theorem State.emuBoundary_lasts (e : Nat) (s : State) : Lasts G s (State.emuBoundary e s) := by
  unfold State.emuBoundary
  extract_lets +onlyGivenNames _
  exact .ite (.refl _) (.ite (.raise (.keeps (Keeps.emu ..) rfl)) (.keeps (Keeps.emu ..) rfl))

/-! ## The current engine -/

theorem State.currentFault_lasts (a t k src : Nat) (detail : Int) (s : State) :
    Lasts G s (State.currentFault a t k src detail s) := by
  unfold State.currentFault
  exact .after (State.axisFault_lasts ..)
    (.raise (.past (State.onCax_brs (h := fun _ => rfl) ..) (.keeps (State.gatesOff_keeps ..) rfl) rfl))

theorem State.channelFault_lasts (c t k : Nat) (detail : Int) (s : State) : Lasts G s (State.channelFault c t k detail s) := by
  unfold State.channelFault
  split
  · exact .refl _
  · exact .ite (.refl _) (.after (State.currentFault_lasts ..) (.keeps (State.onCh_keeps ..) rfl))

theorem State.commitSp_lasts (a : Nat) (id iq : Int) (theta0 : Nat) (omega : Int) (s : State) :
    Lasts G s (State.commitSp a id iq theta0 omega s) := by
  unfold State.commitSp
  extract_lets +onlyGivenNames _ _ _ _ s1
  have h1 : Lasts G s s1 := .ite (.raise (.refl _)) (.refl _)
  clear_value s1
  exact .past (State.onAx_keeps ..) (.past (State.onCax_brs (h := fun _ => rfl) ..) (.ite (.raise h1) h1) rfl) rfl

theorem State.setGain_lasts (a g : Nat) (s : State) : Lasts G s (State.setGain a g s) := by
  unfold State.setGain
  extract_lets +onlyGivenNames _ a2 _ s1
  have h1 : Lasts G s s1 := .keeps (State.onCax_brs (h := fun _ => rfl) ..) rfl
  clear_value s1
  clear_value a2
  split
  · exact .ite h1 (.raise h1)
  · exact h1

theorem State.gainUpdate_lasts (a i j : Nat) (di dj : Int × Int) (s : State) : Lasts G s (State.gainUpdate a i j di dj s) := by
  unfold State.gainUpdate
  extract_lets +onlyGivenNames _ _ _ _ _ _ _
  exact State.setGain_lasts ..

theorem State.refreshSlope_lasts (a e tn tb delay : Nat) (s : State) : Lasts G s (State.refreshSlope a e tn tb delay s) := by
  unfold State.refreshSlope
  extract_lets +onlyGivenNames _ _
  refine .ite (.refl _) ?_
  extract_lets +onlyGivenNames _ s1
  have h1 : Lasts G s s1 := .keeps (State.onEng_keeps ..) rfl
  clear_value s1
  split
  · exact .after (State.gainUpdate_lasts ..) h1
  · exact h1

theorem State.bridgeDecide_lasts (a e c base : Nat) (s : State) : Lasts G s (State.bridgeDecide a e c base s) := by
  unfold State.bridgeDecide
  extract_lets +onlyGivenNames _ _
  split
  · refine .ite (.refl _) ?_
    extract_lets +onlyGivenNames _ s1
    have h1 : Lasts G s s1 := State.refreshSlope_lasts ..
    clear_value s1
    extract_lets +onlyGivenNames _ s2
    have h2 : Lasts G s s2 := .ite (.past (State.startEng_keeps ..) h1 rfl) h1
    clear_value s2
    exact .ite (.past (State.decideVector_keeps ..) h2 rfl) (.past (State.decideScalar_keeps ..) h2 rfl)
  · exact .refl _

theorem State.bitFaults_lasts (c t : Nat) (s : State) : Lasts G s (State.bitFaults c t s) := by
  unfold State.bitFaults
  split
  · exact .refl _
  · extract_lets +onlyGivenNames _ _ _ _ _ s1
    have h1 : Lasts G s s1 := .keeps (State.onCh_keeps ..) rfl
    clear_value s1
    extract_lets +onlyGivenNames s2
    have h2 : Lasts G s s2 := .ite (.after (State.channelFault_lasts ..) h1) h1
    clear_value s2
    extract_lets +onlyGivenNames s3
    have h3 : Lasts G s s3 := .ite (.after (State.channelFault_lasts ..) h2) h2
    clear_value s3
    extract_lets +onlyGivenNames _ s4
    have h4 : Lasts G s s4 := .ite (.after (State.channelFault_lasts ..) h3) h3
    clear_value s4
    extract_lets +onlyGivenNames s5
    have h5 : Lasts G s s5 := .ite (.after (State.channelFault_lasts ..) h4) h4
    clear_value s5
    extract_lets +onlyGivenNames s6
    have h6 : Lasts G s s6 := .ite (.after (State.channelFault_lasts ..) h5) h5
    clear_value s6
    exact .ite (.after (State.channelFault_lasts ..) h6) h6

theorem execModulatorBit_lasts (ticks ch : Nat) (bit : Sample) (s : State) :
    Answers (Lasts G s) (execModulatorBit ticks ch bit s) := by
  unfold execModulatorBit
  refine .ite (.next .tick) ?_
  extract_lets +onlyGivenNames _
  refine .ite (.next .tick) ?_
  extract_lets +onlyGivenNames _ _ _ s1
  have h1 : Lasts G s s1 := .past (State.onCh_keeps ..) .tick rfl
  clear_value s1
  extract_lets +onlyGivenNames s2
  have h2 : Lasts G s s2 := .past (State.takeBit_keeps ..) h1 rfl
  clear_value s2
  extract_lets +onlyGivenNames s3
  have h3 : Lasts G s s3 := .after (State.bitFaults_lasts ..) h2
  clear_value s3
  split
  · exact .next h3
  · exact .next (.after (State.bridgeDecide_lasts ..) h3)

theorem execAccurateEstimate_lasts (ticks ch : Nat) (s : State) : Answers (Lasts G s) (execAccurateEstimate ticks ch s) := by
  unfold execAccurateEstimate
  refine .ite (.next .tick) (.ite (.next .tick) ?_)
  extract_lets +onlyGivenNames _ _ s1
  have h1 : Lasts G s s1 := .past (State.onCh_keeps ..) .tick rfl
  clear_value s1
  split
  · exact .next h1
  · extract_lets +onlyGivenNames s2
    have h2 : Lasts G s s2 := .ite (.after (State.channelFault_lasts ..) h1) h1
    clear_value s2
    exact .next (.past (State.centreUpdate_keeps ..) h2 rfl)

theorem State.offsetUpdate_lasts (c t : Nat) (s : State) : Lasts G s (State.offsetUpdate c t s) := by
  unfold State.offsetUpdate
  exact .ite (.after (State.channelFault_lasts ..)
    (.raise (.ite (.raise (.keeps (State.onCh_keeps ..) rfl)) (.keeps (State.onCh_keeps ..) rfl))))
    (.ite (.raise (.keeps (State.onCh_keeps ..) rfl)) (.keeps (State.onCh_keeps ..) rfl))

theorem State.zeroInstants_lasts (a e t : Nat) (s : State) : Lasts G s (State.zeroInstants a e t s) := by
  unfold State.zeroInstants
  extract_lets +onlyGivenNames _ _ _ _ _ _
  refine .ite (.refl _) (.foldl (fun _ _ h => ?_) (.refl _) _)
  extract_lets +onlyGivenNames _
  exact .ite h (.ite (.past (State.onCh_keeps ..) h rfl)
    (.after (State.offsetUpdate_lasts ..) (.past (State.onCh_keeps ..) h rfl)))

theorem State.axisTick_lasts (t a : Nat) (s : State) : Lasts G s (State.axisTick t a s) := by
  unfold State.axisTick
  extract_lets +onlyGivenNames _
  exact .ite (.refl _) (.eachIx (fun _ _ h => .after (State.bridgeDecide_lasts ..) h)
    (.eachIx (fun _ _ h => .after (State.zeroInstants_lasts ..) h) (.keeps (State.onCax_brs (h := fun _ => rfl) ..) rfl)))

theorem execAngleTick_lasts (t : Nat) (s : State) : Answers (Lasts G s) (execAngleTick t s) := by
  unfold execAngleTick
  extract_lets +onlyGivenNames s1
  have h1 : Lasts G s s1 := .tick
  clear_value s1
  extract_lets +onlyGivenNames _
  exact .ite (.next h1) (.next (.eachIx (fun _ _ h => .ite (.after (State.axisTick_lasts ..) h) h) h1))

theorem execModulatorTimeout_lasts (ticks ch : Nat) (s : State) : Answers (Lasts G s) (execModulatorTimeout ticks ch s) := by
  unfold execModulatorTimeout
  refine .ite (.next .tick) ?_
  extract_lets +onlyGivenNames _
  exact .ite (.next .tick) (.next (.after (State.channelFault_lasts ..) .tick))

theorem execGateReadbackMismatch_lasts (t axis hb : Nat) (high : Bool) (s : State) :
    Answers (Lasts G s) (execGateReadbackMismatch t axis hb high s) := by
  unfold execGateReadbackMismatch
  refine .ite (.next .tick) ?_
  extract_lets +onlyGivenNames _ _
  exact .ite (.next .tick) (.next (.after (State.currentFault_lasts ..) .tick))

theorem execDriverFaultInput_lasts (t axis low : Nat) (s : State) :
    Answers (Lasts G s) (execDriverFaultInput t axis low s) := by
  unfold execDriverFaultInput
  exact .ite (.next .tick) (.ite (.next .tick) (.next (.after (State.currentFault_lasts ..) .tick)))

theorem State.setBand_lasts (a : Nat) (a1 : Int) (turnOns : Nat) (s : State) : Lasts G s (State.setBand a a1 turnOns s) := by
  unfold State.setBand
  extract_lets +onlyGivenNames _ a2 s1
  have h1 : Lasts G s s1 := .keeps (State.onCax_brs (h := fun _ => rfl) ..) rfl
  clear_value s1
  clear_value a2
  split
  · exact .ite h1 (.raise h1)
  · exact h1

theorem State.bandUpdate_lasts (a : Nat) (s : State) : Lasts G s (State.bandUpdate a s) := by
  unfold State.bandUpdate
  extract_lets +onlyGivenNames _
  refine .ite (.refl _) ?_
  extract_lets +onlyGivenNames _ _ _
  exact State.setBand_lasts ..

theorem State.vlimUpdate_lasts (a : Nat) (s : State) : Lasts G s (State.vlimUpdate a s) := by
  unfold State.vlimUpdate
  extract_lets +onlyGivenNames _
  refine .ite (.keeps (State.onCax_brs (h := fun _ => rfl) ..) rfl) ?_
  extract_lets +onlyGivenNames _ _ s1
  have h1 : Lasts G s s1 := .keeps (State.onCax_brs (h := fun _ => rfl) ..) rfl
  clear_value s1
  exact .ite (.raise h1) h1

theorem State.curBoundary_lasts (t a : Nat) (enable : Bool) (rec_ : SetPoint) (s : State) :
    Lasts G s (State.curBoundary t a enable rec_ s) := by
  unfold State.curBoundary
  refine .ite (.refl _) ?_
  extract_lets +onlyGivenNames s1
  have h1 : Lasts G s s1 := .after (State.vlimUpdate_lasts ..) (State.bandUpdate_lasts ..)
  clear_value s1
  extract_lets +onlyGivenNames s2
  have h2 : Lasts G s s2 := .past (State.onCax_brs (h := fun _ => rfl) ..) h1 rfl
  clear_value s2
  extract_lets +onlyGivenNames s3
  have h3 : Lasts G s s3 := .eachIx (fun _ _ h => .past (State.onCh_keeps ..) h rfl) h2
  clear_value s3
  extract_lets +onlyGivenNames _
  exact .ite (.past (State.gatesOff_keeps ..) h3 rfl)
    (.ite (.after (State.setBand_lasts ..) (.past (State.onCax_brs (h := fun _ => rfl) ..) h3 rfl)) h3)

end

end Sys2Proof.Machine

namespace Sys2Proof.Machine

/-! # What lasts through the interlock, the axes and the cars (chapters 6 to 10) -/

section
variable {G : Prop}

/-! ## The pair -/

theorem State.forward_lasts (o : Origin) (c : TwinCmd) (s : State) : Lasts G s (State.forward o c s) := by
  unfold State.forward
  exact .ite (.twin (.refl _) rfl) (.refl _)

/-! ## The interlock -/

theorem State.sampleIn_lasts (die i : Nat) (s : State) : Lasts G s (State.sampleIn die i s) := by
  unfold State.sampleIn
  extract_lets +onlyGivenNames _
  refine .ite (.refl _) ?_
  extract_lets +onlyGivenNames _ _ _ _ _ _ _ _ _ _ _ _ s1
  have h1 : Lasts G s s1 := .keeps (State.onSafeIn_keeps ..) rfl
  clear_value s1
  exact .ite (.raise h1) h1

theorem State.sampleIns_lasts (die : Nat) (s : State) : Lasts G s (State.sampleIns die s) := by
  unfold State.sampleIns
  exact .eachIx (fun _ _ h => .after (State.sampleIn_lasts ..) h) (.refl _)

theorem State.tripReaction_lasts (c code : Nat) (s : State) : Lasts G s (State.tripReaction c code s) := by
  unfold State.tripReaction
  extract_lets +onlyGivenNames _ s1
  have h1 : Lasts G s s1 := .keeps (Keeps.safe ..) rfl
  clear_value s1
  extract_lets +onlyGivenNames s2
  have h2 : Lasts G s s2 := .past (State.haltCause_keeps ..) h1 rfl
  clear_value s2
  split
  · exact .after (State.orderSto_lasts ..) h2
  · exact h2

theorem State.ucmTrip_lasts (b : Bool) (c cause : Nat) (disp : Int) (s : State) :
    Lasts G s (State.ucmTrip b c cause disp s) := by
  unfold State.ucmTrip
  exact .ite (.refl _) (.ite (.after (State.tripReaction_lasts ..) (.raise (.keeps (State.onChan_keeps ..) rfl)))
    (.keeps (State.onChan_keeps ..) rfl))

theorem State.carMonitor_lasts (b : Bool) (c : Nat) (s : State) : Lasts G s (State.carMonitor b c s) := by
  unfold State.carMonitor
  split
  · exact .refl _
  · refine .ite (.keeps (State.onChan_keeps ..) rfl) ?_
    extract_lets +onlyGivenNames _ _ _ _ _ _ a7 _ _ _ _ _ _ _ _ _ _ _ _ _ _ s1
    have h1 : Lasts G s s1 := .keeps (State.onChan_keeps ..) rfl
    clear_value s1
    extract_lets +onlyGivenNames s2
    have h2 : Lasts G s s2 := .ite (.raise h1) h1
    clear_value s2
    extract_lets +onlyGivenNames s3
    have h3 : Lasts G s s3 := .ite (.after (State.ucmTrip_lasts ..) h2)
      (.ite (.after (State.ucmTrip_lasts ..) h2) (.ite (.after (State.ucmTrip_lasts ..) h2) h2))
    clear_value s3
    clear_value a7
    split
    · exact h3
    · refine .ite h3 ?_
      extract_lets +onlyGivenNames _ s4
      have h4 : Lasts G s s4 := .past (State.onChan_keeps ..) h3 rfl
      clear_value s4
      exact .ite (.after (State.tripReaction_lasts ..) (.raise h4)) h4

theorem State.slsMonitor_lasts (b : Bool) (a : Nat) (s : State) : Lasts G s (State.slsMonitor b a s) := by
  unfold State.slsMonitor
  extract_lets +onlyGivenNames _
  refine .ite (.refl _) (.ite (.keeps (State.onChan_keeps ..) rfl) (.ite (.keeps (State.onChan_keeps ..) rfl) ?_))
  extract_lets +onlyGivenNames _ s1
  have h1 : Lasts G s s1 := .past (State.onChan_keeps ..) (.keeps (State.onChan_keeps ..) rfl) rfl
  clear_value s1
  exact .ite (.after (State.orderSto_lasts ..) (.raise (.past (Keeps.safe ..) h1 rfl))) h1

theorem State.evalChannel_lasts (b : Bool) (s : State) : Lasts G s (State.evalChannel b s) := by
  unfold State.evalChannel
  exact .past (State.onChan_keeps ..) (.eachIx (fun _ _ h => .after (State.slsMonitor_lasts ..) h)
    (.eachIx (fun _ _ h => .after (State.carMonitor_lasts ..) h) (.refl _))) rfl

theorem State.outputFault_lasts (o ch cause react : Nat) (s : State) : Lasts G s (State.outputFault o ch cause react s) := by
  unfold State.outputFault
  refine .ite (.refl _) ?_
  extract_lets +onlyGivenNames _ s1
  have h1 : Lasts G s s1 := .keeps (State.onOut_keeps ..) rfl
  clear_value s1
  extract_lets +onlyGivenNames s2
  have h2 : Lasts G s s2 := .raise h1
  clear_value s2
  extract_lets +onlyGivenNames s3
  have h3 : Lasts G s s3 := .ite (.past (State.haltCause_keeps ..) h2 rfl) h2
  clear_value s3
  extract_lets +onlyGivenNames s4
  have h4 : Lasts G s s4 := .ite (.past (State.onChan_keeps ..) h3 rfl) h3
  clear_value s4
  exact .ite (.ite (.eachIx (fun _ _ h => .ite (.after (State.orderSto_lasts ..) h) h) h4)
    (.ite (.after (State.orderSto_lasts ..) h4) h4)) h4

theorem State.driveOut_lasts (b : Bool) (o : Nat) (s : State) : Lasts G s (State.driveOut b o s) := by
  unfold State.driveOut
  extract_lets +onlyGivenNames s1
  have h1 : Lasts G s s1 := .ite (State.outputFault_lasts ..) (.refl _)
  clear_value s1
  extract_lets +onlyGivenNames _ _ s2
  have h2 : Lasts G s s2 := .past (State.onOut_keeps ..) h1 rfl
  clear_value s2
  exact .ite h2 (.past (State.onOut_keeps ..) h2 rfl)

theorem State.driveOuts_lasts (b : Bool) (s : State) : Lasts G s (State.driveOuts b s) := by
  unfold State.driveOuts
  extract_lets +onlyGivenNames _ _
  exact .eachIx (fun _ _ h => .past (State.gatesFollow_keeps ..) h rfl)
    (.foldl (fun _ _ h => .after (State.driveOut_lasts ..) h) (.refl _) _)

theorem State.permitEvent_lasts (s : State) : Lasts G s (State.permitEvent s) := by
  unfold State.permitEvent
  exact .ite (.refl _) (.raise (.keeps (Keeps.safe ..) rfl))

theorem State.edmBoundary_lasts (o : Nat) (s : State) : Lasts G s (State.edmBoundary o s) := by
  unfold State.edmBoundary
  extract_lets +onlyGivenNames _
  refine .ite (.refl _) ?_
  extract_lets +onlyGivenNames _ _
  exact .ite (State.outputFault_lasts ..) (.ite (.keeps (State.onOut_keeps ..) rfl) (.refl _))

theorem State.readBack_lasts (balls : List Nat) (o ch : Nat) (s : State) : Lasts G s (State.readBack balls o ch s) := by
  unfold State.readBack
  exact .ite (.after (State.outputFault_lasts ..) (.keeps (State.onOut_keeps ..) rfl)) (.keeps (State.onOut_keeps ..) rfl)

theorem State.outsBoundary_lasts (balls : List Nat) (s : State) : Lasts G s (State.outsBoundary balls s) := by
  unfold State.outsBoundary
  exact .eachIx (fun _ _ h => .ite (.after (State.edmBoundary_lasts ..) h) h)
    (.eachIx (fun _ _ h => .after (State.readBack_lasts ..) (.after (State.readBack_lasts ..) h)) (.refl _))

theorem execTestPulse_lasts (t out : Nat) (offA offB : Bool) (s : State) :
    Answers (Lasts G s) (execTestPulse t out offA offB s) := by
  unfold execTestPulse
  extract_lets +onlyGivenNames s1
  have h1 : Lasts G s s1 := .tick
  clear_value s1
  extract_lets +onlyGivenNames _ _
  refine .ite (.next h1) ?_
  extract_lets +onlyGivenNames _ _ s2
  have h2 : Lasts G s s2 := .past (State.onOut_keeps ..) h1 rfl
  clear_value s2
  extract_lets +onlyGivenNames s3
  have h3 : Lasts G s s3 := .ite (.after (State.outputFault_lasts ..) h2) h2
  clear_value s3
  exact .next (.ite (.after (State.outputFault_lasts ..) h3) h3)

theorem execEdmTimeout_lasts (t out : Nat) (s : State) : Answers (Lasts G s) (execEdmTimeout t out s) := by
  unfold execEdmTimeout
  extract_lets +onlyGivenNames s1
  have h1 : Lasts G s s1 := .tick
  clear_value s1
  extract_lets +onlyGivenNames _ _ _
  exact .ite (.next h1) (.ite (.ite (.next h1) (.next (.after (State.outputFault_lasts ..) h1)))
    (.ite (.next h1) (.next (.after (State.outputFault_lasts ..) h1))))

theorem State.ss1Boundary_lasts (a : Nat) (s : State) : Lasts G s (State.ss1Boundary a s) := by
  unfold State.ss1Boundary
  extract_lets +onlyGivenNames _
  refine .ite (.refl _) ?_
  extract_lets +onlyGivenNames _ _ _ _ _ s1
  have h1 : Lasts G s s1 := .keeps (State.onStop_keeps ..) rfl
  clear_value s1
  extract_lets +onlyGivenNames _
  exact .ite (.after (State.orderSto_lasts ..) (.raise h1)) h1

theorem execSs1End_lasts (t axis : Nat) (s : State) : Answers (Lasts G s) (execSs1End t axis s) := by
  unfold execSs1End
  extract_lets +onlyGivenNames s1
  have h1 : Lasts G s s1 := .tick
  clear_value s1
  extract_lets +onlyGivenNames _ _
  exact .ite (.next h1) (.next (.foldl (fun _ _ h => .after (State.driveOut_lasts ..) (.after (State.driveOut_lasts ..) h))
    (.raise (.past (State.onStop_keeps ..) h1 rfl)) _))

theorem State.torqueFall_lasts (a : Nat) (s : State) : Lasts G s (State.torqueFall a s) := by
  unfold State.torqueFall
  exact .ite (State.orderSto_lasts ..) (.refl _)

theorem State.crossCompare_lasts (va vb : SafeVec) (s : State) : Lasts G s (State.crossCompare va vb s) := by
  unfold State.crossCompare
  split
  · exact .keeps (Keeps.safe ..) rfl
  · extract_lets +onlyGivenNames _ _ s1
    have h1 : Lasts G s s1 := .keeps (Keeps.safe ..) rfl
    refine .ite h1 ?_
    extract_lets +onlyGivenNames _ s2
    have h2 : Lasts G s s2 := .past (Keeps.safe ..) h1 rfl
    exact .past (State.haltCause_keeps ..) (.raise h2) rfl

theorem State.applyA_lasts (committed : Bool) (s : State) : Lasts G s (State.applyA committed s) := by
  unfold State.applyA
  exact .ite (.keeps (State.onChan_keeps ..) rfl)
    (.ite (.keeps (State.onChan_keeps ..) rfl) (.raise (.past (Keeps.safe ..) (.keeps (State.onChan_keeps ..) rfl) rfl)))

theorem State.noticeB_lasts (s : State) : Lasts G s (State.noticeB s) := by
  unfold State.noticeB
  extract_lets +onlyGivenNames s1
  have h1 : Lasts G s s1 := .keeps (State.onChan_keeps ..) rfl
  clear_value s1
  extract_lets +onlyGivenNames s2
  have h2 : Lasts G s s2 := by
    dsimp -zeta only [s2]
    split
    · exact .after (State.crossCompare_lasts ..) h1
    · exact h1
  clear_value s2
  exact .after (State.evalChannel_lasts ..)
    (.after (State.sampleIns_lasts ..) (.after (State.permitEvent_lasts ..) (.after (State.driveOuts_lasts ..) h2)))

theorem State.brakeResult_lasts (x : BrakeTest) (o : Nat) (moved : Bool) (disp : Int) (s : State) :
    Lasts G s (State.brakeResult x o moved disp s) := by
  unfold State.brakeResult
  exact .ite (.after (State.outputFault_lasts ..) (.raise (.refl _))) (.past (State.onOut_keeps ..) (.raise (.refl _)) rfl)

theorem execBrakeTestStepEnd_lasts (t : Nat) (s : State) : Answers (Lasts G s) (execBrakeTestStepEnd t s) := by
  unfold execBrakeTestStepEnd
  extract_lets +onlyGivenNames s1
  have h1 : Lasts G s s1 := .tick
  clear_value s1
  split
  · exact .next h1
  · split
    · exact .next (.past (Keeps.safe ..) h1 rfl)
    · refine .ite (.next h1) ?_
      extract_lets +onlyGivenNames _ _ _ s2
      have h2 : Lasts G s s2 := .ite h1 (.after (State.brakeResult_lasts ..) h1)
      clear_value s2
      extract_lets +onlyGivenNames s3
      have h3 : Lasts G s s3 := .past (State.onTest_keeps ..) h2 rfl
      clear_value s3
      exact .ite (.next (.past (Keeps.safe ..) h3 rfl)) (.next h3)

theorem State.abortTest_lasts (a : Nat) (s : State) : Lasts G s (State.abortTest a s) := by
  unfold State.abortTest
  split
  · refine .ite (.refl _) ?_
    extract_lets +onlyGivenNames _
    exact .raise (.keeps (Keeps.safe ..) rfl)
  · exact .refl _

theorem State.safetyReset_lasts (s : State) : Lasts1 G s (State.safetyReset s) := by
  unfold State.safetyReset
  extract_lets +onlyGivenNames _
  refine Lasts1.ite (.raise (.refl s)) ?_
  split
  next s1 _ heq1 =>
  have h1 : Lasts G s s1 := .ofFst heq1 (State.clearWhere_lasts (fun _ _ h =>
    .past (State.onSafeIn_keeps ..) (.past (State.onSafeIn_keeps ..) h rfl) rfl) (.refl s))
  extract_lets +onlyGivenNames both
  have on (f : SafeChan → SafeChan) (t : State) (h : Lasts G s t) : Lasts G s (both f t) :=
    .past (State.onChan_keeps ..) (.past (State.onChan_keeps ..) h rfl) rfl
  clear_value both
  split
  next s2 _ heq2 =>
  have h2 : Lasts G s s2 := .ofFst heq2 (State.clearWhere_lasts (fun _ _ h => on _ _ h) h1)
  split
  next s3 _ heq3 =>
  have h3 : Lasts G s s3 := .ofFst heq3 (State.clearWhere_lasts (fun _ _ h => on _ _ h) h2)
  split
  next s4 _ heq4 =>
  have h4 : Lasts G s s4 := .ofFst heq4 (State.clearWhere_lasts (fun _ _ h => on _ _ h) h3)
  split
  next s5 _ heq5 =>
  have h5 : Lasts G s s5 := .ofFst heq5 (State.clearWhere_lasts (fun _ _ h =>
    .ite (on _ _ (.past (State.onOut_keeps ..) h rfl)) (.past (State.onOut_keeps ..) h rfl)) h4)
  exact Lasts1.mk (.raise (.ite (.past (Keeps.safe ..) h5 rfl) h5))

/-! ## Paths -/

theorem State.setGc_lasts (c : Nat) (g : Gc) (s : State) : Lasts G s (State.setGc c g s) := by
  unfold State.setGc
  exact .ite (.keeps (State.onGc_keeps ..) rfl) (.raise (.keeps (State.onGc_keeps ..) rfl))

/-! ## Hand-over between modes -/

theorem State.raiseFault_lasts (a : Nat) (s : State) (f : AxFault) : Lasts G s (State.raiseFault a s f) := by
  unfold State.raiseFault
  exact .ite (State.axisSaturated_lasts ..) (State.axisFault_lasts ..)

theorem State.raiseFaults_lasts (a : Nat) (l : List AxFault) (s : State) : Lasts G s (State.raiseFaults a l s) := by
  unfold State.raiseFaults
  exact .foldl (fun _ _ h => .foldl (fun _ _ h => .after (State.raiseFault_lasts ..) h) h _) (.refl _) _

theorem State.refuse_lasts (a mode : Nat) (q : Nat × Int) (s : State) : Lasts G s (State.refuse a mode q s) := by
  unfold State.refuse
  extract_lets +onlyGivenNames _
  exact .raise (.keeps (State.onBook_keeps ..) rfl)

theorem State.changeMode_lasts (a mode restAt : Nat) (i : Int) (s : State) :
    Lasts1 G s (State.changeMode a mode restAt i s) := by
  unfold State.changeMode
  extract_lets +onlyGivenNames _
  split
  · extract_lets +onlyGivenNames s1
    have h1 : Lasts G s s1 := State.refuse_lasts ..
    clear_value s1
    exact Lasts1.mk (.ite h1 (.after (State.raiseFaults_lasts ..) (.past (State.onAx_keeps ..) h1 rfl)))
  · extract_lets +onlyGivenNames s2
    have h2 : Lasts G s s2 := .keeps (State.onAx_keeps ..) rfl
    clear_value s2
    extract_lets +onlyGivenNames s3
    have h3 : Lasts G s s3 := by
      dsimp -zeta only [s3]
      split
      · exact .after (State.setGc_lasts ..) h2
      · exact .ite (.after (State.setGc_lasts ..) h2) h2
      · exact h2
    clear_value s3
    exact Lasts1.mk (.raise h3)

theorem State.enterHeldMode_lasts (a : Nat) (s : State) : Lasts G s (State.enterHeld_ a s) := by
  unfold State.enterHeld_
  extract_lets +onlyGivenNames s1
  have h1 : Lasts G s s1 := by
    dsimp -zeta only [s1]
    split
    · exact State.setGc_lasts ..
    · exact .refl _
  clear_value s1
  exact .past (State.onAx_keeps ..) h1 rfl

/-! ## Homing -/

theorem State.homeFail_lasts (a cause : Nat) (s : State) : Lasts G s (State.homeFail a cause s) := by
  unfold State.homeFail
  extract_lets +onlyGivenNames _
  exact .ite (.refl _) (.ite (.keeps (State.onHome_keeps ..) rfl) (.raise (.keeps (State.onHome_keeps ..) rfl)))

theorem State.homeNoRef_lasts (a input : Nat) (s : State) : Lasts G s (State.homeNoRef a input s) := by
  unfold State.homeNoRef
  exact .raise (.past (State.onHome_keeps ..) (.keeps (State.onAx_keeps ..) rfl) rfl)

theorem State.homeDone_lasts (a : Nat) (s : State) : Lasts G s (State.homeDone a s) := by
  unfold State.homeDone
  exact .raise (.past (State.onHome_keeps ..) (.keeps (State.onAx_keeps ..) rfl) rfl)

theorem State.homeFaulted_lasts (a : Nat) (s : State) : Lasts G s (State.homeFaulted a s) := by
  unfold State.homeFaulted
  extract_lets +onlyGivenNames _
  exact .ite (.keeps (State.onHome_keeps ..) rfl) (State.homeDone_lasts ..)

theorem State.homeFinish_lasts (a restAt : Nat) (s : State) : Lasts G s (State.homeFinish a restAt s) := by
  unfold State.homeFinish
  extract_lets +onlyGivenNames _ _
  exact .ite (.past (State.homeTo_keeps ..) (.keeps (State.onHome_keeps ..) rfl) rfl)
    (.ite (.refl _) (.ite (.past (State.homeTo_keeps ..) (.keeps (State.onHome_keeps ..) rfl) rfl)
    (.after (State.homeDone_lasts ..) (.ite (.refl _) (.ite (State.enterHeldMode_lasts ..) (State.changeMode_lasts ..))))))

theorem State.homeLimit_lasts (a i : Nat) (travel : Int) (s : State) : Lasts G s (State.homeLimit a i travel s) := by
  unfold State.homeLimit
  extract_lets +onlyGivenNames _
  exact .ite (State.homeNoRef_lasts ..) (.past (State.homePhase_keeps ..) (.keeps (State.onAx_keeps ..) rfl) rfl)

theorem State.homeStage_lasts (a restAt : Nat) (s : State) : Lasts G s (State.homeStage a restAt s) := by
  unfold State.homeStage
  extract_lets +onlyGivenNames _ _ _
  refine .ite (.refl _) (.ite (.after (State.homeFail_lasts ..) (.keeps (State.onAx_keeps ..) rfl))
    (.ite (State.homeFail_lasts ..) (.ite
    (.ite (.after (State.homeFaulted_lasts ..) (.keeps (State.onHome_keeps ..) rfl))
    (.after (State.homeFinish_lasts ..) (.keeps (State.onHome_keeps ..) rfl)))
    (.ite (.keeps (State.onHome_keeps ..) rfl)
    (.ite (.after (State.homeFail_lasts ..) (.past (State.onAx_keeps ..) (.keeps (State.onHome_keeps ..) rfl) rfl))
    (.ite (.after (State.changeMode_lasts ..)
    (.after (State.homeFail_lasts ..) (.keeps (State.onHome_keeps ..) rfl))) ?_))))))
  extract_lets +onlyGivenNames _ _ a8 _
  refine .ite (.after (State.homeFail_lasts ..) (.past (State.onAx_keeps ..) (.keeps (State.onHome_keeps ..) rfl) rfl)) ?_
  clear_value a8
  split
  · exact .past (State.homeLatch_keeps ..) (.keeps (State.onHome_keeps ..) rfl) rfl
  · split
    · exact .ite (.past (State.homeLatch_keeps ..) (.keeps (State.onHome_keeps ..) rfl) rfl)
        (.after (State.homeLimit_lasts ..) (.keeps (State.onHome_keeps ..) rfl))
    · exact .after (State.homeLimit_lasts ..) (.keeps (State.onHome_keeps ..) rfl)
  · exact .ite (.after (State.homeFail_lasts ..) (.past (State.onAx_keeps ..) (.keeps (State.onHome_keeps ..) rfl) rfl))
      (.past (State.homeBegin_keeps ..) (.past (State.homeProgress_keeps ..) (.keeps (State.onHome_keeps ..) rfl) rfl) rfl)

theorem State.wrapAxis_lasts (a : Nat) (s : State) : Lasts G s (State.wrapAxis a s) := by
  unfold State.wrapAxis
  refine .ite (.refl _) ?_
  extract_lets +onlyGivenNames _ _ _
  exact .ite (.refl _) (.ite (.keeps (State.onAx_keeps ..) rfl)
    (.after (State.axisFault_lasts ..) (.raise (.keeps (State.onAx_keeps ..) rfl))))

theorem State.shiftChannel_lasts (home : Bool) (ch : Nat) (d : Int) (s : State) :
    Lasts G s (State.shiftChannel home ch d s) := by
  unfold State.shiftChannel
  extract_lets -underBinder +onlyGivenNames -merge _ _ s1
  have h1 : Lasts G s s1 := by
    dsimp -zeta only [s1]
    split
    · exact .ite (.refl _) (State.axisSaturated_lasts ..)
    · exact .refl _
  clear_value s1
  extract_lets -underBinder +onlyGivenNames -merge s2
  have h2 : Lasts G s s2 := .past (State.shiftMonitored_keeps ..) (.past (State.onFb_keeps ..) h1 rfl) rfl
  clear_value s2
  exact .same h2 rfl

theorem State.shiftAxis_lasts (home : Bool) (a : Nat) (d : Int) (s : State) : Lasts G s (State.shiftAxis home a d s) := by
  unfold State.shiftAxis
  extract_lets +onlyGivenNames s1
  have h1 : Lasts G s s1 := by
    dsimp -zeta only [s1]
    split
    · exact State.shiftChannel_lasts ..
    · exact .refl _
  clear_value s1
  refine .eachIx (fun _ _ h => ?_) (.past (State.onBook_keeps ..) (.same h1 rfl) rfl)
  extract_lets +onlyGivenNames _ _
  exact .ite (.past (State.cmpReseek_keeps ..) h rfl) h

theorem State.homeCommit_lasts (a : Nat) (s : State) : Lasts G s (State.homeCommit a s) := by
  unfold State.homeCommit
  extract_lets +onlyGivenNames _
  split
  · exact .refl _
  · extract_lets +onlyGivenNames _ s1
    have h1 : Lasts G s s1 := State.shiftAxis_lasts ..
    clear_value s1
    extract_lets +onlyGivenNames s2
    have h2 : Lasts G s s2 := by
      dsimp -zeta only [s2]
      split
      · exact .past (State.onFb_keeps ..) h1 rfl
      · exact h1
    clear_value s2
    extract_lets +onlyGivenNames _ s3
    have h3 : Lasts G s s3 := .twin h2 rfl
    clear_value s3
    extract_lets +onlyGivenNames s4
    have h4 : Lasts G s s4 := by
      dsimp -zeta only [s4]
      split
      · exact .past (Keeps.cars ..) h3 rfl
      · exact h3
    clear_value s4
    exact .after (State.wrapAxis_lasts ..) (.past (State.onHome_keeps ..) h4 rfl)

theorem execHomingAuto_lasts (t axis : Nat) (s : State) : Answers (Lasts G s) (execHomingAuto t axis s) := by
  unfold execHomingAuto
  refine .ite (.next .tick) ?_
  extract_lets +onlyGivenNames _
  split
  · exact .next .tick
  · exact .ite (.next (.after (State.homeDone_lasts ..)
      (.after (State.homeCommit_lasts ..) (.past (State.onHome_keeps ..) (.past (State.unshow_keeps ..) .tick rfl) rfl))))
      (.next .tick)

/-! ## The axis -/

theorem State.rejectCmd_lasts (a : Nat) (o : Offer) (reason : Nat) (s : State) : Lasts G s (State.rejectCmd a o reason s) := by
  unfold State.rejectCmd
  exact .past (State.reply_keeps ..) (.raise (.keeps (State.onBook_keeps ..) rfl)) rfl

theorem State.acceptCmd_lasts (a : Nat) (o : Offer) (s : State) : Lasts G s (State.acceptCmd a o s) := by
  unfold State.acceptCmd
  exact .past (State.reply_keeps ..) (.after (State.forward_lasts ..)
    (.past (State.onBook_keeps ..) (.ite (.keeps (Keeps.survey ..) rfl) (.refl _)) rfl)) rfl

theorem State.reversal_lasts (a landing : Nat) (p : Int) (s : State) : Lasts G s (State.reversal a landing p s) := by
  unfold State.reversal
  exact .raise (.keeps (State.onBook_keeps ..) rfl)

theorem State.giveMove_lasts (a : Nat) (m : Move) (s : State) : Lasts G s (State.giveMove a m s) := by
  unfold State.giveMove
  extract_lets +onlyGivenNames _
  refine .ite (.keeps (State.onAx_keeps ..) rfl) ?_
  extract_lets +onlyGivenNames _
  split
  · extract_lets +onlyGivenNames s1
    have h1 : Lasts G s s1 := .keeps (State.onAx_keeps ..) rfl
    clear_value s1
    split
    · exact h1
    · exact .after (State.reversal_lasts ..) h1
    · exact .after (State.reversal_lasts ..) h1
    · extract_lets +onlyGivenNames s2
      have h2 : Lasts G s s2 := .after (State.reversal_lasts ..) h1
      clear_value s2
      split
      · exact .past (Keeps.cars ..) h2 rfl
      · exact h2

theorem State.takeMove_lasts (a : Nat) (m : Move) (s : State) : Lasts G s (State.takeMove a m s) := by
  unfold State.takeMove
  extract_lets +onlyGivenNames _
  exact .ite (.keeps (State.onAx_keeps ..) rfl) (State.giveMove_lasts ..)

theorem State.decouple_lasts (a : Nat) (s : State) : Lasts G s (State.decouple a s) := by
  unfold State.decouple
  extract_lets +onlyGivenNames _
  refine .ite (State.enterHeldMode_lasts ..) ?_
  extract_lets +onlyGivenNames _
  exact .keeps (State.onAx_keeps ..) rfl

theorem State.takeStop_lasts (a : Nat) (s : State) : Lasts G s (State.takeStop a s) := by
  unfold State.takeStop
  extract_lets +onlyGivenNames _
  refine .ite (State.homeFail_lasts ..) (.ite ?_ ?_)
  · extract_lets +onlyGivenNames s1
    have h1 : Lasts G s s1 := .past (State.homeStop_keeps ..) (State.homeFail_lasts ..) rfl
    clear_value s1
    exact .ite h1 (.past (State.onAx_keeps ..) h1 rfl)
  · split
    · exact .keeps (State.onAx_keeps ..) rfl
    · exact .keeps (State.onAx_keeps ..) rfl
    · exact .ite (.refl _) (State.decouple_lasts ..)
    · split
      · exact .refl _
      · refine .ite (.refl _) ?_
        split
        · exact State.enterHeldMode_lasts ..
        · exact .refl _
        · exact .refl _
        · exact .ite (.after (State.decouple_lasts ..) (State.setGc_lasts ..)) (State.setGc_lasts ..)
    · split
      · exact .keeps (State.groupStop_keeps ..) rfl
      · exact .refl _
    · exact .ite (.refl _) (State.enterHeldMode_lasts ..)

theorem State.takeQuick_lasts (a : Nat) (k : RampThen) (cause : Nat) (s : State) : Lasts G s (State.takeQuick a k cause s) := by
  unfold State.takeQuick
  extract_lets +onlyGivenNames s1
  have h1 : Lasts G s s1 := .ite (State.homeFail_lasts ..) (.refl _)
  clear_value s1
  exact .past (State.onAx_keeps ..) (.ite (.past (State.onBook_keeps ..) h1 rfl) h1) rfl

theorem State.takeDisable_lasts (a : Nat) (s : State) : Lasts G s (State.takeDisable a s) := by
  unfold State.takeDisable
  extract_lets +onlyGivenNames _ s1
  have h1 : Lasts G s s1 := .ite (State.homeFail_lasts ..)
    (.ite (.ite (.refl _) (State.enterHeldMode_lasts ..)) (State.takeQuick_lasts ..))
  clear_value s1
  exact .past (State.onAx_keeps ..) (.ite (.past (State.onBook_keeps ..) h1 rfl) h1) rfl

theorem State.takePhase_lasts (a c : Nat) (m : AxCmd) (s : State) : Lasts G s (State.takePhase a c m s) := by
  unfold State.takePhase
  extract_lets +onlyGivenNames _ _ _
  split
  · extract_lets +onlyGivenNames s1
    have h1 : Lasts G s s1 := .keeps (State.onGc_keeps ..) rfl
    clear_value s1
    exact .ite (.after (State.reversal_lasts ..) h1) h1

theorem State.takeCmd_lasts (a restAt : Nat) (c : AxCmd) (s : State) : Lasts1 G s (State.takeCmd a restAt c s) := by
  unfold State.takeCmd
  split
  · exact Lasts1.mk (.keeps (State.takeEnable_keeps ..) rfl)
  · exact Lasts1.mk (State.takeDisable_lasts ..)
  · exact Lasts1.mk (State.takeStop_lasts ..)
  · refine Lasts1.mk ?_
    split
    · exact .after (State.giveMove_lasts ..) (.keeps (State.onAx_keeps ..) rfl)
    · exact .refl _
  · exact Lasts1.mk (State.takeQuick_lasts ..)
  · exact Lasts1.mk (.keeps (State.onBook_keeps ..) rfl)
  · extract_lets +onlyGivenNames _
    split
    · exact Lasts1.mk (State.takePhase_lasts ..)
    · refine Lasts1.ite (Lasts1.mk (State.takeDisable_lasts ..)) ?_
      extract_lets +onlyGivenNames _
      split
      next s1 _ heq =>
      have h1 : Lasts G s s1 := .ofFst heq (Lasts1.ite (Lasts1.mk (.refl _)) (State.changeMode_lasts ..))
      exact Lasts1.ite (Lasts1.mk h1) (Lasts1.ite (Lasts1.mk (.after (State.takeMove_lasts ..) h1))
        (Lasts1.ite (Lasts1.mk (.past (State.onAx_keeps ..) h1 rfl))
        (Lasts1.ite (Lasts1.mk (.past (State.homeEnter_keeps ..) h1 rfl)) (Lasts1.mk h1))))

theorem State.decideCmd_lasts (a : Nat) (o : Offer) (s : State) : Lasts G s (State.decideCmd a o s) := by
  unfold State.decideCmd
  extract_lets +onlyGivenNames _ _
  refine .ite (State.rejectCmd_lasts ..) ?_
  split
  next s1 _ heq =>
  have h1 : Lasts G s s1 := .ofFst heq (State.takeCmd_lasts ..)
  exact .ite (.after (State.rejectCmd_lasts ..) h1) (.after (State.acceptCmd_lasts ..) h1)

theorem State.decideOffered_lasts (a : Nat) (s : State) : Lasts G s (State.decideOffered a s) := by
  unfold State.decideOffered
  extract_lets +onlyGivenNames _ s1
  have h1 : Lasts G s s1 := .keeps (State.onBook_keeps ..) rfl
  clear_value s1
  split
  · exact h1
  · exact .after (State.decideCmd_lasts ..) (.foldl (fun _ _ h => .after (State.rejectCmd_lasts ..) h) h1 _)

theorem State.axisCommand_lasts (a : Nat) (o : Origin) (c : AxCmd) (s : State) : Lasts G s (State.axisCommand a o c s) := by
  unfold State.axisCommand
  exact .ite (.refl _) (.ite (State.decideCmd_lasts ..)
    (.ite (.keeps (State.keepOffer_keeps ..) rfl)
    (.past (State.show_keeps ..) (.past (State.keepOffer_keeps ..) (.keeps (State.unshow_keeps ..) rfl) rfl) rfl)))

theorem State.offerAxis_lasts (a : Nat) (o : Origin) (c : AxCmd) (s : State) : Lasts G s (State.offerAxis a o c s) := by
  unfold State.offerAxis
  exact .ite (.refl _) (.ite (State.decideCmd_lasts ..) (.keeps (State.keepOffer_keeps ..) rfl))

theorem State.limitEvent_lasts (a kind : Nat) (s : State) : Lasts G s (State.limitEvent a kind s) := by
  unfold State.limitEvent
  exact .raise (.refl _)

theorem State.limitStop_lasts (a kind : Nat) (s : State) : Lasts G s (State.limitStop a kind s) := by
  unfold State.limitStop
  exact .after (State.limitEvent_lasts ..)
    (.past (State.onAx_keeps ..) (.ite (.keeps (State.onBook_keeps ..) rfl) (.refl _)) rfl)

theorem State.limits_lasts (a : Nat) (s : State) : Lasts G s (State.limits a s) := by
  unfold State.limits
  extract_lets +onlyGivenNames _ _
  refine .ite (.refl _) (.ite (.ite (State.limitEvent_lasts ..) (.refl _))
    (.ite (State.limitStop_lasts ..) (.ite ?_ (.refl _))))
  extract_lets +onlyGivenNames _
  exact .ite (State.limitStop_lasts ..) (.refl _)

theorem State.rampStage_lasts (a : Nat) (s : State) : Lasts1 G s (State.rampStage a s) := by
  unfold State.rampStage
  extract_lets +onlyGivenNames _ _ _ _ s1
  have h1 : Lasts G s s1 := .keeps (State.onAx_keeps ..) rfl
  clear_value s1
  split
  next s2 _ heq =>
  have h2 : Lasts G s s2 := .ofFst heq (.past (State.inFormat_keeps ..) h1 rfl)
  extract_lets +onlyGivenNames s3 s4
  have h3 : Lasts G s s3 := .past (State.onAx_keeps ..) h2 rfl
  clear_value s3
  have h4 : Lasts G s s4 := .ite h2 (.ite (.past (State.onAx_keeps ..) h3 rfl) (.after (State.enterHeldMode_lasts ..) h3))
  clear_value s4
  exact Lasts1.mk h4

theorem State.refStage_lasts (a : Nat) (s : State) : Lasts1 G s (State.refStage a s) := by
  unfold State.refStage
  extract_lets +onlyGivenNames _ _ _ _ _ _ _ s1
  have h1 : Lasts G s s1 := by
    dsimp -zeta only [s1]
    split
    · extract_lets +onlyGivenNames s2
      have h2 : Lasts G s s2 := State.setGc_lasts ..
      clear_value s2
      exact .ite (.after (State.setGc_lasts ..) h2) h2
    · exact .refl _
  clear_value s1
  extract_lets +onlyGivenNames _
  split
  next s3 _ heq =>
  have h3 : Lasts G s s3 := .ofFst heq (.past (State.inFormat_keeps ..) (.past (State.onAx_keeps ..) h1 rfl) rfl)
  extract_lets +onlyGivenNames _ _
  exact Lasts1.mk (.ite (.after (State.decouple_lasts ..) h3) (.ite (.after (State.enterHeldMode_lasts ..) h3) h3))

theorem State.iqStage_lasts (a : Nat) (s : State) : Lasts1 G s (State.iqStage a s) := by
  unfold State.iqStage
  extract_lets +onlyGivenNames _ _ _ _
  split
  · exact Lasts1.mk (.keeps (State.onAx_keeps ..) rfl)
  · refine Lasts1.ite (Lasts1.mk (.refl _)) (Lasts1.ite (Lasts1.mk (.keeps (State.onAx_keeps ..) rfl)) ?_)
    extract_lets +onlyGivenNames _ _ s1
    have h1 : Lasts G s s1 := .keeps (State.fromTorque_keeps ..) rfl
    clear_value s1
    extract_lets +onlyGivenNames _ _ s2
    have h2 : Lasts G s s2 := .past (State.onAx_keeps ..) h1 rfl
    clear_value s2
    extract_lets +onlyGivenNames s3
    have h3 : Lasts G s s3 := .ite h2 (.raise h2)
    clear_value s3
    extract_lets +onlyGivenNames _
    exact Lasts1.mk (.past (State.onHome_keeps ..) h3 rfl)

theorem State.spStage_lasts (a : Nat) (pWas : Int) (s : State) : Lasts1 G s (State.spStage a pWas s) := by
  unfold State.spStage
  extract_lets +onlyGivenNames _ _ a3
  split
  · refine Lasts1.ite ?_ (Lasts1.mk ?_)
    · extract_lets +onlyGivenNames _ _ _ _ s1
      have h1 : Lasts G s s1 := .keeps (State.onAx_keeps ..) rfl
      clear_value s1
      extract_lets +onlyGivenNames _
      exact Lasts1.mk (.after (State.commitSp_lasts ..) h1)
    · split
      · exact State.commitSp_lasts ..
      · extract_lets +onlyGivenNames _ _ _ _ _ _
        clear_value a3
        split
        · exact State.commitSp_lasts ..
        · extract_lets +onlyGivenNames _
          exact State.commitSp_lasts ..
  · refine Lasts1.ite ?_ (Lasts1.mk ?_)
    · extract_lets +onlyGivenNames _ _ _ _ s2
      have h2 : Lasts G s s2 := .keeps (State.onAx_keeps ..) rfl
      clear_value s2
      extract_lets +onlyGivenNames _
      exact Lasts1.mk (.after (State.commitSp_lasts ..) h2)
    · split
      · exact State.commitSp_lasts ..
      · extract_lets +onlyGivenNames _ _ _ _ _ _
        clear_value a3
        split
        · exact State.commitSp_lasts ..
        · extract_lets +onlyGivenNames _
          exact State.commitSp_lasts ..
  · exact Lasts1.mk (State.commitSp_lasts ..)
  · exact Lasts1.mk (.refl _)

theorem State.axisKernel_lasts (a : Nat) (s : State) : Lasts G s (State.axisKernel a s) := by
  unfold State.axisKernel
  refine .ite (.refl _) ?_
  extract_lets +onlyGivenNames s1
  have h1 : Lasts G s s1 := State.decideOffered_lasts ..
  clear_value s1
  extract_lets +onlyGivenNames _
  refine .ite h1 (.ite (.past (State.stillStage_keeps ..) (.past (State.onAx_keeps ..) h1 rfl) rfl) ?_)
  extract_lets +onlyGivenNames s2
  have h2 : Lasts G s s2 := .after (State.limits_lasts ..) h1
  clear_value s2
  extract_lets +onlyGivenNames s3
  have h3 : Lasts G s s3 := .after (State.homeStage_lasts ..) h2
  clear_value s3
  extract_lets +onlyGivenNames _ _ _
  split
  next s4 _ heq =>
  have h4 : Lasts G s s4 := .ofFst heq (Lasts1.ite (Lasts1.mk (.past (State.onAx_keeps ..) h3 rfl))
    (Lasts1.ite (.after (State.rampStage_lasts ..) h3)
    (Lasts1.ite (Lasts1.mk (.past (State.onAx_keeps ..) h3 rfl)) (.after (State.refStage_lasts ..) h3))))
  split
  next s5 _ heq =>
  have h5 : Lasts G s s5 := .ofFst heq (Lasts1.ite (.past (State.ferrStage_keeps ..) h4 rfl) (Lasts1.mk h4))
  split
  next s6 _ heq =>
  have h6 : Lasts G s s6 := .ofFst heq (Lasts1.ite (Lasts1.mk h5) (.after (State.iqStage_lasts ..) h5))
  split
  next s7 _ heq =>
  have h7 : Lasts G s s7 := .ofFst heq (.after (State.spStage_lasts ..)
    (.past (State.disableStage_keeps ..) (.past (State.stillStage_keeps ..) (.after (State.wrapAxis_lasts ..) h6) rfl) rfl))
  exact .after (State.raiseFaults_lasts ..) h7

theorem State.gearWatch_lasts (c : Nat) (s : State) : Lasts G s (State.gearWatch c s) := by
  unfold State.gearWatch
  extract_lets +onlyGivenNames _
  exact .ite (.refl _) (.raise (.past (State.onAx_keeps ..) (State.setGc_lasts ..) rfl))

theorem State.axisRow_lasts (a src : Nat) (c : AxCmd) (s : State) : Answers (Lasts G s) (State.axisRow a src c s) := by
  unfold State.axisRow
  exact .next (State.axisCommand_lasts ..)

theorem execEnable_lasts (axis src tag : Nat) (s : State) : Answers (Lasts G s) (execEnable axis src tag s) := by
  unfold execEnable
  exact State.axisRow_lasts ..

theorem execDisable_lasts (axis src tag : Nat) (s : State) : Answers (Lasts G s) (execDisable axis src tag s) := by
  unfold execDisable
  exact State.axisRow_lasts ..

theorem execMode_lasts (axis src code tag : Nat) (s : State) : Answers (Lasts G s) (execMode axis src code tag s) := by
  unfold execMode
  exact State.axisRow_lasts ..

theorem execMoveAbs_lasts (axis src prof flags : Nat) (target : Int) (vcap tag : Nat) (s : State) :
    Answers (Lasts G s) (execMoveAbs axis src prof flags target vcap tag s) := by
  unfold execMoveAbs
  exact State.axisRow_lasts ..

theorem execMoveRel_lasts (axis src prof : Nat) (dist : Int) (vcap tag : Nat) (s : State) :
    Answers (Lasts G s) (execMoveRel axis src prof dist vcap tag s) := by
  unfold execMoveRel
  exact State.axisRow_lasts ..

theorem execVelocity_lasts (axis src prof : Nat) (v : Int) (vcap tag : Nat) (s : State) :
    Answers (Lasts G s) (execVelocity axis src prof v vcap tag s) := by
  unfold execVelocity
  exact State.axisRow_lasts ..

theorem execStop_lasts (axis src tag : Nat) (s : State) : Answers (Lasts G s) (execStop axis src tag s) := by
  unfold execStop
  exact State.axisRow_lasts ..

theorem execResume_lasts (axis src tag : Nat) (s : State) : Answers (Lasts G s) (execResume axis src tag s) := by
  unfold execResume
  exact State.axisRow_lasts ..

theorem execQuickStop_lasts (axis src tag : Nat) (s : State) : Answers (Lasts G s) (execQuickStop axis src tag s) := by
  unfold execQuickStop
  exact State.axisRow_lasts ..

theorem execTorque_lasts (axis src : Nat) (current : Int) (tag : Nat) (s : State) :
    Answers (Lasts G s) (execTorque axis src current tag s) := by
  unfold execTorque
  exact State.axisRow_lasts ..

theorem execHold_lasts (axis src tag : Nat) (s : State) : Answers (Lasts G s) (execHold axis src tag s) := by
  unfold execHold
  exact State.axisRow_lasts ..

theorem execRelease_lasts (axis src tag : Nat) (s : State) : Answers (Lasts G s) (execRelease axis src tag s) := by
  unfold execRelease
  exact State.axisRow_lasts ..

/-! ## Frames -/

theorem State.pairLaunch_lasts (f : Frame) (s : State) : Lasts G s (State.pairLaunch f s) := by
  unfold State.pairLaunch
  extract_lets +onlyGivenNames _
  exact .ite (.twin (.refl _) rfl) (.past (State.launch_keeps ..) (.twin (.keeps (State.setSource_keeps ..) rfl) rfl) rfl)

theorem State.sendPair_lasts (d : Dest) (m : Msg) (epoch : Nat) (s : State) : Lasts G s (State.sendPair d m epoch s) := by
  unfold State.sendPair
  refine .ite (.keeps (State.sendAt_keeps ..) rfl) (.ite (.refl _) ?_)
  split
  · exact .refl _
  · exact .ite (.refl _) (State.pairLaunch_lasts ..)

theorem State.pairStage_lasts (s : State) : Lasts G s (State.pairStage s) := by
  unfold State.pairStage
  extract_lets +onlyGivenNames _
  refine .foldl (fun _ _ h => .after (State.pairLaunch_lasts ..) h) ?_ _
  exact .twin (.refl s) rfl

/-! ## Cars -/

theorem State.carState_lasts (c dest : Nat) (s : State) : Lasts G s (State.carState c dest s) := by
  unfold State.carState
  extract_lets +onlyGivenNames _
  exact .ite (.refl _) (.raise (.keeps (State.onCar_keeps ..) rfl))

theorem State.disagree_lasts (c check input : Nat) (v : Int) (sev : Nat) (s : State) :
    Lasts G s (State.disagree c check input v sev s) := by
  unfold State.disagree
  exact .raise (.keeps (State.onCar_keeps ..) rfl)

theorem State.shaftFails_lasts (c a check input : Nat) (v : Int) (s : State) :
    Lasts G s (State.shaftFails c a check input v s) := by
  unfold State.shaftFails
  exact .after (State.carState_lasts ..) (.past (State.dropTrip_keeps ..)
    (.past (State.onCar_keeps ..) (.past (State.setOut_keeps ..)
    (.after (State.disagree_lasts ..) (.ite (.keeps (State.kernelCmd_keeps ..) rfl) (.refl _))) rfl) rfl) rfl)

theorem State.carMeasure_lasts (c a : Nat) (s : State) : Lasts G s (State.carMeasure c a s) := by
  unfold State.carMeasure
  extract_lets +onlyGivenNames _ _ f
  have hf : ∀ x y u, Lasts G s u → Lasts G s (f x y u) := fun _ _ _ h => .raise h
  clear_value f
  extract_lets +onlyGivenNames _ s1
  have h1 : Lasts G s s1 := by
    dsimp -zeta only [s1]
    split
    · exact .ite (.refl _) (.ite (hf _ _ _ (.refl _)) (hf _ _ _ (.keeps (State.onCar_keeps ..) rfl)))
    · exact .refl _
  clear_value s1
  extract_lets +onlyGivenNames s2
  have h2 : Lasts G s s2 := by
    dsimp -zeta only [s2]
    split
    · exact .ite (hf _ _ _ h1) h1
    · exact h1
  clear_value s2
  extract_lets +onlyGivenNames _ _ _
  exact .past (State.onCar_keeps ..) h2 rfl

theorem State.markerEdge_lasts (c a i : Nat) (s : State) : Lasts G s (State.markerEdge c a i s) := by
  unfold State.markerEdge
  extract_lets +onlyGivenNames _
  split
  · exact .refl _
  · extract_lets +onlyGivenNames _ _ _ _ _ _ s1
    have h1 : Lasts G s s1 := .keeps (State.onCar_keeps ..) rfl
    clear_value s1
    extract_lets +onlyGivenNames f
    have hf : ∀ u, Lasts G s u → Lasts G s (f u) := fun _ h => .past (State.onCar_keeps ..) h rfl
    clear_value f
    refine .ite (hf _ h1) (.ite (.ite (hf _ h1) h1) ?_)
    extract_lets +onlyGivenNames s2
    have h2 : Lasts G s s2 := .past (State.onCar_keeps ..) h1 rfl
    clear_value s2
    exact .ite (.past (State.setOut_keeps ..) (.after (State.disagree_lasts ..) h2) rfl)
      (.after (State.shaftFails_lasts ..) h2)

theorem State.motionCheck_lasts (c a : Nat) (s : State) : Lasts G s (State.motionCheck c a s) := by
  unfold State.motionCheck
  extract_lets +onlyGivenNames _ _
  exact .ite (.refl _) (.ite (.past (State.setOut_keeps ..)
    (.after (State.disagree_lasts ..) (.keeps (State.onCar_keeps ..) rfl)) rfl)
    (.after (State.shaftFails_lasts ..) (.keeps (State.onCar_keeps ..) rfl)))

theorem State.inputChecks_lasts (c : Nat) (s : State) : Lasts G s (State.inputChecks c s) := by
  unfold State.inputChecks
  extract_lets +onlyGivenNames a1 _ _ _ _ _ _ s1
  have h1 : Lasts G s s1 := by
    refine .foldl (fun _ _ h => ?_) (.refl _) _
    extract_lets +onlyGivenNames _ _
    refine .ite (.past (State.onCar_keeps ..) h rfl) ?_
    extract_lets +onlyGivenNames _ s2
    have h2 : Lasts G s s2 := .past (State.onCar_keeps ..) h rfl
    clear_value s2
    exact .ite (.past (State.setOut_keeps ..) (.after (State.disagree_lasts ..) (.past (State.onCar_keeps ..) h2 rfl)) rfl)
      h2
  clear_value s1
  clear_value a1
  split
  · exact .past (State.onCar_keeps ..) h1 rfl
  · exact h1

theorem State.carLoad_lasts (c a : Nat) (s : State) : Lasts G s (State.carLoad c a s) := by
  unfold State.carLoad
  extract_lets +onlyGivenNames _ s1
  have h1 : Lasts G s s1 := .ite (.keeps (State.latchLoad_keeps ..) rfl) (.refl _)
  clear_value s1
  extract_lets +onlyGivenNames s2
  have h2 : Lasts G s s2 := .past (State.onCar_keeps ..) h1 rfl
  clear_value s2
  refine .ite h2 ?_
  extract_lets +onlyGivenNames _ _ _ _ s3
  have h3 : Lasts G s s3 := .past (State.onCar_keeps ..) h2 rfl
  clear_value s3
  exact .ite (.raise h3) h3

theorem State.carDepart_lasts (c a l : Nat) (s : State) : Lasts G s (State.carDepart c a l s) := by
  unfold State.carDepart
  extract_lets +onlyGivenNames s1
  have h1 : Lasts G s s1 := .ite (.keeps (State.latchLoad_keeps ..) rfl) (.refl _)
  clear_value s1
  extract_lets +onlyGivenNames s2
  have h2 : Lasts G s s2 := .ite (.past (State.enterTrip_keeps ..) h1 rfl) h1
  clear_value s2
  extract_lets +onlyGivenNames _
  exact .after (State.carState_lasts ..) (.past (State.onCar_keeps ..) (.past (State.issueStop_keeps ..) h2 rfl) rfl)

theorem State.carWants_lasts (c a l : Nat) (s : State) : Lasts G s (State.carWants c a l s) := by
  unfold State.carWants
  extract_lets +onlyGivenNames _
  refine .ite ?_ ?_
  · extract_lets +onlyGivenNames s1
    have h1 : Lasts G s s1 := .foldl (fun _ _ h => .ite (.past (State.onDoor_keeps ..) h rfl) h) (.refl _) _
    clear_value s1
    exact .ite (.past (State.dropTrip_keeps ..) (.past (State.onCar_keeps ..) h1 rfl) rfl) h1
  · split
    next s2 _ heq =>
    have h2 : Lasts G s s2 := .ofFst heq (.keeps (State.readyAxis_keeps ..) rfl)
    refine .ite (.past (State.onCar_keeps ..) h2 rfl) ?_
    split
    · exact .after (State.carDepart_lasts ..) h2
    · extract_lets +onlyGivenNames _
      refine .ite h2 (.ite ?_ (.after (State.carDepart_lasts ..) h2))
      split
      · exact h2
      · extract_lets +onlyGivenNames _
        exact .past (State.enterTrip_keeps ..) (.past (State.onCar_keeps ..) h2 rfl) rfl

theorem State.levelEv_lasts (c l attempt : Nat) (v : Int) (s : State) : Lasts G s (State.levelEv c l attempt v s) := by
  unfold State.levelEv
  exact .raise (.refl _)

theorem State.issueRelevel_lasts (c a l : Nat) (s : State) : Lasts G s (State.issueRelevel c a l s) := by
  unfold State.issueRelevel
  exact .past (State.kernelCmd_keeps ..) (.after (State.levelEv_lasts ..) (.keeps (State.onCar_keeps ..) rfl)) rfl

theorem State.carArrive_lasts (c l : Nat) (s : State) : Lasts G s (State.carArrive c l s) := by
  unfold State.carArrive
  exact .past (State.askDoors_keeps ..) (.after (State.carState_lasts ..)
    (.past (State.onCar_keeps ..) (.keeps (State.latchRest_keeps ..) rfl) rfl)) rfl

theorem State.carRests_lasts (c : Nat) (s : State) : Lasts G s (State.carRests c s) := by
  unfold State.carRests
  extract_lets +onlyGivenNames s1
  have h1 : Lasts G s s1 := .past (State.dropTrip_keeps ..) (.keeps (State.onCar_keeps ..) rfl) rfl
  clear_value s1
  split
  · exact .ite (.after (State.carState_lasts ..)
      (.past (State.onCar_keeps ..) (.past (State.latchRest_keeps ..) h1 rfl) rfl)) (.after (State.carState_lasts ..) h1)
  · exact .after (State.carState_lasts ..) h1

theorem State.stopEnds_lasts (c a l : Nat) (s : State) : Lasts G s (State.stopEnds c a l s) := by
  unfold State.stopEnds
  extract_lets +onlyGivenNames _ _
  refine .ite (.ite (.after (State.carArrive_lasts ..) (.keeps (State.onCar_keeps ..) rfl))
    (.after (State.carState_lasts ..) (.after (State.issueRelevel_lasts ..)
    (.past (State.onCar_keeps ..) (.keeps (State.onCar_keeps ..) rfl) rfl)))) ?_
  extract_lets +onlyGivenNames s1
  have h1 : Lasts G s s1 := .raise (.keeps (State.onCar_keeps ..) rfl)
  clear_value s1
  exact .ite (.past (State.issueStop_keeps ..) h1 rfl)
    (.after (State.carState_lasts ..) (.past (State.setOut_keeps ..)
    (.past (State.dropTrip_keeps ..) (.past (State.onCar_keeps ..) h1 rfl) rfl) rfl))

theorem State.carRunning_lasts (c a : Nat) (s : State) : Lasts G s (State.carRunning c a s) := by
  unfold State.carRunning
  extract_lets +onlyGivenNames _ _ _ _
  refine .ite (.past (State.issueStop_keeps ..)
    (.past (State.enterTrip_keeps ..) (.keeps (State.dropTrip_keeps ..) rfl) rfl) rfl)
    (.ite (.refl _) (.ite (State.stopEnds_lasts ..) ?_))
  extract_lets +onlyGivenNames _ _
  exact .ite (.past (State.onCar_keeps ..) (.keeps (State.issueStop_keeps ..) rfl) rfl) (.refl _)

theorem State.carRelevelling_lasts (c a : Nat) (s : State) : Lasts G s (State.carRelevelling c a s) := by
  unfold State.carRelevelling
  extract_lets +onlyGivenNames _ _
  refine .ite (.refl _) ?_
  extract_lets +onlyGivenNames _
  exact .ite (State.carArrive_lasts ..) (.ite
    (.after (State.carRests_lasts ..) (.past (State.setOut_keeps ..) (.keeps (State.onCar_keeps ..) rfl) rfl))
    (.ite (.after (State.issueRelevel_lasts ..) (.keeps (State.onCar_keeps ..) rfl))
    (.past (State.onCar_keeps ..) (.keeps (State.onCar_keeps ..) rfl) rfl)))

theorem State.startCorrection_lasts (c a : Nat) (s : State) : Lasts G s (State.startCorrection c a s) := by
  unfold State.startCorrection
  extract_lets +onlyGivenNames _ _
  refine .ite (.refl _) ?_
  split
  next s1 _ heq =>
  have h1 : Lasts G s s1 := .ofFst heq (.keeps (State.readyAxis_keeps ..) rfl)
  refine .ite h1 ?_
  extract_lets +onlyGivenNames _
  exact .after (State.carState_lasts ..) (.past (State.issueStop_keeps ..) (.past (State.onCar_keeps ..) h1 rfl) rfl)

theorem State.carCorrecting_lasts (c a : Nat) (s : State) : Lasts G s (State.carCorrecting c a s) := by
  unfold State.carCorrecting
  extract_lets +onlyGivenNames _
  exact .ite (.refl _) (.after (State.carState_lasts ..)
    (.past (State.onCar_keeps ..) (.past (State.latchRest_keeps ..)
    (.ite (.raise (.refl _)) (.past (State.onCar_keeps ..) (.raise (.refl _)) rfl)) rfl) rfl))

theorem State.carAtRest_lasts (c a : Nat) (s : State) : Lasts G s (State.carAtRest c a s) := by
  unfold State.carAtRest
  extract_lets +onlyGivenNames _ _
  split
  · exact .ite (.past (State.askDoors_keeps ..) (.keeps (State.onCar_keeps ..) rfl) rfl)
      (.ite (State.carWants_lasts ..) (.ite (.refl _) (State.startCorrection_lasts ..)))
  · exact .ite (.refl _) (State.startCorrection_lasts ..)

theorem State.carFaults_lasts (c a : Nat) (s : State) : Lasts G s (State.carFaults c a s) := by
  unfold State.carFaults
  extract_lets +onlyGivenNames _ s1
  have h1 : Lasts G s s1 := .ite (.raise (.past (State.onCar_keeps ..) (.keeps (State.setOut_keeps ..) rfl) rfl)) (.refl _)
  clear_value s1
  extract_lets +onlyGivenNames s2
  have h2 : Lasts G s s2 := .past (State.onCar_keeps ..) h1 rfl
  clear_value s2
  refine .ite h2 ?_
  extract_lets +onlyGivenNames s3
  have h3 : Lasts G s s3 := .ite (.after (State.carRests_lasts ..) h2) h2
  clear_value s3
  extract_lets +onlyGivenNames _ _
  exact .ite (.past (State.askDoors_keeps ..) (.past (State.onCar_keeps ..) h3 rfl) rfl) h3

theorem State.carKernel_lasts (c : Nat) (s : State) : Lasts G s (State.carKernel c s) := by
  unfold State.carKernel
  split
  · exact .refl _
  · extract_lets +onlyGivenNames s1
    have h1 : Lasts G s s1 := State.carMeasure_lasts ..
    clear_value s1
    extract_lets +onlyGivenNames s2
    have h2 : Lasts G s s2 := .foldl (fun _ _ h => .ite (.after (State.markerEdge_lasts ..) h) h) h1 _
    clear_value s2
    extract_lets +onlyGivenNames s3
    have h3 : Lasts G s s3 := .past (State.carZone_keeps ..)
      (.after (State.inputChecks_lasts ..) (.after (State.motionCheck_lasts ..) h2)) rfl
    clear_value s3
    extract_lets +onlyGivenNames s4
    have h4 : Lasts G s s4 := .after (State.carLoad_lasts ..) h3
    clear_value s4
    extract_lets +onlyGivenNames s5
    have h5 : Lasts G s s5 := .ite (.past (State.setOut_keeps ..) h4 rfl) h4
    clear_value s5
    extract_lets +onlyGivenNames s6
    have h6 : Lasts G s s6 := .ite (.past (State.onCar_keeps ..) (.past (State.setOut_keeps ..) h5 rfl) rfl) h5
    clear_value s6
    extract_lets +onlyGivenNames s7
    have h7 : Lasts G s s7 := .ite h6 (.after (State.carState_lasts ..)
      (.past (State.dropTrip_keeps ..) (.past (State.onCar_keeps ..) h6 rfl) rfl))
    clear_value s7
    extract_lets +onlyGivenNames s8
    have h8 : Lasts G s s8 := .after (State.carFaults_lasts ..) h7
    clear_value s8
    extract_lets +onlyGivenNames _ s9
    have h9 : Lasts G s s9 := .ite (.after (State.carRests_lasts ..) h8) h8
    clear_value s9
    extract_lets +onlyGivenNames s10
    have h10 : Lasts G s s10 := .past (State.levelWatch_keeps ..) h9 rfl
    clear_value s10
    refine .ite h10 (.ite h10 ?_)
    split
    · exact .after (State.carAtRest_lasts ..) h10
    · exact .ite (.after (State.carState_lasts ..)
        (.past (State.dropTrip_keeps ..) (.past (State.onCar_keeps ..) h10 rfl) rfl))
        (.after (State.carRunning_lasts ..) h10)
    · exact .after (State.carRelevelling_lasts ..) h10
    · exact .after (State.carCorrecting_lasts ..) h10
    · exact .after (State.carAtRest_lasts ..) h10
    · exact .ite (.after (State.startCorrection_lasts ..) h10) h10

theorem execDoorZoneDiscrepancy_lasts (t car : Nat) (s : State) : Answers (Lasts G s) (execDoorZoneDiscrepancy t car s) := by
  unfold execDoorZoneDiscrepancy
  refine .ite (.next .tick) ?_
  extract_lets +onlyGivenNames _
  split
  · exact .ite (.next (.raise (.past (State.onCar_keeps ..) .tick rfl))) (.next .tick)
  · exact .next .tick

theorem execRelevel_lasts (t car : Nat) (s : State) : Answers (Lasts G s) (execRelevel t car s) := by
  unfold execRelevel
  refine .ite (.next .tick) ?_
  extract_lets +onlyGivenNames _
  split
  · refine .ite ?_ (.next .tick)
    split
    next s1 _ heq =>
    have h1 : Lasts G s s1 := .ofFst heq (.past (State.readyAxis_keeps ..) .tick rfl)
    exact .ite (.next (.after (State.carState_lasts ..)
      (.after (State.issueRelevel_lasts ..) (.past (State.onCar_keeps ..) h1 rfl))))
      (.next (.past (State.onCar_keeps ..) h1 rfl))
  · exact .next .tick

theorem execPairedDeparture_lasts (t car : Nat) (s : State) : Answers (Lasts G s) (execPairedDeparture t car s) := by
  unfold execPairedDeparture
  extract_lets +onlyGivenNames s1
  have h1 : Lasts G s s1 := .tick
  clear_value s1
  extract_lets +onlyGivenNames _
  split
  · refine .ite ?_ (.next h1)
    extract_lets +onlyGivenNames s2
    have h2 : Lasts G s s2 := by
      dsimp -zeta only [s2]
      split
      · exact .past (State.onBus_keeps ..) h1 rfl
      · exact h1
    clear_value s2
    exact .next (.after (State.carDepart_lasts ..) h2)
  · exact .next h1

end

end Sys2Proof.Machine

namespace Sys2Proof.Machine

/-! # What lasts through groups, the fabric, power and calls (chapters 7, 9, 11, 12 and 14) -/

section
variable {G : Prop}

/-! ## The journal of amendments -/

theorem State.eraseSectors_lasts (first n : Nat) (s : State) : Lasts G s (State.eraseSectors first n s) := by
  unfold State.eraseSectors
  refine .foldl (fun _ _ h => ?_) (.refl _) _
  extract_lets +onlyGivenNames _ s1
  have h1 : Lasts G s s1 := .stw h rfl
  clear_value s1
  extract_lets +onlyGivenNames _
  exact .ite (.raise h1) h1

theorem State.journalAppend_lasts (type learn signer objSeq : Nat) (cells : List Cell) (s : State) :
    Lasts1 G s (State.journalAppend type learn signer objSeq cells s) := by
  unfold State.journalAppend
  extract_lets +onlyGivenNames _
  refine Lasts1.ite (Lasts1.mk (.refl _)) (Lasts1.ite (Lasts1.mk (.refl _)) ?_)
  extract_lets +onlyGivenNames _
  refine Lasts1.ite (Lasts1.mk (.stw (.refl _) rfl)) ?_
  extract_lets +onlyGivenNames _
  exact Lasts1.mk (.stw (.refl _) rfl)

theorem State.journalCompact_lasts (s : State) : Lasts G s (State.journalCompact s) := by
  unfold State.journalCompact
  extract_lets +onlyGivenNames s1
  have h1 : Lasts G s s1 := State.eraseSectors_lasts ..
  clear_value s1
  extract_lets +onlyGivenNames _ _ _ _ _ _ _
  exact .ite (.stw h1 rfl) (.stw h1 rfl)

theorem execJournalCompactionDone_lasts (t : Nat) (s : State) : Answers (Lasts G s) (execJournalCompactionDone t s) := by
  unfold execJournalCompactionDone
  exact .ite (.next (.after (State.journalCompact_lasts ..) .tick)) (.next .tick)

/-! ## Path groups -/

theorem State.rejectPath_lasts (g : Nat) (o : PathOffer) (reason : Nat) (s : State) :
    Lasts G s (State.rejectPath g o reason s) := by
  unfold State.rejectPath
  exact .past (State.reply_keeps ..) (.raise (.refl _)) rfl

theorem State.acceptPath_lasts (g : Nat) (o : PathOffer) (s : State) : Lasts G s (State.acceptPath g o s) := by
  unfold State.acceptPath
  exact .past (State.reply_keeps ..) (State.forward_lasts ..) rfl

theorem State.queueSeg_lasts (g : Nat) (q : Seg) (s : State) : Lasts G s (State.queueSeg g q s) := by
  unfold State.queueSeg
  split
  · extract_lets +onlyGivenNames _ s1
    have h1 : Lasts G s s1 := .keeps (State.onPg_keeps ..) rfl
    clear_value s1
    exact .ite (.raise h1) h1

theorem State.takeSeg_lasts (g : Nat) (o : PathOffer) (s : State) : Lasts G s (State.takeSeg g o s) := by
  unfold State.takeSeg
  extract_lets +onlyGivenNames _
  refine .ite (State.rejectPath_lasts ..) (.ite (State.rejectPath_lasts ..) ?_)
  extract_lets +onlyGivenNames _ _ _
  exact .ite (State.rejectPath_lasts ..) (.after (State.acceptPath_lasts ..)
    (.past (State.onPg_keeps ..) (State.queueSeg_lasts ..) rfl))

theorem State.takeStart_lasts (g : Nat) (o : PathOffer) (s : State) : Lasts G s (State.takeStart g o s) := by
  unfold State.takeStart
  extract_lets +onlyGivenNames _ _
  refine .ite (State.rejectPath_lasts ..) ?_
  split
  · exact State.rejectPath_lasts ..
  · extract_lets +onlyGivenNames _
    refine .ite (State.rejectPath_lasts ..) (.ite (State.rejectPath_lasts ..) ?_)
    extract_lets +onlyGivenNames _ _
    split
    · exact .after (State.rejectPath_lasts ..) (State.refuse_lasts ..)
    · extract_lets +onlyGivenNames s1
      have h1 : Lasts G s s1 := by
        refine .foldl (fun _ _ h => ?_) (.refl _) _
        split
        · extract_lets +onlyGivenNames a8 s2
          have h2 : Lasts G s s2 := by
            dsimp -zeta only [s2]
            clear_value a8
            split
            · exact .after (State.setGc_lasts ..) h
            · exact h
          clear_value s2
          exact .raise (.past (State.onAx_keeps ..) h2 rfl)
        · exact h
      clear_value s1
      exact .after (State.acceptPath_lasts ..) (.past (State.onPg_keeps ..) h1 rfl)

theorem State.takePathStop_lasts (g : Nat) (o : PathOffer) (s : State) : Lasts G s (State.takePathStop g o s) := by
  unfold State.takePathStop
  exact .ite (.after (State.acceptPath_lasts ..) (.keeps (State.groupStop_keeps ..) rfl)) (State.rejectPath_lasts ..)

theorem State.takePathResume_lasts (g : Nat) (o : PathOffer) (s : State) : Lasts G s (State.takePathResume g o s) := by
  unfold State.takePathResume
  exact .ite (State.rejectPath_lasts ..) (.after (State.acceptPath_lasts ..) (.keeps (State.onPg_keeps ..) rfl))

theorem State.takeClear_lasts (g : Nat) (o : PathOffer) (s : State) : Lasts G s (State.takeClear g o s) := by
  unfold State.takeClear
  exact .ite (State.rejectPath_lasts ..) (.after (State.acceptPath_lasts ..)
    (.past (State.onPg_keeps ..) (.foldl (fun _ _ h => .ite (.after (State.enterHeldMode_lasts ..) h) h) (.refl _) _) rfl))

theorem State.takePath_lasts (g : Nat) (o : PathOffer) (s : State) : Lasts G s (State.takePath g o s) := by
  unfold State.takePath
  refine .ite (State.rejectPath_lasts ..) ?_
  split
  · exact State.takeStart_lasts ..
  · exact State.takeSeg_lasts ..
  · exact State.takeSeg_lasts ..
  · exact State.takePathStop_lasts ..
  · exact State.takePathResume_lasts ..
  · exact State.takeClear_lasts ..
  · exact State.rejectPath_lasts ..

theorem State.decidePath_lasts (g : Nat) (o : PathOffer) (s : State) : Lasts G s (State.decidePath g o s) := by
  unfold State.decidePath
  extract_lets +onlyGivenNames _
  exact .ite (State.rejectPath_lasts ..) (State.takePath_lasts ..)

theorem State.decideGroup_lasts (g : Nat) (s : State) : Lasts G s (State.decideGroup g s) := by
  unfold State.decideGroup
  exact .foldl (fun _ _ h => .after (State.rejectPath_lasts ..) h)
    (.foldl (fun _ _ h => .after (State.decidePath_lasts ..) h) (.keeps (State.onPgBook_keeps ..) rfl) _) _

theorem State.offerPath_lasts (g : Nat) (o : Origin) (c : PathCmd) (s : State) : Lasts G s (State.offerPath g o c s) := by
  unfold State.offerPath
  exact .ite (.refl _) (.ite (State.decidePath_lasts ..) (.keeps (State.keepPath_keeps ..) rfl))

theorem State.groupCommand_lasts (g : Nat) (o : Origin) (c : PathCmd) (s : State) : Lasts G s (State.groupCommand g o c s) := by
  unfold State.groupCommand
  exact .ite (.refl _) (.ite (State.decidePath_lasts ..)
    (.ite (.keeps (State.keepPath_keeps ..) rfl)
    (.past (State.show_keeps ..) (.past (State.keepPath_keeps ..) (.keeps (State.unshow_keeps ..) rfl) rfl) rfl)))

theorem State.groupKernel_lasts (g : Nat) (s : State) : Lasts G s (State.groupKernel g s) := by
  unfold State.groupKernel
  extract_lets +onlyGivenNames s1
  have h1 : Lasts G s s1 := State.decideGroup_lasts ..
  clear_value s1
  extract_lets +onlyGivenNames _
  exact .ite (.past (State.onPg_keeps ..) h1 rfl) h1

theorem State.pathBreak_lasts (a cause : Nat) (s : State) : Lasts G s (State.pathBreak a cause s) := by
  unfold State.pathBreak
  split
  · exact .refl _
  · extract_lets +onlyGivenNames _
    exact .ite (.refl _) (.foldl (fun _ _ h => .ite (.past (State.onAx_keeps ..) h rfl) h)
      (.raise (.keeps (State.onPg_keeps ..) rfl)) _)

theorem State.groupRow_lasts (g src : Nat) (c : PathCmd) (s : State) : Answers (Lasts G s) (State.groupRow g src c s) := by
  unfold State.groupRow
  exact .next (State.groupCommand_lasts ..)

theorem execStart_lasts (group src tag : Nat) (s : State) : Answers (Lasts G s) (execStart group src tag s) := by
  unfold execStart
  exact State.groupRow_lasts ..

theorem execLine_lasts (group src : Nat) (seg : PathCmd) (s : State) : Answers (Lasts G s) (execLine group src seg s) := by
  unfold execLine
  exact State.groupRow_lasts ..

theorem execArc_lasts (group src : Nat) (seg : PathCmd) (s : State) : Answers (Lasts G s) (execArc group src seg s) := by
  unfold execArc
  exact State.groupRow_lasts ..

theorem execPathStop_lasts (group src tag : Nat) (s : State) : Answers (Lasts G s) (execPathStop group src tag s) := by
  unfold execPathStop
  exact State.groupRow_lasts ..

theorem execPathResume_lasts (group src tag : Nat) (s : State) : Answers (Lasts G s) (execPathResume group src tag s) := by
  unfold execPathResume
  exact State.groupRow_lasts ..

theorem execClear_lasts (group src tag : Nat) (s : State) : Answers (Lasts G s) (execClear group src tag s) := by
  unfold execClear
  exact State.groupRow_lasts ..

/-! ## The fabric -/

theorem State.portSettle_lasts (p : Nat) (s : State) : Lasts G s (State.portSettle p s) := by
  unfold State.portSettle
  extract_lets +onlyGivenNames _ _
  exact .ite (.refl _) (.raise (.ite (.past (State.dropQueue_keeps ..)
    (.past (Keeps.fab ..) (.keeps (State.onPort_keeps ..) rfl) rfl) rfl)
    (.past (Keeps.fab ..) (.keeps (State.onPort_keeps ..) rfl) rfl)))

theorem State.losePeers_lasts (p : Nat) (which : Peer → Bool) (s : State) : Lasts G s (State.losePeers p which s) := by
  unfold State.losePeers
  exact .after (State.portSettle_lasts ..)
    (.past (State.dropQueue_keeps ..) (.past (State.onPort_keeps ..)
    (.foldl (fun _ _ h => .past (State.subOut_keeps ..) h rfl) (.refl _) _) rfl) rfl)

theorem State.makeOper_lasts (p unit : Nat) (s : State) : Lasts G s (State.makeOper p unit s) := by
  unfold State.makeOper
  split
  · exact .refl _
  · refine .ite (.refl _) ?_
    extract_lets +onlyGivenNames _
    exact .after (State.portSettle_lasts ..) (.past (State.addOut_keeps ..) (.keeps (State.onPeer_keeps ..) rfl) rfl)

theorem execPortLinkChange_lasts (t port : Nat) (up : Bool) (s : State) :
    Answers (Lasts G s) (execPortLinkChange t port up s) := by
  unfold execPortLinkChange
  exact .ite (.next .tick) (.next (.past (State.hello_keeps ..)
    (.after (State.portSettle_lasts ..) (.past (State.onPort_keeps ..) (.after (State.losePeers_lasts ..) .tick) rfl)) rfl))

theorem State.reconcile_lasts (p unit c a : Nat) (s : State) : Lasts G s (State.reconcile p unit c a s) := by
  unfold State.reconcile
  split
  · exact .refl _
  · extract_lets +onlyGivenNames _
    exact .ite (.refl _) (.raise (.past (State.onPort_keeps ..) (.keeps (State.onPeer_keeps ..) rfl) rfl))

theorem State.idConflict_lasts (p boot : Nat) (s : State) : Lasts G s (State.idConflict p boot s) := by
  unfold State.idConflict
  exact .raise (.keeps (Keeps.fab ..) rfl)

theorem State.takeHello_lasts (p unit boot : Nat) (a : List Nat) (s : State) : Lasts G s (State.takeHello p unit boot a s) := by
  unfold State.takeHello
  refine .ite (State.idConflict_lasts ..) ?_
  split
  · exact .refl _
  · extract_lets +onlyGivenNames s1
    have h1 : Lasts G s s1 := .ite (State.losePeers_lasts ..) (.refl _)
    clear_value s1
    exact .after (State.makeOper_lasts ..)
      (.eachIx (fun _ _ h => .after (State.reconcile_lasts ..) h) (.past (State.onPeer_keeps ..) h1 rfl))

theorem execLinkHello_lasts (t port unit boot keyCur keyOther : Nat) (a : List Nat) (s : State) :
    Answers (Lasts G s) (execLinkHello t port unit boot keyCur keyOther a s) := by
  unfold execLinkHello
  exact .ite (.next (.after (State.takeHello_lasts ..) .tick)) (.next .tick)

theorem execHelloSend_lasts (t port : Nat) (s : State) : Answers (Lasts G s) (execHelloSend t port s) := by
  unfold execHelloSend
  extract_lets +onlyGivenNames s1
  have h1 : Lasts G s s1 := .tick
  clear_value s1
  extract_lets +onlyGivenNames _
  exact .ite (.next (.foldl (fun _ _ h => .after (State.makeOper_lasts ..) h) (.past (State.hello_keeps ..) h1 rfl) _))
    (.next h1)

theorem execNeighbourTimeout_lasts (t port unit : Nat) (s : State) :
    Answers (Lasts G s) (execNeighbourTimeout t port unit s) := by
  unfold execNeighbourTimeout
  extract_lets +onlyGivenNames s1
  have h1 : Lasts G s s1 := .tick
  clear_value s1
  split
  · exact .ite (.next (.after (State.losePeers_lasts ..) h1)) (.next h1)
  · exact .next h1

theorem State.frameRejected_lasts (p cause : Nat) (f : Frame) (s : State) : Lasts G s (State.frameRejected p cause f s) := by
  unfold State.frameRejected
  exact .raise (.keeps (State.onPort_keeps ..) rfl)

/-! ## Power -/

theorem execPdClass_lasts (t port cls : Nat) (powered : Bool) (s : State) :
    Answers (Lasts G s) (execPdClass t port cls powered s) := by
  unfold execPdClass
  extract_lets +onlyGivenNames s1
  have h1 : Lasts G s s1 := .tick
  clear_value s1
  extract_lets +onlyGivenNames _
  refine .ite (.next h1) ?_
  extract_lets +onlyGivenNames _ s2
  have h2 : Lasts G s s2 := .past (State.onPurse_keeps ..) h1 rfl
  clear_value s2
  extract_lets +onlyGivenNames _
  exact .next (.raise h2)

theorem State.tierEv_lasts (tier : Nat) (funded : Bool) (cause : Nat) (s : State) :
    Lasts G s (State.tierEv tier funded cause s) := by
  unfold State.tierEv
  exact .raise (.keeps (State.onPurse_keeps ..) rfl)

theorem State.tiers_lasts (s : State) : Lasts G s (State.tiers s) := by
  unfold State.tiers
  extract_lets +onlyGivenNames _ _ _ _ s1
  have h1 : Lasts G s s1 := .keeps (State.onPurse_keeps ..) rfl
  clear_value s1
  extract_lets +onlyGivenNames s2
  have h2 : Lasts G s s2 := .ite (.after (State.tierEv_lasts ..) h1) h1
  clear_value s2
  exact .ite (.after (State.tierEv_lasts ..) h2) h2

theorem execGrantExceeded_lasts (t : Nat) (s : State) : Answers (Lasts G s) (execGrantExceeded t s) := by
  unfold execGrantExceeded
  exact .ite (.next (.raise (.after (State.tiers_lasts ..) (.past (State.onPurse_keeps ..) .tick rfl)))) (.next .tick)

theorem State.railEv_lasts (rail measured : Nat) (s : State) : Lasts G s (State.railEv rail measured s) := by
  unfold State.railEv
  exact .raise (.refl _)

theorem execSensorSupply_lasts (t mw5 mw12 : Nat) (s : State) : Answers (Lasts G s) (execSensorSupply t mw5 mw12 s) := by
  unfold execSensorSupply
  extract_lets +onlyGivenNames s1
  have h1 : Lasts G s s1 := .tick
  clear_value s1
  extract_lets +onlyGivenNames _ _ _ _ _ _ _ _ _ s2
  have h2 : Lasts G s s2 := .past (State.onPurse_keeps ..) h1 rfl
  clear_value s2
  extract_lets +onlyGivenNames s3
  have h3 : Lasts G s s3 := .ite (.ite (.after (State.railEv_lasts ..) h2) h2) (.ite (.after (State.railEv_lasts ..) h2) h2)
  clear_value s3
  extract_lets +onlyGivenNames f
  have hf : ∀ x u, Lasts G s u → Lasts G s (f x u) := fun _ _ h => .ite (.after (State.railEv_lasts ..) h) h
  clear_value f
  exact .next (hf _ _ (hf _ _ h3))

theorem execRailLow_lasts (t rail : Nat) (s : State) : Answers (Lasts G s) (execRailLow t rail s) := by
  unfold execRailLow
  exact .ite (.next .tick) (.next (.after (State.railEv_lasts ..) (.past (State.onPurse_keeps ..) .tick rfl)))

theorem State.holdUp_lasts (s : State) : Lasts G s (State.holdUp s) := by
  unfold State.holdUp
  extract_lets +onlyGivenNames _ _ _ s1
  have h1 : Lasts G s s1 := .keeps (State.onPurse_keeps ..) rfl
  clear_value s1
  exact .ite (.raise h1) h1

theorem execBusEnergy_lasts (t bus : Nat) (s : State) : Answers (Lasts G s) (execBusEnergy t bus s) := by
  unfold execBusEnergy
  extract_lets +onlyGivenNames s1
  have h1 : Lasts G s s1 := .tick
  clear_value s1
  extract_lets +onlyGivenNames _ _ f
  have hf : ∀ x u, Lasts G s u → Lasts G s (f x u) := fun _ _ h => .raise h
  clear_value f
  exact .ite (.next h1) (.ite (.next (hf _ _ (.past (State.onBus_keeps ..) h1 rfl)))
    (.ite (.next (.foldl (fun _ _ h => .after (State.orderSs1_lasts ..) h)
    (hf _ _ (.past (State.onBus_keeps ..) h1 rfl)) _))
    (.ite (.next (hf _ _ (.past (State.onBus_keeps ..) h1 rfl))) (.next h1))))

theorem State.sprintEnd_lasts (cause : Nat) (s : State) : Lasts G s (State.sprintEnd cause s) := by
  unfold State.sprintEnd
  extract_lets +onlyGivenNames _ s1 _ s2
  have h1 : Lasts G s s1 := .keeps (State.onPurse_keeps ..) rfl
  clear_value s1
  have h2 : Lasts G s s2 := .past (Keeps.clk ..) h1 rfl
  clear_value s2
  exact .raise (.past (State.onPurse_keeps ..) h2 rfl)

theorem State.sprintBoundary_lasts (s : State) : Lasts G s (State.sprintBoundary s) := by
  unfold State.sprintBoundary
  extract_lets +onlyGivenNames s1
  have h1 : Lasts G s s1 := .keeps (State.onPurse_keeps ..) rfl
  clear_value s1
  refine .ite ?_ (.past (Keeps.clk ..) h1 rfl)
  split
  · exact .after (State.sprintEnd_lasts ..) h1
  · exact .ite (.past (State.sprintCharge_keeps ..) h1 rfl) (.after (State.sprintEnd_lasts ..) h1)

theorem State.sprintGrant_lasts (s : State) : Lasts G s (State.sprintGrant s) := by
  unfold State.sprintGrant
  extract_lets +onlyGivenNames _
  refine .ite (.refl _) ?_
  extract_lets +onlyGivenNames _ s1 _ s2
  have h1 : Lasts G s s1 := .keeps (State.onPurse_keeps ..) rfl
  clear_value s1
  have h2 : Lasts G s s2 := .past (Keeps.clk ..) h1 rfl
  clear_value s2
  exact .past (State.sprintCharge_keeps ..) (.raise (.past (State.onPurse_keeps ..) h2 rfl)) rfl

theorem State.thermalEv_lasts (level cause die : Nat) (s : State) : Lasts G s (State.thermalEv level cause die s) := by
  unfold State.thermalEv
  exact .raise (.refl _)

theorem State.thermal_lasts (s : State) : Lasts G s (State.thermal s) := by
  unfold State.thermal
  extract_lets +onlyGivenNames _ _ _ _ s1
  have h1 : Lasts G s s1 := .keeps (State.onPurse_keeps ..) rfl
  clear_value s1
  exact .ite (.after (State.tiers_lasts ..) (.after (State.thermalEv_lasts ..) h1)) h1

theorem execThermalSample_lasts (t : Nat) (temps : List (Int × Int)) (s : State) :
    Answers (Lasts G s) (execThermalSample t temps s) := by
  unfold execThermalSample
  extract_lets +onlyGivenNames s1
  have h1 : Lasts G s s1 := .tick
  clear_value s1
  extract_lets +onlyGivenNames _ s2
  have h2 : Lasts G s s2 := .past (State.onPurse_keeps ..) h1 rfl
  clear_value s2
  extract_lets +onlyGivenNames s3
  have h3 : Lasts G s s3 := .after (State.thermal_lasts ..) h2
  clear_value s3
  extract_lets +onlyGivenNames a8
  split
  next _ s4 heq =>
  have h4 : Lasts G s s4 := by
    refine .ofSnd heq ?_
    clear_value a8
    split
    · exact Lasts2.mk h3
    · split
      next _ s5 heq =>
      have h5 : Lasts G s s5 := .ofSnd heq (.past (State.free_keeps ..) h3 rfl)
      exact Lasts2.mk h5
  exact .next (.past (State.onPurse_keeps ..) (.past (State.onPurse_keeps ..) h4 rfl) rfl)

theorem execThermalCool_lasts (t : Nat) (s : State) : Answers (Lasts G s) (execThermalCool t s) := by
  unfold execThermalCool
  extract_lets +onlyGivenNames s1
  have h1 : Lasts G s s1 := .tick
  clear_value s1
  extract_lets +onlyGivenNames _ _ _
  exact .ite (.next h1) (.next (.after (State.thermalEv_lasts ..) (.past (State.onPurse_keeps ..) h1 rfl)))

theorem execSensorDisagreement_lasts (t die : Nat) (s : State) : Answers (Lasts G s) (execSensorDisagreement t die s) := by
  unfold execSensorDisagreement
  extract_lets +onlyGivenNames s1
  have h1 : Lasts G s s1 := .tick
  clear_value s1
  split
  · exact .ite (.next (.after (State.thermalEv_lasts ..)
      (.after (State.thermal_lasts ..) (.past (State.onPurse_keeps ..) h1 rfl)))) (.next h1)
  · exact .next h1

theorem execPowerLoss_lasts (t : Nat) (s : State) : Answers (Lasts G s) (execPowerLoss t s) := by
  unfold execPowerLoss
  exact .ite (.next .tick) (.next (.after (State.powerFlushBegin_lasts ..)
    (.past (State.haltCause_keeps ..) (.eachIx (fun _ _ h => .ite (.after (State.orderSto_lasts ..) h) h)
    (.raise (.after (State.tiers_lasts ..) (.past (State.onPurse_keeps ..) .tick rfl)))) rfl)))

theorem execPowerReturn_lasts (t : Nat) (s : State) : Answers (Lasts G s) (execPowerReturn t s) := by
  unfold execPowerReturn
  exact .ite (.next (.raise (.past (State.onPurse_keeps ..) .tick rfl))) (.next .tick)

theorem State.purseBoundary_lasts (io : NoticeInputs) (s : State) : Lasts G s (State.purseBoundary io s) := by
  unfold State.purseBoundary
  exact .after (State.sprintGrant_lasts ..)
    (.eachIx (fun _ _ h => .past (State.busBoundary_keeps ..) h rfl)
    (.past (State.onPurse_keeps ..) (.after (State.tiers_lasts ..)
    (.past (State.onPurse_keeps ..) (.after (State.holdUp_lasts ..)
    (.past (State.onPurse_keeps ..) (.after (State.sprintBoundary_lasts ..)
    (.keeps (State.onPurse_keeps ..) rfl)) rfl)) rfl)) rfl))

/-! ## Doors -/

theorem State.doorState_lasts (d dest : Nat) (s : State) : Lasts G s (State.doorState d dest s) := by
  unfold State.doorState
  extract_lets +onlyGivenNames _
  exact .ite (.refl _) (.raise (.keeps (State.onDoor_keeps ..) rfl))

theorem State.doorRefused_lasts (d req reason : Nat) (s : State) : Lasts G s (State.doorRefused d req reason s) := by
  unfold State.doorRefused
  exact .raise (.refl _)

theorem State.doorFault_lasts (d cause : Nat) (detail : Int) (s : State) : Lasts G s (State.doorFault d cause detail s) := by
  unfold State.doorFault
  exact .after (State.doorState_lasts ..) (.raise (.keeps (State.onDoor_keeps ..) rfl))

theorem State.doorOpen_lasts (d a dest : Nat) (s : State) : Lasts G s (State.doorOpen d a dest s) := by
  unfold State.doorOpen
  exact .after (State.doorState_lasts ..) (.past (State.doorCmds_keeps ..) (.keeps (State.onDoor_keeps ..) rfl) rfl)

theorem State.doorClose_lasts (d a : Nat) (nudge : Bool) (s : State) : Lasts G s (State.doorClose d a nudge s) := by
  unfold State.doorClose
  extract_lets +onlyGivenNames _ _ _ s1
  have h1 : Lasts G s s1 := .keeps (State.onDoor_keeps ..) rfl
  clear_value s1
  extract_lets +onlyGivenNames s2
  have h2 : Lasts G s s2 := .after (State.doorState_lasts ..) (.past (State.doorCmds_keeps ..) h1 rfl)
  clear_value s2
  exact .ite (.raise h2) h2

theorem State.obstruction_lasts (d a cause : Nat) (s : State) : Lasts G s (State.obstruction d a cause s) := by
  unfold State.obstruction
  exact .raise (.keeps (State.onDoor_keeps ..) rfl)

theorem State.doorUnknown_lasts (d a : Nat) (req : Bool) (s : State) : Lasts G s (State.doorUnknown d a req s) := by
  unfold State.doorUnknown
  extract_lets +onlyGivenNames _
  exact .ite (.ite (.refl _) (.ite (.after (State.doorClose_lasts ..) (.keeps (State.onDoor_keeps ..) rfl))
    (State.doorFault_lasts ..))) (.ite (.past (State.doorCmds_keeps ..) (.keeps (State.onDoor_keeps ..) rfl) rfl) (.refl _))

theorem State.doorClosed_lasts (d a : Nat) (open_ : Bool) (s : State) : Lasts G s (State.doorClosed d a open_ s) := by
  unfold State.doorClosed
  exact .ite (.refl _) (.ite (State.doorRefused_lasts ..) (.ite (State.doorRefused_lasts ..) (State.doorOpen_lasts ..)))

theorem State.doorOpened_lasts (d a : Nat) (close : Bool) (s : State) : Lasts G s (State.doorOpened d a close s) := by
  unfold State.doorOpened
  extract_lets +onlyGivenNames _ _
  refine .ite (.ite (State.doorClose_lasts ..) (.refl _)) (.ite (.refl _) ?_)
  extract_lets +onlyGivenNames _ s1
  have h1 : Lasts G s s1 := .ite (State.doorRefused_lasts ..) (.refl _)
  clear_value s1
  extract_lets +onlyGivenNames _ s2
  have h2 : Lasts G s s2 := .ite (.past (State.doorHold_keeps ..) h1 rfl) h1
  clear_value s2
  extract_lets +onlyGivenNames s3
  have h3 : Lasts G s s3 := .ite (.past (State.onDoor_keeps ..) h2 rfl) h2
  clear_value s3
  extract_lets +onlyGivenNames _
  refine .ite h3 ?_
  extract_lets +onlyGivenNames s4
  have h4 : Lasts G s s4 := .past (State.onDoor_keeps ..) h3 rfl
  clear_value s4
  exact .ite h4 (.ite (.after (State.doorClose_lasts ..) h4) (.ite h4 (.after (State.doorClose_lasts ..) h4)))

theorem State.doorClosing_lasts (d a : Nat) (nudge open_ : Bool) (s : State) :
    Lasts G s (State.doorClosing d a nudge open_ s) := by
  unfold State.doorClosing
  extract_lets +onlyGivenNames _ _ s1
  have h1 : Lasts G s s1 := .keeps (State.onDoor_keeps ..) rfl
  clear_value s1
  extract_lets +onlyGivenNames _ _ _ _ _ a10
  clear_value a10
  split
  · extract_lets +onlyGivenNames s2
    have h2 : Lasts G s s2 := .after (State.obstruction_lasts ..) h1
    clear_value s2
    exact .ite (.after (State.doorState_lasts ..)
      (.past (State.doorCmds_keeps ..) (.past (State.onDoor_keeps ..) h2 rfl) rfl)) (.after (State.doorOpen_lasts ..) h2)
  · refine .ite (.after (State.doorOpen_lasts ..) h1) (.ite ?_ h1)
    extract_lets +onlyGivenNames s3
    have h3 : Lasts G s s3 := .past (State.onDoor_keeps ..) h1 rfl
    clear_value s3
    exact .after (State.doorState_lasts ..) (.ite h3 (.past (State.onDoor_keeps ..) h3 rfl))

theorem State.doorStopped_lasts (d a : Nat) (open_ close : Bool) (s : State) :
    Lasts G s (State.doorStopped d a open_ close s) := by
  unfold State.doorStopped
  split
  · exact .ite (.after (State.doorState_lasts ..)
      (.past (State.doorCmds_keeps ..) (.keeps (State.onDoor_keeps ..) rfl) rfl)) (.refl _)
  · exact .ite (.refl _) (.ite (State.doorOpen_lasts ..) (.ite (State.doorClose_lasts ..) (.refl _)))

theorem State.doorKernel_lasts (d : Nat) (s : State) : Lasts G s (State.doorKernel d s) := by
  unfold State.doorKernel
  split
  · exact .refl _
  · split
    · extract_lets +onlyGivenNames _ _ _ _ _ _ s1
      have h1 : Lasts G s s1 := .keeps (State.onDoor_keeps ..) rfl
      clear_value s1
      extract_lets +onlyGivenNames s2
      have h2 : Lasts G s s2 := .past (State.doorIssue_keeps ..) h1 rfl
      clear_value s2
      refine .ite (.ite h2 (.after (State.doorFault_lasts ..) h2)) ?_
      split
      · exact .after (State.doorUnknown_lasts ..) h2
      · exact .after (State.doorClosed_lasts ..) h2
      · exact .ite (.after (State.doorState_lasts ..) (.past (State.doorHold_keeps ..) h2 rfl))
          (.ite (.after (State.doorClose_lasts ..) h2) h2)
      · exact .after (State.doorOpened_lasts ..) h2
      · exact .after (State.doorClosing_lasts ..) h2
      · exact .after (State.doorClosing_lasts ..) h2
      · exact .ite (.after (State.doorState_lasts ..) (.past (State.doorHold_keeps ..) h2 rfl)) h2
      · exact .after (State.doorStopped_lasts ..) h2
      · exact .ite (.after (State.doorState_lasts ..) (.past (State.onDoor_keeps ..) h2 rfl)) h2

theorem State.doorHalt_lasts (d : Nat) (s : State) : Lasts G s (State.doorHalt d s) := by
  unfold State.doorHalt
  exact .ite (.after (State.doorState_lasts ..) (.keeps (State.onDoor_keeps ..) rfl)) (.refl _)

/-! ## Calls and bids -/

theorem State.releaseCar_lasts (c reason : Nat) (s : State) : Lasts G s (State.releaseCar c reason s) := by
  unfold State.releaseCar
  exact .foldl (fun _ _ h => .raise (.past (State.dspAnswer_keeps ..) (.past (State.onDsp_keeps ..) h rfl) rfl))
    (.keeps (State.onSched_keeps ..) rfl) _

theorem State.releaseOrders_lasts (reason : Nat) (s : State) : Lasts G s (State.releaseOrders reason s) := by
  unfold State.releaseOrders
  extract_lets +onlyGivenNames _
  exact .foldl (fun _ _ h => .raise (.past (State.dspAnswer_keeps ..) (.past (State.onDsp_keeps ..) h rfl) rfl))
    (.keeps (State.onDsp_keeps ..) rfl) _

theorem State.reopen_lasts (x : CollCall) (s : State) : Lasts G s (State.reopen x s) := by
  unfold State.reopen
  exact .past (State.openRound_keeps ..) (.ite
    (.raise (.past (State.onDsp_keeps ..) (.keeps (State.onCall_keeps ..) rfl) rfl))
    (.keeps (State.onCall_keeps ..) rfl)) rfl

theorem State.declined_lasts (x : CollCall) (reason : Nat) (s : State) : Lasts G s (State.declined x reason s) := by
  unfold State.declined
  extract_lets +onlyGivenNames _
  exact .past (State.assignNext_keeps ..) (.raise (.refl _)) rfl

theorem State.takeBids_lasts (id merged : Nat) (l : List Bid) (s : State) : Lasts G s (State.takeBids id merged l s) := by
  unfold State.takeBids
  refine .ite (.ite (.keeps (State.bidsUp_keeps ..) rfl) (.refl _)) ?_
  extract_lets +onlyGivenNames f
  have hf : ∀ x u, Lasts G s u → Lasts G s (f x u) := fun _ _ h => .foldl
    (fun _ _ h => .raise (.past (State.onDsp_keeps ..) h rfl)) h _
  clear_value f
  split
  · exact .ite (.keeps (State.onCall_keeps ..) rfl) (hf _ _ (.refl _))
  · exact hf _ _ (.refl _)

theorem State.takeAnswer_lasts (type id unit car reason : Nat) (s : State) :
    Lasts G s (State.takeAnswer type id unit car reason s) := by
  unfold State.takeAnswer
  split
  · exact .ite (.keeps (State.forgetCall_keeps ..) rfl) (.refl _)
  · extract_lets +onlyGivenNames _
    split
    · exact .ite (.keeps (State.onCall_keeps ..) rfl) (.refl _)
    · exact .ite (State.declined_lasts ..) (.refl _)
    · exact .past (State.forgetCall_keeps ..) (.keeps (State.endCall_keeps ..) rfl) rfl
    · exact State.reopen_lasts ..
    · exact .refl _

theorem State.withdrawCar_lasts (c : Nat) (s : State) : Lasts G s (State.withdrawCar c s) := by
  unfold State.withdrawCar
  extract_lets +onlyGivenNames _
  refine .ite (.refl _) ?_
  extract_lets +onlyGivenNames s1
  have h1 : Lasts G s s1 := .keeps (State.onSched_keeps ..) rfl
  clear_value s1
  refine .ite (.ite h1 (.raise h1)) ?_
  extract_lets +onlyGivenNames s2
  have h2 : Lasts G s s2 := .after (State.releaseCar_lasts ..) (.past (State.lastStop_keeps ..) (.ite h1
(.raise h1)) rfl)
  clear_value s2
  exact .ite (.after (State.releaseOrders_lasts ..) h2) h2

theorem State.withdrawUnit_lasts (s : State) : Lasts G s (State.withdrawUnit s) := by
  unfold State.withdrawUnit
  extract_lets +onlyGivenNames _
  exact .ite (.refl _) (.ite (.after (State.releaseOrders_lasts ..)
    (.eachIx (fun _ _ h => .after (State.releaseCar_lasts ..) h)
    (.ite (.keeps (State.onDsp_keeps ..) rfl) (.raise (.keeps (State.onDsp_keeps ..) rfl)))))
    (.ite (.keeps (State.onDsp_keeps ..) rfl) (.raise (.keeps (State.onDsp_keeps ..) rfl))))

theorem State.dispatchKernel_lasts (s : State) : Lasts G s (State.dispatchKernel s) := by
  unfold State.dispatchKernel
  extract_lets +onlyGivenNames s1
  have h1 : Lasts G s s1 := .eachIx (fun _ _ h => .after (State.withdrawCar_lasts ..) h) (State.withdrawUnit_lasts ..)
  clear_value s1
  refine .ite h1 ?_
  extract_lets +onlyGivenNames s2
  have h2 : Lasts G s s2 := .past (State.buttons_keeps ..) h1 rfl
  clear_value s2
  exact .ite (.ite (.past (State.serveOrder_keeps ..) h2 rfl) h2)
    (.ite (.eachIx (fun _ _ h => .ite (.past (State.schedCar_keeps ..) h rfl) h) h2) h2)

theorem State.heldBoundary_lasts (s : State) : Lasts G s (State.heldBoundary s) := by
  unfold State.heldBoundary
  extract_lets +onlyGivenNames _
  refine .ite (.refl _) ?_
  extract_lets +onlyGivenNames s1
  have h1 : Lasts G s s1 := .keeps (State.onDsp_keeps ..) rfl
  clear_value s1
  extract_lets +onlyGivenNames _
  exact .ite h1 (.raise (.past (State.onDsp_keeps ..) h1 rfl))

theorem execDspBid_lasts (t callId merged : Nat) (bids : List Bid) (s : State) :
    Answers (Lasts G s) (execDspBid t callId merged bids s) := by
  unfold execDspBid
  exact .next (.after (State.takeBids_lasts ..) .tick)

theorem execBidRoundClose_lasts (t callId : Nat) (s : State) : Answers (Lasts G s) (execBidRoundClose t callId s) := by
  unfold execBidRoundClose
  extract_lets +onlyGivenNames s1
  have h1 : Lasts G s s1 := .tick
  clear_value s1
  split
  · exact .next h1
  · refine .ite (.next h1) ?_
    extract_lets +onlyGivenNames s2
    have h2 : Lasts G s s2 := .past (State.assignNext_keeps ..) (.past (State.onCall_keeps ..) h1 rfl) rfl
    clear_value s2
    split
    · exact .next h2
    · exact .next (.raise h2)

theorem execDspAccept_lasts (t callId unit car : Nat) (s : State) :
    Answers (Lasts G s) (execDspAccept t callId unit car s) := by
  unfold execDspAccept
  exact .next (.after (State.takeAnswer_lasts ..) .tick)

theorem execDspDecline_lasts (t callId unit car reason : Nat) (s : State) :
    Answers (Lasts G s) (execDspDecline t callId unit car reason s) := by
  unfold execDspDecline
  exact .next (.after (State.takeAnswer_lasts ..) .tick)

theorem execAcceptTimeout_lasts (t callId : Nat) (s : State) : Answers (Lasts G s) (execAcceptTimeout t callId s) := by
  unfold execAcceptTimeout
  extract_lets +onlyGivenNames s1
  have h1 : Lasts G s s1 := .tick
  clear_value s1
  split
  · exact .ite (.next (.after (State.declined_lasts ..) h1)) (.next h1)
  · exact .next h1

theorem execCallReopen_lasts (t callId : Nat) (s : State) : Answers (Lasts G s) (execCallReopen t callId s) := by
  unfold execCallReopen
  extract_lets +onlyGivenNames s1
  have h1 : Lasts G s s1 := .tick
  clear_value s1
  split
  · exact .ite (.next (.after (State.reopen_lasts ..) h1)) (.next h1)
  · exact .next h1

theorem execCollectorSwitch_lasts (t req : Nat) (s : State) : Answers (Lasts G s) (execCollectorSwitch t req s) := by
  unfold execCollectorSwitch
  extract_lets +onlyGivenNames s1
  have h1 : Lasts G s s1 := .tick
  clear_value s1
  extract_lets +onlyGivenNames _
  split
  · exact .next h1
  · exact .ite (.next h1) (.next (.raise (.past (State.send_keeps ..) (.past (State.onDsp_keeps ..) h1 rfl) rfl)))

theorem execDspDone_lasts (t callId unit car : Nat) (s : State) : Answers (Lasts G s) (execDspDone t callId unit car s) := by
  unfold execDspDone
  exact .next (.after (State.takeAnswer_lasts ..) .tick)

theorem execDspRelease_lasts (t callId unit car reason : Nat) (s : State) :
    Answers (Lasts G s) (execDspRelease t callId unit car reason s) := by
  unfold execDspRelease
  exact .next (.after (State.takeAnswer_lasts ..) .tick)

end

end Sys2Proof.Machine

namespace Sys2Proof.Machine

/-! # What lasts through surveys, site time and the twin (chapters 8, 12 and 13) -/

section
variable {G : Prop}

/-! ## Safety connections and drives -/

theorem State.conProduce_lasts (k : Nat) (s : State) : Lasts G s (State.conProduce k s) := by
  unfold State.conProduce
  exact .ite (.refl _) (.after (State.sendPair_lasts ..) (.keeps (State.onCon_keeps ..) rfl))

theorem State.conEv_lasts (k cause scount : Nat) (s : State) : Lasts G s (State.conEv k cause scount s) := by
  unfold State.conEv
  exact .raise (.refl _)

theorem State.takePdu_lasts (src boot conn scount ts flags data x : Nat) (s : State) :
    Lasts G s (State.takePdu src boot conn scount ts flags data x s) := by
  unfold State.takePdu
  split
  · exact .refl _
  · extract_lets +onlyGivenNames _
    exact .ite (.after (State.conEv_lasts ..) (.keeps (State.onCon_keeps ..) rfl))
      (.ite (.after (State.conEv_lasts ..) (.keeps (State.onCon_keeps ..) rfl)) (.keeps (State.onCon_keeps ..) rfl))

theorem execSafetyPdu_lasts (t src boot conn scount ts flags data crc : Nat) (s : State) :
    Answers (Lasts G s) (execSafetyPdu t src boot conn scount ts flags data crc s) := by
  unfold execSafetyPdu
  exact .next (.after (State.takePdu_lasts ..) .tick)

theorem execSafetyWatchdog_lasts (t con : Nat) (s : State) : Answers (Lasts G s) (execSafetyWatchdog t con s) := by
  unfold execSafetyWatchdog
  extract_lets +onlyGivenNames s1
  have h1 : Lasts G s s1 := .tick
  clear_value s1
  extract_lets +onlyGivenNames _
  exact .ite (.next (.after (State.conEv_lasts ..) (.past (State.onCon_keeps ..) h1 rfl))) (.next h1)

theorem State.xdSend_lasts (a : Nat) (s : State) : Lasts G s (State.xdSend a s) := by
  unfold State.xdSend
  extract_lets +onlyGivenNames _
  refine .ite (.refl _) ?_
  extract_lets +onlyGivenNames _ _
  exact State.sendPair_lasts ..

theorem State.xdStage_lasts (a : Nat) (s : State) : Lasts G s (State.xdStage a s) := by
  unfold State.xdStage
  refine .ite (.refl _) ?_
  extract_lets +onlyGivenNames _ _ _ _ _ _ _ _ _ _ s1
  have h1 : Lasts G s s1 := .keeps (State.onXd_keeps ..) rfl
  clear_value s1
  extract_lets +onlyGivenNames s2
  have h2 : Lasts G s s2 := .ite (.after (State.axisFault_lasts ..) (.raise h1)) h1
  clear_value s2
  exact .ite h2 (.past (Keeps.axAt ..) (.past (State.onBook_keeps ..) h2 rfl) rfl)

theorem execXdConfirmTimeout_lasts (t axis : Nat) (s : State) : Answers (Lasts G s) (execXdConfirmTimeout t axis s) := by
  unfold execXdConfirmTimeout
  extract_lets +onlyGivenNames s1
  have h1 : Lasts G s s1 := .tick
  clear_value s1
  split
  · refine .ite ?_ (.next h1)
    extract_lets +onlyGivenNames _
    exact .next (.past (State.haltCause_keeps ..) (.after (State.conEv_lasts ..) (.past (State.onXd_keeps ..) h1 rfl)) rfl)
  · exact .next h1

/-! ## Surveys -/

theorem State.surveyResult_lasts (kind target outcome reason : Nat) (v : Int) (s : State) :
    Lasts G s (State.surveyResult kind target outcome reason v s) := by
  unfold State.surveyResult
  exact .raise (.keeps (Keeps.survey ..) rfl)

theorem State.surveyAppend_lasts (s : State) : Lasts G s (State.surveyAppend s) := by
  unfold State.surveyAppend
  refine .foldl (fun _ _ h => .ite h ?_) (.refl _) _
  split
  next s1 _ heq =>
  have h1 : Lasts G s s1 := .ofFst heq (.after (State.journalAppend_lasts ..) h)
  refine .ite h1 ?_
  extract_lets +onlyGivenNames _
  exact .after (State.surveyResult_lasts ..) (.past (Keeps.survey ..) h1 rfl)

theorem State.surveyDone_lasts (r : Learn) (cells : List Cell) (s : State) : Lasts G s (State.surveyDone r cells s) := by
  unfold State.surveyDone
  extract_lets +onlyGivenNames s1
  have h1 : Lasts G s s1 := .keeps (State.dropRun_keeps ..) rfl
  clear_value s1
  extract_lets +onlyGivenNames _
  exact .after (State.surveyAppend_lasts ..) (.past (Keeps.survey ..) h1 rfl)

theorem State.surveyFail_lasts (r : Learn) (reason : Nat) (v : Int) (s : State) :
    Lasts G s (State.surveyFail r reason v s) := by
  unfold State.surveyFail
  exact .after (State.surveyResult_lasts ..) (.keeps (State.dropRun_keeps ..) rfl)

theorem State.surveyAbort_lasts (r : Learn) (s : State) : Lasts G s (State.surveyAbort r s) := by
  unfold State.surveyAbort
  extract_lets +onlyGivenNames s1
  have h1 : Lasts G s s1 := .after (State.surveyResult_lasts ..) (.keeps (State.dropRun_keeps ..) rfl)
  clear_value s1
  exact .ite (.past (State.kernelCmd_keeps ..) h1 rfl) h1

theorem State.surveyAborts_lasts (s : State) : Lasts G s (State.surveyAborts s) := by
  unfold State.surveyAborts
  extract_lets +onlyGivenNames s1
  have h1 : Lasts G s s1 := by
    refine .foldl (fun _ _ h => ?_) (.refl _) _
    extract_lets +onlyGivenNames _
    exact .ite (.after (State.surveyAbort_lasts ..) h) h
  clear_value s1
  exact .ite h1 (.past (Keeps.survey ..) h1 rfl)

theorem State.learnStart_lasts (kind target step : Nat) (s : State) : Lasts1 G s (State.learnStart kind target step s) := by
  unfold State.learnStart
  refine Lasts1.ite (Lasts1.mk (.refl _)) (Lasts1.ite (Lasts1.mk (.refl _)) ?_)
  split
  · exact Lasts1.mk (State.surveyResult_lasts ..)
  · refine Lasts1.ite (Lasts1.mk (State.surveyResult_lasts ..)) ?_
    extract_lets +onlyGivenNames _
    exact Lasts1.mk (.keeps (Keeps.survey ..) rfl)

theorem State.takeLearn_lasts (o : Origin) (kind target step : Nat) (s : State) : Lasts G s (State.takeLearn o kind target step s) := by
  unfold State.takeLearn
  split
  next s1 _ _ heq =>
  exact .past (State.reply_keeps ..) (.ofFst heq (State.learnStart_lasts ..)) rfl

theorem State.commResult_lasts (r : Learn) (s : State) : Lasts G s (State.commResult r s) := by
  unfold State.commResult
  extract_lets +onlyGivenNames _ _ _ _ _ _
  split
  · exact State.surveyFail_lasts ..
  · exact .ite (State.surveyFail_lasts ..) (State.surveyDone_lasts ..)

theorem execAlignSettle_lasts (t axis : Nat) (s : State) : Answers (Lasts G s) (execAlignSettle t axis s) := by
  unfold execAlignSettle
  refine .ite (.next .tick) ?_
  split
  · refine .ite ?_ (.next .tick)
    extract_lets +onlyGivenNames _ _
    exact .ite (.next (.past (State.onRun_keeps ..) .tick rfl)) (.next (.after (State.commResult_lasts ..) .tick))
  · exact .next .tick

theorem State.scDone_lasts (r : Learn) (s : State) : Lasts G s (State.scDone r s) := by
  unfold State.scDone
  refine .ite (State.surveyFail_lasts ..) ?_
  split
  · exact State.surveyFail_lasts ..
  · split
    · exact State.surveyFail_lasts ..
    · exact State.surveyDone_lasts ..

theorem State.scSample_lasts (ch : Nat) (si co : Int) (s : State) : Lasts G s (State.scSample ch si co s) := by
  unfold State.scSample
  split
  · exact .refl _
  · refine .ite (State.surveyAbort_lasts ..) ?_
    extract_lets +onlyGivenNames _
    split
    · exact .keeps (State.onRun_keeps ..) rfl
    · extract_lets +onlyGivenNames _ _ _ _
      exact .ite (State.scDone_lasts ..) (.ite (.keeps (State.onRun_keeps ..) rfl) (.keeps (State.onRun_keeps ..) rfl))

theorem execSincosSample_lasts (t ch : Nat) (sin cos : Int) (s : State) :
    Answers (Lasts G s) (execSincosSample t ch sin cos s) := by
  unfold execSincosSample
  refine .ite (.next .tick) (.ite (.next .tick) ?_)
  extract_lets +onlyGivenNames _ _ _
  exact .next (.after (State.scSample_lasts ..) (.after (State.sinCosTake_lasts ..) .tick))

theorem State.zonesDone_lasts (r : Learn) (s : State) : Lasts G s (State.zonesDone r s) := by
  unfold State.zonesDone
  extract_lets +onlyGivenNames _ _ _ _ _
  split
  · exact State.surveyFail_lasts ..
  · extract_lets +onlyGivenNames _
    split
    · exact State.surveyFail_lasts ..
    · extract_lets +onlyGivenNames _
      exact State.surveyDone_lasts ..

theorem State.learnZones_lasts (r : Learn) (s : State) : Lasts G s (State.learnZones r s) := by
  unfold State.learnZones
  extract_lets +onlyGivenNames _ s1
  have h1 : Lasts G s s1 := .keeps (State.onRun_keeps ..) rfl
  clear_value s1
  extract_lets +onlyGivenNames _ f
  have hf : ∀ x u, Lasts G s u → Lasts G s (f x u) := fun _ _ h => .past (State.learnCmd_keeps ..)
    (.past (State.onRun_keeps ..) h rfl) rfl
  clear_value f
  refine .ite ?_ (.ite h1 (.ite (hf _ _ h1) (.ite (hf _ _ h1) ?_)))
  · split
    next s2 _ heq =>
    have h2 : Lasts G s s2 := .ofFst heq (.past (State.learnReady_keeps ..) h1 rfl)
    exact .ite (hf _ _ h2) h2
  · split
    · exact .after (State.zonesDone_lasts ..) h1
    · exact h1

theorem State.levelDone_lasts (r : Learn) (s : State) : Lasts G s (State.levelDone r s) := by
  unfold State.levelDone
  extract_lets +onlyGivenNames _
  refine .ite ?_ ?_
  · extract_lets +onlyGivenNames _ _
    exact .after (State.surveyDone_lasts ..) (.keeps (Keeps.survey ..) rfl)
  · split
    · extract_lets +onlyGivenNames _ _ _
      split
      · exact State.surveyFail_lasts ..
      · exact State.surveyFail_lasts ..
      · exact State.surveyDone_lasts ..

theorem execLevelSettle_lasts (t axis : Nat) (s : State) : Answers (Lasts G s) (execLevelSettle t axis s) := by
  unfold execLevelSettle
  refine .ite (.next .tick) ?_
  split
  · exact .next .tick
  · split
    · exact .next .tick
    · refine .ite (.next .tick) ?_
      extract_lets +onlyGivenNames _ _
      exact .ite (.next (.past (State.onRun_keeps ..) .tick rfl)) (.next (.after (State.levelDone_lasts ..) .tick))

theorem State.learnDoor_lasts (r : Learn) (s : State) : Lasts G s (State.learnDoor r s) := by
  unfold State.learnDoor
  extract_lets -underBinder +onlyGivenNames -merge _ _ s1
  have h1 : Lasts G s s1 := .keeps (State.onRun_keeps ..) rfl
  clear_value s1
  extract_lets -underBinder +onlyGivenNames -merge f
  have hf : ∀ u, Lasts G s u → Lasts G s (f u) := by
    intro _ h
    dsimp -zeta only [f]
    extract_lets -underBinder +onlyGivenNames -merge _
    exact .past (State.learnCmd_keeps ..) (.past (State.onRun_keeps ..) h rfl) rfl
  clear_value f
  refine .ite ?_ (.ite h1 (.ite (hf _ h1) ?_))
  · split
    next s2 _ heq =>
    have h2 : Lasts G s s2 := .ofFst heq (.past (State.learnReady_keeps ..) h1 rfl)
    exact .ite (hf _ h2) h2
  · split
    · exact h1
    · extract_lets -underBinder +onlyGivenNames -merge _
      exact .ite (.after (State.surveyDone_lasts ..) h1) (.after (State.surveyFail_lasts ..) h1)

theorem State.surveyKernel_lasts (s : State) : Lasts G s (State.surveyKernel s) := by
  unfold State.surveyKernel
  refine .foldl (fun _ _ h => ?_) (State.surveyAborts_lasts ..) _
  split
  · exact .after (State.learnZones_lasts ..) h
  · exact .past (State.learnLevels_keeps ..) h rfl
  · exact .past (State.learnLevels_keeps ..) h rfl
  · exact .after (State.learnDoor_lasts ..) h
  · exact h

/-! ## Site time -/

theorem State.unaligned_lasts (cause : Nat) (e : Int) (s : State) : Lasts G s (State.unaligned cause e s) := by
  unfold State.unaligned
  exact .raise (.keeps (Keeps.stage ..) rfl)

theorem State.lostSync_lasts (s : State) : Lasts G s (State.lostSync s) := by
  unfold State.lostSync
  exact .ite (State.unaligned_lasts ..) (.refl _)

theorem State.syncSettle_lasts (cause : Nat) (s : State) : Lasts G s (State.syncSettle cause s) := by
  unfold State.syncSettle
  extract_lets +onlyGivenNames _ f
  have hf : ∀ x y u, Lasts G s u → Lasts G s (f x y u) := fun _ _ _ h => .raise h
  clear_value f
  exact .ite (hf _ _ _ (.keeps (State.onTime_keeps ..) rfl))
    (.ite (.after (State.lostSync_lasts ..) (hf _ _ _ (.keeps (State.onTime_keeps ..) rfl))) (.refl _))

theorem State.changeGm_lasts (gm : Option (Announce × Nat)) (cause : Nat) (s : State) :
    Lasts G s (State.changeGm gm cause s) := by
  unfold State.changeGm
  exact .after (State.syncSettle_lasts ..) (.past (State.onTime_keeps ..) (State.syncSettle_lasts ..) rfl)

theorem State.timeStep_lasts (old new : Int) (cause : Nat) (s : State) : Lasts G s (State.timeStep old new cause s) := by
  unfold State.timeStep
  exact .raise (.refl _)

theorem execAnnounce_lasts (t port : Nat) (a : Announce) (s : State) : Answers (Lasts G s) (execAnnounce t port a s) := by
  unfold execAnnounce
  refine .ite (.next .tick) ?_
  extract_lets +onlyGivenNames _
  split
  · exact .ite (.next (.after (State.changeGm_lasts ..) .tick)) (.next .tick)
  · exact .ite (.ite (.next (.after (State.changeGm_lasts ..) .tick)) (.next (.past (State.onTime_keeps ..) .tick rfl)))
      (.ite (.next (.after (State.changeGm_lasts ..) .tick)) (.next .tick))

theorem execSync_lasts (t port seqId origin : Nat) (corr : Int) (stamp : SyncStamps) (s : State) :
    Answers (Lasts G s) (execSync t port seqId origin corr stamp s) := by
  unfold execSync
  extract_lets +onlyGivenNames s1
  have h1 : Lasts G s s1 := .tick
  clear_value s1
  extract_lets +onlyGivenNames _ _
  split
  · exact .next h1
  · refine .ite (.next h1) ?_
    extract_lets +onlyGivenNames s2
    have h2 : Lasts G s s2 := .past (State.onPort_keeps ..) h1 rfl
    clear_value s2
    extract_lets +onlyGivenNames _ s3
    have h3 : Lasts G s s3 := .past (State.onTime_keeps ..) h2 rfl
    clear_value s3
    extract_lets +onlyGivenNames _ s4 s5
    have h4 : Lasts G s s4 := .past (State.setSite_keeps ..) h3 rfl
    clear_value s4
    have h5 : Lasts G s s5 := by
      refine .ite (.past (State.onTime_keeps ..) (.past (State.setSite_keeps ..) h3 rfl) rfl)
        (.ite (.ite h3 (.ite (.after (State.timeStep_lasts ..) h4) h4)) ?_)
      split
      next _ s6 heq =>
      have h6 : Lasts G s s6 := .ofSnd heq (.past (State.servoRate_keeps ..) h3 rfl)
      exact .past (State.onTime_keeps ..) (.past (State.setSite_keeps ..) h6 rfl) rfl
    clear_value s5
    exact .next (.after (State.syncSettle_lasts ..) h5)

theorem execSyncTimeout_lasts (t : Nat) (s : State) : Answers (Lasts G s) (execSyncTimeout t s) := by
  unfold execSyncTimeout
  exact .ite (.next (.ite (.after (State.changeGm_lasts ..) .tick) (.after (State.syncSettle_lasts ..) .tick)))
    (.next .tick)

theorem State.takeSeal_lasts (origin seqId : Nat) (s : State) : Lasts G s (State.takeSeal origin seqId s) := by
  unfold State.takeSeal
  refine .ite (.refl _) ?_
  split
  · exact .after (State.syncSettle_lasts ..) (.keeps (State.onTime_keeps ..) rfl)
  · exact .refl _

theorem execTimeSeal_lasts (t origin seqId : Nat) (s : State) : Answers (Lasts G s) (execTimeSeal t origin seqId s) := by
  unfold execTimeSeal
  exact .next (.after (State.takeSeal_lasts ..) .tick)

/-! ## The window -/

theorem execUnitStatus_lasts (t : Nat) (s : State) : Answers (Lasts G s) (execUnitStatus t s) := by
  unfold execUnitStatus
  extract_lets +onlyGivenNames s1
  have h1 : Lasts G s s1 := .tick
  split
  · exact .next h1
  · refine .ite (.next h1) ?_
    extract_lets +onlyGivenNames _ _ _ s2
    have h2 : Lasts G s s2 := .past (Keeps.fab ..) h1 rfl
    extract_lets +onlyGivenNames s3
    have h3 : Lasts G s s3 := .past (State.sendAt_keeps ..) h2 rfl
    exact .next (.ite (.after (State.sendPair_lasts ..) h3) h3)

/-! ## The twin -/

theorem State.setRole_lasts {dest : Nat} (other : dest ≠ 2) (cause : Nat) (s : State) : Lasts G s (State.setRole dest cause s) := by
  unfold State.setRole
  exact .ite (.refl s) (.raise ⟨List.prefix_refl _, Nat.le_refl _, .of_fuses rfl, fun two => absurd two other⟩)

theorem State.mirrorStale_lasts (s : State) : Lasts G s (State.mirrorStale s) := by
  unfold State.mirrorStale
  exact .onTwin (.refl _) fun _ => rfl

theorem State.leaseRelease_lasts (s : State) : Lasts G s (State.leaseRelease s) := by
  unfold State.leaseRelease
  extract_lets +onlyGivenNames _
  exact .ite (.refl _) (.onTwin (.keeps (State.send_keeps ..) rfl) fun _ => rfl)

theorem State.leaseAsk_lasts (cause : Nat) (s : State) : Lasts G s (State.leaseAsk cause s) := by
  unfold State.leaseAsk
  extract_lets +onlyGivenNames _
  exact .past (State.send_keeps ..) (.onTwin (.refl _) fun _ => rfl) rfl

theorem execRoleRequest_lasts (t : Nat) (s : State) : Answers (Lasts G s) (execRoleRequest t s) := by
  unfold execRoleRequest
  extract_lets +onlyGivenNames s1
  have h1 : Lasts G s s1 := .tick
  clear_value s1
  extract_lets +onlyGivenNames _ _
  exact .ite (.next (.after (State.leaseAsk_lasts ..) h1)) (.next h1)

theorem execLeaseRenew_lasts (t : Nat) (s : State) : Answers (Lasts G s) (execLeaseRenew t s) := by
  unfold execLeaseRenew
  extract_lets +onlyGivenNames s1
  have h1 : Lasts G s s1 := .tick
  clear_value s1
  extract_lets +onlyGivenNames _
  exact .ite (.next h1) (.ite (.next (.after (State.leaseAsk_lasts ..) h1))
    (.ite (.next (.after (State.leaseAsk_lasts ..) h1)) (.next h1)))

theorem leaseEv_lasts (event lease holder pair : Nat) (s : State) : Lasts G s (leaseEv event lease holder pair s) := by
  unfold leaseEv
  exact .raise (.refl _)

theorem State.newHolder_lasts (k unit lease succ : Nat) (s : State) : Lasts G s (State.newHolder k unit lease succ s) := by
  unfold State.newHolder
  exact .onWit (.refl _)

theorem State.takeLeaseRequest_lasts (pair unit leaseNo lease cause succ : Nat) (s : State) :
    Lasts G s (State.takeLeaseRequest pair unit leaseNo lease cause succ s) := by
  unfold State.takeLeaseRequest
  split
  · exact .refl _
  · extract_lets +onlyGivenNames _ _ _ _ f
    have hf : ∀ u, Lasts G s u → Lasts G s (f u) := by
      intro _ h
      dsimp -zeta only [f]
      extract_lets +onlyGivenNames s1
      have h1 : Lasts G s s1 := .after (State.newHolder_lasts ..) h
      clear_value s1
      extract_lets +onlyGivenNames _
      exact .past (State.leaseAnswer_keeps ..) (.after (leaseEv_lasts ..) h1) rfl
    clear_value f
    refine .ite (.keeps (State.leaseAnswer_keeps ..) rfl)
      (.ite (hf _ (.refl _)) (.ite (hf _ (leaseEv_lasts ..))
      (.ite (.past (State.leaseAnswer_keeps ..) (.onWit (.refl _)) rfl)
      (.ite ?_ (.past (State.leaseAnswer_keeps ..) (.after (leaseEv_lasts ..) (.onWit (.refl _))) rfl)))))
    extract_lets +onlyGivenNames s2
    have h2 : Lasts G s s2 := State.newHolder_lasts ..
    clear_value s2
    extract_lets +onlyGivenNames _
    exact .past (State.leaseAnswer_keeps ..) (.after (leaseEv_lasts ..) h2) rfl

theorem execLeaseRequest_lasts (t pair unit leaseNo lease cause successor : Nat) (s : State) :
    Answers (Lasts G s) (execLeaseRequest t pair unit leaseNo lease cause successor s) := by
  unfold execLeaseRequest
  exact .next (.after (State.takeLeaseRequest_lasts ..) .tick)

theorem State.takeLeaseRelease_lasts (pair unit leaseNo : Nat) (s : State) :
    Lasts G s (State.takeLeaseRelease pair unit leaseNo s) := by
  unfold State.takeLeaseRelease
  split
  · exact .refl _
  · extract_lets +onlyGivenNames _
    exact .ite (.onWit (.refl _)) (.refl _)

theorem execLeaseRelease_lasts (t pair unit leaseNo : Nat) (s : State) :
    Answers (Lasts G s) (execLeaseRelease t pair unit leaseNo s) := by
  unfold execLeaseRelease
  exact .next (.after (State.takeLeaseRelease_lasts ..) .tick)

theorem State.fillMirror_lasts (fuel room : Nat) (s : State) : Lasts1 G s (State.fillMirror fuel room s) := by
  induction fuel generalizing room s with
  | zero => exact Lasts.refl s
  | succ n ih =>
    unfold State.fillMirror
    split
    · exact Lasts.refl s
    · extract_lets +onlyGivenNames _ s1
      have h1 : Lasts G s s1 := .ite (.onItem (.refl s)) (.refl s)
      clear_value s1
      exact Lasts1.ite h1 ((Lasts.onItem h1).trans (ih _ _))

theorem State.takeEntry_lasts (e : MirrorEntry) (s : State) : Lasts G s (State.takeEntry e s) := by
  unfold State.takeEntry
  exact .onItem (.refl _)

theorem State.mirrorAges_lasts (s : State) : Lasts G s (State.mirrorAges s) := by
  unfold State.mirrorAges
  refine .ite (.refl _) ?_
  extract_lets -underBinder +onlyGivenNames -merge _ _ s1
  have h1 : Lasts G s s1 := .onTwin (.refl _) fun _ => rfl
  clear_value s1
  refine .foldl (fun _ _ h => ?_) h1 _
  split
  · exact .ite (.raise (.onTwin (.onItem h) fun _ => rfl)) h
  · exact h

theorem State.takeAxis_lasts (a n : Nat) (s : State) : Lasts G s (State.takeAxis a n s) := by
  unfold State.takeAxis
  split
  · exact .refl _
  · extract_lets +onlyGivenNames _ _ _ _ _ _ s1
    have h1 : Lasts G s s1 := State.shiftAxis_lasts ..
    clear_value s1
    exact .past (State.onBook_keeps ..) (.same (.onTwin h1 fun _ => rfl) rfl) rfl

theorem execRebase_lasts (t : Nat) (s : State) : Answers (Lasts G s) (execRebase t s) := by
  unfold execRebase
  extract_lets +onlyGivenNames s1
  have h1 : Lasts G s s1 := .tick
  clear_value s1
  split
  · exact .next h1
  · extract_lets +onlyGivenNames _
    refine .ite (.next h1) ?_
    extract_lets +onlyGivenNames _ s2
    have h2 : Lasts G s s2 := .eachIx (fun _ _ h => .ite (.after (State.takeAxis_lasts ..) h) h)
      (.past (State.unshow_keeps ..) h1 rfl)
    clear_value s2
    extract_lets +onlyGivenNames s3
    have h3 : Lasts G s s3 := .eachIx (fun _ _ h => .ite (.past (State.takeCar_keeps ..) h rfl) h) h2
    clear_value s3
    extract_lets +onlyGivenNames s4
    have h4 : Lasts G s s4 := .eachIx (fun _ _ h => .ite (.past (State.takeDoor_keeps ..) h rfl) h) h3
    clear_value s4
    extract_lets +onlyGivenNames s5
    have h5 : Lasts G s s5 := .past (State.takeStops_keeps ..) h4 rfl
    clear_value s5
    exact .next (.ite (.after (State.setRole_lasts (by decide) ..) (.onTwin h5 fun _ => rfl)) (.onTwin h5 fun _ => rfl))

theorem execCompareResume_lasts (t : Nat) (s : State) : Answers (Lasts G s) (execCompareResume t s) := by
  unfold execCompareResume
  extract_lets +onlyGivenNames s1
  have h1 : Lasts G s s1 := .tick
  clear_value s1
  split
  · exact .ite (.next (.onTwin h1 fun _ => rfl)) (.next h1)
  · exact .next h1

theorem State.diverge_lasts (e own other : Nat) (s : State) : Lasts G s (State.diverge e own other s) := by
  unfold State.diverge
  exact .ite (.raise (.onTwin (.after (State.setRole_lasts (by decide) ..) (.raise (.onTwin (.refl _) fun _ => rfl)))
    fun _ => rfl)) (.raise (.onTwin (.refl _) fun _ => rfl))

theorem State.twinCompare_lasts (s : State) : Lasts G s (State.twinCompare s) := by
  unfold State.twinCompare
  extract_lets +onlyGivenNames _
  split
  · extract_lets +onlyGivenNames s1
    have h1 : Lasts G s s1 := .onTwin (.refl _) fun _ => rfl
    clear_value s1
    exact .ite h1 (.after (State.diverge_lasts ..) h1)
  · exact .refl _

theorem State.beginHandoff_lasts (e : Nat) (s : State) : Lasts G s (State.beginHandoff e s) := by
  unfold State.beginHandoff
  exact .onTwin (.refl _) fun _ => rfl

theorem State.leaveActive_lasts (cause : Nat) (s : State) : Lasts G s (State.leaveActive cause s) := by
  unfold State.leaveActive
  exact .onTwin (.after (State.setRole_lasts (by decide) ..) (State.leaseRelease_lasts ..)) fun _ => rfl

theorem State.leaseLapse_lasts (s : State) : Lasts G s (State.leaseLapse s) := by
  unfold State.leaseLapse
  exact .ite (.after (State.beginHandoff_lasts ..) (.onTwin (leaseEv_lasts ..) fun _ => rfl))
    (.past (State.haltCause_keeps ..) (.eachIx (fun _ _ h => .after (State.orderSs1_lasts ..) h)
    (.after (State.leaveActive_lasts ..) (.onTwin (leaseEv_lasts ..) fun _ => rfl))) rfl)

theorem execLeaseExpiry_lasts (t : Nat) (s : State) : Answers (Lasts G s) (execLeaseExpiry t s) := by
  unfold execLeaseExpiry
  extract_lets +onlyGivenNames s1
  have h1 : Lasts G s s1 := .tick
  clear_value s1
  split
  · exact .ite (.next (.after (State.leaseLapse_lasts ..) h1)) (.next h1)
  · exact .next h1

theorem State.takeover_lasts (kind resumed ss1 : Nat) (s : State) : Lasts G s (State.takeover kind resumed ss1 s) := by
  unfold State.takeover
  extract_lets +onlyGivenNames _
  exact .raise (.refl _)

theorem State.becomeActive_lasts (may : G) (cause : Nat) (s : State) : Lasts G s (State.becomeActive cause s) := by
  unfold State.becomeActive
  refine .onTwin ?_ fun _ => rfl
  unfold State.setRole
  exact .ite (.refl s) (.raise ⟨List.prefix_refl _, Nat.le_refl _, .of_fuses rfl, fun _ => .inr may⟩)

theorem State.handoffAxis_lasts (a n : Nat) (s : State) : Lasts G s (State.handoffAxis a n s) := by
  unfold State.handoffAxis
  refine .ite (State.takeAxis_lasts ..) ?_
  extract_lets +onlyGivenNames _ s1
  have h1 : Lasts G s s1 := .after (State.orderSs1_lasts ..) (State.takeAxis_lasts ..)
  clear_value s1
  refine .ite ?_ ?_
  · extract_lets +onlyGivenNames s2
    have h2 : Lasts G s s2 := by
      dsimp -zeta only [s2]
      split
      · exact .after (State.setGc_lasts ..) h1
      · exact h1
    clear_value s2
    exact .after (State.pathBreak_lasts ..) h2
  · extract_lets +onlyGivenNames _
    exact .past (State.onAxKept_keeps ..) h1 rfl

theorem State.grantTaken_lasts (s : State) : Lasts G s (State.grantTaken s) := by
  unfold State.grantTaken
  refine .ite (.refl _) (.eachIx (fun _ _ h => ?_) (.onTwin (.refl _) fun _ => rfl))
  extract_lets +onlyGivenNames _
  exact .ite (.after (State.curBoundary_lasts ..) h) h

theorem State.takeHandoff_lasts (may : G) (h : Nat) (s : State) : Lasts G s (State.takeHandoff h s) := by
  unfold State.takeHandoff
  extract_lets +onlyGivenNames _ s1
  have h1 : Lasts G s s1 := .onTwin (.refl s) fun _ => rfl
  clear_value s1
  extract_lets +onlyGivenNames _ _ _ s2
  have h2 : Lasts G s s2 := .foldl (fun _ _ h => .after (State.handoffAxis_lasts ..) h) h1 _
  clear_value s2
  extract_lets +onlyGivenNames s3
  have h3 : Lasts G s s3 := by
    refine .foldl (fun _ _ h => ?_) h2 _
    split
    · exact .past (State.onCax_brs (h := fun _ => rfl) ..) h rfl
    · exact h
  clear_value s3
  extract_lets +onlyGivenNames s4
  have h4 : Lasts G s s4 := .eachIx (fun _ _ h => .ite (.past (State.takeCar_keeps ..) h rfl) h) h3
  clear_value s4
  extract_lets +onlyGivenNames s5
  have h5 : Lasts G s s5 := .eachIx (fun _ _ h => .ite (.past (State.takeDoor_keeps ..) h rfl) h) h4
  clear_value s5
  exact .after (State.leaseAsk_lasts ..) (.after (State.takeover_lasts ..) (.after (State.grantTaken_lasts ..)
    (.after (State.becomeActive_lasts may ..) (.past (State.takeStops_keeps ..) h5 rfl))))

theorem execHandoff_lasts (may : G) (t : Nat) (s : State) : Answers (Lasts G s) (execHandoff t s) := by
  unfold execHandoff
  extract_lets +onlyGivenNames s1
  have h1 : Lasts G s s1 := .tick
  clear_value s1
  split
  · exact .next h1
  · refine .ite (.next h1) (.ite ?_ (.ite
      (.next (.after (State.takeHandoff_lasts may ..) (.past (State.unshow_keeps ..) h1 rfl))) (.next (.onTwin h1 fun _ => rfl))))
    extract_lets +onlyGivenNames s2
    have h2 : Lasts G s s2 := .onTwin (.after (State.setRole_lasts (by decide) ..) h1) fun _ => rfl
    clear_value s2
    exact .next (.past (State.haltCause_keeps ..) (.ite (.eachIx (fun _ _ h => .past (State.gatesOff_keeps ..) h rfl) h2) h2) rfl)

theorem State.takeSwitch_lasts (o : Origin) (s : State) : Lasts G s (State.takeSwitch o s) := by
  unfold State.takeSwitch
  exact .ite (.keeps (State.reply_keeps ..) rfl)
    (.ite (.keeps (State.reply_keeps ..) rfl)
    (.ite (.keeps (State.reply_keeps ..) rfl) (.past (State.reply_keeps ..) (State.beginHandoff_lasts ..) rfl)))

theorem State.rejoin_lasts (cause : Nat) (s : State) : Lasts G s (State.rejoin cause s) := by
  unfold State.rejoin
  exact .onTwin (State.setRole_lasts (by decide) ..) fun _ => rfl

theorem State.takeLeaseGrant_lasts (pair holder leaseNo result requester : Nat) (s : State) (may : result = 0 → G) :
    Lasts G s (State.takeLeaseGrant pair holder leaseNo result requester s) := by
  unfold State.takeLeaseGrant
  extract_lets +onlyGivenNames _
  refine .ite (.refl s) ?_
  split
  · rename_i given
    extract_lets +onlyGivenNames _ s1
    have h1 : Lasts G s s1 := .onTwin (.refl s) fun _ => rfl
    have active (c : Nat) : Lasts G s (s1.becomeActive c) := .after (State.becomeActive_lasts (may given.1) ..) h1
    have idle (c k a b : Nat) : Lasts G s ((eachIx 12 State.takeIdle (s1.becomeActive c)).takeover k a b) :=
      .after (State.takeover_lasts ..) (.eachIx (fun _ _ h => .past (State.takeIdle_keeps ..) h rfl) (active c))
    clear_value s1
    split
    · exact active _
    · exact idle _ _ _ _
    · exact idle _ _ _ _
    · exact idle _ _ _ _
    · exact h1
  · split
    · extract_lets +onlyGivenNames _
      exact .ite (.onTwin (.refl s) fun _ => rfl) (.after (State.setRole_lasts (by decide) ..) (State.mirrorStale_lasts ..))
    · exact .ite (State.leaseLapse_lasts ..) (.refl s)
    · extract_lets +onlyGivenNames s1
      have h1 : Lasts G s s1 := .after (State.setRole_lasts (by decide) ..) (State.mirrorStale_lasts ..)
      clear_value s1
      exact .ite (.after (State.rejoin_lasts ..) h1) h1
    · exact .refl s

theorem execLeaseGrant_lasts (t pair holder leaseNo result left successor requester : Nat) (s : State) (may : result = 0 → G) :
    Answers (Lasts G s) (execLeaseGrant t pair holder leaseNo result left successor requester s) := by
  unfold execLeaseGrant
  extract_lets +onlyGivenNames _
  exact .next (.after (State.takeLeaseGrant_lasts (may := may) ..) .tick)

theorem execTwinPacket_lasts (t : Nat) (p : TwinPkt) (s : State) : Answers (Lasts G s) (execTwinPacket t p s) := by
  unfold execTwinPacket
  refine .ite (.next .tick) (.ite (.next (.onTwin .tick fun _ => rfl)) ?_)
  extract_lets +onlyGivenNames _ _ s1
  have h1 : Lasts G s s1 := .onTwin .tick fun _ => rfl
  clear_value s1
  extract_lets +onlyGivenNames s2
  have h2 : Lasts G s s2 := .ite (.raise h1) h1
  clear_value s2
  extract_lets +onlyGivenNames s3
  have h3 : Lasts G s s3 := .ite h2 (.foldl (fun _ _ h => .after (State.takeEntry_lasts ..) h) h2 _)
  clear_value s3
  exact .next (.ite (.after (State.rejoin_lasts ..) h3) h3)

theorem execTwinHeartbeat_lasts (t : Nat) (s : State) : Answers (Lasts G s) (execTwinHeartbeat t s) := by
  unfold execTwinHeartbeat
  extract_lets +onlyGivenNames s1
  have h1 : Lasts G s s1 := .tick
  clear_value s1
  extract_lets +onlyGivenNames _
  refine .ite (.next h1) ?_
  extract_lets +onlyGivenNames s2
  have h2 : Lasts G s s2 := .raise (.onTwin h1 fun _ => rfl)
  clear_value s2
  exact .ite (.next (.after (State.leaseAsk_lasts ..)
      (.vacate (.after (State.mirrorStale_lasts ..) h2) fun _ => (by decide : (4 : Nat) ≠ 2))))
    (.ite (.next (.after (State.setRole_lasts (by decide) ..) (.onTwin (.after (State.mirrorStale_lasts ..) h2) fun _ => rfl))) (.next h2))

theorem State.twinLink_lasts (up : Bool) (s : State) : Lasts G s (State.twinLink up s) := by
  unfold State.twinLink
  exact .ite (.refl _) (.raise (.onTwin (.refl _) fun _ => rfl))

theorem execTwinLink_lasts (t : Nat) (up : Bool) (s : State) : Answers (Lasts G s) (execTwinLink t up s) := by
  unfold execTwinLink
  exact .ite (.next .tick) (.next (.after (State.twinLink_lasts ..) .tick))

theorem State.grantBoundary_lasts (s : State) : Lasts G s (State.grantBoundary s) := by
  unfold State.grantBoundary
  extract_lets +onlyGivenNames _
  exact .ite (.refl _) (.onTwin (.refl _) fun _ => rfl)

theorem execGrantCheck_lasts (t : Nat) (s : State) : Answers (Lasts G s) (execGrantCheck t s) := by
  unfold execGrantCheck
  exact .ite (.next (.past (State.haltCause_keeps ..) (.raise .tick) rfl)) (.next .tick)

theorem State.sendPacket_lasts (s : State) : Lasts G s (State.sendPacket s) := by
  unfold State.sendPacket
  extract_lets +onlyGivenNames _
  refine .ite (.refl _) ?_
  extract_lets +onlyGivenNames _
  split
  next s1 _ heq =>
  have h1 : Lasts G s s1 := .ofFst heq (Lasts1.ite (State.fillMirror_lasts ..) (Lasts1.mk (.refl _)))
  extract_lets +onlyGivenNames _ _ _
  exact .onTwin h1 fun _ => rfl

theorem State.twinHalt_lasts (s : State) : Lasts G s (State.twinHalt s) := by
  unfold State.twinHalt
  extract_lets +onlyGivenNames _
  exact .ite (.ite (.ite (.refl _) (.ite (State.beginHandoff_lasts ..) (State.leaveActive_lasts ..)))
    (.ite (.refl _) (.after (State.setRole_lasts (by decide) ..) (State.mirrorStale_lasts ..))))
    (.ite (State.rejoin_lasts ..) (.refl _))

theorem State.usePacket_lasts (s : State) : Lasts G s (State.usePacket s) := by
  unfold State.usePacket
  split
  · extract_lets +onlyGivenNames s1
    have h1 : Lasts G s s1 := .ite (.ite (.onTwin (.refl _) fun _ => rfl) (.refl _))
      (.ite (State.leaseAsk_lasts ..) (.refl _))
    clear_value s1
    refine .foldl (fun _ _ h => ?_) h1 _
    split
    · exact .after (State.offerAxis_lasts ..) h
    · exact .after (State.offerPath_lasts ..) h
  · exact .refl _

theorem State.twinBoundary_lasts (s : State) : Lasts G s (State.twinBoundary s) := by
  unfold State.twinBoundary
  exact .ite (.refl _) (.after (State.sendPacket_lasts ..)
    (.after (State.grantBoundary_lasts ..)
    (.after (State.mirrorAges_lasts ..) (.after (State.usePacket_lasts ..)
    (.after (State.twinCompare_lasts ..) (.onTwin (State.twinHalt_lasts ..) fun _ => rfl))))))

end

end Sys2Proof.Machine

namespace Sys2Proof.Machine

/-! # What lasts through the Ledger, the Steward and a Waking (chapters 1, 15, 16 and 17) -/

section
variable {G : Prop}

/-! ## Restart -/

theorem State.restart_lasts (s : State) : Lasts G s (State.restart s) :=
  ⟨List.prefix_refl _, Nat.le_refl _, .of_fuses rfl, fun two => absurd two (by decide : (0 : Nat) ≠ 2)⟩

theorem State.resetEnd_lasts (s : State) : Lasts G s (State.resetEnd s) := by
  unfold State.resetEnd
  exact .ite (State.restart_lasts ..) (.refl _)

/-! ## The Ledger -/

theorem State.eventsOut_lasts (s : State) : Lasts G s (State.eventsOut s) := by
  unfold State.eventsOut
  refine .ite (.refl _) ?_
  extract_lets +onlyGivenNames _ s1
  have h1 : Lasts G s s1 := .onLed (.refl _) fun _ => rfl
  clear_value s1
  split
  · exact h1
  · exact .foldl (fun _ _ h => .past (State.sendAt_keeps ..) h rfl) h1 _

theorem execLedgerOccurrence_lasts (t code sev : Nat) (payload : List Octet) (s : State) :
    Answers (Lasts G s) (execLedgerOccurrence t code sev payload s) := by
  unfold execLedgerOccurrence
  extract_lets +onlyGivenNames s1
  have h1 : Lasts G s s1 := .tick
  clear_value s1
  extract_lets +onlyGivenNames _
  exact .ite (.next (.after (State.ledTake_lasts ..) (.led h1 rfl))) (.next h1)

theorem execLedgerMaxAge_lasts (t : Nat) (s : State) : Answers (Lasts G s) (execLedgerMaxAge t s) := by
  unfold execLedgerMaxAge
  extract_lets +onlyGivenNames s1
  have h1 : Lasts G s s1 := .tick
  clear_value s1
  split
  · exact .ite (.next (.after (State.beginFlush_lasts ..) h1)) (.next h1)
  · exact .next h1

theorem State.ledFull_lasts (region : Nat) (s : State) : Lasts G s (State.ledFull region s) := by
  unfold State.ledFull
  exact .raise (.refl _)

theorem State.dropRecs_lasts (l : List LedRec) (c : List SumCnt) (s : State) : Lasts G s (State.dropRecs l c s) := by
  unfold State.dropRecs
  extract_lets +onlyGivenNames s1
  have h1 : Lasts G s s1 := by
    refine .foldl (fun _ _ h => ?_) (.refl s) _
    exact .onLed h fun _ => rfl
  clear_value s1
  refine .foldl (fun _ _ h => ?_) h1 _
  exact .onLed h fun _ => rfl

theorem State.toReserve_lasts (s : State) : Lasts G s (State.toReserve s) := by
  unfold State.toReserve
  exact .onLed (.after (State.ledFull_lasts ..) (.onLed (State.dropRecs_lasts ..) fun _ => rfl)) fun _ => rfl

theorem State.toSealed_lasts (s : State) : Lasts G s (State.toSealed s) := by
  unfold State.toSealed
  extract_lets +onlyGivenNames _ s1
  have h1 : Lasts G s s1 := .onLed (.refl s) fun _ => rfl
  clear_value s1
  extract_lets +onlyGivenNames s2
  have h2 : Lasts G s s2 := .after (State.ledFull_lasts ..) h1
  clear_value s2
  extract_lets +onlyGivenNames _ s3
  have h3 : Lasts G s s3 := .program h2 rfl (Nat.le_refl _)
  clear_value s3
  extract_lets +onlyGivenNames s4
  have h4 : Lasts G s s4 := .foldl (fun _ _ h => .after (State.notRec_lasts ..) h) (.after (State.dropRecs_lasts ..) h3) _
  clear_value s4
  exact .onLed h4 fun _ => rfl

theorem State.voidSlot_lasts (slot : Nat) (s : State) : Lasts G s (State.voidSlot slot s) := by
  unfold State.voidSlot
  exact .raise (.onLed (.refl _) fun _ => rfl)

theorem execPageProgrammed_lasts (t : Nat) (failed : List Nat) (s : State) :
    Answers (Lasts G s) (execPageProgrammed t failed s) := by
  unfold execPageProgrammed
  extract_lets +onlyGivenNames s1
  have h1 : Lasts G s s1 := .tick
  clear_value s1
  extract_lets +onlyGivenNames _
  refine .ite (.next h1) ?_
  extract_lets +onlyGivenNames ord _ n _ _ new _ s2
  have more : s1.led.ordUsed ≤ if ord then s1.led.ordUsed + n else s1.led.ordUsed := by split <;> omega
  have h2 : Lasts G s s2 := .program h1 rfl more
  clear_value s2
  extract_lets +onlyGivenNames s3
  have h3 : Lasts G s s3 := .onLed h2 fun _ => rfl
  clear_value s3
  extract_lets +onlyGivenNames s4
  have h4 : Lasts G s s4 := .foldl (fun _ _ h => .after (State.voidSlot_lasts ..) h) h3 _
  clear_value s4
  extract_lets +onlyGivenNames s5
  have h5 : Lasts G s s5 := .ite (.after (State.toReserve_lasts ..) h4) (.ite (.after (State.toSealed_lasts ..) h4) h4)
  clear_value s5
  exact .next (.ite (.after (State.resetEnd_lasts ..) (.after (State.flushEnd_lasts ..) h5)) (.onLed h5 fun _ => rfl))

theorem execFlushBit_lasts (t value : Nat) (s : State) : Answers (Lasts G s) (execFlushBit t value s) := by
  unfold execFlushBit
  exact .next (.ite (.after (State.beginFlush_lasts ..) .tick) .tick)

theorem State.nevtAck_lasts (s : State) : Lasts G s (State.nevtAck s) := by
  unfold State.nevtAck
  exact .onLed (.refl _) fun _ => rfl

theorem execNevtAck_lasts (t value : Nat) (s : State) : Answers (Lasts G s) (execNevtAck t value s) := by
  unfold execNevtAck
  exact .next (.ite (.after (State.nevtAck_lasts ..) .tick) .tick)

theorem execNevtPulseEnd_lasts (t : Nat) (s : State) : Answers (Lasts G s) (execNevtPulseEnd t s) := by
  unfold execNevtPulseEnd
  exact .ite (.next (.onLed .tick fun _ => rfl)) (.next .tick)

theorem State.setReadFrom_lasts (seq : Nat) (s : State) : Lasts G s (State.setReadFrom seq s) := by
  unfold State.setReadFrom
  exact .onLed (.refl _) fun _ => rfl

theorem execReadFrom_lasts (t seq : Nat) (s : State) : Answers (Lasts G s) (execReadFrom t seq s) := by
  unfold execReadFrom
  exact .next (.after (State.setReadFrom_lasts ..) .tick)

theorem execApertureFill_lasts (t : Nat) (s : State) : Answers (Lasts G s) (execApertureFill t s) := by
  unfold execApertureFill
  extract_lets +onlyGivenNames s1
  have h1 : Lasts G s s1 := .tick
  clear_value s1
  split
  · exact .next h1
  · refine .ite (.next h1) ?_
    extract_lets +onlyGivenNames _ _
    exact .next (.onLed h1 fun _ => rfl)

theorem execRtcTick_lasts (t : Nat) (s : State) : Answers (Lasts G s) (execRtcTick t s) := by
  unfold execRtcTick
  exact .ite (.next .tick) (.next (.onLed .tick fun _ => rfl))

theorem execLifeClockPersist_lasts (t : Nat) (s : State) : Answers (Lasts G s) (execLifeClockPersist t s) := by
  unfold execLifeClockPersist
  exact .ite (.next (.onLed .tick fun _ => rfl)) (.next .tick)

/-! ## Links, clocks and memory -/

theorem State.setMode_lasts (m cause : Nat) (s : State) : Lasts G s (State.setMode m cause s) := by
  unfold State.setMode
  exact .ite (.refl _) (.ite (.after (State.beginFlush_lasts ..) (.raise (.keeps (Keeps.mode ..) rfl)))
    (.raise (.keeps (Keeps.mode ..) rfl)))

theorem State.dropChan_lasts (b : Bool) (s : State) : Lasts G s (State.dropChan b s) := by
  unfold State.dropChan
  exact .after (State.driveOuts_lasts ..) (.keeps (State.onChan_keeps ..) rfl)

theorem State.holdMotion_lasts (s : State) : Lasts G s (State.holdMotion s) := by
  unfold State.holdMotion
  exact .after (State.dropChan_lasts ..) (.eachIx (fun _ _ h => .past (State.gatesOff_keeps ..) h rfl)
    (.same (.refl _) rfl))

theorem State.clockFault_lasts (s : State) : Lasts G s (State.clockFault s) := by
  unfold State.clockFault
  exact .after (State.setMode_lasts ..) (.after (State.holdMotion_lasts ..)
    (.after (State.dropChan_lasts ..) (.keeps (Keeps.mode ..) rfl)))

theorem State.linkReact_lasts (link : Nat) (s : State) : Lasts G s (State.linkReact link s) := by
  unfold State.linkReact
  split
  · exact .past (State.haltCause_keeps ..) (.after (State.dropChan_lasts ..) (State.dropChan_lasts ..)) rfl
  · extract_lets +onlyGivenNames s1
    have h1 : Lasts G s s1 := .eachIx (fun _ _ h => .after (State.losePeers_lasts ..) h) (.refl _)
    clear_value s1
    exact .past (State.haltCause_keeps ..)
      (.eachIx (fun _ _ h => .after (State.orderSs1_lasts ..) h) (.after (State.twinLink_lasts ..) h1)) rfl
  · extract_lets +onlyGivenNames s2
    have h2 : Lasts G s s2 := .after (State.tiers_lasts ..)
      (.after (State.holdUp_lasts ..) (.keeps (State.onPurse_keeps ..) rfl))
    clear_value s2
    exact .after (State.powerFlushBegin_lasts ..)
      (.past (State.haltCause_keeps ..) (.eachIx (fun _ _ h => .ite (.after (State.orderSto_lasts ..) h) h) h2) rfl)

theorem execDieLinkFault_lasts (t link cause detector : Nat) (s : State) :
    Answers (Lasts G s) (execDieLinkFault t link cause detector s) := by
  unfold execDieLinkFault
  extract_lets +onlyGivenNames s1
  have h1 : Lasts G s s1 := .tick
  clear_value s1
  extract_lets +onlyGivenNames _ _
  exact .ite (.next h1) (.next (.after (State.linkReact_lasts ..) (.raise (.past (State.onLink_keeps ..) h1 rfl))))

theorem execEdgeClockCheck_lasts (t khz : Nat) (s : State) : Answers (Lasts G s) (execEdgeClockCheck t khz s) := by
  unfold execEdgeClockCheck
  exact .ite (.next .tick) (.next (.after (State.clockFault_lasts ..) (.raise (.past (Keeps.clk ..) .tick rfl))))

theorem execPllLossOfLock_lasts (t : Nat) (s : State) : Answers (Lasts G s) (execPllLossOfLock t s) := by
  unfold execPllLossOfLock
  exact .ite (.next .tick) (.next (.after (State.clockFault_lasts ..) (.raise (.past (Keeps.clk ..) .tick rfl))))

theorem execRtcCheck_lasts (t mhz : Nat) (s : State) : Answers (Lasts G s) (execRtcCheck t mhz s) := by
  unfold execRtcCheck
  extract_lets +onlyGivenNames s1
  have h1 : Lasts G s s1 := .tick
  clear_value s1
  extract_lets +onlyGivenNames _
  exact .ite (.next h1) (.next (.ite (.raise (.past (Keeps.clk ..) (.onLed h1 fun _ => rfl) rfl))
    (.past (Keeps.clk ..) (.onLed h1 fun _ => rfl) rfl)))

theorem execLockstepMismatch_lasts (t lane : Nat) (s : State) : Answers (Lasts G s) (execLockstepMismatch t lane s) := by
  unfold execLockstepMismatch
  exact .ite (.next .tick) (.next (.past (State.haltCause_keeps ..)
    (.after (State.dropChan_lasts ..) (.raise (.past (Keeps.clk ..) .tick rfl))) rfl))

theorem execMemoryEcc_lasts (t addr : Nat) (double : Bool) (s : State) :
    Answers (Lasts G s) (execMemoryEcc t addr double s) := by
  unfold execMemoryEcc
  exact .ite (.next (.past (State.haltCause_keeps ..)
    (.after (State.dropChan_lasts ..) (.raise (.past (Keeps.clk ..) .tick rfl))) rfl))
    (.next (.raise (.past (Keeps.clk ..) .tick rfl)))

/-! ## The Steward -/

theorem State.ageingEv_lasts (die cause pair : Nat) (s : State) (sev : Nat) :
    Lasts G s (State.ageingEv die cause pair s sev) := by
  unfold State.ageingEv
  extract_lets +onlyGivenNames _
  exact .raise (.refl _)

theorem State.ageDie_lasts (die first n least : Nat) (s : State) : Lasts G s (State.ageDie die first n least s) := by
  unfold State.ageDie
  extract_lets +onlyGivenNames _ _ _ _ s1
  have h1 : Lasts G s s1 := .onStw (.refl _) fun _ => rfl
  clear_value s1
  extract_lets +onlyGivenNames _ _ s2
  have h2 : Lasts G s s2 := .onStw h1 fun _ => rfl
  clear_value s2
  extract_lets +onlyGivenNames _ s3
  have h3 : Lasts G s s3 := .foldl (fun _ _ h => .after (State.ageingEv_lasts ..) h) h2 _
  clear_value s3
  extract_lets +onlyGivenNames s4
  have h4 : Lasts G s s4 := .ite (.after (State.ageingEv_lasts ..) h3) h3
  clear_value s4
  extract_lets +onlyGivenNames s5
  have h5 : Lasts G s s5 := .ite (.after (State.ageingEv_lasts ..) h4) h4
  clear_value s5
  exact .ite h5 (.past (State.haltCause_keeps ..) (.ite (.after (State.ageingEv_lasts ..) h5) h5) rfl)

theorem State.ageAllowance_lasts (s : State) : Lasts G s (State.ageAllowance s) := by
  unfold State.ageAllowance
  extract_lets +onlyGivenNames _ _ _ _ _ s1
  have h1 : Lasts G s s1 := .keeps (State.onPurse_keeps ..) rfl
  clear_value s1
  exact .ite (.after (State.ageingEv_lasts ..) (.onStw h1 fun _ => rfl)) (.onStw h1 fun _ => rfl)

theorem State.measureAgeing_lasts (counts : List (Nat × Nat)) (s : State) : Lasts G s (State.measureAgeing counts s) := by
  unfold State.measureAgeing
  refine .after (State.ageAllowance_lasts ..)
    (.after (State.ageDie_lasts ..) (.after (State.ageDie_lasts ..)
    (.onStw (.foldl (fun _ _ h => ?_) (.refl _) _) fun _ => rfl)))
  split
  next _ s1 heq =>
  have h1 : Lasts G s s1 := .ofSnd heq (.past (State.delayLost_keeps ..) h rfl)
  exact .onStw h1 fun _ => rfl

theorem execAgeingMeasurement_lasts (t : Nat) (counts : List (Nat × Nat)) (s : State) :
    Answers (Lasts G s) (execAgeingMeasurement t counts s) := by
  unfold execAgeingMeasurement
  extract_lets +onlyGivenNames s1
  have h1 : Lasts G s s1 := .tick
  clear_value s1
  split
  · exact .ite (.next h1) (.next (.after (State.measureAgeing_lasts ..) h1))
  · exact .next (.after (State.measureAgeing_lasts ..) h1)

theorem execCoreSupplyLow_lasts (t die : Nat) (s : State) : Answers (Lasts G s) (execCoreSupplyLow t die s) := by
  unfold execCoreSupplyLow
  exact .next (.after (State.clockFault_lasts ..) (.after (State.ageingEv_lasts ..) .tick))

theorem State.holdupEv_lasts (result c esr dt : Nat) (s : State) (sev : Nat) :
    Lasts G s (State.holdupEv result c esr dt s sev) := by
  unfold State.holdupEv
  exact .raise (.refl _)

theorem State.takeHoldTest_lasts (o : Origin) (s : State) : Lasts G s (State.takeHoldTest o s) := by
  unfold State.takeHoldTest
  exact .ite (.keeps (State.reply_keeps ..) rfl) (.past (State.reply_keeps ..) (.onStw (.refl _) fun _ => rfl) rfl)

theorem execHoldTestDue_lasts (t : Nat) (s : State) : Answers (Lasts G s) (execHoldTestDue t s) := by
  unfold execHoldTestDue
  extract_lets +onlyGivenNames s1
  have h1 : Lasts G s s1 := .tick
  clear_value s1
  extract_lets +onlyGivenNames _
  exact .ite (.next (.onStw h1 fun _ => rfl)) (.next h1)

theorem execHoldTestStart_lasts (t : Nat) (s : State) : Answers (Lasts G s) (execHoldTestStart t s) := by
  unfold execHoldTestStart
  extract_lets +onlyGivenNames s1
  have h1 : Lasts G s s1 := .tick
  clear_value s1
  extract_lets +onlyGivenNames _
  exact .ite (.next (.past (State.onPins_keeps ..) (.onStw h1 fun _ => rfl) rfl)) (.next h1)

theorem State.testOver_lasts (retry : Bool) (s : State) : Lasts G s (State.testOver retry s) := by
  unfold State.testOver
  exact .past (State.onPins_keeps ..) (.onStw (.refl _) fun _ => rfl) rfl

theorem execHoldTestEnd_lasts (t esr : Nat) (dt : Option Nat) (s : State) :
    Answers (Lasts G s) (execHoldTestEnd t esr dt s) := by
  unfold execHoldTestEnd
  refine .ite (.next .tick) (.ite (.next (.after (State.holdupEv_lasts ..)
    (.after (State.testOver_lasts ..) (.onStw .tick fun _ => rfl)))) ?_)
  extract_lets +onlyGivenNames s1
  have h1 : Lasts G s s1 := .past (State.onPurse_keeps ..)
    (.after (State.testOver_lasts ..) (.onStw .tick fun _ => rfl)) rfl
  clear_value s1
  exact .next (.ite (.after (State.holdupEv_lasts ..) h1) (.after (State.holdupEv_lasts ..) h1))

theorem State.testNotice_lasts (s : State) : Lasts G s (State.testNotice s) := by
  unfold State.testNotice
  refine .ite ?_ (.onStw (.refl _) fun _ => rfl)
  split
  next _ s1 heq =>
  have h1 : Lasts G s s1 := .ofSnd heq (.past (State.free_keeps ..) (.onStw (.refl _) fun _ => rfl) rfl)
  split
  next _ s2 heq =>
  have h2 : Lasts G s s2 := .ofSnd heq (.past (State.free_keeps ..) h1 rfl)
  exact .after (State.holdupEv_lasts ..) (.after (State.testOver_lasts ..) h2)

theorem State.selfTestEv_lasts (test occasion : Nat) (pass : Bool) (s : State) (sev : Nat) :
    Lasts G s (State.selfTestEv test occasion pass s sev) := by
  unfold State.selfTestEv
  exact .raise (.refl _)

theorem State.securityError_lasts (test occasion : Nat) (s : State) : Lasts G s (State.securityError test occasion s) := by
  unfold State.securityError
  exact .past (State.haltCause_keeps ..) (.onStw (State.selfTestEv_lasts ..) fun _ => rfl) rfl

theorem State.takeSelfTest_lasts (o : Origin) (pass : Bool) (s : State) : Lasts G s (State.takeSelfTest o pass s) := by
  unfold State.takeSelfTest
  exact .ite (.after (State.selfTestEv_lasts ..) (.keeps (State.reply_keeps ..) rfl))
    (.after (State.securityError_lasts ..) (.keeps (State.reply_keeps ..) rfl))

theorem execPeriodicSelfTest_lasts (t : Nat) (pass : Bool) (s : State) :
    Answers (Lasts G s) (execPeriodicSelfTest t pass s) := by
  unfold execPeriodicSelfTest
  exact .ite (.next .tick) (.next (.ite (.onStw .tick fun _ => rfl)
    (.after (State.securityError_lasts ..) (.onStw .tick fun _ => rfl))))

theorem State.objAnswer_lasts (ix src obj part status next : Nat) (s : State) :
    Lasts G s (State.objAnswer ix src obj part status next s) := by
  unfold State.objAnswer
  exact .past (State.updateStatus_keeps ..) (.onStw (.refl _) fun _ => rfl) rfl

theorem State.updateEv_lasts (slot event : Nat) (s : State) (sev : Nat) : Lasts G s (State.updateEv slot event s sev) := by
  unfold State.updateEv
  exact .raise (.refl _)

theorem State.commitSlot_lasts (k : Nat) (s : State) : Lasts G s (State.commitSlot k s) := by
  unfold State.commitSlot
  exact .after (State.updateEv_lasts ..) (.onSlot (.blow (.refl s)
    ⟨Nat.le_max_left .., Nat.le_max_left .., id, Nat.le_refl _, fun _ two => ⟨Nat.le_refl _, two⟩⟩))

theorem State.beginPart_lasts (slot part : Nat) (s : State) : Lasts G s (State.beginPart slot part s) := by
  unfold State.beginPart
  extract_lets +onlyGivenNames _
  exact .onSlot (State.eraseSectors_lasts ..)

theorem State.chunkIn_lasts (ix src : Nat) (a : Assembly) (c : Chunk) (s : State) : Lasts G s (State.chunkIn ix src a c s) := by
  unfold State.chunkIn
  extract_lets +onlyGivenNames _
  exact .ite (.after (State.objAnswer_lasts ..) (.setAsm (.refl _)))
    (.ite (.setAsm (.refl _)) (.onStw (.onSlot (.setAsm (.refl _))) fun _ => rfl))

theorem State.takeChunk_lasts (ix src : Nat) (c : Chunk) (s : State) : Lasts G s (State.takeChunk ix src c s) := by
  unfold State.takeChunk
  extract_lets +onlyGivenNames a1 _ _ _ _ f1
  have hf1 : ∀ x u, Lasts G s u → Lasts G s (f1 x u) := fun _ _ h => .after (State.objAnswer_lasts ..) h
  clear_value f1
  refine .ite (hf1 _ _ (.refl _)) (.ite (hf1 _ _ (.refl _))
    (.ite (hf1 _ _ (.refl _)) (.ite (hf1 _ _ (.refl _))
    (.ite (hf1 _ _ (.refl _)) (.ite (hf1 _ _ (.refl _)) (.ite ?_ ?_))))))
  · clear_value a1
    split
    · exact .ite (State.chunkIn_lasts ..) (hf1 _ _ (.refl _))
    · exact .refl _
  · extract_lets +onlyGivenNames f2
    have hf2 : ∀ u, Lasts G s u → Lasts G s (f2 u) := by
      intro _ h
      dsimp -zeta only [f2]
      extract_lets +onlyGivenNames s1
      have h1 : Lasts G s s1 := by
        dsimp -zeta only [s1]
        clear_value a1
        split
        · exact .after (State.objAnswer_lasts ..) h
        · exact h
      clear_value s1
      exact .after (State.chunkIn_lasts ..) h1
    clear_value f2
    refine .ite (hf2 _ (.refl _)) ?_
    split
    · exact hf1 _ _ (.refl _)
    · exact hf2 _ (State.beginPart_lasts ..)

theorem execObjectChunk_lasts (t src type : Nat) (c : Chunk) (s : State) :
    Answers (Lasts G s) (execObjectChunk t src type c s) := by
  unfold execObjectChunk
  extract_lets +onlyGivenNames s1
  have h1 : Lasts G s s1 := .tick
  clear_value s1
  split
  · exact .next (.after (State.takeChunk_lasts ..) h1)
  · exact .next h1

theorem execUpdateBlock_lasts (t src : Nat) (c : Chunk) (s : State) : Answers (Lasts G s) (execUpdateBlock t src c s) := by
  unfold execUpdateBlock
  exact .next (.after (State.takeChunk_lasts ..) .tick)

theorem execPartEraseDone_lasts (t : Nat) (s : State) : Answers (Lasts G s) (execPartEraseDone t s) := by
  unfold execPartEraseDone
  exact .next (.onStw .tick fun _ => rfl)

theorem execPartVerified_lasts (t : Nat) (c : Container) (s : State) : Answers (Lasts G s) (execPartVerified t c s) := by
  unfold execPartVerified
  extract_lets +onlyGivenNames s1
  have h1 : Lasts G s s1 := .tick
  clear_value s1
  split
  · exact .next h1
  · split
    · extract_lets +onlyGivenNames _ s2
      have h2 : Lasts G s s2 := .onSlot h1
      clear_value s2
      extract_lets +onlyGivenNames s3
      have h3 : Lasts G s s3 := .onStw h2 fun _ => rfl
      clear_value s3
      extract_lets +onlyGivenNames _ a9
      clear_value a9
      split
      · exact .next (.after (State.objAnswer_lasts ..) (.after (State.updateEv_lasts ..) (.onSlot h3)))
      · exact .next (.after (State.objAnswer_lasts ..) (.after (State.updateEv_lasts ..) (.onSlot h3)))

theorem State.objectEv_lasts (a : Assembly) (status : Nat) (s : State) : Lasts G s (State.objectEv a status s) := by
  unfold State.objectEv
  exact .raise (.refl _)

theorem State.objRow_lasts {s : State} {t ix : Nat} {mine : Nat → Nat → Bool} {act : Assembly → Obj → State → State × Option Nat}
    (h : ∀ a o x, Lasts G s x → Lasts1 G s (act a o x)) : Answers (Lasts G s) (s.objRow t ix mine act) := by
  unfold State.objRow
  extract_lets +onlyGivenNames s1
  have h1 : Lasts G s s1 := .tick
  clear_value s1
  split
  · exact .next h1
  · refine .ite (.next h1) ?_
    extract_lets +onlyGivenNames s2 answered
    have h2 : Lasts G s s2 := .setAsm h1
    have hf : ∀ a b, Lasts G s b → Lasts G s (answered a b) := fun _ _ h => .after (State.objAnswer_lasts ..) h
    clear_value answered s2
    refine .ite (.next (hf _ _ h2)) ?_
    dsimp only
    split
    · refine .next ?_
      split
      · exact hf _ _ (h _ _ _ (.signedBy h2))
      · exact h _ _ _ (.signedBy h2)
    · exact .next (hf _ _ (.after (State.objectEv_lasts ..) h2))

theorem State.amendmentEv_lasts (status entries first seq : Nat) (s : State) :
    Lasts G s (State.amendmentEv status entries first seq s) := by
  unfold State.amendmentEv
  exact .raise (.refl _)

theorem State.takeAmendment_lasts (a : Assembly) (o : Obj) (s : State) : Lasts1 G s (State.takeAmendment a o s) := by
  unfold State.takeAmendment
  extract_lets +onlyGivenNames _ _ _ f
  have hf : ∀ x u, Lasts G s u → Lasts1 G s (f x u) := fun _ _ h => Lasts1.mk (.after (State.amendmentEv_lasts ..) h)
  clear_value f
  refine Lasts1.ite (hf _ _ (.refl _)) (Lasts1.ite (hf _ _ (.refl _)) ?_)
  split
  · exact hf _ _ (.refl _)
  · extract_lets +onlyGivenNames _
    refine Lasts1.ite (hf _ _ (.refl _)) (Lasts1.ite (hf _ _ (.refl _)) ?_)
    split
    next s1 _ heq =>
    have h1 : Lasts G s s1 := .ofFst heq (State.journalAppend_lasts ..)
    exact Lasts1.ite (hf _ _ h1) (Lasts1.ite (Lasts1.mk (.onStw h1 fun _ => rfl)) (hf _ _ (.onStw h1 fun _ => rfl)))

theorem execAmendment_lasts (t : Nat) (s : State) : Answers (Lasts G s) (execAmendment t s) := by
  unfold execAmendment
  exact State.objRow_lasts (fun _ _ _ h => .after (State.takeAmendment_lasts ..) h)

theorem State.supersede_lasts (p : PendAmd) (s : State) : Lasts G s (State.supersede p s) := by
  unfold State.supersede
  extract_lets +onlyGivenNames _
  refine .ite (.refl _) ?_
  extract_lets +onlyGivenNames s1
  have h1 : Lasts G s s1 := .foldl (fun _ _ h => .after (State.surveyResult_lasts ..) h) (.refl _) _
  clear_value s1
  extract_lets +onlyGivenNames s2
  have h2 : Lasts G s s2 := .onStw h1 fun _ => rfl
  clear_value s2
  extract_lets +onlyGivenNames _ s3
  have h3 : Lasts G s s3 := .past (Keeps.survey ..) h2 rfl
  clear_value s3
  extract_lets +onlyGivenNames _
  exact .after (State.journalAppend_lasts ..) h3

theorem State.commitAmd_lasts (p : PendAmd) (s : State) : Lasts G s (State.commitAmd p s) := by
  unfold State.commitAmd
  extract_lets +onlyGivenNames s1
  have h1 : Lasts G s s1 := State.supersede_lasts ..
  clear_value s1
  extract_lets +onlyGivenNames _ s2
  have h2 : Lasts G s s2 := .same h1 rfl
  clear_value s2
  extract_lets +onlyGivenNames _
  exact .after (State.objAnswer_lasts ..) (.after (State.amendmentEv_lasts ..) h2)

theorem execAmendmentCommit_lasts (t : Nat) (s : State) : Answers (Lasts G s) (execAmendmentCommit t s) := by
  unfold execAmendmentCommit
  exact .ite (.next .tick) (.next (.past (Keeps.wake ..)
    (.past (State.cmpAmended_keeps ..) (.foldl (fun _ _ h => .after (State.commitAmd_lasts ..) h) .tick _) rfl) rfl))

theorem State.keyEv_lasts (gen action was : Nat) (s : State) : Lasts G s (State.keyEv gen action was s) := by
  unfold State.keyEv
  exact .raise (.refl _)

theorem State.holdKey_lasts (gen : Nat) (key : List Octet) (at_ : Option Int) (s : State) :
    Lasts G s (State.holdKey gen key at_ s) := by
  unfold State.holdKey
  extract_lets +onlyGivenNames _
  exact .ite (.after (State.keyEv_lasts ..) (.keeps (State.onFab_keeps ..) rfl))
    (.after (State.keyEv_lasts ..) (.ite (.after (State.keyEv_lasts ..)
    (.onStw (.keeps (State.onFab_keeps ..) rfl) fun _ => rfl)) (.onStw (.keeps (State.onFab_keeps ..) rfl) fun _ => rfl)))

theorem State.takeKey_lasts (a0 : Assembly) (o : Obj) (s : State) : Lasts1 G s (State.takeKey a0 o s) := by
  unfold State.takeKey
  extract_lets +onlyGivenNames _
  refine Lasts1.ite (Lasts1.mk (.refl _)) (Lasts1.ite (Lasts1.mk (.refl _)) ?_)
  split
  · exact Lasts1.mk (.refl _)
  · extract_lets +onlyGivenNames _
    exact Lasts1.mk (State.holdKey_lasts ..)

theorem execKeyDelivery_lasts (t : Nat) (s : State) : Answers (Lasts G s) (execKeyDelivery t s) := by
  unfold execKeyDelivery
  exact State.objRow_lasts (fun _ _ _ h => .after (State.takeKey_lasts ..) h)

theorem execKeyActivation_lasts (t : Nat) (s : State) : Answers (Lasts G s) (execKeyActivation t s) := by
  unfold execKeyActivation
  extract_lets +onlyGivenNames s1
  have h1 : Lasts G s s1 := .tick
  clear_value s1
  split
  · exact .next h1
  · exact .ite (.next h1) (.next (.after (State.keyEv_lasts ..)
      (.onStw (.past (State.onFab_keeps ..) h1 rfl) fun _ => rfl)))

theorem State.takeFuse_lasts (a : Assembly) (o : Obj) (s : State) : Lasts1 G s (State.takeFuse a o s) := by
  unfold State.takeFuse
  extract_lets +onlyGivenNames _
  split
  · exact Lasts.refl s
  · rename_i virgin
    obtain ⟨-, zero⟩ := not_or.mp virgin
    have blank : (nth s.stw.owners (num o.body 0 1)).state = 0 := Decidable.not_not.mp zero
    exact Lasts1.mk (.blow (.refl s) (Unblown.of_owners fun _ => ⟨blank ▸ Nat.zero_le _, Nat.le_of_ble_eq_true rfl⟩))

theorem execOwnerKeyFuse_lasts (t : Nat) (s : State) : Answers (Lasts G s) (execOwnerKeyFuse t s) := by
  unfold execOwnerKeyFuse
  exact State.objRow_lasts (fun _ _ _ h => .after (State.takeFuse_lasts ..) h)

theorem State.takeRevoke_lasts (a : Assembly) (o : Obj) (s : State) : Lasts1 G s (State.takeRevoke a o s) := by
  unfold State.takeRevoke
  extract_lets +onlyGivenNames _ _
  exact Lasts1.ite (.refl s) (Lasts1.mk (.blow (.refl s) (Unblown.of_owners fun two => ⟨two, Nat.le_refl _⟩)))

theorem execOwnerKeyRevoke_lasts (t : Nat) (s : State) : Answers (Lasts G s) (execOwnerKeyRevoke t s) := by
  unfold execOwnerKeyRevoke
  exact State.objRow_lasts (fun _ _ _ h => .after (State.takeRevoke_lasts ..) h)

theorem State.zeroKeys_lasts (s : State) : Lasts G s (State.zeroKeys s) := by
  unfold State.zeroKeys
  extract_lets -underBinder +onlyGivenNames -merge _ _ s1
  have h1 : Lasts G s s1 := .keeps (State.onFab_keeps ..) rfl
  clear_value s1
  extract_lets -underBinder +onlyGivenNames -merge s2
  have h2 : Lasts G s s2 := .onStw h1 fun _ => rfl
  clear_value s2
  exact .foldl (fun _ _ h => .after (State.keyEv_lasts ..) h) h2 _

theorem State.takeZeroise_lasts (a : Assembly) (o : Obj) (s : State) : Lasts1 G s (State.takeZeroise a o s) := by
  unfold State.takeZeroise
  extract_lets +onlyGivenNames _
  refine Lasts1.ite (.refl s) (Lasts1.ite (.refl s) ?_)
  extract_lets +onlyGivenNames s1
  have h1 : Lasts G s s1 := .after (State.beginFlush_lasts ..) (.after (State.zeroKeys_lasts ..) (.raise (.refl s)))
  clear_value s1
  exact Lasts1.mk (.ite (.blow h1 ⟨Nat.le_refl _, Nat.le_refl _, fun _ => rfl, Nat.le_refl _, fun _ two => ⟨Nat.le_refl _, two⟩⟩) h1)

theorem execZeroise_lasts (t : Nat) (s : State) : Answers (Lasts G s) (execZeroise t s) := by
  unfold execZeroise
  exact .ite (.next .tick) (State.objRow_lasts fun _ _ _ h => .after (State.takeZeroise_lasts ..) h)

theorem State.takeCommit_lasts (a0 : Assembly) (o : Obj) (s : State) : Lasts1 G s (State.takeCommit a0 o s) := by
  unfold State.takeCommit
  extract_lets +onlyGivenNames _
  exact Lasts1.ite (Lasts1.mk (.refl _)) (Lasts1.ite (Lasts1.mk (.refl _)) (Lasts1.mk (State.commitSlot_lasts ..)))

theorem execCommit_lasts (t : Nat) (s : State) : Answers (Lasts G s) (execCommit t s) := by
  unfold execCommit
  split
  · exact .next (.ite (.after (State.commitSlot_lasts ..) .tick) .tick)
  · exact State.objRow_lasts (fun _ _ _ h => .after (State.takeCommit_lasts ..) h)

theorem State.takeAttest_lasts (src : Nat) (keyless : Bool) (nonce : List Octet) (flags : Nat) (s : State) :
    Lasts G s (State.takeAttest src keyless nonce flags s) := by
  unfold State.takeAttest
  extract_lets +onlyGivenNames f
  have hf : ∀ x u, Lasts G s u → Lasts G s (f x u) := fun _ _ h => .raise (.past (State.updateStatus_keeps ..) h rfl)
  clear_value f
  extract_lets +onlyGivenNames _
  refine .ite (.refl _) (.ite (hf _ _ (.refl _)) (.ite (hf _ _ (.refl _)) (.ite (hf _ _ (.refl _)) ?_)))
  extract_lets +onlyGivenNames _
  exact .ite (.onStw (.refl _) fun _ => rfl) (.ite (.onStw (.refl _) fun _ => rfl) (hf _ _ (.refl _)))

theorem execAttestRequest_lasts (t src : Nat) (keyless : Bool) (nonce : List Octet) (flags : Nat) (s : State) :
    Answers (Lasts G s) (execAttestRequest t src keyless nonce flags s) := by
  unfold execAttestRequest
  exact .next (.after (State.takeAttest_lasts ..) .tick)

theorem execAttestSigned_lasts (t : Nat) (pass : Bool) (s : State) : Answers (Lasts G s) (execAttestSigned t pass s) := by
  unfold execAttestSigned
  extract_lets +onlyGivenNames s1
  have h1 : Lasts G s s1 := .tick
  clear_value s1
  split
  · exact .next h1
  · refine .ite (.next h1) (.ite ?_ (.next (.raise (.onStw (.past (State.sendReport_keeps ..) h1 rfl) fun _ => rfl))))
    split
    next _ s2 heq =>
    have h2 : Lasts G s s2 := .ofSnd heq (.past (State.free_keeps ..) h1 rfl)
    exact .next (.after (State.securityError_lasts ..) (.onStw h2 fun _ => rfl))

/-! ## Waking -/

theorem State.beginWaking_lasts (s : State) : Lasts G s (State.beginWaking s) := by
  unfold State.beginWaking
  extract_lets +onlyGivenNames s1
  have h1 : Lasts G s s1 := .after (State.beginFlush_lasts ..) (.after (State.holdMotion_lasts ..) (State.setMode_lasts ..))
  clear_value s1
  extract_lets +onlyGivenNames s2
  have h2 : Lasts G s s2 := .past (State.onWake_keeps ..) h1 rfl
  clear_value s2
  exact .ite (.after (State.resetEnd_lasts ..) h2) h2

theorem State.wakeStop_lasts (cause : Nat) (s : State) : Lasts G s (State.wakeStop cause s) := by
  unfold State.wakeStop
  exact .after (State.setMode_lasts ..) (.past (Keeps.mode ..) (.keeps (State.onWake_keeps ..) rfl) rfl)

theorem State.bareHalt_lasts (w : Option Container) (s : State) : Lasts G s (State.bareHalt w s) := by
  unfold State.bareHalt
  extract_lets +onlyGivenNames _ _ s1
  have h1 : Lasts G s s1 := .same (.refl _) rfl
  clear_value s1
  extract_lets +onlyGivenNames s2
  have h2 : Lasts G s s2 := .past (State.onWake_keeps ..) h1 rfl
  clear_value s2
  exact .after (State.wakeStop_lasts ..) (.ite (.past (State.fabricUp_keeps ..) h2 rfl) h2)

theorem State.rejectedEv_lasts (part cause : Nat) (sec : Option Nat) (sev : Nat) (s : State) :
    Lasts G s (State.rejectedEv part cause sec sev s) := by
  unfold State.rejectedEv
  split
  next _ s1 heq =>
  have h1 : Lasts G s s1 := .ofSnd heq (.keeps (State.free_keeps ..) rfl)
  split
  next _ s2 heq =>
  have h2 : Lasts G s s2 := .ofSnd heq (.past (State.free_keeps ..) h1 rfl)
  extract_lets +onlyGivenNames _ _ _
  exact .raise (.past (State.onWake_keeps ..) h2 rfl)

theorem State.bootFrom_lasts (s : State) : Lasts G s (State.bootFrom s) := by
  unfold State.bootFrom
  extract_lets +onlyGivenNames s1
  have h1 : Lasts G s s1 := .same (.refl _) rfl
  clear_value s1
  split
  · exact .past (State.onWake_keeps ..) h1 rfl
  · exact .after (State.bareHalt_lasts ..) (.after (State.rejectedEv_lasts ..) h1)

theorem State.fallback_lasts (k : Nat) (s : State) : Lasts G s (State.fallback k s) := by
  unfold State.fallback
  exact .after (State.bootFrom_lasts ..) (.after (State.updateEv_lasts ..) (.onStw (.refl _) fun _ => rfl))

theorem State.imageFails_lasts (part cause : Nat) (sec : Option Nat) (w : Option Container) (s : State) :
    Lasts G s (State.imageFails part cause sec w s) := by
  unfold State.imageFails
  exact .ite (.after (State.fallback_lasts ..) (State.rejectedEv_lasts ..))
    (.after (State.bareHalt_lasts ..) (State.rejectedEv_lasts ..))

theorem State.chooseSlot_lasts (s : State) : Lasts G s (State.chooseSlot s) := by
  unfold State.chooseSlot
  extract_lets +onlyGivenNames s1
  have h1 : Lasts G s s1 := .onStw (.refl _) fun _ => rfl
  clear_value s1
  split
  · exact .after (State.bootFrom_lasts ..) h1
  · exact .ite (.after (State.fallback_lasts ..) h1)
      (.after (State.updateEv_lasts ..) (.past (State.onWake_keeps ..) (.onStw h1 fun _ => rfl) rfl))

theorem State.identityFails_lasts (s : State) : Lasts G s (State.identityFails s) := by
  unfold State.identityFails
  exact .after (State.selfTestEv_lasts ..) (.onStw (.refl _) fun _ => rfl)

theorem State.ledgerWake_lasts (s : State) : Lasts G s (State.ledgerWake s) := by
  unfold State.ledgerWake
  exact .raise (.past (State.onFab_keeps ..) (.blow (.refl s)
    ⟨Nat.le_refl _, Nat.le_refl _, id, Nat.le_succ _, fun _ two => ⟨Nat.le_refl _, two⟩⟩) rfl)

theorem State.startWaking_lasts (failed : List Nat) (nor : NorFacts) (s : State) :
    Lasts G s (State.startWaking failed nor s) := by
  unfold State.startWaking
  extract_lets +onlyGivenNames s1
  have h1 : Lasts G s s1 := .keeps (State.onPins_keeps ..) rfl
  clear_value s1
  extract_lets +onlyGivenNames s2
  have h2 : Lasts G s s2 := .onStw h1 fun _ => rfl
  clear_value s2
  refine .ite (.after (State.wakeStop_lasts ..) (.after (State.securityError_lasts ..) h2)) ?_
  extract_lets +onlyGivenNames _ s3
  have h3 : Lasts G s s3 := .past (Keeps.clk ..) h2 rfl
  clear_value s3
  refine .ite (.after (State.wakeStop_lasts ..) (.foldl (fun _ _ h => .after (State.securityError_lasts ..) h) h3 _)) ?_
  extract_lets +onlyGivenNames s4
  have h4 : Lasts G s s4 := .ite (.after (State.identityFails_lasts ..) h3) h3
  clear_value s4
  extract_lets +onlyGivenNames s5
  have h5 : Lasts G s s5 := .after (State.ledgerWake_lasts ..) h4
  clear_value s5
  refine .ite (.after (State.wakeStop_lasts ..) h5) ?_
  extract_lets +onlyGivenNames s6
  have h6 : Lasts G s s6 := .past (State.onWake_keeps ..) h5 rfl
  clear_value s6
  exact .ite (.after (State.bareHalt_lasts ..) (.after (State.rejectedEv_lasts ..) h6))
    (.after (State.chooseSlot_lasts ..) h6)

theorem execWaking_lasts (t : Nat) (failed : List Nat) (nor : NorFacts) (s : State) :
    Answers (Lasts G s) (execWaking t failed nor s) := by
  unfold execWaking
  extract_lets +onlyGivenNames s1
  have h1 : Lasts G s s1 := .tick
  clear_value s1
  extract_lets +onlyGivenNames s2
  have h2 : Lasts G s s2 := .ite (.after (State.resetEnd_lasts ..) h1) h1
  clear_value s2
  exact .ite (.next h2) (.next (.after (State.startWaking_lasts ..) h2))

theorem execContainerChecked_lasts (t part : Nat) (c : Container) (s : State) :
    Answers (Lasts G s) (execContainerChecked t part c s) := by
  unfold execContainerChecked
  refine .ite ?_ (.ite ?_ (.next .tick))
  · extract_lets +onlyGivenNames s1
    have h1 : Lasts G s s1 := .onSlot .tick
    clear_value s1
    split
    · exact .next (.past (State.onWake_keeps ..) h1 rfl)
    · exact .next (.after (State.imageFails_lasts ..) h1)
  · extract_lets +onlyGivenNames s2
    have h2 : Lasts G s s2 := .onSlot .tick
    clear_value s2
    split
    · exact .next (.past (State.onWake_keeps ..) h2 rfl)
    · exact .next (.after (State.imageFails_lasts ..) h2)

theorem execContainerLoaded_lasts (t : Nat) (fw wb : List Octet) (s : State) :
    Answers (Lasts G s) (execContainerLoaded t fw wb s) := by
  unfold execContainerLoaded
  exact .ite (.next .tick) (.ite (.next (.after (State.imageFails_lasts ..) .tick))
    (.ite (.next (.after (State.imageFails_lasts ..) .tick))
    (.next (.past (State.onWake_keeps ..) (.past (State.withImage_keeps ..) .tick rfl) rfl))))

theorem execSectionCheck_lasts (t : Nat) (s : State) : Answers (Lasts G s) (execSectionCheck t s) := by
  unfold execSectionCheck
  refine .ite (.next .tick) ?_
  split
  · exact .next (.past (State.onWake_keeps ..) .tick rfl)
  · exact .next (.after (State.imageFails_lasts ..) .tick)

theorem State.skipEntry_lasts (e : JEntry) (reason status : Nat) (s : State) :
    Lasts G s (State.skipEntry e reason status s) := by
  unfold State.skipEntry
  exact .raise (.keeps (State.onWake_keeps ..) rfl)

theorem State.skipSurvey_lasts (e : JEntry) (reason : Nat) (s : State) : Lasts G s (State.skipSurvey e reason s) := by
  unfold State.skipSurvey
  split
  next _ s1 heq =>
  have h1 : Lasts G s s1 := .ofSnd heq (.past (State.learnTarget_keeps ..) (.keeps (State.onWake_keeps ..) rfl) rfl)
  exact .raise h1

theorem State.replayOne_lasts (last : Bool) (e : JEntry) (s : State) : Lasts G s (State.replayOne last e s) := by
  unfold State.replayOne
  extract_lets +onlyGivenNames _ _
  refine .ite (.refl _) (.ite (.ite (.keeps (State.onWake_keeps ..) rfl)
    (.ite (State.skipSurvey_lasts ..) (State.skipEntry_lasts ..))) (.ite (State.skipSurvey_lasts ..) (.ite (.refl _) ?_)))
  extract_lets +onlyGivenNames _
  refine .ite (.ite (State.skipSurvey_lasts ..) (State.skipEntry_lasts ..)) ?_
  extract_lets +onlyGivenNames s1
  have h1 : Lasts G s s1 := .same (.refl _) rfl
  clear_value s1
  extract_lets +onlyGivenNames s2
  have h2 : Lasts G s s2 := .past (State.onWake_keeps ..) h1 rfl
  clear_value s2
  exact .ite (.past (Keeps.survey ..) h2 rfl) (.onStw h2 fun _ => rfl)

theorem State.replay_lasts (s : State) : Lasts G s (State.replay s) := by
  unfold State.replay
  extract_lets +onlyGivenNames _
  exact .foldl (fun _ _ h => .after (State.replayOne_lasts ..) h) (.refl _) _

theorem State.stageZero_lasts (s : State) : Lasts G s (State.stageZero s) := by
  unfold State.stageZero
  extract_lets +onlyGivenNames s1
  have h1 : Lasts G s s1 := .keeps (State.onWake_keeps ..) rfl
  clear_value s1
  extract_lets +onlyGivenNames _ s2
  have h2 : Lasts G s s2 := h1.same rfl
  clear_value s2
  exact .past (State.fabricUp_keeps ..) (.past (State.terminate_keeps ..) (.ite (.vacate h2 fun _ => (by decide : (1 : Nat) ≠ 2)) h2) rfl) rfl

theorem execJournalReplay_lasts (t : Nat) (s : State) : Answers (Lasts G s) (execJournalReplay t s) := by
  unfold execJournalReplay
  exact .ite (.next .tick) (.next (.after (State.stageZero_lasts ..) (.after (State.replay_lasts ..) .tick)))

theorem State.takeActivate_lasts (a0 : Assembly) (o : Obj) (s : State) : Lasts1 G s (State.takeActivate a0 o s) := by
  unfold State.takeActivate
  extract_lets +onlyGivenNames _
  exact Lasts1.ite (Lasts1.mk (.refl _)) (Lasts1.ite (Lasts1.mk (.refl _))
    (Lasts1.mk (.after (State.updateEv_lasts ..) (.onStw (.onSlot (.refl _)) fun _ => rfl))))

theorem execActivate_lasts (t : Nat) (s : State) : Answers (Lasts G s) (execActivate t s) := by
  unfold execActivate
  refine .ite (.next .tick) ?_
  have taken : Answers (Lasts G s) (s.objRow t 2 (fun k g => k == 8 && g != 255) State.takeActivate) :=
    State.objRow_lasts fun _ _ _ h => .after (State.takeActivate_lasts ..) h
  obtain ⟨u, hu, hk⟩ := taken
  dsimp only
  rw [hu]
  exact .next (.ite (.after (State.beginWaking_lasts ..) hk) hk)

theorem State.unsignedStatus_virgin {s : State} {part : Nat} {o : Option Obj} (ok : s.unsignedStatus part o = 0) :
    (nth s.stw.owners 0).state = 0 := by
  unfold State.unsignedStatus at ok
  split at ok
  · cases ok
  · split at ok
    · cases ok
    · split at ok
      · cases ok
      · split at ok
        · cases ok
        · split at ok
          · cases ok
          · split at ok
            · cases ok
            next blank => exact Decidable.not_not.mp fun used => blank (.inr used)

theorem execUnsignedOwnerKey_lasts (t : Nat) (s : State) : Answers (Lasts G s) (execUnsignedOwnerKey t s) := by
  unfold execUnsignedOwnerKey
  extract_lets +onlyGivenNames s1
  have h1 : Lasts G s s1 := .tick
  clear_value s1
  split
  · exact .next h1
  · refine .ite (.next h1) ?_
    extract_lets +onlyGivenNames s2
    have h2 : Lasts G s s2 := .setAsm h1
    clear_value s2
    extract_lets +onlyGivenNames o st
    have virgin : st = 0 → (nth s2.stw.owners 0).state = 0 := fun st0 => by
      dsimp only [st] at st0
      split at st0
      · cases st0
      · split at st0
        · cases st0
        · exact State.unsignedStatus_virgin st0
    clear_value st o
    split
    next body =>
      have h3 : Lasts G s (s2.onStw fun w => { w with
          owners := w.owners.set 0 { state := 1, pk := sub body.body 8 64, lastSeq := 1 } }) :=
        h2.blow (.of_set (by rw [virgin rfl]; exact ⟨Nat.zero_le _, Nat.le_of_ble_eq_true rfl⟩))
      exact .next (.after (State.beginWaking_lasts ..) (.after (State.objAnswer_lasts ..) h3))
    · exact .next (.after (State.objAnswer_lasts ..) (.ite h2 (.after (State.objectEv_lasts ..) h2)))

theorem execSupplyUp_lasts (t : Nat) (s : State) : Answers (Lasts G s) (execSupplyUp t s) := by
  unfold execSupplyUp
  exact .ite (.next .tick) (.next (.past (State.onPins_keeps ..)
    (.past (State.onWake_keeps ..) (.after (State.restart_lasts ..) .tick) rfl) rfl))

theorem execNresetAssert_lasts (t : Nat) (s : State) : Answers (Lasts G s) (execNresetAssert t s) := by
  unfold execNresetAssert
  extract_lets +onlyGivenNames s1
  have h1 : Lasts G s s1 := .past (State.onWake_keeps ..) .tick rfl
  clear_value s1
  refine .ite (.next h1) ?_
  extract_lets +onlyGivenNames s2
  have h2 : Lasts G s s2 := .past (State.onWake_keeps ..)
    (.after (State.powerFlushBegin_lasts ..) (.after (State.holdMotion_lasts ..) (.after (State.dropChan_lasts ..) h1))) rfl
  clear_value s2
  exact .next (.ite (.after (State.resetEnd_lasts ..) h2) h2)

theorem execHoldFloor_lasts (t hold : Nat) (s : State) : Answers (Lasts G s) (execHoldFloor t hold s) := by
  unfold execHoldFloor
  exact .ite (.next .tick) (.next (.past (State.onPins_keeps ..)
    (.past (State.onPurse_keeps ..) (.past (State.onWake_keeps ..) (.after (State.restart_lasts ..) .tick) rfl) rfl) rfl))

end

end Sys2Proof.Machine

namespace Sys2Proof.Machine

/-! # What lasts through modes, received frames and the Stages (chapters 2, 18 and 20) -/

section
variable {G : Prop}

/-! ## Modes -/

theorem State.modeRefused_lasts (req reason car : Nat) (s : State) : Lasts G s (State.modeRefused req reason car s) := by
  unfold State.modeRefused
  exact .raise (.keeps (State.onMode_keeps ..) rfl)

theorem State.modeDecide_lasts (s : State) : Lasts G s (State.modeDecide s) := by
  unfold State.modeDecide
  extract_lets +onlyGivenNames _ _ _ a4 _
  clear_value a4
  split
  · extract_lets +onlyGivenNames s1
    have h1 : Lasts G s s1 := .ite (.refl _) (State.modeRefused_lasts ..)
    clear_value s1
    exact .past (State.onMode_keeps ..) h1 rfl
  · extract_lets +onlyGivenNames _
    exact .keeps (State.onMode_keeps ..) rfl

theorem State.takeModeCmd_lasts (c : ModeCmd) (s : State) : Lasts G s (State.takeModeCmd c s) := by
  unfold State.takeModeCmd
  extract_lets +onlyGivenNames f1
  have hf1 : ∀ x u, Lasts G s u → Lasts G s (f1 x u) := fun _ _ h => .past (State.reply_keeps ..)
    (.after (State.modeRefused_lasts ..) h) rfl
  clear_value f1
  extract_lets +onlyGivenNames f2
  have hf2 : ∀ u, Lasts G s u → Lasts G s (f2 u) := fun _ h => .past (State.reply_keeps ..) h rfl
  clear_value f2
  split
  · exact .ite (hf1 _ _ (.refl _)) (hf2 _ (.keeps (State.onMode_keeps ..) rfl))
  · exact hf2 _ (.keeps (State.onMode_keeps ..) rfl)
  · exact hf2 _ (.keeps (State.onMode_keeps ..) rfl)
  · exact .ite (hf2 _ (.keeps (State.onMode_keeps ..) rfl)) (hf1 _ _ (.refl _))
  · exact .keeps (State.reply_keeps ..) rfl

theorem State.takeModeCmds_lasts (s : State) : Lasts G s (State.takeModeCmds s) := by
  unfold State.takeModeCmds
  exact .foldl (fun _ _ h => .after (State.takeModeCmd_lasts ..) h) (.keeps (State.onMode_keeps ..) rfl) _

theorem State.recallEv_lasts (from_ dest : Nat) (s : State) : Lasts G s (State.recallEv from_ dest s) := by
  unfold State.recallEv
  exact .raise (.refl _)

theorem State.recallStage_lasts (s : State) : Lasts G s (State.recallStage s) := by
  unfold State.recallStage
  extract_lets +onlyGivenNames s1
  have h1 : Lasts G s s1 := .ite (.refl _) (.past (State.recallEnter_keeps ..) (.keeps (State.onMode_keeps ..) rfl) rfl)
  clear_value s1
  extract_lets +onlyGivenNames _ _ _ _ s2
  have h2 : Lasts G s s2 := .ite (.past (State.recallEnter_keeps ..)
    (.past (State.onMode_keeps ..) (.after (State.recallEv_lasts ..) h1) rfl) rfl)
    (.ite (.past (State.recallEnter_keeps ..) (.after (State.recallEv_lasts ..) h1) rfl) h1)
  clear_value s2
  extract_lets +onlyGivenNames s3
  have h3 : Lasts G s s3 := .ite h2 (.eachIx (fun _ _ h => .past (State.recallCar_keeps ..) h rfl) h2)
  clear_value s3
  extract_lets +onlyGivenNames s4
  have h4 : Lasts G s s4 := .ite (.past (State.onMode_keeps ..) h3 rfl) h3
  clear_value s4
  exact .ite (.past (State.onMode_keeps ..) h4 rfl) h4

theorem State.rescueEv_lasts (c ev : Nat) (dir : Int) (landing : Nat) (s : State) :
    Lasts G s (State.rescueEv c ev dir landing s) := by
  unfold State.rescueEv
  exact .raise (.refl _)

theorem State.rescueCar_lasts (c : Nat) (s : State) : Lasts G s (State.rescueCar c s) := by
  unfold State.rescueCar
  split
  · exact .refl _
  · extract_lets +onlyGivenNames _ _
    refine .ite (.after (State.rescueEv_lasts ..) (.keeps (State.onRescue_keeps ..) rfl))
      (.ite (.after (State.rescueEv_lasts ..) (.keeps (State.onRescue_keeps ..) rfl)) ?_)
    extract_lets +onlyGivenNames s1
    have h1 : Lasts G s s1 := .ite (.keeps (State.order_keeps ..) rfl) (.refl _)
    clear_value s1
    extract_lets +onlyGivenNames s2
    have h2 : Lasts G s s2 := .past (State.dropTrip_keeps ..) (.past (State.onCar_keeps ..) h1 rfl) rfl
    clear_value s2
    exact .after (State.rescueEv_lasts ..)
      (.past (State.onRescue_keeps ..) (.ite (.after (State.carState_lasts ..) h2) h2) rfl)

theorem State.rescueStage1_lasts (c : Nat) (s : State) : Lasts G s (State.rescueStage1 c s) := by
  unfold State.rescueStage1
  extract_lets +onlyGivenNames _
  split
  · exact .refl _
  · exact .ite (.refl _) (.ite (.ite (.refl _) (.keeps (State.onRescue_keeps ..) rfl))
      (.ite (.ite (.after (State.rescueEv_lasts ..) (.keeps (State.onRescue_keeps ..) rfl)) (.refl _))
      (.ite (.keeps (State.onRescue_keeps ..) rfl)
      (.ite (.ite (.keeps (State.onRescue_keeps ..) rfl) (.keeps (State.askDoors_keeps ..) rfl))
      (.ite (.keeps (State.onRescue_keeps ..) rfl) (.refl _))))))

theorem State.rescueStage_lasts (s : State) : Lasts G s (State.rescueStage s) := by
  unfold State.rescueStage
  extract_lets +onlyGivenNames s1
  have h1 : Lasts G s s1 := .eachIx (fun _ _ h => .after (State.rescueStage1_lasts ..) h) (.refl _)
  clear_value s1
  exact .ite (.after (State.rescueEv_lasts ..) (.past (State.onMode_keeps ..) h1 rfl)) h1

theorem execRescue_lasts (t car : Nat) (s : State) : Answers (Lasts G s) (execRescue t car s) := by
  unfold execRescue
  refine .ite (.next .tick) ?_
  extract_lets +onlyGivenNames _
  split
  · exact .next .tick
  · refine .ite (.next .tick) ?_
    extract_lets +onlyGivenNames _ _ _ _
    split
    · exact .next .tick
    · extract_lets +onlyGivenNames _ s1
      have h1 : Lasts G s s1 := .past (State.onRescue_keeps ..) .tick rfl
      clear_value s1
      exact .next (.after (State.rescueEv_lasts ..) (.past (State.onCar_keeps ..) h1 rfl))

theorem State.modeKernel_lasts (s : State) : Lasts G s (State.modeKernel s) := by
  unfold State.modeKernel
  refine .ite (.refl _) ?_
  extract_lets +onlyGivenNames s1
  have h1 : Lasts G s s1 := State.takeModeCmds_lasts ..
  clear_value s1
  extract_lets +onlyGivenNames s2
  have h2 : Lasts G s s2 := by
    dsimp -zeta only [s2]
    split
    · exact .eachIx (fun _ _ h => .past (State.inspCar_keeps ..) h rfl) h1
    · exact .after (State.recallStage_lasts ..) h1
    · exact .after (State.rescueStage_lasts ..) h1
    · exact h1
  clear_value s2
  exact .after (State.modeDecide_lasts ..) h2

theorem State.modeEffect_lasts (m cause : Nat) (s : State) : Lasts G s (State.modeEffect m cause s) := by
  unfold State.modeEffect
  extract_lets +onlyGivenNames _ s1
  have h1 : Lasts G s s1 := .ite (.keeps (State.onMode_keeps ..) rfl) (.refl _)
  clear_value s1
  extract_lets +onlyGivenNames s2
  have h2 : Lasts G s s2 := .after (State.setMode_lasts ..) h1
  clear_value s2
  extract_lets +onlyGivenNames s3
  have h3 : Lasts G s s3 := .ite (.eachIx (fun _ _ h => .after (State.orderSs1_lasts ..) h) h2)
    (.eachIx (fun _ _ h => .ite (.past (State.order_keeps ..) h rfl) h) h2)
  clear_value s3
  extract_lets +onlyGivenNames s4
  have h4 : Lasts G s s4 := .ite (.eachIx (fun _ _ h => .after (State.doorHalt_lasts ..) h) h3) h3
  clear_value s4
  extract_lets +onlyGivenNames s5
  have h5 : Lasts G s s5 := .ite (.past (State.onMode_keeps ..) (.after (State.recallEv_lasts ..) h4) rfl) h4
  clear_value s5
  extract_lets +onlyGivenNames s6
  have h6 : Lasts G s s6 := .ite (.past (State.onMode_keeps ..) h5 rfl) h5
  clear_value s6
  extract_lets +onlyGivenNames s7
  have h7 : Lasts G s s7 := .ite (.past (State.onMode_keeps ..) h6 rfl) h6
  clear_value s7
  extract_lets +onlyGivenNames s8
  have h8 : Lasts G s s8 := .ite (.past (State.betweenCars_keeps ..) h7 rfl) h7
  clear_value s8
  extract_lets +onlyGivenNames s9
  have h9 : Lasts G s s9 := .ite (.eachIx (fun _ _ h => .after (State.rescueCar_lasts ..) h)
    (.past (State.onMode_keeps ..) h8 rfl)) h8
  clear_value s9
  split
  · exact .after (State.commitSlot_lasts ..) h9
  · exact h9

theorem State.modeBoundary_lasts (done : Bool) (s : State) : Lasts G s (State.modeBoundary done s) := by
  unfold State.modeBoundary
  extract_lets +onlyGivenNames s1
  have h1 : Lasts G s s1 := .keeps (State.haltBoundary_keeps ..) rfl
  clear_value s1
  extract_lets +onlyGivenNames s2
  have h2 : Lasts G s s2 := .ite (.past (State.onMode_keeps ..) h1 rfl) (.ite (.after (State.modeEffect_lasts ..) h1) h1)
  clear_value s2
  extract_lets +onlyGivenNames _
  exact .past (State.onMode_keeps ..) h2 rfl

theorem execLodgeEntry_lasts (t : Nat) (s : State) : Answers (Lasts G s) (execLodgeEntry t s) := by
  unfold execLodgeEntry
  exact .ite (.next .tick) (.next (.raise
    (.after (State.driveOuts_lasts ..) (.after (State.driveOuts_lasts ..)
    (.eachIx (fun _ _ h => .past (State.gatesOff_keeps ..) h rfl)
    (.same (.past (State.onPins_keeps ..)
    (.past (State.onMode_keeps ..) (.after (State.modeEffect_lasts ..) .tick) rfl) rfl) rfl))))))

theorem State.lodgeWakes_lasts (source input : Nat) (s : State) : Lasts G s (State.lodgeWakes source input s) := by
  unfold State.lodgeWakes
  refine .raise (.past (State.onMode_keeps ..)
    (.past (State.lapseAll_keeps ..) (.ite (.refl _) (.eachIx (fun _ _ h => ?_) (.refl _))) rfl) rfl)
  extract_lets +onlyGivenNames s1
  have h1 : Lasts G s s1 := .ite (.past (State.setHomed_keeps ..) h rfl) h
  clear_value s1
  exact .ite (.past (State.onHomeKept_keeps ..) h1 rfl) h1

theorem execLodgeWake_lasts (t source input : Nat) (s : State) : Answers (Lasts G s) (execLodgeWake t source input s) := by
  unfold execLodgeWake
  exact .ite (.next .tick) (.ite (.next (.past (State.onMode_keeps ..) .tick rfl))
    (.next (.after (State.lodgeWakes_lasts ..) .tick)))

theorem State.wakingEnds_lasts (s : State) : Lasts G s (State.wakingEnds s) := by
  unfold State.wakingEnds
  exact .after (State.modeEffect_lasts ..)
    (.past (State.onMode_keeps ..) (.raise (.past (State.onMode_keeps ..) (.keeps (State.onWake_keeps ..) rfl) rfl)) rfl)

theorem execReleaseOutputs_lasts (t : Nat) (s : State) : Answers (Lasts G s) (execReleaseOutputs t s) := by
  unfold execReleaseOutputs
  exact .ite (.next .tick) (.ite (.next (.after (State.driveOuts_lasts ..) (.after (State.wakingEnds_lasts ..) .tick)))
    (.ite (.next (.after (State.driveOuts_lasts ..) (.past (State.onMode_keeps ..) .tick rfl))) (.next .tick)))

theorem execWakingTimeout_lasts (t : Nat) (s : State) : Answers (Lasts G s) (execWakingTimeout t s) := by
  unfold execWakingTimeout
  extract_lets +onlyGivenNames s1
  have h1 : Lasts G s s1 := .tick
  clear_value s1
  extract_lets +onlyGivenNames _ _
  exact .ite (.next h1) (.next (.after (State.modeEffect_lasts ..)
    (.past (State.onMode_keeps ..) (.past (State.onWake_keeps ..) h1 rfl) rfl)))

/-! ## The window and the service port -/

theorem State.serveRead_lasts (x : State × Bool) (r : HeldRead) : Lasts1 G x.1 (State.serveRead x r) := by
  obtain ⟨s, full⟩ := x
  unfold State.serveRead
  have held : Lasts G s (s.onWin (fun w => { w with reads := w.reads ++ [r] })) := .keeps (State.onWin_keeps ..) rfl
  have failed (k : Nat) : Lasts G s (s.readError r.src r.read k) := .keeps (State.readError_keeps ..) rfl
  have served (f : Win → Win) (m : Msg) : Lasts G s ((s.onWin f).sendTo r.src m) :=
    .past (State.sendTo_keeps ..) (.keeps (State.onWin_keeps ..) rfl) rfl
  exact Lasts1.ite (Lasts1.ite held (Lasts1.ite (failed _) (Lasts1.ite (served _ _) (failed _))))
    (Lasts1.ite held (Lasts1.ite held (served _ _)))

theorem execWindowReadServe_lasts (t : Nat) (s : State) : Answers (Lasts G s) (execWindowReadServe t s) := by
  unfold execWindowReadServe
  exact .ite (.next .tick) (.next (Lasts1.foldl (fun _ _ h => .after (State.serveRead_lasts ..) h)
    (Lasts1.mk (.past (State.onWin_keeps ..) (.past (State.idleServe_keeps ..) .tick rfl) rfl)) _))

theorem State.clearDoor_lasts (d : Nat) (s : State) : Lasts G s (State.clearDoor d s) := by
  unfold State.clearDoor
  exact .ite (.refl _) (.after (State.doorState_lasts ..) (.keeps (State.onDoor_keeps ..) rfl))

theorem State.clearCar_lasts (c : Nat) (s : State) : Lasts G s (State.clearCar c s) := by
  unfold State.clearCar
  exact .ite (.keeps (State.onCar_keeps ..) rfl)
    (.after (State.carState_lasts ..) (.past (State.setOut_keeps ..)
    (.past (State.onCar_keeps ..) (.keeps (State.onCar_keeps ..) rfl) rfl) rfl))

theorem State.clearFaults_lasts (s : State) : Lasts1 G s (State.clearFaults s) := by
  unfold State.clearFaults
  extract_lets +onlyGivenNames s1
  have h1 : Lasts G s s1 :=
    .eachIx (fun _ _ h => .ite (.past (State.lapse_keeps ..) (.past (State.clearFb_keeps ..) h rfl) rfl) h) (.refl s)
  clear_value s1
  extract_lets +onlyGivenNames s2
  have h2 : Lasts G s s2 := .eachIx (fun _ _ h => .past (State.clearEmu_keeps ..) h rfl) h1
  clear_value s2
  extract_lets +onlyGivenNames s3
  have h3 : Lasts G s s3 := .eachIx (fun _ _ h => .past (State.clearCur_keeps ..) h rfl) h2
  clear_value s3
  extract_lets +onlyGivenNames s4
  have h4 : Lasts G s s4 := .eachIx (fun _ _ h => .past (State.clearAxis_keeps ..) h rfl) h3
  clear_value s4
  extract_lets +onlyGivenNames s5
  have h5 : Lasts G s s5 := .eachIx (fun _ _ h => .after (State.clearDoor_lasts ..) h) h4
  clear_value s5
  extract_lets +onlyGivenNames s6
  have h6 : Lasts G s s6 := .eachIx (fun _ _ h => .after (State.clearCar_lasts ..) h) h5
  clear_value s6
  extract_lets +onlyGivenNames s7
  have h7 : Lasts G s s7 := .eachIx (fun _ _ h => .past (State.clearXd_keeps ..) h rfl) h6
  clear_value s7
  split
  next s8 _ heq =>
    exact Lasts1.mk (.past (State.clearHalt_keeps ..) (.ofFst heq (.after (State.safetyReset_lasts ..) h7)) rfl)
  next s8 heq => exact Lasts1.mk (.ofFst heq (.after (State.safetyReset_lasts ..) h7))

theorem State.takeClearFault_lasts (o : Origin) (s : State) : Lasts G s (State.takeClearFault o s) := by
  unfold State.takeClearFault
  extract_lets +onlyGivenNames _
  refine .ite (.keeps (State.reply_keeps ..) rfl) ?_
  split
  next s1 _ heq =>
  have h1 : Lasts G s s1 := .ofFst heq (Lasts1.ite (State.clearFaults_lasts ..) (Lasts1.mk (.refl _)))
  exact .past (State.reply_keeps ..) (.ite (.after (State.rejoin_lasts ..) h1) h1) rfl

theorem State.takeSetTime_lasts (o : Origin) (site : Int) (s : State) : Lasts G s (State.takeSetTime o site s) := by
  unfold State.takeSetTime
  exact .ite (.keeps (State.reply_keeps ..) rfl)
    (.past (State.reply_keeps ..) (.after (State.timeStep_lasts ..)
    (.past (State.onTime_keeps ..) (.keeps (State.setSite_keeps ..) rfl) rfl)) rfl)

theorem State.takeWrite_lasts (o : Origin) (addr width value : Nat) (s : State) :
    Lasts G s (State.takeWrite o addr width value s) := by
  unfold State.takeWrite
  extract_lets +onlyGivenNames f
  have hf : ∀ u, Lasts G s u → Lasts G s (f u) := fun _ h => .past (Keeps.disp ..) h rfl
  clear_value f
  refine .ite (.past (State.reply_keeps ..) (.ite (hf _ (.refl _)) (.refl _)) rfl)
    (.ite ?_ (.ite (.past (State.reply_keeps ..) (State.setReadFrom_lasts ..) rfl) (.keeps (State.reply_keeps ..) rfl)))
  extract_lets +onlyGivenNames s1
  have h1 : Lasts G s s1 := .ite (State.nevtAck_lasts ..) (.refl _)
  clear_value s1
  exact .past (State.reply_keeps ..) (.ite (.after (State.beginFlush_lasts ..) h1) h1) rfl

theorem State.mbArrive_lasts (src : Nat) (pair : Bool) (id eff : Nat) (c : MbCmd) (s : State) :
    Lasts G s (State.mbArrive src pair id eff c s) := by
  unfold State.mbArrive
  split
  · exact .keeps (State.replyAgain_keeps ..) rfl
  · refine .ite (.refl _) ?_
    extract_lets +onlyGivenNames _ _ a3 f
    have hf : ∀ u, Lasts G s u → Lasts G s (f u) := by
      intro _ h
      dsimp -zeta only [f]
      clear_value a3
      split
      · exact .after (State.modeRefused_lasts ..) h
      · exact h
    clear_value f
    exact .ite (.keeps (State.mbAnswer_keeps ..) rfl)
      (.ite (.keeps (State.mbAnswer_keeps ..) rfl)
      (.ite (.past (State.mbAnswer_keeps ..) (hf _ (.refl _)) rfl)
      (.ite (.past (State.mbAnswer_keeps ..) (hf _ (.refl _)) rfl)
      (.ite (.keeps (State.mbAnswer_keeps ..) rfl) (.keeps (State.onWin_keeps ..) rfl)))))

theorem State.mbGive_lasts (o : Origin) (c : MbCmd) (s : State) : Lasts G s (State.mbGive o c s) := by
  unfold State.mbGive
  split
  · exact .ite (.keeps (State.reply_keeps ..) rfl) (State.offerAxis_lasts ..)
  · exact .ite (.keeps (State.reply_keeps ..) rfl) (State.offerPath_lasts ..)
  · exact .ite (.keeps (State.reply_keeps ..) rfl) (.keeps (State.onMode_keeps ..) rfl)
  · exact State.takeClearFault_lasts ..
  · exact State.takeLearn_lasts ..
  · exact .keeps (State.takeBrakeTest_keeps ..) rfl
  · exact State.takeSwitch_lasts ..
  · exact State.takeHoldTest_lasts ..
  · split
    next _ s1 heq =>
    have h1 : Lasts G s s1 := .ofSnd heq (.keeps (State.free_keeps ..) rfl)
    exact .after (State.takeSelfTest_lasts ..) h1
  · exact .past (State.reply_keeps ..) (State.beginFlush_lasts ..) rfl
  · exact State.takeSetTime_lasts ..
  · exact State.takeWrite_lasts ..
  · exact .keeps (State.reply_keeps ..) rfl

theorem State.mbBoundary_lasts (s : State) : Lasts G s (State.mbBoundary s) := by
  unfold State.mbBoundary
  refine .ite (.refl _) ?_
  extract_lets +onlyGivenNames _ _
  exact .foldl (fun _ _ h => .after (State.mbGive_lasts ..) (.past (State.noteTaken_keeps ..) h rfl))
    (.keeps (State.onWin_keeps ..) rfl) _

theorem State.mbRow_lasts {s : State} {t src id : Nat} {c : MbCmd} {give : Origin → State → State}
    (h : ∀ o x, Lasts G s x → Lasts G s (give o x)) : Answers (Lasts G s) (s.mbRow t src id c give) := by
  unfold State.mbRow
  extract_lets +onlyGivenNames s1
  have h1 : Lasts G s s1 := .tick
  clear_value s1
  split
  · exact .next (.past (State.replyAgain_keeps ..) h1 rfl)
  · exact .next (h _ _ (.past (State.noteTaken_keeps ..) h1 rfl))

theorem execLearn_lasts (t src id kind target step : Nat) (s : State) :
    Answers (Lasts G s) (execLearn t src id kind target step s) := by
  unfold execLearn
  exact State.mbRow_lasts (fun _ _ h => .after (State.takeLearn_lasts ..) h)

theorem execBrakeTest_lasts (t src id axis : Nat) (s : State) : Answers (Lasts G s) (execBrakeTest t src id axis s) := by
  unfold execBrakeTest
  exact State.mbRow_lasts (fun _ _ h => .past (State.takeBrakeTest_keeps ..) h rfl)

theorem execClearFault_lasts (t src id : Nat) (s : State) : Answers (Lasts G s) (execClearFault t src id s) := by
  unfold execClearFault
  exact State.mbRow_lasts (fun _ _ h => .after (State.takeClearFault_lasts ..) h)

theorem execSwitch_lasts (t src id : Nat) (s : State) : Answers (Lasts G s) (execSwitch t src id s) := by
  unfold execSwitch
  exact State.mbRow_lasts (fun _ _ h => .after (State.takeSwitch_lasts ..) h)

theorem execHoldTest_lasts (t src id : Nat) (s : State) : Answers (Lasts G s) (execHoldTest t src id s) := by
  unfold execHoldTest
  exact State.mbRow_lasts (fun _ _ h => .after (State.takeHoldTest_lasts ..) h)

theorem execSelfTest_lasts (t src id : Nat) (pass : Bool) (s : State) : Answers (Lasts G s) (execSelfTest t src id pass s) := by
  unfold execSelfTest
  exact State.mbRow_lasts (fun _ _ h => .after (State.takeSelfTest_lasts ..) h)

theorem execFlush_lasts (t src id : Nat) (s : State) : Answers (Lasts G s) (execFlush t src id s) := by
  unfold execFlush
  exact State.mbRow_lasts (fun _ _ h => .past (State.reply_keeps ..) (.after (State.beginFlush_lasts ..) h) rfl)

theorem execSetTime_lasts (t src id : Nat) (site : Int) (s : State) : Answers (Lasts G s) (execSetTime t src id site s) := by
  unfold execSetTime
  exact State.mbRow_lasts (fun _ _ h => .after (State.takeSetTime_lasts ..) h)

theorem execWrite_lasts (t src id addr width value : Nat) (s : State) :
    Answers (Lasts G s) (execWrite t src id addr width value s) := by
  unfold execWrite
  exact State.mbRow_lasts (fun _ _ h => .after (State.takeWrite_lasts ..) h)

theorem execModeCommand_lasts (t src id target eff : Nat) (s : State) :
    Answers (Lasts G s) (execModeCommand t src id target eff s) := by
  unfold execModeCommand
  exact .next (.after (State.mbArrive_lasts ..) .tick)

theorem State.svcTake_lasts (m : Msg) (s : State) : Lasts G s (State.svcTake m s) := by
  unfold State.svcTake
  split
  · exact .keeps (State.takeRead_keeps ..) rfl
  · exact State.mbArrive_lasts ..
  · split
    · exact State.takeChunk_lasts ..
    · exact .refl _
  · exact State.takeAttest_lasts ..
  · exact .refl _

theorem execServiceWriteTransaction_lasts (t op len crc : Nat) (m : Msg) (s : State) :
    Answers (Lasts G s) (execServiceWriteTransaction t op len crc m s) := by
  unfold execServiceWriteTransaction
  extract_lets +onlyGivenNames s1
  have h1 : Lasts G s s1 := .tick
  clear_value s1
  extract_lets +onlyGivenNames _
  exact .ite (.next h1) (.ite (.next (.past (State.onWin_keeps ..) h1 rfl))
    (.ite (.next (.past (State.onWin_keeps ..) h1 rfl)) (.ite (.next (.after (State.svcTake_lasts ..) h1)) (.next h1))))

/-! ## Frames received -/

theorem State.messageEvents_lasts (f : Frame) (s : State) : Lasts G s (State.messageEvents f s) := by
  unfold State.messageEvents
  refine .ite (State.waitEvent_lasts ..) ?_
  split
  · exact .past (State.fabArrive_keeps ..) (State.waitEvent_lasts ..) rfl
  · exact (State.waitEvent_lasts ..)

theorem State.consume_lasts (f : Frame) (s : State) (may : ∀ h a n l x q, f.msg = .leaseGrant h a n 0 l x q → G) :
    Lasts G s (State.consume f s) := by
  unfold State.consume
  extract_lets +onlyGivenNames _ s1
  have h1 : Lasts G s s1 := .ite (.keeps (State.onMode_keeps ..) rfl) (.refl s)
  clear_value s1
  extract_lets +onlyGivenNames s2
  have h2 : Lasts G s s2 := .after (State.messageEvents_lasts ..) h1
  clear_value s2
  split
  · exact .after (State.takeSeal_lasts ..) h2
  · exact .after (State.takePdu_lasts ..) h2
  · exact .after (State.offerAxis_lasts ..) h2
  · exact .after (State.offerPath_lasts ..) h2
  · exact .past (State.takeXdStatus_keeps ..) h2 rfl
  · exact .after (State.takeLeaseRequest_lasts ..) h2
  next msg =>
    exact .after (State.takeLeaseGrant_lasts (may := fun z => may _ _ _ _ _ _ (z ▸ msg)) ..) h2
  · exact .after (State.takeLeaseRelease_lasts ..) h2
  · exact .past (State.takeCall_keeps ..) h2 rfl
  · exact .past (State.takeOpen_keeps ..) h2 rfl
  · exact .after (State.takeBids_lasts ..) h2
  · exact .past (State.takeAssign_keeps ..) h2 rfl
  · exact .after (State.takeAnswer_lasts ..) h2
  · exact .past (State.takeCancel_keeps ..) h2 rfl
  · exact .past (State.takeEnergy_keeps ..) h2 rfl
  · exact .past (State.takeRead_keeps ..) h2 rfl
  · exact .after (State.mbArrive_lasts ..) h2
  · split
    · exact .after (State.takeChunk_lasts ..) h2
    · exact h2
  · exact .after (State.takeAttest_lasts ..) h2
  · exact h2

theorem State.loopBoundary_lasts (may : G) (s : State) : Lasts G s (State.loopBoundary s) := by
  unfold State.loopBoundary
  exact .foldl (fun _ _ h => .after (State.consume_lasts (may := fun _ _ _ _ _ _ _ => may) ..) h) (.keeps (State.onFab_keeps ..) rfl) _

theorem State.acceptFrame_lasts (p unit : Nat) (f : Frame) (s : State) (may : ∀ h a n l x q, f.msg = .leaseGrant h a n 0 l x q → G) :
    Lasts G s (State.acceptFrame p unit f s) := by
  unfold State.acceptFrame
  extract_lets +onlyGivenNames s1
  have h1 : Lasts G s s1 := .past (State.onPort_keeps ..) (.keeps (State.noteSource_keeps ..) rfl) rfl
  have consumed : Lasts G s (s1.consume f) := .after (State.consume_lasts (may := may) ..) h1
  clear_value s1
  split
  · exact .after (State.takeHello_lasts ..) (.after (State.messageEvents_lasts ..) h1)
  · exact .after (State.messageEvents_lasts ..) h1
  · exact .ite (.past (State.giveBack_keeps ..) consumed rfl) (.past (State.relay_keeps ..) (.ite consumed h1) rfl)

theorem execCysinFrame_lasts (t port from_ : Nat) (f : Frame) (s : State)
    (may : ∀ h a n l x q, f.msg = .leaseGrant h a n 0 l x q → G) : Answers (Lasts G s) (execCysinFrame t port from_ f s) := by
  unfold execCysinFrame
  refine .ite (.next .tick) ?_
  extract_lets +onlyGivenNames _ verdict _ _ s1
  have h1 : Lasts G s s1 := .past (State.onPeer_keeps ..) .tick rfl
  clear_value s1
  extract_lets +onlyGivenNames s2
  have h2 : Lasts G s s2 := .ite (.past (State.useCredit_keeps ..) h1 rfl) h1
  clear_value s2
  extract_lets +onlyGivenNames free
  have freed : ∀ x, Lasts G s x → Lasts G s (free x) := fun _ h => .ite (.past (State.giveBack_keeps ..) h rfl) h
  clear_value free
  extract_lets +onlyGivenNames counts
  have counted : Lasts G s (counts s2) := .past (State.takeCredit_keeps ..) h2 rfl
  clear_value counts verdict
  split
  · exact .next (.after (State.frameRejected_lasts ..) (freed _ counted))
  · exact .next (.after (State.frameRejected_lasts ..) (freed _ h2))
  · exact .next (freed _ counted)
  · exact .next (.after (State.idConflict_lasts ..) (freed _ counted))
  · exact .next (.past (State.onPort_keeps ..) (freed _ counted) rfl)
  · exact .next (.after (State.acceptFrame_lasts (may := may) ..) counted)

/-! ## Stages -/

theorem State.commitHome_lasts (done : List Bool) (a : Nat) (s : State) : Lasts G s (State.commitHome done a s) := by
  unfold State.commitHome
  exact .ite (State.homeCommit_lasts ..) (.refl _)

theorem State.closeStage_lasts (s : State) : Lasts G s (State.closeStage s) := by
  unfold State.closeStage
  exact .eachIx (fun _ _ h => .after (State.commitHome_lasts ..) h)
    (.past (State.mbDeliver_keeps ..) (.past (State.stallBoundary_keeps ..)
    (.past (State.stallBoundary_keeps ..)
    (.after (State.heldBoundary_lasts ..)
    (.after (State.dispBoundary_lasts ..)
    (.eachIx (fun _ _ h => .past (State.settleGroup_keeps ..) h rfl)
    (.eachIx (fun _ _ h => .past (State.settleAxis_keeps ..) h rfl)
    (.past (State.unshow_keeps ..) (.ite (.refl _) (State.endSweep_lasts ..)) rfl))))) rfl) rfl) rfl)

theorem State.alignAt_lasts (e m : Int) (s : State) : Lasts G s (State.alignAt e m s) := by
  unfold State.alignAt
  exact .ite (.after (State.unaligned_lasts ..)
    (.ite (.raise (.ite (.raise (.keeps (Keeps.stage ..) rfl)) (.keeps (Keeps.stage ..) rfl)))
    (.ite (.raise (.keeps (Keeps.stage ..) rfl)) (.keeps (Keeps.stage ..) rfl))))
    (.ite (.raise (.ite (.raise (.keeps (Keeps.stage ..) rfl)) (.keeps (Keeps.stage ..) rfl)))
    (.ite (.raise (.keeps (Keeps.stage ..) rfl)) (.keeps (Keeps.stage ..) rfl)))

theorem State.nextStage_lasts (s : State) : Lasts G s (State.nextStage s) := by
  unfold State.nextStage
  refine .ite ?_ (.ite (.after (State.unaligned_lasts ..) (.keeps (Keeps.stage ..) rfl)) (.keeps (Keeps.stage ..) rfl))
  extract_lets +onlyGivenNames _
  exact State.alignAt_lasts ..

theorem State.openStage_lasts (t : Nat) (s : State) : Lasts G s (State.openStage t s) := by
  unfold State.openStage
  exact .ite (.past (Keeps.stage ..) (.keeps (Keeps.stage ..) rfl) rfl)
    (.after (State.nextStage_lasts ..) (.keeps (Keeps.stage ..) rfl))

theorem State.latchAll_lasts (t : Nat) (conv : List (List Int)) (s : State) : Lasts G s (State.latchAll t conv s) := by
  unfold State.latchAll
  exact .eachIx (fun _ _ h => .past (State.cmpBoundary_keeps ..) h rfl)
    (.eachIx (fun _ _ h => .past (State.capBoundary_keeps ..) h rfl)
    (.eachIx (fun _ _ h => .after (State.emuBoundary_lasts ..) h)
    (.eachIx (fun _ _ h => .past (State.keepDin_keeps ..) h rfl)
    (.eachIx (fun _ _ h => .past (State.keepAt_keeps ..) h rfl)
    (.eachIx (fun _ _ h => .past (State.measure_keeps ..) h rfl)
    (.eachIx (fun _ _ h => .after (State.ainTake_lasts ..) h)
    (.past (State.latchTemp_keeps ..) (.past (State.latchDin_keeps ..)
    (.eachIx (fun _ _ h => .after (State.latchFb_lasts ..) h) (.refl _)) rfl) rfl)))))))

theorem State.torqueOff_lasts (a : Nat) (s : State) : Lasts G s (State.torqueOff a s) := by
  unfold State.torqueOff
  extract_lets +onlyGivenNames s1
  have h1 : Lasts G s s1 := State.homeFail_lasts ..
  clear_value s1
  extract_lets +onlyGivenNames s2
  have h2 : Lasts G s s2 := .ite (.after (State.pathBreak_lasts ..) h1) h1
  clear_value s2
  extract_lets +onlyGivenNames s3
  have h3 : Lasts G s s3 := by
    dsimp -zeta only [s3]
    split
    · exact .after (State.setGc_lasts ..) h2
    · exact h2
  clear_value s3
  exact .past (State.onAx_keeps ..) h3 rfl

theorem State.axisOut_lasts (a : Nat) (s : State) : Lasts G s (State.axisOut a s) := by
  unfold State.axisOut
  extract_lets +onlyGivenNames s1
  have h1 : Lasts G s s1 := .keeps (Keeps.axPrevRef ..) rfl
  clear_value s1
  extract_lets +onlyGivenNames s2
  have h2 : Lasts G s s2 := .ite (.after (State.torqueOff_lasts ..) h1) h1
  clear_value s2
  exact .past (Keeps.axe ..) (.ite h2 (.past (State.onStop_keeps ..) h2 rfl)) rfl

theorem State.takeOrder_lasts (a : Nat) (s : State) : Lasts G s (State.takeOrder a s) := by
  unfold State.takeOrder
  extract_lets +onlyGivenNames _ s1
  have h1 : Lasts G s s1 := .keeps (State.onBook_keeps ..) rfl
  clear_value s1
  extract_lets +onlyGivenNames s2
  have h2 : Lasts G s s2 := by
    dsimp -zeta only [s2]
    split
    · exact .after (State.pathBreak_lasts ..) h1
    · exact .after (State.pathBreak_lasts ..) h1
    · exact .after (State.pathBreak_lasts ..) h1
    · exact h1
  clear_value s2
  split
  · exact h2
  · exact .ite h2 (.past (State.onAx_keeps ..) (.ite h2 (.after (State.homeFail_lasts ..) h2)) rfl)

theorem State.watchTest_lasts (s : State) : Lasts G s (State.watchTest s) := by
  unfold State.watchTest
  split
  · exact .refl _
  · extract_lets +onlyGivenNames _
    exact .ite (.keeps (State.onTest_keeps ..) rfl) (State.abortTest_lasts ..)

theorem State.currents_lasts (t : Nat) (s : State) : Lasts G s (State.currents t s) := by
  unfold State.currents
  refine .eachIx (fun _ _ h => ?_) (.refl _)
  extract_lets +onlyGivenNames _
  exact .after (State.curBoundary_lasts ..) h

theorem State.outputs_lasts (t : Nat) (readback : List Nat) (modeDone : Bool) (s : State) :
    Lasts G s (State.outputs t readback modeDone s) := by
  unfold State.outputs
  exact .after (State.permitEvent_lasts ..)
    (.after (State.outsBoundary_lasts ..)
    (.after (State.driveOuts_lasts ..) (.past (State.releases_keeps ..)
    (.after (State.currents_lasts ..) (.after (State.driveOuts_lasts ..)
    (.after (State.watchTest_lasts ..) (.eachIx (fun _ _ h => .after (State.gearWatch_lasts ..) h)
    (.eachIx (fun _ _ h => .after (State.takeOrder_lasts ..) h)
    (.after (State.modeBoundary_lasts ..)
    (.eachIx (fun _ _ h => .after (State.axisOut_lasts ..) h)
    (.eachIx (fun _ _ h => .after (State.torqueFall_lasts ..) h)
    (.eachIx (fun _ _ h => .after (State.ss1Boundary_lasts ..) h)
    (.after (State.sampleIns_lasts ..) (.keeps (State.monBoundary_keeps ..) rfl))))))))))) rfl)))

theorem State.winBoundary_lasts (s : State) : Lasts G s (State.winBoundary s) := by
  unfold State.winBoundary
  exact .after (State.mbBoundary_lasts ..) (.keeps (State.onWin_keeps ..) rfl)

theorem State.linkBoundary_lasts (may : G) (s : State) : Lasts G s (State.linkBoundary s) := by
  unfold State.linkBoundary
  extract_lets +onlyGivenNames s1
  have h1 : Lasts G s s1 := .after (State.pairStage_lasts ..) (.past (State.giveKept_keeps ..)
    (.past (State.fabAgain_keeps ..) (.keeps (State.conBoundary_keeps ..) rfl) rfl) rfl)
  clear_value s1
  extract_lets +onlyGivenNames s2
  have h2 : Lasts G s s2 := .eachIx (fun _ _ h => .past (State.xdConfirm_keeps ..) h rfl)
    (.eachIx (fun _ _ h => .after (State.xdSend_lasts ..) h) h1)
  clear_value s2
  exact .after (State.eventsOut_lasts ..) (.after (State.twinBoundary_lasts ..) (.after (State.loopBoundary_lasts may ..) h2))

theorem execStageBoundary_lasts (may : G) (io : BoundaryInputs) (s : State) : Answers (Lasts G s) (execStageBoundary io s) := by
  unfold execStageBoundary
  refine .ite (.next (.refl s)) ?_
  extract_lets +onlyGivenNames _ s1
  have h1 : Lasts G s s1 := .tick
  clear_value s1
  extract_lets +onlyGivenNames _ _ s2
  have h2 : Lasts G s s2 := .ite h1 (.after (State.closeStage_lasts ..) h1)
  clear_value s2
  extract_lets +onlyGivenNames s3
  have h3 : Lasts G s s3 := .after (State.outputs_lasts ..) (.after (State.latchAll_lasts ..) (.after (State.applyA_lasts ..)
    (.after (State.openStage_lasts ..) h2)))
  clear_value s3
  extract_lets +onlyGivenNames s4
  have h4 : Lasts G s s4 := .after (State.linkBoundary_lasts may ..) (.after (State.winBoundary_lasts ..)
    (.after (State.surveyAppend_lasts ..) (.after (State.surveyAborts_lasts ..) h3)))
  clear_value s4
  exact .next (.ite (.past (State.publish_keeps ..) h4 rfl) h4)

theorem execBoundaryNotice_lasts (io : NoticeInputs) (s : State) : Answers (Lasts G s) (execBoundaryNotice io s) := by
  unfold execBoundaryNotice
  exact .ite (.next .tick) (.next (.past (State.offerStewardKept_keeps ..)
    (.past (State.publish_keeps ..) (.past (State.chargerNow_keeps ..)
    (.after (State.purseBoundary_lasts ..)
    (.after (State.testNotice_lasts ..) (.after (State.ledBoundary_lasts ..)
    (.eachIx (fun _ _ h => .after (State.conProduce_lasts ..) h)
    (.eachIx (fun _ _ h => .ite (.after (State.edmBoundary_lasts ..) h) h)
    (.after (State.noticeB_lasts ..) (.past (Keeps.stage ..) .tick rfl))))))) rfl) rfl) rfl))

theorem execCommitCutoff_lasts (t : Nat) (executed : List (Work × Nat)) (s : State) :
    Answers (Lasts G s) (execCommitCutoff t executed s) := by
  unfold execCommitCutoff
  exact .ite (.next .tick) (.next (.after (State.endSweep_lasts ..) .tick))

theorem execGraphStart_lasts (t : Nat) (s : State) : Answers (Lasts G s) (execGraphStart t s) := by
  unfold execGraphStart
  exact .ite (.next .tick) (.next (.after (State.graphStart_lasts ..)
    (.eachIx (fun _ _ h => .after (State.xdStage_lasts ..) h) .tick)))

theorem State.kernelWork_lasts (w : Work) (s : State) : Lasts G s (State.kernelWork w s) := by
  unfold State.kernelWork
  extract_lets +onlyGivenNames s1
  have h1 : Lasts G s s1 := .past (State.repeatHeld_keeps ..) (.keeps (State.unshow_keeps ..) rfl) rfl
  clear_value s1
  split
  · exact .after (State.modeKernel_lasts ..) h1
  · exact .after (State.evalChannel_lasts ..) h1
  · exact .after (State.axisKernel_lasts ..) h1
  · exact .after (State.groupKernel_lasts ..) h1
  · exact .after (State.carKernel_lasts ..) h1
  · exact .after (State.doorKernel_lasts ..) h1
  · exact .after (State.dispatchKernel_lasts ..) h1
  · split
    · split
      · exact .past (State.formBids_keeps ..) h1 rfl
      · exact h1
    · exact h1
  · exact .after (State.surveyKernel_lasts ..) h1
  · exact h1

theorem execTaskCompletion_lasts (t lane cyc : Nat) (s : State) : Answers (Lasts G s) (execTaskCompletion t lane cyc s) := by
  unfold execTaskCompletion
  extract_lets +onlyGivenNames s1
  have h1 : Lasts G s s1 := .past (State.comeTo_keeps ..) .tick rfl
  clear_value s1
  split
  · exact .next (.past (State.select_keeps ..) h1 rfl)
  · extract_lets +onlyGivenNames _
    refine .ite (.next (.past (State.select_keeps ..) h1 rfl)) ?_
    extract_lets +onlyGivenNames s2
    have h2 : Lasts G s s2 := .past (State.setLane_keeps ..) h1 rfl
    clear_value s2
    exact .ite (.next (.past (State.select_keeps ..) (.after (State.overrun_lasts ..) h2) rfl))
      (.ite (.next (.past (State.select_keeps ..)
      (.after (State.endedCancelled_lasts ..) (.after (State.respEv_lasts ..) h2)) rfl))
      (.next (.past (State.select_keeps ..)
      (.after (State.committed_lasts ..) (.after (State.kernelWork_lasts ..) h2)) rfl)))

end

end Sys2Proof.Machine

namespace Sys2Proof.Machine

/-! # What lasts through every command (R506, R596, R619) -/

section
variable {G : Prop}

/-- A command whose list of fields names neither the Ledger nor the Steward nor the twin. -/
theorem exec_lasts_of_writes {c : Instr} (s : State) (w : elsewhere (writes c) = true) : Answers (Lasts G s) (exec c s) := by
  obtain ⟨u, hu, kept⟩ := exec_keeps_writes c s
  exact ⟨u, hu, .keeps kept w⟩

end

/-- The commands by which a member may become ACTIVE. -/
def MayTakeOver (c : Instr) : Prop :=
  (∃ t, c = .handoff t) ∨ (∃ t p h n l x q, c = .leaseGrant t p h n 0 l x q) ∨
    (∃ t p k f h a n l x q, c = .cysinFrame t p k f ∧ f.msg = .leaseGrant h a n 0 l x q) ∨ (∃ io, c = .stageBoundary io)

theorem exec_lasts (c : Instr) (s : State) : Answers (Lasts (MayTakeOver c) s) (exec c s) := by
  cases c with
  | stageBoundary io => exact execStageBoundary_lasts (.inr (.inr (.inr ⟨io, rfl⟩))) io s
  | boundaryNotice io => exact execBoundaryNotice_lasts io s
  | commitCutoff t executed => exact execCommitCutoff_lasts t executed s
  | graphStart t => exact execGraphStart_lasts t s
  | taskCompletion t lane cyc => exact execTaskCompletion_lasts t lane cyc s
  | budgetExhausted t lane => exact execBudgetExhausted_lasts t lane s
  | cancelRequest t w => exact execCancelRequest_lasts t w s
  | waitEvent t wkind wix => exact execWaitEvent_lasts t wkind wix s
  | waitDeadline t task => exact execWaitDeadline_lasts t task s
  | dieLinkFault t link cause detector => exact execDieLinkFault_lasts t link cause detector s
  | edgeClockCheck t khz => exact execEdgeClockCheck_lasts t khz s
  | pllLossOfLock t => exact execPllLossOfLock_lasts t s
  | rtcCheck t mhz => exact execRtcCheck_lasts t mhz s
  | lockstepMismatch t lane => exact execLockstepMismatch_lasts t lane s
  | memoryEcc t addr double => exact execMemoryEcc_lasts t addr double s
  | quadTransition t ch a b z => exact execQuadTransition_lasts t ch a b z s
  | quadConfirm t ch line => exact execQuadConfirm_lasts t ch line s
  | indexInstant t ch => exact execIndexInstant_lasts t ch s
  | sincosSample t ch sin cos => exact execSincosSample_lasts t ch sin cos s
  | ssiWord t ch word lowFirst allHigh => exact execSsiWord_lasts t ch word lowFirst allHigh s
  | ssiDelayMeasure t ch delays => exact execSsiDelayMeasure_lasts t ch delays s
  | dinRawTransition t din level => exact execDinRawTransition_lasts t din level s
  | modulatorBit ticks ch bit => exact execModulatorBit_lasts ticks ch bit s
  | accurateEstimate ticks ch => exact execAccurateEstimate_lasts ticks ch s
  | angleTick t => exact execAngleTick_lasts t s
  | modulatorTimeout ticks ch => exact execModulatorTimeout_lasts ticks ch s
  | gateReadbackMismatch t axis hb high => exact execGateReadbackMismatch_lasts t axis hb high s
  | driverFaultInput t axis low => exact execDriverFaultInput_lasts t axis low s
  | enable axis src tag => exact execEnable_lasts axis src tag s
  | disable axis src tag => exact execDisable_lasts axis src tag s
  | mode axis src code tag => exact execMode_lasts axis src code tag s
  | moveAbs axis src prof flags target vcap tag => exact execMoveAbs_lasts axis src prof flags target vcap tag s
  | moveRel axis src prof dist vcap tag => exact execMoveRel_lasts axis src prof dist vcap tag s
  | velocity axis src prof v vcap tag => exact execVelocity_lasts axis src prof v vcap tag s
  | stop axis src tag => exact execStop_lasts axis src tag s
  | resume axis src tag => exact execResume_lasts axis src tag s
  | quickStop axis src tag => exact execQuickStop_lasts axis src tag s
  | torque axis src current tag => exact execTorque_lasts axis src current tag s
  | hold axis src tag => exact execHold_lasts axis src tag s
  | release axis src tag => exact execRelease_lasts axis src tag s
  | start group src tag => exact execStart_lasts group src tag s
  | line group src seg => exact execLine_lasts group src seg s
  | arc group src seg => exact execArc_lasts group src seg s
  | pathStop group src tag => exact execPathStop_lasts group src tag s
  | pathResume group src tag => exact execPathResume_lasts group src tag s
  | clear group src tag => exact execClear_lasts group src tag s
  | captureAccept t cap => exact execCaptureAccept_lasts t cap s
  | compareFire t out => exact execCompareFire_lasts t out s
  | homingAuto t axis => exact execHomingAuto_lasts t axis s
  | learn t src id kind target step => exact execLearn_lasts t src id kind target step s
  | alignSettle t axis => exact execAlignSettle_lasts t axis s
  | levelSettle t axis => exact execLevelSettle_lasts t axis s
  | doorZoneDiscrepancy t car => exact execDoorZoneDiscrepancy_lasts t car s
  | relevel t car => exact execRelevel_lasts t car s
  | ss1End t axis => exact execSs1End_lasts t axis s
  | brakeTest t src id axis => exact execBrakeTest_lasts t src id axis s
  | brakeTestStepEnd t => exact execBrakeTestStepEnd_lasts t s
  | testPulse t out offA offB => exact execTestPulse_lasts t out offA offB s
  | edmTimeout t out => exact execEdmTimeout_lasts t out s
  | clearFault t src id => exact execClearFault_lasts t src id s
  | dspBid t callId merged bids => exact execDspBid_lasts t callId merged bids s
  | bidRoundClose t callId => exact execBidRoundClose_lasts t callId s
  | dspAccept t callId unit car => exact execDspAccept_lasts t callId unit car s
  | dspDecline t callId unit car reason => exact execDspDecline_lasts t callId unit car reason s
  | acceptTimeout t callId => exact execAcceptTimeout_lasts t callId s
  | callReopen t callId => exact execCallReopen_lasts t callId s
  | collectorSwitch t req => exact execCollectorSwitch_lasts t req s
  | dspDone t callId unit car => exact execDspDone_lasts t callId unit car s
  | dspRelease t callId unit car reason => exact execDspRelease_lasts t callId unit car reason s
  | portLinkChange t port up => exact execPortLinkChange_lasts t port up s
  | linkHello t port unit boot keyCur keyOther a => exact execLinkHello_lasts t port unit boot keyCur keyOther a s
  | helloSend t port => exact execHelloSend_lasts t port s
  | neighbourTimeout t port unit => exact execNeighbourTimeout_lasts t port unit s
  | sync t port seqId origin corr stamp => exact execSync_lasts t port seqId origin corr stamp s
  | syncTimeout t => exact execSyncTimeout_lasts t s
  | timeSeal t origin seqId => exact execTimeSeal_lasts t origin seqId s
  | safetyPdu t src boot conn scount ts flags data crc => exact execSafetyPdu_lasts t src boot conn scount ts flags data crc s
  | safetyWatchdog t con => exact execSafetyWatchdog_lasts t con s
  | xdConfirmTimeout t axis => exact execXdConfirmTimeout_lasts t axis s
  | unitStatus t => exact execUnitStatus_lasts t s
  | twinPacket t p => exact execTwinPacket_lasts t p s
  | twinHeartbeat t => exact execTwinHeartbeat_lasts t s
  | twinLink t up => exact execTwinLink_lasts t up s
  | rebase t => exact execRebase_lasts t s
  | compareResume t => exact execCompareResume_lasts t s
  | roleRequest t => exact execRoleRequest_lasts t s
  | leaseRequest t pair unit leaseNo lease cause successor => exact execLeaseRequest_lasts t pair unit leaseNo lease cause successor s
  | leaseGrant t pair holder leaseNo result left successor requester =>
    exact execLeaseGrant_lasts t pair holder leaseNo result left successor requester s fun zero => .inr (.inl ⟨_, _, _, _, _, _, _, by rw [zero]⟩)
  | leaseRelease t pair unit leaseNo => exact execLeaseRelease_lasts t pair unit leaseNo s
  | leaseRenew t => exact execLeaseRenew_lasts t s
  | leaseExpiry t => exact execLeaseExpiry_lasts t s
  | handoff t => exact execHandoff_lasts (.inl ⟨t, rfl⟩) t s
  | grantCheck t => exact execGrantCheck_lasts t s
  | switch t src id => exact execSwitch_lasts t src id s
  | pdClass t port cls powered => exact execPdClass_lasts t port cls powered s
  | powerLoss t => exact execPowerLoss_lasts t s
  | powerReturn t => exact execPowerReturn_lasts t s
  | holdFloor t hold => exact execHoldFloor_lasts t hold s
  | grantExceeded t => exact execGrantExceeded_lasts t s
  | sensorSupply t mw5 mw12 => exact execSensorSupply_lasts t mw5 mw12 s
  | railLow t rail => exact execRailLow_lasts t rail s
  | busEnergy t bus => exact execBusEnergy_lasts t bus s
  | pairedDeparture t car => exact execPairedDeparture_lasts t car s
  | thermalSample t temps => exact execThermalSample_lasts t temps s
  | thermalCool t => exact execThermalCool_lasts t s
  | sensorDisagreement t die => exact execSensorDisagreement_lasts t die s
  | ledgerOccurrence t code sev payload => exact execLedgerOccurrence_lasts t code sev payload s
  | ledgerMaxAge t => exact execLedgerMaxAge_lasts t s
  | pageProgrammed t failed => exact execPageProgrammed_lasts t failed s
  | nevtAck t value => exact execNevtAck_lasts t value s
  | flushBit t value => exact execFlushBit_lasts t value s
  | nevtPulseEnd t => exact execNevtPulseEnd_lasts t s
  | readFrom t seq => exact execReadFrom_lasts t seq s
  | apertureFill t => exact execApertureFill_lasts t s
  | rtcTick t => exact execRtcTick_lasts t s
  | lifeClockPersist t => exact execLifeClockPersist_lasts t s
  | ageingMeasurement t counts => exact execAgeingMeasurement_lasts t counts s
  | coreSupplyLow t die => exact execCoreSupplyLow_lasts t die s
  | holdTest t src id => exact execHoldTest_lasts t src id s
  | holdTestDue t => exact execHoldTestDue_lasts t s
  | holdTestStart t => exact execHoldTestStart_lasts t s
  | holdTestEnd t esr dt => exact execHoldTestEnd_lasts t esr dt s
  | selfTest t src id pass => exact execSelfTest_lasts t src id pass s
  | periodicSelfTest t pass => exact execPeriodicSelfTest_lasts t pass s
  | objectChunk t src type c => exact execObjectChunk_lasts t src type c s
  | updateBlock t src c => exact execUpdateBlock_lasts t src c s
  | partEraseDone t => exact execPartEraseDone_lasts t s
  | partVerified t c => exact execPartVerified_lasts t c s
  | amendment t => exact execAmendment_lasts t s
  | amendmentCommit t => exact execAmendmentCommit_lasts t s
  | keyDelivery t => exact execKeyDelivery_lasts t s
  | keyActivation t => exact execKeyActivation_lasts t s
  | ownerKeyFuse t => exact execOwnerKeyFuse_lasts t s
  | unsignedOwnerKey t => exact execUnsignedOwnerKey_lasts t s
  | ownerKeyRevoke t => exact execOwnerKeyRevoke_lasts t s
  | zeroise t => exact execZeroise_lasts t s
  | activate t => exact execActivate_lasts t s
  | commit t => exact execCommit_lasts t s
  | journalCompactionDone t => exact execJournalCompactionDone_lasts t s
  | attestRequest t src keyless nonce flags => exact execAttestRequest_lasts t src keyless nonce flags s
  | attestSigned t pass => exact execAttestSigned_lasts t pass s
  | supplyUp t => exact execSupplyUp_lasts t s
  | nresetAssert t => exact execNresetAssert_lasts t s
  | waking t failed nor => exact execWaking_lasts t failed nor s
  | containerChecked t part c => exact execContainerChecked_lasts t part c s
  | containerLoaded t fw wb => exact execContainerLoaded_lasts t fw wb s
  | sectionCheck t => exact execSectionCheck_lasts t s
  | journalReplay t => exact execJournalReplay_lasts t s
  | releaseOutputs t => exact execReleaseOutputs_lasts t s
  | wakingTimeout t => exact execWakingTimeout_lasts t s
  | modeCommand t src id target eff => exact execModeCommand_lasts t src id target eff s
  | rescue t car => exact execRescue_lasts t car s
  | lodgeEntry t => exact execLodgeEntry_lasts t s
  | lodgeWake t source input => exact execLodgeWake_lasts t source input s
  | windowReadServe t => exact execWindowReadServe_lasts t s
  | flush t src id => exact execFlush_lasts t src id s
  | setTime t src id site => exact execSetTime_lasts t src id site s
  | write t src id addr width value => exact execWrite_lasts t src id addr width value s
  | cysinFrame t port from_ f =>
    exact execCysinFrame_lasts (may := fun _ _ _ _ _ _ msg => .inr (.inr (.inl ⟨_, _, _, _, _, _, _, _, _, _, rfl, msg⟩))) ..
  | announce t port a => exact execAnnounce_lasts t port a s
  | serviceWriteTransaction t op len crc m => exact execServiceWriteTransaction_lasts t op len crc m s
  | _ => exact exec_lasts_of_writes s rfl

/-- Settles O7: no command programs a slot again, takes a counter back or unblows a fuse. -/
theorem flashAndFusesKept : Obligations.FlashAndFusesKept := by
  intro c s u h
  obtain ⟨⟨new, slots⟩, used, fuses, -⟩ := (exec_lasts c s).of_next h
  exact ⟨⟨new, slots.symm⟩, used, fuses.fw, fuses.wb, fuses.kill, fuses.boots, fun k two => (fuses.owners k two).1⟩

/-- Settles O8: the role ACTIVE is taken by a hand-off or a granted lease, or at a boundary. -/
theorem activeOnlyByLease : Obligations.ActiveOnlyByLease := by
  intro c s u h out active
  exact (((exec_lasts c s).of_next h).role active).resolve_left out

end Sys2Proof.Machine
